-- ==== Sys2Proof/Word.lean ====
section
/-! DEFINITION. The word types of the block (R2, R6): a BAR0 register is 32 bits wide, a byte is 8 bits,
and every other quantity the manual counts (times, counts, identifiers, addresses) is a plain `Nat`. -/

namespace Sys2Proof

/-- A BAR0 register value (R6). -/
abbrev Word32 := BitVec 32

/-- One byte of module DRAM or of a host buffer. -/
abbrev Byte := BitVec 8

/-- A verdict bitmap: bit k is the verdict of source k, 1 for live (R30, R129). -/
abbrev Bitmap := BitVec 8192

/-- A finite map by number: strictly rising keys, one value a key. -/
abbrev Map (α : Type) := List (Nat × α)

end Sys2Proof
end

