-- ==== Sys2Proof/Syntax.lean ====
section
/-! DEFINITION. The commands of the block, whole: one constructor of `Instr` for each row of the opcode table, and the
records those commands carry. A descriptor's fields stand under their names in the manual; a command that reports a
happening at an interface carries what the outside decides (a packet, a measured value, a level) and nothing the module
computes itself. `rz` in a record says that every reserved field, bit and byte of it is 0 (R7, R473). -/

namespace Sys2Proof

/-- A rectangle by its top-left pixel, width and height (R5). -/
structure Rect where
  (x y w h : Nat)
deriving DecidableEq, Repr, Inhabited

/-- A colour of three 10-bit components (R42, R43). -/
structure Rgb where
  (r g b : Nat)
deriving DecidableEq, Repr, Inhabited

/-- A palette colour: three 10-bit components and a 10-bit alpha (R258). -/
structure Rgba where
  (r g b a : Nat)
deriving DecidableEq, Repr, Inhabited

/-- A claim word (R208). `high` is the content of bits [7:6], which must be 0 in a valid token (R209). -/
structure Claim where
  (priority position high : Nat)
deriving DecidableEq, Repr, Inhabited

/-- Which main section a record or token comes from (R30, R196): the module's own or its twin's. -/
inductive Side where
  | own | twin
deriving DecidableEq, Repr, Inhabited

/-! ## Records staged through scene transactions (R297) -/

/-- Head timing record (R166). -/
structure HeadTiming where
  (enable syncGroup format : Nat)
  (narrowRange : Bool)
  (hActive hFront hSync hBack vActive vFront vSync vBack : Nat)
  (rz : Bool)
deriving DecidableEq, Repr, Inhabited

/-- Output record of a DisplayPort head (R167). -/
structure DpOutput where
  (maxLinkRate maxLanes : Nat)
  (adaptiveSync rz : Bool)
deriving DecidableEq, Repr, Inhabited

/-- Output record of an egress head (R167). -/
structure EgressOutput where
  (port dscp payloadType : Nat)
  (ipv6 : Bool)
  (ssrc udpPort group : Nat)
  (rz : Bool)
deriving DecidableEq, Repr, Inhabited

/-- An output record in the layout of its head's kind (R166). -/
inductive HeadOutput where
  | zero
  | dp (r : DpOutput)
  | egress (r : EgressOutput)
deriving DecidableEq, Repr, Inhabited

/-- Layer record (R138). -/
structure Layer where
  (enable z content : Nat)
  (allowPrescale baseWindow : Bool)
  (sourceId surfaceId frameW frameH : Nat)
  (src dst : Rect)
  (window coeffSet globalAlpha : Nat)
  (rz : Bool)
deriving DecidableEq, Repr, Inhabited

/-- Bound-region record (R138). -/
structure Region where
  (layer window sourceId : Nat)
  (rect : Rect)
  (rz : Bool)
deriving DecidableEq, Repr, Inhabited

/-- Window record (R198). -/
structure Window where
  (window style colourSet budgetMs : Nat)
  (rz : Bool)
deriving DecidableEq, Repr, Inhabited

/-- Label record (R46): the codes of `text` up to `textLen`. -/
structure Label where
  (text : List Nat)
  (textLen : Nat)
  (showAge rz : Bool)
deriving DecidableEq, Repr, Inhabited

/-- Colour set (R43). -/
structure ColourSet where
  (stripe plate labelFg labelBg conceal blackout : Rgb)
  (rz : Bool)
deriving DecidableEq, Repr, Inhabited

/-- Tailstock head record (R199). -/
structure TsHead where
  (holdLimitMs plateColourSet : Nat)
  (rz : Bool)
deriving DecidableEq, Repr, Inhabited

/-- Calipers rectangle record (R216). -/
structure CalRect where
  (mode : Nat)
  (attention : Bool)
  (changeN : Nat)
  (rect : Rect)
  (expectedCrc : Nat)
  (rz : Bool)
deriving DecidableEq, Repr, Inhabited

/-- Sync group record (R182). -/
structure SyncGroup where
  (groupId mode commitHorizon frameRef rateNum rateDen phaseNs minRateMhz paceSource : Nat)
  (rz : Bool)
deriving DecidableEq, Repr, Inhabited

/-- One region of a driver rule set (R387); the masks are those of the initiator classes. -/
structure RuleRegion where
  (base pages readMask writeMask : Nat)
deriving DecidableEq, Repr, Inhabited

/-- A driver rule set (R387). -/
structure RuleSet where
  (gate regionCount : Nat)
  (regions : List RuleRegion)
  (rz : Bool)
deriving DecidableEq, Repr, Inhabited

/-- The body of a staging item, in the layout its item type gives (R297). -/
inductive ItemBody where
  | headTiming (r : HeadTiming)
  | headOutput (r : HeadOutput)
  | background (c : Rgb) (rz : Bool)
  | layer (r : Layer)
  | region (r : Region)
  | window (r : Window)
  | label (r : Label)
  | colourSet (r : ColourSet)
  | tsHead (r : TsHead)
  | calipers (r : CalRect)
  | syncGroup (r : SyncGroup)
  | gateRules (r : RuleSet)
  | empty
deriving DecidableEq, Repr, Inhabited

/-- A staging item: its header (R301) and its body. -/
structure Item where
  (itemType : Nat)
  (clear : Bool)
  (head index bodyLen : Nat)
  (rz : Bool)
  (body : ItemBody)
deriving DecidableEq, Repr, Inhabited

/-! ## Descriptors (R282) -/

/-- The common descriptor header and where it was taken from (R282, R284): the ring, the flags, the target, the version,
the tag; `rz` is that every reserved field of the whole descriptor is 0; `buf` is the host bus address the descriptor
names, 0 for none; `dmaOk` is how the command's host accesses end (R285). -/
structure Desc where
  (ring : Nat)
  (attn attnErr fence quiet : Bool)
  (target version : Nat)
  (rz : Bool)
  (tag buf : Nat)
  (dmaOk : Bool)
deriving DecidableEq, Repr, Inhabited

/-- Port-configure descriptor (R52), also of EGRESS_PORT_CONFIGURE (R178). -/
structure PortBody where
  (port lane mode fec vlan pcp : Nat)
  (ipv4En ipv6En : Bool)
  (ipv4 ipv4Prefix ipv6 ipv6Prefix : Nat)
deriving DecidableEq, Repr, Inhabited

/-- Leg record of the ingest parameter block (R60). -/
structure Leg where
  (group source udpPort port lane ssrc : Nat)
  (ipv6 checkSsrc : Bool)
deriving DecidableEq, Repr, Inhabited

/-- Ingest parameter block (R60). -/
structure IngestParams where
  (media timingMode legCount payloadType width height rateNum rateDen : Nat)
  (sampling colorimetry range packing rtpClockHz peakMbps jitterUs frameSlots freshExtId : Nat)
  (srcUNs srUNs driftPpm latencyNs : Nat)
  (legA legB : Leg)
  (rz : Bool)
deriving DecidableEq, Repr, Inhabited

/-- Ingest-open descriptor (R60). -/
structure IngestOpenBody where
  (source paramLen regionBase regionSize : Nat)
  (params : IngestParams)
deriving DecidableEq, Repr, Inhabited

/-- Proxy-open descriptor (R72). -/
structure ProxyBody where
  (source port lane udpPort dscp payloadType ssrc : Nat)
  (ipv6 : Bool)
  (group : Nat)
deriving DecidableEq, Repr, Inhabited

/-- Decode-attach descriptor (R81). -/
structure AttachBody where
  (source codec pipeline maxWidth maxHeight maxRateMhz maxBitrateKbps maxBitDepth dpbSlots policy maxConcealPct : Nat)
  (bufBase bufSize : Nat)
deriving DecidableEq, Repr, Inhabited

/-- Ledger define and set descriptor (R108, R110). -/
structure LedgerBody where
  (source kind cls expectUs lossMs staleMs parent field : Nat)
  (staticDesign : Bool)
deriving DecidableEq, Repr, Inhabited

/-- Vouch descriptor or batch record (R121, R122). -/
structure VouchBody where
  (source : Nat)
  (test frozen : Bool)
  (uNs asOfNs : Nat)
deriving DecidableEq, Repr, Inhabited

/-- Surface-register descriptor (R132). -/
structure SurfaceBody where
  (surface format imageCount width height pitch imageStride base colorimetry range : Nat)
deriving DecidableEq, Repr, Inhabited

/-- Surface-upload descriptor with the bytes of the host buffer, luma lines then chroma lines (R134). -/
structure UploadBody where
  (surface image : Nat)
  (present noWait : Bool)
  (rect : Rect)
  (hostPitch : Nat)
  (data : List Byte)
deriving DecidableEq, Repr, Inhabited

/-- Record-start descriptor (R228). -/
structure RecordBody where
  (head divisor profile : Nat)
  (statsEn : Bool)
  (qpTarget qpMax idrInterval capKbps ringSize ringAddr progressAddr workBase workSize : Nat)
deriving DecidableEq, Repr, Inhabited

/-- Overlay bind descriptor with its palette (R257, R258). -/
structure BindBody where
  (binding engine trigger list surface : Nat)
  (present seed notify : Bool)
  (everyN group eventSource eventMask : Nat)
  (palette : List Rgba)
deriving DecidableEq, Repr, Inhabited

/-- Writeback descriptor (R160). -/
structure WritebackBody where
  (head mode everyN : Nat)
  (spans : Bool)
  (surface : Nat)
deriving DecidableEq, Repr, Inhabited

/-- HEAD_AUX with what the sink answers: whether it acknowledged within seven attempts, and the bytes read (R176). -/
structure AuxBody where
  (head : Nat)
  (write : Nat)
  (len addr : Nat)
  (data : List Byte)
  (acked : Bool)
  (readData : List Byte)
deriving DecidableEq, Repr, Inhabited

/-- OVERLAY_RUN (R265). -/
structure RunBody where
  (binding : Nat)
  (setSlot noWait : Bool)
  (slot textLen : Nat)
  (text : List Nat)
deriving DecidableEq, Repr, Inhabited

/-- OVERLAY_FONT_LOAD with the glyph rows (R257). -/
structure FontBody where
  (font cellW cellH firstCode count : Nat)
  (glyphs : List Byte)
deriving DecidableEq, Repr, Inhabited

/-- The initial reading of the outside at a power-up or reset: the straps as R443 reads them and what the banks hold under
the check of R462. -/
structure BootFacts where
  (masterSel sideB : Bool)
  (bankAOk bankBOk : Bool)
deriving DecidableEq, Repr, Inhabited

/-- The commands a host descriptor names, with what each carries after the common header, and what other modules have told where
the command asks them: `staged` is the mask of the modules that are STAGED, `twinHash` the body hash that the twin is STAGED with,
`join` that the twin, not the Headstock, sends the command. A forwarded command (R343) carries one of these to its target. -/
inductive HostCmd where
  | portConfigure (b : PortBody)
  | ingestOpen (b : IngestOpenBody)
  | ingestClose (source : Nat) (abort : Bool)
  | ingestCounters (source : Nat)
  | proxyOpen (b : ProxyBody)
  | proxyClose (source : Nat)
  | decodeAttach (b : AttachBody)
  | decodeDetach (source : Nat) (abort : Bool)
  | decodePolicy (source policy pct : Nat)
  | decodeStatus (source : Nat)
  | decodeSelftest (pipeline : Nat)
  | ledgerDefine (b : LedgerBody)
  | ledgerSet (b : LedgerBody)
  | ledgerDelete (source : Nat)
  | ledgerWithdraw (source : Nat) (withdraw : Bool)
  | ledgerVouch (b : VouchBody)
  | ledgerVouchBatch (count : Nat) (l : List VouchBody)
  | ledgerTest (source : Nat) (test : Bool)
  | ledgerProbe (source enable freezeK freezeSad : Nat)
  | ledgerRead (first count : Nat)
  | surfaceRegister (b : SurfaceBody)
  | surfaceUpload (b : UploadBody)
  | surfaceRetire (surface : Nat)
  | surfaceRead (b : UploadBody)
  | scalerLoad (set : Nat) (coeffs : List Int)
  | scalerRead (set : Nat)
  | writeback (b : WritebackBody)
  | composeSelftest (pipe : Nat)
  | composeStatus (head : Nat)
  | headStatus (head : Nat)
  | headSinkRead (head : Nat)
  | headSinkPower (head power : Nat)
  | headAux (b : AuxBody)
  | egressPortConfigure (b : PortBody)
  | tailstockGlyphLoad (first count : Nat) (glyphs : List Byte)
  | calipersRead (head : Nat)
  | tailstockStatus (head : Nat)
  | verdictRead (select : Nat)
  | holdRead (head : Nat) (rect : Rect)
  | tailstockFontRead
  | recordStart (b : RecordBody)
  | recordStop (head : Nat) (abort : Bool)
  | recordStats (head : Nat)
  | recordForceIdr (head : Nat)
  | encodeSelftest (pipe : Nat)
  | overlayListLoad (list length : Nat) (bytes : List Byte)
  | overlayListFree (list : Nat)
  | overlayFontLoad (b : FontBody)
  | overlayBind (b : BindBody)
  | overlayUnbind (binding : Nat)
  | overlayRun (b : RunBody)
  | overlayStatus (engine : Nat)
  | nop
  | eventRoute (ring subjectMask attnMask : Nat)
  | hostDetach
  | txnBegin (lockstep : Bool) (modules : Nat)
  | txnStage (txn position itemCount itemsLen : Nat) (items : List Item)
  | txnValidate (txn reportLen : Nat)
  | txnCommit (txn applyNs reportLen : Nat)
  | txnAbort (txn : Nat)
  | txnStatus (txn len : Nat)
  | laneCounters (lane : Nat)
  | laneTest (lane durationMs : Nat) (farAllows pathBeyond : Bool)
  | cascadeStatus
  | cascadeRenumber (identity : Nat)
  | twinRole (op : Nat)
  | cascadeSleep
  | cascadeWake
  | memStatus
  | memRetrain (channel : Nat)
  | memInject (addr devices first : Nat)
  | gateFence (mask : Nat) (poll : Bool)
  | gateFaultRead (seq : Nat)
  | mbxPost (receiver slot : Nat) (msg : List Byte)
  | mbxRead (mask : Nat)
  | lockAcquire (lock : Nat)
  | lockRelease (lock : Nat)
  | mgmtStatus
  | mgmtMaintenance (enter : Nat)
  | mgmtLogRead (first count : Nat) (pinnedOnly : Bool)
  | mgmtReset
  | mgmtLadderTest (step : Nat)
  | updateStatus
  | updateDistribute (source mask staged : Nat)
  | updateActivate (mask activateNs staged : Nat)
  | updateHitless (twinHash : Option Nat) (join : Bool)
  | updateEngine (streamMask overlayMask : Nat)
  | updateConfirm
  | updateRevert (b : BootFacts)
  | updateCancel (mask : Nat)
deriving DecidableEq, Repr, Inhabited

/-! ## What happenings at the interfaces carry -/

/-- One command ring entry of the ring table (R277). -/
structure CmdRingEntry where
  (base sizeLog2 cplRing priority : Nat)
deriving DecidableEq, Repr, Inhabited

/-- One completion ring entry of the ring table (R277). -/
structure CplRingEntry where
  (base sizeLog2 : Nat)
deriving DecidableEq, Repr, Inhabited

/-- One event ring entry of the ring table (R277). -/
structure EvtRingEntry where
  (base sizeLog2 subjectMask attnMask : Nat)
deriving DecidableEq, Repr, Inhabited

/-- The ring table as an attach reads it (R277). -/
structure RingTable where
  (version : Nat)
  (doorbellAddr statusAddr : Nat)
  (cmd : List CmdRingEntry)
  (cpl : List CplRingEntry)
  (evt : List EvtRingEntry)
  (rz : Bool)
deriving DecidableEq, Repr, Inhabited

/-- A freshness element as it rides in an RTP header extension (R117): the extension id, whether in the two-byte form, its bytes. -/
structure RtpElement where
  (extId : Nat)
  (twoByte : Bool)
  (data : List Byte)
deriving DecidableEq, Repr, Inhabited

/-- One field record of a freshness element (R117). -/
structure FieldRec where
  (fieldId : Nat)
  (ageUnknown frozen test : Bool)
  (ageUMs dataAgeUs : Nat)
deriving DecidableEq, Repr, Inhabited

/-- What a valid freshness element says (R117). -/
structure Element where
  (ageUnknown staticDesign frozen test : Bool)
  (heartbeat dataAgeUs ageUUs : Nat)
  (fields : List FieldRec)
deriving DecidableEq, Repr, Inhabited

/-- One sample-row segment of an ST 2110-20 packet: line, pixel offset, field bit, payload bytes (R54). -/
structure Segment where
  (line offset : Nat)
  (fieldBit : Bool)
  (bytes : List Byte)
deriving DecidableEq, Repr, Inhabited

/-- A NAL unit of a compressed stream, or a fragment of one: its number in the access unit, whether the fragment is the first
and the last of it, and its bytes (R54). -/
structure NalPart where
  (unit : Nat)
  (first last : Bool)
  (bytes : List Byte)
deriving DecidableEq, Repr, Inhabited

/-- How the payload of a packet of a compressed stream is formed: single NAL unit, aggregation packet (STAP-A), fragmentation
unit (FU-A), or one of the forms that R54 does not support. -/
inductive PayloadForm where
  | single | aggregation | fragment | paci | donl | stapB | mtap | fuB
deriving DecidableEq, Repr, Inhabited

/-- An RTP packet at an ingest interface (R52, R54, R64): the length of its Ethernet frame, the 802.1Q tags of it, outer first,
its addresses, and the RTP packet. `extSeq` is the high half that ST 2110-20 carries. -/
structure RtpPacket where
  (port lane frameLen : Nat)
  (tags : List Nat)
  (ipv6 : Bool)
  (group source udpPort : Nat)
  (ssrc payloadType seq extSeq ts : Nat)
  (marker : Bool)
  (element : Option RtpElement)
  (segments : List Segment)
  (form : PayloadForm)
  (nals : List NalPart)
deriving DecidableEq, Repr, Inhabited

/-- A PTP Announce (R57), with the fields the best master clock algorithm compares (R56); `sender` is the port identity of its
sender, which in a network of boundary clocks is not the grandmaster's. -/
structure Announce where
  (port domain gmId priority1 clockClass accuracy variance priority2 stepsRemoved sender : Nat)
  (utcValid : Bool)
  (utcOffset intervalMs : Nat)
deriving DecidableEq, Repr, Inhabited

/-- What a sequence parameter set says (R78, R80, R89, R99). `constrained` is constraint_set1_flag of AVC; `chroma` is
chroma_format_idc; `reorder` and `latency` are the limits of the standard's output process, a latency of 0 standing for none;
`ctu` is the CTU or macroblock size; `colour` is the colorimetry and range its VUI gives, if it gives a colour description. -/
structure SpsInfo where
  (width height bitDepth rateMhz maxDpb reorder latency : Nat)
  (profile tier level chroma ctu : Nat)
  (constrained fieldSeq frameMbsOnly : Bool)
  (colour : Option (Nat × Nat))
deriving DecidableEq, Repr, Inhabited

/-- A parameter set found in an access unit (R90, R92): a VPS, an SPS, or a PPS with the SPS it names and whether it has more than
one slice group. -/
inductive ParamSet where
  | vps (id : Nat)
  | sps (id : Nat) (x : SpsInfo)
  | pps (id spsId : Nat) (fmo : Bool)
deriving DecidableEq, Repr, Inhabited

/-- A slice segment or slice as the entropy decoder reads it (R90, R92): the number of its NAL unit in the access unit, whether it is
a redundant one, the bytes of its slice data, the address and the bins of each CTU or macroblock it covers, in decoding order, and
how many of these decode before corrupt syntax is met, if any is. -/
structure SliceFact where
  (nal : Nat)
  (redundant : Bool)
  (dataBytes : Nat)
  (ctus : List (Nat × Nat))
  (error : Option Nat)
deriving DecidableEq, Repr, Inhabited

/-- What the syntax of an access unit says, as the cited standard reads it (R78, R79, R92, R99): parameter sets, the PPS that the
picture names, its picture order count, pic_output_flag, no_output_of_prior_pics_flag, arbitrary slice order, its slices, the
pictures its decoding process needs as references and the ones that stay references after it (by picture order count), and the
type and value of a decoded picture hash SEI. -/
structure PicFacts where
  (sets : List ParamSet)
  (pps poc : Nat)
  (output noPrior aso : Bool)
  (slices : List SliceFact)
  (refs keeps : List Nat)
  (hash : Option (Nat × Nat))
deriving DecidableEq, Repr, Inhabited

/-- One judged run of pixels on a line (R157). -/
structure Span where
  (xStart length sourceId window : Nat)
  (void unbound held concealed : Bool)
  (originUs layer : Nat)
deriving DecidableEq, Repr, Inhabited

/-- A line token (R209, R328), or an idle token when it holds no line. -/
structure LineToken where
  (frameNo line head : Nat)
  (idle : Bool)
  (claim : Claim)
  (spans : List Span)
  (pixels : List Rgb)
deriving DecidableEq, Repr, Inhabited

/-- One of a Tailstock head's parts of a main-section record write (R196, R197). -/
inductive TsRecord where
  | mapEntry (head window : Nat) (valid : Bool) (style colourSet : Nat) (internal staticSrc : Bool)
      (sourceId budgetMs : Nat) (rect : Rect) (kind layer : Nat)
  | label (head index : Nat) (r : Label)
  | colourSet (head index : Nat) (r : ColourSet)
  | headTiming (head : Nat) (r : HeadTiming)
  | headOutput (head : Nat) (r : HeadOutput)
  | tsHead (head : Nat) (r : TsHead)
  | calipers (head index : Nat) (r : CalRect)
  | syncGroup (group : Nat) (r : Option SyncGroup)
  /-- Flag bit 1 of every window map entry of a source, rewritten in both banks of its main section (R197). -/
  | staticSrc (source : Nat) (static : Bool)
deriving DecidableEq, Repr, Inhabited

/-- What the encoder makes a CTU row of: the head and the count of pictures coded before, profile, IDR or P, picture order count, row, QP; the
samples of the row, line by line, luma and then Cb and Cr interleaved; and for a P picture the search window of each CTU, line by line
(R232, R233, R235, R237, R243). -/
structure RowInput where
  (head picture profile : Nat)
  (idr : Bool)
  (poc row qp : Nat)
  (luma chroma : List (List Nat))
  (windows : List (List (List Nat)))
deriving DecidableEq, Repr, Inhabited

/-- What the parameter sets of a recorded stream say (R232, R233, R243). -/
structure StreamParams where
  (profile level codedWidth codedHeight cropRight cropBottom : Nat)
  /-- Sizes as powers of two: CTU, smallest coding unit, largest and smallest transform unit. -/
  (ctuLog2 minCuLog2 maxTuLog2 minTuLog2 references reordering : Nat)
  (deblocking sao temporalMvp tiles wavefront scalingLists longTerm weighted : Bool)
  (primaries transfer matrix : Nat)
  (fullRange : Bool)
  (numUnitsInTick timeScale : Nat)
  (pocProportional : Bool)
  (ticksPocDiffMinus1 log2MaxPocMinus4 : Nat)
deriving DecidableEq, Repr, Inhabited

/-- The errors that reading a line's judging material meets: window map entries, label records and colour sets whose parity fails, a word of
the verdict bitmap whose parity fails, and the columns at which the two judges disagree (R205, R225). -/
structure LineErrors where
  (entries labels colours : List Nat)
  (bitmap : Bool)
  (judges : List Nat)
deriving DecidableEq, Repr, Inhabited

/-- What the module reads from a sink at a connection (R174, R177). -/
structure SinkInfo where
  (maxLinkRate maxLanes : Nat)
  (dpcd edid : List Byte)
  (range : Option (Nat × Nat))
deriving DecidableEq, Repr, Inhabited

/-- A window summary of a returned frame (R222). -/
structure WindowSummary where
  (window : Nat)
  (scorchedAny scorchedAll voidAny heldAny concealedAny mismatchAny : Bool)
  (sourceId scorchedPx ageMinUs ageMaxUs : Nat)
deriving DecidableEq, Repr, Inhabited

/-- The header of a returned frame (R222). -/
structure ReturnHeader where
  (frameNo head state frameStartNs : Nat)
  (claim composedBy linesReplayed width height : Nat)
  (plate uUnbounded calUnreliable : Bool)
  (uUs scorchedPx : Nat)
  (windows : List WindowSummary)
deriving DecidableEq, Repr, Inhabited

/-- A failure or note of a validation report (R307). -/
structure ReportEntry where
  (position head itemType index code entryKind detail : Nat)
deriving DecidableEq, Repr, Inhabited

/-- One participant's validation summary (R307). -/
structure ValSummary where
  (position maxSpans pipes fetchMpxs c0DecodeMsps c0ProbeMpxs twinTxMbps twinRxMbps out0Mbps out1Mbps : Nat)
deriving DecidableEq, Repr, Inhabited

/-- What a commit, re-target, cancel or rollback message of the Headstock is (R310, R311). -/
inductive CommitKind where
  | commit | retarget (plus : Nat) | cancel | rollback
deriving DecidableEq, Repr, Inhabited

/-- A commit message (R309): the transaction, the instant T and the apply frame of each affected group. -/
structure CommitMsg where
  (txn : Nat)
  (kind : CommitKind)
  (applyNs : Nat)
  (frames : List (Nat × Nat))
deriving DecidableEq, Repr, Inhabited

/-- A participant's apply report (R310): for each affected group the frame used, and whether it applied late. -/
structure ApplyReport where
  (txn position : Nat)
  (applied cancelled rolledBack late : Bool)
  (frames : List (Nat × Nat))
  (sceneGen : Nat)
deriving DecidableEq, Repr, Inhabited

/-- The bonds of R320. -/
inductive Bond where
  | toTailstock | toMain | east | west | twin
deriving DecidableEq, Repr, Inhabited

/-- Traffic classes, by value (R326). -/
inductive TClass where
  | idle | beat | verdict | line | control | ret | bulk
deriving DecidableEq, Repr, Inhabited

/-- A Luasin frame as its receiver finds it (R324, R325). `crcOk` is that its CRC matches, `runViolation` that R322 counts
one, `rz` that its reserved bits are 0. -/
structure LuasinFrame where
  (cls : TClass)
  (first last : Bool)
  (ackKind lane seq claimOrAck length : Nat)
  (crcOk runViolation rz : Bool)
deriving DecidableEq, Repr, Inhabited

/-- A beat or delay message (R351). -/
structure BeatMsg where
  (kind hops origin : Nat)
  (westGoing originLocked : Bool)
  (epoch seq spindleNs : Nat)
  (correctionPs : Int)
deriving DecidableEq, Repr, Inhabited

/-- What discovery finds of one module (R339). -/
structure DiscModule where
  (serial : Nat)
  (masterSel sideB : Bool)
  (storedIdentity : Option Nat)
  (storedPosition : Option Nat)
  (state twinRole : Nat)
  (twinSerial : Option Nat)
deriving DecidableEq, Repr, Inhabited

/-- A presence message (R341); `caughtUp` is what a twin role of STANDBY adds for R360. -/
structure Presence where
  (position state twinRole sceneGen bootCount : Nat)
  (caughtUp : Bool)
deriving DecidableEq, Repr, Inhabited

/-- A module's identity at twin pairing (R354, R358). -/
structure TwinIdent where
  (part serial : Nat)
  (sideB : Bool)
  (version : Nat)
  (identity : Option Nat)
  (position : Option Nat)
  (inService starting : Bool)
  (sceneGen : Nat)
  (headstock : Bool)
deriving DecidableEq, Repr, Inhabited

/-- The initiator of an access (R382). -/
structure Initiator where
  (cls index : Nat)
deriving DecidableEq, Repr, Inhabited

/-- The context an access is issued under (R386): that of a stream, of a decode or of a recording session is named with the base of
its region, because the rule of a closed one stays in force beside that of its successor until its region is released. -/
inductive Context where
  | ingest (source base : Nat)
  | decode (source base : Nat)
  | surface (surface : Nat)
  | overlay (binding : Nat)
  | record (head base : Nat)
  | composition (head : Nat)
  | writeback (head : Nat)
  | forwarded (c : Nat)
  | twinTransfer
  | none
deriving DecidableEq, Repr, Inhabited

/-- An access arriving at a gate or at the DRAM controller (R383, R385). -/
structure Access where
  (initiator : Initiator)
  (ctx : Context)
  (cmdTag : Option Nat)
  (addr len : Nat)
  (write : Bool)
  (data : List Byte)
deriving DecidableEq, Repr, Inhabited

/-- Errors a DRAM read meets: for each beat touched, the devices in error (R364). -/
abbrev BeatErrors := List (List Nat)

/-- A section entry of a Colilo header (R459). -/
structure ColiloSection where
  (kind : Nat)
  (engineReplaceable : Bool)
  (offset length crc : Nat)
deriving DecidableEq, Repr, Inhabited

/-- A Colilo image header as read from its 512 bytes (R459). `magicOk` is the magic value, `rz` that reserved bytes are 0 and fields in
the ranges of R459, `sigOk` that the signature verifies under the named key of the pair's ROM. -/
structure Colilo where
  (magicOk : Bool)
  (headerVersion headerLen hwType minSilicon minBoard : Nat)
  (unitBound : Bool)
  (unitSerial version rollback bodyLen bodyHash sectionCount keyId : Nat)
  (sections : List ColiloSection)
  (sigOk rz : Bool)
deriving DecidableEq, Repr, Inhabited

/-- An image in a bank: its header and its body (R461). -/
structure Image where
  (head : Colilo)
  (body : List Byte)
deriving DecidableEq, Repr, Inhabited

/-- The 512 bytes of an image header, and whether its signature verifies (R459, R460). -/
structure HeaderBytes where
  (bytes : List Byte)
  (sigOk : Bool)
deriving DecidableEq, Repr, Inhabited

/-- One counted block's figures at a governor evaluation (R406): code, capacity, demand. -/
structure BlockPace where
  (code capacity demand : Nat)
deriving DecidableEq, Repr, Inhabited

/-- How the start-up steps of R444 end: DRAM training per channel (R377), the bonds' lanes, and the self-checks. -/
structure StartFacts where
  (dramOk : List Bool)
  (lanesUp : List Bool)
  (selfChecksOk : Bool)
deriving DecidableEq, Repr, Inhabited

/-- A device's MR4 refresh-rate answer, per subchannel (channel, subchannel, double rate asked) (R373). -/
structure Mr4 where
  (channel sub : Nat)
  (double : Bool)
deriving DecidableEq, Repr, Inhabited

/-- A piece of an image that a distribution brings: its source, the header with the first piece, bytes of the body (R466). -/
structure ImagePiece where
  (source : Nat)
  (header : Option HeaderBytes)
  (bytes : List Byte)
deriving DecidableEq, Repr, Inhabited

/-- What a port reads of its optics: their alarms, and the identity of optics inserted (R51). -/
structure OpticsFacts where
  (alarms : Nat)
  (identity : List Byte)
deriving DecidableEq, Repr, Inhabited

/-- A Delay_Resp: the instant at which the grandmaster received the request, and its rate of requests as an interval (R56, R58). -/
structure DelayResp where
  (t4 delayMs : Nat)
deriving DecidableEq, Repr, Inhabited

/-- What a pipeline has found in an access unit that it abandons, and the CTUs or macroblocks that it has decoded (R90). -/
structure PartFacts where
  (done : Nat)
  (facts : PicFacts)
deriving DecidableEq, Repr, Inhabited

/-- A line that falls due, with the errors that reading its judging material meets (R205, R211, R225). -/
structure DueLine where
  (line : Nat)
  (errors : LineErrors)
deriving DecidableEq, Repr, Inhabited

/-- A returned frame: its head and its frame number (R222). -/
structure ReturnedId where
  (head frameNo : Nat)
deriving DecidableEq, Repr, Inhabited

/-! ## The commands -/

/-- One constructor for each row of the opcode table, in the table's order within each family. -/
inductive Instr where
  -- ingest
  | portConfigure (d : Desc) (b : PortBody)
  | ingestOpen (d : Desc) (b : IngestOpenBody)
  | ingestClose (d : Desc) (source : Nat) (abort : Bool)
  | ingestCloseComplete (source : Nat)
  | ingestCounters (d : Desc) (source : Nat)
  | proxyOpen (d : Desc) (b : ProxyBody)
  | proxyClose (d : Desc) (source : Nat)
  -- decoding
  | decodeAttach (d : Desc) (b : AttachBody)
  | decodeDetach (d : Desc) (source : Nat) (abort : Bool)
  | decodeDetachComplete (source : Nat)
  | decodePolicy (d : Desc) (source policy pct : Nat)
  | decodeStatus (d : Desc) (source : Nat)
  | decodeSelftest (d : Desc) (pipeline : Nat)
  | decodeSelftestDone (pipeline : Nat) (firstDiffering : Option Nat)
  -- ledger
  | ledgerDefine (d : Desc) (b : LedgerBody)
  | ledgerSet (d : Desc) (b : LedgerBody)
  | ledgerDelete (d : Desc) (source : Nat)
  | ledgerWithdraw (d : Desc) (source : Nat) (withdraw : Bool)
  | ledgerVouch (d : Desc) (b : VouchBody)
  | ledgerVouchBatch (d : Desc) (count : Nat) (l : List VouchBody)
  | ledgerTest (d : Desc) (source : Nat) (test : Bool)
  | ledgerProbe (d : Desc) (source enable freezeK freezeSad : Nat)
  | ledgerRead (d : Desc) (first count : Nat)
  -- composition
  | surfaceRegister (d : Desc) (b : SurfaceBody)
  | surfaceUpload (d : Desc) (b : UploadBody)
  | surfaceUploadResume (surface : Nat)
  | surfaceUploadComplete (surface : Nat)
  | surfaceRetire (d : Desc) (surface : Nat)
  | surfaceRetireRelease (surface : Nat)
  | surfaceRead (d : Desc) (b : UploadBody)
  | scalerLoad (d : Desc) (set : Nat) (coeffs : List Int)
  | scalerRead (d : Desc) (set : Nat)
  | writeback (d : Desc) (b : WritebackBody)
  | writebackFrame (head : Nat)
  | composeSelftest (d : Desc) (pipe : Nat)
  | composeSelftestDone (pipe : Nat) (failed : Option Nat)
  | composeStatus (d : Desc) (head : Nat)
  -- scan-out
  | headStatus (d : Desc) (head : Nat)
  | headSinkRead (d : Desc) (head : Nat)
  | headSinkPower (d : Desc) (head power : Nat)
  | headAux (d : Desc) (b : AuxBody)
  | egressPortConfigure (d : Desc) (b : PortBody)
  -- Tailstock
  | tailstockGlyphLoad (d : Desc) (first count : Nat) (glyphs : List Byte)
  | calipersRead (d : Desc) (head : Nat)
  | tailstockStatus (d : Desc) (head : Nat)
  | verdictRead (d : Desc) (select : Nat)
  | holdRead (d : Desc) (head : Nat) (rect : Rect)
  | tailstockFontRead (d : Desc)
  -- recording
  | recordStart (d : Desc) (b : RecordBody)
  | recordStop (d : Desc) (head : Nat) (abort : Bool)
  | recordStopComplete (head : Nat)
  | recordStats (d : Desc) (head : Nat)
  | recordForceIdr (d : Desc) (head : Nat)
  | encodeSelftest (d : Desc) (pipe : Nat)
  | encodeSelftestDone (pipe : Nat) (pass : Bool)
  -- overlay
  | overlayListLoad (d : Desc) (list length : Nat) (bytes : List Byte)
  | overlayListFree (d : Desc) (list : Nat)
  | overlayFontLoad (d : Desc) (b : FontBody)
  | overlayBind (d : Desc) (b : BindBody)
  | overlayUnbind (d : Desc) (binding : Nat)
  | overlayUnbindComplete (binding : Nat)
  | overlayRun (d : Desc) (b : RunBody)
  | overlayStatus (d : Desc) (engine : Nat)
  -- ring control
  | nop (d : Desc)
  | eventRoute (d : Desc) (ring subjectMask attnMask : Nat)
  | hostDetach (d : Desc)
  | descriptorReject (d : Desc) (kind : Nat)
  -- transactions
  | txnBegin (d : Desc) (lockstep : Bool) (modules : Nat)
  | txnStage (d : Desc) (txn position itemCount itemsLen : Nat) (items : List Item)
  | txnValidate (d : Desc) (txn reportLen : Nat)
  | validationResultRx (txn position : Nat) (summary : ValSummary) (entries : List ReportEntry)
  | txnCommit (d : Desc) (txn applyNs reportLen : Nat)
  | txnAbort (d : Desc) (txn : Nat)
  | txnStatus (d : Desc) (txn len : Nat)
  -- lanes
  | laneCounters (d : Desc) (lane : Nat)
  | laneTest (d : Desc) (lane durationMs : Nat) (farAllows pathBeyond : Bool)
  | laneTestEnd (lane errorsHere errorsFar bits : Nat)
  -- cascade
  | cascadeStatus (d : Desc)
  | cascadeRenumber (d : Desc) (identity : Nat)
  | twinRole (d : Desc) (op : Nat)
  | cascadeSleep (d : Desc)
  | sleepDrainComplete
  | cascadeWake (d : Desc)
  -- memory
  | memStatus (d : Desc)
  | memRetrain (d : Desc) (channel : Nat)
  | memRetrainChannelDone (channel : Nat) (ok : Bool) (readMarginPs writeMarginPs : Nat)
  | memInject (d : Desc) (addr devices first : Nat)
  -- gates, mailboxes, locks
  | gateFence (d : Desc) (mask : Nat) (poll : Bool)
  | gateFenceComplete
  | gateFaultRead (d : Desc) (seq : Nat)
  | mbxPost (d : Desc) (receiver slot : Nat) (msg : List Byte)
  | mbxRead (d : Desc) (mask : Nat)
  | lockAcquire (d : Desc) (lock : Nat)
  | lockRelease (d : Desc) (lock : Nat)
  -- management
  | mgmtStatus (d : Desc)
  | mgmtMaintenance (d : Desc) (enter : Nat)
  | mgmtLogRead (d : Desc) (first count : Nat) (pinnedOnly : Bool)
  | mgmtReset (d : Desc)
  | mgmtLadderTest (d : Desc) (step : Nat)
  -- update
  | updateStatus (d : Desc)
  | updateDistribute (d : Desc) (source mask staged : Nat)
  | distributionRx (p : ImagePiece) (last : Option Bool)
  | updateActivate (d : Desc) (mask activateNs staged : Nat)
  | updateHitless (d : Desc) (twinHash : Option Nat)
  | updateEngine (d : Desc) (streamMask overlayMask : Nat)
  | updateConfirm (d : Desc)
  | updateRevert (d : Desc) (b : BootFacts)
  | updateCancel (d : Desc) (mask : Nat)
  -- mailbox agent 0
  | mgmtEcho (slot : Nat)
  | mgmtStatusMsg (slot : Nat)
  | mgmtLogRecord (slot : Nat)
  -- registers and port
  | hostRun (value : Word32)
  | attachFresh (table : Option RingTable)
  | attachResume
  | attachDetach
  | timeNowRead
  | lockRead (lock : Nat) (who : Initiator)
  | lockWrite (lock : Nat) (who : Initiator) (value : Word32)
  | mbxDoorbellClear (value : Word32)
  | dramcMapWrite (value : Word32)
  | registerWrite (offset : Nat) (value : Word32)
  | badAccess (write : Bool)
  | perst
  | functionLevelReset
  | d3hotEntry
  | busMasterClear
  | hostLink (up : Bool) (speed width : Nat)
  | doorbellPoll (cmdProd cplCons evtCons : List Nat) (ok : Bool)
  | statusPageWrite
  | attentionPulse
  | eventQueueDrain
  | forwardedCommandRx (origin tag : Nat) (dmaOk : Bool) (c : HostCmd)
  | forwardedResultRx (tag position status : Nat) (result data : List Byte)
  -- network happenings
  | neighbourRequestRx (port lane kind address : Nat)
  | queryRx (port lane : Nat) (mld : Bool)
  | opticsChange (port what : Nat) (f : OpticsFacts)
  | portLink (port lane : Nat) (up : Bool)
  | rtpPacketRx (p : RtpPacket)
  | frameCloseDeadline (source : Nat)
  | senderReportRx (port lane : Nat) (ssrc rtp ntpNs : Nat)
  | legState (source leg : Nat)
  | ingestReleased (regionBase : Nat)
  | proxyFrameSend (source : Nat)
  -- time
  | announceRx (a : Announce)
  | delayReqSend
  | offsetMeasurement (port t1 t2 t3 : Nat) (r : DelayResp)
  | lockConfirm
  | announceTimeout
  | measurementTimeout
  | uLimit
  -- decode happenings
  | pictureDecodeEnd (pipeline : Nat) (r : PicFacts)
  | decodePipelineTimeout (pipeline : Nat) (r : PartFacts)
  | decodeLag (source : Nat)
  | decodeReleased (bufBase : Nat)
  -- ledger happenings
  | probeCompareDone (source : Nat)
  | lateTimer (source : Nat)
  | staleTimer (source : Nat)
  | lossTimer (source : Nat)
  | ledgerStateSummary (source : Nat)
  | verdictUpdateRx (side : Side) (crcOk : Bool) (seq : Nat) (entries : List (Nat × Bool))
  | wholeBitmapSend
  | wholeBitmapRx (side : Side) (bothFrames : Bool) (seq : Nat) (bits : Bitmap)
  -- composition happenings
  | latchPoint (group : Nat)
  | lineComposed (head line : Nat)
  | fetchDeadline (head layer line : Nat) (poison : Bool)
  -- Tailstock happenings
  | tailstockPowerUp
  | tailstockRecordWrite (side : Side) (claim : Claim) (r : TsRecord)
  | swapOrderRx (side : Side) (head frameNo : Nat) (rollback : Bool)
  | lineTokenRx (side : Side) (crcOk : Bool) (t : LineToken)
  | idleTokenSend (head : Nat)
  | claimState (head : Nat) (side : Side)
  | frameStart (head : Nat)
  | holdLimit (head : Nat)
  | lineDue (head : Nat) (l : DueLine)
  | calipersSelfcheck (head value : Nat)
  | holdScrub (head line : Nat) (errors : Nat)
  | tailstockEventDelivery
  | hpdConnect (head : Nat) (sink : SinkInfo)
  | hpdDisconnect (head : Nat)
  | irqHpd (head : Nat) (lost : Bool) (status : List Byte)
  | trainingAttemptEnd (head : Nat) (ok : Bool)
  | linkRetry (head : Nat)
  | egressLink (port : Nat) (up : Bool)
  | frameRefEdge (input : Nat) (rising : Bool) (pulseNs : Nat)
  | refUnlockTimeout (group : Nat)
  | syncPaceTimeout (group : Nat)
  | latchDecisionRx (group latchNs frameNo : Nat)
  -- recording happenings
  | returnFrameRx (f : ReturnedId)
  | pictureCoded (head : Nat) (interrupted : Bool) (rdLo rdHi : Nat)
  | recordReleased (workBase : Nat)
  -- overlay happenings
  | overlayRunStart (engine : Nat)
  | overlayRunEnd (engine : Nat)
  | overlayRunTimeout (engine : Nat)
  | overlayNoImageTimeout (binding : Nat)
  -- transaction happenings
  | prepareRx (txn : Nat)
  | voteRx (txn position : Nat) (yes : Bool) (code : Nat)
  | voteTimeout (txn : Nat)
  | commitRx (m : CommitMsg)
  | commitResend (txn : Nat)
  | txnApply
  | applyReportRx (r : ApplyReport)
  | cancelPoint (txn : Nat)
  | decisionPoint (txn : Nat)
  | laggardExpiry (txn : Nat)
  | rollbackComplete (txn : Nat)
  | contactLossTimeout
  | sceneGenRx (gen : Nat)
  -- Luasin happenings
  | laneSlot (bond : Bond) (lane : Nat)
  | luasinFrameRx (bond : Bond) (lane : Nat) (f : LuasinFrame)
  | retxTimeout (bond : Bond) (cls : TClass)
  | ackDue (bond : Bond) (cls : TClass)
  | signalDetect (bond : Bond) (lane : Nat)
  | trainingComplete (bond : Bond) (lane skewNs : Nat)
  | trainingTimeout (bond : Bond) (lane : Nat)
  | markerLoss (bond : Bond) (lane : Nat) (byCrc : Bool)
  | sleepOrderRx (east : Bool) (faultOrder : Bool)
  -- cascade happenings
  | discovery
  | discoveryComplete (returned : Bool) (modules : List DiscModule)
  | presenceSend
  | presenceRx (p : Presence)
  | presenceTimeout (position : Nat)
  | beatSend
  | beatRx (east : Bool) (m : BeatMsg)
  | delayRequestSend (east : Bool)
  | delayRequestRx (east : Bool) (m : BeatMsg) (residencePs : Nat)
  | delayResponseRx (east : Bool) (m : BeatMsg) (roundTripPs : Int)
  | beatLoss
  | headstockTake
  | twinPairing (t : TwinIdent)
  | twinLinkLoss
  | twinReportRx (twinRole : Nat)
  | catchUp (gen : Nat) (items : List Item) (objects : List HostCmd) (registers : List (Nat × Word32))
  | autoSwapDecision
  | swapInstant
  -- memory happenings
  | memoryAccess (a : Access) (errors : BeatErrors)
  | scrubStep (errors : BeatErrors)
  | refresh (channel sub : Nat)
  | mr4Poll (answers : List Mr4)
  | refreshWindowEnd (channel sub : Nat)
  | rowActivate (channel sub bank row : Nat) (sampled : Bool)
  | zqCalibration
  | dqsOscillator (channel driftA driftB : Nat)
  | gateAccess (gate : Nat) (a : Access)
  -- management happenings
  | sensorSample (values : List (Nat × Int))
  | sensorLimitHeld (sensor : Nat)
  | governorEvaluation (blocks : List BlockPace) (projectedPm : Nat)
  | thermalShed
  | paceShort
  | watchdogExpiry (b : BootFacts)
  | lockstepMismatch
  | logSuppressed
  -- power happenings
  | inletPresent (inlet : Nat) (volts : Nat)
  | inletLost (inlet : Nat) (volts : Nat)
  | holdupEnd
  | keepaliveLow
  | sysReset
  | wake
  | shutdown
  | shutdownDrainComplete
  | shutdownRelease (b : BootFacts)
  | serviceEn (low : Bool)
  | strapCheck (masterSel sideB : Bool)
  | managementPowerUp (b : BootFacts) (shutdownLow : Bool)
  | startingComplete (f : StartFacts)
  | wakeComplete
  -- update happenings
  | serviceConnect
  | serviceHello
  | serviceBegin (h : HeaderBytes)
  | serviceData (bytes : List Byte)
  | serviceEnd (readsBack : Bool)
  | serviceAbort
  | serviceStallTimeout
  | activationInstant (b : BootFacts)
  | activationSetup
  | hitlessSwapDecision (twinBitmap : Bitmap)
  | hitlessTimeout
  | engineStreamMove (engine : Nat)
  | sysResetRelease (b : BootFacts)
  | serviceDisconnect
  | managementRestartComplete
  | commandResetTimer (b : BootFacts)
  | headstockServiceReady
  | validationRequestRx (txn : Nat)
  | txnAbortRx (txn : Nat)
  | keepaliveCurrentLimit (limited : Bool) (busMv feedW : Nat)
  | hostCompletionTimeout (tag : Nat)
deriving DecidableEq, Repr, Inhabited

end Sys2Proof
end

