-- ==== Sys2Proof/Config.lean ====
section
/-! DEFINITION. What the manual fixes for every module as a number, and what it leaves open: the free values are opaque
constants with no body, so that nothing can be proved of their value. -/

namespace Sys2Proof.Config

/-! ## Free values (nothing constrains them) -/

/-- Glyph row `row` of ROM font code `code`, 8 bits, bit 7 leftmost: fixed in the silicon, not listed (R47). FREE VALUE. -/
opaque romGlyphRow : Nat → Nat → Nat

/-- Built-in coefficients of scaler sets 0 and 1, by set and coefficient index: fixed in the silicon, not listed (R151).
FREE VALUE. -/
opaque builtinCoeff : Nat → Nat → Int

/-- Byte of module DRAM that nothing has written since the contents became undefined (R133, R371, R447), by the count of
those occasions and the address. FREE VALUE. -/
opaque dramByte : Nat → Nat → Byte

/-- Sample of a decoded picture as the cited video standard gives it (R79): a function of the NAL units read since the last IRAP or IDR
picture, access unit by access unit, of the mid-grey pictures that stand in for missing references (picture order count and sample
value, R93), of plane (0 Y, 1 Cb, 2 Cr), column and line. FREE VALUE of the model: the standards are not part of the manual. -/
opaque decodedSample : List (List (List Byte)) → List (Nat × Nat) → Nat → Nat → Nat → Nat

/-- Hash of a picture's bytes in the type that a decoded picture hash SEI names, as the cited standard computes it (R79). FREE VALUE of the
model, for the same reason. -/
opaque pictureHash : Nat → List Byte → Nat

/-- Content bytes of a Luasin CONTROL, RETURN or BULK message, by message number and offset: the manual gives these
messages no layout (R326). FREE VALUE. -/
opaque messageByte : Nat → Nat → Byte

/-- Content length of such a message. FREE VALUE. -/
opaque messageLength : Nat → Nat

/-- What a module fixes at manufacture (R275): silicon stepping, board revision, serial number, base MAC address. FREE VALUE. -/
opaque steppingSilicon : Nat
opaque steppingBoard : Nat
opaque serial : Nat
opaque macBase : Nat

/-- What management flash holds when the model starts (R340, R416, R442, R465), of whose contents the manual states nothing. FREE VALUE. -/
opaque flashBootCount : Nat
opaque flashLogSeq : Nat

/-- More of what management flash holds (R340, R442, R465): the image of the bank booted, the stored rollback counter, the
stored cascade identity and position. FREE VALUE. -/
opaque flashImage : Image
opaque flashRollback : Nat
opaque flashIdentity : Option Nat
opaque flashPosition : Option Nat

/-- The CRC of the Calipers' built-in pattern, as stored; the pattern is not listed (R221). FREE VALUE. -/
opaque selfCheckValue : Nat

/-- Motion vector, SATD and bits of a coded CTU, by head, frame, CTU and field: what the encoder of R233 chooses (R244). FREE VALUE. -/
opaque ctuStat : Nat → Nat → Nat → Nat → Nat

/-- The slice NAL unit of a CTU row, in Annex B form with its start code, as the encoder codes it, and as it codes the row substituted (R233,
R237); VPS, SPS and PPS that say what a stream's parameters are; and a reconstructed sample, by row input, plane, column and line. The cited
standard leaves the first and the last to the encoder, and the manual gives the syntax of none. FREE VALUE. -/
opaque codedRow : RowInput → List Byte
opaque substitutedRow : RowInput → List Byte
opaque parameterSets : StreamParams → List Byte
opaque reconSample : RowInput → Nat → Nat → Nat → Nat

/-- What a sensor reads when the management pair starts, before it samples the sensor for the first time: the MGMT registers show it at reset. A
free value. -/
opaque sensorAtStart : Nat → Int

/-- The host bus address at which an access of a command fails, by the address that its descriptor names (R284, R285). The command fails because
some access of its buffer did; which one is a free value. -/
opaque failedHostAddr : Nat → Nat

/-- Fan speeds in rpm that management commands: by the hottest of T_J and T_TS in half °C, and full speed (R405). FREE VALUE. -/
opaque fanRpm : Int → Nat
opaque fanFullRpm : Nat

/-- A free value drawn at a step, by the count of values drawn before it: any number. FREE VALUE. -/
opaque freeNat : Nat → Nat

/-- What the twin's servo measured as this counter's offset in ns, at a number of free values drawn (R24). FREE VALUE. -/
opaque twinOffset : Nat → Int

/-- What the flash reads back at a restart of the management pair, at a number of free values drawn (R442). FREE VALUE. -/
opaque restartFacts : Nat → BootFacts

/-! ## Figures the manual gives -/

/-- IDENT.PART (R275). -/
def part : Nat := 0x4D583264
/-- Sources of the ledger (R107). -/
def sources : Nat := 8192
/-- Open streams of a module (R60). -/
def maxStreams : Nat := 96
/-- Heads of a module (R18). -/
def heads : Nat := 32
/-- Windows of a head (R18). -/
def windows : Nat := 128
/-- Spans of a line (R157). -/
def maxSpans : Nat := 64
/-- Video layer pipes (R163). -/
def pipes : Nat := 128
/-- Guaranteed fetch figure in Mpx/s (R162). -/
def fetchMpxs : Nat := 19200
/-- Bytes of module DRAM (R363). -/
def dramBytes : Nat := 0x2000000000
/-- The guaranteed and reference luma figures of a pipeline and of the module, samples a second (R81). -/
def pipeLumaClass0 : Nat := 640000000
def pipeLumaAll : Nat := 800000000
def moduleLumaClass0 : Nat := 3200000000
def moduleLumaAll : Nat := 4000000000
/-- Bit load figures of a pipeline in kb/s (R81). -/
def pipeBitsClass0 : Nat := 320000
def pipeBitsAll : Nat := 400000
/-- Probe figures in px/s (R124). -/
def probeClass0 : Nat := 320000000
def probeAll : Nat := 400000000
/-- Proxy streams and packetising figure in px/s (R74). -/
def maxProxies : Nat := 16
def proxyPxs : Nat := 1600000000
/-- Return load figure in px/s (R223). -/
def returnPxs : Nat := 5000000000
/-- Encode loads in px/s (R231). -/
def encodePipePxs : Nat := 600000000
def encodeAllPxs : Nat := 1200000000
/-- Egress wire rate of a port in Mb/s (R179). -/
def egressMbps : Nat := 90000
/-- Twin-link load of a direction in Mb/s (R306). -/
def twinMbps : Nat := 310000
/-- Growth of u per ns of holdover is 10⁻⁶; u_ref is 1 µs; the bound is 60 s (R25, R26). -/
def uRefNs : Nat := 1000
def uMaxNs : Nat := 60000000000
/-- Claim priorities of the twin roles (R356). -/
def prioActive : Nat := 0xC0
def prioStandby : Nat := 0x80
/-- A claim lapses 64 µs after the last valid token (R196, R209). -/
def claimNs : Nat := 64000
/-- An idle token follows 16 µs without a line token (R209). -/
def idleTokenNs : Nat := 16000
/-- The verdict on the wire: condition 3 and 4 are evaluated 0.8 µs before emission (R203). -/
def judgeLeadNs : Nat := 800
/-- Commands a module holds in flight, retained completions, queued events (R281, R286, R294). -/
def maxInFlight : Nat := 256
def maxRetained : Nat := 1024
def maxQueued : Nat := 4096
/-- Tailstock event queue (R226). -/
def tsQueue : Nat := 1024
/-- Shavings log depths and rate (R418). -/
def logUnpinned : Nat := 65536
def logPinned : Nat := 4096
def logPerSecond : Nat := 100
/-- Gate fault records kept (R394). -/
def gateRecords : Nat := 256
/-- Overlay stores in bytes and work figures (R250, R257, R263). -/
def listStore : Nat := 2097152
def fontStore : Nat := 524288
def overlayUnits : Nat := 320000000
/-- Fixed NTP to PTP epoch difference in ns (R70). -/
def ntpEpochNs : Nat := 2208988800000000000

end Sys2Proof.Config
end

