-- ==== Sys2Proof/Machine/State.lean ====
section
/-! DEFINITION. The state of the block: every register, queue, buffer, counter, mode and pin the manual gives the
module, as plain data; the reasons a step can stop; and the state right after reset. A part of the state stands in a
structure of its own for each chapter of the manual. Times are counts of nanoseconds. -/

namespace Sys2Proof.Machine

open Sys2Proof

/-- Reasons a step stops with a fault. No command of this block has one: the manual gives every command an effect. -/
inductive Fault where
  /-- Raised by no meaning: it stands for an access to an address that the manual says does not exist, which the
  module itself refuses with a record (R384) and not with a stop. Safe. -/
  | addressNotPresent
deriving DecidableEq, Repr

/-- Reasons a step has no meaning. -/
inductive Refusal where
  /-- Raised by an arm of the dispatch whose command has no meaning yet. Safe: the machine stops. -/
  | notModelled (mnemonic : String)
deriving DecidableEq, Repr

/-! ## Module, rings and events -/

/-- The module states of R22. -/
inductive ModState where
  | off | starting | setup | run | lean | maintenance | idleLink | fault
deriving DecidableEq, Repr, Inhabited

/-- The twin roles of R275 and R356. -/
inductive Role where
  | alone | active | standby | withdrawn
deriving DecidableEq, Repr, Inhabited

/-- Kinds of event scope, by value (R288). -/
inductive ScopeKind where
  | module | source | head | transaction | port | engine
deriving DecidableEq, Repr, Inhabited

/-- Payload items or record fields, each with its size in bytes, packed in this order, little-endian (R2, R287). -/
abbrev Items := List (Nat × Int)

/-- An event record (R287), before it has a place in an event ring. -/
structure EventRec where
  (code : Nat)
  (scope : ScopeKind)
  (scopeId position seq wallNs : Nat)
  (items : Items)
  (attention : Bool)
deriving DecidableEq, Repr, Inhabited

/-- A command in flight: what its completion record needs (R282, R284), and for a command executed for another module
the position and tag under which its result returns (R343). -/
structure Ticket where
  (kind ring index : Nat)
  (attn attnErr quiet : Bool)
  (tag buf : Nat)
  (dmaOk : Bool)
  (origin : Option (Nat × Nat))
deriving DecidableEq, Repr, Inhabited

/-- A completion record (R284). -/
structure Completion where
  (ticket : Ticket)
  (status position : Nat)
  (forwarded : Bool)
  (result : Items)
deriving DecidableEq, Repr, Inhabited

/-- What the module emits at its interfaces. -/
inductive Out where
  /-- A DMA write of packed fields to host memory (R285). -/
  | hostWrite (addr : Nat) (items : Items)
  /-- A DMA write of bytes to host memory (R285). -/
  | hostBytes (addr : Nat) (bytes : List Byte)
  /-- A completion record at an index of a completion ring, with its phase bit, and its bytes (R2, R284). -/
  | completion (ring index : Nat) (phase : Bool) (c : Completion) (bytes : List Byte)
  /-- An event at an index of an event ring, with its phase bit and attention flag, and the bytes of its records (R2, R286, R287). -/
  | event (ring index : Nat) (phase attention : Bool) (e : EventRec) (bytes : List Byte)
  /-- A write of the status page, and its bytes (R2, R277, R280). -/
  | statusPage (cmdCons cplProd evtProd : List Nat) (wallNs heartbeat state lost inFlight : Nat) (bytes : List Byte)
  /-- An attention pulse on RDY_BSY# (R290). -/
  | attentionPulse
  /-- The value a register read returns. -/
  | readData (value : Word32)
  /-- The bytes and the poison flag that an access to module DRAM returns (R390). -/
  | accessData (bytes : List Byte) (poison : Bool)
  /-- A same-bank directed refresh management command: channel, subchannel, bank and the row sampled (R376). -/
  | directedRefresh (channel sub bank row : Nat)
  /-- A Luasin frame placed in a slot of a lane: its bytes (R324), and the bits of the slot on the line (R321 to R323). -/
  | luasin (bond : Bond) (lane : Nat) (bytes : List Byte) (slot : List Bool)
  /-- An idle slot, retransmission, training or test pattern is told by its name. -/
  | luasinPattern (bond : Bond) (lane : Nat) (pattern : String)
  /-- A message of a named kind sent on the ring, a twin link or an internal link, with its fields (R338). -/
  | message (bond : Bond) (cls : TClass) (name : String) (fields : List Int)
  /-- A Beat or delay message sent (R351). -/
  | beat (east : Bool) (m : BeatMsg)
  /-- Verdict updates sent on a bond, from a sequence number up: source and verdict (R128, R330). -/
  | verdict (bond : Bond) (seq : Nat) (entries : List (Nat × Bool))
  /-- A whole bitmap sent on a bond (R129, R330). -/
  | wholeBitmap (bond : Bond) (seq : Nat) (bits : Bitmap)
  /-- A line token sent to a Tailstock (R209, R328). -/
  | token (side : Side) (t : LineToken)
  /-- A record written to the staged bank of a Tailstock, with the sender's claim word (R196, R298). -/
  | record (bond : Bond) (claim : Claim) (r : TsRecord)
  /-- A command forwarded over the ring (R343), with its target position and forwarding tag. -/
  | forward (bond : Bond) (target tag : Nat) (c : HostCmd)
  /-- A packet sent at a network interface: port, lane, kind, fields. -/
  | packet (port lane : Nat) (kind : String) (fields : List Int)
  /-- A UDP datagram sent at a network interface: port, lane, VLAN id and priority of the interface, DSCP, IP version, source and destination
  address, destination port, and its payload. -/
  | datagram (port lane vlan pcp dscp : Nat) (ipv6 : Bool) (source group udpPort : Nat) (payload : List Byte)
  /-- Pixels of a line emitted at a DisplayPort head, from column `x` on, with the range that the MSA signals: CTA, or VESA (R173, R205). -/
  | line (head frameNo lineNo x : Nat) (cta : Bool) (pixels : List Rgb)
  /-- A packet of a line of an egress head (R178, R180): its planned departure in elapsed time, the VLAN id and priority of its port, its DSCP,
  IP version, source and destination address, destination port, and its UDP payload. -/
  | egress (head line departureNs vlan pcp dscp : Nat) (ipv6 : Bool) (source group udpPort : Nat) (payload : List Byte)
  /-- A frame start at a head (R188, R213). -/
  | frameStart (head frameNo : Nat)
  /-- A DisplayPort sink access or training pattern at a head (R173, R176). -/
  | dp (head : Nat) (what : String) (fields : List Int)
  /-- A contact of the system connector driven: contact name and level (R434). -/
  | contact (name : String) (level : Bool)
  /-- What the service port does on a connection: a message with its bytes, or the connection closed (R456, R457). -/
  | service (name : String) (bytes : List Byte)
deriving DecidableEq, Repr, Inhabited

/-- The host interface: PCI Express port, HOSTIF registers, rings and events (chapter "Host interface and rings"). -/
structure HostSt where
  /-- Link speed 1 to 4 and width; 0 with the link down (R276). -/
  (linkSpeed linkWidth : Nat)
  (attached resumable : Bool)
  (detachCause detachWallNs : Nat)
  /-- HOSTIF.RUN (R273). -/
  (run : Bool)
  (pollNs : Nat)
  (attnEnable : Bool)
  (attnHoldoffUs : Nat)
  (tableLo tableHi : Nat)
  /-- HOSTIF.ERR bits (R276). -/
  (errTable errMismatch errDma errRing : Bool)
  (lockViolations badAccess lastViolation : Nat)
  /-- The table of the present or detached session, and the address it was read from (R277, R295). -/
  (table : Option RingTable)
  (tableAddr : Nat)
  /-- Free-running indices of the rings, by ring (R278). -/
  (cmdProd cmdCons cplProd cplCons evtProd evtCons : Map Nat)
  /-- Rings stopped until the next attach (R278). -/
  (stoppedCmd stoppedCpl stoppedEvt : List Nat)
deriving DecidableEq, Repr

/-- Commands in flight, retained completions, and the event queue (R281, R286, R294). -/
structure QueueSt where
  (inFlight : List Ticket)
  (retained : List Completion)
  /-- Completions discarded because the retained queue was full, for the next HOST_ATTACHED (R294). -/
  (cplDiscarded : Nat)
  /-- Events queued, oldest first; the count discarded since HOST_EVENTS_LOST last told; and since the attach. -/
  (events : List EventRec)
  (lostUntold eventsLost : Nat)
  /-- Sequence number of the latest event of each scope, keyed by kind and id (R288). -/
  (seqs : Map Nat)
  /-- Subject and attention masks of each event ring as EVENT_ROUTE left them (R292). -/
  (evtMasks : Map (Nat × Nat))
  /-- For an event raised at most once a second: time of the last one and count since, by key. -/
  (limiters : Map (Nat × Nat))
  (heartbeat : Nat)
  /-- Something for the status page to publish; records with attention not yet published, or published unpulsed. -/
  (pageDirty attnWritten attnPublished : Bool)
  (lastPulseNs : Option Nat)
  /-- A HOST_DETACH that waits for every earlier command (R292). -/
  (detaching : Option Ticket)
  /-- Commands forwarded and not yet answered: forwarding tag, ticket, target (R343). -/
  (forwards : Map (Ticket × Nat))
  (nextForward : Nat)
deriving DecidableEq, Repr

/-! ## Management, power, start-up and update -/

/-- A Shavings log record (R416); its CRC is computed when it is read. -/
structure LogRec where
  (seq bootCount wallNs code severity : Nat)
  (timeUnknown pinned fromTailstock : Bool)
  (moduleState : Nat)
  (scope : ScopeKind)
  (scopeId : Nat)
  (data : Items)
deriving DecidableEq, Repr, Inhabited

/-- Levels of a sensor, by value (R405). -/
inductive Level where
  | normal | warning | critical | limit
deriving DecidableEq, Repr, Inhabited

/-- The management pair: registers of MGMT, sensors, governor, ladder and log. -/
structure MgmtSt where
  (wdtMs restoreS : Nat)
  /-- Steps of the ladder in force, the floor of a ladder test, the commanded V_CORE, whether it is removed. -/
  (step : Nat)
  (testFloor : Option Nat)
  (vcoreMv : Nat)
  (vcoreRemoved paceShort : Bool)
  (faultCause : Nat)
  (bootCount resetCause logSeq : Nat)
  /-- A restart of the pair in progress, and the commands that wait for its end (R403). -/
  (restarting : Bool)
  /-- The levels that the pair's status outputs had when it last restarted, and keep until it runs again: MODULE_OK#, RUN_FULL#, ACTIVE#,
  HEADSTOCK#, each true where driven low (R434). -/
  (keptOutputs : List Bool)
  /-- When the pair last started: its lamp test runs from then on (R436). -/
  (pairStartNs : Option Nat)
  (waiting : List (Ticket × HostCmd))
  /-- When lockstep mismatches, watchdog expiries, watchdog resets and internal faults (by unit code) happened (R413). -/
  (mismatches expiries watchdogResets : List Nat)
  /-- The watchdog expiry that a second one within 60 s follows (R404). -/
  (firstExpiry : Option Nat)
  (internals : List (Nat × Nat))
  /-- Value and level of each sensor; when a limit began to hold (R405). -/
  (sensors : Map (Int × Level))
  (limitSince : Map Nat)
  /-- Governor: last figures of the blocks, start of a surplus above 1.15, evaluations below 1.00 at 900 mV, time of the
  last take or restore, start of a sufficient projected margin, start of m below and at or above 1.00 (R407, R411). -/
  (blocks : List BlockPace)
  (surplusSince : Option Nat)
  (shortCount : Nat)
  (lastTakeNs : Option Nat)
  (projectedSince shortSince fullSince : Option Nat)
  (lastThermalNs : Option Nat)
  /-- When the governor last evaluated (R407). -/
  (lastEvalNs : Option Nat)
  /-- The log, latest first (R418). -/
  (logUnpinned logPinned : List LogRec)
  (logSecond logInSecond logSuppressed : Nat)
  /-- When a MGMT_RESET not yet acted on was published (R421 command table). -/
  (resetPending : Option Nat)
deriving DecidableEq, Repr

/-- State of the module's keep-alive feed (R426, R440). -/
inductive Feed where
  | supplying | limited | off
deriving DecidableEq, Repr, Inhabited

/-- Mains, keep-alive bus and the inputs of the system connector. -/
structure PowerSt where
  (inlet0 inlet1 : Bool)
  (volts0 volts1 : Nat)
  (bothLostSince : Option Nat)
  (feed : Feed)
  (busMv feedW : Nat)
  /-- SERVICE_EN asserted low; SYS_RESET# acting; an orderly shutdown in progress, done, or requested in STARTING. -/
  (serviceEn sysResetHeld shutdownDraining shutdownDone shutdownAsked : Bool)
  /-- V_STANDBY up: the management domain is powered. -/
  (managementUp : Bool)
deriving DecidableEq, Repr

/-- The module: its state, identity, straps and boot (R22, R275, R442). -/
structure ModuleSt where
  (mode : ModState)
  /-- What the module left for IDLE_LINK, and what it was doing when it entered MAINTENANCE is in HOSTIF.RUN. -/
  (sleptFrom : ModState)
  (masterSel sideB : Bool)
  (bank : Nat)
  (fallback : Bool)
  (fwVersion : Nat)
  /-- A sleep command draining (R449), and whether a wake is in progress (R453). -/
  (sleeping : Option Ticket)
  (waking : Bool)
deriving DecidableEq, Repr

/-- Update phases of R463. -/
inductive Phase where
  | idle | receiving | staged | scheduled | activating | trial
deriving DecidableEq, Repr, Inhabited

/-- Where a hitless sequence stands (R469): the step, whether this module leads it, since when it waits. -/
structure Hitless where
  (ticket : Option Ticket)
  (step : Nat)
  (first : Bool)
  (caughtUpNs : Option Nat)
  (equalSinceNs : Option Nat)
deriving DecidableEq, Repr, Inhabited

/-- A distribution or activation the Headstock conducts (R466, R467). -/
structure UpdateJob where
  (ticket : Ticket)
  (mask done ok : List Nat)
deriving DecidableEq, Repr, Inhabited

/-- An engine-by-engine replacement in progress (R471): engines still to do, whether the first of them has loaded its section,
the sources whose streams have moved away from it, since when its streams move. -/
structure EngineJob where
  (ticket : Ticket)
  (todo : List Nat)
  (loaded : Bool)
  (moved : List Nat)
  (sinceNs : Nat)
deriving DecidableEq, Repr, Inhabited

/-- An image that a distribution brings: its source, its header, its body so far, when its last piece came (R466). -/
structure Inbound where
  (source : Nat)
  (head : Colilo)
  (body : List Byte)
  (lastNs : Nat)
deriving DecidableEq, Repr, Inhabited

/-- Firmware update: phase, banks, boot pointer, rollback counter, session. -/
structure UpdateSt where
  (phase : Phase)
  /-- Verified image of each bank; none for an empty bank (R461, R462). -/
  (bankA bankB : Option Image)
  (bootPointer rollback : Nat)
  (activateNs : Option Nat)
  /-- The service port connection; the header of the image in transfer; the body accepted so far; when the last message came. -/
  (connected : Bool)
  (transfer : Option Colilo)
  (body : List Byte)
  (lastDataNs : Nat)
  /-- The image that a distribution brings over the ring (R466). -/
  (inbound : Option Inbound)
  (distribute activate : Option UpdateJob)
  (hitless : Option Hitless)
  (engine : Option EngineJob)
  /-- Version of the section each replaced engine runs, by engine code (R471). -/
  (engineVersion : Map Nat)
deriving DecidableEq, Repr

/-! ## Wall time and ingest -/

/-- PTP servo states, by value (R57). -/
inductive Servo where
  | unknown | acquiring | locked | holdover
deriving DecidableEq, Repr, Inhabited

/-- An origin time and the source's own uncertainty (R69). -/
structure Origin where
  (ns : Int)
  (uNs : Nat)
deriving DecidableEq, Repr, Inhabited

/-- A master heard: its latest Announce, and when Announces of it came, the latest first, at most four (R56). -/
structure Foreign where
  (announce : Announce)
  (times : List Nat)
deriving DecidableEq, Repr, Inhabited

/-- Wall time, its uncertainty, the PTP servo and the TIME registers (R24 to R27, R56 to R59). -/
structure TimeSt where
  /-- The Tailstock's wall-time counter, of 64 bits; time elapsed, which no step of the counter changes; the Spindle counter
  (R349); the management pair's own count since it came up (R416). All in ns. -/
  (wall mono spindle mgmtNs : Nat)
  /-- t_ref of R25 on the elapsed time; none before the first lock confirmation since Tailstock power-up (R26). -/
  (tRef : Option Nat)
  /-- When t_ref last changed, and what it was before. -/
  (lastRef : Option (Nat × Option Nat))
  /-- When the counter was last stepped, and by how much it was moved back (R27). -/
  (lastStep : Option (Nat × Int))
  (servo : Servo)
  /-- ACQUIRING was entered from HOLDOVER (R57). -/
  (fromHoldover : Bool)
  (gm : Option Announce)
  (lastAnnounceNs : Nat)
  /-- The offset measurements since ACQUIRING was entered, latest first, at most 64: instant and offset (R58). -/
  (fit : List (Nat × Int))
  (inThreshold : Nat)
  (lastGoodNs : Nat)
  /-- When the last measurement was made (R59). -/
  (lastMeasuredNs : Option Nat)
  /-- The frequency error r of the estimate, the rate at which the counter is slewed back, both in parts per 10¹², and what
  of the slewing is less than 1 ns, in the same parts of 1 ns (R58). -/
  (freqE12 slewE12 slewPart : Int)
  (offset : Int)
  (steps nowHi : Nat)
  (utcValid : Bool)
  (utcOffset : Nat)
  /-- TIME.PTP_CTRL fields, TIME.PTP_TIMING fields, TIME.LOCK_THRESH_NS as written. -/
  (ptpEnable : Bool)
  (ptpDomain ptpPorts announceTimeout lockCount lockThresh : Nat)
  /-- Masters heard, for the best master clock algorithm (R56). -/
  (heard : List Foreign)
  /-- The interval that the grandmaster's Delay_Resp messages request, none before one came, and the last Delay_Req (R56). -/
  (delayMs delayReqNs : Option Nat)
deriving DecidableEq, Repr

/-- One interface of an ingest or egress port (R51, R52). -/
structure Lane where
  (fec vlan pcp : Nat)
  (ipv4En ipv6En : Bool)
  (ipv4 ipv4Prefix ipv6 ipv6Prefix : Nat)
  (linkUp : Bool)
deriving DecidableEq, Repr, Inhabited

/-- One ingest port: its mode, its four interfaces, what its optics last told: presence, identity and alarms (R51). -/
structure IngestPort where
  (mode : Nat)
  (lanes : Map Lane)
  (opticsIn : Bool)
  (opticsId : List Byte)
  (opticsAlarms : Nat)
deriving DecidableEq, Repr, Inhabited

/-- One leg of an open stream: latest packet (or open) time, silence, counters, highest extended sequence number and the
SSRC seen (R64, R67, R77). -/
structure LegRt where
  (leg : Leg)
  (lastNs : Nat)
  (heard silent : Bool)
  (packets duplicates late missing ssrcMismatch : Nat)
  (lastExt : Option Nat)
  (ssrc : Option Nat)
deriving DecidableEq, Repr, Inhabited

/-- A frame in reception: the packets that share one RTP timestamp (R65); the newest sender report and what UTC offset
TIME.STATUS held, if it was valid, as its first packet arrived (R69, R70). -/
structure OpenFrame where
  (ts firstNs firstMono : Nat)
  (report : Option (Nat × Nat))
  (utc : Option Nat)
  (markerSeq : Option Nat)
  (packets : List Nat)
  (elements : List (Nat × RtpElement))
  (segments : List (Nat × Segment))
  (nals : List (Nat × NalPart))
deriving DecidableEq, Repr, Inhabited

/-- A delivered uncompressed frame in a frame slot (R65, R68), and when it was delivered (R141). -/
structure SlotFrame where
  (slot number doneNs : Nat)
  (origin : Option Origin)
  (originUs : Nat)
  /-- Conservative origin time of each field, the frame's own or carried on (R145). -/
  (fields : Map Nat)
deriving DecidableEq, Repr, Inhabited

/-- A delivered access unit in the access-unit ring (R65, R66): its place among all that ingest delivered, where in the ring it
stands, its bytes, and its NAL units. -/
structure AccessUnit where
  (number order ts addr bytes : Nat)
  /-- Its origin time, and the one of R69 before a freshness element moves it. -/
  (origin raw : Option Origin)
  (complete : Bool)
  (units : List (List Byte))
  (element : Option Element)
  /-- Conservative origin time of each field, the frame's own or carried on (R145). -/
  (fields : Map Nat)
  (deliveredNs : Nat)
deriving DecidableEq, Repr, Inhabited

/-- An open ingest stream. -/
structure Stream where
  (params : IngestParams)
  (regionBase regionSize engine : Nat)
  (legs : List LegRt)
  /-- Open frames, oldest first; extended sequence numbers held; timestamps closed. -/
  (open_ : List OpenFrame)
  (heldSeqs closedTs : List Nat)
  /-- No frame delivered since the open or a resynchronisation (R67, R77). -/
  (firstPending : Bool)
  (slots : List SlotFrame)
  (units : List AccessUnit)
  /-- Offset in the access-unit ring at which the next access unit is written. -/
  (ringPos : Nat)
  (nextNumber : Nat)
  (delivered incomplete overflowed : Nat)
  /-- Newest sender report, as RTP time and NTP time in ns (R70). -/
  (report : Option (Nat × Nat))
  (lastOrigin : Option Int)
  /-- Conservative origin time of each field in the latest frame of the source since the open (R145). -/
  (lastFields : Map Nat)
  /-- Counts at the last LOSS_REPORT and its time; counts of FORMAT_MISMATCH by cause are in the limiters (R77). -/
  (lossLate lossMissing lossIncomplete lossNs : Nat)
  /-- A close in progress: its ticket, whether a frame was discarded (R75). -/
  (closing : Option Ticket)
  (discarded closeAbort : Bool)
  /-- Reception stopped by a sleep or shutdown drain (R449). -/
  (stopped : Bool)
deriving DecidableEq, Repr, Inhabited

/-- A decoded frame that waits to be sent by a proxy: its origin time, its size, and its lines as ST 2110-20 carries them (R72). -/
structure ProxyFrame where
  (origin : Origin)
  (decodedNs width height : Nat)
  (lines : List (List Byte))
deriving DecidableEq, Repr, Inhabited

/-- A proxy stream (R72 to R74). -/
structure Proxy where
  (body : ProxyBody)
  (sending : Bool)
  (seq : Nat)
  /-- Frames decoded and not yet sent, oldest first. -/
  (queue : List ProxyFrame)
deriving DecidableEq, Repr, Inhabited

/-- Network ingest: ports, open streams by source, proxies by source, guards of regions not yet released (R76). -/
structure IngestSt where
  (ports : Map IngestPort)
  (streams : Map Stream)
  (proxies : Map Proxy)
  (guards : Map (Nat × Nat))
  /-- Streams closed whose region is still guarded, by region base: layers may go on showing their frames (R76). -/
  (closed : Map Stream)
  /-- How many access units ingest has delivered (R85). -/
  (deliveries : Nat)
deriving DecidableEq, Repr

/-! ## Decoding and the ledger -/

/-- A decoded picture in a picture slot of its buffer set: it waits for output, is held as a reference, or has been output and may
be shown (R80, R88, R94, R95). -/
structure Picture where
  (au poc slot : Nat)
  (origin raw : Option Origin)
  (originUs : Nat)
  /-- Its own access unit has an origin time: only then is its output a receipt (R70, R108). -/
  (ownOrigin : Bool)
  /-- Not yet output; a reference; how many pictures have followed it in decoding order while it awaits output (R99). -/
  (awaiting reference : Bool)
  (latency : Nat)
  (concealed : Bool)
  (width height bitDepth : Nat)
  (colorimetry range : Nat)
  /-- Its own concealed area and its whole area, in CTUs or macroblocks (R97). -/
  (concealedUnits totalUnits : Nat)
  (element : Option Element)
  /-- Conservative origin time of each field, the frame's own or carried on (R145). -/
  (fields : Map Nat)
  /-- When it was output (R141). -/
  (doneNs : Nat)
deriving DecidableEq, Repr, Inhabited

/-- A mid-grey picture that stands in for a missing reference: its picture order count, and the bit depth that gives its samples
(R93). It occupies no picture slot. -/
structure Grey where
  (poc bitDepth : Nat)
deriving DecidableEq, Repr, Inhabited

/-- The decode attachment of a source (R81). -/
structure Attach where
  (body : AttachBody)
  (pipeline : Nat)
  /-- Waiting for an IRAP or IDR picture (R87, R89, R101, R102); because no slot was free (R88). -/
  (needIrap noSlotWait : Bool)
  /-- Parameter sets held, the latest of each kind and id; the active SPS (R90, R92). -/
  (sets : List ParamSet)
  (active : Option SpsInfo)
  /-- Pictures held for output or as references, mid-grey ones held as references, and the ones output that a layer may show,
  newest first. -/
  (held : List Picture)
  (greys : List Grey)
  (shown : List Picture)
  /-- The NAL units of every access unit decoded since the last IRAP or IDR picture: what the decoding process has read (R79). -/
  (coded : List (List (List Byte)))
  /-- In concealment since a CONCEALED picture (R94); origin of the last intact picture before it (R95). -/
  (concealing : Bool)
  /-- RASL pictures of the latest IRAP are CONCEALED, because it ended concealment (R94); or are not output, because the decoding
  process starts with it. -/
  (raslConcealed raslSkipped : Bool)
  (lastIntact : Option Origin)
  (lastOutputOrigin : Option Int)
  (output concealedOut suppressed slicesAbandoned lagDrops slotDrops shedDrops unsupported abandoned : Nat)
  /-- A detach in progress: tickets that complete with it, whether an ingest close made it, whether it aborts (R103). -/
  (draining : Bool)
  (detachTickets : List Ticket)
  (byClose abort : Bool)
deriving DecidableEq, Repr, Inhabited

/-- An access unit in decode: its source, the picture slot it decodes into, when it was begun, and whether a gate refused a read of
it and whether a read was poisoned (R87, R90, R365); `fresh` says that decoding starts with it. -/
structure InDecode where
  (source slot startNs : Nat)
  (unit : AccessUnit)
  (fresh refused poisoned : Bool)
deriving DecidableEq, Repr, Inhabited

/-- A decode pipeline: the access unit in decode, and a self-test running (R85, R105). -/
structure Pipeline where
  (current : Option InDecode)
  (selftest : Option Ticket)
deriving DecidableEq, Repr, Inhabited

/-- Stream decoding: attachments by source, pipelines, buffer sets detached and not yet released (R104). -/
structure DecodeSt where
  (attached : Map Attach)
  (pipelines : Map Pipeline)
  (guards : Map (Nat × Nat))
  /-- Attachments detached whose buffer set is still guarded, by its base: layers may go on showing their pictures (R104). -/
  (closed : Map Attach)
deriving DecidableEq, Repr

/-- Source kinds, by value (R108). -/
inductive Kind where
  | free | network | hostFed | internal | derived | test
deriving DecidableEq, Repr, Inhabited

/-- Ledger states, by value (R29). -/
inductive SrcState where
  | unknown | live | late | stale | frozen | lost | shed | concealed | withdrawn | test
deriving DecidableEq, Repr, Inhabited

/-- Causes of a state change, by value (R116). -/
inductive Cause where
  | none | receipt | lateTimer | staleTimer | lossTimer | probe | heartbeat | selfReported | concealedPicture | command
  | close | detach | shed | restore | parent | elementTest
deriving DecidableEq, Repr, Inhabited

/-- A decimated picture of the freeze probe (R123). -/
structure ProbePic where
  (width height : Nat)
  (concealed : Bool)
  (samples : List Nat)
deriving DecidableEq, Repr, Inhabited

/-- A ledger entry: the fields of R109, and the conditions of R113 that the entry itself does not spell out. -/
structure Entry where
  (kind : Kind)
  (state : SrcState)
  (cls : Nat)
  (cause : Cause)
  (staticDesign elementStatic probeEn concealScorch cmdTest rxTest rxFrozen withdrawn : Bool)
  (parent field freezeK : Nat)
  (originNs : Int)
  (uSrcNs expectUs lossMs staleMs freezeSad rxNs stateNs hbSeq hbRepeat sadRepeat pktNs : Nat)
  /-- The latched conditions SHED, LOST and UNKNOWN of R113, and those of CONCEALED, STALE and LATE. -/
  (shedLatch lostLatch unknownLatch concealedNow staleNow lateNow : Bool)
  /-- A receipt has been taken since the entry was created (R113). -/
  (received : Bool)
  /-- The probe's previous decimated picture, and the ones whose comparison is under way, oldest first (R123). -/
  (probeLast : Option ProbePic)
  (probeNext : List ProbePic)
  /-- State changes in the present second and those not reported (R131). -/
  (second changes unreported : Nat)
  /-- The encode pipeline on which the probe was placed when it was enabled (R241). -/
  (probePipe : Nat)
deriving DecidableEq, Repr, Inhabited

/-- The ledger: entries by source id, an unlisted one being FREE with 0 in every field; the verdict update sequence numbers (R129) of the own and the
twin Tailstock; whether a whole bitmap has been sent since the reset (R130). -/
structure LedgerSt where
  (entries : Map Entry)
  (seqOwn seqTwin : Nat)
  (wholeSent : Bool)
deriving DecidableEq, Repr

/-! ## Scene banks and composition -/

/-- The records of one head in a scene bank (R297); a record not listed is at its reset value. -/
structure HeadScene where
  (timing : HeadTiming)
  (output : HeadOutput)
  (background : Rgb)
  (backgroundRz : Bool)
  (layers : Map Layer)
  (regions : Map Region)
  (windows : Map Window)
  (labels : Map Label)
  (colours : Map ColourSet)
  (tsHead : TsHead)
  (calipers : Map CalRect)
deriving DecidableEq, Repr, Inhabited

/-- A scene bank (R298): heads 0 to 31 of the module and 32 to 63 of its twin, sync group records, gate rule sets. -/
structure SceneBank where
  (heads : Map HeadScene)
  (groups : Map SyncGroup)
  (rules : Map RuleSet)
deriving DecidableEq, Repr, Inhabited

/-- Use of the bank that is not in force (R298). -/
inductive BankUse where
  | free | staged | retained
deriving DecidableEq, Repr, Inhabited

/-- The two scene banks, the scene generation, and the groups that have not reached their apply frame: until then they show
the retained bank (R298, R299, R310). -/
structure SceneSt where
  (inForce other : SceneBank)
  (otherUse : BankUse)
  (gen : Nat)
  (pendingGroups : Map Nat)
  /-- The twin's scene generation as it last told it (R299), and whether priority 0 is sent for it (R314). -/
  (twinGen : Nat)
  (behind : Bool)
  /-- The banks last changed places to restore the retained one (R311). -/
  (restored : Bool)
deriving DecidableEq, Repr

/-- A registered surface (R132 to R137). -/
structure Surface where
  (body : SurfaceBody)
  /-- The newest image, when it became so in elapsed time, and the newest one before that instant (R134, R141). -/
  (newest : Option Nat)
  (newestNs : Nat)
  (before : Option Nat)
  (retiring : Option Ticket)
  /-- Uploads copying; reads that copy, each with the instant at which it has read the last byte; uploads and reads that wait, first in
  first out (R134 to R136). -/
  (active : List (Ticket × UploadBody))
  (reading : List (Nat × Ticket × UploadBody))
  (waiting : List (Ticket × Bool × UploadBody))
  /-- Frame number and wall time of the last frame whose composition read the surface (R137). -/
  (lastFrame lastNs : Nat)
deriving DecidableEq, Repr, Inhabited

/-- What a layer shows: a frame of a source by the base of its region, its slot and its number, a picture by the base of its
buffer set and its access unit, a surface image (R141). -/
inductive Content where
  | slot (source base slot number : Nat)
  | picture (source base au : Nat)
  | image (surface image : Nat)
deriving DecidableEq, Repr, Inhabited

/-- Content selected for a frame: its own origin time, and those of the fields carried with it; and the origin time of each source that the
layer's windows name, none of which flags void (R141, R145). -/
structure Shown where
  (content : Content)
  (width height : Nat)
  (own : Option Nat)
  (fields : Map Nat)
  (concealed : Bool)
  (origins : Map (Option Nat))
deriving DecidableEq, Repr, Inhabited

/-- A layer as the compositor runs it: the selection of the frame in composition and whether it is still held, that of the
frame before while its last lines are fetched, void, and the line from which it underran in the one and in the other (R141 to R144, R159). -/
structure LayerRt where
  (cur : Option Shown)
  (curHeld : Bool)
  (old : Option Shown)
  (void : Bool)
  (underrun oldUnderrun : Option Nat)
  (underruns mismatches : Nat)
deriving DecidableEq, Repr, Inhabited

/-- A frame in composition: its number, its start in elapsed time, its next line, its records (R158). -/
structure CompFrame where
  (frame start next : Nat)
  (scene : HeadScene)
deriving DecidableEq, Repr, Inhabited

/-- A head in composition: the frame selected last, and the frame before while lines of it are left (R144, R158). -/
structure CompHead where
  (now : CompFrame)
  (old : Option CompFrame)
deriving DecidableEq, Repr, Inhabited

/-- A writeback in force (R160). -/
structure Writeback where
  (body : WritebackBody)
  (ticket : Option Ticket)
  /-- The frames being written, the earlier first, and the frames selected for since the set-up; stops that wait. -/
  (writing : List Nat)
  (count : Nat)
  (stopping : List Ticket)
deriving DecidableEq, Repr, Inhabited

/-- Layer composition. -/
structure ComposeSt where
  (surfaces : Map Surface)
  /-- Loaded coefficient sets 2 to 15: 896 coefficients (R151). -/
  (coeffs : Map (List Int))
  /-- Layers by head × 32 + layer, heads in composition, writebacks by head. -/
  (layers : Map LayerRt)
  (heads : Map CompHead)
  (writebacks : Map Writeback)
  /-- When a line or idle token was last sent for each head (R209). -/
  (tokens : Map Nat)
  /-- Pipes under test, with the command that completes with the last of them (R164). -/
  (tests : List Nat)
  (testTicket : Option Ticket)
deriving DecidableEq, Repr

/-! ## Heads, sync groups and the Tailstock -/

/-- A window map entry that is valid (R197). -/
structure MapEntry where
  (style colourSet : Nat)
  (internal staticSrc : Bool)
  (sourceId budgetMs : Nat)
  (rect : Rect)
  (kind layer : Nat)
deriving DecidableEq, Repr, Inhabited

/-- Judging material of one head from one main section, of one bank (R196). -/
structure HeadMat where
  (entries : Map MapEntry)
  (labels : Map Label)
  (colours : Map ColourSet)
deriving DecidableEq, Repr, Inhabited

/-- Records of one head held once, of one bank (R196). -/
structure HeadOnce where
  (timing : HeadTiming)
  (output : HeadOutput)
  (tsHead : TsHead)
  (plateLabel : Label)
  (calipers : Map CalRect)
deriving DecidableEq, Repr, Inhabited

/-- A swap order pending: the frame that it names, whether it is a rollback's, when it arrived, and whether it has been told as late
(R200). -/
structure SwapOrder where
  (frame : Nat)
  (rollback : Bool)
  (arrivedNs : Nat)
  (late : Bool)
deriving DecidableEq, Repr, Inhabited

/-- One stream of a head: its two banks of material, the swap orders pending, the earlier first, the latest claim
word of a valid token and its instant, whether the effective claim last told was non-zero, and the lines held ahead. -/
structure StreamRt where
  (force other : HeadMat)
  /-- Which of the two banks is in force, and whether the other one is kept from before a swap (R200). -/
  (bank : Nat)
  (kept : Bool)
  (orders : List SwapOrder)
  (claim : Claim)
  (tokenNs : Option Nat)
  (toldClaim : Bool)
  /-- Instant of the latest token that carried a line (R214). -/
  (lineNs : Option Nat)
  /-- Lines held ahead, each with the instant of its arrival (R211). -/
  (ahead : List (Nat × LineToken))
deriving DecidableEq, Repr, Inhabited

/-- A line in hold memory (R212). -/
structure HeldLine where
  (frameNo : Nat)
  (side : Side)
  (spans : List Span)
  (pixels : List Rgb)
  (bad : Bool)
deriving DecidableEq, Repr, Inhabited

/-- What a line being emitted comes from: the stream passed, hold memory with the side that composed it, the full-head plate, nothing
(R211 to R214). -/
inductive LineKind where
  | stream (side : Side)
  | held (side : Side)
  | plate
  | empty
deriving DecidableEq, Repr, Inhabited

/-- A line being emitted: its spans, its pixels not yet emitted, from column `x` on, those emitted with the origin times that Calipers count,
latest first, and the errors that reading its judging material meets (R201, R203, R205, R225). -/
structure LineNow where
  (line : Nat)
  (kind : LineKind)
  (spans : List Span)
  (rest : List Rgb)
  (x : Nat)
  (out : List Rgb)
  (fresh : List (Option Nat))
  (errors : LineErrors)
deriving DecidableEq, Repr, Inhabited

/-- A line of the frame as emitted: pixels after scorching, and for each the origin time of an unmarked pixel of a source
that Calipers mode 2 counts (R217, R219). -/
structure EmLine where
  (pixels : List Rgb)
  (fresh : List (Option Nat))
deriving DecidableEq, Repr, Inhabited

/-- A Calipers rectangle at run time: last CRC and frame, counter, last p(N), mismatch state and count (R217 to R219). -/
structure CalRt where
  (crc : Option Nat)
  (frame c : Nat)
  (p : Option Nat)
  (mismatch : Bool)
  (since : Nat)
deriving DecidableEq, Repr, Inhabited

/-- What a frame showed of a window (R222). -/
structure WinAcc where
  (pixels scorched : Nat)
  (void held concealed mismatch : Bool)
  (ageMin ageMax : Option Nat)
  (undefinedAge : Bool)
deriving DecidableEq, Repr, Inhabited

/-- A head of the Tailstock at run time. -/
structure HeadRt where
  (once onceOther : HeadOnce)
  /-- The frame and the side of the order that last swapped the records held once, while the other side's order for the same frame may still
  come; and whether the other bank of them is kept from before a swap (R200). -/
  (onceSwapped : Option (Nat × Side))
  (onceKept : Bool)
  (own twin : StreamRt)
  /-- Frame in progress, its start in wall time and in elapsed time, the line being emitted; head state and supply by value (R170, R214). -/
  (frame : Option Nat)
  (startNs startMono : Nat)
  (line : Option LineNow)
  (hstate supply : Nat)
  /-- The stream passed for this frame and its claim word; the last one passed since power-up; the last valid token of it. -/
  (passed : Option Side)
  (passedClaim : Nat)
  (lastPassed : Option Side)
  (hold : Map HeldLine)
  (lastRx : Option Nat)
  (enabledNs : Nat)
  (replayed : Nat)
  (replayedTotal switchovers plates : Nat)
  (faults : Map Nat)
  /-- The frame as emitted, window summaries, scorched pixels, the age fields shown, one WINDOW_MISMATCH told. -/
  (emitted : Map EmLine)
  (windows : Map WinAcc)
  (scorchedPx : Nat)
  /-- Scorched pixels of the last complete frame (R222). -/
  (lastScorched : Option Nat)
  (ages : Map (List Nat))
  (mismatchTold : Bool)
  /-- Windows that have no label in this frame, since a record of theirs failed its parity check (R225). -/
  (noLabel : List Nat)
  (cal : Map CalRt)
  (calUnreliable : Bool)
  (glyphs : Map (List Byte))
  (returnDiv : Nat)
  (rtpSeq : Nat)
  /-- Returned frames under way to the main section: header and pixels in P010 (R222). -/
  (returned : List (ReturnHeader × List Byte))
  /-- State of the head and u in µs at the frame start (R222). -/
  (startState : Nat)
  (startU : Option Nat)
  /-- DisplayPort: HPD high for 100 ms, what the sink told, its EDID's CRC; lane rate and count trained; combinations left of
  the attempt; attempts made; failure and its instant; D3; trained and waiting for a frame start; counts. -/
  (hpd : Bool)
  (sink : Option SinkInfo)
  /-- A sink connected while AUX is idle, not read yet (R170, R174). -/
  (sinkUnread : Option SinkInfo)
  (edidCrc : Nat)
  (trained : Option (Nat × Nat))
  (combos : List (Nat × Nat))
  (attempts : Nat)
  (training linkFail : Bool)
  (failNs : Nat)
  (sinkD3 emitting : Bool)
  (trainings losses rephases : Nat)
deriving DecidableEq, Repr, Inhabited

/-- A sync group at run time: the frame in progress and its start in elapsed time and in wall time, the latest frame
latched, its latch point in wall time and the frame start that follows from it in elapsed time, the earliest first latch point of a group just
created, the first pace event since the latch point, reference edges in elapsed time, a re-phase due since lock returned, pace timeouts
(R182 to R191, R310). -/
structure GroupRt where
  (frame : Option Nat)
  (startNs wallNs : Nat)
  (latched : Option Nat)
  (latchNs nextStart : Nat)
  (firstLatch : Option Nat)
  (paceNs : Option Nat)
  (locked rephaseDue : Bool)
  (edges : Nat)
  (lastEdge : Option Nat)
  (lastPeriod timeouts : Nat)
deriving DecidableEq, Repr, Inhabited

/-- A verdict bitmap as the Tailstock holds it: its bits, its sequence number, whether every bit counts as not live, and what it held
before each change of the last millisecond, the latest first, with the instant of the change (R30, R129, R203, R206, R225). -/
structure BitmapRt where
  (bits : Bitmap)
  (seq : Nat)
  (gap : Bool)
  (past : List (Nat × Bitmap))
deriving DecidableEq, Repr

/-- An egress port (R178). -/
structure EgressPort where
  (mode : Nat)
  (lane : Lane)
deriving DecidableEq, Repr, Inhabited

/-- An event that waits in the Tailstock (R226). -/
structure TsEvent where
  (code : Nat)
  (scope : ScopeKind)
  (scopeId : Nat)
  (items : Items)
  (wallNs : Nat)
  (attention : Bool)
deriving DecidableEq, Repr, Inhabited

/-- The Tailstock output section. -/
structure TsSt where
  (heads : Map HeadRt)
  (groups : Map GroupRt)
  (groupRecs : Map SyncGroup)
  (own twin : BitmapRt)
  (glyphs : Map (List Byte))
  (egress : Map EgressPort)
  /-- Latest claim word and instant of any token or record write of each main section (R196). -/
  (ownClaim twinClaim : Option (Claim × Nat))
  (events : List TsEvent)
  (eventsLost : Nat)
  (powered : Bool)
  /-- For a fault or event raised at most once a second: time of the last one and count since, by key (R225, R227). -/
  (limiters : Map (Nat × Nat))
deriving DecidableEq, Repr

/-! ## Recording and overlay -/

/-- A statistics record: frame, columns, rows, slice bytes, budget, and per row QP, substituted, bytes (R244). -/
structure StatRec where
  (frameNo cols rows sliceBytes budget : Nat)
  (perRow : List (Nat × Bool × Nat))
deriving DecidableEq, Repr, Inhabited

/-- A returned frame in an input slot: the slot, its header, whether a frame that the divisor selected was not recorded before it, the divisor
in effect as it came, and when that was (R237 to R239). -/
structure InputFrame where
  (slot : Nat)
  (header : ReturnHeader)
  (missed : Bool)
  (nEff arrivedNs : Nat)
deriving DecidableEq, Repr, Inhabited

/-- A recording session (R228 to R245). -/
structure Session where
  (body : RecordBody)
  /-- w, h and the rate of the head at the start; the pipeline. -/
  (width height rateNum rateDen pipe : Nat)
  /-- Returned frames in input slots, the oldest being coded (R239). -/
  (input : List InputFrame)
  /-- Frame of the last IDR picture; pictures coded since it; the next picture is IDR; pictures coded (R234). -/
  (lastIdr sinceIdr : Nat)
  (forceIdr : Bool)
  (coded lastCoded : Nat)
  /-- A frame that the divisor selected was not recorded since the latest frame taken (R238). -/
  (missed : Bool)
  (wr rd ausWritten ausDropped : Nat)
  /-- Latest first, at most four (R244). -/
  (stats : List StatRec)
  /-- A stop in progress (R245): its ticket; the head ended it. -/
  (stopping : Option Ticket)
  (ended : Bool)
deriving DecidableEq, Repr, Inhabited

/-- Recording: sessions by head, work regions still guarded by base (size, head), pipelines under self-test, and whether
step 1 of the ladder is in force for the sessions (R242, R246, R247). -/
structure RecordSt where
  (sessions : Map Session)
  (guards : Map (Nat × Nat))
  (tests : Map Ticket)
  (shed : Bool)
deriving DecidableEq, Repr

/-- A loaded font: cell size, first code, glyph bytes (R257). -/
structure Font where
  (cellW cellH firstCode count : Nat)
  (glyphs : List Byte)
deriving DecidableEq, Repr, Inhabited

/-- A due run: its place in order, its frame for PER_FRAME, the commands that wait for it, whether they give up at once, since
when it waits for an image (R262), the instant that the clock of a per-frame run shows (R255), and when the latch point after its frame's
came, in wall time (R263). -/
structure DueRun where
  (order : Nat)
  (frame clockNs : Option Nat)
  (tickets : List Ticket)
  (noWait : Bool)
  (since lateNs : Option Nat)
deriving DecidableEq, Repr, Inhabited

/-- An overlay binding (R257 to R259). -/
structure Binding where
  (body : BindBody)
  (engine : Nat)
  (slots : Map (List Nat))
  (due : List DueRun)
  (unbinding : Option Ticket)
  (stopping : Bool)
deriving DecidableEq, Repr, Inhabited

/-- A run in progress: its binding, its target image and the newest image at its start, its start instant, what it draws with
as it stood then (R250, R260, R265). -/
structure Run where
  (binding image : Nat)
  (newest : Option Nat)
  (startNs : Nat)
  (list : List Byte)
  (slots : Map (List Nat))
  (fonts : Map Font)
  (due : DueRun)
deriving DecidableEq, Repr, Inhabited

/-- An overlay engine: its run and its counts of runs presented, skipped, late, superseded, and abandoned by cause. -/
structure Engine where
  (run : Option Run)
  (presented skipped late superseded : Nat)
  (abandoned : Map Nat)
deriving DecidableEq, Repr, Inhabited

/-- Overlay engines: display lists, loaded fonts, bindings, engines, and the count that orders due runs. -/
structure OverlaySt where
  (lists : Map (List Byte))
  (fonts : Map Font)
  (bindings : Map Binding)
  (engines : Map Engine)
  (order : Nat)
deriving DecidableEq, Repr

/-! ## Scene transactions -/

/-- Transaction phases, by value (R302). -/
inductive TxnPhase where
  | none | open_ | validating | valid | preparing | committed | applied | aborted | rollingBack | abortedAfterCommit
deriving DecidableEq, Repr, Inhabited

/-- A transaction as the Headstock runs it (R300 to R318). -/
structure Txn where
  (lockstep : Bool)
  (parts : List Nat)
  (phase : TxnPhase)
  /-- The TXN_VALIDATE or TXN_COMMIT in progress, which of the two, its report length; apply_ns as asked; T. -/
  (ticket : Option Ticket)
  (isCommit : Bool)
  (reportLen askedNs : Nat)
  (applyNs : Option Nat)
  /-- Validation results and votes by position; positions that acknowledged the commit; outcomes by position. -/
  (results : Map (ValSummary × List ReportEntry))
  (votes : Map (Bool × Nat))
  (acked : List Nat)
  (outcomes : Map Nat)
  /-- Apply frame of each affected group; by position × 256 + group, the frame used; scene generation by position; the
  groups of each position that has told them. -/
  (frames : Map Nat)
  (used : Map Nat)
  (gens : Map Nat)
  (groupsOf : Map (List Nat))
  (prepareNs lastSentNs : Nat)
  (cancelled : Bool)
  /-- Sync group records staged for other modules, which the Headstock has passed on. -/
  (stagedGroups : Map SyncGroup)
deriving DecidableEq, Repr, Inhabited

/-- The part this module takes in an unsettled transaction (R308 to R313): whether it voted yes and when, the commit it
holds, its affected groups, whether the commit came after its deadline, whether it has applied, the frames from which it restored. -/
structure PartTxn where
  (txn : Nat)
  (votedYes : Bool)
  (votedNs : Nat)
  (commit : Option CommitMsg)
  (groups : List Nat)
  (frames : Map Nat)
  (missed applied late : Bool)
  (lostNs : Option Nat)
deriving DecidableEq, Repr, Inhabited

/-- Transactions: those the Headstock keeps, by id; the last id given; ids in the order begun, latest first; this module's
own part. -/
structure TxnSt where
  (txns : Map Txn)
  (lastId : Nat)
  (begun : List Nat)
  (part : Option PartTxn)
deriving DecidableEq, Repr

/-! ## Luasin -/

/-- What a Luasin message holds: a line or idle token, verdict entries, a whole bitmap, a Beat or delay message; or a
message to which the manual gives no layout, by its number (R326, R328 to R330, R351). -/
inductive MsgBody where
  | token (format : Nat) (t : LineToken)
  | update (seq : Nat) (entries : List (Nat × Bool))
  | bitmap (seq : Nat) (bits : Bitmap)
  | beat (m : BeatMsg)
  | unlisted (number : Nat)
deriving DecidableEq, Repr, Inhabited

/-- A message that waits for a bond's lanes, and the bytes of it already sent (R325, R326). -/
structure QMsg where
  (bond : Bond)
  (cls : TClass)
  (body : MsgBody)
  (sent : Nat)
  (started : Bool)
  /-- On the internal bond: the Tailstock passes the message on to the TWIN bond. On that bond: the bytes of it that the Tailstock has from
  the internal bond, where it relays it (R320). -/
  (relay : Bool)
  (arrived : Option Nat)
deriving DecidableEq, Repr, Inhabited

/-- A CONTROL or BULK frame sent and not yet acknowledged (R327); `again` that it is to be sent again. -/
structure SentFrame where
  (seq offset length : Nat)
  (first last : Bool)
  (body : MsgBody)
  (sentNs resends : Nat)
  (again : Bool)
deriving DecidableEq, Repr, Inhabited

/-- A lane (R332, R335): state by value, slots received, the slots of the latest CRC failures, its counts, and the counts
that LANE_ERRORS last told; `sinceNs` is when its state was entered. -/
structure LaneRt where
  (state sinceNs slots : Nat)
  (crcSlots : List Nat)
  (crc marker run stuffing retx trainings : Nat)
  (told : List Nat)
deriving DecidableEq, Repr, Inhabited

/-- A bond (R325 to R327), by class value: next sequence number to send, frames not acknowledged, last sequence number
accepted, whether a message is open at the receiver, since when an acknowledgement is owed; when its last lane UP was lost. -/
structure BondRt where
  (txSeq : Map Nat)
  (sent : Map (List SentFrame))
  (rxSeq : Map Nat)
  (rxOpen : Map Bool)
  (acks : Map Nat)
  (downNs : Option Nat)
deriving DecidableEq, Repr, Inhabited

/-- A lane test (R335). -/
structure LaneTest where
  (lane : Nat)
  (ticket : Ticket)
  (durationMs startNs : Nat)
deriving DecidableEq, Repr, Inhabited

/-- The Luasin lanes: the LINK registers; lanes by index, ring and twin lanes 0 to 19, internal lanes towards the Tailstock
32 to 55 and towards the main section 56 to 63; bonds; messages that wait, oldest first; how many messages without a layout
have been sent; the tests. -/
structure LinkSt where
  (laneEn rxInvert retxUs ackUs downCrc cntSel : Nat)
  (lanes : Map LaneRt)
  (bonds : Map BondRt)
  (waiting : List QMsg)
  (messages : Nat)
  (tests : Map LaneTest)
deriving DecidableEq, Repr

/-! ## Cascade, Headstock and twin -/

/-- Ring states, by value (R339). -/
inductive RingState where
  | single | intact | broken | split
deriving DecidableEq, Repr, Inhabited

/-- What the Headstock knows of a module of the cascade (R339 to R341). -/
structure ModInfo where
  (serial state role sceneGen bootCount : Nat)
  (masterSel sideB caughtUp inContact : Bool)
  (twinSerial : Option Nat)
  (lastNs : Nat)
deriving DecidableEq, Repr, Inhabited

/-- A ring link as the module measures it: the half round trips in ps, latest first, at most 16; requests sent; the number
and instant of the request outstanding (R352). -/
structure LinkDelay where
  (up : Bool)
  (halves : List Int)
  (requests : Nat)
  (outstanding : Option Nat)
  /-- The link is not admitted, because it joins two ports of one name or the module to itself (R337); when the last request went. -/
  (refused : Bool)
  (requestNs : Option Nat)
deriving DecidableEq, Repr, Inhabited

/-- What pairing tells of the twin (R354, R357, R358). -/
structure TwinInfo where
  (ident : TwinIdent)
  (role : Role)
  (caughtUp : Bool)
  (mode : Nat)
  (sceneGen : Nat)
deriving DecidableEq, Repr, Inhabited

/-- A swap agreed for an instant S (R359): S, whether automatic, the command's ticket, whether for a hitless update. -/
structure Swap where
  (atNs : Nat)
  (auto hitless : Bool)
  (ticket : Option Ticket)
deriving DecidableEq, Repr, Inhabited

/-- The ring, the Headstock role, the Spindle beat, and the twin pair. -/
structure CascadeSt where
  (position : Nat)
  (posValid : Bool)
  (storedIdentity storedPosition : Option Nat)
  (headstock : Bool)
  /-- A new Headstock that does not yet serve its doorbells, or an old holder that completes what it forwarded (R347). -/
  (handover : Bool)
  (candidate : Bool)
  (ring : RingState)
  (headstockPos : Nat)
  (modules : Map ModInfo)
  /-- A discovery sent, and when. -/
  (discovering : Bool)
  (discoveryNs : Nat)
  (east west : LinkDelay)
  /-- Beats: highest epoch accepted, sequence sent, last beat accepted and its origin, hops, direction, locked flag. -/
  (epoch beatSeq : Nat)
  /-- When the last beat and the last presence message went (R341, R351). -/
  (beatNs presenceNs : Option Nat)
  /-- When the last presence message of the Headstock came, at another module (R313, R341). -/
  (headNs : Option Nat)
  (lastBeatNs : Option Nat)
  (lastBeatSeq beatOrigin beatHops : Nat)
  (beatWest : Bool)
  (onBeat : Bool)
  /-- The latest beat accepted on the present beat path; serial numbers of the modules in ring order eastwards from the Headstock, but for its own. -/
  (pathSeq : Nat)
  (ringOrder : List Nat)
  /-- Twin. -/
  (role : Role)
  (twinUp : Bool)
  (twin : Option TwinInfo)
  (withdrawnByCommand catchingUp caughtUp : Bool)
  (swap : Option Swap)
  /-- The last swap, where no other change of role followed it: its instant, in elapsed time, and the role before (R359). -/
  (swapped : Option (Nat × Role))
  (lastAutoSwap : Option Nat)
  (leanSince twinReadySince : Option Nat)
deriving DecidableEq, Repr

/-! ## Module memory, gates, mailboxes and locks -/

/-- A tracked bank's table of rows and activate counts (R375). -/
abbrev RowTable := List (Nat × Nat)

/-- DRAM channel: trained, its two subchannels' double refresh rate, margins and drift of training (R373, R377, R378). -/
structure Channel where
  (trained hotA hotB retraining : Bool)
  (readMarginPs writeMarginPs driftPs : Nat)
  (driftTold : Bool)
deriving DecidableEq, Repr, Inhabited

/-- Module DRAM and its controller. -/
structure MemSt where
  /-- Bytes written since the contents became undefined, in the canonical form; how often they did (R363, R371). -/
  (cells : List Host.Cell)
  (epoch : Nat)
  /-- 64-byte bursts that read as uncorrectable, by burst number (R365, R366). -/
  (poison : List Nat)
  /-- Errors armed by MEM_INJECT: burst number, devices in error (R380). -/
  (injected : Map (List Nat))
  /-- DRAMC registers: MAP, RD_CTRL, SCRUB, ECC_CTRL fields as written. -/
  (mapFixed hashEn : Bool)
  (grainLog2 thresh missProbLog2 scrubH devFailThresh : Nat)
  (erasureEn mapRefused : Bool)
  (ceTotal ueTotal lastUe mitigations scrubPasses scrubPos : Nat)
  (channels : Map Channel)
  /-- Failed devices, and per device (subchannel × 10 + device) the instants of corrected beats in the last second, and totals of
  corrected beats and uncorrectable bursts. -/
  (failed : List Nat)
  (ceTimes : Map (List Nat))
  (ceDevice ueDevice : Map Nat)
  /-- Uncorrectable errors raised in the present second, and not raised (R381). -/
  (ueSecond ueRaised ueUnraised : Nat)
  (tables : Map RowTable)
  /-- A MEM_RETRAIN under way: ticket, channels left, results (R379). -/
  (retrain : Option (Ticket × List Nat × Items))
  /-- Accesses that wait while a channel they touch trains, in the order they came (R379). -/
  (waiting : List (Access × BeatErrors))
deriving DecidableEq, Repr

/-- An object region of a context (R386): base, size, and the directions it allows. -/
structure ObjRegion where
  (base size : Nat)
  (read write : Bool)
  (kind objectId : Nat)
deriving DecidableEq, Repr, Inhabited

/-- A gate context in force: the initiators that issue accesses under it, and its object regions (R386). -/
structure GateCtx where
  (ctx : Context)
  (who : List Initiator)
  (regions : List ObjRegion)
deriving DecidableEq, Repr, Inhabited

/-- A gate fault record (R394). -/
structure GateFault where
  (seq gate cause initiator wallNs address length : Nat)
  (write : Bool)
  (parts partALen outcomeA outcomeB objectKind ruleSet objectId further : Nat)
  /-- The context or command it belongs to. -/
  (ctx : Context)
  (cmdTag : Option Nat)
  (closed : Bool)
deriving DecidableEq, Repr, Inhabited

/-- The gates: contexts, driver rule sets in force, fault records latest first, the GATE registers. -/
structure GateSt where
  (contexts : List GateCtx)
  (rules : Map RuleSet)
  (faults : List GateFault)
  (faultCount lastFaultSeq ruleGen : Nat)
  (debugEn : Bool)
  /-- Gates with accesses in flight that were checked under replaced rules (R393), and fences that wait: masks, tickets. -/
  (draining : List Nat)
  (fences : List (Nat × Ticket))
deriving DecidableEq, Repr

/-- One mailbox slot of an agent (R395). -/
structure Slot where
  (msg : List Byte)
  (sender : Nat)
  (full collision senderReset : Bool)
deriving DecidableEq, Repr, Inhabited

/-- Mailboxes and locks: slots keyed by agent × 32 + slot; masks of the agents' slots; send-status words keyed by sender
agent × 64 + receiver; lock holders by lock; agents not serving (R396). -/
structure MbxSt where
  (slots : Map Slot)
  (hostMask : Nat)
  (sendStatus : Map Nat)
  (locks : Map Nat)
  (notServing : List Nat)
deriving DecidableEq, Repr

/-! ## The state right after a reset -/

/-- HOSTIF after a reset that initialises it (R276, R294). -/
def HostSt.init : HostSt :=
  { linkSpeed := 0, linkWidth := 0, attached := false, resumable := false, detachCause := 0, detachWallNs := 0,
    run := false, pollNs := 4000, attnEnable := true, attnHoldoffUs := 10, tableLo := 0, tableHi := 0,
    errTable := false, errMismatch := false, errDma := false, errRing := false,
    lockViolations := 0, badAccess := 0, lastViolation := 0, table := none, tableAddr := 0,
    cmdProd := [], cmdCons := [], cplProd := [], cplCons := [], evtProd := [], evtCons := [],
    stoppedCmd := [], stoppedCpl := [], stoppedEvt := [] }

/-- The queues after such a reset (R286, R288). -/
def QueueSt.init : QueueSt :=
  { inFlight := [], retained := [], cplDiscarded := 0, events := [], lostUntold := 0, eventsLost := 0, seqs := [],
    evtMasks := [], limiters := [], heartbeat := 0, pageDirty := false, attnWritten := false, attnPublished := false,
    lastPulseNs := none, detaching := none, forwards := [], nextForward := 0 }

/-- The management pair at a power-up of its domain (R407, R416); the stored counts are free values. -/
def MgmtSt.init : MgmtSt :=
  { wdtMs := 500, restoreS := 5, step := 0, testFloor := none, vcoreMv := 800, vcoreRemoved := false,
    paceShort := false, faultCause := 0, bootCount := Config.flashBootCount, resetCause := 0,
    logSeq := Config.flashLogSeq, restarting := false, keptOutputs := [], pairStartNs := none, waiting := [], mismatches := [], expiries := [], firstExpiry := none,
    watchdogResets := [], internals := [], sensors := [], limitSince := [], blocks := [], surplusSince := none, shortCount := 0,
    lastTakeNs := none, projectedSince := none, shortSince := none, fullSince := none, lastThermalNs := none, lastEvalNs := none,
    logUnpinned := [], logPinned := [], logSecond := 0, logInSecond := 0, logSuppressed := 0, resetPending := none }

/-- Both inlets present and the feed supplying, as at a power-up from both inlets (R423, R425). -/
def PowerSt.init : PowerSt :=
  { inlet0 := true, inlet1 := true, volts0 := 230, volts1 := 230, bothLostSince := none, feed := .supplying,
    busMv := 48000, feedW := 0, serviceEn := false, sysResetHeld := false, shutdownDraining := false,
    shutdownDone := false, shutdownAsked := false, managementUp := true }

/-- Firmware update at a power-up; what the banks hold is a free value (R442, R463). -/
def UpdateSt.init : UpdateSt :=
  { phase := .idle, bankA := some Config.flashImage, bankB := none, bootPointer := 0, rollback := Config.flashRollback,
    activateNs := none, connected := false, transfer := none, body := [], lastDataNs := 0, inbound := none,
    distribute := none, activate := none, hitless := none, engine := none, engineVersion := [] }

/-- STARTING at a power-up, booted from bank A (R23, R275). -/
def ModuleSt.init : ModuleSt :=
  { mode := .starting, sleptFrom := .setup, masterSel := true, sideB := false, bank := 0, fallback := false,
    fwVersion := Config.flashImage.head.version, sleeping := none, waking := false }

/-- Time at a Tailstock power-up (R26, R57; TIME register map). -/
def TimeSt.init : TimeSt :=
  { wall := 0, mono := 0, spindle := 0, mgmtNs := 0, tRef := none, lastRef := none, lastStep := none, servo := .unknown, fromHoldover := false,
    gm := none, lastAnnounceNs := 0, fit := [], inThreshold := 0, lastGoodNs := 0, lastMeasuredNs := none,
    freqE12 := 0, slewE12 := 0, slewPart := 0, offset := 0,
    steps := 0, nowHi := 0, utcValid := false, utcOffset := 0, ptpEnable := false, ptpDomain := 127, ptpPorts := 0x3F,
    announceTimeout := 3, lockCount := 16, lockThresh := 100, heard := [], delayMs := none,
    delayReqNs := none }

/-- An interface with no address, VLAN 0, priority 0, fec 0 and neither IP version (R51). -/
def Lane.init : Lane :=
  { fec := 0, vlan := 0, pcp := 0, ipv4En := false, ipv6En := false, ipv4 := 0, ipv4Prefix := 0, ipv6 := 0,
    ipv6Prefix := 0, linkUp := false }

/-- A DISABLED port (R51). -/
def IngestPort.init : IngestPort :=
  { mode := 0, lanes := [(0, Lane.init), (1, Lane.init), (2, Lane.init), (3, Lane.init)], opticsIn := false,
    opticsId := [], opticsAlarms := 0 }

/-- Every port DISABLED, no stream (R51, R447). -/
def IngestSt.init : IngestSt :=
  { ports := [(0, IngestPort.init), (1, IngestPort.init), (2, IngestPort.init), (3, IngestPort.init),
      (4, IngestPort.init), (5, IngestPort.init)], streams := [], proxies := [], guards := [], closed := [],
    deliveries := 0 }

/-- No attachment (R447). -/
def DecodeSt.init : DecodeSt := { attached := [], pipelines := [], guards := [], closed := [] }

/-- Every entry FREE (R109). -/
def LedgerSt.init : LedgerSt := { entries := [], seqOwn := 0, seqTwin := 0, wholeSent := false }

/-- Colour set at reset (R44). -/
def resetColours : ColourSet :=
  { stripe := ⟨1023, 0, 1023⟩, plate := ⟨160, 160, 160⟩, labelFg := ⟨1023, 1023, 1023⟩, labelBg := ⟨0, 0, 0⟩,
    conceal := ⟨0, 1023, 1023⟩, blackout := ⟨0, 0, 0⟩, rz := true }

/-- Label record of a window at reset (R46). -/
def resetLabel : Label := { text := [], textLen := 0, showAge := true, rz := true }

/-- Full-head plate label at reset: "NO LIVE OUTPUT" (R46). -/
def resetPlateLabel : Label :=
  { text := [0x4E, 0x4F, 0x20, 0x4C, 0x49, 0x56, 0x45, 0x20, 0x4F, 0x55, 0x54, 0x50, 0x55, 0x54], textLen := 14, showAge := true,
    rz := true }

/-- Head timing record at reset: enable 0 (R166). -/
def resetTiming : HeadTiming :=
  { enable := 0, syncGroup := 0, format := 0, narrowRange := false, hActive := 0, hFront := 0, hSync := 0, hBack := 0,
    vActive := 0, vFront := 0, vSync := 0, vBack := 0, rz := true }

/-- Tailstock head record at reset (R199). -/
def resetTsHead : TsHead := { holdLimitMs := 2000, plateColourSet := 0, rz := true }

/-- Layer record at reset: off. -/
def resetLayer : Layer :=
  { enable := 0, z := 0, content := 0, allowPrescale := false, baseWindow := false, sourceId := 0, surfaceId := 0, frameW := 0,
    frameH := 0, src := ⟨0, 0, 0, 0⟩, dst := ⟨0, 0, 0, 0⟩, window := 0, coeffSet := 0, globalAlpha := 0, rz := true }

/-- Calipers rectangle at reset: mode 0 (R216). -/
def resetCal : CalRect :=
  { mode := 0, attention := false, changeN := 0, rect := ⟨0, 0, 0, 0⟩, expectedCrc := 0, rz := true }

/-- The records of a head at reset (R138, R166, R297). -/
def HeadScene.init : HeadScene :=
  { timing := resetTiming, output := .zero, background := ⟨0, 0, 0⟩, backgroundRz := true, layers := [], regions := [],
    windows := [], labels := [], colours := [], tsHead := resetTsHead, calipers := [] }

/-- A bank at reset: no head enabled, no group, no rule set (R387). -/
def SceneBank.init : SceneBank := { heads := [], groups := [], rules := [] }

/-- Scene generation 0 and a free bank (R299, R313). -/
def SceneSt.init : SceneSt :=
  { inForce := SceneBank.init, other := SceneBank.init, otherUse := .free, gen := 0, pendingGroups := [], twinGen := 0,
    behind := false, restored := false }

/-- No surface (R447). -/
def ComposeSt.init : ComposeSt :=
  { surfaces := [], coeffs := [], layers := [], heads := [], writebacks := [], tokens := [], tests := [], testTicket := none }

/-- Records held once at a Tailstock power-up (R195). -/
def HeadOnce.init : HeadOnce :=
  { timing := resetTiming, output := .zero, tsHead := resetTsHead, plateLabel := resetPlateLabel, calipers := [] }

/-- Material of a head at a Tailstock power-up: every entry invalid, labels and colours at their reset values (R195). -/
def HeadMat.init : HeadMat := { entries := [], labels := [], colours := [] }

/-- A silent stream. -/
def StreamRt.init : StreamRt :=
  { force := HeadMat.init, other := HeadMat.init, bank := 0, kept := false, orders := [], claim := ⟨0, 0, 0⟩, tokenNs := none,
    toldClaim := false, lineNs := none, ahead := [] }

/-- A disabled head at a Tailstock power-up (R195). -/
def HeadRt.init : HeadRt :=
  { once := HeadOnce.init, onceOther := HeadOnce.init, onceSwapped := none, onceKept := false, own := StreamRt.init, twin := StreamRt.init,
    frame := none, startNs := 0, startMono := 0, line := none, hstate := 0, supply := 3, passed := none, passedClaim := 0, lastPassed := none,
    hold := [], lastRx := none, enabledNs := 0, replayed := 0, replayedTotal := 0, switchovers := 0,
    plates := 0, faults := [], emitted := [], windows := [], scorchedPx := 0, lastScorched := none, ages := [], mismatchTold := false, noLabel := [], cal := [],
    calUnreliable := false, glyphs := [], returnDiv := 0, rtpSeq := 0, returned := [],
    startState := 0, startU := none, hpd := false, sink := none, sinkUnread := none, edidCrc := 0,
    trained := none, combos := [], attempts := 0, training := false, linkFail := false, failNs := 0, sinkD3 := false,
    emitting := false, trainings := 0, losses := 0, rephases := 0 }

/-- A sync group just created. -/
def GroupRt.init : GroupRt :=
  { frame := none, startNs := 0, wallNs := 0, latched := none, latchNs := 0, nextStart := 0, firstLatch := none,
    paceNs := none, locked := false, rephaseDue := false, edges := 0,
    lastEdge := none, lastPeriod := 0, timeouts := 0 }

/-- Every bit not live (R195). -/
def BitmapRt.init : BitmapRt := { bits := 0, seq := 0, gap := false, past := [] }

/-- An egress port not configured. -/
def EgressPort.init : EgressPort := { mode := 0, lane := Lane.init }

/-- The Tailstock at its power-up (R195). -/
def TsSt.init : TsSt :=
  { heads := [], groups := [], groupRecs := [], own := BitmapRt.init, twin := BitmapRt.init, glyphs := [],
    egress := [(0, EgressPort.init), (1, EgressPort.init)], ownClaim := none, twinClaim := none, events := [],
    eventsLost := 0, powered := true, limiters := [] }

/-- No session (R245). -/
def RecordSt.init : RecordSt := { sessions := [], guards := [], tests := [], shed := false }

/-- No binding, list or loaded font (R267). -/
def OverlaySt.init : OverlaySt := { lists := [], fonts := [], bindings := [], engines := [], order := 0 }

/-- No transaction (R302, R313). -/
def TxnSt.init : TxnSt := { txns := [], lastId := 0, begun := [], part := none }

/-- A lane DOWN with no count (LINK registers). -/
def LaneRt.init : LaneRt :=
  { state := 1, sinceNs := 0, slots := 0, crcSlots := [], crc := 0, marker := 0, run := 0, stuffing := 0, retx := 0, trainings := 0, told := [] }

/-- A bond with nothing sent or received. -/
def BondRt.init : BondRt := { txSeq := [], sent := [], rxSeq := [], rxOpen := [], acks := [], downNs := none }

/-- The LINK registers and lanes after a reset (LINK registers). -/
def LinkSt.init : LinkSt :=
  { laneEn := 0xFFFFF, rxInvert := 0, retxUs := 8, ackUs := 2, downCrc := 8, cntSel := 0, lanes := [], bonds := [], waiting := [],
    messages := 0, tests := [] }

/-- A ring link down and not measured (R352). -/
def LinkDelay.init : LinkDelay := { up := false, halves := [], requests := 0, outstanding := none, refused := false, requestNs := none }

/-- No position, ALONE, no Headstock role (R275, R358, R447); what management flash holds is a free value (R340). -/
def CascadeSt.init : CascadeSt :=
  { position := 0, posValid := false, storedIdentity := Config.flashIdentity, storedPosition := Config.flashPosition,
    headstock := false, handover := false, candidate := true, ring := .single, headstockPos := 0, modules := [],
    discovering := false, discoveryNs := 0, east := LinkDelay.init, west := LinkDelay.init, epoch := 0, beatSeq := 0, beatNs := none, presenceNs := none, headNs := none,
    lastBeatNs := none, lastBeatSeq := 0, beatOrigin := 0, beatHops := 0, beatWest := false, onBeat := false,
    pathSeq := 0, ringOrder := [], role := .alone, twinUp := false, twin := none, withdrawnByCommand := false, catchingUp := false,
    caughtUp := false, swap := none, swapped := none, lastAutoSwap := none, leanSince := none, twinReadySince := none }

/-- An untrained DRAM channel (DRAMC.STATUS). -/
def Channel.init : Channel :=
  { trained := false, hotA := false, hotB := false, retraining := false, readMarginPs := 0, writeMarginPs := 0,
    driftPs := 0, driftTold := false }

/-- DRAM after a reset: contents undefined, the DRAMC registers at their reset values. -/
def MemSt.init : MemSt :=
  { cells := [], epoch := 0, poison := [], injected := [], mapFixed := false, hashEn := true, grainLog2 := 12,
    thresh := 2048, missProbLog2 := 10, scrubH := 8, devFailThresh := 64, erasureEn := true, mapRefused := false,
    ceTotal := 0, ueTotal := 0, lastUe := 0, mitigations := 0, scrubPasses := 0, scrubPos := 0,
    channels := [(0, Channel.init), (1, Channel.init), (2, Channel.init), (3, Channel.init), (4, Channel.init),
      (5, Channel.init), (6, Channel.init), (7, Channel.init)],
    failed := [], ceTimes := [], ceDevice := [], ueDevice := [], ueSecond := 0, ueRaised := 0, ueUnraised := 0,
    tables := [], retrain := none, waiting := [] }

/-- No context and no driver rule set (R387). -/
def GateSt.init : GateSt :=
  { contexts := [], rules := [], faults := [], faultCount := 0, lastFaultSeq := 0, ruleGen := 0, debugEn := false,
    draining := [], fences := [] }

/-- Empty mailboxes, free locks (R395, R398). -/
def MbxSt.init : MbxSt := { slots := [], hostMask := 0, sendStatus := [], locks := [], notServing := [] }

/-- The state of the block. -/
structure State where
  /-- The module state, identity, straps and boot. -/
  (module : ModuleSt)
  /-- The host interface. -/
  (host : HostSt)
  /-- Commands in flight, retained completions, events. -/
  (queue : QueueSt)
  /-- The management pair, sensors, governor, ladder, log. -/
  (mgmt : MgmtSt)
  /-- Mains, keep-alive bus, system connector inputs. -/
  (power : PowerSt)
  /-- Firmware update. -/
  (update : UpdateSt)
  /-- Wall time and the PTP servo. -/
  (time : TimeSt)
  /-- Ports, streams, proxies. -/
  (ingest : IngestSt)
  /-- Decode attachments and pipelines. -/
  (decode : DecodeSt)
  /-- The provenance ledger. -/
  (ledger : LedgerSt)
  /-- Scene banks. -/
  (scene : SceneSt)
  /-- Surfaces, scaler sets, layers shown, writeback. -/
  (compose : ComposeSt)
  /-- The Tailstock output section. -/
  (ts : TsSt)
  /-- Recording sessions and encode pipelines. -/
  (record : RecordSt)
  /-- Display lists, fonts, bindings, engines. -/
  (overlay : OverlaySt)
  /-- Scene transactions. -/
  (txn : TxnSt)
  /-- Luasin lanes, bonds and the messages that wait. -/
  (link : LinkSt)
  /-- The ring, the Headstock role, the beat, the twin pair. -/
  (cascade : CascadeSt)
  /-- Module DRAM and its controller. -/
  (mem : MemSt)
  /-- Gates: contexts, rule sets, fault records. -/
  (gates : GateSt)
  /-- Mailboxes and locks. -/
  (mbx : MbxSt)
  /-- What the module has emitted at its interfaces, latest first. -/
  (outbox : List Out)
  /-- How many free values have been drawn: the model's own field. -/
  (free : Nat)
  /-- The commands that wait, first in, first out: the model's own field. -/
  (pending : List Instr)
deriving DecidableEq, Repr

/-- The block right after the reset of a power-up: the main section enters STARTING (R23, R441, R444). -/
def State.reset : State :=
  { module := ModuleSt.init, host := HostSt.init, queue := QueueSt.init, mgmt := MgmtSt.init, power := PowerSt.init, update := UpdateSt.init, time := TimeSt.init, ingest := IngestSt.init, decode := DecodeSt.init, ledger := LedgerSt.init, scene := SceneSt.init, compose := ComposeSt.init, ts := TsSt.init, record := RecordSt.init, overlay := OverlaySt.init, txn := TxnSt.init, link := LinkSt.init, cascade := CascadeSt.init, mem := MemSt.init, gates := GateSt.init, mbx := MbxSt.init,
    outbox := [], free := 0, pending := [] }

end Sys2Proof.Machine
end

