-- ==== Sys2Proof/Machine/Ops.lean ====
section
/-! DEFINITION. The named operations every meaning is built from: maps by number, packed fields, module DRAM, the time
uncertainty, what the module emits, events and their log records, completions. -/

namespace Sys2Proof.Machine

open Sys2Proof

/-! ## Changing one part of the state -/

/-- `s` with its module part changed by `f`. -/
def State.modModule (s : State) (f : ModuleSt → ModuleSt) : State := { s with module := f s.module }
/-- `s` with its host part changed by `f`. -/
def State.modHost (s : State) (f : HostSt → HostSt) : State := { s with host := f s.host }
/-- `s` with its queue part changed by `f`. -/
def State.modQueue (s : State) (f : QueueSt → QueueSt) : State := { s with queue := f s.queue }
/-- `s` with its mgmt part changed by `f`. -/
def State.modMgmt (s : State) (f : MgmtSt → MgmtSt) : State := { s with mgmt := f s.mgmt }
/-- `s` with its power part changed by `f`. -/
def State.modPower (s : State) (f : PowerSt → PowerSt) : State := { s with power := f s.power }
/-- `s` with its update part changed by `f`. -/
def State.modUpdate (s : State) (f : UpdateSt → UpdateSt) : State := { s with update := f s.update }
/-- `s` with its time part changed by `f`. -/
def State.modTime (s : State) (f : TimeSt → TimeSt) : State := { s with time := f s.time }
/-- `s` with its ingest part changed by `f`. -/
def State.modIngest (s : State) (f : IngestSt → IngestSt) : State := { s with ingest := f s.ingest }
/-- `s` with its decode part changed by `f`. -/
def State.modDecode (s : State) (f : DecodeSt → DecodeSt) : State := { s with decode := f s.decode }
/-- `s` with its ledger part changed by `f`. -/
def State.modLedger (s : State) (f : LedgerSt → LedgerSt) : State := { s with ledger := f s.ledger }
/-- `s` with its scene part changed by `f`. -/
def State.modScene (s : State) (f : SceneSt → SceneSt) : State := { s with scene := f s.scene }
/-- `s` with its compose part changed by `f`. -/
def State.modCompose (s : State) (f : ComposeSt → ComposeSt) : State := { s with compose := f s.compose }
/-- `s` with its ts part changed by `f`. -/
def State.modTs (s : State) (f : TsSt → TsSt) : State := { s with ts := f s.ts }
/-- `s` with its record part changed by `f`. -/
def State.modRecord (s : State) (f : RecordSt → RecordSt) : State := { s with record := f s.record }
/-- `s` with its overlay part changed by `f`. -/
def State.modOverlay (s : State) (f : OverlaySt → OverlaySt) : State := { s with overlay := f s.overlay }
/-- `s` with its txn part changed by `f`. -/
def State.modTxn (s : State) (f : TxnSt → TxnSt) : State := { s with txn := f s.txn }
/-- `s` with its link part changed by `f`. -/
def State.modLink (s : State) (f : LinkSt → LinkSt) : State := { s with link := f s.link }
/-- `s` with its cascade part changed by `f`. -/
def State.modCascade (s : State) (f : CascadeSt → CascadeSt) : State := { s with cascade := f s.cascade }
/-- `s` with its mem part changed by `f`. -/
def State.modMem (s : State) (f : MemSt → MemSt) : State := { s with mem := f s.mem }
/-- `s` with its gates part changed by `f`. -/
def State.modGates (s : State) (f : GateSt → GateSt) : State := { s with gates := f s.gates }
/-- `s` with its mbx part changed by `f`. -/
def State.modMbx (s : State) (f : MbxSt → MbxSt) : State := { s with mbx := f s.mbx }

/-- Format of a head in the scene in force (R167). -/
def headFormat (s : State) (key : Nat) : Nat :=
  match s.scene.inForce.heads.find? fun p => p.1 = key with
  | some (_, h) => h.timing.format
  | none => 0

/-- What an output adds to the messages that wait for a bond's lanes (R326): the bond of the neighbour it is for, class, content. -/
def queued (o : Out) (s : State) : Option (Bond × TClass × MsgBody) :=
  match o with
  | .token .own t => some (.toTailstock, .line, .token (headFormat s t.head) t)
  | .token .twin t => some (.twin, .line, .token (headFormat s (32 + t.head)) t)
  | .verdict b q l => some (b, .verdict, .update q l)
  | .wholeBitmap b q m => some (b, .verdict, .bitmap q m)
  | .beat east m => some (if east then .east else .west, .beat, .beat m)
  | .message b c _ _ => some (b, c, .unlisted s.link.messages)
  | .forward b .. => some (b, .control, .unlisted s.link.messages)
  | .record b _ _ => some (b, .control, .unlisted s.link.messages)
  | _ => none

/-- A message that waits: the main section's twin traffic goes over the internal bond, from which the Tailstock relays it (R10, R320). -/
def qMsg (b : Bond) (c : TClass) (m : MsgBody) : QMsg :=
  { bond := if b = .twin then .toTailstock else b, cls := c, body := m, sent := 0, started := false, relay := b = .twin, arrived := none }

/-- `s` having emitted `o`; a message waits for the lanes of its bond (R326). -/
def emit (o : Out) (s : State) : State :=
  let q := fun (b, c, m) => qMsg b c m
  let add (l : LinkSt) : LinkSt :=
    { l with waiting := l.waiting ++ ((queued o s).map q).toList, messages := l.messages + 1 }
  { s with outbox := o :: s.outbox, link := if (queued o s).isSome then add s.link else s.link }

/-- A free value: any number, and the state with the next one to draw. -/
def draw (s : State) : Nat × State := (Config.freeNat s.free, { s with free := s.free + 1 })

/-! ## Maps by number -/

/-- The value under key `k`. -/
def mapGet {α : Type} : Map α → Nat → Option α
  | [], _ => none
  | (k, v) :: t, n => if k = n then some v else mapGet t n

/-- The map with `v` under key `n`. -/
def mapPut {α : Type} : Map α → Nat → α → Map α
  | [], n, v => [(n, v)]
  | (k, w) :: t, n, v =>
    if n < k then (n, v) :: (k, w) :: t else if n = k then (n, v) :: t else (k, w) :: mapPut t n v

/-- The map without key `n`. -/
def mapDel {α : Type} (m : Map α) (n : Nat) : Map α := m.filter fun p => p.1 != n

/-- Whether key `n` has a value. -/
def mapHas {α : Type} (m : Map α) (n : Nat) : Bool := (mapGet m n).isSome

/-- The map with the value under `n`, if any, changed by `f`. -/
def mapUpd {α : Type} (m : Map α) (n : Nat) (f : α → α) : Map α :=
  match mapGet m n with
  | some v => mapPut m n (f v)
  | none => m

/-- The value under `n`, or `d`. -/
def mapGetD {α : Type} (m : Map α) (n : Nat) (d : α) : α := (mapGet m n).getD d

/-- The values of a map. -/
def mapVals {α : Type} (m : Map α) : List α := m.map Prod.snd

/-- Keys rise strictly. -/
def mapSorted {α : Type} : Map α → Bool
  | [] => true
  | [_] => true
  | (a, _) :: (b, w) :: t => decide (a < b) && mapSorted ((b, w) :: t)

/-! ## Sorting -/

/-- An element put into a sorted list, before those it does not come after. -/
def insertBy {α : Type} (le : α → α → Bool) (a : α) : List α → List α
  | [] => [a]
  | b :: t => if le a b then a :: b :: t else b :: insertBy le a t

/-- A list sorted; elements of equal rank keep their order. -/
def sortBy {α : Type} (le : α → α → Bool) (l : List α) : List α := l.foldr (insertBy le) []

/-! ## Numbers and packed fields -/

/-- Ceiling of a quotient. -/
def ceilDiv (a b : Nat) : Nat := (a + b - 1) / b

/-- The next multiple of `b` at or above `a`. -/
def alignUp (a b : Nat) : Nat := ceilDiv a b * b

/-- Bit `i` of `n` (R2). -/
def bit (n i : Nat) : Bool := n.testBit i

/-- A flag as a number. -/
def flag (b : Bool) : Nat := if b then 1 else 0

/-- The sum of a list. -/
def sumN (l : List Nat) : Nat := l.foldl (· + ·) 0

/-- The `n` low-order bytes of a number, least significant first (R2); negative numbers in two's complement. -/
def leBytes : Nat → Int → List Byte
  | 0, _ => []
  | n + 1, v => BitVec.ofInt 8 v :: leBytes n (v / 256)

/-- Packed fields as bytes, without gaps (R2, R287). -/
def itemBytes (l : Items) : List Byte := l.flatMap fun p => leBytes p.1 p.2

/-- Bytes that packed fields take. -/
def itemSize (l : Items) : Nat := sumN (l.map Prod.fst)

/-- A field of `n` bytes. -/
def it (n : Nat) (v : Nat) : Nat × Int := (n, v)

/-- A free-running 32-bit index (R278). -/
def idx32 (n : Nat) : Nat := n % 4294967296

/-- `a − b` modulo 2³² (R278). -/
def sub32 (a b : Nat) : Nat := (a % 4294967296 + 4294967296 - b % 4294967296) % 4294967296

/-- Signed difference of two values modulo 2^n: `a` is later than `b` when it is positive (R3). -/
def modDiff (n a b : Nat) : Int :=
  let m := 2 ^ n
  let d := (a % m + m - b % m) % m
  if d < m / 2 then (d : Int) else (d : Int) - m

/-- One byte of CRC-32C, reflected polynomial 0x82F63B78 (R217). -/
def crcStep (c : BitVec 32) : BitVec 32 := if c.getLsbD 0 then (c >>> 1) ^^^ 0x82F63B78#32 else c >>> 1

/-- CRC-32C over bytes: initial value and final exclusive-or all ones (R217). -/
def crc32c (l : List Byte) : BitVec 32 :=
  (l.foldl (fun c b =>
    crcStep (crcStep (crcStep (crcStep (crcStep (crcStep (crcStep (crcStep (c ^^^ b.setWidth 32))))))))) 0xFFFFFFFF#32)
    ^^^ 0xFFFFFFFF#32

/-! ## Module DRAM (R363) -/

/-- The canonical form: addresses strictly rising. An unlisted address holds no value that the model names, so no entry
can equal it. -/
def Memory.wf (m : List Host.Cell) : Bool := mapSorted m

/-- The byte at an address: the last one written since the contents became undefined, else a free value (R372). -/
def memRead (s : State) (a : Nat) : Byte :=
  match mapGet s.mem.cells a with
  | some b => b
  | none => Config.dramByte s.mem.epoch a

/-- Bytes from address `a` up. -/
def memReadN (s : State) (a n : Nat) : List Byte := (List.range n).map fun i => memRead s (a + i)

/-- Cells with bytes written from address `a` up, in rising order. -/
def cellsWrite (m : List Host.Cell) (a : Nat) : List Byte → List Host.Cell
  | [] => m
  | b :: t => cellsWrite (mapPut m a b) (a + 1) t

/-- A 64-byte burst that a write of `n` bytes from `a` covers whole (R366). -/
def coversBurst (a n b : Nat) : Bool := a ≤ 64 * b && 64 * b + 64 ≤ a + n

/-- Bytes written to module DRAM from address `a` up (R372); a poisoned burst stays so until it is written whole (R365). -/
def memWrite (a : Nat) (l : List Byte) (s : State) : State :=
  s.modMem fun m =>
    { m with cells := cellsWrite m.cells a l, poison := m.poison.filter fun b => !coversBurst a l.length b }

/-- A range holds a poisoned burst (R365). -/
def memPoisoned (s : State) (a n : Nat) : Bool := s.mem.poison.any fun b => a < 64 * b + 64 && 64 * b < a + n

/-- A range of module DRAM whose contents are undefined from now on (R133). -/
def memForget (a n : Nat) (s : State) : State :=
  s.modMem fun m => { m with cells := m.cells.filter fun c => !(a ≤ c.1 && c.1 < a + n) }

/-- Module DRAM whose contents are undefined from now on (R371, R447). -/
def memUndefine (s : State) : State :=
  s.modMem fun m => { m with cells := [], epoch := m.epoch + 1, poison := [], injected := [] }

/-! ## Time and its uncertainty (R24 to R27) -/

/-- t_ref as it stood at elapsed time `t`, now or since it last changed. -/
def tRefAt (s : State) (t : Nat) : Option Nat :=
  match s.time.lastRef with
  | some (at_, old) => if t < at_ then old else s.time.tRef
  | none => s.time.tRef

/-- u at elapsed time `t`, in 10⁻⁶ ns: none before the first lock confirmation, and beyond 60 s (R25, R26). -/
def uE6At (s : State) (t : Nat) : Option Nat :=
  match tRefAt s t with
  | none => none
  | some r =>
    let u := Config.uRefNs * 1000000 + (t - r)
    if u ≤ Config.uMaxNs * 1000000 then some u else none

/-- What the wall-time counter read at elapsed time `t`, as far as its last step (R27). -/
def wallAt (s : State) (t : Nat) : Int :=
  let w : Int := (s.time.wall : Int) - ((s.time.mono : Int) - t)
  match s.time.lastStep with
  | some (at_, delta) => if t < at_ then w + delta else w
  | none => w

/-- Lock confirmed: t_ref is now (R25). -/
def confirmLock (s : State) : State :=
  s.modTime fun t => { t with tRef := some t.mono, lastRef := some (t.mono, t.tRef) }

/-- A value of the 64-bit wall-time counter (R3). -/
def wall64 (w : Int) : Nat := (w % 18446744073709551616).toNat

/-- u now, in 10⁻⁶ ns. -/
def uE6 (s : State) : Option Nat := uE6At s s.time.mono

/-- u rounded up to whole ns. -/
def uNs (s : State) : Option Nat := (uE6 s).map fun u => ceilDiv u 1000000

/-- u is bounded (R26). -/
def uBounded (s : State) : Bool := (uE6 s).isSome

/-- u as an event carries it: all ones while unbounded. -/
def uItem (s : State) : Nat := (uNs s).getD 0xFFFFFFFFFFFFFFFF

/-- The conservative origin time of R28, of 40 bits. -/
def originUs (o : Origin) : Nat := ((o.ns - o.uNs) / 1000 % 1099511627776).toNat

/-! ## Module state and identity -/

/-- The value of a module state (R275). -/
def ModState.value : ModState → Nat
  | .off => 0 | .starting => 1 | .setup => 2 | .run => 3 | .lean => 4 | .maintenance => 5 | .idleLink => 6 | .fault => 7

/-- The value of a twin role (R275). -/
def Role.value : Role → Nat
  | .alone => 0 | .active => 1 | .standby => 2 | .withdrawn => 3

/-- SETUP, RUN, LEAN or MAINTENANCE: the states of R355 and R434 in which the module is in service. -/
def inService (s : State) : Bool :=
  match s.module.mode with
  | .setup | .run | .lean | .maintenance => true
  | _ => false

/-- The main section is powered and out of reset: it takes events and runs its blocks. -/
def mainUp (s : State) : Bool :=
  match s.module.mode with
  | .off | .starting | .idleLink => false
  | _ => true

/-- The ring position the module puts into records. -/
def position (s : State) : Nat := if s.cascade.posValid then s.cascade.position else 0

/-- Value of a scope kind (R288). -/
def ScopeKind.value : ScopeKind → Nat
  | .module => 0 | .source => 1 | .head => 2 | .transaction => 3 | .port => 4 | .engine => 5

/-- The key of a scope. -/
def scopeKey (k : ScopeKind) (id : Nat) : Nat := k.value * 65536 + id

/-! ## Rings (R277, R278, R284, R286) -/

/-- Number of event rings of the session's table. -/
def evtCount (s : State) : Nat := match s.host.table with
  | some t => t.evt.length
  | none => 0

/-- Entry of a completion ring. -/
def cplEntry (s : State) (r : Nat) : Option CplRingEntry := s.host.table.bind fun t => t.cpl[r]?

/-- Entry of a command ring. -/
def cmdEntry (s : State) (r : Nat) : Option CmdRingEntry := s.host.table.bind fun t => t.cmd[r]?

/-- Subject and attention masks of an event ring as EVENT_ROUTE left them (R286, R292). -/
def evtMasks (s : State) (r : Nat) : Nat × Nat :=
  match mapGet s.queue.evtMasks r with
  | some m => m
  | none =>
    match s.host.table.bind fun t => t.evt[r]? with
    | some e => (e.subjectMask, e.attnMask)
    | none => (0, 0)

/-- The lowest-numbered event ring that selects the subject of an event code (R286). -/
def evtRing (s : State) (code : Nat) : Option Nat :=
  (List.range (evtCount s)).find? fun r => bit (evtMasks s r).1 (code / 256)

/-- Records an event takes: one, and a continuation for each 28 bytes of payload beyond 12 (R287). -/
def evtRecords (items : Items) : Nat := 1 + ceilDiv (itemSize items - 12) 28

/-- The phase bit of the record at an index (R284). -/
def phase (index sizeLog2 : Nat) : Bool := index / 2 ^ sizeLog2 % 2 = 0

/-- Event ring `r` has room for `n` records and takes them (R278, R286). -/
def evtRoom (s : State) (r n : Nat) : Bool :=
  s.host.attached && !s.host.stoppedEvt.contains r &&
  match s.host.table.bind fun t => t.evt[r]? with
  | some e => sub32 (mapGetD s.host.evtProd r 0) (mapGetD s.host.evtCons r 0) + n ≤ 2 ^ e.sizeLog2
  | none => false

/-- Size of event ring `r`. -/
def evtSize (s : State) (r : Nat) : Nat :=
  match s.host.table.bind fun t => t.evt[r]? with
  | some e => e.sizeLog2
  | none => 0

/-- Exactly `n` bytes of a list, zeros after its end. -/
def fillBytes (n : Nat) (l : List Byte) : List Byte := (l ++ List.replicate n 0).take n

/-- The continuation records of an event, from number `k` at index `i` on (R287). -/
def continuation (size : Nat) : Nat → Nat → Nat → List Byte → List Byte
  | 0, _, _, _ => []
  | n + 1, k, i, l =>
    itemBytes [it 2 0xFFFF, it 1 k, it 1 (flag (phase i size) * 128)] ++ fillBytes 28 l ++ continuation size n (k + 1) (i + 1) (l.drop 28)

/-- The bytes of an event's records from an index of its ring on (R2, R287). -/
def eventBytes (size i : Nat) (attention : Bool) (e : EventRec) : List Byte :=
  let n := evtRecords e.items - 1
  let l := itemBytes e.items
  itemBytes
    [it 2 e.code, it 1 (e.scope.value), it 1 (flag attention + n * 2 + flag (phase i size) * 128), it 2 e.scopeId, it 1 e.position, it 1 0,
     it 4 e.seq, it 8 e.wallNs]
    ++ fillBytes 12 l ++ continuation size n 1 (i + 1) (l.drop 12)

/-- An event written to its ring (R286, R287). -/
def putEvent (r : Nat) (e : EventRec) (s : State) : State :=
  let i := mapGetD s.host.evtProd r 0
  let at_ := e.attention || bit (evtMasks s r).2 (e.code / 256)
  let s := emit (.event r i (phase i (evtSize s r)) at_ e (eventBytes (evtSize s r) i at_ e)) s
  let s := s.modHost fun h => { h with evtProd := mapPut h.evtProd r (idx32 (i + evtRecords e.items)) }
  s.modQueue fun q => { q with pageDirty := true, attnWritten := q.attnWritten || at_ }

/-- An event that finds no ring or no room in the queue is discarded and counted (R286). -/
def loseEvent (s : State) : State :=
  s.modQueue fun q => { q with lostUntold := q.lostUntold + 1, eventsLost := q.eventsLost + 1 }

/-- An event goes to its ring, or waits in the queue while its ring is full, the host detached or the management pair restarting
(R286, R403). -/
def deliver (e : EventRec) (s : State) : State :=
  if s.host.attached && !s.mgmt.restarting then
    match evtRing s e.code with
    | none => s.modQueue fun q => { q with eventsLost := q.eventsLost + 1 }
    | some r =>
      if s.queue.events.isEmpty && s.queue.lostUntold = 0 && evtRoom s r (evtRecords e.items) then putEvent r e s
      else if s.queue.events.length < Config.maxQueued then s.modQueue fun q => { q with events := q.events ++ [e] }
      else loseEvent s
  else if s.queue.events.length < Config.maxQueued then s.modQueue fun q => { q with events := q.events ++ [e] }
  else loseEvent s

/-! ## The Shavings log (R416 to R418) -/

/-- A record of the given kind, of those kept, latest first; the oldest of its own kind is overwritten (R418). -/
def keepLog (r : LogRec) (m : MgmtSt) : MgmtSt :=
  if r.pinned then { m with logPinned := (r :: m.logPinned).take Config.logPinned }
  else { m with logUnpinned := (r :: m.logUnpinned).take Config.logUnpinned }

/-- A Shavings log record written now, or counted when the second has had its hundred (R416, R418). -/
def logPut (code severity : Nat) (scope : ScopeKind) (scopeId : Nat) (data : Items) (fromTs : Bool) (s : State) : State :=
  let sec := s.time.wall / 1000000000
  let used := if s.mgmt.logSecond = sec then s.mgmt.logInSecond else 0
  if used < Config.logPerSecond then
    let seq := idx32 (s.mgmt.logSeq + 1)
    let r : LogRec :=
      { seq := seq, bootCount := s.mgmt.bootCount,
        wallNs := if uBounded s then s.time.wall else s.time.mgmtNs, code := code, severity := severity,
        timeUnknown := !uBounded s, pinned := 3 ≤ severity, fromTailstock := fromTs,
        moduleState := s.module.mode.value, scope := scope, scopeId := scopeId, data := data }
    s.modMgmt fun m => keepLog r { m with logSeq := seq, logSecond := sec, logInSecond := used + 1 }
  else s.modMgmt fun m => { m with logSuppressed := m.logSuppressed + 1 }

/-- A second that is over and in which records were counted, not written, ends with LOG_SUPPRESSED and the count (R418). -/
def logFlush (s : State) : State :=
  let n := s.mgmt.logSuppressed
  if n != 0 && s.mgmt.logSecond != s.time.wall / 1000000000 then
    logPut 0x0B86 2 .module (position s) [it 4 n] false (s.modMgmt fun m => { m with logSuppressed := 0 })
  else s

/-- A record added to the Shavings log, after the end of the second before it (R418). -/
def logAdd (code severity : Nat) (scope : ScopeKind) (scopeId : Nat) (data : Items) (fromTs : Bool) (s : State) : State :=
  logPut code severity scope scopeId data fromTs (logFlush s)

/-- The severity at which the log records an event; none for an event it does not record, or whose happenings it records one by one (R417). -/
def logSeverity (code : Nat) : Option Nat :=
  if code = 0x0B85 then some 4
  else if code = 0x0280 then some 4
  else if code = 0x0B84 then some 3
  else if code = 0x0E82 then some 3
  else if code = 0x0E81 then some 3
  else if code = 0x0B82 then some 2
  else if code = 0x0B80 then some 1
  else if code = 0x0B81 then some 1
  else if code = 0x0D83 then some 1
  else if code = 0x0D86 then some 1
  else if code = 0x0C80 then some 1
  else if code = 0x0B87 then some 2
  else none

/-- The log's copy of an event, where it keeps one. -/
def logEvent (code : Nat) (scope : ScopeKind) (id : Nat) (items : Items) (s : State) : State :=
  match logSeverity code with
  | some sev => logAdd code sev scope id items false s
  | none => s

/-- An internal fault of a unit is recorded with a code of class 0x0F (R416, R417), and counted for R413. -/
def logInternal (unit detail : Nat) (s : State) : State :=
  let s := s.modMgmt fun m => { m with internals := (unit, s.time.mono) :: m.internals }
  logAdd 0x0F00 3 .module (position s) [it 4 unit, it 4 detail] false s

/-! ## Events (R286 to R288) -/

/-- The next sequence number of a scope (R288, R131). -/
def nextSeq (k : ScopeKind) (id : Nat) (s : State) : Nat := idx32 (mapGetD s.queue.seqs (scopeKey k id) 0 + 1)

/-- An event arises: it takes the next sequence number of its scope, is recorded where R417 says, and is delivered. -/
def raise (code : Nat) (k : ScopeKind) (id : Nat) (items : Items) (s : State) (attention : Bool := false) : State :=
  let e : EventRec :=
    { code := code, scope := k, scopeId := id, position := position s, seq := nextSeq k id s, wallNs := s.time.wall,
      items := items, attention := attention }
  let s := s.modQueue fun q => { q with seqs := mapPut q.seqs (scopeKey k id) e.seq }
  deliver e (logEvent code k id items s)

/-- An event of module scope, whose scope id is the ring position (R288). -/
def raiseMod (code : Nat) (items : Items) (s : State) : State := raise code .module (position s) items s

/-- An event raised at most once in `period` ns for a key: it carries the count since the last one. -/
def raiseLimited (period key n code : Nat) (k : ScopeKind) (id : Nat) (mk : Nat → Items) (s : State) : State :=
  match mapGet s.queue.limiters key with
  | none =>
    raise code k id (mk n) (s.modQueue fun q => { q with limiters := mapPut q.limiters key (s.time.mono, 0) })
  | some (t, c) =>
    if s.time.mono < t + period then
      s.modQueue fun q => { q with limiters := mapPut q.limiters key (t, c + n) }
    else raise code k id (mk (c + n)) (s.modQueue fun q => { q with limiters := mapPut q.limiters key (s.time.mono, 0) })

/-- Once a second. -/
def second : Nat := 1000000000

/-- The key of a limited event. -/
def limKey (code a b : Nat) : Nat := (code * 65536 + a) * 256 + b

/-! ## Completions (R283, R284, R294) -/

/-- The attention bit of a completion record (R282, R284). -/
def completionAttn (c : Completion) : Bool := c.ticket.attn || (c.ticket.attnErr && c.status != 0)

/-- The 32 bytes of a completion record (R2, R284). -/
def completionBytes (ph : Bool) (c : Completion) : List Byte :=
  itemBytes
    [it 8 c.ticket.tag, it 2 c.status, it 2 c.ticket.kind, it 1 c.ticket.ring, it 1 (flag (completionAttn c) + flag c.forwarded * 2 + flag ph * 128),
     it 1 c.position, it 1 0, it 4 c.ticket.index]
    ++ fillBytes 12 (itemBytes c.result)

/-- A completion record written to its ring, with its attention bit and phase (R284). -/
def putCompletion (ring : Nat) (c : Completion) (s : State) : State :=
  let i := mapGetD s.host.cplProd ring 0
  let size := match cplEntry s ring with
    | some e => e.sizeLog2
    | none => 0
  let at_ := completionAttn c
  let s := emit (.completion ring i (phase i size) c (completionBytes (phase i size) c)) s
  let s := s.modHost fun h => { h with cplProd := mapPut h.cplProd ring (idx32 (i + 1)) }
  s.modQueue fun q => { q with pageDirty := true, attnWritten := q.attnWritten || at_ }

/-- The completion ring of a command ring, while it is written (R277, R278). -/
def cplRingOf (s : State) (ring : Nat) : Option Nat :=
  match cmdEntry s ring with
  | some e => if s.host.stoppedCpl.contains e.cplRing then none else some e.cplRing
  | none => none

/-- A completion record is published, or kept while the host is detached: at most 1,024, the rest discarded and counted,
after which no RESUME is possible (R294, R295). -/
def publish (c : Completion) (s : State) : State :=
  if s.host.attached then
    match cplRingOf s c.ticket.ring with
    | some r => putCompletion r c s
    | none => s
  else if s.queue.retained.length < Config.maxRetained then s.modQueue fun q => { q with retained := q.retained ++ [c] }
  else (s.modQueue fun q => { q with cplDiscarded := q.cplDiscarded + 1 }).modHost fun h => { h with resumable := false }

/-- Two tickets of one command: same ring and index, or same origin. -/
def sameTicket (a b : Ticket) : Bool := a.ring = b.ring && a.index = b.index && a.origin = b.origin

/-- The host is detached for a cause; everything taken goes on (R294). -/
def detachHost (cause : Nat) (s : State) : State :=
  if s.host.attached then
    s.modHost fun h => { h with attached := false, resumable := true, detachCause := cause, detachWallNs := s.time.wall }
  else s

/-- A HOST_DETACH that waits completes, and the host is detached, once no earlier command is in flight (R292). -/
def settleDetach (s : State) : State :=
  match s.queue.detaching, s.queue.inFlight with
  | some tk, f :: rest =>
    if sameTicket tk f then
      let s := s.modQueue fun q => { q with inFlight := rest, detaching := none }
      detachHost 6 (if tk.quiet then s else publish { ticket := tk, status := 0, position := position s, forwarded := false, result := [] } s)
    else s
  | _, _ => s

/-- The command leaves flight. -/
def leaveFlight (tk : Ticket) (s : State) : State :=
  s.modQueue fun q => { q with inFlight := q.inFlight.filter fun f => !sameTicket f tk }

/-! ## Routing on the ring (R342) -/

/-- Hops eastwards round the ring from this module to a position, and the number of modules, as the last discovery told them. -/
def hopsEast (s : State) (p : Nat) : Option (Nat × Nat) :=
  let ring := s.cascade.ringOrder
  let at_ (serial : Nat) : Option Nat := (ring.findIdx? fun n => n = serial).map fun i => i + 1
  let here := if s.cascade.headstock then some 0 else at_ Config.serial
  let there := if p = s.cascade.headstockPos then some 0 else (mapGet s.cascade.modules p).bind fun m => at_ m.serial
  match here, there with
  | some i, some j => some ((j + (ring.length + 1) - i) % (ring.length + 1), ring.length + 1)
  | _, _ => none

/-- The ring bond on which a message to a position leaves: over the port whose link is up, towards fewer hops, and EAST on a tie (R342). -/
def ringTo (s : State) (p : Nat) : Bond :=
  if !s.cascade.east.up && s.cascade.west.up then .west
  else if !s.cascade.west.up then .east
  else
    match hopsEast s p with
    | some (h, n) => if n < 2 * h then .west else .east
    | none => .east

/-- The ring bond towards the Headstock: that on which its beats arrive where they cross more links than the shorter way has, since that way is
cut, else the one with fewer hops (R342, R352). -/
def headstockBond (s : State) : Bond :=
  let c := s.cascade
  match hopsEast s c.headstockPos with
  | some (h, n) =>
    if c.onBeat && min h (n - h) < c.beatHops then (if c.beatWest then .east else .west) else ringTo s c.headstockPos
  | none => if c.onBeat then (if c.beatWest then .east else .west) else ringTo s c.headstockPos

/-! ## Completion of a forwarded command -/

/-- The result of a completion: with HOST_DMA_ERROR the failing host bus address (R284). -/
def resultOf (tk : Ticket) (status : Nat) (result : Items) : Items := if status = 0x0500 then [it 8 (Config.failedHostAddr tk.buf)] else result

/-- A command ends with a status and a result: its record is published, unless quiet and SUCCESS; a command executed for
another module returns its result over the ring (R284, R343). -/
def completeAs (tk : Ticket) (status pos : Nat) (forwarded : Bool) (result : Items) (s : State) : State :=
  let s := leaveFlight tk s
  let result := resultOf tk status result
  match tk.origin with
  | some (org, tag) =>
    emit (.message (headstockBond s) .control "FORWARD_RESULT" ([(org : Int), tag, status, pos] ++ result.map Prod.snd)) s
  | none =>
    settleDetach
      (if tk.quiet && status = 0 then s
       else publish { ticket := tk, status := status, position := pos, forwarded := forwarded, result := result } s)

/-- A command executed by this module ends. -/
def complete (tk : Ticket) (status : Nat) (result : Items) (s : State) : State :=
  completeAs tk status (position s) false result s

/-- Bytes written to the host buffer of a command, `off` bytes into it (R285); those of a command executed for another module go
over the ring to the Headstock, which writes them (R343). -/
def hostOut (tk : Ticket) (off : Nat) (l : List Byte) (s : State) : State :=
  match tk.origin with
  | none => emit (.hostBytes (tk.buf + off) l) s
  | some (org, tag) =>
    emit (.message (headstockBond s) .bulk "FORWARD_DATA" ([(org : Int), (tag : Int), (off : Int)] ++ l.map fun b => ((b.toNat : Nat) : Int))) s

/-- Fields written to the host buffer of a command, which then ends with SUCCESS; or HOST_DMA_ERROR (R285). -/
def completeWrite (tk : Ticket) (data result : Items) (s : State) : State :=
  if tk.dmaOk then complete tk 0 result (hostOut tk 0 (itemBytes data) s) else complete tk 0x0500 [] s

/-- Fields as a record of exactly `n` bytes: zeros after the last field, nothing beyond the record. -/
def recordBytes (n : Nat) (data : Items) : List Byte := (itemBytes data ++ List.replicate n 0).take n

/-- A record of `n` bytes written to the host buffer of a command, which then ends with SUCCESS; or HOST_DMA_ERROR. -/
def completeRecord (tk : Ticket) (n : Nat) (data result : Items) (s : State) : State :=
  if tk.dmaOk then complete tk 0 result (hostOut tk 0 (recordBytes n data) s) else complete tk 0x0500 [] s

/-! ## Changes of module state (R22, R23) -/

/-- The module enters a state, with its event (R22, R421). -/
def setMode (m : ModState) (s : State) : State :=
  if s.module.mode = m then s
  else
    let old := s.module.mode.value
    let s := s.modModule fun x => { x with mode := m }
    let s := s.modCascade fun c => { c with leanSince := if m = .lean then some s.time.mono else none }
    raiseMod 0x0B80 [it 1 old, it 1 m.value, it 1 s.mgmt.faultCause] s

end Sys2Proof.Machine
end

