-- ==== Sys2Proof/Machine/Flags.lean ====
section
/-! DEFINITION. Status words: the fields of registers that other state computes (R275, R276), and whether the module is
busy (R289). -/

namespace Sys2Proof.Machine

open Sys2Proof

/-- RDY_BSY# is driven busy: STARTING, IDLE_LINK, an activation, a Headstock handover (R289); OFF serves nothing. -/
def busy (s : State) : Bool :=
  s.module.mode = .starting || s.module.mode = .idleLink || s.module.mode = .off || s.update.phase = .activating
    || s.cascade.handover

/-- IDENT.STATE (R275). -/
def identState (s : State) : Nat :=
  s.module.mode.value + s.cascade.role.value * 16 + flag s.cascade.headstock * 64 + flag s.cascade.posValid * 128
    + s.cascade.position * 256

/-- HOSTIF.STATUS (R276). -/
def hostStatus (s : State) : Nat :=
  if s.module.mode = .starting then s.host.linkWidth * 256 + s.host.linkSpeed * 4096
  else
    flag s.host.attached + flag (busy s) * 2 + flag s.host.run * 4 + flag (s.host.resumable && !s.host.attached) * 8
      + s.host.detachCause * 16 + s.host.linkWidth * 256 + s.host.linkSpeed * 4096

/-- HOSTIF.ERR (R276). -/
def hostErr (s : State) : Nat :=
  flag s.host.errTable + flag s.host.errMismatch * 2 + flag s.host.errDma * 4 + flag s.host.errRing * 8

/-- Reading of a sensor (R405). -/
def sensorValue (s : State) (i : Nat) : Int := ((mapGet s.mgmt.sensors i).map Prod.fst).getD (Config.sensorAtStart i)

/-- Level of a sensor (R405). -/
def sensorLevel (s : State) (i : Nat) : Level := (mapGetD s.mgmt.sensors i (0, Level.normal)).2

/-- Value of a level (R421). -/
def Level.value : Level → Nat
  | .normal => 0 | .warning => 1 | .critical => 2 | .limit => 3

/-- MGMT.STATUS (chapter "Management, sensors and the pace governor"). -/
def mgmtStatusWord (s : State) : Nat :=
  s.mgmt.step + flag s.mgmt.paceShort * 8 + flag (s.mgmt.sensors.any fun p => 1 ≤ p.2.2.value) * 16
    + flag (s.mgmt.sensors.any fun p => 2 ≤ p.2.2.value) * 32 + flag s.mgmt.testFloor.isSome * 64
    + (if s.module.mode = .fault then s.mgmt.faultCause else 0) * 256
    + (if s.mgmt.vcoreRemoved then 0 else s.mgmt.vcoreMv) * 65536

/-- Hottest of the sensors `a` to `b` in whole °C, rounded up, as 8 bits; a sensor's value is in half degrees. -/
def hottest (s : State) (a b : Nat) : Nat :=
  let l := (List.range (b - a + 1)).map fun i => sensorValue s (a + i)
  let m := l.foldl (fun x y => if x < y then y else x) (l.headD 0)
  ((m + 1) / 2 % 256).toNat

/-- MGMT.TEMP. -/
def mgmtTemp (s : State) : Nat := hottest s 0 15 + hottest s 16 19 * 256 + hottest s 20 21 * 65536

/-- Value of a servo state (R57). -/
def Servo.value : Servo → Nat
  | .unknown => 0 | .acquiring => 1 | .locked => 2 | .holdover => 3

/-- TIME.STATUS. -/
def timeStatus (s : State) : Nat :=
  s.time.servo.value + flag (uBounded s) * 8
    + (match s.time.gm with
       | some a => a.port
       | none => 7) * 16
    + flag s.time.utcValid * 128 + s.time.utcOffset % 256 * 256

/-- Value of an update phase (R463). -/
def Phase.value : Phase → Nat
  | .idle => 0 | .receiving => 1 | .staged => 2 | .scheduled => 3 | .activating => 4 | .trial => 5

/-- Value of a ring state (R339). -/
def RingState.value : RingState → Nat
  | .single => 0 | .intact => 1 | .broken => 2 | .split => 3

/-- Value of a source kind (R108). -/
def Kind.value : Kind → Nat
  | .free => 0 | .network => 1 | .hostFed => 2 | .internal => 3 | .derived => 4 | .test => 5

/-- Value of a ledger state (R29). -/
def SrcState.value : SrcState → Nat
  | .unknown => 0 | .live => 1 | .late => 2 | .stale => 3 | .frozen => 4 | .lost => 5 | .shed => 6 | .concealed => 7
  | .withdrawn => 8 | .test => 9

/-- Value of a cause (R116). -/
def Cause.value : Cause → Nat
  | .none => 0 | .receipt => 1 | .lateTimer => 2 | .staleTimer => 3 | .lossTimer => 4 | .probe => 5 | .heartbeat => 6
  | .selfReported => 7 | .concealedPicture => 8 | .command => 9 | .close => 10 | .detach => 11 | .shed => 12
  | .restore => 13 | .parent => 14 | .elementTest => 15

/-- DRAMC.STATUS. -/
def dramStatus (s : State) : Nat :=
  let ready := sumN (s.mem.channels.map fun p => if p.2.trained then 2 ^ p.1 else 0)
  let chFailed := (List.range 8).map fun c => if s.mem.failed.any (fun d => d / 20 = c) then 2 ^ c else 0
  flag (s.mem.channels.all fun p => p.2.trained) + flag s.mem.mapRefused * 2
    + flag (s.mem.channels.any fun p => p.2.hotA || p.2.hotB) * 4 + ready * 256 + sumN chFailed * 65536

end Sys2Proof.Machine
end

