-- ==== Sys2Proof/Machine/Mailbox.lean ====
section
/-! DEFINITION. Mailboxes and locks (R395 to R400): the shared operations, the commands MBX_POST, MBX_READ, LOCK_ACQUIRE
and LOCK_RELEASE, and the register rows of the locks and the doorbell. -/

namespace Sys2Proof.Machine

open Sys2Proof

/-- Initiator id (R382). -/
def initiatorId (i : Initiator) : Nat := i.cls * 512 + i.index

/-- The one holder id of host BAR0 accesses and host lock commands (R400). -/
def hostId : Nat := 513

/-- The agent an initiator sends as (R395): 0 MGMT, 1 to 32 the stream engines, 33 the host. -/
def agentOf (id : Nat) : Nat := if id < 512 then 0 else if id < 1024 then 33 else id % 512 + 1

/-- An agent that is serving (R396, R402): none while the module is OFF; the pair unless it restarts, the host while attached, an engine that runs. -/
def serving (s : State) (agent : Nat) : Bool :=
  if s.module.mode = .off || (s.mgmt.vcoreRemoved && s.module.mode = .fault) then false
  else if agent = 0 then !s.mgmt.restarting && !s.mbx.notServing.contains 0
  else if agent = 33 then s.host.attached
  else mainUp s && !s.mbx.notServing.contains agent

/-- Key of a slot. -/
def slotKey (agent slot : Nat) : Nat := agent * 32 + slot

/-- An empty slot. -/
def emptySlot : Slot := { msg := [], sender := 0, full := false, collision := false, senderReset := false }

/-- Send-status word a sender holds for a receiver (R397): bit 0 lost, bit 1 timeout. -/
def sendStatus (s : State) (sender receiver : Nat) : Nat := mapGetD s.mbx.sendStatus (sender * 64 + receiver) 0

/-- A bit of a send-status word set. -/
def setSendStatus (sender receiver b : Nat) (s : State) : State :=
  s.modMbx fun m =>
    { m with sendStatus := mapPut m.sendStatus (sender * 64 + receiver) (mapGetD m.sendStatus (sender * 64 + receiver) 0 ||| b) }

/-- A post (R395, R396): stored whole with its sender and the doorbell set, the collision bit when the slot was full; a
receiver that is not serving stores nothing and the sender's timeout flag is set; an unmasked post to the host raises
MBX_MESSAGE. -/
def mbxStore (receiver slot sender : Nat) (msg : List Byte) (s : State) : State :=
  if serving s receiver then
    let old := mapGetD s.mbx.slots (slotKey receiver slot) emptySlot
    let new : Slot := { msg := msg, sender := sender, full := true, collision := old.full || old.collision, senderReset := false }
    let s := s.modMbx fun m => { m with slots := mapPut m.slots (slotKey receiver slot) new }
    if receiver = 33 && !bit s.mbx.hostMask slot then raiseMod 0x0A82 [it 1 slot, it 2 sender] s else s
  else setSendStatus (agentOf sender) receiver 2 s

/-- A slot read and its doorbell cleared: empty, without collision or sender_reset (R395). -/
def mbxClear (receiver slot : Nat) (s : State) : State :=
  s.modMbx fun m => { m with slots := mapUpd m.slots (slotKey receiver slot) fun x => { x with full := false, collision := false, senderReset := false } }

/-- The host's lost flag for a receiver raises MBX_SEND_FAILED (R397). -/
def lostMessage (receiver sender : Nat) (s : State) : State :=
  let s := setSendStatus (agentOf sender) receiver 1 s
  if agentOf sender = 33 then raiseMod 0x0A83 [it 1 receiver, it 4 (sendStatus s 33 receiver)] s else s

/-- A receiving agent is reset: its unread messages are discarded and their senders' lost flags set; the messages it sent
stay and show sender_reset (R397). -/
def agentReset (agent : Nat) (s : State) : State :=
  let unread := s.mbx.slots.filter fun p => p.1 / 32 = agent && p.2.full
  let s := unread.foldl (fun s p => lostMessage agent p.2.sender s) s
  s.modMbx fun m =>
    { m with slots := (m.slots.filter fun p => p.1 / 32 != agent).map fun p =>
        (p.1, if p.2.full && agentOf p.2.sender = agent then { p.2 with senderReset := true } else p.2) }

/-- Locks held by a reset holder are freed, each with LOCK_ORPHANED (R399). -/
def orphanLocks (id : Nat) (s : State) : State :=
  let mine := s.mbx.locks.filter fun p => p.2 = id
  let s := s.modMbx fun m => { m with locks := m.locks.filter fun p => p.2 != id }
  mine.foldl (fun s p => raiseMod 0x0A84 [it 1 p.1, it 2 id] s) s

/-- What a read of a lock answers and does (R398): a free lock answers 0 and gains the reader as holder; a held one answers
its holder's id plus one. -/
def lockTake (lock id : Nat) (s : State) : Nat × State :=
  match mapGet s.mbx.locks lock with
  | none => (0, s.modMbx fun m => { m with locks := mapPut m.locks lock id })
  | some h => (h + 1, s)

/-- A write of a lock (R399): 0 by the holder frees it; any other is ignored and raises LOCK_RELEASE_REFUSED. -/
def lockPut (lock id value : Nat) (s : State) : Bool × State :=
  match mapGet s.mbx.locks lock with
  | some h =>
    if h = id && value = 0 then (true, s.modMbx fun m => { m with locks := mapDel m.locks lock })
    else (false, raiseLimited second (limKey 0x0A85 lock 0) 1 0x0A85 .module (position s)
      (fun n => [it 1 lock, it 2 id, it 2 h, it 4 n]) s)
  | none =>
    (false, raiseLimited second (limKey 0x0A85 lock 0) 1 0x0A85 .module (position s)
      (fun n => [it 1 lock, it 2 id, it 2 0, it 4 n]) s)

/-- MBX_POST (R395, R397): parameters in range, then the post; the result is the send-status word after it. -/
def mbxPostBody (receiver slot : Nat) (msg : List Byte) (tk : Ticket) (s : State) : State :=
  if 32 < receiver || 31 < slot then complete tk 0x01A0 [] s
  else if tk.dmaOk then
    let s := mbxStore receiver slot hostId msg s
    complete tk 0 [it 4 (sendStatus s 33 receiver)] s
  else complete tk 0x0500 [] s

/-- A slot with its flags, as MBX_READ copies it: the slot number, the flags (bit 0 full, bit 1 collision, bit 2
sender_reset), the sender and the 64 bytes. -/
def slotItems (i : Nat) (x : Slot) : Items :=
  [it 1 i, it 1 (flag x.full + flag x.collision * 2 + flag x.senderReset * 4), it 2 x.sender]
    ++ (List.range 64).map fun k => it 1 ((x.msg[k]?).getD 0).toNat

/-- MBX_READ (R395): copies the host agent's slots of the mask, then clears their doorbells. -/
def mbxReadBody (mask : Nat) (tk : Ticket) (s : State) : State :=
  if tk.dmaOk then
    let pick := (List.range 32).filter fun i => bit mask i
    let data := pick.flatMap fun i => slotItems i (mapGetD s.mbx.slots (slotKey 33 i) emptySlot)
    complete tk 0 [] (pick.foldl (fun s i => mbxClear 33 i s) (hostOut tk 0 (itemBytes data) s))
  else complete tk 0x0500 [] s

/-- LOCK_ACQUIRE (R398). -/
def lockAcquireBody (lock : Nat) (tk : Ticket) (s : State) : State :=
  if 63 < lock then complete tk 0x01A0 [] s
  else
    let r := lockTake lock hostId s
    complete tk 0 [it 4 r.1] r.2

/-- LOCK_RELEASE (R399): result byte 0 is 1 when freed. -/
def lockReleaseBody (lock : Nat) (tk : Ticket) (s : State) : State :=
  if 63 < lock then complete tk 0x01A0 [] s
  else
    let r := lockPut lock hostId 0 s
    complete tk 0 [it 1 (flag r.1)] r.2

end Sys2Proof.Machine
end

