-- ==== Sys2Proof/Machine/Rings.lean ====
section
/-! DEFINITION. The host port, the rings and the commands of range 0x00xx (chapter "Host interface and rings"): taking a
command, the checks common to all, attach and detach, the doorbell and status pages, attention pulses and events. -/

namespace Sys2Proof.Machine

open Sys2Proof

/-! ## Command kinds and buffers -/

/-- The kind of a command (R282). -/
def cmdKind : HostCmd → Nat
  | .nop => 0x0000 | .eventRoute .. => 0x0001 | .hostDetach => 0x0002
  | .txnBegin .. => 0x0100 | .txnStage .. => 0x0101 | .txnValidate .. => 0x0102 | .txnCommit .. => 0x0103
  | .txnAbort .. => 0x0104 | .txnStatus .. => 0x0105
  | .portConfigure .. => 0x0200 | .ingestOpen .. => 0x0201 | .ingestClose .. => 0x0202 | .ingestCounters .. => 0x0203
  | .proxyOpen .. => 0x0204 | .proxyClose .. => 0x0205
  | .decodeAttach .. => 0x0300 | .decodeDetach .. => 0x0301 | .decodePolicy .. => 0x0302 | .decodeStatus .. => 0x0303
  | .decodeSelftest .. => 0x0304
  | .ledgerDefine .. => 0x0400 | .ledgerSet .. => 0x0401 | .ledgerDelete .. => 0x0402 | .ledgerWithdraw .. => 0x0403
  | .ledgerVouch .. => 0x0404 | .ledgerVouchBatch .. => 0x0405 | .ledgerTest .. => 0x0406 | .ledgerProbe .. => 0x0407
  | .ledgerRead .. => 0x0408
  | .surfaceRegister .. => 0x0500 | .surfaceUpload .. => 0x0501 | .surfaceRetire .. => 0x0502 | .surfaceRead .. => 0x0503
  | .scalerLoad .. => 0x0504 | .scalerRead .. => 0x0505 | .writeback .. => 0x0506 | .composeSelftest .. => 0x0507
  | .composeStatus .. => 0x0508
  | .headStatus .. => 0x0600 | .headSinkRead .. => 0x0601 | .headSinkPower .. => 0x0602 | .headAux .. => 0x0603
  | .egressPortConfigure .. => 0x0604
  | .tailstockGlyphLoad .. => 0x0700 | .calipersRead .. => 0x0701 | .tailstockStatus .. => 0x0702
  | .verdictRead .. => 0x0703 | .holdRead .. => 0x0704 | .tailstockFontRead => 0x0705
  | .recordStart .. => 0x0800 | .recordStop .. => 0x0801 | .recordStats .. => 0x0802 | .recordForceIdr .. => 0x0803
  | .encodeSelftest .. => 0x0804
  | .overlayListLoad .. => 0x0900 | .overlayListFree .. => 0x0901 | .overlayFontLoad .. => 0x0902 | .overlayBind .. => 0x0903
  | .overlayUnbind .. => 0x0904 | .overlayRun .. => 0x0905 | .overlayStatus .. => 0x0906
  | .gateFence .. => 0x0A00 | .gateFaultRead .. => 0x0A01 | .mbxPost .. => 0x0A02 | .mbxRead .. => 0x0A03
  | .lockAcquire .. => 0x0A04 | .lockRelease .. => 0x0A05
  | .mgmtStatus => 0x0B00 | .mgmtMaintenance .. => 0x0B01 | .mgmtLogRead .. => 0x0B02 | .mgmtReset => 0x0B03
  | .mgmtLadderTest .. => 0x0B04
  | .updateStatus => 0x0C00 | .updateDistribute .. => 0x0C01 | .updateActivate .. => 0x0C02 | .updateHitless .. => 0x0C03
  | .updateEngine .. => 0x0C04 | .updateConfirm => 0x0C05 | .updateRevert .. => 0x0C06 | .updateCancel .. => 0x0C07
  | .cascadeStatus => 0x0D00 | .cascadeRenumber .. => 0x0D01 | .twinRole .. => 0x0D02 | .cascadeSleep => 0x0D03
  | .cascadeWake => 0x0D04
  | .memStatus => 0x0E00 | .memRetrain .. => 0x0E01 | .memInject .. => 0x0E02
  | .laneCounters .. => 0x0E20 | .laneTest .. => 0x0E21

/-- The alignment of the host buffer a command names; none where it names no buffer. -/
def bufAlign : HostCmd → Option Nat
  | .ingestOpen .. => some 64
  | .ledgerVouchBatch .. => some 16
  | .txnStage .. | .txnValidate .. => some 8
  | .ingestCounters .. | .decodeStatus .. | .ledgerRead .. | .surfaceUpload .. | .surfaceRead .. | .scalerLoad ..
  | .scalerRead .. | .composeStatus .. | .headStatus .. | .headSinkRead .. | .tailstockGlyphLoad ..
  | .calipersRead .. | .tailstockStatus .. | .verdictRead .. | .holdRead .. | .tailstockFontRead | .recordStats ..
  | .overlayListLoad .. | .overlayFontLoad .. | .overlayBind .. | .overlayStatus .. | .txnStatus ..
  | .laneCounters .. | .cascadeStatus | .memStatus | .gateFaultRead .. | .mbxPost .. | .mbxRead .. | .mgmtStatus
  | .mgmtLogRead .. | .updateStatus => some 1
  | .headAux b => if b.write = 0 then some 1 else none
  | .txnCommit .. => some 8
  | _ => none

/-- Further host addresses in a descriptor: the ring and progress record of RECORD_START (R228). -/
def otherAddrsOk : HostCmd → Bool
  | .recordStart b => b.ringAddr != 0 && b.ringAddr % 4096 = 0 && b.progressAddr != 0 && b.progressAddr % 64 = 0
  | _ => true

/-- Whether a command reads host memory before it acts (R285, R343). -/
def readsHost : HostCmd → Bool
  | .ingestOpen .. | .ledgerVouchBatch .. | .txnStage .. | .surfaceUpload .. | .scalerLoad .. | .tailstockGlyphLoad ..
  | .overlayListLoad .. | .overlayFontLoad .. | .overlayBind .. | .mbxPost .. => true
  | _ => false

/-! ## Taking a command (R281 to R283) -/

/-- Records of completion ring `r` not yet consumed, and commands in flight that report to it, leave room (R281). -/
def cplRoom (s : State) (ring : Nat) : Bool :=
  match cmdEntry s ring with
  | none => false
  | some e =>
    match cplEntry s e.cplRing with
    | none => false
    | some c =>
      let waiting := sub32 (mapGetD s.host.cplProd e.cplRing 0) (mapGetD s.host.cplCons e.cplRing 0)
      let flying := (s.queue.inFlight.filter fun f => f.origin.isNone &&
        ((cmdEntry s f.ring).map CmdRingEntry.cplRing) == some e.cplRing).length
      waiting + flying < 2 ^ c.sizeLog2

/-- The module takes the command that stands at the front of the descriptor's ring (R278, R281, R282, R289, R454). -/
def canTake (d : Desc) (s : State) : Bool :=
  s.host.attached && !busy s && !s.power.shutdownDraining && (cmdEntry s d.ring).isSome && !s.host.stoppedCmd.contains d.ring
    && mapGetD s.host.cmdProd d.ring 0 != mapGetD s.host.cmdCons d.ring 0
    && s.queue.inFlight.length < Config.maxInFlight && cplRoom s d.ring
    && (!d.fence || s.queue.inFlight.all fun f => f.origin.isSome || f.ring != d.ring)

/-- The ticket of a command taken now. -/
def ticketOf (d : Desc) (kind : Nat) (s : State) : Ticket :=
  { kind := kind, ring := d.ring, index := mapGetD s.host.cmdCons d.ring 0, attn := d.attn, attnErr := d.attnErr,
    quiet := d.quiet, tag := d.tag, buf := d.buf, dmaOk := d.dmaOk, origin := none }

/-- A command is taken: cmd_cons counts it and it is in flight (R281). -/
def take (d : Desc) (tk : Ticket) (s : State) : State :=
  let s := s.modHost fun h => { h with cmdCons := mapPut h.cmdCons d.ring (idx32 (mapGetD h.cmdCons d.ring 0 + 1)) }
  s.modQueue fun q => { q with inFlight := q.inFlight ++ [tk], pageDirty := true }

/-- The target names a module of the cascade: this one, or one that discovery found (R282). -/
def knownTarget (t : Nat) (s : State) : Bool :=
  t = 0xFF || (s.cascade.posValid && t = s.cascade.position) || mapHas s.cascade.modules t

/-- The command executes on this module (R293). -/
def isLocal (t : Nat) (s : State) : Bool := t = 0xFF || (s.cascade.posValid && t = s.cascade.position)

/-- The checks of R291 common to all commands, in the order of their values; 0 when none fails. -/
def commonCheck (d : Desc) (c : HostCmd) (s : State) : Nat :=
  if d.version != 1 then 0x0100
  else if !d.rz then 0x0101
  else if !knownTarget d.target s then 0x0102
  else if (match bufAlign c with
    | some a => d.buf = 0 || d.buf % a != 0
    | none => false) || !otherAddrsOk c then 0x0103
  else 0

/-- The kinds that the module serves in its present state (R22, R414, R415). -/
def stateServes (kind : Nat) (s : State) : Bool :=
  match s.module.mode with
  | .setup | .run | .lean | .maintenance => true
  | .fault =>
    if s.mgmt.faultCause = 6 then kind = 0x0B00 || kind = 0x0B02 || kind = 0x0B03
    else kind / 256 = 0x0B || (kind / 256 = 0x0E && !s.mgmt.vcoreRemoved)
  | .idleLink => kind = 0x0D04 || kind / 256 = 0x0B
  | _ => false

/-- A command executes on this module: refused with MODULE_STATE where the state does not serve it; one of range 0x0Bxx
waits while the pair restarts (R403); else its own rule acts. -/
def runHere (tk : Ticket) (c : HostCmd) (body : Ticket → State → State) (s : State) : State :=
  if !stateServes (cmdKind c) s then complete tk 0x0300 [] s
  else if s.mgmt.restarting && cmdKind c / 256 = 0x0B then s.modMgmt fun m => { m with waiting := m.waiting ++ [(tk, c)] }
  else body tk s

/-- The Headstock forwards a command to another position (R293, R343); a command that only the Headstock carries out completes there
with NOT_HEADSTOCK. -/
def forwardCmd (t : Nat) (tk : Ticket) (c : HostCmd) (s : State) : State :=
  if !s.cascade.headstock then complete tk 0x0301 [] s
  else if cmdKind c = 0x0C01 || cmdKind c = 0x0C02 || cmdKind c = 0x0C07 then completeAs tk 0x0301 t true [] s
  else
    match mapGet s.cascade.modules t with
    | none => complete tk 0x0501 [] s
    | some m =>
      if !m.inContact then complete tk 0x0501 [] s
      else if m.state = 1 then complete tk 0x0300 [] s
      else if m.state = 6 && !(cmdKind c = 0x0D04 || cmdKind c / 256 = 0x0B) then complete tk 0x0300 [] s
      else if cmdKind c = 0x0D03 && s.cascade.ring != .intact then complete tk 0x05D1 [] s
      else if readsHost c && !tk.dmaOk then complete tk 0x0500 [] s
      else
        let tag := s.queue.nextForward
        let s := s.modQueue fun q => { q with forwards := mapPut q.forwards tag (tk, t), nextForward := tag + 1 }
        let s := if s.cascade.twinUp then emit (.message .twin .control "FORWARD_MIRROR" [(tag : Int), (tk.tag : Int), (tk.kind : Int), (t : Int)]) s else s
        emit (.forward (ringTo s t) t tag c) s

/-- A command at the front of its ring: taken if the module takes it, checked, and executed here or forwarded (R281,
R283, R293). -/
def onTake (d : Desc) (c : HostCmd) (body : Ticket → State → State) (s : State) : State :=
  if canTake d s then
    let tk := ticketOf d (cmdKind c) s
    let s := take d tk s
    let e := commonCheck d c s
    if e != 0 then complete tk e [] s
    else if isLocal d.target s then runHere tk c body s
    else forwardCmd d.target tk c s
  else s

/-! ## Ring-control commands (R292) -/

/-- NOP: SUCCESS; with a target the result is the path's round-trip time, a measured value. -/
def nopBody (targeted : Bool) (tk : Ticket) (s : State) : State :=
  if targeted then
    let r := draw s
    complete tk 0 [it 8 r.1] r.2
  else complete tk 0 [] s

/-- NOP (R292). -/
def execNop (d : Desc) (s : State) : Host.Outcome State Fault Refusal :=
  .next (onTake d .nop (nopBody (d.target != 0xFF)) s)

/-- EVENT_ROUTE: new masks of an event ring, for events that arise from now on (R292). -/
def eventRouteBody (ring sub att : Nat) (tk : Ticket) (s : State) : State :=
  if evtCount s ≤ ring || bit sub 15 || 65535 < sub || 65535 < att then complete tk 0x0101 [] s
  else complete tk 0 [] (s.modQueue fun q => { q with evtMasks := mapPut q.evtMasks ring (sub, att) })

/-- EVENT_ROUTE (R292). -/
def execEventRoute (d : Desc) (ring sub att : Nat) (s : State) : Host.Outcome State Fault Refusal :=
  .next (onTake d (.eventRoute ring sub att) (eventRouteBody ring sub att) s)

/-- HOST_DETACH waits for every earlier command, completes, and detaches with cause DRIVER (R292). -/
def hostDetachBody (tk : Ticket) (s : State) : State :=
  settleDetach (s.modQueue fun q => { q with detaching := some tk })

/-- HOST_DETACH (R292). -/
def execHostDetach (d : Desc) (s : State) : Host.Outcome State Fault Refusal :=
  .next (onTake d .hostDetach hostDetachBody s)

/-- DESCRIPTOR_REJECT (R283): a taken descriptor of an undefined kind, or one that fails another common check, completes at
once with that check's status. -/
def execDescriptorReject (d : Desc) (kind : Nat) (s : State) : Host.Outcome State Fault Refusal :=
  .next
    (if canTake d s then
      let tk := ticketOf d kind s
      let s := take d tk s
      let e := commonCheck d .nop s
      complete tk (if e = 0 then 0x0100 else e) [] s
    else s)

/-! ## Events and pages -/

/-- Whether no event earlier in the queue waits for ring `r`. -/
def ringClear (r : Nat) (blocked : List Nat) : Bool := !blocked.contains r

/-- Queued events delivered in order while their rings have room; an event whose ring selects it no more is discarded. -/
def drainList : List EventRec → List Nat → List EventRec → State → List EventRec × State
  | [], _, kept, s => (kept.reverse, s)
  | e :: t, blocked, kept, s =>
    match evtRing s e.code with
    | none => drainList t blocked kept (s.modQueue fun q => { q with eventsLost := q.eventsLost + 1 })
    | some r =>
      if ringClear r blocked && evtRoom s r (evtRecords e.items) then drainList t blocked kept (putEvent r e s)
      else drainList t (r :: blocked) (e :: kept) s

/-- HOST_EVENTS_LOST is the first event delivered once space returns (R286). -/
def tellLost (s : State) : State :=
  if s.queue.lostUntold = 0 then s
  else
    match evtRing s 0x0081 with
    | none => s
    | some r =>
      if evtRoom s r 1 then
        let e : EventRec :=
          { code := 0x0081, scope := .module, scopeId := position s, position := position s,
            seq := nextSeq .module (position s) s, wallNs := s.time.wall, items := [it 4 s.queue.lostUntold], attention := false }
        let s := s.modQueue fun q => { q with seqs := mapPut q.seqs (scopeKey .module (position s)) e.seq, lostUntold := 0 }
        putEvent r e s
      else s

/-- The event queue drained as far as the rings have room (R286). -/
def drainEvents (s : State) : State :=
  if s.host.attached && !s.mgmt.restarting then
    let s := tellLost s
    let r := drainList s.queue.events [] [] s
    r.2.modQueue fun q => { q with events := r.1 }
  else s

/-- EVENT_QUEUE_DRAIN (R286). -/
def execEventQueueDrain (s : State) : Host.Outcome State Fault Refusal := .next (drainEvents s)

/-- The values of a map under 0 to n − 1. -/
def indices (m : Map Nat) (n : Nat) : List Nat := (List.range n).map fun i => mapGetD m i 0

/-- The first 184 bytes of the status page (R2, R277). -/
def pageBytes (cmdCons cplProd evtProd : List Nat) (wallNs heartbeat state lost inFlight : Nat) : List Byte :=
  itemBytes ((cmdCons ++ cplProd ++ evtProd).map (it 4) ++ [it 8 wallNs, it 4 heartbeat, it 4 state, it 4 lost, it 4 inFlight])

/-- STATUS_PAGE_WRITE (R277, R280): every field of the page. -/
def execStatusPageWrite (s : State) : Host.Outcome State Fault Refusal :=
  .next
    (if s.host.attached then
      let hb := idx32 (s.queue.heartbeat + 1)
      let page (α : Type) (f : List Nat → List Nat → List Nat → Nat → Nat → Nat → Nat → Nat → α) : α :=
        f (indices s.host.cmdCons 16) (indices s.host.cplProd 16) (indices s.host.evtProd 8) s.time.wall hb (identState s)
          (idx32 s.queue.eventsLost) s.queue.inFlight.length
      let s := emit (page _ Out.statusPage (page _ pageBytes)) s
      s.modQueue fun q =>
        { q with heartbeat := hb, pageDirty := false, attnPublished := q.attnPublished || q.attnWritten, attnWritten := false }
    else s)

/-- ATTENTION_PULSE (R290): after a status page write published a record with its attention bit, while attached, ready and
enabled, no sooner than the hold-off after the previous pulse. -/
def execAttentionPulse (s : State) : Host.Outcome State Fault Refusal :=
  .next
    (let gap := (if s.host.attnHoldoffUs < 10 then 10 else s.host.attnHoldoffUs) * 1000
     let spaced := match s.queue.lastPulseNs with
       | none => true
       | some t => t + gap ≤ s.time.mono
     if s.host.attached && !busy s && s.host.attnEnable && s.queue.attnPublished && spaced then
       emit .attentionPulse (s.modQueue fun q => { q with attnPublished := false, lastPulseNs := some s.time.mono })
     else s)

/-! ## Doorbell page (R278, R279) -/

/-- A ring is stopped until the next attach, with HOSTIF.ERR.RING_ERROR and the event (R278). -/
def ringError (kind ring found expected : Nat) (s : State) : State :=
  let s := s.modHost fun h =>
    { h with
      errRing := true,
      stoppedCmd := if kind = 0 then ring :: h.stoppedCmd else h.stoppedCmd,
      stoppedCpl := if kind = 1 then ring :: h.stoppedCpl else h.stoppedCpl,
      stoppedEvt := if kind = 2 then ring :: h.stoppedEvt else h.stoppedEvt }
  raise 0x0082 .port 16 [it 1 kind, it 1 ring, it 4 found, it 4 expected] s

/-- A command producer index read from the doorbell page. -/
def seeCmdProd (r v : Nat) (s : State) : State :=
  match cmdEntry s r with
  | none => s
  | some e =>
    if s.host.stoppedCmd.contains r then s
    else if 2 ^ e.sizeLog2 < sub32 v (mapGetD s.host.cmdCons r 0) then ringError 0 r (idx32 v) (mapGetD s.host.cmdCons r 0) s
    else s.modHost fun h => { h with cmdProd := mapPut h.cmdProd r (idx32 v) }

/-- A completion consumer index read from the doorbell page. -/
def seeCplCons (r v : Nat) (s : State) : State :=
  match cplEntry s r with
  | none => s
  | some _ =>
    let p := mapGetD s.host.cplProd r 0
    if s.host.stoppedCpl.contains r then s
    else if sub32 p (mapGetD s.host.cplCons r 0) < sub32 p v then ringError 1 r (idx32 v) p s
    else s.modHost fun h => { h with cplCons := mapPut h.cplCons r (idx32 v) }

/-- An event consumer index read from the doorbell page. -/
def seeEvtCons (r v : Nat) (s : State) : State :=
  if evtCount s ≤ r then s
  else
    let p := mapGetD s.host.evtProd r 0
    if s.host.stoppedEvt.contains r then s
    else if sub32 p (mapGetD s.host.evtCons r 0) < sub32 p v then ringError 2 r (idx32 v) p s
    else s.modHost fun h => { h with evtCons := mapPut h.evtCons r (idx32 v) }

/-- A list of indices seen, ring by ring. -/
def seeAll (f : Nat → Nat → State → State) : Nat → List Nat → State → State
  | _, [], s => s
  | r, v :: t, s => seeAll f (r + 1) t (f r v s)

/-- An access to the ring table, a ring or a page failed: the host is detached with cause DMA_ERROR (R276, R294). -/
def dmaDetach (s : State) : State := detachHost 5 (s.modHost fun h => { h with errDma := true })

/-- DOORBELL_POLL (R279): while attached and ready, new producer and consumer indices are seen. -/
def execDoorbellPoll (cmdProd cplCons evtCons : List Nat) (ok : Bool) (s : State) : Host.Outcome State Fault Refusal :=
  .next
    (if s.host.attached && !busy s then
      if ok then seeAll seeEvtCons 0 (evtCons.take 8) (seeAll seeCplCons 0 (cplCons.take 16) (seeAll seeCmdProd 0 (cmdProd.take 16) s))
      else dmaDetach s
    else s)

/-! ## Attach and detach (R277, R294, R295) -/

/-- Two byte ranges overlap. -/
def overlaps (a n b m : Nat) : Bool := a < b + m && b < a + n

/-- No two ranges of a list overlap. -/
def disjointAll : List (Nat × Nat) → Bool
  | [] => true
  | (a, n) :: t => (t.all fun p => !overlaps a n p.1 p.2) && disjointAll t

/-- The rings and pages of a table, as byte ranges (R277). -/
def tableRanges (t : RingTable) : List (Nat × Nat) :=
  [(t.doorbellAddr, 4096), (t.statusAddr, 4096)]
    ++ t.cmd.map (fun e => (e.base, 64 * 2 ^ e.sizeLog2)) ++ t.cpl.map (fun e => (e.base, 32 * 2 ^ e.sizeLog2))
    ++ t.evt.map fun e => (e.base, 32 * 2 ^ e.sizeLog2)

/-- Every field of the ring table in its range, every ring and page aligned, no two overlapping (R277). -/
def tableOk (t : RingTable) : Bool :=
  t.version = 1 && t.rz
    && 1 ≤ t.cmd.length && t.cmd.length ≤ 16 && 1 ≤ t.cpl.length && t.cpl.length ≤ 16
    && 1 ≤ t.evt.length && t.evt.length ≤ 8
    && (t.cmd.all fun e => 4 ≤ e.sizeLog2 && e.sizeLog2 ≤ 16 && e.cplRing < t.cpl.length && e.priority ≤ 1)
    && (t.cpl.all fun e => 4 ≤ e.sizeLog2 && e.sizeLog2 ≤ 16)
    && (t.evt.all fun e => 6 ≤ e.sizeLog2 && e.sizeLog2 ≤ 16 && e.subjectMask < 0x8000 && e.attnMask < 0x10000)
    && ((tableRanges t).all fun p => p.1 % 4096 = 0) && disjointAll (tableRanges t)

/-- The address of the ring table that HOSTIF.TABLE names. -/
def tableAddrOf (s : State) : Nat := s.host.tableLo + s.host.tableHi * 4294967296

/-- The state in which a write of HOSTIF.ATTACH acts: BAR0 answers and takes writes (R448). -/
def bar0Up (s : State) : Bool :=
  match s.module.mode with
  | .off | .starting | .idleLink => false
  | _ => true

/-- A write that the run lock ignores is counted, its offset kept, and LOCK_VIOLATION raised at most once a second (R273). -/
def lockViolation (offset : Nat) (s : State) : State :=
  let s := s.modHost fun h =>
    { h with lockViolations := (h.lockViolations + 1) % 4294967296, lastViolation := offset % 1048576 }
  raiseLimited second (limKey 0x0084 0 0) 1 0x0084 .port 16 (fun n => [it 4 offset, it 4 n]) s

/-- An access that is refused is counted (R272). -/
def badAccess (s : State) : State := s.modHost fun h => { h with badAccess := (h.badAccess + 1) % 4294967296 }

/-- HOST_ATTACHED, the first event after an attach, then what was queued (R286, R295, R296). -/
def attachedEvent (mode discarded : Nat) (s : State) : State :=
  let e : EventRec :=
    { code := 0x0080, scope := .module, scopeId := position s, position := position s,
      seq := nextSeq .module (position s) s, wallNs := s.time.wall,
      items := [it 1 mode, it 1 s.host.detachCause, it 8 s.host.detachWallNs, it 4 discarded, it 4 s.queue.events.length],
      attention := false }
  let s := s.modQueue fun q => { q with seqs := mapPut q.seqs (scopeKey .module (position s)) e.seq, eventsLost := 0 }
  match evtRing s 0x0080 with
  | none => drainEvents (s.modQueue fun q => { q with eventsLost := q.eventsLost + 1 })
  | some r =>
    if evtRoom s r (evtRecords e.items) then drainEvents (putEvent r e s)
    else s.modQueue fun q => { q with events := e :: q.events }

/-- FRESH (R295): the table is read and checked; retained completions are discarded; every index starts at 0; the event
queue stays; the host agent's mailbox is reset and its locks freed (R397, R399). -/
def attachFreshDo (table : Option RingTable) (s : State) : State :=
  let addr := tableAddrOf s
  match table with
  | none => s.modHost fun h => { h with errTable := true, errDma := true }
  | some t =>
    if tableOk t && addr % 4096 = 0 && addr != 0 then
      let n := s.queue.cplDiscarded + s.queue.retained.length
      let s := orphanLocks hostId (agentReset 33 s)
      let s := s.modHost fun h =>
        { h with
          attached := true, resumable := false, table := some t, tableAddr := addr, cmdProd := [], cmdCons := [],
          cplProd := [], cplCons := [], evtProd := [], evtCons := [], stoppedCmd := [], stoppedCpl := [], stoppedEvt := [] }
      let s := s.modQueue fun q => { q with retained := [], cplDiscarded := 0, evtMasks := [], pageDirty := true }
      attachedEvent 1 n s
    else s.modHost fun h => { h with errTable := true }

/-- RESUME (R295): every index goes on, retained completions are delivered, then the queued events. -/
def attachResumeDo (s : State) : State :=
  if s.host.resumable && tableAddrOf s = s.host.tableAddr then
    let kept := s.queue.retained
    let n := s.queue.cplDiscarded
    let s := s.modHost fun h => { h with attached := true, stoppedCmd := [], stoppedCpl := [], stoppedEvt := [] }
    let s := s.modQueue fun q => { q with retained := [], cplDiscarded := 0, pageDirty := true }
    attachedEvent 2 n (kept.foldl (fun s c => publish c s) s)
  else s.modHost fun h => { h with errMismatch := true }

/-- PERST# (R270): the port and its configuration space are initialised and the host is detached; nothing else changes. -/
def execPerst (s : State) : Host.Outcome State Fault Refusal :=
  .next (detachHost 2 (s.modHost fun h => { h with linkSpeed := 0, linkWidth := 0 }))

/-- Function level reset (R270). -/
def execFunctionLevelReset (s : State) : Host.Outcome State Fault Refusal := .next (detachHost 2 s)

/-- The function enters D3hot (R294). -/
def execD3hotEntry (s : State) : Host.Outcome State Fault Refusal := .next (detachHost 3 s)

/-- Bus Master Enable is cleared (R294). -/
def execBusMasterClear (s : State) : Host.Outcome State Fault Refusal := .next (detachHost 4 s)

/-- HOST_LINK: the data link goes down, which detaches the host, or comes up or changes (R270, R276, R296). -/
def execHostLink (up : Bool) (speed width : Nat) (s : State) : Host.Outcome State Fault Refusal :=
  .next
    (if mainUp s || s.module.mode = .starting then
      let sp := if up then speed else 0
      let w := if up then width else 0
      let s := s.modHost fun h => { h with linkSpeed := sp, linkWidth := w }
      let s := if up then s else detachHost 1 s
      raise 0x0083 .port 16 [it 1 sp, it 1 w] s
    else s)

end Sys2Proof.Machine
end

