-- ==== Sys2Proof/Machine/Operands.lean ====
section
/-! DEFINITION. Operand forms shared by the commands: ranges of module DRAM and what occupies them, gate contexts, what
layers hold, what names a source. -/

namespace Sys2Proof.Machine

open Sys2Proof

/-! ## Ranges of module DRAM -/

/-- A range lies within module DRAM (R363). -/
def inDram (base size : Nat) : Bool := base + size ≤ Config.dramBytes

/-- Sizes of surfaces: image_count images (R133). -/
def surfaceSize (b : SurfaceBody) : Nat := b.imageCount * b.imageStride

/-- Every range of module DRAM that an object occupies or that is still guarded: ingest regions, decode buffer sets,
surfaces, recording work regions (R60, R82, R133, R229). -/
def dramRanges (s : State) : List (Nat × Nat) :=
  (mapVals s.ingest.streams).map (fun x => (x.regionBase, x.regionSize))
    ++ s.ingest.guards.map (fun p => (p.1, p.2.1))
    ++ (mapVals s.decode.attached).map (fun a => (a.body.bufBase, a.body.bufSize))
    ++ s.decode.guards.map (fun p => (p.1, p.2.1))
    ++ (mapVals s.compose.surfaces).map (fun x => (x.body.base, surfaceSize x.body))
    ++ (mapVals s.record.sessions).map (fun x => (x.body.workBase, x.body.workSize))
    ++ s.record.guards.map (fun p => (p.1, p.2.1))

/-- A range overlaps one in use. -/
def dramBusy (s : State) (base size : Nat) : Bool := (dramRanges s).any fun p => overlaps base size p.1 p.2

/-! ## Gate contexts (R386) -/

/-- A context installed, in place of one of the same name (R386, R392). -/
def addCtx (c : GateCtx) (s : State) : State :=
  let close (f : GateFault) : GateFault := if f.ctx = c.ctx then { f with closed := true } else f
  s.modGates fun g =>
    { g with contexts := g.contexts.filter (fun x => x.ctx != c.ctx) ++ [c], faults := g.faults.map close }

/-- A context whose work moves to another initiator (R471). -/
def moveCtx (c : Context) (who : Initiator) (s : State) : State :=
  s.modGates fun g => { g with contexts := g.contexts.map fun x => if x.ctx = c then { x with who := [who] } else x }

/-- A context released (R392). -/
def dropCtx (c : Context) (s : State) : State :=
  let close (f : GateFault) : GateFault := if f.ctx = c then { f with closed := true } else f
  s.modGates fun g =>
    { g with
      contexts := g.contexts.filter fun x => x.ctx != c, faults := g.faults.map close,
      draining := if g.draining.contains 0 then g.draining else 0 :: g.draining }

/-! ## What layers hold -/

/-- Everything that layers hold (R144). -/
def heldContents (s : State) : List Content :=
  (mapVals s.compose.layers).flatMap fun l =>
    ((if l.curHeld then l.cur else none).toList ++ l.old.toList).map Shown.content

/-- Content that a layer may show again: what it showed last (R142). -/
def shownContents (s : State) : List Content := (mapVals s.compose.layers).flatMap fun l => (l.cur.toList ++ l.old.toList).map Shown.content

/-- A layer scans frame or picture `n` of the region or buffer set at `base`, in a frame not yet ended (R68, R88, R144). -/
def scans (s : State) (base n : Nat) : Bool :=
  (heldContents s).any fun c => match c with
    | .slot _ b _ k => b = base && k = n
    | .picture _ b k => b = base && k = n
    | .image _ _ => false

/-- Any layer shows content of the region or buffer set at `base` (R76, R104). -/
def scansBase (s : State) (base : Nat) : Bool :=
  (shownContents s).any fun c => match c with
    | .slot _ b _ _ => b = base
    | .picture _ b _ => b = base
    | .image _ _ => false

/-- A layer holds an image of a surface (R134). -/
def holdsImage (s : State) (surface image : Nat) : Bool := (heldContents s).any fun c => c == .image surface image

/-- The scene banks in use: the one in force, and the other while it is staged or retained (R298). -/
def banksInUse (s : State) : List SceneBank :=
  s.scene.inForce :: (if s.scene.otherUse = .free then [] else [s.scene.other])

/-- Whether layer record `i` gives its layer a window: every video layer, and a graphics layer with a base window (R139). -/
def hasWindow (i : Nat) (l : Layer) : Bool := i < 16 || l.baseWindow

/-- A window of any scene bank in use is bound to the source. -/
def sourceBound (s : State) (source : Nat) : Bool :=
  (banksInUse s).any fun b => (mapVals b.heads).any fun h =>
    (h.layers.any fun p => p.2.enable = 1 && p.2.sourceId = source && (p.2.content = 1 || hasWindow p.1 p.2))
      || (mapVals h.regions).any fun r => r.sourceId = source

/-- A layer of any scene bank in use binds the surface (R137). -/
def surfaceBound (s : State) (surface : Nat) : Bool :=
  (banksInUse s).any fun b => (mapVals b.heads).any fun h =>
    (mapVals h.layers).any fun l => l.enable = 1 && l.content = 2 && l.surfaceId = surface

/-- Surfaces that the COPY commands of a display list name as source (R252); `n` bounds the commands. -/
def copySources : Nat → List Byte → List Nat
  | 0, _ => []
  | n + 1, op :: units :: f :: c :: a0 :: a1 :: t =>
    let rest := copySources n ((op :: units :: f :: c :: a0 :: a1 :: t).drop (units.toNat * 8))
    if op = 5#8 then (a0.toNat + a1.toNat * 256) :: rest else rest
  | _ + 1, _ => []

/-- The display list that a binding names (R257). -/
def listOf (s : State) (b : Binding) : List Byte := mapGetD s.overlay.lists b.body.list []

/-- An overlay binding names the surface as its target or a COPY source (R259). -/
def overlayNames (s : State) (surface : Nat) : Bool :=
  (mapVals s.overlay.bindings).any fun b =>
    b.body.surface = surface || (copySources 4096 (listOf s b)).contains surface

/-- A run of a binding becomes due (R262). -/
def addDue (b : Nat) (d : DueRun) (s : State) : State :=
  s.modOverlay fun o =>
    { o with
      order := o.order + 1, bindings := mapUpd o.bindings b fun x => { x with due := x.due ++ [{ d with order := o.order }] } }

/-- A source enters a ledger state: an ON_EVENT binding of it has a run due, at most one beyond the one in progress (R262). -/
def onSourceState (source : Nat) (st : SrcState) (s : State) : State :=
  s.overlay.bindings.foldl (fun s p =>
    let b := p.2.body
    if b.trigger = 1 && b.eventSource = source && (b.eventMask = 0 || bit b.eventMask st.value) && p.2.due.isEmpty
        && p.2.unbinding.isNone && !p.2.stopping then
      addDue p.1 { order := 0, frame := none, clockNs := none, tickets := [], noWait := true, since := none, lateNs := none } s
    else s) s

/-- Lanes of a bond, by lane index (R320). -/
def bondLanes : Bond → List Nat
  | .east => List.range' 0 4
  | .west => List.range' 4 4
  | .twin => List.range' 8 12
  | .toTailstock => List.range' 32 24
  | .toMain => List.range' 56 8

/-- A lane's runtime. -/
def laneRt (s : State) (k : Nat) : LaneRt := mapGetD s.link.lanes k LaneRt.init

/-- Lanes UP of a bond (R332). -/
def lanesUp (s : State) (b : Bond) : List Nat := (bondLanes b).filter fun k => (laneRt s k).state = 3

/-- The internal link is up both ways. -/
def internalUp (s : State) : Bool := !(lanesUp s .toTailstock).isEmpty && !(lanesUp s .toMain).isEmpty

/-- A frame or picture of a source is delivered: an adaptive group that it paces has a pace event (R189). -/
def onContent (source : Nat) (s : State) : State :=
  let paced (g : Nat) : Bool := match mapGet s.scene.inForce.groups g with
    | some r => r.mode = 1 && r.paceSource = source
    | none => false
  s.modTs fun t => { t with groups := t.groups.map fun p => if paced p.1 then (p.1, { p.2 with paceNs := p.2.paceNs.orElse fun _ => some s.time.mono }) else p }

/-- The priority of a twin role (R356). -/
def rolePriority : Role → Nat
  | .alone => Config.prioActive
  | .active => Config.prioActive
  | .standby => Config.prioStandby
  | .withdrawn => 0

/-- The claim word of a role (R208, R314, R356, R357). -/
def roleClaim (s : State) (r : Role) : Claim :=
  { priority := if s.scene.behind || s.cascade.catchingUp then 0 else rolePriority r, position := position s, high := 0 }

/-- The claim word that the module's record writes, and its tokens but around a swap, carry (R208, R356). -/
def claimNow (s : State) : Claim := roleClaim s s.cascade.role

/-- The claim word of the tokens of a frame that starts at an elapsed instant: the role before a swap up to the first frame that starts at or
after the swap instant (R359). -/
def claimOf (s : State) (start : Nat) : Claim :=
  match s.cascade.swapped with
  | some (t, r) => if start < t then roleClaim s r else claimNow s
  | none => claimNow s

/-- The static_src flag of a source's window map entries, rewritten in both banks of the module's own Tailstock and of the twin's (R197). -/
def rewriteStatic (source : Nat) (static : Bool) (s : State) : State :=
  let s := emit (.record .toTailstock (claimNow s) (.staticSrc source static)) s
  if s.cascade.twinUp then emit (.record .twin (claimNow s) (.staticSrc source static)) s else s

/-- Origin times of the fields with a frame: its own valid records, else those of the frame before (R120, R145). -/
def mergeFields (last : Map Nat) (raw : Option Origin) (e : Option Element) : Map Nat :=
  match raw, e with
  | some o, some e =>
    (e.fields.map FieldRec.fieldId).eraseDups.foldl (fun m i =>
      match e.fields.find? fun r => r.fieldId = i with
      | some r =>
        if r.ageUnknown then m
        else mapPut m i (originUs ⟨o.ns - r.dataAgeUs * 1000, o.uNs + r.ageUMs * 1000000⟩)
      | none => m) last
  | _, _ => last

/-! ## Addresses -/

/-- An IPv4 (224.0.0.0/4) or IPv6 (ff00::/8) multicast address. -/
def isMulticast (ipv6 : Bool) (a : Nat) : Bool :=
  if ipv6 then a / 2 ^ 120 = 0xFF else a / 268435456 % 16 = 14

/-- Interface `lane` of ingest port `port`, provided by the port's mode (R51, R60). -/
def ingestLane (s : State) (port lane : Nat) : Option Lane :=
  match mapGet s.ingest.ports port with
  | none => none
  | some p =>
    if p.mode = 1 && lane = 0 then mapGet p.lanes 0
    else if p.mode = 2 && lane ≤ 3 then mapGet p.lanes lane
    else none

end Sys2Proof.Machine
end

