-- ==== Sys2Proof/Machine/Ledger.lean ====
section
/-! DEFINITION. The provenance ledger (R107 to R131): source states, receipts, vouches, the freeze probe, shedding and
verdict delivery, and the ledger's commands and timers. -/

namespace Sys2Proof.Machine

open Sys2Proof

/-! ## Entries, verdicts and states -/

/-- A FREE entry: UNKNOWN, 0 in every other field (R109). -/
def freeEntry : Entry :=
  { kind := .free, state := .unknown, cls := 0, cause := .none, staticDesign := false, elementStatic := false,
    probeEn := false, concealScorch := false, cmdTest := false, rxTest := false, rxFrozen := false, withdrawn := false,
    parent := 0, field := 0, freezeK := 0, originNs := 0, uSrcNs := 0, expectUs := 0, lossMs := 0, staleMs := 0,
    freezeSad := 0, rxNs := 0, stateNs := 0, hbSeq := 0, hbRepeat := 0, sadRepeat := 0, pktNs := 0, shedLatch := false,
    lostLatch := false, unknownLatch := false, concealedNow := false, staleNow := false, lateNow := false,
    received := false, probeLast := none, probeNext := [], second := 0, changes := 0, unreported := 0, probePipe := 0 }

/-- The entry of a source. -/
def entryOf (s : State) (k : Nat) : Entry := mapGetD s.ledger.entries k freeEntry

/-- An entry written. -/
def setEntry (k : Nat) (e : Entry) (s : State) : State := s.modLedger fun l => { l with entries := mapPut l.entries k e }

/-- The verdict of a state (R29): CONCEALED is live unless the source's policy scorches it; an internal source is always
live. -/
def verdictOf (e : Entry) : Bool :=
  match e.kind with
  | .free => false
  | .internal => true
  | _ =>
    match e.state with
    | .live | .late => true
    | .concealed => !e.concealScorch
    | _ => false

/-- Place of a state in the order of R113; LIVE is last. -/
def SrcState.rank : SrcState → Nat
  | .withdrawn => 1 | .test => 2 | .shed => 3 | .lost => 4 | .unknown => 5 | .frozen => 6 | .concealed => 7 | .stale => 8
  | .late => 9 | .live => 10

/-- The FROZEN condition of R113; the probe and the heartbeat apply to NETWORK sources (R123, R125). -/
def frozenNow (e : Entry) : Bool :=
  e.rxFrozen || (e.kind == .network && (e.freezeK ≤ e.sadRepeat || e.freezeK ≤ e.hbRepeat))

/-- The first row of R113 whose condition holds, for a NETWORK, HOST_FED or DERIVED source. -/
def ownState (e : Entry) : SrcState :=
  if e.withdrawn then .withdrawn
  else if e.cmdTest || e.rxTest then .test
  else if e.shedLatch then .shed
  else if e.lostLatch then .lost
  else if e.unknownLatch then .unknown
  else if frozenNow e then .frozen
  else if e.concealedNow then .concealed
  else if e.staleNow then .stale
  else if e.lateNow then .late
  else .live

/-- What a DERIVED source takes from its parent (R114). -/
def takesFromParent : SrcState → Bool
  | .withdrawn | .test | .shed | .lost | .frozen | .concealed => true
  | _ => false

/-- The state of an entry (R113 to R115), with the entry of its parent for a DERIVED source. -/
def stateOf (e parent : Entry) : SrcState :=
  match e.kind with
  | .free => .unknown
  | .internal => .live
  | .test => .test
  | .derived => if takesFromParent parent.state && parent.state.rank < (ownState e).rank then parent.state else ownState e
  | _ => ownState e

/-! ## Verdict updates and state changes (R116, R128, R131) -/

/-- A verdict update to every Tailstock that holds a bitmap of this main section (R128, R129): the sequence number of each
bitmap advances. -/
def sendVerdict (k : Nat) (live : Bool) (s : State) : State :=
  let q := (s.ledger.seqOwn + 1) % 65536
  let s := s.modLedger fun l => { l with seqOwn := q }
  let s := emit (.verdict .toTailstock q [(k, live)]) s
  if s.cascade.twinUp then
    let q := (s.ledger.seqTwin + 1) % 65536
    let s := s.modLedger fun l => { l with seqTwin := q }
    emit (.verdict .twin q [(k, live)]) s
  else s

/-- LEDGER_STATE carries old and new state, cause, origin, uncertainty, receipt time and the count not reported (R131). -/
def raiseState (k : Nat) (old : SrcState) (e : Entry) (n : Nat) (s : State) : State :=
  raise 0x0480 .source k
    [it 1 old.value, it 1 e.state.value, it 1 e.cause.value, (8, e.originNs), it 8 e.uSrcNs, it 8 e.rxNs, it 4 n] s

/-- An entry written with its state evaluated again: a change takes effect now, with its cause, its event (the first 16 of
a second, and before the first of a later second what an earlier one left unreported), its verdict update and the overlay runs it
makes due (R112, R116, R128, R131, R262). -/
def writeEntry (k : Nat) (e : Entry) (cause : Cause) (s : State) : State :=
  let old := entryOf s k
  let st := stateOf e (entryOf s e.parent)
  if st = old.state then
    let e := { e with state := st, cause := old.cause, stateNs := old.stateNs }
    let s := setEntry k e s
    if verdictOf e = verdictOf old then s else sendVerdict k (verdictOf e) s
  else
    let sec := s.time.wall / 1000000000
    let fresh := old.second != sec
    let s := if fresh && 0 < old.unreported then raiseState k old.state old old.unreported s else s
    let changes := if fresh then 1 else old.changes + 1
    let report := changes ≤ 16
    let e := { e with state := st, cause := cause, stateNs := s.time.wall, second := sec, changes := changes,
                      unreported := if fresh then 0 else if report then old.unreported else old.unreported + 1 }
    let s := setEntry k e s
    let s := if report then raiseState k old.state e 0 s else s
    let s := if verdictOf e = verdictOf old then s else sendVerdict k (verdictOf e) s
    onSourceState k st s

/-- The DERIVED sources of a parent. -/
def childrenOf (s : State) (k : Nat) : List Nat :=
  (s.ledger.entries.filter fun p => p.2.kind = .derived && p.2.parent = k).map Prod.fst

/-- The DERIVED sources of a parent follow it (R114). -/
def refreshChildren (k : Nat) (s : State) : State :=
  let scorch := (entryOf s k).concealScorch
  (childrenOf s k).foldl (fun s c => writeEntry c { entryOf s c with concealScorch := scorch } .parent s) s

/-- An entry changed, then its children. -/
def changeEntry (k : Nat) (e : Entry) (cause : Cause) (s : State) : State :=
  refreshChildren k (writeEntry k e cause s)

/-! ## Time-based conditions (R111 to R113) -/

/-- age_l exceeds stale_ms (R111, R113); every bound is exceeded while u is unbounded. -/
def staleCond (s : State) (e : Entry) : Bool :=
  e.received &&
  match uE6 s with
  | none => true
  | some u => (e.staleMs : Int) * 1000000000000 < ((s.time.wall : Int) - e.originNs + e.uSrcNs) * 1000000 + u

/-- t − rx_ns exceeds twice expect_us (R113). -/
def lateCond (s : State) (e : Entry) : Bool := e.received && 2 * e.expectUs * 1000 + e.rxNs < s.time.wall

/-- No packet for loss_ms, measured from pkt_ns (R113). -/
def lossCond (s : State) (e : Entry) : Bool := e.kind == .network && e.pktNs + e.lossMs * 1000000 ≤ s.time.wall

/-! ## Shedding (R126, R127) -/

/-- The module decodes the source, or probes it: its probe is enabled and neither static flag keeps it from running (R123, R126). -/
def decodesOrProbes (s : State) (k : Nat) (e : Entry) : Bool :=
  mapHas s.decode.attached k || (e.probeEn && !e.staticDesign && !e.elementStatic)

/-- A ladder step in force sheds the class (R126). -/
def classShed (s : State) (cls : Nat) : Bool :=
  match cls with
  | 1 => 5 ≤ s.mgmt.step
  | 2 => 4 ≤ s.mgmt.step
  | 3 => 3 ≤ s.mgmt.step
  | _ => false

/-- A ladder step in force sheds a NETWORK source with the given entry (R126). -/
def shedNow (s : State) (k : Nat) (e : Entry) : Bool :=
  e.kind == .network && classShed s e.cls && (e.cls != 3 || decodesOrProbes s k e)

/-- Every source that a step in force sheds enters SHED (R113, R126). -/
def shedAll (s : State) : State :=
  s.ledger.entries.foldl (fun s p =>
    if shedNow s p.1 p.2 && !(entryOf s p.1).shedLatch then changeEntry p.1 { entryOf s p.1 with shedLatch := true } .shed s
    else s) s

/-- A source whose class a step in force sheds is set SHED at once (R127). -/
def shedOne (k : Nat) (s : State) : State :=
  let e := entryOf s k
  if shedNow s k e then changeEntry k { e with shedLatch := true } .shed s else s

/-! ## Receipts (R111, R119, R120) -/

/-- What a receipt brings besides its origin. -/
structure ReceiptFlags where
  (test frozen concealed : Bool)
  (element : Option Element)
deriving DecidableEq, Repr, Inhabited

/-- The cause a receipt records for the state it leads to (R116). -/
def receiptCause (old : SrcState) (e : Entry) (new : SrcState) : Cause :=
  match new with
  | .test => .elementTest
  | .frozen => if e.freezeK ≤ e.hbRepeat && e.kind == .network then .heartbeat else if e.rxFrozen then .selfReported else .probe
  | .concealed => .concealedPicture
  | _ => if old = .shed then .restore else .receipt

/-- The heartbeat and the flags of a valid element taken with a receipt (R119). -/
def withElement (e : Entry) (x : Element) : Entry :=
  { e with
    elementStatic := x.staticDesign, rxFrozen := x.frozen, rxTest := x.test,
    hbRepeat := if x.heartbeat = e.hbSeq then (if e.hbRepeat < 255 then e.hbRepeat + 1 else 255) else 0,
    hbSeq := x.heartbeat }

/-- The entry after a receipt: origin and receipt time set, latched conditions ended, SHED only once its step is restored, and time-based
ones evaluated (R111, R113). -/
def received (s : State) (o : Origin) (f : ReceiptFlags) (e : Entry) : Entry :=
  let e := match f.element with
    | some x => withElement e x
    | none => { e with rxTest := f.test, rxFrozen := f.frozen }
  let e := { e with
    originNs := o.ns, uSrcNs := o.uNs, rxNs := s.time.wall, lostLatch := false, unknownLatch := false,
    shedLatch := e.shedLatch && classShed s e.cls, concealedNow := f.concealed, lateNow := false, received := true }
  { e with staleNow := staleCond s e }

/-- A receipt of a source (R111). -/
def receipt (k : Nat) (o : Origin) (f : ReceiptFlags) (s : State) : State :=
  let old := entryOf s k
  let e := received s o f old
  changeEntry k e (receiptCause old.state e (stateOf e (entryOf s e.parent))) s

/-! ## Freeze probe (R123, R124) -/

/-- Declared figures of a source's open stream: width, height, rate as a quotient; none without such figures (R124). -/
def probeFigures (s : State) (k : Nat) : Option (Nat × Nat × Nat × Nat) :=
  match mapGet s.ingest.streams k with
  | none => none
  | some x =>
    if x.params.media = 0 then some (x.params.width, x.params.height, x.params.rateNum, x.params.rateDen)
    else (mapGet s.decode.attached k).map fun a => (a.body.maxWidth, a.body.maxHeight, a.body.maxRateMhz, 1000)

/-- Probe load of a source in px/s (R124). -/
def probeLoad (s : State) (k : Nat) : Rat :=
  match probeFigures s k with
  | none => 0
  | some (w, h, n, d) => ((w / 4 * (h / 4) * n : Nat) : Rat) / d

/-- The encode load of a session in px/s, which is its return load as well (R223, R231). -/
def sessionLoad (x : Session) : Rat :=
  if x.body.divisor = 0 || x.rateDen = 0 then 0 else (x.width * x.height * x.rateNum : Nat) / (x.rateDen * x.body.divisor : Nat)

/-- Encode load of a pipeline. -/
def encPipeLoad (s : State) (pipe : Nat) : Rat :=
  ((mapVals s.record.sessions).filter fun x => x.pipe = pipe).foldl (fun t x => t + sessionLoad x) 0

/-- The pipeline with the lower combined load of probes and recording, ENC0 when the loads are equal (R241). -/
def probePlace (s : State) : Nat :=
  let load (pipe : Nat) : Rat :=
    ((s.ledger.entries.filter fun p => p.2.probeEn && p.2.probePipe = pipe).map fun p => probeLoad s p.1).foldl (· + ·) 0
      + encPipeLoad s pipe
  if load 0 ≤ load 1 then 0 else 1

/-- The two probe figures hold for the given entries (R124). -/
def probeFits (s : State) (entries : Map Entry) : Bool :=
  let l := entries.filter fun p => p.2.probeEn
  decide (((l.filter fun p => p.2.cls = 0).map fun p => probeLoad s p.1).foldl (· + ·) 0 ≤ (Config.probeClass0 : Rat))
    && decide ((l.map fun p => probeLoad s p.1).foldl (· + ·) 0 ≤ (Config.probeAll : Rat))

/-- PROBE_STATE: running or stopped, and cause (0 command, 1 shed, 2 restore, 3 size change, 4 capacity). -/
def raiseProbe (k : Nat) (running : Bool) (cause : Nat) (s : State) : State :=
  raise 0x0484 .source k [it 1 (flag running), it 1 cause] s

/-- A source enters UNKNOWN at an open or an attach, and in the same change SHED where a step in force sheds its class (R113, R127); one whose
declared figures break those of R124 has its probe cleared, with PROBE_STATE. -/
def enterUnknown (k : Nat) (e : Entry) (s : State) : State :=
  let unfit := e.probeEn && !probeFits s (mapPut s.ledger.entries k e)
  let e := { e with unknownLatch := true, withdrawn := false, concealedNow := false, probeEn := e.probeEn && !unfit }
  let shed := shedNow s k e
  let s := changeEntry k { e with shedLatch := e.shedLatch || shed } (if shed then .shed else .command) s
  if unfit then raiseProbe k false 4 s else s

/-- The mean of a 4 × 4 block, rounded down (R123). -/
def blockMean (px : Nat → Nat → Nat) (bx by_ : Nat) : Nat :=
  sumN ((List.range 16).map fun i => px (4 * bx + i % 4) (4 * by_ + i / 4)) / 16

/-- A picture decimated; partial blocks are not used (R123). -/
def decimate (w h : Nat) (concealed : Bool) (px : Nat → Nat → Nat) : ProbePic :=
  { width := w, height := h, concealed := concealed,
    samples := (List.range (w / 4 * (h / 4))).map fun i => blockMean px (i % (w / 4)) (i / (w / 4)) }

/-- Sum of absolute differences (R123). -/
def sad (a b : List Nat) : Nat := sumN ((a.zip b).map fun p => p.1 - p.2 + (p.2 - p.1))

/-- The probe runs for the source (R123), and its class is not shed. -/
def probes (s : State) (k : Nat) : Bool :=
  let e := entryOf s k
  e.kind == .network && e.probeEn && !e.staticDesign && !e.elementStatic && !shedNow s k e

/-- PROBE_STATE for a probe that a command stops or starts: the cause is the shedding of the class where that decides
(R126, R242). -/
def probeByCommand (k : Nat) (before shedBefore : Bool) (s : State) : State :=
  let after := probes s k
  if after = before then s
  else raiseProbe k after (if after then (if shedBefore then 2 else 0) else if shedNow s k (entryOf s k) then 1 else 0) s

/-- The receipt of a DERIVED source that an element's records give it, if any: the first record of its field governs, and
one whose age is unknown gives none (R120). -/
def fieldReceipt (s : State) (raw : Origin) (fields : List FieldRec) (e : Entry) : Option Entry :=
  match fields.find? fun r => r.fieldId = e.field with
  | none => none
  | some r =>
    if r.ageUnknown then none
    else
      some (received s ⟨raw.ns - r.dataAgeUs * 1000, raw.uNs + r.ageUMs * 1000000⟩
        { test := r.test, frozen := r.frozen, concealed := false, element := none } e)

/-- A DERIVED source follows its parent and takes its own receipt at the same instant: one evaluation gives its state, with
the cause PARENT where it takes its parent's (R113, R114, R116). -/
def followParent (parent : Nat) (raw : Origin) (fields : List FieldRec) (s : State) (c : Nat) : State :=
  let p := entryOf s parent
  let old := { entryOf s c with concealScorch := p.concealScorch }
  match fieldReceipt s raw fields old with
  | none => writeEntry c old .parent s
  | some e =>
    writeEntry c e (if stateOf e p = ownState e then receiptCause old.state e (ownState e) else .parent) s

/-- PROBE_STATE for a probe that stops or resumes as an element sets or clears static-by-design: the manual lists no cause
for it, which is a free value (R123, R242). -/
def probeByElement (k : Nat) (before : Bool) (s : State) : State :=
  if probes s k = before then s
  else
    let r := draw s
    raiseProbe k (!before) (r.1 % 5) r.2

/-- A receipt of a NETWORK source and of its fields, applied together: `raw` is the origin of R69 before the element moves
it (R113, R119, R120). -/
def networkReceipt (k : Nat) (o raw : Origin) (x : Option Element) (concealed : Bool) (s : State) : State :=
  let before := probes s k
  let old := entryOf s k
  let e := received s o { test := false, frozen := false, concealed := concealed, element := x } old
  let s := writeEntry k e (receiptCause old.state e (stateOf e (entryOf s e.parent))) s
  let fields := (x.map Element.fields).getD []
  probeByElement k before ((childrenOf s k).foldl (followParent k raw fields) s)

/-- A frame delivered starts a comparison with the previous frame delivered; a probe that shedding stops keeps the last frame
probed, one stopped otherwise keeps none (R123, R242). -/
def probeFrame (k w h : Nat) (concealed : Bool) (px : Nat → Nat → Nat) (s : State) : State :=
  let e := entryOf s k
  if probes s k then setEntry k { e with probeNext := e.probeNext ++ [decimate w h concealed px] } s
  else if !shedNow s k e && (e.probeLast.isSome || !e.probeNext.isEmpty) then
    setEntry k { e with probeLast := none, probeNext := [] } s
  else s

/-- The comparison of two decimated pictures: sad_repeat after it (R123). -/
def compareProbe (e : Entry) (a b : ProbePic) : Nat :=
  if a.width != b.width || a.height != b.height then 0
  else if a.concealed || b.concealed then e.sadRepeat
  else if sad a.samples b.samples ≤ e.freezeSad then (if e.sadRepeat < 255 then e.sadRepeat + 1 else 255)
  else 0

/-- PROBE_COMPARE_DONE (R123): the oldest comparison under way completes; a self-test of its pipeline skips it (R247). -/
def execProbeCompareDone (k : Nat) (s : State) : Host.Outcome State Fault Refusal :=
  .next
    (let e := entryOf s k
     match e.probeNext with
     | [] => s
     | n :: rest =>
       match e.probeLast with
       | none => setEntry k { e with probeLast := some n, probeNext := rest } s
       | some l =>
         if mapHas s.record.tests e.probePipe then setEntry k { e with probeLast := some n, probeNext := rest } s else
         let resized := l.width != n.width || l.height != n.height
         let s := changeEntry k { e with probeLast := some n, probeNext := rest, sadRepeat := compareProbe e l n } .probe s
         if resized then raiseProbe k true 3 s else s)

/-! ## Timers -/

/-- LATE_TIMER (R113): the condition found to hold. -/
def execLateTimer (k : Nat) (s : State) : Host.Outcome State Fault Refusal :=
  .next (let e := entryOf s k
         if lateCond s e then changeEntry k { e with lateNow := true } .lateTimer s else s)

/-- STALE_TIMER (R113): the condition evaluated; the source enters or leaves STALE. -/
def execStaleTimer (k : Nat) (s : State) : Host.Outcome State Fault Refusal :=
  .next (let e := entryOf s k
         if e.received then changeEntry k { e with staleNow := staleCond s e } .staleTimer s else s)

/-- LOSS_TIMER (R113). -/
def execLossTimer (k : Nat) (s : State) : Host.Outcome State Fault Refusal :=
  .next (let e := entryOf s k
         if lossCond s e then changeEntry k { e with lostLatch := true } .lossTimer s else s)

/-- LEDGER_STATE_SUMMARY (R131): at the end of a second with more than 16 changes. -/
def execLedgerStateSummary (k : Nat) (s : State) : Host.Outcome State Fault Refusal :=
  .next (let e := entryOf s k
         if 0 < e.unreported && e.second < s.time.wall / 1000000000 then
           raiseState k e.state e e.unreported (setEntry k { e with unreported := 0 } s)
         else s)

/-- The whole bitmap as a number: bit k is the verdict of source k; the first one sent after a reset has only INTERNAL sources live
(R129, R130). -/
def wholeBitmap (s : State) : Nat :=
  sumN (s.ledger.entries.map fun p =>
    if verdictOf p.2 && (s.ledger.wholeSent || p.2.kind == .internal) then 2 ^ p.1 else 0)

/-- WHOLE_BITMAP_SEND (R129): to the own Tailstock, and over the twin link. -/
def execWholeBitmapSend (s : State) : Host.Outcome State Fault Refusal :=
  .next
    (if mainUp s then
      let b := BitVec.ofNat 8192 (wholeBitmap s)
      let s := emit (.wholeBitmap .toTailstock s.ledger.seqOwn b) (s.modLedger fun l => { l with wholeSent := true })
      if s.cascade.twinUp then emit (.wholeBitmap .twin s.ledger.seqTwin b) s else s
    else s)

/-! ## Commands -/

/-- The value of a kind (R108). -/
def kindOfValue : Nat → Kind
  | 1 => .network | 2 => .hostFed | 3 => .internal | 4 => .derived | 5 => .test | _ => .free

/-- The ranges of the define and set descriptor, by kind. -/
def ledgerFieldsOk (b : LedgerBody) : Bool :=
  let timed := b.kind = 1 || b.kind = 2 || b.kind = 4
  b.source < Config.sources && b.cls ≤ 3 && (timed || b.cls = 0)
    && (if timed then 1000 ≤ b.expectUs && b.expectUs ≤ 60000000 else b.expectUs = 0)
    && (if b.kind = 1 then 100 ≤ b.lossMs && b.lossMs ≤ 60000 else b.lossMs = 0)
    && (if timed then 1 ≤ b.staleMs && b.staleMs ≤ 60000 else b.staleMs = 0)
    && (if b.kind = 4 then b.parent < Config.sources && b.field ≤ 254 else b.parent = 0 && b.field = 0)
    && (b.kind = 1 || !b.staticDesign)

/-- The checks of LEDGER_DEFINE; 0 when none fails. -/
def ledgerDefineCheck (b : LedgerBody) (s : State) : Nat :=
  if !(2 ≤ b.kind && b.kind ≤ 5 && ledgerFieldsOk b) then 0x0140
  else if (entryOf s b.source).kind != .free then 0x0340
  else if b.kind = 4 && (entryOf s b.parent).kind != .network then 0x0341
  else 0

/-- A FREE entry that keeps what its source's state changes have left: the cause and instant of the last one, and the counts of R131. -/
def freedEntry (old : Entry) : Entry :=
  { freeEntry with cause := old.cause, stateNs := old.stateNs, second := old.second, changes := old.changes, unreported := old.unreported }

/-- The entry that LEDGER_DEFINE creates of a FREE one (R108, R113): UNKNOWN until its first receipt. -/
def definedEntry (b : LedgerBody) (old : Entry) : Entry :=
  { freedEntry old with
    kind := kindOfValue b.kind, cls := b.cls, expectUs := b.expectUs, staleMs := b.staleMs, parent := b.parent,
    field := b.field, unknownLatch := true }

/-- LEDGER_DEFINE (R108). -/
def ledgerDefineBody (b : LedgerBody) (tk : Ticket) (s : State) : State :=
  let e := ledgerDefineCheck b s
  if e != 0 then complete tk e [] s
  else
    complete tk 0 []
      (writeEntry b.source { definedEntry b (entryOf s b.source) with concealScorch := b.kind = 4 && (entryOf s b.parent).concealScorch } .command s)

/-- LEDGER_DEFINE (R108). -/
def execLedgerDefine (d : Desc) (b : LedgerBody) (s : State) : Host.Outcome State Fault Refusal :=
  .next (onTake d (.ledgerDefine b) (ledgerDefineBody b) s)

/-- Luma load of an attachment in samples/s times 1,000 (R81). -/
def lumaLoad (b : AttachBody) : Nat := b.maxWidth * b.maxHeight * b.maxRateMhz

/-- The class-0 luma and bit figures of R82 hold with the given class of each source. -/
def decodeClass0Fits (s : State) (cls : Nat → Nat) : Bool :=
  let l := s.decode.attached.filter fun p => cls p.1 = 0
  sumN (l.map fun p => lumaLoad p.2.body) ≤ Config.moduleLumaClass0 * 1000
    && (List.range 8).all fun i =>
      let q := l.filter fun p => p.2.pipeline = i
      sumN (q.map fun p => lumaLoad p.2.body) ≤ Config.pipeLumaClass0 * 1000
        && sumN (q.map fun p => p.2.body.maxBitrateKbps) ≤ Config.pipeBitsClass0

/-- The checks of LEDGER_SET (R83, R110, R124); 0 when none fails. -/
def ledgerSetCheck (b : LedgerBody) (s : State) : Nat :=
  let e := entryOf s b.source
  if !(1 ≤ b.kind && b.kind ≤ 5 && ledgerFieldsOk b) then 0x0140
  else if e.kind = .free then 0x0341
  else if e.kind != kindOfValue b.kind then 0x0141
  else if mapHas s.decode.attached b.source && b.cls = 0 && e.cls != 0 &&
    !decodeClass0Fits s (fun k => if k = b.source then 0 else (entryOf s k).cls) then 0x0230
  else if e.probeEn && b.cls != e.cls && !probeFits s (mapPut s.ledger.entries b.source { e with cls := b.cls }) then 0x0240
  else 0

/-- LEDGER_SET (R110, R127): class, intervals and static_design. -/
def ledgerSetBody (b : LedgerBody) (tk : Ticket) (s : State) : State :=
  let c := ledgerSetCheck b s
  if c != 0 then complete tk c [] s
  else
    let e := { entryOf s b.source with
      cls := b.cls, expectUs := b.expectUs, lossMs := b.lossMs, staleMs := b.staleMs, staticDesign := b.staticDesign }
    let changed := (entryOf s b.source).staticDesign != b.staticDesign
    let before := probes s b.source
    let shedBefore := shedNow s b.source (entryOf s b.source)
    let s := probeByCommand b.source before shedBefore (shedOne b.source (changeEntry b.source e .command s))
    complete tk 0 [] (if changed then rewriteStatic b.source b.staticDesign s else s)

/-- LEDGER_SET (R110). -/
def execLedgerSet (d : Desc) (b : LedgerBody) (s : State) : Host.Outcome State Fault Refusal :=
  .next (onTake d (.ledgerSet b) (ledgerSetBody b) s)

/-- The checks of LEDGER_DELETE: out of range, FREE, or in use by a stream, a pipeline, a child or a window. -/
def ledgerDeleteCheck (k : Nat) (s : State) : Nat :=
  if Config.sources ≤ k then 0x0140
  else if (entryOf s k).kind = .free then 0x0341
  else if mapHas s.ingest.streams k || mapHas s.decode.attached k || !(childrenOf s k).isEmpty || sourceBound s k then 0x0342
  else 0

/-- LEDGER_DELETE returns the entry to FREE (R110), the change to UNKNOWN recorded with its cause (R116). -/
def ledgerDeleteBody (k : Nat) (tk : Ticket) (s : State) : State :=
  let c := ledgerDeleteCheck k s
  if c != 0 then complete tk c [] s
  else complete tk 0 [] (writeEntry k (freedEntry (entryOf s k)) .command s)

/-- LEDGER_DELETE (R110). -/
def execLedgerDelete (d : Desc) (k : Nat) (s : State) : Host.Outcome State Fault Refusal :=
  .next (onTake d (.ledgerDelete k) (ledgerDeleteBody k) s)

/-- A command for a NETWORK, HOST_FED or DERIVED source: 0 when it applies (R115). -/
def stateCommandCheck (k : Nat) (s : State) : Nat :=
  if Config.sources ≤ k then 0x0140
  else
    match (entryOf s k).kind with
    | .free => 0x0341
    | .internal | .test => 0x0141
    | _ => 0

/-- LEDGER_WITHDRAW (R113): the end of a WITHDRAWN condition leaves the source UNKNOWN. -/
def ledgerWithdrawBody (k : Nat) (on : Bool) (tk : Ticket) (s : State) : State :=
  let c := stateCommandCheck k s
  if c != 0 then complete tk c [] s
  else
    let e := entryOf s k
    complete tk 0 []
      (changeEntry k { e with withdrawn := on, unknownLatch := e.unknownLatch || (e.withdrawn && !on) } .command s)

/-- LEDGER_WITHDRAW (R113). -/
def execLedgerWithdraw (d : Desc) (k : Nat) (on : Bool) (s : State) : Host.Outcome State Fault Refusal :=
  .next (onTake d (.ledgerWithdraw k on) (ledgerWithdrawBody k on) s)

/-- LEDGER_TEST sets or clears cmd_test (R113). -/
def ledgerTestBody (k : Nat) (on : Bool) (tk : Ticket) (s : State) : State :=
  let c := stateCommandCheck k s
  if c != 0 then complete tk c [] s
  else complete tk 0 [] (changeEntry k { entryOf s k with cmdTest := on } .command s)

/-- LEDGER_TEST (R113). -/
def execLedgerTest (d : Desc) (k : Nat) (on : Bool) (s : State) : Host.Outcome State Fault Refusal :=
  .next (onTake d (.ledgerTest k on) (ledgerTestBody k on) s)

/-- The first check of R121 that fails: its cause (1 KIND, 2 PARAM, 3 NO_TIME, 4 AHEAD, 5 REGRESSED) and status; none when
the vouch is accepted. -/
def vouchCheck (b : VouchBody) (s : State) : Option (Nat × Nat) :=
  let e := entryOf s b.source
  if Config.sources ≤ b.source then some (2, 0x0140)
  else if e.kind = .free then some (1, 0x0341)
  else if e.kind != .hostFed then some (1, 0x0141)
  else if b.asOfNs < b.uNs then some (2, 0x0140)
  else if !uBounded s then some (3, 0x0343)
  else if s.time.wall < b.asOfNs - b.uNs then some (4, 0x0143)
  else if ((b.asOfNs : Int) - b.uNs) < e.originNs - e.uSrcNs then some (5, 0x0144)
  else none

/-- One vouch applied (R121): a receipt, or VOUCH_REJECTED with its cause; its status. -/
def applyVouch (b : VouchBody) (s : State) : Nat × State :=
  match vouchCheck b s with
  | some (cause, st) => (st, raise 0x0481 .source b.source [it 1 cause, it 8 b.asOfNs] s)
  | none =>
    (0, receipt b.source ⟨b.asOfNs, b.uNs⟩ { test := b.test, frozen := b.frozen, concealed := false, element := none } s)

/-- LEDGER_VOUCH (R121). -/
def ledgerVouchBody (b : VouchBody) (tk : Ticket) (s : State) : State :=
  let r := applyVouch b s
  complete tk r.1 [] r.2

/-- LEDGER_VOUCH (R121). -/
def execLedgerVouch (d : Desc) (b : VouchBody) (s : State) : Host.Outcome State Fault Refusal :=
  .next (onTake d (.ledgerVouch b) (ledgerVouchBody b) s)

/-- A batch applied in array order: records accepted, refused, the first refusal's status (R122). -/
def applyVouches : List VouchBody → Nat × Nat × Nat → State → (Nat × Nat × Nat) × State
  | [], acc, s => (acc, s)
  | b :: t, (ok, bad, st), s =>
    let r := applyVouch b s
    applyVouches t (if r.1 = 0 then (ok + 1, bad, st) else (ok, bad + 1, if st = 0 then r.1 else st)) r.2

/-- LEDGER_VOUCH_BATCH (R122): the result holds the counts accepted and refused. -/
def ledgerVouchBatchBody (count : Nat) (l : List VouchBody) (tk : Ticket) (s : State) : State :=
  if count = 0 || 1024 < count || l.length != count then complete tk 0x0140 [] s
  else if tk.dmaOk then
    let r := applyVouches l (0, 0, 0) s
    complete tk (if r.1.1 = 0 then r.1.2.2 else 0) [it 4 r.1.1, it 4 r.1.2.1] r.2
  else complete tk 0x0500 [] s

/-- LEDGER_VOUCH_BATCH (R122). -/
def execLedgerVouchBatch (d : Desc) (count : Nat) (l : List VouchBody) (s : State) : Host.Outcome State Fault Refusal :=
  .next (onTake d (.ledgerVouchBatch count l) (ledgerVouchBatchBody count l) s)

/-- The checks of LEDGER_PROBE (R124); 0 when none fails. -/
def ledgerProbeCheck (k enable freezeK freezeSad : Nat) (s : State) : Nat :=
  let e := entryOf s k
  if Config.sources ≤ k || 1 < enable || freezeK < 2 || 255 < freezeK || 4294967295 < freezeSad then 0x0140
  else if e.kind = .free then 0x0341
  else if e.kind != .network then 0x0141
  else if enable = 1 && (e.staticDesign || e.elementStatic) then 0x0142
  else if enable = 1 && !probeFits s (mapPut s.ledger.entries k { e with probeEn := true }) then 0x0240
  else 0

/-- LEDGER_PROBE sets probe_en, freeze_k and freeze_sad (R123, R124). -/
def ledgerProbeBody (k enable freezeK freezeSad : Nat) (tk : Ticket) (s : State) : State :=
  let c := ledgerProbeCheck k enable freezeK freezeSad s
  if c != 0 then complete tk c [] s
  else
    let e := entryOf s k
    let before := probes s k
    let pipe := if enable = 1 && !e.probeEn then probePlace s else e.probePipe
    let s := changeEntry k { e with probeEn := enable = 1, freezeK := freezeK, freezeSad := freezeSad, probePipe := pipe } .command s
    complete tk 0 [] (probeByCommand k before false (shedOne k s))

/-- LEDGER_PROBE (R124). -/
def execLedgerProbe (d : Desc) (k enable freezeK freezeSad : Nat) (s : State) : Host.Outcome State Fault Refusal :=
  .next (onTake d (.ledgerProbe k enable freezeK freezeSad) (ledgerProbeBody k enable freezeK freezeSad) s)

/-- A ledger entry in the layout of R109. -/
def entryItems (s : State) (k : Nat) : Items :=
  let e := entryOf s k
  [it 1 e.kind.value, it 1 e.state.value, it 1 (e.cls + e.cause.value * 16),
   it 1 (flag e.staticDesign + flag e.elementStatic * 2 + flag e.probeEn * 4 + flag e.concealScorch * 8 + flag e.cmdTest * 16
     + flag e.rxTest * 32 + flag e.rxFrozen * 64 + flag e.withdrawn * 128),
   it 2 e.parent, it 1 e.field, it 1 e.freezeK, (8, e.originNs), it 4 e.uSrcNs, it 4 e.expectUs, it 2 e.lossMs,
   it 2 e.staleMs, it 4 e.freezeSad, it 8 e.rxNs, it 8 e.stateNs, it 2 e.hbSeq, it 1 e.hbRepeat, it 1 e.sadRepeat,
   it 4 (mapGetD s.queue.seqs (scopeKey .source k) 0), it 8 e.pktNs]

/-- LEDGER_READ copies entries, each a consistent snapshot (R109). -/
def ledgerReadBody (first count : Nat) (tk : Ticket) (s : State) : State :=
  if Config.sources < first + count then complete tk 0x0140 [] s
  else completeWrite tk ((List.range count).flatMap fun i => entryItems s (first + i)) [] s

/-- LEDGER_READ (R109). -/
def execLedgerRead (d : Desc) (first count : Nat) (s : State) : Host.Outcome State Fault Refusal :=
  .next (onTake d (.ledgerRead first count) (ledgerReadBody first count) s)

end Sys2Proof.Machine
end

