-- ==== Sys2Proof/Machine/Time.lean ====
section
/-! DEFINITION. Wall time and the PTP servo (R24 to R27, R56 to R59). -/

namespace Sys2Proof.Machine

open Sys2Proof

/-- The servo runs: its registers enable it and the main section is up with V_CORE. -/
def servoRuns (s : State) : Bool := s.time.ptpEnable && mainUp s && !s.mgmt.vcoreRemoved

/-- The servo changes state, with PTP_STATE carrying u (R57); on leaving ACQUIRING the pending estimate is discarded, and only
LOCKED slews (R57, R58). -/
def setServo (new : Servo) (port : Nat) (s : State) : State :=
  if s.time.servo = new then s
  else
    let old := s.time.servo
    let u := uItem s
    let s := s.modTime fun t =>
      { t with
        servo := new, fromHoldover := if new = .acquiring then old == .holdover else t.fromHoldover,
        fit := [], inThreshold := 0, lastMeasuredNs := none, slewE12 := if new = .locked then t.slewE12 else 0 }
    raise 0x0281 .port port [it 1 old.value, it 1 new.value, it 8 u] s

/-- Where the servo goes when it loses its grandmaster (R57). -/
def servoFallback (s : State) : Servo :=
  match s.time.servo with
  | .locked => .holdover
  | .acquiring => if s.time.fromHoldover then .holdover else .unknown
  | x => x

/-! ## The best master clock algorithm (R56) -/

/-- One list of numbers before another, in dictionary order. -/
def lexBefore : List Nat → List Nat → Bool
  | x :: xs, y :: ys => x < y || (x = y && lexBefore xs ys)
  | _, _ => false

/-- The data set comparison of IEEE 1588-2019 between two Announces, `a` before `b`: of two grandmasters by their attributes, of one
grandmaster by its topology: steps removed, then the sender's identity, then the receiving port. PRESUMED: the cited standard's
comparison; the rule names the algorithm only. -/
def betterMaster (a b : Announce) : Bool :=
  if a.gmId = b.gmId then lexBefore [a.stepsRemoved, a.sender, a.port] [b.stepsRemoved, b.sender, b.port]
  else
    let key (x : Announce) : List Nat := [x.priority1, x.clockClass, x.accuracy, x.variance, x.priority2, x.gmId]
    lexBefore (key a) (key b)

/-- The best of some Announces. -/
def bestMaster : List Announce → Option Announce
  | [] => none
  | a :: t =>
    match bestMaster t with
    | none => some a
    | some b => if betterMaster b a then some b else some a

/-- The same master heard on the same port. -/
def sameMaster (a b : Announce) : Bool := a.port = b.port && a.sender = b.sender

/-- A master is qualified: the one selected, until its receipt timeout, or one of which two Announces came within four Announce intervals before now. PRESUMED: FOREIGN_MASTER_THRESHOLD and
FOREIGN_MASTER_TIME_WINDOW of IEEE 1588. -/
def qualified (s : State) (f : Foreign) : Bool :=
  (s.time.gm.map fun g => sameMaster f.announce g).getD false
    || 2 ≤ (f.times.filter fun t => s.time.mono ≤ t + 4 * f.announce.intervalMs * 1000000).length

/-- The port takes PTP: enabled in TIME.PTP_CTRL, on a lane 0 that its mode provides (R56). -/
def ptpPort (s : State) (port : Nat) : Bool := bit s.time.ptpPorts port && port < 6 && (ingestLane s port 0).isSome

/-- The master that the algorithm selects of those heard, of which none is further than 254 steps. -/
def selected (s : State) : Option Announce :=
  bestMaster ((s.time.heard.filter fun f => qualified s f && ptpPort s f.announce.port).map Foreign.announce)

/-- An Announce heard: its master's record is brought up to date, and records whose Announces have all left the window go. -/
def hear (a : Announce) (s : State) : State :=
  s.modTime fun t =>
    let old := ((t.heard.find? fun f => sameMaster f.announce a).map Foreign.times).getD []
    let fresh (f : Foreign) : Bool :=
      !sameMaster f.announce a && ((t.gm.map fun g => sameMaster f.announce g).getD false
        || f.times.any fun n => t.mono ≤ n + 4 * f.announce.intervalMs * 1000000)
    { t with heard := { announce := a, times := (t.mono :: old).take 4 } :: t.heard.filter fresh }

/-- The port of the selected grandmaster; 7 for none, as TIME.STATUS.ACTIVE_PORT says it. DESIGN CHOICE: the same 7 is the port scope of
PTP_STATE while no grandmaster is selected, for which the manual gives none. -/
def gmPort (s : State) : Nat := match s.time.gm with
  | some a => a.port
  | none => 7

/-- When the latest Announce of a master came. -/
def lastHeard (g : Announce) (t : TimeSt) : Nat :=
  ((t.heard.find? fun f => sameMaster f.announce g).bind fun f => f.times.head?).getD t.lastAnnounceNs

/-- The grandmaster selected is now `g`, or none: GM_CHANGED tells another identity, 0 standing for none (R77); LOCKED and
ACQUIRING are left (R57, R58). The event's port is the new grandmaster's, or with none the old one's. DESIGN CHOICE: the manual says
neither whether the loss of a grandmaster is such a change nor which port the event then has. -/
def selectMaster (g : Option Announce) (s : State) : State :=
  let old := s.time.gm
  let id (a : Option Announce) : Nat := (a.map Announce.gmId).getD 0
  if old.map Announce.gmId = g.map Announce.gmId then s.modTime fun t => { t with gm := g, lastAnnounceNs := (g.map fun a => lastHeard a t).getD t.lastAnnounceNs }
  else
    let port := ((g.orElse fun _ => old).map Announce.port).getD 7
    let s := s.modTime fun t =>
      { t with gm := g, delayMs := none, lastAnnounceNs := (g.map fun a => lastHeard a t).getD t.lastAnnounceNs }
    let s := raise 0x0282 .port port [it 8 (id old), it 8 (id g)] s
    if old.isSome then setServo (servoFallback s) port s else s

/-- ANNOUNCE_RX (R56, R57): the algorithm selects; an Announce of the selected grandmaster takes UNKNOWN and HOLDOVER to
ACQUIRING, unless its selection has just made the servo leave LOCKED or ACQUIRING. An Announce of 255 or more steps is none
(PRESUMED: IEEE 1588). -/
def execAnnounceRx (a : Announce) (s : State) : Host.Outcome State Fault Refusal :=
  .next
    (if servoRuns s && ptpPort s a.port && a.domain = s.time.ptpDomain && a.stepsRemoved < 255 then
      let before := s.time.servo
      let s := hear a s
      match selected s with
      | none => s
      | some g =>
        let s := selectMaster (some g) s
        if sameMaster g a then
          let s := s.modTime fun t =>
            { t with lastAnnounceNs := t.mono, utcOffset := a.utcOffset, utcValid := t.utcValid || a.utcValid }
          if before = .unknown || before = .holdover then setServo .acquiring g.port s else s
        else s
    else s)

/-- ANNOUNCE_TIMEOUT (R57): announceReceiptTimeout intervals without an Announce of the grandmaster; the algorithm selects among the
others. -/
def execAnnounceTimeout (s : State) : Host.Outcome State Fault Refusal :=
  .next
    (match s.time.gm with
     | none => s
     | some g =>
       let n := if 2 ≤ s.time.announceTimeout && s.time.announceTimeout ≤ 10 then s.time.announceTimeout else 3
       if s.time.lastAnnounceNs + n * g.intervalMs * 1000000 ≤ s.time.mono then
         let s := setServo (servoFallback s) g.port s
         let s := s.modTime fun t => { t with heard := t.heard.filter fun f => !sameMaster f.announce g }
         selectMaster (selected s) s
       else s)

/-- DELAY_REQ_SEND (R56): no sooner after the last one than the interval that the grandmaster's Delay_Resp messages request. -/
def execDelayReqSend (s : State) : Host.Outcome State Fault Refusal :=
  .next
    (let due := match s.time.delayMs, s.time.delayReqNs with
       | some d, some t => decide (t + d * 1000000 ≤ s.time.mono)
       | _, _ => true
     if servoRuns s && (s.time.servo = .acquiring || s.time.servo = .locked) && due then
       emit (.packet (gmPort s) 0 "DELAY_REQ" [(s.time.ptpDomain : Int), s.time.wall])
         (s.modTime fun t => { t with delayReqNs := some t.mono })
     else s)

/-! ## Measurements (R58, R59) -/

/-- The least-squares line through measurements, as numerators of its value at `t` and a common positive denominator: the
value at `t` is `p.1 / p.2` (R58). -/
def fitAt (l : List (Nat × Int)) (t : Int) : Int × Int :=
  match l with
  | [] => (0, 1)
  | (t0, _) :: _ =>
    let n : Int := l.length
    let xs := l.map fun p => ((p.1 : Int) - t0, p.2)
    let st := (xs.map Prod.fst).sum
    let so := (xs.map Prod.snd).sum
    let stt := (xs.map fun p => p.1 * p.1).sum
    let sto := (xs.map fun p => p.1 * p.2).sum
    let d := n * stt - st * st
    if d = 0 then (so, n) else (so * stt - st * sto + (n * sto - st * so) * (t - t0), d)

/-- The frequency error of the fit, in parts per 10¹². -/
def fitSlopeE12 (l : List (Nat × Int)) : Int :=
  match l with
  | [] => 0
  | (t0, _) :: _ =>
    let a := fitAt l t0
    let b := fitAt l (t0 + 1)
    (b.1 - a.1) * 1000000000000 / a.2

/-- The lock threshold in force (TIME.LOCK_THRESH_NS). -/
def lockThreshold (s : State) : Nat :=
  if s.time.lockThresh < 20 then 20 else if 800 < s.time.lockThresh then 800 else s.time.lockThresh

/-- The lock count in force (TIME.PTP_TIMING). -/
def lockCountOf (s : State) : Nat := if s.time.lockCount < 4 then 16 else s.time.lockCount

/-- The residual of a measurement, after the estimate as it stood, lies within the threshold (R58). -/
def residualOk (s : State) (t : Nat) (o : Int) : Bool :=
  2 ≤ s.time.fit.length &&
  let p := fitAt s.time.fit t
  let r := o * p.2 - p.1
  (if r < 0 then -r else r) ≤ lockThreshold s * p.2

/-- The measurement came within 250 ms of the one before: a grandmaster whose Sync interval is longer never brings LOCK_COUNT
consecutive ones together (R59). -/
def inTime (s : State) : Bool := match s.time.lastMeasuredNs with
  | some t => s.time.mono ≤ t + 250000000
  | none => true

/-- The counter stepped by −Δ, u set to 1 µs; a step larger than u raises TIME_BOUND_EXCEEDED (R27, R58). -/
def stepCounter (delta : Int) (s : State) : State :=
  let u := uE6 s
  let told := uItem s
  let s := s.modTime fun t =>
    { t with
      wall := wall64 ((t.wall : Int) - delta), lastStep := some (t.mono, delta), steps := (t.steps + 1) % 4294967296 }
  let s := confirmLock s
  match u with
  | some u => if u < delta.natAbs * 1000000 then raise 0x0280 .port (gmPort s) [(8, delta), it 8 told] s else s
  | none => s

/-- A measurement in ACQUIRING (R58, R59): residual judged, estimate extended, and LOCKED entered after enough of them; the slewing
of LOCKED starts from the frequency error of the estimate. -/
def acquireStep (o : Int) (s : State) : State :=
  let t := s.time.mono
  let n := if residualOk s t o && inTime s then s.time.inThreshold + 1 else 0
  let fit := ((t, o) :: s.time.fit).take 64
  let s := s.modTime fun x => { x with fit := fit, inThreshold := n, lastMeasuredNs := some t }
  if lockCountOf s ≤ n then
    let p := fitAt fit t
    let r := fitSlopeE12 fit
    let s := stepCounter (p.1 / p.2) s
    setServo .locked (gmPort s) (s.modTime fun x => { x with freqE12 := r, slewE12 := r, slewPart := 0, lastGoodNs := x.mono })
  else s

/-- The rate at which a counter that is `o` ns ahead is slewed: that of the estimate, and what takes the offset back over a time
that the manual does not say (R58). -/
def slewRate (o : Int) (s : State) : State :=
  let r := draw s
  r.2.modTime fun t => { t with slewE12 := t.freqE12 + o * 1000000000000 / (r.1 + 1) }

/-- A measurement in LOCKED: the counter is slewed towards the grandmaster (R58). -/
def steerStep (o : Int) (s : State) : State :=
  let s := slewRate o s
  s.modTime fun t =>
    { t with lastMeasuredNs := some t.mono, lastGoodNs := if o.natAbs ≤ lockThreshold s then t.mono else t.lastGoodNs }

/-- The counter is slewed now: by the own servo in LOCKED, or by the twin's while the own main section does not run and its
confirmations come (R24, R58). -/
def slewing (s : State) : Bool :=
  if mainUp s && !s.mgmt.vcoreRemoved then s.time.servo = .locked
  else match s.time.tRef with
    | some r => s.time.mono ≤ r + 1000000
    | none => false

/-- One nanosecond of the counter: 1 ns, less what the slewing has come to (R58). -/
def advanceWall (s : State) : State :=
  let part := s.time.slewPart + (if slewing s then s.time.slewE12 else 0)
  s.modTime fun t =>
    { t with wall := wall64 ((t.wall : Int) + 1 - part / 1000000000000), slewPart := part % 1000000000000 }

/-- OFFSET_MEASUREMENT (R58): half of what the two paths differ by. -/
def execOffsetMeasurement (port t1 t2 t3 : Nat) (r : DelayResp) (s : State) : Host.Outcome State Fault Refusal :=
  .next
    (if servoRuns s && gmPort s = port then
      let o : Int := (((t2 : Int) - t1) - ((r.t4 : Int) - t3)) / 2
      let s := s.modTime fun t => { t with delayMs := some r.delayMs }
      match s.time.servo with
      | .acquiring => acquireStep o (s.modTime fun t => { t with offset := o })
      | .locked => steerStep o (s.modTime fun t => { t with offset := o })
      | _ => s
    else s)

/-- The twin's main section disciplines the counter over the twin link, while the own one does not run (R24). -/
def twinDisciplines (s : State) : Bool := (!mainUp s || s.mgmt.vcoreRemoved) && s.cascade.twinUp && s.ts.powered

/-- A confirmation by the twin's servo, with the offset of this counter as it measured it: after a time without one the counter is
stepped (R27), else slewed (R24, R58). -/
def twinConfirm (o : Int) (s : State) : State :=
  if (s.time.tRef.map fun r => decide (s.time.mono ≤ r + 1000000)).getD false then confirmLock (slewRate o s)
  else (stepCounter o s).modTime fun t => { t with freqE12 := 0, slewE12 := 0, slewPart := 0 }

/-- LOCK_CONFIRM (R24, R25, R58): the disciplining main section confirms lock: the own, or, while that does not run, the twin's; what
offset the twin's servo measured is a free value. -/
def execLockConfirm (s : State) : Host.Outcome State Fault Refusal :=
  .next
    (if servoRuns s && s.time.servo = .locked then confirmLock s
     else if twinDisciplines s then twinConfirm (Config.twinOffset s.free) (draw s).2
     else s)

/-- MEASUREMENT_TIMEOUT (R57): 250 ms without a measurement within the threshold. -/
def execMeasurementTimeout (s : State) : Host.Outcome State Fault Refusal :=
  .next
    (if s.time.servo = .locked && s.time.lastGoodNs + 250000000 ≤ s.time.mono then setServo .holdover (gmPort s) s else s)

/-- u has reached 60 s (R26, R57). -/
def uReached (s : State) : Bool :=
  match uE6 s with
  | none => true
  | some u => Config.uMaxNs * 1000000 ≤ u

/-- U_LIMIT (R57). -/
def execULimit (s : State) : Host.Outcome State Fault Refusal :=
  .next (if s.time.servo = .holdover && uReached s then setServo .unknown (gmPort s) s else s)

end Sys2Proof.Machine
end

