-- ==== Sys2Proof/Machine/Memory.lean ====
section
/-! DEFINITION. Module memory (R363 to R381): address mapping, error correction, poison, scrubbing, refresh, the defence
against row disturbance, and training. -/

namespace Sys2Proof.Machine

open Sys2Proof

/-! ## Address mapping (R369, R370) -/

/-- The grain in force: 8 to 16, other values act as the nearer limit (DRAMC.MAP). -/
def grain (m : MemSt) : Nat := if m.grainLog2 < 8 then 8 else if 16 < m.grainLog2 then 16 else m.grainLog2

/-- Three bits of an address from bit `i` up. -/
def bits3 (a i : Nat) : Nat := a / 2 ^ i % 8

/-- The channel of an address (R369). -/
def channelOf (m : MemSt) (a : Nat) : Nat :=
  if m.mapFixed then bits3 a 13
  else if m.hashEn then Nat.xor (Nat.xor (Nat.xor (bits3 a (grain m)) (bits3 a 21)) (bits3 a 27)) (bits3 a 33)
  else bits3 a (grain m)

/-- The local address within the channel (R369). -/
def localOf (m : MemSt) (a : Nat) : Nat :=
  if m.mapFixed then a / 65536 * 8192 + a % 8192
  else a / 2 ^ (grain m + 3) * 2 ^ grain m + a % 2 ^ grain m

/-- The subchannel of a local address: 0 A, 1 B (R370). -/
def subOf (l : Nat) : Nat := l / 64 % 2

/-- Bank group × 2 + bank of a local address (R370). -/
def bankOf (m : MemSt) (l : Nat) : Nat :=
  (if m.mapFixed then bits3 l 10 else Nat.xor (bits3 l 10) (bits3 l 18)) * 2 + l / 8192 % 2

/-- The row of a local address (R370). -/
def rowOf (l : Nat) : Nat := l / 262144 % 65536

/-- The burst column of a local address (R370). -/
def columnOf (l : Nat) : Nat := bits3 l 7 + l / 16384 % 16 * 8

/-- Key of a subchannel. -/
def subKey (c sub : Nat) : Nat := c * 2 + sub

/-- The subchannel an address lies in. -/
def subKeyOf (m : MemSt) (a : Nat) : Nat := subKey (channelOf m a) (subOf (localOf m a))

/-! ## Error correction (R364 to R368) -/

/-- How a burst reads: with the devices whose beats were corrected, one entry a beat; uncorrectable; or with an error in
three or more devices, of which no bound is given (R364). -/
inductive BurstRead where
  | good (corrected : List Nat)
  | bad
  | unbounded
deriving DecidableEq, Repr

/-- One beat judged: the failed device of the subchannel, if decoded as an erasure, is reconstructed, and one further
device in error is then only detected (R367). -/
def judgeBeat (erased : Option Nat) (devs : List Nat) : BurstRead :=
  match erased with
  | none =>
    match devs.eraseDups with
    | [] => .good []
    | [d] => .good [d]
    | [_, _] => .bad
    | _ => .unbounded
  | some f =>
    match devs.eraseDups.filter fun d => d != f with
    | [] => .good []
    | [_] => .bad
    | _ => .unbounded

/-- A burst judged beat by beat. -/
def judgeBurst (erased : Option Nat) : BeatErrors → BurstRead
  | [] => .good []
  | b :: t =>
    match judgeBeat erased b, judgeBurst erased t with
    | .good x, .good y => .good (x ++ y)
    | .unbounded, _ => .unbounded
    | _, .unbounded => .unbounded
    | _, _ => .bad

/-- The device of a subchannel that is decoded as an erasure. -/
def erasedOf (m : MemSt) (sub : Nat) : Option Nat :=
  if m.erasureEn then (m.failed.find? fun d => d / 10 = sub).map fun d => d % 10 else none

/-- The errors a read of a burst meets: those of the access, and those MEM_INJECT armed for it (R380). -/
def burstErrors (m : MemSt) (b : Nat) (errors : BeatErrors) : BeatErrors :=
  match mapGet m.injected b with
  | none => errors
  | some devs => errors ++ [devs]

/-- The threshold in force: values below 16 act as 16 (DRAMC.ECC_CTRL). -/
def devFailThresh (m : MemSt) : Nat := if m.devFailThresh < 16 then 16 else m.devFailThresh

/-- One corrected beat of a device counted, and the device marked failed at the threshold (R367). -/
def countCorrected (sub dev : Nat) (s : State) : State :=
  let key := sub * 10 + dev
  let now := s.time.mono
  let times := now :: (mapGetD s.mem.ceTimes key []).filter fun t => now < t + second
  let s := s.modMem fun m =>
    { m with
      ceTotal := (m.ceTotal + 1) % 4294967296, ceTimes := mapPut m.ceTimes key times,
      ceDevice := mapPut m.ceDevice key (mapGetD m.ceDevice key 0 + 1) }
  if devFailThresh s.mem ≤ times.length && !s.mem.failed.contains key then
    let s := s.modMem fun m => { m with failed := key :: m.failed }
    raiseMod 0x0E82 [it 1 (sub / 2), it 1 (sub % 2), it 1 dev, it 1 (flag s.mem.erasureEn)] s
  else s

/-- The device of a subchannel with the most corrections of the last second. -/
def worstDevice (m : MemSt) (sub : Nat) : Nat :=
  (List.range 10).foldl (fun w d =>
    if (mapGetD m.ceTimes (sub * 10 + w) []).length < (mapGetD m.ceTimes (sub * 10 + d) []).length then d else w) 0

/-- Corrected beats of one burst read at an address (R364, R381). -/
def noteCorrected (a : Nat) (devs : List Nat) (s : State) : State :=
  if devs.isEmpty then s
  else
    let sub := subKeyOf s.mem a
    let s := devs.foldl (fun s d => countCorrected sub d s) s
    raiseLimited second (limKey 0x0E80 (sub / 2) 0) devs.length 0x0E80 .module (position s)
      (fun n => [it 1 (sub / 2), it 1 (sub % 2), it 1 (worstDevice s.mem sub), it 4 n, it 8 a]) s

/-- The count of MEM_UNCORRECTABLE not raised is told once its second has ended (R381). -/
def tellUnraised (s : State) : State :=
  if 0 < s.mem.ueUnraised && s.mem.ueSecond < s.time.mono / second then
    let n := s.mem.ueUnraised
    let sub := subKeyOf s.mem s.mem.lastUe
    raiseMod 0x0E81 [it 8 s.mem.lastUe, it 1 (sub / 2), it 1 (sub % 2), it 1 0, it 4 n] (s.modMem fun m => { m with ueUnraised := 0 })
  else s

/-- An uncorrectable burst: poisoned until written whole, counted, recorded, and raised at most 16 times a second (R365,
R381). An error that MEM_INJECT armed leaves the burst as it is in DRAM (R380), so `stays` is false for it. -/
def noteUncorrectable (b cls : Nat) (stays : Bool) (s : State) : State :=
  let s := tellUnraised s
  let a := 64 * b
  let sub := subKeyOf s.mem a
  let sec := s.time.mono / second
  let raised := if s.mem.ueSecond = sec then s.mem.ueRaised else 0
  let s := s.modMem fun m =>
    { m with
      ueTotal := (m.ueTotal + 1) % 4294967296, lastUe := a, ueSecond := sec, ueRaised := raised + 1,
      ueUnraised := if raised < 16 then m.ueUnraised else m.ueUnraised + 1,
      ueDevice := (List.range 10).foldl (fun u d => mapPut u (sub * 10 + d) (mapGetD u (sub * 10 + d) 0 + 1)) m.ueDevice,
      poison := if !stays || m.poison.contains b then m.poison else b :: m.poison }
  if raised < 16 then raiseMod 0x0E81 [it 8 a, it 1 (sub / 2), it 1 (sub % 2), it 1 cls, it 4 0] s else s

/-- A burst read by an initiator of a class: corrected, or poisoned; where three or more devices are in error, which of the
two it is, and what data results, is left open (R364). -/
def readBurst (b cls : Nat) (errors : BeatErrors) (s : State) : Bool × State :=
  let errs := burstErrors s.mem b errors
  let stays := judgeBurst (erasedOf s.mem (subKeyOf s.mem (64 * b))) errors = .bad
  let s := s.modMem fun m => { m with injected := mapDel m.injected b }
  if s.mem.poison.contains b then (true, noteUncorrectable b cls true s)
  else
    match judgeBurst (erasedOf s.mem (subKeyOf s.mem (64 * b))) errs with
    | .good devs => (false, noteCorrected (64 * b) devs s)
    | .bad => (true, noteUncorrectable b cls stays s)
    | .unbounded =>
      let r := draw s
      if r.1 % 2 = 0 then (true, noteUncorrectable b cls true r.2)
      else
        let v := draw r.2
        (false, memWrite (64 * b) ((List.range 64).map fun i => BitVec.ofNat 8 (v.1 / 256 ^ i)) v.2)

/-- The bursts a range touches. -/
def burstsOf (a n : Nat) : List Nat := if n = 0 then [] else (List.range ((a + n - 1) / 64 - a / 64 + 1)).map fun i => a / 64 + i

/-- Bursts read in order; those that returned poison. -/
def readBursts (cls : Nat) (errors : BeatErrors) : List Nat → State → List Nat × State
  | [], s => ([], s)
  | b :: t, s =>
    let r := readBurst b cls errors s
    let q := readBursts cls [] t r.2
    (if r.1 then b :: q.1 else q.1, q.2)

/-- The bursts of a range that are poisoned, or for which MEM_INJECT armed an error, are read; those that return poison (R365, R380). -/
def meetErrors (a n cls : Nat) (s : State) : List Nat × State :=
  let l := (s.mem.poison ++ s.mem.injected.map Prod.fst).eraseDups.filter fun b => n != 0 && a < 64 * b + 64 && 64 * b < a + n
  readBursts cls [] l s

/-- A partial write reads its edge bursts first; where that read is uncorrectable, whatever the error came from, the merged burst is
written with a check pattern that every later read detects (R366). -/
def writeAt (a cls : Nat) (errors : BeatErrors) (l : List Byte) (s : State) : State :=
  let r := readBursts cls errors ((burstsOf a l.length).filter fun b => !coversBurst a l.length b) s
  memWrite a l (r.2.modMem fun m => { m with poison := (r.1.filter fun b => !m.poison.contains b) ++ m.poison })

/-- DRAM is in use: powered and not in self-refresh. -/
def dramOn (s : State) : Bool := mainUp s && !(s.module.mode = .fault && s.mgmt.vcoreRemoved)

/-- A read served by the controller: zero with the poison flag for every burst that holds the error (R365, R372). -/
def serveRead (a n cls : Nat) (errors : BeatErrors) (s : State) : State :=
  let r := readBursts cls errors (burstsOf a n) s
  emit (.accessData ((List.range n).map fun i => if r.1.contains ((a + i) / 64) then 0 else memRead r.2 (a + i)) (!r.1.isEmpty)) r.2

/-- A channel trains again under MEM_RETRAIN (R379). -/
def channelTrains (s : State) (c : Nat) : Bool := (mapGet s.mem.channels c).any Channel.retraining

/-- An access touches a channel that trains, and waits (R379). -/
def accessWaits (s : State) (a : Access) : Bool := (burstsOf a.addr a.len).any fun b => channelTrains s (channelOf s.mem (64 * b))

/-- An access of a context still waits for a channel, and with it what follows the drain of that context (R392, R393). -/
def contextHeld (s : State) (c : Context) : Bool := s.mem.waiting.any fun p => p.1.ctx = c

/-- An access performed (R364 to R366, R372). -/
def performAccess (a : Access) (errors : BeatErrors) (s : State) : State :=
  if a.write then writeAt a.addr a.initiator.cls errors (a.data.take a.len) s
  else serveRead a.addr a.len a.initiator.cls errors s

/-- MEMORY_ACCESS (R364 to R366, R372, R379): an access that the gate passed; it waits while a channel it touches trains. -/
def execMemoryAccess (a : Access) (errors : BeatErrors) (s : State) : Host.Outcome State Fault Refusal :=
  .next
    (if dramOn s && inDram a.addr a.len then
      if accessWaits s a then s.modMem fun m => { m with waiting := m.waiting ++ [(a, errors)] } else performAccess a errors s
    else s)

/-- Once a channel has trained, the accesses that waited for it are performed in their order (R379). -/
def serveWaiting (s : State) : State :=
  let l := s.mem.waiting
  let still := l.filter fun p => accessWaits s p.1
  (l.filter fun p => !accessWaits s p.1).foldl (fun s p => performAccess p.1 p.2 s) (s.modMem fun m => { m with waiting := still })

/-- SCRUB_STEP (R368): the next burst in ascending order is read; a corrected error is written back, an uncorrectable one
stays poisoned with MEM_UNCORRECTABLE of class 0. -/
def execScrubStep (errors : BeatErrors) (s : State) : Host.Outcome State Fault Refusal :=
  .next
    (if dramOn s && !channelTrains s (channelOf s.mem s.mem.scrubPos) then
      let s := (readBurst (s.mem.scrubPos / 64) 0 errors s).2
      s.modMem fun m =>
        if m.scrubPos + 64 = Config.dramBytes then { m with scrubPos := 0, scrubPasses := (m.scrubPasses + 1) % 4294967296 }
        else { m with scrubPos := m.scrubPos + 64 }
    else s)

/-! ## Refresh and row disturbance (R373 to R376) -/

/-- REFRESH (R373): a same-bank refresh keeps what the bank holds. It is also where the count of MEM_UNCORRECTABLE not
raised is told once its second has ended (R381). -/
def execRefresh (_channel _sub : Nat) (s : State) : Host.Outcome State Fault Refusal :=
  .next
    (tellUnraised s)

/-- A subchannel's rate after MR4 was read: double when any device asks (R373). -/
def setRate (c sub : Nat) (double : Bool) (s : State) : State :=
  match mapGet s.mem.channels c with
  | none => s
  | some ch =>
    if (if sub = 0 then ch.hotA else ch.hotB) = double then s
    else
      let new := if sub = 0 then { ch with hotA := double } else { ch with hotB := double }
      raiseMod 0x0E84 [it 1 c, it 1 sub, it 1 (flag double)] (s.modMem fun m => { m with channels := mapPut m.channels c new })

/-- MR4_POLL (R373): every subchannel's answers. -/
def execMr4Poll (answers : List Mr4) (s : State) : Host.Outcome State Fault Refusal :=
  .next
    (if dramOn s then
      (List.range 16).foldl (fun s i =>
        let l := answers.filter fun a => a.channel = i / 2 && a.sub = i % 2
        if l.isEmpty then s else setRate (i / 2) (i % 2) (l.any Mr4.double) s) s
    else s)

/-- Key of a tracked bank: a half of a bank, told by row bit 15 (R370, R375). -/
def trackKey (c sub bank row : Nat) : Nat := ((c * 2 + sub) * 16 + bank) * 2 + row / 32768 % 2

/-- REFRESH_WINDOW_END (R375): every entry of the subchannel's tracked banks is freed. -/
def execRefreshWindowEnd (c sub : Nat) (s : State) : Host.Outcome State Fault Refusal :=
  .next (s.modMem fun m => { m with tables := m.tables.filter fun p => p.1 / 32 != c * 2 + sub })

/-- A row mitigated: a same-bank directed refresh management command, counted (R376). -/
def mitigate (c sub bank row : Nat) (s : State) : State :=
  emit (.directedRefresh c sub bank row) (s.modMem fun m => { m with mitigations := (m.mitigations + 1) % 4294967296 })

/-- The activates that trigger mitigation: 256 to 16,384, other values act as the nearer limit (DRAMC.RD_CTRL). -/
def rdThresh (m : MemSt) : Nat := if m.thresh < 256 then 256 else if 16384 < m.thresh then 16384 else m.thresh

/-- A table after an activate of row `r`, and whether the row is mitigated (R375): `sampled` is the random source's choice
for a row that finds a full table. -/
def activate (t : RowTable) (r thresh : Nat) (sampled : Bool) : RowTable × Bool :=
  match t.find? fun p => p.1 = r with
  | some (_, n) =>
    if thresh ≤ n + 1 then (t.filter fun p => p.1 != r, true)
    else (t.map fun p => if p.1 = r then (r, n + 1) else p, false)
  | none => if t.length < 16 then ((r, 1) :: t, false) else (t, sampled)

/-- ROW_ACTIVATE (R370, R375, R376): a row of a bank is activated. -/
def execRowActivate (c sub bank row : Nat) (sampled : Bool) (s : State) : Host.Outcome State Fault Refusal :=
  .next
    (let k := trackKey c sub bank row
     let r := activate (mapGetD s.mem.tables k []) row (rdThresh s.mem) sampled
     let s := s.modMem fun m => { m with tables := mapPut m.tables k r.1 }
     if r.2 then mitigate c sub bank row s else s)

/-! ## Training (R377 to R379) -/

/-- ZQ_CALIBRATION (R378): impedance is recalibrated next to refresh and disturbs no service; nothing the manual names
changes. -/
def execZqCalibration (s : State) : Host.Outcome State Fault Refusal := .next s

/-- A drift in ps exceeds a quarter of a unit interval at DDR5-6400 (R363, R378). -/
def driftPast (drift : Nat) : Bool := 625 < 16 * drift

/-- DQS_OSCILLATOR (R378): the greatest drift measured on each subchannel of a channel, and MEM_TRAINING with cause DRIFT when it passes a quarter unit
interval. -/
def execDqsOscillator (c driftA driftB : Nat) (s : State) : Host.Outcome State Fault Refusal :=
  .next
    (let drift := max driftA driftB
     match (mapGet s.mem.channels c).filter fun _ => dramOn s with
     | none => s
     | some ch =>
       let past := driftPast drift
       let s := s.modMem fun m => { m with channels := mapPut m.channels c { ch with driftPs := drift, driftTold := past } }
       if past && !ch.driftTold then raiseMod 0x0E83 [it 1 c, it 1 0, it 4 drift] s else s)

/-- Channels a MEM_RETRAIN names (R380). -/
def retrainList (c : Nat) : List Nat := if c = 0xFF then List.range 8 else [c]

/-- The next channel of a retraining trains while accesses to it wait. -/
def retrainNext (s : State) : State :=
  match s.mem.retrain with
  | some (_, c :: _, _) => s.modMem fun m => { m with channels := mapUpd m.channels c fun x => { x with retraining := true } }
  | _ => s

/-- MEM_RETRAIN (R379): in MAINTENANCE only, never queued. -/
def memRetrainBody (c : Nat) (tk : Ticket) (s : State) : State :=
  if 7 < c && c != 0xFF then complete tk 0x01E0 [] s
  else if s.module.mode != .maintenance || s.mem.retrain.isSome then complete tk 0x03E0 [] s
  else retrainNext (s.modMem fun m => { m with retrain := some (tk, retrainList c, []) })

/-- MEM_RETRAIN (R379). -/
def execMemRetrain (d : Desc) (c : Nat) (s : State) : Host.Outcome State Fault Refusal :=
  .next (onTake d (.memRetrain c) (memRetrainBody c) s)

/-- MEM_RETRAIN_CHANNEL_DONE (R379): success, or a return to the previous results; after the last the command completes
with each channel's worst margins, as far as the result has room. -/
def execMemRetrainChannelDone (c : Nat) (ok : Bool) (readPs writePs : Nat) (s : State) : Host.Outcome State Fault Refusal :=
  .next
    (match s.mem.retrain with
     | some (tk, x :: rest, res) =>
       if x = c then
         let res := res ++ [it 2 readPs, it 2 writePs]
         let s := s.modMem fun m =>
           { m with
             channels := mapUpd m.channels c fun ch =>
               if ok then { ch with retraining := false, trained := true, readMarginPs := readPs, writeMarginPs := writePs,
                                    driftPs := 0, driftTold := false }
               else { ch with retraining := false },
             retrain := if rest.isEmpty then none else some (tk, rest, res) }
         let s := serveWaiting (raiseMod 0x0E83 [it 1 c, it 1 (if ok then 1 else 2), it 4 readPs] s)
         if rest.isEmpty then complete tk 0 (res.take 6) s else retrainNext s
       else s
     | _ => s)

/-! ## Diagnostics (R380) -/

/-- The memory status record (R380). -/
def memStatusItems (s : State) : Items :=
  let ch (c : Nat) : Items :=
    let x := mapGetD s.mem.channels c Channel.init
    [it 1 (flag x.trained + flag x.retraining * 2), it 1 (flag x.hotA + flag x.hotB * 2), it 2 x.readMarginPs, it 2 x.writeMarginPs,
     it 4 (sumN ((List.range 20).map fun d => if s.mem.failed.contains (c * 20 + d) then 2 ^ d else 0))]
  let dev (i : Nat) : Items := [it 8 (mapGetD s.mem.ceDevice i 0), it 8 (mapGetD s.mem.ueDevice i 0)]
  (List.range 8).flatMap ch ++ [it 8 s.mem.scrubPos, it 4 s.mem.mitigations] ++ (List.range 160).flatMap dev

/-- MEM_STATUS (R380). -/
def memStatusBody (tk : Ticket) (s : State) : State := completeRecord tk 1024 (memStatusItems s) [] s

/-- MEM_STATUS (R380). -/
def execMemStatus (d : Desc) (s : State) : Host.Outcome State Fault Refusal := .next (onTake d .memStatus memStatusBody s)

/-- MEM_INJECT arms an error for the next read of a burst, in MAINTENANCE only (R380). -/
def memInjectBody (addr devices first : Nat) (tk : Ticket) (s : State) : State :=
  if Config.dramBytes ≤ addr || devices = 0 || 2 < devices || 9 < first || 10 < first + devices then complete tk 0x01E0 [] s
  else if s.module.mode != .maintenance then complete tk 0x03E0 [] s
  else
    complete tk 0 []
      (s.modMem fun m => { m with injected := mapPut m.injected (addr / 64) ((List.range devices).map fun i => first + i) })

/-- MEM_INJECT (R380). -/
def execMemInject (d : Desc) (addr devices first : Nat) (s : State) : Host.Outcome State Fault Refusal :=
  .next (onTake d (.memInject addr devices first) (memInjectBody addr devices first) s)

end Sys2Proof.Machine
end

