-- ==== Sys2Proof/Machine/Gates.lean ====
section
/-! DEFINITION. Gates (R382 to R394): the object and driver checks, straddling accesses, fault records, fences. -/

namespace Sys2Proof.Machine

open Sys2Proof

/-! ## The checks (R385, R386, R389) -/

/-- What a check of one part of an access finds: allowed, or refused with a cause, and the object and rule set at the
part. -/
structure PartCheck where
  (ok : Bool)
  (cause kind objectId ruleSet : Nat)
deriving DecidableEq, Repr, Inhabited

/-- What fetch units may read: every ingest region, decode buffer set and surface (R386). -/
def fetchRegions (s : State) : List ObjRegion :=
  (s.ingest.streams.map fun p => ⟨p.2.regionBase, p.2.regionSize, true, false, 1, p.1⟩)
    ++ (s.ingest.guards.map fun p => ⟨p.1, p.2.1, true, false, 1, p.2.2⟩)
    ++ (s.decode.attached.map fun p => ⟨p.2.body.bufBase, p.2.body.bufSize, true, false, 2, p.1⟩)
    ++ (s.decode.guards.map fun p => ⟨p.1, p.2.1, true, false, 2, p.2.2⟩)
    ++ (s.compose.surfaces.map fun p => ⟨p.2.body.base, surfaceSize p.2.body, true, false, 3, p.1⟩)

/-- A context of the composition of a head. -/
def isComposition : Context → Bool
  | .composition _ => true
  | _ => false

/-- The object regions of the access's context, for its initiator; composition is in force for the fetch units, below the writeback
indices (R382, R386). -/
def objRegions (s : State) (who : Initiator) (c : Context) : Option (List ObjRegion) :=
  if isComposition c && who.cls = 6 && who.index < 256 then some (fetchRegions s) else
  (s.gates.contexts.find? fun x => x.ctx = c && x.who.contains who).map GateCtx.regions

/-- The regions of the driver rule sets in force on a gate, each with its set's number. -/
def driverRegions (s : State) (gate : Nat) : List (Nat × RuleRegion) :=
  (s.gates.rules.filter fun p => p.2.gate = gate).flatMap fun p => (p.2.regions.take p.2.regionCount).map fun r => (p.1, r)

/-- Address `a` lies in an object region. -/
def inObj (a : Nat) (r : ObjRegion) : Bool := r.base ≤ a && a < r.base + r.size

/-- Address `a` lies in a driver region. -/
def inRule (a : Nat) (r : RuleRegion) : Bool := r.base ≤ a && a < r.base + r.pages * 4096

/-- The object of a context that has one, as a fault record names it (R386, R394): kind and id. -/
def ctxObject : Context → Nat × Nat
  | .composition h => (5, h)
  | .ingest k _ => (1, k)
  | .decode k _ => (2, k)
  | .surface k => (3, k)
  | .record h _ => (4, h)
  | _ => (0, 0)

/-- The object check at an address (R385): class 0 and 9 pass; else a region of the context that allows the direction. -/
def objectCheck (s : State) (gate : Nat) (who : Initiator) (c : Context) (a : Nat) (write : Bool) : PartCheck :=
  if gate != 0 || who.cls = 0 || who.cls = 9 then ⟨true, 0, 0, 0, 0xFF⟩
  else
    match objRegions s who c with
    | none => ⟨false, 5, 0, 0, 0xFF⟩
    | some l =>
      match l.filter fun r => inObj a r with
      | [] => ⟨false, 0, (ctxObject c).1, (ctxObject c).2, 0xFF⟩
      | [r] => if (if write then r.write else r.read) then ⟨true, 0, r.kind, r.objectId, 0xFF⟩ else ⟨false, 1, r.kind, r.objectId, 0xFF⟩
      | r :: _ => ⟨false, 4, r.kind, r.objectId, 0xFF⟩

/-- The driver check at an address (R385). -/
def driverCheck (s : State) (gate cls a : Nat) (write : Bool) : PartCheck :=
  if cls = 0 then ⟨true, 0, 0, 0, 0xFF⟩
  else
    match (driverRegions s gate).filter fun p => inRule a p.2 with
    | [] => if cls = 9 then ⟨false, 3, 0, 0, 0xFF⟩ else ⟨true, 0, 0, 0, 0xFF⟩
    | [(n, r)] =>
      if bit (if write then r.writeMask else r.readMask) cls && (cls != 9 || s.gates.debugEn) then ⟨true, 0, 0, 0, n⟩
      else if cls = 9 then ⟨false, 3, 0, 0, n⟩ else ⟨false, 2, 0, 0, n⟩
    | (n, _) :: _ => ⟨false, 4, 0, 0, n⟩

/-- Both checks at an address. -/
def checkAt (s : State) (gate : Nat) (who : Initiator) (c : Context) (a : Nat) (write : Bool) : PartCheck :=
  let o := objectCheck s gate who c a write
  if !o.ok then o
  else
    let d := driverCheck s gate who.cls a write
    if d.ok then o else { d with kind := o.kind, objectId := o.objectId }

/-- The region boundaries, object or driver, of the access. -/
def boundaries (s : State) (gate : Nat) (who : Initiator) (c : Context) : List Nat :=
  (match objRegions s who c with
   | some l => if gate = 0 then l.flatMap fun r => [r.base, r.base + r.size] else []
   | none => [])
    ++ (driverRegions s gate).flatMap fun p => [p.2.base, p.2.base + p.2.pages * 4096]

/-- Length of the first part of an access: up to the first boundary inside it (R390). -/
def partLen (s : State) (gate : Nat) (who : Initiator) (c : Context) (a len : Nat) : Nat :=
  (boundaries s gate who c).foldl (fun m b => if a < b && b < a + m then b - a else m) len

/-- An access checked: length of the first part, its check, and the second part's check if there is one (R390). -/
def checkAccess (s : State) (gate : Nat) (a : Access) : Nat × PartCheck × Option PartCheck :=
  let n := partLen s gate a.initiator a.ctx a.addr a.len
  (n, checkAt s gate a.initiator a.ctx a.addr a.write,
   if n < a.len then some (checkAt s gate a.initiator a.ctx (a.addr + n) a.write) else none)

/-! ## Fault records (R394, R401) -/

/-- The scope of GATE_FAULTED (R401): the engine of the initiator for classes 2 to 6, port 16 for class 1, else the
module. -/
def faultScope (s : State) (i : Initiator) : ScopeKind × Nat :=
  match i.cls with
  | 1 => (.port, 16)
  | 2 => (.engine, i.index)
  | 3 => (.engine, 32 + i.index)
  | 4 => (.engine, 40 + i.index)
  | 5 => (.engine, 48 + i.index)
  | 6 => (.engine, 64 + i.index)
  | _ => (.module, position s)

/-- The outcome of a part: 0 performed, 1 write dropped, 2 read returned zero with poison (R394). -/
def outcomeOf (write ok : Bool) : Nat := if ok then 0 else if write then 1 else 2

/-- A record of the same command or context that is not closed. -/
def sameFault (a : Access) (f : GateFault) : Bool := !f.closed && f.ctx = a.ctx && f.cmdTag = a.cmdTag && (a.cmdTag.isSome || a.ctx != .none)

/-- A refused access produces a record, or extends the one of its command or context (R394); a part refused for OVERLAP is
an internal fault (R389). -/
def recordFault (gate : Nat) (a : Access) (n : Nat) (p : PartCheck) (q : Option PartCheck) (s : State) : State :=
  let s := s.modGates fun g => { g with faultCount := (g.faultCount + 1) % 4294967296 }
  let f := if p.ok then q.getD p else p
  let cause := f.cause
  let over4 (x : PartCheck) : Bool := !x.ok && x.cause = 4
  let s := if over4 p || (q.map over4).getD false then logInternal (initiatorId a.initiator) 4 s else s
  if s.gates.faults.any (sameFault a) then
    let more (f : GateFault) : GateFault :=
      if sameFault a f && f.further < 4294967295 then { f with further := f.further + 1 } else f
    s.modGates fun g => { g with faults := g.faults.map more }
  else
    let seq := (s.gates.lastFaultSeq + 1) % 4294967296
    let g : GateFault :=
      { seq := seq, gate := gate, cause := cause, initiator := initiatorId a.initiator, wallNs := s.time.wall,
        address := a.addr, length := a.len, write := a.write, parts := if q.isSome then 2 else 1, partALen := n,
        outcomeA := outcomeOf a.write p.ok, outcomeB := (q.map fun x => outcomeOf a.write x.ok).getD 0,
        objectKind := if isComposition a.ctx then 5 else f.kind, ruleSet := f.ruleSet,
        objectId := if isComposition a.ctx then (ctxObject a.ctx).2 else f.objectId, further := 0,
        ctx := a.ctx, cmdTag := a.cmdTag, closed := false }
    let s := s.modGates fun x => { x with faults := (g :: x.faults).take Config.gateRecords, lastFaultSeq := seq }
    let sc := faultScope s a.initiator
    raise 0x0A80 sc.1 sc.2 [it 4 seq, it 1 gate, it 1 cause, it 2 g.initiator, it 8 a.addr] s

/-- The performed part of a write reaches the DRAM controller (R366, R372, R390). -/
def performWrite (a : Access) (n : Nat) (p : PartCheck) (q : Option PartCheck) (s : State) : State :=
  let s := if p.ok then writeAt a.addr a.initiator.cls [] ((a.data.take a.len).take n) s else s
  match q with
  | some x => if x.ok then writeAt (a.addr + n) a.initiator.cls [] ((a.data.take a.len).drop n) s else s
  | none => s

/-- What the DRAM controller answers to the performed parts of a read (R365, R390): the bytes, zero where refused or poisoned, and
whether any was poisoned. -/
def servedRead (a : Access) (s : State) : List Byte × Bool × State :=
  let k := checkAccess s 0 a
  let ok (i : Nat) : Bool := if i < k.1 then k.2.1.ok else (k.2.2.map PartCheck.ok).getD true
  let r := if k.2.1.ok then meetErrors a.addr k.1 a.initiator.cls s else ([], s)
  let q := if (k.2.2.map PartCheck.ok).getD false then meetErrors (a.addr + k.1) (a.len - k.1) a.initiator.cls r.2 else ([], r.2)
  let bad := r.1 ++ q.1
  let bytes := (List.range a.len).map fun i => if ok i && !bad.contains ((a.addr + i) / 64) then memRead q.2 (a.addr + i) else 0
  (bytes, !bad.isEmpty, q.2)

/-- An access at a gate (R385, R390): its parts performed or refused; whether any part was performed, whether any was
refused. -/
def gateDo (gate : Nat) (a : Access) (s : State) : Bool × Bool × State :=
  let r := checkAccess s gate a
  let n := r.1
  let p := r.2.1
  let q := r.2.2
  let refused := !p.ok || (q.map fun x => !x.ok).getD false
  let done := p.ok || (q.map PartCheck.ok).getD false
  let s := if gate = 0 && a.write then performWrite a n p q s else s
  (done, refused, if refused then recordFault gate a n p q s else s)

/-- A run of bytes written by accesses of at most 512 bytes (R383): whether any part was performed, any refused. -/
def gatedWriteN (who : Initiator) (c : Context) (tag : Option Nat) : Nat → Nat → List Byte → Bool × Bool × State → Bool × Bool × State
  | 0, _, _, r => r
  | fuel + 1, addr, l, r =>
    if l.isEmpty then r
    else
      let a : Access := { initiator := who, ctx := c, cmdTag := tag, addr := addr, len := (l.take 512).length, write := true, data := l.take 512 }
      let x := gateDo 0 a r.2.2
      gatedWriteN who c tag fuel (addr + 512) (l.drop 512) (r.1 || x.1, r.2.1 || x.2.1, x.2.2)

/-- A run of bytes written through the memory gate. -/
def gatedWrite (who : Initiator) (c : Context) (tag : Option Nat) (addr : Nat) (l : List Byte) (s : State) : Bool × Bool × State :=
  gatedWriteN who c tag (l.length / 512 + 1) addr l (false, false, s)

/-- A run of bytes read through the memory gate by accesses of at most 512 bytes, a refused or poisoned byte as zero (R365, R390): the
bytes, whether any part was performed, any refused, any poisoned. -/
def gatedReadN (who : Initiator) (c : Context) (tag : Option Nat) :
    Nat → Nat → Nat → List Byte × Bool × Bool × Bool × State → List Byte × Bool × Bool × Bool × State
  | 0, _, _, r => r
  | fuel + 1, addr, n, r =>
    if n = 0 then r
    else
      let m := if n < 512 then n else 512
      let a : Access := { initiator := who, ctx := c, cmdTag := tag, addr := addr, len := m, write := false, data := [] }
      let b := servedRead a r.2.2.2.2
      let x := gateDo 0 a b.2.2
      gatedReadN who c tag fuel (addr + m) (n - m) (r.1 ++ b.1, r.2.1 || x.1, r.2.2.1 || x.2.1, r.2.2.2.1 || b.2.1, x.2.2)

/-- A run of bytes read through the memory gate. -/
def gatedRead (who : Initiator) (c : Context) (tag : Option Nat) (addr n : Nat) (s : State) : List Byte × Bool × Bool × Bool × State :=
  gatedReadN who c tag (n / 512 + 1) addr n ([], false, false, false, s)

/-- The status of a host command some of whose accesses were refused, with the fault record's seq (R391). -/
def gateStatus (done refused : Bool) (s : State) : Nat × Items :=
  if refused then (if done then 0x0401 else 0x0400, [it 4 s.gates.lastFaultSeq]) else (0, [])

/-- The initiator of a host command's accesses to module DRAM: the host's DMA, the ring's agent where another module forwarded the command,
the twin's where a catch-up carries it (R382, R386). -/
def dmaOf (tk : Ticket) : Initiator := if tk.origin.isSome then ⟨7, 0⟩ else if tk.ring = 255 then ⟨8, 0⟩ else ⟨1, 0⟩

/-- A key for the accesses of a host command. -/
def tagOf (tk : Ticket) : Option Nat := some (tk.ring * 4294967296 + tk.index)

/-! ## Commands -/

/-- GATE_FENCE (R393): completes once the named gates have drained; with poll at once, with the answer. -/
def gateFenceBody (mask : Nat) (poll : Bool) (tk : Ticket) (s : State) : State :=
  if 511 < mask then complete tk 0x01A0 [] s
  else
    let pending := s.gates.draining.any fun g => bit mask g
    if poll then complete tk (if pending then 0x03A0 else 0) [] s
    else if pending then s.modGates fun g => { g with fences := g.fences ++ [(mask, tk)] }
    else complete tk 0 [] s

/-- GATE_FENCE (R393). -/
def execGateFence (d : Desc) (mask : Nat) (poll : Bool) (s : State) : Host.Outcome State Fault Refusal :=
  .next (onTake d (.gateFence mask poll) (gateFenceBody mask poll) s)

/-- GATE_FENCE_COMPLETE (R392, R393): every access checked under replaced rules has completed, those included that a channel's training
held; the waiting fences complete. -/
def execGateFenceComplete (s : State) : Host.Outcome State Fault Refusal :=
  .next
    (if !s.mem.waiting.isEmpty then s
     else
       let f := s.gates.fences
       let s := s.modGates fun g => { g with draining := [], fences := [] }
       f.foldl (fun s p => complete p.2 0 [] s) s)

/-- A gate fault record in the layout of R394. -/
def faultItems (f : GateFault) : Items :=
  [it 4 f.seq, it 1 f.gate, it 1 f.cause, it 2 f.initiator, it 8 f.wallNs, it 8 f.address, it 2 f.length,
   it 1 (flag f.write), it 1 f.parts, it 2 f.partALen, it 1 f.outcomeA, it 1 f.outcomeB, it 1 f.objectKind,
   it 1 f.ruleSet, it 2 f.objectId, it 4 f.further, it 8 0, it 8 0, it 8 0]

/-- GATE_FAULT_READ (R394): up to 256 records from a seq on; result bytes 0–3 the count. -/
def gateFaultReadBody (seq : Nat) (tk : Ticket) (s : State) : State :=
  let l := (s.gates.faults.filter fun f => decide (0 ≤ modDiff 32 f.seq seq)).reverse
  completeWrite tk (l.flatMap faultItems) [it 4 l.length] s

/-- GATE_FAULT_READ (R394). -/
def execGateFaultRead (d : Desc) (seq : Nat) (s : State) : Host.Outcome State Fault Refusal :=
  .next (onTake d (.gateFaultRead seq) (gateFaultReadBody seq) s)

/-- MBX_POST (R395). -/
def execMbxPost (d : Desc) (receiver slot : Nat) (msg : List Byte) (s : State) : Host.Outcome State Fault Refusal :=
  .next (onTake d (.mbxPost receiver slot msg) (mbxPostBody receiver slot msg) s)

/-- MBX_READ (R395). -/
def execMbxRead (d : Desc) (mask : Nat) (s : State) : Host.Outcome State Fault Refusal :=
  .next (onTake d (.mbxRead mask) (mbxReadBody mask) s)

/-- LOCK_ACQUIRE (R398). -/
def execLockAcquire (d : Desc) (lock : Nat) (s : State) : Host.Outcome State Fault Refusal :=
  .next (onTake d (.lockAcquire lock) (lockAcquireBody lock) s)

/-- LOCK_RELEASE (R399). -/
def execLockRelease (d : Desc) (lock : Nat) (s : State) : Host.Outcome State Fault Refusal :=
  .next (onTake d (.lockRelease lock) (lockReleaseBody lock) s)

end Sys2Proof.Machine
end

