-- ==== Sys2Proof/Machine/Decoding.lean ====
section
/-! DEFINITION. Stream decoding (R78 to R106): attachment, the choice of the next access unit, damage and concealment,
output, lag, detach and self-test. The decoding process itself is the cited standards': a command says what it made of an
access unit. -/

namespace Sys2Proof.Machine

open Sys2Proof

/-! ## Attachments -/

/-- An attachment changed. -/
def modAttach (k : Nat) (f : Attach → Attach) (s : State) : State :=
  s.modDecode fun d => { d with attached := mapUpd d.attached k f }

/-- A stream changed. -/
def modStream (k : Nat) (f : Stream → Stream) (s : State) : State :=
  s.modIngest fun i => { i with streams := mapUpd i.streams k f }

/-- A pipeline. -/
def pipeOf (s : State) (p : Nat) : Pipeline := mapGetD s.decode.pipelines p { current := none, selftest := none }

/-- A pipeline written. -/
def setPipe (p : Nat) (x : Pipeline) (s : State) : State :=
  s.modDecode fun d => { d with pipelines := mapPut d.pipelines p x }

/-- The access units of a source that wait. -/
def waitingUnits (s : State) (k : Nat) : List AccessUnit := ((mapGet s.ingest.streams k).map Stream.units).getD []

/-! ## NAL units (R54, R78) -/

/-- A byte of a NAL unit. -/
def nalByte (n : List Byte) (i : Nat) : Nat := (n.getD i 0).toNat

/-- nal_unit_type, where H.265 (codec 1) and H.264 (codec 2) place it. PRESUMED: the cited standards' NAL unit headers, here and in
the tests of the type below. -/
def nalType (codec : Nat) (n : List Byte) : Nat := if codec = 1 then nalByte n 0 / 2 % 64 else nalByte n 0 % 32

/-- A NAL unit discarded without an event: nuh_layer_id above 0, or type 14, 15 or 20 of AVC (R78). -/
def nalSilent (codec : Nat) (n : List Byte) : Bool :=
  if codec = 1 then nalByte n 0 % 2 * 32 + nalByte n 1 / 8 != 0 else [14, 15, 20].contains (nalType codec n)

/-- A slice's NAL unit. -/
def nalSlice (codec : Nat) (n : List Byte) : Bool :=
  let t := nalType codec n
  if codec = 1 then t < 32 else 1 ≤ t && t ≤ 5

/-- A slice of an IRAP or IDR picture. -/
def nalIrap (codec : Nat) (n : List Byte) : Bool :=
  let t := nalType codec n
  if codec = 1 then 16 ≤ t && t ≤ 23 else t = 5

/-- A slice of a reference picture: not a sub-layer non-reference one, or nal_ref_idc not 0. -/
def nalReference (codec : Nat) (n : List Byte) : Bool :=
  let t := nalType codec n
  if codec = 1 then 16 ≤ t || t % 2 = 1 else nalByte n 0 / 32 % 4 != 0

/-- An SEI NAL unit. -/
def nalSei (codec : Nat) (n : List Byte) : Bool :=
  let t := nalType codec n
  if codec = 1 then t = 39 || t = 40 else t = 6

/-- The slices of an access unit that the pipeline reads. -/
def slicesOf (codec : Nat) (u : AccessUnit) : List (List Byte) := u.units.filter fun n => !nalSilent codec n && nalSlice codec n

/-- The access unit holds an IRAP or IDR picture. -/
def isIrap (codec : Nat) (u : AccessUnit) : Bool := (slicesOf codec u).any (nalIrap codec)

/-- The access unit holds a reference picture. -/
def isReference (codec : Nat) (u : AccessUnit) : Bool := (slicesOf codec u).any (nalReference codec)

/-- The picture is a RASL picture of HEVC. -/
def isRasl (codec : Nat) (u : AccessUnit) : Bool :=
  codec = 1 && (slicesOf codec u).any fun n => nalType codec n = 8 || nalType codec n = 9

/-- The picture starts a sequence whatever came before: IDR or BLA. -/
def isIdrBla (codec : Nat) (u : AccessUnit) : Bool :=
  (slicesOf codec u).any fun n => nalIrap codec n && (codec != 1 || nalType codec n ≤ 20)

/-! ## Buffer sets (R80, R84) -/

/-- Bytes of a sample of a bit depth (R80, R84). -/
def sampleBytes (bitDepth : Nat) : Nat := if bitDepth = 8 then 1 else 2

/-- The luma pitch P of R84. -/
def lumaPitch (b : AttachBody) : Nat := alignUp (b.maxWidth * sampleBytes b.maxBitDepth) 256

/-- The padded height H of R84. -/
def paddedHeight (b : AttachBody) : Nat := alignUp b.maxHeight 64

/-- slot_bytes of R84. -/
def slotBytes (b : AttachBody) : Nat :=
  let m := ceilDiv b.maxWidth 64 * ceilDiv b.maxHeight 64 * 256
  alignUp (3 * lumaPitch b * paddedHeight b / 2 + m) 4096

/-- The working area before the picture slots (R84). -/
def workingArea : Nat := 1048576

/-- The minimum buffer set of R84. -/
def minBuffer (b : AttachBody) : Nat := workingArea + b.dpbSlots * slotBytes b

/-- Address of a line of a picture slot: the luma plane, then one plane of interleaved Cb and Cr, both of the luma pitch (R80). -/
def pictureLine (b : AttachBody) (slot plane y : Nat) : Nat :=
  b.bufBase + workingArea + slot * slotBytes b + (if plane = 0 then y else paddedHeight b + y) * lumaPitch b

/-- A sample of a picture in its slot, as module DRAM holds it: plane 0 Y, 1 Cb, 2 Cr; of two bytes in bits [15:6] (R80). -/
def pictureSample (s : State) (b : AttachBody) (q : Picture) (plane x y : Nat) : Nat :=
  let n := if plane = 0 then x else 2 * x + (plane - 1)
  let a := pictureLine b q.slot plane y
  if sampleBytes q.bitDepth = 1 then (memRead s (a + n)).toNat
  else ((memRead s (a + 2 * n)).toNat + (memRead s (a + 2 * n + 1)).toNat * 256) / 64

/-- Maximum luma picture size and sample rate of Level 5.1: H.265 Table A.8 and A.9, H.264 Table A-1 (R82). -/
def level51Ok (b : AttachBody) : Bool :=
  if b.codec = 1 then b.maxWidth * b.maxHeight ≤ 8912896 && b.maxWidth * b.maxHeight * b.maxRateMhz ≤ 534773760 * 1000
  else
    let mbs := ceilDiv b.maxWidth 16 * ceilDiv b.maxHeight 16
    mbs ≤ 36864 && mbs * b.maxRateMhz ≤ 983040 * 1000

/-- Every field of the attach descriptor in its range (R81, R82). -/
def attachFieldsOk (b : AttachBody) : Bool :=
  b.source < Config.sources && (b.codec = 1 || b.codec = 2) && (b.pipeline ≤ 7 || b.pipeline = 0xFF)
    && 64 ≤ b.maxWidth && b.maxWidth ≤ 4096 && 64 ≤ b.maxHeight && b.maxHeight ≤ 2160
    && 1000 ≤ b.maxRateMhz && b.maxRateMhz ≤ 120000 && 100 ≤ b.maxBitrateKbps && b.maxBitrateKbps ≤ 300000
    && (b.maxBitDepth = 8 || (b.maxBitDepth = 10 && b.codec = 1)) && 4 ≤ b.dpbSlots && b.dpbSlots ≤ 19
    && b.policy ≤ 1 && b.maxConcealPct ≤ 100 && b.bufBase % 4096 = 0 && b.bufSize % 4096 = 0
    && inDram b.bufBase b.bufSize && level51Ok b

/-- Streams attached to a pipeline. -/
def onPipe (s : State) (p : Nat) : List (Nat × Attach) := s.decode.attached.filter fun a => a.2.pipeline = p

/-- Luma load of a pipeline, all classes, in samples/s times 1,000. -/
def pipeLoad (s : State) (p : Nat) : Nat := sumN ((onPipe s p).map fun a => lumaLoad a.2.body)

/-- The capacity row of R82 for a stream placed on pipeline `p`. -/
def attachFits (s : State) (b : AttachBody) (p : Nat) : Bool :=
  let c0 := (entryOf s b.source).cls = 0
  let own := (onPipe s p)
  let own0 := own.filter fun a => (entryOf s a.1).cls = 0
  let all0 := s.decode.attached.filter fun a => (entryOf s a.1).cls = 0
  let luma (l : List (Nat × Attach)) := sumN (l.map fun a => lumaLoad a.2.body)
  let bits_ (l : List (Nat × Attach)) := sumN (l.map fun a => a.2.body.maxBitrateKbps)
  let add0 := if c0 then lumaLoad b else 0
  let addB := if c0 then b.maxBitrateKbps else 0
  luma own0 + add0 ≤ Config.pipeLumaClass0 * 1000 && bits_ own0 + addB ≤ Config.pipeBitsClass0
    && luma own + lumaLoad b ≤ Config.pipeLumaAll * 1000 && bits_ own + b.maxBitrateKbps ≤ Config.pipeBitsAll
    && luma all0 + add0 ≤ Config.moduleLumaClass0 * 1000
    && luma s.decode.attached + lumaLoad b ≤ Config.moduleLumaAll * 1000

/-- The checks of R82 that do not depend on the pipeline, in order; 0 when none fails. -/
def attachCheck (b : AttachBody) (s : State) : Nat :=
  if !attachFieldsOk b then 0x0130
  else
    match mapGet s.ingest.streams b.source with
    | none => 0x0330
    | some x =>
      if x.params.media = 0 then 0x0330
      else if x.params.media != b.codec then 0x0131
      else if mapHas s.decode.attached b.source then 0x0331
      else if b.bufSize < minBuffer b then 0x0231
      else if dramBusy s b.bufBase b.bufSize then 0x0332
      else 0

/-- The pipeline that takes the stream, or the status of the check that fails (R82, R83). -/
def placeAttach (b : AttachBody) (s : State) : Nat × Nat :=
  if b.pipeline != 0xFF then
    if 12 ≤ (onPipe s b.pipeline).length then (0x0232, 0)
    else if attachFits s b b.pipeline then (0, b.pipeline) else (0x0230, 0)
  else
    let ok := (List.range 8).filter fun p => (onPipe s p).length < 12 && attachFits s b p
    match ok with
    | [] => (if (List.range 8).all fun p => 12 ≤ (onPipe s p).length then 0x0232 else 0x0230, 0)
    | p :: t => (0, t.foldl (fun m q => if pipeLoad s q < pipeLoad s m then q else m) p)

/-- A fresh attachment: it waits for an IRAP or IDR picture. -/
def newAttach (b : AttachBody) (p : Nat) : Attach :=
  { body := b, pipeline := p, needIrap := true, noSlotWait := false, sets := [], active := none, held := [], greys := [],
    shown := [], coded := [], concealing := false, raslConcealed := false, raslSkipped := false, lastIntact := none,
    lastOutputOrigin := none, output := 0, concealedOut := 0, suppressed := 0, slicesAbandoned := 0, lagDrops := 0,
    slotDrops := 0, shedDrops := 0, unsupported := 0, abandoned := 0, draining := false, detachTickets := [], byClose := false,
    abort := false }

/-- The context under which the pipeline decodes for an attachment. -/
def decodeContext (b : AttachBody) : Context := .decode b.source b.bufBase

/-- The gate context of a decode attachment on pipeline `p` (R86, R386). -/
def decodeCtx (b : AttachBody) (p : Nat) (x : Stream) : GateCtx :=
  { ctx := decodeContext b, who := [⟨4, p⟩],
    regions := [⟨b.bufBase, b.bufSize, true, true, 2, b.source⟩, ⟨x.regionBase, x.regionSize, true, false, 1, b.source⟩] }

/-! ## Taking the next access unit (R85, R88, R101) -/

/-- DECODE_BEHIND: cause 0 lag, 1 no_slot, and the access units discarded (R106); for lag at most once a second (R102). -/
def raiseBehind (k cause n : Nat) (s : State) : State :=
  if n = 0 then s
  else if cause = 0 then raiseLimited second (limKey 0x0384 k 0) n 0x0384 .source k (fun c => [it 1 0, it 4 c]) s
  else raise 0x0384 .source k [it 1 cause, it 4 n] s

/-- The decode state of a stream is discarded: pictures held, and what has been read (R87, R101). -/
def forgetDecode (a : Attach) : Attach := { a with held := [], greys := [], coded := [], needIrap := true }

/-- Access units that a source may not decode are discarded: all of a shed source, with its pictures awaiting output, and those
before the IRAP or IDR picture that it waits for; where it waits for want of a slot they are told as such (R88, R101). -/
def purgeUnits (k : Nat) (s : State) : State :=
  match mapGet s.decode.attached k with
  | none => s
  | some a =>
    let l := waitingUnits s k
    if shedNow s k (entryOf s k) then
      modAttach k (fun a => { forgetDecode a with shedDrops := a.shedDrops + l.length })
        (modStream k (fun x => { x with units := [] }) s)
    else if a.needIrap then
      let rest := l.dropWhile fun u => !isIrap a.body.codec u
      let n := if a.noSlotWait then l.length - rest.length else 0
      raiseBehind k 1 n (modAttach k (fun a => { a with slotDrops := a.slotDrops + n })
        (modStream k (fun x => { x with units := rest }) s))
    else s

/-- Picture slots not free: held as reference or for output, or scanned by a layer (R88). -/
def usedSlots (s : State) (a : Attach) : List Nat :=
  a.held.map Picture.slot ++ (a.shown.filter fun p => scans s a.body.bufBase p.au).map Picture.slot

/-- The slot that the next picture takes: the lowest-numbered free one, that of the newest picture shown only when no other is free.
DESIGN CHOICE: the manual does not say which free slot is taken. -/
def pickSlot (s : State) (a : Attach) : Option Nat :=
  let free := (List.range a.body.dpbSlots).filter fun n => !(usedSlots s a).contains n
  (free.find? fun n => (a.shown.head?.map Picture.slot) != some n).orElse fun _ => free.head?

/-- Whether access unit (class, access unit) `a` goes before `b` (R85). -/
def unitBefore (a b : Nat × AccessUnit) : Bool := a.1 < b.1 || (a.1 = b.1 && a.2.order < b.2.order)

/-- The source whose access unit a pipeline takes next: lowest class, then delivered first (R85). -/
def nextUnit (s : State) (p : Nat) : Option (Nat × AccessUnit) :=
  let heads := (onPipe s p).filterMap fun a => ((waitingUnits s a.1).head?).map fun u => (a.1, (entryOf s a.1).cls, u)
  match heads with
  | [] => none
  | h :: t =>
    let m := t.foldl (fun m x => if unitBefore (x.2.1, x.2.2) (m.2.1, m.2.2) then x else m) h
    some (m.1, m.2.2)

/-- Bytes of packet staging at the base of a stream's region (R61). -/
def stagingBytes : Nat := 4194304

/-- The pieces of the access-unit ring that `n` bytes from offset `pos` on take: address, and how many; the ring wraps at its end.
DESIGN CHOICE: the manual lays out no access-unit ring beyond its size. -/
def ringPieces (x : Stream) (pos n : Nat) : List (Nat × Nat) :=
  let size := x.regionSize - stagingBytes
  let first := min n (size - pos)
  [(x.regionBase + stagingBytes + pos, first), (x.regionBase + stagingBytes, n - first)].filter fun p => p.2 != 0

/-- An access unit read from the ring by a pipeline: whether any read was refused, whether any was poisoned (R87, R365). -/
def readUnit (p : Nat) (b : AttachBody) (x : Stream) (u : AccessUnit) (s : State) : Bool × Bool × State :=
  (ringPieces x u.addr u.bytes).foldl (fun r q =>
    let g := gatedRead ⟨4, p⟩ (decodeContext b) none q.1 q.2 r.2.2
    (r.1 || g.2.2.1, r.2.1 || g.2.2.2.1, g.2.2.2.2)) (false, false, s)

/-- The pipeline reads an access unit from the ring and has begun to decode it into a slot (R86, R87). -/
def beginUnit (p k slot : Nat) (a : Attach) (u : AccessUnit) (s : State) : State :=
  let r := match mapGet s.ingest.streams k with
    | some x => readUnit p a.body x u s
    | none => (false, false, s)
  let c : InDecode :=
    { source := k, slot := slot, startNs := s.time.mono, unit := u, fresh := a.needIrap, refused := r.1, poisoned := r.2.1 }
  let s := r.2.2
  modAttach k (fun a => { a with needIrap := false, noSlotWait := false, shown := a.shown.filter fun q => q.slot != slot })
    (setPipe p { pipeOf s p with current := some c } s)

/-- An idle pipeline takes its next access unit; one that finds no free slot is discarded, and after a reference picture what comes
before the next IRAP or IDR picture (R88). -/
def startDecodeN : Nat → Nat → State → State
  | 0, _, s => s
  | fuel + 1, p, s =>
    match nextUnit s p with
    | none => s
    | some (k, u) =>
      match mapGet s.decode.attached k with
      | none => s
      | some a =>
        let s := modStream k (fun x => { x with units := x.units.drop 1 }) s
        match pickSlot s a with
        | some slot => beginUnit p k slot a u s
        | none =>
          let r := isReference a.body.codec u
          let s := modAttach k (fun a =>
            { a with slotDrops := a.slotDrops + 1, needIrap := a.needIrap || r, noSlotWait := a.noSlotWait || r }) s
          startDecodeN fuel p (purgeUnits k (raiseBehind k 1 1 s))

/-- Pipeline `p` takes the next access unit if it is idle and not under test (R85, R105). -/
def startDecode (p : Nat) (s : State) : State :=
  let x := pipeOf s p
  if x.current.isSome then s
  else
    let s := (onPipe s p).foldl (fun s a => purgeUnits a.1 s) s
    if x.selftest.isSome then
      (onPipe s p).foldl (fun s a => modStream a.1 (fun x => { x with units := [] }) s) s
    else startDecodeN (sumN ((onPipe s p).map fun a => (waitingUnits s a.1).length) + 1) p s

/-- Every idle pipeline looks at what it may decode: a shed class stops at once where no access unit is in decode (R101). -/
def shedDecode (s : State) : State := (List.range 8).foldl (fun s p => startDecode p s) s

/-! ## Output (R95 to R97, R99, R100) -/

/-- Luma sample of a decoded picture, of 8 bits (R80, R123). -/
def luma8 (s : State) (b : AttachBody) (q : Picture) (x y : Nat) : Nat :=
  let v := pictureSample s b q 0 x y
  if q.bitDepth = 10 then v / 4 else v

/-- Ten-bit samples as a pixel group of ST 2110-20 carries them, most significant bit first. -/
def pack10 (l : List Nat) : List Byte :=
  let v : Nat := l.foldl (fun a x => a * 1024 + x % 1024) 0
  (leBytes (ceilDiv (10 * l.length) 8) v).reverse

/-- A line of a decoded picture in YCbCr 4:2:2 of 10 bits: 8-bit samples with two zero bits appended, each chroma line of 4:2:0
repeated (R72). -/
def proxyLine (s : State) (b : AttachBody) (q : Picture) (y : Nat) : List Byte :=
  let k := if q.bitDepth = 10 then 1 else 4
  let v (plane x y : Nat) := pictureSample s b q plane x y * k
  (List.range (q.width / 2)).flatMap fun i =>
    pack10 [v 1 i (y / 2), v 0 (2 * i) y, v 2 i (y / 2), v 0 (2 * i + 1) y]

/-- PROXY_STATE: sending or stopped, and the cause (0 command, 1 shed, 2 restore). -/
def raiseProxy (k : Nat) (sending : Bool) (cause : Nat) (s : State) : State :=
  raise 0x028E .source k [it 1 (flag sending), it 1 cause] s

/-- A proxy takes a decoded frame; one that the ladder stopped resumes with it once step 2 is restored (R72, R74). One that is
concealed or has no origin time is not taken (R73). -/
def proxyTake (k : Nat) (b : AttachBody) (q : Picture) (s : State) : State :=
  match mapGet s.ingest.proxies k with
  | none => s
  | some p =>
    if 2 ≤ s.mgmt.step then s
    else
      let s := if p.sending then s else raiseProxy k true 2 s
      let more : List ProxyFrame := match q.origin with
        | some o =>
          if q.concealed || !q.ownOrigin then []
          else [{ origin := o, decodedNs := s.time.mono, width := q.width, height := q.height,
                  lines := (List.range q.height).map fun y => proxyLine s b q y }]
        | none => []
      s.modIngest fun i => { i with proxies := mapPut i.proxies k { p with sending := true, queue := p.queue ++ more } }

/-- ORIGIN_REGRESSED between consecutive output pictures (R71, R100). -/
def pictureRegressed (k : Nat) (last : Option Int) (q : Picture) (s : State) : State :=
  match last, q.origin with
  | some l, some o =>
    if o.ns < l then raiseLimited second (limKey 0x028A k 0) 1 0x028A .source k (fun _ => [(4, (l - o.ns) / 1000)]) s else s
  | _, _ => s

/-- A picture output: a receipt if its own access unit has an origin time, with its element's values (R96, R100, R108, R119); one of
too great a concealed area is not output (R97). -/
def outputPicture (k : Nat) (q : Picture) (s : State) : State :=
  match mapGet s.decode.attached k with
  | none => s
  | some a =>
    if q.concealed && a.body.maxConcealPct * q.totalUnits < q.concealedUnits * 100 then
      modAttach k (fun a => { a with suppressed := a.suppressed + 1 }) s
    else
      let q := { q with awaiting := false, doneNs := s.time.mono }
      let s := modAttach k (fun a =>
        { a with
          shown := q :: a.shown, output := a.output + 1,
          concealedOut := if q.concealed then a.concealedOut + 1 else a.concealedOut,
          lastOutputOrigin := match q.origin with
            | some o => some o.ns
            | none => a.lastOutputOrigin }) s
      let s := pictureRegressed k a.lastOutputOrigin q s
      let s := match q.origin, q.ownOrigin with
        | some o, true => networkReceipt k o (q.raw.getD o) q.element q.concealed s
        | _, _ => s
      let s := proxyTake k a.body q s
      onContent k (probeFrame k q.width q.height q.concealed (luma8 s a.body q) s)

/-- Pictures output in the order given. -/
def outputAll (k : Nat) (l : List Picture) (s : State) : State := l.foldl (fun s p => outputPicture k p s) s

/-- Pictures awaiting output, in output order. -/
def awaitingOrder (l : List Picture) : List Picture := sortBy (fun a b => a.poc ≤ b.poc) (l.filter Picture.awaiting)

/-- The output process of the standard outputs a picture now: more await output than the reorder limit of the active SPS allows, or one
of them has waited for the latency limit (R99). PRESUMED: the additional bumping of H.265 C.5.2.3, for AVC with no latency limit. -/
def outputDue (x : SpsInfo) (l : List Picture) : Bool :=
  let w := l.filter Picture.awaiting
  x.reorder < w.length || (x.latency != 0 && w.any fun q => x.latency ≤ q.latency)

/-- The pictures that are output at once, in output order: as soon as the limits allow, never waiting for the slots to fill (R99). -/
def bump (x : SpsInfo) : Nat → List Picture → List Picture
  | 0, _ => []
  | fuel + 1, l =>
    if outputDue x l then
      match awaitingOrder l with
      | [] => []
      | q :: _ => q :: bump x fuel (l.filter fun o => o.au != q.au)
    else []

/-! ## What an access unit says (R78, R89, R90) -/

/-- Kind and id of a parameter set. -/
def setKey : ParamSet → Nat × Nat
  | .vps i => (0, i) | .sps i _ => (1, i) | .pps i _ _ => (2, i)

/-- The identifier of a parameter set lies in the standard's range: HEVC 16 VPS, 16 SPS, 64 PPS; AVC 32 SPS, 256 PPS (R90). -/
def setOk (codec : Nat) (x : ParamSet) : Bool :=
  match x with
  | .vps i => codec = 1 && i < 16
  | .sps i _ => if codec = 1 then i < 16 else i < 32
  | .pps i _ _ => if codec = 1 then i < 64 else i < 256

/-- The parameter sets held, with those of an access unit. -/
def keepSets (codec : Nat) (new old : List ParamSet) : List ParamSet :=
  (new.filter (setOk codec)).foldl (fun l x => x :: l.filter fun y => setKey y != setKey x) old

/-- The SPS held under an id. -/
def spsOf (l : List ParamSet) (id : Nat) : Option SpsInfo :=
  l.findSome? fun x => match x with
    | .sps i v => if i = id then some v else none
    | _ => none

/-- The PPS held under an id: the SPS it names, and whether it has more than one slice group. -/
def ppsOf (l : List ParamSet) (id : Nat) : Option (Nat × Bool) :=
  l.findSome? fun x => match x with
    | .pps i sp fmo => if i = id then some (sp, fmo) else none
    | _ => none

/-- The excluded feature that a picture meets (R78): 1 profile, 2 level, 3 sampling or bit depth, 4 fields, 5 flexible macroblock order,
6 arbitrary slice order, 7 redundant slices of Baseline. The profile and level numbers are those of the cited standards (PRESUMED);
the numbers of the features are the model's (DESIGN CHOICE). -/
def excludedFeature (codec : Nat) (x : SpsInfo) (fmo : Bool) (r : PicFacts) : Option Nat :=
  let baseline := codec = 2 && x.profile = 66 && !x.constrained
  let redundant := r.slices.any SliceFact.redundant
  let profiles := if codec = 1 then [1, 2] else [66, 77, 100]
  let depths := if codec = 1 && x.profile = 2 then [8, 10] else [8]
  if !profiles.contains x.profile then some 1
  else if (if codec = 1 then x.level < 30 || 153 < x.level else x.level < 9 || 51 < x.level) then some 2
  else if x.chroma != 1 || !depths.contains x.bitDepth then some 3
  else if x.fieldSeq || (codec = 2 && !x.frameMbsOnly) then some 4
  else if fmo then some 5
  else if baseline && r.aso then some 6
  else if baseline && redundant then some 7
  else none

/-- The limit of R89 that an SPS breaks: 1 slots, 2 size, 3 rate, 4 bit depth; 0 for none. -/
def spsLimit (b : AttachBody) (x : SpsInfo) : Nat :=
  if b.dpbSlots < x.maxDpb + 2 then 1
  else if b.maxWidth < x.width || b.maxHeight < x.height then 2
  else if b.maxRateMhz < x.rateMhz then 3
  else if b.maxBitDepth < x.bitDepth then 4
  else 0

/-- CTUs or macroblocks across a picture, and in all. -/
def ctuColumns (x : SpsInfo) : Nat := ceilDiv x.width x.ctu
/-- CTUs or macroblocks of a picture. -/
def ctuTotal (x : SpsInfo) : Nat := ctuColumns x * ceilDiv x.height x.ctu

/-- Raw bits of a CTU or macroblock: its samples, luma and chroma, times the bit depth (R90). -/
def rawBits (x : SpsInfo) (addr : Nat) : Nat :=
  let w := min x.ctu (x.width - addr % ctuColumns x * x.ctu)
  let h := min x.ctu (x.height - addr / ctuColumns x * x.ctu)
  (w * h + 2 * (ceilDiv w 2 * ceilDiv h 2)) * x.bitDepth

/-- Bins that a slice may decode (R90). -/
def binLimit (x : SpsInfo) (l : SliceFact) : Nat :=
  ceilDiv (32 * l.dataBytes) 3 + ceilDiv (sumN (l.ctus.map fun c => rawBits x c.1)) 32

/-- Limits of R90 in figures: bytes of a NAL unit, slices of a picture, bytes of SEI, ns of pipeline time. -/
def maxNalBytes : Nat := 4194304
/-- Slice segments or slices of a picture (R90). -/
def maxSlices : Nat := 600
/-- SEI bytes parsed of an access unit (R90). -/
def maxSeiBytes : Nat := 65536
/-- Pipeline time of an access unit in ns (R90). -/
def maxPipelineNs : Nat := 25000000

/-- How far the slices of a picture have been decoded: the CTUs or macroblocks decoded, the first address of the last slice, the limits
of R90 met (3 bins, 4 address, 5 time), slices abandoned, whether syntax was corrupt, and how many more may be decoded in time. -/
structure SliceRun where
  (area : List Nat)
  (last : Option Nat)
  (limits : List Nat)
  (abandoned : Nat)
  (corrupt : Bool)
  (budget : Option Nat)
deriving DecidableEq, Repr, Inhabited

/-- A slice abandoned, at a limit or at corrupt syntax. -/
def abandon (limit : Option Nat) (r : SliceRun) : SliceRun :=
  { r with abandoned := r.abandoned + 1, corrupt := true, limits := limit.toList ++ r.limits }

/-- The CTUs or macroblocks of a slice, one by one, from the `n`-th on, with `bins` decoded before it. -/
def walkCtus (x : SpsInfo) (l : SliceFact) : List (Nat × Nat) → Nat → Nat → SliceRun → SliceRun
  | [], _, _, r => r
  | (addr, b) :: t, n, bins, r =>
    if r.budget = some 0 then { r with limits := 5 :: r.limits }
    else if l.error = some n then abandon none r
    else if ctuTotal x ≤ addr || r.area.contains addr then abandon (some 4) r
    else if binLimit x l < bins + b then abandon (some 3) r
    else walkCtus x l t (n + 1) (bins + b) { r with area := addr :: r.area, budget := r.budget.map fun m => m - 1 }

/-- A slice decoded as far as R90 allows: its address lies beyond that of the slice before it. -/
def runSlice (x : SpsInfo) (r : SliceRun) (l : SliceFact) : SliceRun :=
  match l.ctus.head? with
  | none => r
  | some (first, _) =>
    if ctuTotal x ≤ first || (r.last.map fun a => decide (first ≤ a)).getD false then abandon (some 4) r
    else walkCtus x l l.ctus 0 0 { r with last := some first }

/-- The slices of a picture that arrived and are read: not redundant ones, none whose NAL unit is missing, silent or too long. -/
def readSlices (codec : Nat) (u : AccessUnit) (r : PicFacts) : List SliceFact :=
  r.slices.filter fun l => !l.redundant && match u.units[l.nal]? with
    | some n => !nalSilent codec n && n.length ≤ maxNalBytes
    | none => false

/-- Every slice of a picture decoded as far as R90 allows, `done` CTUs or macroblocks at most. -/
def runSlices (codec : Nat) (x : SpsInfo) (u : AccessUnit) (r : PicFacts) (done : Option Nat) : SliceRun :=
  let l := readSlices codec u r
  (l.take maxSlices).foldl (runSlice x)
    { area := [], last := none, limits := if maxSlices < l.length then [2] else [], abandoned := 0, corrupt := false, budget := done }

/-- SEI bytes of an access unit. -/
def seiBytes (codec : Nat) (u : AccessUnit) : Nat := sumN ((u.units.filter (nalSei codec)).map List.length)

/-- Limits of R90 that an access unit meets whatever its picture: 1 NAL unit size, 6 SEI bytes, 7 parameter sets. -/
def unitLimits (codec : Nat) (u : AccessUnit) (r : PicFacts) : List Nat :=
  (if u.units.any fun n => maxNalBytes < n.length then [1] else [])
    ++ (if maxSeiBytes < seiBytes codec u then [6] else []) ++ (if r.sets.all (setOk codec) then [] else [7])

/-! ## Damage and concealment (R92 to R95) -/

/-- Every sample of a mid-grey picture (R93). -/
def greySample (bitDepth : Nat) : Nat := 2 ^ (bitDepth - 1)

/-- A mid-grey picture substituted for each reference that the picture needs and that is not held (R92, R93). -/
def substitutes (a : Attach) (x : SpsInfo) (r : PicFacts) : List Grey :=
  (r.refs.filter fun n => !(a.held.any fun q => q.poc = n) && !(a.greys.any fun g => g.poc = n)).map fun n => ⟨n, x.bitDepth⟩

/-- What decoding an access unit has come to: its SPS, its slices, the mid-grey pictures held with its own substitutes, and what has been read since the IRAP or IDR picture. -/
structure Decoded where
  (sps : SpsInfo)
  (run : SliceRun)
  (greys : List Grey)
  (coded : List (List (List Byte)))
deriving DecidableEq, Repr, Inhabited

/-- A sample as the cited standard decodes it from what has been read and the mid-grey pictures it predicts from (R79). -/
def standardSample (d : Decoded) (plane x y : Nat) : Nat :=
  Config.decodedSample d.coded (d.greys.map fun g => (g.poc, greySample g.bitDepth)) plane x y % 2 ^ d.sps.bitDepth

/-- The CTU or macroblock of a luma position. -/
def ctuAt (x : SpsInfo) (px py : Nat) : Nat := py / x.ctu * ctuColumns x + px / x.ctu

/-- The previous picture in output order: of those awaiting output the latest before it, else the one output last (R92). -/
def previousPicture (a : Attach) (poc : Nat) : Option Picture :=
  ((awaitingOrder a.held).reverse.find? fun q => q.poc < poc).orElse fun _ => a.shown.head?

/-- A sample of the concealed area: the co-located one of the previous picture, or mid-grey if there is none (R92, R93). -/
def concealSample (s : State) (a : Attach) (d : Decoded) (prev : Option Picture) (plane x y : Nat) : Nat :=
  let k := if plane = 0 then 1 else 2
  match prev with
  | some q =>
    if q.bitDepth = d.sps.bitDepth && x * k < q.width && y * k < q.height then pictureSample s a.body q plane x y else greySample d.sps.bitDepth
  | none => greySample d.sps.bitDepth

/-- A sample of the picture as it is written. -/
def finalSample (s : State) (a : Attach) (d : Decoded) (prev : Option Picture) (plane x y : Nat) : Nat :=
  let k := if plane = 0 then 1 else 2
  if d.run.area.contains (ctuAt d.sps (x * k) (y * k)) then standardSample d plane x y else concealSample s a d prev plane x y

/-- A sample as bytes: one, or two with the sample in bits [15:6] (R80). -/
def sampleOut (bitDepth v : Nat) : List Byte := if sampleBytes bitDepth = 1 then leBytes 1 v else leBytes 2 (v * 64 : Nat)

/-- The lines of a picture with their addresses: luma, then Cb and Cr interleaved (R80). -/
def pictureLines (b : AttachBody) (slot : Nat) (x : SpsInfo) (v : Nat → Nat → Nat → Nat) : List (Nat × List Byte) :=
  let out := sampleOut x.bitDepth
  (List.range x.height).map (fun y => (pictureLine b slot 0 y, (List.range x.width).flatMap fun i => out (v 0 i y)))
    ++ (List.range (ceilDiv x.height 2)).map (fun y =>
      (pictureLine b slot 1 y, (List.range (ceilDiv x.width 2)).flatMap fun i => out (v 1 i y) ++ out (v 2 i y)))

/-- Lines written through the memory gate: whether any write was refused (R86, R87). -/
def writeLines (who : Initiator) (c : Context) (l : List (Nat × List Byte)) (s : State) : Bool × State :=
  l.foldl (fun r x =>
    let w := gatedWrite who c none x.1 x.2 r.2
    (r.1 || w.2.1, w.2.2)) (false, s)

/-- A decoded picture hash SEI disagrees with the picture as decoded; SEI beyond the bytes parsed is ignored (R79, R90, R92). -/
def hashDiffers (codec : Nat) (u : AccessUnit) (r : PicFacts) (lines : List (Nat × List Byte)) : Bool :=
  match r.hash with
  | some (t, v) => seiBytes codec u ≤ maxSeiBytes && Config.pictureHash t (lines.flatMap Prod.snd) != v
  | none => false

/-- The conservative origin of R95. -/
def conservative (o : Origin) : Int := o.ns - o.uNs

/-- The origin time a CONCEALED picture takes (R95). -/
def concealedOrigin (last own : Option Origin) : Option Origin :=
  match last, own with
  | some l, some o => if conservative o < conservative l then some o else some l
  | some l, none => some l
  | none, o => o

/-- What was found wrong with a picture: a gate fault, the CTUs or macroblocks that count as concealed area, whether it was predicted from a
mid-grey picture or from a CONCEALED one, and the cause DECODE_CONCEALED names: 0 corrupt syntax, 1 missing NAL unit, 2 missing
reference, 3 hash mismatch, 4 gate fault (R92, R94, R106). -/
structure Verdict where
  (fault : Bool)
  (area : Nat)
  (predicted : Bool)
  (cause : Nat)
deriving DecidableEq, Repr, Inhabited

/-- The damage of a picture (R87, R92, R365). A gate fault or a poisoned read damages all of it: DEDUCED, where in the picture it fell is not
known. -/
def judgeDamage (a : Attach) (u : AccessUnit) (r : PicFacts) (d : Decoded) (fault poisoned differs : Bool) : Verdict :=
  let total := ctuTotal d.sps
  let own := if fault || poisoned || differs then total else total - d.run.area.length
  let grey := r.refs.any fun n => d.greys.any fun g => g.poc = n
  { fault := fault, area := own, predicted := grey || r.refs.any fun n => a.held.any fun q => q.poc = n && q.concealed,
    cause := if fault then 4 else if d.run.corrupt then 0 else if !u.complete || d.run.area.length < total then 1 else if grey then 2 else if differs then 3 else 2 }

/-- The picture is CONCEALED (R94). -/
def isConcealed (a : Attach) (u : AccessUnit) (v : Verdict) : Bool :=
  if isIrap a.body.codec u then v.area != 0
  else v.area != 0 || v.predicted || a.concealing || (isRasl a.body.codec u && a.raslConcealed)

/-- Whether a picture CONCEALED only as a RASL picture of the IRAP that ended concealment: it begins no concealment (R94). -/
def onlyRasl (a : Attach) (u : AccessUnit) (v : Verdict) : Bool :=
  isRasl a.body.codec u && a.raslConcealed && !a.concealing && v.area = 0

/-- The picture decoded from an access unit. -/
def pictureOf (a : Attach) (c : InDecode) (r : PicFacts) (d : Decoded) (v : Verdict) (concealed : Bool) : Picture :=
  let u := c.unit
  let o := if concealed then concealedOrigin a.lastIntact u.origin else u.origin
  let colour := d.sps.colour.getD (0, 0)
  { au := u.number, poc := r.poc, slot := c.slot, origin := o, raw := u.raw, originUs := (o.map originUs).getD 0,
    ownOrigin := u.origin.isSome, awaiting := r.output, reference := isReference a.body.codec u, latency := 0, concealed := concealed,
    width := d.sps.width, height := d.sps.height, bitDepth := d.sps.bitDepth, colorimetry := colour.1, range := colour.2,
    concealedUnits := v.area, totalUnits := ctuTotal d.sps, element := u.element, fields := u.fields, doneNs := 0 }

/-- Entering or staying in concealment is told (R106). -/
def tellConcealed (k : Nat) (entering : Bool) (v : Verdict) (poc : Nat) (s : State) : State :=
  let key := limKey 0x0380 k 0
  let s := if entering then s.modQueue fun q => { q with limiters := mapDel q.limiters key } else s
  raiseLimited second key v.area 0x0380 .source k (fun n => [it 1 v.cause, it 4 poc, it 4 n]) s

/-- Each limit of R90 reached is told, with the picture order count (R106); an access unit abandoned at 25 ms is counted. -/
def tellLimits (k : Nat) (l : List Nat) (poc : Nat) (s : State) : State :=
  l.eraseDups.foldl (fun s n =>
    raise 0x0385 .source k [it 1 n, it 4 poc]
      (modAttach k (fun a => { a with abandoned := if n = 5 then a.abandoned + 1 else a.abandoned }) s)) s

/-- The pictures that a sequence starting anew leaves behind: all awaiting output are output, or discarded where
no_output_of_prior_pics_flag says so, and none stays a reference (R92). -/
def leaveSequence (k : Nat) (noPrior : Bool) (s : State) : State :=
  match mapGet s.decode.attached k with
  | none => s
  | some a =>
    let s := if noPrior then s else outputAll k (awaitingOrder a.held) s
    modAttach k (fun a => { a with held := [], greys := [] }) s

/-- The picture in its place: what stays held, concealment, and what is output now (R92, R94, R96, R99). -/
def placePicture (k : Nat) (c : InDecode) (r : PicFacts) (d : Decoded) (v : Verdict) (s : State) : State :=
  match mapGet s.decode.attached k with
  | none => s
  | some a =>
    let irap := isIrap a.body.codec c.unit
    let con := isConcealed a c.unit v
    let p := pictureOf a c r d v con
    let recovered := a.concealing && irap && !con
    let older (q : Picture) : Picture :=
      { q with
        reference := q.reference && r.keeps.contains q.poc,
        latency := if p.awaiting && q.awaiting && p.poc < q.poc then q.latency + 1 else q.latency }
    let pool := a.held.map older ++ [p]
    let outs := bump d.sps (pool.length + 1) pool
    let settle (q : Picture) : Picture := if outs.any fun o => o.au = q.au then { q with awaiting := false } else q
    let s := modAttach k (fun a =>
      { a with
        held := (pool.map settle).filter fun q => q.awaiting || q.reference,
        greys := d.greys.filter fun g => r.keeps.contains g.poc, coded := d.coded,
        concealing := if irap then con else a.concealing || (con && !onlyRasl a c.unit v),
        raslConcealed := if irap then recovered else a.raslConcealed, raslSkipped := if irap then c.fresh || isIdrBla a.body.codec c.unit else a.raslSkipped,
        lastIntact := if con then a.lastIntact else c.unit.origin,
        slicesAbandoned := a.slicesAbandoned + d.run.abandoned }) s
    let s := if con then tellConcealed k (!a.concealing) v r.poc s else s
    let s := if recovered then raise 0x0381 .source k [(8, (c.unit.origin.map Origin.ns).getD 0)] s else s
    outputAll k outs s

/-- A gate fault of the pipeline: an internal fault of the module, DECODE_FAULT with the record of its access, and the stream's decode
state discarded (R87). -/
def decodeFault (k p : Nat) (s : State) : State :=
  match mapGet s.decode.attached k with
  | none => s
  | some a =>
    let rec_ := ((s.gates.faults.find? fun f => f.ctx = decodeContext a.body).map GateFault.seq).getD s.gates.lastFaultSeq
    raise 0x0386 .source k [it 4 rec_] (modAttach k forgetDecode (logInternal (initiatorId ⟨4, p⟩) 1 s))

/-- A picture whose SPS is in force decoded, written to its slot and put in its place (R79, R80, R87, R92). -/
def decodePicture (k p : Nat) (c : InDecode) (r : PicFacts) (x : SpsInfo) (done : Option Nat) (s : State) : State :=
  match mapGet s.decode.attached k with
  | none => s
  | some a =>
    let codec := a.body.codec
    let u := c.unit
    let run := runSlices codec x u r done
    let run := if c.refused || c.poisoned then { run with corrupt := true } else run
    let read := u.units.filter fun n => !nalSilent codec n
    let d : Decoded :=
      { sps := x, run := run, greys := a.greys ++ substitutes a x r, coded := if isIrap codec u then [read] else a.coded ++ [read] }
    let s := tellLimits k (unitLimits codec u r ++ run.limits.reverse) r.poc s
    if run.area.isEmpty then
      let s := modAttach k (fun a => { a with greys := d.greys, slicesAbandoned := a.slicesAbandoned + run.abandoned }) s
      if c.refused then decodeFault k p s else s
    else
      let lines := pictureLines a.body c.slot x (finalSample s a d (previousPicture a r.poc))
      let w := writeLines ⟨4, p⟩ (decodeContext a.body) lines s
      let fault := c.refused || w.1
      let v := judgeDamage a u r d fault c.poisoned (hashDiffers codec u r lines)
      let s := placePicture k c r d v w.2
      if fault then decodeFault k p s else s

/-- The SPS of an IRAP or IDR picture takes effect: what came before is output or discarded, and a new format is told (R89, R92). -/
def activateSps (k : Nat) (x : SpsInfo) (noPrior fresh : Bool) (s : State) : State :=
  match mapGet s.decode.attached k with
  | none => s
  | some a =>
    let s := if fresh || a.active != some x then leaveSequence k noPrior s else s
    let s := modAttach k (fun a => { a with active := some x }) s
    if a.active = some x then s else raise 0x0387 .source k [it 2 x.width, it 2 x.height, it 1 x.bitDepth, it 1 x.profile] s

/-- An access unit ends as the decoding process and its limits say: parameter sets are stored; its picture, if a PPS and an SPS apply to it,
is left undecoded where R78 excludes it or R89 refuses its SPS, and is decoded otherwise (R78, R89, R90, R92). A RASL picture of an IRAP that
decoding started with is not output (PRESUMED: H.265 8.1.3). -/
def endUnit (p : Nat) (c : InDecode) (r : PicFacts) (done : Option Nat) (s : State) : State :=
  let k := c.source
  match mapGet s.decode.attached k with
  | none => s
  | some a =>
    let codec := a.body.codec
    let sets := keepSets codec r.sets a.sets
    let s := modAttach k (fun a => { a with sets := sets }) s
    let irap := isIrap codec c.unit
    let pps := ppsOf sets r.pps
    let x := if irap then pps.bind fun q => spsOf sets q.1 else a.active
    match pps, x with
    | some q, some x =>
      match excludedFeature codec x q.2 r with
      | some f =>
        raise 0x0382 .source k [it 1 x.profile, it 1 f] (modAttach k (fun a => { a with unsupported := a.unsupported + 1, active := some x }) s)
      | none =>
        if irap && spsLimit a.body x != 0 then raise 0x0383 .source k [it 1 (spsLimit a.body x)] (modAttach k (fun a => { a with needIrap := true }) s)
        else if isRasl codec c.unit && a.raslSkipped then s
        else decodePicture k p c r x done (if irap then activateSps k x r.noPrior (c.fresh || isIdrBla codec c.unit) s else s)
    | _, _ =>
      let s := tellLimits k (unitLimits codec c.unit r) r.poc s
      if c.refused then decodeFault k p s else s

/-- A pipeline finishes its access unit and takes the next (R85). -/
def pipelineEnd (p : Nat) (r : PicFacts) (done : Option Nat) (s : State) : State :=
  match (pipeOf s p).current with
  | none => s
  | some c => startDecode p (endUnit p c r done (setPipe p { pipeOf s p with current := none } s))

/-- How long the access unit in decode has been in the pipeline. -/
def pipelineTime (s : State) (p : Nat) : Nat := ((pipeOf s p).current.map fun c => s.time.mono - c.startNs).getD 0

/-- PICTURE_DECODE_END (R92): within 25 ms of pipeline time, beyond which only DECODE_PIPELINE_TIMEOUT ends an access unit (R91). -/
def execPictureDecodeEnd (p : Nat) (r : PicFacts) (s : State) : Host.Outcome State Fault Refusal :=
  .next (if pipelineTime s p ≤ maxPipelineNs then pipelineEnd p r none s else s)

/-- DECODE_PIPELINE_TIMEOUT (R90): at 25 ms of pipeline time the access unit is abandoned; what is not decoded, after the CTUs or macroblocks
that were, is concealed. -/
def execDecodePipelineTimeout (p : Nat) (r : PartFacts) (s : State) : Host.Outcome State Fault Refusal :=
  .next (if maxPipelineNs ≤ pipelineTime s p then pipelineEnd p r.facts (some r.done) s else s)

/-- Lag: from the delivery of the stream's oldest undecoded access unit, in decode or waiting, to now (R102). -/
def lagOf (s : State) (k : Nat) : Nat :=
  let inPipe := (mapGet s.decode.attached k).bind fun a => (pipeOf s a.pipeline).current.bind fun c => if c.source = k then some c.unit else none
  ((inPipe.orElse fun _ => (waitingUnits s k).head?).map fun u => s.time.mono - u.deliveredNs).getD 0

/-- Waiting access units of a stream replaced by `rest`, the ones discarded counted and told (R102). -/
def dropForLag (k : Nat) (rest : List AccessUnit) (s : State) : State :=
  let n := (waitingUnits s k).length - rest.length
  raiseBehind k 0 n (modAttach k (fun a => { a with lagDrops := a.lagDrops + n }) (modStream k (fun x => { x with units := rest }) s))

/-- DECODE_LAG (R102): above 500 ms everything that waits before the next IRAP or IDR picture goes, and while lag is above 250 ms what is no
reference. -/
def execDecodeLag (k : Nat) (s : State) : Host.Outcome State Fault Refusal :=
  .next
    (match mapGet s.decode.attached k with
     | none => s
     | some a =>
       let codec := a.body.codec
       let l := waitingUnits s k
       let rest := if 500000000 < lagOf s k then l.dropWhile fun u => !isIrap codec u else l
       let gone := rest.length < l.length
       let rest := if 250000000 < lagOf s k then rest.filter (isReference codec) else rest
       startDecode a.pipeline (modAttach k (fun a => { a with needIrap := a.needIrap || gone }) (dropForLag k rest s)))

/-! ## Attach and detach -/

/-- DECODE_ATTACH (R82 to R84, R86, R113, R124, R127). -/
def decodeAttachBody (b : AttachBody) (tk : Ticket) (s : State) : State :=
  let c := attachCheck b s
  if c != 0 then complete tk c [] s
  else
    let r := placeAttach b s
    if r.1 != 0 then complete tk r.1 [] s
    else
      let s := s.modDecode fun d => { d with attached := mapPut d.attached b.source (newAttach b r.2) }
      let s := match mapGet s.ingest.streams b.source with
        | some x => addCtx (decodeCtx b r.2 x) s
        | none => s
      let e := entryOf s b.source
      let s := enterUnknown b.source { e with concealScorch := b.policy = 1 } s
      complete tk 0 [] (startDecode r.2 s)

/-- DECODE_ATTACH (R82). -/
def execDecodeAttach (d : Desc) (b : AttachBody) (s : State) : Host.Outcome State Fault Refusal :=
  .next (onTake d (.decodeAttach b) (decodeAttachBody b) s)

/-- What an aborted detach throws away: the picture in decode, what waits, and the pictures awaiting output (R103). -/
def abortDecode (k : Nat) (s : State) : State :=
  match mapGet s.decode.attached k with
  | none => s
  | some a =>
    let x := pipeOf s a.pipeline
    let s := match x.current with
      | some c => if c.source = k then setPipe a.pipeline { x with current := none } s else s
      | none => s
    let s := modStream k (fun x => { x with units := [] }) s
    startDecode a.pipeline (modAttach k (fun a => { forgetDecode a with abort := true, draining := true }) s)

/-- A detach starts (R103). -/
def startDetach (k : Nat) (tks : List Ticket) (byClose abort : Bool) (s : State) : State :=
  let s := modAttach k (fun a =>
    { a with draining := true, byClose := a.byClose || byClose, detachTickets := a.detachTickets ++ tks }) s
  if abort then abortDecode k s else s

/-- DECODE_DETACH (R103): a drain already in progress is joined, and turned into an aborted one with abort. -/
def decodeDetachBody (k : Nat) (abort : Bool) (tk : Ticket) (s : State) : State :=
  match mapGet s.decode.attached k with
  | none => complete tk 0x0333 [] s
  | some a =>
    let s := startDetach k [tk] false abort s
    if abort && a.byClose then modStream k (fun x => { x with discarded := true }) s else s

/-- DECODE_DETACH (R103). -/
def execDecodeDetach (d : Desc) (k : Nat) (abort : Bool) (s : State) : Host.Outcome State Fault Refusal :=
  .next (onTake d (.decodeDetach k abort) (decodeDetachBody k abort) s)

/-- The drain has nothing left to decode. -/
def drained (s : State) (k : Nat) (a : Attach) : Bool :=
  (waitingUnits s k).isEmpty && (match (pipeOf s a.pipeline).current with
    | some c => c.source != k
    | none => true)

/-- The end of a detach drain (R103): every picture awaiting output is output, the stream stops receiving pictures, the
buffer set stays guarded, and the commands complete; a detach taken as a command withdraws the source (R113). -/
def finishDetach (k : Nat) (a : Attach) (s : State) : State :=
  let s := if a.abort then s else outputAll k (awaitingOrder a.held) s
  let a := (mapGet s.decode.attached k).getD a
  let s := s.modDecode fun d =>
    { d with
      attached := mapDel d.attached k, guards := mapPut d.guards a.body.bufBase (a.body.bufSize, k),
      closed := mapPut d.closed a.body.bufBase a }
  let s := if a.byClose then s else changeEntry k { entryOf s k with withdrawn := true } .detach s
  a.detachTickets.foldl (fun s t => complete t 0 [] s) s

/-- DECODE_DETACH_COMPLETE (R103). -/
def execDecodeDetachComplete (k : Nat) (s : State) : Host.Outcome State Fault Refusal :=
  .next
    (match mapGet s.decode.attached k with
     | none => s
     | some a => if a.draining && (a.abort || drained s k a) then finishDetach k a s else s)

/-- DECODE_POLICY (R98): for the verdict the change counts now, for R97 from the next picture output. -/
def decodePolicyBody (k policy pct : Nat) (tk : Ticket) (s : State) : State :=
  if 1 < policy || 100 < pct || Config.sources ≤ k then complete tk 0x0130 [] s
  else if !mapHas s.decode.attached k then complete tk 0x0333 [] s
  else
    let s := modAttach k (fun a => { a with body := { a.body with policy := policy, maxConcealPct := pct } }) s
    complete tk 0 [] (changeEntry k { entryOf s k with concealScorch := policy = 1 } .command s)

/-- DECODE_POLICY (R98). -/
def execDecodePolicy (d : Desc) (k policy pct : Nat) (s : State) : Host.Outcome State Fault Refusal :=
  .next (onTake d (.decodePolicy k policy pct) (decodePolicyBody k policy pct) s)

/-- The decode status record. -/
def decodeStatusItems (a : Attach) : Items :=
  let v := a.active.getD default
  [it 1 a.pipeline, it 1 v.profile, it 1 v.tier, it 1 v.level, it 2 v.width, it 2 v.height, it 1 v.bitDepth, it 8 a.output, it 8 a.concealedOut,
   it 8 a.suppressed, it 8 a.slicesAbandoned, it 8 a.lagDrops, it 8 a.slotDrops, it 8 a.shedDrops, it 8 a.unsupported,
   it 8 a.abandoned]

/-- DECODE_STATUS (R285). -/
def decodeStatusBody (k : Nat) (tk : Ticket) (s : State) : State :=
  match mapGet s.decode.attached k with
  | none => complete tk 0x0333 [] s
  | some a => completeRecord tk 256 (decodeStatusItems a) [] s

/-- DECODE_STATUS (R285). -/
def execDecodeStatus (d : Desc) (k : Nat) (s : State) : Host.Outcome State Fault Refusal :=
  .next (onTake d (.decodeStatus k) (decodeStatusBody k) s)

/-- DECODE_SELFTEST (R105): refused while a test runs, or unless the pipeline carries no stream or the module is in
MAINTENANCE. -/
def decodeSelftestBody (p : Nat) (tk : Ticket) (s : State) : State :=
  if 7 < p then complete tk 0x0130 [] s
  else if (pipeOf s p).selftest.isSome || (!(onPipe s p).isEmpty && s.module.mode != .maintenance) then complete tk 0x0334 [] s
  else startDecode p (setPipe p { current := none, selftest := some tk } s)

/-- DECODE_SELFTEST (R105). -/
def execDecodeSelftest (d : Desc) (p : Nat) (s : State) : Host.Outcome State Fault Refusal :=
  .next (onTake d (.decodeSelftest p) (decodeSelftestBody p) s)

/-- DECODE_SELFTEST_DONE (R105): pass, or fail with the first differing picture; each stream resumes at the next IRAP or
IDR picture. -/
def execDecodeSelftestDone (p : Nat) (firstDiffering : Option Nat) (s : State) : Host.Outcome State Fault Refusal :=
  .next
    (match (pipeOf s p).selftest with
     | none => s
     | some tk =>
       let s := setPipe p { current := none, selftest := none } s
       let s := (onPipe s p).foldl (fun s a => modAttach a.1 forgetDecode s) s
       complete tk 0 (match firstDiffering with
         | none => [it 1 0]
         | some n => [it 1 1, it 4 n]) (startDecode p s))

/-- DECODE_RELEASED (R104): no layer scans any slot of a detached buffer set; its gate rule is released. -/
def execDecodeReleased (bufBase : Nat) (s : State) : Host.Outcome State Fault Refusal :=
  .next
    (match mapGet s.decode.guards bufBase with
     | none => s
     | some (_, k) =>
       if scansBase s bufBase || contextHeld s (.decode k bufBase) then s
       else
         let s := s.modDecode fun d => { d with guards := mapDel d.guards bufBase, closed := mapDel d.closed bufBase }
         let s := dropCtx (.decode k bufBase) s
         raise 0x0388 .source k [it 8 bufBase] s)

end Sys2Proof.Machine
end

