-- ==== Sys2Proof/Machine/Ingest.lean ====
section
/-! DEFINITION. Network ingest (R51 to R55, R60 to R77): ports, streams, reception, origin times, proxies, closing. -/

namespace Sys2Proof.Machine

open Sys2Proof

/-! ## Ports (R51 to R53) -/

/-- Wire figures of an interface in Mb/s: 96,000 at 100GbE, 24,000 at 25GbE (R60). -/
def laneMbps (s : State) (port : Nat) : Nat :=
  match mapGet s.ingest.ports port with
  | some p => if p.mode = 1 then 96000 else 24000
  | none => 0

/-- A port is used by an ingest leg or a proxy stream (R53). -/
def portUsed (s : State) (port : Nat) : Bool :=
  (mapVals s.ingest.streams).any (fun x => x.legs.any fun l => l.leg.port = port)
    || (mapVals s.ingest.proxies).any fun p => p.body.port = port

/-- The fields of the port-configure descriptor in their ranges (R51, R52). -/
def portFieldsOk (b : PortBody) (maxPort : Nat) : Bool :=
  b.port ≤ maxPort && b.lane ≤ 3 && b.mode ≤ 2 && b.fec ≤ 3 && b.vlan < 4096 && b.pcp < 8
    && (!b.ipv4En || (8 ≤ b.ipv4Prefix && b.ipv4Prefix ≤ 30)) && (!b.ipv6En || (16 ≤ b.ipv6Prefix && b.ipv6Prefix ≤ 127))
    && (b.mode != 1 || (b.lane = 0 && b.fec != 2))

/-- An interface as a port-configure descriptor sets it. -/
def laneOf (b : PortBody) (old : Lane) : Lane :=
  { old with fec := b.fec, vlan := b.vlan, pcp := b.pcp, ipv4En := b.ipv4En, ipv6En := b.ipv6En, ipv4 := b.ipv4,
             ipv4Prefix := b.ipv4Prefix, ipv6 := b.ipv6, ipv6Prefix := b.ipv6Prefix }

/-- The addresses or the VLAN of an interface change. -/
def laneChanges (b : PortBody) (l : Lane) : Bool :=
  b.vlan != l.vlan || b.ipv4En != l.ipv4En || b.ipv6En != l.ipv6En || b.ipv4 != l.ipv4 || b.ipv4Prefix != l.ipv4Prefix
    || b.ipv6 != l.ipv6 || b.ipv6Prefix != l.ipv6Prefix

/-- A port of the module, DISABLED where it was never set. -/
def portOf (s : State) (port : Nat) : IngestPort := mapGetD s.ingest.ports port IngestPort.init

/-- The checks of PORT_CONFIGURE; 0 when none fails. -/
def portConfigureCheck (b : PortBody) (s : State) : Nat :=
  let p := portOf s b.port
  if !portFieldsOk b 5 then 0x0120
  else if b.lane != 0 && (b.mode != 2 || p.mode != 2) then 0x0120
  else if portUsed s b.port && ((b.lane = 0 && b.mode != p.mode) || laneChanges b (mapGetD p.lanes b.lane Lane.init)) then 0x0322
  else 0

/-- PORT_CONFIGURE (R51 to R53). Lanes 1–3 keep their settings while the port is not in BREAKOUT_25G. DESIGN CHOICE: the manual does not say
what becomes of them. -/
def portConfigureBody (b : PortBody) (tk : Ticket) (s : State) : State :=
  let c := portConfigureCheck b s
  if c != 0 then complete tk c [] s
  else
    let p := portOf s b.port
    let lane := laneOf b (mapGetD p.lanes b.lane Lane.init)
    let p := { p with mode := if b.lane = 0 then b.mode else p.mode, lanes := mapPut p.lanes b.lane lane }
    complete tk 0 [] (s.modIngest fun i => { i with ports := mapPut i.ports b.port p })

/-- PORT_CONFIGURE (R51). -/
def execPortConfigure (d : Desc) (b : PortBody) (s : State) : Host.Outcome State Fault Refusal :=
  .next (onTake d (.portConfigure b) (portConfigureBody b) s)

/-- OPTICS_CHANGE (R51): inserted (0), removed (1) or alarms (2); of optics inserted the identity is read. -/
def execOpticsChange (port what : Nat) (f : OpticsFacts) (s : State) : Host.Outcome State Fault Refusal :=
  .next
    (if mainUp s && port ≤ 5 then
      let p := portOf s port
      let p := { p with opticsIn := if what = 0 then true else if what = 1 then false else p.opticsIn,
                        opticsId := if what = 0 then f.identity else if what = 1 then [] else p.opticsId,
                        opticsAlarms := if what = 2 then f.alarms else if what = 1 then 0 else p.opticsAlarms }
      raise 0x0284 .port port [it 1 what, it 4 f.alarms] (s.modIngest fun i => { i with ports := mapPut i.ports port p })
    else s)

/-- PORT_LINK (R77). -/
def execPortLink (port lane : Nat) (up : Bool) (s : State) : Host.Outcome State Fault Refusal :=
  .next
    (if mainUp s && port ≤ 5 && (ingestLane s port lane).isSome then
      let p := portOf s port
      let p := { p with lanes := mapUpd p.lanes lane fun l => { l with linkUp := up } }
      raise 0x0283 .port port [it 1 lane, it 1 (flag up)] (s.modIngest fun i => { i with ports := mapPut i.ports port p })
    else s)

/-- QUERY_RX (R54): an IGMPv3 or MLDv2 query is answered with a report of every group joined on the interface. -/
def execQueryRx (port lane : Nat) (mld : Bool) (s : State) : Host.Outcome State Fault Refusal :=
  .next
    (let legs := (mapVals s.ingest.streams).flatMap fun x => x.legs.map LegRt.leg
     let mine := legs.filter fun l => l.port = port && l.lane = lane && l.ipv6 = mld && isMulticast l.ipv6 l.group
     if mainUp s && (ingestLane s port lane).isSome && !mine.isEmpty then
       emit (.packet port lane (if mld then "MLD_REPORT" else "IGMP_REPORT")
         (mine.flatMap fun l => [(l.group : Int), (l.source : Int)])) s
     else s)

/-! ## INGEST_OPEN (R60 to R63) -/

/-- The jitter allowance in force (ingest parameter block). -/
def jitterUs (p : IngestParams) : Nat := if p.jitterUs = 0 then (if p.media = 0 then 2000 else 50000) else p.jitterUs

/-- p of R61 times 4. -/
def bytes4 (sampling : Nat) : Nat := match sampling with
  | 0 => 10 | 1 => 12 | 2 => 15 | 3 => 12 | _ => 15

/-- Bytes a line takes in a frame slot (R61). -/
def linePitch (p : IngestParams) : Nat := alignUp (ceilDiv (p.width * bytes4 p.sampling) 4) 256

/-- frame_bytes, rounded up to a whole slot (R61). -/
def slotSize (p : IngestParams) : Nat := alignUp (p.height * linePitch p) 4096

/-- The minimum region size (R61). -/
def minRegion (p : IngestParams) : Nat :=
  if p.media = 0 then stagingBytes + p.frameSlots * slotSize p
  else stagingBytes + alignUp (ceilDiv (125000 * p.peakMbps * (jitterUs p + 1000000)) 1000000) 4096

/-- A leg record's fields in their ranges. -/
def legFieldsOk (l : Leg) : Bool := l.udpPort < 65536 && l.port ≤ 5 && l.lane ≤ 3

/-- Every field of the parameter block in its range. -/
def ingestFieldsOk (b : IngestOpenBody) : Bool :=
  let p := b.params
  b.source < Config.sources && b.paramLen = 256 && b.regionBase % 4096 = 0 && b.regionSize % 4096 = 0
    && inDram b.regionBase b.regionSize && p.rz
    && p.media ≤ 2 && p.timingMode ≤ 2 && (p.legCount = 1 || p.legCount = 2) && 96 ≤ p.payloadType && p.payloadType ≤ 127
    && p.rateDen != 0 && p.rateDen ≤ p.rateNum && p.rateNum ≤ 120 * p.rateDen
    && p.colorimetry ≤ 2 && p.range ≤ 1 && p.packing ≤ 1 && 1000 ≤ p.rtpClockHz && p.rtpClockHz ≤ 1000000
    && (p.jitterUs = 0 || (500 ≤ p.jitterUs && p.jitterUs ≤ 500000)) && p.freshExtId ≤ 255
    && (if p.media = 0 then p.sampling ≤ 4 && 3 ≤ p.frameSlots && p.frameSlots ≤ 8 && p.rtpClockHz = 90000
        else p.width = 0 && p.height = 0 && p.sampling = 0 && p.colorimetry = 0 && p.frameSlots = 0)
    && (p.timingMode != 1 || (1 ≤ p.driftPpm && p.driftPpm ≤ 1000))
    && legFieldsOk p.legA && (p.legCount = 1 || legFieldsOk p.legB)

/-- The format lies inside the subset of R54. -/
def formatOk (p : IngestParams) : Bool :=
  p.media != 0 || (64 ≤ p.width && p.width ≤ 4096 && 64 ≤ p.height && p.height ≤ 2160)

/-- The legs in use. -/
def legsOf (p : IngestParams) : List Leg := if p.legCount = 2 then [p.legA, p.legB] else [p.legA]

/-- A leg names an interface that its port provides, with its IP version enabled (R60). -/
def legOk (s : State) (l : Leg) : Bool :=
  match ingestLane s l.port l.lane with
  | none => false
  | some i => if l.ipv6 then i.ipv6En else i.ipv4En

/-- Leg B lies on the partner port, on the same lane, with the same IP version (R60). -/
def pairOk (p : IngestParams) : Bool :=
  p.legCount = 1
    || (p.legB.port / 2 = p.legA.port / 2 && p.legB.port != p.legA.port && p.legB.lane = p.legA.lane
      && p.legB.ipv6 = p.legA.ipv6)

/-- Declared load of an interface in Mb/s. -/
def laneLoad (s : State) (port lane : Nat) : Nat :=
  sumN ((mapVals s.ingest.streams).map fun x =>
    x.params.peakMbps * (x.legs.filter fun l => l.leg.port = port && l.leg.lane = lane).length)

/-- The interfaces carry the stream (R60). -/
def lanesFit (s : State) (p : IngestParams) : Bool :=
  (legsOf p).all fun l => laneLoad s l.port l.lane + p.peakMbps ≤ laneMbps s l.port

/-- Load of a stream engine in Mb/s and its streams (R62). -/
def engineLoad (s : State) (e : Nat) : Nat :=
  sumN (((mapVals s.ingest.streams).filter fun x => x.engine = e).map fun x => x.params.peakMbps * x.params.legCount)

/-- Streams on an engine. -/
def engineStreams (s : State) (e : Nat) : Nat := ((mapVals s.ingest.streams).filter fun x => x.engine = e).length

/-- The engine a stream is placed on: of SE0 to SE30 with fewer than four streams and at most 20,000 Mb/s with it, the one
of lowest load, then of lowest index (R62). -/
def placeEngine (s : State) (p : IngestParams) : Option Nat :=
  let ok := (List.range 31).filter fun e => engineStreams s e < 4 && engineLoad s e + p.peakMbps * p.legCount ≤ 20000
  match ok with
  | [] => none
  | e :: t => some (t.foldl (fun m x => if engineLoad s x < engineLoad s m then x else m) e)

/-- The checks of R60 in order; 0 when none fails. -/
def ingestOpenCheck (b : IngestOpenBody) (s : State) : Nat :=
  let p := b.params
  if !ingestFieldsOk b then 0x0120
  else if !formatOk p then 0x0121
  else if !((legsOf p).all fun l => legOk s l) || !pairOk p then 0x0122
  else if mapHas s.ingest.streams b.source ||
    !((entryOf s b.source).kind = .free || (entryOf s b.source).kind = .network) then 0x0320
  else if Config.maxStreams ≤ s.ingest.streams.length then 0x0220
  else if !lanesFit s p || (placeEngine s p).isNone then 0x0221
  else if b.regionSize < minRegion p then 0x0222
  else if dramBusy s b.regionBase b.regionSize then 0x0323
  else 0

/-- A leg that has heard nothing. -/
def newLeg (l : Leg) (now : Nat) : LegRt :=
  { leg := l, lastNs := now, heard := false, silent := false, packets := 0, duplicates := 0, late := 0, missing := 0,
    ssrcMismatch := 0, lastExt := none, ssrc := none }

/-- A stream just opened. -/
def newStream (b : IngestOpenBody) (engine now : Nat) : Stream :=
  { params := b.params, regionBase := b.regionBase, regionSize := b.regionSize, engine := engine,
    legs := (legsOf b.params).map fun l => newLeg l now, open_ := [], heldSeqs := [], closedTs := [],
    firstPending := true, slots := [], units := [], ringPos := 0, nextNumber := 0, delivered := 0, incomplete := 0, overflowed := 0,
    report := none, lastOrigin := none, lastFields := [], lossLate := 0, lossMissing := 0, lossIncomplete := 0, lossNs := 0,
    closing := none, discarded := false, closeAbort := false, stopped := false }

/-- The ledger entry of an opened stream (R110, R113): a retained one keeps its settings and enters UNKNOWN. -/
def openedEntry (b : IngestOpenBody) (now : Nat) (old : Entry) : Entry :=
  let expect := ceilDiv (1000000 * b.params.rateDen) b.params.rateNum
  let base := if old.kind = .network then old
    else { freedEntry old with kind := .network, cls := 3, lossMs := 2000, staleMs := 60000, freezeK := 8 }
  { base with
    expectUs := expect, pktNs := now, unknownLatch := true, lostLatch := false, withdrawn := false, concealedNow := false,
    staleNow := false, lateNow := false, received := false, probeLast := none, probeNext := [] }

/-- The gate context of a stream on its engine (R62, R386). -/
def streamCtx (k : Nat) (x : Stream) : GateCtx :=
  { ctx := .ingest k x.regionBase, who := [⟨2, x.engine⟩], regions := [⟨x.regionBase, x.regionSize, true, true, 1, k⟩] }

/-- Joins or leaves sent for every multicast leg (R54, R63, R75). -/
def sendJoins (name : String) (legs : List Leg) (s : State) : State :=
  legs.foldl (fun s l =>
    if isMulticast l.ipv6 l.group then emit (.packet l.port l.lane name [(l.group : Int), (l.source : Int)]) s else s) s

/-- INGEST_OPEN (R60 to R63, R110, R124, R127). -/
def ingestOpenBody (b : IngestOpenBody) (tk : Ticket) (s : State) : State :=
  if !tk.dmaOk then complete tk 0x0500 [] s
  else
    let c := ingestOpenCheck b s
    if c != 0 then complete tk c [] s
    else
      let x := newStream b ((placeEngine s b.params).getD 0) s.time.mono
      let s := s.modIngest fun i => { i with streams := mapPut i.streams b.source x }
      let s := addCtx (streamCtx b.source x) s
      let s := enterUnknown b.source (openedEntry b s.time.wall (entryOf s b.source)) s
      complete tk 0 [] (sendJoins "JOIN" (legsOf b.params) s)

/-- INGEST_OPEN (R60). -/
def execIngestOpen (d : Desc) (b : IngestOpenBody) (s : State) : Host.Outcome State Fault Refusal :=
  .next (onTake d (.ingestOpen b) (ingestOpenBody b) s)

/-- The counters record: five counts of leg A, of leg B, and three of the stream. -/
def counterItems (x : Stream) : Items :=
  let leg (l : LegRt) : Items := [it 8 l.packets, it 8 l.duplicates, it 8 l.late, it 8 l.missing, it 8 l.ssrcMismatch]
  let none_ : Items := List.replicate 5 (it 8 0)
  ((x.legs[0]?).map leg).getD none_ ++ ((x.legs[1]?).map leg).getD none_
    ++ [it 8 x.delivered, it 8 x.incomplete, it 8 x.overflowed]

/-- INGEST_COUNTERS. -/
def ingestCountersBody (k : Nat) (tk : Ticket) (s : State) : State :=
  match mapGet s.ingest.streams k with
  | none => complete tk 0x0321 [] s
  | some x => completeRecord tk 256 (counterItems x) [] s

/-- INGEST_COUNTERS (R285). -/
def execIngestCounters (d : Desc) (k : Nat) (s : State) : Host.Outcome State Fault Refusal :=
  .next (onTake d (.ingestCounters k) (ingestCountersBody k) s)

/-! ## Origin time (R69 to R71, R118, R119) -/

/-- The origin of R69 for a frame, from the wall time of its first packet, its RTP timestamp, and the report and UTC offset that stood when
it arrived; none under R70. -/
def baseOrigin (x : Stream) (f : OpenFrame) : Option Origin :=
  let p := x.params
  let a := f.firstNs
  let ts := f.ts
  let r := p.rtpClockHz
  let o : Option Origin :=
    match p.timingMode with
    | 0 =>
      let top := a * r / 1000000000 + r
      let n : Int := (top : Int) - ((top + 4294967296 - ts % 4294967296) % 4294967296 : Nat)
      some ⟨n * 1000000000 / r, p.srcUNs⟩
    | 1 =>
      match f.report, f.utc with
      | some (rtp, ntp), some utc =>
        let d := modDiff 32 ts rtp
        let tai : Int := (ntp : Int) - Config.ntpEpochNs + utc * 1000000000
        some ⟨tai + d * 1000000000 / r, p.srUNs + d.natAbs * 1000 / r * p.driftPpm + p.srcUNs⟩
      | _, _ => none
    | _ => some ⟨(a : Int) - p.latencyNs, p.srcUNs⟩
  o.filter fun o => o.uNs ≤ 60000000000

/-- `n` bytes from byte `i` on, the most significant first (R117). -/
def beNum (l : List Byte) (i n : Nat) : Nat := ((l.drop i).take n).foldl (fun v b => v * 256 + b.toNat) 0

/-- What the freshness element of a frame makes invalid (R118): 0 absent, 1 version, 2 length; none when valid. -/
def elementFault (e : Option RtpElement) : Option Nat :=
  match e with
  | none => some 0
  | some e =>
    let n := (e.data.length - 12) / 8
    if e.data.head?.map BitVec.toNat != some 1 && !e.data.isEmpty then some 1
    else if e.data.length != 12 + 8 * n || e.data.length < 12 || 30 < n || (!e.twoByte && n != 0) then some 2
    else none

/-- The field record at byte `i` of an element (R117). -/
def fieldAt (l : List Byte) (i : Nat) : FieldRec :=
  let f := beNum l (i + 1) 1
  { fieldId := beNum l i 1, ageUnknown := bit f 0, frozen := bit f 1, test := bit f 2, ageUMs := beNum l (i + 2) 2, dataAgeUs := beNum l (i + 4) 4 }

/-- What an element of valid form says; reserved bits are ignored (R117). -/
def parseElement (l : List Byte) : Element :=
  let f := beNum l 1 1
  { ageUnknown := bit f 0, staticDesign := bit f 1, frozen := bit f 2, test := bit f 3, heartbeat := beNum l 2 2, dataAgeUs := beNum l 4 4,
    ageUUs := beNum l 8 4, fields := (List.range ((l.length - 12) / 8)).map fun n => fieldAt l (12 + 8 * n) }

/-- The element in the first packet of the frame that carries one (R118). -/
def frameElement (x : Stream) (f : OpenFrame) : Option RtpElement :=
  let l := sortBy (fun a b => modDiff 32 a.1 b.1 ≤ 0) (f.elements.filter fun p => p.2.extId = x.params.freshExtId)
  (l.head?).map Prod.snd

/-- Final origin, the origin before the element, and the valid element of a frame (R69, R118, R119). -/
def frameOrigin (x : Stream) (f : OpenFrame) : Option Origin × Option Origin × Option Element :=
  let raw := baseOrigin x f
  if x.params.freshExtId = 0 then (raw, raw, none)
  else
    let e := frameElement x f
    match elementFault e, e, raw with
    | none, some e, some o =>
      let e := parseElement e.data
      if e.ageUnknown then (none, raw, none)
      else
        let u := o.uNs + e.ageUUs * 1000
        if 60000000000 < u then (none, raw, some e) else (some ⟨o.ns - e.dataAgeUs * 1000, u⟩, raw, some e)
    | _, _, _ => (none, raw, none)

/-- ELEMENT_INVALID, at most once a second (R118). -/
def tellElement (k : Nat) (x : Stream) (f : OpenFrame) (s : State) : State :=
  if x.params.freshExtId = 0 then s
  else
    match elementFault (frameElement x f) with
    | none => s
    | some c => raiseLimited second (limKey 0x0482 k 0) 1 0x0482 .source k (fun _ => [it 1 c]) s

/-- ORIGIN_AHEAD (R71). -/
def tellAhead (k : Nat) (x : Stream) (f : OpenFrame) (o : Option Origin) (s : State) : State :=
  match o with
  | some o =>
    if x.params.timingMode = 0 && (f.firstNs : Int) < o.ns then
      raiseLimited second (limKey 0x0289 k 0) 1 0x0289 .source k (fun _ => [(4, (o.ns - f.firstNs) / 1000)]) s
    else s
  | none => s

/-- ORIGIN_REGRESSED (R71) of an uncompressed stream. -/
def tellRegressed (k : Nat) (x : Stream) (o : Option Origin) (s : State) : State :=
  match x.lastOrigin, o with
  | some l, some o =>
    if o.ns < l then raiseLimited second (limKey 0x028A k 0) 1 0x028A .source k (fun _ => [(4, (l - o.ns) / 1000)]) s else s
  | _, _ => s

/-! ## Frame slots (R61, R65, R68) -/

/-- Pixels and bytes of a pixel group of ST 2110-20. -/
def pgroup (sampling : Nat) : Nat × Nat := match sampling with
  | 0 => (2, 5) | 1 => (1, 3) | 2 => (4, 15) | 3 => (1, 3) | _ => (4, 15)

/-- Address of a frame slot: after packet staging (R61). -/
def slotAddr (x : Stream) (slot : Nat) : Nat := x.regionBase + stagingBytes + slot * slotSize x.params

/-- Address of the pixel group that holds a pixel of a line in a slot. -/
def groupAddr (x : Stream) (slot px line : Nat) : Nat :=
  let g := pgroup x.params.sampling
  slotAddr x slot + line * linePitch x.params + px / g.1 * g.2

/-- `n` bits from bit `b` on of a run of bytes, most significant first. -/
def bitsAt (l : List Byte) (b n : Nat) : Nat :=
  let v := l.foldl (fun a x => a * 256 + x.toNat) 0
  v / 2 ^ (8 * l.length - b - n) % 2 ^ n

/-- First bit and width of component `c` (0 Y or G, 1 Cb or B, 2 Cr or R) of pixel `i` of its pixel group, in the order
ST 2110-20 transmits them. -/
def componentAt (sampling i c : Nat) : Nat × Nat :=
  match sampling with
  | 0 => (if c = 0 then (if i = 0 then 10 else 30) else if c = 1 then 0 else 20, 10)
  | 1 => (if c = 0 then 8 else if c = 1 then 0 else 16, 8)
  | 2 => (i * 30 + (if c = 0 then 10 else if c = 1 then 0 else 20), 10)
  | 3 => (if c = 0 then 8 else if c = 1 then 16 else 0, 8)
  | _ => (i * 30 + (if c = 0 then 10 else if c = 1 then 20 else 0), 10)

/-- Component `c` of a pixel of a frame slot, as module DRAM holds it. -/
def slotSample (s : State) (x : Stream) (slot px line c : Nat) : Nat :=
  let g := pgroup x.params.sampling
  let b := componentAt x.params.sampling (px % g.1) c
  bitsAt (memReadN s (groupAddr x slot px line) g.2) b.1 b.2

/-- Luma or G of a pixel of a slot in 8 bits (R123). -/
def slotLuma8 (s : State) (x : Stream) (slot px line : Nat) : Nat :=
  let v := slotSample s x slot px line 0
  if x.params.sampling = 1 || x.params.sampling = 3 then v else v / 4

/-- Slots that may be written: neither the newest frame's nor one that a layer scans (R68). -/
def freeSlots (s : State) (x : Stream) : List Nat :=
  let kept := (x.slots.take 1) ++ (x.slots.drop 1).filter fun f => scans s x.regionBase f.number
  (List.range x.params.frameSlots).filter fun n => !kept.any fun f => f.slot = n

/-- The stream engine of a stream as an initiator (R382). -/
def engineOf (x : Stream) : Initiator := ⟨2, x.engine⟩

/-- The segments of a frame written to a slot through the memory gate: whether any write was refused. -/
def writeSegments (k : Nat) (x : Stream) (slot : Nat) (l : List Segment) (s : State) : Bool × State :=
  l.foldl (fun r g =>
    let w := gatedWrite (engineOf x) (.ingest k x.regionBase) none (groupAddr x slot g.offset g.line) g.bytes r.2
    (r.1 || w.2.1, w.2.2)) (false, s)

/-! ## Closing and delivering frames (R65, R66, R68) -/

/-- LOSS_REPORT (R77): increments of late, missing and incomplete, at most every 100 ms. -/
def lossReport (k : Nat) (s : State) : State :=
  match mapGet s.ingest.streams k with
  | none => s
  | some x =>
    let late := sumN (x.legs.map LegRt.late)
    let missing := sumN (x.legs.map LegRt.missing)
    let rising := x.lossLate < late || x.lossMissing < missing || x.lossIncomplete < x.incomplete
    if rising && (x.lossNs = 0 || x.lossNs + 100000000 ≤ s.time.mono) then
      raise 0x0287 .source k [it 4 (late - x.lossLate), it 4 (missing - x.lossMissing), it 4 (x.incomplete - x.lossIncomplete)]
        (modStream k (fun x =>
          { x with lossLate := late, lossMissing := missing, lossIncomplete := x.incomplete, lossNs := s.time.mono }) s)
    else s

/-- FIRST_FRAME (R77): the origin and u_src of the first frame delivered after open or resynchronisation. -/
def firstFrame (k : Nat) (x : Stream) (o : Option Origin) (s : State) : State :=
  if x.firstPending then
    raise 0x0285 .source k [(8, (o.map Origin.ns).getD 0), it 8 ((o.map Origin.uNs).getD 0)]
      (modStream k (fun x => { x with firstPending := false }) s)
  else s

/-- BUFFER_OVERFLOW (R68). -/
def overflowFrame (k : Nat) (s : State) : State :=
  raise 0x028C .source k [it 4 1] (modStream k (fun x => { x with overflowed := x.overflowed + 1 }) s)

/-- A frame of an uncompressed stream delivered to the next free slot, which is the lowest-numbered free one (R65, R68, R71, R96, R391). DESIGN CHOICE:
the manual gives the slots no order. -/
def deliverFrame (k : Nat) (x : Stream) (f : OpenFrame) (s : State) : State :=
  match freeSlots s x with
  | [] => overflowFrame k s
  | slot :: _ =>
    let w := writeSegments k x slot (f.segments.map Prod.snd) s
    if w.1 then logInternal (initiatorId (engineOf x)) 1 w.2
    else
      let s := w.2
      let o := frameOrigin x f
      let fields := mergeFields x.lastFields o.2.1 o.2.2
      let fr : SlotFrame :=
        { slot := slot, number := x.nextNumber, doneNs := s.time.mono, origin := o.1, originUs := (o.1.map originUs).getD 0, fields := fields }
      let s := modStream k (fun x =>
        { x with
          slots := fr :: x.slots.filter fun g => g.slot != slot, nextNumber := x.nextNumber + 1, delivered := x.delivered + 1,
          lastFields := fields, lastOrigin := (o.1.map Origin.ns).orElse fun _ => x.lastOrigin }) s
      let s := tellRegressed k x o.1 (tellAhead k x f o.1 (tellElement k x f s))
      let s := firstFrame k x o.1 s
      let s := match o.1 with
        | some og => networkReceipt k og (o.2.1.getD og) o.2.2 false s
        | none => s
      onContent k (probeFrame k x.params.width x.params.height false (slotLuma8 s x slot) s)

/-- NAL units of a frame that arrived whole, in order: a unit with a missing fragment is dropped (R66). -/
def wholeUnits (f : OpenFrame) : List (List Byte) :=
  let l := sortBy (fun a b => modDiff 32 a.1 b.1 ≤ 0) f.nals
  let ids := (l.map fun p => p.2.unit).eraseDups
  ids.filterMap fun n =>
    let q := l.filter fun p => p.2.unit = n
    match q.head?, q.getLast? with
    | some a, some b =>
      let contiguous := q.length = (modDiff 32 b.1 a.1).toNat + 1 || q.all fun p => p.1 = a.1
      if a.2.first && b.2.last && contiguous then
        some (q.flatMap fun p => p.2.bytes)
      else none
    | _, _ => none

/-- Bytes of access units that wait in the ring. -/
def ringUsed (x : Stream) : Nat := sumN (x.units.map AccessUnit.bytes)

/-- The bytes of an access unit written to the ring through the memory gate: whether any write was refused (R62). -/
def writeUnit (k : Nat) (x : Stream) (l : List Byte) (s : State) : Bool × State :=
  ((ringPieces x x.ringPos l.length).foldl (fun (r : List Byte × Bool × State) q =>
    let w := gatedWrite (engineOf x) (.ingest k x.regionBase) none q.1 (r.1.take q.2) r.2.2
    (r.1.drop q.2, r.2.1 || w.2.1, w.2.2)) (l, false, s)).2

/-- An access unit delivered to the ring, and taken by an idle pipeline (R65, R66, R85); its field records are stored at this delivery
(R145). One that the gate keeps from the ring is discarded, as an internal fault (R391). -/
def deliverUnit (k : Nat) (x : Stream) (f : OpenFrame) (complete_ : Bool) (s : State) : State :=
  let units := wholeUnits f
  let bytes := sumN (units.map List.length)
  if x.regionSize - stagingBytes < ringUsed x + bytes then overflowFrame k s
  else
    let w := writeUnit k x units.flatten s
    if w.1 then logInternal (initiatorId (engineOf x)) 1 w.2 else
    let s := w.2
    let o := frameOrigin x f
    let fields := mergeFields x.lastFields o.2.1 o.2.2
    let u : AccessUnit :=
      { number := x.nextNumber, order := s.ingest.deliveries, ts := f.ts, addr := x.ringPos, bytes := bytes, origin := o.1, raw := o.2.1,
        complete := complete_, units := units, element := o.2.2, fields := fields, deliveredNs := s.time.mono }
    let keep := match mapGet s.decode.attached k with
      | some a => !a.draining || a.byClose
      | none => true
    let s := modStream k (fun x =>
      { x with
        units := if keep then x.units ++ [u] else x.units, ringPos := (x.ringPos + bytes) % (x.regionSize - stagingBytes),
        nextNumber := x.nextNumber + 1, delivered := x.delivered + 1, lastFields := fields }) s
    let s := s.modIngest fun i => { i with deliveries := i.deliveries + 1 }
    let s := tellAhead k x f o.1 (tellElement k x f s)
    let s := firstFrame k x o.1 s
    match mapGet s.decode.attached k with
    | some a => startDecode a.pipeline s
    | none => s

/-- A frame closes, complete or not (R65, R66). -/
def closeFrame (k : Nat) (f : OpenFrame) (complete_ : Bool) (s : State) : State :=
  let s := modStream k (fun x =>
    { x with
      open_ := x.open_.filter fun g => g.ts != f.ts, closedTs := (f.ts :: x.closedTs).take 64,
      incomplete := if complete_ then x.incomplete else x.incomplete + 1 }) s
  match mapGet s.ingest.streams k with
  | none => s
  | some x =>
    if x.params.media = 0 then (if complete_ then deliverFrame k x f s else s) else deliverUnit k x f complete_ s

/-- Lowest extended sequence number of a frame. -/
def lowestSeq (f : OpenFrame) : Nat :=
  match f.packets with
  | [] => 0
  | a :: t => t.foldl (fun m n => if modDiff 32 n m < 0 then n else m) a

/-- The frame's first packet is present (R65, R67): the one before it is held, or it carries the frame's first pixels, or, for
a compressed stream, nothing earlier is known. -/
def startKnown (x : Stream) (f : OpenFrame) : Bool :=
  let lo := lowestSeq f
  x.heldSeqs.contains ((lo + 4294967295) % 4294967296)
    || (x.params.media = 0 && f.segments.any fun g => g.1 = lo && g.2.line = 0 && g.2.offset = 0)
    || (x.params.media != 0 && x.heldSeqs.all fun n => 0 ≤ modDiff 32 n lo)

/-- Every packet up to and including the one with the marker bit is present (R65). -/
def frameComplete (x : Stream) (f : OpenFrame) : Bool :=
  match f.markerSeq with
  | none => false
  | some m => startKnown x f && f.packets.length = (modDiff 32 m (lowestSeq f)).toNat + 1

/-- Ingest runs: the main section is up, and management has not stopped it in FAULT (R22). -/
def ingestRuns (s : State) : Bool := mainUp s && s.module.mode != .fault

/-- FRAME_CLOSE_DEADLINE (R65): the oldest frame whose close deadline has come closes. -/
def execFrameCloseDeadline (k : Nat) (s : State) : Host.Outcome State Fault Refusal :=
  .next
    (match if ingestRuns s then mapGet s.ingest.streams k else none with
     | none => s
     | some x =>
       let wait := jitterUs x.params * 1000 + (if x.params.legCount = 2 then 50000000 else 0)
       match x.open_.find? fun f => f.firstMono + wait ≤ s.time.mono with
       | none => s
       | some f => lossReport k (closeFrame k f (frameComplete x f) s))

/-! ## Reception (R64, R67) -/

/-- An interface takes an Ethernet frame (R52): of at most 9,216 bytes, in its own VLAN, untagged or with one tag, and for an address that
it receives: a multicast group or its own. That a tag must name the interface's VLAN id is DEDUCED from the descriptor's vlan field. -/
def laneTakes (l : Lane) (p : RtpPacket) : Bool :=
  p.frameLen ≤ 9216
    && (match p.tags with
      | [] => l.vlan = 0
      | [t] => t % 4096 = l.vlan
      | _ => false)
    && (if p.ipv6 then l.ipv6En else l.ipv4En)
    && (isMulticast p.ipv6 p.group || p.group = (if p.ipv6 then l.ipv6 else l.ipv4))

/-- The stream and leg that a packet belongs to. -/
def legMatches (p : RtpPacket) (l : Leg) : Bool :=
  l.port = p.port && l.lane = p.lane && l.ipv6 = p.ipv6 && l.udpPort = p.udpPort && l.group = p.group && (l.source = 0 || l.source = p.source)

/-- Index of the leg of a stream that takes a packet. -/
def legIndex (x : Stream) (p : RtpPacket) : Option Nat := x.legs.findIdx? fun l => legMatches p l.leg

/-- The stream that a packet belongs to. -/
def streamOf (s : State) (p : RtpPacket) : Option (Nat × Stream × Nat) :=
  s.ingest.streams.findSome? fun x => (legIndex x.2 p).map fun i => (x.1, x.2, i)

/-- A leg of a stream changed. -/
def modLeg (k i : Nat) (f : LegRt → LegRt) (s : State) : State :=
  modStream k (fun x => { x with legs := x.legs.mapIdx fun j l => if j = i then f l else l }) s

/-- Extended sequence number (R64): that of ST 2110-20, or the extension of the 16-bit number nearest to the last one. -/
def extendSeq (x : Stream) (l : LegRt) (p : RtpPacket) : Nat :=
  if x.params.media = 0 then (p.extSeq * 65536 + p.seq) % 4294967296
  else
    match l.lastExt.orElse fun _ => x.legs.findSome? LegRt.lastExt with
    | none => p.seq % 65536
    | some r => (((r : Int) + modDiff 16 p.seq r) % 4294967296).toNat

/-- FORMAT_MISMATCH causes (R55, R77): 0 payload type, 1 geometry, 2 field bit, 3 sampling; none when the packet agrees. A packet of a form
that R54 does not support has cause 0: DESIGN CHOICE, the table names none for it. -/
def mismatch (q : IngestParams) (p : RtpPacket) : Option Nat :=
  if p.payloadType != q.payloadType then some 0
  else if q.media != 0 then
    match p.form with
    | .single | .aggregation | .fragment => none
    | .paci | .donl | .stapB | .mtap | .fuB => some 0
  else
    let g := pgroup q.sampling
    if p.segments.any Segment.fieldBit then some 2
    else if 3 < p.segments.length || p.segments.any fun x => q.height ≤ x.line || q.width < x.offset + x.bytes.length / g.2 * g.1 then some 1
    else if p.segments.any fun x => x.bytes.length % g.2 != 0 || x.offset % g.1 != 0 then some 3
    else none

/-- FORMAT_MISMATCH, at most once a second for a source and cause (R77). -/
def tellMismatch (k cause : Nat) (s : State) : State :=
  raiseLimited second (limKey 0x028B k cause) 1 0x028B .source k (fun n => [it 1 cause, it 4 n]) s

/-- STREAM_RESYNC (R67): the open frame is discarded and the stream waits for the next frame start. Cause 0 SSRC, 1 jump. -/
def resync (k cause : Nat) (s : State) : State :=
  raise 0x0288 .source k [it 1 cause]
    (modStream k (fun x =>
      { x with
        closedTs := ((x.open_.map OpenFrame.ts) ++ x.closedTs).take 64, open_ := [], heldSeqs := [],
        firstPending := true, legs := x.legs.map fun l => { l with lastExt := none, ssrc := none } }) s)

/-- A packet added to its frame, which may open with it: the frame keeps the sender report and the UTC offset of that instant (R69, R70).
Sequence numbers are remembered 32,768 back. DESIGN CHOICE: the manual says that each is held once, and not for how long. -/
def addPacket (x : Stream) (ext : Nat) (p : RtpPacket) (t : TimeSt) : Stream :=
  let new : OpenFrame :=
    { ts := p.ts, firstNs := t.wall, firstMono := t.mono, report := x.report, utc := if t.utcValid then some t.utcOffset else none, markerSeq := none, packets := [], elements := [], segments := [], nals := [] }
  let put (f : OpenFrame) : OpenFrame :=
    { f with
      markerSeq := if p.marker then some ext else f.markerSeq, packets := ext :: f.packets,
      elements := f.elements ++ p.element.toList.map fun e => (ext, e),
      segments := f.segments ++ p.segments.map fun g => (ext, g), nals := f.nals ++ p.nals.map fun g => (ext, g) }
  let frames := if x.open_.any fun f => f.ts = p.ts then x.open_ else x.open_ ++ [new]
  { x with
    open_ := frames.map fun f => if f.ts = p.ts then put f else f, heldSeqs := (ext :: x.heldSeqs).take 32768 }

/-- Every open frame that is complete closes, oldest first (R65). -/
def closeComplete (k : Nat) : Nat → State → State
  | 0, s => s
  | fuel + 1, s =>
    match (mapGet s.ingest.streams k).bind fun x => x.open_.find? fun f => frameComplete x f with
    | some f => closeComplete k fuel (closeFrame k f true s)
    | none => s

/-- A packet placed in its frame; frames that it completes close (R64, R65). -/
def placePacket (k i ext : Nat) (p : RtpPacket) (s : State) : State :=
  match mapGet s.ingest.streams k with
  | none => s
  | some x =>
    if x.heldSeqs.contains ext then modLeg k i (fun l => { l with duplicates := l.duplicates + 1 }) s
    else if x.closedTs.contains p.ts then modLeg k i (fun l => { l with late := l.late + 1 }) s
    else
      closeComplete k (x.open_.length + 1) (modStream k (fun x => addPacket x ext p s.time) s)

/-- A packet that agrees with its stream is taken on its leg (R64, R67, R77). -/
def takePacket (k i : Nat) (l : LegRt) (x : Stream) (p : RtpPacket) (s : State) : State :=
  let now := s.time.mono
  let s := if l.silent then raise 0x0286 .source k [it 1 i, it 1 1] s else s
  let s := modLeg k i (fun l => { l with lastNs := now, heard := true, silent := false, packets := l.packets + 1 }) s
  let s := setEntry k { entryOf s k with pktNs := s.time.wall } s
  let ext := extendSeq x l p
  let changed := (l.ssrc.map fun v => v != p.ssrc).getD false
  let jumped := (l.lastExt.map fun r => decide (32768 < (modDiff 32 ext r).natAbs)).getD false
  let s := if changed then resync k 0 s else if jumped then resync k 1 s else s
  let gap := if changed || jumped then 0
    else match l.lastExt with
      | some r => (modDiff 32 ext r - 1).toNat
      | none => 0
  let s := modLeg k i (fun l =>
    { l with
      ssrc := some p.ssrc, missing := l.missing + gap,
      lastExt := match l.lastExt with
        | some r => if modDiff 32 ext r < 0 then some r else some ext
        | none => some ext }) s
  lossReport k (placePacket k i ext p s)

/-- RTP_PACKET_RX (R55, R64, R67). -/
def execRtpPacketRx (p : RtpPacket) (s : State) : Host.Outcome State Fault Refusal :=
  .next
    (if ingestRuns s && ((ingestLane s p.port p.lane).map fun l => laneTakes l p).getD false then
      match streamOf s p with
      | none => s
      | some (k, x, i) =>
        if x.closing.isSome || x.stopped then s
        else
          match x.legs[i]? with
          | none => s
          | some l =>
            if l.leg.checkSsrc && p.ssrc != l.leg.ssrc then
              modLeg k i (fun l => { l with ssrcMismatch := l.ssrcMismatch + 1 }) s
            else
              match mismatch x.params p with
              | some c => tellMismatch k c s
              | none => takePacket k i l x p s
    else s)

/-- SENDER_REPORT_RX (R70): the newest report of every stream that the SSRC belongs to. -/
def execSenderReportRx (port lane ssrc rtp ntpNs : Nat) (s : State) : Host.Outcome State Fault Refusal :=
  .next
    (if ingestRuns s then
      let hears (x : Stream) : Bool := x.legs.any fun l =>
        l.leg.port = port && l.leg.lane = lane && (l.ssrc = some ssrc || (l.leg.checkSsrc && l.leg.ssrc = ssrc))
      s.modIngest fun i =>
        { i with streams := i.streams.map fun p => if hears p.2 then (p.1, { p.2 with report := some (rtp, ntpNs) }) else p }
    else s)

/-- LEG_STATE (R77): 100 ms without a packet. -/
def execLegState (k leg : Nat) (s : State) : Host.Outcome State Fault Refusal :=
  .next
    (match (mapGet s.ingest.streams k).bind fun x => x.legs[leg]? with
     | none => s
     | some l =>
       if !l.silent && l.lastNs + 100000000 ≤ s.time.mono then
         lossReport k (raise 0x0286 .source k [it 1 leg, it 1 0] (modLeg k leg (fun l => { l with silent := true }) s))
       else s)

/-! ## Closing (R75, R76) -/

/-- INGEST_CLOSE (R75): reception stops, the open frame is discarded, a decode drain starts. A second close of a stream whose close is in progress
completes with INGEST_NOT_OPEN. DESIGN CHOICE: the manual says it of a detach only (R103). -/
def ingestCloseBody (k : Nat) (abort : Bool) (tk : Ticket) (s : State) : State :=
  match mapGet s.ingest.streams k with
  | none => complete tk 0x0321 [] s
  | some x =>
    if x.closing.isSome then complete tk 0x0321 [] s
    else
      let s := modStream k (fun x =>
        { x with
          closing := some tk, discarded := x.discarded || !x.open_.isEmpty || (abort && !x.units.isEmpty), closeAbort := abort,
          open_ := [], units := if abort then [] else x.units }) s
      if mapHas s.decode.attached k then startDetach k [] true abort s else s

/-- INGEST_CLOSE (R75). -/
def execIngestClose (d : Desc) (k : Nat) (abort : Bool) (s : State) : Host.Outcome State Fault Refusal :=
  .next (onTake d (.ingestClose k abort) (ingestCloseBody k abort) s)

/-- INGEST_CLOSE_COMPLETE (R75, R113): after the drain of ingest and decode the source enters LOST or WITHDRAWN, the joins
are left and the region stays guarded. -/
def execIngestCloseComplete (k : Nat) (s : State) : Host.Outcome State Fault Refusal :=
  .next
    (match mapGet s.ingest.streams k with
     | none => s
     | some x =>
       match x.closing with
       | none => s
       | some tk =>
         if mapHas s.decode.attached k then s
         else
           let lost := x.discarded || x.closeAbort
           let s := sendJoins "LEAVE" (legsOf x.params) s
           let s := s.modIngest fun i =>
             { i with
               streams := mapDel i.streams k, guards := mapPut i.guards x.regionBase (x.regionSize, k),
               closed := mapPut i.closed x.regionBase x }
           let e := entryOf s k
           let s := changeEntry k
             { e with lostLatch := e.lostLatch || lost, withdrawn := e.withdrawn || !lost } .close s
           complete tk 0 [it 1 (flag x.discarded)] s)

/-- INGEST_RELEASED (R76): no layer scans any frame buffer of the region. -/
def execIngestReleased (base : Nat) (s : State) : Host.Outcome State Fault Refusal :=
  .next
    (match mapGet s.ingest.guards base with
     | none => s
     | some (_, k) =>
       if scansBase s base || contextHeld s (.ingest k base) then s
       else
         let s := s.modIngest fun i => { i with guards := mapDel i.guards base, closed := mapDel i.closed base }
         let s := dropCtx (.ingest k base) s
         raise 0x028D .source k [it 8 base] s)

/-! ## Proxies (R72 to R74) -/

/-- Packets of a proxy line: at most 1,200 bytes of pixels each (R72). -/
def proxyPackets (w : Nat) : Nat := ceilDiv (w * 5 / 2) 1200

/-- Wire rate of a proxy in Mb/s, with 86 bytes of headers a packet, rounded up. -/
def proxyMbps (a : AttachBody) : Nat :=
  ceilDiv (a.maxHeight * (a.maxWidth * 5 / 2 + proxyPackets a.maxWidth * 86) * 8 * a.maxRateMhz) 1000000000

/-- The attachment of each proxy's source. -/
def proxyAttach (s : State) (p : Proxy) : Option AttachBody := (mapGet s.decode.attached p.body.source).map Attach.body

/-- The limits of R74 with one more proxy. A proxy whose source's pipeline has been detached stays open, receives no frame, and its load counts no
more. DESIGN CHOICE: the manual does not say what becomes of it. -/
def proxyFits (s : State) (b : ProxyBody) (a : AttachBody) : Bool :=
  let l := mapVals s.ingest.proxies
  let px := sumN (l.map fun p => ((proxyAttach s p).map lumaLoad).getD 0)
  let same := l.filter fun p => p.body.port = b.port && p.body.lane = b.lane
  let mb := sumN (same.map fun p => ((proxyAttach s p).map proxyMbps).getD 0)
  l.length < Config.maxProxies && px + lumaLoad a ≤ Config.proxyPxs * 1000 && mb + proxyMbps a ≤ laneMbps s b.port

/-- The checks of PROXY_OPEN; 0 when none fails. An interface that its port does not provide, or whose IP version is not enabled, gives
INGEST_LEG_INVALID, before a source not decoded here gives INGEST_NOT_OPEN. DESIGN CHOICE: the manual gives a proxy no status for its interface and
its checks no order. -/
def proxyOpenCheck (b : ProxyBody) (s : State) : Nat :=
  if !(b.source < Config.sources && b.port ≤ 5 && b.lane ≤ 3 && b.udpPort < 65536 && b.dscp < 64 && 96 ≤ b.payloadType
    && b.payloadType ≤ 127 && isMulticast b.ipv6 b.group) then 0x0120
  else if !(match ingestLane s b.port b.lane with
    | none => false
    | some i => if b.ipv6 then i.ipv6En else i.ipv4En) then 0x0122
  else
    match mapGet s.decode.attached b.source with
    | none => 0x0321
    | some a =>
      if mapHas s.ingest.proxies b.source then 0x0320
      else if !proxyFits s b a.body then 0x0223
      else 0

/-- PROXY_OPEN (R72, R74): while step 2 is shed the stream stays stopped. -/
def proxyOpenBody (b : ProxyBody) (tk : Ticket) (s : State) : State :=
  let c := proxyOpenCheck b s
  if c != 0 then complete tk c [] s
  else
    let on := s.mgmt.step < 2
    let p : Proxy := { body := b, sending := on, seq := 0, queue := [] }
    let s := s.modIngest fun i => { i with proxies := mapPut i.proxies b.source p }
    complete tk 0 [] (raiseProxy b.source on (if on then 0 else 1) s)

/-- PROXY_OPEN (R72). -/
def execProxyOpen (d : Desc) (b : ProxyBody) (s : State) : Host.Outcome State Fault Refusal :=
  .next (onTake d (.proxyOpen b) (proxyOpenBody b) s)

/-- PROXY_CLOSE: at the end of the frame in progress, which a step sends whole. -/
def proxyCloseBody (k : Nat) (tk : Ticket) (s : State) : State :=
  if mapHas s.ingest.proxies k then
    complete tk 0 [] (raiseProxy k false 0 (s.modIngest fun i => { i with proxies := mapDel i.proxies k }))
  else complete tk 0x0321 [] s

/-- PROXY_CLOSE (R74). -/
def execProxyClose (d : Desc) (k : Nat) (s : State) : Host.Outcome State Fault Refusal :=
  .next (onTake d (.proxyClose k) (proxyCloseBody k) s)

/-- The RTP timestamp of a proxy frame (R73). -/
def proxyTs (o : Origin) (u : Nat) : Nat := ((o.ns - o.uNs - u) * 90000 / 1000000000 % 4294967296).toNat

/-- A big-endian number as bytes. -/
def beBytes (n v : Nat) : List Byte := (leBytes n v).reverse

/-- An RTP packet of ST 2110-20 with one sample row data header: the RTP header, the high half of the extended sequence number, the row header,
and pixel data (R72, R180). PRESUMED: the header layouts of the cited standards. -/
def rtp20 (payloadType seq ts ssrc : Nat) (marker : Bool) (line offset : Nat) (data : List Byte) : List Byte :=
  [0x80#8] ++ beBytes 1 (flag marker * 128 + payloadType) ++ beBytes 2 (seq % 65536) ++ beBytes 4 ts ++ beBytes 4 ssrc
    ++ beBytes 2 (seq / 65536) ++ beBytes 2 data.length ++ beBytes 2 line ++ beBytes 2 offset ++ data

/-- Bytes cut into runs of at most `m`. -/
def chunks (m : Nat) : Nat → List Byte → List (List Byte)
  | 0, _ => []
  | fuel + 1, l => if l.isEmpty then [] else l.take m :: chunks m fuel (l.drop m)

/-- The pixel runs of a proxy frame in order, each of at most 1,200 bytes: line, pixel offset, whether the last of the frame, bytes (R72). -/
def proxyRuns (f : ProxyFrame) : List (Nat × Nat × List Byte) :=
  (f.lines.zip (List.range f.lines.length)).flatMap fun p =>
    let c := chunks 1200 (p.1.length + 1) p.1
    (c.zip (List.range c.length)).map fun q => (p.2, q.2 * 480, q.1)

/-- The packets of a proxy frame (R72, R73). -/
def proxyFrame (b : ProxyBody) (seq u : Nat) (f : ProxyFrame) : List (List Byte) :=
  let runs := proxyRuns f
  (runs.zip (List.range runs.length)).map fun p =>
    rtp20 b.payloadType ((seq + p.2) % 4294967296) (proxyTs f.origin u) b.ssrc (p.2 + 1 = runs.length) p.1.1 p.1.2.1 p.1.2.2

/-- The interface's own address of a version. -/
def laneAddress (l : Lane) (ipv6 : Bool) : Nat := if ipv6 then l.ipv6 else l.ipv4

/-- PROXY_FRAME_SEND (R72, R73): the frame decoded first of those that wait; a frame of a source whose verdict is not live is not sent, and
while u is unbounded no timestamp exists for one. -/
def execProxyFrameSend (k : Nat) (s : State) : Host.Outcome State Fault Refusal :=
  .next
    (match mapGet s.ingest.proxies k with
     | none => s
     | some p =>
       match p.queue with
       | [] => s
       | f :: rest =>
         let pop (seq : Nat) (s : State) : State :=
           s.modIngest fun i => { i with proxies := mapPut i.proxies k { p with seq := seq, queue := rest } }
         match uNs s, ingestLane s p.body.port p.body.lane with
         | some u, some l =>
           if p.sending && s.mgmt.step < 2 && mainUp s && verdictOf (entryOf s k) then
             let n := (proxyRuns f).length
             pop ((p.seq + n) % 4294967296)
               ((proxyFrame p.body p.seq u f).foldl (fun s d =>
                 emit (.datagram p.body.port p.body.lane l.vlan l.pcp p.body.dscp p.body.ipv6 (laneAddress l p.body.ipv6) p.body.group p.body.udpPort d) s) s)
           else pop p.seq s
         | _, _ => pop p.seq s)

end Sys2Proof.Machine
end

