-- ==== Sys2Proof/Machine/Raster.lean ====
section
/-! DEFINITION. The geometry and arithmetic of composition: judged rectangles (R36, R37), spans (R156), conversion to the
internal format (R148), prescale, scaler and blending (R149 to R153). -/

namespace Sys2Proof.Machine

open Sys2Proof

/-! ## Scenes, rates and loads -/

/-- The records of a head in a bank. -/
def headScene (b : SceneBank) (h : Nat) : HeadScene := mapGetD b.heads h HeadScene.init

/-- A head is enabled in a bank. -/
def headOn (b : SceneBank) (h : Nat) : Bool := (headScene b h).timing.enable = 1

/-- Nominal rate of a group record in Hz (R182); 0 for a record that names none. -/
def rateOf (r : SyncGroup) : Rat := if r.rateDen = 0 then 0 else (r.rateNum : Rat) / r.rateDen

/-- Nominal rate of a head in a bank. -/
def headRate (b : SceneBank) (h : Nat) : Rat :=
  match mapGet b.groups (headScene b h).timing.syncGroup with
  | some r => rateOf r
  | none => 0

/-- Enabled layers of a head with their indices, lowest z first. -/
def layersUp (h : HeadScene) : List (Nat × Layer) :=
  sortBy (fun a b => a.2.z ≤ b.2.z) (h.layers.filter fun p => p.2.enable = 1)

/-- Fetch load of a head under a bank in px/s (R162). -/
def headLoad (b : SceneBank) (h : Nat) : Rat :=
  if headOn b h then
    (sumN ((layersUp (headScene b h)).map fun p => p.2.src.w * p.2.src.h) : Rat) * headRate b h
  else 0

/-- The bank that a transaction stages, if any. -/
def stagedBank (s : State) : Option SceneBank := if s.scene.otherUse = .staged then some s.scene.other else none

/-- Fetch load of the writebacks in px/s (R162). -/
def writebackLoad (s : State) : Rat :=
  (s.compose.writebacks.map fun p =>
    let t := (headScene s.scene.inForce p.1).timing
    ((t.hActive * t.vActive : Nat) : Rat) * headRate s.scene.inForce p.1
      / (if p.2.body.mode = 2 && p.2.body.everyN != 0 then p.2.body.everyN else 1 : Nat)).foldl (· + ·) 0

/-- Fetch load of the module in px/s under the scene in force. -/
def loadInForce (s : State) : Rat :=
  ((List.range 64).map fun h => headLoad s.scene.inForce h).foldl (· + ·) 0 + writebackLoad s

/-- Fetch load of the module in px/s (R162). -/
def fetchLoad (s : State) : Rat :=
  ((List.range 64).map fun h =>
    let a := headLoad s.scene.inForce h
    match stagedBank s with
    | some b => let c := headLoad b h
                if a < c then c else a
    | none => a).foldl (· + ·) 0 + writebackLoad s

/-- Video layers that take a pipe: enabled, on a head enabled, in the scene in force, the staged one or both (R163). -/
def pipeLayers (s : State) : List (Nat × Nat) :=
  (List.range 64).flatMap fun h => ((List.range 16).filter fun i =>
    (s.scene.inForce :: (stagedBank s).toList).any fun b =>
      headOn b h && ((mapGet (headScene b h).layers i).map fun l => l.enable == 1).getD false).map fun i => (h, i)

/-- The pipe of a video layer: its place among the layers that take one (the manual gives pipes no order). -/
def pipeIndex (s : State) (h i : Nat) : Option Nat := (pipeLayers s).findIdx? fun p => p = (h, i)

/-! ## Scaler geometry (R150, R154, R155) -/

/-- Position of output sample `i` on an axis: source sample n, as it may lie before the first, and phase (R150). -/
def axisPos (srcN dstN i : Nat) : Int × Nat :=
  let step := (srcN * 65536 + dstN / 2) / dstN
  let pos : Int := ((2 * i + 1) * step : Nat) / 2 - 32768
  (pos / 65536, (pos / 1024 % 64).toNat)

/-- A source index clamped to the axis. -/
def clampIdx (n : Int) (srcN : Nat) : Nat := if n < 0 then 0 else if (srcN : Int) - 1 < n then srcN - 1 else n.toNat

/-- First tap of an output sample (R150). -/
def baseTap (taps : Nat) (n : Int) : Int := n - (if taps = 8 then 3 else 2)

/-- Output positions of an axis whose footprint includes a source position from `a` up to `a + len`: first and count (R37). -/
def judgedAxis (taps srcN dstN a len : Nat) : Nat × Nat :=
  if len = 0 then (0, 0)
  else if srcN = dstN then (a, len)
  else
    let hit (i : Nat) : Bool :=
      let b := baseTap taps (axisPos srcN dstN i).1
      clampIdx b srcN < a + len && a ≤ clampIdx (b + taps - 1) srcN
    let l := (List.range dstN).filter hit
    match l.head?, l.getLast? with
    | some x, some y => (x, y - x + 1)
    | _, _ => (0, 0)

/-- Start and length of the part of [a, a + n) that lies in [b, b + m). -/
def clip (a n b m : Nat) : Nat × Nat :=
  let lo := max a b
  let hi := min (a + n) (b + m)
  if lo < hi then (lo, hi - lo) else (lo, 0)

/-- The judged rectangle of a bound region of a graphics layer (R37): of zero size where it judges no pixel. -/
def regionRect (l : Layer) (r : Rect) : Rect :=
  let cx := clip r.x r.w l.src.x l.src.w
  let cy := clip r.y r.h l.src.y l.src.h
  let jx := judgedAxis 8 l.src.w l.dst.w (cx.1 - l.src.x) cx.2
  let jy := judgedAxis 6 l.src.h l.dst.h (cy.1 - l.src.y) cy.2
  if jx.2 = 0 || jy.2 = 0 then ⟨0, 0, 0, 0⟩ else ⟨l.dst.x + jx.1, l.dst.y + jy.1, jx.2, jy.2⟩

/-- Size after prescale (R149). -/
def prescaled (n p : Nat) : Nat := ceilDiv n p

/-- The ratio rule of R154. -/
def ratioOk (l : Layer) (p : Nat) : Bool :=
  let ok (a d : Nat) : Bool := d ≤ 16 * a && a ≤ 8 * d
  ok (prescaled l.src.w p) l.dst.w && ok (prescaled l.src.h p) l.dst.h

/-- The line-buffer rule of R154. -/
def lineBufferOk (l : Layer) (p : Nat) : Bool :=
  (6 + max 1 (ceilDiv (prescaled l.src.h p) l.dst.h)) * prescaled l.src.w p ≤ 40960

/-- Prescale factors that a layer may take. -/
def allowedPrescale (l : Layer) : List Nat := if l.allowPrescale then [1, 2, 4] else [1]

/-- The prescale factor that validation takes (R154). -/
def prescaleOf (l : Layer) : Option Nat := (allowedPrescale l).find? fun p => ratioOk l p && lineBufferOk l p

/-! ## Windows and spans (R36, R139, R156) -/

/-- A window of a head as it judges: its source, judged rectangle, layer, kind (0 video, 1 base, 2 region; R197). -/
structure JWin where
  (window source : Nat)
  (rect : Rect)
  (layer kind : Nat)
deriving DecidableEq, Repr, Inhabited

/-- The windows of one layer, bound regions above the base window (R139). Where the judged rectangles of two regions overlap, as they may
where a scaled layer's footprints reach over, the first in the order of the region table judges. DESIGN CHOICE: R38 forbids an overlap of
the regions in the layer's frame only, and the manual gives their judged rectangles no order. -/
def layerWindows (h : HeadScene) (i : Nat) (l : Layer) : List JWin :=
  if i < 16 then [⟨l.window, l.sourceId, l.dst, i, 0⟩]
  else
    ((mapVals h.regions).filter fun r => r.layer + 16 = i).map (fun r => ⟨r.window, r.sourceId, regionRect l r.rect, i, 2⟩)
      ++ (if l.baseWindow then [⟨l.window, l.sourceId, l.dst, i, 1⟩] else [])

/-- The windows of a head, topmost first (R36). -/
def headWindows (h : HeadScene) : List JWin := (layersUp h).reverse.flatMap fun p => layerWindows h p.1 p.2

/-- A pixel lies in a rectangle (R5). -/
def inRect (r : Rect) (x y : Nat) : Bool := r.x ≤ x && x < r.x + r.w && r.y ≤ y && y < r.y + r.h

/-- The window that judges a pixel; none for an unbound one (R36). -/
def judge (l : List JWin) (x y : Nat) : Option JWin := l.find? fun w => inRect w.rect x y

/-- Adjacent runs with the same judging window joined. -/
def joinRuns : List (Nat × Nat × Option JWin) → List (Nat × Nat × Option JWin)
  | [] => []
  | (x, n, w) :: t =>
    match joinRuns t with
    | (y, m, v) :: u => if v = w then (x, n + m, w) :: u else (x, n, w) :: (y, m, v) :: u
    | [] => [(x, n, w)]

/-- Runs between rising breakpoints. -/
def runsOf (l : List JWin) (y : Nat) : List Nat → List (Nat × Nat × Option JWin)
  | a :: b :: t => (a, b - a, judge l a y) :: runsOf l y (b :: t)
  | _ => []

/-- The runs of a line: start, length, judging window; in order and maximal (R156). -/
def lineRuns (l : List JWin) (width y : Nat) : List (Nat × Nat × Option JWin) :=
  let here := l.filter fun w => w.rect.y ≤ y && y < w.rect.y + w.rect.h
  let cuts := (0 :: width :: here.flatMap fun w => [w.rect.x, w.rect.x + w.rect.w]).filter fun x => x ≤ width
  joinRuns (runsOf here y (sortBy (fun a b => a ≤ b) cuts.eraseDups))

/-- Greatest span count of any line of a head, and the first line that has it (R156). -/
def maxSpansOf (h : HeadScene) : Nat × Nat :=
  let l := headWindows h
  let lines := ((0 :: l.flatMap fun w => [w.rect.y, w.rect.y + w.rect.h]).filter fun y => y < h.timing.vActive).eraseDups
  lines.foldl (fun m y => let n := (lineRuns l h.timing.hActive y).length
                          if m.1 < n then (n, y) else m) (0, 0)

/-! ## Conversion to the internal format (R148) -/

/-- Nearest integer, an exact half away from zero. -/
def roundAway (q : Rat) : Int := if 0 ≤ q then (q + 1 / 2).floor else -((-q + 1 / 2).floor)

/-- Kr and Kb by colorimetry (R148): 0 BT.709, 1 BT.2020, 2 BT.601. -/
def krkb : Nat → Rat × Rat
  | 0 => (2126 / 10000, 722 / 10000)
  | 1 => (2627 / 10000, 593 / 10000)
  | _ => (299 / 1000, 114 / 1000)

/-- M′ of R148 for a component (0 R, 1 G, 2 B) and an input (0 Y, 1 Cb, 2 Cr), unscaled. -/
def matrixAt (col comp input : Nat) : Rat :=
  let kr := (krkb col).1
  let kb := (krkb col).2
  let kg := 1 - kr - kb
  match comp, input with
  | _, 0 => 1
  | 0, 1 => 0
  | 0, _ => 2 * (1 - kr)
  | 1, 1 => -2 * kb * (1 - kb) / kg
  | 1, _ => -2 * kr * (1 - kr) / kg
  | _, 1 => 2 * (1 - kb)
  | _, _ => 0

/-- m_j of R148. -/
def coefOf (col : Nat) (full : Bool) (comp input : Nat) : Int :=
  let k : Rat := if full then 1 else if input = 0 then 1023 / 876 else 1023 / 896
  roundAway (4096 * (matrixAt col comp input * k))

/-- Clamped to 10 bits. -/
def clamp10 (v : Int) : Nat := if v < 0 then 0 else if 1023 < v then 1023 else v.toNat

/-- YCbCr of 10 bits to one component (R148). -/
def ycc (col : Nat) (full : Bool) (comp y cb cr : Nat) : Nat :=
  let v := coefOf col full comp 0 * ((y : Int) - (if full then 0 else 64)) + coefOf col full comp 1 * ((cb : Int) - 512)
    + coefOf col full comp 2 * ((cr : Int) - 512)
  clamp10 ((v + 2048) / 4096)

/-- YCbCr of 10 bits to the internal format, opaque. -/
def yccPix (col : Nat) (full : Bool) (y cb cr : Nat) : Rgba :=
  ⟨ycc col full 0 y cb cr, ycc col full 1 y cb cr, ycc col full 2 y cb cr, 1023⟩

/-- An ingest RGB component of 8 or 10 bits, narrow or full range (R148). -/
def ingestRgb (eight full : Bool) (v : Nat) : Nat :=
  let w := if eight then v * 4 + v / 64 else v
  if full then clamp10 w else clamp10 ((((w : Int) - 64) * 4783 + 2048) / 4096)

/-- A pixel of a frame slot (R148): chroma of 4:2:2 serves both pixels of its pair. -/
def slotPixel (s : State) (x : Stream) (slot px line : Nat) : Rgba :=
  let p := x.params
  let v (c : Nat) := slotSample s x slot px line c
  let full := p.range = 1
  match p.sampling with
  | 0 => yccPix p.colorimetry full (v 0) (v 1) (v 2)
  | 1 => yccPix p.colorimetry full (v 0 * 4) (v 1 * 4) (v 2 * 4)
  | 2 => yccPix p.colorimetry full (v 0) (v 1) (v 2)
  | 3 => ⟨ingestRgb true full (v 2), ingestRgb true full (v 0), ingestRgb true full (v 1), 1023⟩
  | _ => ⟨ingestRgb false full (v 2), ingestRgb false full (v 0), ingestRgb false full (v 1), 1023⟩

/-- A pixel of a decoded picture, 4:2:0, as its slot in module DRAM holds it (R80, R148). -/
def picturePixel (s : State) (b : AttachBody) (q : Picture) (px line : Nat) : Rgba :=
  let k := if q.bitDepth = 10 then 1 else 4
  let v (plane x y : Nat) := pictureSample s b q plane x y * k
  yccPix q.colorimetry (q.range = 1) (v 0 px line) (v 1 (px / 2) (line / 2)) (v 2 (px / 2) (line / 2))

/-- A little-endian number in module DRAM. -/
def dramWord (s : State) (a n : Nat) : Nat := (memReadN s a n).reverse.foldl (fun v b => v * 256 + b.toNat) 0

/-- Bytes per pixel of a surface format (luma for 3 and 4; R133). -/
def formatBytes : Nat → Nat
  | 0 => 4 | 1 => 4 | 2 => 2 | 3 => 1 | _ => 2

/-- Address of an image of a surface. -/
def imageBase (b : SurfaceBody) (image : Nat) : Nat := b.base + image * b.imageStride

/-- A sample of a P010 plane: bits [15:6]. -/
def p010 (v : Nat) : Nat := v / 64

/-- A pixel of a surface image (R133, R148). -/
def imagePixel (s : State) (b : SurfaceBody) (image px line : Nat) : Rgba :=
  let base := imageBase b image
  let row := base + line * b.pitch
  let chroma := base + b.pitch * b.height + line / 2 * b.pitch
  match b.format with
  | 0 =>
    let w := dramWord s (row + px * 4) 4
    let e (v : Nat) := v * 4 + v / 64
    ⟨e (w / 65536 % 256), e (w / 256 % 256), e (w % 256), e (w / 16777216 % 256)⟩
  | 1 =>
    let w := dramWord s (row + px * 4) 4
    ⟨w / 1048576 % 1024, w / 1024 % 1024, w % 1024, w / 1073741824 % 4 * 341⟩
  | 2 =>
    let w := dramWord s (row + px * 2) 2
    let five (v : Nat) := v * 32 + v
    ⟨five (w / 2048 % 32), w / 32 % 64 * 16 + w / 32 % 64 / 4, five (w % 32), 1023⟩
  | 3 =>
    yccPix b.colorimetry (b.range = 1) (dramWord s (row + px) 1 * 4) (dramWord s (chroma + px / 2 * 2) 1 * 4)
      (dramWord s (chroma + px / 2 * 2 + 1) 1 * 4)
  | _ =>
    yccPix b.colorimetry (b.range = 1) (p010 (dramWord s (row + px * 2) 2)) (p010 (dramWord s (chroma + px / 2 * 4) 2))
      (p010 (dramWord s (chroma + px / 2 * 4 + 2) 2))

/-- A stream by the base of its region, open or closed and still guarded. -/
def streamAt (s : State) (base : Nat) : Option Stream :=
  ((mapVals s.ingest.streams).find? fun x => x.regionBase = base).orElse fun _ => mapGet s.ingest.closed base

/-- An attachment by the base of its buffer set. -/
def attachAt (s : State) (base : Nat) : Option Attach :=
  ((mapVals s.decode.attached).find? fun a => a.body.bufBase = base).orElse fun _ => mapGet s.decode.closed base

/-- A pixel of shown content in the internal format. -/
def contentPixel (s : State) (c : Content) (px line : Nat) : Rgba :=
  match c with
  | .slot _ base slot _ =>
    match streamAt s base with
    | some x => slotPixel s x slot px line
    | none => ⟨0, 0, 0, 0⟩
  | .picture _ base au =>
    match attachAt s base with
    | some a =>
      match a.shown.find? fun q => q.au = au with
      | some q => picturePixel s a.body q px line
      | none => ⟨0, 0, 0, 0⟩
    | none => ⟨0, 0, 0, 0⟩
  | .image f i =>
    match mapGet s.compose.surfaces f with
    | some x => imagePixel s x.body i px line
    | none => ⟨0, 0, 0, 0⟩

/-! ## Prescale, scaler and blending (R149, R150, R153) -/

/-- A component by number. -/
def compOf (p : Rgba) : Nat → Nat
  | 0 => p.r | 1 => p.g | 2 => p.b | _ => p.a

/-- A pixel from its components. -/
def ofComps (f : Nat → Nat) : Rgba := ⟨f 0, f 1, f 2, f 3⟩

/-- A prescaled sample: the mean of the block's pixels inside the crop, rounded half up (R149). -/
def prescaleAt (l : Layer) (p : Nat) (px : Nat → Nat → Rgba) (i j : Nat) : Rgba :=
  if p = 1 then px (l.src.x + i) (l.src.y + j)
  else
    let xs := (List.range p).filter fun d => i * p + d < l.src.w
    let ys := (List.range p).filter fun d => j * p + d < l.src.h
    let pts := ys.flatMap fun b => xs.map fun a => px (l.src.x + i * p + a) (l.src.y + j * p + b)
    let n := pts.length
    ofComps fun c => (2 * sumN (pts.map fun q => compOf q c) + n) / (2 * n)

/-- A phase of coefficients is in range and sums to 512 (R151). -/
def phaseOk (l : List Int) : Bool := (l.all fun c => -512 ≤ c && c ≤ 511) && l.foldl (· + ·) 0 = 512

/-- A phase of `taps` coefficients of a set that no load gave: those fixed in the silicon, or that the set holds at reset, of which the manual
states only the range and the sum of R151; numbers that break either are no set's, and 511 and 1 stand in for them. -/
def builtinPhase (set base taps : Nat) : List Int :=
  let l := (List.range taps).map fun k => Config.builtinCoeff set (base + k)
  if phaseOk l then l else 511 :: 1 :: List.replicate (taps - 2) 0

/-- A coefficient by its place in the layout of R151. -/
def coeffOf (s : State) (set i : Nat) : Int :=
  match mapGet s.compose.coeffs set with
  | some l => (l[i]?).getD 0
  | none =>
    if i < 512 then ((builtinPhase set (i / 8 * 8) 8)[i % 8]?).getD 0
    else ((builtinPhase set (512 + (i - 512) / 6 * 6) 6)[(i - 512) % 6]?).getD 0

/-- One filtered sample of an axis (R150). `src` is the axis' samples. -/
def filterAt (coef : Nat → Nat → Int) (taps srcN dstN i : Nat) (src : Nat → Rgba) : Rgba :=
  if srcN = dstN then src i
  else
    let p := axisPos srcN dstN i
    let base := baseTap taps p.1
    let at_ (k : Nat) : Rgba := src (clampIdx (base + k) srcN)
    ofComps fun c =>
      clamp10 ((((List.range taps).map fun k => coef p.2 k * (compOf (at_ k) c : Int)).foldl (· + ·) 256) / 512)

/-- An output pixel of a layer, vertical filter first (R147, R150). -/
def layerPixel (s : State) (l : Layer) (p : Nat) (px : Nat → Nat → Rgba) (i j : Nat) : Rgba :=
  let sw := prescaled l.src.w p
  let sh := prescaled l.src.h p
  let h (ph k : Nat) := coeffOf s l.coeffSet (ph * 8 + k)
  let v (ph k : Nat) := coeffOf s l.coeffSet (512 + ph * 6 + k)
  let col (c : Nat) : Rgba := filterAt v 6 sh l.dst.h j fun r => prescaleAt l p px c r
  filterAt h 8 sw l.dst.w i col

/-- One component blended over what lies beneath (R153). -/
def blend1 (a c d : Nat) : Nat := (c * a + d * (1024 - a) + 512) / 1024

/-- A layer's pixel over what lies beneath: video layers are opaque; a graphics layer takes its global alpha (R153). -/
def blend (i : Nat) (l : Layer) (q : Rgba) (d : Rgb) : Rgb :=
  if i < 16 then ⟨q.r, q.g, q.b⟩
  else
    let a := q.a + q.a / 512
    let a := (a * (l.globalAlpha + l.globalAlpha / 128) + 128) / 256
    ⟨blend1 a q.r d.r, blend1 a q.g d.g, blend1 a q.b d.b⟩

end Sys2Proof.Machine
end

