-- ==== Sys2Proof/Machine/Timing.lean ====
section
/-! DEFINITION. When frames start and layers select: the Spindle schedule, the frame that follows the one in progress, and latch
points (R184 to R191). Instants are elapsed times unless they are said to be otherwise. -/

namespace Sys2Proof.Machine

open Sys2Proof

/-! ## Groups -/

/-- The bank that a group's frame `n` shows (R310): the retained one until the group's apply frame. -/
def bankFor (s : State) (g n : Nat) : SceneBank :=
  match mapGet s.scene.pendingGroups g with
  | some m => if modDiff 48 n m < 0 then s.scene.other else s.scene.inForce
  | none => s.scene.inForce

/-- Heads that the module composes and that a bank enables in a group. -/
def groupHeads (b : SceneBank) (g : Nat) : List Nat :=
  (List.range 64).filter fun h => headOn b h && (headScene b h).timing.syncGroup = g

/-- Timings of a group's heads under a bank. -/
def groupTimings (b : SceneBank) (g : Nat) : List HeadTiming := (groupHeads b g).map fun h => (headScene b h).timing

/-- The runtime of a group. -/
def groupRt (s : State) (g : Nat) : GroupRt := mapGetD s.ts.groups g GroupRt.init

/-- A group written. -/
def setGroup (g : Nat) (r : GroupRt) (s : State) : State := s.modTs fun t => { t with groups := mapPut t.groups g r }

/-- The record of a group: the one that the scene in force holds, or, of a group that it gives up, the retained one until its heads have left
it (R188, R310). -/
def groupRec (s : State) (g : Nat) : Option SyncGroup :=
  (mapGet s.scene.inForce.groups g).orElse fun _ => if mapHas s.scene.pendingGroups g then mapGet s.scene.other.groups g else none

/-- A paced group. -/
def paced (r : SyncGroup) : Bool := r.mode = 1 || r.mode = 3

/-! ## Lines and periods (R166, R167, R186) -/

/-- v_total and v_blank (R166). -/
def vTotal (t : HeadTiming) : Nat := t.vActive + t.vFront + t.vSync + t.vBack
def vBlank (t : HeadTiming) : Nat := t.vFront + t.vSync + t.vBack
/-- h_total (R166). -/
def hTotal (t : HeadTiming) : Nat := t.hActive + t.hFront + t.hSync + t.hBack

/-- Nominal period of a group in ns, rounded up. -/
def periodNs (r : SyncGroup) : Nat := ceilDiv (1000000000 * r.rateDen) r.rateNum

/-- What `n` lines of a head of `vt` lines last, in ns, rounded up. -/
def linesNs (r : SyncGroup) (vt n : Nat) : Nat := if vt * r.rateNum = 0 then 0 else ceilDiv (n * 1000000000 * r.rateDen) (vt * r.rateNum)

/-- h of R186. -/
def horizon (r : SyncGroup) : Nat := if r.commitHorizon = 0 then 2 else r.commitHorizon

/-- Lead of the latch point before a frame start: (h + v_blank) lines of the head on which they last longest, in ns (R186). -/
def leadNs (r : SyncGroup) (hs : List HeadTiming) : Nat := hs.foldl (fun m t => max m (linesNs r (vTotal t) (horizon r + vBlank t))) 0

/-- The same lead in lines, in a paced group, whose heads share their lines (R183, R189). -/
def leadLines (r : SyncGroup) (hs : List HeadTiming) : Nat := hs.foldl (fun m t => max m (horizon r + vBlank t)) 0

/-- v_total of a paced group. -/
def groupLines (hs : List HeadTiming) : Nat := (hs.head?.map vTotal).getD 0

/-- e_max of R189 in lines, for `vt` lines a frame. -/
def maxExtra (r : SyncGroup) (vt : Nat) : Nat :=
  if r.minRateMhz = 0 || r.rateDen = 0 then 0 else vt * r.rateNum * 1000 / (r.rateDen * r.minRateMhz) - vt

/-! ## The Spindle schedule (R184, R349) -/

/-- The schedule index whose frame an instant of the Spindle scale falls in (R184). -/
def schedIndex (r : SyncGroup) (t : Nat) : Option Nat :=
  if r.rateDen = 0 || t < r.phaseNs then none else some ((t - r.phaseNs) * r.rateNum / (1000000000 * r.rateDen))

/-- The instant t_k of R184 on the Spindle scale. -/
def schedAt (r : SyncGroup) (k : Nat) : Nat := r.phaseNs + ceilDiv (k * 1000000000 * r.rateDen) r.rateNum

/-- The first schedule index at or after an instant of the Spindle scale. -/
def schedFrom (r : SyncGroup) (t : Int) : Nat :=
  let a := t - r.phaseNs
  if a ≤ 0 || r.rateDen = 0 then 0 else ((a.toNat - 1) * r.rateNum) / (1000000000 * r.rateDen) + 1

/-- How far the Spindle counter is ahead of elapsed time. The schedule runs on that counter, which beats steer, or the own wall time while
none arrive (R184, R185, R349, R352). -/
def spindleLead (s : State) : Int := (s.time.spindle : Int) - s.time.mono

/-- The elapsed time of a schedule instant. -/
def schedMono (s : State) (r : SyncGroup) (k : Nat) : Int := (schedAt r k : Int) - spindleLead s

/-! ## The frame that follows (R184, R185, R189, R191) -/

/-- The frame that follows one: its number, its start, by how much the blanking before it is lengthened in a re-phase, and the frame numbers
skipped. -/
structure GroupNext where
  (frame start longer skipped : Nat)
deriving DecidableEq, Repr

/-- An error corrected by trimming, within `trim` either way. -/
def trimmed (e trim : Int) : Int := if e < -trim then -trim else if trim < e then trim else e

/-- The frame of a FIXED group after frame `f`, started at `S`: an error of up to 10 µs from the schedule is trimmed by at most 100 ppm, a
greater one removed by lengthening the blanking to the next schedule instant (R184, R185). -/
def fixedNext (s : State) (r : SyncGroup) (f S : Nat) : GroupNext :=
  let due : Int := S + periodNs r
  let k := max (f + 1) (schedFrom r (due - 10000 + spindleLead s))
  let e := schedMono s r k - due
  if e ≤ 10000 then ⟨k, (due + trimmed e (periodNs r / 10000)).toNat, 0, k - f - 1⟩ else ⟨k, (due + e).toNat, e.toNat, k - f - 1⟩

/-- The frame of a REF_LOCKED group after frame `f`, started at `S`: while locked it is trimmed by at most 1,000 ppm onto the start that the
latest edge predicts, and the first one after lock returns is brought there by a re-phase; unlocked it follows a nominal period (R191). -/
def refNext (r : SyncGroup) (x : GroupRt) (f S : Nat) : GroupNext :=
  let due := S + periodNs r
  match x.lastEdge with
  | some e =>
    if x.locked then
      let first := e + r.phaseNs
      let at_ (m : Nat) : Int := (first + ceilDiv (m * 1000000000 * r.rateDen) r.rateNum : Nat)
      if x.rephaseDue then
        let p := at_ (if due ≤ first then 0 else (due - first - 1) * r.rateNum / (1000000000 * r.rateDen) + 1)
        ⟨f + 1, p.toNat, (p - due).toNat, 0⟩
      else
        let m := if due ≤ first then 0 else ((due - first) * 2 * r.rateNum + 1000000000 * r.rateDen) / (2000000000 * r.rateDen)
        ⟨f + 1, ((due : Int) + trimmed (at_ m - due) (periodNs r / 1000)).toNat, 0, 0⟩
    else ⟨f + 1, due, 0, 0⟩
  | none => ⟨f + 1, due, 0, 0⟩

/-- The frame of a paced group after frame `f`, started at `S`: it follows its latch point, which no pace event puts off beyond e_max lines
(R189). -/
def pacedNext (r : SyncGroup) (hs : List HeadTiming) (x : GroupRt) (f S : Nat) : GroupNext :=
  if x.latched = some (f + 1) then ⟨f + 1, x.nextStart, 0, 0⟩
  else
    let vt := groupLines hs
    ⟨f + 1, S + linesNs r vt (vt + maxExtra r vt), 0, 0⟩

/-- The frame that follows frame `f` of a group, started at `S`. -/
def groupNext (s : State) (r : SyncGroup) (hs : List HeadTiming) (x : GroupRt) (f S : Nat) : GroupNext :=
  if r.mode = 0 then fixedNext s r f S else if r.mode = 2 then refNext r x f S else pacedNext r hs x f S

/-! ## Latch points (R186, R189, R190, R310) -/

/-- A latch point: the frame, the instant, and the frame start that follows from it. -/
structure Latch where
  (frame at_ start : Nat)
deriving DecidableEq, Repr

/-- The frame of a group that runs now and its start: the one that a head started, or one latched whose start has come. -/
def runningFrame (x : GroupRt) (now : Nat) : Option (Nat × Nat) :=
  match x.latched with
  | some m =>
    if x.nextStart ≤ now && (x.frame.map fun f => decide (0 < modDiff 48 m f)).getD true then some (m, x.nextStart)
    else x.frame.map fun f => (f, x.startNs)
  | none => x.frame.map fun f => (f, x.startNs)

/-- Timings of the heads whose blanking precedes frame `n`: those that the frame before it shows, else its own (R186, R187). -/
def leadTimings (s : State) (g n : Nat) : List HeadTiming :=
  let l := groupTimings (bankFor s g (n - 1)) g
  if l.isEmpty then groupTimings (bankFor s g n) g else l

/-- The latch point of a frame whose start is known (R186). -/
def latchBefore (s : State) (g : Nat) (r : SyncGroup) (n start : Nat) : Latch := ⟨n, start - leadNs r (leadTimings s g n), start⟩

/-- The latch point of a FIXED group of which no frame runs: that of the next schedule instant. -/
def fixedLatch (s : State) (g : Nat) (r : SyncGroup) : Latch :=
  let n := match schedIndex r s.time.spindle with
    | some k => k + 1
    | none => 0
  latchBefore s g r n (schedMono s r n).toNat

/-- Line starts of the frame in progress, after which a paced latch point falls: L₀ and the limit, e_max lines later (R189). -/
def paceLines (r : SyncGroup) (hs : List HeadTiming) : Nat × Nat :=
  let vt := groupLines hs
  (vt - leadLines r hs, vt - leadLines r hs + maxExtra r vt)

/-- The first line start strictly after an instant, counted from the frame start `S`. -/
def lineAfter (r : SyncGroup) (vt S e : Nat) : Nat :=
  if e < S || r.rateDen = 0 then 0 else (e - S) * (vt * r.rateNum) / (1000000000 * r.rateDen) + 1

/-- A latch point on line start `m` of the frame that started at `S` (R189). -/
def lineLatch (r : SyncGroup) (hs : List HeadTiming) (n S m : Nat) : Latch :=
  let vt := groupLines hs
  ⟨n, S + linesNs r vt m, S + linesNs r vt (m + leadLines r hs)⟩

/-- The latch point that a pace event gives: the first line start after the event, not before L₀; none while there is no event, or one only
after the limit (R189). -/
def eventLatch (r : SyncGroup) (hs : List HeadTiming) (x : GroupRt) (f S : Nat) : Option Latch :=
  x.paceNs.bind fun e =>
    let l := paceLines r hs
    let i := lineAfter r (groupLines hs) S e
    if i ≤ l.2 then some (lineLatch r hs (f + 1) S (max i l.1)) else none

/-- The latch point at the limit (R189). -/
def limitLatch (r : SyncGroup) (hs : List HeadTiming) (f S : Nat) : Latch := lineLatch r hs (f + 1) S (paceLines r hs).2

/-- The first latch point of a group in modes 1 to 3: one line after the apply instant of the transaction that created it (R310). -/
def firstLatchOf (s : State) (g : Nat) (r : SyncGroup) (x : GroupRt) : Latch :=
  let l := x.firstLatch.getD s.time.mono
  ⟨0, l, l + leadNs r (groupTimings (bankFor s g 0) g)⟩

/-- The next latch point of a group, where it is known; in a paced group `limit` asks for the one at the limit. -/
def latchOf (s : State) (g : Nat) (r : SyncGroup) (limit : Bool) : Option Latch :=
  let x := groupRt s g
  let open_ (n : Nat) : Bool := (x.latched.map fun m => decide (0 < modDiff 48 n m)).getD true
  match runningFrame x s.time.mono with
  | none =>
    if r.mode = 0 then
      let l := fixedLatch s g r
      if open_ l.frame then some l else none
    else if x.latched.isNone && !limit then some (firstLatchOf s g r x) else none
  | some (f, S) =>
    let hs := leadTimings s g (f + 1)
    if r.mode = 0 then
      let l := if s.time.mono < S + 2 * periodNs r then
          let n := fixedNext s r f S
          latchBefore s g r n.frame n.start
        else fixedLatch s g r
      if 0 < modDiff 48 l.frame f && open_ l.frame then some l else none
    else if !open_ (f + 1) then none
    else if r.mode = 2 then some (latchBefore s g r (f + 1) (refNext r x f S).start)
    else if limit then (if (eventLatch r hs x f S).isNone then some (limitLatch r hs f S) else none)
    else eventLatch r hs x f S

/-- The next latch point of a group, where it has come. -/
def nextLatch (s : State) (g : Nat) (r : SyncGroup) : Option Latch := (latchOf s g r false).filter fun l => l.at_ ≤ s.time.mono

/-- The latch point of a paced group at the limit, where it has come (R189). -/
def timeoutLatch (s : State) (g : Nat) (r : SyncGroup) : Option Latch := (latchOf s g r true).filter fun l => paced r && l.at_ ≤ s.time.mono

/-- An instant of elapsed time as wall time, also one to come. -/
def wallOf (s : State) (t : Nat) : Nat := wall64 (if t ≤ s.time.mono then wallAt s t else (s.time.wall : Int) + (t - s.time.mono : Nat))

/-- Elapsed time at an instant of wall time, as the counter runs now. -/
def monoAt (s : State) (t : Nat) : Nat := s.time.mono + t - s.time.wall

end Sys2Proof.Machine
end

