-- ==== Sys2Proof/Machine/Compose.lean ====
section
/-! DEFINITION. Layer composition (R132 to R165): surfaces, coefficient sets, the latch point and content selection, lines
composed, underrun, writeback, self-test. -/

namespace Sys2Proof.Machine

open Sys2Proof

/-! ## Surfaces (R132 to R137) -/

/-- A surface changed. -/
def modSurface (k : Nat) (f : Surface → Surface) (s : State) : State :=
  s.modCompose fun c => { c with surfaces := mapUpd c.surfaces k f }

/-- The fields of the surface-register descriptor in their ranges (R132). -/
def surfaceFieldsOk (b : SurfaceBody) : Bool :=
  let planar := b.format = 3 || b.format = 4
  b.surface < 4096 && b.format ≤ 4 && 1 ≤ b.imageCount && b.imageCount ≤ 4 && 1 ≤ b.width && b.width ≤ 4096 && 1 ≤ b.height
    && b.height ≤ 4096 && (!planar || (b.width % 2 = 0 && b.height % 2 = 0)) && b.pitch % 256 = 0
    && b.width * formatBytes b.format ≤ b.pitch && b.imageStride % 4096 = 0
    && (if planar then b.pitch * b.height * 3 / 2 ≤ b.imageStride else b.pitch * b.height ≤ b.imageStride)
    && b.base % 4096 = 0 && inDram b.base (surfaceSize b)
    && (if planar then b.colorimetry ≤ 2 && b.range ≤ 1 else b.colorimetry = 0 && b.range = 0)

/-- The checks of R133; 0 when none fails. -/
def surfaceRegisterCheck (b : SurfaceBody) (s : State) : Nat :=
  if !surfaceFieldsOk b then 0x0150
  else if mapHas s.compose.surfaces b.surface then 0x0350
  else if dramBusy s b.base (surfaceSize b) then 0x0351
  else 0

/-- The gate context of a surface's uploads and reads (R133, R386). -/
def surfaceCtx (b : SurfaceBody) : GateCtx :=
  { ctx := .surface b.surface, who := [⟨1, 0⟩, ⟨7, 0⟩, ⟨8, 0⟩], regions := [⟨b.base, surfaceSize b, true, true, 3, b.surface⟩] }

/-- A surface just registered: no image is newest (R133). -/
def newSurface (b : SurfaceBody) : Surface :=
  { body := b, newest := none, newestNs := 0, before := none, retiring := none, active := [], reading := [], waiting := [], lastFrame := 0,
    lastNs := 0 }

/-- SURFACE_REGISTER (R132, R133): the content of every image is undefined. -/
def surfaceRegisterBody (b : SurfaceBody) (tk : Ticket) (s : State) : State :=
  let c := surfaceRegisterCheck b s
  if c != 0 then complete tk c [] s
  else
    complete tk 0 []
      (addCtx (surfaceCtx b) ((memForget b.base (surfaceSize b) s).modCompose fun c =>
        { c with surfaces := mapPut c.surfaces b.surface (newSurface b) }))

/-- SURFACE_REGISTER (R132). -/
def execSurfaceRegister (d : Desc) (b : SurfaceBody) (s : State) : Host.Outcome State Fault Refusal :=
  .next (onTake d (.surfaceRegister b) (surfaceRegisterBody b) s)

/-- The surface that a command may name: registered and not being retired (R137). -/
def surfaceOf (s : State) (k : Nat) : Option Surface := (mapGet s.compose.surfaces k).filter fun x => x.retiring.isNone

/-- The rectangle and pitch of an upload or read fit the image (R134, R136). -/
def uploadFieldsOk (x : SurfaceBody) (b : UploadBody) : Bool :=
  let planar := x.format = 3 || x.format = 4
  b.image < x.imageCount && 1 ≤ b.rect.w && 1 ≤ b.rect.h && b.rect.x + b.rect.w ≤ x.width && b.rect.y + b.rect.h ≤ x.height
    && (!planar || (b.rect.x % 2 = 0 && b.rect.y % 2 = 0 && b.rect.w % 2 = 0 && b.rect.h % 2 = 0))
    && b.rect.w * formatBytes x.format ≤ b.hostPitch

/-- The lines of a rectangle of an image: address, bytes and host offset of each, luma then chroma (R134). -/
def rectLines (x : SurfaceBody) (b : UploadBody) : List (Nat × Nat × Nat) :=
  let base := imageBase x b.image
  let bpp := formatBytes x.format
  let luma := (List.range b.rect.h).map fun j =>
    (base + (b.rect.y + j) * x.pitch + b.rect.x * bpp, b.rect.w * bpp, b.hostPitch * j)
  let chroma := (List.range (b.rect.h / 2)).map fun j =>
    (base + x.pitch * x.height + (b.rect.y / 2 + j) * x.pitch + b.rect.x * bpp, b.rect.w * bpp, b.hostPitch * (b.rect.h + j))
  if x.format = 3 || x.format = 4 then luma ++ chroma else luma

/-- A writeback is writing the surface. -/
def writebackWrites (s : State) (k : Nat) : Bool := (mapVals s.compose.writebacks).any fun w => w.body.surface = k && !w.writing.isEmpty

/-- An overlay run writes the image (R260). -/
def runWrites (s : State) (k image : Nat) : Bool :=
  (mapVals s.overlay.engines).any fun e =>
    (e.run.map fun r =>
      r.image == image && ((mapGet s.overlay.bindings r.binding).map fun b => b.body.surface == k).getD false).getD false

/-- A SURFACE_READ reads the image. -/
def readHolds (s : State) (k image : Nat) : Bool := ((mapGet s.compose.surfaces k).map fun x => x.reading.any fun r => r.2.2.image = image).getD false

/-- An image is held by a layer, a writeback, a SURFACE_READ or an overlay run (R134, R260). -/
def imageHeld (s : State) (k image : Nat) : Bool :=
  holdsImage s k image || (image = 0 && writebackWrites s k) || readHolds s k image || runWrites s k image

/-- An image becomes newest (R134). -/
def presentImage (k image : Nat) (s : State) : State :=
  modSurface k (fun x =>
    { x with newest := some image, newestNs := s.time.mono, before := if x.newestNs = s.time.mono then x.before else x.newest }) s

/-- A layer of a scene in force binds the surface: of the bank in force, or of the retained one while a group still shows it. -/
def boundInForce (s : State) (k : Nat) : Bool :=
  (s.scene.inForce :: (if s.scene.pendingGroups.isEmpty then [] else [s.scene.other])).any fun b =>
    (mapVals b.heads).any fun h => (mapVals h.layers).any fun l => l.enable = 1 && l.content = 2 && l.surfaceId = k

/-- A SURFACE_READ done: the rectangle copied line by line; one that meets poison completes with INTERNAL_ERROR (R136, R365). -/
def doRead (k : Nat) (x : Surface) (b : UploadBody) (tk : Ticket) (s : State) : State :=
  let r := (rectLines x.body b).foldl (fun r l =>
    let g := gatedRead (dmaOf tk) (.surface k) (tagOf tk) l.1 l.2.1 r.2.2.2
    (r.1 || g.2.1, r.2.1 || g.2.2.1, r.2.2.1 || g.2.2.2.1, hostOut tk l.2.2 g.1 g.2.2.2.2)) (false, false, false, s)
  let s := r.2.2.2
  let st := gateStatus r.1 r.2.1 s
  complete tk (if !r.2.1 && r.2.2.1 then 0x0F00 else st.1) st.2 s

/-- A SURFACE_READ begun: it holds the image until it has read the last byte (R134, R136). How long that takes is a free value. -/
def beginRead (k : Nat) (b : UploadBody) (tk : Ticket) (s : State) : State :=
  if !tk.dmaOk then complete tk 0x0500 [] s
  else
    let r := draw s
    modSurface k (fun x => { x with reading := x.reading ++ [(r.2.time.mono + r.1, tk, b)] }) r.2

/-- The reads of a surface that have read their last byte complete (R136). -/
def finishReads (k : Nat) (s : State) : State :=
  match mapGet s.compose.surfaces k with
  | none => s
  | some x =>
    let done := x.reading.filter fun r => r.1 ≤ s.time.mono
    let s := modSurface k (fun x => { x with reading := x.reading.filter fun r => s.time.mono < r.1 }) s
    done.foldl (fun s r => doRead k x r.2.2 r.2.1 s) s

/-- An upload begun, refused or left waiting: whether it waits (R135). -/
def beginUpload (k : Nat) (x : Surface) (b : UploadBody) (tk : Ticket) (s : State) : Bool × State :=
  if x.newest = some b.image && boundInForce s k then (false, complete tk 0x0355 [] s)
  else if imageHeld s k b.image then
    if b.noWait then (false, complete tk 0x0354 [] s) else (true, s)
  else if !tk.dmaOk then (false, complete tk 0x0500 [] s)
  else (false, modSurface k (fun x => { x with active := x.active ++ [(tk, b)] }) s)

/-- An upload or read whose turn has come: whether it waits; a read never does (R135, R136). -/
def beginAccess (k : Nat) (x : Surface) (read : Bool) (b : UploadBody) (tk : Ticket) (s : State) : Bool × State :=
  if read then (false, beginRead k b tk s) else beginUpload k x b tk s

/-- An upload or read that the surface takes: it waits behind one that waits (R135). -/
def queueAccess (k : Nat) (read : Bool) (b : UploadBody) (tk : Ticket) (s : State) : State :=
  match surfaceOf s k with
  | none => complete tk 0x0352 [] s
  | some x =>
    let wait := modSurface k (fun x => { x with waiting := x.waiting ++ [(tk, read, b)] })
    if !uploadFieldsOk x.body b then complete tk 0x0150 [] s
    else if !x.waiting.isEmpty then wait s
    else
      let r := beginAccess k x read b tk s
      if r.1 then wait r.2 else r.2

/-- SURFACE_UPLOAD (R135). -/
def surfaceUploadBody (b : UploadBody) (tk : Ticket) (s : State) : State := queueAccess b.surface false b tk s

/-- SURFACE_UPLOAD (R135). -/
def execSurfaceUpload (d : Desc) (b : UploadBody) (s : State) : Host.Outcome State Fault Refusal :=
  .next (onTake d (.surfaceUpload b) (surfaceUploadBody b) s)

/-- SURFACE_READ (R136). -/
def surfaceReadBody (b : UploadBody) (tk : Ticket) (s : State) : State := queueAccess b.surface true b tk s

/-- SURFACE_READ (R136). -/
def execSurfaceRead (d : Desc) (b : UploadBody) (s : State) : Host.Outcome State Fault Refusal :=
  .next (onTake d (.surfaceRead b) (surfaceReadBody b) s)

/-- What waits for a surface goes on, in order, up to the first upload that must still wait (R135). -/
def resumeWaiting (k : Nat) : List (Ticket × Bool × UploadBody) → State → State
  | [], s => modSurface k (fun x => { x with waiting := [] }) s
  | (tk, read, b) :: t, s =>
    match surfaceOf s k with
    | none => s
    | some x =>
      let r := beginAccess k x read b tk s
      if r.1 then modSurface k (fun x => { x with waiting := (tk, read, b) :: t }) s else resumeWaiting k t r.2

/-- SURFACE_UPLOAD_RESUME (R135). -/
def execSurfaceUploadResume (k : Nat) (s : State) : Host.Outcome State Fault Refusal :=
  .next
    (match surfaceOf s k with
     | none => s
     | some x => if x.waiting.isEmpty then s else resumeWaiting k x.waiting s)

/-- SURFACE_UPLOAD_COMPLETE (R135): the last byte is written, and with present set the image becomes newest. -/
def execSurfaceUploadComplete (k : Nat) (s : State) : Host.Outcome State Fault Refusal :=
  .next
    (match mapGet s.compose.surfaces k with
     | none => s
     | some x =>
       match x.active with
       | [] => s
       | (tk, b) :: rest =>
         let r := (rectLines x.body b).foldl (fun r l =>
           let g := gatedWrite (dmaOf tk) (.surface k) (tagOf tk) l.1 ((b.data.drop l.2.2).take l.2.1) r.2.2
           (r.1 || g.1, r.2.1 || g.2.1, g.2.2)) (false, false, s)
         let st := gateStatus r.1 r.2.1 r.2.2
         let s := modSurface k (fun x => { x with active := rest }) r.2.2
         let s := if b.present && st.1 = 0 then presentImage k b.image s else s
         complete tk st.1 st.2 s)

/-- SURFACE_RETIRE (R137): refused while a layer of a bank binds the surface or a writeback or overlay binding names it;
otherwise it stops taking commands at once and what waits ends. -/
def surfaceRetireBody (k : Nat) (tk : Ticket) (s : State) : State :=
  match surfaceOf s k with
  | none => complete tk 0x0352 [] s
  | some x =>
    if surfaceBound s k || (mapVals s.compose.writebacks).any (fun w => w.body.surface = k) || overlayNames s k then
      complete tk 0x0353 [] s
    else
      let s := modSurface k (fun x => { x with retiring := some tk, waiting := [] }) s
      x.waiting.foldl (fun s w => complete w.1 0x0352 [] s) s

/-- SURFACE_RETIRE (R137). -/
def execSurfaceRetire (d : Desc) (k : Nat) (s : State) : Host.Outcome State Fault Refusal :=
  .next (onTake d (.surfaceRetire k) (surfaceRetireBody k) s)

/-- SURFACE_RETIRE_RELEASE (R137): no image is held; the release record carries the last frame that read the surface. -/
def execSurfaceRetireRelease (k : Nat) (s : State) : Host.Outcome State Fault Refusal :=
  .next
    (match mapGet s.compose.surfaces k with
     | none => s
     | some x =>
       match x.retiring with
       | none => s
       | some tk =>
         if !x.active.isEmpty || !x.reading.isEmpty || contextHeld s (.surface k) || (List.range x.body.imageCount).any (fun i => imageHeld s k i) then s
         else
           let s := dropCtx (.surface k) (s.modCompose fun c => { c with surfaces := mapDel c.surfaces k })
           complete tk 0 [it 6 x.lastFrame, it 8 x.lastNs] s)

/-! ## Coefficient sets (R151, R152) -/

/-- Coefficients of a set in their layout: 64 phases of 8 taps, then 64 of 6 (R151). -/
def phasesOk (l : List Int) : Bool :=
  l.length = 896 && ((List.range 64).all fun p => phaseOk ((l.drop (p * 8)).take 8))
    && (List.range 64).all fun p => phaseOk ((l.drop (512 + p * 6)).take 6)

/-- A layer of any scene bank in use names the set (R152). -/
def setNamed (s : State) (set : Nat) : Bool :=
  (banksInUse s).any fun b => (mapVals b.heads).any fun h => (mapVals h.layers).any fun l => l.coeffSet = set

/-- SCALER_LOAD (R152). -/
def scalerLoadBody (set : Nat) (l : List Int) (tk : Ticket) (s : State) : State :=
  if set < 2 || 15 < set then complete tk 0x0150 [] s
  else if !tk.dmaOk then complete tk 0x0500 [] s
  else if !phasesOk l then complete tk 0x0151 [] s
  else if setNamed s set then complete tk 0x0356 [] s
  else complete tk 0 [] (s.modCompose fun c => { c with coeffs := mapPut c.coeffs set l })

/-- SCALER_LOAD (R152). -/
def execScalerLoad (d : Desc) (set : Nat) (l : List Int) (s : State) : Host.Outcome State Fault Refusal :=
  .next (onTake d (.scalerLoad set l) (scalerLoadBody set l) s)

/-- SCALER_READ (R151). -/
def scalerReadBody (set : Nat) (tk : Ticket) (s : State) : State :=
  if 15 < set then complete tk 0x0150 [] s
  else completeWrite tk ((List.range 896).map fun i => (2, coeffOf s set i)) [] s

/-- SCALER_READ (R151). -/
def execScalerRead (d : Desc) (set : Nat) (s : State) : Host.Outcome State Fault Refusal :=
  .next (onTake d (.scalerRead set) (scalerReadBody set) s)

/-! ## Selection (R141 to R146) -/

/-- A layer at rest. -/
def emptyLayerRt : LayerRt :=
  { cur := none, curHeld := false, old := none, void := false, underrun := none, oldUnderrun := none, underruns := 0, mismatches := 0 }

/-- Key of a layer. -/
def layerKey (h i : Nat) : Nat := h * 32 + i

/-- A layer of a head at run time. -/
def layerRt (s : State) (h i : Nat) : LayerRt := mapGetD s.compose.layers (layerKey h i) emptyLayerRt

/-- A layer written. -/
def setLayer (h i : Nat) (r : LayerRt) (s : State) : State :=
  s.modCompose fun c => { c with layers := mapPut c.layers (layerKey h i) r }

/-- Content that a layer may select: when it completed, what it is, its size, its origin times (R141, R145). -/
structure Offer where
  (doneNs : Nat)
  (content : Content)
  (width height : Nat)
  (own : Option Nat)
  (concealed : Bool)
  (fields : Map Nat)
deriving DecidableEq, Repr

/-- Frames in the slots of a stream. -/
def slotOffers (k : Nat) (x : Stream) : List Offer :=
  if x.params.media = 0 then
    x.slots.map fun f =>
      { doneNs := f.doneNs, content := .slot k x.regionBase f.slot f.number, width := x.params.width, height := x.params.height,
        own := f.origin.map fun _ => f.originUs, concealed := false, fields := f.fields }
  else []

/-- Pictures output of a source. -/
def pictureOffers (k : Nat) (a : Attach) : List Offer :=
  a.shown.map fun q =>
    { doneNs := q.doneNs, content := .picture k a.body.bufBase q.au, width := q.width, height := q.height,
      own := q.origin.map fun _ => q.originUs, concealed := q.concealed, fields := q.fields }

/-- What a source has delivered or output, of its present stream and of those closed and still guarded (R76, R104, R141). -/
def sourceOffers (s : State) (k : Nat) : List Offer :=
  let media := (mapGet s.ingest.streams k).map fun x => x.params.media
  let raw := (mapGet s.ingest.streams k).toList
    ++ mapVals (s.ingest.closed.filter fun p => (mapGet s.ingest.guards p.1).map Prod.snd = some k)
  let coded := (mapGet s.decode.attached k).toList ++ (mapVals s.decode.closed).filter fun a => a.body.source = k
  (if (media.map fun m => decide (m = 0)).getD true then raw.flatMap fun x => slotOffers k x else [])
    ++ (if (media.map fun m => decide (m != 0)).getD true then coded.flatMap fun a => pictureOffers k a else [])

/-- The newest image of a surface, and the one that was newest before it (R134). -/
def imageOffers (s : State) (k : Nat) : List Offer :=
  match mapGet s.compose.surfaces k with
  | none => []
  | some x =>
    let one (t n : Nat) : Offer :=
      { doneNs := t, content := .image k n, width := x.body.width, height := x.body.height, own := none, concealed := false, fields := [] }
    (x.newest.map fun n => one x.newestNs n).toList ++ (x.before.map fun n => one 0 n).toList

/-- The newest offer that completed before an instant (R141). -/
def newestOffer (t : Nat) (l : List Offer) : Option Offer :=
  (l.filter fun o => o.doneNs < t).foldl (fun m o => match m with
    | some n => if n.doneNs < o.doneNs then some o else m
    | none => some o) none

/-- The origin time that a window's source takes (R145); none flags void. -/
def windowOrigin (s : State) (l : Layer) (own : Option Nat) (fields : Map Nat) (k : Nat) : Option Nat :=
  if l.content = 1 && k = l.sourceId then own
  else
    let e := entryOf s k
    match e.kind with
    | .derived => mapGet fields e.field
    | .hostFed => if e.received then some (originUs ⟨e.originNs, e.uSrcNs⟩) else none
    | .internal => some (originUs ⟨s.time.wall, 0⟩)
    | .test => some 0
    | _ => none

/-- Sources that the windows of a layer name. -/
def layerSources (h : HeadScene) (i : Nat) (l : Layer) : List Nat := ((layerWindows h i l).map JWin.source).eraseDups

/-- Content as shown, with the origin time of each source of the layer's windows. -/
def mkShown (s : State) (h : HeadScene) (i : Nat) (l : Layer) (o : Offer) : Shown :=
  { content := o.content, width := o.width, height := o.height, own := o.own, fields := o.fields, concealed := o.concealed,
    origins := (layerSources h i l).foldl (fun m k => mapPut m k (windowOrigin s l o.own o.fields k)) [] }

/-- The newest content that completed before the selection instant (R141). -/
def candidate (s : State) (h : HeadScene) (i : Nat) (l : Layer) : Option Shown :=
  (newestOffer s.time.mono (if l.content = 1 then sourceOffers s l.sourceId else imageOffers s l.surfaceId)).map fun o => mkShown s h i l o

/-- Content shown before, as the layer's windows of this frame take its origin times (R142, R145). -/
def shownAgain (s : State) (h : HeadScene) (i : Nat) (l : Layer) (x : Shown) : Shown :=
  { x with origins := (layerSources h i l).foldl (fun m k => mapPut m k (windowOrigin s l x.own x.fields k)) [] }

/-- Content still exists: its slot or image holds nothing else (R142). -/
def contentExists (s : State) (c : Content) : Bool :=
  match c with
  | .slot _ base slot n => ((streamAt s base).map fun x => x.slots.any fun f => f.slot = slot && f.number = n).getD false
  | .picture _ base au => ((attachAt s base).map fun a => a.shown.any fun q => q.au = au).getD false
  | .image f _ => ((mapGet s.compose.surfaces f).map fun x => x.newest.isSome).getD false

/-- The content still belongs to what the layer binds. -/
def ofBinding (l : Layer) (c : Content) : Bool :=
  match c with
  | .slot k .. => l.content = 1 && k = l.sourceId
  | .picture k .. => l.content = 1 && k = l.sourceId
  | .image f _ => l.content = 2 && f = l.surfaceId

/-- The layer's pipe is under test in MAINTENANCE (R164). -/
def pipeTested (s : State) (h i : Nat) : Bool :=
  i < 16 && match pipeIndex s h i with
    | some p => s.compose.tests.contains p
    | none => false

/-- LAYER_VOID (R143): a layer became void, or shows content again. -/
def tellVoid (h i n : Nat) (void : Bool) (s : State) : State :=
  if void != (layerRt s h i).void then raise 0x0581 .head (h % 32) [it 1 i, it 1 (flag void), it 6 n] s else s

/-- The content of the frame before, while its lines are left. -/
def leaveOld (r : LayerRt) (oldDone : Bool) : LayerRt :=
  { r with old := if oldDone || !r.curHeld then none else r.cur, oldUnderrun := if oldDone then none else r.underrun, underrun := none }

/-- An enabled layer selects its content for frame `n` (R141 to R143). -/
def selectLayer (h n : Nat) (hs : HeadScene) (i : Nat) (l : Layer) (oldDone : Bool) (s : State) : State :=
  let r := layerRt s h i
  let c := candidate s hs i l
  let wrong := (c.map fun x => decide (x.width != l.frameW || x.height != l.frameH)).getD false
  let kept := (r.cur.filter fun x =>
    ofBinding l x.content && x.width = l.frameW && x.height = l.frameH && contentExists s x.content).map (shownAgain s hs i l)
  let sel := if pipeTested s h i then none else if wrong || c.isNone then kept else c
  let s := if wrong then
      raiseLimited second (limKey 0x0582 h i) 1 0x0582 .head (h % 32)
        (fun _ => [it 1 i, it 2 ((c.map Shown.width).getD 0), it 2 ((c.map Shown.height).getD 0)]) s
    else s
  setLayer h i
    { leaveOld r oldDone with
      cur := sel, curHeld := sel.isSome, void := sel.isNone, mismatches := if wrong then r.mismatches + 1 else r.mismatches }
    (tellVoid h i n sel.isNone s)

/-- A layer that the scene does not enable lets its content go; one that was void is so still when it next shows content (R143, R144). -/
def restLayer (h i : Nat) (oldDone : Bool) (s : State) : State :=
  if mapHas s.compose.layers (layerKey h i) then setLayer h i { leaveOld (layerRt s h i) oldDone with cur := none, curHeld := false } s else s

/-- Lines of a frame are left to compose. -/
def linesLeft (c : CompFrame) : Bool := c.next < c.scene.timing.vActive

/-- A head begins frame `n`, which starts at elapsed time `start`, under its records; one that a scene has disabled only composes what is
left of the frame before (R141, R144, R158). -/
def latchHead (n start : Nat) (b : SceneBank) (h : Nat) (s : State) : State :=
  let hs := headScene b h
  let on := headOn b h
  let old := ((mapGet s.compose.heads h).map CompHead.now).filter linesLeft
  let s := (List.range 20).foldl (fun s i =>
    match (mapGet hs.layers i).filter fun l => on && l.enable = 1 with
    | some l => selectLayer h n hs i l old.isNone s
    | none => restLayer h i old.isNone s) s
  let c : CompFrame := { frame := n, start := start, next := if on then 0 else hs.timing.vActive, scene := hs }
  s.modCompose fun x => { x with heads := mapPut x.heads h { now := c, old := old } }

/-- Some writeback's target is read by a SURFACE_READ. -/
def targetRead (s : State) (w : WritebackBody) : Bool := ((mapGet s.compose.surfaces w.surface).map fun x => !x.reading.isEmpty).getD false

/-- A writeback of the head begins with the frame that its mode calls for, or skips it while its target is being read (R160). -/
def beginWriteback (n h : Nat) (s : State) : State :=
  match mapGet s.compose.writebacks h with
  | none => s
  | some w =>
    let due := w.stopping.isEmpty && (if w.body.mode = 1 then w.count = 0 else w.body.everyN != 0 && w.count % w.body.everyN = 0)
    let skip := due && targetRead s w.body
    let w := { w with writing := if due && !skip then w.writing ++ [n] else w.writing,
                      count := if w.body.mode = 1 && skip then w.count else w.count + 1 }
    let s := s.modCompose fun c => { c with writebacks := mapPut c.writebacks h w }
    if skip then raise 0x0584 .head (h % 32) [it 6 n, it 2 w.body.surface] s else s

/-! ## Latch points (R141, R186, R188 to R190) -/

/-- The module decides the latch points of paced groups (R190): its role is ACTIVE or ALONE, or the stream of its twin, which decides them
otherwise, is silent. -/
def decides (s : State) : Bool :=
  s.cascade.role = .alone || s.cascade.role = .active
    || (match s.ts.twinClaim with
        | none => true
        | some (_, t) => t + Config.claimNs ≤ s.time.mono)

/-- The group in which a head was before a transaction, while that group has not reached its apply frame (R188). -/
def movesFrom (s : State) (h : Nat) : Option Nat :=
  if headOn s.scene.other h && headOn s.scene.inForce h then
    let g := (headScene s.scene.other h).timing.syncGroup
    if g != (headScene s.scene.inForce h).timing.syncGroup && mapHas s.scene.pendingGroups g then some g else none
  else none

/-- Heads that select at the latch point of frame `n` of a group: those of the bank that it shows, but for those that still belong to another
group; and those in composition that it no longer shows (R141, R172, R188). -/
def latchHeads (s : State) (g n : Nat) : List Nat :=
  let b := bankFor s g n
  let shown := (groupHeads b g).filter fun h => !((movesFrom s h).map fun a => decide (a != g)).getD false
  shown ++ (s.compose.heads.filter fun p => p.2.now.scene.timing.syncGroup = g && headOn s.scene.other p.1 && !headOn b p.1).map Prod.fst

/-- The first frame of a group whose latch point is at or after this instant (R188). -/
def frameFromNow (s : State) (g : Nat) : Nat :=
  match groupRec s g with
  | none => 0
  | some r =>
    let x := groupRt s g
    match x.latched with
    | some m => if s.time.wall ≤ x.latchNs then m else ((latchOf s g r false).map Latch.frame).getD (m + 1)
    | none => ((latchOf s g r false).map Latch.frame).getD 0

/-- The swap orders of the heads that a transaction moves out of a group, at the latch point of its apply frame: for the first frame of the
new group whose latch point is not earlier (R188, R200). -/
def orderMoves (g : Nat) (s : State) : State :=
  ((List.range (if s.cascade.twinUp then 64 else 32)).filter fun h => movesFrom s h = some g).foldl (fun s h =>
    emit (.message (if h < 32 then .toTailstock else .twin) .control "SWAP_ORDER"
      [((h % 32 : Nat) : Int), (frameFromNow s (headScene s.scene.inForce h).timing.syncGroup : Nat), flag s.scene.restored]) s) s

/-- A due run of a group of which a later frame is latched at a wall instant: from then on it is late (R263). -/
def lateFrom (n ns : Nat) (d : DueRun) : DueRun :=
  { d with lateNs := d.lateNs.orElse fun _ => d.frame.bind fun k => if 0 < modDiff 48 n k then some ns else none }

/-- The runs of a group, due and in progress, at the latch point of frame `n` (R263). -/
def lateRuns (g n ns : Nat) (s : State) : State :=
  let of (b : Binding) : Bool := b.body.trigger = 0 && b.body.group = g
  s.modOverlay fun o =>
    { o with
      bindings := o.bindings.map fun p => if of p.2 then (p.1, { p.2 with due := p.2.due.map (lateFrom n ns) }) else p,
      engines := o.engines.map fun p =>
        let run := p.2.run.map fun r =>
          if ((mapGet o.bindings r.binding).map of).getD false then { r with due := lateFrom n ns r.due } else r
        (p.1, { p.2 with run := run }) }

/-- A latch point of a sync group makes the PER_FRAME runs of its bindings due, or skips them as BEHIND (R262). -/
def latchRuns (g n start : Nat) (s : State) : State :=
  let clock := (groupRec s g).map fun r => wallOf s start + periodNs r
  s.overlay.bindings.foldl (fun s p =>
    let b := p.2.body
    if b.trigger = 0 && b.group = g && b.everyN != 0 && n % b.everyN = 0 && p.2.unbinding.isNone && !p.2.stopping then
      let running := (mapGetD s.overlay.engines p.2.engine (default : Engine)).run.map Run.binding = some p.1
      if running || !p.2.due.isEmpty then
        let s := s.modOverlay fun o => { o with engines := mapUpd o.engines p.2.engine fun e => { e with skipped := e.skipped + 1 } }
        raiseLimited second (limKey 0x0981 p.1 0) 1 0x0981 .engine (32 + p.2.engine)
          (fun c => [it 2 p.1, it 1 0, it 4 c]) s
      else addDue p.1 { order := 0, frame := some n, clockNs := clock, tickets := [], noWait := true, since := none, lateNs := none } s
    else s) s

/-- The latch point of a frame of a group (R141, R144, R158, R188, R262). -/
def latch (g : Nat) (l : Latch) (s : State) : State :=
  let n := l.frame
  let b := bankFor s g n
  let s := (latchHeads s g n).foldl (fun s h => beginWriteback n h (latchHead n l.start b h s)) s
  let s := setGroup g { groupRt s g with latched := some n, latchNs := wallOf s l.at_, nextStart := l.start, paceNs := none } s
  let s := match mapGet s.scene.pendingGroups g with
    | some m =>
      if 0 ≤ modDiff 48 n m then (orderMoves g s).modScene fun c => { c with pendingGroups := mapDel c.pendingGroups g } else s
    | none => s
  latchRuns g n l.start (lateRuns g n (wallOf s l.at_) s)

/-- The decision told to the twin (R190). -/
def tellLatch (g : Nat) (r : SyncGroup) (l : Latch) (s : State) : State :=
  if paced r && s.cascade.twinUp then emit (.message .twin .control "LATCH_DECISION" [(g : Int), wallOf s l.at_, l.frame]) s else s

/-- The event scope of a group: its lowest-numbered head on the module (R192). -/
def groupScope (s : State) (g : Nat) : Nat := ((groupHeads s.scene.inForce g).headD 0) % 32

/-! ## Lines (R153, R156 to R159) -/

/-- What a layer shows on a line of the frame in composition, or of the frame before: none when void, switched off or at
rest. -/
def layerShows (s : State) (h i line : Nat) (useOld : Bool) : Option Shown :=
  let r := layerRt s h i
  let off := if useOld then r.oldUnderrun else r.underrun
  if (off.map fun u => decide (u ≤ line)).getD false then none else if useOld then r.old else r.cur

/-- Layers at or above a window's layer, lowest first; every graphics layer for an unbound pixel (R36, R153). -/
def contributing (l : List (Nat × Layer)) (w : Option JWin) : List (Nat × Layer) :=
  match w with
  | some w => l.dropWhile fun p => p.1 != w.layer
  | none => l.filter fun p => 16 ≤ p.1

/-- One composed pixel (R36, R153). -/
def composePixel (s : State) (h : Nat) (hs : HeadScene) (useOld : Bool) (w : Option JWin) (x y : Nat) : Rgb :=
  (contributing (layersUp hs) w).foldl (fun d p =>
    if inRect p.2.dst x y then
      match layerShows s h p.1 y useOld with
      | some c =>
        let f := if p.1 < 16 then (prescaleOf p.2).getD 1 else 1
        blend p.1 p.2 (layerPixel s p.2 f (contentPixel s c.content) (x - p.2.dst.x) (y - p.2.dst.y)) d
      | none => d
    else d) hs.background

/-- The span of a run (R143, R145, R146, R157). -/
def spanOf (s : State) (h line : Nat) (useOld : Bool) (r : Nat × Nat × Option JWin) : Span :=
  match r.2.2 with
  | none =>
    { xStart := r.1, length := r.2.1, sourceId := 0, window := 0, void := false, unbound := true, held := false, concealed := false,
      originUs := 0, layer := 31 }
  | some w =>
    let c := layerShows s h w.layer line useOld
    let o := c.bind fun c => (mapGet c.origins w.source).bind fun o => o
    { xStart := r.1, length := r.2.1, sourceId := w.source, window := w.window, void := o.isNone, unbound := false, held := false,
      concealed := (c.map Shown.concealed).getD false, originUs := o.getD 0, layer := w.layer }

/-- The start of the frame in composition that a line belongs to. -/
def frameBegan (s : State) (h : Nat) (useOld : Bool) : Nat :=
  match mapGet s.compose.heads h with
  | some c => if useOld then ((c.old.map CompFrame.start).getD c.now.start) else c.now.start
  | none => s.time.mono

/-- A composed line as a token (R157, R209). -/
def composeLine (s : State) (h frame line : Nat) (hs : HeadScene) (useOld : Bool) : LineToken :=
  let runs := lineRuns (headWindows hs) hs.timing.hActive line
  { frameNo := frame, line := line, head := h % 32, idle := false, claim := claimOf s (frameBegan s h useOld),
    spans := runs.map fun r => spanOf s h line useOld r,
    pixels := runs.flatMap fun r => (List.range r.2.1).map fun k => composePixel s h hs useOld r.2.2 (r.1 + k) line }

/-- A span tag in its layout (R157). -/
def spanItems (p : Span) : Items :=
  [it 2 p.xStart, it 2 p.length, it 2 p.sourceId, it 1 p.window,
   it 1 (flag p.void + flag p.unbound * 2 + flag p.held * 4 + flag p.concealed * 8), it 5 p.originUs, it 1 p.layer, it 2 0]

/-- A span list in its layout (R157). -/
def spanListItems (frame line head : Nat) (l : List Span) : Items :=
  [it 6 frame, it 2 line, it 1 head, it 1 l.length, it 6 0] ++ l.flatMap spanItems

/-- A pixel as ARGB2101010 with A equal to 3 (R160). -/
def argb10 (c : Rgb) : Items := [it 4 (3 * 1073741824 + c.r * 1048576 + c.g * 1024 + c.b)]

/-- A composed line of a frame written to a writeback's target (R160). -/
def writebackLine (h : Nat) (hs : HeadScene) (t : LineToken) (s : State) : State :=
  match mapGet s.compose.writebacks h with
  | none => s
  | some w =>
    match mapGet s.compose.surfaces w.body.surface with
    | some x =>
      if w.writing.contains t.frameNo then
        let who : Initiator := ⟨6, 256 + h % 32⟩
        let a := imageBase x.body 0
        let r := gatedWrite who (.writeback h) none (a + t.line * x.body.pitch) (itemBytes (t.pixels.flatMap argb10)) s
        if w.body.spans then
          (gatedWrite who (.writeback h) none (a + x.body.pitch * hs.timing.vActive + t.line * 1040)
            (itemBytes (spanListItems t.frameNo t.line (h % 32) t.spans)) r.2.2).2.2
        else r.2.2
      else s
    | none => s

/-- Surfaces that a frame's composition reads remember it (R137). -/
def noteSurfaces (h frame : Nat) (useOld : Bool) (s : State) : State :=
  let used := (List.range 20).filterMap fun i =>
    (if useOld then (layerRt s h i).old else (layerRt s h i).cur).bind fun c => match c.content with
    | .image f _ => some f
    | _ => none
  used.foldl (fun s f => modSurface f (fun x => { x with lastFrame := frame, lastNs := s.time.wall }) s) s

/-- After a line: content whose last line in the frame is fetched is held no more (R144). -/
def releaseAfter (h line : Nat) (hs : HeadScene) (useOld : Bool) (s : State) : State :=
  (layersUp hs).foldl (fun s p =>
    let r := layerRt s h p.1
    if p.2.dst.y + p.2.dst.h ≤ line + 1 then
      if useOld then (if r.old.isSome then setLayer h p.1 { r with old := none } s else s)
      else if r.curHeld then setLayer h p.1 { r with curHeld := false } s
      else s
    else s) s

/-! ## Fetch (R158, R159, R386) -/

/-- Source lines of a layer's crop, counted from its top, that output line `j` needs (R149, R150). -/
def linesNeeded (l : Layer) (p j : Nat) : List Nat :=
  let sh := prescaled l.src.h p
  let rows := if sh = l.dst.h then [j]
    else
      let b := baseTap 6 (axisPos sh l.dst.h j).1
      ((List.range 6).map fun k => clampIdx (b + k) sh).eraseDups
  rows.flatMap fun r => (List.range p).filterMap fun d => if r * p + d < l.src.h then some (r * p + d) else none

/-- Those of them that the line before did not need. -/
def linesFetched (l : Layer) (p j : Nat) : List Nat :=
  if j = 0 then linesNeeded l p 0 else (linesNeeded l p j).filter fun r => !(linesNeeded l p (j - 1)).contains r

/-- Where a line of content lies in module DRAM, over the columns of a crop: addresses and bytes. -/
def lineReads (s : State) (c : Content) (r : Rect) (y : Nat) : List (Nat × Nat) :=
  match c with
  | .slot _ base slot _ =>
    match streamAt s base with
    | some x =>
      let g := pgroup x.params.sampling
      [(groupAddr x slot r.x y, ((r.x + r.w - 1) / g.1 - r.x / g.1 + 1) * g.2)]
    | none => []
  | .picture _ base au =>
    match attachAt s base with
    | some a =>
      match a.shown.find? fun q => q.au = au with
      | some q =>
        let n := sampleBytes q.bitDepth
        [(pictureLine a.body q.slot 0 y + r.x * n, r.w * n),
         (pictureLine a.body q.slot 1 (y / 2) + r.x / 2 * 2 * n, ((r.x + r.w - 1) / 2 - r.x / 2 + 1) * 2 * n)]
      | none => []
    | none => []
  | .image f i =>
    match mapGet s.compose.surfaces f with
    | some x =>
      let b := x.body
      let n := formatBytes b.format
      let luma := (imageBase b i + y * b.pitch + r.x * n, r.w * n)
      if b.format = 3 || b.format = 4 then
        [luma, (imageBase b i + b.pitch * b.height + y / 2 * b.pitch + r.x / 2 * 2 * n, ((r.x + r.w - 1) / 2 - r.x / 2 + 1) * 2 * n)]
      else [luma]
    | none => []

/-- The fetch unit of a layer: its video pipe, or its own unit, four to a head (R155, R382). -/
def fetchUnit (s : State) (h i : Nat) : Initiator :=
  if i < 16 then ⟨6, (pipeIndex s h i).getD 0⟩ else ⟨6, 128 + h % 32 * 4 + (i - 16)⟩

/-- What a layer needs for a line fetched through the memory gate: whether a read was refused or met an uncorrectable error, each of which
returns the poison flag (R159, R365, R390). -/
def fetchLine (h i line : Nat) (l : Layer) (c : Content) (s : State) : Bool × State :=
  let p := if i < 16 then (prescaleOf l).getD 1 else 1
  ((linesFetched l p (line - l.dst.y)).flatMap fun r => lineReads s c l.src (l.src.y + r)).foldl (fun a x =>
    let g := gatedRead (fetchUnit s h i) (.composition h) none x.1 x.2 a.2
    (a.1 || g.2.2.1 || g.2.2.2.1, g.2.2.2.2)) (false, s)

/-- A layer underruns (R159): it is switched off from the line to the end of the frame, with COMPOSE_UNDERRUN; cause late (0) or poison (1). -/
def underrunLayer (h i line frame : Nat) (poison useOld : Bool) (s : State) : State :=
  let r := layerRt s h i
  raise 0x0580 .head (h % 32) [it 1 i, it 6 frame, it 2 line, it 1 (flag poison)]
    (setLayer h i
      (if useOld then { r with oldUnderrun := some line, underruns := r.underruns + 1 }
       else { r with underrun := some line, underruns := r.underruns + 1 }) s)

/-- A line of the frame in composition, or of the one before, fetched for every layer that shows content there (R159). -/
def fetchLayers (h line frame : Nat) (hs : HeadScene) (useOld : Bool) (s : State) : State :=
  (layersUp hs).foldl (fun s p =>
    if p.2.dst.y ≤ line && line < p.2.dst.y + p.2.dst.h then
      match layerShows s h p.1 line useOld with
      | some c =>
        let r := fetchLine h p.1 line p.2 c.content s
        if r.1 then underrunLayer h p.1 line frame true useOld r.2 else r.2
      | none => s
    else s) s

/-- A composed line sent to the Tailstock that emits the head (R157, R209, R355). -/
def sendToken (h : Nat) (t : LineToken) (s : State) : State :=
  (emit (.token (if h < 32 then .own else .twin) t) s).modCompose fun c => { c with tokens := mapPut c.tokens h s.time.mono }

/-- Line `n` of a frame in composition is emitted at most this many lines from now (R158). -/
def linesAhead (s : State) (c : CompFrame) (n ahead : Nat) : Bool :=
  match groupRec s c.scene.timing.syncGroup with
  | some r => c.start + linesNs r (vTotal c.scene.timing) n ≤ s.time.mono + linesNs r (vTotal c.scene.timing) ahead
  | none => true

/-- The next line of a frame composed: fetched, sent, written back (R147 to R160). -/
def composeNext (h : Nat) (c : CompFrame) (useOld : Bool) (s : State) : State :=
  let s := fetchLayers h c.next c.frame c.scene useOld s
  let t := composeLine s h c.frame c.next c.scene useOld
  releaseAfter h c.next c.scene useOld (noteSurfaces h c.frame useOld (sendToken h t (writebackLine h c.scene t s)))

/-- LINE_COMPOSED (R147 to R158): the next line of the frame before, or of the frame in composition, no more than 64 lines ahead of its
emission. -/
def execLineComposed (h line : Nat) (s : State) : Host.Outcome State Fault Refusal :=
  .next
    (match mapGet s.compose.heads h with
     | none => s
     | some c =>
       let put (x : CompHead) (s : State) : State := s.modCompose fun y => { y with heads := mapPut y.heads h x }
       if !inService s || s.mem.channels.any (fun p => p.2.retraining) then s
       else
         match c.old with
         | some o =>
           if o.next = line && linesAhead s o line 64 then
             let n := { o with next := line + 1 }
             put { c with old := if linesLeft n then some n else none } (composeNext h o true s)
           else s
         | none =>
           if c.now.next = line && linesLeft c.now && linesAhead s c.now line 64 then
             put { c with now := { c.now with next := line + 1 } } (composeNext h c.now false s)
           else s)

/-- FETCH_DEADLINE (R159): four lines before its emission a line is not complete for a layer, or its pixels came
poisoned: the layer is switched off to the end of the frame. -/
def execFetchDeadline (h i line : Nat) (poison : Bool) (s : State) : Host.Outcome State Fault Refusal :=
  .next
    (match mapGet s.compose.heads h with
     | none => s
     | some c =>
       let f := c.old.getD c.now
       let r := layerRt s h i
       let shows := if c.old.isSome then r.old.isSome && r.oldUnderrun.isNone else r.cur.isSome && r.underrun.isNone
       if inService s && shows && f.next ≤ line && line < f.scene.timing.vActive && i < 20 && linesAhead s f line 4 then
         underrunLayer h i line f.frame poison c.old.isSome s
       else s)

/-! ## Writeback (R160) -/

/-- The target meets the conditions of R160 on its record. -/
def targetOk (s : State) (b : WritebackBody) (x : SurfaceBody) : Bool :=
  let t := (headScene s.scene.inForce b.head).timing
  x.format = 1 && x.imageCount = 1 && t.hActive ≤ x.width && t.vActive ≤ x.height
    && (!b.spans || x.pitch * t.vActive + 1040 * t.vActive ≤ x.imageStride)

/-- The gate context of a writeback (R386). -/
def writebackCtx (b : WritebackBody) (x : SurfaceBody) : GateCtx :=
  { ctx := .writeback b.head, who := [⟨6, 256 + b.head⟩], regions := [⟨x.base, surfaceSize x, false, true, 3, b.surface⟩] }

/-- The checks of WRITEBACK in modes 1 and 2; 0 when none fails. -/
def writebackCheck (b : WritebackBody) (s : State) : Nat :=
  if 31 < b.head || 2 < b.mode || (if b.mode = 2 then b.everyN = 0 || 255 < b.everyN else b.everyN != 0) then 0x0150
  else if b.mode = 0 then 0
  else
    match surfaceOf s b.surface with
    | none => 0x0352
    | some x =>
      let w : Writeback := { body := b, ticket := none, writing := [], count := 0, stopping := [] }
      let t := s.modCompose fun c => { c with writebacks := mapPut c.writebacks b.head w }
      if !targetOk s b x.body then 0x0150
      else if surfaceBound s b.surface then 0x0353
      else if (Config.fetchMpxs * 1000000 : Nat) < fetchLoad t then 0x0251
      else 0

/-- A writeback ends. -/
def endWriteback (h : Nat) (s : State) : State :=
  dropCtx (.writeback h) (s.modCompose fun c => { c with writebacks := mapDel c.writebacks h })

/-- The writeback of a head, ended as a new one takes its place: its commands complete. -/
def supersede (h : Nat) (s : State) : State :=
  match mapGet s.compose.writebacks h with
  | none => s
  | some w => (w.ticket.toList ++ w.stopping).foldl (fun s t => complete t 0 [] s) (endWriteback h s)

/-- WRITEBACK (R160): mode 1 completes with its frame, mode 2 once it is set up, mode 0 when the frame in progress is
written. -/
def writebackBody (b : WritebackBody) (tk : Ticket) (s : State) : State :=
  let c := writebackCheck b s
  if c != 0 then complete tk c [] s
  else if b.mode = 0 then
    match mapGet s.compose.writebacks b.head with
    | none => complete tk 0 [] s
    | some w =>
      if !w.writing.isEmpty then
        s.modCompose fun c => { c with writebacks := mapPut c.writebacks b.head { w with stopping := w.stopping ++ [tk] } }
      else
        let s := endWriteback b.head s
        complete tk 0 [] (match w.ticket with
          | some t => complete t 0 [] s
          | none => s)
  else
    let w : Writeback := { body := b, ticket := if b.mode = 1 then some tk else none, writing := [], count := 0, stopping := [] }
    let s := supersede b.head s
    let s := s.modCompose fun c => { c with writebacks := mapPut c.writebacks b.head w }
    let s := match mapGet s.compose.surfaces b.surface with
      | some x => addCtx (writebackCtx b x.body) s
      | none => s
    if b.mode = 2 then complete tk 0 [] s else s

/-- WRITEBACK (R160). -/
def execWriteback (d : Desc) (b : WritebackBody) (s : State) : Host.Outcome State Fault Refusal :=
  .next (onTake d (.writeback b) (writebackBody b) s)

/-- WRITEBACK_FRAME (R160): the frame begun first is written whole. -/
def execWritebackFrame (h : Nat) (s : State) : Host.Outcome State Fault Refusal :=
  .next
    (match mapGet s.compose.writebacks h, mapGet s.compose.heads h with
     | some w, some c =>
       match w.writing with
       | n :: more =>
         let left := c.now.frame = n && linesLeft c.now || (c.old.map fun o => decide (o.frame = n)).getD false
         if left then s
         else
           let s := if w.body.mode = 2 then raise 0x0583 .head (h % 32) [it 6 n, it 2 w.body.surface] s else s
           if w.body.mode = 1 || (!w.stopping.isEmpty && more.isEmpty) then
             (w.ticket.toList ++ w.stopping).foldl (fun s t => complete t 0 [] s) (endWriteback h s)
           else s.modCompose fun c => { c with writebacks := mapPut c.writebacks h { w with writing := more } }
       | [] => s
     | _, _ => s)

/-! ## Self-test and status (R164) -/

/-- Pipes that a self-test names: one, or every one that no enabled layer uses. -/
def testedPipes (s : State) (pipe : Nat) : List Nat :=
  if pipe = 0xFF then (List.range Config.pipes).filter fun p => (pipeLayers s).length ≤ p else [pipe]

/-- The layers whose pipes are under test are void, in the frame in composition too (R143, R164). -/
def voidTested (s : State) : State :=
  ((pipeLayers s).filter fun p => pipeTested s p.1 p.2 && mapHas s.compose.layers (layerKey p.1 p.2)).foldl (fun s p =>
    let n := ((mapGet s.compose.heads p.1).map fun c => c.now.frame).getD 0
    setLayer p.1 p.2 { layerRt s p.1 p.2 with cur := none, curHeld := false, old := none, void := true } (tellVoid p.1 p.2 n true s)) s

/-- COMPOSE_SELFTEST (R164). -/
def composeSelftestBody (pipe : Nat) (tk : Ticket) (s : State) : State :=
  if 127 < pipe && pipe != 0xFF then complete tk 0x0150 [] s
  else if s.compose.testTicket.isSome || (pipe < (pipeLayers s).length && s.module.mode != .maintenance) then
    complete tk 0x0357 [] s
  else
    let l := testedPipes s pipe
    if l.isEmpty then complete tk 0 [it 1 0] s
    else voidTested (s.modCompose fun c => { c with tests := l, testTicket := some tk })

/-- COMPOSE_SELFTEST (R164). -/
def execComposeSelftest (d : Desc) (pipe : Nat) (s : State) : Host.Outcome State Fault Refusal :=
  .next (onTake d (.composeSelftest pipe) (composeSelftestBody pipe) s)

/-- COMPOSE_SELFTEST_DONE (R164): pass (0), or fail (1) with the pipe index. -/
def execComposeSelftestDone (pipe : Nat) (failed : Option Nat) (s : State) : Host.Outcome State Fault Refusal :=
  .next
    (match s.compose.testTicket with
     | none => s
     | some tk =>
       match failed with
       | some p => complete tk 0 [it 1 1, it 1 p] (s.modCompose fun c => { c with tests := [], testTicket := none })
       | none =>
         let l := s.compose.tests.filter fun p => p != pipe
         if l.isEmpty then complete tk 0 [it 1 0] (s.modCompose fun c => { c with tests := [], testTicket := none })
         else s.modCompose fun c => { c with tests := l })

/-- The composition status record of a head. -/
def composeStatusItems (s : State) (h : Nat) : Items :=
  let frame := ((mapGet s.compose.heads h).map fun c => c.now.frame).getD 0
  let layer (i : Nat) : Items :=
    let r := layerRt s h i
    let p := ((mapGet (headScene s.scene.inForce h).layers i).bind prescaleOf).getD 1
    [it 1 ((pipeIndex s h i).getD 0xFF), it 1 (if i < 16 then p else 1), it 1 (flag r.void), it 6 frame,
     it 5 ((r.cur.bind Shown.own).getD 0), it 4 r.underruns, it 4 r.mismatches]
  (List.range 20).flatMap layer ++ [(4, (loadInForce s / 1000000).ceil)]

/-- COMPOSE_STATUS (R285). -/
def composeStatusBody (h : Nat) (tk : Ticket) (s : State) : State :=
  if 31 < h then complete tk 0x0150 [] s else completeRecord tk 512 (composeStatusItems s h) [] s

/-- COMPOSE_STATUS (R285). -/
def execComposeStatus (d : Desc) (h : Nat) (s : State) : Host.Outcome State Fault Refusal :=
  .next (onTake d (.composeStatus h) (composeStatusBody h) s)

end Sys2Proof.Machine
end

