-- ==== Sys2Proof/Machine/Scorch.lean ====
section
/-! DEFINITION. Judging a pixel and marking it: the emission instant (R180, R203), the test (R31, R32, R202), the scorch
styles, labels and age field (R41 to R50), the output conversion (R169), and what Calipers and the return path are fed
(R217, R222). -/

namespace Sys2Proof.Machine

open Sys2Proof

/-! ## Instants (R167, R180, R203) -/

/-- u at an instant of elapsed time, rounded up to µs; none while unbounded (R25, R26, R30). -/
def uUsAt (s : State) (t : Nat) : Option Nat := (uE6At s t).map fun u => ceilDiv u 1000000000

/-- The group record of a head as the Tailstock holds it. -/
def tsGroup (s : State) (h : HeadRt) : Option SyncGroup := mapGet s.ts.groupRecs h.once.timing.syncGroup

/-- Pixel bytes of a line on an egress head (R179). -/
def lineBytes (t : HeadTiming) : Nat := if t.format = 3 then t.hActive * 5 / 2 else t.hActive * 3

/-- Packets of a line (R179). -/
def linePackets (t : HeadTiming) : Nat := ceilDiv (lineBytes t) 1200

/-- The output record of an egress head. -/
def egressOut : HeadOutput → EgressOutput
  | .egress r => r
  | _ => default

/-- Bytes before the pixel data in a packet of an egress head (R180). -/
def headerBytes (s : State) (o : EgressOutput) : Nat :=
  let tagged := ((mapGet s.ts.egress o.port).map fun p => decide (p.lane.vlan != 0)).getD false
  70 + (if tagged then 4 else 0) + (if o.ipv6 then 20 else 0)

/-- t_P of a pixel, the instant at which its first bit leaves, in elapsed time rounded up to whole ns: the ages of R30 take no other rounding
from it. A frame's pixels are emitted at the nominal rate; the trim of R185 and R191 acts between frames (DEDUCED, notes/assumptions/93). -/
def pixelTime (s : State) (key : Nat) (h : HeadRt) (line x : Nat) : Nat :=
  let t := h.once.timing
  match tsGroup s h with
  | none => h.startMono
  | some r =>
    let px := hTotal t * vTotal t * r.rateNum
    if px = 0 then h.startMono
    else if key < 16 then h.startMono + ceilDiv ((line * hTotal t + x) * 1000000000 * r.rateDen) px
    else
      let off := if t.format = 3 then x / 2 * 5 else x * 3
      let n := linePackets t
      let before := headerBytes s (egressOut h.once.output) + off % 1200
      h.startMono
        + ceilDiv ((line * hTotal t * n + off / 1200 * t.hActive) * 100000000000 * r.rateDen + 8 * before * n * px) (100 * n * px)

/-- Planned departure of packet `j` of a line, in elapsed time (R180, R204). -/
def departure (s : State) (h : HeadRt) (line j : Nat) : Nat :=
  let t := h.once.timing
  match tsGroup s h with
  | none => h.startMono
  | some r =>
    let d := hTotal t * vTotal t * r.rateNum * linePackets t
    if d = 0 then h.startMono
    else h.startMono + ceilDiv ((line * hTotal t * linePackets t + j * t.hActive) * 1000000000 * r.rateDen) d

/-- Pixels in a whole packet of an egress head (R178, R179): 1,200 bytes of them. -/
def packetPixels (t : HeadTiming) : Nat := if t.format = 3 then 480 else 400

/-- The judge instant j_P of a pixel, at which its verdict bit is read (R203). -/
def judgeTime (s : State) (key : Nat) (h : HeadRt) (line x : Nat) : Nat :=
  if key < 16 then pixelTime s key h line x - 600 else departure s h line (x / packetPixels h.once.timing) - 550

/-! ## The test (R30 to R32) -/

/-- ceil(t / 1,000) − origin_us, modulo 2⁴⁰ (R30). -/
def originDiff (t origin : Nat) : Nat := (ceilDiv t 1000 + 1099511627776 - origin % 1099511627776) % 1099511627776

/-- ceil(t / 1,000) − origin_us at an instant of elapsed time, by the wall time of that instant (R30). -/
def diffAt (s : State) (t origin : Nat) : Nat := originDiff (wall64 (wallAt s t)) origin

/-- age(t) in µs; none while u is unbounded or the difference has wrapped (R30, R31). -/
def ageAt (s : State) (t origin : Nat) : Option Nat :=
  match uUsAt s t with
  | none => none
  | some u => if diffAt s t origin < 549755813888 then some (diffAt s t origin + u) else none

/-- Conditions 3 and 4 of R31 at t_P − 0.8 µs (R203). -/
def ageOk (s : State) (tP origin budgetMs : Nat) : Bool :=
  match ageAt s (tP - Config.judgeLeadNs) origin with
  | none => false
  | some a => a ≤ budgetMs * 1000

/-- The bits of a bitmap as they count: none is live in a gap (R129, R207, R225). -/
def effectiveBits (b : BitmapRt) : Bitmap := if b.gap then 0 else b.bits

/-- The bits of a bitmap as they counted at an instant of the last millisecond. A pixel judged at the very instant of a change reads the new
bits (DEDUCED, notes/assumptions/92: R206 says it of earlier and of later ones). -/
def bitsAtNs (b : BitmapRt) (t : Nat) : Bitmap := b.past.foldl (fun v p => if t < p.1 then p.2 else v) (effectiveBits b)

/-- The verdict bit of a source at an instant (R203, R206). -/
def verdictAt (b : BitmapRt) (t source : Nat) : Bool := (bitsAtNs b t).getLsbD source

/-- The entry of a window as a line reads it. One whose parity fails is taken for an entry with valid 0, since none of its fields can be
trusted (DEDUCED, notes/assumptions/92: R225 sends such a span to R202). -/
def entryRead (m : HeadMat) (e : LineErrors) (w : Nat) : Option MapEntry := if e.entries.contains w then none else mapGet m.entries w

/-- The entry of a span's window, where its source and layer are the span's (R202). -/
def spanEntry (m : HeadMat) (e : LineErrors) (p : Span) : Option MapEntry :=
  (entryRead m e p.window).filter fun e => e.sourceId = p.sourceId && e.layer = p.layer

/-- A bound span's pixel is live, emitted at `tP` and judged at `jP` (R31, R201, R202). -/
def pixelLive (s : State) (e : Option MapEntry) (b : BitmapRt) (p : Span) (tP jP : Nat) : Bool :=
  match e with
  | none => false
  | some e => !p.void && (e.internal || (verdictAt b jP p.sourceId && ageOk s tP p.originUs e.budgetMs))

/-! ## The age field and labels (R46 to R49) -/

/-- Character codes of a number in decimal. -/
def decCodes (n : Nat) : List Nat := (Nat.toDigits 10 n).map Char.toNat

/-- Two digits. -/
def twoCodes (n : Nat) : List Nat := [48 + n / 10 % 10, 48 + n % 10]

/-- "no time". -/
def noTime : List Nat := [110, 111, 32, 116, 105, 109, 101]
/-- "no data". -/
def noData : List Nat := [110, 111, 32, 100, 97, 116, 97]
/-- "?? s". -/
def unknownAge : List Nat := [63, 63, 32, 115]

/-- The forms of an age in µs, every rounding made upwards (R49). -/
def ageForm (a : Nat) : List Nat :=
  let tenths := ceilDiv a 100000
  let secs := ceilDiv a 1000000
  let mins := ceilDiv a 60000000
  if tenths < 1000 then decCodes (tenths / 10) ++ [46, 48 + tenths % 10, 32, 115]
  else if secs < 6000 then decCodes (secs / 60) ++ [109] ++ twoCodes (secs % 60) ++ [115]
  else if mins < 6000 then decCodes (mins / 60) ++ [104] ++ twoCodes (mins % 60) ++ [109]
  else [62, 57, 57, 104]

/-- The age field of a window, at the emission instant of its first label pixel (R49). -/
def ageField (s : State) (tP : Nat) (void : Bool) (origin : Nat) : List Nat :=
  match uUsAt s tP with
  | none => noTime
  | some u =>
    if void then noData
    else if 549755813888 ≤ diffAt s tP origin then unknownAge
    else ageForm (diffAt s tP origin + u)

/-- The scale of a label (R48). -/
def labelScale (r : Rect) : Nat := if 800 ≤ r.w && 200 ≤ r.h then 2 else 1

/-- A label box of `n` characters fits the rectangle (R48). -/
def boxFits (r : Rect) (n : Nat) : Bool :=
  let k := labelScale r
  n * 8 * k + 8 * k + 12 ≤ r.w && 16 * k + 8 * k + 12 ≤ r.h

/-- The label string for the first `n` characters of the text (R48). -/
def labelString (text age : List Nat) (showAge : Bool) (n : Nat) : List Nat :=
  if showAge then (if n = 0 then age else text.take n ++ 32 :: age) else text.take n

/-- The longest label string that fits, characters of the text dropped from the end (R48). -/
def fitLabel (r : Rect) (text age : List Nat) (showAge : Bool) : Nat → Option (List Nat)
  | 0 =>
    if showAge && boxFits r age.length then some age else none
  | n + 1 =>
    if boxFits r (labelString text age showAge (n + 1)).length then some (labelString text age showAge (n + 1))
    else fitLabel r text age showAge n

/-- The label string of a record in a rectangle. -/
def labelOf (l : Label) (r : Rect) (age : List Nat) : Option (List Nat) :=
  let text := l.text.take l.textLen
  fitLabel r text age l.showAge text.length

/-- A glyph bit: the ROM font, a loadable glyph, or a solid block for one never loaded (R47). -/
def glyphBit (glyphs : Map (List Byte)) (code row col : Nat) : Bool :=
  if code < 0x80 then bit (Config.romGlyphRow code row) (7 - col)
  else
    match mapGet glyphs code with
    | some g => ((g[row]?).getD 0).getLsbD (7 - col)
    | none => true

/-- What a label draws at a pixel: none outside its box, else whether a glyph bit is set there (R48). -/
def labelPixel (glyphs : Map (List Byte)) (r : Rect) (str : List Nat) (x y : Nat) : Option Bool :=
  let k := labelScale r
  let bx := r.x + 8
  let by_ := r.y + 8
  if inRect ⟨bx, by_, str.length * 8 * k + 8 * k, 16 * k + 8 * k⟩ x y then
    let tx := bx + 4 * k
    let ty := by_ + 4 * k
    if tx ≤ x && ty ≤ y && x < tx + str.length * 8 * k && y < ty + 16 * k then
      some (glyphBit glyphs ((str[(x - tx) / (8 * k)]?).getD 0) ((y - ty) / k) ((x - tx) / k % 8))
    else some false
  else none

/-! ## Styles (R41 to R45) -/

/-- A border pixel of width `n` of a judged rectangle. -/
def onBorder (r : Rect) (n x y : Nat) : Bool :=
  x - r.x < n || r.x + r.w - 1 - x < n || y - r.y < n || r.y + r.h - 1 - y < n

/-- A stripe pixel. -/
def onStripe (x y : Nat) : Bool := (x + y) % 16 < 4

/-- dim(C). -/
def dimmed (c : Rgb) : Rgb := ⟨c.r * 747 / 1024, c.g * 747 / 1024, c.b * 747 / 1024⟩

/-- Colours of a head's colour set (R43, R44). -/
def coloursOf (m : HeadMat) (k : Nat) : ColourSet := mapGetD m.colours k resetColours

/-- A scorched pixel (R41): the first element that covers it gives its value. `label` is what the label draws there. -/
def scorched (cs : ColourSet) (style : Nat) (r : Rect) (label : Option Bool) (x y : Nat) (c : Rgb) : Rgb :=
  let lab := label.map fun on => if on then cs.labelFg else cs.labelBg
  match style with
  | 0 => lab.getD (if onBorder r 4 x y || onStripe x y then cs.stripe else c)
  | 1 => lab.getD (if onStripe x y then cs.stripe else cs.plate)
  | 2 => lab.getD (if onBorder r 4 x y then cs.stripe else dimmed c)
  | _ => cs.blackout

/-- A live pixel of a concealed span (R45). -/
def concealBorder (cs : ColourSet) (r : Rect) (x y : Nat) (c : Rgb) : Rgb :=
  if onBorder r 2 x y && (x + y) % 16 < 8 then cs.conceal else c

/-! ## The full-head plate and empty lines (R50, R213) -/

/-- The stream of a side. -/
def sideOf (h : HeadRt) : Side → StreamRt
  | .own => h.own
  | .twin => h.twin

/-- The colour set of the plate: of the main section whose stream was passed last, or the own one (R50); the reset values where its parity
fails (R225). -/
def plateColours (h : HeadRt) (e : LineErrors) : ColourSet :=
  let k := h.once.tsHead.plateColourSet
  if e.colours.contains k then resetColours else coloursOf (sideOf h (h.lastPassed.getD .own)).force k

/-- A pixel of an empty line (R213). -/
def emptyPixel (cs : ColourSet) (x y : Nat) : Rgb := if onStripe x y then cs.stripe else cs.plate

/-- Active width and height of a head. -/
def activeRect (h : HeadRt) : Rect := ⟨0, 0, h.once.timing.hActive, h.once.timing.vActive⟩

/-- The instant last_rx of R214, as elapsed time. -/
def lastRxOf (h : HeadRt) : Nat := h.lastRx.getD h.enabledNs

/-- The age field of the plate at the emission instant of its label's first pixel (R49, R50). -/
def plateAge (s : State) (h : HeadRt) (tP : Nat) : List Nat :=
  if (uUsAt s tP).isNone then noTime else ageForm (ceilDiv (tP - lastRxOf h) 1000)

/-- The window number under which the plate's label stands among a head's labels. -/
def plateWindow : Nat := 128

/-- A pixel of the full-head plate (R50). -/
def platePixel (h : HeadRt) (cs : ColourSet) (age : Option (List Nat)) (x y : Nat) : Rgb :=
  let r := activeRect h
  let label := age.bind fun a => (labelOf h.once.plateLabel r a).bind fun str => labelPixel h.glyphs r str x y
  scorched cs 1 r label x y ⟨0, 0, 0⟩

/-! ## A line emitted (R201, R202, R205, R213, R222, R225) -/

/-- What emitting a line gathers: pixels and counted origins, latest first; window summaries, age fields held, pixels scorched, the first
mismatch found as window, span source and layer, entry source and layer; windows that have no label in the frame; pixels on which the judges
disagreed. -/
structure LineAcc where
  (out : List Rgb)
  (fresh : List (Option Nat))
  (windows : Map WinAcc)
  (ages : Map (List Nat))
  (scorchedPx : Nat)
  (mismatch : Option (Nat × Nat × Nat × Nat × Nat))
  (noLabel : List Nat)
  (disagreed : Nat)
deriving DecidableEq, Repr, Inhabited

/-- What a head has gathered in the frame, and of the line that it emits, so far. -/
def accOf (h : HeadRt) (n : LineNow) : LineAcc :=
  { out := n.out, fresh := n.fresh, windows := h.windows, ages := h.ages, scorchedPx := h.scorchedPx, mismatch := none,
    noLabel := h.noLabel, disagreed := 0 }

/-- A window of which nothing has been emitted. -/
def emptyWin : WinAcc :=
  { pixels := 0, scorched := 0, void := false, held := false, concealed := false, mismatch := false, ageMin := none, ageMax := none,
    undefinedAge := false }

/-- A window's summary with one more pixel (R222). -/
def addPixel (w : WinAcc) (live : Bool) (p : Span) (held mismatch : Bool) (age : Option Nat) : WinAcc :=
  { pixels := w.pixels + 1, scorched := w.scorched + flag !live, void := w.void || p.void, held := w.held || held || p.held,
    concealed := w.concealed || p.concealed, mismatch := w.mismatch || mismatch,
    ageMin := match age, w.ageMin with
      | some a, some b => some (min a b)
      | some a, none => some a
      | none, b => b,
    ageMax := match age, w.ageMax with
      | some a, some b => some (max a b)
      | some a, none => some a
      | none, b => b,
    undefinedAge := w.undefinedAge || age.isNone }

/-- A window's label record or colour set fails its parity check on this line (R225). -/
def labelDamaged (e : LineErrors) (w colourSet : Nat) : Bool := e.labels.contains w || e.colours.contains colourSet

/-- The age field of a window with one more pixel: held from the first pixel of its label box that it judges (R49). -/
def holdAge (s : State) (m : HeadMat) (e : Option MapEntry) (p : Span) (void : Bool) (tP x y : Nat) (ages : Map (List Nat)) :
    Map (List Nat) :=
  if mapHas ages p.window then ages
  else
    match e with
    | none => ages
    | some e =>
      let age := ageField s tP void p.originUs
      match labelOf (mapGetD m.labels p.window resetLabel) e.rect age with
      | none => ages
      | some str => if (labelPixel [] e.rect str x y).isSome then mapPut ages p.window age else ages

/-- The colours in which a window's pixels are rendered: the reset ones where its label record or its colour set is damaged (R225). -/
def windowColours (m : HeadMat) (n : LineErrors) (w : Nat) (e : MapEntry) : ColourSet :=
  if labelDamaged n w e.colourSet then resetColours else coloursOf m e.colourSet

/-- The value of a scorched pixel of a span (R41, R202). -/
def markPixel (h : HeadRt) (m : HeadMat) (n : LineErrors) (e : Option MapEntry) (p : Span) (a : LineAcc) (x y : Nat) (c : Rgb) : Rgb :=
  match e with
  | none => if onStripe x y then (if n.colours.contains 0 then resetColours else coloursOf m 0).stripe else c
  | some e =>
    let label := if a.noLabel.contains p.window then none else
      (mapGet a.ages p.window).bind fun g =>
        (labelOf (mapGetD m.labels p.window resetLabel) e.rect g).bind fun str => labelPixel h.glyphs e.rect str x y
    scorched (windowColours m n p.window e) e.style e.rect label x y c

/-- One pixel of a bound span judged and emitted. Where the judges disagree it is scorched, unless the span's source is internal: R32 and R40
never scorch one (DEDUCED, notes/assumptions/92). -/
def emitBound (s : State) (key : Nat) (h : HeadRt) (n : LineNow) (m : HeadMat) (b : BitmapRt) (held : Bool) (p : Span) (x : Nat) (c : Rgb)
    (a : LineAcc) : LineAcc :=
  let y := n.line
  let tP := pixelTime s key h y x
  let read := entryRead m n.errors p.window
  let e := spanEntry m n.errors p
  let void := p.void || e.isNone
  let internal := (e.map MapEntry.internal).getD false
  let split := n.errors.judges.contains x
  let live := pixelLive s e b p tP (judgeTime s key h y x) && (internal || !split)
  let damaged := (read.map fun e => labelDamaged n.errors p.window e.colourSet).getD false
  let a := { a with
    ages := holdAge s m read p void tP x y a.ages,
    noLabel := if damaged && !a.noLabel.contains p.window then p.window :: a.noLabel else a.noLabel }
  let age := if void then none else ageAt s (tP - Config.judgeLeadNs) p.originUs
  let counted := live && (e.map fun e => !e.internal && !e.staticSrc).getD false
  let value :=
    if live then
      match e with
      | some e => if p.concealed then concealBorder (windowColours m n.errors p.window e) e.rect x y c else c
      | none => c
    else markPixel h m n.errors read p a x y c
  let found := read.getD default
  { a with
    out := value :: a.out, fresh := (if counted then some p.originUs else none) :: a.fresh,
    windows := mapPut a.windows p.window (addPixel (mapGetD a.windows p.window emptyWin) live p held e.isNone age),
    scorchedPx := a.scorchedPx + flag !live,
    mismatch := if e.isNone && a.mismatch.isNone then some (p.window, p.sourceId, p.layer, found.sourceId, found.layer) else a.mismatch,
    disagreed := a.disagreed + flag split }

/-- A pixel emitted as it is. -/
def emitPlain (c : Rgb) (a : LineAcc) : LineAcc := { a with out := c :: a.out, fresh := none :: a.fresh }

/-- A scorched pixel that belongs to no window (R222). -/
def emitMarked (c : Rgb) (a : LineAcc) : LineAcc := { emitPlain c a with scorchedPx := a.scorchedPx + 1 }

/-- One pixel of a composed line, by the span that holds it. A pixel of a span flagged both void and unbound counts as unbound and is not
scorched: R32, R39 and R40 never scorch one, though condition 1 of R31 would (DESIGN CHOICE, notes/assumptions/91). -/
def emitComposed (s : State) (key : Nat) (h : HeadRt) (n : LineNow) (side : Side) (held : Bool) (x : Nat) (c : Rgb) (a : LineAcc) : LineAcc :=
  match n.spans.find? fun p => p.xStart ≤ x && x < p.xStart + p.length with
  | none => emitPlain c a
  | some p =>
    if p.unbound then { emitPlain c a with disagreed := a.disagreed + flag (n.errors.judges.contains x) }
    else
      let b := match side with
        | .own => s.ts.own
        | .twin => s.ts.twin
      emitBound s key h n (sideOf h side).force b held p x c a

/-- One pixel of the plate, whose age field is held from the first pixel of its label box (R49, R50). -/
def emitPlate (s : State) (key : Nat) (h : HeadRt) (n : LineNow) (x : Nat) (a : LineAcc) : LineAcc :=
  let damaged := labelDamaged n.errors plateWindow h.once.tsHead.plateColourSet
  let a := { a with
    ages := if x = 8 && n.line = 8 then mapPut a.ages plateWindow (plateAge s h (pixelTime s key h 8 8)) else a.ages,
    noLabel := if damaged && !a.noLabel.contains plateWindow then plateWindow :: a.noLabel else a.noLabel }
  let age := if a.noLabel.contains plateWindow then none else mapGet a.ages plateWindow
  emitMarked (platePixel h (if damaged then resetColours else plateColours h n.errors) age x n.line) a

/-- One pixel of a line, by what the line comes from (R211 to R214). -/
def emitPixel (s : State) (key : Nat) (h : HeadRt) (n : LineNow) (x : Nat) (c : Rgb) (a : LineAcc) : LineAcc :=
  match n.kind with
  | .stream side => emitComposed s key h n side false x c a
  | .held side => emitComposed s key h n side true x c a
  | .plate => emitPlate s key h n x a
  | .empty => emitMarked (emptyPixel (plateColours h n.errors) x n.line) a

/-- The pixels of a line whose emission instants have come, from column `x` on: the column reached, the pixels left, what they gathered. -/
def emitRun (s : State) (key : Nat) (h : HeadRt) (n : LineNow) : Nat → List Rgb → LineAcc → Nat × List Rgb × LineAcc
  | x, [], a => (x, [], a)
  | x, c :: t, a =>
    if pixelTime s key h n.line x ≤ s.time.mono then emitRun s key h n (x + 1) t (emitPixel s key h n x c a) else (x, c :: t, a)

/-! ## Output conversion (R169) -/

/-- A value clamped to a range. -/
def clampTo (lo hi : Nat) (v : Int) : Nat := if v < lo then lo else if hi < v then hi else v.toNat

/-- One component in format 1. -/
def conv10 (narrow : Bool) (v : Nat) : Nat := if narrow then clampTo 64 940 (64 + (v * 3508 + 2048) / 4096 : Nat) else clampTo 0 1023 v

/-- One component in formats 0 and 2. -/
def conv8 (narrow : Bool) (v : Nat) : Nat := clampTo 0 255 ((conv10 narrow v + 2) / 4 : Nat)

/-- Y of format 3. -/
def convY (c : Rgb) : Nat := clampTo 4 1019 (64 + (746 * c.r + 2509 * c.g + 253 * c.b + 2048) / 4096 : Nat)

/-- Cb of format 3 from mean components. -/
def convCb (r g b : Nat) : Nat := clampTo 4 1019 (512 + (-411 * (r : Int) - 1383 * g + 1794 * b + 2048) / 4096)

/-- Cr of format 3 from mean components. -/
def convCr (r g b : Nat) : Nat := clampTo 4 1019 (512 + (1794 * (r : Int) - 1629 * g - 165 * b + 2048) / 4096)

/-- Wire components of one pixel in formats 0 to 2, and of an unpaired one in format 3. -/
def wirePixel (format : Nat) (narrow : Bool) (c : Rgb) : Rgb :=
  if format = 3 then ⟨convY c, convCb c.r c.g c.b, convCr c.r c.g c.b⟩
  else if format = 1 then ⟨conv10 narrow c.r, conv10 narrow c.g, conv10 narrow c.b⟩
  else ⟨conv8 narrow c.r, conv8 narrow c.g, conv8 narrow c.b⟩

/-- Wire components of a pair of columns in format 3: each Y with the Cb and Cr of the pair. -/
def wirePair (c d : Rgb) : List Rgb :=
  let r := (c.r + d.r + 1) / 2
  let g := (c.g + d.g + 1) / 2
  let b := (c.b + d.b + 1) / 2
  [⟨convY c, convCb r g b, convCr r g b⟩, ⟨convY d, convCb r g b, convCr r g b⟩]

/-- Wire components of a line: R, G, B; for format 3, Y with the Cb and Cr of its pair of columns (R169). -/
def wireLine (format : Nat) (narrow : Bool) : List Rgb → List Rgb
  | [] => []
  | [c] => [wirePixel format narrow c]
  | c :: d :: t =>
    if format = 3 then wirePair c d ++ wireLine format narrow t else wirePixel format narrow c :: wireLine format narrow (d :: t)

/-! ## Calipers and the return path (R217, R219, R222) -/

/-- One wire pixel of formats 0 to 2 as bytes; an unpaired one of format 3 as its three values. -/
def calPixel (format : Nat) (c : Rgb) : List Byte :=
  if format = 3 then itemBytes [it 2 c.g, it 2 c.r, it 2 c.b]
  else if format = 1 then itemBytes [it 4 (c.r * 1048576 + c.g * 1024 + c.b)]
  else itemBytes [it 1 c.r, it 1 c.g, it 1 c.b]

/-- Wire pixels as the bytes fed to the Calipers (R217). -/
def calBytes (format : Nat) : List Rgb → List Byte
  | [] => []
  | [c] => calPixel format c
  | c :: d :: t =>
    if format = 3 then itemBytes [it 2 c.g, it 2 c.r, it 2 c.b, it 2 d.r] ++ calBytes format t
    else calPixel format c ++ calBytes format (d :: t)

/-- Bytes of a rectangle of the frame as emitted, line by line from the top (R217). -/
def rectBytes (h : HeadRt) (r : Rect) : List Byte :=
  let t := h.once.timing
  (List.range r.h).flatMap fun j =>
    match mapGet h.emitted (r.y + j) with
    | some l => calBytes t.format ((wireLine t.format t.narrowRange l.pixels).drop r.x |>.take r.w)
    | none => []

/-- p(N) of a rectangle: the latest origin, under R3, of its counted pixels (R219). -/
def freshest (h : HeadRt) (r : Rect) : Option Nat :=
  let os := (List.range r.h).flatMap fun j =>
    match mapGet h.emitted (r.y + j) with
    | some l => (l.fresh.drop r.x |>.take r.w).filterMap id
    | none => []
  os.foldl (fun m o => match m with
    | none => some o
    | some q => if 0 < modDiff 40 o q then some o else some q) none

/-- Mean of a component, rounded half up. -/
def meanOf (l : List Nat) : Nat := (2 * sumN l + l.length) / (2 * l.length)

/-- Bytes of a line of a returned frame: a multiple of 256 (R230). -/
def returnPitch (width : Nat) : Nat := alignUp (width * 2) 256

/-- A line padded to the pitch. -/
def padLine (width : Nat) (l : List Byte) : List Byte := l ++ List.replicate (returnPitch width - l.length) 0

/-- An emitted frame in P010: luma lines, then chroma lines (R222). -/
def p010Frame (h : HeadRt) : List Byte :=
  let t := h.once.timing
  let px (x y : Nat) : Option Rgb := (mapGet h.emitted y).bind fun l => l.pixels[x]?
  let luma := (List.range t.vActive).flatMap fun y => padLine t.hActive ((List.range t.hActive).flatMap fun x =>
    itemBytes [it 2 (convY ((px x y).getD ⟨0, 0, 0⟩) * 64)])
  let chroma := (List.range (ceilDiv t.vActive 2)).flatMap fun j => padLine t.hActive ((List.range (ceilDiv t.hActive 2)).flatMap fun i =>
    let l := [px (2 * i) (2 * j), px (2 * i + 1) (2 * j), px (2 * i) (2 * j + 1), px (2 * i + 1) (2 * j + 1)].filterMap id
    let r := meanOf (l.map Rgb.r)
    let g := meanOf (l.map Rgb.g)
    let b := meanOf (l.map Rgb.b)
    itemBytes [it 2 (convCb r g b * 64), it 2 (convCr r g b * 64)])
  luma ++ chroma

end Sys2Proof.Machine
end

