-- ==== Sys2Proof/Machine/Scanout.lean ====
section
/-! DEFINITION. Heads, their sinks, egress ports and frame references (R166 to R192), and how what arises in the Tailstock
reaches the main section (R226). -/

namespace Sys2Proof.Machine

open Sys2Proof

/-! ## Events of the Tailstock (R226, R227) -/

/-- The main section accepts what the Tailstock sends it: it runs, and the internal lanes are up. -/
def mainAccepts (s : State) : Bool := mainUp s && internalUp s

/-- An event of the Tailstock delivered: it takes the next sequence number of its scope now, under the wall time at which it
arose (R226). -/
def deliverTs (e : TsEvent) (s : State) : State :=
  let r : EventRec :=
    { code := e.code, scope := e.scope, scopeId := e.scopeId, position := position s, seq := nextSeq e.scope e.scopeId s,
      wallNs := e.wallNs, items := e.items, attention := e.attention }
  let s := s.modQueue fun q => { q with seqs := mapPut q.seqs (scopeKey e.scope e.scopeId) r.seq }
  deliver r (logEvent e.code e.scope e.scopeId e.items s)

/-- An event arises in the Tailstock: it goes to the main section, or waits, at most 1,024 of them (R226). -/
def tsRaise (code : Nat) (k : ScopeKind) (id : Nat) (items : Items) (attention : Bool) (s : State) : State :=
  let e : TsEvent := { code := code, scope := k, scopeId := id, items := items, wallNs := s.time.wall, attention := attention }
  if mainAccepts s && s.ts.events.isEmpty then deliverTs e s
  else if s.ts.events.length < Config.tsQueue then s.modTs fun t => { t with events := t.events ++ [e] }
  else s.modTs fun t => { t with eventsLost := t.eventsLost + 1 }

/-- An event of a head. -/
def tsHeadEvent (code key : Nat) (items : Items) (s : State) : State := tsRaise code .head key items false s

/-- An event of the Tailstock raised at most once a second for a key, with the count since the last (R225, R227). -/
def tsLimited (key n code head : Nat) (mk : Nat → Items) (attention : Bool) (s : State) : State :=
  let fire (c : Nat) (s : State) : State :=
    tsRaise code .head head (mk c) attention (s.modTs fun t => { t with limiters := mapPut t.limiters key (s.time.mono, 0) })
  match mapGet s.ts.limiters key with
  | none => fire n s
  | some (t, c) =>
    if s.time.mono < t + second then s.modTs fun x => { x with limiters := mapPut x.limiters key (t, c + n) }
    else fire (c + n) s

/-- TAILSTOCK_EVENT_DELIVERY (R226): in order, then the count of those discarded. -/
def execTailstockEventDelivery (s : State) : Host.Outcome State Fault Refusal :=
  .next
    (if mainAccepts s then
      let lost := s.ts.eventsLost
      let l := s.ts.events
      let s := s.modTs fun t => { t with events := [], eventsLost := 0 }
      let s := l.foldl (fun s e => deliverTs e s) s
      if lost = 0 then s else tsRaise 0x078E .port 27 [it 4 lost] false s
    else s)

/-! ## Heads and their states (R170) -/

/-- A head of the Tailstock. -/
def headRt (s : State) (key : Nat) : HeadRt := mapGetD s.ts.heads key HeadRt.init

/-- A head written. -/
def putHead (key : Nat) (h : HeadRt) (s : State) : State := s.modTs fun t => { t with heads := mapPut t.heads key h }

/-- The egress port of a head is up. -/
def egressUp (s : State) (h : HeadRt) : Bool :=
  ((mapGet s.ts.egress (egressOut h.once.output).port).map fun p => p.mode == 1 && p.lane.linkUp).getD false

/-- The first state of R170, in its order, whose condition holds; an enabled head that is STOPPED stays so (R172). -/
def headStateOf (s : State) (key : Nat) (h : HeadRt) : Nat :=
  if s.module.mode = .idleLink then 8
  else if h.once.timing.enable != 1 then 0
  else if h.hstate = 8 then 8
  else if key < 16 then
    if !h.hpd then 1 else if h.linkFail then 7 else if h.training then 2 else if h.sinkD3 then 6 else h.supply
  else if !egressUp s h then 1
  else h.supply

/-- A head enters a state; a change raises HEAD_STATE with the frame in progress (R170). -/
def enterHead (key new : Nat) (s : State) : State :=
  let h := headRt s key
  if new = h.hstate then s
  else tsHeadEvent 0x0680 key [it 1 h.hstate, it 1 new, it 6 (h.frame.getD 0)] (putHead key { h with hstate := new } s)

/-- A head's state settled (R170). -/
def settleHead (key : Nat) (s : State) : State := enterHead key (headStateOf s key (headRt s key)) s

/-- A head that is STOPPED leaves that state: its main section delivers lines again since the module left IDLE_LINK (R172). -/
def leavesStop (h : HeadRt) : Bool := h.hstate = 8 && h.own.lineNs.isSome

/-- A head's state settled at its frame start, where one that is STOPPED may leave that state (R172). -/
def settleAtStart (key : Nat) (s : State) : State :=
  let h := headRt s key
  enterHead key (headStateOf s key (if leavesStop h then { h with hstate := 0 } else h)) s

/-- Every head settled, as at a change of module state. -/
def settleHeads (s : State) : State := s.ts.heads.foldl (fun s p => settleHead p.1 s) s

/-! ## Link training (R173, R174, R177, R187) -/

/-- Lane rates in Mb/s: RBR, HBR, HBR2, HBR3. -/
def laneRate : Nat → Nat
  | 0 => 1620 | 1 => 2700 | 2 => 5400 | _ => 8100

/-- A combination of lanes and rate carries a stream of `px` pixels in `den` seconds (R173): 0.8 × 0.99 of the line rate. -/
def linkCarries (format hv num den lanes rate : Nat) : Bool :=
  hv * num * (if format = 0 then 24 else 30) * 1000 ≤ lanes * laneRate rate * 1000000 * 792 * den

/-- A combination carries a head's stream under a timing record and its group. -/
def carries (t : HeadTiming) (r : Option SyncGroup) (lanes rate : Nat) : Bool :=
  match r with
  | some r => linkCarries t.format (hTotal t * vTotal t) r.rateNum r.rateDen lanes rate
  | none => true

/-- The output record of a DisplayPort head. -/
def dpOut : HeadOutput → DpOutput
  | .dp r => r
  | _ => default

/-- Combinations of an attempt, in the order of R173. -/
def trainingOrder (s : State) (h : HeadRt) (sink : SinkInfo) : List (Nat × Nat) :=
  let o := dpOut h.once.output
  let lanes := min o.maxLanes sink.maxLanes
  let rate := min o.maxLinkRate sink.maxLinkRate
  let all := ([4, 2, 1].filter fun l => l ≤ lanes).flatMap fun l => ((List.range (rate + 1)).reverse.map fun r => (l, r))
  match all with
  | [] => []
  | top :: t => top :: t.filter fun p => carries h.once.timing (tsGroup s h) p.1 p.2

/-- A training attempt begins (R173); adaptive sync sets MSA_TIMING_PAR_IGNORE_EN (R177). -/
def startTraining (key : Nat) (s : State) : State :=
  let h := headRt s key
  match h.sink with
  | none => s
  | some k =>
    let l := trainingOrder s h k
    if l.isEmpty then putHead key { h with trained := none, training := false, linkFail := true, failNs := s.time.mono, emitting := false } s
    else
      let o := dpOut h.once.output
      emit (.dp key "TRAIN" [((l.headD (0, 0)).1 : Int), (l.headD (0, 0)).2, flag o.adaptiveSync])
        (putHead key { h with trained := none, combos := l, attempts := 1, training := true, linkFail := false, emitting := false } s)

/-- A training attempt begins, and the head's state follows (R170, R173). -/
def train (key : Nat) (s : State) : State := settleHead key (startTraining key s)

/-- The sink's range covers the group's rates, in mHz (R177). -/
def rangeCovers (r : SyncGroup) (range : Option (Nat × Nat)) : Bool :=
  match range with
  | none => false
  | some (lo, hi) => lo * r.rateDen ≤ (if r.minRateMhz = 0 then r.rateNum * 1000 else r.minRateMhz * r.rateDen) && r.rateNum * 1000 ≤ hi * r.rateDen

/-- ADAPTIVE_SYNC_RANGE where the sink's range does not cover the group (R177). -/
def checkRange (key : Nat) (s : State) : State :=
  let h := headRt s key
  match tsGroup s h with
  | none => s
  | some r =>
    let range := h.sink.bind SinkInfo.range
    if (dpOut h.once.output).adaptiveSync && !rangeCovers r range then
      let nominal := r.rateNum * 1000 / r.rateDen
      tsHeadEvent 0x0684 key
        [it 4 ((range.map Prod.fst).getD 0), it 4 ((range.map Prod.snd).getD 0), it 4 (if r.minRateMhz = 0 then nominal else r.minRateMhz),
         it 4 nominal] s
    else s

/-- TRAINING_ATTEMPT_END (R173, R174): success waits for the next frame start; a failure tries the next combination. -/
def execTrainingAttemptEnd (key : Nat) (ok : Bool) (s : State) : Host.Outcome State Fault Refusal :=
  .next
    (let h := headRt s key
     if s.ts.powered && h.training && h.trained.isNone then
       match h.combos with
       | [] => s
       | c :: rest =>
         if ok then
           let s := putHead key { h with trained := some c, combos := [], trainings := h.trainings + 1 } s
           checkRange key (tsHeadEvent 0x0682 key [it 1 c.2, it 1 c.1, it 4 h.attempts] s)
         else
           match rest with
           | [] => settleHead key (putHead key { h with combos := [], training := false, linkFail := true, failNs := s.time.mono } s)
           | n :: _ =>
             emit (.dp key "TRAIN" [(n.1 : Int), n.2, flag (dpOut h.once.output).adaptiveSync])
               (putHead key { h with combos := rest, attempts := h.attempts + 1 } s)
     else s)

/-- The head is enabled and its Tailstock serves it. -/
def headServed (s : State) (key : Nat) : Bool := s.ts.powered && (headRt s key).once.timing.enable = 1 && s.module.mode != .idleLink

/-- LINK_RETRY (R173): 2 s after an attempt failed. -/
def execLinkRetry (key : Nat) (s : State) : Host.Outcome State Fault Refusal :=
  .next
    (let h := headRt s key
     if headServed s key && h.linkFail && h.hpd && h.failNs + 2 * second ≤ s.time.mono then train key s else s)

/-- The capabilities and EDID of a sink read, with SINK_CHANGE (R174). -/
def readSink (key : Nat) (sink : SinkInfo) (s : State) : State :=
  let crc := (crc32c sink.edid).toNat
  tsHeadEvent 0x0681 key [it 1 1, it 4 crc]
    (putHead key { headRt s key with sink := some sink, sinkUnread := none, edidCrc := crc, sinkD3 := false, linkFail := false } s)

/-- HPD_CONNECT (R174): the capabilities and EDID are read, SINK_CHANGE raised, and the link trained. In IDLE_LINK, where AUX is idle (R170),
the sink is read as the head leaves STOPPED (DEDUCED, notes/assumptions/96). -/
def execHpdConnect (key : Nat) (sink : SinkInfo) (s : State) : Host.Outcome State Fault Refusal :=
  .next
    (let h := headRt s key
     if key < 16 && s.ts.powered && !h.hpd then
       if s.module.mode = .idleLink then putHead key { h with hpd := true, sinkUnread := some sink } s
       else
         let s := readSink key sink (putHead key { h with hpd := true } s)
         if headServed s key then train key s else settleHead key s
     else s)

/-- HPD_DISCONNECT (R170, R174, R175): SINK_CHANGE where the head enters NO_SINK. -/
def execHpdDisconnect (key : Nat) (s : State) : Host.Outcome State Fault Refusal :=
  .next
    (let h := headRt s key
     if key < 16 && s.ts.powered && h.hpd then
       let s := putHead key
         { h with
           hpd := false, sink := none, sinkUnread := none, edidCrc := 0, trained := none, combos := [], training := false, linkFail := false,
           sinkD3 := false, emitting := false } s
       let s := if h.hstate = 0 || h.hstate = 8 then s else tsHeadEvent 0x0681 key [it 1 0, it 4 h.edidCrc] s
       settleHead key s
     else s)

/-- IRQ_HPD (R173, R174): a lane that lost lock retrains; a head in LINK_FAIL retries. -/
def execIrqHpd (key : Nat) (lost : Bool) (status : List Byte) (s : State) : Host.Outcome State Fault Refusal :=
  .next
    (let h := headRt s key
     if key < 16 && h.hpd && headServed s key then
       if h.linkFail then train key s
       else if lost && h.trained.isSome && !h.sinkD3 then
         let s := putHead key { h with losses := h.losses + 1 } s
         train key (tsHeadEvent 0x0683 key (status.map fun b => it 1 b.toNat) s)
       else s
     else s)

/-- At a frame start: a sink that connected while AUX was idle is read as the head leaves STOPPED; a link not trained, or one that does not
carry the new stream, trains (R172, R174, R187). -/
def trainIfNeeded (key : Nat) (s : State) : State :=
  let s := match (headRt s key).sinkUnread with
    | some k => if leavesStop (headRt s key) then readSink key k s else s
    | none => s
  let h := headRt s key
  if key < 16 && h.hpd && h.once.timing.enable = 1 && (h.hstate != 8 || leavesStop h) && !h.training && !h.linkFail && !h.sinkD3 then
    match h.trained with
    | none => startTraining key s
    | some (l, r) => if carries h.once.timing (tsGroup s h) l r then s else startTraining key s
  else s

/-! ## Egress ports (R52, R178, R192) -/

/-- EGRESS_LINK (R170, R192). -/
def execEgressLink (port : Nat) (up : Bool) (s : State) : Host.Outcome State Fault Refusal :=
  .next
    (if port ≤ 1 && s.ts.powered then
      let p := mapGetD s.ts.egress port EgressPort.init
      let s := s.modTs fun t => { t with egress := mapPut t.egress port { p with lane := { p.lane with linkUp := up } } }
      settleHeads (tsRaise 0x0689 .port (8 + port) [it 1 port, it 1 (flag up)] false s)
    else s)

/-- A head of the scene in force names the egress port (R178). -/
def egressNamed (s : State) (port : Nat) : Bool :=
  (List.range' 16 16).any fun h => headOn s.scene.inForce h && match (headScene s.scene.inForce h).output with
    | .egress r => r.port = port
    | _ => false

/-- The checks of EGRESS_PORT_CONFIGURE; 0 when none fails (R178). -/
def egressConfigureCheck (b : PortBody) (s : State) : Nat :=
  let p := mapGetD s.ts.egress b.port EgressPort.init
  if !portFieldsOk b 1 || b.lane != 0 || 1 < b.mode then 0x0168
  else if egressNamed s b.port && (b.mode != p.mode || laneChanges b p.lane) then 0x0362
  else 0

/-- EGRESS_PORT_CONFIGURE (R178). -/
def egressPortConfigureBody (b : PortBody) (tk : Ticket) (s : State) : State :=
  let c := egressConfigureCheck b s
  if c != 0 then complete tk c [] s
  else
    let p := mapGetD s.ts.egress b.port EgressPort.init
    let s := s.modTs fun t => { t with egress := mapPut t.egress b.port { mode := b.mode, lane := laneOf b p.lane } }
    complete tk 0 [] (settleHeads s)

/-- EGRESS_PORT_CONFIGURE (R178). -/
def execEgressPortConfigure (d : Desc) (b : PortBody) (s : State) : Host.Outcome State Fault Refusal :=
  .next (onTake d (.egressPortConfigure b) (egressPortConfigureBody b) s)

/-- The interface at a port and lane that answers requests: an ingest lane while the main section runs, an egress port (8, 9). -/
def answeringLane (s : State) (port lane : Nat) : Option Lane :=
  if port < 6 then (if mainUp s then ingestLane s port lane else none)
  else if (port = 8 || port = 9) && lane = 0 && s.ts.powered then
    ((mapGet s.ts.egress (port - 8)).filter fun p => p.mode = 1).map EgressPort.lane
  else none

/-- The name of an answer: ARP (0), neighbour discovery (1), ICMP echo of IPv4 (2) and of IPv6 (3). -/
def answerName : Nat → String
  | 0 => "ARP_REPLY" | 1 => "NEIGHBOUR_ADVERT" | _ => "ECHO_REPLY"

/-- The IPv6 link-local address of a MAC address. PRESUMED: its interface identifier is the modified EUI-64 of the address. -/
def linkLocal (mac : Nat) : Nat :=
  0xFE80 * 2 ^ 112 + ((mac / 16777216) ^^^ 0x020000) * 2 ^ 40 + 0xFFFE * 16777216 + mac % 16777216

/-- NEIGHBOUR_REQUEST_RX (R52, R178, R456): answered on the interface's own addresses; the service port has its own. -/
def execNeighbourRequestRx (port lane kind address : Nat) (s : State) : Host.Outcome State Fault Refusal :=
  .next
    (let v6 := kind = 1 || kind = 3
     let own : Bool :=
       if port = 17 then s.power.managementUp && (if v6 then address = linkLocal (Config.macBase + 26) else address = 0xA9FE2040)
       else match answeringLane s port lane with
         | some l => if v6 then l.ipv6En && l.ipv6 = address else l.ipv4En && l.ipv4 = address
         | none => false
     if own && kind ≤ 3 then emit (.packet port lane (answerName kind) [(address : Int)]) s else s)

/-! ## Frame references (R189, R191) -/

/-- A period lies within ±1,000 ppm of the nominal one. -/
def periodOk (r : SyncGroup) (p : Nat) : Bool :=
  let a : Int := (p * r.rateNum : Nat) - (1000000000 * r.rateDen : Nat)
  a.natAbs * 1000 ≤ 1000000000 * r.rateDen

/-- An edge lies within 10 µs of the one that the edge before it predicts. -/
def edgeOk (r : SyncGroup) (p : Nat) : Bool :=
  let a : Int := (p * r.rateNum : Nat) - (1000000000 * r.rateDen : Nat)
  a.natAbs ≤ 10000 * r.rateNum

/-- A head of the Tailstock shows a group. -/
def showsGroup (g : Nat) (h : HeadRt) : Bool := h.once.timing.enable = 1 && h.once.timing.syncGroup = g

/-- Some head still shows a group. -/
def groupShown (s : State) (g : Nat) : Bool := s.ts.heads.any fun p => showsGroup g p.2

/-- The lowest-numbered head of the Tailstock in a group, whose scope the group's events carry (R192). -/
def tsGroupScope (s : State) (g : Nat) : Nat := ((s.ts.heads.find? fun p => showsGroup g p.2).map Prod.fst).getD 0

/-- SYNC_REF_STATE, with the head scope of the group's lowest head (R191, R192). -/
def refState (g : Nat) (r : SyncGroup) (locked : Bool) (period : Nat) (s : State) : State :=
  tsHeadEvent 0x0686 (tsGroupScope s g) [it 2 g, it 1 (r.frameRef % 4), it 1 (flag locked), it 8 period] s

/-- An accepted edge at a group (R189, R191), its instant taken to the 10 ns at or before it. -/
def groupEdge (g : Nat) (r : SyncGroup) (s : State) : State :=
  let x := groupRt s g
  let now := s.time.mono / 10 * 10
  if r.mode = 3 then setGroup g { x with paceNs := x.paceNs.orElse fun _ => some now } s
  else
    match x.lastEdge with
    | none => setGroup g { x with lastEdge := some now, edges := 0 } s
    | some e =>
      let p := now - e
      let n := if periodOk r p then x.edges + 1 else 0
      let y := { x with lastEdge := some now, lastPeriod := p, edges := n }
      if x.locked && !edgeOk r p then refState g r false p (setGroup g { y with locked := false, edges := 0 } s)
      else if !x.locked && 8 ≤ n then refState g r true p (setGroup g { y with locked := true, rephaseDue := true } s)
      else setGroup g y s

/-- FRAME_REF_EDGE (R191): a pulse shorter than 1 µs is ignored. -/
def execFrameRefEdge (input : Nat) (rising : Bool) (pulseNs : Nat) (s : State) : Host.Outcome State Fault Refusal :=
  .next
    (if s.ts.powered && 1000 ≤ pulseNs then
      s.ts.groupRecs.foldl (fun s p =>
        let r := p.2
        if (r.mode = 2 || r.mode = 3) && r.frameRef % 4 = input && bit r.frameRef 2 = rising && groupShown s p.1 then groupEdge p.1 r s else s) s
    else s)

/-- REF_UNLOCK_TIMEOUT (R191): three nominal periods without an edge. -/
def execRefUnlockTimeout (g : Nat) (s : State) : Host.Outcome State Fault Refusal :=
  .next
    (match mapGet s.ts.groupRecs g with
     | none => s
     | some r =>
       let x := groupRt s g
       match x.lastEdge with
       | none => s
       | some e =>
         if r.mode = 2 && x.locked && 3 * 1000000000 * r.rateDen ≤ (s.time.mono - e) * r.rateNum then
           refState g r false x.lastPeriod (setGroup g { x with locked := false, edges := 0, lastEdge := none } s)
         else s)

/-! ## Commands (chapter "Heads, sync groups and scan-out") -/

/-- The status record of a head. -/
def headStatusItems (s : State) (key : Nat) : Items :=
  let h := headRt s key
  let g := groupRt s h.once.timing.syncGroup
  let t := h.trained.getD (0, 0)
  let r := ((h.sink.bind SinkInfo.range).getD (0, 0))
  [it 1 h.hstate, it 1 t.2, it 1 t.1, it 4 r.1, it 4 r.2, it 6 (h.frame.getD 0), it 8 h.startNs, it 1 (flag g.locked), it 8 h.trainings,
   it 8 h.losses, it 8 h.rephases, it 8 g.timeouts]

/-- HEAD_STATUS (R285). -/
def headStatusBody (key : Nat) (tk : Ticket) (s : State) : State :=
  if 31 < key then complete tk 0x0168 [] s else completeRecord tk 256 (headStatusItems s key) [] s

/-- HEAD_STATUS (R285). -/
def execHeadStatus (d : Desc) (key : Nat) (s : State) : Host.Outcome State Fault Refusal :=
  .next (onTake d (.headStatus key) (headStatusBody key) s)

/-- The head of a sink command: its status when it cannot take one, else 0. -/
def sinkCheck (s : State) (key : Nat) : Nat :=
  if 31 < key then 0x0168
  else if 16 ≤ key then 0x0363
  else if !s.ts.powered || (headRt s key).hstate = 1 || (headRt s key).hstate = 0 || (headRt s key).hstate = 8 then 0x0360
  else 0

/-- HEAD_SINK_READ (R174): 256 bytes of DPCD, then 16 EDID blocks. -/
def headSinkReadBody (key : Nat) (tk : Ticket) (s : State) : State :=
  let c := sinkCheck s key
  if c != 0 then complete tk c [] s
  else
    match (headRt s key).sink with
    | none => complete tk 0x0360 [] s
    | some k =>
      if !tk.dmaOk then complete tk 0x0500 [] s
      else
        let pad (n : Nat) (l : List Byte) : List Byte := (l ++ List.replicate n 0).take n
        complete tk 0 [] (hostOut tk 0 (pad 256 k.dpcd ++ pad 2048 k.edid) s)

/-- HEAD_SINK_READ (R174). -/
def execHeadSinkRead (d : Desc) (key : Nat) (s : State) : Host.Outcome State Fault Refusal :=
  .next (onTake d (.headSinkRead key) (headSinkReadBody key) s)

/-- HEAD_SINK_POWER (R175): D3 turns the main link off; D0 trains. -/
def headSinkPowerBody (key power : Nat) (tk : Ticket) (s : State) : State :=
  if power != 0 && power != 3 then complete tk 0x0168 [] s
  else
    let c := sinkCheck s key
    if c != 0 then complete tk c [] s
    else
      let h := headRt s key
      if power = 3 then
        let s := emit (.dp key "SET_POWER" [2]) (putHead key
          { h with sinkD3 := true, trained := none, combos := [], training := false, linkFail := false, emitting := false } s)
        complete tk 0 [] (settleHead key s)
      else
        let s := emit (.dp key "SET_POWER" [1]) (putHead key { h with sinkD3 := false } s)
        complete tk 0 [] (train key s)

/-- HEAD_SINK_POWER (R175). -/
def execHeadSinkPower (d : Desc) (key power : Nat) (s : State) : Host.Outcome State Fault Refusal :=
  .next (onTake d (.headSinkPower key power) (headSinkPowerBody key power) s)

/-- An address that a native AUX write may not touch (R176). -/
def auxProtected (a : Nat) : Bool := (0x100 ≤ a && a ≤ 0x1FF) || a = 0x600

/-- A transfer of `len` bytes touches a protected address. -/
def auxTouches (a len : Nat) : Bool := (List.range len).any fun i => auxProtected (a + i)

/-- HEAD_AUX (R176). -/
def headAuxBody (b : AuxBody) (tk : Ticket) (s : State) : State :=
  if 1 < b.write || b.len = 0 || 16 < b.len || 0xFFFFF < b.addr then complete tk 0x0168 [] s
  else
    let c := sinkCheck s b.head
    if c = 0x0168 || c = 0x0363 then complete tk c [] s
    else if b.write = 1 && auxTouches b.addr b.len then complete tk 0x0361 [] s
    else if c != 0 then complete tk c [] s
    else if !b.acked then complete tk 0x0560 [] s
    else if b.write = 1 then
      complete tk 0 [] (emit (.dp b.head "AUX_WRITE" ((b.addr : Int) :: (b.data.take b.len).map fun x => (x.toNat : Int))) s)
    else if !tk.dmaOk then complete tk 0x0500 [] s
    else complete tk 0 [] (hostOut tk 0 (b.readData.take b.len) (emit (.dp b.head "AUX_READ" [(b.addr : Int), b.len]) s))

/-- HEAD_AUX (R176). -/
def execHeadAux (d : Desc) (b : AuxBody) (s : State) : Host.Outcome State Fault Refusal :=
  .next (onTake d (.headAux b) (headAuxBody b) s)

end Sys2Proof.Machine
end

