-- ==== Sys2Proof/Machine/Recording.lean ====
section
/-! DEFINITION. The recording encoder (R228 to R248): sessions, intake of returned frames, rate control, the integrity SEI, the
host ring, statistics. What the cited video standard makes of the pixels is not part of the manual: the bytes of a coded row and the
reconstruction are free values. -/

namespace Sys2Proof.Machine

open Sys2Proof

/-! ## Sizes and loads (R228 to R231) -/

/-- CTU rows and columns of a picture. -/
def ctuRows (h : Nat) : Nat := ceilDiv h 32
def ctuCols (w : Nat) : Nat := ceilDiv w 32

/-- k: the skip-row bound (R228). -/
def skipBound (w : Nat) : Nat := 24 + ceilDiv (ctuCols w) 4

/-- B_pic of R237. -/
def picBudget (capKbps n num den : Nat) : Nat := if num = 0 then 0 else capKbps * 1000 * n * den / (8 * num)

/-- Rounded up to a multiple of 4,096. -/
def page (n : Nat) : Nat := alignUp n 4096

/-- Bytes of an input slot (R230). -/
def inputBytes (w h : Nat) : Nat := 4096 + returnPitch w * h * 3 / 2

/-- Bytes of a statistics record (R230, R244). -/
def statBytes (w h : Nat) : Nat := 64 + 4 * ctuRows h + 8 * ctuRows h * ctuCols w

/-- The minimum work region (R230). -/
def workMinimum (w h profile : Nat) (stats : Bool) : Nat :=
  let store := alignUp (32 * ctuCols w * (if profile = 2 then 2 else 1)) 256 * (32 * ctuRows h) * 3 / 2
  3 * page (inputBytes w h) + 2 * page store + page 2097152 + (if stats then 4 * page (statBytes w h) else 0)

/-- A session. -/
def sessionOf (s : State) (key : Nat) : Option Session := mapGet s.record.sessions key

/-- A session changed. -/
def modSession (key : Nat) (f : Session → Session) (s : State) : State :=
  s.modRecord fun r => { r with sessions := mapUpd r.sessions key f }

/-- Encode load of all sessions. -/
def encodeLoad (s : State) : Rat := (mapVals s.record.sessions).foldl (fun t x => t + sessionLoad x) 0

/-- The return load: the heads with return enabled (R223). -/
def returnLoad (s : State) : Rat :=
  ((mapVals s.record.sessions).filter fun x => x.stopping.isNone && !x.ended).foldl (fun t x => t + sessionLoad x) 0

/-- The fields of the record-start descriptor in their ranges (R228). -/
def recordFieldsOk (b : RecordBody) : Bool :=
  b.head ≤ 31 && 1 ≤ b.divisor && b.divisor ≤ 255 && (b.profile = 1 || b.profile = 2) && b.qpTarget ≤ 51 && b.qpTarget ≤ b.qpMax
    && b.qpMax ≤ 51 && 1 ≤ b.idrInterval && b.idrInterval ≤ 600 && 1000 ≤ b.capKbps && b.capKbps ≤ 400000 && b.ringSize % 4096 = 0
    && 1048576 ≤ b.ringSize && b.ringSize ≤ 1073741824 && b.ringAddr % 4096 = 0 && b.progressAddr % 64 = 0 && b.workBase % 4096 = 0
    && b.workSize % 4096 = 0 && inDram b.workBase b.workSize

/-- The session that a RECORD_START would make; the pipeline of the lower load, ENC0 on a tie (R231). -/
def newSession (b : RecordBody) (s : State) : Session :=
  let t := (headScene s.scene.inForce b.head).timing
  let r := (groupRec s t.syncGroup).getD default
  { body := b, width := t.hActive, height := t.vActive, rateNum := r.rateNum, rateDen := r.rateDen,
    pipe := if encPipeLoad s 0 ≤ encPipeLoad s 1 then 0 else 1, input := [], lastIdr := 0, sinceIdr := 0, forceIdr := false, coded := 0,
    lastCoded := 0, missed := false, wr := 0, rd := 0, ausWritten := 0, ausDropped := 0, stats := [], stopping := none, ended := false }

/-- The checks of R229 in their order; 0 when none fails. -/
def recordCheck (b : RecordBody) (s : State) : Nat :=
  if !recordFieldsOk b then 0x0180
  else
    let x := newSession b s
    let w := x.width
    let h := x.height
    if headOn s.scene.inForce b.head && picBudget b.capKbps b.divisor x.rateNum x.rateDen < 16 * ctuRows h * skipBound w then 0x0180
    else if !headOn s.scene.inForce b.head || w % 2 != 0 || h % 2 != 0 || 4096 < w || 2160 < h then 0x0380
    else if mapHas s.record.sessions b.head then 0x0381
    else if b.workSize < workMinimum w h b.profile b.statsEn then 0x0280
    else if dramBusy s b.workBase b.workSize then 0x0382
    else if (Config.returnPxs : Rat) < returnLoad s + sessionLoad x then 0x0270
    else if (Config.encodePipePxs : Rat) < encPipeLoad s x.pipe + sessionLoad x
        || (Config.encodeAllPxs : Rat) < encodeLoad s + sessionLoad x then 0x0281
    else 0

/-- The gate context of a session: its work region, for the return-path writer and its encode pipeline (R230, R386). -/
def recordCtx (b : RecordBody) (pipe : Nat) : GateCtx :=
  { ctx := .record b.head b.workBase, who := [⟨5, pipe⟩, ⟨5, 2⟩], regions := [⟨b.workBase, b.workSize, true, true, 4, b.head⟩] }

/-- The divisor of a head's return path set in the Tailstock (R222, R228). -/
def setReturn (key n : Nat) (s : State) : State := putHead key { headRt s key with returnDiv := n } s

/-- RECORD_START (R228 to R231). -/
def recordStartBody (b : RecordBody) (tk : Ticket) (s : State) : State :=
  let c := recordCheck b s
  if c != 0 then complete tk c [] s
  else
    let x := newSession b s
    let s := s.modRecord fun r => { r with sessions := mapPut r.sessions b.head x }
    complete tk 0 [] (setReturn b.head b.divisor (addCtx (recordCtx b x.pipe) s))

/-- RECORD_START (R228). -/
def execRecordStart (d : Desc) (b : RecordBody) (s : State) : Host.Outcome State Fault Refusal :=
  .next (onTake d (.recordStart b) (recordStartBody b) s)

/-! ## Intake (R239, R242, R243) -/

/-- Step 1 of the shedding ladder is in force. -/
def recordShed (s : State) : Bool := 1 ≤ s.mgmt.step

/-- n_eff of a session (R242). -/
def nEff (s : State) (x : Session) : Nat := if s.record.shed then 4 * x.body.divisor else x.body.divisor

/-- The ladder enters or leaves step 1: a change of n_eff raises RECORD_RATE for each session (R242). -/
def recordStep (s : State) : State :=
  if recordShed s = s.record.shed then s
  else
    let s := s.modRecord fun r => { r with shed := recordShed s }
    s.record.sessions.foldl (fun s p => raise 0x0882 .head p.1 [it 4 p.2.body.divisor, it 4 (nEff s p.2)] s) s

/-- Header of a returned frame in its layout (R222). -/
def returnHeaderItems (h : ReturnHeader) : Items :=
  [it 6 h.frameNo, it 1 h.head, it 1 h.state, it 8 h.frameStartNs, it 2 h.claim, it 1 h.composedBy, it 1 h.windows.length,
   it 2 h.linesReplayed, it 2 h.width, it 2 h.height, it 2 (flag h.plate + flag h.uUnbounded * 2 + flag h.calUnreliable * 4), it 4 h.uUs,
   it 4 h.scorchedPx, it 28 0]

/-- A window summary in its layout (R222). -/
def windowItems (w : WindowSummary) : Items :=
  [it 1 w.window,
   it 1 (flag w.scorchedAny + flag w.scorchedAll * 2 + flag w.voidAny * 4 + flag w.heldAny * 8 + flag w.concealedAny * 16
     + flag w.mismatchAny * 32), it 2 w.sourceId, it 4 w.scorchedPx, it 4 w.ageMinUs, it 4 w.ageMaxUs]

/-- The first input slot free of a session (R230, R239). -/
def freeInput (x : Session) : Option Nat := (List.range 3).find? fun k => !(x.input.any fun p => p.slot = k)

/-- Address of an input slot (R230). -/
def inputAddr (x : Session) (slot : Nat) : Nat := x.body.workBase + slot * page (inputBytes x.width x.height)

/-- A returned frame written whole to an input slot of the work region, through the gates (R222, R230): whether any part was refused. -/
def writeInput (x : Session) (slot : Nat) (h : ReturnHeader) (px : List Byte) (s : State) : Bool × State :=
  let c : Context := .record x.body.head x.body.workBase
  let a := gatedWrite ⟨5, 2⟩ c none (inputAddr x slot) (itemBytes (returnHeaderItems h ++ h.windows.flatMap windowItems)) s
  let b := gatedWrite ⟨5, 2⟩ c none (inputAddr x slot + 4096) px a.2.2
  (a.2.1 || b.2.1, b.2.2)

/-- A frame that the divisor selected is not recorded: the next picture of the session tells so (R238). -/
def noteMissed (key : Nat) (s : State) : State := modSession key (fun x => { x with missed := true }) s

/-- A returned frame taken into a free input slot; one whose writes a gate refused is discarded with an internal fault (R239, R391). -/
def takeFrame (key slot : Nat) (x : Session) (h : ReturnHeader) (px : List Byte) (s : State) : State :=
  let w := writeInput x slot h px s
  if w.1 then noteMissed key (logInternal (initiatorId ⟨5, 2⟩) 1 w.2)
  else
    modSession key (fun x =>
      { x with
        input := x.input ++ [{ slot := slot, header := h, missed := x.missed, nEff := nEff s x, arrivedNs := s.time.mono }],
        missed := false }) w.2

/-- RETURN_FRAME_RX (R239, R243, R247): a returned frame under way reaches its session; without one, or with none running, it is
discarded. -/
def execReturnFrameRx (f : ReturnedId) (s : State) : Host.Outcome State Fault Refusal :=
  .next
    (let key := f.head
     let frameNo := f.frameNo
     let t := headRt s key
     match t.returned.find? fun p => p.1.frameNo = frameNo with
     | none => s
     | some (h, px) =>
       let s := putHead key { t with returned := t.returned.filter fun p => p.1.frameNo != frameNo } s
       match sessionOf s key with
       | none => s
       | some x =>
         if !mainUp s || x.ended || x.stopping.isSome then s
         else if mapHas s.record.tests x.pipe || frameNo % nEff s x != 0 then noteMissed key s
         else
           match freeInput x with
           | none => raiseLimited second (limKey 0x0880 key 0) 1 0x0880 .head key (fun c => [it 4 c]) (noteMissed key s)
           | some k => takeFrame key k x h px s)

/-! ## What the encoder codes (R232, R233, R235) -/

/-- The 10-bit samples of a run of P010 bytes: bits [15:6] of each little-endian pair (R222, R232). -/
def p010Samples : List Byte → List Nat
  | a :: b :: t => (a.toNat + b.toNat * 256) / 64 :: p010Samples t
  | _ => []

/-- A sample as the profile codes it (R232). -/
def codedSample (profile v : Nat) : Nat := if profile = 2 then v else min ((v + 2) / 4) 255

/-- A list extended to a length by repeating its last element (R232). -/
def extend {α : Type} (n : Nat) (l : List α) : List α :=
  match l.getLast? with
  | some v => (l ++ List.replicate (n - l.length) v).take n
  | none => l

/-- A line of interleaved Cb and Cr extended to `n` samples by repeating its last pair (R232). -/
def extendPairs (n : Nat) (l : List Nat) : List Nat :=
  (l ++ (List.replicate ((n - l.length) / 2) (l.drop (l.length - 2))).flatten).take n

/-- Lines of a stored picture read through the memory gate, each as bytes; whether a read was refused or met an uncorrectable error. -/
def readLines (who : Initiator) (c : Context) (base pitch bytes n : Nat) (s : State) : List (List Byte) × Bool × State :=
  (List.range n).foldl (fun r j =>
    let g := gatedRead who c none (base + j * pitch) bytes r.2.2
    (r.1 ++ [g.1], r.2.1 || g.2.2.1 || g.2.2.2.1, g.2.2.2.2)) ([], false, s)

/-- A picture as the encoder holds it: lines of luma, and lines of Cb and Cr interleaved. -/
structure Planes where
  (luma chroma : List (List Nat))
deriving DecidableEq, Repr, Inhabited

/-- The picture of an input slot as it is coded: taken from the slot through the gate, and extended to whole CTUs (R232). -/
def readInput (x : Session) (slot : Nat) (s : State) : Planes × Bool × State :=
  let c : Context := .record x.body.head x.body.workBase
  let a := inputAddr x slot + 4096
  let p := returnPitch x.width
  let l := readLines ⟨5, x.pipe⟩ c a p (x.width * 2) x.height s
  let k := readLines ⟨5, x.pipe⟩ c (a + p * x.height) p (x.width * 2) (x.height / 2) l.2.2
  let coded (m : List (List Byte)) : List (List Nat) := m.map fun b => (p010Samples b).map (codedSample x.body.profile)
  let w := 32 * ctuCols x.width
  let h := 32 * ctuRows x.height
  (⟨extend h ((coded l.1).map (extend w)), extend (h / 2) ((coded k.1).map (extendPairs w))⟩, l.2.1 || k.2.1, k.2.2)

/-- Bytes of a sample in a picture store, and the pitch of a store's lines (R230). -/
def storeSample (profile : Nat) : Nat := if profile = 2 then 2 else 1
def storePitch (x : Session) : Nat := alignUp (32 * ctuCols x.width * storeSample x.body.profile) 256

/-- Address of a picture store: after the three input slots (R230). The order in which the region holds them is the model's (DESIGN CHOICE,
notes/assumptions/97). -/
def storeAddr (x : Session) (k : Nat) : Nat :=
  x.body.workBase + 3 * page (inputBytes x.width x.height) + k * page (storePitch x * (32 * ctuRows x.height) * 3 / 2)

/-- The samples of a store's line from its bytes: one byte each for Main, P010 words for Main 10. -/
def storeSamples (profile : Nat) (l : List Byte) : List Nat := if profile = 2 then p010Samples l else l.map BitVec.toNat

/-- The bytes of a store's line. -/
def storeBytes (profile : Nat) (l : List Nat) : List Byte :=
  if profile = 2 then itemBytes (l.map fun v => it 2 (v * 64)) else itemBytes (l.map fun v => it 1 v)

/-- The store that holds the reconstruction of the picture coded last; the next picture's goes to the other (R230). -/
def referenceStore (x : Session) : Nat := x.coded % 2

/-- The reference picture of a P picture, read through the gate (R233). -/
def readReference (x : Session) (s : State) : Planes × Bool × State :=
  let c : Context := .record x.body.head x.body.workBase
  let w := 32 * ctuCols x.width * storeSample x.body.profile
  let h := 32 * ctuRows x.height
  let a := storeAddr x (referenceStore x)
  let l := readLines ⟨5, x.pipe⟩ c a (storePitch x) w h s
  let k := readLines ⟨5, x.pipe⟩ c (a + storePitch x * h) (storePitch x) w (h / 2) l.2.2
  (⟨l.1.map (storeSamples x.body.profile), k.1.map (storeSamples x.body.profile)⟩, l.2.1 || k.2.1, k.2.2)

/-- An index kept within `n` elements. -/
def nearest (i : Int) (n : Nat) : Nat := min i.toNat (n - 1)

/-- The search window of the CTU at a column and row: reference columns 32c − 96 to 32c + 127 of lines 32r − 48 to 32r + 79, the nearest edge
sample outside the picture (R235). -/
def searchWindow (ref : List (List Nat)) (c r : Nat) : List (List Nat) :=
  (List.range 128).map fun j =>
    let l := (ref[nearest ((32 * r + j : Nat) - 48) ref.length]?).getD []
    (List.range 224).map fun i => (l[nearest ((32 * c + i : Nat) - 96) l.length]?).getD 0

/-- What the encoder makes a row of at a QP (R232, R235, R243). -/
def rowInput (x : Session) (idr : Bool) (poc : Nat) (p ref : Planes) (r q : Nat) : RowInput :=
  { head := x.body.head, picture := x.coded, profile := x.body.profile, idr := idr, poc := poc, row := r, qp := q,
    luma := (p.luma.drop (32 * r)).take 32, chroma := (p.chroma.drop (16 * r)).take 16,
    windows := if idr then [] else (List.range (ctuCols x.width)).map fun c => searchWindow ref.luma c r }

/-- The levels of HEVC up to 5.1: level × 30, largest luma picture and luma samples a second (PRESUMED: the cited standard's table). -/
def hevcLevels : List (Nat × Nat × Nat) :=
  [(30, 36864, 552960), (60, 122880, 3686400), (63, 245760, 7372800), (90, 552960, 16588800), (93, 983040, 33177600),
   (120, 2228224, 66846720), (123, 2228224, 133693440), (150, 8912896, 267386880), (153, 8912896, 534773760)]

/-- The lowest level that admits the picture size and the recorded rate, and never above 5.1 (R233). -/
def streamLevel (w h num den n : Nat) : Nat :=
  ((hevcLevels.find? fun l => w * h ≤ l.2.1 && w * w ≤ 8 * l.2.1 && h * h ≤ 8 * l.2.1 && w * h * num ≤ l.2.2 * den * n).map Prod.fst).getD 153

/-- The parameters of a session's stream (R232, R233, R243). -/
def streamParams (x : Session) : StreamParams :=
  let w := 32 * ctuCols x.width
  let h := 32 * ctuRows x.height
  { profile := x.body.profile, level := streamLevel w h x.rateNum x.rateDen x.body.divisor, codedWidth := w, codedHeight := h,
    cropRight := w - x.width, cropBottom := h - x.height, ctuLog2 := 5, minCuLog2 := 3, maxTuLog2 := 5, minTuLog2 := 2, references := 1,
    reordering := 0, deblocking := true, sao := true, temporalMvp := true, tiles := false, wavefront := false, scalingLists := false,
    longTerm := false, weighted := false, primaries := 1, transfer := 1, matrix := 1, fullRange := false,
    numUnitsInTick := x.rateDen * x.body.divisor, timeScale := x.rateNum, pocProportional := true, ticksPocDiffMinus1 := 0,
    log2MaxPocMinus4 := 12 }

/-! ## Coding a picture (R234, R237, R238, R243) -/

/-- A row as coded: its QP, whether it is substituted, its slice NAL unit (R237). -/
structure RowCode where
  (qp : Nat)
  (subst : Bool)
  (bytes : List Byte)
deriving DecidableEq, Repr, Inhabited

/-- The next picture of a session is an IDR picture (R234). -/
def nextIdr (x : Session) : Bool := x.coded = 0 || x.forceIdr || x.body.idrInterval ≤ x.sinceIdr + 1

/-- Rate control over `n` rows from row `r` on, with `sum` bytes so far, at QP `q` (R237): `code` codes a row at a QP, `flat` codes it
substituted, in at most `k` bytes. -/
def rateControl (code : Nat → Nat → List Byte) (flat : Nat → List Byte) (qpTarget qpMax budget rows k : Nat) :
    Nat → Nat → Nat → Nat → Bool → List RowCode
  | 0, _, _, _, _ => []
  | n + 1, r, sum, q, subst =>
    let z := code r q
    if subst || budget < sum + z.length + (rows - r - 1) * k then
      let b := (flat r).take k
      { qp := q, subst := true, bytes := b } :: rateControl code flat qpTarget qpMax budget rows k n (r + 1) (sum + b.length) q true
    else
      let sum := sum + z.length
      let next := if budget * (r + 1) / rows < sum then min (q + 2) qpMax else max (q - 1) qpTarget
      { qp := q, subst := false, bytes := z } :: rateControl code flat qpTarget qpMax budget rows k n (r + 1) sum next false

/-- Substituted rows as bits: row 0 in bit 7 of the first byte (R238). -/
def substBytes (l : List RowCode) : List Byte :=
  (List.range (ceilDiv l.length 8)).map fun i =>
    BitVec.ofNat 8 (sumN ((List.range 8).map fun j => if ((l[8 * i + j]?).map RowCode.subst).getD false then 2 ^ (7 - j) else 0))

/-- A window summary in network byte order, field for field (R238). -/
def windowBe (w : WindowSummary) : List Byte :=
  beBytes 1 w.window
    ++ beBytes 1 (flag w.scorchedAny + flag w.scorchedAll * 2 + flag w.voidAny * 4 + flag w.heldAny * 8 + flag w.concealedAny * 16
      + flag w.mismatchAny * 32)
    ++ beBytes 2 w.sourceId ++ beBytes 4 w.scorchedPx ++ beBytes 4 w.ageMinUs ++ beBytes 4 w.ageMaxUs

/-- The integrity SEI payload of a picture (R238). -/
def seiPayload (s : State) (h : ReturnHeader) (rows : List RowCode) (idr missed : Bool) : List Byte :=
  let subst := rows.any RowCode.subst
  let flags := flag h.plate + flag h.uUnbounded * 2 + flag h.calUnreliable * 4 + flag subst * 8 + flag idr * 16 + flag missed * 32
  let body :=
    beBytes 1 1 ++ beBytes 1 flags ++ beBytes 1 (position s) ++ beBytes 1 h.head ++ beBytes 6 h.frameNo ++ beBytes 8 h.frameStartNs
      ++ beBytes 4 h.uUs ++ beBytes 2 h.claim ++ beBytes 1 h.composedBy ++ beBytes 1 h.state ++ beBytes 2 h.linesReplayed
      ++ beBytes 4 h.scorchedPx ++ beBytes 1 rows.length ++ beBytes 1 h.windows.length ++ substBytes rows ++ h.windows.flatMap windowBe
  beBytes 4 0x46494E46 ++ beBytes 4 0x4F52594E ++ beBytes 4 0x4D4F4158 ++ beBytes 4 0x53454931 ++ body
    ++ beBytes 4 (crc32c body).toNat

/-- Emulation prevention: 3 inserted after two zero bytes before a byte of 0 to 3. `z` counts the zeros just passed. -/
def emulation : Nat → List Byte → List Byte
  | _, [] => []
  | z, b :: t =>
    if 2 ≤ z && b.toNat ≤ 3 then 3#8 :: b :: emulation (if b = 0#8 then 1 else 0) t
    else b :: emulation (if b = 0#8 then z + 1 else 0) t

/-- The suffix SEI NAL unit (type 40) that ends an access unit: one user_data_unregistered message, payload type 5 (R238). -/
def seiNal (payload : List Byte) : List Byte :=
  [0x50#8, 0x01#8]
    ++ emulation 0 (5#8 :: List.replicate (payload.length / 255) 0xFF#8 ++ [BitVec.ofNat 8 (payload.length % 255)] ++ payload ++ [0x80#8])

/-- Header of an access-unit record (R239). -/
def auHeader (len frameNo auBytes startNs qpMin qpMax substRows : Nat) (pad idr : Bool) : Items :=
  [it 4 len, it 2 (flag pad + flag idr * 2 + flag (substRows != 0) * 4), it 6 frameNo, it 4 auBytes, it 8 startNs, it 1 qpMin, it 1 qpMax,
   it 1 substRows, it 5 0]

/-- Bytes of the pad record before a record of `n` bytes at offset `wr` of the ring, 0 for none (R240). -/
def padBytes (ringSize wr n : Nat) : Nat := if ringSize < wr % ringSize + n then ringSize - wr % ringSize else 0

/-- The progress record as the module writes it: its fields but rd_offset (R239). -/
def writeProgress (x : Session) (s : State) : State :=
  emit (.hostWrite (x.body.progressAddr + 16) [it 8 x.ausWritten, it 8 x.ausDropped])
    (emit (.hostWrite x.body.progressAddr [it 8 x.wr]) s)

/-- A start code of Annex B. -/
def startCode : List Byte := [0#8, 0#8, 0#8, 1#8]

/-- The access unit delimiter: type 35, with pic_type I or P and I (R233; PRESUMED: the cited standard's syntax). -/
def delimiter (idr : Bool) : List Byte := startCode ++ [0x46#8, 0x01#8, if idr then 0x10#8 else 0x30#8]

/-- An access unit: the delimiter, the parameter sets of an IDR picture, the slices, the integrity SEI (R233, R238). -/
def accessUnit (s : State) (x : Session) (f : InputFrame) (rows : List RowCode) (idr : Bool) : List Byte :=
  delimiter idr ++ (if idr then Config.parameterSets (streamParams x) else []) ++ rows.flatMap RowCode.bytes ++ startCode
    ++ seiNal (seiPayload s f.header rows idr f.missed)

/-- The next picture tells that a frame before it was not recorded: that of the oldest frame left, or of the next one taken (R238). -/
def missedNext (x : Session) : Session :=
  match x.input with
  | f :: t => { x with input := { f with missed := true } :: t }
  | [] => { x with missed := true }

/-- An access-unit record written to the host ring, whole, or discarded where it does not fit (R236, R240). -/
def writeAu (key : Nat) (f : InputFrame) (rows : List RowCode) (idr : Bool) (au : List Byte) (rd : Nat) (s : State) : State :=
  match sessionOf s key with
  | none => s
  | some x =>
    let n := alignUp (32 + au.length) 16
    let pad := padBytes x.body.ringSize x.wr n
    if x.body.ringSize < x.wr - rd + pad + n then
      let x := { missedNext x with rd := rd, ausDropped := x.ausDropped + 1, forceIdr := true }
      let s := writeProgress x (modSession key (fun _ => x) s)
      raiseLimited second (limKey 0x0881 key 0) 1 0x0881 .head key (fun c => [it 4 c, it 8 x.wr, it 8 rd]) s
    else
      let at_ (o : Nat) := x.body.ringAddr + o % x.body.ringSize
      let s := if pad = 0 then s else emit (.hostWrite (at_ x.wr) (auHeader pad 0 0 0 0 0 0 true false)) s
      let o := x.wr + pad
      let qs := rows.map RowCode.qp
      let head := auHeader n f.header.frameNo au.length f.header.frameStartNs (qs.foldl min (qs.headD 0)) (qs.foldl max 0)
        (rows.filter RowCode.subst).length false idr
      let s := emit (.hostBytes (at_ (o + 32)) au) (emit (.hostWrite (at_ o) head) s)
      let x := { x with wr := o + n, rd := rd, ausWritten := x.ausWritten + 1 }
      writeProgress x (modSession key (fun _ => x) s)

/-- A reconstructed line of plane `c` (0 luma, 1 chroma): of the reference where a row of a P picture is substituted, flat where one of an IDR
picture is, else what the encoder reconstructs (R237). -/
def reconLine (x : Session) (idr : Bool) (poc : Nat) (p ref : Planes) (rows : List RowCode) (c y : Nat) : List Nat :=
  let r := if c = 0 then y / 32 else y / 16
  let code := (rows[r]?).getD default
  let top := if x.body.profile = 2 then 1024 else 256
  if code.subst then
    if idr then List.replicate (32 * ctuCols x.width) (top / 2) else ((if c = 0 then ref.luma else ref.chroma)[y]?).getD []
  else (List.range (32 * ctuCols x.width)).map fun i => Config.reconSample (rowInput x idr poc p ref r code.qp) c i y % top

/-- The reconstruction written to the store that does not hold the reference (R230, R235). -/
def writeRecon (x : Session) (idr : Bool) (poc : Nat) (p ref : Planes) (rows : List RowCode) (s : State) : State :=
  let h := 32 * ctuRows x.height
  let a := storeAddr x (1 - referenceStore x)
  let put (c base n : Nat) (s : State) : State := (List.range n).foldl (fun s y =>
    (gatedWrite ⟨5, x.pipe⟩ (.record x.body.head x.body.workBase) none (base + y * storePitch x)
      (storeBytes x.body.profile (reconLine x idr poc p ref rows c y)) s).2.2) s
  put 1 (a + storePitch x * h) (h / 2) (put 0 a h s)

/-- Frames since the last IDR picture, in divisors: the picture order count that slices carry (R243). -/
def pocOf (x : Session) (idr : Bool) (frameNo : Nat) : Nat := if idr then 0 else (frameNo - x.lastIdr) / x.body.divisor % 65536

/-- The rows of a picture as rate control has them coded (R237). -/
def codeRows (x : Session) (f : InputFrame) (idr : Bool) (p ref : Planes) : List RowCode :=
  let b := picBudget x.body.capKbps f.nEff x.rateNum x.rateDen
  let poc := pocOf x idr f.header.frameNo
  let r := ctuRows x.height
  rateControl (fun i q => Config.codedRow (rowInput x idr poc p ref i q)) (fun i => Config.substitutedRow (rowInput x idr poc p ref i 0))
    x.body.qpTarget x.body.qpMax (if idr then 4 * b else b) r (skipBound x.width) r 0 0 x.body.qpTarget false

/-- The statistics of a coded picture (R244). -/
def statOf (x : Session) (f : InputFrame) (idr : Bool) (rows : List RowCode) : StatRec :=
  let b := picBudget x.body.capKbps f.nEff x.rateNum x.rateDen
  { frameNo := f.header.frameNo, cols := ctuCols x.width, rows := ctuRows x.height, sliceBytes := sumN (rows.map fun p => p.bytes.length),
    budget := if idr then 4 * b else b, perRow := rows.map fun p => (p.qp, p.subst, p.bytes.length) }

/-- A picture whose coding is interrupted, or that a gate or an uncorrectable error keeps from its samples, is discarded (R236, R365,
R391). -/
def dropPicture (key : Nat) (s : State) : State := modSession key (fun x => missedNext { x with input := x.input.tail }) s

/-- The oldest picture of a session coded whole, its access unit written, its reconstruction kept as the next reference. -/
def codePicture (key : Nat) (x : Session) (f : InputFrame) (rest : List InputFrame) (rd : Nat) (s : State) : State :=
  let idr := nextIdr x
  let p := readInput x f.slot s
  let ref := if idr then (default, false, p.2.2) else readReference x p.2.2
  if p.2.1 || ref.2.1 then dropPicture key (logInternal (initiatorId ⟨5, x.pipe⟩) 1 ref.2.2)
  else
    let rows := codeRows x f idr p.1 ref.1
    let s := writeRecon x idr (pocOf x idr f.header.frameNo) p.1 ref.1 rows ref.2.2
    let s := modSession key (fun y =>
      { y with
        input := rest, coded := x.coded + 1, lastCoded := f.header.frameNo, lastIdr := if idr then f.header.frameNo else x.lastIdr,
        sinceIdr := if idr then 0 else x.sinceIdr + 1, forceIdr := false,
        stats := if x.body.statsEn then (statOf x f idr rows :: x.stats).take 4 else x.stats }) s
    let s := writeAu key f rows idr (accessUnit s x f rows idr) rd s
    let subst := (rows.filter RowCode.subst).length
    if subst = 0 then s
    else raiseLimited second (limKey 0x0883 key 0) 1 0x0883 .head key (fun c => [it 6 f.header.frameNo, it 4 subst, it 4 c]) s

/-- PICTURE_CODED (R232 to R240, R243, R244): the oldest input slot's picture is coded whole, with rd_offset as its two words read, or its
coding has been interrupted and it is discarded. -/
def execPictureCoded (key : Nat) (interrupted : Bool) (rdLo rdHi : Nat) (s : State) : Host.Outcome State Fault Refusal :=
  .next
    (match sessionOf s key with
     | none => s
     | some x =>
       match x.input with
       | [] => s
       | f :: rest =>
         if !mainUp s || mapHas s.record.tests x.pipe then s
         else if interrupted then dropPicture key s
         else codePicture key x f rest (rdLo + rdHi * 4294967296) s)

/-! ## Ending (R245, R246) -/

/-- A session ends: its work region stays guarded until its release (R245, R246). -/
def endSession (key : Nat) (s : State) : State :=
  match sessionOf s key with
  | none => s
  | some x =>
    s.modRecord fun r =>
      { r with sessions := mapDel r.sessions key, guards := mapPut r.guards x.body.workBase (x.body.workSize, key) }

/-- RECORD_STOP (R245): the return path is disabled from the next frame start, and what stands in input slots is coded; with
abort it is discarded. -/
def recordStopBody (key : Nat) (abort : Bool) (tk : Ticket) (s : State) : State :=
  if 31 < key then complete tk 0x0180 [] s
  else
    match sessionOf s key with
    | none => complete tk 0x0383 [] s
    | some x =>
      if x.stopping.isSome then complete tk 0x0383 [] s
      else
        let s := modSession key (fun x => { x with stopping := some tk, input := if abort then [] else x.input }) s
        setReturn key 0 s

/-- RECORD_STOP (R245). -/
def execRecordStop (d : Desc) (key : Nat) (abort : Bool) (s : State) : Host.Outcome State Fault Refusal :=
  .next (onTake d (.recordStop key abort) (recordStopBody key abort) s)

/-- RECORD_STOP_COMPLETE (R245): the last access-unit record and its wr_offset are written. -/
def execRecordStopComplete (key : Nat) (s : State) : Host.Outcome State Fault Refusal :=
  .next
    (match sessionOf s key with
     | none => s
     | some x =>
       match x.stopping with
       | none => s
       | some tk => if x.input.isEmpty then complete tk 0 [] (endSession key s) else s)

/-- A session ended by its head: with cause SIZE (0) or DISABLED (1) (R245). -/
def endByHead (key cause : Nat) (s : State) : State :=
  match sessionOf s key with
  | none => s
  | some x =>
    let s := raise 0x0884 .head key [it 1 cause, it 6 x.lastCoded] (setReturn key 0 (endSession key s))
    match x.stopping with
    | some tk => complete tk 0 [] s
    | none => s

/-- A frame start of a head: a session whose head has another size or is disabled ends (R245). -/
def recordFrameStart (key : Nat) (t : HeadTiming) (s : State) : State :=
  match sessionOf s key with
  | none => s
  | some x =>
    if t.enable != 1 then endByHead key 1 s
    else if t.hActive != x.width || t.vActive != x.height then endByHead key 0 s
    else s

/-- RECORD_RELEASED (R246): no access of the ended session is in flight. -/
def execRecordReleased (base : Nat) (s : State) : Host.Outcome State Fault Refusal :=
  .next
    (match mapGet s.record.guards base with
     | none => s
     | some (_, key) =>
       if contextHeld s (.record key base) then s else
       raise 0x0885 .head key [it 8 base] (dropCtx (.record key base) (s.modRecord fun r => { r with guards := mapDel r.guards base })))

/-! ## Statistics and tests (R234, R244, R247) -/

/-- A component of a motion vector in quarter samples, which the search window bounds (R235): some value of −b to b. -/
def motion (b v : Nat) : Int := (v % (2 * b + 1) : Nat) - b

/-- A statistics record in its layout (R244); what the encoder chose for each CTU is a free value. -/
def statItems (key : Nat) (r : StatRec) : Items :=
  let row (p : Nat × Bool × Nat) : Items := [it 1 p.1, it 1 (flag p.2.1), it 2 (min p.2.2 65535)]
  let ctu (i : Nat) : Items :=
    let sub := ((r.perRow[i / r.cols]?).map fun p => p.2.1).getD false
    let f (k : Nat) : Int :=
      if k < 2 then (if sub then 0 else motion (if k = 0 then 384 else 192) (Config.ctuStat key r.frameNo i k))
      else min (Config.ctuStat key r.frameNo i k) 65535
    (List.range 4).map fun k => (2, f k)
  [it 6 r.frameNo, it 1 r.cols, it 1 r.rows, it 4 r.sliceBytes, it 4 r.budget, it 48 0] ++ r.perRow.flatMap row
    ++ (List.range (r.rows * r.cols)).flatMap ctu

/-- RECORD_STATS (R244): the latest complete record, with its length. -/
def recordStatsBody (key : Nat) (tk : Ticket) (s : State) : State :=
  if 31 < key then complete tk 0x0180 [] s
  else
    match sessionOf s key with
    | none => complete tk 0x0383 [] s
    | some x =>
      if !x.body.statsEn then complete tk 0x0383 [] s
      else
        match x.stats with
        | [] => complete tk 0 [it 4 0] s
        | r :: _ => completeWrite tk (statItems key r) [it 4 (statBytes x.width x.height)] s

/-- RECORD_STATS (R244). -/
def execRecordStats (d : Desc) (key : Nat) (s : State) : Host.Outcome State Fault Refusal :=
  .next (onTake d (.recordStats key) (recordStatsBody key) s)

/-- RECORD_FORCE_IDR (R234). -/
def recordForceIdrBody (key : Nat) (tk : Ticket) (s : State) : State :=
  if 31 < key then complete tk 0x0180 [] s
  else if mapHas s.record.sessions key then complete tk 0 [] (modSession key (fun x => { x with forceIdr := true }) s)
  else complete tk 0x0383 [] s

/-- RECORD_FORCE_IDR (R234). -/
def execRecordForceIdr (d : Desc) (key : Nat) (s : State) : Host.Outcome State Fault Refusal :=
  .next (onTake d (.recordForceIdr key) (recordForceIdrBody key) s)

/-- A pipeline carries a session or a probe (R241, R247). -/
def pipeCarries (s : State) (pipe : Nat) : Bool :=
  ((mapVals s.record.sessions).any fun x => x.pipe = pipe) || s.ledger.entries.any fun p => p.2.probeEn && p.2.probePipe = pipe

/-- The session whose picture a pipeline codes: the one whose oldest frame came first, the lowest head on a tie (DESIGN CHOICE,
notes/assumptions/97: the manual gives sessions of a pipeline no order). -/
def codedNow (s : State) (pipe : Nat) : Option Nat :=
  (s.record.sessions.filter fun p => p.2.pipe = pipe && !p.2.input.isEmpty).foldl (fun m p =>
    let at_ (k : Nat) : Nat := ((sessionOf s k).bind fun x => x.input.head?.map InputFrame.arrivedNs).getD 0
    match m with
    | none => some p.1
    | some q => if at_ p.1 < at_ q then some p.1 else some q) none

/-- ENCODE_SELFTEST (R236, R247): a picture being coded is interrupted, and discarded. -/
def encodeSelftestBody (pipe : Nat) (tk : Ticket) (s : State) : State :=
  if 1 < pipe then complete tk 0x0180 [] s
  else if mapHas s.record.tests pipe || (pipeCarries s pipe && s.module.mode != .maintenance) then complete tk 0x0384 [] s
  else
    let s := match codedNow s pipe with
      | some key => dropPicture key s
      | none => s
    s.modRecord fun r => { r with tests := mapPut r.tests pipe tk }

/-- ENCODE_SELFTEST (R247). -/
def execEncodeSelftest (d : Desc) (pipe : Nat) (s : State) : Host.Outcome State Fault Refusal :=
  .next (onTake d (.encodeSelftest pipe) (encodeSelftestBody pipe) s)

/-- ENCODE_SELFTEST_DONE (R234, R247): pass (0) or fail (1); each session of the pipeline resumes with an IDR picture. -/
def execEncodeSelftestDone (pipe : Nat) (pass : Bool) (s : State) : Host.Outcome State Fault Refusal :=
  .next
    (match mapGet s.record.tests pipe with
     | none => s
     | some tk =>
       let resume (x : Session) : Session := if x.pipe = pipe then { x with forceIdr := true } else x
       let s := s.modRecord fun r =>
         { r with tests := mapDel r.tests pipe, sessions := r.sessions.map fun p => (p.1, resume p.2) }
       complete tk 0 [it 1 (flag !pass)] s)

end Sys2Proof.Machine
end

