-- ==== Sys2Proof/Machine/Overlay.lean ====
section
/-! DEFINITION. The overlay engines (R249 to R268): display lists and their checks, drawing, fonts, bindings, runs. -/

namespace Sys2Proof.Machine

open Sys2Proof

/-! ## Display lists (R250 to R252) -/

/-- A display-list command with its operands (R252). -/
inductive OvCmd where
  | end_
  | fill (fg : Nat) (r : Rect)
  | line (fg width x0 y0 x1 y1 : Nat)
  | border (fg t : Nat) (r : Rect)
  | glyphs (fg bg x y font scale spacing : Nat) (slot : Option Nat) (codes : List Nat)
  | copy (source : Nat) (src : Rect) (dx dy : Nat)
  | clock (fg bg x y font scale format ref : Nat) (tzMin : Int)
  | ifState (source skip mask : Nat) (invert : Bool)
deriving DecidableEq, Repr, Inhabited

/-- Byte `i` of a list. -/
def u8 (l : List Byte) (i : Nat) : Nat := ((l[i]?).getD 0).toNat

/-- Two bytes, little-endian. -/
def u16 (l : List Byte) (i : Nat) : Nat := u8 l i + u8 l (i + 1) * 256

/-- Two bytes, signed. -/
def s16 (l : List Byte) (i : Nat) : Int := if u16 l i < 32768 then u16 l i else (u16 l i : Int) - 65536

/-- Bytes `a` to `b − 1` are 0. -/
def zeroBytes (l : List Byte) (a b : Nat) : Bool := (List.range' a (b - a)).all fun i => u8 l i = 0

/-- The rectangle whose fields begin at byte `i`, with coordinates and size in range (R251). -/
def rectAt (l : List Byte) (i : Nat) : Option Rect :=
  let r : Rect := ⟨u16 l i, u16 l (i + 2), u16 l (i + 4), u16 l (i + 6)⟩
  if r.x ≤ 4095 && r.y ≤ 4095 && 1 ≤ r.w && 1 ≤ r.h then some r else none

/-- The command that begins a list of bytes, and its length in units; none where it fails a check of R251 or R252. -/
def parseCmd (l : List Byte) : Option (OvCmd × Nat) :=
  let units := u8 l 1
  let flags := u8 l 2
  let fg := u8 l 3 % 16
  let bg := u8 l 3 / 16
  if l.length < 8 || l.length < units * 8 then none
  else
    match u8 l 0 with
    | 0x00 => if units = 1 && zeroBytes l 2 8 then some (.end_, 1) else none
    | 0x01 => if units = 2 && flags = 0 && zeroBytes l 4 8 then (rectAt l 8).map fun r => (.fill fg r, 2) else none
    | 0x02 =>
      if units = 2 && flags = 0 && 1 ≤ u8 l 4 && u8 l 4 ≤ 16 && zeroBytes l 5 8 && u16 l 8 ≤ 4095 && u16 l 10 ≤ 4095 && u16 l 12 ≤ 4095
          && u16 l 14 ≤ 4095 then
        some (.line fg (u8 l 4) (u16 l 8) (u16 l 10) (u16 l 12) (u16 l 14), 2)
      else none
    | 0x03 =>
      if units = 2 && flags = 0 && 1 ≤ u8 l 4 && zeroBytes l 5 8 then (rectAt l 8).map fun r => (.border fg (u8 l 4) r, 2) else none
    | 0x04 =>
      let n := u8 l 10
      let inline := u8 l 11 = 0xFF
      if flags = 0 && u16 l 4 ≤ 4095 && u16 l 6 ≤ 4095 && u8 l 8 ≤ 15 && 1 ≤ u8 l 9 && u8 l 9 ≤ 8 && u8 l 12 ≤ 15 && zeroBytes l 13 16
          && (if inline then 1 ≤ n && n ≤ 128 && units = 2 + ceilDiv n 8 && zeroBytes l (16 + n) (units * 8)
              else u8 l 11 ≤ 7 && n = 0 && units = 2) then
        some (.glyphs fg bg (u16 l 4) (u16 l 6) (u8 l 8) (u8 l 9) (u8 l 12) (if inline then none else some (u8 l 11))
          ((List.range n).map fun i => u8 l (16 + i)), units)
      else none
    | 0x05 =>
      if units = 3 && zeroBytes l 2 4 && u16 l 4 < 4096 && zeroBytes l 6 8 && u16 l 16 ≤ 4095 && u16 l 18 ≤ 4095 && zeroBytes l 20 24 then
        (rectAt l 8).map fun r => (.copy (u16 l 4) r (u16 l 16) (u16 l 18), 3)
      else none
    | 0x06 =>
      if units = 2 && flags = 0 && u16 l 4 ≤ 4095 && u16 l 6 ≤ 4095 && u8 l 8 ≤ 15 && 1 ≤ u8 l 9 && u8 l 9 ≤ 8 && u8 l 10 ≤ 3
          && u8 l 11 ≤ 1 && -1440 ≤ s16 l 12 && s16 l 12 ≤ 1440 && zeroBytes l 14 16 then
        some (.clock fg bg (u16 l 4) (u16 l 6) (u8 l 8) (u8 l 9) (u8 l 10) (u8 l 11) (s16 l 12), 2)
      else none
    | 0x07 =>
      if units = 2 && flags ≤ 1 && u8 l 3 = 0 && u16 l 4 < Config.sources && 1 ≤ u16 l 6 && u16 l 6 ≤ 4095 && u16 l 8 < 1024
          && zeroBytes l 10 16 then
        some (.ifState (u16 l 4) (u16 l 6) (u16 l 8) (flags = 1), 2)
      else none
    | _ => none

/-- The commands of a list with their byte offsets, up to END; on the right, the offset of the first command that fails a check,
or that follows END, or where END is missing (R250). `n` bounds the commands. -/
def parseList : Nat → Nat → List Byte → Sum (List (Nat × OvCmd)) Nat
  | 0, off, _ => .inr off
  | n + 1, off, l =>
    match parseCmd l with
    | none => .inr off
    | some (.end_, u) => if l.length = u * 8 then .inl [(off, .end_)] else .inr (off + u * 8)
    | some (c, u) =>
      match parseList n (off + u * 8) (l.drop (u * 8)) with
      | .inl t => .inl ((off, c) :: t)
      | .inr o => .inr o

/-- The commands of a list; none of one that fails its checks. -/
def commandsOf (l : List Byte) : List (Nat × OvCmd) :=
  match parseList 4096 0 l with
  | .inl c => c
  | .inr _ => []

/-- Font 0 is the ROM font (R257). -/
def fontCell (fonts : Map Font) (f : Nat) : Nat × Nat :=
  if f = 0 then (8, 16) else ((mapGet fonts f).map fun x => (x.cellW, x.cellH)).getD (0, 0)

/-- A font is font 0 or has been loaded. -/
def fontLoaded (fonts : Map Font) (f : Nat) : Bool := f = 0 || mapHas fonts f

/-- Characters that a clock format draws (R255). -/
def clockChars : Nat → Nat
  | 0 => 8 | 1 => 10 | 2 => 10 | _ => 19

/-- Pixels of a border. -/
def borderPixels (r : Rect) (t : Nat) : Nat := r.w * r.h - (r.w - 2 * t) * (r.h - 2 * t)

/-- Points of a line are k = 0 to D (R253). -/
def lineD (x0 y0 x1 y1 : Nat) : Nat := max ((x1 : Int) - x0).natAbs ((y1 : Int) - y0).natAbs

/-- Worst-case units of a command (R263): a slot counts 24 characters. -/
def worstUnits (fonts : Map Font) : OvCmd → Nat
  | .end_ => 256
  | .fill _ r => 256 + r.w * r.h
  | .line _ w x0 y0 x1 y1 => 256 + (lineD x0 y0 x1 y1 + 1) * w * w
  | .border _ t r => 256 + borderPixels r t
  | .glyphs _ _ _ _ f k _ slot codes =>
    let c := fontCell fonts f
    256 + (if slot.isSome then 24 else codes.length) * c.1 * c.2 * k * k
  | .copy _ r _ _ => 256 + 2 * r.w * r.h
  | .clock _ _ _ _ f k fmt _ _ =>
    let c := fontCell fonts f
    256 + clockChars fmt * c.1 * c.2 * k * k
  | .ifState .. => 256

/-- W of a list (R263). -/
def worstOf (fonts : Map Font) (l : List Byte) : Nat := sumN ((commandsOf l).map fun p => worstUnits fonts p.2)

/-- W of a binding's runs under a list, the seed copy counted as two whole images (R263). -/
def bindWork (s : State) (b : BindBody) (l : List Byte) : Nat :=
  let img := ((mapGet s.compose.surfaces b.surface).map fun x => x.body.width * x.body.height).getD 0
  worstOf s.overlay.fonts l + (if b.seed then 2 * img else 0)

/-- Per-frame load of a PER_FRAME binding in units a second (R263). -/
def frameLoad (s : State) (b : BindBody) (l : List Byte) : Rat :=
  if b.trigger = 0 && b.everyN != 0 then (bindWork s b l : Rat) * ((groupRec s b.group).map rateOf).getD 0 / b.everyN else 0

/-- PER_FRAME bindings of an engine with the list each would run: a list under `list` is replaced by `l`. -/
def engineBinds (s : State) (engine list : Nat) (l : List Byte) : List (BindBody × List Byte) :=
  ((mapVals s.overlay.bindings).filter fun b => b.engine = engine && b.body.trigger = 0).map fun b =>
    (b.body, if b.body.list = list then l else listOf s b)

/-- The load of an engine. -/
def loadOf (s : State) (l : List (BindBody × List Byte)) : Rat := l.foldl (fun t p => t + frameLoad s p.1 p.2) 0

/-- R263 holds for the PER_FRAME bindings of an engine. -/
def engineFits (s : State) (l : List (BindBody × List Byte)) : Bool :=
  loadOf s l ≤ (Config.overlayUnits : Rat) &&
  (l.map fun p => p.1.group).eraseDups.all fun g =>
    let w := sumN ((l.filter fun p => p.1.group = g).map fun p => bindWork s p.1 p.2)
    match groupRec s g with
    | some r => w * r.rateNum ≤ 160000000 * r.rateDen
    | none => true

/-! ## Lists and fonts (R250, R257, R259) -/

/-- Bytes of the list store in use without a list. -/
def listStoreUsed (s : State) (list : Nat) : Nat :=
  sumN ((s.overlay.lists.filter fun p => p.1 != list).map fun p => p.2.length)

/-- OVERLAY_LIST_LOAD (R250, R259). -/
def overlayListLoadBody (list length : Nat) (bytes : List Byte) (tk : Ticket) (s : State) : State :=
  if 255 < list || length % 8 != 0 || length < 16 || 32768 < length then complete tk 0x0190 [] s
  else if !tk.dmaOk then complete tk 0x0500 [] s
  else
    let l := bytes.take length
    match parseList 4096 0 l with
    | .inr off => complete tk 0x0191 [it 4 off] s
    | .inl _ =>
      if Config.listStore < listStoreUsed s list + length then complete tk 0x0291 [] s
      else if (List.range 8).any fun e =>
          (s.overlay.bindings.any fun p => p.2.engine = e && p.2.body.list = list) && !engineFits s (engineBinds s e list l) then
        complete tk 0x0290 [] s
      else complete tk 0 [] (s.modOverlay fun o => { o with lists := mapPut o.lists list l })

/-- OVERLAY_LIST_LOAD (R250). -/
def execOverlayListLoad (d : Desc) (list length : Nat) (bytes : List Byte) (s : State) : Host.Outcome State Fault Refusal :=
  .next (onTake d (.overlayListLoad list length bytes) (overlayListLoadBody list length bytes) s)

/-- OVERLAY_LIST_FREE (R259). -/
def overlayListFreeBody (list : Nat) (tk : Ticket) (s : State) : State :=
  if 255 < list then complete tk 0x0190 [] s
  else if !mapHas s.overlay.lists list then complete tk 0x0392 [] s
  else if s.overlay.bindings.any fun p => p.2.body.list = list then complete tk 0x0396 [] s
  else complete tk 0 [] (s.modOverlay fun o => { o with lists := mapDel o.lists list })

/-- OVERLAY_LIST_FREE (R259). -/
def execOverlayListFree (d : Desc) (list : Nat) (s : State) : Host.Outcome State Fault Refusal :=
  .next (onTake d (.overlayListFree list) (overlayListFreeBody list) s)

/-- Bytes of a font's glyphs (R257). -/
def fontBytes (w h count : Nat) : Nat := ceilDiv w 8 * h * count

/-- Bytes of the font store in use without a font. -/
def fontStoreUsed (s : State) (font : Nat) : Nat :=
  sumN ((s.overlay.fonts.filter fun p => p.1 != font).map fun p => fontBytes p.2.cellW p.2.cellH p.2.count)

/-- OVERLAY_FONT_LOAD (R257). -/
def overlayFontLoadBody (b : FontBody) (tk : Ticket) (s : State) : State :=
  if b.font = 0 || 15 < b.font || b.cellW < 4 || 32 < b.cellW || b.cellH < 4 || 64 < b.cellH || b.count = 0 || 256 < b.count
      || 256 < b.firstCode + b.count then
    complete tk 0x0192 [] s
  else if Config.fontStore < fontStoreUsed s b.font + fontBytes b.cellW b.cellH b.count then complete tk 0x0291 [] s
  else if !tk.dmaOk then complete tk 0x0500 [] s
  else
    let f : Font := { cellW := b.cellW, cellH := b.cellH, firstCode := b.firstCode, count := b.count, glyphs := b.glyphs }
    complete tk 0 [] (s.modOverlay fun o => { o with fonts := mapPut o.fonts b.font f })

/-- OVERLAY_FONT_LOAD (R257). -/
def execOverlayFontLoad (d : Desc) (b : FontBody) (s : State) : Host.Outcome State Fault Refusal :=
  .next (onTake d (.overlayFontLoad b) (overlayFontLoadBody b) s)

/-! ## Bindings (R257 to R259) -/

/-- The fields of the bind descriptor in their ranges. -/
def bindFieldsOk (b : BindBody) (s : State) : Bool :=
  b.binding ≤ 127 && (b.engine ≤ 7 || b.engine = 0xFF) && b.trigger ≤ 2 && b.list ≤ 255 && b.surface < 4096
    && (if b.trigger = 0 then 1 ≤ b.everyN && b.everyN ≤ 255 && b.group ≤ 255 else b.everyN = 0 && b.group = 0)
    && (if b.trigger = 1 then b.eventMask < 1024 && b.eventSource < Config.sources && (entryOf s b.eventSource).kind != .free
        else b.eventSource = 0 && b.eventMask = 0)
    && b.palette.length = 15 && b.palette.all fun c => c.r ≤ 1023 && c.g ≤ 1023 && c.b ≤ 1023 && c.a ≤ 1023

/-- Load of an engine as it stands. -/
def ovLoad (s : State) (e : Nat) : Rat := loadOf s (engineBinds s e 0x10000 [])

/-- The engine of lowest per-frame load, the lower index on a tie. -/
def leastEngine (s : State) : Nat :=
  (List.range 8).foldl (fun m e => if ovLoad s e < ovLoad s m then e else m) 0

/-- Fonts that a list names. -/
def listFonts (l : List Byte) : List Nat :=
  (commandsOf l).filterMap fun p => match p.2 with
    | .glyphs _ _ _ _ f _ _ _ _ => some f
    | .clock _ _ _ _ f _ _ _ _ => some f
    | _ => none

/-- The target and every COPY source are registered with one format of 0 to 2. -/
def bindSurfacesOk (b : BindBody) (l : List Byte) (s : State) : Bool :=
  match surfaceOf s b.surface with
  | none => false
  | some x =>
    x.body.format ≤ 2 && (copySources 4096 l).all fun k => ((surfaceOf s k).map fun y => y.body.format == x.body.format).getD false

/-- The checks of R259 in their order; 0 when none fails. -/
def bindCheck (b : BindBody) (engine : Nat) (dmaOk : Bool) (s : State) : Nat :=
  if dmaOk && !bindFieldsOk b s then 0x0190
  else if !dmaOk then 0x0500
  else if mapHas s.overlay.bindings b.binding then 0x0390
  else if 128 ≤ s.overlay.bindings.length || 16 ≤ (s.overlay.bindings.filter fun p => p.2.engine = engine).length then 0x0292
  else
    match mapGet s.overlay.lists b.list with
    | none => 0x0392
    | some l =>
      if !(listFonts l).all (fontLoaded s.overlay.fonts) then 0x0392
      else if !bindSurfacesOk b l s then 0x0393
      else if b.trigger = 0 && (groupHeads s.scene.inForce b.group).isEmpty then 0x0190
      else if b.trigger = 0 && !engineFits s ((b, l) :: engineBinds s engine 0x10000 []) then 0x0290
      else 0

/-- The gate context of a binding's runs (R249, R386). -/
def overlayCtx (s : State) (b : BindBody) (engine : Nat) : GateCtx :=
  let region (k : Nat) (w : Bool) : List ObjRegion :=
    ((mapGet s.compose.surfaces k).map fun x => (⟨x.body.base, surfaceSize x.body, true, w, 3, k⟩ : ObjRegion)).toList
  let srcs := ((copySources 4096 (mapGetD s.overlay.lists b.list [])).eraseDups).filter fun k => k != b.surface
  { ctx := .overlay b.binding, who := [⟨3, engine⟩], regions := region b.surface true ++ srcs.flatMap fun k => region k false }

/-- OVERLAY_BIND (R259). -/
def overlayBindBody (b : BindBody) (tk : Ticket) (s : State) : State :=
  let engine := if b.engine = 0xFF then leastEngine s else b.engine
  let c := bindCheck b engine tk.dmaOk s
  if c != 0 then complete tk c [] s
  else
    let x : Binding := { body := b, engine := engine, slots := [], due := [], unbinding := none, stopping := false }
    complete tk 0 [] (s.modOverlay fun o => { o with bindings := mapPut o.bindings b.binding x })

/-- OVERLAY_BIND (R259). -/
def execOverlayBind (d : Desc) (b : BindBody) (s : State) : Host.Outcome State Fault Refusal :=
  .next (onTake d (.overlayBind b) (overlayBindBody b) s)

/-- A binding changed. -/
def modBinding (k : Nat) (f : Binding → Binding) (s : State) : State :=
  s.modOverlay fun o => { o with bindings := mapUpd o.bindings k f }

/-- An engine. -/
def ovEngine (s : State) (e : Nat) : Engine := mapGetD s.overlay.engines e default

/-- An engine written. -/
def putEngine (e : Nat) (x : Engine) (s : State) : State := s.modOverlay fun o => { o with engines := mapPut o.engines e x }

/-- Due runs of a binding discarded; commands that wait for them end (R267). -/
def discardDue (k : Nat) (s : State) : State :=
  match mapGet s.overlay.bindings k with
  | none => s
  | some b =>
    let l := b.due.flatMap DueRun.tickets
    l.foldl (fun s t => complete t 0x0391 [] s) (modBinding k (fun b => { b with due := [] }) s)

/-- OVERLAY_UNBIND (R267). -/
def overlayUnbindBody (k : Nat) (tk : Ticket) (s : State) : State :=
  if 127 < k then complete tk 0x0190 [] s
  else
    match mapGet s.overlay.bindings k with
    | none => complete tk 0x0391 [] s
    | some b =>
      if b.unbinding.isSome then complete tk 0x0391 [] s
      else modBinding k (fun b => { b with unbinding := some tk }) (discardDue k s)

/-- OVERLAY_UNBIND (R267). -/
def execOverlayUnbind (d : Desc) (k : Nat) (s : State) : Host.Outcome State Fault Refusal :=
  .next (onTake d (.overlayUnbind k) (overlayUnbindBody k) s)

/-- A run of the binding is in progress. -/
def bindingRuns (s : State) (k : Nat) : Bool := (mapVals s.overlay.engines).any fun e => (e.run.map Run.binding) = some k

/-- OVERLAY_UNBIND_COMPLETE (R267): the run in progress has ended and the binding is removed. -/
def execOverlayUnbindComplete (k : Nat) (s : State) : Host.Outcome State Fault Refusal :=
  .next
    (match mapGet s.overlay.bindings k with
     | none => s
     | some b =>
       if (b.unbinding.isSome || b.stopping) && !bindingRuns s k then
         let s := dropCtx (.overlay k) (s.modOverlay fun o => { o with bindings := mapDel o.bindings k })
         match b.unbinding with
         | some tk => complete tk 0 [] s
         | none => s
       else s)

/-- A sync group has ceased to exist: its PER_FRAME bindings stop, with OVERLAY_STOPPED (R267). -/
def overlayGroupGone (g : Nat) (s : State) : State :=
  s.overlay.bindings.foldl (fun s p =>
    if p.2.body.trigger = 0 && p.2.body.group = g && !p.2.stopping then
      raise 0x0985 .engine (32 + p.2.engine) [it 2 p.1, it 2 g] (modBinding p.1 (fun b => { b with stopping := true }) (discardDue p.1 s))
    else s) s

/-- OVERLAY_RUN (R265): the slot takes the text; an ON_COMMAND binding has a run due. -/
def overlayRunBody (b : RunBody) (tk : Ticket) (s : State) : State :=
  if 127 < b.binding || (b.setSlot && (7 < b.slot || 24 < b.textLen)) then complete tk 0x0190 [] s
  else
    match (mapGet s.overlay.bindings b.binding).filter fun x => x.unbinding.isNone && !x.stopping with
    | none => complete tk 0x0391 [] s
    | some x =>
      if x.body.trigger != 2 && !b.setSlot then complete tk 0x0190 [] s
      else
        let text := b.text.take b.textLen
        let s := if b.setSlot then modBinding b.binding (fun x => { x with slots := mapPut x.slots b.slot text }) s else s
        if x.body.trigger != 2 then complete tk 0 [] s
        else
          match x.due with
          | [] => addDue b.binding { order := 0, frame := none, clockNs := none, tickets := [tk], noWait := b.noWait, since := none, lateNs := none } s
          | d :: rest =>
            modBinding b.binding (fun x =>
              { x with due := { d with tickets := d.tickets ++ [tk], noWait := d.noWait && b.noWait } :: rest }) s

/-- OVERLAY_RUN (R265). -/
def execOverlayRun (d : Desc) (b : RunBody) (s : State) : Host.Outcome State Fault Refusal :=
  .next (onTake d (.overlayRun b) (overlayRunBody b) s)

/-! ## Beginning a run (R260 to R263) -/

/-- The image a run draws into: the free image of lowest index, else the newest one where nothing holds or binds it (R260). -/
def targetImage (s : State) (k : Nat) (x : Surface) : Option Nat :=
  match (List.range x.body.imageCount).find? fun i => x.newest != some i && !imageHeld s k i with
  | some i => some i
  | none =>
    match x.newest with
    | some n => if !imageHeld s k n && !boundInForce s k then some n else none
    | none => none

/-- The due runs of an engine in the order of R263: PER_FRAME, ON_EVENT, ON_COMMAND, each in the order they became due. -/
def dueOrder (s : State) (e : Nat) : List (Nat × DueRun) :=
  let l := s.overlay.bindings.filterMap fun p =>
    if p.2.engine = e then (p.2.due.head?).map fun d => (p.2.body.trigger, p.1, d) else none
  (sortBy (fun a b => a.1 < b.1 || (a.1 = b.1 && a.2.2.order ≤ b.2.2.order)) l).map fun q => q.2

/-- A due run without a target image: skipped as NO_IMAGE, or it waits (R262). -/
def noImage (e k : Nat) (d : DueRun) (s : State) : State :=
  if !d.tickets.isEmpty && !d.noWait then
    modBinding k (fun b => { b with due := { d with since := d.since.orElse fun _ => some s.time.mono } :: b.due.drop 1 }) s
  else
    let s := modBinding k (fun b => { b with due := b.due.drop 1 }) s
    let s := putEngine e { ovEngine s e with skipped := (ovEngine s e).skipped + 1 } s
    let s := raiseLimited second (limKey 0x0981 k 1) 1 0x0981 .engine (32 + e) (fun c => [it 2 k, it 1 1, it 4 c]) s
    d.tickets.foldl (fun s t => complete t 0x0394 [] s) s

/-- The first due run that finds an image begins; those before it that find none are skipped or wait. -/
def beginRun (e : Nat) : List (Nat × DueRun) → State → State
  | [], s => s
  | (k, d) :: t, s =>
    match mapGet s.overlay.bindings k with
    | none => beginRun e t s
    | some b =>
      match (mapGet s.compose.surfaces b.body.surface).bind fun x => (targetImage s b.body.surface x).map fun i => (x, i) with
      | none => beginRun e t (noImage e k d s)
      | some (x, i) =>
        let r : Run :=
          { binding := k, image := i, newest := x.newest, startNs := s.time.wall, list := listOf s b, slots := b.slots,
            fonts := s.overlay.fonts, due := d }
        let s := addCtx (overlayCtx s b.body e) (modBinding k (fun b => { b with due := b.due.drop 1 }) s)
        putEngine e { ovEngine s e with run := some r } s

/-- A drain for sleep or shutdown is in progress: runs in progress complete and none starts (R449, R454). -/
def windingDown (s : State) : Bool := (s.module.sleeping.isSome && !s.module.waking) || s.power.shutdownDraining

/-- OVERLAY_RUN_START (R260, R262, R263). -/
def execOverlayRunStart (e : Nat) (s : State) : Host.Outcome State Fault Refusal :=
  .next (if mainUp s && !windingDown s && e ≤ 7 && (ovEngine s e).run.isNone then beginRun e (dueOrder s e) s else s)

/-- OVERLAY_NO_IMAGE_TIMEOUT (R262): 100 ms without an image. -/
def execOverlayNoImageTimeout (k : Nat) (s : State) : Host.Outcome State Fault Refusal :=
  .next
    (match mapGet s.overlay.bindings k with
     | none => s
     | some b =>
       match b.due with
       | [] => s
       | d :: rest =>
         match d.since with
         | none => s
         | some t =>
           if t + 100000000 ≤ s.time.mono then
             d.tickets.foldl (fun s t => complete t 0x0394 [] s) (modBinding k (fun b => { b with due := rest }) s)
           else s)

/-! ## Drawing (R252 to R258) -/

/-- What a run draws on: its engine and binding, the target's body and image, the palette. -/
structure Canvas where
  (engine binding : Nat)
  (surface : SurfaceBody)
  (image : Nat)
  (palette : List Rgba)
deriving DecidableEq, Repr, Inhabited

/-- A drawing under way: whether a gate refused, whether a COPY source is wrong, units so far, the state. -/
structure Draw where
  (refused badCopy : Bool)
  (units : Nat)
  (st : State)
deriving DecidableEq, Repr

/-- A colour in the bytes of a target format (R258). -/
def colourBytes (format : Nat) (c : Rgba) : List Byte :=
  let e (v : Nat) := min ((v + 2) / 4) 255
  match format with
  | 0 => itemBytes [it 4 (e c.a * 16777216 + e c.r * 65536 + e c.g * 256 + e c.b)]
  | 1 => itemBytes [it 4 ((c.a + 170) / 341 * 1073741824 + c.r * 1048576 + c.g * 1024 + c.b)]
  | _ => itemBytes [it 2 ((c.r * 31 + 511) / 1023 * 2048 + (c.g * 63 + 511) / 1023 * 32 + (c.b * 31 + 511) / 1023)]

/-- Bytes written at a pixel of the target, inside its image only (R251). -/
def putBytes (k : Canvas) (x y : Nat) (l : List Byte) (d : Draw) : Draw :=
  if x < k.surface.width && y < k.surface.height then
    let a := imageBase k.surface k.image + y * k.surface.pitch + x * formatBytes k.surface.format
    let r := gatedWrite ⟨3, k.engine⟩ (.overlay k.binding) none a l d.st
    { d with refused := d.refused || r.2.1, st := r.2.2 }
  else d

/-- A pixel written with a palette colour; index 15 writes nothing (R251). -/
def putColour (k : Canvas) (x y c : Nat) (d : Draw) : Draw :=
  if c = 15 then d else putBytes k x y (colourBytes k.surface.format ((k.palette[c]?).getD ⟨0, 0, 0, 0⟩)) d

/-- Every pixel of a rectangle for which `p` holds, written with a colour. -/
def putRect (k : Canvas) (r : Rect) (c : Nat) (p : Nat → Nat → Bool) (d : Draw) : Draw :=
  (List.range r.h).foldl (fun d j => (List.range r.w).foldl (fun d i =>
    if p (r.x + i) (r.y + j) then putColour k (r.x + i) (r.y + j) c d else d) d) d

/-- Point k of a line (R253). -/
def linePoint (x0 y0 x1 y1 i : Nat) : Int × Int :=
  let n : Int := lineD x0 y0 x1 y1
  if n = 0 then (x0, y0)
  else ((x0 : Int) + (2 * i * ((x1 : Int) - x0) + n) / (2 * n), (y0 : Int) + (2 * i * ((y1 : Int) - y0) + n) / (2 * n))

/-- The square of a line's point, those of its pixels that lie at or after 0. -/
def putSquare (k : Canvas) (p : Int × Int) (w c : Nat) (d : Draw) : Draw :=
  let o : Int := ((w - 1) / 2 : Nat)
  (List.range w).foldl (fun d j => (List.range w).foldl (fun d i =>
    let x := p.1 - o + i
    let y := p.2 - o + j
    if 0 ≤ x && 0 ≤ y then putColour k x.toNat y.toNat c d else d) d) d

/-- A glyph bit of an overlay font; a code it does not hold is a solid block (R254, R257). -/
def fontBit (fonts : Map Font) (f code col row : Nat) : Bool :=
  if f = 0 then (if 0x20 ≤ code && code ≤ 0x7E then bit (Config.romGlyphRow code row) (7 - col) else true)
  else
    match mapGet fonts f with
    | none => true
    | some x =>
      if x.firstCode ≤ code && code < x.firstCode + x.count then
        let per := ceilDiv x.cellW 8
        ((x.glyphs[((code - x.firstCode) * x.cellH + row) * per + col / 8]?).getD 0).getLsbD (7 - col % 8)
      else true

/-- A string drawn (R254). -/
def putString (k : Canvas) (fonts : Map Font) (f scale spacing x y fg bg : Nat) (codes : List Nat) (d : Draw) : Draw :=
  let cell := fontCell fonts f
  (List.range codes.length).foldl (fun d i =>
    let code := (codes[i]?).getD 0
    let x0 := x + i * (cell.1 * scale + spacing)
    (List.range (cell.2 * scale)).foldl (fun d j => (List.range (cell.1 * scale)).foldl (fun d c =>
      putColour k (x0 + c) (y + j) (if fontBit fonts f code (c / scale) (j / scale) then fg else bg) d) d) d) d

/-- Year, month and day of a count of days from 1970-01-01 in the proleptic Gregorian calendar. -/
def civil (days : Int) : Int × Int × Int :=
  let z := days + 719468
  let era := z / 146097
  let doe := z - era * 146097
  let yoe := (doe - doe / 1460 + doe / 36524 - doe / 146096) / 365
  let doy := doe - (365 * yoe + yoe / 4 - yoe / 100)
  let mp := (5 * doy + 2) / 153
  let m := if mp < 10 then mp + 3 else mp - 9
  (yoe + era * 400 + (if m ≤ 2 then 1 else 0), m, doy - (153 * mp + 2) / 5 + 1)

/-- `n` decimal digits. -/
def digits : Nat → Nat → List Nat
  | 0, _ => []
  | n + 1, v => digits n (v / 10) ++ [48 + v % 10]

/-- The characters of a clock field at local time `l` in ns; "-" for every digit where the time is not known (R255). -/
def clockString (format : Nat) (l : Int) (known : Bool) : List Nat :=
  let day := l / 86400000000000
  let sec := (l % 86400000000000 / 1000000000).toNat
  let date := civil day
  let hms := digits 2 (sec / 3600) ++ [58] ++ digits 2 (sec / 60 % 60) ++ [58] ++ digits 2 (sec % 60)
  let ymd := digits 4 date.1.toNat ++ [45] ++ digits 2 date.2.1.toNat ++ [45] ++ digits 2 date.2.2.toNat
  let codes := match format with
    | 0 => hms
    | 1 => hms ++ [46] ++ digits 1 (l % 1000000000 / 100000000).toNat
    | 2 => ymd
    | _ => ymd ++ [32] ++ hms
  if known then codes else codes.map fun c => if 48 ≤ c && c ≤ 57 then 45 else c

/-- The clock of a run (R255). -/
def clockOf (s : State) (r : Run) (format ref : Nat) (tzMin : Int) : List Nat :=
  let t := if ref = 1 then r.due.clockNs.getD r.startNs else r.startNs
  clockString format ((t : Int) - s.time.utcOffset * 1000000000 + tzMin * 60000000000) (s.time.utcValid && uBounded s)

/-- A rectangle of a surface's newest image copied pixel for pixel (R252). -/
def putCopy (k : Canvas) (source : Nat) (r : Rect) (dx dy : Nat) (d : Draw) : Draw :=
  match surfaceOf d.st source with
  | none => { d with badCopy := true }
  | some x =>
    if x.body.format != k.surface.format then { d with badCopy := true }
    else
      match x.newest with
      | none => d
      | some n =>
        (List.range r.h).foldl (fun d j => (List.range r.w).foldl (fun d i =>
          if r.x + i < x.body.width && r.y + j < x.body.height then
            let bpp := formatBytes x.body.format
            let a := imageBase x.body n + (r.y + j) * x.body.pitch + (r.x + i) * bpp
            let g := gatedRead ⟨3, k.engine⟩ (.overlay k.binding) none a bpp d.st
            putBytes k (dx + i) (dy + j) g.1 { d with refused := d.refused || g.2.2.1 || g.2.2.2.1, st := g.2.2.2.2 }
          else d) d) d

/-- A test of the ledger (R256). -/
def stateTest (s : State) (source mask : Nat) (invert : Bool) : Bool := bit mask (entryOf s source).state.value != invert

/-- Units that a command costs as executed (R263). -/
def unitsOf (r : Run) : OvCmd → Nat
  | .glyphs fg bg x y f k sp (some slot) _ => worstUnits r.fonts (.glyphs fg bg x y f k sp none (mapGetD r.slots slot []))
  | c => worstUnits r.fonts c

/-- One command drawn. -/
def drawCmd (k : Canvas) (r : Run) (c : OvCmd) (d : Draw) : Draw :=
  match c with
  | .end_ => d
  | .fill fg q => putRect k q fg (fun _ _ => true) d
  | .line fg w x0 y0 x1 y1 =>
    (List.range (lineD x0 y0 x1 y1 + 1)).foldl (fun d i => putSquare k (linePoint x0 y0 x1 y1 i) w fg d) d
  | .border fg t q => putRect k q fg (onBorder q t) d
  | .glyphs fg bg x y f n sp slot codes =>
    let str := match slot with
      | some i => mapGetD r.slots i []
      | none => codes
    putString k r.fonts f n sp x y fg bg str d
  | .copy src q dx dy => putCopy k src q dx dy d
  | .clock fg bg x y f n fmt ref tz => putString k r.fonts f n 0 x y fg bg (clockOf d.st r fmt ref tz) d
  | .ifState .. => d

/-- A list run (R252, R256, R264): the cause and offset that abandon it, if any. `skip` commands are skipped, `count` have been
executed. -/
def runList (k : Canvas) (r : Run) : List (Nat × OvCmd) → Nat → Nat → Draw → Option (Nat × Nat) × Draw
  | [], _, _, d => (none, d)
  | (off, c) :: t, skip, count, d =>
    if c = .end_ then
      (if 4096 ≤ count then some (0, off) else if 16777216 < d.units + 256 then some (1, off) else none, { d with units := d.units + 256 })
    else if skip != 0 then runList k r t (skip - 1) count d
    else if 4096 ≤ count then (some (0, off), d)
    else
      let d := { d with units := d.units + unitsOf r c }
      if 16777216 < d.units then (some (1, off), d)
      else
        let d := drawCmd k r c d
        if d.badCopy then (some (3, off), d)
        else if d.refused then (some (4, off), d)
        else
          match c with
          | .ifState src n mask inv => runList k r t (if stateTest d.st src mask inv then 0 else n) (count + 1) d
          | _ => runList k r t 0 (count + 1) d

/-- The seed copy: the newest image whole (R261). -/
def seedCopy (k : Canvas) (newest : Option Nat) (d : Draw) : Draw :=
  match newest with
  | none => d
  | some n =>
    let size := k.surface.pitch * k.surface.height
    let g := gatedRead ⟨3, k.engine⟩ (.overlay k.binding) none (imageBase k.surface n) size d.st
    let w := gatedWrite ⟨3, k.engine⟩ (.overlay k.binding) none (imageBase k.surface k.image) g.1 g.2.2.2.2
    { d with refused := d.refused || g.2.2.1 || g.2.2.2.1 || w.2.1, units := d.units + 2 * k.surface.width * k.surface.height, st := w.2.2 }

/-! ## The end of a run (R260, R261, R263 to R265) -/

/-- The content of a run's image becomes undefined (R264). -/
def forgetImage (r : Run) (s : State) : State :=
  match (mapGet s.overlay.bindings r.binding).bind fun b => mapGet s.compose.surfaces b.body.surface with
  | some x => memForget (imageBase x.body r.image) (x.body.pitch * x.body.height) s
  | none => s

/-- A run abandoned on a cause at an offset (R264). -/
def abandonRun (e : Nat) (r : Run) (cause off : Nat) (s : State) : State :=
  let x := ovEngine s e
  let s := putEngine e { x with run := none, abandoned := mapPut x.abandoned cause (mapGetD x.abandoned cause 0 + 1) } (forgetImage r s)
  let s := raiseLimited second (limKey 0x0983 r.binding cause) 1 0x0983 .engine (32 + e)
    (fun c => [it 2 r.binding, it 1 cause, it 4 off, it 4 c]) s
  r.due.tickets.foldl (fun s t => complete t 0x0395 [] s) s

/-- A seeded run whose target has got a newer image (R261). -/
def supersededRun (e : Nat) (r : Run) (b : Binding) (s : State) : State :=
  let x := ovEngine s e
  let s := putEngine e { x with run := none, superseded := x.superseded + 1 } s
  let s := raise 0x0984 .engine (32 + e) [it 2 r.binding] s
  if b.body.trigger != 0 && b.unbinding.isNone && !b.stopping then
    match b.due with
    | [] => addDue r.binding { r.due with since := none } s
    | d :: rest => modBinding r.binding (fun b => { b with due := { d with tickets := r.due.tickets ++ d.tickets } :: rest }) s
  else r.due.tickets.foldl (fun s t => complete t 0x0391 [] s) s

/-- OVERLAY_LATE for a PER_FRAME run that ends after the next latch point (R263). -/
def lateRun (e : Nat) (r : Run) (s : State) : State :=
  match r.due.frame, r.due.lateNs with
  | some n, some t =>
    let x := ovEngine s e
    let s := putEngine e { x with late := x.late + 1 } s
    raiseLimited second (limKey 0x0982 r.binding 0) 1 0x0982 .engine (32 + e)
      (fun c => [it 2 r.binding, it 6 n, it 4 ((s.time.wall - t) / 1000), it 4 c]) s
  | _, _ => s

/-- A run that reached END: its image becomes newest where the binding presents (R260, R265). -/
def presentRun (e : Nat) (r : Run) (b : Binding) (units : Nat) (s : State) : State :=
  let x := ovEngine s e
  let s := putEngine e { x with run := none, presented := x.presented + flag b.body.present } s
  let s := if b.body.present then presentImage b.body.surface r.image s else s
  let s := lateRun e r s
  let s := if b.body.notify && b.body.present && b.body.trigger != 2 then
      raise 0x0980 .engine (32 + e) [it 2 r.binding, it 1 r.image, it 6 (r.due.frame.getD 0), it 4 units] s
    else s
  r.due.tickets.foldl (fun s t => complete t 0 [] s) s

/-- A run has lasted 25 ms of wall time (R264). -/
def runExpired (s : State) (r : Run) : Bool := r.startNs + 25000000 ≤ s.time.wall

/-- A run abandoned at its time limit; which command was executing then is a free value (R264). -/
def expireRun (e : Nat) (r : Run) (s : State) : State :=
  let f := draw s
  let offs := (commandsOf r.list).map Prod.fst
  abandonRun e r 2 ((offs[f.1 % offs.length]?).getD 0) f.2

/-- OVERLAY_RUN_END (R260 to R265): the list is executed and the run ends; one that has lasted 25 ms has met its limit. -/
def execOverlayRunEnd (e : Nat) (s : State) : Host.Outcome State Fault Refusal :=
  .next
    (match (ovEngine s e).run with
     | none => s
     | some r =>
       match mapGet s.overlay.bindings r.binding, mainUp s with
       | some b, true =>
         if runExpired s r then expireRun e r s else
         match mapGet s.compose.surfaces b.body.surface with
         | none => abandonRun e r 4 0 s
         | some x =>
           if b.body.seed && x.newest != r.newest then supersededRun e r b s
           else
             let k : Canvas := { engine := e, binding := r.binding, surface := x.body, image := r.image, palette := b.body.palette }
             let d : Draw := { refused := false, badCopy := false, units := 0, st := s }
             let d := if b.body.seed then seedCopy k x.newest d else d
             if d.refused then abandonRun e r 4 0 d.st
             else
               let o := runList k r (commandsOf r.list) 0 0 d
               match o.1 with
               | some (cause, off) => abandonRun e r cause off o.2.st
               | none => presentRun e r b o.2.units o.2.st
       | _, _ => s)

/-- OVERLAY_RUN_TIMEOUT (R264): 25 ms since the run began. -/
def execOverlayRunTimeout (e : Nat) (s : State) : Host.Outcome State Fault Refusal :=
  .next
    (match (ovEngine s e).run with
     | none => s
     | some r => if runExpired s r then expireRun e r s else s)

/-! ## Status -/

/-- The status record of an engine. -/
def overlayStatusItems (s : State) (e : Nat) : Items :=
  let x := ovEngine s e
  let ids := (s.overlay.bindings.filter fun p => p.2.engine = e).map Prod.fst
  let pad := (ids.map fun i => it 2 i) ++ List.replicate (16 - ids.length) (it 2 0xFFFF)
  pad ++ [(4, (ovLoad s e / 1000000).ceil), it 8 x.presented, it 8 x.skipped, it 8 x.late, it 8 x.superseded]
    ++ (List.range 5).map fun c => it 8 (mapGetD x.abandoned c 0)

/-- OVERLAY_STATUS (R285). -/
def overlayStatusBody (e : Nat) (tk : Ticket) (s : State) : State :=
  if 7 < e then complete tk 0x0190 [] s else completeRecord tk 256 (overlayStatusItems s e) [] s

/-- OVERLAY_STATUS (R285). -/
def execOverlayStatus (d : Desc) (e : Nat) (s : State) : Host.Outcome State Fault Refusal :=
  .next (onTake d (.overlayStatus e) (overlayStatusBody e) s)

end Sys2Proof.Machine
end

