-- ==== Sys2Proof/Machine/Tailstock.lean ====
section
/-! DEFINITION. The Tailstock output section (R193 to R227): its records and swap orders, verdict bitmaps, line and idle tokens,
claim arbitration, the frame start, the lines as they fall due, hold and replay, Calipers, the return path, and its commands. -/

namespace Sys2Proof.Machine

open Sys2Proof

/-! ## Streams and claims (R196, R208, R209) -/

/-- A head with the stream of a side replaced. -/
def setSide (h : HeadRt) (side : Side) (r : StreamRt) : HeadRt :=
  match side with
  | .own => { h with own := r }
  | .twin => { h with twin := r }

/-- A stream of a head changed. -/
def modSide (key : Nat) (side : Side) (f : StreamRt → StreamRt) (s : State) : State :=
  let h := headRt s key
  putHead key (setSide h side (f (sideOf h side))) s

/-- A claim word as a number (R208). -/
def claimWord (c : Claim) : Nat := c.priority * 256 + c.high * 64 + c.position

/-- Number of a stream, as events carry it. -/
def sideNum : Side → Nat
  | .own => 0
  | .twin => 1

/-- The twin's streams and writes count for nothing because the module's twin role is ALONE. A reset of the main section makes the role ALONE
(R358), and R209 and R196 then bar the twin, while R447 has the heads pass the twin's stream during that restart. The role bars the twin only
while the own main section is in service (DESIGN CHOICE, notes/assumptions/87). -/
def aloneBars (s : State) : Bool := s.cascade.role = .alone && inService s

/-- The position by which the Tailstock knows its module: the one in force, else that of its own main section's latest claim word (DEDUCED,
notes/assumptions/87). -/
def ownPosition (s : State) : Option Nat :=
  if s.cascade.posValid then some s.cascade.position else s.ts.ownClaim.map fun c => c.1.position

/-- The effective claim of a stream of a head now (R209). -/
def effClaim (s : State) (h : HeadRt) (side : Side) : Nat :=
  let r := sideOf h side
  let silent := match r.tokenNs with
    | none => true
    | some t => t + Config.claimNs ≤ s.time.mono
  let barred := side = .twin && (aloneBars s || ownPosition s = some r.claim.position)
  if silent || r.claim.priority = 0 || barred then 0 else claimWord r.claim

/-- The claim of a main section as far as record writes go (R196). -/
def sectionClaim (s : State) (side : Side) : Nat :=
  let c := match side with
    | .own => s.ts.ownClaim
    | .twin => s.ts.twinClaim
  match c with
  | none => 0
  | some (w, t) => if t + Config.claimNs ≤ s.time.mono || w.priority = 0 || (side = .twin && aloneBars s) then 0 else claimWord w

/-- A claim word heard from a main section (R196). -/
def hearClaim (side : Side) (c : Claim) (s : State) : State :=
  match side with
  | .own => s.modTs fun t => { t with ownClaim := some (c, s.time.mono) }
  | .twin => s.modTs fun t => { t with twinClaim := some (c, s.time.mono) }

/-- The other side. -/
def otherSide : Side → Side
  | .own => .twin
  | .twin => .own

/-- CLAIM_STATE where a stream's effective claim has changed between 0 and non-zero (R227). -/
def tellClaim (key : Nat) (side : Side) (s : State) : State :=
  let h := headRt s key
  let on := effClaim s h side != 0
  if on = (sideOf h side).toldClaim then s
  else
    tsHeadEvent 0x0782 key [it 1 (sideNum side), it 1 (flag on), it 2 (claimWord (sideOf h side).claim)]
      (modSide key side (fun r => { r with toldClaim := on }) s)

/-- TAILSTOCK_FAULT for `n` faults of one cause, at most once a second for a head and cause, and the count that TAILSTOCK_STATUS holds
(R225). -/
def tsFaults (key cause n : Nat) (s : State) : State :=
  if n = 0 then s
  else
    let h := headRt s key
    let s := putHead key { h with faults := mapPut h.faults cause (mapGetD h.faults cause 0 + n) } s
    tsLimited (limKey 0x078C key cause) n 0x078C key (fun c => [it 1 cause, it 4 c, it 6 (h.frame.getD 0)]) false s

/-- One fault (R225). -/
def tsFault (key cause : Nat) (s : State) : State := tsFaults key cause 1 s

/-! ## Power-up, records and swap orders (R195, R196, R200) -/

/-- The Tailstock's power domain comes up: it holds what R195 lists, and u is unbounded. -/
def tailstockInit (s : State) : State :=
  let s := s.modTs fun _ => TsSt.init
  s.modTime fun t => { t with tRef := none, lastRef := none, lastStep := none, wall := 0 }

/-- A record of the first kind written to a stream's staged bank (R196). -/
def stageFirst (r : TsRecord) (m : HeadMat) : HeadMat :=
  match r with
  | .mapEntry _ w valid style cs internal static src budget rect kind layer =>
    if valid then
      { m with
        entries := mapPut m.entries w
          { style := style, colourSet := cs, internal := internal, staticSrc := static, sourceId := src, budgetMs := budget,
            rect := rect, kind := kind, layer := layer } }
    else { m with entries := mapDel m.entries w }
  | .label _ i l => { m with labels := mapPut m.labels i l }
  | .colourSet _ i c => { m with colours := mapPut m.colours i c }
  | _ => m

/-- A record held once written to the staged bank (R196). -/
def stageOnce (r : TsRecord) (o : HeadOnce) : HeadOnce :=
  match r with
  | .headTiming _ t => { o with timing := t }
  | .headOutput _ t => { o with output := t }
  | .tsHead _ t => { o with tsHead := t }
  | .calipers _ i c => { o with calipers := mapPut o.calipers i c }
  | .label _ _ l => { o with plateLabel := l }
  | _ => o

/-- The head of a record; none for a group record. -/
def recordHead : TsRecord → Option Nat
  | .mapEntry h .. => some h
  | .label h .. => some h
  | .colourSet h .. => some h
  | .headTiming h _ => some h
  | .headOutput h _ => some h
  | .tsHead h _ => some h
  | .calipers h .. => some h
  | .syncGroup .. => none
  | .staticSrc .. => none

/-- A record held separately for each main section; a label of index 0xFF is the plate's (R196). -/
def isFirstKind : TsRecord → Bool
  | .mapEntry .. => true
  | .colourSet .. => true
  | .label _ i _ => i < 128
  | _ => false

/-- Flag bit 1 of every entry of a source in a main section's material (R197). -/
def restatic (source : Nat) (static : Bool) (m : HeadMat) : HeadMat :=
  { m with entries := m.entries.map fun p => if p.2.sourceId = source then (p.1, { p.2 with staticSrc := static }) else p }

/-- A record of the first kind written: the other bank is the staged one from here on (R196, R200). -/
def writeFirst (r : TsRecord) (x : StreamRt) : StreamRt := { x with other := stageFirst r x.other, kept := false }

/-- A record held once written: the other bank is the staged one from here on (R196, R200). -/
def writeOnce (r : TsRecord) (h : HeadRt) : HeadRt :=
  { h with onceOther := stageOnce r h.onceOther, onceKept := false, onceSwapped := none }

/-- TAILSTOCK_RECORD_WRITE (R196, R197): records of the first kind from their own main section; those held once only from the main
section whose claim counts as the higher, the write's own claim word among them. -/
def execTailstockRecordWrite (side : Side) (claim : Claim) (r : TsRecord) (s : State) : Host.Outcome State Fault Refusal :=
  .next
    (if !s.ts.powered then s
     else
       let s := hearClaim side claim s
       let wins := sectionClaim s (otherSide side) < sectionClaim s side
       match recordHead r, r with
       | none, .syncGroup g rec_ =>
         if wins then
           s.modTs fun t => { t with groupRecs := match rec_ with
             | some x => mapPut t.groupRecs g x
             | none => mapDel t.groupRecs g }
         else s
       | none, .staticSrc source static =>
         if sectionClaim s side = 0 then s
         else
           let f (x : StreamRt) : StreamRt := { x with force := restatic source static x.force, other := restatic source static x.other }
           s.modTs fun t => { t with heads := t.heads.map fun p => (p.1, setSide p.2 side (f (sideOf p.2 side))) }
       | none, _ => s
       | some key, _ =>
         if 31 < key then s
         else if isFirstKind r then
           if sectionClaim s side = 0 then s else modSide key side (writeFirst r) s
         else if wins then
           putHead key (writeOnce r (headRt s key)) s
         else s)

/-- A line period in ns under a timing record, rounded up. -/
def linePeriod (s : State) (t : HeadTiming) : Nat :=
  match mapGet s.ts.groupRecs t.syncGroup with
  | some r => if vTotal t * r.rateNum = 0 then 0 else ceilDiv (1000000000 * r.rateDen) (vTotal t * r.rateNum)
  | none => 0

/-- The line period by which an order of a head counts as late (R200): that of its timing, or of the staged one where it is not enabled. -/
def orderLine (s : State) (h : HeadRt) : Nat := linePeriod s (if h.once.timing.enable = 1 then h.once.timing else h.onceOther.timing)

/-- WINDOW_MAP_LATE (R200). -/
def mapLate (key : Nat) (side : Side) (frame : Nat) (s : State) : State :=
  tsHeadEvent 0x0786 key [it 1 (sideNum side), it 6 frame] s

/-- A Calipers rectangle about which nothing is known. -/
def calInit : CalRt := { crc := none, frame := 0, c := 0, p := none, mismatch := false, since := 0 }

/-- The records held once exchange their banks (R200): Calipers whose record changes start afresh, a changed timing empties the hold, and a
head switched on has received nothing yet (R212, R214, R218, R219). -/
def swapOnce (startMono : Nat) (kept : Bool) (h : HeadRt) : HeadRt :=
  let new := h.onceOther
  let old := h.once
  let same (i : Nat) : Bool := mapGetD new.calipers i resetCal = mapGetD old.calipers i resetCal
  let on := new.timing.enable = 1 && old.timing.enable != 1
  let off := new.timing.enable != 1
  { h with
    once := new, onceOther := old, onceKept := kept, cal := h.cal.filter fun p => same p.1,
    hold := if new.timing = old.timing then h.hold else [], enabledNs := if on then startMono else h.enabledNs,
    lastRx := if on then none else h.lastRx,
    supply := if on || off then 3 else h.supply, trained := if off then none else h.trained,
    training := if off then false else h.training, linkFail := if off then false else h.linkFail,
    combos := if off then [] else h.combos, emitting := if off then false else h.emitting }

/-- The banks of a stream exchanged. -/
def swapBanks (kept : Bool) (r : StreamRt) : StreamRt :=
  { r with force := r.other, other := r.force, bank := 1 - r.bank, kept := kept }

/-- An order carried out on the records of its main section: a rollback brings the kept bank back, and does nothing where there is none
(R200). -/
def orderFirst (o : SwapOrder) (r : StreamRt) : StreamRt :=
  if o.rollback then (if r.kept then swapBanks false r else r) else swapBanks true r

/-- An order carried out on the records held once, by the first order for its frame from either main section (R200). -/
def orderOnce (side : Side) (o : SwapOrder) (start : Nat) (h : HeadRt) : HeadRt :=
  if h.onceSwapped = some (o.frame, otherSide side) then { h with onceSwapped := none }
  else
    let h := { h with onceSwapped := some (o.frame, side) }
    if o.rollback then (if h.onceKept then swapOnce start false h else h) else swapOnce start true h

/-- An order of one side of a head at the start of frame `n` at elapsed time `start`: carried out where it arrived a line period before, else
told as late once (R200). -/
def swapOrder (key : Nat) (side : Side) (n start line : Nat) (o : SwapOrder) (s : State) : State :=
  let h := headRt s key
  let r := sideOf h side
  if modDiff 48 n o.frame < 0 then s
  else if o.arrivedNs + line ≤ start then
    putHead key (orderOnce side o start (setSide h side { orderFirst o r with orders := r.orders.erase o })) s
  else if o.late then s
  else
    mapLate key side n
      (modSide key side (fun r => { r with orders := r.orders.map fun p => if p = o then { o with late := true } else p }) s)

/-- The orders of one side of a head at a frame start (R200). -/
def swapSide (key : Nat) (side : Side) (n start line : Nat) (s : State) : State :=
  (sideOf (headRt s key) side).orders.foldl (fun s o => swapOrder key side n start line o s) s

/-- A head that an order pending moves to another group (R188). -/
def moving (h : HeadRt) : Bool :=
  h.once.timing.enable = 1 && h.onceOther.timing.enable = 1 && h.onceOther.timing.syncGroup != h.once.timing.syncGroup
    && !(h.own.orders.isEmpty && h.twin.orders.isEmpty)

/-- SWAP_ORDER_RX (R200): the order waits for its frame; one for a frame that has started is late at once. A head that is
disabled and stays so has no frame start, and swaps at once. -/
def execSwapOrderRx (side : Side) (key frame : Nat) (rollback : Bool) (s : State) : Host.Outcome State Fault Refusal :=
  .next
    (if 31 < key || !s.ts.powered then s
     else
       let h := headRt s key
       let moves := h.onceOther.timing.syncGroup != h.once.timing.syncGroup
       let started := !moves && (h.frame.map fun n => decide (0 ≤ modDiff 48 n frame)).getD false
       let s := modSide key side (fun r => { r with orders := r.orders ++ [⟨frame, rollback, s.time.mono, started⟩] }) s
       if h.once.timing.enable != 1 && h.onceOther.timing.enable != 1 then swapSide key side frame s.time.mono 0 s
       else if started then mapLate key side (h.frame.getD 0) s
       else s)

/-! ## Verdict bitmaps (R129, R206, R207) -/

/-- The bitmap of a side. -/
def bitmapOf (s : State) : Side → BitmapRt
  | .own => s.ts.own
  | .twin => s.ts.twin

/-- A bitmap replaced at this instant; what it held stays known for a millisecond, for pixels whose judge instant is earlier (R206). -/
def setBitmap (side : Side) (b : BitmapRt) (s : State) : State :=
  let old := bitmapOf s side
  let recent := old.past.filter fun p => s.time.mono < p.1 + 1000000
  let b := { b with past := if effectiveBits b = effectiveBits old then recent else (s.time.mono, effectiveBits old) :: recent }
  match side with
  | .own => s.modTs fun t => { t with own := b }
  | .twin => s.modTs fun t => { t with twin := b }

/-- A 16-bit sequence number. -/
def seq16 (n : Nat) : Nat := n % 65536

/-- A gap: every bit counts as not live until the next whole bitmap, with VERDICT_GAP (R129). -/
def bitmapGap (side : Side) (expected received : Nat) (s : State) : State :=
  tsRaise 0x0483 .port (if side = .own then 27 else 26) [it 2 expected, it 2 received] false
    (setBitmap side { bitmapOf s side with gap := true } s)

/-- A bit of a bitmap set or cleared. -/
def setBit (b : Bitmap) (k : Nat) (live : Bool) : Bitmap :=
  if live then b ||| (1#8192 <<< k) else b &&& ~~~(1#8192 <<< k)

/-- VERDICT_UPDATE_RX (R129, R206): applied in sequence; a damaged frame or a number out of sequence is a gap. -/
def execVerdictUpdateRx (side : Side) (crcOk : Bool) (seq : Nat) (entries : List (Nat × Bool)) (s : State) :
    Host.Outcome State Fault Refusal :=
  .next
    (if !s.ts.powered then s
     else
       let b := bitmapOf s side
       let next := seq16 (b.seq + 1)
       if !crcOk then bitmapGap side next next s
       else if seq != next then bitmapGap side next seq (setBitmap side { b with seq := seq16 (seq + entries.length - 1) } s)
       else
         setBitmap side
           { b with
             bits := entries.foldl (fun m p => setBit m p.1 p.2) b.bits, seq := seq16 (seq + entries.length - 1) } s)

/-- WHOLE_BITMAP_RX (R129, R206, R330): the copy is replaced at one instant, once both frames are accepted; a sequence number
that does not follow tells of a gap that it ends. -/
def execWholeBitmapRx (side : Side) (both : Bool) (seq : Nat) (bits : Bitmap) (s : State) : Host.Outcome State Fault Refusal :=
  .next
    (if !s.ts.powered || !both then s
     else
       let b := bitmapOf s side
       let s := if seq != b.seq && !b.gap then bitmapGap side b.seq seq s else s
       setBitmap side { bitmapOf s side with bits := bits, seq := seq, gap := false } s)

/-! ## Tokens (R209, R211, R225) -/

/-- Spans start at 0, leave no gap and do not overlap. -/
def spansJoin : Nat → List Span → Option Nat
  | x, [] => some x
  | x, p :: t => if p.xStart = x && p.length != 0 then spansJoin (x + p.length) t else none

/-- The checks of R225 on a span list. -/
def spansOk (width : Nat) (l : List Span) : Bool :=
  1 ≤ l.length && l.length ≤ Config.maxSpans && spansJoin 0 l = some width

/-- A line held ahead: at most 64 of a head and stream, each with the instant of its arrival (R211). -/
def holdAhead (now : Nat) (t : LineToken) (l : List (Nat × LineToken)) : List (Nat × LineToken) :=
  let l := l.filter fun x => !(x.2.frameNo = t.frameNo && x.2.line = t.line)
  if l.length < 64 then l ++ [(now, t)] else l

/-- A line of an earlier frame, one that the frame in progress has not, or one that is due already: it matches no line due (R211, R225). -/
def linePast (s : State) (h : HeadRt) (t : LineToken) : Bool :=
  match h.frame with
  | none => false
  | some n =>
    !moving h && (modDiff 48 t.frameNo n < 0
      || (t.frameNo = n && (h.once.timing.vActive ≤ t.line || pixelTime s t.head h t.line 0 ≤ s.time.mono)))

/-- A line token of a valid claim: held until its line is due, or LINE_HEADER (R211, R225). -/
def acceptLine (side : Side) (t : LineToken) (s : State) : State :=
  if linePast s (headRt s t.head) t then tsFault t.head 1 s
  else modSide t.head side (fun r => { r with ahead := holdAhead s.time.mono t r.ahead }) s

/-- A line token received: last_rx, and the stream's latest line (R214). -/
def hearLine (side : Side) (key : Nat) (s : State) : State :=
  modSide key side (fun r => { r with lineNs := some s.time.mono }) (putHead key { headRt s key with lastRx := some s.time.mono } s)

/-- LINE_TOKEN_RX (R208, R209, R211, R225): a valid token gives its stream its claim; a line is held until it is due. -/
def execLineTokenRx (side : Side) (crcOk : Bool) (t : LineToken) (s : State) : Host.Outcome State Fault Refusal :=
  .next
    (if !s.ts.powered || 31 < t.head then s
     else if !crcOk then tsFault t.head 0 s
     else
       let s := if t.idle then s else hearLine side t.head s
       if t.claim.high != 0 then s
       else
         let s := hearClaim side t.claim s
         let s := modSide t.head side (fun r => { r with claim := t.claim, tokenNs := some s.time.mono }) s
         let s := if side = .twin && ownPosition s = some t.claim.position then
             tsHeadEvent 0x0783 t.head [it 2 (claimWord (headRt s t.head).own.claim), it 2 (claimWord t.claim)] s
           else s
         let s := tellClaim t.head side s
         if t.idle then s else acceptLine side t s)

/-- A line or idle token was sent for the head within 16 µs (R209). -/
def tokenRecent (s : State) (key : Nat) : Bool :=
  ((mapGet s.compose.tokens key).map fun t => decide (s.time.mono < t + 16000)).getD false

/-- IDLE_TOKEN_SEND (R209, R329): for a head of the scene in force, of this module (0 to 31) or its twin (32 to 63), once 16 µs have passed
without a token. -/
def execIdleTokenSend (key : Nat) (s : State) : Host.Outcome State Fault Refusal :=
  .next
    (if inService s && key < 64 && headOn s.scene.inForce key && (key < 32 || s.cascade.twinUp) && !tokenRecent s key then
      let c := (mapGet s.compose.heads key).map CompHead.now
      let frame := (c.map CompFrame.frame).getD 0
      let claim := (c.map fun c => claimOf s c.start).getD (claimNow s)
      sendToken key
        { frameNo := frame, line := 0xFFFF, head := key % 32, idle := true, claim := claim, spans := [], pixels := [] } s
    else s)

/-- CLAIM_STATE (R227). -/
def execClaimState (key : Nat) (side : Side) (s : State) : Host.Outcome State Fault Refusal :=
  .next (if 31 < key || !s.ts.powered then s else tellClaim key side s)

/-! ## The end of a frame: Calipers and the return path (R217 to R223) -/

/-- An event of a Calipers rectangle. -/
def calEvent (code key : Nat) (r : CalRect) (items : Items) (s : State) : State := tsRaise code .head key items r.attention s

/-- Key of a Calipers rectangle's limiter. -/
def calKey (code key i : Nat) : Nat := limKey code (key * 16 + i) 1

/-- A rectangle of mode 1 after a frame (R218). -/
def calExpected (key i : Nat) (r : CalRect) (rt : CalRt) (crc frame unrel : Nat) (s : State) : Bool × State :=
  let k := calKey 0x0787 key i
  if crc != r.expectedCrc then
    let s := if rt.mismatch then s else s.modTs fun t => { t with limiters := mapDel t.limiters k }
    (true, tsLimited k 1 0x0787 key
      (fun c => [it 1 i, it 4 r.expectedCrc, it 4 crc, it 6 frame, it 4 c, it 1 unrel]) r.attention s)
  else (false, if rt.mismatch then calEvent 0x0788 key r [it 1 i, it 6 frame, it 1 unrel] s else s)

/-- The counter of a rectangle of mode 2 after a frame (R219). -/
def calCount (rt : CalRt) (crc : Nat) (p : Option Nat) : Nat :=
  match rt.crc with
  | none => rt.c
  | some old =>
    if old != crc then 0
    else
      match rt.p, p with
      | some a, some b => if 0 < modDiff 40 b a then rt.c + 1 else rt.c
      | _, _ => rt.c

/-- A rectangle of mode 2 after a frame (R219). -/
def calChange (key i : Nat) (r : CalRect) (rt : CalRt) (c : Nat) (p : Option Nat) (frame unrel : Nat) (s : State) : State :=
  let k := calKey 0x0789 key i
  if c < r.changeN then s
  else
    let s := if rt.c < r.changeN then s.modTs fun t => { t with limiters := mapDel t.limiters k } else s
    tsLimited k 1 0x0789 key (fun _ => [it 1 i, it 4 c, it 8 (p.getD 0xFFFFFFFFFFFFFFFF), it 6 frame, it 1 unrel]) r.attention s

/-- One Calipers rectangle after a frame (R217 to R220). -/
def calFrame (key frame i : Nat) (r : CalRect) (s : State) : State :=
  let h := headRt s key
  if r.mode = 0 then s
  else
    let rt := mapGetD h.cal i calInit
    let crc := (crc32c (rectBytes h r.rect)).toNat
    let p := freshest h r.rect
    let unrel := flag h.calUnreliable
    let c := calCount rt crc p
    let e := if r.mode = 1 then calExpected key i r rt crc frame unrel s else (false, s)
    let s := if r.mode = 2 then calChange key i r rt c p frame unrel e.2 else e.2
    let s := if r.mode = 3 then calEvent 0x078A key r [it 1 i, it 4 crc, it 6 frame, it 1 unrel] s else s
    let h := headRt s key
    putHead key
      { h with cal := mapPut h.cal i { crc := some crc, frame := frame, c := if r.mode = 2 then c else rt.c, p := p, mismatch := e.1, since := 0 } } s

/-- The source of a window, from the entry that judges it. -/
def windowSource (h : HeadRt) (w : Nat) : Nat :=
  ((mapGet (sideOf h ((h.passed.orElse fun _ => h.lastPassed).getD .own)).force.entries w).map MapEntry.sourceId).getD 0

/-- A window's summary of the frame (R222). -/
def summaryOf (h : HeadRt) (w : Nat) (a : WinAcc) : WindowSummary :=
  { window := w, scorchedAny := a.scorched != 0, scorchedAll := a.scorched = a.pixels, voidAny := a.void, heldAny := a.held,
    concealedAny := a.concealed, mismatchAny := a.mismatch, sourceId := windowSource h w, scorchedPx := a.scorched,
    ageMinUs := min (a.ageMin.getD 0xFFFFFFFF) 0xFFFFFFFF,
    ageMaxUs := if a.undefinedAge then 0xFFFFFFFF else min (a.ageMax.getD 0xFFFFFFFF) 0xFFFFFFFF }

/-- The header of a returned frame (R222). -/
def returnHeader (key frame : Nat) (h : HeadRt) : ReturnHeader :=
  { frameNo := frame, head := key, state := h.startState, frameStartNs := h.startNs, claim := h.passedClaim,
    composedBy := match h.passed with
      | some d => sideNum d
      | none => 2,
    linesReplayed := h.replayed, width := h.once.timing.hActive, height := h.once.timing.vActive, plate := h.supply = 5,
    uUnbounded := h.startU.isNone, calUnreliable := h.calUnreliable, uUs := min (h.startU.getD 0xFFFFFFFF) 0xFFFFFFFF,
    scorchedPx := h.scorchedPx, windows := h.windows.map fun p => summaryOf h p.1 p.2 }

/-- The frame returned, or discarded and counted where the main section does not take it (R222, R223). -/
def returnFrame (key frame : Nat) (s : State) : State :=
  let h := headRt s key
  if h.returnDiv = 0 || frame % h.returnDiv != 0 then s
  else if mainAccepts s && h.returned.length < 4 then
    emit (.message .toMain .ret "RETURN_FRAME" [(key : Int), frame])
      (putHead key { h with returned := (returnHeader key frame h, p010Frame h) :: h.returned } s)
  else tsLimited (limKey 0x078D key 0) 1 0x078D key (fun c => [it 4 c]) false s

/-- A frame of a head ends: its Calipers and its return (R217 to R222). -/
def finishFrame (key : Nat) (s : State) : State :=
  let h := headRt s key
  match h.frame with
  | none => s
  | some n =>
    let s := putHead key { h with lastScorched := some h.scorchedPx } s
    if h.once.timing.enable != 1 || h.hstate = 8 then s
    else returnFrame key n (h.once.calipers.foldl (fun s p => calFrame key n p.1 p.2 s) s)

/-! ## The frame start (R184, R185, R200, R210, R214, R215) -/

/-- A frame start as it falls due: group, frame number, start in elapsed time, by how much the blanking before it was lengthened, frames
skipped, whether this head is the first to start it. -/
structure NextFrame where
  (group frame start longer skipped : Nat)
  (fresh : Bool)
deriving DecidableEq, Repr

/-- Timings of the Tailstock's heads in a group. -/
def tsTimings (s : State) (g : Nat) : List HeadTiming :=
  (s.ts.heads.filter fun p => showsGroup g p.2).map fun p => p.2.once.timing

/-- The first frame of a group that the Tailstock runs: a FIXED one shows the schedule's, another the one latched; without a main section it
is frame 0, now (DEDUCED, notes/assumptions/94). -/
def openingFrame (s : State) (r : SyncGroup) (x : GroupRt) : Option GroupNext :=
  if r.mode = 0 then (schedIndex r s.time.spindle).map fun k => ⟨k, (schedMono s r k).toNat, 0, 0⟩
  else match x.latched with
    | some m => some ⟨m, x.nextStart, 0, 0⟩
    | none => if mainUp s then none else some ⟨0, s.time.mono, 0, 0⟩

/-- The frame of a group that starts next. A group whose frame starts have lapsed for a period or more, as through IDLE_LINK, goes on at the
schedule, or at its next frame number on the period that runs (DEDUCED, notes/assumptions/94). -/
def dueFrame (s : State) (g : Nat) (r : SyncGroup) (x : GroupRt) : Option GroupNext :=
  match x.frame with
  | none => openingFrame s r x
  | some f =>
    let n := groupNext s r (tsTimings s g) x f x.startNs
    if s.time.mono < n.start + periodNs r then some n
    else if r.mode = 0 then (openingFrame s r x).filter fun n => decide (0 < modDiff 48 n.frame f)
    else some { n with start := s.time.mono - (s.time.mono - n.start) % periodNs r }

/-- The frame that a head starts now in group `g`; `prev` is the head's frame in that group. None when it has started it. -/
def nextFrameIn (s : State) (g : Nat) (prev : Option Nat) : Option NextFrame :=
  match mapGet s.ts.groupRecs g with
  | none => none
  | some r =>
    let x := groupRt s g
    match (dueFrame s g r x).filter fun n => n.start ≤ s.time.mono with
    | some n => some ⟨g, n.frame, n.start, n.longer, n.skipped, true⟩
    | none => x.frame.bind fun f => if prev = some f then none else some ⟨g, f, x.startNs, 0, 0, false⟩

/-- An order for a frame up to this one had arrived by its start. -/
def ordered (h : HeadRt) (f : NextFrame) : Bool :=
  (h.own.orders ++ h.twin.orders).any fun o => 0 ≤ modDiff 48 f.frame o.frame && o.arrivedNs ≤ f.start

/-- The frame that a head starts now: in the group its staged timing names where an order moves or enables it there, and until
then it stays in blanking; else in its own (R172, R188). -/
def nextFrame (s : State) (h : HeadRt) : Option NextFrame :=
  if moving h || (h.once.timing.enable != 1 && h.onceOther.timing.enable = 1) then
    (nextFrameIn s h.onceOther.timing.syncGroup none).filter (ordered h)
  else if h.once.timing.enable = 1 then nextFrameIn s h.once.timing.syncGroup h.frame
  else none

/-- SYNC_REPHASE where the blanking before this frame start was lengthened (R185, R191, R192); every head of the group counts it. -/
def rephase (f : NextFrame) (s : State) : State :=
  if f.fresh && f.longer != 0 then
    let s := s.modTs fun t =>
      { t with heads := t.heads.map fun p => if showsGroup f.group p.2 then (p.1, { p.2 with rephases := p.2.rephases + 1 }) else p }
    tsHeadEvent 0x0687 (tsGroupScope s f.group) [it 2 f.group, it 8 f.longer, it 4 f.skipped] s
  else s

/-- The stream that the arbiter passes (R210). -/
def arbiter (s : State) (h : HeadRt) : Option Side :=
  let a := effClaim s h .own
  let b := effClaim s h .twin
  if a = 0 && b = 0 then none else if b < a then some .own else some .twin

/-- A line of frame `n` is present on a stream: it arrived before the instant at which it is due (R211). -/
def linePresent (h : HeadRt) (side : Side) (n line due : Nat) : Option LineToken :=
  ((sideOf h side).ahead.find? fun t => t.2.frameNo = n && t.2.line = line && t.1 < due).map Prod.snd

/-- hold_limit of a head in ns (R199). -/
def holdLimitNs (h : HeadRt) : Nat :=
  (if h.once.tsHead.holdLimitMs = 0 then 2000 else h.once.tsHead.holdLimitMs) * 1000000

/-- The supply of a head from a frame start on (R214): 3 ACTIVE, 4 HOLDING, 5 PLATE. -/
def supplyAt (h : HeadRt) (n start : Nat) : Nat :=
  let live := h.passed.isSome
  let first := match h.passed with
    | some d => (linePresent h d n 0 start).isSome
    | none => false
  if h.supply = 5 then (if live && first then 3 else 5)
  else if lastRxOf h + holdLimitNs h ≤ start then 5
  else if live then 3 else 4

/-- The supply changes, with HOLD_STATE (R214). -/
def setSupply (key new : Nat) (s : State) : State :=
  let h := headRt s key
  if h.supply = new then s
  else
    let s := putHead key { h with supply := new, plates := if new = 5 then h.plates + 1 else h.plates } s
    tsHeadEvent 0x0780 key [it 1 h.supply, it 1 new, it 6 (h.frame.getD 0), it 8 (s.time.mono - lastRxOf h)] s

/-- SWITCHOVER where the arbiter passes the other stream than the last one passed (R215). -/
def switchover (key n start : Nat) (s : State) : State :=
  let h := headRt s key
  match h.passed, h.lastPassed with
  | some new, some old =>
    if new = old then s
    else
      let gap := if effClaim s h old != 0 then 0 else start - ((sideOf h old).tokenNs).getD start
      tsHeadEvent 0x0781 key
        [it 1 (sideNum old), it 1 (sideNum new), it 2 (claimWord (sideOf h old).claim), it 2 (claimWord (sideOf h new).claim), it 8 gap,
         it 6 n] (putHead key { h with switchovers := h.switchovers + 1, lastPassed := some new } s)
  | some new, none => putHead key { h with lastPassed := some new } s
  | none, _ => s

/-- A group that no enabled head names any more has ceased to exist (R182, R267). -/
def groupEnds (g : Nat) (s : State) : State :=
  if groupShown s g then s else overlayGroupGone g (s.modTs fun t => { t with groups := mapDel t.groups g, groupRecs := mapDel t.groupRecs g })

/-- At a frame start of the lowest-numbered sync group the scene generation goes to the twin (R299). -/
def tellGeneration (group : Nat) (s : State) : State :=
  if mainUp s && s.cascade.twinUp
      && (s.scene.inForce.groups.map Prod.fst).find? (fun g => !(groupHeads s.scene.inForce g).isEmpty) = some group then
    emit (.message .twin .control "SCENE_GEN" [(s.scene.gen : Int)]) s
  else s

/-- The group begins a frame. -/
def groupBegins (f : NextFrame) (s : State) : State :=
  if f.fresh then
    tellGeneration f.group
      (setGroup f.group
        { groupRt s f.group with frame := some f.frame, startNs := f.start, wallNs := wallOf s f.start, rephaseDue := false } s)
  else s

/-- Lines held ahead that are not of a frame: they match no line due from here on (R211, R225). -/
def staleLines (r : StreamRt) (n : Nat) : Nat := (r.ahead.filter fun t => t.2.frameNo != n).length

/-- A head begins a frame with nothing emitted; lines of other frames are let go, glyphs loaded since take effect (R211,
R222, R224), and a link trained emits from here (R173). -/
def beginFrame (key : Nat) (f : NextFrame) (s : State) : State :=
  let h := headRt s key
  let keep (r : StreamRt) : StreamRt := { r with ahead := r.ahead.filter fun t => t.2.frameNo = f.frame }
  let p := arbiter s h
  let ready := h.training && h.trained.isSome
  let s := putHead key
    { h with
      frame := some f.frame, startNs := wallOf s f.start, startMono := f.start, line := none, own := keep h.own, twin := keep h.twin,
      passed := p, passedClaim := (p.map fun d => effClaim s h d).getD 0, emitted := [], windows := [], scorchedPx := 0, ages := [],
      mismatchTold := false, noLabel := [], replayed := 0, glyphs := s.ts.glyphs, training := h.training && !ready,
      emitting := h.emitting || ready, startU := uUsAt s f.start } s
  tsFaults key 1 (staleLines h.own f.frame + staleLines h.twin f.frame) s

/-- The supply, the link and the state of a head at its frame start (R170, R187, R214). -/
def settleFrame (key n start : Nat) (s : State) : State :=
  let s := switchover key n start s
  let s := setSupply key (supplyAt (headRt s key) n start) s
  let s := settleAtStart key (trainIfNeeded key s)
  putHead key { headRt s key with startState := (headRt s key).hstate } s

/-- A head that a transaction disables enters DISABLED at the frame start of the apply frame, and runs no frame from then on (R172). -/
def leaveFrames (key n : Nat) (s : State) : State :=
  let s := settleHead key (putHead key { headRt s key with frame := some n } s)
  putHead key { headRt s key with frame := none, line := none } s

/-! ## Lines (R180, R201, R211 to R214) -/

/-- A pixel group of format 3, 40 bits, most significant first; of format 2, three bytes. -/
def pixelGroups (format : Nat) : List Rgb → List Byte
  | [] => []
  | [c] => if format = 3 then beBytes 5 (c.g * 1073741824 + c.r * 1048576 + c.b * 1024) else itemBytes [it 1 c.r, it 1 c.g, it 1 c.b]
  | c :: d :: t =>
    if format = 3 then beBytes 5 (c.g * 1073741824 + c.r * 1048576 + c.b * 1024 + d.r) ++ pixelGroups format t
    else itemBytes [it 1 c.r, it 1 c.g, it 1 c.b] ++ pixelGroups format (d :: t)

/-- Packet `j` of a line of an egress head, whole as soon as its last pixel has been judged (R178, R180). -/
def putPacket (key : Nat) (n : LineNow) (j : Nat) (s : State) : State :=
  let h := headRt s key
  let t := h.once.timing
  let o := egressOut h.once.output
  let w := packetPixels t
  let data := pixelGroups t.format (wireLine t.format t.narrowRange ((n.out.reverse.drop (j * w)).take w))
  let lane := (mapGetD s.ts.egress o.port EgressPort.init).lane
  let last := n.line + 1 = t.vActive && j + 1 = linePackets t
  emit (.egress key n.line (departure s h n.line j) lane.vlan lane.pcp o.dscp o.ipv6 (laneAddress lane o.ipv6) o.group o.udpPort
      (rtp20 o.payloadType h.rtpSeq (h.startNs * 90000 / 1000000000 % 4294967296) o.ssrc last n.line (j * w) data))
    (putHead key { h with rtpSeq := idx32 (h.rtpSeq + 1) } s)

/-- The pixels of a line emitted from column `from` to column `n.x` put on the head's output, where it emits (R169, R171, R178, R180). -/
def putPixels (key : Nat) (n : LineNow) (from_ : Nat) (s : State) : State :=
  let h := headRt s key
  let t := h.once.timing
  if !(3 ≤ h.hstate && h.hstate ≤ 5) then s
  else if key < 16 then
    if h.emitting && from_ < n.x then
      emit (.line key (h.frame.getD 0) n.line from_ t.narrowRange
        (wireLine t.format t.narrowRange ((n.out.take (n.x - from_)).reverse))) s
    else s
  else
    let done := (List.range (linePackets t)).filter fun j =>
      from_ < min ((j + 1) * packetPixels t) t.hActive && min ((j + 1) * packetPixels t) t.hActive ≤ n.x
    done.foldl (fun s j => putPacket key n j s) s

/-- WINDOW_MISMATCH, once a frame of a head (R202). -/
def tellMismatchOf (key : Nat) (m : Option (Nat × Nat × Nat × Nat × Nat)) (s : State) : State :=
  let h := headRt s key
  match m with
  | some (w, src, layer, esrc, elayer) =>
    if h.mismatchTold then s
    else
      tsHeadEvent 0x0785 key [it 1 w, it 2 src, it 1 layer, it 2 esrc, it 1 elayer, it 6 (h.frame.getD 0)]
        (putHead key { h with mismatchTold := true } s)
  | none => s

/-- The pixels of the line being emitted whose emission instants have come: each judged with what held at its own instants (R201, R203), and
put on the output. A line emitted whole is kept for the Calipers and the return path. -/
def advanceLine (key : Nat) (s : State) : State :=
  let h := headRt s key
  match h.line with
  | none => s
  | some n =>
    let r := emitRun s key h n n.x n.rest (accOf h n)
    let a := r.2.2
    let m := { n with rest := r.2.1, x := r.1, out := a.out, fresh := a.fresh }
    let whole := r.2.1.isEmpty
    if r.1 = n.x && !whole then s
    else
      let s := putHead key
        { h with
          windows := a.windows, ages := a.ages, scorchedPx := a.scorchedPx, noLabel := a.noLabel, line := if whole then none else some m,
          emitted := if whole then mapPut h.emitted n.line { pixels := a.out.reverse, fresh := a.fresh.reverse } else h.emitted } s
      putPixels key m n.x (tsFaults key 7 a.disagreed (tellMismatchOf key a.mismatch s))

/-- Every line being emitted, as time passes. -/
def advanceLines (s : State) : State := s.ts.heads.foldl (fun s p => if p.2.line.isSome then advanceLine p.1 s else s) s

/-- The errors that reading a line's judging material meets, told; a bitmap one of whose words fails its parity check counts as not live
until the next whole bitmap (R225). -/
def tellErrors (key : Nat) (k : LineKind) (e : LineErrors) (s : State) : State :=
  let judged : Option Side := match k with
    | .stream d => some d
    | .held d => some d
    | _ => none
  let s := match judged with
    | some d =>
      let s := if e.entries.isEmpty then s else tsFault key 3 s
      if e.bitmap then tsFault key 5 (setBitmap d { bitmapOf s d with gap := true } s) else s
    | none => s
  if e.labels.isEmpty && e.colours.isEmpty then s else tsFault key 4 s

/-- A line begins to be emitted. -/
def beginLine (key line : Nat) (k : LineKind) (spans : List Span) (pixels : List Rgb) (e : LineErrors) (s : State) : State :=
  let s := tellErrors key k e s
  let n : LineNow := { line := line, kind := k, spans := spans, rest := pixels, x := 0, out := [], fresh := [], errors := e }
  advanceLine key (putHead key { headRt s key with line := some n } s)

/-- A line of pixels that belong to no window: of the plate, or empty (R50, R213). -/
def plainLine (key line : Nat) (k : LineKind) (e : LineErrors) (s : State) : State :=
  beginLine key line k [] (List.replicate (headRt s key).once.timing.hActive ⟨0, 0, 0⟩) e s

/-- The passed stream has sent no line for 64 µs (R214). -/
def streamSilent (s : State) (h : HeadRt) : Bool :=
  match h.passed with
  | none => true
  | some d => ((sideOf h d).lineNs.map fun t => decide (t + Config.claimNs ≤ s.time.mono)).getD true

/-- A line that is not present (R211 to R214): from hold memory, or empty; LINE_REPLAYED while a stream is passed, and HOLDING
once that stream is silent. -/
def replayLine (key line : Nat) (e : LineErrors) (s : State) : State :=
  let h := headRt s key
  let s := putHead key { h with replayed := h.replayed + 1, replayedTotal := h.replayedTotal + 1 } s
  let s := if streamSilent s h && h.supply = 3 then settleHead key (setSupply key 4 s) else s
  let s := if h.passed.isSome then
      tsLimited (limKey 0x0784 key 0) 1 0x0784 key (fun c => [it 4 c, it 6 (h.frame.getD 0)]) false s
    else s
  match mapGet h.hold line with
  | some l =>
    if l.bad then plainLine key line .empty e (tsFault key 6 s)
    else beginLine key line (.held l.side) (l.spans.map fun p => { p with held := true }) l.pixels e s
  | none => plainLine key line .empty e s

/-- A line that is present: emitted, and kept in hold memory as composed (R211, R212). -/
def presentLine (key line : Nat) (side : Side) (t : LineToken) (e : LineErrors) (s : State) : State :=
  let h := headRt s key
  let new : HeldLine := { frameNo := t.frameNo, side := side, spans := t.spans, pixels := t.pixels, bad := false }
  let r := sideOf h side
  let s := putHead key
    (setSide { h with hold := mapPut h.hold line new } side
      { r with ahead := r.ahead.filter fun x => !(x.2.frameNo = t.frameNo && x.2.line = line) }) s
  beginLine key line (.stream side) t.spans t.pixels e s

/-- A line that falls due: of the plate, of the stream passed, or from hold memory; one whose span list is faulty is not present
(R211, R213, R225). -/
def dueLine (key line n : Nat) (e : LineErrors) (s : State) : State :=
  let h := headRt s key
  if h.supply = 5 then plainLine key line .plate e s
  else
    match h.passed.bind fun d => (linePresent h d n line (pixelTime s key h line 0)).map fun t => (d, t) with
    | some (d, t) =>
      if spansOk h.once.timing.hActive t.spans && t.pixels.length = h.once.timing.hActive then presentLine key line d t e s
      else replayLine key line e (tsFault key 2 s)
    | none => replayLine key line e s

/-- LINE_DUE (R211): the instant at which a line's first pixel leaves has come, and the line before is emitted. -/
def execLineDue (key : Nat) (l : DueLine) (s : State) : Host.Outcome State Fault Refusal :=
  .next
    (if 31 < key || !headServed s key then s
     else
       let s := advanceLine key s
       let h := headRt s key
       match h.frame with
       | none => s
       | some n =>
         if h.line.isSome || h.once.timing.vActive ≤ l.line || mapHas h.emitted l.line || s.time.mono < pixelTime s key h l.line 0 then s
         else dueLine key l.line n l.errors s)

/-! ## The frame start (R172, R184, R188, R200, R210) -/

/-- A frame starts at a head: the frame before ends, banks swap, the group and the head begin it (R184, R200, R210). -/
def startFrame (key : Nat) (f : NextFrame) (s : State) : State :=
  let old := (headRt s key).once.timing
  let s := finishFrame key (rephase f (advanceLine key s))
  let line := orderLine s (headRt s key)
  let s := swapSide key .twin f.frame f.start line (swapSide key .own f.frame f.start line s)
  let now := (headRt s key).once.timing
  let s := recordFrameStart key now s
  let s :=
    if now.enable = 1 then emit (.frameStart key f.frame) (settleFrame key f.frame f.start (beginFrame key f (groupBegins f s)))
    else leaveFrames key f.frame s
  if old.enable = 1 && (now.enable != 1 || now.syncGroup != old.syncGroup) then groupEnds old.syncGroup s else s

/-- FRAME_START (R210). -/
def execFrameStart (key : Nat) (s : State) : Host.Outcome State Fault Refusal :=
  .next
    (if 31 < key || !s.ts.powered || s.module.mode = .idleLink then s
     else
       match nextFrame s (headRt s key) with
       | some f => startFrame key f s
       | none => s)

/-- HOLD_LIMIT (R214): the head is at a frame start at or after last_rx + hold_limit, with nothing of the frame emitted. -/
def execHoldLimit (key : Nat) (s : State) : Host.Outcome State Fault Refusal :=
  .next
    (let h := headRt s key
     if key < 32 && headServed s key && h.frame.isSome && h.emitted.isEmpty && h.line.isNone && h.supply != 5
         && lastRxOf h + holdLimitNs h ≤ h.startMono then settleHead key (setSupply key 5 s)
     else s)

/-! ## Self-check and scrub (R221, R225) -/

/-- CALIPERS_SELFCHECK (R221): the value obtained against the stored one. -/
def execCalipersSelfcheck (key value : Nat) (s : State) : Host.Outcome State Fault Refusal :=
  .next
    (let h := headRt s key
     if 31 < key || !headServed s key then s
     else if value = Config.selfCheckValue then putHead key { h with calUnreliable := false } s
     else tsFault key 8 (tsHeadEvent 0x078B key [it 4 value] (putHead key { h with calUnreliable := true } s)))

/-- HOLD_SCRUB (R225): a held line's words are read and corrected; two errors in one word leave the line bad. -/
def execHoldScrub (key line errors : Nat) (s : State) : Host.Outcome State Fault Refusal :=
  .next
    (let h := headRt s key
     match mapGet h.hold line with
     | none => s
     | some l =>
       if errors < 2 || !s.ts.powered then s
       else tsFault key 6 (putHead key { h with hold := mapPut h.hold line { l with bad := true } } s))

/-! ## Commands (chapter "The Tailstock output section") -/

/-- A Tailstock command: refused while the internal lanes are down. -/
def tsCommand (ok : Bool) (body : Ticket → State → State) (tk : Ticket) (s : State) : State :=
  if !ok then complete tk 0x0174 [] s else if internalUp s then body tk s else complete tk 0x0570 [] s

/-- TAILSTOCK_GLYPH_LOAD (R224). -/
def tailstockGlyphLoadBody (first count : Nat) (glyphs : List Byte) (tk : Ticket) (s : State) : State :=
  tsCommand (0x80 ≤ first && first ≤ 0xDF && 1 ≤ count && count ≤ 96 && first + count ≤ 0xE0) (fun tk s =>
    if !tk.dmaOk then complete tk 0x0500 [] s
    else
      complete tk 0 [] (s.modTs fun t =>
        { t with
          glyphs := (List.range count).foldl (fun m i => mapPut m (first + i) ((glyphs.drop (16 * i)).take 16)) t.glyphs })) tk s

/-- TAILSTOCK_GLYPH_LOAD (R224). -/
def execTailstockGlyphLoad (d : Desc) (first count : Nat) (glyphs : List Byte) (s : State) : Host.Outcome State Fault Refusal :=
  .next (onTake d (.tailstockGlyphLoad first count glyphs) (tailstockGlyphLoadBody first count glyphs) s)

/-- CALIPERS_READ: 16 records of 16 bytes: mode, CRC, frame number, c, the unreliable flag. -/
def calipersReadBody (key : Nat) (tk : Ticket) (s : State) : State :=
  tsCommand (key ≤ 31) (fun tk s =>
    let h := headRt s key
    let one (i : Nat) : Items :=
      let rt := mapGetD h.cal i calInit
      [it 1 (mapGetD h.once.calipers i resetCal).mode, it 4 (rt.crc.getD 0), it 6 rt.frame, it 4 rt.c, it 1 (flag h.calUnreliable)]
    completeWrite tk ((List.range 16).flatMap one) [] s) tk s

/-- CALIPERS_READ (R221). -/
def execCalipersRead (d : Desc) (key : Nat) (s : State) : Host.Outcome State Fault Refusal :=
  .next (onTake d (.calipersRead key) (calipersReadBody key) s)

/-- The Tailstock status record of a head. -/
def tailstockStatusItems (s : State) (key : Nat) : Items :=
  let h := headRt s key
  let passed := match h.passed with
    | some d => sideNum d
    | none => 2
  [it 1 h.hstate, it 1 passed, it 2 (claimWord h.own.claim), it 2 (effClaim s h .own), it 2 (claimWord h.twin.claim),
   it 2 (effClaim s h .twin), it 8 (s.time.wall + lastRxOf h - s.time.mono), it 1 h.own.bank, it 1 h.twin.bank,
   it 8 h.replayedTotal, it 8 h.switchovers, it 8 h.plates] ++ (List.range 9).map fun c => it 8 (mapGetD h.faults c 0)

/-- TAILSTOCK_STATUS. -/
def tailstockStatusBody (key : Nat) (tk : Ticket) (s : State) : State :=
  tsCommand (key ≤ 31) (fun tk s => completeRecord tk 128 (tailstockStatusItems s key) [] s) tk s

/-- TAILSTOCK_STATUS. -/
def execTailstockStatus (d : Desc) (key : Nat) (s : State) : Host.Outcome State Fault Refusal :=
  .next (onTake d (.tailstockStatus key) (tailstockStatusBody key) s)

/-- VERDICT_READ (R207): the 1,024 bytes of a bitmap as held. -/
def verdictReadBody (select : Nat) (tk : Ticket) (s : State) : State :=
  tsCommand (select ≤ 1) (fun tk s =>
    let b := if select = 0 then s.ts.own else s.ts.twin
    completeWrite tk [(1024, (b.bits.toNat : Int))] [] s) tk s

/-- VERDICT_READ (R207). -/
def execVerdictRead (d : Desc) (select : Nat) (s : State) : Host.Outcome State Fault Refusal :=
  .next (onTake d (.verdictRead select) (verdictReadBody select) s)

/-- A held line's pixels of a rectangle as ARGB2101010; zeros for a line that is empty. -/
def holdPixels (h : HeadRt) (r : Rect) (y : Nat) : Items :=
  match mapGet h.hold y with
  | some l => ((l.pixels.drop r.x).take r.w).flatMap argb10
  | none => List.replicate r.w (it 4 0)

/-- A held line's span list. -/
def holdSpans (key : Nat) (h : HeadRt) (y : Nat) : Items :=
  match mapGet h.hold y with
  | some l => spanListItems l.frameNo y key l.spans
  | none => []

/-- HOLD_READ (R212). -/
def holdReadBody (key : Nat) (r : Rect) (tk : Ticket) (s : State) : State :=
  let t := (headRt s key).once.timing
  tsCommand (key ≤ 31 && 1 ≤ r.w && 1 ≤ r.h && r.x + r.w ≤ t.hActive && r.y + r.h ≤ t.vActive) (fun tk s =>
    let h := headRt s key
    let rows := (List.range r.h).map fun j => r.y + j
    completeWrite tk (rows.flatMap (holdPixels h r) ++ rows.flatMap (holdSpans key h)) [] s) tk s

/-- HOLD_READ (R212). -/
def execHoldRead (d : Desc) (key : Nat) (r : Rect) (s : State) : Host.Outcome State Fault Refusal :=
  .next (onTake d (.holdRead key r) (holdReadBody key r) s)

/-- The 3,056 bytes of TAILSTOCK_FONT_READ: the ROM font, then the loadable glyphs, 0xFF for one never loaded. -/
def fontItems (s : State) : Items :=
  (List.range' 0x20 95).flatMap (fun c => (List.range 16).map fun r => it 1 (Config.romGlyphRow c r % 256))
    ++ (List.range' 0x80 96).flatMap fun c => (List.range 16).map fun r =>
      it 1 (((mapGet s.ts.glyphs c).map fun g => ((g[r]?).getD 0).toNat).getD 0xFF)

/-- TAILSTOCK_FONT_READ (R47). -/
def tailstockFontReadBody (tk : Ticket) (s : State) : State := tsCommand true (fun tk s => completeWrite tk (fontItems s) [] s) tk s

/-- TAILSTOCK_FONT_READ (R47). -/
def execTailstockFontRead (d : Desc) (s : State) : Host.Outcome State Fault Refusal :=
  .next (onTake d .tailstockFontRead tailstockFontReadBody s)

end Sys2Proof.Machine
end

