-- ==== Sys2Proof/Machine/Validation.lean ====
section
/-! DEFINITION. Scene validation (R303 to R307, R473): the checks of every chapter on the staged bank, as report entries in the
order of the table of validation checks, and the module summary. -/

namespace Sys2Proof.Machine

open Sys2Proof

/-! ## What is checked -/

/-- Heads that are enabled in the staged bank and whose records there differ from those in force (R303). -/
def checkedHeads (s : State) (b : SceneBank) : List Nat :=
  (List.range 64).filter fun k => headOn b k && headScene b k != headScene s.scene.inForce k

/-- Groups that heads of a bank name. -/
def namedGroups (b : SceneBank) : List Nat :=
  (((List.range 64).filter fun k => headOn b k).map fun k => (headScene b k).timing.syncGroup).eraseDups

/-- Affected groups: those that a changed head names in either bank, where it is enabled (R303, R309). -/
def affectedGroups (a b : SceneBank) : List Nat :=
  let changed := (List.range 64).filter fun k => headScene a k != headScene b k
  let names (x : SceneBank) : List Nat := (changed.filter fun k => headOn x k).map fun k => (headScene x k).timing.syncGroup
  sortBy (fun x y => x ≤ y) (names a ++ names b).eraseDups

/-- A failed check of a head's record. -/
def failure (s : State) (head item index code detail : Nat) : ReportEntry :=
  { position := position s, head := head, itemType := item, index := index, code := code, entryKind := 0, detail := detail }

/-- A list with one failure where a check fails. -/
def failIf (bad : Bool) (e : ReportEntry) : List ReportEntry := if bad then [e] else []

/-- Fields of a record as body offset and whether the field is in range: the failure of the first that is not, at its offset
in the item, whose header is 8 bytes (R307, R473). -/
def fieldFailure (s : State) (head item index code : Nat) (l : List (Nat × Bool)) : List ReportEntry :=
  match l.find? fun p => !p.2 with
  | some (o, _) => [failure s head item index code (8 + o)]
  | none => []

/-- A value in 10 bits. -/
def rgbOk (c : Rgb) : Bool := c.r ≤ 1023 && c.g ≤ 1023 && c.b ≤ 1023

/-! ## Heads and sync groups (R168, R183) -/

/-- Head timing (R168, R473). -/
def timingFields (t : HeadTiming) : List (Nat × Bool) :=
  [(0, t.enable ≤ 1), (1, t.syncGroup ≤ 255), (4, 64 ≤ t.hActive && t.hActive ≤ 4096 && (t.format != 3 || t.hActive % 2 = 0)),
   (6, 8 ≤ t.hFront), (8, 8 ≤ t.hSync), (10, 8 ≤ t.hBack && hTotal t ≤ 8192), (12, 64 ≤ t.vActive && t.vActive ≤ 2160),
   (14, 1 ≤ t.vFront), (16, 1 ≤ t.vSync), (18, 1 ≤ t.vBack && 6 ≤ vBlank t && vTotal t ≤ 4096), (20, t.rz)]

/-- The format matches the head's kind, and format 3 is not narrow_range (R168). -/
def formatFits (key : Nat) (t : HeadTiming) : Bool :=
  if key % 32 < 16 then t.format ≤ 1 else (t.format = 2 || t.format = 3) && !(t.format = 3 && t.narrowRange)

/-- Output record of the head's kind (R167, R473). -/
def outputFields (key : Nat) (o : HeadOutput) : List (Nat × Bool) :=
  match o with
  | .dp r => [(0, key % 32 < 16 && r.maxLinkRate ≤ 3), (1, r.maxLanes = 1 || r.maxLanes = 2 || r.maxLanes = 4), (3, r.rz)]
  | .egress r =>
    [(0, 16 ≤ key % 32 && r.port ≤ 1), (1, r.dscp ≤ 63), (2, 96 ≤ r.payloadType && r.payloadType ≤ 127), (8, r.udpPort ≤ 65535),
     (16, isMulticast r.ipv6 r.group), (32, r.rz)]
  | .zero => [(if key % 32 < 16 then 1 else 2, false)]

/-- Pixel rate above 600 Mpx/s (R168). -/
def pixelRateBad (b : SceneBank) (key : Nat) : Bool :=
  let t := (headScene b key).timing
  match mapGet b.groups t.syncGroup with
  | some r => 600000000 * r.rateDen < hTotal t * vTotal t * r.rateNum
  | none => false

/-- The stream does not fit max_lanes at max_link_rate (R168, R173). -/
def linkBad (b : SceneBank) (key : Nat) : Bool :=
  let h := headScene b key
  match h.output with
  | .dp r => !carries h.timing (mapGet b.groups h.timing.syncGroup) r.maxLanes r.maxLinkRate
  | _ => false

/-- The head checks of R168. -/
def headChecks (s : State) (b : SceneBank) (key : Nat) : List ReportEntry :=
  let h := headScene b key
  let k := key % 32
  fieldFailure s k 1 0 0x0160 (timingFields h.timing)
    ++ failIf (pixelRateBad b key) (failure s k 1 0 0x0161 0)
    ++ failIf (!formatFits key h.timing) (failure s k 1 0 0x0162 10)
    ++ fieldFailure s k 2 0 0x0162 (outputFields key h.output)
    ++ failIf (linkBad b key) (failure s k 2 0 0x0163 0)

/-- Wire rate of a network head in Mb/s under a bank (R179). -/
def wireRate (s : State) (b : SceneBank) (key : Nat) : Rat :=
  if headOn b key then
    let h := headScene b key
    let o := egressOut h.output
    let tagged := ((mapGet s.ts.egress o.port).map fun p => decide (p.lane.vlan != 0)).getD false
    let over_ := 86 + (if tagged then 4 else 0) + (if o.ipv6 then 20 else 0)
    ((h.timing.vActive * (lineBytes h.timing + linePackets h.timing * over_) * 8 : Nat) : Rat) * headRate b key / 1000000
  else 0

/-- Load of an egress port: for each head that names it the greater rate of the two scenes (R179). -/
def egressLoad (s : State) (b : SceneBank) (port : Nat) : Rat :=
  ((List.range' 16 16).map fun k =>
    let rate (x : SceneBank) : Rat := if (egressOut (headScene x k).output).port = port then wireRate s x k else 0
    max (rate s.scene.inForce) (rate b)).foldl (· + ·) 0

/-- The egress port check. -/
def egressChecks (s : State) (b : SceneBank) : List ReportEntry :=
  [0, 1].flatMap fun p =>
    failIf (decide ((Config.egressMbps : Rat) < egressLoad s b p)) (failure s 0xFF 2 0 0x0260 (egressLoad s b p).ceil.toNat)

/-- A rate of 23 to 120 Hz. -/
def rateInRange (r : SyncGroup) : Bool := r.rateDen != 0 && 23 * r.rateDen ≤ r.rateNum && r.rateNum ≤ 120 * r.rateDen

/-- Sync group record (R182, R473). -/
def groupFields (s : State) (g : Nat) (r : SyncGroup) : List (Nat × Bool) :=
  [(0, r.groupId = g && g ≤ 255), (1, r.mode ≤ 3), (2, r.commitHorizon ≤ 16),
   (3, if r.mode = 2 || r.mode = 3 then r.frameRef ≤ 7 else r.frameRef = 0), (4, rateInRange r),
   (12, if r.mode = 0 || r.mode = 2 then r.phaseNs * r.rateNum < 1000000000 * r.rateDen else r.phaseNs = 0),
   (16, if paced r then 20000 ≤ r.minRateMhz && r.minRateMhz * r.rateDen ≤ r.rateNum * 1000 else r.minRateMhz = 0),
   (20, if r.mode = 1 then r.paceSource < Config.sources && (entryOf s r.paceSource).kind != .free else r.paceSource = 0),
   (22, r.rz)]

/-- Groups that the check of a transaction looks at: those that a checked head names in either bank (R303). -/
def checkedGroups (s : State) (b : SceneBank) : List Nat :=
  let l := checkedHeads s b
  (l.map (fun k => (headScene b k).timing.syncGroup)
    ++ (l.filter fun k => headOn s.scene.inForce k).map fun k => (headScene s.scene.inForce k).timing.syncGroup).eraseDups

/-- The heads of a paced group are not all alike DisplayPort heads with adaptive_sync (R183). -/
def pacedBad (b : SceneBank) (g : Nat) (r : SyncGroup) : Bool :=
  let l := groupHeads b g
  let t (k : Nat) := (headScene b k).timing
  let shape (k : Nat) := (hTotal (t k), vTotal (t k), (t k).hActive)
  paced r && (l.any (fun k => 16 ≤ k % 32 || !(dpOut (headScene b k).output).adaptiveSync) || l.any fun k => shape k != shape (l.headD 0))

/-- Another group of the bank names the same frame-reference input. -/
def refBusy (b : SceneBank) (g : Nat) (r : SyncGroup) : Bool :=
  let uses (x : SyncGroup) : Bool := x.mode = 2 || x.mode = 3
  uses r && (namedGroups b).any fun k => k != g && ((mapGet b.groups k).map fun x => uses x && x.frameRef % 4 = r.frameRef % 4).getD false

/-- Group records that the bank changes: staged, and not as they stand in force (R473). -/
def stagedRecords (s : State) (b : SceneBank) : List (Nat × SyncGroup) :=
  b.groups.filter fun p => mapGet s.scene.inForce.groups p.1 != some p.2

/-- The sync group checks of R183, and those of R473 on every group record staged: a record of a group that exists is fixed, and every enabled
head names a group whose record the bank holds, whatever else the transaction changes (R182, R183). -/
def groupChecks (s : State) (b : SceneBank) : List ReportEntry :=
  let l := checkedGroups s b
  let at_ (g code : Nat) := failure s 0xFF 11 g code 0
  let recs := l.filterMap fun g => (mapGet b.groups g).map fun r => (g, r)
  let missing := (List.range 64).filter fun k => headOn b k && !mapHas b.groups (headScene b k).timing.syncGroup
  let exists_ (g : Nat) : Bool := (namedGroups s.scene.inForce).contains g
  (recs ++ (stagedRecords s b).filter fun p => !l.contains p.1).flatMap
      (fun p => fieldFailure s 0xFF 11 p.1 0x0164 (groupFields s p.1 p.2))
    ++ missing.map (fun k => failure s (k % 32) 1 0 0x0164 9)
    ++ ((stagedRecords s b).filter fun p => exists_ p.1).map (fun p => at_ p.1 0x0165)
    ++ (recs.filter fun p => pacedBad b p.1 p.2).map (fun p => at_ p.1 0x0166)
    ++ (recs.filter fun p => refBusy b p.1 p.2).map (fun p => at_ p.1 0x0167)
    ++ failIf (decide (16 < (namedGroups b).length)) (failure s 0xFF 11 0 0x0261 (namedGroups b).length)

/-! ## Composition (R138, R139, R154, R155, R161) -/

/-- A rectangle that is not empty and lies within an area. -/
def rectIn (r : Rect) (w h : Nat) : Bool := r.w != 0 && r.h != 0 && r.x + r.w ≤ w && r.y + r.h ≤ h

/-- Enabled layers of a head by index. -/
def layersOn (h : HeadScene) : List (Nat × Layer) := h.layers.filter fun p => p.2.enable = 1

/-- Bound regions of a graphics layer, by slot. -/
def regionsOf (h : HeadScene) (i : Nat) : List (Nat × Region) := h.regions.filter fun p => p.2.layer + 16 = i

/-- Geometry (R161). -/
def geometryChecks (s : State) (k : Nat) (h : HeadScene) : List ReportEntry :=
  (layersOn h).flatMap fun p =>
    let l := p.2
    failIf (!rectIn l.dst h.timing.hActive h.timing.vActive) (failure s k 4 p.1 0x0152 28)
      ++ failIf (!rectIn l.src l.frameW l.frameH) (failure s k 4 p.1 0x0152 20)
      ++ (regionsOf h p.1).flatMap fun r => failIf (!rectIn r.2.rect l.frameW l.frameH) (failure s k 5 r.1 0x0152 12)

/-- A graphics layer meets R155. -/
def upscales (l : Layer) : Bool :=
  l.src.w ≤ l.dst.w && l.dst.w ≤ 8 * l.src.w && l.src.h ≤ l.dst.h && l.dst.h ≤ 8 * l.src.h

/-- Scaling (R154, R155). -/
def scaleChecks (s : State) (k : Nat) (h : HeadScene) : List ReportEntry :=
  (layersOn h).flatMap fun p =>
    if 16 ≤ p.1 then failIf (!upscales p.2) (failure s k 4 p.1 0x0153 28)
    else if (prescaleOf p.2).isSome then []
    else
      let noBuffer := (allowedPrescale p.2).all fun q => !lineBufferOk p.2 q
      [failure s k 4 p.1 (if noBuffer then 0x0154 else 0x0153) 28]

/-- A source of the kinds that a surface's windows may name (R139). -/
def surfaceSource (s : State) (k : Nat) : Bool :=
  match (entryOf s k).kind with
  | .hostFed | .internal | .test => true
  | _ => false

/-- A bound region's source (R139). -/
def regionSourceOk (s : State) (l : Layer) (k : Nat) : Bool :=
  if l.content = 1 then k = l.sourceId || ((entryOf s k).kind = .derived && (entryOf s k).parent = l.sourceId) else surfaceSource s k

/-- A layer's own binding (R138, R139): the offset of the first field that breaks it. -/
def layerFields (s : State) (i : Nat) (l : Layer) : List (Nat × Bool) :=
  let on := l.enable = 1
  let video := i < 16
  let windowed := hasWindow i l
  let sourceOk :=
    if l.content = 1 then (entryOf s l.sourceId).kind = .network
    else if windowed then surfaceSource s l.sourceId else l.sourceId = 0
  [(0, l.enable ≤ 1), (1, l.z ≤ 19), (2, if on then l.content = 1 || l.content = 2 else l.content ≤ 2),
   (3, (video || !l.allowPrescale) && (!video || !l.baseWindow) && (!on || video || l.content != 1 || l.baseWindow)),
   (4, l.sourceId < Config.sources && (!on || sourceOk)),
   (6, !on || (if l.content = 2 then mapHas s.compose.surfaces l.surfaceId else l.surfaceId = 0)),
   (28, !on || (if windowed then l.window ≤ 127 else l.window = 0xFF)),
   (29, l.coeffSet ≤ 15 && (!on || l.coeffSet ≤ 1 || mapHas s.compose.coeffs l.coeffSet)),
   (30, l.globalAlpha ≤ 255 && (!on || !video || l.globalAlpha = 255)), (31, l.rz)]

/-- Bindings (R139, R161, R473). -/
def bindingChecks (s : State) (k : Nat) (h : HeadScene) : List ReportEntry :=
  fieldFailure s k 3 0 0x0155 [(0, rgbOk h.background), (4, h.backgroundRz)]
    ++ h.layers.flatMap (fun p => fieldFailure s k 4 p.1 0x0155 (layerFields s p.1 p.2))
    ++ h.regions.flatMap fun p =>
      let owner := (layersOn h).find? fun l => l.1 = p.2.layer + 16
      fieldFailure s k 5 p.1 0x0155
        [(0, p.2.layer ≤ 3), (1, p.2.window ≤ 127),
         (2, p.2.sourceId < Config.sources && ((owner.map fun l => regionSourceOk s l.2 p.2.sourceId).getD true)), (12, p.2.rz)]

/-- Windows that the enabled layers and their regions name: item type, index, window. -/
def windowNames (h : HeadScene) : List (Nat × Nat × Nat) :=
  (layersOn h).flatMap fun p =>
    (if hasWindow p.1 p.2 then [(4, p.1, p.2.window)] else []) ++ (regionsOf h p.1).map fun r => (5, r.1, r.2.window)

/-- No window id twice on a head. -/
def windowDupChecks (s : State) (k : Nat) (h : HeadScene) : List ReportEntry :=
  let l := windowNames h
  (l.filter fun p => 1 < (l.filter fun q => q.2.2 = p.2.2).length).map fun p => failure s k p.1 p.2.1 0x0156 0

/-- No two regions of one graphics layer overlap, enabled or not (R38). -/
def regionOverlaps (s : State) (k : Nat) (h : HeadScene) : List ReportEntry :=
  let meet (a b : Rect) : Bool := a.x < b.x + b.w && b.x < a.x + a.w && a.y < b.y + b.h && b.y < a.y + a.h
  (List.range' 16 4).flatMap fun i =>
    let l := regionsOf h i
    (l.filter fun r => l.any fun q => q.1 < r.1 && meet q.2.rect r.2.rect).map fun r => failure s k 5 r.1 0x0157 0

/-- Surface formats and sizes (R161). -/
def formatChecks (s : State) (k : Nat) (h : HeadScene) : List ReportEntry :=
  (layersOn h).flatMap fun p =>
    if p.2.content = 2 then
      match mapGet s.compose.surfaces p.2.surfaceId with
      | some x =>
        failIf ((16 ≤ p.1 && (x.body.format = 3 || x.body.format = 4)) || p.2.frameW != x.body.width || p.2.frameH != x.body.height)
          (failure s k 4 p.1 0x0158 16)
      | none => []
    else []

/-- No two enabled layers share a z. -/
def zChecks (s : State) (k : Nat) (h : HeadScene) : List ReportEntry :=
  let l := layersOn h
  (l.filter fun p => l.any fun q => q.1 < p.1 && q.2.z = p.2.z).map fun p => failure s k 4 p.1 0x0159 9

/-- At most 64 spans on every line (R156). -/
def spanChecks (s : State) (k : Nat) (h : HeadScene) : List ReportEntry :=
  let m := maxSpansOf h
  failIf (decide (Config.maxSpans < m.1)) (failure s k 0 0 0x015A m.2)

/-- The composition checks of a head. -/
def composeChecks (s : State) (b : SceneBank) (key : Nat) : List ReportEntry :=
  let h := headScene b key
  let k := key % 32
  geometryChecks s k h ++ scaleChecks s k h ++ bindingChecks s k h ++ windowDupChecks s k h ++ regionOverlaps s k h
    ++ formatChecks s k h ++ zChecks s k h ++ spanChecks s k h

/-- The pipe count and the fetch load of the module (R161 to R163). -/
def loadChecks (s : State) : List ReportEntry :=
  let n := (pipeLayers s).length
  let f := (fetchLoad s / 1000000).ceil.toNat
  failIf (decide (Config.pipes < n)) (failure s 0xFF 0 0 0x0250 n)
    ++ failIf (decide ((Config.fetchMpxs * 1000000 : Nat) < fetchLoad s)) (failure s 0xFF 0 0 0x0251 f)

/-! ## Tailstock records (R47, R198, R199, R216) -/

/-- A character code that a label may hold (R47). -/
def labelCode (c : Nat) : Bool := (0x20 ≤ c && c ≤ 0x7E) || (0x80 ≤ c && c ≤ 0xDF)

/-- Window records, present and in range (R198). -/
def windowChecks (s : State) (k : Nat) (h : HeadScene) : List ReportEntry :=
  ((windowNames h).filter fun p => !mapHas h.windows p.2.2).map (fun p => failure s k p.1 p.2.1 0x0170 0)
    ++ h.windows.flatMap fun p =>
      fieldFailure s k 6 p.1 0x0170
        [(0, p.2.window ≤ 127), (1, p.2.style ≤ 3), (2, p.2.colourSet ≤ 7), (4, 1 ≤ p.2.budgetMs && p.2.budgetMs ≤ 60000), (6, p.2.rz)]

/-- Label records (R47, R198). -/
def labelChecks (s : State) (k : Nat) (h : HeadScene) : List ReportEntry :=
  h.labels.flatMap fun p =>
    fieldFailure s k 7 p.1 0x0171 [(0, (p.2.text.take p.2.textLen).all labelCode), (24, p.2.textLen ≤ 24), (26, p.2.rz)]

/-- Colour sets and the Tailstock head record (R43, R199, R473). -/
def plateChecks (s : State) (k : Nat) (h : HeadScene) : List ReportEntry :=
  h.colours.flatMap (fun p =>
    fieldFailure s k 8 p.1 0x0172
      [(0, rgbOk p.2.stripe), (4, rgbOk p.2.plate), (8, rgbOk p.2.labelFg), (12, rgbOk p.2.labelBg), (16, rgbOk p.2.conceal),
       (20, rgbOk p.2.blackout), (24, p.2.rz)])
    ++ fieldFailure s k 9 0 0x0172
      [(0, h.tsHead.holdLimitMs = 0 || (100 ≤ h.tsHead.holdLimitMs && h.tsHead.holdLimitMs ≤ 60000)),
       (2, h.tsHead.plateColourSet ≤ 7), (3, h.tsHead.rz)]

/-- Calipers rectangles (R216). -/
def calChecks (s : State) (k : Nat) (h : HeadScene) : List ReportEntry :=
  let t := h.timing
  h.calipers.flatMap fun p =>
    let c := p.2
    fieldFailure s k 10 p.1 0x0173
      [(0, c.mode ≤ 3), (2, if c.mode = 2 then 2 ≤ c.changeN && c.changeN ≤ 1000 else c.changeN = 0),
       (4, c.mode = 0 || (rectIn c.rect t.hActive t.vActive && (t.format != 3 || (c.rect.x % 2 = 0 && c.rect.w % 2 = 0)))),
       (12, c.mode = 1 || c.expectedCrc = 0), (16, c.rz)]

/-- The Tailstock record checks of a head. -/
def tailstockChecks (s : State) (b : SceneBank) (key : Nat) : List ReportEntry :=
  let h := headScene b key
  let k := key % 32
  windowChecks s k h ++ labelChecks s k h ++ plateChecks s k h ++ calChecks s k h

/-! ## Sources and class 0 (R304, R305) -/

/-- A content-1 source is open, and attached when it is compressed (R304). -/
def sourceShowable (s : State) (k : Nat) : Bool :=
  match mapGet s.ingest.streams k with
  | none => false
  | some x => x.params.media = 0 || mapHas s.decode.attached k

/-- Ledger references (R304). -/
def ledgerChecks (s : State) (b : SceneBank) (key : Nat) : List ReportEntry :=
  let h := headScene b key
  let k := key % 32
  let free (n : Nat) : Bool := (entryOf s n).kind = .free
  (layersOn h).flatMap fun p =>
    let named := p.2.content = 1 || hasWindow p.1 p.2
    failIf ((named && free p.2.sourceId) || (p.2.content = 1 && !sourceShowable s p.2.sourceId)) (failure s k 4 p.1 0x0111 12)
      ++ (regionsOf h p.1).flatMap fun r => failIf (free r.2.sourceId) (failure s k 5 r.1 0x0111 10)

/-- Class-0 decode load in thousandths of a sample a second. -/
def c0Decode (s : State) : Nat := sumN ((s.decode.attached.filter fun p => (entryOf s p.1).cls = 0).map fun p => lumaLoad p.2.body)

/-- Class-0 probe load in px/s. -/
def c0Probe (s : State) : Rat :=
  ((s.ledger.entries.filter fun p => p.2.probeEn && p.2.cls = 0).map fun p => probeLoad s p.1).foldl (· + ·) 0

/-- The class-0 load against the guaranteed figures (R305). -/
def class0Checks (s : State) : List ReportEntry :=
  failIf (!decodeClass0Fits s (fun k => (entryOf s k).cls)) (failure s 0xFF 0 0 0x0210 (c0Decode s / 1000000000))
    ++ failIf (decide ((Config.probeClass0 : Rat) < c0Probe s)) (failure s 0xFF 0 0 0x0210 (c0Probe s / 1000000).ceil.toNat)

/-! ## Gate rule sets (R387, R388) -/

/-- The target of a gate as a range (R271, R384). -/
def gateTarget : Nat → Nat × Nat
  | 0 => (0, Config.dramBytes)
  | 1 => (0x00000, 0x01000)
  | 2 => (0x01000, 0x02000)
  | 3 => (0x02000, 0x03000)
  | 4 => (0x03000, 0x04000)
  | 5 => (0x04000, 0x05000)
  | 6 => (0x08000, 0x09000)
  | 7 => (0x10000, 0x20000)
  | _ => (0x20000, 0x30000)

/-- A mask of classes 1 to 9. -/
def maskOk (m : Nat) : Bool := m < 1024 && m % 2 = 0

/-- A region record (R387, R388). -/
def ruleRegionOk (gate : Nat) (r : RuleRegion) : Bool :=
  let t := gateTarget gate
  r.base % 4096 = 0 && 1 ≤ r.pages && maskOk r.readMask && maskOk r.writeMask && t.1 ≤ r.base && r.base + r.pages * 4096 ≤ t.2

/-- A rule set's regions. -/
def ruleRegions (r : RuleSet) : List RuleRegion := r.regions.take r.regionCount

/-- The gate checks of R388. -/
def gateChecks (s : State) (b : SceneBank) : List ReportEntry :=
  let acts (p : Nat × RuleSet) : Bool := p.2.regionCount != 0
  let all (g : Nat) : List RuleRegion := (b.rules.filter fun p => p.2.gate = g).flatMap fun p => ruleRegions p.2
  let meets (g : Nat) (r : RuleRegion) : Bool :=
    1 < ((all g).filter fun q => overlaps r.base (r.pages * 4096) q.base (q.pages * 4096)).length
  b.rules.flatMap (fun p =>
    fieldFailure s 0xFF 12 p.1 0x01A0
      [(0, p.2.gate ≤ 8), (1, p.2.regionCount ≤ 64), (2, p.2.rz), (16, (ruleRegions p.2).all fun r => ruleRegionOk p.2.gate r)])
    ++ (b.rules.filter fun p => (ruleRegions p.2).any fun r => meets p.2.gate r).map (fun p => failure s 0xFF 12 p.1 0x01A1 0)
    ++ (List.range 9).flatMap fun g =>
      failIf (decide (4 < (b.rules.filter fun p => acts p && p.2.gate = g).length)) (failure s 0xFF 12 0 0x02A0 g)

/-! ## Twin links (R306) -/

/-- Twin-link load of a head in Mb/s under a bank (R306). -/
def twinLoad (b : SceneBank) (key : Nat) : Rat :=
  if headOn b key then
    let h := headScene b key
    let t := h.timing
    let four := if t.format = 0 || t.format = 2 then t.hActive * 12 else t.hActive * 15
    ((t.vActive * (four + 64 + 64 * (maxSpansOf h).1) * 2 : Nat) : Rat) * headRate b key / 1000000
  else 0

/-- Load towards the twin (keys 32 to 63) or from it (0 to 31), each head at the greater of its loads. -/
def twinDirection (s : State) (b : SceneBank) (first : Nat) : Rat :=
  ((List.range' first 32).map fun k => max (twinLoad s.scene.inForce k) (twinLoad b k)).foldl (· + ·) 0

/-- Heads of a direction, enabled under either bank. -/
def twinHeads (s : State) (b : SceneBank) (first : Nat) : Nat :=
  ((List.range' first 32).filter fun k => headOn s.scene.inForce k || headOn b k).length

/-- The twin-link checks of the module's own pair (R306). -/
def twinChecks (s : State) (b : SceneBank) : List ReportEntry :=
  if s.cascade.twin.isNone then []
  else
    let tx := twinDirection s b 32
    let rx := twinDirection s b 0
    let e (d : Nat) := failure s 0xFF 0 0 0x02D0 d
    failIf (decide (24 < twinHeads s b 32) || decide ((Config.twinMbps : Rat) < tx)) (e tx.ceil.toNat)
      ++ failIf (decide (24 < twinHeads s b 0) || decide ((Config.twinMbps : Rat) < rx)) (e rx.ceil.toNat)
      ++ failIf (decide (32 < twinHeads s b 0 + twinHeads s b 32)) (e (twinHeads s b 0 + twinHeads s b 32))

/-! ## All checks and the summary (R303, R307) -/

/-- Prescale notes of checked heads (R307). -/
def prescaleNotes (s : State) (b : SceneBank) : List ReportEntry :=
  (checkedHeads s b).flatMap fun key =>
    (layersOn (headScene b key)).filterMap fun p =>
      if p.1 < 16 then
        match prescaleOf p.2 with
        | some q =>
          if 1 < q then
            some { position := position s, head := key % 32, itemType := 4, index := p.1, code := 0, entryKind := 1, detail := q }
          else none
        | none => none
      else none

/-- Every check of R303 on the staged bank, in the order of its table. -/
def validate (s : State) (b : SceneBank) : List ReportEntry :=
  let l := checkedHeads s b
  l.flatMap (headChecks s b) ++ egressChecks s b ++ groupChecks s b ++ l.flatMap (composeChecks s b) ++ loadChecks s
    ++ l.flatMap (tailstockChecks s b) ++ l.flatMap (ledgerChecks s b) ++ class0Checks s ++ gateChecks s b ++ twinChecks s b

/-- The place of a code in the table of validation checks (R303). -/
def codeRank (c : Nat) : Nat :=
  ([0x0160, 0x0161, 0x0162, 0x0163, 0x0260, 0x0164, 0x0165, 0x0166, 0x0167, 0x0261, 0x0152, 0x0153, 0x0154, 0x0155, 0x0156, 0x0157,
    0x0158, 0x0159, 0x015A, 0x0250, 0x0251, 0x0170, 0x0171, 0x0172, 0x0173, 0x0111, 0x0210, 0x01A0, 0x01A1, 0x02A0, 0x02D0]).idxOf c

/-- The first failing check in the order of the table, the lowest position on a tie; 0 when none fails (R307). -/
def firstCode (l : List ReportEntry) : Nat :=
  let bad := l.filter fun e => e.entryKind = 0
  match (sortBy (fun a b => codeRank a.code < codeRank b.code || (codeRank a.code = codeRank b.code && a.position ≤ b.position)) bad) with
  | [] => 0
  | e :: _ => e.code

/-- The module summary (R307). -/
def summarise (s : State) (b : SceneBank) : ValSummary :=
  let mb (r : Rat) : Nat := r.ceil.toNat
  let paired := s.cascade.twin.isSome
  { position := position s, maxSpans := ((checkedHeads s b).map fun k => (maxSpansOf (headScene b k)).1).foldl max 0,
    pipes := (pipeLayers s).length, fetchMpxs := mb (fetchLoad s / 1000000), c0DecodeMsps := ceilDiv (c0Decode s) 1000000000,
    c0ProbeMpxs := mb (c0Probe s / 1000000), twinTxMbps := if paired then mb (twinDirection s b 32) else 0,
    twinRxMbps := if paired then mb (twinDirection s b 0) else 0, out0Mbps := mb (egressLoad s b 0), out1Mbps := mb (egressLoad s b 1) }

end Sys2Proof.Machine
end

