-- ==== Sys2Proof/Machine/Txn.lean ====
section
/-! DEFINITION. Scene transactions (R297 to R319): the Headstock's conduct of them and this module's part in them. The
Headstock's own part is taken in the same step that sends the message to the others. -/

namespace Sys2Proof.Machine

open Sys2Proof

/-! ## The cascade as a transaction sees it -/

/-- What this module would tell of itself. -/
def selfInfo (s : State) : ModInfo :=
  { serial := Config.serial, state := s.module.mode.value, role := s.cascade.role.value, sceneGen := s.scene.gen,
    bootCount := s.mgmt.bootCount, masterSel := s.module.masterSel, sideB := s.module.sideB, caughtUp := s.cascade.caughtUp,
    inContact := true, twinSerial := s.cascade.twin.map fun t => t.ident.serial, lastNs := s.time.mono }

/-- What is known of the module at a position. -/
def modInfo (s : State) (p : Nat) : Option ModInfo :=
  if s.cascade.posValid && p = s.cascade.position then some (selfInfo s) else mapGet s.cascade.modules p

/-- Positions known. -/
def positions (s : State) : List Nat :=
  (if s.cascade.posValid then [s.cascade.position] else []) ++ (s.cascade.modules.map Prod.fst).filter fun p =>
    !(s.cascade.posValid && p = s.cascade.position)

/-- The position of the twin of the module at a position. -/
def twinPos (s : State) (p : Nat) : Option Nat :=
  (modInfo s p).bind fun m => m.twinSerial.bind fun n => (positions s).find? fun q => ((modInfo s q).map ModInfo.serial) == some n

/-- A message broadcast in both directions of the ring (R342). -/
def broadcast (name : String) (fields : List Int) (s : State) : State :=
  emit (.message .west .control name fields) (emit (.message .east .control name fields) s)

/-! ## Phases, settlement and reports (R302, R311, R318, R319) -/

/-- The value of a phase (R302). -/
def TxnPhase.value : TxnPhase → Nat
  | .none => 0 | .open_ => 1 | .validating => 2 | .valid => 3 | .preparing => 4 | .committed => 5 | .applied => 6 | .aborted => 7
  | .rollingBack => 8 | .abortedAfterCommit => 9

/-- A settled phase (R302). -/
def settledPhase : TxnPhase → Bool
  | .applied | .aborted | .abortedAfterCommit | .none => true
  | _ => false

/-- A transaction by its id. -/
def txnOf (s : State) (id : Nat) : Option Txn := mapGet s.txn.txns id

/-- A transaction changed. -/
def modTxnAt (id : Nat) (f : Txn → Txn) (s : State) : State := s.modTxn fun t => { t with txns := mapUpd t.txns id f }

/-- An event of a transaction (R288, R319). -/
def txnEvent (code id : Nat) (items : Items) (s : State) : State := raise code .transaction id items s

/-- What the Headstock mirrors of a transaction: phase, T, votes, acknowledgements and outcomes (R315). -/
def mirrorFields (id : Nat) (t : Txn) : List Int :=
  [(id : Int), t.phase.value, t.applyNs.getD 0, t.votes.length]
    ++ (t.votes.flatMap fun v => [(v.1 : Int), flag v.2.1, v.2.2]) ++ [(t.acked.length : Int)] ++ (t.acked.map fun p => (p : Int))
    ++ t.outcomes.flatMap fun o => [(o.1 : Int), o.2]

/-- A transaction mirrored to the twin over the twin link (R315). -/
def mirrorTxn (id : Nat) (s : State) : State :=
  match txnOf s id with
  | some t => if s.cascade.twinUp then emit (.message .twin .control "TXN_MIRROR" (mirrorFields id t)) s else s
  | none => s

/-- A change of phase, with TXN_PHASE, mirrored to the twin (R302, R315). -/
def setPhase (id : Nat) (p : TxnPhase) (s : State) : State :=
  match txnOf s id with
  | none => s
  | some t =>
    if t.phase = p then s
    else
      let s := mirrorTxn id (modTxnAt id (fun t => { t with phase := p }) s)
      txnEvent 0x0180 id [it 1 t.phase.value, it 1 p.value, it 8 (t.applyNs.getD 0)] s

/-- Affected groups of a participant, as far as they have been told or staged. -/
def groupsAt (t : Txn) (pos : Nat) : List Nat := sortBy (fun a b => a ≤ b) (mapGetD t.groupsOf pos [])

/-- The outcome of a participant (R311). -/
def outcomeAt (t : Txn) (pos : Nat) : Nat := mapGetD t.outcomes pos 0

/-- The frame that a report entry carries: 0 where neither the new nor the restored scene took effect (R318). -/
def usedFrame (t : Txn) (pos g : Nat) : Nat :=
  let o := outcomeAt t pos
  if o = 1 || o = 2 || o = 4 then mapGetD t.used (pos * 256 + g) 0 else 0

/-- Entries of the apply report (R318). -/
def reportEntries (t : Txn) : List Items :=
  t.parts.flatMap fun pos =>
    let gen := mapGetD t.gens pos 0
    match groupsAt t pos with
    | [] => [[it 1 pos, it 1 0, it 1 (outcomeAt t pos), it 1 1, it 6 0, it 4 gen, it 2 0]]
    | gs => gs.map fun g => [it 1 pos, it 1 g, it 1 (outcomeAt t pos), it 1 0, it 6 (usedFrame t pos g), it 4 gen, it 2 0]

/-- The apply report within a buffer of `len` bytes (R318). -/
def applyReportItems (id : Nat) (t : Txn) (len : Nat) : Items :=
  let all := reportEntries t
  let kept := all.take ((len - 16) / 16)
  [it 2 id, it 1 t.phase.value, it 1 (flag t.lockstep), it 2 kept.length, it 2 (all.length - kept.length), it 8 (t.applyNs.getD 0)]
    ++ kept.flatten

/-- Result of TXN_COMMIT (R318). -/
def commitResult (t : Txn) : Items :=
  let notPlan := (t.parts.filter fun p => outcomeAt t p != 1).length
  match t.frames with
  | [] => [it 6 0, it 1 0, it 1 0, it 4 notPlan]
  | (g, n) :: _ =>
    let used := (t.parts.map fun p => usedFrame t p g).find? fun f => f != 0
    [it 6 (used.getD n), it 1 g, it 1 t.frames.length, it 4 notPlan]

/-- The command in progress of a transaction ends; `data` is what it writes first (R307, R318). -/
def endTicket (id status : Nat) (data result : Items) (s : State) : State :=
  match txnOf s id with
  | none => s
  | some t =>
    match t.ticket with
    | none => s
    | some tk =>
      let s := modTxnAt id (fun t => { t with ticket := none }) s
      if data.isEmpty then complete tk status result s
      else if tk.dmaOk then complete tk status result (hostOut tk 0 (itemBytes data) s)
      else complete tk 0x0500 [] s

/-! ## This module's part (R298, R308 to R314) -/

/-- The bank that is not in force is free to be staged (R298). -/
def bankFree (s : State) : Bool :=
  s.scene.otherUse = .free || (s.scene.pendingGroups.isEmpty && (s.txn.part.map fun p => p.applied).getD true)

/-- The bank in force is copied into the free bank, which is staged from now on (R298). -/
def openPart (id : Nat) (s : State) : State :=
  if (s.txn.part.map fun p => decide (p.txn = id)).getD false || !bankFree s then s
  else
    let p : PartTxn :=
      { txn := id, votedYes := false, votedNs := 0, commit := none, groups := [], frames := [], missed := false, applied := false,
        late := false, lostNs := none }
    let s := s.modScene fun c => { c with other := c.inForce, otherUse := .staged }
    s.modTxn fun t => { t with part := some p }

/-- The staged bank is freed, and the module takes no part any more. -/
def freePart (s : State) : State :=
  let s := s.modScene fun c => { c with otherUse := if c.otherUse = .staged then .free else c.otherUse }
  s.modTxn fun t => { t with part := none }

/-- This module's part changed. -/
def modPart (f : PartTxn → PartTxn) (s : State) : State := s.modTxn fun t => { t with part := t.part.map f }

/-- The window map entry derived for a window of a head (R197). -/
def mapEntryOf (s : State) (h : HeadScene) (key w : Nat) : TsRecord :=
  match (headWindows h).find? fun j => j.window = w, mapGet h.windows w with
  | some j, some r =>
    .mapEntry (key % 32) w true r.style r.colourSet ((entryOf s j.source).kind = .internal) (entryOf s j.source).staticDesign j.source
      r.budgetMs j.rect j.kind j.layer
  | _, _ => .mapEntry (key % 32) w false 0 0 false false 0 0 ⟨0, 0, 0, 0⟩ 0 0

/-- The Tailstock records of a head of a bank (R196). -/
def headRecords (s : State) (b : SceneBank) (key : Nat) : List TsRecord :=
  let h := headScene b key
  let k := key % 32
  (List.range 128).map (mapEntryOf s h key)
    ++ (List.range 128).map (fun i => .label k i (mapGetD h.labels i resetLabel))
    ++ (List.range 8).map (fun i => .colourSet k i (mapGetD h.colours i resetColours))
    ++ [.headTiming k h.timing, .headOutput k h.output, .tsHead k h.tsHead, .label k 0xFF (mapGetD h.labels 0xFF resetPlateLabel)]
    ++ (List.range 16).map fun i => .calipers k i (mapGetD h.calipers i resetCal)

/-- Records of a head sent to its Tailstock. -/
def sendRecords (b : SceneBank) (s : State) (key : Nat) : State :=
  let bond : Bond := if key < 32 then .toTailstock else .twin
  (headRecords s b key).foldl (fun s r => emit (.record bond (claimNow s) r) s) s

/-- The staged records written to the staged banks of the Tailstocks (R298, R308): every head, and the group records. -/
def writeStaged (s : State) : State :=
  let b := s.scene.other
  let changed := (List.range (if s.cascade.twinUp then 64 else 32)).filter fun k => headScene b k != headScene s.scene.inForce k
  let s := changed.foldl (sendRecords b) s
  b.groups.foldl (fun s p =>
    let s := emit (.record .toTailstock (claimNow s) (.syncGroup p.1 (some p.2))) s
    if s.cascade.twinUp then emit (.record .twin (claimNow s) (.syncGroup p.1 (some p.2))) s else s) s

/-- The checks run again on a prepare; the first failing code, 0 for none (R308). -/
def prepareCode (s : State) : Nat := if inService s then firstCode (validate s s.scene.other) else 0x0300

/-- A yes or no after the checks: on yes the bank is frozen and its records written (R308). -/
def prepareOwn (id : Nat) (s : State) : Nat × State :=
  let s := openPart id s
  let mine := (s.txn.part.map fun p => decide (p.txn = id)).getD false
  if !mine then (0x0211, s)
  else
    let c := prepareCode s
    if c = 0 then
      let g := affectedGroups s.scene.inForce s.scene.other
      (0, writeStaged (modPart (fun p => { p with votedYes := true, votedNs := s.time.mono, groups := g }) s))
    else (c, s)

/-! ## Apply frames and instants (R186, R309) -/

/-- A group's record in either bank. -/
def anyGroup (s : State) (g : Nat) : Option SyncGroup := (groupRec s g).orElse fun _ => mapGet s.scene.other.groups g

/-- Lead of a group's latch point: on the heads it has, or will have (R186). -/
def groupLead (s : State) (g : Nat) (r : SyncGroup) : Nat :=
  let now := groupHeads s.scene.inForce g
  let b := if now.isEmpty then s.scene.other else s.scene.inForce
  leadNs r ((groupHeads b g).map fun h => (headScene b h).timing)

/-- The longest frame period of a group (R309). -/
def longestPeriod (r : SyncGroup) : Nat := if paced r then ceilDiv 1000000000000 r.minRateMhz else periodNs r

/-- P_max over the affected groups (R309). -/
def pMax (rs : List SyncGroup) : Nat := if rs.isEmpty then 16666667 else (rs.map longestPeriod).foldl max 0

/-- Elapsed time at an instant of wall time, before or after now. -/
def elapsedAt (s : State) (t : Nat) : Int := (s.time.mono : Int) + t - s.time.wall

/-- Frames whose latch points at the nominal rate, from one latched at wall instant `l` on, are not later than `t`. -/
def framesBy (r : SyncGroup) (l t : Nat) : Nat := if t < l || periodNs r = 0 then 0 else (t - l) / periodNs r + 1

/-- N_g: the first frame whose latch point is later than T, as the schedule, or the nominal rate after the last latch point, gives it (R186,
R309). A group that does not run yet begins with frame 0. -/
def applyFrame (s : State) (g : Nat) (r : SyncGroup) (t : Nat) : Nat :=
  let x := groupRt s g
  if r.mode = 0 then schedFrom r (elapsedAt s t + spindleLead s + groupLead s g r + 1)
  else
    match x.latched with
    | some m => m + framesBy r x.latchNs t
    | none => match x.firstLatch with
      | some e => framesBy r (wallOf s e) t
      | none => 0

/-- What one line of a group lasts, under the records that it has, or will have. -/
def groupLine (s : State) (g : Nat) (r : SyncGroup) : Nat :=
  let now := groupTimings s.scene.inForce g
  linesNs r (groupLines (if now.isEmpty then groupTimings s.scene.other g else now)) 1

/-- The latch point of frame `n` of a group, as wall time: by the schedule in mode 0; otherwise the one used, or one to come, which the
nominal rate puts after the last, and which has not passed before it is used. A group created has its first one line after T (R186, R310);
of one that only another module carries, no more is known than that it comes within the longest period after T, `plus` frames on. -/
def latchAt (s : State) (T plus g n : Nat) (r : SyncGroup) : Nat :=
  let x := groupRt s g
  if r.mode = 0 then (schedMono s r n - groupLead s g r - s.time.mono + s.time.wall).toNat
  else
    match x.latched with
    | some m => if n ≤ m then x.latchNs - (m - n) * periodNs r else max (x.latchNs + (n - m) * periodNs r) (s.time.wall + 1)
    | none =>
      if mapHas s.scene.other.groups g || mapHas s.scene.inForce.groups g then T + groupLine s g r + plus * periodNs r
      else T + (plus + 1) * longestPeriod r

/-- Latch points of the given frames, each `plus` frames on, for the apply instant T. -/
def latches (s : State) (T : Nat) (frames : Map Nat) (plus : Nat) : List Nat :=
  frames.filterMap fun p => (anyGroup s p.1).map fun r => latchAt s T plus p.1 (p.2 + plus) r

/-- The latest of instants, or `d`. -/
def latest (d : Nat) : List Nat → Nat
  | [] => d
  | x :: t => t.foldl max x

/-- The earliest of instants, or `d`. -/
def earliest (d : Nat) : List Nat → Nat
  | [] => d
  | x :: t => t.foldl min x

/-! ## Taking a commit (R310 to R313) -/

/-- Frames of a message for the groups of this module's part. -/
def partFrames (p : PartTxn) (frames : List (Nat × Nat)) : Map Nat := frames.filter fun x => p.groups.contains x.1

/-- Swap orders for the heads that differ between the banks, each at its group's apply frame; a head that moves to another group gets its
order at the latch point of the group that it leaves (R188, R200, R310). -/
def sendSwaps (frames : Map Nat) (rollback : Bool) (s : State) : State :=
  let changed := (List.range (if s.cascade.twinUp then 64 else 32)).filter fun k =>
    headScene s.scene.other k != headScene s.scene.inForce k && (movesFrom s k).isNone
  changed.foldl (fun s k =>
    let t := (headScene s.scene.inForce k).timing
    let g := if t.enable = 1 then t.syncGroup else (headScene s.scene.other k).timing.syncGroup
    emit (.message (if k < 32 then .toTailstock else .twin) .control "SWAP_ORDER"
      [((k % 32 : Nat) : Int), ((mapGetD frames g 0 : Nat) : Int), flag rollback]) s) s

/-- The banks change places: each group shows the new scene from its own frame, gate rule sets swap now with
GATE_RULES_SWAPPED, and the scene generation increases (R299, R310, R387, R401). -/
def swapScene (frames : Map Nat) (rollback : Bool) (s : State) : State :=
  let rulesChange := s.scene.other.rules != s.scene.inForce.rules
  let s := s.modScene fun c =>
    let n := (c.gen + 1) % 4294967296
    { c with
      inForce := c.other, other := c.inForce, otherUse := .retained, gen := n, pendingGroups := frames, restored := rollback,
      behind := c.behind && decide (0 < modDiff 32 c.twinGen n) }
  let s := s.modGates fun g =>
    { g with
      rules := s.scene.inForce.rules, ruleGen := if rulesChange then g.ruleGen + 1 else g.ruleGen,
      draining := if rulesChange then List.range 9 else g.draining }
  let s := if rulesChange then
      raiseMod 0x0A81 [it 2 (sumN (s.gates.rules.map fun p => 2 ^ p.1)), it 4 (s.gates.ruleGen % 4294967296)] s
    else s
  let s := sendSwaps frames rollback s
  if s.cascade.twinUp then emit (.message .twin .control "SCENE_GEN" [(s.scene.gen : Int)]) s else s

/-- The report of a participant, as it sends it (R310). -/
def reportOf (s : State) (p : PartTxn) (applied cancelled rolledBack : Bool) (frames : Map Nat) : ApplyReport :=
  { txn := p.txn, position := position s, applied := applied, cancelled := cancelled, rolledBack := rolledBack, late := p.late,
    frames := frames, sceneGen := s.scene.gen }

/-! ## The Headstock settles participants (R311) -/

/-- TXN_OUTCOME of a participant: one for each of its groups (R311, R319). -/
def raiseOutcome (id pos : Nat) (s : State) : State :=
  match txnOf s id with
  | none => s
  | some t =>
    let o := outcomeAt t pos
    let gen := mapGetD t.gens pos 0
    match groupsAt t pos with
    | [] => txnEvent 0x0182 id [it 1 pos, it 1 o, it 1 0, it 6 0, it 4 gen] s
    | gs => gs.foldl (fun s g => txnEvent 0x0182 id [it 1 pos, it 1 o, it 1 g, it 6 (usedFrame t pos g), it 4 gen] s) s

/-- A participant is settled with an outcome. -/
def settlePart (id pos outcome : Nat) (s : State) : State :=
  raiseOutcome id pos (mirrorTxn id (modTxnAt id (fun t => { t with outcomes := mapPut t.outcomes pos outcome }) s))

/-- This module's part ends with its transaction: the retained bank is free once every group has reached its frame (R298). -/
def endPart (id : Nat) (s : State) : State :=
  if (s.txn.part.map fun p => decide (p.txn = id)).getD false then
    let s := s.modScene fun c =>
      { c with otherUse := if c.otherUse = .staged || c.pendingGroups.isEmpty then .free else c.otherUse }
    s.modTxn fun t => { t with part := none }
  else s

/-- A committed transaction ends in a phase, with the report and the completion of its TXN_COMMIT (R311, R318). -/
def finishTxn (id : Nat) (p : TxnPhase) (status : Nat) (s : State) : State :=
  let s := endPart id (setPhase id p s)
  match txnOf s id with
  | none => s
  | some t => endTicket id status (applyReportItems id t t.reportLen) (commitResult t) s

/-- Every participant has an outcome. -/
def allSettled (t : Txn) : Bool := t.parts.all fun p => outcomeAt t p != 0

/-- A tolerant transaction enters APPLIED once no participant is pending (R311). -/
def tolerantDone (id : Nat) (s : State) : State :=
  match txnOf s id with
  | some t => if !t.lockstep && t.phase = .committed && allSettled t then finishTxn id .applied 0 s else s
  | none => s

/-- The outcome that a report gives (R311). -/
def outcomeOfReport (r : ApplyReport) : Option Nat :=
  if r.rolledBack then some 4
  else if r.cancelled then some 3
  else if r.applied then some (if r.late then 2 else 1)
  else none

/-- The Headstock takes a report (R310, R311); one that says neither is the acknowledgement of the commit. -/
def takeReport (r : ApplyReport) (s : State) : State :=
  match txnOf s r.txn with
  | none => s
  | some t =>
    if !t.parts.contains r.position || !(t.phase = .committed || t.phase = .rollingBack) then s
    else
      let s := if t.acked.contains r.position then s
        else mirrorTxn r.txn (modTxnAt r.txn (fun t => { t with acked := r.position :: t.acked }) s)
      match outcomeOfReport r with
      | none => s
      | some o =>
        let s := modTxnAt r.txn (fun t =>
          { t with
            used := r.frames.foldl (fun m p => mapPut m (r.position * 256 + p.1) p.2) t.used,
            gens := mapPut t.gens r.position r.sceneGen, groupsOf := mapPut t.groupsOf r.position (r.frames.map Prod.fst) }) s
        if outcomeAt t r.position = 0 || o = 4 then
          let s := tolerantDone r.txn (settlePart r.txn r.position o s)
          if t.phase = .rollingBack && (o = 1 || o = 2) then broadcast "ROLLBACK" [(r.txn : Int)] s else s
        else s

/-- A participant's report reaches the Headstock: at once where this module is it. -/
def sendReport (r : ApplyReport) (s : State) : State :=
  if s.cascade.headstock then takeReport r s
  else
    emit (.message (headstockBond s) .control "APPLY_REPORT"
      ([(r.txn : Int), r.position, flag r.applied, flag r.cancelled, flag r.rolledBack, flag r.late, r.sceneGen]
        ++ r.frames.flatMap fun p => [(p.1 : Int), p.2])) s

/-! ## A participant acts (R310, R311) -/

/-- T of the commit that a part holds. -/
def partT (p : PartTxn) : Nat := (p.commit.map CommitMsg.applyNs).getD 0

/-- A latch point is that of the apply frame of a part: in mode 0, and for a re-target, of the frame that the message names or a later one;
otherwise, since latch points move, the one used that is later than T (R186, R189, R310). -/
def latchApplies (s : State) (p : PartTxn) (r : SyncGroup) (n : Nat) (l : Latch) : Bool :=
  if p.late || r.mode = 0 then 0 ≤ modDiff 48 l.frame n else partT p < wallOf s l.at_

/-- The latch point of a group's apply frame has come, or has been used. -/
def groupDue (s : State) (p : PartTxn) (g n : Nat) : Bool :=
  match anyGroup s g with
  | none => partT p ≤ s.time.wall
  | some r =>
    if r.mode = 0 then latchAt s (partT p) 0 g n r ≤ s.time.wall
    else
      match (nextLatch s g r).orElse fun _ => timeoutLatch s g r with
      | some l => latchApplies s p r n l
      | none =>
        if (groupRec s g).isNone then partT p + groupLine s g r ≤ s.time.wall
        else match (groupRt s g).latched with
          | some m => if p.late then n ≤ m else partT p < (groupRt s g).latchNs
          | none => false

/-- The deadline of a part has come: the earliest latch point among its apply frames, or T where it has none (R310). -/
def partDue (s : State) (p : PartTxn) : Bool :=
  if p.frames.isEmpty then partT p ≤ s.time.wall else p.frames.any fun x => groupDue s p x.1 x.2

/-- A commit or re-target as a part holds it: one taken after its deadline only tells T (R310, R313). -/
def withCommit (s : State) (p : PartTxn) (m : CommitMsg) (late : Bool) : PartTxn :=
  let q := { p with commit := some m, frames := partFrames p m.frames, late := late, missed := false }
  { q with missed := partDue s q }

/-- A commit or re-target is held and acknowledged; one that came too late is reported as not applied (R309, R310). -/
def holdCommit (q : PartTxn) (m : CommitMsg) (s : State) : State :=
  let s := s.modTxn fun t => { t with part := some q }
  let s := if s.cascade.headstock then s else emit (.message (headstockBond s) .control "COMMIT_ACK" [(m.txn : Int), position s]) s
  if q.missed then sendReport (reportOf s q false false false q.frames) s else s

/-- The frame at which a group of an applying part changes: the one that the message names; in modes 1 to 3 the first one not latched yet
whose latch point is later than T (R186, R310). -/
def usedAt (s : State) (p : PartTxn) (x : Nat × Nat) : Nat × Nat :=
  match groupRec s x.1 with
  | some r =>
    if p.late || r.mode = 0 then x
    else match (groupRt s x.1).latched with
      | some m =>
        (x.1, match (nextLatch s x.1 r).orElse fun _ => timeoutLatch s x.1 r with
          | some l => if partT p < wallOf s l.at_ then m + 1 else m + 2
          | none => m + 1)
      | none => x
  | none => x

/-- Swap orders for frame `n` of a group that are sent now arrive less than a line before its start (R200). -/
def orderLate (s : State) (x : Nat × Nat) : Bool :=
  match anyGroup s x.1 with
  | some r =>
    let start : Option Int :=
      if r.mode = 0 then some (schedMono s r x.2)
      else if (groupRt s x.1).latched = some x.2 then some (groupRt s x.1).nextStart
      else ((nextLatch s x.1 r).orElse fun _ => timeoutLatch s x.1 r).map fun l => l.start
    (start.map fun t => decide (t < (s.time.mono : Int) + groupLine s x.1 r)).getD false
  | none => false

/-- A group in modes 1 to 3 that the transaction creates has its first latch point one line after T (R310). -/
def createGroup (T : Nat) (s : State) (g : Nat) : State :=
  match groupRec s g with
  | none =>
    match mapGet s.scene.other.groups g with
    | some r =>
      if r.mode = 0 then s
      else setGroup g { groupRt s g with firstLatch := some ((elapsedAt s T).toNat + groupLine s g r) } s
    | none => s
  | some _ => s

/-- A part applies: every group changes at its own apply frame, and the report says which, and whether swap orders come late (R200, R310). -/
def applyPart (p : PartTxn) (s : State) : State :=
  let used := p.frames.map (usedAt s p)
  let delayed := used.filter (orderLate s)
  let q := { p with applied := true, frames := used, late := p.late || !delayed.isEmpty }
  let told := used.map fun x => if delayed.contains x then (x.1, x.2 + 1) else x
  let s := p.groups.foldl (createGroup (partT p)) s
  let s := swapScene used false (s.modTxn fun t => { t with part := some q })
  sendReport (reportOf s q true false false told) s

/-- A part that holds its commit in time and has not applied. -/
def readyPart (s : State) : Option PartTxn := s.txn.part.filter fun p => p.commit.isSome && !p.missed && !p.applied && inService s

/-- The deadline of this module's part, where it has come: the module applies (R310). -/
def applyDue (s : State) : State :=
  match readyPart s with
  | some p => if partDue s p then applyPart p s else s
  | none => s

/-- Before a group selects at a latch point, a commit whose deadline that is takes effect (R186, R310). -/
def applyAt (g : Nat) (s : State) : State :=
  match readyPart s with
  | some p => if p.frames.any fun x => x.1 = g && groupDue s p g x.2 then applyPart p s else s
  | none => s

/-- The same for a latch point that the twin has decided (R190). -/
def applyFor (g : Nat) (l : Latch) (s : State) : State :=
  match readyPart s, groupRec s g with
  | some p, some r => if p.frames.any fun x => x.1 = g && latchApplies s p r x.2 l then applyPart p s else s
  | _, _ => s

/-- A module that applied restores the retained bank from N + 1, or from N + 2 once that latch point has passed; after both it
does nothing (R311). -/
def rollbackPart (p : PartTxn) (s : State) : State :=
  let T := partT p
  let passed (plus : Nat) (x : Nat × Nat) : Bool :=
    ((anyGroup s x.1).map fun r => decide (latchAt s T plus x.1 (x.2 + plus) r ≤ s.time.wall)).getD false
  let next := p.frames.map fun x => (x.1, if passed 1 x then x.2 + 2 else x.2 + 1)
  if p.frames.any (passed 2) then s
  else
    let s := swapScene next true s
    let s := s.modTxn fun t => { t with part := none }
    sendReport (reportOf s p false false true next) s

/-- A commit, re-target, cancel or rollback taken (R310, R311); one that names no part of this module is ignored (R313). -/
def takeCommit (m : CommitMsg) (s : State) : State :=
  match s.txn.part with
  | none => s
  | some p =>
    if p.txn != m.txn || !inService s then s
    else
      match m.kind with
      | .commit => if p.votedYes && !p.applied && p.commit.isNone then holdCommit (withCommit s p m false) m s else s
      | .retarget _ =>
        let q := withCommit s p m true
        if p.votedYes && !p.applied && !q.missed then holdCommit q m s else s
      | .cancel =>
        if !p.applied && (p.commit.isNone || !partDue s p) then
          sendReport (reportOf s p false true false []) (freePart s)
        else s
      | .rollback => if p.applied then rollbackPart p s else s

/-- COMMIT_RX (R310). -/
def execCommitRx (m : CommitMsg) (s : State) : Host.Outcome State Fault Refusal := .next (takeCommit m s)

/-- TXN_APPLY (R310): at its deadline a participant that holds the commit applies. -/
def execTxnApply (s : State) : Host.Outcome State Fault Refusal := .next (applyDue s)

/-- LATCH_POINT (R141, R186, R189). -/
def execLatchPoint (g : Nat) (s : State) : Host.Outcome State Fault Refusal :=
  .next
    (match groupRec s g with
     | none => s
     | some r =>
       match nextLatch s g r with
       | some l => if inService s && (!paced r || decides s) then tellLatch g r l (latch g l (applyAt g s)) else s
       | none => s)

/-- SYNC_PACE_TIMEOUT (R189): the limit is reached without a pace event; the latch point falls there. -/
def execSyncPaceTimeout (g : Nat) (s : State) : Host.Outcome State Fault Refusal :=
  .next
    (match groupRec s g with
     | none => s
     | some r =>
       match timeoutLatch s g r with
       | some l =>
         if inService s && decides s then
           let s := setGroup g { groupRt s g with timeouts := (groupRt s g).timeouts + 1 } s
           let s := raiseLimited second (limKey 0x0685 g 0) 1 0x0685 .head (groupScope s g)
             (fun c => [it 2 g, it 6 l.frame, it 4 c]) s
           tellLatch g r l (latch g l (applyAt g s))
         else s
       | none => s)

/-- LATCH_DECISION_RX (R190): the instant that the other module decided is this module's latch point, and its frame start follows from it. -/
def execLatchDecisionRx (g latchNs n : Nat) (s : State) : Host.Outcome State Fault Refusal :=
  .next
    (match groupRec s g with
     | none => s
     | some r =>
       if inService s && paced r && !decides s && (groupRt s g).latched != some n then
         let at_ := monoAt s latchNs
         let hs := leadTimings s g n
         let l : Latch := ⟨n, at_, at_ + linesNs r (groupLines hs) (leadLines r hs)⟩
         latch g l (applyFor g l s)
       else s)

/-- APPLY_REPORT_RX (R310). -/
def execApplyReportRx (r : ApplyReport) (s : State) : Host.Outcome State Fault Refusal :=
  .next (if s.cascade.headstock then takeReport r s else s)

/-! ## Beginning and staging (R300, R301) -/

/-- Participants: the modules named, and the twin of each whose twin role is ACTIVE or STANDBY (R300). -/
def participants (s : State) (modules : Nat) : List Nat :=
  let named := (List.range 64).filter fun p => bit modules p
  let twins := named.filterMap fun p =>
    match modInfo s p with
    | some m => if m.role = 1 || m.role = 2 then twinPos s p else none
    | none => none
  (List.range 64).filter fun p => named.contains p || twins.contains p

/-- The module at a position takes part in another unsettled transaction, or this one's bank is not free (R300). -/
def bankTaken (s : State) (p : Nat) : Bool :=
  (s.txn.txns.any fun t => !settledPhase t.2.phase && t.2.parts.contains p) || (p = position s && !bankFree s)

/-- The checks of TXN_BEGIN in their order (R300). -/
def txnBeginCheck (modules : Nat) (s : State) : Nat :=
  let named := (List.range 64).filter fun p => bit modules p
  let ps := participants s modules
  if !s.cascade.headstock then 0x0301
  else if modules = 0 then 0x0110
  else if named.any fun p => (modInfo s p).isNone then 0x0102
  else if ps.any (fun p => match modInfo s p with
      | some m => m.state < 2 || 5 < m.state || m.role = 3
      | none => true) then 0x0300
  else if ps.any (bankTaken s) then 0x0211
  else 0

/-- The next transaction id (R300). -/
def nextTxnId (s : State) : Nat :=
  let busy (i : Nat) : Bool := ((txnOf s i).map fun t => !settledPhase t.phase).getD false
  (((List.range (s.txn.txns.length + 1)).map fun k => (s.txn.lastId + k) % 65535 + 1).find? fun i => !busy i).getD 1

/-- A transaction just begun. -/
def newTxn (lockstep : Bool) (parts : List Nat) : Txn :=
  { lockstep := lockstep, parts := parts, phase := .none, ticket := none, isCommit := false, reportLen := 0, askedNs := 0,
    applyNs := none, results := [], votes := [], acked := [], outcomes := [], frames := [], used := [], gens := [], groupsOf := [],
    prepareNs := 0, lastSentNs := 0, cancelled := false, stagedGroups := [] }

/-- TXN_BEGIN (R300). -/
def txnBeginBody (lockstep : Bool) (modules : Nat) (tk : Ticket) (s : State) : State :=
  let c := txnBeginCheck modules s
  if c != 0 then complete tk c [] s
  else
    let ps := participants s modules
    let id := nextTxnId s
    let forget := (s.txn.begun.drop 1023).filter fun i => ((txnOf s i).map fun t => settledPhase t.phase).getD true
    let s := s.modTxn fun t =>
      { t with
        txns := mapPut (t.txns.filter fun p => !forget.contains p.1) id (newTxn lockstep ps), lastId := id,
        begun := id :: (t.begun.filter fun i => i != id && !forget.contains i) }
    let s := setPhase id .open_ s
    let s := if ps.contains (position s) then openPart id s else s
    complete tk 0 [it 2 id, it 2 0, it 8 (sumN (ps.map fun p => 2 ^ p))] s

/-- TXN_BEGIN (R300). -/
def execTxnBegin (d : Desc) (lockstep : Bool) (modules : Nat) (s : State) : Host.Outcome State Fault Refusal :=
  .next (onTake d (.txnBegin lockstep modules) (txnBeginBody lockstep modules) s)

/-- Body size of an item type (R297). -/
def itemSizeOf : Nat → Nat
  | 1 => 32 | 2 => 64 | 3 => 16 | 4 => 64 | 5 => 16 | 6 => 16 | 7 => 32 | 8 => 32 | 9 => 16 | 10 => 32 | 11 => 32 | _ => 1040

/-- The index of an item lies in its range (R297). -/
def itemIndexOk (type index : Nat) : Bool :=
  match type with
  | 4 => index ≤ 19
  | 5 => index ≤ 127
  | 6 => index ≤ 127
  | 7 => index ≤ 127 || index = 0xFF
  | 8 => index ≤ 7
  | 10 => index ≤ 15
  | 11 => index ≤ 255
  | 12 => index ≤ 15
  | _ => index = 0

/-- An item's header (R301). -/
def itemOk (i : Item) : Bool :=
  1 ≤ i.itemType && i.itemType ≤ 12 && itemIndexOk i.itemType i.index
    && (if i.itemType ≤ 10 then i.head ≤ 31 else i.head = 0xFF)
    && (i.bodyLen = if i.clear then 0 else itemSizeOf i.itemType) && i.rz

/-- Bytes of an item with its header, padded (R301). -/
def itemBytesOf (i : Item) : Nat := 8 + alignUp i.bodyLen 8

/-- Offset of the first item that fails, or that does not fit `len` bytes; none when every one passes. -/
def firstBadItem (len : Nat) : Nat → List Item → Option Nat
  | _, [] => none
  | o, i :: t => if !itemOk i || len < o + itemBytesOf i then some o else firstBadItem len (o + itemBytesOf i) t

/-- A record of a map written, or taken out by an item with clear. -/
def putOrDrop {α : Type} (clear : Bool) (m : Map α) (k : Nat) (v : α) : Map α := if clear then mapDel m k else mapPut m k v

/-- An item of types 1 to 10 written into a head's records (R297, R301). -/
def stageHead (i : Item) (h : HeadScene) : HeadScene :=
  let c := i.clear
  match i.itemType, i.body with
  | 1, .headTiming r => { h with timing := if c then resetTiming else r }
  | 2, .headOutput r => { h with output := if c then .zero else r }
  | 3, .background r rz => { h with background := if c then ⟨0, 0, 0⟩ else r, backgroundRz := c || rz }
  | 4, .layer r => { h with layers := putOrDrop c h.layers i.index r }
  | 5, .region r => { h with regions := putOrDrop c h.regions i.index r }
  | 6, .window r => { h with windows := putOrDrop c h.windows i.index r }
  | 7, .label r => { h with labels := putOrDrop c h.labels i.index r }
  | 8, .colourSet r => { h with colours := putOrDrop c h.colours i.index r }
  | 9, .tsHead r => { h with tsHead := if c then resetTsHead else r }
  | 10, .calipers r => { h with calipers := putOrDrop c h.calipers i.index r }
  | 1, _ => if c then { h with timing := resetTiming } else h
  | 2, _ => if c then { h with output := .zero } else h
  | 3, _ => if c then { h with background := ⟨0, 0, 0⟩, backgroundRz := true } else h
  | 4, _ => if c then { h with layers := mapDel h.layers i.index } else h
  | 5, _ => if c then { h with regions := mapDel h.regions i.index } else h
  | 6, _ => if c then { h with windows := mapDel h.windows i.index } else h
  | 7, _ => if c then { h with labels := mapDel h.labels i.index } else h
  | 8, _ => if c then { h with colours := mapDel h.colours i.index } else h
  | 9, _ => if c then { h with tsHead := resetTsHead } else h
  | 10, _ => if c then { h with calipers := mapDel h.calipers i.index } else h
  | _, _ => h

/-- An item written into a bank; `shift` is 0 for the module's own heads, 32 for its twin's; item 12 only into the module
named (R301). -/
def stageItem (shift : Nat) (b : SceneBank) (i : Item) : SceneBank :=
  match i.itemType, i.body with
  | 11, .syncGroup r => { b with groups := putOrDrop i.clear b.groups i.index r }
  | 11, _ => if i.clear then { b with groups := mapDel b.groups i.index } else b
  | 12, .gateRules r => if shift = 0 then { b with rules := putOrDrop i.clear b.rules i.index r } else b
  | 12, _ => if i.clear && shift = 0 then { b with rules := mapDel b.rules i.index } else b
  | _, _ => { b with heads := mapPut b.heads (shift + i.head) (stageHead i (headScene b (shift + i.head))) }

/-- Items written into this module's staged bank, for itself or for its twin (R301). -/
def stageOwn (pos : Nat) (items : List Item) (s : State) : State :=
  let shift := if pos = position s then 0 else 32
  s.modScene fun c => { c with other := items.foldl (stageItem shift) c.other }

/-- The checks of TXN_STAGE on its fields and items: the failing offset, if one fails (R301). -/
def stageBad (itemCount itemsLen : Nat) (items : List Item) : Option Nat :=
  if itemCount = 0 || 1024 < itemCount || itemsLen < 8 || 262144 < itemsLen then some 0
  else
    match firstBadItem itemsLen 0 (items.take itemCount) with
    | some o => some o
    | none => if items.length < itemCount then some (sumN (items.map itemBytesOf)) else none

/-- Group records among items (R182). -/
def itemGroups (items : List Item) : List (Nat × SyncGroup) :=
  items.filterMap fun i => match i.body with
    | .syncGroup r => if i.itemType = 11 && !i.clear then some (i.index, r) else none
    | _ => none

/-- Groups that staged timing records name, for modules whose banks the Headstock does not hold. -/
def itemNames (items : List Item) : List Nat :=
  items.filterMap fun i => match i.body with
    | .headTiming r => if i.itemType = 1 && !i.clear then some r.syncGroup else none
    | _ => none

/-- A copy of a staging command sent on to another position, whose own result is not waited for (R301). -/
def copyStage (pos : Nat) (c : HostCmd) (s : State) : State :=
  let tag := s.queue.nextForward
  emit (.forward (ringTo s pos) pos tag c) (s.modQueue fun q => { q with nextForward := tag + 1 })

/-- What the Headstock remembers of a staging for another module. -/
def noteStaged (id pos : Nat) (items : List Item) (s : State) : State :=
  modTxnAt id (fun t =>
    { t with
      stagedGroups := (itemGroups items).foldl (fun m p => mapPut m (pos * 256 + p.1) p.2) t.stagedGroups,
      groupsOf := mapPut t.groupsOf pos ((mapGetD t.groupsOf pos [] ++ itemNames items).eraseDups) }) s

/-- TXN_STAGE (R301). -/
def txnStageBody (id pos itemCount itemsLen : Nat) (items : List Item) (tk : Ticket) (s : State) : State :=
  if !s.cascade.headstock then complete tk 0x0301 [] s
  else
    match txnOf s id with
    | none => complete tk 0x0310 [] s
    | some t =>
      if !(t.phase = .open_ || t.phase = .valid) then complete tk 0x0311 [] s
      else if !t.parts.contains pos then complete tk 0x0110 [it 4 0] s
      else if !tk.dmaOk then complete tk 0x0500 [] s
      else
        match stageBad itemCount itemsLen items with
        | some o => complete tk 0x0110 [it 4 o] s
        | none =>
          let l := items.take itemCount
          let c : HostCmd := .txnStage id pos itemCount itemsLen items
          let s := setPhase id .open_ s
          let other := twinPos s pos
          if pos = position s || other = some (position s) then
            let s := stageOwn pos l (openPart id s)
            let s := match (if pos = position s then other else some pos) with
              | some q => copyStage q c s
              | none => s
            complete tk 0 [] s
          else
            let s := noteStaged id pos l s
            let s := match other with
              | some q => copyStage q c s
              | none => s
            forwardCmd pos tk c s

/-- TXN_STAGE (R301). -/
def execTxnStage (d : Desc) (id pos itemCount itemsLen : Nat) (items : List Item) (s : State) : Host.Outcome State Fault Refusal :=
  .next (onTake d (.txnStage id pos itemCount itemsLen items) (txnStageBody id pos itemCount itemsLen items) s)

/-- A staging that the Headstock has forwarded to this module, for itself or its twin (R301). -/
def txnStageForwarded (id pos itemCount itemsLen : Nat) (items : List Item) (tk : Ticket) (s : State) : State :=
  match stageBad itemCount itemsLen items with
  | some o => complete tk 0x0110 [it 4 o] s
  | none =>
    let s := openPart id s
    if (s.txn.part.map fun p => decide (p.txn = id && !p.votedYes)).getD false then
      complete tk 0 [] (stageOwn pos (items.take itemCount) s)
    else complete tk 0x0211 [] s

/-! ## Abort (R302, R317) -/

/-- The transaction enters ABORTED: every staged bank is freed, and the command in progress completes (R302). -/
def abortTxn (id status : Nat) (result : Items) (s : State) : State :=
  match txnOf s id with
  | none => s
  | some t =>
    let s := broadcast "TXN_ABORT" [(id : Int)] (setPhase id .aborted s)
    let s := if (s.txn.part.map fun p => decide (p.txn = id)).getD false then freePart s else s
    let report : Items :=
      if t.isCommit then [] else [it 2 id, it 2 status, it 2 0, it 2 0, it 1 0, it 23 0]
    endTicket id status report result s

/-- Phases in which a transaction can be aborted (R302, R317). -/
def abortable : TxnPhase → Bool
  | .open_ | .validating | .valid | .preparing => true
  | _ => false

/-- TXN_ABORT (R317). -/
def txnAbortBody (id : Nat) (tk : Ticket) (s : State) : State :=
  if !s.cascade.headstock then complete tk 0x0301 [] s
  else
    match txnOf s id with
    | none => complete tk 0x0310 [] s
    | some t => if abortable t.phase then complete tk 0 [] (abortTxn id 0x0311 [] s) else complete tk 0x0311 [] s

/-- TXN_ABORT (R317). -/
def execTxnAbort (d : Desc) (id : Nat) (s : State) : Host.Outcome State Fault Refusal :=
  .next (onTake d (.txnAbort id) (txnAbortBody id) s)

/-- TXN_ABORT_RX (R302): a participant that holds no commit frees its staged bank. -/
def execTxnAbortRx (id : Nat) (s : State) : Host.Outcome State Fault Refusal :=
  .next
    (match s.txn.part with
     | some p => if p.txn = id && p.commit.isNone then freePart s else s
     | none => s)

/-- A participant is lost to its transactions: reset or in FAULT, or out of contact (R302, R311). -/
def txnModuleLost (pos : Nat) (reset : Bool) (s : State) : State :=
  s.txn.txns.foldl (fun s p =>
    if !p.2.parts.contains pos then s
    else
      match p.2.phase with
      | .open_ | .validating | .valid => abortTxn p.1 0x0311 [] s
      | .preparing => if reset then abortTxn p.1 0x0311 [] s else s
      | .committed => if reset && outcomeAt p.2 pos = 0 then tolerantDone p.1 (settlePart p.1 pos 5 s) else s
      | .rollingBack => if reset && outcomeAt p.2 pos != 3 && outcomeAt p.2 pos != 4 then settlePart p.1 pos 5 s else s
      | _ => s) s

/-- This module enters FAULT: a part that has not applied is given up, and its scene stays (R311). -/
def txnOwnFault (s : State) : State :=
  match s.txn.part with
  | some p => if p.applied then s else freePart s
  | none => s

/-! ## Commit (R308, R309) -/

/-- Records of the groups that this module's part affects, and of those staged elsewhere (R309). -/
def affectedRecords (s : State) (t : Txn) : List (Nat × SyncGroup) :=
  let own := ((s.txn.part.map PartTxn.groups).getD []).filterMap fun g => (anyGroup s g).map fun r => (g, r)
  let others := t.parts.flatMap fun pos => (mapGetD t.groupsOf pos []).filterMap fun g =>
    ((mapGet t.stagedGroups (pos * 256 + g)).orElse fun _ => anyGroup s g).map fun r => (g, r)
  (own ++ others).foldl (fun m p => mapPut m p.1 p.2) []

/-- The commit is issued, or comes too soon (R309). -/
def issueCommit (id : Nat) (s : State) : State :=
  match txnOf s id with
  | none => s
  | some t =>
    let rs := affectedRecords s t
    let least := s.time.wall + 3 * pMax (rs.map Prod.snd)
    if t.askedNs != 0 && t.askedNs < least then
      let s := broadcast "UNFREEZE" [(id : Int)] (setPhase id .valid (modPart (fun p => { p with votedYes := false }) s))
      endTicket id 0x0112 [] [] s
    else
      let T := if t.askedNs = 0 then least else t.askedNs
      let frames : Map Nat := rs.map fun p => (p.1, applyFrame s p.1 p.2 T)
      let mine := (s.txn.part.map PartTxn.groups).getD []
      let s := modTxnAt id (fun t =>
        { t with
          applyNs := some T, frames := frames, lastSentNs := s.time.mono, acked := if t.parts.contains (position s) then [position s] else [],
          groupsOf := mapPut t.groupsOf (position s) mine }) s
      let s := setPhase id .committed s
      let s := broadcast "COMMIT" ([(id : Int), T] ++ frames.flatMap fun p => [(p.1 : Int), p.2]) s
      takeCommit { txn := id, kind := .commit, applyNs := T, frames := frames } s

/-- The Headstock takes a vote (R302, R309). -/
def takeVote (id pos : Nat) (yes : Bool) (code : Nat) (s : State) : State :=
  match txnOf s id with
  | none => s
  | some t =>
    if t.phase != .preparing || !t.parts.contains pos || mapHas t.votes pos then s
    else
      let s := mirrorTxn id (modTxnAt id (fun t => { t with votes := mapPut t.votes pos (yes, code) }) s)
      let s := txnEvent 0x0181 id [it 1 pos, it 1 (flag yes), it 2 code] s
      if !yes then abortTxn id 0x0312 [it 2 code, it 1 pos] s
      else if t.parts.all fun p => p = pos || mapHas t.votes p then issueCommit id s
      else s

/-- The prepare is sent; this module's own part is prepared and votes at once (R308). -/
def sendPrepare (id : Nat) (s : State) : State :=
  let s := setPhase id .preparing (modTxnAt id (fun t => { t with votes := [], prepareNs := s.time.mono }) s)
  let s := broadcast "PREPARE" [(id : Int)] s
  match txnOf s id with
  | none => s
  | some t =>
    if t.parts.contains (position s) then
      let r := prepareOwn id s
      takeVote id (position s) (r.1 = 0) r.1 r.2
    else s

/-- PREPARE_RX (R308): the checks again, the Tailstock staged banks written, and a vote. -/
def execPrepareRx (id : Nat) (s : State) : Host.Outcome State Fault Refusal :=
  .next
    (if s.cascade.headstock then s
     else
       let r := prepareOwn id s
       emit (.message (headstockBond s) .control "VOTE" [(id : Int), position s, flag (r.1 = 0), r.1]) r.2)

/-- VOTE_RX (R309). -/
def execVoteRx (id pos : Nat) (yes : Bool) (code : Nat) (s : State) : Host.Outcome State Fault Refusal :=
  .next (if s.cascade.headstock then takeVote id pos yes code s else s)

/-- VOTE_TIMEOUT (R302): 50 ms after the prepare, for the first participant that has not voted. -/
def execVoteTimeout (id : Nat) (s : State) : Host.Outcome State Fault Refusal :=
  .next
    (match txnOf s id with
     | none => s
     | some t =>
       if t.phase = .preparing && t.prepareNs + 50000000 ≤ s.time.mono then
         match t.parts.find? fun p => !mapHas t.votes p with
         | some p => abortTxn id 0x0510 [it 2 0, it 1 p] s
         | none => s
       else s)

/-! ## Validation (R303, R307) -/

/-- Cascade checks over all participants (R303, R306): group records that differ, paced groups beyond one pair, loads of pairs. -/
def cascadeChecks (s : State) (t : Txn) : List ReportEntry :=
  let e (pos head item g code d : Nat) : ReportEntry :=
    { position := pos, head := head, itemType := item, index := g, code := code, entryKind := 0, detail := d }
  let carried := t.stagedGroups.map fun p => (p.1 / 256, p.1 % 256, p.2)
  let known (g : Nat) : Option SyncGroup := (mapGet s.scene.other.groups g).orElse fun _ => groupRec s g
  let differ := carried.filter fun p => ((known p.2.1).map fun r => decide (r != p.2.2)).getD false
    || carried.any fun q => q.2.1 = p.2.1 && q.2.2 != p.2.2
  let apart := carried.filter fun p => p.2.2.mode != 0 && (mapHas s.scene.other.groups p.2.1 || carried.any fun q =>
    q.2.1 = p.2.1 && q.1 != p.1 && twinPos s p.1 != some q.1)
  let heavy := t.results.filter fun p => p.1 != position s && (Config.twinMbps < p.2.1.twinTxMbps || Config.twinMbps < p.2.1.twinRxMbps)
  differ.map (fun p => e p.1 0xFF 11 p.2.1 0x0164 0) ++ apart.map (fun p => e p.1 0xFF 11 p.2.1 0x0166 0)
    ++ heavy.map fun p => e p.1 0xFF 0 0 0x02D0 (max p.2.1.twinTxMbps p.2.1.twinRxMbps)

/-- A module summary in its layout (R307). -/
def summaryItems (v : ValSummary) : Items :=
  [it 1 v.position, it 1 v.maxSpans, it 1 v.pipes, it 1 0, it 4 v.fetchMpxs, it 4 v.c0DecodeMsps, it 4 v.c0ProbeMpxs, it 4 v.twinTxMbps,
   it 4 v.twinRxMbps, it 4 v.out0Mbps, it 4 v.out1Mbps]

/-- A report entry in its layout (R307). -/
def entryReport (e : ReportEntry) : Items :=
  [it 1 e.position, it 1 e.head, it 1 e.itemType, it 1 e.index, it 2 e.code, it 1 e.entryKind, it 1 0, it 4 e.detail, it 4 0]

/-- The validation report within its buffer (R307). -/
def validationReport (id status len : Nat) (results : List (ValSummary × List ReportEntry)) (entries : List ReportEntry) : Items :=
  let room := (len - 32) / 32
  let sums := (results.map Prod.fst).take room
  let kept := entries.take ((len - 32 - 32 * sums.length) / 16)
  [it 2 id, it 2 status, it 2 kept.length, it 2 (entries.length - kept.length), it 1 sums.length, it 23 0]
    ++ sums.flatMap summaryItems ++ kept.flatMap entryReport

/-- Every result is in: the phase moves, and the command goes on or ends (R302, R307). -/
def validationDone (id : Nat) (s : State) : State :=
  match txnOf s id with
  | none => s
  | some t =>
    if t.phase != .validating || !(t.parts.all fun p => mapHas t.results p) then s
    else
      let entries := (mapVals t.results).flatMap Prod.snd ++ cascadeChecks s t
      let code := firstCode entries
      let s := setPhase id (if code = 0 then .valid else .open_) s
      if t.isCommit then (if code = 0 then sendPrepare id s else endTicket id code [] [] s)
      else endTicket id code (validationReport id code t.reportLen (mapVals t.results) entries) [] s

/-- A participant's result is taken (R303). -/
def takeResult (id pos : Nat) (v : ValSummary) (l : List ReportEntry) (s : State) : State :=
  match txnOf s id with
  | none => s
  | some t =>
    if t.phase != .validating || !t.parts.contains pos then s
    else validationDone id (modTxnAt id (fun t => { t with results := mapPut t.results pos (v, l) }) s)

/-- Entries of this module's report: failures, then prescale notes (R307). -/
def ownEntries (s : State) : List ReportEntry := validate s s.scene.other ++ prescaleNotes s s.scene.other

/-- Validation begins: every participant is asked, and this module's own checks are made at once (R302, R303). -/
def startValidation (id : Nat) (s : State) : State :=
  let s := setPhase id .validating (modTxnAt id (fun t => { t with results := [] }) s)
  let s := broadcast "VALIDATION_REQUEST" [(id : Int)] s
  match txnOf s id with
  | none => s
  | some t =>
    if t.parts.contains (position s) then
      let s := openPart id s
      takeResult id (position s) (summarise s s.scene.other) (ownEntries s) s
    else s

/-- VALIDATION_REQUEST_RX (R303). -/
def execValidationRequestRx (id : Nat) (s : State) : Host.Outcome State Fault Refusal :=
  .next
    (if s.cascade.headstock || !inService s then s
     else
       let s := openPart id s
       if (s.txn.part.map fun p => decide (p.txn = id)).getD false then
         let l := ownEntries s
         emit (.message (headstockBond s) .control "VALIDATION_RESULT"
           ([(id : Int), position s, firstCode l] ++ ((summaryItems (summarise s s.scene.other)).map Prod.snd)
             ++ l.flatMap fun e => (entryReport e).map Prod.snd)) s
       else s)

/-- VALIDATION_RESULT_RX (R303, R307). -/
def execValidationResultRx (id pos : Nat) (v : ValSummary) (l : List ReportEntry) (s : State) : Host.Outcome State Fault Refusal :=
  .next (if s.cascade.headstock then takeResult id pos v l s else s)

/-- TXN_VALIDATE (R302, R307). -/
def txnValidateBody (id len : Nat) (tk : Ticket) (s : State) : State :=
  if !s.cascade.headstock then complete tk 0x0301 [] s
  else
    match txnOf s id with
    | none => complete tk 0x0310 [] s
    | some t =>
      if t.phase != .open_ || t.ticket.isSome then complete tk 0x0311 [] s
      else if len < 64 then complete tk 0x0110 [] s
      else startValidation id (modTxnAt id (fun t => { t with ticket := some tk, isCommit := false, reportLen := len }) s)

/-- TXN_VALIDATE (R307). -/
def execTxnValidate (d : Desc) (id len : Nat) (s : State) : Host.Outcome State Fault Refusal :=
  .next (onTake d (.txnValidate id len) (txnValidateBody id len) s)

/-- An activation is scheduled on a participant before T plus 3 P_max (R308, R468). -/
def activationMeets (s : State) (t : Txn) (asked : Nat) : Bool :=
  let p := pMax ((affectedRecords s t).map Prod.snd)
  let T := if asked = 0 then s.time.wall + 3 * p else asked
  let own := s.update.phase = .scheduled || s.update.phase = .activating
  let near := match s.update.activateNs with
    | some a => decide (a < T + 3 * p)
    | none => false
  near && ((own && t.parts.contains (position s))
    || (s.update.activate.map fun j => t.parts.any fun q => j.mask.contains q).getD false)

/-- TXN_COMMIT (R302, R308). -/
def txnCommitBody (id apply len : Nat) (tk : Ticket) (s : State) : State :=
  if !s.cascade.headstock then complete tk 0x0301 [] s
  else
    match txnOf s id with
    | none => complete tk 0x0310 [] s
    | some t =>
      if !(t.phase = .open_ || t.phase = .valid) || t.ticket.isSome then complete tk 0x0311 [] s
      else if len < 1040 || (apply != 0 && s.time.wall + 60 * second < apply) then complete tk 0x0110 [] s
      else if activationMeets s t apply then complete tk 0x03C0 [] s
      else
        let s := modTxnAt id (fun t => { t with ticket := some tk, isCommit := true, reportLen := len, askedNs := apply }) s
        if t.phase = .valid then sendPrepare id s else startValidation id s

/-- TXN_COMMIT (R308). -/
def execTxnCommit (d : Desc) (id apply len : Nat) (s : State) : Host.Outcome State Fault Refusal :=
  .next (onTake d (.txnCommit id apply len) (txnCommitBody id apply len) s)

/-- TXN_STATUS (R318): the apply report, within the buffer. -/
def txnStatusBody (id len : Nat) (tk : Ticket) (s : State) : State :=
  if !s.cascade.headstock then complete tk 0x0301 [] s
  else
    match txnOf s id with
    | none => complete tk 0x0310 [] s
    | some t =>
      if len < 16 then complete tk 0x0110 [] s
      else completeWrite tk (applyReportItems id t len) [] s

/-- TXN_STATUS (R318). -/
def execTxnStatus (d : Desc) (id len : Nat) (s : State) : Host.Outcome State Fault Refusal :=
  .next (onTake d (.txnStatus id len) (txnStatusBody id len) s)

/-! ## Laggards, cancel, decision, rollback (R309 to R313) -/

/-- Participants that have not acknowledged the commit. -/
def unacked (t : Txn) : List Nat := t.parts.filter fun p => !t.acked.contains p

/-- Resend to one participant: the commit, or after T a re-target, with TXN_RETARGET for each group (R309, R311). -/
def resendTo (id : Nat) (t : Txn) (T : Nat) (s : State) (pos : Nat) : State :=
  if t.lockstep || s.time.wall < T then
    broadcast "COMMIT" ([(id : Int), T] ++ t.frames.flatMap fun p => [(p.1 : Int), p.2]) s
  else
    let f : Map Nat := t.frames.map fun p =>
      (p.1, if ((anyGroup s p.1).map fun r => decide (latchAt s T 1 p.1 (p.2 + 1) r ≤ s.time.wall)).getD false then p.2 + 2 else p.2 + 1)
    let s := broadcast "RETARGET" ((id : Int) :: f.flatMap fun p => [(p.1 : Int), (p.2 : Int)]) s
    f.foldl (fun s p => txnEvent 0x0183 id [it 1 pos, it 1 p.1, it 6 p.2] s) s

/-- COMMIT_RESEND (R309, R311): every 1 ms, to those who have not acknowledged; after T to those who are pending. -/
def execCommitResend (id : Nat) (s : State) : Host.Outcome State Fault Refusal :=
  .next
    (match txnOf s id with
     | none => s
     | some t =>
       match t.applyNs with
       | none => s
       | some T =>
         let over_ := !t.lockstep && latest T (latches s T t.frames 2) ≤ s.time.wall
         if s.cascade.headstock && t.phase = .committed && !over_ && t.lastSentNs + 1000000 ≤ s.time.mono then
           let s := modTxnAt id (fun t => { t with lastSentNs := s.time.mono }) s
           ((unacked t).filter fun p => outcomeAt t p = 0).foldl (resendTo id t T) s
         else s)

/-- At the cancel point: a module of a pair whose twin takes part, has acknowledged, and is ACTIVE or STANDBY (R311). -/
def coveredByAck (s : State) (t : Txn) (pos : Nat) : Bool :=
  match twinPos s pos with
  | some q => t.parts.contains q && t.acked.contains q && ((modInfo s q).map fun m => m.role == 1 || m.role == 2).getD false
  | none => false

/-- CANCEL_POINT (R311): lockstep, at T − P_max. -/
def execCancelPoint (id : Nat) (s : State) : Host.Outcome State Fault Refusal :=
  .next
    (match txnOf s id with
     | none => s
     | some t =>
       match t.applyNs with
       | none => s
       | some T =>
         let due := T - pMax ((affectedRecords s t).map Prod.snd)
         if s.cascade.headstock && t.lockstep && t.phase = .committed && !t.cancelled && due ≤ s.time.wall
             && (unacked t).any fun p => !coveredByAck s t p then
           let s := setPhase id .rollingBack (modTxnAt id (fun t => { t with cancelled := true }) s)
           takeCommit { txn := id, kind := .cancel, applyNs := T, frames := t.frames } (broadcast "CANCEL" [(id : Int)] s)
         else s)

/-- Covered: applied, or the module of a pair whose twin applied (R311). -/
def covered (s : State) (t : Txn) (pos : Nat) : Bool :=
  let ok (p : Nat) : Bool := outcomeAt t p = 1 || outcomeAt t p = 2
  ok pos || match twinPos s pos with
    | some q => ok q
    | none => false

/-- DECISION_POINT (R311): lockstep, 1 ms after the latest latch point of the apply frames. -/
def execDecisionPoint (id : Nat) (s : State) : Host.Outcome State Fault Refusal :=
  .next
    (match txnOf s id with
     | none => s
     | some t =>
       match t.applyNs with
       | none => s
       | some T =>
         let D := latest T (latches s T t.frames 0) + 1000000
         if s.cascade.headstock && t.lockstep && t.phase = .committed && D ≤ s.time.wall then
           let open_ := t.parts.filter fun p => outcomeAt t p = 0
           if open_.any fun p => !covered s t p then
             let s := broadcast "ROLLBACK" [(id : Int)] (setPhase id .rollingBack s)
             takeCommit { txn := id, kind := .rollback, applyNs := T, frames := t.frames } s
           else finishTxn id .applied 0 (open_.foldl (fun s p => settlePart id p 5 s) s)
         else s)

/-- LAGGARD_EXPIRY (R311, R313): past the latch points for N + 2 a tolerant transaction's laggards are LEFT, and a part that
has applied nothing is given up. -/
def execLaggardExpiry (id : Nat) (s : State) : Host.Outcome State Fault Refusal :=
  .next
    (let s := match s.txn.part with
       | some p =>
         if p.txn = id && p.commit.isSome && !p.applied
             && latest (partT p) (latches s (partT p) p.frames (if p.late then 0 else 2)) < s.time.wall then freePart s
         else s
       | none => s
     match txnOf s id with
     | none => s
     | some t =>
       match t.applyNs with
       | none => s
       | some T =>
         if s.cascade.headstock && !t.lockstep && t.phase = .committed && latest T (latches s T t.frames 2) ≤ s.time.wall then
           tolerantDone id ((t.parts.filter fun p => outcomeAt t p = 0).foldl (fun s p => settlePart id p 5 s) s)
         else s)

/-- ROLLBACK_COMPLETE (R302, R311): every participant is CANCELLED, ROLLED_BACK or LEFT; one that past the latch points for
N + 2 is neither cancelled nor restored is LEFT. -/
def execRollbackComplete (id : Nat) (s : State) : Host.Outcome State Fault Refusal :=
  .next
    (match txnOf s id with
     | none => s
     | some t =>
       let done (o : Nat) : Bool := o = 3 || o = 4 || o = 5
       let over_ := latest (t.applyNs.getD 0) (latches s (t.applyNs.getD 0) t.frames 2) ≤ s.time.wall
       if s.cascade.headstock && t.phase = .rollingBack && (over_ || t.parts.all fun p => done (outcomeAt t p)) then
         let s := (t.parts.filter fun p => !done (outcomeAt t p)).foldl (fun s p => settlePart id p 5 s) s
         finishTxn id .abortedAfterCommit 0x0313 s
       else s)

/-- CONTACT_LOSS_TIMEOUT (R313): out of contact with the Headstock, a bank not voted for is freed after 50 ms, one voted for
without a commit 60 s after the vote, and one with a commit past its latch points for N + 2. -/
def execContactLossTimeout (s : State) : Host.Outcome State Fault Refusal :=
  .next
    (match s.txn.part with
     | none => s
     | some p =>
       match p.lostNs with
       | none => s
       | some t =>
         let due :=
           if p.applied then false
           else if !p.votedYes then t + 50000000 ≤ s.time.mono
           else if p.commit.isNone then p.votedNs + 60 * second ≤ s.time.mono
           else latest (partT p) (latches s (partT p) p.frames 2) ≤ s.time.wall
         if due then freePart s else s)

/-- SCENE_GEN_RX (R299, R314): a module behind its twin sends priority 0 until their generations agree again. -/
def execSceneGenRx (gen : Nat) (s : State) : Host.Outcome State Fault Refusal :=
  .next
    (if s.cascade.twinUp then
      let s := s.modCascade fun c => { c with twin := c.twin.map fun t => { t with sceneGen := gen } }
      s.modScene fun c => { c with twinGen := gen, behind := decide (0 < modDiff 32 gen c.gen) }
    else s)

end Sys2Proof.Machine
end

