-- ==== Sys2Proof/Machine/Link.lean ====
section
/-! DEFINITION. Luasin (R320 to R336): lanes and their states, the frames a lane sends, what a received frame does, the
retransmission of CONTROL and BULK, and lane tests. -/

namespace Sys2Proof.Machine

open Sys2Proof

/-! ## Classes and registers -/

/-- Value of a class (R326). -/
def classValue : TClass → Nat
  | .idle => 0 | .beat => 1 | .verdict => 2 | .line => 3 | .control => 4 | .ret => 5 | .bulk => 6

/-- The classes a bond carries (R320). -/
def bondCarries (b : Bond) (c : TClass) : Bool :=
  match b with
  | .toTailstock | .twin => c == .idle || c == .verdict || c == .line || c == .control || c == .bulk
  | .toMain => c == .idle || c == .control || c == .ret || c == .bulk
  | .east | .west => c == .idle || c == .beat || c == .control || c == .bulk

/-- CONTROL and BULK are retransmitted (R327). -/
def retxClass (c : TClass) : Bool := c == .control || c == .bulk

/-- A value limited to a range, as R330's register fields act. -/
def limited (lo hi v : Nat) : Nat := if v < lo then lo else if hi < v then hi else v

/-- Retransmission timeout in ns (LINK.TIMING). -/
def retxNs (s : State) : Nat := limited 2 64 s.link.retxUs * 1000
/-- CRC failures within 64 slots that take a lane down (LINK.TIMING). -/
def downCrc (s : State) : Nat := limited 2 64 s.link.downCrc

/-! ## Lane states (R332) -/

/-- The port scope of a lane's events and its number in them (R336). -/
def laneScope (k : Nat) : Nat := if k < 4 then 24 else if k < 8 then 25 else if k < 20 then 26 else 27
/-- Number of a lane in events. -/
def laneNo (k : Nat) : Nat := if k < 32 then k else k - 32

/-- A lane changed by `f`. -/
def modLane (k : Nat) (f : LaneRt → LaneRt) (s : State) : State := s.modLink fun l => { l with lanes := mapPut l.lanes k (f (mapGetD l.lanes k LaneRt.init)) }

/-- Key of a bond. -/
def bondKey : Bond → Nat
  | .toTailstock => 0 | .toMain => 1 | .east => 2 | .west => 3 | .twin => 4

/-- A bond's runtime. -/
def bondRt (s : State) (b : Bond) : BondRt := mapGetD s.link.bonds (bondKey b) BondRt.init

/-- A bond changed by `f`. -/
def modBond (b : Bond) (f : BondRt → BondRt) (s : State) : State :=
  s.modLink fun l => { l with bonds := mapPut l.bonds (bondKey b) (f (mapGetD l.bonds (bondKey b) BondRt.init)) }

/-- The bond of a lane. -/
def bondOfLane (k : Nat) : Bond := if k < 4 then .east else if k < 8 then .west else if k < 20 then .twin else if k < 56 then .toTailstock else .toMain

/-- Lanes of a bond that carry frames: UP or in LOW_RATE (R332, R334). -/
def carrying (s : State) (b : Bond) : List Nat := (bondLanes b).filter fun k => (laneRt s k).state = 3 || (laneRt s k).state = 5

/-- The lane of a ring bond that carries beats: lane 0, or its lowest that is up (R351). -/
def beatLane (s : State) (b : Bond) : Option Nat := (carrying s b).head?

/-- A ring link as its bond's lanes leave it: up or down, and unmeasured on a newly chosen lane (R337, R351). -/
def relink (before after : Option Nat) (d : LinkDelay) : LinkDelay :=
  if before = after then d else { d with up := after.isSome, halves := [], outstanding := none, refused := false }

/-- What follows a change of a bond's lanes: BOND_WIDTH, and the ring link (R332, R337). -/
def afterLane (k before : Nat) (lane : Option Nat) (s : State) : State :=
  let b := bondOfLane k
  let n := (lanesUp s b).length
  let now := s.time.mono
  let s := if n = before then s
    else
      let s := modBond b (fun x => { x with downNs := if n = 0 then some now else none }) s
      raise 0x0EA2 .port (laneScope k) [it 1 before, it 1 n] s
  match b with
  | .east => s.modCascade fun c => { c with east := relink lane (beatLane s .east) c.east }
  | .west => s.modCascade fun c => { c with west := relink lane (beatLane s .west) c.west }
  | _ => s

/-- A lane enters a state, with LANE_STATE; causes: 0 signal, 1 marker, 2 CRC, 3 skew, 4 bond down, 5 test, 6 sleep,
7 command (R332, R336). -/
def setLane (k new cause : Nat) (s : State) : State :=
  let old := (laneRt s k).state
  if old = new then s
  else
    let before := (lanesUp s (bondOfLane k)).length
    let lane := beatLane s (bondOfLane k)
    let now := s.time.mono
    let s := modLane k (fun l => { l with state := new, sinceNs := now, crcSlots := [] }) s
    let s := raise 0x0EA0 .port (laneScope k) [it 1 (laneNo k), it 1 old, it 1 new, it 1 cause] s
    afterLane k before lane s

/-- LANE_ERRORS, at most once a second for a lane, where a count of it has risen since it was last told (R336). -/
def tellLane (k : Nat) (s : State) : State :=
  let l := laneRt s k
  let cur := [l.crc, l.marker, l.run, l.retx]
  let last := if l.told.isEmpty then [0, 0, 0, 0] else l.told
  let due := match mapGet s.queue.limiters (limKey 0x0EA1 k 0) with
    | none => true
    | some (t, _) => t + second ≤ s.time.mono
  if cur = last || !due then s
  else
    let inc := (cur.zip last).map fun p => it 4 (p.1 - p.2)
    let now := s.time.mono
    let s := s.modQueue fun q => { q with limiters := mapPut q.limiters (limKey 0x0EA1 k 0) (now, 0) }
    raise 0x0EA1 .port (laneScope k) (it 1 (laneNo k) :: inc) (modLane k (fun l => { l with told := cur }) s)

/-- LINK.LANE_EN: a lane whose bit is cleared is DISABLED, one whose bit is set leaves DISABLED for DOWN (R332). -/
def laneEnable (mask : Nat) (s : State) : State :=
  (List.range 20).foldl (fun s k =>
    if !bit mask k then setLane k 0 7 s else if (laneRt s k).state = 0 then setLane k 1 7 s else s) s

/-- The lanes of a module whose main domain goes down: EAST.0 and WEST.0 in LOW_RATE, the other ring lanes DISABLED, and with
`twin` the twin lanes as well (R334, R415, R449). -/
def lanesSleep (twin : Bool) (s : State) : State :=
  (List.range (if twin then 20 else 8)).foldl (fun s k =>
    if k = 0 || k = 4 then (if (laneRt s k).state = 3 then setLane k 5 6 s else s) else setLane k 0 6 s) s

/-- The lanes of a module that leaves LOW_RATE: it retrains, and the enabled lanes leave DISABLED (R334). -/
def lanesWake (s : State) : State :=
  (List.range 20).foldl (fun s k =>
    if (laneRt s k).state = 5 then setLane k 2 6 s
    else if (laneRt s k).state = 0 && bit s.link.laneEn k then setLane k 1 6 s
    else s) s

/-! ## Messages as bytes (R328 to R330, R351) -/

/-- Bits of a pixel in a line token of a format, and their number (R328). -/
def tokenPixel (format : Nat) (c : Rgb) : Nat :=
  if format = 1 || format = 3 then c.b + c.g * 1024 + c.r * 1048576
  else
    let e (v : Nat) : Nat := min ((v + 2) / 4) 255
    e c.b + e c.g * 256 + e c.r * 65536

/-- Pixels packed as a little-endian bit stream (R328). -/
def packPixels (format : Nat) (l : List Rgb) : List Byte :=
  let w := if format = 1 || format = 3 then 30 else 24
  leBytes (ceilDiv (w * l.length) 8) ((l.foldr (fun c v => tokenPixel format c + v * 2 ^ w) 0 : Nat) : Int)

/-- A line token or an idle token (R328, R329). -/
def tokenBytes (format : Nat) (t : LineToken) : List Byte :=
  if t.idle then itemBytes [it 6 t.frameNo, it 2 0xFFFF, it 1 t.head, it 7 0]
  else itemBytes (spanListItems t.frameNo t.line t.head t.spans) ++ packPixels format t.pixels

/-- A beat or delay message (R351). -/
def beatBytes (m : BeatMsg) : List Byte :=
  itemBytes [it 1 m.kind, it 1 m.hops, it 1 m.origin, it 1 (flag m.westGoing + flag m.originLocked * 2), it 4 m.epoch,
    it 4 m.seq, it 4 0, it 8 m.spindleNs, (8, m.correctionPs), it 980 0]

/-- Length of a message's content. -/
def bodyLength : MsgBody → Nat
  | .token f t => (tokenBytes f t).length
  | .update _ l => 4 + 2 * l.length
  | .bitmap _ _ => 1028
  | .beat _ => 1012
  | .unlisted n => Config.messageLength n

/-- Bytes of a message's content; of a message without a layout they are free values. -/
def bodyBytes (off len : Nat) : MsgBody → List Byte
  | .token f t => ((tokenBytes f t).drop off).take len
  | .update q l =>
    ((itemBytes ([it 1 0, it 1 l.length, it 2 q] ++ l.map fun p => it 2 (p.1 + flag p.2 * 32768))).drop off).take len
  | .bitmap q m => ((itemBytes [it 1 1, it 1 0, it 2 q, (1024, (m.toNat : Int))]).drop off).take len
  | .beat m => ((beatBytes m).drop off).take len
  | .unlisted n => (List.range len).map fun i => Config.messageByte n (off + i)

/-- The claim word that every frame of a LINE message carries (R329). -/
def bodyClaim : MsgBody → Nat
  | .token _ t => claimWord t.claim
  | _ => 0

/-! ## Frames and slots (R321 to R324) -/

/-- A frame to send: header fields and content. -/
structure TxFrame where
  (cls : TClass)
  (first last : Bool)
  (ackKind seq claimOrAck : Nat)
  (content : List Byte)

/-- The 1,024 bytes of a frame on a lane of a bond (R324). -/
def frameBytes (lane : Nat) (f : TxFrame) : List Byte :=
  let head := itemBytes
    [it 1 ((classValue f.cls) + flag f.first * 8 + flag f.last * 16 + f.ackKind * 32), it 1 lane, it 2 f.seq, it 2 f.claimOrAck,
     it 2 f.content.length]
  let body := head ++ (f.content ++ List.replicate 1012 0).take 1012
  body ++ leBytes 4 ((crc32c body).toNat : Int)

/-- Bits in the order of the line: byte by byte, bit 0 first (R321). -/
def lineBits (l : List Byte) : List Bool := l.flatMap fun b => (List.range 8).map fun i => b.getLsbD i

/-- One step of PRBS31, x³¹ + x²⁸ + 1: its output and its next state (R323). -/
def prbsStep (v : Nat) : Bool × Nat :=
  (bit v 30, v * 2 % 2147483648 + flag (bit v 30 != bit v 27))

/-- Bits scrambled additively from a state of the generator (R323). -/
def scramble : Nat → List Bool → List Bool
  | _, [] => []
  | v, b :: t => (b != (prbsStep v).1) :: scramble (prbsStep v).2 t

/-- The seed of a frame (R323). -/
def prbsSeed (lane seq : Nat) : Nat := 0x40000000 + lane * 0x10000 + seq

/-- Bits with stuffed bits: after 30 identical bits one of the opposite value, which starts a new count of 1 (R322).
`last` and `n` are the bit before and its count. -/
def stuff : List Bool → Bool → Nat → List Bool
  | [], last, n => if n = 30 then [!last] else []
  | b :: t, last, n =>
    if n = 30 then
      (!last) :: (if b = !last then b :: stuff t b 2 else b :: stuff t b 1)
    else if n != 0 && b = last then b :: stuff t b (n + 1)
    else b :: stuff t b 1

/-- Alternating bits from the complement of `last` (R321). -/
def fillBits : Nat → Bool → List Bool
  | 0, _ => []
  | n + 1, last => (!last) :: fillBits n (!last)

/-- The bits of a slot, and how many bits beyond the thirteenth were stuffed (R321 to R323). -/
def slotBits (lane seq : Nat) (bytes : List Byte) : List Bool × Nat :=
  let bits := lineBits (bytes.take 8) ++ scramble (prbsSeed lane seq) (lineBits (bytes.drop 8))
  let sent := stuff bits false 0
  let extra := sent.length - bits.length
  let fill := fillBits (13 - extra) (sent.getLastD false)
  ([false] ++ List.replicate 33 true ++ [false] ++ sent ++ fill, extra - 13)

/-! ## What a lane sends (R325 to R327, R330) -/

/-- A line token's line is due or past at its Tailstock, this module's or with `twin` the twin's (R330). -/
def tokenPast (s : State) (twin : Bool) (t : LineToken) : Bool :=
  let tm := (headScene s.scene.inForce (if twin then t.head + 32 else t.head)).timing
  let g := groupRt s tm.syncGroup
  match g.frame, groupRec s tm.syncGroup with
  | some n, some r =>
    decide (modDiff 48 t.frameNo n < 0) || (t.frameNo = n && decide (g.startNs + linesNs r (vTotal tm) t.line ≤ s.time.mono))
  | _, _ => false

/-- A waiting message that is dropped whole: a line token that is late, or a beat on a link not yet measured (R330, R351). -/
def dropsMessage (s : State) (m : QMsg) : Bool :=
  if m.started then false
  else
    match m.body with
    | .token _ t => !t.idle && tokenPast s (m.relay || m.bond = .twin) t
    | .beat x => x.kind = 0 && (if m.bond = .east then s.cascade.east.halves.length else s.cascade.west.halves.length) < 16
    | _ => false

/-- The first waiting message of a bond and class; one that the Tailstock relays, as far as it has it. -/
def waitingOf (s : State) (b : Bond) (c : TClass) : Option QMsg :=
  (s.link.waiting.find? fun m => m.bond = b && m.cls = c).filter fun m =>
    (m.arrived.map fun n => m.sent < n || bodyLength m.body ≤ n).getD true

/-- Something of a class can go on a bond: a frame to send again, or a new one within 256 unacknowledged (R327). -/
def canSend (s : State) (b : Bond) (c : TClass) : Bool :=
  let sent := mapGetD (bondRt s b).sent (classValue c) []
  (retxClass c && sent.any SentFrame.again) || ((waitingOf s b c).isSome && (!retxClass c || sent.length < 256))

/-- The class that goes next on a lane: the highest priority (R326); BEAT only on the beat lane (R351). -/
def nextClass (s : State) (b : Bond) (k : Nat) (noLine : Bool) : TClass :=
  (([.beat, .verdict, .line, .control, .ret, .bulk] : List TClass).find? fun c =>
    bondCarries b c && canSend s b c && (c != .beat || beatLane s b = some k) && !(noLine && c = .line)).getD .idle

/-- Part of a message as a frame to send, from `off`. -/
def partFrame (c : TClass) (seq off len : Nat) (first last : Bool) (body : MsgBody) : TxFrame :=
  { cls := c, first := first, last := last, ackKind := 0, seq := seq, claimOrAck := bodyClaim body, content := bodyBytes off len body }

/-- The waiting messages after a frame of the first one of a bond and class: longer sent, or gone. -/
def advanceMsg (b : Bond) (c : TClass) (off : Nat) (last : Bool) : List QMsg → List QMsg
  | [] => []
  | m :: t =>
    if m.bond = b && m.cls = c then (if last then t else { m with sent := off, started := true } :: t)
    else m :: advanceMsg b c off last t

/-- The Tailstock has the first `n` bytes of a relayed message: it begins with the message's first frame, and goes on with the rest (R320). -/
def relayFrame (m : QMsg) (c : TClass) (n : Nat) (l : List QMsg) : List QMsg :=
  if !m.relay then l
  else if m.sent = 0 then l ++ [{ m with bond := .twin, relay := false, arrived := some n, sent := 0, started := false }]
  else l.map fun x => if x.bond = .twin && x.cls = c && x.arrived = some m.sent then { x with arrived := some n } else x

/-- The frames of a class after the first marked again is resent. -/
def resendFirst (now : Nat) : List SentFrame → List SentFrame
  | [] => []
  | f :: t => if f.again then { f with again := false, sentNs := now, resends := f.resends + 1 } :: t else f :: resendFirst now t

/-- The next frame of a class on a bond, and the state in which it is sent. -/
def nextFrameOn (b : Bond) (c : TClass) (k : Nat) (s : State) : TxFrame × State :=
  let sent := mapGetD (bondRt s b).sent (classValue c) []
  let now := s.time.mono
  match (if retxClass c then sent.find? SentFrame.again else none) with
  | some f =>
    let s := modBond b (fun x => { x with sent := mapPut x.sent (classValue c) (resendFirst now sent) }) s
    (partFrame c f.seq f.offset f.length f.first f.last f.body, tellLane k (modLane k (fun l => { l with retx := l.retx + 1 }) s))
  | none =>
    let seq := mapGetD (bondRt s b).txSeq (classValue c) 0
    match waitingOf s b c with
    | none =>
      ({ cls := c, first := false, last := false, ackKind := 0, seq := seq, claimOrAck := 0, content := [] },
       modBond b (fun x => { x with txSeq := mapPut x.txSeq (classValue c) (seq16 (seq + 1)) }) s)
    | some m =>
      let total := bodyLength m.body
      let len := min 1012 (m.arrived.getD total - m.sent)
      let first := m.sent = 0
      let last := total ≤ m.sent + len
      let f : SentFrame := { seq := seq, offset := m.sent, length := len, first := first, last := last, body := m.body, sentNs := now, resends := 0, again := false }
      let s := s.modLink fun l =>
        { l with waiting := relayFrame m c (m.sent + len) (advanceMsg b c (m.sent + len) last l.waiting) }
      let s := modBond b (fun x =>
        { x with
          txSeq := mapPut x.txSeq (classValue c) (seq16 (seq + 1)),
          sent := if retxClass c then mapPut x.sent (classValue c) (sent ++ [f]) else x.sent }) s
      (partFrame c seq m.sent len first last m.body, s)

/-- An acknowledgement owed goes in the header of a frame of a class other than LINE (R327). -/
def addAck (b : Bond) (f : TxFrame) (s : State) : TxFrame × State :=
  let x := bondRt s b
  match x.acks with
  | [] => (f, s)
  | (c, _) :: _ =>
    if f.cls = .line then (f, s)
    else
      ({ f with ackKind := if c = (classValue TClass.control) then 1 else 2, claimOrAck := mapGetD x.rxSeq c 65535 },
       modBond b (fun x => { x with acks := mapDel x.acks c }) s)

/-- Bits at the rate of a lane: in LOW_RATE each lasts 8 line bit times (R334). -/
def lineRate (s : State) (k : Nat) (l : List Bool) : List Bool := if (laneRt s k).state = 5 then l.flatMap (List.replicate 8) else l

/-- One slot of a lane that carries frames (R321, R326). -/
def sendSlot (b : Bond) (lane k : Nat) (noLine : Bool) (s : State) : State :=
  let s := s.modLink fun l => { l with waiting := l.waiting.filter fun m => !(m.bond = b && dropsMessage s m) }
  let r := nextFrameOn b (nextClass s b k noLine) k s
  let r := addAck b r.1 r.2
  let bytes := frameBytes lane r.1
  let bits := slotBits lane r.1.seq bytes
  let s := if bits.2 = 0 then r.2 else modLane k (fun l => { l with stuffing := l.stuffing + bits.2 }) r.2
  emit (.luasin b lane bytes (lineRate s k bits.1)) s

/-- One slot of a lane in TRAINING: an IDLE frame (R332). How it reports the receiver's progress has no layout in the manual. -/
def trainSlot (b : Bond) (lane k : Nat) (s : State) : State :=
  let r := nextFrameOn b .idle k s
  let bytes := frameBytes lane r.1
  emit (.luasin b lane bytes (slotBits lane r.1.seq bytes).1) r.2

/-- The lanes run: the main section's while it is powered, EAST.0 and WEST.0 with the management domain, the Tailstock's while it is powered,
and the internal ones while both of their ends are. -/
def lanePowered (s : State) (k : Nat) : Bool :=
  if k = 0 || k = 4 then s.power.managementUp
  else if k < 8 then mainUp s || s.module.mode = .starting
  else s.ts.powered && (k < 20 || mainUp s || s.module.mode = .starting)

/-- LANE_SLOT (R321, R326, R332, R335): a lane UP or in LOW_RATE sends the waiting frame of highest priority, a lane in
TRAINING an IDLE frame, a lane in TEST the pattern PRBS31. -/
def execLaneSlot (b : Bond) (lane : Nat) (s : State) : Host.Outcome State Fault Refusal :=
  .next
    (match (bondLanes b)[lane]? with
     | none => s
     | some k =>
       if !lanePowered s k then s
       else
         match (laneRt s k).state with
         | 3 | 5 => sendSlot b lane k false s
         | 2 => trainSlot b lane k s
         | 4 => emit (.luasinPattern b lane "PRBS31") s
         | _ => s)

/-- ACK_DUE (R327): an acknowledgement owed is sent at once, in an outgoing frame of a class other than LINE or in an IDLE frame. -/
def execAckDue (b : Bond) (c : TClass) (s : State) : Host.Outcome State Fault Refusal :=
  .next
    (match (carrying s b).head? with
     | none => s
     | some k => if mapHas (bondRt s b).acks (classValue c) then sendSlot b ((bondLanes b).findIdx fun j => j = k) k true s else s)

/-! ## What a lane receives (R322, R325 to R327) -/

/-- A frame is accepted (R325); a lane in LOW_RATE carries no LINE, VERDICT or RETURN (R334). -/
def frameOk (b : Bond) (lane : Nat) (low : Bool) (f : LuasinFrame) : Bool :=
  f.crcOk && bondCarries b f.cls && f.lane = lane && f.rz && !(low && (f.cls = .line || f.cls = .verdict || f.cls = .ret))

/-- An accepted frame of a retransmitted class: only the next in order is taken, and an acknowledgement is owed (R327). -/
def takeOrdered (b : Bond) (f : LuasinFrame) (s : State) : State :=
  let now := s.time.mono
  modBond b (fun x =>
    let next := match mapGet x.rxSeq (classValue f.cls) with
      | none => 0
      | some q => seq16 (q + 1)
    { x with
      rxSeq := if f.seq = next then mapPut x.rxSeq (classValue f.cls) f.seq else x.rxSeq,
      rxOpen := if f.seq = next then mapPut x.rxOpen (classValue f.cls) (!f.last) else x.rxOpen,
      acks := if mapHas x.acks (classValue f.cls) then x.acks else mapPut x.acks (classValue f.cls) now }) s

/-- An accepted frame of another class: a missing sequence number within a message discards it; after a gap only a first frame
is accepted (R326). -/
def takeLoose (b : Bond) (f : LuasinFrame) (s : State) : State :=
  modBond b (fun x =>
    let inOrder := match mapGet x.rxSeq (classValue f.cls) with
      | none => false
      | some q => f.seq = seq16 (q + 1)
    let open_ := if f.first then !f.last else inOrder && mapGetD x.rxOpen (classValue f.cls) false && !f.last
    { x with rxSeq := mapPut x.rxSeq (classValue f.cls) f.seq, rxOpen := mapPut x.rxOpen (classValue f.cls) open_ }) s

/-- The acknowledgement in a frame's header frees the frames up to its sequence number (R324, R327). -/
def takeAck (b : Bond) (f : LuasinFrame) (s : State) : State :=
  if f.cls = .line || f.ackKind = 0 || 2 < f.ackKind then s
  else
    let c := if f.ackKind = 1 then (classValue TClass.control) else (classValue TClass.bulk)
    modBond b (fun x =>
      { x with sent := mapUpd x.sent c fun l => l.filter fun y => decide (0 < modDiff 16 y.seq f.claimOrAck) }) s

/-- LUASIN_FRAME_RX (R322, R325 to R327, R335): a frame with a run violation, and any frame not accepted, is discarded and
counted. -/
def execLuasinFrameRx (b : Bond) (lane : Nat) (f : LuasinFrame) (s : State) : Host.Outcome State Fault Refusal :=
  .next
    (match (bondLanes b)[lane]? with
     | none => s
     | some k =>
       let st := (laneRt s k).state
       if !lanePowered s k || !(st = 2 || st = 3 || st = 5) then s
       else
         let s := modLane k (fun l => { l with slots := l.slots + 1 }) s
         if f.runViolation then tellLane k (modLane k (fun l => { l with run := l.run + 1 }) s)
         else if !frameOk b lane (st = 5) f then
           tellLane k (modLane k (fun l => { l with crc := l.crc + 1, crcSlots := (l.slots :: l.crcSlots).take 64 }) s)
         else if st = 2 then s
         else
           let s := if f.cls = .idle then s else if retxClass f.cls then takeOrdered b f s else takeLoose b f s
           takeAck b f s)

/-- A bond is declared down: every lane UP goes DOWN, and what is not acknowledged is delivered later (R327, R332). -/
def bondDown (b : Bond) (s : State) : State :=
  let s := modBond b (fun x =>
    { x with sent := x.sent.map fun p => (p.1, p.2.map fun f => { f with again := true, resends := 0 }) }) s
  (lanesUp s b).foldl (fun s k => setLane k 1 4 s) s

/-- RETX_TIMEOUT (R327): the oldest frame not acknowledged in time and every later one of its class are sent again; after 32
resends of it the bond is declared down. -/
def execRetxTimeout (b : Bond) (c : TClass) (s : State) : Host.Outcome State Fault Refusal :=
  .next
    (if !retxClass c then s
     else
       match mapGetD (bondRt s b).sent (classValue c) [] with
       | [] => s
       | f :: t =>
         if f.again || s.time.mono < f.sentNs + retxNs s then s
         else if 32 ≤ f.resends then bondDown b s
         else modBond b (fun x => { x with sent := mapPut x.sent (classValue c) ((f :: t).map fun y => { y with again := true }) }) s)

/-! ## Training and loss (R331 to R334) -/

/-- SIGNAL_DETECT (R332): a DOWN lane trains; a lane in LOW_RATE whose neighbour sends at full rate again trains as well (R334). -/
def execSignalDetect (b : Bond) (lane : Nat) (s : State) : Host.Outcome State Fault Refusal :=
  .next
    (match (bondLanes b)[lane]? with
     | none => s
     | some k =>
       let st := (laneRt s k).state
       if lanePowered s k && (st = 1 || (st = 5 && mainUp s && s.module.mode != .fault)) then setLane k 2 0 s else s)

/-- TRAINING_COMPLETE (R331, R332): the lane joins its bond, or is not admitted for its skew; a lane UP whose skew has grown beyond the
limit goes DOWN. -/
def execTrainingComplete (b : Bond) (lane skewNs : Nat) (s : State) : Host.Outcome State Fault Refusal :=
  .next
    (match (bondLanes b)[lane]? with
     | none => s
     | some k =>
       if (laneRt s k).state = 3 && 120 < skewNs then setLane k 1 3 s
       else if (laneRt s k).state != 2 then s
       else
         let s := modLane k (fun l => { l with trainings := l.trainings + 1 }) s
         if 120 < skewNs then setLane k 1 3 s else setLane k 3 0 s)

/-- TRAINING_TIMEOUT (R332): no completion within 1 ms. -/
def execTrainingTimeout (b : Bond) (lane : Nat) (s : State) : Host.Outcome State Fault Refusal :=
  .next
    (match (bondLanes b)[lane]? with
     | none => s
     | some k =>
       if (laneRt s k).state = 2 && (laneRt s k).sinceNs + 1000000 ≤ s.time.mono then setLane k 1 1 s else s)

/-- MARKER_LOSS (R332): four slots in a row without a marker, or too many CRC failures within 64 slots, take a lane down. -/
def execMarkerLoss (b : Bond) (lane : Nat) (byCrc : Bool) (s : State) : Host.Outcome State Fault Refusal :=
  .next
    (match (bondLanes b)[lane]? with
     | none => s
     | some k =>
       let l := laneRt s k
       if l.state != 3 then s
       else if byCrc then
         let n := (l.crcSlots.filter fun x => l.slots < x + 64).length
         if downCrc s ≤ n then setLane k 1 2 s else s
       else setLane k 1 1 (tellLane k (modLane k (fun l => { l with marker := l.marker + 4, slots := l.slots + 4 }) s)))

/-- SLEEP_ORDER_RX (R334): the lane to the neighbour that sleeps, or loses V_CORE, runs in LOW_RATE. -/
def execSleepOrderRx (east _faultOrder : Bool) (s : State) : Host.Outcome State Fault Refusal :=
  .next
    (let k := if east then 0 else 4
     if (laneRt s k).state = 3 then setLane k 5 6 s else s)

/-! ## Commands (R335) -/

/-- The record of a lane in LANE_COUNTERS. -/
def laneItems (s : State) (k : Nat) : Items :=
  let l := laneRt s k
  [it 1 k, it 1 l.state, it 1 (lanesUp s (bondOfLane k)).length, it 5 0, it 8 l.crc, it 8 l.marker, it 8 l.run, it 8 l.stuffing,
   it 8 l.retx, it 8 l.trainings, it 8 0]

/-- LANE_COUNTERS (R335). -/
def laneCountersBody (lane : Nat) (tk : Ticket) (s : State) : State :=
  if lane = 0xFF then completeWrite tk ((List.range 20).flatMap (laneItems s)) [] s
  else if lane < 20 then completeWrite tk (laneItems s lane) [] s
  else complete tk 0x01E0 [] s

/-- LANE_COUNTERS (R335). -/
def execLaneCounters (d : Desc) (lane : Nat) (s : State) : Host.Outcome State Fault Refusal :=
  .next (onTake d (.laneCounters lane) (laneCountersBody lane) s)

/-- Another lane of a lane's bond, or of the ring, carries the test's messages away from this module (R335). -/
def controlPath (s : State) (lane : Nat) : Bool :=
  (carrying s (bondOfLane lane) ++ carrying s .east ++ carrying s .west).any fun k => k != lane

/-- LANE_TEST (R335): refused on a lane in service at either end, and where no path can carry the test's messages; `pathBeyond` says that
the way beyond this module's own lanes can. -/
def laneTestBody (lane durationMs : Nat) (farAllows pathBeyond : Bool) (tk : Ticket) (s : State) : State :=
  if 19 < lane || durationMs = 0 || 60000 < durationMs then complete tk 0x01E0 [] s
  else if ((laneRt s lane).state = 3 && s.module.mode != .maintenance) || (laneRt s lane).state = 4 || !farAllows then
    complete tk 0x03E0 [] s
  else if !(controlPath s lane && pathBeyond) then complete tk 0x05E0 [] s
  else
    let now := s.time.mono
    setLane lane 4 5 (s.modLink fun l =>
      { l with tests := mapPut l.tests lane { lane := lane, ticket := tk, durationMs := durationMs, startNs := now } })

/-- LANE_TEST (R335). -/
def execLaneTest (d : Desc) (lane durationMs : Nat) (farAllows pathBeyond : Bool) (s : State) : Host.Outcome State Fault Refusal :=
  .next (onTake d (.laneTest lane durationMs farAllows pathBeyond) (laneTestBody lane durationMs farAllows pathBeyond) s)

/-- LANE_TEST_END (R335): after its duration, with the bit errors at both ends and the bits compared. -/
def execLaneTestEnd (lane errorsHere errorsFar bits : Nat) (s : State) : Host.Outcome State Fault Refusal :=
  .next
    (match mapGet s.link.tests lane with
     | none => s
     | some t =>
       if s.time.mono < t.startNs + t.durationMs * 1000000 then s
       else
         let s := setLane lane 2 5 (s.modLink fun l => { l with tests := mapDel l.tests lane })
         complete t.ticket 0 [it 4 errorsHere, it 4 errorsFar, it 4 bits] s)

end Sys2Proof.Machine
end

