-- ==== Sys2Proof/Machine/Phases.lean ====
section
/-! DEFINITION. Firmware update as shared operations (R459 to R470): the checks of a Colilo header, the two banks, the update
phases, the work that the Headstock carries out on several modules, and the hitless sequence of a twin pair. -/

namespace Sys2Proof.Machine

open Sys2Proof

/-! ## Colilo images (R459, R460) -/

/-- The number in `n` bytes of a list, least significant first (R2). -/
def leAt (l : List Byte) (i : Nat) : Nat → Nat
  | 0 => 0
  | n + 1 => u8 l i + 256 * leAt l (i + 1) n

/-- `n` bytes of a list from byte `i` on. -/
def bytesFrom (l : List Byte) (i n : Nat) : List Byte := (l.drop i).take n

/-- The number in bytes, most significant first. -/
def natOfBe (l : List Byte) : Nat := l.foldl (fun n b => n * 256 + b.toNat) 0

/-- Section entry `i` of a header (R459). -/
def sectionEntry (l : List Byte) (i : Nat) : ColiloSection :=
  let o := 112 + 16 * i
  { kind := u8 l o, engineReplaceable := bit (u8 l (o + 1)) 0, offset := leAt l (o + 4) 4, length := leAt l (o + 8) 4, crc := leAt l (o + 12) 4 }

/-- The flags and the reserved bytes of section entry `i` (R459). -/
def sectionClean (l : List Byte) (i : Nat) : Bool :=
  let o := 112 + 16 * i
  u8 l (o + 1) ≤ (if u8 l o = 3 || u8 l o = 4 then 1 else 0) && zeroBytes l (o + 2) (o + 4) && 1 ≤ u8 l o && u8 l o ≤ 4

/-- The header that 512 bytes hold (R459). -/
def readColilo (h : HeaderBytes) : Colilo :=
  let l := h.bytes
  let n := min (u8 l 96) 16
  { magicOk := l.take 8 = [0x43, 0x4F, 0x4C, 0x49, 0x4C, 0x4F, 0x0D, 0x0A], headerVersion := u16 l 8, headerLen := u16 l 10
    hwType := leAt l 12 4, minSilicon := u8 l 16, minBoard := u8 l 17, unitBound := bit (u8 l 18) 0, unitSerial := leAt l 24 8
    version := leAt l 32 4, rollback := leAt l 36 4, bodyLen := leAt l 40 8, bodyHash := natOfBe (bytesFrom l 48 48), sectionCount := u8 l 96
    keyId := u8 l 97, sections := (List.range n).map (sectionEntry l), sigOk := h.sigOk
    rz := l.length = 512 && u16 l 18 ≤ 1 && zeroBytes l 20 24 && (bit (u8 l 18) 0 || zeroBytes l 24 32) && zeroBytes l 98 112
      && (List.range n).all (sectionClean l) && zeroBytes l (112 + 16 * n) 448 }

/-- A section lies within the body and overlaps no other of the list. -/
def sectionsApart (body : Nat) : List ColiloSection → Bool
  | [] => true
  | x :: t => x.offset + x.length ≤ body && (t.all fun y => !overlaps x.offset x.length y.offset y.length) && sectionsApart body t

/-- Check 1 of R460. -/
def headerFormOk (h : Colilo) : Bool :=
  h.magicOk && h.headerVersion = 1 && h.headerLen = 512 && h.rz && 1 ≤ h.sectionCount && h.sectionCount ≤ 16
    && 1 ≤ h.bodyLen && h.bodyLen ≤ 67108352 && h.sections.length = h.sectionCount && sectionsApart h.bodyLen h.sections
    && (h.sections.filter fun x => x.kind = 1).length = 1 && (h.sections.filter fun x => x.kind = 2).length = 1

/-! ## SHA-384 (R459) -/

/-- The round constants of SHA-384 (FIPS 180-4, which R459 names by the hash): the fractions of the cube roots of the first 80 primes. -/
def shaK : List Nat :=
  [0x428A2F98D728AE22, 0x7137449123EF65CD, 0xB5C0FBCFEC4D3B2F, 0xE9B5DBA58189DBBC, 0x3956C25BF348B538,
   0x59F111F1B605D019, 0x923F82A4AF194F9B, 0xAB1C5ED5DA6D8118, 0xD807AA98A3030242, 0x12835B0145706FBE,
   0x243185BE4EE4B28C, 0x550C7DC3D5FFB4E2, 0x72BE5D74F27B896F, 0x80DEB1FE3B1696B1, 0x9BDC06A725C71235,
   0xC19BF174CF692694, 0xE49B69C19EF14AD2, 0xEFBE4786384F25E3, 0x0FC19DC68B8CD5B5, 0x240CA1CC77AC9C65] ++
  [0x2DE92C6F592B0275, 0x4A7484AA6EA6E483, 0x5CB0A9DCBD41FBD4, 0x76F988DA831153B5, 0x983E5152EE66DFAB,
   0xA831C66D2DB43210, 0xB00327C898FB213F, 0xBF597FC7BEEF0EE4, 0xC6E00BF33DA88FC2, 0xD5A79147930AA725,
   0x06CA6351E003826F, 0x142929670A0E6E70, 0x27B70A8546D22FFC, 0x2E1B21385C26C926, 0x4D2C6DFC5AC42AED,
   0x53380D139D95B3DF, 0x650A73548BAF63DE, 0x766A0ABB3C77B2A8, 0x81C2C92E47EDAEE6, 0x92722C851482353B] ++
  [0xA2BFE8A14CF10364, 0xA81A664BBC423001, 0xC24B8B70D0F89791, 0xC76C51A30654BE30, 0xD192E819D6EF5218,
   0xD69906245565A910, 0xF40E35855771202A, 0x106AA07032BBD1B8, 0x19A4C116B8D2D0C8, 0x1E376C085141AB53,
   0x2748774CDF8EEB99, 0x34B0BCB5E19B48A8, 0x391C0CB3C5C95A63, 0x4ED8AA4AE3418ACB, 0x5B9CCA4F7763E373,
   0x682E6FF3D6B2B8A3, 0x748F82EE5DEFB2FC, 0x78A5636F43172F60, 0x84C87814A1F0AB72, 0x8CC702081A6439EC] ++
  [0x90BEFFFA23631E28, 0xA4506CEBDE82BDE9, 0xBEF9A3F7B2C67915, 0xC67178F2E372532B, 0xCA273ECEEA26619C,
   0xD186B8C721C0C207, 0xEADA7DD6CDE0EB1E, 0xF57D4F7FEE6ED178, 0x06F067AA72176FBA, 0x0A637DC5A2C898A6,
   0x113F9804BEF90DAE, 0x1B710B35131C471B, 0x28DB77F523047D84, 0x32CAAB7B40C72493, 0x3C9EBE0A15C9BEBC,
   0x431D67C49C100D4C, 0x4CC5D4BECB3E42B6, 0x597F299CFC657E2A, 0x5FCB6FAB3AD6FAEC, 0x6C44198C4A475817]

/-- The initial hash value of SHA-384. -/
def shaInit : List Nat :=
  [0xCBBB9D5DC1059ED8, 0x629A292A367CD507, 0x9159015A3070DD17, 0x152FECD8F70E5939,
   0x67332667FFC00B31, 0x8EB44A8768581511, 0xDB0C2E0D64F98FA7, 0x47B5481DBEFA4FA4]

/-- A 64-bit word rotated right. -/
def rotr64 (x : BitVec 64) (n : Nat) : BitVec 64 := x.rotateRight n

/-- The message padded to whole blocks of 128 bytes. -/
def shaPad (l : List Byte) : List Byte :=
  l ++ [0x80] ++ List.replicate ((239 - l.length % 128) % 128) 0 ++ (leBytes 16 (8 * l.length)).reverse

/-- The 80 words of the message schedule, the latest first, from the words of a block, the latest first. -/
def shaSchedule : Nat → List (BitVec 64) → List (BitVec 64)
  | 0, w => w
  | n + 1, w =>
    let at_ (i : Nat) : BitVec 64 := (w[i]?).getD 0
    let a := at_ 14
    let c := at_ 1
    let s0 := rotr64 a 1 ^^^ rotr64 a 8 ^^^ (a >>> 7)
    let s1 := rotr64 c 19 ^^^ rotr64 c 61 ^^^ (c >>> 6)
    shaSchedule n ((at_ 15 + s0 + at_ 6 + s1) :: w)

/-- The eight working variables of the hash. -/
structure ShaVars where
  (a b c d e f g h : BitVec 64)
deriving DecidableEq, Repr, Inhabited

/-- One round with its constant plus its word. -/
def shaRound (v : ShaVars) (kw : BitVec 64) : ShaVars :=
  let t1 := v.h + (rotr64 v.e 14 ^^^ rotr64 v.e 18 ^^^ rotr64 v.e 41) + ((v.e &&& v.f) ^^^ (~~~v.e &&& v.g)) + kw
  let t2 := (rotr64 v.a 28 ^^^ rotr64 v.a 34 ^^^ rotr64 v.a 39) + ((v.a &&& v.b) ^^^ (v.a &&& v.c) ^^^ (v.b &&& v.c))
  ⟨t1 + t2, v.a, v.b, v.c, v.d + t1, v.e, v.f, v.g⟩

/-- One block of 128 bytes taken into the hash. -/
def shaBlock (v : ShaVars) (block : List Byte) : ShaVars :=
  let first := (List.range 16).map fun i => BitVec.ofNat 64 (natOfBe (bytesFrom block (8 * i) 8))
  let w := (shaSchedule 64 first.reverse).reverse
  let r := ((shaK.zip w).map fun p => BitVec.ofNat 64 p.1 + p.2).foldl shaRound v
  ⟨v.a + r.a, v.b + r.b, v.c + r.c, v.d + r.d, v.e + r.e, v.f + r.f, v.g + r.g, v.h + r.h⟩

/-- The SHA-384 of bytes, as a number whose first byte is its most significant one. -/
def sha384 (l : List Byte) : Nat :=
  let at_ (i : Nat) : BitVec 64 := BitVec.ofNat 64 ((shaInit[i]?).getD 0)
  let p := shaPad l
  let v := (List.range (p.length / 128)).foldl (fun v i => shaBlock v (bytesFrom p (128 * i) 128))
    ⟨at_ 0, at_ 1, at_ 2, at_ 3, at_ 4, at_ 5, at_ 6, at_ 7⟩
  [v.a, v.b, v.c, v.d, v.e, v.f].foldl (fun n x => n * 18446744073709551616 + x.toNat) 0

/-! ## The checks of an image (R460, R462) -/

/-- The body matches its header: its length, its hash and the CRC of every section (R462). -/
def bodyMatches (h : Colilo) (body : List Byte) : Bool :=
  body.length = h.bodyLen && sha384 body = h.bodyHash && h.sections.all fun x => (crc32c (bytesFrom body x.offset x.length)).toNat = x.crc

/-- The status of the first check of R460 that an image header fails; 0 when it passes them all. -/
def headerFault (h : Colilo) (s : State) : Nat :=
  if !headerFormOk h then 0x06C0
  else if !(h.keyId ≤ 1 && h.sigOk) then 0x06C3
  else if h.hwType != Config.part || Config.steppingSilicon < h.minSilicon || Config.steppingBoard < h.minBoard then 0x06C1
  else if h.unitBound && h.unitSerial != Config.serial then 0x06C2
  else if h.rollback < s.update.rollback then 0x06C4
  else 0

/-! ## Banks and phases (R442, R461, R463) -/

/-- The other of the two banks. -/
def otherBank (n : Nat) : Nat := if n = 0 then 1 else 0

/-- The image of a bank. -/
def bankStored (s : State) (n : Nat) : Option Image := if n = 0 then s.update.bankA else s.update.bankB

/-- The header of a bank's image. -/
def bankImage (s : State) (n : Nat) : Option Colilo := (bankStored s n).map Image.head

/-- A bank's image replaced; none leaves the bank empty. -/
def setBank (n : Nat) (image : Option Image) (s : State) : State :=
  s.modUpdate fun u => if n = 0 then { u with bankA := image } else { u with bankB := image }

/-- The inactive bank: the one that IDENT.BOOT.BANK does not name (R461). -/
def idleBank (s : State) : Nat := otherBank s.module.bank

/-- The version of a bank's image; 0 of an empty bank. -/
def bankVersion (s : State) (n : Nat) : Nat := ((bankImage s n).map Colilo.version).getD 0

/-- The staged image, in the phases that have one. -/
def stagedImage (s : State) : Option Colilo :=
  match s.update.phase with
  | .staged | .scheduled | .activating => bankImage s (idleBank s)
  | _ => none

/-- A change of update phase, with UPDATE_PHASE (R463, R472). -/
def enterPhase (new : Phase) (bank version : Nat) (s : State) : State :=
  let old := s.update.phase
  if old = new then s
  else raiseMod 0x0C80 [it 1 old.value, it 1 new.value, it 1 bank, it 4 version] (s.modUpdate fun u => { u with phase := new })

/-- UPDATE_REFUSED, of port scope 17: status, body bytes accepted, image version (R472). -/
def updateRefused (status accepted version : Nat) (s : State) : State :=
  raise 0x0C81 .port 17 [it 2 status, it 8 accepted, it 4 version] s

/-- The image that a distribution brings is given up: the bank stays empty, and the module returns to IDLE (R463, R466). -/
def dropInbound (s : State) : State :=
  match s.update.inbound with
  | none => s
  | some _ => enterPhase .idle (idleBank s) 0 (setBank (idleBank s) none (s.modUpdate fun u => { u with inbound := none }))

/-- UPDATE_FAILED; causes 0 FALLBACK, 1 NO_SWAP, 2 TWIN_LINK (R472). -/
def updateFailed (cause step bank : Nat) (s : State) : State := raiseMod 0x0C82 [it 1 cause, it 1 step, it 1 bank] s

/-- A module that is SCHEDULED returns to STAGED (R463). -/
def unschedule (s : State) : State :=
  if s.update.phase = .scheduled then
    enterPhase .staged (idleBank s) (bankVersion s (idleBank s)) (s.modUpdate fun u => { u with activateNs := none })
  else s

/-- A module that is STAGED is to activate at an instant (R463, R467). -/
def schedule (instant : Nat) (s : State) : State :=
  enterPhase .scheduled (idleBank s) (bankVersion s (idleBank s)) (s.modUpdate fun u => { u with activateNs := some instant })

/-! ## Work on several modules (R466, R467) -/

/-- A mask of positions. -/
def maskOf (l : List Nat) : Nat := sumN (l.eraseDups.map fun p => 2 ^ p)

/-- The positions of a mask. -/
def positionsOf (mask : Nat) : List Nat := (List.range 64).filter fun p => bit mask p

/-- The distribution or the activation that this module conducts, or takes part in for the Headstock. -/
def jobOf (s : State) (distribute : Bool) : Option UpdateJob := if distribute then s.update.distribute else s.update.activate

/-- That work replaced. -/
def setJob (distribute : Bool) (j : Option UpdateJob) (s : State) : State :=
  s.modUpdate fun u => if distribute then { u with distribute := j } else { u with activate := j }

/-- The command completes once every module of the mask has reported; its result is the mask of those that came through. -/
def settleJob (distribute : Bool) (s : State) : State :=
  match jobOf s distribute with
  | none => s
  | some j =>
    if j.mask.all fun p => j.done.contains p then complete j.ticket 0 [it 8 (maskOf j.ok)] (setJob distribute none s) else s

/-- A module has reported: it came through or it did not. -/
def reportJob (distribute : Bool) (pos : Nat) (ok : Bool) (s : State) : State :=
  let add (j : UpdateJob) : UpdateJob := { j with done := pos :: j.done, ok := if ok then pos :: j.ok else j.ok }
  settleJob distribute (setJob distribute ((jobOf s distribute).map add) s)

/-! ## The hitless sequence (R469, R470) -/

/-- The sequence stops: a module not yet restarted returns to STAGED, UPDATE_FAILED tells the step reached, and the command completes
with UPDATE_IN_PROGRESS (R470). -/
def stopHitless (cause : Nat) (s : State) : State :=
  match s.update.hitless with
  | none => s
  | some h =>
    let s := unschedule (s.modUpdate fun u => { u with hitless := none })
    let s := updateFailed cause h.step (idleBank s) s
    match h.ticket with
    | some tk => complete tk 0x03C0 [] s
    | none => s

/-- The sequence has reached a step. -/
def hitlessStep (n : Nat) (s : State) : State :=
  s.modUpdate fun u => { u with hitless := u.hitless.map fun h => { h with step := n } }

/-- The sequence ends well: both modules are in TRIAL. -/
def endHitless (s : State) : State :=
  match s.update.hitless with
  | none => s
  | some h =>
    let s := s.modUpdate fun u => { u with hitless := none }
    match h.ticket with
    | some tk => complete tk 0 [] s
    | none => s

/-- What the twin's version at pairing tells the sequence: its new image runs, or it fell back (R469, R470). -/
def hitlessPaired (version : Nat) (s : State) : State :=
  match s.update.hitless with
  | none => s
  | some h =>
    if !h.first && h.step < 5 then
      if version = bankVersion s (idleBank s) then hitlessStep 2 s else stopHitless 0 s
    else if h.first && h.step = 5 && version != s.module.fwVersion then stopHitless 0 s
    else s

/-- What the twin's presence tells the sequence: it has caught up with its new image (R469, steps 3 and 5). -/
def hitlessHeard (s : State) : State :=
  match s.update.hitless, s.cascade.twin with
  | some h, some t =>
    if s.cascade.role = .active && t.role = .standby && t.caughtUp then
      if h.first && h.step = 5 then endHitless s
      else if !h.first && 2 ≤ h.step && h.step < 4 then
        let now := s.time.mono
        s.modUpdate fun u => { u with hitless := some { h with step := 4, caughtUpNs := some now } }
      else s
    else s
  | _, _ => s

/-- This module has caught up with its new image (R469, steps 3 and 5). -/
def hitlessCaughtUp (s : State) : State :=
  match s.update.hitless with
  | none => s
  | some h =>
    if !h.first && h.step = 5 then endHitless s
    else if h.first && 2 ≤ h.step && h.step < 4 then
      let now := s.time.mono
      s.modUpdate fun u => { u with hitless := some { h with step := 4, caughtUpNs := some now } }
    else s

end Sys2Proof.Machine
end

