-- ==== Sys2Proof/Machine/Cascade.lean ====
section
/-! DEFINITION. The ring, the Headstock role, the Spindle beat and the twin pair (R337 to R362). -/

namespace Sys2Proof.Machine

open Sys2Proof

/-! ## Commands in flight at other modules (R293, R343, R347) -/

/-- Work on several modules, and a hitless update, outlive a reset of a module that they restart (R467, R469). -/
def outlives (tk : Ticket) : Bool := tk.kind = 0x0C01 || tk.kind = 0x0C02 || tk.kind = 0x0C03

/-- Forwarded commands that `p` selects, by ticket and target, complete with a status (R293, R347). -/
def endForwards (p : Ticket → Nat → Bool) (status : Nat) (s : State) : State :=
  let l := s.queue.forwards.filter fun f => p f.2.1 f.2.2
  let s := s.modQueue fun q => { q with forwards := q.forwards.filter fun f => !p f.2.1 f.2.2 }
  l.foldl (fun s f => completeAs f.2.1 status f.2.2 true [] s) s

/-! ## The Headstock role (R345 to R348) -/

/-- The states and twin roles in which a candidate may hold the Headstock role (R346). -/
def mayHold (s : State) : Bool :=
  inService s && (s.cascade.role = .active || s.cascade.role = .alone)

/-- HEADSTOCK: taken or given up, cause (0 START, 1 SWAP, 2 LOSS, 3 REJOIN), the old holder's position, the epoch (R362). -/
def headstockEvent (taken : Bool) (cause old : Nat) (s : State) : State :=
  raiseMod 0x0D83 [it 1 (flag taken), it 1 cause, it 1 old, it 4 s.cascade.epoch] s

/-- The role is taken: the next epoch, and after another holder RDY_BSY# is busy until the doorbells are served (R347). -/
def takeHeadstock (cause : Nat) (s : State) : State :=
  let old := s.cascade.headstockPos
  let s := s.modCascade fun c =>
    { c with
      headstock := true, handover := cause != 0, epoch := (c.epoch + 1) % 4294967296, beatSeq := 0,
      headstockPos := if c.posValid then c.position else 0, beatOrigin := if c.posValid then c.position else 0, beatHops := 0 }
  headstockEvent true cause old s

/-- The role is given up: what was forwarded completes with CASCADE_HANDOVER (R346, R347, R361). -/
def giveHeadstock (cause : Nat) (s : State) : State :=
  let s := endForwards (fun _ _ => true) 0x03D1 s
  let s := s.modCascade fun c => { c with headstock := false, handover := false }
  headstockEvent false cause (position s) s

/-- A holder whose state or twin role no longer allows it gives the role up at once (R346). -/
def checkHeadstock (cause : Nat) (s : State) : State :=
  if s.cascade.headstock && !mayHold s then giveHeadstock cause s else s

/-- The twin tells that it does not hold the role, or no beat from another origin has come for 20 ms (R346). -/
def roleFree (s : State) : Bool :=
  (match s.cascade.twin with
   | some t => s.cascade.twinUp && !t.ident.headstock
   | none => false)
  || (match s.cascade.lastBeatNs with
      | none => true
      | some t => t + 20000000 ≤ s.time.mono)

/-- HEADSTOCK_TAKE (R346, R347): a candidate takes the role, or its holder gives it up. -/
def execHeadstockTake (s : State) : Host.Outcome State Fault Refusal :=
  .next
    (if s.cascade.headstock then checkHeadstock 2 s
     else if s.module.masterSel && s.cascade.candidate && mayHold s && roleFree s then
       takeHeadstock (if s.cascade.lastBeatNs.isSome then 2 else 0) s
     else s)

/-- HEADSTOCK_SERVICE_READY (R347): the new holder serves its doorbells. -/
def execHeadstockServiceReady (s : State) : Host.Outcome State Fault Refusal :=
  .next (s.modCascade fun c => { c with handover := false })

/-! ## Discovery and positions (R337 to R341, R345) -/

/-- DISCOVERY (R339): the Headstock sends it both ways. -/
def execDiscovery (s : State) : Host.Outcome State Fault Refusal :=
  .next
    (if s.cascade.headstock then
      let now := s.time.mono
      broadcast "DISCOVERY" [(Config.serial : Int), flag s.module.masterSel, flag s.module.sideB]
        (s.modCascade fun c => { c with discovering := true, discoveryNs := now })
    else s)

/-- What is kept of a module that discovery finds, whatever its position. -/
def knownBySerial (s : State) (serial : Nat) : Option (Nat × ModInfo) := s.cascade.modules.find? fun p => p.2.serial = serial

/-- A module as discovery tells it; what presence told stays. -/
def foundInfo (s : State) (m : DiscModule) : ModInfo :=
  let old := (knownBySerial s m.serial).map Prod.snd
  { serial := m.serial, state := m.state, role := m.twinRole, sceneGen := (old.map ModInfo.sceneGen).getD 0,
    bootCount := (old.map ModInfo.bootCount).getD 0, masterSel := m.masterSel, sideB := m.sideB,
    caughtUp := (old.map ModInfo.caughtUp).getD false, inContact := (old.map ModInfo.inContact).getD false,
    twinSerial := m.twinSerial, lastNs := (old.map ModInfo.lastNs).getD 0 }

/-- The lowest position not in a list; none when all 64 are taken (R340). -/
def lowestFree (taken : List Nat) : Option Nat := (List.range 64).find? fun p => !taken.contains p

/-- Step 1 of R340: modules of the cascade identity keep their stored positions, the first reached eastwards before others. -/
def keepPositions (identity : Nat) : List DiscModule → List Nat → List (DiscModule × Option Nat)
  | [], _ => []
  | m :: t, taken =>
    match (if m.storedIdentity = some identity then m.storedPosition else none) with
    | some p => if 64 ≤ p || taken.contains p then (m, none) :: keepPositions identity t taken else (m, some p) :: keepPositions identity t (p :: taken)
    | none => (m, none) :: keepPositions identity t taken

/-- Step 2 of R340: every other module takes the lowest free position, eastwards. -/
def fillPositions : List (DiscModule × Option Nat) → List Nat → List (DiscModule × Option Nat)
  | [], _ => []
  | (m, some p) :: t, taken => (m, some p) :: fillPositions t taken
  | (m, none) :: t, taken =>
    match lowestFree taken with
    | some p => (m, some p) :: fillPositions t (p :: taken)
    | none => (m, none) :: fillPositions t taken

/-- Positions of the modules found, after those already taken. -/
def assignPositions (identity own : Nat) (l : List DiscModule) : List (DiscModule × Option Nat) :=
  let kept := keepPositions identity l [own]
  fillPositions kept (own :: kept.filterMap Prod.snd)

/-- POSITION_ASSIGNED where a stored value changes; 0xFF for no previous position (R340, R362). -/
def tellAssigned (identity serial new : Nat) (oldIdentity oldPosition : Option Nat) (s : State) : State :=
  if oldIdentity = some identity && oldPosition = some new then s
  else raiseMod 0x0D81 [it 1 new, it 1 (oldPosition.getD 0xFF), it 8 identity, it 8 serial] s

/-- This module's position and the cascade identity, stored in management flash (R340). -/
def storePosition (identity pos : Nat) (s : State) : State :=
  s.modCascade fun c => { c with position := pos, posValid := true, storedIdentity := some identity, storedPosition := some pos }

/-- The ring state after a discovery (R339). -/
def ringAfter (s : State) (returned : Bool) (found : List DiscModule) : RingState :=
  let missing := s.cascade.modules.any fun p => !(found.any fun m => m.serial = p.2.serial)
  if found.isEmpty && s.cascade.modules.isEmpty && !s.cascade.east.up && !s.cascade.west.up then .single
  else if returned then .intact
  else if missing then .split
  else .broken

/-- RING_STATE at a change (R339, R362); of a down link, the end that this module has is known, any other end is not told. -/
def setRing (r : RingState) (s : State) : State :=
  if s.cascade.ring = r then s
  else
    let old := s.cascade.ring
    let s := s.modCascade fun c => { c with ring := r }
    if r = .intact || r = .single then raiseMod 0x0D80 [it 1 old.value, it 1 r.value] s
    else
      let a := draw s
      let b := draw a.2
      let s := b.2
      let here := if !s.cascade.east.up then some 0 else if !s.cascade.west.up then some 1 else none
      let ends : Items := match here with
        | some p => [it 1 (position s), it 1 p, it 1 (a.1 % 64), it 1 (1 - p)]
        | none => [it 1 (a.1 % 64), it 1 0, it 1 (b.1 % 64), it 1 1]
      raiseMod 0x0D80 ([it 1 old.value, it 1 r.value] ++ ends) s

/-- Serial numbers of the modules that act as candidates (R345). -/
def candidatesOf (l : List (Nat × Option Nat)) : List Nat :=
  match l with
  | [] => []
  | (a, _) :: t =>
    let low := t.foldl (fun m p => min m p.1) a
    let twin := (l.find? fun p => p.1 = low).bind Prod.snd
    (l.map Prod.fst).filter fun n => n = low || twin = some n

/-- The strapped modules are judged: this module, where it may not act as a candidate, raises CASCADE_CONFIG (R345). -/
def judgeCandidates (found : List DiscModule) (s : State) : State :=
  let own := if s.module.masterSel then [(Config.serial, s.cascade.twin.map fun t => t.ident.serial)] else []
  let l := own ++ (found.filter DiscModule.masterSel).map fun m => (m.serial, m.twinSerial)
  let ok := (candidatesOf l).contains Config.serial
  let was := s.cascade.candidate
  let s := s.modCascade fun c => { c with candidate := ok || !s.module.masterSel }
  if s.module.masterSel && was && !ok then raiseMod 0x0D82 [it 1 1, it 8 Config.serial] s else s

/-- The modules found at their positions; those not found any more stay known until a discovery returns (R339). -/
def mergeModules (s : State) (returned : Bool) (l : List (DiscModule × Option Nat)) : Map ModInfo :=
  let stay := if returned then [] else s.cascade.modules.filter fun p => !(l.any fun x => x.1.serial = p.2.serial)
  l.foldl (fun m x => match x.2 with
    | some p => mapPut m p (foundInfo s x.1)
    | none => m) stay

/-- A ring link changed. -/
def modDelay (east : Bool) (f : LinkDelay → LinkDelay) (s : State) : State :=
  s.modCascade fun c => if east then { c with east := f c.east } else { c with west := f c.west }

/-- The ring link at a port. -/
def linkAt (s : State) (east : Bool) : LinkDelay := if east then s.cascade.east else s.cascade.west

/-- A ring link that joins two ports of one name, or the module to itself, is not admitted, which CASCADE_CONFIG tells (R337). -/
def refuseLink (east : Bool) (s : State) : State :=
  if (linkAt s east).refused then s
  else raiseMod 0x0D82 [it 1 0, it 8 Config.serial] (modDelay east (fun d => { d with up := false, halves := [], outstanding := none, refused := true }) s)

/-- A message at a port cannot have come over an admitted link: it travels away from that port's side, or this module sent it (R337). -/
def miswired (east : Bool) (m : BeatMsg) (s : State) : Bool :=
  m.westGoing != east || (m.kind = 1 && s.cascade.posValid && m.origin = s.cascade.position)

/-- The Headstock's conclusion of a discovery: ring state, positions, candidates (R339, R340, R345). -/
def concludeDiscovery (returned : Bool) (found : List DiscModule) (s : State) : State :=
  if returned && found.isEmpty then refuseLink false (refuseLink true s)
  else
    let identity := s.cascade.storedIdentity.getD Config.serial
    let own := if s.cascade.storedIdentity.isSome then s.cascade.storedPosition.getD 0 else 0
    let s := setRing (ringAfter s returned found) s
    let s := storePosition identity own (tellAssigned identity Config.serial own s.cascade.storedIdentity s.cascade.storedPosition s)
    let l := assignPositions identity own found
    let mods := mergeModules s returned l
    let s := s.modCascade fun c => { c with modules := mods, ringOrder := found.map DiscModule.serial, headstockPos := own, discovering := false }
    let s := l.foldl (fun s x => match x.2 with
      | some p => tellAssigned identity x.1.serial p x.1.storedIdentity x.1.storedPosition s
      | none => raiseMod 0x0D82 [it 1 2, it 8 x.1.serial] s) s
    judgeCandidates found s

/-- What another module learns from a discovery: its own entry holds the position that the Headstock assigned to it. -/
def learnDiscovery (found : List DiscModule) (s : State) : State :=
  let others := found.filter fun m => m.serial != Config.serial
  let mods := mergeModules s true (others.map fun m => (m, m.storedPosition))
  let s := s.modCascade fun c => { c with ringOrder := found.map DiscModule.serial }
  let s := match found.find? fun m => m.serial = Config.serial with
    | some m =>
      match m.storedIdentity, m.storedPosition with
      | some i, some p => storePosition i p s
      | _, _ => s.modCascade fun c => { c with posValid := false }
    | none => s
  judgeCandidates others (s.modCascade fun c => { c with modules := mods })

/-- DISCOVERY_COMPLETE (R339, R340). -/
def execDiscoveryComplete (returned : Bool) (found : List DiscModule) (s : State) : Host.Outcome State Fault Refusal :=
  .next (if s.cascade.headstock then concludeDiscovery returned found s else learnDiscovery found s)

/-! ## Presence (R341) -/

/-- A time has passed since an instant, or there is none. -/
def passedSince (s : State) (t : Option Nat) (n : Nat) : Bool := (t.map fun x => decide (x + n ≤ s.time.mono)).getD true

/-- PRESENCE_SEND (R341): once per millisecond. -/
def execPresenceSend (s : State) : Host.Outcome State Fault Refusal :=
  .next
    (if s.cascade.posValid && s.module.mode != .off && passedSince s s.cascade.presenceNs 1000000 then
      let now := s.time.mono
      let s := s.modCascade fun c => { c with presenceNs := some now }
      emit (.message (headstockBond s) .control "PRESENCE"
        [(s.cascade.position : Int), s.module.mode.value, s.cascade.role.value, s.scene.gen, s.mgmt.bootCount, flag s.cascade.caughtUp]) s
    else s)

/-- MODULE_PRESENCE: 0 joined, 1 reset, 2 out of contact (R362). -/
def presenceEvent (pos what boot : Nat) (s : State) : State := raiseMod 0x0D88 [it 1 pos, it 1 what, it 4 boot] s

/-- A reset or loss of a module ends the commands in flight there with CMD_CANCELLED (R293, R341); a distribution does not wait for
a module that is lost (R466). -/
def moduleGone (pos : Nat) (reset : Bool) (s : State) : State :=
  let s := txnModuleLost pos reset (endForwards (fun tk t => t = pos && !outlives tk) 0x0302 s)
  if (s.update.distribute.map fun j => j.mask.contains pos && !j.done.contains pos).getD false then reportJob true pos false s else s

/-- What the twin's presence adds to what pairing told: its state, role and whether it has caught up (R359, R360). -/
def hearTwin (p : Presence) (s : State) : State :=
  let now := s.time.mono
  s.modCascade fun c =>
    match c.twin with
    | none => c
    | some t =>
      if t.ident.position = some p.position then
        let role := match p.twinRole with
          | 0 => Role.alone
          | 1 => Role.active
          | 2 => Role.standby
          | _ => Role.withdrawn
        let ready := role = .standby && p.caughtUp && p.state = 3
        { c with
          twin := some { t with role := role, caughtUp := p.caughtUp, mode := p.state },
          twinReadySince := if ready then (match c.twinReadySince with
            | some x => some x
            | none => some now) else none }
      else c

/-- A presence message at the Headstock. -/
def hearModule (p : Presence) (s : State) : State :=
  match mapGet s.cascade.modules p.position with
  | none => s
  | some m =>
    let now := s.time.mono
    let heard : ModInfo :=
      { m with
        state := p.state, role := p.twinRole, sceneGen := p.sceneGen, bootCount := p.bootCount, caughtUp := p.caughtUp,
        inContact := true, lastNs := now }
    let put := s.modCascade fun c => { c with modules := mapPut c.modules p.position heard }
    if m.lastNs = 0 || !m.inContact then
      let s := presenceEvent p.position 0 p.bootCount put
      if m.lastNs != 0 && m.bootCount != p.bootCount then moduleGone p.position true s else s
    else if m.bootCount != p.bootCount then presenceEvent p.position 1 p.bootCount (moduleGone p.position true put)
    else put

/-- PRESENCE_RX (R341). -/
def execPresenceRx (p : Presence) (s : State) : Host.Outcome State Fault Refusal :=
  .next
    (let s := hitlessHeard (hearTwin p s)
     if s.cascade.headstock then hearModule p s
     else if p.position = s.cascade.headstockPos then
       let now := s.time.mono
       modPart (fun x => { x with lostNs := none }) (s.modCascade fun c => { c with headNs := some now })
     else s)

/-- PRESENCE_TIMEOUT (R313, R341, R466): 50 ms without a presence message; for another module, without contact to the Headstock or to the
source of the image that a distribution brings it. -/
def execPresenceTimeout (pos : Nat) (s : State) : Host.Outcome State Fault Refusal :=
  .next
    (if s.cascade.headstock then
      match mapGet s.cascade.modules pos with
      | none => s
      | some m =>
        if m.inContact && m.lastNs + 50000000 ≤ s.time.mono then
          let s := s.modCascade fun c => { c with modules := mapPut c.modules pos { m with inContact := false } }
          presenceEvent pos 2 m.bootCount (moduleGone pos false s)
        else s
    else
      let now := s.time.mono
      let source := s.update.inbound.any fun x => x.source = pos && x.lastNs + 50000000 ≤ now
      let head := pos = s.cascade.headstockPos && passedSince s s.cascade.headNs 50000000
      let s := if source || head then dropInbound s else s
      if head then modPart (fun x => { x with lostNs := some (x.lostNs.getD now) }) s else s)

/-! ## The Spindle beat (R349 to R352) -/

/-- The Spindle offset: the Spindle counter minus the wall time (R349). -/
def spindleOffset (s : State) : Int := (s.time.spindle : Int) - s.time.wall

/-- The Spindle counter steered towards the own wall time: 1 ns in each ms at most, and a difference above 10 µs in one step
(R350, R352). -/
def steerOwn (s : State) : State :=
  s.modTime fun t =>
    if t.wall + 10000 < t.spindle || t.spindle + 10000 < t.wall then { t with spindle := t.wall }
    else if t.wall < t.spindle then { t with spindle := t.spindle - 1 }
    else if t.spindle < t.wall then { t with spindle := t.spindle + 1 }
    else t

/-- SPINDLE_STATE (R352, R362): source 0 beat, 1 own wall time. -/
def spindleEvent (own : Bool) (s : State) : State :=
  raiseMod 0x0D84 [it 1 (flag own), it 1 s.cascade.beatOrigin, it 1 s.cascade.beatHops, it 1 (flag s.cascade.beatWest), (8, spindleOffset s)] s

/-- SYNC_TIMEBASE (R185): 0 Spindle beat, 1 own wall time; of module scope. -/
def timebaseEvent (own : Bool) (s : State) : State := tsRaise 0x0688 .module (position s) [it 1 (flag own)] false s

/-- BEAT_SEND (R350, R351): every millisecond the Headstock steers its counter and broadcasts a beat. -/
def execBeatSend (s : State) : Host.Outcome State Fault Refusal :=
  .next
    (if s.cascade.headstock && passedSince s s.cascade.beatNs 1000000 then
      let now := s.time.mono
      let s := steerOwn (s.modCascade fun c => { c with beatNs := some now })
      let s := s.modCascade fun c => { c with beatSeq := (c.beatSeq + 1) % 4294967296 }
      let m : BeatMsg :=
        { kind := 0, hops := 0, origin := position s, westGoing := false, originLocked := s.time.servo == .locked,
          epoch := s.cascade.epoch, seq := s.cascade.beatSeq, spindleNs := s.time.spindle, correctionPs := 0 }
      emit (.beat false { m with westGoing := true }) (emit (.beat true m) s)
    else s)

/-- The delay of a ring link in ps: the mean of its last half round trips (R352). -/
def linkDelayPs (d : LinkDelay) : Int := if d.halves.isEmpty then 0 else d.halves.foldl (· + ·) 0 / (d.halves.length : Int)

/-- The delay of the link on which a message arrived at a port. -/
def portDelay (east : Bool) (s : State) : Int := linkDelayPs (if east then s.cascade.east else s.cascade.west)

/-- The path of a copy is better: fewer hops, or as many and going east (R352). -/
def betterPath (hops : Nat) (west : Bool) (hops' : Nat) (west' : Bool) : Bool := hops < hops' || (hops = hops' && !west && west')

/-- The Spindle counter corrected by a beat (R352). -/
def correctSpindle (east : Bool) (m : BeatMsg) (s : State) : State :=
  let ps := (m.spindleNs : Int) * 1000 + m.correctionPs + portDelay east s
  s.modTime fun t => { t with spindle := (ps / 1000).toNat }

/-- A beat used: the counter is corrected, its path is taken over where it is new, and beats have returned. -/
def useBeat (east : Bool) (m : BeatMsg) (s : State) : State :=
  let c := s.cascade
  let same := c.beatOrigin = m.origin && c.beatHops = m.hops && c.beatWest = m.westGoing
  let better := c.beatOrigin = m.origin && betterPath m.hops m.westGoing c.beatHops c.beatWest
  let gone := c.beatOrigin != m.origin || c.pathSeq + 1 < m.seq || !c.onBeat
  let switch := !same && (better || gone)
  let back := !c.onBeat
  let now := s.time.mono
  let s := correctSpindle east m s
  let s := s.modCascade fun c =>
    { c with
      epoch := m.epoch, lastBeatSeq := m.seq, lastBeatNs := some now, headstockPos := m.origin, onBeat := true,
      beatOrigin := if switch then m.origin else c.beatOrigin, beatHops := if switch then m.hops else c.beatHops,
      beatWest := if switch then m.westGoing else c.beatWest, pathSeq := if same || switch then m.seq else c.pathSeq }
  let s := if back then timebaseEvent false s else s
  if back || switch then spindleEvent false s else s

/-- A beat forwarded on the other port, with the delay of its link and the residence time, which is a measured value (R352). -/
def forwardBeat (east : Bool) (m : BeatMsg) (s : State) : State :=
  let r := draw s
  emit (.beat (!east) { m with hops := m.hops + 1, correctionPs := m.correctionPs + portDelay east s + r.1 }) r.2

/-- A copy of a beat is used: the first of its beat, or a better path of the same beat (R352). -/
def newBeat (m : BeatMsg) (s : State) : Bool :=
  s.cascade.epoch < m.epoch || s.cascade.lastBeatNs.isNone || decide (0 < modDiff 32 m.seq s.cascade.lastBeatSeq)

/-- BEAT_RX (R352, R361): a beat at a port. A Headstock of side B that hears another holder gives the role up. -/
def execBeatRx (east : Bool) (m : BeatMsg) (s : State) : Host.Outcome State Fault Refusal :=
  .next
    (if m.kind != 0 || 63 < m.hops || s.module.mode = .off then s
     else if (linkAt s east).refused then s
     else if miswired east m s then refuseLink east s
     else if s.cascade.headstock && m.origin = position s then s
     else
       let s := if s.cascade.headstock && s.module.sideB then giveHeadstock 3 s else s
       if s.cascade.headstock || m.epoch < s.cascade.epoch then s
       else
         let again := m.epoch = s.cascade.epoch && m.seq = s.cascade.lastBeatSeq
           && betterPath m.hops m.westGoing s.cascade.beatHops s.cascade.beatWest
         let s := if newBeat m s || again then useBeat east m s else s
         forwardBeat east m s)

/-- BEAT_LOSS (R352): 5 ms without an accepted beat. -/
def execBeatLoss (s : State) : Host.Outcome State Fault Refusal :=
  .next
    (match s.cascade.lastBeatNs with
     | none => s
     | some t =>
       if s.cascade.onBeat && !s.cascade.headstock && t + 5000000 ≤ s.time.mono then
         spindleEvent true (timebaseEvent true (steerOwn (s.modCascade fun c => { c with onBeat := false })))
       else s)

/-- A delay message sent at a port. -/
def delayMsg (east : Bool) (kind origin seq : Nat) (correctionPs : Int) : BeatMsg :=
  { kind := kind, hops := 0, origin := origin, westGoing := !east, originLocked := false, epoch := 0, seq := seq, spindleNs := 0,
    correctionPs := correctionPs }

/-- DELAY_REQUEST_SEND (R352): on each ring link once every 10 ms. -/
def execDelayRequestSend (east : Bool) (s : State) : Host.Outcome State Fault Refusal :=
  .next
    (let d := linkAt s east
     if d.up && passedSince s d.requestNs 10000000 then
       let n := (d.requests + 1) % 4294967296
       let now := s.time.mono
       emit (.beat east (delayMsg east 1 (position s) n 0))
         (modDelay east (fun d => { d with requests := n, outstanding := some n, requestNs := some now }) s)
     else s)

/-- DELAY_REQUEST_RX (R352): the response carries the time from its receipt. -/
def execDelayRequestRx (east : Bool) (m : BeatMsg) (residencePs : Nat) (s : State) : Host.Outcome State Fault Refusal :=
  .next
    (if m.kind != 1 || s.module.mode = .off || (linkAt s east).refused then s
     else if miswired east m s then refuseLink east s
     else emit (.beat east (delayMsg east 2 m.origin m.seq residencePs)) s)

/-- DELAY_RESPONSE_RX (R352): a half round trip. -/
def execDelayResponseRx (east : Bool) (m : BeatMsg) (roundTripPs : Int) (s : State) : Host.Outcome State Fault Refusal :=
  .next
    (let d := linkAt s east
     if m.kind = 2 && d.outstanding = some m.seq then
       modDelay east (fun d => { d with halves := ((roundTripPs - m.correctionPs) / 2 :: d.halves).take 16, outstanding := none }) s
     else s)

/-! ## Twin roles (R354 to R358) -/

/-- The twin's role, as events carry it. -/
def twinRoleValue (s : State) : Nat := match s.cascade.twin with
  | some t => t.role.value
  | none => 0

/-- The twin is in service: SETUP, RUN, LEAN or MAINTENANCE (R355). -/
def twinServes (s : State) : Bool := s.cascade.twinUp && match s.cascade.twin with
  | some t => 2 ≤ t.mode && t.mode ≤ 5
  | none => false

/-- TWIN_ROLE; causes 0 PAIRING, 1 TWIN_LOST, 2 SWAP, 3 COMMAND, 4 SLEEP, 5 FAULT, 6 LINK, 7 CATCH_UP (R358, R362). -/
def roleEvent (old new : Role) (cause : Nat) (s : State) : State :=
  raiseMod 0x0D86 [it 1 old.value, it 1 new.value, it 1 cause, it 1 (twinRoleValue s)] s

/-- A swap agreed and not made ends; its command completes (R361). -/
def endSwap (status : Nat) (s : State) : State :=
  match s.cascade.swap with
  | none => s
  | some w =>
    let s := s.modCascade fun c => { c with swap := none }
    match w.ticket with
    | some tk => complete tk status [] s
    | none => s

/-- The twin role changes; any change but the swap itself ends a swap not yet made. A module that becomes STANDBY while its twin serves first catches up, except by a swap, after which
both hold one scene (R357, R358). -/
def setRole (new : Role) (cause : Nat) (s : State) : State :=
  let old := s.cascade.role
  if old = new then s
  else
    let catch_ := new = .standby && cause != 2 && twinServes s
    let s := s.modCascade fun c =>
      { c with role := new, catchingUp := catch_, caughtUp := new = .standby && !catch_, swapped := if cause = 2 then c.swapped else none }
    let s := checkHeadstock (if cause = 2 then 1 else 2) (roleEvent old new cause s)
    if cause = 2 then s else endSwap 0x03D0 s

/-- The role that R358 gives an ALONE module when pairing is accepted. -/
def pairedRole (t : TwinIdent) (s : State) : Role :=
  let me := inService s
  let gen := modDiff 32 s.scene.gen t.sceneGen
  if me && !t.inService then .active
  else if me && t.inService then
    if 0 < gen then .active else if gen = 0 && !s.module.sideB then .active else .standby
  else if t.inService then .standby
  else if s.module.mode = .starting && t.starting then (if s.module.sideB then .standby else .active)
  else .alone

/-- The roles of a pair after an accepted pairing: this module's, and with it its twin's (R358). -/
def takePairing (t : TwinIdent) (s : State) : State :=
  if s.cascade.role != .alone then s
  else
    let r := pairedRole t s
    let other := match r with
      | .active => Role.standby
      | .standby => Role.active
      | x => x
    let s := s.modCascade fun c => { c with twin := c.twin.map fun x => { x with role := other } }
    setRole r 0 s

/-- The first condition of R354 that fails: 1 part, 2 SIDE straps, 3 version, 4 cascade identity, 5 positions; 0 for none. -/
def pairingFault (t : TwinIdent) (s : State) : Nat :=
  if t.part != Config.part then 1
  else if t.sideB = s.module.sideB then 2
  else if t.version != s.module.fwVersion && s.update.hitless.isNone then 3
  else if t.identity.isNone || t.identity != s.cascade.storedIdentity then 4
  else if !s.cascade.posValid || t.position.isNone then 5
  else 0

/-- The twin is lost: ACTIVE and STANDBY become ALONE, and so does a module withdrawn by command (R358, R361). -/
def loseTwin (s : State) : State :=
  let s := s.modCascade fun c => { c with twinUp := false, twin := none, twinReadySince := none }
  let s := endSwap 0x05D0 s
  match s.cascade.role with
  | .active | .standby => setRole .alone 6 s
  | .withdrawn =>
    if s.cascade.withdrawnByCommand then setRole .alone 6 (s.modCascade fun c => { c with withdrawnByCommand := false }) else s
  | .alone => s

/-- The twin link goes down, with TWIN_LINK (R354, R362). -/
def twinDown (s : State) : State := loseTwin (raise 0x0D85 .port 26 [it 1 0, it 1 0, it 1 0, it 1 0] s)

/-- The role that a twin with which this module is already paired takes beside it. -/
def besideRole : Role → Role
  | .active => .standby
  | .standby => .active
  | _ => .alone

/-- TWIN_PAIRING (R354, R358): identities exchanged once the bond is up, and again when one of the two has been reset. -/
def execTwinPairing (t : TwinIdent) (s : State) : Host.Outcome State Fault Refusal :=
  .next
    (let lanes := (lanesUp s .twin).length
     if lanes = 0 || s.module.mode = .off || s.module.mode = .idleLink then s
     else
       let s := hitlessPaired t.version s
       let f := pairingFault t s
       if f != 0 then
         raise 0x0D85 .port 26 [it 1 0, it 1 1, it 1 f, it 1 lanes] (if s.cascade.twinUp then loseTwin s else s)
       else
         let known := s.cascade.twinUp
         let info : TwinInfo :=
           { ident := t, role := if known then besideRole s.cascade.role else .alone, caughtUp := false,
             mode := if t.inService then 3 else if t.starting then 1 else 0, sceneGen := t.sceneGen }
         let s := s.modCascade fun c => { c with twinUp := true, twin := some info, twinReadySince := none }
         takePairing t (if known then s else raise 0x0D85 .port 26 [it 1 1, it 1 0, it 1 0, it 1 lanes] s))

/-- The twin bond has had no lane UP for 10 ms (R354). -/
def twinBondLost (s : State) : Bool :=
  s.cascade.twinUp && (lanesUp s .twin).isEmpty && match (bondRt s .twin).downNs with
    | some t => t + 10000000 ≤ s.time.mono
    | none => true

/-- TWIN_REPORT_RX (R358): the twin's main section has left service, or the twin is WITHDRAWN. -/
def execTwinReportRx (twinRole : Nat) (s : State) : Host.Outcome State Fault Refusal :=
  .next
    (if !s.cascade.twinUp then s
     else
       let role := if twinRole = 3 then Role.withdrawn else .alone
       let s := s.modCascade fun c =>
         { c with twinReadySince := none, twin := c.twin.map fun t =>
             { t with role := role, mode := 0, caughtUp := false, ident := { t.ident with inService := false, headstock := false } } }
       if s.cascade.role = .standby then setRole .active 1 s else endSwap 0x03D0 s)

/-- A module leaves WITHDRAWN: STANDBY beside an ACTIVE twin, else ALONE, which pairs again at once (R358). -/
def leaveWithdrawn (cause : Nat) (s : State) : State :=
  let s := s.modCascade fun c => { c with withdrawnByCommand := false }
  match s.cascade.twin with
  | some t =>
    if s.cascade.twinUp && t.role = .active then setRole .standby cause s
    else if s.cascade.twinUp then takePairing { t.ident with inService := twinServes s, sceneGen := t.sceneGen } (setRole .alone cause s)
    else setRole .alone cause s
  | none => setRole .alone cause s

/-! ## Swaps (R359, R360) -/

/-- The swap instant: three frame periods of the slowest sync group from now (R359). -/
def swapTime (s : State) : Nat := s.time.wall + 3 * pMax (mapVals s.scene.inForce.groups)

/-- A swap is decided, and told the twin. -/
def decideSwap (auto hitless : Bool) (tk : Option Ticket) (s : State) : State :=
  let t := swapTime s
  emit (.message .twin .control "SWAP" [(t : Int)])
    (s.modCascade fun c => { c with swap := some { atNs := t, auto := auto, hitless := hitless, ticket := tk } })

/-- AUTO_SWAP_DECISION (R359). -/
def execAutoSwapDecision (s : State) : Host.Outcome State Fault Refusal :=
  .next
    (let since (o : Option Nat) (n : Nat) : Bool := match o with
       | some t => t + n ≤ s.time.mono
       | none => false
     let apart := match s.cascade.lastAutoSwap with
       | some t => t + 60 * second ≤ s.time.mono
       | none => true
     if s.cascade.role = .active && s.cascade.twinUp && s.module.mode = .lean && since s.cascade.leanSince second
         && since s.cascade.twinReadySince second && apart && s.cascade.swap.isNone then
       decideSwap true false none s
     else s)

/-- The swap itself (R358, R359): the roles change places, and in the master pair the Headstock role passes (R347). -/
def swapRoles (s : State) : State :=
  let auto := (s.cascade.swap.map Swap.auto).getD false
  let now := s.time.mono
  let twinHeld := (s.cascade.twin.map fun t => t.ident.headstock).getD false
  let new : Role := if s.cascade.role = .active then .standby else .active
  let other : Role := if new = .active then .standby else .active
  let at_ := (elapsedAt s ((s.cascade.swap.map Swap.atNs).getD s.time.wall)).toNat
  let s := s.modCascade fun c =>
    { c with
      lastAutoSwap := if auto then some now else c.lastAutoSwap, swapped := some (at_, c.role),
      twin := c.twin.map fun t => { t with role := other, caughtUp := true, ident := { t.ident with headstock := c.headstock } } }
  let s := setRole new 2 s
  let s := if new = .active && twinHeld && s.module.masterSel && s.cascade.candidate && mayHold s then takeHeadstock 1 s else s
  endSwap 0 s

/-- The swap instant has come: the one this module agreed, or one that its twin decided (R359). -/
def swapDue (s : State) : Bool :=
  s.cascade.twinUp && (s.cascade.role = .active || s.cascade.role = .standby) && match s.cascade.swap with
    | some w => w.atNs ≤ s.time.wall
    | none => true

/-- TWIN_ROLE (R360). -/
def twinRoleBody (op : Nat) (tk : Ticket) (s : State) : State :=
  let twinReady := s.cascade.twinUp && match s.cascade.twin with
    | some t => t.role = .active || (t.role = .standby && t.caughtUp)
    | none => false
  match op with
  | 0 =>
    if twinReady then
      complete tk 0 [] (setRole .withdrawn 3 (s.modCascade fun c => { c with withdrawnByCommand := true }))
    else complete tk 0x03D0 [] s
  | 1 =>
    if s.cascade.role = .withdrawn && s.cascade.withdrawnByCommand then complete tk 0 [] (leaveWithdrawn 3 s)
    else complete tk 0x03D0 [] s
  | 2 =>
    if !s.cascade.twinUp then complete tk 0x05D0 [] s
    else if !(s.cascade.role = .active || s.cascade.role = .standby) || !twinReady || s.cascade.swap.isSome then complete tk 0x03D0 [] s
    else decideSwap false false (some tk) s
  | _ => complete tk 0x01D0 [] s

/-- TWIN_ROLE (R360). -/
def execTwinRole (d : Desc) (op : Nat) (s : State) : Host.Outcome State Fault Refusal :=
  .next (onTake d (.twinRole op) (twinRoleBody op) s)

/-! ## Cascade commands -/

/-- The record of a position: of another module, what only it measures is not told (R349). -/
def cascadeRecord (s : State) (p : Nat) : Items :=
  match modInfo s p with
  | none => [it 32 0]
  | some m =>
    let own := s.cascade.posValid && p = s.cascade.position
    let f (i : Nat) : Nat := Config.freeNat (s.free + 8 * p + i)
    let twin := ((twinPos s p).map fun q => it 1 q).getD (it 1 0xFF)
    let tail : Items := if own then
        [it 1 s.cascade.beatHops, it 1 (flag s.cascade.beatWest), (8, spindleOffset s), (4, linkDelayPs s.cascade.east), (4, linkDelayPs s.cascade.west)]
      else [it 1 (f 0 % 64), it 1 (f 1 % 2), it 8 (f 2), it 4 (f 3), it 4 (f 4)]
    [it 8 m.serial, it 1 (flag m.masterSel + flag m.sideB * 2), it 1 m.state, it 1 m.role, twin] ++ tail ++ [it 1 (flag m.inContact), it 1 0]

/-- CASCADE_STATUS (R349): a 64-byte header and a record for each of the 64 positions. -/
def cascadeStatusBody (tk : Ticket) (s : State) : State :=
  let head : Items := [it 1 s.cascade.ring.value, it 1 s.cascade.headstockPos, it 2 0, it 4 s.cascade.epoch, it 8 (s.cascade.storedIdentity.getD 0), it 48 0]
  let data := head ++ (List.range 64).flatMap (cascadeRecord s)
  completeWrite tk data [] { s with free := s.free + 512 }

/-- CASCADE_STATUS (R349). -/
def execCascadeStatus (d : Desc) (s : State) : Host.Outcome State Fault Refusal :=
  .next (onTake d .cascadeStatus cascadeStatusBody s)

/-- The modules in ring order, eastwards from the side-A master candidate (R341). -/
def renumberOrder (s : State) : List Nat :=
  let ring := Config.serial :: s.cascade.ringOrder
  let isA (n : Nat) : Bool :=
    if n = Config.serial then s.module.masterSel && !s.module.sideB
    else match knownBySerial s n with
      | some (_, m) => m.masterSel && !m.sideB
      | none => false
  let i := ((List.range ring.length).find? fun k => isA (ring.getD k 0)).getD 0
  ring.drop i ++ ring.take i

/-- A module takes a new position; `was` is the cascade identity stored before. -/
def renumberOne (identity : Nat) (was old : Option Nat) (p : Nat × Nat) (s : State) : State :=
  if p.2 = Config.serial then storePosition identity p.1 (tellAssigned identity p.2 p.1 was s.cascade.storedPosition s)
  else tellAssigned identity p.2 p.1 was old s

/-- CASCADE_RENUMBER (R341): every position in ring order, with a new identity where one is given. -/
def cascadeRenumberBody (identity : Nat) (tk : Ticket) (s : State) : State :=
  if s.cascade.ring != .intact then complete tk 0x05D1 [] s
  else if s.module.mode != .setup || s.cascade.modules.any fun p => p.2.state != 2 then complete tk 0x0300 [] s
  else
    let id := if identity = 0 then s.cascade.storedIdentity.getD Config.serial else identity
    let order := renumberOrder s
    let known := s.cascade.modules
    let was := s.cascade.storedIdentity
    let news := (List.range order.length).map fun i => (i, order.getD i 0)
    let s' := news.foldl (fun s p => renumberOne id was ((knownBySerial s p.2).map Prod.fst) p s) s
    let mods := news.foldl (fun m p => match known.find? fun x => x.2.serial = p.2 with
      | some x => mapPut m p.1 x.2
      | none => m) []
    let s' := s'.modCascade fun c => { c with modules := mods, headstockPos := c.position }
    complete tk 0 [] (broadcast "POSITIONS" ((id : Int) :: news.flatMap fun p => [(p.1 : Int), (p.2 : Int)]) s')

/-- CASCADE_RENUMBER (R341). -/
def execCascadeRenumber (d : Desc) (identity : Nat) (s : State) : Host.Outcome State Fault Refusal :=
  .next (onTake d (.cascadeRenumber identity) (cascadeRenumberBody identity) s)

end Sys2Proof.Machine
end

