-- ==== Sys2Proof/Machine/Management.lean ====
section
/-! DEFINITION. The management pair (R402 to R421, R474): sensors, the pace governor and its ladder, FAULT, the Shavings log,
maintenance, and the messages of mailbox agent 0. -/

namespace Sys2Proof.Machine

open Sys2Proof

/-- Ten minutes, in ns. -/
def tenMinutes : Nat := 600 * second

/-- Of instants, those within the last ten minutes (R413). -/
def recent (s : State) (l : List Nat) : List Nat := l.filter fun t => s.time.mono < t + tenMinutes

/-! ## FAULT (R413 to R415) -/

/-- V_CORE is removed: the fault order goes to both ring neighbours, and the ring lanes go to LOW_RATE (R415). -/
def removeCore (s : State) : State :=
  let s := emit (.message .west .control "FAULT_ORDER" []) (emit (.message .east .control "FAULT_ORDER" []) s)
  lanesSleep false (s.modMgmt fun m => { m with vcoreRemoved := true })

/-- Entry into FAULT with a cause: ingest and composition stop, the twin role is WITHDRAWN, for THERMAL and RAIL V_CORE is
removed, and FAULT_ENTERED is raised and recorded (R414). -/
def enterFault (cause detail : Nat) (s : State) : State :=
  if s.module.mode = .off || s.module.mode = .fault then s
  else
    let s := s.modMgmt fun m => { m with faultCause := cause, testFloor := none }
    let s := setMode .fault s
    let s := checkHeadstock 2 (setRole .withdrawn 5 s)
    let s := txnOwnFault s
    let s := if cause = 4 || cause = 5 then removeCore s else s
    raiseMod 0x0B85 [it 1 cause, it 2 detail] s

/-- Units of which a third internal fault has come within ten minutes (R413). -/
def thirdInternal (s : State) : Bool :=
  let l := (s.mgmt.internals.filter fun p => s.time.mono < p.2 + tenMinutes && 2 ≤ p.1 / 512 && p.1 / 512 ≤ 6).map Prod.fst
  l.any fun u => 3 ≤ (l.filter fun v => v = u).length

/-! ## Status outputs of the management domain (R434) -/

/-- The conditions of MODULE_OK#, RUN_FULL#, ACTIVE# and HEADSTOCK#, in this order (R434). -/
def outputConditions (s : State) : List Bool :=
  [inService s, s.module.mode = .run, inService s && (claimNow s).priority = Config.prioActive, s.module.mode != .off && s.cascade.headstock]

/-- An output of the management domain is driven low: its condition holds, or did when the pair's restart began (R434). -/
def drivenLow (s : State) (i : Nat) : Bool :=
  s.power.managementUp && ((if s.mgmt.restarting then s.mgmt.keptOutputs else outputConditions s)[i]?).getD false

/-- The pair halts: its outputs keep their levels until it runs again, and mailbox agent 0 is reset (R397, R403, R434). -/
def haltPair (s : State) : State :=
  let l := if s.mgmt.restarting then s.mgmt.keptOutputs else outputConditions s
  orphanLocks 0 (agentReset 0 (s.modMgmt fun m => { m with restarting := true, keptOutputs := l }))

/-! ## Restarts of the pair (R403, R404) -/

/-- The pair halts and restarts: MGMT_RESTART with its cause (0 LOCKSTEP, 1 WATCHDOG) and the restarts of that cause in the last ten
minutes; mailbox agent 0 is reset (R397, R403). -/
def restartPair (cause n : Nat) (s : State) : State :=
  let s := raiseMod 0x0B84 [it 1 cause, it 4 n] s
  haltPair s

/-- LOCKSTEP_MISMATCH (R403, R413): the pair restarts; a third mismatch within ten minutes is a fault. -/
def execLockstepMismatch (s : State) : Host.Outcome State Fault Refusal :=
  .next
    (if s.module.mode = .off || s.mgmt.restarting then s
     else
       let l := s.time.mono :: recent s s.mgmt.mismatches
       let s := s.modMgmt fun m => { m with mismatches := l }
       if 3 ≤ l.length then enterFault 6 0x0B84 (restartPair 0 l.length s) else restartPair 0 l.length s)

/-! ## The shedding ladder (R408 to R412) -/

/-- Sources whose probes run. -/
def probing (s : State) : List Nat := (s.ledger.entries.map Prod.fst).filter (probes s)

/-- While step 2 is shed every proxy stream stops; it resumes at the next decoded frame (R74, `proxyTake`). -/
def proxyLadder (s : State) : State :=
  if s.mgmt.step < 2 then s
  else
    s.ingest.proxies.foldl (fun s p =>
      let s := s.modIngest fun i => { i with proxies := mapUpd i.proxies p.1 fun x => { x with sending := false, queue := [] } }
      if p.2.sending then raiseProxy p.1 false 1 s else s) s

/-- The ladder at a step, with LADDER_STEP (causes 0 MARGIN, 1 THERMAL, 2 RESTORE, 3 TEST) and every effect of the change: recording
(R242), proxies (R74), decoding (R101), sources and probes (R126, R242), and LEAN or RUN (R409). -/
def setStep (new cause margin : Nat) (s : State) : State :=
  let old := s.mgmt.step
  let before := probing s
  let s := s.modMgmt fun m => { m with step := new }
  let s := raiseMod 0x0B81 [it 1 old, it 1 new, it 1 cause, it 2 s.mgmt.vcoreMv, it 2 margin] s
  let s := shedDecode (shedAll (proxyLadder (recordStep s)))
  let after := probing s
  let s := (before.filter fun k => !after.contains k).foldl (fun s k => raiseProbe k false 1 s) s
  let s := (after.filter fun k => !before.contains k).foldl (fun s k => raiseProbe k true 2 s) s
  if s.module.mode = .run && new != 0 then setMode .lean s
  else if s.module.mode = .lean && new = 0 then setMode .run s
  else s

/-- The next step is taken; the time of sufficient projected margin counts afresh (R407). -/
def takeStep (cause margin : Nat) (s : State) : State :=
  let now := s.time.mono
  setStep (s.mgmt.step + 1) cause margin (s.modMgmt fun m => { m with lastTakeNs := some now, projectedSince := some now })

/-- The last step taken is restored; the time of sufficient projected margin counts afresh (R407). -/
def restoreStep (margin : Nat) (s : State) : State :=
  let now := s.time.mono
  setStep (s.mgmt.step - 1) 2 margin (s.modMgmt fun m => { m with projectedSince := some now })

/-! ## The governor (R406, R407, R410, R411) -/

/-- The block of the least margin; none while no block has a demand (R406). -/
def leastBlock (l : List BlockPace) : Option BlockPace :=
  (l.filter fun b => b.demand != 0).foldl (fun m b => match m with
    | none => some b
    | some x => if b.capacity * x.demand < x.capacity * b.demand then some b else some x) none

/-- The margin is below `n` thousandths. -/
def below (o : Option BlockPace) (n : Nat) : Bool := match o with
  | none => false
  | some b => b.capacity * 1000 < n * b.demand

/-- The margin is above `n` thousandths; with no demand it has no bound. -/
def above (o : Option BlockPace) (n : Nat) : Bool := match o with
  | none => true
  | some b => n * b.demand < b.capacity * 1000

/-- The margin in thousandths, as events carry it; all ones where there is none. -/
def marginPm (o : Option BlockPace) : Nat := match o with
  | none => 65535
  | some b => min 65534 (b.capacity * 1000 / b.demand)

/-- An instant kept while a condition holds, from when it began. -/
def since (s : State) (old : Option Nat) (holds : Bool) : Option Nat := if holds then some (old.getD s.time.mono) else none

/-- A condition has held for `n` ns. -/
def heldFor (s : State) (o : Option Nat) (n : Nat) : Bool := match o with
  | some t => t + n ≤ s.time.mono
  | none => false

/-- The level of a T_J sensor is at least `n` for some sensor. -/
def anyTj (s : State) (n : Nat) : Bool := (List.range 16).any fun i => n ≤ (sensorLevel s i).value

/-- The seconds of sufficient projected margin before a restore (MGMT.GOV). -/
def restoreNs (s : State) : Nat := limited 2 60 s.mgmt.restoreS * second

/-- V_CORE after an evaluation (R407). -/
def nextCore (s : State) (m : Option BlockPace) : Nat :=
  let v := s.mgmt.vcoreMv
  if below m 1050 && v < 900 then v + 5 else if heldFor s s.mgmt.surplusSince 100000000 && 620 < v then v - 5 else v

/-- What an evaluation keeps: figures and since when each condition holds (R407, R411). -/
def noteMargin (l : List BlockPace) (m : Option BlockPace) (projectedPm : Nat) (s : State) : State :=
  s.modMgmt fun g =>
    { g with
      blocks := l, surplusSince := since s g.surplusSince (above m 1150),
      shortCount := if g.vcoreMv = 900 && below m 1000 then g.shortCount + 1 else 0,
      projectedSince := since s g.projectedSince (1100 ≤ projectedPm),
      shortSince := since s g.shortSince (g.step = 5 && g.vcoreMv = 900 && below m 1000),
      fullSince := since s g.fullSince (!below m 1000) }

/-- 20 ms since the last take. -/
def takeSpaced (s : State) (n : Nat) : Bool := match s.mgmt.lastTakeNs with
  | some t => t + n ≤ s.time.mono
  | none => true

/-- One evaluation of the governor (R407). -/
def evaluate (l : List BlockPace) (projectedPm : Nat) (s : State) : State :=
  let m := leastBlock l
  let s := noteMargin l m projectedPm s
  let v := nextCore s m
  let s := s.modMgmt fun g => { g with vcoreMv := v }
  let s := if v = 900 && 10 ≤ s.mgmt.shortCount && takeSpaced s 20000000 && s.mgmt.step < 5 then takeStep 0 (marginPm m) s else s
  if s.mgmt.testFloor.getD 0 < s.mgmt.step && takeSpaced s 10000000000 && !anyTj s 1 && heldFor s s.mgmt.projectedSince (restoreNs s) then
    restoreStep (marginPm m) s
  else s

/-- GOVERNOR_EVALUATION (R407, R413): once per millisecond, in service, with the pair not restarting. -/
def execGovernorEvaluation (l : List BlockPace) (projectedPm : Nat) (s : State) : Host.Outcome State Fault Refusal :=
  .next
    (if !inService s || s.mgmt.restarting || !passedSince s s.mgmt.lastEvalNs 1000000 then s
     else if thirdInternal s then enterFault 8 0x0F00 s
     else
       let now := s.time.mono
       evaluate l projectedPm (s.modMgmt fun m => { m with lastEvalNs := some now }))

/-- THERMAL_SHED (R410): a T_J sensor critical, the next step once a second. -/
def execThermalShed (s : State) : Host.Outcome State Fault Refusal :=
  .next
    (let due := match s.mgmt.lastThermalNs with
       | some t => t + second ≤ s.time.mono
       | none => true
     if inService s && !s.mgmt.restarting && anyTj s 2 && due && s.mgmt.step < 5 then
       let now := s.time.mono
       takeStep 1 (marginPm (leastBlock s.mgmt.blocks)) (s.modMgmt fun m => { m with lastThermalNs := some now })
     else s)

/-- PACE_SHORT raised: set or cleared, the short block, its margin (R411, R421). -/
def paceEvent (set : Bool) (s : State) : State :=
  let m := leastBlock s.mgmt.blocks
  raiseMod 0x0B82 [it 1 (flag set), it 1 ((m.map BlockPace.code).getD 0), it 2 (marginPm m)] (s.modMgmt fun g => { g with paceShort := set })

/-- PACE_SHORT (R411): set after 100 ms short at step 5 and 900 mV, cleared after 100 ms of 1.00 or more. -/
def execPaceShort (s : State) : Host.Outcome State Fault Refusal :=
  .next
    (if !inService s || s.mgmt.restarting then s
     else if !s.mgmt.paceShort && heldFor s s.mgmt.shortSince 100000000 then paceEvent true s
     else if s.mgmt.paceShort && heldFor s s.mgmt.fullSince 100000000 then paceEvent false s
     else s)

/-! ## Sensors (R405) -/

/-- Fan speed commanded: full while another fan is below its critical level, else by the hottest of T_J and T_TS (R405). -/
def fanCommand (s : State) (i : Nat) : Int :=
  let t := (List.range 20).map fun k => sensorValue s k
  if (List.range' 23 6).any fun k => k != i && 2 ≤ (sensorLevel s k).value then (Config.fanFullRpm : Int)
  else (Config.fanRpm (t.foldl max (t.headD 0)) : Int)

/-- The distance of a value beyond a level's threshold, and the hysteresis, each in one unit a sensor; none where the sensor has no
such level. Temperatures are in half °C, rails in mV, fans in rpm, supplies in W (R405). -/
def beyond (s : State) (id : Nat) (level : Level) (v : Int) : Option (Int × Int) :=
  let rising (a b c : Option Int) : Option (Int × Int) :=
    (match level with
     | .warning => a
     | .critical => b
     | .limit => c
     | .normal => none).map fun t => (v - 2 * t, (4 : Int))
  let dev (nom warn crit hyst : Int) : Option (Int × Int) :=
    match level with
    | .warning => some ((v - nom).natAbs * 100 - warn, hyst)
    | .critical => some ((v - nom).natAbs * 100 - crit, hyst)
    | _ => none
  if id < 16 then rising (some 100) (some 108) (some 115)
  else if id < 20 then rising (some 95) (some 110) none
  else if id < 22 then rising (some 45) (some 50) none
  else if id = 22 then rising (some 70) (some 80) none
  else if id < 29 then
    let c := fanCommand s id
    match level with
    | .warning => some (70 * c - 100 * v, 5 * c)
    | .critical => some (30 * c - 100 * v, 5 * c)
    | _ => none
  else if id = 29 then if s.mgmt.vcoreRemoved then none else dev s.mgmt.vcoreMv 1500 2500 s.mgmt.vcoreMv
  else if id = 30 then dev 1100 2200 4400 1100
  else if id = 31 then dev 12000 60000 120000 12000
  else if id = 32 then dev 48000 400000 800000 48000
  else if id < 35 then
    match level with
    | .warning => some (v - 300, 0)
    | .critical => some (v - 400, 0)
    | _ => none
  else none

/-- A level is reached, or it was and the value has not yet returned by the hysteresis (R405). -/
def levelHolds (s : State) (id : Nat) (old level : Level) (v : Int) : Bool :=
  match beyond s id level v with
  | none => false
  | some (d, h) => decide (0 ≤ d) || (level.value ≤ old.value && decide (0 < d + h))

/-- The level of a value (R405). -/
def newLevel (s : State) (id : Nat) (old : Level) (v : Int) : Level :=
  if levelHolds s id old .limit v then .limit
  else if levelHolds s id old .critical v then .critical
  else if levelHolds s id old .warning v then .warning
  else .normal

/-- The value stands at or beyond the threshold at which the sensor's limit acts (R405). -/
def atLimit (s : State) (id : Nat) (v : Int) : Bool :=
  let l : Level := if id < 16 then .limit else .critical
  (id < 16 || id = 29 || id = 30) && match beyond s id l v with
    | some (d, _) => decide (0 ≤ d)
    | none => false

/-- The levels that a sensor passes on its way from one to another, the new one last (R405). -/
def levelsPassed (old new : Nat) : List Nat :=
  if old < new then List.range' (old + 1) (new - old) else (List.range' new (old - new)).reverse

/-- One crossing of a level, or one return from one: the log records it, a return with severity 0, and SENSOR_LIMIT is raised, at most once
a second a sensor and level (R405, R417, R421). -/
def crossLevel (id : Nat) (v : Int) (up : Bool) (n : Nat) (s : State) : State :=
  let items (c : Nat) : Items := [it 1 id, it 1 n, (4, v), it 4 c]
  let s := logAdd 0x0B83 (if !up then 0 else if n = 1 then 2 else 3) .module (position s) (items 1) false s
  raiseLimited second (limKey 0x0B83 id n) 1 0x0B83 .module (position s) items s

/-- One sensor read: every level it passes is a crossing or a return of its own (R405). -/
def readSensor (p : Nat × Int) (s : State) : State :=
  let old := sensorLevel s p.1
  let new := newLevel s p.1 old p.2
  let from_ := if atLimit s p.1 p.2 then some ((mapGet s.mgmt.limitSince p.1).getD s.time.mono) else none
  let s := s.modMgmt fun m =>
    { m with
      sensors := mapPut m.sensors p.1 (p.2, new),
      limitSince := match from_ with
        | some t => mapPut m.limitSince p.1 t
        | none => mapDel m.limitSince p.1 }
  (levelsPassed old.value new.value).foldl (fun s n => crossLevel p.1 p.2 (old.value < new.value) n s) s

/-- SENSOR_SAMPLE (R405). -/
def execSensorSample (values : List (Nat × Int)) (s : State) : Host.Outcome State Fault Refusal :=
  .next (if s.power.managementUp && !s.mgmt.restarting then values.foldl (fun s p => if p.1 < 35 then readSensor p s else s) s else s)

/-- SENSOR_LIMIT_HELD (R405): a T_J sensor for 100 ms, V_CORE or V_DDQ for 1 ms, at the limit. -/
def execSensorLimitHeld (sensor : Nat) (s : State) : Host.Outcome State Fault Refusal :=
  .next
    (let n := if sensor < 16 then 100000000 else 1000000
     if heldFor s (mapGet s.mgmt.limitSince sensor) n then enterFault (if sensor < 16 then 4 else 5) 0x0B83 s else s)

/-- LOG_SUPPRESSED (R418): once the second is over. -/
def execLogSuppressed (s : State) : Host.Outcome State Fault Refusal :=
  .next
    (logFlush s)

/-! ## Commands -/

/-- A block's figures in MGMT_STATUS, in the order of the codes of R474. -/
def blockItems (s : State) (code : Nat) : Items :=
  match s.mgmt.blocks.find? fun b => b.code = code with
  | some b => [it 3 b.capacity, it 3 b.demand, it 2 (marginPm (if b.demand = 0 then none else some b))]
  | none => [it 8 0]

/-- The record of MGMT_STATUS. -/
def mgmtStatusItems (s : State) : Items :=
  [it 1 s.module.mode.value, it 1 s.cascade.role.value, it 1 s.mgmt.step, it 1 0,
   it 2 (if s.mgmt.vcoreRemoved then 0 else s.mgmt.vcoreMv), (2, sensorValue s 29)]
  ++ (List.range 35).flatMap (fun i =>
      [(2, sensorValue s i), it 1 (sensorLevel s i).value])
  ++ (List.range 46).flatMap (blockItems s)
  ++ [it 1 s.mgmt.mismatches.length, it 1 s.mgmt.watchdogResets.length, it 1 s.mgmt.internals.length, it 4 s.mgmt.bootCount]

/-- MGMT_STATUS: a 512-byte record. -/
def mgmtStatusBody (tk : Ticket) (s : State) : State := completeRecord tk 512 (mgmtStatusItems s) [] s

/-- MGMT_STATUS (R285, R421 command table). -/
def execMgmtStatus (d : Desc) (s : State) : Host.Outcome State Fault Refusal := .next (onTake d .mgmtStatus mgmtStatusBody s)

/-- MGMT_MAINTENANCE (R23): from SETUP, RUN or LEAN; back to SETUP, or to RUN and, with a step in force, LEAN (R409). -/
def mgmtMaintenanceBody (enter : Nat) (tk : Ticket) (s : State) : State :=
  let m := s.module.mode
  if 1 < enter then complete tk 0x01B0 [] s
  else if enter = 1 then
    if m = .setup || m = .run || m = .lean then complete tk 0 [] (setMode .maintenance s) else complete tk 0x03B0 [] s
  else if m != .maintenance then complete tk 0x03B0 [] s
  else
    let s := s.modMgmt fun g => { g with testFloor := none }
    let s := if s.host.run then setMode .run s else setMode .setup s
    complete tk 0 [] (if s.host.run && s.mgmt.step != 0 then setMode .lean s else s)

/-- MGMT_MAINTENANCE (R23). -/
def execMgmtMaintenance (d : Desc) (enter : Nat) (s : State) : Host.Outcome State Fault Refusal :=
  .next (onTake d (.mgmtMaintenance enter) (mgmtMaintenanceBody enter) s)

/-- A log record in its layout without its CRC (R416). -/
def logItems (r : LogRec) : Items :=
  [it 4 r.seq, it 4 r.bootCount, it 8 r.wallNs, it 2 r.code, it 1 r.severity,
   it 1 (flag r.timeUnknown + flag r.pinned * 2 + flag r.fromTailstock * 4), it 1 r.moduleState, it 1 r.scope.value, it 2 r.scopeId]

/-- Bytes 0 to 59 of a log record (R416). -/
def logBytes (r : LogRec) : List Byte := itemBytes (logItems r) ++ recordBytes 36 r.data

/-- The 64 bytes of a log record (R416). -/
def logRecord (r : LogRec) : List Byte :=
  let b := logBytes r
  b ++ leBytes 4 ((crc32c b).toNat : Int)

/-- The records held, in the order of their numbers, which wrap: by how far each lies behind the latest (R3, R416). -/
def logHeld (s : State) : List LogRec :=
  let age (r : LogRec) : Nat := idx32 (s.mgmt.logSeq + 4294967296 - r.seq)
  sortBy (fun a b => age b ≤ age a) (s.mgmt.logUnpinned ++ s.mgmt.logPinned)

/-- MGMT_LOG_READ (R419). -/
def mgmtLogReadBody (first count : Nat) (pinnedOnly : Bool) (tk : Ticket) (s : State) : State :=
  if count = 0 || 4096 < count then complete tk 0x01B0 [] s
  else
    let all := logHeld s
    let l := (all.filter fun r => decide (0 ≤ modDiff 32 r.seq first) && (!pinnedOnly || r.pinned)).take count
    let next := (l.getLast?.map fun r => idx32 (r.seq + 1)).getD first
    let oldest := (all.head?.map LogRec.seq).getD 0
    if tk.dmaOk then
      complete tk 0 [it 4 l.length, it 4 next, it 4 oldest] (hostOut tk 0 (l.flatMap logRecord) s)
    else complete tk 0x0500 [] s

/-- MGMT_LOG_READ (R419). -/
def execMgmtLogRead (d : Desc) (first count : Nat) (pinnedOnly : Bool) (s : State) : Host.Outcome State Fault Refusal :=
  .next (onTake d (.mgmtLogRead first count pinnedOnly) (mgmtLogReadBody first count pinnedOnly) s)

/-- MGMT_RESET: completes; the reset follows after 1 ms (R446). -/
def mgmtResetBody (tk : Ticket) (s : State) : State := 
  let now := s.time.mono
  complete tk 0 [] (s.modMgmt fun m => { m with resetPending := some now })

/-- MGMT_RESET (R446). -/
def execMgmtReset (d : Desc) (s : State) : Host.Outcome State Fault Refusal := .next (onTake d .mgmtReset mgmtResetBody s)

/-- Steps taken up to a floor, each with its event (R412). -/
def raiseTo : Nat → Nat → State → State
  | 0, _, s => s
  | fuel + 1, floor, s => if s.mgmt.step < floor then raiseTo fuel floor (takeStep 3 (marginPm (leastBlock s.mgmt.blocks)) s) else s

/-- MGMT_LADDER_TEST (R412). -/
def mgmtLadderTestBody (step : Nat) (tk : Ticket) (s : State) : State :=
  if 5 < step then complete tk 0x01B0 [] s
  else if s.module.mode != .maintenance then complete tk 0x03B1 [] s
  else if step = 0 then complete tk 0 [] (s.modMgmt fun m => { m with testFloor := none })
  else complete tk 0 [] (raiseTo 5 step (s.modMgmt fun m => { m with testFloor := some step }))

/-- MGMT_LADDER_TEST (R412). -/
def execMgmtLadderTest (d : Desc) (step : Nat) (s : State) : Host.Outcome State Fault Refusal :=
  .next (onTake d (.mgmtLadderTest step) (mgmtLadderTestBody step) s)

/-! ## Messages of mailbox agent 0 (R420) -/

/-- The pair answers its mailbox: not while it restarts, nor with V_CORE removed, nor after a LOCKSTEP fault (R403, R414, R415). -/
def answersMail (s : State) : Bool :=
  serving s 0 && s.power.managementUp && !(s.module.mode = .fault && (s.mgmt.faultCause = 6 || s.mgmt.vcoreRemoved))

/-- Byte `i` of a message. -/
def msgByte (m : List Byte) (i : Nat) : Nat := ((m[i]?).getD 0).toNat

/-- A reply into the same slot of the host agent: kind and tag kept, the status in bytes 2 and 3, 60 payload bytes (R420). -/
def mailReply (slot : Nat) (m : List Byte) (status : Nat) (payload : List Byte) (s : State) : State :=
  let body := m.take 2 ++ leBytes 2 (status : Int) ++ (payload ++ List.replicate 60 0).take 60
  mbxStore 33 slot 0 body (mbxClear 0 slot s)

/-- A message in a slot of agent 0 answered by its kind, or with MGMT_PARAM_INVALID where it has none (R420). -/
def mailAnswer (slot kind : Nat) (answer : List Byte → State → Nat × List Byte) (s : State) : State :=
  let x := mapGetD s.mbx.slots (slotKey 0 slot) emptySlot
  if !x.full || !answersMail s then s
  else if msgByte x.msg 0 = kind then
    let r := answer x.msg s
    mailReply slot x.msg r.1 r.2 s
  else if msgByte x.msg 0 = 0 || 3 < msgByte x.msg 0 then mailReply slot x.msg 0x01B0 [] s
  else s

/-- ECHO (R420): the payload unchanged. -/
def execMgmtEcho (slot : Nat) (s : State) : Host.Outcome State Fault Refusal :=
  .next (mailAnswer slot 1 (fun m _ => (0, m.drop 4)) s)

/-- STATUS (R420): six registers. -/
def execMgmtStatusMsg (slot : Nat) (s : State) : Host.Outcome State Fault Refusal :=
  .next (mailAnswer slot 2 (fun _ s =>
    (0, itemBytes [it 4 (identState s), it 4 (mgmtStatusWord s), it 4 (mgmtTemp s), it 4 s.mgmt.bootCount, it 4 s.mgmt.resetCause, it 4 s.mgmt.logSeq])) s)

/-- LOG_RECORD (R420): bytes 0 to 59 of the record that payload bytes 0 to 3 name. -/
def execMgmtLogRecord (slot : Nat) (s : State) : Host.Outcome State Fault Refusal :=
  .next (mailAnswer slot 3 (fun m s =>
    let n := msgByte m 4 + msgByte m 5 * 256 + msgByte m 6 * 65536 + msgByte m 7 * 16777216
    match (logHeld s).find? fun r => r.seq = n with
    | some r => (0, logBytes r)
    | none => (0x01B0, [])) s)

end Sys2Proof.Machine
end

