-- ==== Sys2Proof/Machine/Startup.lean ====
section
/-! DEFINITION. Start-up, resets and sleep (R441 to R455): the choice of a bank, a reset that initialises the main section, the end of
STARTING, the drain, IDLE_LINK and the wake. -/

namespace Sys2Proof.Machine

open Sys2Proof

/-! ## Booting (R436, R442, R443) -/

/-- A bank passes the check of R462: it holds an image whose header passes R460 and whose body matches it. -/
def bankBoots (s : State) (b : BootFacts) (n : Nat) : Bool :=
  (if n = 0 then b.bankAOk else b.bankBOk) && match bankStored s n with
    | some x => headerFault x.head s = 0 && bodyMatches x.head x.body
    | none => false

/-- The bank whose image runs, of those that pass: the preferred one, else the other (R442). -/
def bankChosen (s : State) (good : Nat → Bool) : Option Nat :=
  let p := s.update.bootPointer
  if good p then some p else if good (otherBank p) then some (otherBank p) else none

/-- The preferred bank has failed: the log records it at severity 3 (R442). -/
def bankFailed (s : State) : State := logAdd 0x0F00 3 .module (position s) [it 4 56, it 4 s.update.bootPointer] false s

/-- The management pair starts: it runs only a signed image that passes the check of R462, of the preferred bank or else of the other one;
where neither passes the module is in FAULT with cause BOOT (R11, R442). The log records the start, and the lamp test runs (R417, R436). -/
def pairStarted (b : BootFacts) (s : State) : State :=
  let now := s.time.mono
  let s := logAdd 0x0B84 0 .module (position s) [] false (s.modMgmt fun m => { m with restarting := false, pairStartNs := some now })
  match bankChosen s (bankBoots s b) with
  | some n => if n = s.update.bootPointer then s else bankFailed s
  | none => enterFault 1 0 (bankFailed s)

/-- The main section runs the image of a bank (IDENT.BOOT, IDENT.FW_VERSION). -/
def bootFrom (n : Nat) (fallback : Bool) (s : State) : State :=
  let v := bankVersion s n
  s.modModule fun m => { m with bank := n, fallback := fallback, fwVersion := v }

/-- At an entry into STARTING the straps are read, and a bank is chosen: the preferred one, else the other with a record of
severity 3, else FAULT with cause BOOT; `failed` is the bank that a watchdog reset in STARTING has failed (R442, R443). -/
def boot (b : BootFacts) (failed : Option Nat) (s : State) : State :=
  let good (n : Nat) : Bool := bankBoots s b n && failed != some n
  let p := s.update.bootPointer
  let s := s.modModule fun m => { m with masterSel := b.masterSel, sideB := b.sideB }
  match bankChosen s good with
  | some n => if n = p then bootFrom n false s else bootFrom n true (bankFailed s)
  | none => enterFault 1 0 (bankFailed s)

/-! ## A reset that initialises the main section (R446, R447) -/

/-- A command of another module goes on where one of this host ends. -/
def foreign (t : Option Ticket) : Option Ticket := t.filter fun tk => tk.origin.isSome

/-- Mailboxes and locks: the main section's agents lose what they hold, agent 0 keeps its slots, every lock is free (R397, R447). -/
def resetMbx (m : MbxSt) : MbxSt :=
  let own := (m.slots.filter fun p => p.1 / 32 = 0).map fun p =>
    (p.1, if p.2.full && agentOf p.2.sender != 0 then { p.2 with senderReset := true } else p.2)
  let lost := (m.slots.filter fun p => p.1 / 32 != 0 && p.2.full && agentOf p.2.sender = 0).map fun p => p.1 / 32
  let words := m.sendStatus.filter fun p => p.1 < 64
  { MbxSt.init with slots := own, sendStatus := lost.foldl (fun w r => mapPut w r (mapGetD w r 0 ||| 1)) words }

/-- The ring and twin pair: no role, no position until the next discovery; management flash, and what the beat left, stay. -/
def resetCascade (c : CascadeSt) : CascadeSt :=
  { CascadeSt.init with
    storedIdentity := c.storedIdentity, storedPosition := c.storedPosition, headstockPos := c.headstockPos, epoch := c.epoch,
    beatSeq := c.beatSeq, lastBeatNs := c.lastBeatNs, lastBeatSeq := c.lastBeatSeq, beatOrigin := c.beatOrigin, beatHops := c.beatHops,
    beatWest := c.beatWest, onBeat := c.onBeat, pathSeq := c.pathSeq }

/-- Lanes: those of the main section start again, and what waits for them is lost, but for what the Tailstock has whole to relay; the twin's
lanes lie in the Tailstock domain and keep their state (R15, R332). -/
def resetLink (l : LinkSt) : LinkSt :=
  let twin := (l.lanes.filter fun p => 8 ≤ p.1 && p.1 < 20).map fun p => (p.1, if p.2.state = 0 then { p.2 with state := 1 } else p.2)
  { LinkSt.init with lanes := twin, bonds := l.bonds, messages := l.messages, waiting := l.waiting.filter fun m =>
    m.bond = .twin && (m.arrived.map fun n => decide (bodyLength m.body ≤ n)).getD false }

/-- The MGMT registers at their reset values; the log, the sensors, the counts of R413, V_CORE and the steps in force stay (R447);
V_CORE comes back at 800 mV where it had been removed (R407). -/
def resetMgmt (removed : Bool) (cause : Nat) (m : MgmtSt) : MgmtSt :=
  { m with
    wdtMs := 500, restoreS := 5, testFloor := none, vcoreMv := if removed then 800 else m.vcoreMv, vcoreRemoved := false,
    paceShort := false, faultCause := 0, bootCount := idx32 (m.bootCount + 1), resetCause := cause, waiting := [], blocks := [],
    surplusSince := none, shortCount := 0, projectedSince := none, shortSince := none, fullSince := none, resetPending := none }

/-- The TIME registers at their reset values; the Tailstock's counters and u go on (R58, R447). -/
def resetTime (t : TimeSt) : TimeSt :=
  { TimeSt.init with
    wall := t.wall, mono := t.mono, spindle := t.spindle, mgmtNs := t.mgmtNs, tRef := t.tRef, lastRef := t.lastRef, lastStep := t.lastStep, servo := t.servo }

/-- Firmware update: the phase stays, but for RECEIVING, which ends with the bank empty; the engines are loaded from the booted bank
(R463, R471). -/
def resetUpdate (s : State) : State :=
  let s := if s.update.phase = .receiving then
      enterPhase .idle (idleBank s) 0 (setBank (idleBank s) none (s.modUpdate fun u => { u with transfer := none, body := [], inbound := none }))
    else s
  s.modUpdate fun u =>
    { u with
      distribute := u.distribute.filter fun j => j.ticket.origin.isSome,
      activate := u.activate.filter fun j => j.ticket.origin.isSome,
      hitless := u.hitless.map fun h => { h with ticket := foreign h.ticket }, engine := none, engineVersion := [] }

/-- Every block of the main section at its reset values, and what R447 keeps; `cold` where the main domain was off, so that the
PCI Express link is down as well (R448). -/
def clearMain (cold : Bool) (cause : Nat) (s : State) : State :=
  let link := if cold then (0, 0) else (s.host.linkSpeed, s.host.linkWidth)
  let removed := s.mgmt.vcoreRemoved || cold
  { s with
    host := { HostSt.init with linkSpeed := link.1, linkWidth := link.2 }, queue := QueueSt.init, ledger := LedgerSt.init,
    scene := SceneSt.init, ingest := IngestSt.init, decode := DecodeSt.init, compose := ComposeSt.init, overlay := OverlaySt.init,
    record := RecordSt.init, gates := GateSt.init, txn := TxnSt.init, mbx := resetMbx s.mbx, cascade := resetCascade s.cascade,
    link := resetLink s.link, time := resetTime s.time, mgmt := resetMgmt removed cause s.mgmt,
    mem := { MemSt.init with epoch := s.mem.epoch + 1, channels := s.mem.channels.map fun p =>
      (p.1, { Channel.init with readMarginPs := p.2.readMarginPs, writeMarginPs := p.2.writeMarginPs }) },
    module := { s.module with sleeping := none, waking := false },
    power := { s.power with shutdownDraining := false, shutdownAsked := false } }

/-- A reset that initialises the main section, with its cause (0 MAINS, 1 SYSTEM_RESET, 2 COMMAND, 3 WATCHDOG, 4 UPDATE): the module
enters STARTING, and boots unless it is held in reset; a third watchdog reset within ten minutes is a fault (R413, R446, R447). -/
def mainReset (cause : Nat) (b : Option BootFacts) (s : State) : State :=
  let failed := if cause = 3 && s.module.mode = .starting then some s.module.bank else none
  let cold := cause = 0 || s.module.mode = .idleLink
  let servo : Servo := if uBounded s then .holdover else .unknown
  let port := gmPort s
  let s := if s.cascade.headstock then giveHeadstock 2 s else s
  let s := clearMain cold cause s
  let s := logAdd 0x0B80 4 .module (position s) [it 1 s.module.mode.value, it 1 1, it 1 0, it 1 cause] false s
  let s := resetUpdate (setServo servo port (setMode .starting s))
  let resets := if cause = 3 then s.time.mono :: recent s s.mgmt.watchdogResets else s.mgmt.watchdogResets
  let s := s.modMgmt fun m => { m with watchdogResets := resets }
  let s := match b with
    | some f => boot f failed s
    | none => s
  if cause = 3 && 3 ≤ resets.length then enterFault 7 0 s else s

/-- COMMAND_RESET_TIMER (R446): 1 ms after MGMT_RESET completed. -/
def execCommandResetTimer (b : BootFacts) (s : State) : Host.Outcome State Fault Refusal :=
  .next (if heldFor s s.mgmt.resetPending 1000000 && s.module.mode != .off then mainReset 2 (some b) s else s)

/-- The watchdog can expire: its period has passed since the pair started and since it last expired (R404). -/
def watchdogDue (s : State) : Bool :=
  let n := limited 100 5000 s.mgmt.wdtMs * 1000000
  passedSince s s.mgmt.pairStartNs n && passedSince s s.mgmt.expiries.head? n

/-- WATCHDOG_EXPIRY (R404): the pair restarts; a second expiry within 60 s of the first resets the main section. -/
def execWatchdogExpiry (b : BootFacts) (s : State) : Host.Outcome State Fault Refusal :=
  .next
    (if s.module.mode = .off || !watchdogDue s then s
     else
       let now := s.time.mono
       let l := now :: recent s s.mgmt.expiries
       let second_ := s.mgmt.firstExpiry.any fun t => now < t + 60 * second
       let s := s.modMgmt fun m => { m with expiries := l, firstExpiry := if second_ then none else some now }
       if second_ then mainReset 3 (some b) (logAdd 0x0B84 3 .module (position s) [it 1 1, it 4 l.length] false s)
       else restartPair 1 l.length s)

/-- SYSTEM_INPUT: contact, level, cause (0 SYS_RESET, 1 WAKE, 2 SHUTDOWN, 3 SERVICE_EN, 4 STRAP) (R440). -/
def systemInput (contact : Nat) (high : Bool) (cause : Nat) (s : State) : State :=
  raiseMod 0x0B89 [it 1 contact, it 1 (flag high), it 1 cause] s

/-- SYS_RESET (R433, R446): the main section is reset, and held in reset while the contact stays low. -/
def execSysReset (s : State) : Host.Outcome State Fault Refusal :=
  .next
    (if s.module.mode = .off || s.power.sysResetHeld then s
     else systemInput 5 false 0 (mainReset 1 none (s.modPower fun p => { p with sysResetHeld := true })))

/-- SYS_RESET_RELEASE (R433): the main section boots. -/
def execSysResetRelease (b : BootFacts) (s : State) : Host.Outcome State Fault Refusal :=
  .next
    (if s.power.sysResetHeld then systemInput 5 true 0 (boot b none (s.modPower fun p => { p with sysResetHeld := false })) else s)

/-! ## Drains (R449, R454) -/

/-- Ingest, decode and overlay work is wound down: reception stops and open frames are discarded, joins are left, access units
that wait are discarded; a picture in decode and a run in progress go on to their end. -/
def startDrain (s : State) : State :=
  let s := s.ingest.streams.foldl (fun s p => if p.2.stopped then s else sendJoins "LEAVE" (legsOf p.2.params) s) s
  s.modIngest fun i => { i with streams := i.streams.map fun p => (p.1, { p.2 with stopped := true, open_ := [], units := [] }) }

/-- The drain has ended: no picture is in decode, no overlay run is in progress. -/
def drainEnded (s : State) : Bool :=
  ((mapVals s.decode.pipelines).all fun p => p.current.isNone) && ((mapVals s.overlay.engines).all fun e => e.run.isNone)

/-- Decode state is discarded: each pipeline resumes at an IRAP or IDR picture (R449, R451, R453). -/
def dropDecode (s : State) : State :=
  s.modDecode fun d => { d with attached := d.attached.map fun p => (p.1, { p.2 with held := [], needIrap := true }) }

/-- An orderly shutdown starts: no further command is taken, work is wound down (R454). -/
def startShutdown (s : State) : State := startDrain (s.modPower fun p => { p with shutdownDraining := true, shutdownAsked := false })

/-! ## The end of STARTING (R444) -/

/-- Lanes that the start-up training brought up: ring and twin lanes 0 to 19, then the internal lanes. -/
def startLanes (l : List Bool) (s : State) : State :=
  (List.range 52).foldl (fun s i => if l.getD i false then setLane (if i < 20 then i else i + 12) 3 0 s else s) s

/-- DRAM trained by the start-up. -/
def startDram (l : List Bool) (s : State) : State :=
  s.modMem fun m => { m with channels := m.channels.map fun p => (p.1, { p.2 with trained := l.getD p.1 false }) }

/-- STARTING_COMPLETE (R444): SETUP, or FAULT with cause DRAM_TRAINING or SELFTEST; a shutdown asked for in STARTING follows. -/
def execStartingComplete (f : StartFacts) (s : State) : Host.Outcome State Fault Refusal :=
  .next
    (if s.module.mode != .starting || s.power.sysResetHeld then s
     else
       let s := startDram f.dramOk s
       if !(s.mem.channels.all fun p => p.2.trained) then enterFault 3 0 s
       else
         let s := startLanes f.lanesUp s
         if !f.selfChecksOk then enterFault 2 0 s
         else
           let s := settleHeads (setMode .setup s)
           if s.power.shutdownAsked then startShutdown s else s)

/-! ## Sleep and wake (R449 to R453) -/

/-- The ring as a module knows it: the Headstock its state, another its two ring links (R339). -/
def ringWhole (s : State) : Bool := if s.cascade.headstock then s.cascade.ring = .intact else s.cascade.east.up && s.cascade.west.up

/-- CASCADE_SLEEP (R449): the module is WITHDRAWN and drains. -/
def cascadeSleepBody (tk : Ticket) (s : State) : State :=
  if s.cascade.headstock || !(s.module.mode = .setup || s.module.mode = .run) || s.module.sleeping.isSome then complete tk 0x0300 [] s
  else if !ringWhole s then complete tk 0x05D1 [] s
  else
    let s := startDrain (setRole .withdrawn 4 s)
    s.modModule fun m => { m with sleeping := some tk }

/-- CASCADE_SLEEP (R449). -/
def execCascadeSleep (d : Desc) (s : State) : Host.Outcome State Fault Refusal := .next (onTake d .cascadeSleep cascadeSleepBody s)

/-- The host link goes down with the main domain (R449). -/
def dropHostLink (s : State) : State :=
  let s := raise 0x0083 .port 16 [it 1 0, it 1 0] (s.modHost fun h => { h with linkSpeed := 0, linkWidth := 0 })
  detachHost 1 s

/-- The stream engines' mailboxes are emptied (R397, R451). -/
def resetEngines (s : State) : State := (List.range' 1 32).foldl (fun s a => agentReset a s) s

/-- Streams receive again (R453). -/
def rejoin (s : State) : State :=
  let s := s.ingest.streams.foldl (fun s p => if p.2.stopped then sendJoins "JOIN" (legsOf p.2.params) s else s) s
  s.modIngest fun i => { i with streams := i.streams.map fun p => (p.1, { p.2 with stopped := false }) }

/-- A module that has left SETUP and RUN while it drained does not sleep: the command completes with MODULE_STATE, and the module goes on as it
was, but for one in FAULT, which stays WITHDRAWN (R23, R358). -/
def noSleep (tk : Ticket) (s : State) : State :=
  let s := complete tk 0x0300 [] (s.modModule fun m => { m with sleeping := none })
  if s.module.mode = .fault then s else leaveWithdrawn 4 (rejoin s)

/-- A Tailstock in IDLE_LINK has no line from its own main section until lines come again, and its outputs no trained link (R170, R172). -/
def stopHeads (s : State) : State :=
  s.modTs fun t =>
    { t with heads := t.heads.map fun p => (p.1, { p.2 with own := { p.2.own with lineNs := none }, trained := none, training := false, emitting := false }) }

/-- SLEEP_DRAIN_COMPLETE (R23, R449 to R451): the command completes, the sleep order is sent, and the module enters IDLE_LINK. -/
def execSleepDrainComplete (s : State) : Host.Outcome State Fault Refusal :=
  .next
    (match s.module.sleeping with
     | none => s
     | some tk =>
       if s.module.waking || s.module.mode = .off || s.module.mode = .starting || s.module.mode = .idleLink then s
       else if s.cascade.headstock || !(s.module.mode = .setup || s.module.mode = .run) then noSleep tk s
       else if !drainEnded s then s
       else
         let from_ := s.module.mode
         let s := complete tk 0 [] (dropDecode s)
         let s := emit (.message .west .control "SLEEP_ORDER" []) (emit (.message .east .control "SLEEP_ORDER" []) s)
         let s := s.modModule fun m => { m with sleeping := none, sleptFrom := from_ }
         let s := setServo (if uBounded s then .holdover else servoFallback s) (gmPort s) s
         let s := dropHostLink (resetEngines (lanesSleep true s))
         let s := s.modMgmt fun m => { m with vcoreRemoved := true }
         settleHeads (setMode .idleLink (stopHeads s)))

/-- CASCADE_WAKE (R452): the module begins to wake; the command completes when it is awake. -/
def cascadeWakeBody (tk : Ticket) (s : State) : State :=
  if s.module.mode != .idleLink || s.module.waking then complete tk 0x0300 [] s
  else s.modModule fun m => { m with waking := true, sleeping := some tk }

/-- CASCADE_WAKE (R452). -/
def execCascadeWake (d : Desc) (s : State) : Host.Outcome State Fault Refusal := .next (onTake d .cascadeWake cascadeWakeBody s)

/-- WAKE (R433, R452): a low on WAKE# in IDLE_LINK; ignored in every other state and while SYS_RESET# is low. -/
def execWake (s : State) : Host.Outcome State Fault Refusal :=
  .next
    (if s.module.mode = .idleLink && !s.power.sysResetHeld then
       systemInput 6 false 1 (s.modModule fun m => { m with waking := true })
     else s)

/-- WAKE_COMPLETE (R453): the module returns to the state it left. -/
def execWakeComplete (s : State) : Host.Outcome State Fault Refusal :=
  .next
    (if s.module.mode = .idleLink && s.module.waking then
       let tk := s.module.sleeping
       let s := s.modMgmt fun m => { m with vcoreRemoved := false, vcoreMv := 800 }
       let s := setMode s.module.sleptFrom (s.modModule fun m => { m with waking := false, sleeping := none })
       let s := settleHeads (rejoin (leaveWithdrawn 4 (lanesWake s)))
       match tk with
       | some t => complete t 0 [] s
       | none => s
     else s)

end Sys2Proof.Machine
end

