-- ==== Sys2Proof/Machine/Power.lean ====
section
/-! DEFINITION. Power and the system connector (R422 to R440, R454, R455): mains, hold-up, the keep-alive bus, power-up and orderly
shutdown, the strap check, and the status outputs. -/

namespace Sys2Proof.Machine

open Sys2Proof

/-! ## Off and on -/

/-- The main domain goes down: OFF. The Tailstock and its twin lanes go on, and so do EAST.0 and WEST.0, which the management domain powers
(R19, R22, R356). -/
def goOff (s : State) : State :=
  let s := if s.cascade.headstock then giveHeadstock 2 s else s
  let s := detachHost 1 (setMode .off s)
  let s := s.modHost fun h => { h with linkSpeed := 0, linkWidth := 0 }
  s.modLink fun l => { l with lanes := l.lanes.map fun p =>
    (p.1, if p.1 = 0 || p.1 = 4 || (8 ≤ p.1 && p.1 < 20) then p.2 else { p.2 with state := 1 }) }

/-- The main domain comes up, and the module enters STARTING with reset cause MAINS (R441, R446). -/
def powerUp (b : BootFacts) (s : State) : State := mainReset 0 (some b) s

/-- KEEPALIVE_STATE: 0 supplying, 1 current-limited, 2 off; bus voltage in mV; feed power in W (R426, R440). -/
def Feed.code : Feed → Nat
  | .supplying => 0 | .limited => 1 | .off => 2

/-- The module's keep-alive feed in a state, with KEEPALIVE_STATE at a change (R426). -/
def setFeed (f : Feed) (s : State) : State :=
  if s.power.feed = f then s
  else
    let s := s.modPower fun p => { p with feed := f }
    raiseMod 0x0B88 [it 1 (Feed.code f), it 4 s.power.busMv, it 2 s.power.feedW] s

/-! ## Mains (R423, R424) -/

/-- MAINS_STATE: inlet, present, volts, and the input power of the other supply (R440). -/
def mainsState (inlet : Nat) (present : Bool) (volts : Nat) (s : State) : State :=
  raiseMod 0x0B87 [it 1 inlet, it 1 (flag present), it 2 volts, it 2 (sensorValue s (34 - inlet)).toNat] s

/-- An inlet's state and voltage. -/
def setInlet (inlet : Nat) (present : Bool) (volts : Nat) (s : State) : State :=
  s.modPower fun p =>
    if inlet = 0 then { p with inlet0 := present, volts0 := volts } else { p with inlet1 := present, volts1 := volts }

/-- Whether an inlet is present. -/
def inletOn (s : State) (inlet : Nat) : Bool := if inlet = 0 then s.power.inlet0 else s.power.inlet1

/-- INLET_PRESENT (R423): AC within 85 to 265 V; the hold-up, if any, ends, and the feed supplies again. -/
def execInletPresent (inlet volts : Nat) (s : State) : Host.Outcome State Fault Refusal :=
  .next
    (if 1 < inlet || inletOn s inlet || volts < 85 || 265 < volts then s
     else
       let s := setInlet inlet true volts s
       let s := s.modPower fun p => { p with bothLostSince := none }
       let s := mainsState inlet true volts s
       if s.power.feed = .off then setFeed .supplying s else s)

/-- INLET_LOST (R423, R424): AC below 75 V or above 275 V; with the other inlet present nothing else changes; with both lost the hold-up begins. -/
def execInletLost (inlet volts : Nat) (s : State) : Host.Outcome State Fault Refusal :=
  .next
    (if 1 < inlet || !inletOn s inlet || (75 ≤ volts && volts ≤ 275) then s
     else
       let s := setInlet inlet false volts s
       let now := s.time.mono
       let s := s.modPower fun p => { p with bothLostSince := if p.inlet0 || p.inlet1 then none else some now }
       mainsState inlet false volts s)

/-- Lanes of a list go DOWN with their power. -/
def lanesDown (l : List Nat) (s : State) : State := l.foldl (fun s k => setLane k 1 0 s) s

/-- The Tailstock's power domain goes down (R193). -/
def tailstockDown (s : State) : State :=
  let s := lanesDown (List.range' 8 12 ++ List.range' 32 32) s
  (s.modTs fun t => { t with powered := false }).modTime fun t => { t with tRef := none, lastRef := none }

/-- The main domain and the keep-alive feed have held for 20 ms: the feed ends and the module enters OFF; without a twin, nothing else powers
its keep-alive bus (R20, R424). -/
def endFeed (s : State) : State :=
  let alone := s.cascade.twin.isNone
  let s := setFeed .off s
  let s := if s.module.mode = .off then s else goOff s
  if alone && s.ts.powered then tailstockDown s else s

/-- V_STANDBY has held for 60 ms: the management domain goes down, and with it EAST.0 and WEST.0 (R19, R424). -/
def endStandby (s : State) : State :=
  (lanesDown [0, 4] s).modPower fun p => { p with managementUp := false, shutdownDraining := false, sysResetHeld := false }

/-- HOLDUP_END (R424): no sooner than 20 ms after the second loss the module enters OFF, no sooner than 60 ms after it V_STANDBY ends. -/
def execHoldupEnd (s : State) : Host.Outcome State Fault Refusal :=
  .next
    (match s.power.bothLostSince with
     | none => s
     | some t =>
       if s.time.mono < t + 20000000 || !s.power.managementUp then s
       else if s.module.mode != .off || s.power.feed != .off then endFeed s
       else if t + 60000000 ≤ s.time.mono then endStandby s
       else s)

/-- MANAGEMENT_POWER_UP (R407, R441): with an inlet present the management domain comes up, or the main domain follows where the hold-up ended
before V_STANDBY did; the pair starts, with the ladder at step 0; unless SHUTDOWN# is low the main domain comes up. -/
def execManagementPowerUp (b : BootFacts) (shutdownLow : Bool) (s : State) : Host.Outcome State Fault Refusal :=
  .next
    (if (s.power.managementUp && (s.module.mode != .off || s.power.shutdownDone)) || !(s.power.inlet0 || s.power.inlet1) then s
     else
       let s := s.modPower fun p => { p with managementUp := true, shutdownDone := shutdownLow }
       let s := s.modTime fun t => { t with mgmtNs := 0 }
       let s := s.modMgmt fun m =>
         { m with
           step := 0, testFloor := none, vcoreMv := 800, vcoreRemoved := false, restarting := false, expiries := [], firstExpiry := none, sensors := [],
           limitSince := [], lastTakeNs := none, lastThermalNs := none, lastEvalNs := none }
       let s := pairStarted b s
       if shutdownLow then s else powerUp b s)

/-! ## The keep-alive bus and the Tailstock domain (R193, R195, R426) -/

/-- KEEPALIVE_LOW (R20, R193, R426): the Tailstock's power domain goes down; it cannot while this module's own inlets power the bus. -/
def execKeepaliveLow (s : State) : Host.Outcome State Fault Refusal :=
  .next (if s.ts.powered && !(s.power.inlet0 || s.power.inlet1) then tailstockDown s else s)

/-- The records of the scene in force written to a Tailstock that has been initialised, this module's or the twin's: those of every head that
the scene holds records of, and the groups', with orders to swap to them (R195, R196). -/
def rewriteTailstock (twin : Bool) (s : State) : State :=
  let b := s.scene.inForce
  let keys := (b.heads.map Prod.fst).filter fun k => decide (32 ≤ k) == twin
  let bond : Bond := if twin then .twin else .toTailstock
  let s := keys.foldl (sendRecords b) s
  let s := b.groups.foldl (fun s p => emit (.record bond (claimNow s) (.syncGroup p.1 (some p.2))) s) s
  keys.foldl (fun s k =>
    let g := (headScene b k).timing.syncGroup
    let n := match mapGet b.groups g with
      | some r => applyFrame s g r s.time.wall
      | none => 0
    emit (.message bond .control "SWAP_ORDER" [((k % 32 : Nat) : Int), (n : Int), 0]) s) s

/-- TAILSTOCK_POWER_UP (R26, R193, R195): this module's Tailstock, which has been without power, is initialised, and a running main section
writes it its records; or the twin's has been, which this main section detects on the twin link, which the own Tailstock relays (R10), and
writes it its records too. -/
def execTailstockPowerUp (s : State) : Host.Outcome State Fault Refusal :=
  .next
    (if !s.ts.powered then
       let s := (tailstockInit s).modTime fun t => { t with spindle := 0 }
       if inService s then rewriteTailstock false s else s
     else if inService s && s.cascade.twinUp then rewriteTailstock true s
     else s)

/-- KEEPALIVE_CURRENT_LIMIT (R425, R426): the feed enters or leaves current limiting. -/
def execKeepaliveCurrentLimit (limited : Bool) (busMv feedW : Nat) (s : State) : Host.Outcome State Fault Refusal :=
  .next
    (let s := s.modPower fun p => { p with busMv := busMv, feedW := feedW }
     if s.power.feed = .off then s else setFeed (if limited then .limited else .supplying) s)

/-! ## Orderly shutdown (R433, R454, R455) -/

/-- SHUTDOWN (R433, R454): in STARTING it waits for the end of STARTING; from IDLE_LINK the module goes OFF at once. -/
def execShutdown (s : State) : Host.Outcome State Fault Refusal :=
  .next
    (if s.module.mode = .off || s.power.sysResetHeld || s.power.shutdownDraining then s
     else
       let s := systemInput 7 false 2 s
       match s.module.mode with
       | .starting => s.modPower fun p => { p with shutdownAsked := true }
       | .idleLink => goOff (s.modPower fun p => { p with shutdownDone := true })
       | _ => startShutdown s)

/-- SHUTDOWN_DRAIN_COMPLETE (R454): commands taken are complete and work is wound down: the pair halts and the module enters OFF. -/
def execShutdownDrainComplete (s : State) : Host.Outcome State Fault Refusal :=
  .next
    (if s.power.shutdownDraining && drainEnded s && s.queue.inFlight.isEmpty then
       goOff (s.modPower fun p => { p with shutdownDraining := false, shutdownDone := true })
     else s)

/-- SHUTDOWN_RELEASE (R455): after an orderly shutdown the module enters STARTING once SHUTDOWN# has been high for 1 s. -/
def execShutdownRelease (b : BootFacts) (s : State) : Host.Outcome State Fault Refusal :=
  .next
    (if s.module.mode = .off && s.power.shutdownDone && s.power.managementUp then
       let s := s.modPower fun p => { p with shutdownDone := false }
       let s := pairStarted b s
       systemInput 7 true 2 (powerUp b s)
     else s)

/-- STRAP_CHECK (R433): a strap contact that differs from IDENT.STRAPS raises SYSTEM_INPUT and changes nothing. -/
def execStrapCheck (masterSel sideB : Bool) (s : State) : Host.Outcome State Fault Refusal :=
  .next
    (if s.module.mode = .off then s
     else
       let s := if masterSel = s.module.masterSel then s else systemInput 9 (!masterSel) 4 s
       if sideB = s.module.sideB then s else systemInput 10 (!sideB) 4 s)

/-! ## Status outputs, relays and RDY_BSY# (R289, R434, R435) -/

/-- MODULE_OK# is driven low, and RELAY_MODULE closed. -/
def moduleOk (s : State) : Bool := drivenLow s 0
/-- RUN_FULL# is driven low. -/
def runFull (s : State) : Bool := drivenLow s 1
/-- ACTIVE# is driven low: the module's tokens carry priority 0xC0. -/
def activeOut (s : State) : Bool := drivenLow s 2
/-- HEADSTOCK# is driven low. -/
def headstockOut (s : State) : Bool := drivenLow s 3
/-- The enabled heads of the Tailstock. -/
def enabledHeads (s : State) : List HeadRt := (mapVals s.ts.heads).filter fun h => h.once.timing.enable = 1
/-- OUTPUT_OK# is driven low, and RELAY_OUTPUT closed: every enabled head is ACTIVE or in SINK_SLEEP. -/
def outputOk (s : State) : Bool := s.ts.powered && uBounded s && (enabledHeads s).all fun h => h.hstate = 3 || h.hstate = 6
/-- SCORCH_NONE# is driven low: the last complete frame of every enabled head had no scorched pixel. -/
def scorchNone (s : State) : Bool := s.ts.powered && (enabledHeads s).all fun h => h.lastScorched = some 0
/-- RDY_BSY# is held low; in OFF and before the main domain comes up it is released. -/
def rdyBusy (s : State) : Bool := s.module.mode != .off && busy s

/-! ## Front-panel indicators (R436) -/

/-- The colour of an indicator. -/
inductive Colour where
  | dark | green | amber | red | magenta
deriving DecidableEq, Repr, Inhabited

/-- How an indicator shows its colour: steady, blinking at 1 Hz with equal times, or 1 s on and 3 s off. -/
inductive Blink where
  | steady | even | sleep
deriving DecidableEq, Repr, Inhabited

/-- An indicator with some colours: the lamp test from a start of the pair on, 0.5 s in each, else what it shows. -/
def lamp (colours : List Colour) (now : Colour × Blink) (s : State) : Colour × Blink :=
  match s.mgmt.pairStartNs with
  | none => now
  | some t =>
    match colours[(s.time.mono - t) / 500000000]? with
    | some c => (c, .steady)
    | none => now

/-- An indicator of the management domain: dark while the domain is unpowered. -/
def mgmtLamp (colours : List Colour) (now : Colour × Blink) (s : State) : Colour × Blink :=
  if s.power.managementUp then lamp colours now s else (.dark, .steady)

/-- PWR0 and PWR1. -/
def lampPower (inlet : Nat) (s : State) : Colour × Blink := mgmtLamp [.green] (if inletOn s inlet then .green else .dark, .steady) s

/-- KA: the module's own feed and the level of V_KEEPALIVE. -/
def lampKeepalive (s : State) : Colour × Blink :=
  let now : Colour := match s.power.feed with
    | .off => .dark
    | .limited => .amber
    | .supplying => if (sensorLevel s 32).value = 0 then .green else .amber
  mgmtLamp [.green, .amber] (now, .steady) s

/-- STATE. -/
def lampState (s : State) : Colour × Blink :=
  let now : Colour × Blink := match s.module.mode with
    | .off => (.dark, .steady)
    | .run => (.green, .steady)
    | .setup => (.green, .even)
    | .idleLink => (.green, .sleep)
    | .lean => (.amber, .steady)
    | .maintenance | .starting => (.amber, .even)
    | .fault => (.red, .steady)
  mgmtLamp [.green, .amber, .red] now s

/-- TWIN. -/
def lampTwin (s : State) : Colour × Blink :=
  let now : Colour × Blink := match s.cascade.role with
    | .alone => (.dark, .steady)
    | .active => (.green, .steady)
    | .standby => (.green, .even)
    | .withdrawn => (.amber, .steady)
  mgmtLamp [.green, .amber] now s

/-- HS. -/
def lampHeadstock (s : State) : Colour × Blink := mgmtLamp [.green] (if s.cascade.headstock then .green else .dark, .steady) s

/-- OUT: red for a head in PLATE or u unbounded, before amber for NO_SINK, TRAINING, LINK_FAIL or HOLDING, before green. -/
def lampOutput (s : State) : Colour × Blink :=
  let l := enabledHeads s
  let now : Colour :=
    if (l.any fun h => h.hstate = 5) || !uBounded s then .red
    else if l.any fun h => h.hstate = 1 || h.hstate = 2 || h.hstate = 7 || h.hstate = 4 then .amber
    else if outputOk s then .green
    else .dark
  if s.ts.powered then lamp [.green, .amber, .red] (now, .steady) s else (.dark, .steady)

/-- SCORCH. -/
def lampScorch (s : State) : Colour × Blink :=
  if s.ts.powered then lamp [.magenta] (if scorchNone s then .dark else .magenta, .steady) s else (.dark, .steady)

/-- SVC, by whether the service port's link is up: the keyswitch before the link, blinking during an image transfer. -/
def lampService (linkUp : Bool) (s : State) : Colour × Blink :=
  let now : Colour × Blink :=
    if s.power.serviceEn then (.amber, if s.update.transfer.isSome then .even else .steady) else (if linkUp then .green else .dark, .steady)
  mgmtLamp [.green, .amber] now s

end Sys2Proof.Machine
end

