-- ==== Sys2Proof/Machine/Update.lean ====
section
/-! DEFINITION. Firmware update (R456 to R472): the service port and its keyswitch, distribution, activation, the hitless update of a
twin pair, engine-by-engine replacement, and the two happenings of the twin pair that a hitless update rests on. -/

namespace Sys2Proof.Machine

open Sys2Proof

/-! ## The service port (R456 to R462) -/

/-- A message of the service port: its header of 8 bytes and its payload (R457). -/
def serviceBytes (kind : Nat) (payload : Items) : List Byte :=
  let l := itemBytes payload
  itemBytes [it 1 kind, it 3 0, it 4 l.length] ++ l

/-- The RESULT message: the status, two zero bytes and the body bytes accepted (R457). -/
def resultBytes (status accepted : Nat) : List Byte := serviceBytes 0x82 [it 2 status, it 2 0, it 8 accepted]

/-- A RESULT message (R457). -/
def serviceResult (status : Nat) (s : State) : State := emit (.service "RESULT" (resultBytes status s.update.body.length)) s

/-- The connection is closed by the module. -/
def closeService (s : State) : State := emit (.service "CLOSE" []) (s.modUpdate fun u => { u with connected := false })

/-- The transfer, if any, is discarded and the inactive bank left empty (R457, R458, R463). -/
def dropTransfer (s : State) : State :=
  if s.update.transfer.isSome then
    enterPhase .idle (idleBank s) 0 (setBank (idleBank s) none (s.modUpdate fun u => { u with transfer := none, body := [] }))
  else s

/-- The version of the image in transfer. -/
def transferVersion (s : State) : Nat := (s.update.transfer.map Colilo.version).getD 0

/-- The session completes with a status: UPDATE_REFUSED, RESULT, the transfer dropped, the connection closed. -/
def failSession (status : Nat) (s : State) : State := 
  closeService (dropTransfer (serviceResult status (updateRefused status s.update.body.length (transferVersion s) s)))

/-- The service port serves its connection: the pair runs (R402, R456). -/
def serviceUp (s : State) : Bool := s.power.managementUp && s.module.mode != .off && !s.mgmt.restarting

/-- SERVICE_CONNECT (R456): one session at a time; a second connection gets UPDATE_IN_PROGRESS and is closed. -/
def execServiceConnect (s : State) : Host.Outcome State Fault Refusal :=
  .next
    (if !serviceUp s then s
     else if s.update.connected then emit (.service "SECOND_CLOSE" []) (emit (.service "SECOND_RESULT" (resultBytes 0x03C0 0)) s)
     else
       let now := s.time.mono
       s.modUpdate fun u => { u with connected := true, lastDataNs := now })

/-- SERVICE_HELLO (R457): HELLO_REPLY; out of order during a transfer. -/
def execServiceHello (s : State) : Host.Outcome State Fault Refusal :=
  .next
    (if !serviceUp s || !s.update.connected then s
     else if s.update.transfer.isSome then failSession 0x06C0 s
     else
       let boot := s.module.bank + flag s.module.fallback * 2
       emit (.service "HELLO_REPLY"
         (serviceBytes 0x81
           [it 4 Config.part, it 4 (Config.steppingSilicon + Config.steppingBoard * 256), it 4 (Config.serial % 4294967296),
            it 4 (Config.serial / 4294967296), it 4 s.module.fwVersion, it 4 boot, it 4 s.update.phase.value, it 4 s.update.rollback])) s)

/-- The status of a BEGIN: the keyswitch, the phase, the header checks (R457, R460, R463). -/
def beginStatus (h : Colilo) (s : State) : Nat :=
  if !s.power.serviceEn then 0x06C6
  else if !(s.update.phase = .idle || s.update.phase = .staged) then 0x03C0
  else headerFault h s

/-- SERVICE_BEGIN (R458, R460, R461): RESULT; on SUCCESS the inactive bank is marked empty and the transfer begins. -/
def execServiceBegin (h : HeaderBytes) (s : State) : Host.Outcome State Fault Refusal :=
  .next
    (if !serviceUp s || !s.update.connected then s
     else if s.update.transfer.isSome then failSession 0x06C0 s
     else
       let h := readColilo h
       let c := beginStatus h s
       if c != 0 then closeService (serviceResult c (updateRefused c 0 h.version s))
       else
         let now := s.time.mono
         let s := setBank (idleBank s) none (s.modUpdate fun u => { u with transfer := some h, body := [], lastDataNs := now })
         serviceResult 0 (enterPhase .receiving (idleBank s) h.version s))

/-- SERVICE_DATA (R457, R461): body bytes in order. -/
def execServiceData (bytes : List Byte) (s : State) : Host.Outcome State Fault Refusal :=
  .next
    (if !serviceUp s || !s.update.connected then s
     else if s.update.transfer.isNone || bytes = [] || 65536 < bytes.length then failSession 0x06C0 s
     else
       let now := s.time.mono
       s.modUpdate fun u => { u with body := u.body ++ bytes, lastDataNs := now })

/-- SERVICE_END (R462): the bank holds a verified image, or UPDATE_HASH leaves it empty; `readsBack` says that the flash holds the body as it
came. -/
def execServiceEnd (readsBack : Bool) (s : State) : Host.Outcome State Fault Refusal :=
  .next
    (if !serviceUp s || !s.update.connected then s
     else
       match s.update.transfer with
       | none => failSession 0x06C0 s
       | some h =>
         if readsBack && bodyMatches h s.update.body then
           let s := serviceResult 0 (setBank (idleBank s) (some ⟨h, s.update.body⟩) s)
           enterPhase .staged (idleBank s) h.version (s.modUpdate fun u => { u with transfer := none, body := [] })
         else failSession 0x06C5 s)

/-- SERVICE_ABORT (R458): the transfer is discarded. -/
def execServiceAbort (s : State) : Host.Outcome State Fault Refusal :=
  .next
    (if !serviceUp s || !s.update.connected then s
     else if s.update.transfer.isNone then failSession 0x06C0 s
     else dropTransfer s)

/-- SERVICE_STALL_TIMEOUT (R458): 10 s without a message of a transfer. -/
def execServiceStallTimeout (s : State) : Host.Outcome State Fault Refusal :=
  .next
    (if s.update.connected && s.update.transfer.isSome && s.update.lastDataNs + 10 * second ≤ s.time.mono then closeService (dropTransfer s)
     else s)

/-- SERVICE_DISCONNECT (R458): the tool closes the connection. -/
def execServiceDisconnect (s : State) : Host.Outcome State Fault Refusal :=
  .next (if s.update.connected then dropTransfer (s.modUpdate fun u => { u with connected := false }) else s)

/-- SERVICE_EN (R433, R457): the keyswitch condition is set, or ends, and with it a session. -/
def execServiceEn (low : Bool) (s : State) : Host.Outcome State Fault Refusal :=
  .next
    (if s.module.mode = .off || s.power.serviceEn = low then s
     else
       let s := systemInput 8 (!low) 3 (s.modPower fun p => { p with serviceEn := low })
       if !low && s.update.connected then failSession 0x06C6 s else s)

/-! ## Status, confirm, revert (R463 to R465) -/

/-- The record of UPDATE_STATUS: of each body hash the 16 low-order bytes. -/
def updateStatusItems (s : State) : Items :=
  let hash (n : Nat) : Nat := ((bankImage s n).map Colilo.bodyHash).getD 0
  let counter (n : Nat) : Nat := ((bankImage s n).map Colilo.rollback).getD 0
  [it 1 s.update.phase.value, it 1 s.update.bootPointer, it 2 0, it 4 s.update.rollback, it 8 (s.update.activateNs.getD 0),
   it 4 (bankVersion s 0), it 4 (bankVersion s 1), it 4 (counter 0), it 4 (counter 1), it 16 (hash 0), it 16 (hash 1)]

/-- UPDATE_STATUS: 64 bytes. -/
def updateStatusBody (tk : Ticket) (s : State) : State := completeRecord tk 64 (updateStatusItems s) [] s

/-- UPDATE_STATUS (R472). -/
def execUpdateStatus (d : Desc) (s : State) : Host.Outcome State Fault Refusal := .next (onTake d .updateStatus updateStatusBody s)

/-- UPDATE_CONFIRM (R465). -/
def updateConfirmBody (tk : Ticket) (s : State) : State :=
  if s.update.phase != .trial then complete tk 0x03C0 [] s
  else
    let n := ((bankImage s s.module.bank).map Colilo.rollback).getD 0
    let s := s.modUpdate fun u => { u with rollback := max u.rollback n }
    complete tk 0 [] (enterPhase .idle s.module.bank s.module.fwVersion s)

/-- UPDATE_CONFIRM (R465). -/
def execUpdateConfirm (d : Desc) (s : State) : Host.Outcome State Fault Refusal := .next (onTake d .updateConfirm updateConfirmBody s)

/-- UPDATE_REVERT (R465): the boot pointer goes to the other bank if that bank passes the check of R462, and the main section is
reset with cause UPDATE; in IDLE after a fallback only the pointer moves. -/
def updateRevertBody (b : BootFacts) (tk : Ticket) (s : State) : State :=
  if !(s.update.phase = .trial || s.update.phase = .idle) then complete tk 0x03C0 [] s
  else if !bankBoots s b (otherBank s.update.bootPointer) then complete tk 0x06C7 [] s
  else
    let only := s.update.phase = .idle && s.module.fallback
    let s := s.modUpdate fun u => { u with bootPointer := otherBank u.bootPointer }
    let s := complete tk 0 [] (enterPhase .idle s.module.bank s.module.fwVersion s)
    if only then s else mainReset 4 (some b) s

/-- UPDATE_REVERT (R465). -/
def execUpdateRevert (d : Desc) (b : BootFacts) (s : State) : Host.Outcome State Fault Refusal :=
  .next (onTake d (.updateRevert b) (updateRevertBody b) s)

/-! ## Distribution (R466) -/

/-- Modules of the cascade that a mask names. -/
def namedModules (mask : Nat) (s : State) : List Nat := (positionsOf mask).filter fun p => p = position s || mapHas s.cascade.modules p

/-- A module is in contact with the Headstock. -/
def inTouch (s : State) (p : Nat) : Bool := p = position s || (mapGet s.cascade.modules p).any ModInfo.inContact

/-- Something sent to another module for work on several, under a forwarding tag of its own. -/
def sendPart (tk : Ticket) (p : Nat) (mk : Nat → List Out) (s : State) : State :=
  let tag := s.queue.nextForward
  (mk tag).foldl (fun s o => emit o s) (s.modQueue fun q => { q with forwards := mapPut q.forwards tag (tk, p), nextForward := tag + 1 })

/-- UPDATE_DISTRIBUTE (R466). -/
def updateDistributeBody (source mask staged : Nat) (tk : Ticket) (s : State) : State :=
  let own := position s
  let has := if source = own then s.update.phase = .staged else bit staged source && inTouch s source
  if !s.cascade.headstock then complete tk 0x0301 [] s
  else if s.update.distribute.isSome then complete tk 0x03C0 [] s
  else if !has then complete tk 0x06C7 [] s
  else
    let l := namedModules mask s
    let gone := l.filter fun p => !inTouch s p
    let ok := l.filter fun p => p = source
    let s := setJob true (some { ticket := tk, mask := l, done := gone ++ ok, ok := ok }) s
    let s := (l.filter fun p => p != source && p != own && inTouch s p).foldl (fun s p =>
      sendPart tk p (fun tag => [Bond.east, .west].map fun b => .message b .bulk "DISTRIBUTE" [(source : Int), (p : Int), (tag : Int)]) s) s
    settleJob true s

/-- UPDATE_DISTRIBUTE (R466). -/
def execUpdateDistribute (d : Desc) (source mask staged : Nat) (s : State) : Host.Outcome State Fault Refusal :=
  .next (onTake d (.updateDistribute source mask staged) (updateDistributeBody source mask staged) s)

/-- A receiver has staged the image of a distribution or refused it: the Headstock is told (R466). -/
def answerDistribution (ok : Bool) (s : State) : State :=
  if s.cascade.headstock then reportJob true (position s) ok s
  else emit (.message (headstockBond s) .control "UPDATE_RESULT" [(position s : Int), flag ok]) s

/-- The header of a distributed image comes: a module STAGED with the same body_hash stays as it is; another one refuses the image, or
receives it (R463, R466). -/
def startInbound (source : Nat) (h : Colilo) (s : State) : State :=
  if s.update.phase = .staged && ((stagedImage s).map Colilo.bodyHash) = some h.bodyHash then answerDistribution true s
  else if !(s.update.phase = .idle || s.update.phase = .staged) then answerDistribution false s
  else
    let c := headerFault h s
    if c != 0 then answerDistribution false (updateRefused c 0 h.version s)
    else
      let n := idleBank s
      let now := s.time.mono
      enterPhase .receiving n h.version
        (setBank n none (s.modUpdate fun u => { u with inbound := some { source := source, head := h, body := [], lastNs := now } }))

/-- More of the body comes. -/
def addInbound (source : Nat) (bytes : List Byte) (s : State) : State :=
  let now := s.time.mono
  s.modUpdate fun u =>
    { u with inbound := u.inbound.map fun x => if x.source = source then { x with body := x.body ++ bytes, lastNs := now } else x }

/-- The body has come whole: it is checked as for the service port (R462, R466). -/
def endInbound (source : Nat) (readsBack : Bool) (s : State) : State :=
  match s.update.inbound with
  | none => s
  | some x =>
    if x.source != source then s
    else
      let n := idleBank s
      if readsBack && bodyMatches x.head x.body then
        let s := setBank n (some ⟨x.head, x.body⟩) (s.modUpdate fun u => { u with inbound := none })
        answerDistribution true (enterPhase .staged n x.head.version s)
      else answerDistribution false (updateRefused 0x06C5 x.body.length x.head.version (dropInbound s))

/-- DISTRIBUTION_RX (R466): a distributed image comes in pieces, the first with its header; it is checked exactly as for the service port;
the last piece comes with whether the flash holds the body as it came. -/
def execDistributionRx (p : ImagePiece) (last : Option Bool) (s : State) : Host.Outcome State Fault Refusal :=
  .next
    (if !serviceUp s then s
     else
       let s := match p.header with
         | some h => startInbound p.source (readColilo h) s
         | none => s
       let s := addInbound p.source p.bytes s
       match last with
       | some readsBack => endInbound p.source readsBack s
       | none => s)

/-! ## Activation (R464, R467, R468) -/

/-- A module takes part in a transaction in PREPARING or COMMITTED (R468). -/
def inTxn (s : State) (p : Nat) : Bool :=
  s.txn.txns.any fun x => (x.2.phase = .preparing || x.2.phase = .committed) && x.2.parts.contains p

/-- The instant lies 1 s to 24 h ahead (R467). -/
def activateTimely (t : Nat) (s : State) : Bool := s.time.wall + second ≤ t && t ≤ s.time.wall + 86400 * second

/-- A module's own part of an activation, for the Headstock: it holds the instant itself, and reports when it has activated. -/
def joinActivation (t : Nat) (tk : Ticket) (s : State) : State :=
  if s.update.phase != .staged then complete tk 0x06C7 [] s
  else setJob false (some { ticket := tk, mask := [position s], done := [], ok := [] }) (schedule t s)

/-- UPDATE_ACTIVATE (R467, R468). -/
def updateActivateBody (mask t staged : Nat) (tk : Ticket) (s : State) : State :=
  if tk.origin.isSome then joinActivation t tk s
  else
    let own := position s
    let l := namedModules mask s
    let ready (p : Nat) : Bool := if p = own then s.update.phase = .staged else bit staged p && inTouch s p
    if !s.cascade.headstock then complete tk 0x0301 [] s
    else if s.update.activate.isSome || !activateTimely t s then complete tk 0x03C0 [] s
    else if !(positionsOf mask).all fun p => l.contains p && ready p then complete tk 0x06C7 [] s
    else if l.any fun p => inTxn s p then complete tk 0x0300 [] s
    else
      let s := setJob false (some { ticket := tk, mask := l, done := [], ok := [] }) s
      let s := if l.contains own then schedule t s else s.modUpdate fun u => { u with activateNs := some t }
      let s := (l.filter fun p => p != own).foldl (fun s p =>
        sendPart tk p (fun tag => [.forward (ringTo s p) p tag (.updateActivate (2 ^ p) t 0)]) s) s
      settleJob false s

/-- UPDATE_ACTIVATE (R467). -/
def execUpdateActivate (d : Desc) (mask t staged : Nat) (s : State) : Host.Outcome State Fault Refusal :=
  .next (onTake d (.updateActivate mask t staged) (updateActivateBody mask t staged) s)

/-- Still 100 ms before the activation instant. -/
def cancelTimely (s : State) : Bool := match s.update.activateNs with
  | some t => s.time.wall + 100000000 ≤ t
  | none => true

/-- UPDATE_CANCEL: SCHEDULED modules return to STAGED, at least 100 ms before T_a (R463, R472). -/
def updateCancelBody (mask : Nat) (tk : Ticket) (s : State) : State :=
  let own := position s
  let l := if tk.origin.isSome then [own] else namedModules mask s
  if !s.cascade.headstock && l.any fun p => p != own then complete tk 0x0301 [] s
  else if l.contains own && s.update.phase != .scheduled then complete tk 0x03C0 [] s
  else if !cancelTimely s then complete tk 0x03C0 [] s
  else
    let s := (l.filter fun p => p != own).foldl (fun s p =>
      sendPart tk p (fun tag => [.forward (ringTo s p) p tag (.updateCancel (2 ^ p))]) s) s
    let s := if l.contains own then unschedule s else s
    complete tk 0 [] (l.foldl (fun s p => reportJob false p false s) s)

/-- UPDATE_CANCEL (R472). -/
def execUpdateCancel (d : Desc) (mask : Nat) (s : State) : Host.Outcome State Fault Refusal :=
  .next (onTake d (.updateCancel mask) (updateCancelBody mask) s)

/-- The instant of a SCHEDULED module has come. -/
def activationDue (s : State) : Bool := s.update.phase = .scheduled && match s.update.activateNs with
  | some t => t ≤ s.time.wall
  | none => false

/-- ACTIVATION_INSTANT (R464): the boot pointer goes to the staged bank, the pair restarts without an event, and the main section is
reset with cause UPDATE. -/
def execActivationInstant (b : BootFacts) (s : State) : Host.Outcome State Fault Refusal :=
  .next
    (if activationDue s && s.module.mode != .off then
       let n := idleBank s
       let s := enterPhase .activating n (bankVersion s n) (s.modUpdate fun u => { u with bootPointer := n, activateNs := none })
       mainReset 4 (some b) (haltPair s)
     else s)

/-- A module reports its activation to whoever waits for it. -/
def reportActivation (ok : Bool) (s : State) : State :=
  match s.update.activate with
  | some j => reportJob false (j.mask.headD 0) ok s
  | none => s

/-- ACTIVATION_SETUP (R463): SETUP reached from the new bank is TRIAL; from the other one IDLE, with UPDATE_FAILED. -/
def execActivationSetup (s : State) : Host.Outcome State Fault Refusal :=
  .next
    (if s.update.phase != .activating || !inService s then s
     else
       let n := s.module.bank
       let v := s.module.fwVersion
       if n = s.update.bootPointer then
         let first := (s.update.hitless.map fun h => h.first && h.step = 1).getD false
         reportActivation true ((if first then hitlessStep 2 else id) (enterPhase .trial n v s))
       else
         let s := enterPhase .idle n v s
         let s := if s.update.hitless.isSome then stopHitless 0 s else updateFailed 0 0 s.update.bootPointer s
         reportActivation false s)

/-! ## Hitless update (R469, R470) -/

/-- One of the pair is ACTIVE, the other STANDBY and caught up. -/
def pairReady (s : State) : Bool := s.cascade.twinUp && match s.cascade.twin with
  | some t =>
    (s.cascade.role = .active && t.role = .standby && t.caughtUp) || (s.cascade.role = .standby && s.cascade.caughtUp && t.role = .active)
  | none => false

/-- UPDATE_HITLESS (R469): both modules enter SCHEDULED, and the STANDBY module activates at once. -/
def updateHitlessBody (twinHash : Option Nat) (join : Bool) (tk : Ticket) (s : State) : State :=
  let own := if s.update.phase = .staged then (stagedImage s).map Colilo.bodyHash else none
  if own.isNone || own != twinHash then complete tk 0x06C7 [] s
  else if !pairReady s then complete tk 0x03D0 [] s
  else
    let first := s.cascade.role = .standby
    let h : Hitless := { ticket := if join then none else some tk, step := 1, first := first, caughtUpNs := none, equalSinceNs := none }
    let now := s.time.wall
    let s := schedule now s
    let s := s.modUpdate fun u => { u with hitless := some h, activateNs := if first then some now else none }
    if join then leaveFlight tk s else emit (.message .twin .control "HITLESS" []) s

/-- UPDATE_HITLESS (R469). -/
def execUpdateHitless (d : Desc) (twinHash : Option Nat) (s : State) : Host.Outcome State Fault Refusal :=
  .next (onTake d (.updateHitless twinHash false) (updateHitlessBody twinHash false) s)

/-- HITLESS_SWAP_DECISION (R469, step 4): the twin's bitmap has equalled this module's for 1 s. -/
def execHitlessSwapDecision (twinBitmap : Bitmap) (s : State) : Host.Outcome State Fault Refusal :=
  .next
    (match s.update.hitless with
     | none => s
     | some h =>
       if h.first || h.step != 4 || s.cascade.role != .active || s.cascade.swap.isSome then s
       else
         let equal := twinBitmap = BitVec.ofNat 8192 (wholeBitmap s)
         let since_ := if equal then some (h.equalSinceNs.getD s.time.mono) else none
         let s := s.modUpdate fun u => { u with hitless := some { h with equalSinceNs := since_ } }
         if heldFor s since_ second then decideSwap false true none s else s)

/-- HITLESS_TIMEOUT (R470): 30 s after the catch-up without a swap. -/
def execHitlessTimeout (s : State) : Host.Outcome State Fault Refusal :=
  .next
    (match s.update.hitless with
     | none => s
     | some h => if h.step = 4 && s.cascade.swap.isNone && heldFor s h.caughtUpNs (30 * second) then stopHitless 1 s else s)

/-- TWIN_LINK_LOSS (R354, R361, R470): no lane of the twin bond UP for 10 ms. -/
def execTwinLinkLoss (s : State) : Host.Outcome State Fault Refusal :=
  .next
    (if twinBondLost s then
       let waits := (s.update.hitless.map fun h => h.step < 5 || s.update.phase = .scheduled).getD false
       let s := twinDown s
       if waits then stopHitless 2 s else s
     else s)

/-- SWAP_INSTANT (R359, R469): the roles change places; in a hitless update the former ACTIVE module then activates. -/
def execSwapInstant (s : State) : Host.Outcome State Fault Refusal :=
  .next
    (if swapDue s then
       let s := swapRoles s
       match s.update.hitless with
       | some h =>
         if h.step = 4 then
           let now := s.time.wall
           let s := hitlessStep 5 s
           if h.first then s else s.modUpdate fun u => { u with activateNs := some now }
         else s
       | none => s
     else s)

/-! ## Engine-by-engine replacement (R471) -/

/-- The section of a kind in an image. -/
def sectionOf (kind : Nat) (h : Colilo) : Option ColiloSection := h.sections.find? fun x => x.kind = kind

/-- The version of the section that an engine runs: that of its image, since a section entry carries none. -/
def engineRuns (s : State) (e : Nat) : Nat :=
  match mapGet s.update.engineVersion e with
  | some v => v
  | none => s.module.fwVersion

/-- The version that the staged image has for its engines. -/
def engineNew (s : State) : Nat := ((stagedImage s).map Colilo.version).getD 0

/-- An engine loads its section, with ENGINE_REPLACED. -/
def loadEngine (e : Nat) (s : State) : State :=
  let old := engineRuns s e
  let new := engineNew s
  raiseMod 0x0C83 [it 1 e, it 4 old, it 4 new] (s.modUpdate fun u => { u with engineVersion := mapPut u.engineVersion e new })

/-- A section of a kind may be loaded engine by engine. -/
def replaceable (s : State) (kind : Nat) : Bool := ((stagedImage s).bind (sectionOf kind)).any ColiloSection.engineReplaceable

/-- UPDATE_ENGINE (R471): SE31 loads the new section first, to carry the streams of the engine under way. -/
def updateEngineBody (streamMask overlayMask : Nat) (tk : Ticket) (s : State) : State :=
  let se := (List.range 32).filter fun i => bit streamMask i
  let oe := ((List.range 8).filter fun i => bit overlayMask i).map fun i => 32 + i
  if s.update.engine.isSome then complete tk 0x03C0 [] s
  else if s.update.phase != .staged || (!se.isEmpty && !replaceable s 3) || (!oe.isEmpty && !replaceable s 4) then complete tk 0x06C7 [] s
  else if (se ++ oe).isEmpty then complete tk 0 [] s
  else
    let now := s.time.mono
    let v := engineNew s
    let job : EngineJob := { ticket := tk, todo := se ++ oe, loaded := false, moved := [], sinceNs := now }
    s.modUpdate fun u =>
      { u with
        engine := some job,
        engineVersion := if se.any fun e => e < 31 then mapPut u.engineVersion 31 v else u.engineVersion }

/-- UPDATE_ENGINE (R471). -/
def execUpdateEngine (d : Desc) (streamMask overlayMask : Nat) (s : State) : Host.Outcome State Fault Refusal :=
  .next (onTake d (.updateEngine streamMask overlayMask) (updateEngineBody streamMask overlayMask) s)

/-- A stream moves to an engine at its frame boundary; after 2 s the open frame is discarded. -/
def moveStream (k to_ : Nat) (late : Bool) (s : State) : Bool × State :=
  match mapGet s.ingest.streams k with
  | none => (true, s)
  | some x =>
    if !x.open_.isEmpty && !late then (false, s)
    else
      let s := x.open_.foldl (fun s f => closeFrame k f false s) s
      (true, moveCtx (.ingest k x.regionBase) ⟨2, to_⟩ (modStream k (fun x => { x with engine := to_, open_ := [] }) s))

/-- The streams of a list moved as far as they can: those that have moved, and the state. -/
def moveStreams (to_ : Nat) (late : Bool) : List Nat → State → List Nat × State
  | [], s => ([], s)
  | k :: t, s =>
    let r := moveStream k to_ late s
    let rest := moveStreams to_ late t r.2
    (if r.1 then k :: rest.1 else rest.1, rest.2)

/-- The sources whose streams an engine carries. -/
def carried (s : State) (e : Nat) : List Nat := (s.ingest.streams.filter fun p => p.2.engine = e).map Prod.fst

/-- The first engine of the work is done: the next one, or the command completes. -/
def nextEngine (j : EngineJob) (s : State) : State :=
  let now := s.time.mono
  match j.todo with
  | _ :: e :: t => s.modUpdate fun u => { u with engine := some { j with todo := e :: t, loaded := false, moved := [], sinceNs := now } }
  | _ => complete j.ticket 0 [] (s.modUpdate fun u => { u with engine := none })

/-- The work on its first engine as far as it goes: its streams away, its section loaded, its streams back. -/
def workEngine (e : Nat) (j : EngineJob) (s : State) : State :=
  let now := s.time.mono
  let late := j.sinceNs + 2 * second ≤ now
  if 32 ≤ e then
    if (mapGetD s.overlay.engines (e - 32) default).run.isSome then s else nextEngine j (loadEngine e s)
  else if e = 31 then
    if (carried s 31).isEmpty then nextEngine j (loadEngine 31 s) else s
  else if j.loaded then
    let r := moveStreams e late j.moved s
    let left := j.moved.filter fun k => !r.1.contains k
    if left.isEmpty then nextEngine j r.2 else r.2.modUpdate fun u => { u with engine := some { j with moved := left } }
  else
    let r := moveStreams 31 late (carried s e) s
    let j := { j with moved := j.moved ++ r.1 }
    if (carried r.2 e).isEmpty then
      let s := loadEngine e r.2
      s.modUpdate fun u => { u with engine := some { j with loaded := true, sinceNs := now } }
    else r.2.modUpdate fun u => { u with engine := some j }

/-- ENGINE_STREAM_MOVE (R471). -/
def execEngineStreamMove (engine : Nat) (s : State) : Host.Outcome State Fault Refusal :=
  .next
    (match s.update.engine with
     | none => s
     | some j => if j.todo.head? = some engine && mainUp s then workEngine engine j s else s)

end Sys2Proof.Machine
end

