-- ==== Sys2Proof/Machine/Registers.lean ====
section
/-! DEFINITION. BAR0 (R6 to R9, R271 to R276, R384, R415, R448): what a read of each register returns, what a write of each sets,
the run lock, the register gates; and the access that arrives at a gate (R383 to R390). -/

namespace Sys2Proof.Machine

open Sys2Proof

/-! ## Reads -/

/-- Bits of a word: `n` bits from bit `i` up. -/
def fieldOf (v : Word32) (i n : Nat) : Nat := v.toNat / 2 ^ i % 2 ^ n

/-- Low and high words of a quantity wider than 32 bits (R6). -/
def lowWord (n : Nat) : Nat := n % 4294967296
/-- The word above the low one (R6). -/
def highWord (n : Nat) : Nat := n / 4294967296 % 4294967296

/-- IDENT registers, by offset (R275). -/
def identReg (o : Nat) (s : State) : Nat :=
  match o with
  | 0x0000 => 0x4D583264
  | 0x0004 => Config.steppingSilicon % 256 + Config.steppingBoard % 256 * 256
  | 0x0008 => lowWord Config.serial
  | 0x000C => highWord Config.serial
  | 0x0010 => lowWord s.module.fwVersion
  | 0x0014 => s.module.bank + flag s.module.fallback * 2
  | 0x0018 => flag s.module.masterSel + flag s.module.sideB * 2
  | 0x001C => identState s
  | 0x0020 => lowWord Config.macBase
  | 0x0024 => Config.macBase / 4294967296 % 65536
  | _ => 0

/-- HOSTIF registers, by offset; ATTACH reads 0 (R8, R276). -/
def hostifReg (o : Nat) (s : State) : Nat :=
  match o with
  | 0x1000 => flag s.host.run
  | 0x1004 => s.host.pollNs
  | 0x1008 => flag s.host.attnEnable + s.host.attnHoldoffUs * 256
  | 0x100C => s.host.tableLo
  | 0x1010 => s.host.tableHi
  | 0x1018 => hostStatus s
  | 0x101C => hostErr s
  | 0x1020 => s.host.lockViolations
  | 0x1024 => s.host.badAccess
  | 0x1028 => s.host.lastViolation
  | _ => 0

/-- MGMT registers, by offset (chapter "Management, sensors and the pace governor"). -/
def mgmtReg (o : Nat) (s : State) : Nat :=
  match o with
  | 0x2000 => s.mgmt.wdtMs
  | 0x2004 => s.mgmt.restoreS
  | 0x2008 => mgmtStatusWord s
  | 0x200C => mgmtTemp s
  | 0x2010 => s.mgmt.bootCount % 4294967296
  | 0x2014 => s.mgmt.resetCause
  | 0x2018 => s.mgmt.logSeq % 4294967296
  | _ => 0

/-- GATE registers, by offset (chapter "Gates, mailboxes and locks"). -/
def gateReg (o : Nat) (s : State) : Nat :=
  match o with
  | 0x3000 => flag s.gates.debugEn
  | 0x3004 =>
    sumN ((List.range 9).map fun g => if s.gates.draining.contains g then 2 ^ g else 0)
      + sumN ((List.range 16).map fun n => if mapHas s.gates.rules n then 2 ^ (16 + n) else 0)
  | 0x3008 => s.gates.faultCount
  | 0x300C => s.gates.lastFaultSeq
  | 0x3010 => s.gates.ruleGen % 4294967296
  | _ => 0

/-- TIME.OFFSET_NS: signed, saturating at ±(2³¹ − 1). -/
def offsetWord (o : Int) : Nat :=
  if o < -2147483647 then 0x80000001 else if 2147483647 < o then 0x7FFFFFFF else (o % 4294967296).toNat

/-- TIME.HOLDOVER_MS. -/
def holdoverMs (s : State) : Nat :=
  match s.time.tRef with
  | none => 0xFFFFFFFF
  | some r => if s.time.servo = .locked then 0 else if 0xFFFFFFFF < (s.time.mono - r) / 1000000 then 0xFFFFFFFF else (s.time.mono - r) / 1000000

/-- Identity of the selected grandmaster; 0 when none. -/
def gmId (s : State) : Nat :=
  match s.time.gm with
  | some a => a.gmId
  | none => 0

/-- TIME registers, by offset (chapter "Network ingest and time"). -/
def timeReg (o : Nat) (s : State) : Nat :=
  match o with
  | 0x4000 => flag s.time.ptpEnable + s.time.ptpDomain * 256 + s.time.ptpPorts * 65536
  | 0x4004 => s.time.announceTimeout + s.time.lockCount * 256
  | 0x4008 => s.time.lockThresh
  | 0x400C => timeStatus s
  | 0x4010 => lowWord s.time.wall
  | 0x4014 => s.time.nowHi
  | 0x4018 =>
    match uE6 s with
    | some u => ceilDiv u 1000000000
    | none => 0xFFFFFFFF
  | 0x401C => offsetWord s.time.offset
  | 0x4020 => lowWord (gmId s)
  | 0x4024 => highWord (gmId s)
  | 0x4028 => s.time.steps % 4294967296
  | 0x402C => holdoverMs s
  | _ => 0

/-- A register of lane states: `n` lanes from lane `k` up, 4 bits each (R332). -/
def laneWord (k n : Nat) (s : State) : Nat := sumN ((List.range n).map fun j => (laneRt s (k + j)).state % 16 * 16 ^ j)

/-- A counter of the lane that CNT_SEL names; 0 above lane 19. -/
def laneCount (f : LaneRt → Nat) (s : State) : Nat := if 19 < s.link.cntSel then 0 else f (laneRt s s.link.cntSel) % 4294967296

/-- LINK registers, by offset (chapter "Luasin serial lanes"). -/
def linkReg (o : Nat) (s : State) : Nat :=
  match o with
  | 0x8000 => s.link.laneEn
  | 0x8004 => s.link.rxInvert
  | 0x8008 => s.link.retxUs + s.link.ackUs * 256 + s.link.downCrc * 65536
  | 0x800C => laneWord 0 8 s
  | 0x8010 => laneWord 8 8 s
  | 0x8014 => laneWord 16 4 s
  | 0x8018 => s.link.cntSel
  | 0x801C => laneCount LaneRt.crc s
  | 0x8020 => laneCount LaneRt.marker s
  | 0x8024 => laneCount (fun l => l.run + l.stuffing) s
  | 0x8028 => laneCount LaneRt.retx s
  | _ => 0

/-- DRAMC registers, by offset (chapter "Module memory"). -/
def dramcReg (o : Nat) (s : State) : Nat :=
  match o with
  | 0x10000 => flag s.mem.mapFixed + flag s.mem.hashEn * 2 + s.mem.grainLog2 * 256
  | 0x10004 => s.mem.thresh + s.mem.missProbLog2 * 65536
  | 0x10008 => s.mem.scrubH
  | 0x1000C => s.mem.devFailThresh + flag s.mem.erasureEn * 256
  | 0x10010 => dramStatus s
  | 0x10014 => s.mem.ceTotal % 4294967296
  | 0x10018 => s.mem.ueTotal % 4294967296
  | 0x1001C => lowWord s.mem.lastUe
  | 0x10020 => s.mem.lastUe / 4294967296 % 32
  | 0x10024 => s.mem.mitigations % 4294967296
  | 0x10028 => s.mem.scrubPasses % 4294967296
  | _ => 0

/-- A mask with a bit for each host slot of which `p` holds. -/
def slotMask (p : Slot → Bool) (s : State) : Nat :=
  sumN ((List.range 32).map fun n => if p (mapGetD s.mbx.slots (slotKey 33 n) emptySlot) then 2 ^ n else 0)

/-- Word `k` of the message in a host slot. -/
def slotWord (n k : Nat) (s : State) : Nat :=
  let m := (mapGetD s.mbx.slots (slotKey 33 n) emptySlot).msg
  sumN ((List.range 4).map fun i => ((m[4 * k + i]?).getD 0).toNat * 256 ^ i)

/-- MBX registers, by offset (chapter "Gates, mailboxes and locks"); the locks answer by R398. -/
def mbxReg (o : Nat) (s : State) : Nat :=
  if 0x20000 ≤ o && o < 0x20800 then slotWord ((o - 0x20000) / 64) ((o - 0x20000) / 4 % 16) s
  else
    match o with
    | 0x20800 => slotMask Slot.full s
    | 0x20804 => s.mbx.hostMask
    | 0x20808 => slotMask Slot.collision s
    | 0x2080C => slotMask Slot.senderReset s
    | _ => 0

/-- What a read of the register at an offset returns; a reserved offset reads 0 (R7, R271). -/
def regValue (o : Nat) (s : State) : Nat :=
  if o < 0x1000 then identReg o s
  else if o < 0x2000 then hostifReg o s
  else if o < 0x3000 then mgmtReg o s
  else if o < 0x4000 then gateReg o s
  else if o < 0x5000 then timeReg o s
  else if o < 0x8000 then 0
  else if o < 0x9000 then linkReg o s
  else if o < 0x10000 then 0
  else if o < 0x20000 then dramcReg o s
  else mbxReg o s

/-- What a read returns during STARTING (R448): the reset value of every register but those of IDENT. A register whose reset
value is an input or runs on over the reset is read as it is. -/
def startingValue (o : Nat) (s : State) : Nat :=
  match o with
  | 0x2008 => 0x03200000
  | 0x3004 => 0
  | 0x800C => 0x11111111
  | 0x8010 => 0x11111111
  | 0x8014 => 0x00001111
  | 0x10010 => 0
  | _ => regValue o s

/-! ## Gates in front of the registers (R384) -/

/-- The gate in front of an offset. -/
def gateOf (o : Nat) : Nat :=
  if o < 0x1000 then 1 else if o < 0x2000 then 2 else if o < 0x3000 then 3 else if o < 0x4000 then 4 else if o < 0x8000 then 5
  else if o < 0x10000 then 6 else if o < 0x20000 then 7 else 8

/-- Host BAR0 accesses and host lock acquisitions (R382). -/
def hostBar : Initiator := { cls := 1, index := 1 }

/-- The access of one register by an initiator. -/
def regAccess (who : Initiator) (o : Nat) (write : Bool) : Access :=
  { initiator := who, ctx := .none, cmdTag := none, addr := o, len := 4, write := write, data := [] }

/-- The block answers reads with 0 and counts writes: every block but IDENT, HOSTIF and MGMT with V_CORE removed (R415). -/
def blockDead (o : Nat) (s : State) : Bool := s.module.mode = .fault && s.mgmt.vcoreRemoved && 0x3000 ≤ o

/-- BAR0 answers at all: in OFF and IDLE_LINK it does not. -/
def bar0Reads (s : State) : Bool := !(s.module.mode = .off || s.module.mode = .idleLink)

/-- A register read by an initiator (R6 to R8, R384, R390, R415, R448): `act` is the read with its side effect, where the register
has one. -/
def barRead (who : Initiator) (o : Nat) (act : State → Word32 × State) (s : State) : State :=
  if !bar0Reads s then s
  else if s.module.mode = .starting then emit (.readData (BitVec.ofNat 32 (startingValue o s))) s
  else if blockDead o s then emit (.readData 0) s
  else
    let g := gateDo (gateOf o) (regAccess who o false) s
    if g.2.1 then emit (.accessData [0, 0, 0, 0] true) g.2.2
    else
      let r := act g.2.2
      emit (.readData r.1) r.2

/-- A register written by an initiator: ignored while STARTING, counted with V_CORE removed, ignored and counted under the run
lock, dropped where the gate refuses it, else `act` (R8, R273, R384, R390, R415, R448). -/
def barWrite (who : Initiator) (o : Nat) (locked : Bool) (act : State → State) (s : State) : State :=
  if !bar0Up s then s
  else if blockDead o s then badAccess s
  else if locked && s.host.run then lockViolation o s
  else
    let g := gateDo (gateOf o) (regAccess who o true) s
    if g.2.1 then g.2.2 else act g.2.2

/-! ## What writes set -/

/-- HOSTIF.RUN written (R273): 1 in SETUP sets the run lock and the module enters RUN, then LEAN with a step in force (R23). -/
def setRun (v : Word32) (s : State) : State :=
  if v.getLsbD 0 && s.module.mode = .setup && !s.host.run then
    let s := setMode .run (s.modHost fun h => { h with run := true })
    if s.mgmt.step != 0 then setMode .lean s else s
  else s

/-- No object lives in module DRAM: ingest region, decode buffer set, surface, recording work region (R371). -/
def noRegion (s : State) : Bool :=
  s.ingest.streams.isEmpty && s.ingest.guards.isEmpty && s.decode.attached.isEmpty && s.decode.guards.isEmpty
    && s.compose.surfaces.isEmpty && s.record.sessions.isEmpty && s.record.guards.isEmpty

/-- DRAMC.MAP written (R371). -/
def setMap (v : Word32) (s : State) : State :=
  if s.module.mode = .setup && noRegion s then
    let old := dramcReg 0x10000 s
    let s := s.modMem fun m =>
      { m with mapFixed := v.getLsbD 0, hashEn := v.getLsbD 1, grainLog2 := fieldOf v 8 4, mapRefused := false }
    if dramcReg 0x10000 s = old then s else (memUndefine s).modMem fun m => { m with scrubPos := 0 }
  else s.modMem fun m => { m with mapRefused := true }

/-- LINK.LANE_EN written (R332). -/
def setLanes (v : Word32) (s : State) : State :=
  laneEnable (fieldOf v 0 20) (s.modLink fun l => { l with laneEn := fieldOf v 0 20 })

/-- Run-locked registers (R8, R273). -/
def runLocked (o : Nat) : Bool :=
  [0x1000, 0x1004, 0x1008, 0x2000, 0x2004, 0x3000, 0x4000, 0x4004, 0x4008, 0x8000, 0x8004, 0x8008, 0x10000, 0x10004, 0x10008,
    0x1000C].contains o

/-- HOSTIF.ERR written: a 1 clears its bit (R8, R276). -/
def clearErr (v : Word32) (s : State) : State :=
  s.modHost fun h =>
    { h with
      errTable := h.errTable && !v.getLsbD 0, errMismatch := h.errMismatch && !v.getLsbD 1, errDma := h.errDma && !v.getLsbD 2,
      errRing := h.errRing && !v.getLsbD 3 }

/-- MBX.HOST_DOORBELL written (R395): each 1 empties its slot. -/
def clearDoorbells (v : Word32) (s : State) : State :=
  (List.range 32).foldl (fun s i => if v.getLsbD i then mbxClear 33 i s else s) s

/-- HOSTIF.ATTACH written with RESUME or DETACH; FRESH is a command of its own, since it reads the ring table (R276, R295). -/
def setAttach (v : Word32) (s : State) : State :=
  if fieldOf v 0 2 = 2 then (if s.host.attached then s else attachResumeDo s)
  else if fieldOf v 0 2 = 3 then detachHost 6 s
  else s

/-- A register written: its fields set, or its action done; a read-only or reserved one ignores it (R7, R8). -/
def setReg (who : Initiator) (o : Nat) (v : Word32) (s : State) : State :=
  if 0x28000 ≤ o && o < 0x28100 then (lockPut ((o - 0x28000) / 4) (initiatorId who) v.toNat s).2
  else
    match o with
    | 0x1000 => setRun v s
    | 0x1004 => s.modHost fun h => { h with pollNs := v.toNat }
    | 0x1008 => s.modHost fun h => { h with attnEnable := v.getLsbD 0, attnHoldoffUs := fieldOf v 8 8 }
    | 0x100C => s.modHost fun h => { h with tableLo := v.toNat }
    | 0x1010 => s.modHost fun h => { h with tableHi := v.toNat }
    | 0x1014 => setAttach v s
    | 0x101C => clearErr v s
    | 0x2000 => s.modMgmt fun m => { m with wdtMs := fieldOf v 0 16 }
    | 0x2004 => s.modMgmt fun m => { m with restoreS := fieldOf v 0 8 }
    | 0x3000 => s.modGates fun g => { g with debugEn := v.getLsbD 0 }
    | 0x4000 => s.modTime fun t => { t with ptpEnable := v.getLsbD 0, ptpDomain := fieldOf v 8 8, ptpPorts := fieldOf v 16 6 }
    | 0x4004 => s.modTime fun t => { t with announceTimeout := fieldOf v 0 8, lockCount := fieldOf v 8 8 }
    | 0x4008 => s.modTime fun t => { t with lockThresh := fieldOf v 0 16 }
    | 0x8000 => setLanes v s
    | 0x8004 => s.modLink fun l => { l with rxInvert := fieldOf v 0 20 }
    | 0x8008 => s.modLink fun l => { l with retxUs := fieldOf v 0 8, ackUs := fieldOf v 8 8, downCrc := fieldOf v 16 8 }
    | 0x8018 => s.modLink fun l => { l with cntSel := fieldOf v 0 5 }
    | 0x10000 => setMap v s
    | 0x10004 => s.modMem fun m => { m with thresh := fieldOf v 0 16, missProbLog2 := fieldOf v 16 4 }
    | 0x10008 => s.modMem fun m => { m with scrubH := fieldOf v 0 8 }
    | 0x1000C => s.modMem fun m => { m with devFailThresh := fieldOf v 0 8, erasureEn := v.getLsbD 8 }
    | 0x20800 => clearDoorbells v s
    | 0x20804 => s.modMbx fun m => { m with hostMask := v.toNat }
    | _ => s

/-- A register read, with the side effect of those that have one: TIME.NOW_LO and the locks (R272). -/
def getReg (who : Initiator) (o : Nat) (s : State) : Word32 × State :=
  if 0x28000 ≤ o && o < 0x28100 then
    let r := lockTake ((o - 0x28000) / 4) (initiatorId who) s
    (BitVec.ofNat 32 r.1, r.2)
  else if o = 0x4010 then
    (BitVec.ofNat 32 s.time.wall, s.modTime fun t => { t with nowHi := highWord t.wall })
  else (BitVec.ofNat 32 (regValue o s), s)

/-! ## Commands -/

/-- HOSTIF.RUN written by the host (R273). -/
def execHostRun (v : Word32) (s : State) : Host.Outcome State Fault Refusal := .next (barWrite hostBar 0x1000 true (setRun v) s)

/-- HOSTIF.ATTACH written with FRESH (R295): ignored while attached. -/
def execAttachFresh (table : Option RingTable) (s : State) : Host.Outcome State Fault Refusal :=
  .next (barWrite hostBar 0x1014 false (fun s => if s.host.attached then s else attachFreshDo table s) s)

/-- HOSTIF.ATTACH written with RESUME (R295): ignored while attached. -/
def execAttachResume (s : State) : Host.Outcome State Fault Refusal := .next (barWrite hostBar 0x1014 false (setAttach 2) s)

/-- HOSTIF.ATTACH written with DETACH (R276, R294): ignored while detached. -/
def execAttachDetach (s : State) : Host.Outcome State Fault Refusal := .next (barWrite hostBar 0x1014 false (setAttach 3) s)

/-- TIME.NOW_LO read: wall time [31:0], and NOW_HI latched (TIME register map). -/
def execTimeNowRead (s : State) : Host.Outcome State Fault Refusal := .next (barRead hostBar 0x4010 (getReg hostBar 0x4010) s)

/-- LOCK.Ln read (R398). -/
def execLockRead (lock : Nat) (who : Initiator) (s : State) : Host.Outcome State Fault Refusal :=
  .next (if lock < 64 then barRead who (0x28000 + 4 * lock) (getReg who (0x28000 + 4 * lock)) s else s)

/-- LOCK.Ln written (R399). -/
def execLockWrite (lock : Nat) (who : Initiator) (value : Word32) (s : State) : Host.Outcome State Fault Refusal :=
  .next (if lock < 64 then barWrite who (0x28000 + 4 * lock) false (setReg who (0x28000 + 4 * lock) value) s else s)

/-- MBX.HOST_DOORBELL written (R395). -/
def execMbxDoorbellClear (value : Word32) (s : State) : Host.Outcome State Fault Refusal :=
  .next (barWrite hostBar 0x20800 false (clearDoorbells value) s)

/-- DRAMC.MAP written (R371). -/
def execDramcMapWrite (v : Word32) (s : State) : Host.Outcome State Fault Refusal := .next (barWrite hostBar 0x10000 true (setMap v) s)

/-- An access that is not an aligned 32-bit one: a read answers zero, a write does nothing, and it is counted (R6); in
STARTING it is not counted. -/
def misAccess (write : Bool) (s : State) : State :=
  if !bar0Reads s then s
  else
    let s := if s.module.mode = .starting then s else badAccess s
    if write then s else emit (.readData 0) s

/-- An access beyond the blocks of BAR0: every offset there is reserved, so an aligned read answers zero, as BAR0 answers, and an aligned write
does nothing (R6, R7, R271). -/
def reservedAccess (write aligned : Bool) (s : State) : State :=
  if !aligned then misAccess write s else if write || !bar0Reads s then s else emit (.readData 0) s

/-- REGISTER_WRITE (R8): an aligned write of any other register; one at an offset that is not aligned is refused (R6). -/
def execRegisterWrite (o : Nat) (v : Word32) (s : State) : Host.Outcome State Fault Refusal :=
  .next
    (if o % 4 != 0 then misAccess true s
     else if 0x30000 ≤ o then reservedAccess true true s
     else barWrite hostBar o (runLocked o) (setReg hostBar o v) s)

/-- BAD_ACCESS (R6). -/
def execBadAccess (write : Bool) (s : State) : Host.Outcome State Fault Refusal := .next (misAccess write s)

/-- A read at the memory gate: each part's bytes, zero with the poison flag where refused or poisoned (R365, R390). -/
def gateMemRead (a : Access) (s : State) : State :=
  let b := servedRead a s
  let x := gateDo 0 a b.2.2
  emit (.accessData b.1 (x.2.1 || b.2.1)) x.2.2

/-- GATE_ACCESS (R383 to R390): at gate 0 an access to module DRAM; at gates 1 to 8 a 32-bit access to a register, by the management
pair, the host or the debug access. -/
def execGateAccess (gate : Nat) (a : Access) (s : State) : Host.Outcome State Fault Refusal :=
  .next
    (if gate = 0 then
      if dramOn s && inDram a.addr a.len && a.len ≤ 512 then
        let refused := (gateDo 0 a s).2.1
        let s := if a.write then (gateDo 0 a s).2.2 else gateMemRead a s
        if refused && (a.initiator.cls = 2 || a.initiator.cls = 5) then logInternal (initiatorId a.initiator) 0 s else s
      else s
    else if gateOf a.addr = gate && 0x30000 ≤ a.addr && a.addr < 0x100000 then reservedAccess a.write (a.len = 4 && a.addr % 4 = 0) s
    else if gateOf a.addr = gate && a.addr < 0x30000 then
      if a.len != 4 || a.addr % 4 != 0 then misAccess a.write s
      else if a.write then
        let v := BitVec.ofNat 32 (sumN ((List.range 4).map fun i => ((a.data[i]?).getD 0).toNat * 256 ^ i))
        barWrite a.initiator a.addr (runLocked a.addr) (setReg a.initiator a.addr v) s
      else barRead a.initiator a.addr (getReg a.initiator a.addr) s
    else s)

end Sys2Proof.Machine
end

