-- ==== Sys2Proof/Machine/Forward.lean ====
section
/-! DEFINITION. Commands that reach the module otherwise than from its own rings: forwarded by the Headstock (R343, R344), kept
while the management pair restarted (R403), or recreated from the twin (R357, R469); and the block's own time. -/

namespace Sys2Proof.Machine

open Sys2Proof

/-- What a command does when it executes on this module, by its own rule. A staging arrives here only from the Headstock. -/
def runCmd : HostCmd → Ticket → State → State
  | .portConfigure b => portConfigureBody b
  | .ingestOpen b => ingestOpenBody b
  | .ingestClose k a => ingestCloseBody k a
  | .ingestCounters k => ingestCountersBody k
  | .proxyOpen b => proxyOpenBody b
  | .proxyClose k => proxyCloseBody k
  | .decodeAttach b => decodeAttachBody b
  | .decodeDetach k a => decodeDetachBody k a
  | .decodePolicy k p c => decodePolicyBody k p c
  | .decodeStatus k => decodeStatusBody k
  | .decodeSelftest p => decodeSelftestBody p
  | .ledgerDefine b => ledgerDefineBody b
  | .ledgerSet b => ledgerSetBody b
  | .ledgerDelete k => ledgerDeleteBody k
  | .ledgerWithdraw k w => ledgerWithdrawBody k w
  | .ledgerVouch b => ledgerVouchBody b
  | .ledgerVouchBatch n l => ledgerVouchBatchBody n l
  | .ledgerTest k t => ledgerTestBody k t
  | .ledgerProbe k e f g => ledgerProbeBody k e f g
  | .ledgerRead f n => ledgerReadBody f n
  | .surfaceRegister b => surfaceRegisterBody b
  | .surfaceUpload b => surfaceUploadBody b
  | .surfaceRetire k => surfaceRetireBody k
  | .surfaceRead b => surfaceReadBody b
  | .scalerLoad n l => scalerLoadBody n l
  | .scalerRead n => scalerReadBody n
  | .writeback b => writebackBody b
  | .composeSelftest p => composeSelftestBody p
  | .composeStatus h => composeStatusBody h
  | .headStatus h => headStatusBody h
  | .headSinkRead h => headSinkReadBody h
  | .headSinkPower h p => headSinkPowerBody h p
  | .headAux b => headAuxBody b
  | .egressPortConfigure b => egressPortConfigureBody b
  | .tailstockGlyphLoad f n g => tailstockGlyphLoadBody f n g
  | .calipersRead h => calipersReadBody h
  | .tailstockStatus h => tailstockStatusBody h
  | .verdictRead n => verdictReadBody n
  | .holdRead h r => holdReadBody h r
  | .tailstockFontRead => tailstockFontReadBody
  | .recordStart b => recordStartBody b
  | .recordStop h a => recordStopBody h a
  | .recordStats h => recordStatsBody h
  | .recordForceIdr h => recordForceIdrBody h
  | .encodeSelftest p => encodeSelftestBody p
  | .overlayListLoad n l b => overlayListLoadBody n l b
  | .overlayListFree n => overlayListFreeBody n
  | .overlayFontLoad b => overlayFontLoadBody b
  | .overlayBind b => overlayBindBody b
  | .overlayUnbind k => overlayUnbindBody k
  | .overlayRun b => overlayRunBody b
  | .overlayStatus e => overlayStatusBody e
  | .nop => nopBody false
  | .eventRoute r a b => eventRouteBody r a b
  | .hostDetach => hostDetachBody
  | .txnBegin l m => txnBeginBody l m
  | .txnStage t p c n l => txnStageForwarded t p c n l
  | .txnValidate t n => txnValidateBody t n
  | .txnCommit t a n => txnCommitBody t a n
  | .txnAbort t => txnAbortBody t
  | .txnStatus t n => txnStatusBody t n
  | .laneCounters l => laneCountersBody l
  | .laneTest l d f p => laneTestBody l d f p
  | .cascadeStatus => cascadeStatusBody
  | .cascadeRenumber i => cascadeRenumberBody i
  | .twinRole o => twinRoleBody o
  | .cascadeSleep => cascadeSleepBody
  | .cascadeWake => cascadeWakeBody
  | .memStatus => memStatusBody
  | .memRetrain c => memRetrainBody c
  | .memInject a n f => memInjectBody a n f
  | .gateFence m p => gateFenceBody m p
  | .gateFaultRead q => gateFaultReadBody q
  | .mbxPost r n m => mbxPostBody r n m
  | .mbxRead m => mbxReadBody m
  | .lockAcquire l => lockAcquireBody l
  | .lockRelease l => lockReleaseBody l
  | .mgmtStatus => mgmtStatusBody
  | .mgmtMaintenance e => mgmtMaintenanceBody e
  | .mgmtLogRead f n p => mgmtLogReadBody f n p
  | .mgmtReset => mgmtResetBody
  | .mgmtLadderTest n => mgmtLadderTestBody n
  | .updateStatus => updateStatusBody
  | .updateDistribute a m g => updateDistributeBody a m g
  | .updateActivate m t g => updateActivateBody m t g
  | .updateHitless h j => updateHitlessBody h j
  | .updateEngine a b => updateEngineBody a b
  | .updateConfirm => updateConfirmBody
  | .updateRevert b => updateRevertBody b
  | .updateCancel m => updateCancelBody m

/-! ## Forwarding (R343, R344) -/

/-- The ticket of a command that the Headstock at `origin` forwarded under a tag. -/
def forwardTicket (origin tag : Nat) (dmaOk : Bool) (c : HostCmd) : Ticket :=
  { kind := cmdKind c, ring := 0, index := 0, attn := false, attnErr := false, quiet := false, tag := tag, buf := 1, dmaOk := dmaOk,
    origin := some (origin, tag) }

/-- FORWARDED_COMMAND_RX (R343): the command counts among those in flight here, and beyond 256 completes with MODULE_QUEUE_FULL; else
it executes under this module's state. -/
def execForwardedCommandRx (origin tag : Nat) (dmaOk : Bool) (c : HostCmd) (s : State) : Host.Outcome State Fault Refusal :=
  .next
    (if s.module.mode = .off then s
     else
       let tk := forwardTicket origin tag dmaOk c
       if Config.maxInFlight ≤ s.queue.inFlight.length then complete tk 0x0200 [] s
       else runHere tk c (runCmd c) (s.modQueue fun q => { q with inFlight := q.inFlight ++ [tk] }))

/-- The answer of a module to its part of a distribution, an activation or a cancellation (R466, R467). -/
def partAnswer (kind pos status : Nat) (result : List Byte) (s : State) : State :=
  if kind = 0x0C01 then reportJob true pos (status = 0) s
  else if kind = 0x0C02 then reportJob false pos (status = 0 && (result.headD 0) != 0) s
  else s

/-- A forwarded command's own result: the host buffers that the command writes, then the completion with the forwarded flag and the
target's position; for NOP the round-trip time of the path, a measured value (R284, R292, R343). -/
def forwardedDone (tk : Ticket) (pos status : Nat) (result data : List Byte) (s : State) : State :=
  if status = 0 && !data.isEmpty && !tk.dmaOk then completeAs tk 0x0500 pos true [] s
  else
    let s := if status = 0 && !data.isEmpty then emit (.hostBytes tk.buf data) s else s
    if tk.kind = 0 && status = 0 then
      let r := draw s
      completeAs tk status pos true [it 8 r.1] r.2
    else completeAs tk status pos true (result.map fun b => it 1 b.toNat) s

/-- FORWARDED_RESULT_RX (R343, R344): the Headstock writes the host buffers and the completion; the result of a command taken by the
other module of the pair, before a handover, is told with FORWARD_RESULT. -/
def execForwardedResultRx (tag pos status : Nat) (result data : List Byte) (s : State) : Host.Outcome State Fault Refusal :=
  .next
    (if !mainUp s then s
     else
       match mapGet s.queue.forwards tag with
       | some (tk, _) =>
         let s := s.modQueue fun q => { q with forwards := mapDel q.forwards tag }
         if tk.kind = 0x0C01 || tk.kind = 0x0C02 || tk.kind = 0x0C07 then partAnswer tk.kind pos status result s
         else forwardedDone tk pos status result data s
       | none =>
         if s.cascade.headstock then
           let r := draw s
           raiseMod 0x0D87 [it 8 tag, it 2 (r.1 % 65536), it 2 status, it 1 pos] r.2
         else s)

/-! ## Host accesses that do not complete (R285) -/

/-- A command that ends early leaves everything that would have completed it. -/
def forgetTicket (tk : Ticket) (s : State) : State :=
  let other (t : Ticket) : Bool := !sameTicket t tk
  let s := s.modQueue fun q => { q with forwards := q.forwards.filter fun f => other f.2.1 }
  let s := s.modMgmt fun m => { m with waiting := m.waiting.filter fun w => other w.1 }
  let drop (x : Surface) : Surface :=
    { x with active := x.active.filter (fun a => other a.1), reading := x.reading.filter (fun a => other a.2.1), waiting := x.waiting.filter fun a => other a.1 }
  let s := s.modCompose fun c => { c with surfaces := c.surfaces.map fun p => (p.1, drop p.2) }
  let clear (t : Txn) : Txn := { t with ticket := t.ticket.filter other }
  s.modTxn fun t => { t with txns := t.txns.map fun p => (p.1, clear p.2) }

/-- HOST_COMPLETION_TIMEOUT (R285): an access of a command gets no completion for 50 ms; the command ends with HOST_DMA_ERROR. -/
def execHostCompletionTimeout (tag : Nat) (s : State) : Host.Outcome State Fault Refusal :=
  .next
    (match s.queue.inFlight.find? fun f => f.tag = tag && f.origin.isNone && f.buf != 0 with
     | some tk => complete tk 0x0500 [] (forgetTicket tk s)
     | none => s)

/-! ## The end of a restart of the pair (R403) -/

/-- MANAGEMENT_RESTART_COMPLETE (R403): the waiting commands of range 0x0Bxx are served, mailbox agent 0 serves again and queued
events go on; the log records the pair's start (R417). What the flash reads back then is a free value (R442). -/
def execManagementRestartComplete (s : State) : Host.Outcome State Fault Refusal :=
  .next
    (if s.mgmt.restarting then
      let l := s.mgmt.waiting
      let b := Config.restartFacts s.free
      let s := pairStarted b ((draw s).2.modMgmt fun m => { m with waiting := [] })
      drainEvents (l.foldl (fun s p => runHere p.1 p.2 (runCmd p.2) s) s)
    else s)

/-! ## Catching up (R357, R469) -/

/-- The ticket of an object that a catch-up recreates: of no ring, so that nothing is published for it. -/
def twinTicket (c : HostCmd) : Ticket :=
  { kind := cmdKind c, ring := 255, index := 0, attn := false, attnErr := false, quiet := true, tag := 0, buf := 1, dmaOk := true,
    origin := none }

/-- An object recreated from what the twin sent (R469, step 3). -/
def recreate (c : HostCmd) (s : State) : State :=
  let n := s.queue.cplDiscarded
  let r := s.host.resumable
  let s := runCmd c (twinTicket c) s
  let s := s.modQueue fun q => { q with retained := q.retained.filter fun x => x.ticket.ring != 255, cplDiscarded := n }
  s.modHost fun h => { h with resumable := r }

/-- The twin's registers taken over (R469, step 3). -/
def takeRegister (p : Nat × Word32) (s : State) : State :=
  if p.1 = 0x1000 || p.1 = 0x1014 then s else setReg { cls := 8, index := 0 } p.1 p.2 s

/-- CATCH_UP (R357): the twin's bank is checked and put in force at the first frame start of each group, or TWIN_ROLE tells that
a check failed. In a hitless update the twin's registers and objects come first (R469). -/
def execCatchUp (gen : Nat) (items : List Item) (objects : List HostCmd) (registers : List (Nat × Word32)) (s : State) :
    Host.Outcome State Fault Refusal :=
  .next
    (if s.cascade.catchingUp && s.cascade.role = .standby && s.cascade.twinUp && bankFree s then
      let s := if s.update.hitless.isSome then objects.foldl (fun s c => recreate c s) (registers.foldl (fun s p => takeRegister p s) s) else s
      let bank := items.foldl (stageItem 0) SceneBank.init
      if (validate s bank).isEmpty then
        let s := s.modScene fun c => { c with other := bank, otherUse := .staged }
        let s := writeStaged s
        let now := s.time.wall
        let frames := bank.groups.map fun p => (p.1, applyFrame s p.1 p.2 now)
        let s := frames.foldl (fun s p => createGroup now s p.1) s
        let s := swapScene frames false s
        let s := s.modScene fun c => { c with gen := gen, twinGen := gen, behind := false }
        hitlessCaughtUp (s.modCascade fun c => { c with catchingUp := false, caughtUp := true })
      else roleEvent s.cascade.role s.cascade.role 7 s
    else s)

/-! ## The block's own time -/

/-- The reads of surfaces that have read their last byte complete (R136). -/
def finishAllReads (s : State) : State :=
  s.compose.surfaces.foldl (fun s p => if p.2.reading.isEmpty then s else finishReads p.1 s) s

/-- The counters of wall time, elapsed time, Spindle time and the management pair count one nanosecond (R24, R349, R416); a Tailstock that
follows no beat, and is not the Headstock's, steers its Spindle counter (R350, R352). -/
def advanceTime (s : State) : State :=
  let s := if s.ts.powered then advanceWall s else s
  let s := s.modTime fun t =>
    { t with
      mono := t.mono + 1, spindle := if s.ts.powered then t.spindle + 1 else t.spindle,
      mgmtNs := if s.power.managementUp then t.mgmtNs + 1 else t.mgmtNs }
  if s.time.mono % 1000000 = 0 && s.ts.powered && !s.cascade.headstock && !s.cascade.onBeat then steerOwn s else s

/-- One nanosecond passes while no command waits: lines leave the Tailstock as it does, and reads of surfaces come to their end (R136, R203). -/
def tick (s : State) : State :=
  let s := advanceTime s
  let s := if s.ts.powered then advanceLines s else s
  if mainUp s then finishAllReads s else s

end Sys2Proof.Machine
end

