-- ==== Sys2Proof/Machine/Dispatch.lean ====
section
/-! DEFINITION. The dispatch: one arm for each command, each one direct call of the command's meaning. -/

namespace Sys2Proof.Machine

open Sys2Proof

/-- The effect of a command on everything but the queue. -/
def exec (i : Instr) (s : State) : Host.Outcome State Fault Refusal :=
  match i with
  | .portConfigure d b => Sys2Proof.Machine.execPortConfigure d b s
  | .ingestOpen d b => Sys2Proof.Machine.execIngestOpen d b s
  | .ingestClose d source abort => Sys2Proof.Machine.execIngestClose d source abort s
  | .ingestCloseComplete source => Sys2Proof.Machine.execIngestCloseComplete source s
  | .ingestCounters d source => Sys2Proof.Machine.execIngestCounters d source s
  | .proxyOpen d b => Sys2Proof.Machine.execProxyOpen d b s
  | .proxyClose d source => Sys2Proof.Machine.execProxyClose d source s
  | .decodeAttach d b => Sys2Proof.Machine.execDecodeAttach d b s
  | .decodeDetach d source abort => Sys2Proof.Machine.execDecodeDetach d source abort s
  | .decodeDetachComplete source => Sys2Proof.Machine.execDecodeDetachComplete source s
  | .decodePolicy d source policy pct => Sys2Proof.Machine.execDecodePolicy d source policy pct s
  | .decodeStatus d source => Sys2Proof.Machine.execDecodeStatus d source s
  | .decodeSelftest d pipeline => Sys2Proof.Machine.execDecodeSelftest d pipeline s
  | .decodeSelftestDone pipeline firstDiffering => Sys2Proof.Machine.execDecodeSelftestDone pipeline firstDiffering s
  | .ledgerDefine d b => Sys2Proof.Machine.execLedgerDefine d b s
  | .ledgerSet d b => Sys2Proof.Machine.execLedgerSet d b s
  | .ledgerDelete d source => Sys2Proof.Machine.execLedgerDelete d source s
  | .ledgerWithdraw d source withdraw => Sys2Proof.Machine.execLedgerWithdraw d source withdraw s
  | .ledgerVouch d b => Sys2Proof.Machine.execLedgerVouch d b s
  | .ledgerVouchBatch d count l => Sys2Proof.Machine.execLedgerVouchBatch d count l s
  | .ledgerTest d source test => Sys2Proof.Machine.execLedgerTest d source test s
  | .ledgerProbe d source enable freezeK freezeSad => Sys2Proof.Machine.execLedgerProbe d source enable freezeK freezeSad s
  | .ledgerRead d first count => Sys2Proof.Machine.execLedgerRead d first count s
  | .surfaceRegister d b => Sys2Proof.Machine.execSurfaceRegister d b s
  | .surfaceUpload d b => Sys2Proof.Machine.execSurfaceUpload d b s
  | .surfaceUploadResume surface => Sys2Proof.Machine.execSurfaceUploadResume surface s
  | .surfaceUploadComplete surface => Sys2Proof.Machine.execSurfaceUploadComplete surface s
  | .surfaceRetire d surface => Sys2Proof.Machine.execSurfaceRetire d surface s
  | .surfaceRetireRelease surface => Sys2Proof.Machine.execSurfaceRetireRelease surface s
  | .surfaceRead d b => Sys2Proof.Machine.execSurfaceRead d b s
  | .scalerLoad d set coeffs => Sys2Proof.Machine.execScalerLoad d set coeffs s
  | .scalerRead d set => Sys2Proof.Machine.execScalerRead d set s
  | .writeback d b => Sys2Proof.Machine.execWriteback d b s
  | .writebackFrame head => Sys2Proof.Machine.execWritebackFrame head s
  | .composeSelftest d pipe => Sys2Proof.Machine.execComposeSelftest d pipe s
  | .composeSelftestDone pipe failed => Sys2Proof.Machine.execComposeSelftestDone pipe failed s
  | .composeStatus d head => Sys2Proof.Machine.execComposeStatus d head s
  | .headStatus d head => Sys2Proof.Machine.execHeadStatus d head s
  | .headSinkRead d head => Sys2Proof.Machine.execHeadSinkRead d head s
  | .headSinkPower d head power => Sys2Proof.Machine.execHeadSinkPower d head power s
  | .headAux d b => Sys2Proof.Machine.execHeadAux d b s
  | .egressPortConfigure d b => Sys2Proof.Machine.execEgressPortConfigure d b s
  | .tailstockGlyphLoad d first count glyphs => Sys2Proof.Machine.execTailstockGlyphLoad d first count glyphs s
  | .calipersRead d head => Sys2Proof.Machine.execCalipersRead d head s
  | .tailstockStatus d head => Sys2Proof.Machine.execTailstockStatus d head s
  | .verdictRead d select => Sys2Proof.Machine.execVerdictRead d select s
  | .holdRead d head rect => Sys2Proof.Machine.execHoldRead d head rect s
  | .tailstockFontRead d => Sys2Proof.Machine.execTailstockFontRead d s
  | .recordStart d b => Sys2Proof.Machine.execRecordStart d b s
  | .recordStop d head abort => Sys2Proof.Machine.execRecordStop d head abort s
  | .recordStopComplete head => Sys2Proof.Machine.execRecordStopComplete head s
  | .recordStats d head => Sys2Proof.Machine.execRecordStats d head s
  | .recordForceIdr d head => Sys2Proof.Machine.execRecordForceIdr d head s
  | .encodeSelftest d pipe => Sys2Proof.Machine.execEncodeSelftest d pipe s
  | .encodeSelftestDone pipe pass => Sys2Proof.Machine.execEncodeSelftestDone pipe pass s
  | .overlayListLoad d list length bytes => Sys2Proof.Machine.execOverlayListLoad d list length bytes s
  | .overlayListFree d list => Sys2Proof.Machine.execOverlayListFree d list s
  | .overlayFontLoad d b => Sys2Proof.Machine.execOverlayFontLoad d b s
  | .overlayBind d b => Sys2Proof.Machine.execOverlayBind d b s
  | .overlayUnbind d binding => Sys2Proof.Machine.execOverlayUnbind d binding s
  | .overlayUnbindComplete binding => Sys2Proof.Machine.execOverlayUnbindComplete binding s
  | .overlayRun d b => Sys2Proof.Machine.execOverlayRun d b s
  | .overlayStatus d engine => Sys2Proof.Machine.execOverlayStatus d engine s
  | .nop d => Sys2Proof.Machine.execNop d s
  | .eventRoute d ring subjectMask attnMask => Sys2Proof.Machine.execEventRoute d ring subjectMask attnMask s
  | .hostDetach d => Sys2Proof.Machine.execHostDetach d s
  | .descriptorReject d kind => Sys2Proof.Machine.execDescriptorReject d kind s
  | .txnBegin d lockstep modules => Sys2Proof.Machine.execTxnBegin d lockstep modules s
  | .txnStage d txn position itemCount itemsLen items => Sys2Proof.Machine.execTxnStage d txn position itemCount itemsLen items s
  | .txnValidate d txn reportLen => Sys2Proof.Machine.execTxnValidate d txn reportLen s
  | .validationResultRx txn position summary entries => Sys2Proof.Machine.execValidationResultRx txn position summary entries s
  | .txnCommit d txn applyNs reportLen => Sys2Proof.Machine.execTxnCommit d txn applyNs reportLen s
  | .txnAbort d txn => Sys2Proof.Machine.execTxnAbort d txn s
  | .txnStatus d txn len => Sys2Proof.Machine.execTxnStatus d txn len s
  | .laneCounters d lane => Sys2Proof.Machine.execLaneCounters d lane s
  | .laneTest d lane durationMs farAllows pathBeyond => Sys2Proof.Machine.execLaneTest d lane durationMs farAllows pathBeyond s
  | .laneTestEnd lane errorsHere errorsFar bits => Sys2Proof.Machine.execLaneTestEnd lane errorsHere errorsFar bits s
  | .cascadeStatus d => Sys2Proof.Machine.execCascadeStatus d s
  | .cascadeRenumber d identity => Sys2Proof.Machine.execCascadeRenumber d identity s
  | .twinRole d op => Sys2Proof.Machine.execTwinRole d op s
  | .cascadeSleep d => Sys2Proof.Machine.execCascadeSleep d s
  | .sleepDrainComplete => Sys2Proof.Machine.execSleepDrainComplete s
  | .cascadeWake d => Sys2Proof.Machine.execCascadeWake d s
  | .memStatus d => Sys2Proof.Machine.execMemStatus d s
  | .memRetrain d channel => Sys2Proof.Machine.execMemRetrain d channel s
  | .memRetrainChannelDone channel ok readMarginPs writeMarginPs => Sys2Proof.Machine.execMemRetrainChannelDone channel ok readMarginPs writeMarginPs s
  | .memInject d addr devices first => Sys2Proof.Machine.execMemInject d addr devices first s
  | .gateFence d mask poll => Sys2Proof.Machine.execGateFence d mask poll s
  | .gateFenceComplete => Sys2Proof.Machine.execGateFenceComplete s
  | .gateFaultRead d seq => Sys2Proof.Machine.execGateFaultRead d seq s
  | .mbxPost d receiver slot msg => Sys2Proof.Machine.execMbxPost d receiver slot msg s
  | .mbxRead d mask => Sys2Proof.Machine.execMbxRead d mask s
  | .lockAcquire d lock => Sys2Proof.Machine.execLockAcquire d lock s
  | .lockRelease d lock => Sys2Proof.Machine.execLockRelease d lock s
  | .mgmtStatus d => Sys2Proof.Machine.execMgmtStatus d s
  | .mgmtMaintenance d enter => Sys2Proof.Machine.execMgmtMaintenance d enter s
  | .mgmtLogRead d first count pinnedOnly => Sys2Proof.Machine.execMgmtLogRead d first count pinnedOnly s
  | .mgmtReset d => Sys2Proof.Machine.execMgmtReset d s
  | .mgmtLadderTest d step => Sys2Proof.Machine.execMgmtLadderTest d step s
  | .updateStatus d => Sys2Proof.Machine.execUpdateStatus d s
  | .updateDistribute d source mask staged => Sys2Proof.Machine.execUpdateDistribute d source mask staged s
  | .distributionRx p last => Sys2Proof.Machine.execDistributionRx p last s
  | .updateActivate d mask activateNs staged => Sys2Proof.Machine.execUpdateActivate d mask activateNs staged s
  | .updateHitless d twinHash => Sys2Proof.Machine.execUpdateHitless d twinHash s
  | .updateEngine d streamMask overlayMask => Sys2Proof.Machine.execUpdateEngine d streamMask overlayMask s
  | .updateConfirm d => Sys2Proof.Machine.execUpdateConfirm d s
  | .updateRevert d b => Sys2Proof.Machine.execUpdateRevert d b s
  | .updateCancel d mask => Sys2Proof.Machine.execUpdateCancel d mask s
  | .mgmtEcho slot => Sys2Proof.Machine.execMgmtEcho slot s
  | .mgmtStatusMsg slot => Sys2Proof.Machine.execMgmtStatusMsg slot s
  | .mgmtLogRecord slot => Sys2Proof.Machine.execMgmtLogRecord slot s
  | .hostRun value => Sys2Proof.Machine.execHostRun value s
  | .attachFresh table => Sys2Proof.Machine.execAttachFresh table s
  | .attachResume => Sys2Proof.Machine.execAttachResume s
  | .attachDetach => Sys2Proof.Machine.execAttachDetach s
  | .timeNowRead => Sys2Proof.Machine.execTimeNowRead s
  | .lockRead lock who => Sys2Proof.Machine.execLockRead lock who s
  | .lockWrite lock who value => Sys2Proof.Machine.execLockWrite lock who value s
  | .mbxDoorbellClear value => Sys2Proof.Machine.execMbxDoorbellClear value s
  | .dramcMapWrite value => Sys2Proof.Machine.execDramcMapWrite value s
  | .registerWrite offset value => Sys2Proof.Machine.execRegisterWrite offset value s
  | .badAccess write => Sys2Proof.Machine.execBadAccess write s
  | .perst => Sys2Proof.Machine.execPerst s
  | .functionLevelReset => Sys2Proof.Machine.execFunctionLevelReset s
  | .d3hotEntry => Sys2Proof.Machine.execD3hotEntry s
  | .busMasterClear => Sys2Proof.Machine.execBusMasterClear s
  | .hostLink up speed width => Sys2Proof.Machine.execHostLink up speed width s
  | .doorbellPoll cmdProd cplCons evtCons ok => Sys2Proof.Machine.execDoorbellPoll cmdProd cplCons evtCons ok s
  | .statusPageWrite => Sys2Proof.Machine.execStatusPageWrite s
  | .attentionPulse => Sys2Proof.Machine.execAttentionPulse s
  | .eventQueueDrain => Sys2Proof.Machine.execEventQueueDrain s
  | .forwardedCommandRx origin tag dmaOk c => Sys2Proof.Machine.execForwardedCommandRx origin tag dmaOk c s
  | .forwardedResultRx tag position status result data => Sys2Proof.Machine.execForwardedResultRx tag position status result data s
  | .neighbourRequestRx port lane kind address => Sys2Proof.Machine.execNeighbourRequestRx port lane kind address s
  | .queryRx port lane mld => Sys2Proof.Machine.execQueryRx port lane mld s
  | .opticsChange port what f => Sys2Proof.Machine.execOpticsChange port what f s
  | .portLink port lane up => Sys2Proof.Machine.execPortLink port lane up s
  | .rtpPacketRx p => Sys2Proof.Machine.execRtpPacketRx p s
  | .frameCloseDeadline source => Sys2Proof.Machine.execFrameCloseDeadline source s
  | .senderReportRx port lane ssrc rtp ntpNs => Sys2Proof.Machine.execSenderReportRx port lane ssrc rtp ntpNs s
  | .legState source leg => Sys2Proof.Machine.execLegState source leg s
  | .ingestReleased regionBase => Sys2Proof.Machine.execIngestReleased regionBase s
  | .proxyFrameSend source => Sys2Proof.Machine.execProxyFrameSend source s
  | .announceRx a => Sys2Proof.Machine.execAnnounceRx a s
  | .delayReqSend => Sys2Proof.Machine.execDelayReqSend s
  | .offsetMeasurement port t1 t2 t3 r => Sys2Proof.Machine.execOffsetMeasurement port t1 t2 t3 r s
  | .lockConfirm => Sys2Proof.Machine.execLockConfirm s
  | .announceTimeout => Sys2Proof.Machine.execAnnounceTimeout s
  | .measurementTimeout => Sys2Proof.Machine.execMeasurementTimeout s
  | .uLimit => Sys2Proof.Machine.execULimit s
  | .pictureDecodeEnd pipeline r => Sys2Proof.Machine.execPictureDecodeEnd pipeline r s
  | .decodePipelineTimeout pipeline r => Sys2Proof.Machine.execDecodePipelineTimeout pipeline r s
  | .decodeLag source => Sys2Proof.Machine.execDecodeLag source s
  | .decodeReleased bufBase => Sys2Proof.Machine.execDecodeReleased bufBase s
  | .probeCompareDone source => Sys2Proof.Machine.execProbeCompareDone source s
  | .lateTimer source => Sys2Proof.Machine.execLateTimer source s
  | .staleTimer source => Sys2Proof.Machine.execStaleTimer source s
  | .lossTimer source => Sys2Proof.Machine.execLossTimer source s
  | .ledgerStateSummary source => Sys2Proof.Machine.execLedgerStateSummary source s
  | .verdictUpdateRx side crcOk seq entries => Sys2Proof.Machine.execVerdictUpdateRx side crcOk seq entries s
  | .wholeBitmapSend => Sys2Proof.Machine.execWholeBitmapSend s
  | .wholeBitmapRx side bothFrames seq bits => Sys2Proof.Machine.execWholeBitmapRx side bothFrames seq bits s
  | .latchPoint group => Sys2Proof.Machine.execLatchPoint group s
  | .lineComposed head line => Sys2Proof.Machine.execLineComposed head line s
  | .fetchDeadline head layer line poison => Sys2Proof.Machine.execFetchDeadline head layer line poison s
  | .tailstockPowerUp => Sys2Proof.Machine.execTailstockPowerUp s
  | .tailstockRecordWrite side claim r => Sys2Proof.Machine.execTailstockRecordWrite side claim r s
  | .swapOrderRx side head frameNo rollback => Sys2Proof.Machine.execSwapOrderRx side head frameNo rollback s
  | .lineTokenRx side crcOk t => Sys2Proof.Machine.execLineTokenRx side crcOk t s
  | .idleTokenSend head => Sys2Proof.Machine.execIdleTokenSend head s
  | .claimState head side => Sys2Proof.Machine.execClaimState head side s
  | .frameStart head => Sys2Proof.Machine.execFrameStart head s
  | .holdLimit head => Sys2Proof.Machine.execHoldLimit head s
  | .lineDue head l => Sys2Proof.Machine.execLineDue head l s
  | .calipersSelfcheck head value => Sys2Proof.Machine.execCalipersSelfcheck head value s
  | .holdScrub head line errors => Sys2Proof.Machine.execHoldScrub head line errors s
  | .tailstockEventDelivery => Sys2Proof.Machine.execTailstockEventDelivery s
  | .hpdConnect head sink => Sys2Proof.Machine.execHpdConnect head sink s
  | .hpdDisconnect head => Sys2Proof.Machine.execHpdDisconnect head s
  | .irqHpd head lost status => Sys2Proof.Machine.execIrqHpd head lost status s
  | .trainingAttemptEnd head ok => Sys2Proof.Machine.execTrainingAttemptEnd head ok s
  | .linkRetry head => Sys2Proof.Machine.execLinkRetry head s
  | .egressLink port up => Sys2Proof.Machine.execEgressLink port up s
  | .frameRefEdge input rising pulseNs => Sys2Proof.Machine.execFrameRefEdge input rising pulseNs s
  | .refUnlockTimeout group => Sys2Proof.Machine.execRefUnlockTimeout group s
  | .syncPaceTimeout group => Sys2Proof.Machine.execSyncPaceTimeout group s
  | .latchDecisionRx group latchNs frameNo => Sys2Proof.Machine.execLatchDecisionRx group latchNs frameNo s
  | .returnFrameRx f => Sys2Proof.Machine.execReturnFrameRx f s
  | .pictureCoded head interrupted rdLo rdHi => Sys2Proof.Machine.execPictureCoded head interrupted rdLo rdHi s
  | .recordReleased workBase => Sys2Proof.Machine.execRecordReleased workBase s
  | .overlayRunStart engine => Sys2Proof.Machine.execOverlayRunStart engine s
  | .overlayRunEnd engine => Sys2Proof.Machine.execOverlayRunEnd engine s
  | .overlayRunTimeout engine => Sys2Proof.Machine.execOverlayRunTimeout engine s
  | .overlayNoImageTimeout binding => Sys2Proof.Machine.execOverlayNoImageTimeout binding s
  | .prepareRx txn => Sys2Proof.Machine.execPrepareRx txn s
  | .voteRx txn position yes code => Sys2Proof.Machine.execVoteRx txn position yes code s
  | .voteTimeout txn => Sys2Proof.Machine.execVoteTimeout txn s
  | .commitRx m => Sys2Proof.Machine.execCommitRx m s
  | .commitResend txn => Sys2Proof.Machine.execCommitResend txn s
  | .txnApply => Sys2Proof.Machine.execTxnApply s
  | .applyReportRx r => Sys2Proof.Machine.execApplyReportRx r s
  | .cancelPoint txn => Sys2Proof.Machine.execCancelPoint txn s
  | .decisionPoint txn => Sys2Proof.Machine.execDecisionPoint txn s
  | .laggardExpiry txn => Sys2Proof.Machine.execLaggardExpiry txn s
  | .rollbackComplete txn => Sys2Proof.Machine.execRollbackComplete txn s
  | .contactLossTimeout => Sys2Proof.Machine.execContactLossTimeout s
  | .sceneGenRx gen => Sys2Proof.Machine.execSceneGenRx gen s
  | .laneSlot bond lane => Sys2Proof.Machine.execLaneSlot bond lane s
  | .luasinFrameRx bond lane f => Sys2Proof.Machine.execLuasinFrameRx bond lane f s
  | .retxTimeout bond cls => Sys2Proof.Machine.execRetxTimeout bond cls s
  | .ackDue bond cls => Sys2Proof.Machine.execAckDue bond cls s
  | .signalDetect bond lane => Sys2Proof.Machine.execSignalDetect bond lane s
  | .trainingComplete bond lane skewNs => Sys2Proof.Machine.execTrainingComplete bond lane skewNs s
  | .trainingTimeout bond lane => Sys2Proof.Machine.execTrainingTimeout bond lane s
  | .markerLoss bond lane byCrc => Sys2Proof.Machine.execMarkerLoss bond lane byCrc s
  | .sleepOrderRx east faultOrder => Sys2Proof.Machine.execSleepOrderRx east faultOrder s
  | .discovery => Sys2Proof.Machine.execDiscovery s
  | .discoveryComplete returned modules => Sys2Proof.Machine.execDiscoveryComplete returned modules s
  | .presenceSend => Sys2Proof.Machine.execPresenceSend s
  | .presenceRx p => Sys2Proof.Machine.execPresenceRx p s
  | .presenceTimeout position => Sys2Proof.Machine.execPresenceTimeout position s
  | .beatSend => Sys2Proof.Machine.execBeatSend s
  | .beatRx east m => Sys2Proof.Machine.execBeatRx east m s
  | .delayRequestSend east => Sys2Proof.Machine.execDelayRequestSend east s
  | .delayRequestRx east m residencePs => Sys2Proof.Machine.execDelayRequestRx east m residencePs s
  | .delayResponseRx east m roundTripPs => Sys2Proof.Machine.execDelayResponseRx east m roundTripPs s
  | .beatLoss => Sys2Proof.Machine.execBeatLoss s
  | .headstockTake => Sys2Proof.Machine.execHeadstockTake s
  | .twinPairing t => Sys2Proof.Machine.execTwinPairing t s
  | .twinLinkLoss => Sys2Proof.Machine.execTwinLinkLoss s
  | .twinReportRx twinRole => Sys2Proof.Machine.execTwinReportRx twinRole s
  | .catchUp gen items objects registers => Sys2Proof.Machine.execCatchUp gen items objects registers s
  | .autoSwapDecision => Sys2Proof.Machine.execAutoSwapDecision s
  | .swapInstant => Sys2Proof.Machine.execSwapInstant s
  | .memoryAccess a errors => Sys2Proof.Machine.execMemoryAccess a errors s
  | .scrubStep errors => Sys2Proof.Machine.execScrubStep errors s
  | .refresh channel sub => Sys2Proof.Machine.execRefresh channel sub s
  | .mr4Poll answers => Sys2Proof.Machine.execMr4Poll answers s
  | .refreshWindowEnd channel sub => Sys2Proof.Machine.execRefreshWindowEnd channel sub s
  | .rowActivate channel sub bank row sampled => Sys2Proof.Machine.execRowActivate channel sub bank row sampled s
  | .zqCalibration => Sys2Proof.Machine.execZqCalibration s
  | .dqsOscillator channel driftA driftB => Sys2Proof.Machine.execDqsOscillator channel driftA driftB s
  | .gateAccess gate a => Sys2Proof.Machine.execGateAccess gate a s
  | .sensorSample values => Sys2Proof.Machine.execSensorSample values s
  | .sensorLimitHeld sensor => Sys2Proof.Machine.execSensorLimitHeld sensor s
  | .governorEvaluation blocks projectedPm => Sys2Proof.Machine.execGovernorEvaluation blocks projectedPm s
  | .thermalShed => Sys2Proof.Machine.execThermalShed s
  | .paceShort => Sys2Proof.Machine.execPaceShort s
  | .watchdogExpiry b => Sys2Proof.Machine.execWatchdogExpiry b s
  | .lockstepMismatch => Sys2Proof.Machine.execLockstepMismatch s
  | .logSuppressed => Sys2Proof.Machine.execLogSuppressed s
  | .inletPresent inlet volts => Sys2Proof.Machine.execInletPresent inlet volts s
  | .inletLost inlet volts => Sys2Proof.Machine.execInletLost inlet volts s
  | .holdupEnd => Sys2Proof.Machine.execHoldupEnd s
  | .keepaliveLow => Sys2Proof.Machine.execKeepaliveLow s
  | .sysReset => Sys2Proof.Machine.execSysReset s
  | .wake => Sys2Proof.Machine.execWake s
  | .shutdown => Sys2Proof.Machine.execShutdown s
  | .shutdownDrainComplete => Sys2Proof.Machine.execShutdownDrainComplete s
  | .shutdownRelease b => Sys2Proof.Machine.execShutdownRelease b s
  | .serviceEn low => Sys2Proof.Machine.execServiceEn low s
  | .strapCheck masterSel sideB => Sys2Proof.Machine.execStrapCheck masterSel sideB s
  | .managementPowerUp b shutdownLow => Sys2Proof.Machine.execManagementPowerUp b shutdownLow s
  | .startingComplete f => Sys2Proof.Machine.execStartingComplete f s
  | .wakeComplete => Sys2Proof.Machine.execWakeComplete s
  | .serviceConnect => Sys2Proof.Machine.execServiceConnect s
  | .serviceHello => Sys2Proof.Machine.execServiceHello s
  | .serviceBegin h => Sys2Proof.Machine.execServiceBegin h s
  | .serviceData bytes => Sys2Proof.Machine.execServiceData bytes s
  | .serviceEnd readsBack => Sys2Proof.Machine.execServiceEnd readsBack s
  | .serviceAbort => Sys2Proof.Machine.execServiceAbort s
  | .serviceStallTimeout => Sys2Proof.Machine.execServiceStallTimeout s
  | .activationInstant b => Sys2Proof.Machine.execActivationInstant b s
  | .activationSetup => Sys2Proof.Machine.execActivationSetup s
  | .hitlessSwapDecision twinBitmap => Sys2Proof.Machine.execHitlessSwapDecision twinBitmap s
  | .hitlessTimeout => Sys2Proof.Machine.execHitlessTimeout s
  | .engineStreamMove engine => Sys2Proof.Machine.execEngineStreamMove engine s
  | .sysResetRelease b => Sys2Proof.Machine.execSysResetRelease b s
  | .serviceDisconnect => Sys2Proof.Machine.execServiceDisconnect s
  | .managementRestartComplete => Sys2Proof.Machine.execManagementRestartComplete s
  | .commandResetTimer b => Sys2Proof.Machine.execCommandResetTimer b s
  | .headstockServiceReady => Sys2Proof.Machine.execHeadstockServiceReady s
  | .validationRequestRx txn => Sys2Proof.Machine.execValidationRequestRx txn s
  | .txnAbortRx txn => Sys2Proof.Machine.execTxnAbortRx txn s
  | .keepaliveCurrentLimit limited busMv feedW => Sys2Proof.Machine.execKeepaliveCurrentLimit limited busMv feedW s
  | .hostCompletionTimeout tag => Sys2Proof.Machine.execHostCompletionTimeout tag s

end Sys2Proof.Machine
end

