-- ==== Sys2Proof/Safety.lean ====
section
/-! DEFINITION. What claims are stated in: a command that completes, a command taken and executed here, its completion record, what
reporting leaves unchanged, an open register, and the invariants of the block. -/

namespace Sys2Proof.Machine

open Sys2Proof

/-- A command answers a next state of which `p` holds. -/
def Completes (c : Instr) (s : State) (p : State → Prop) : Prop := ∃ t, exec c s = .next t ∧ p t

/-- The module takes the command, finds no fault in its header, and serves it itself, at once (R281 to R283, R291, R293, R403). -/
abbrev Executes (d : Desc) (c : HostCmd) (s : State) : Prop :=
  canTake d s = true ∧ commonCheck d c s = 0 ∧ isLocal d.target s = true ∧ stateServes (cmdKind c) s = true ∧ s.mgmt.restarting = false
    ∧ s.queue.detaching = none

/-- A completion record is among the outputs of `t`, in completion ring `r`, with its bytes (R284). -/
def Published (r : Nat) (c : Completion) (t : State) : Prop := ∃ i ph, Out.completion r i ph c (completionBytes ph c) ∈ t.outbox

/-- The completion record of the command taken at `s`, executed by this module (R284). -/
def recordOf (d : Desc) (c : HostCmd) (status : Nat) (result : Items) (s : State) : Completion :=
  { ticket := ticketOf d (cmdKind c) s, status := status, position := position s, forwarded := false,
    result := resultOf (ticketOf d (cmdKind c) s) status result }

/-- That record: where its completion ring is written and it is not quiet with SUCCESS, it is
among the outputs of `t` (R283, R284). -/
def Reports (d : Desc) (c : HostCmd) (status : Nat) (result : Items) (s t : State) : Prop :=
  (d.quiet = false ∨ status ≠ 0) → ∀ r, cplRingOf s d.ring = some r →
    Published r (recordOf d c status result s) t

/-- Bytes written to the host buffer of the command (R285). -/
def Delivers (d : Desc) (l : List Byte) (t : State) : Prop := Out.hostBytes d.buf l ∈ t.outbox

/-- The command of a ticket taken earlier ends at `s`: its record is among the outputs of `t`, where the host is attached, its completion
ring is written and it is not quiet with SUCCESS (R283, R284). -/
def Finishes (tk : Ticket) (status : Nat) (result : Items) (s t : State) : Prop :=
  tk.origin = none → (tk.quiet = false ∨ status ≠ 0) → s.host.attached = true → ∀ r, cplRingOf s tk.ring = some r →
    Published r { ticket := tk, status := status, position := position s, forwarded := false, result := resultOf tk status result } t

/-- Only what reports differs: rings and pages, commands in flight and events, the log, and what waits for the lanes. -/
def Reporting (s t : State) : Prop :=
  t = { s with host := t.host, queue := t.queue, mgmt := t.mgmt, link := t.link, outbox := t.outbox }

/-- Only the ledger differs, and what reports its changes: rings, the log, verdict updates, due overlay runs (R116, R128, R262). -/
def OnlyLedger (s t : State) : Prop :=
  t = { s with
        host := t.host, queue := t.queue, mgmt := t.mgmt, link := t.link, outbox := t.outbox, ledger := t.ledger, overlay := t.overlay }

/-- The event arises at `s`: its record, with the next sequence number of its scope, waits in the queue of `t` or is in an event ring,
where an event ring of an attached host selects it and the queue has room (R286 to R288). -/
def Raises (code : Nat) (k : ScopeKind) (id : Nat) (items : Items) (s t : State) : Prop :=
  s.queue.events.length < Config.maxQueued → (s.host.attached = true → (evtRing s code).isSome = true) →
    ∃ a, let e : EventRec := { code := code, scope := k, scopeId := id, position := position s, seq := nextSeq k id s,
                               wallNs := s.time.wall, items := items, attention := a }
      e ∈ t.queue.events ∨ ∃ r i ph b l, Out.event r i ph b e l ∈ t.outbox

/-- The event arises in the Tailstock at `s`, and, while the main section does not accept it, waits there, where there is room (R226). -/
def TsRaises (code : Nat) (k : ScopeKind) (id : Nat) (items : Items) (s t : State) : Prop :=
  mainAccepts s = false → s.ts.events.length < Config.tsQueue →
    ∃ a, ({ code := code, scope := k, scopeId := id, items := items, wallNs := s.time.wall, attention := a } : TsEvent) ∈ t.ts.events

/-- A line of a head leaves, or has left: from what it comes, with its spans; the pixels whose instants have come are out, in order, and
the rest wait (R203, R211). -/
def LineRuns (key line : Nat) (k : LineKind) (spans : List Span) (px : List Rgb) (t : State) : Prop :=
  (∃ m, (headRt t key).line = some m ∧ m.line = line ∧ m.kind = k ∧ m.spans = spans ∧ m.rest = px.drop m.x ∧ m.out.length = m.x
    ∧ m.x < px.length ∧ t.time.mono < pixelTime t key (headRt t key) line m.x)
  ∨ ((headRt t key).line = none ∧ ∃ l, mapGet (headRt t key).emitted line = some l ∧ l.pixels.length = px.length)

/-- The access of a register by an initiator passes: BAR0 answers, the block is served, and the gate allows it (R384, R415). -/
abbrev RegOpen (who : Initiator) (o : Nat) (write : Bool) (s : State) : Prop :=
  bar0Up s = true ∧ blockDead o s = false ∧ (gateDo (gateOf o) (regAccess who o write) s).2.1 = false

/-- The main section has been reset and boots: STARTING, the cause and the count of resets noted, no host attached and no command in
flight, every block at its reset values, module DRAM undefined; the Tailstock's heads, the boot pointer and u go on (R446, R447). -/
def Restarted (cause : Nat) (s t : State) : Prop :=
  t.module.mode = .starting ∧ t.mgmt.resetCause = cause ∧ t.mgmt.bootCount = idx32 (s.mgmt.bootCount + 1) ∧ t.host.attached = false
    ∧ t.host.table = none ∧ t.queue.inFlight = [] ∧ t.ledger = LedgerSt.init ∧ t.scene = SceneSt.init ∧ t.ingest = IngestSt.init
    ∧ t.decode = DecodeSt.init ∧ t.compose = ComposeSt.init ∧ t.overlay = OverlaySt.init ∧ t.record = RecordSt.init
    ∧ t.txn = TxnSt.init ∧ t.gates = GateSt.init ∧ t.mem.cells = [] ∧ t.ts.heads = s.ts.heads ∧ t.time.tRef = s.time.tRef

/-- Module DRAM keeps its canonical form: addresses strictly rising (R363). -/
abbrev MemInv (s : State) : Prop := Memory.wf s.mem.cells = true

end Sys2Proof.Machine
end

