-- ==== Sys2Proof/Certificates/Slice0/Obligations.lean ====
section
/-! DEFINITION. The statements for the provers. Each says of its commands under what conditions on the state and the operands they
complete, and what the next state holds; the frames say what else stays. -/

open Sys2Proof Sys2Proof.Machine

/-! ## The queue and the block's own time -/

/-- With command `c` at the front of the queue, a step is the execution of `c` on the state with the queue's rest. -/
def Obligations.StepExecutesTheFrontCommand : Prop :=
  ∀ (c : Instr) (rest : List Instr) (s : State),
    step { s with pending := c :: rest } = exec c { s with pending := rest }

/-- With no command waiting, no line leaving the Tailstock and no SURFACE_READ in progress, one nanosecond passes and nothing but the
counters of time changes: elapsed time advances by 1, wall time by 1 of its 64 bits while the Tailstock is powered and no slewing is in
progress, and stands while the Tailstock is not powered. The tick is the model's own choice (log entry 1). -/
def Obligations.IdleStepAdvancesTime : Prop :=
  ∀ s : State, s.pending = [] → (∀ p ∈ s.ts.heads, p.2.line = none) → (∀ p ∈ s.compose.surfaces, p.2.reading = []) →
    ∃ t, step s = .next t ∧ t.time.mono = s.time.mono + 1 ∧ t = { s with time := t.time }
      ∧ (s.ts.powered = true → slewing s = false → 0 ≤ s.time.slewPart → s.time.slewPart < 1000000000000 →
        t.time.wall = (s.time.wall + 1) % 18446744073709551616)
      ∧ (s.ts.powered = false → t.time.wall = s.time.wall ∧ t.time.spindle = s.time.spindle)

/-! ## Ring control -/

/-- NOP completes with SUCCESS; EVENT_ROUTE gives an event ring of the table its new masks; HOST_DETACH with no other command in
flight detaches the host with cause DRIVER; a descriptor of an undefined kind completes with DESC_KIND_UNKNOWN; none of them changes
anything but rings and their records (R283, R291, R292). A forwarded command executes here by its own rule, and its result returns over
the ring, or is refused with MODULE_QUEUE_FULL while 256 commands are in flight. The Headstock writes the completion of a command it
forwarded, with the forwarded flag and the target's position. A host access without completion ends its command with HOST_DMA_ERROR. After
a restart of the pair the waiting commands are served and mailbox agent 0 serves again (R285, R343, R403).
Where the manual leaves it open this rests on the model's own choices (log entries 4, 17, 18, 19, 20, 21, 22, 74 and 109). -/
def Obligations.RingCommandsComplete : Prop :=
  (∀ d s, Executes d .nop s → d.target = 0xFF →
    Completes (.nop d) s fun t => Reports d .nop 0 [] s t ∧ Reporting s t) ∧
  (∀ d ring sub att s, Executes d (.eventRoute ring sub att) s → ring < evtCount s → sub < 0x8000 → att < 0x10000 →
    Completes (.eventRoute d ring sub att) s fun t =>
      evtMasks t ring = (sub, att) ∧ Reports d (.eventRoute ring sub att) 0 [] s t ∧ Reporting s t) ∧
  (∀ d s, Executes d .hostDetach s → s.queue.inFlight = [] →
    Completes (.hostDetach d) s fun t =>
      t.host.attached = false ∧ t.host.resumable = true ∧ t.host.detachCause = 6 ∧ t.host.detachWallNs = s.time.wall
        ∧ t.queue.inFlight = [] ∧ Reports d .hostDetach 0 [] s t ∧ Reporting s t) ∧
  (∀ d kind s, canTake d s = true → commonCheck d .nop s = 0 →
    Completes (.descriptorReject d kind) s fun t =>
      mapGet t.host.cmdCons d.ring = some (idx32 (mapGetD s.host.cmdCons d.ring 0 + 1)) ∧ Reporting s t
        ∧ (s.queue.detaching = none → ∀ r, cplRingOf s d.ring = some r → Published r { ticket := ticketOf d kind s, status := 0x0100, position := position s, forwarded := false, result := [] } t)) ∧
  (∀ origin tag dmaOk s, s.module.mode ≠ .off → stateServes 0 s = true → s.queue.inFlight.length < Config.maxInFlight →
    s.queue.inFlight.all (fun f => f.origin.isNone) = true →
    Completes (.forwardedCommandRx origin tag dmaOk .nop) s fun t =>
      t.outbox = Out.message (headstockBond s) .control "FORWARD_RESULT" [(origin : Int), (tag : Int), 0, (position s : Int)] :: s.outbox
        ∧ t.queue.inFlight = s.queue.inFlight ∧ Reporting s t) ∧
  (∀ origin tag dmaOk c s, s.module.mode ≠ .off → Config.maxInFlight ≤ s.queue.inFlight.length →
    Completes (.forwardedCommandRx origin tag dmaOk c) s fun t =>
      t.outbox = Out.message (headstockBond s) .control "FORWARD_RESULT" [(origin : Int), (tag : Int), 0x0200, (position s : Int)] :: s.outbox
        ∧ Reporting s t) ∧
  (∀ tag pos status tk target r s, mainUp s = true → mapGet s.queue.forwards tag = some (tk, target) →
    tk.kind ≠ 0 → tk.kind ≠ 0x0C01 → tk.kind ≠ 0x0C02 → tk.kind ≠ 0x0C07 → tk.origin = none → tk.quiet = false →
    s.host.attached = true → s.queue.detaching = none → cplRingOf s tk.ring = some r →
    Completes (.forwardedResultRx tag pos status [] []) s fun t =>
      mapGet t.queue.forwards tag = none
        ∧ (Published r { ticket := tk, status := status, position := pos, forwarded := true, result := resultOf tk status [] } t)
        ∧ Reporting s t) ∧
  (∀ tag tk r s, (s.queue.inFlight.find? fun f => f.tag = tag && f.origin.isNone && f.buf != 0) = some tk → s.host.attached = true →
    s.queue.detaching = none → cplRingOf s tk.ring = some r →
    Completes (.hostCompletionTimeout tag) s fun t =>
      (Published r { ticket := tk, status := 0x0500, position := position s, forwarded := false,
                     result := [it 8 (Config.failedHostAddr tk.buf)] } t) ∧ t.queue.inFlight = s.queue.inFlight.filter fun f => !sameTicket f tk) ∧
  (∀ s, s.mgmt.restarting = true → s.mgmt.waiting = [] → s.host.attached = false →
    Completes .managementRestartComplete s fun t =>
      t.mgmt.restarting = false ∧ t.mgmt.pairStartNs = some s.time.mono
        ∧ (bankBoots s (Config.restartFacts s.free) s.update.bootPointer = true →
          (s.mgmt.logInSecond = 0 → s.mgmt.logSuppressed = 0 → t.mgmt.logSeq = (s.mgmt.logSeq + 1) % 4294967296)
            ∧ Reporting s { t with free := s.free })) ∧
  (∀ tk r s, s.mgmt.restarting = true → s.mgmt.waiting = [(tk, .mgmtStatus)] →
    stateServes 0x0B00 s = true → s.queue.detaching = none → tk.origin = none → tk.dmaOk = true → tk.quiet = false → s.host.attached = true →
    cplRingOf s tk.ring = some r →
    Completes .managementRestartComplete s fun t =>
      t.mgmt.restarting = false ∧ t.mgmt.waiting = []
        ∧ (bankBoots s (Config.restartFacts s.free) s.update.bootPointer = true →
          ∃ l, Published r { ticket := tk, status := 0, position := position s, forwarded := false, result := l } t))

/-! ## Registers -/

/-- The registers with side effects: RUN set in SETUP puts the module in RUN, or LEAN with a step in force; ATTACH attaches with FRESH and
RESUME and detaches with DETACH; a refused access counts; a read of TIME.NOW_LO latches NOW_HI; a write of 0 by the holder frees a lock;
a write of HOST_DOORBELL empties the slots whose bits are 1 (R6, R23, R24, R272, R273, R294, R295, R395, R399).
Where the manual leaves it open this rests on the model's own choices (log entries 20 and 24). -/
def Obligations.HostRegistersComplete : Prop :=
  (∀ v s, RegOpen hostBar 0x1000 true s → s.module.mode = .setup → s.host.run = false → v.getLsbD 0 = true →
    Completes (.hostRun v) s fun t =>
      t.host.run = true ∧ t.module.mode = (if s.mgmt.step = 0 then .run else .lean)) ∧
  (∀ table s, RegOpen hostBar 0x1014 true s → s.host.attached = false → tableOk table = true → tableAddrOf s % 4096 = 0 →
    tableAddrOf s ≠ 0 →
    Completes (.attachFresh (some table)) s fun t =>
      t.host.attached = true ∧ t.host.resumable = false ∧ t.host.table = some table ∧ t.host.tableAddr = tableAddrOf s
        ∧ t.host.cmdProd = [] ∧ t.host.cmdCons = [] ∧ t.host.cplProd = [] ∧ t.host.cplCons = [] ∧ t.host.evtCons = []
        ∧ t.queue.retained = []) ∧
  (∀ s, RegOpen hostBar 0x1014 true s → s.host.attached = false → s.host.resumable = true → tableAddrOf s = s.host.tableAddr →
    Completes .attachResume s fun t =>
      t.host.attached = true ∧ t.host.table = s.host.table ∧ t.host.cmdCons = s.host.cmdCons ∧ t.host.cmdProd = s.host.cmdProd
        ∧ t.queue.retained = [] ∧ Reporting s t) ∧
  (∀ s, RegOpen hostBar 0x1014 true s → s.host.attached = true →
    Completes .attachDetach s fun t =>
      t = { s with
            host := { s.host with attached := false, resumable := true, detachCause := 6, detachWallNs := s.time.wall } }) ∧
  (∀ write s, bar0Up s = true →
    Completes (.badAccess write) s fun t =>
      t.host = { s.host with badAccess := (s.host.badAccess + 1) % 4294967296 }
        ∧ t.outbox = (if write then [] else [Out.readData 0]) ++ s.outbox ∧ Reporting s t) ∧
  (∀ s, RegOpen hostBar 0x4010 false s →
    Completes .timeNowRead s fun t =>
      t = { s with
            outbox := Out.readData (BitVec.ofNat 32 s.time.wall) :: s.outbox,
            time := { s.time with nowHi := s.time.wall / 4294967296 % 4294967296 } }) ∧
  (∀ lock who s, lock < 64 → RegOpen who (0x28000 + 4 * lock) true s →
    mapGet s.mbx.locks lock = some (who.cls * 512 + who.index) →
    Completes (.lockWrite lock who 0) s fun t =>
      mapGet t.mbx.locks lock = none ∧ t = { s with mbx := { s.mbx with locks := t.mbx.locks } }) ∧
  (∀ v s, RegOpen hostBar 0x20800 true s →
    Completes (.mbxDoorbellClear v) s fun t =>
      ∀ i < 32, mapGet t.mbx.slots (33 * 32 + i) =
        (mapGet s.mbx.slots (33 * 32 + i)).map fun x =>
          if v.getLsbD i then { x with full := false, collision := false, senderReset := false } else x)

/-- DRAMC.MAP in SETUP with no object in module DRAM takes effect and clears MAP_REFUSED, and after a change the contents are
undefined and the scrub restarts; REGISTER_WRITE sets the fields of the register it names, whether read-write or run-locked with RUN
clear; and a run-locked register ignores the write while RUN is set, which is counted with its offset (R8, R273, R371).
Where the manual leaves it open this rests on the model's own choices (log entry 24). -/
def Obligations.RegisterWritesSetFields : Prop :=
  (∀ v s, RegOpen hostBar 0x10000 true s → s.host.run = false → s.module.mode = .setup → noRegion s = true →
    Completes (.dramcMapWrite v) s fun t =>
      t.mem.mapFixed = v.getLsbD 0 ∧ t.mem.hashEn = v.getLsbD 1 ∧ t.mem.grainLog2 = v.toNat / 256 % 16 ∧ t.mem.mapRefused = false
        ∧ ((t.mem.mapFixed, t.mem.hashEn, t.mem.grainLog2) ≠ (s.mem.mapFixed, s.mem.hashEn, s.mem.grainLog2) →
          t.mem.cells = [] ∧ t.mem.epoch = s.mem.epoch + 1 ∧ t.mem.scrubPos = 0)) ∧
  (∀ v s, RegOpen hostBar 0x1004 true s → s.host.run = false →
    Completes (.registerWrite 0x1004 v) s fun t => t = { s with host := { s.host with pollNs := v.toNat } }) ∧
  (∀ v s, RegOpen hostBar 0x100C true s →
    Completes (.registerWrite 0x100C v) s fun t => t = { s with host := { s.host with tableLo := v.toNat } }) ∧
  (∀ v s, RegOpen hostBar 0x2000 true s → s.host.run = false →
    Completes (.registerWrite 0x2000 v) s fun t => t = { s with mgmt := { s.mgmt with wdtMs := v.toNat % 65536 } }) ∧
  (∀ v s, RegOpen hostBar 0x3000 true s → s.host.run = false →
    Completes (.registerWrite 0x3000 v) s fun t => t = { s with gates := { s.gates with debugEn := v.getLsbD 0 } }) ∧
  (∀ v s, RegOpen hostBar 0x4008 true s → s.host.run = false →
    Completes (.registerWrite 0x4008 v) s fun t => t = { s with time := { s.time with lockThresh := v.toNat % 65536 } }) ∧
  (∀ v s, RegOpen hostBar 0x8018 true s →
    Completes (.registerWrite 0x8018 v) s fun t => t = { s with link := { s.link with cntSel := v.toNat % 32 } }) ∧
  (∀ v s, RegOpen hostBar 0x20804 true s →
    Completes (.registerWrite 0x20804 v) s fun t => t = { s with mbx := { s.mbx with hostMask := v.toNat } }) ∧
  (∀ o v s, o % 4 = 0 → o < 0x30000 → runLocked o = true → bar0Up s = true → blockDead o s = false → s.host.run = true →
    Completes (.registerWrite o v) s fun t =>
      t.host.lockViolations = (s.host.lockViolations + 1) % 4294967296 ∧ t.host.lastViolation = o ∧ Reporting s t)

/-! ## The host port, pages and events -/

/-- PERST#, a function level reset, D3hot, the clearing of Bus Master Enable and a link that goes down detach the host, each with its
cause and the wall time, and leave all else but the port as it is; the doorbell page shows new producer indices; the status page carries
every index and the heartbeat; a pulse follows a published record with its attention bit; a queued event goes to its ring once that has
room (R270, R279, R280, R286, R290, R294).
Where the manual leaves it open this rests on the model's own choices (log entries 3 and 20). -/
def Obligations.HostPortEventsComplete : Prop :=
  (∀ s, s.host.attached = true →
    Completes .perst s fun t =>
      t = { s with
            host := { s.host with
              attached := false, resumable := true, detachCause := 2, detachWallNs := s.time.wall, linkSpeed := 0, linkWidth := 0 } }) ∧
  (∀ s, s.host.attached = true →
    Completes .functionLevelReset s fun t =>
      t = { s with host := { s.host with attached := false, resumable := true, detachCause := 2, detachWallNs := s.time.wall } }) ∧
  (∀ s, s.host.attached = true →
    Completes .d3hotEntry s fun t =>
      t = { s with host := { s.host with attached := false, resumable := true, detachCause := 3, detachWallNs := s.time.wall } }) ∧
  (∀ s, s.host.attached = true →
    Completes .busMasterClear s fun t =>
      t = { s with host := { s.host with attached := false, resumable := true, detachCause := 4, detachWallNs := s.time.wall } }) ∧
  (∀ speed width s, mainUp s = true → s.host.attached = true →
    Completes (.hostLink false speed width) s fun t =>
      t.host = { s.host with
          attached := false, resumable := true, detachCause := 1, detachWallNs := s.time.wall, linkSpeed := 0, linkWidth := 0 }
        ∧ Reporting s t) ∧
  (∀ speed width s, mainUp s = true → s.host.attached = false →
    Completes (.hostLink true speed width) s fun t =>
      t.host = { s.host with linkSpeed := speed, linkWidth := width } ∧ Reporting s t) ∧
  (∀ v s, s.host.attached = true → busy s = false → s.host.stoppedCmd.contains 0 = false →
    (∀ e, cmdEntry s 0 = some e → sub32 v (mapGetD s.host.cmdCons 0 0) ≤ 2 ^ e.sizeLog2) → (cmdEntry s 0).isSome = true →
    Completes (.doorbellPoll [v] [] [] true) s fun t =>
      mapGet t.host.cmdProd 0 = some (v % 4294967296) ∧ t = { s with host := { s.host with cmdProd := t.host.cmdProd } }) ∧
  (∀ s, s.host.attached = true →
    Completes .statusPageWrite s fun t =>
      t.queue.heartbeat = (s.queue.heartbeat + 1) % 4294967296 ∧ t.queue.pageDirty = false
        ∧ t.outbox = Out.statusPage (indices s.host.cmdCons 16) (indices s.host.cplProd 16) (indices s.host.evtProd 8) s.time.wall
            t.queue.heartbeat (identState s) (s.queue.eventsLost % 4294967296) s.queue.inFlight.length
            (pageBytes (indices s.host.cmdCons 16) (indices s.host.cplProd 16) (indices s.host.evtProd 8) s.time.wall
              t.queue.heartbeat (identState s) (s.queue.eventsLost % 4294967296) s.queue.inFlight.length) :: s.outbox
        ∧ t.host = s.host ∧ Reporting s t) ∧
  (∀ s, s.host.attached = true → busy s = false → s.host.attnEnable = true → s.queue.attnPublished = true →
    (∀ p, s.queue.lastPulseNs = some p → p + (if s.host.attnHoldoffUs < 10 then 10 else s.host.attnHoldoffUs) * 1000 ≤ s.time.mono) →
    Completes .attentionPulse s fun t =>
      t.outbox = Out.attentionPulse :: s.outbox ∧ t.queue.attnPublished = false ∧ t.queue.lastPulseNs = some s.time.mono
        ∧ t.host = s.host ∧ Reporting s t) ∧
  (∀ e r s, s.host.attached = true → s.mgmt.restarting = false → s.queue.lostUntold = 0 → s.queue.events = [e] →
    evtRing s e.code = some r → evtRoom s r (evtRecords e.items) = true →
    Completes .eventQueueDrain s fun t =>
      t.queue.events = [] ∧ (∃ i ph a l, t.outbox = Out.event r i ph a e l :: s.outbox)
        ∧ mapGet t.host.evtProd r = some ((mapGetD s.host.evtProd r 0 + evtRecords e.items) % 4294967296) ∧ Reporting s t)

/-! ## The ledger -/

/-- LEDGER_DEFINE creates the entry its descriptor gives, LEDGER_SET changes class, intervals and static_design, LEDGER_DELETE returns
the entry to FREE, LEDGER_READ copies the entries in the layout of R109 and changes nothing (R108 to R110).
Where the manual leaves it open this rests on the model's own choices (log entries 4 and 15). -/
def Obligations.LedgerEntriesAreSet : Prop :=
  (∀ d b s, Executes d (.ledgerDefine b) s → ledgerDefineCheck b s = 0 →
    Completes (.ledgerDefine d b) s fun t =>
      (entryOf t b.source).kind = kindOfValue b.kind ∧ (entryOf t b.source).cls = b.cls ∧ (entryOf t b.source).expectUs = b.expectUs
        ∧ (entryOf t b.source).staleMs = b.staleMs ∧ (entryOf t b.source).parent = b.parent ∧ (entryOf t b.source).field = b.field
        ∧ (b.kind = 2 → (entryOf t b.source).state = .unknown) ∧ (b.kind = 3 → (entryOf t b.source).state = .live)
        ∧ (b.kind = 5 → (entryOf t b.source).state = .test)
        ∧ Reports d (.ledgerDefine b) 0 [] s t ∧ OnlyLedger s t) ∧
  (∀ d b s, Executes d (.ledgerSet b) s → ledgerSetCheck b s = 0 →
    Completes (.ledgerSet d b) s fun t =>
      (entryOf t b.source).cls = b.cls ∧ (entryOf t b.source).expectUs = b.expectUs ∧ (entryOf t b.source).lossMs = b.lossMs
        ∧ (entryOf t b.source).staleMs = b.staleMs ∧ (entryOf t b.source).staticDesign = b.staticDesign
        ∧ Reports d (.ledgerSet b) 0 [] s t) ∧
  (∀ d k s, Executes d (.ledgerDelete k) s → ledgerDeleteCheck k s = 0 →
    Completes (.ledgerDelete d k) s fun t =>
      (entryOf t k).kind = .free ∧ Reports d (.ledgerDelete k) 0 [] s t ∧ OnlyLedger s t) ∧
  (∀ d first count s, Executes d (.ledgerRead first count) s → first + count ≤ 8192 → d.dmaOk = true →
    Completes (.ledgerRead d first count) s fun t =>
      Delivers d (itemBytes ((List.range count).flatMap fun i => entryItems s (first + i))) t
        ∧ Reports d (.ledgerRead first count) 0 [] s t ∧ Reporting s t)

/-- LEDGER_WITHDRAW makes a source WITHDRAWN and ends that condition in UNKNOWN; LEDGER_TEST makes it TEST; an accepted vouch is a
receipt, in a command of its own or in a batch; LEDGER_PROBE sets the probe. A LIVE source is LATE after twice its interval, a LIVE or LATE
one is STALE beyond its bound, a NETWORK source is LOST without a packet for loss_ms and its verdict update is sent; the summary and the
probe comparison (R111 to R113, R121 to R124, R128, R131).
Where the manual leaves it open this rests on the model's own choices (log entries 3, 4, 15 and 16). -/
def Obligations.SourcesChangeState : Prop :=
  (∀ d k s, Executes d (.ledgerWithdraw k true) s → stateCommandCheck k s = 0 →
    Completes (.ledgerWithdraw d k true) s fun t =>
      (entryOf t k).withdrawn = true ∧ (entryOf t k).state = .withdrawn ∧ Reports d (.ledgerWithdraw k true) 0 [] s t
        ∧ OnlyLedger s t) ∧
  (∀ d k s, Executes d (.ledgerWithdraw k false) s → stateCommandCheck k s = 0 →
    Completes (.ledgerWithdraw d k false) s fun t =>
      (entryOf t k).withdrawn = false ∧ ((entryOf s k).withdrawn = true → (entryOf t k).unknownLatch = true)
        ∧ Reports d (.ledgerWithdraw k false) 0 [] s t ∧ OnlyLedger s t) ∧
  (∀ d k on s, Executes d (.ledgerTest k on) s → stateCommandCheck k s = 0 →
    Completes (.ledgerTest d k on) s fun t =>
      (entryOf t k).cmdTest = on
        ∧ (on = true → (entryOf s k).kind ≠ .derived → (entryOf s k).withdrawn = false → (entryOf t k).state = .test)
        ∧ Reports d (.ledgerTest k on) 0 [] s t ∧ OnlyLedger s t) ∧
  (∀ d b u s, Executes d (.ledgerVouch b) s → b.source < 8192 → (entryOf s b.source).kind = .hostFed → b.uNs ≤ b.asOfNs →
    uE6 s = some u → b.asOfNs ≤ s.time.wall + b.uNs →
    (entryOf s b.source).originNs - ((entryOf s b.source).uSrcNs : Int) ≤ (b.asOfNs : Int) - (b.uNs : Int) →
    Completes (.ledgerVouch d b) s fun t =>
      (entryOf t b.source).originNs = (b.asOfNs : Int) ∧ (entryOf t b.source).uSrcNs = b.uNs
        ∧ (entryOf t b.source).rxNs = s.time.wall ∧ (entryOf t b.source).rxTest = b.test ∧ (entryOf t b.source).rxFrozen = b.frozen
        ∧ ((entryOf s b.source).withdrawn = false → (entryOf s b.source).cmdTest = false → (entryOf s b.source).shedLatch = false →
          b.test = false → b.frozen = false →
          ((s.time.wall : Int) - b.asOfNs + b.uNs) * 1000000 + u ≤ ((entryOf s b.source).staleMs : Int) * 1000000000000 →
          (entryOf t b.source).state = .live)
        ∧ Reports d (.ledgerVouch b) 0 [] s t ∧ OnlyLedger s t) ∧
  (∀ d count l s, Executes d (.ledgerVouchBatch count l) s → 1 ≤ count → count ≤ 1024 → l.length = count → d.dmaOk = true →
    Completes (.ledgerVouchBatch d count l) s fun t =>
      let u := take d (ticketOf d 0x0405 s) s
      let r := applyVouches l (0, 0, 0) u
      t.ledger = r.2.ledger ∧ r.1.1 + r.1.2.1 = count
        ∧ Reports d (.ledgerVouchBatch count l) (if r.1.1 = 0 then r.1.2.2 else 0) [it 4 r.1.1, it 4 r.1.2.1] s t ∧ OnlyLedger s t) ∧
  (∀ d k enable freezeK freezeSad s, Executes d (.ledgerProbe k enable freezeK freezeSad) s →
    ledgerProbeCheck k enable freezeK freezeSad s = 0 →
    Completes (.ledgerProbe d k enable freezeK freezeSad) s fun t =>
      (entryOf t k).probeEn = decide (enable = 1) ∧ (entryOf t k).freezeK = freezeK ∧ (entryOf t k).freezeSad = freezeSad
        ∧ Reports d (.ledgerProbe k enable freezeK freezeSad) 0 [] s t ∧ OnlyLedger s t) ∧
  (∀ k s, (entryOf s k).received = true → (entryOf s k).kind = .network ∨ (entryOf s k).kind = .hostFed →
    2 * (entryOf s k).expectUs * 1000 + (entryOf s k).rxNs < s.time.wall → ownState (entryOf s k) = .live → (entryOf s k).state = .live →
    Completes (.lateTimer k) s fun t =>
      (entryOf t k).state = .late ∧ (entryOf t k).cause = .lateTimer ∧ (entryOf t k).stateNs = s.time.wall ∧ OnlyLedger s t) ∧
  (∀ k u s, (entryOf s k).received = true → (entryOf s k).kind = .network ∨ (entryOf s k).kind = .hostFed → uE6 s = some u →
    ((entryOf s k).staleMs : Int) * 1000000000000
      < ((s.time.wall : Int) - (entryOf s k).originNs + (entryOf s k).uSrcNs) * 1000000 + u →
    ownState (entryOf s k) = .live ∨ ownState (entryOf s k) = .late →
    Completes (.staleTimer k) s fun t => (entryOf t k).state = .stale ∧ OnlyLedger s t) ∧
  (∀ k s, (entryOf s k).kind = .network → (entryOf s k).pktNs + (entryOf s k).lossMs * 1000000 ≤ s.time.wall →
    (entryOf s k).withdrawn = false → (entryOf s k).cmdTest = false → (entryOf s k).rxTest = false → (entryOf s k).shedLatch = false →
    Completes (.lossTimer k) s fun t =>
      (entryOf t k).state = .lost
        ∧ (verdictOf (entryOf s k) = true → Out.verdict .toTailstock ((s.ledger.seqOwn + 1) % 65536) [(k, false)] ∈ t.outbox)
        ∧ OnlyLedger s t) ∧
  (∀ k s, 0 < (entryOf s k).unreported → (entryOf s k).second < s.time.wall / 1000000000 →
    Completes (.ledgerStateSummary k) s fun t =>
      (entryOf t k).unreported = 0 ∧ mapGet t.queue.seqs (65536 + k) = some ((mapGetD s.queue.seqs (65536 + k) 0 + 1) % 4294967296)
        ∧ OnlyLedger s t) ∧
  (∀ k l n rest s, (entryOf s k).kind = .network → (entryOf s k).probeLast = some l → (entryOf s k).probeNext = n :: rest →
    mapHas s.record.tests (entryOf s k).probePipe = false → l.width = n.width →
    l.height = n.height → l.concealed = false → n.concealed = false →
    Completes (.probeCompareDone k) s fun t =>
      (entryOf t k).probeLast = some n ∧ (entryOf t k).probeNext = rest
        ∧ (entryOf t k).sadRepeat = (if sad l.samples n.samples ≤ (entryOf s k).freezeSad
            then (if (entryOf s k).sadRepeat < 255 then (entryOf s k).sadRepeat + 1 else 255) else 0)
        ∧ OnlyLedger s t) ∧
  (∀ s, mainUp s = true → s.cascade.twinUp = false →
    Completes .wholeBitmapSend s fun t =>
      t.outbox = Out.wholeBitmap .toTailstock s.ledger.seqOwn (BitVec.ofNat 8192 (wholeBitmap s)) :: s.outbox
        ∧ t.ledger = { s.ledger with wholeSent := true } ∧ OnlyLedger s t)

/-- The whole bitmap that the ledger sends holds the verdict of every source: bit k is that of source k. The first after a reset shows
the INTERNAL sources alone as live (R30, R129, R130).
Where the manual leaves it open this rests on the model's own choices (log entry 3). -/
def Obligations.WholeBitmapHoldsEveryVerdict : Prop :=
  ∀ (k : Nat) (s : State), mapSorted s.ledger.entries = true → (∀ p ∈ s.ledger.entries, p.1 < 8192) → k < 8192 →
    (s.ledger.wholeSent = true → (BitVec.ofNat 8192 (wholeBitmap s)).getLsbD k = verdictOf (entryOf s k)) ∧
    (s.ledger.wholeSent = false → (BitVec.ofNat 8192 (wholeBitmap s)).getLsbD k = decide ((entryOf s k).kind = .internal))

/-- An INTERNAL source is always LIVE and its verdict live, a TEST source always TEST, a FREE entry always UNKNOWN, whatever else their
entries and their parents' hold (R115, R29). -/
def Obligations.KindsFixTheirStates : Prop :=
  ∀ (k : Nat) (e : Entry) (cause : Cause) (s : State),
    (e.kind = .internal → (entryOf (writeEntry k e cause s) k).state = .live ∧ verdictOf (entryOf (writeEntry k e cause s) k) = true) ∧
    (e.kind = .test → (entryOf (writeEntry k e cause s) k).state = .test ∧ verdictOf (entryOf (writeEntry k e cause s) k) = false) ∧
    (e.kind = .free → (entryOf (writeEntry k e cause s) k).state = .unknown ∧ verdictOf (entryOf (writeEntry k e cause s) k) = false)

/-! ## Network ingest -/

/-- PORT_CONFIGURE sets the interface its descriptor names, and with lane 0 the port's mode; optics and links report; queries and requests
on the interface's own addresses are answered. PROXY_OPEN opens a proxy stream, stopped while step 2 of the ladder is in force, PROXY_CLOSE
ends it; a decoded frame of a source whose verdict is live is sent at the interface, in packets numbered on, and one of a source whose
verdict is not live is not (R51, R52, R72 to R74, R77).
Where the manual leaves it open this rests on the model's own choices (log entries 15, 29, 30, 33, 89 and 90). -/
def Obligations.PortsAndProxiesAreServed : Prop :=
  (∀ d b s, Executes d (.portConfigure b) s → portConfigureCheck b s = 0 →
    Completes (.portConfigure d b) s fun t =>
      (portOf t b.port).mode = (if b.lane = 0 then b.mode else (portOf s b.port).mode)
        ∧ mapGet (portOf t b.port).lanes b.lane = some (laneOf b (mapGetD (portOf s b.port).lanes b.lane Lane.init))
        ∧ (∀ p, p ≠ b.port → mapGet t.ingest.ports p = mapGet s.ingest.ports p)
        ∧ t.ingest = { s.ingest with ports := t.ingest.ports }
        ∧ Reports d (.portConfigure b) 0 [] s t ∧ Reporting s { t with ingest := s.ingest }) ∧
  (∀ port what alarms id s, mainUp s = true → port ≤ 5 → what ≤ 2 →
    Completes (.opticsChange port what ⟨alarms, id⟩) s fun t =>
      (portOf t port).opticsIn = (if what = 0 then true else if what = 1 then false else (portOf s port).opticsIn)
        ∧ (what = 0 → (portOf t port).opticsId = id)
        ∧ (what = 2 → (portOf t port).opticsAlarms = alarms)
        ∧ Raises 0x0284 .port port [it 1 what, it 4 alarms] s t ∧ Reporting s { t with ingest := s.ingest }) ∧
  (∀ port lane up l s, mainUp s = true → port ≤ 5 → ingestLane s port lane = some l →
    Completes (.portLink port lane up) s fun t =>
      ingestLane t port lane = some { l with linkUp := up } ∧ Raises 0x0283 .port port [it 1 lane, it 1 (flag up)] s t
        ∧ Reporting s { t with ingest := s.ingest }) ∧
  (∀ port lane mld s, mainUp s = true → (ingestLane s port lane).isSome = true →
    (∃ x ∈ mapVals s.ingest.streams, ∃ l ∈ x.legs,
      l.leg.port = port ∧ l.leg.lane = lane ∧ l.leg.ipv6 = mld ∧ isMulticast mld l.leg.group = true) →
    Completes (.queryRx port lane mld) s fun t =>
      (∃ fields, t.outbox = Out.packet port lane (if mld then "MLD_REPORT" else "IGMP_REPORT") fields :: s.outbox
        ∧ ∀ x ∈ mapVals s.ingest.streams, ∀ l ∈ x.legs,
          l.leg.port = port → l.leg.lane = lane → l.leg.ipv6 = mld → isMulticast mld l.leg.group = true → (l.leg.group : Int) ∈ fields)
        ∧ t = { s with outbox := t.outbox }) ∧
  (∀ port lane kind address l s, port < 6 → mainUp s = true → kind ≤ 3 → ingestLane s port lane = some l →
    (if kind = 1 ∨ kind = 3 then l.ipv6En = true ∧ l.ipv6 = address else l.ipv4En = true ∧ l.ipv4 = address) →
    Completes (.neighbourRequestRx port lane kind address) s fun t =>
      t = { s with outbox := Out.packet port lane (answerName kind) [(address : Int)] :: s.outbox }) ∧
  (∀ d b s, Executes d (.proxyOpen b) s → proxyOpenCheck b s = 0 →
    Completes (.proxyOpen d b) s fun t =>
      mapGet t.ingest.proxies b.source
          = some { body := b, sending := decide (s.mgmt.step < 2), seq := 0, queue := [] }
        ∧ (∀ k, k ≠ b.source → mapGet t.ingest.proxies k = mapGet s.ingest.proxies k)
        ∧ t.ingest = { s.ingest with proxies := t.ingest.proxies }
        ∧ Reports d (.proxyOpen b) 0 [] s t ∧ Reporting s { t with ingest := s.ingest }) ∧
  (∀ d k p s, Executes d (.proxyClose k) s → mapGet s.ingest.proxies k = some p →
    Completes (.proxyClose d k) s fun t =>
      mapGet t.ingest.proxies k = none ∧ t.ingest = { s.ingest with proxies := t.ingest.proxies }
        ∧ Reports d (.proxyClose k) 0 [] s t ∧ Reporting s { t with ingest := s.ingest }) ∧
  (∀ k p f rest l u s, mapGet s.ingest.proxies k = some p → p.queue = f :: rest → uNs s = some u →
    ingestLane s p.body.port p.body.lane = some l → p.sending = true → s.mgmt.step < 2 → mainUp s = true →
    verdictOf (entryOf s k) = true →
    Completes (.proxyFrameSend k) s fun t =>
      t.outbox = ((proxyFrame p.body p.seq u f).map fun m =>
          Out.datagram p.body.port p.body.lane l.vlan l.pcp p.body.dscp p.body.ipv6 (laneAddress l p.body.ipv6) p.body.group
            p.body.udpPort m).reverse ++ s.outbox
        ∧ mapGet t.ingest.proxies k = some { p with seq := (p.seq + (proxyRuns f).length) % 4294967296, queue := rest }
        ∧ t = { s with outbox := t.outbox, ingest := { s.ingest with proxies := t.ingest.proxies } }) ∧
  (∀ k p f rest s, mapGet s.ingest.proxies k = some p → p.queue = f :: rest → verdictOf (entryOf s k) = false →
    Completes (.proxyFrameSend k) s fun t =>
      mapGet t.ingest.proxies k = some { p with queue := rest }
        ∧ t = { s with ingest := { s.ingest with proxies := t.ingest.proxies } })

/-- INGEST_OPEN opens the stream on the engine of lowest load, gives the source a NETWORK entry in UNKNOWN and joins its multicast
groups; INGEST_COUNTERS delivers the counters; INGEST_CLOSE stops reception, and at the end of the drain the stream is gone, its region
guarded, its source LOST or WITHDRAWN; the region is free once no layer scans it (R60 to R63, R75, R76, R110, R113).
Where the manual leaves it open this rests on the model's own choices (log entries 15, 16, 30 and 89). -/
def Obligations.StreamsOpenAndClose : Prop :=
  (∀ d b e s, Executes d (.ingestOpen b) s → d.dmaOk = true → ingestOpenCheck b s = 0 → placeEngine s b.params = some e →
    Completes (.ingestOpen d b) s fun t =>
      mapGet t.ingest.streams b.source = some (newStream b e s.time.mono)
        ∧ (∀ k, k ≠ b.source → mapGet t.ingest.streams k = mapGet s.ingest.streams k)
        ∧ (entryOf t b.source).kind = .network ∧ (entryOf t b.source).unknownLatch = true ∧ (entryOf t b.source).received = false
        ∧ (entryOf t b.source).expectUs = ceilDiv (1000000 * b.params.rateDen) b.params.rateNum
        ∧ (∀ l ∈ legsOf b.params, isMulticast l.ipv6 l.group = true →
          Out.packet l.port l.lane "JOIN" [(l.group : Int), (l.source : Int)] ∈ t.outbox)
        ∧ streamCtx b.source (newStream b e s.time.mono) ∈ t.gates.contexts
        ∧ Reports d (.ingestOpen b) 0 [] s t) ∧
  (∀ d k x s, Executes d (.ingestCounters k) s → d.dmaOk = true → mapGet s.ingest.streams k = some x →
    Completes (.ingestCounters d k) s fun t =>
      Delivers d (recordBytes 256 (counterItems x)) t ∧ Reports d (.ingestCounters k) 0 [] s t ∧ Reporting s t) ∧
  (∀ d k abort x s, Executes d (.ingestClose k abort) s → mapGet s.ingest.streams k = some x → x.closing = none →
    mapGet s.decode.attached k = none →
    Completes (.ingestClose d k abort) s fun t =>
      mapGet t.ingest.streams k = some
          { x with
            closing := some (ticketOf d 0x0202 s),
            discarded := x.discarded || !x.open_.isEmpty || (abort && !x.units.isEmpty),
            closeAbort := abort, open_ := [], units := if abort then [] else x.units }
        ∧ ticketOf d 0x0202 s ∈ t.queue.inFlight ∧ Reporting s { t with ingest := s.ingest }) ∧
  (∀ k x tk r s, mapGet s.ingest.streams k = some x → x.closing = some tk → mapGet s.decode.attached k = none →
    (entryOf s k).kind = .network → tk.origin = none → tk.quiet = false → s.host.attached = true → cplRingOf s tk.ring = some r →
    Completes (.ingestCloseComplete k) s fun t =>
      mapGet t.ingest.streams k = none ∧ mapGet t.ingest.guards x.regionBase = some (x.regionSize, k)
        ∧ (if x.discarded || x.closeAbort then (entryOf t k).lostLatch = true else (entryOf t k).withdrawn = true)
        ∧ (Published r { ticket := tk, status := 0, position := position s, forwarded := false, result := [it 1 (flag x.discarded)] } t)
        ∧ OnlyLedger s { t with ingest := s.ingest }) ∧
  (∀ base size k s, mapGet s.ingest.guards base = some (size, k) → scansBase s base = false →
    contextHeld s (.ingest k base) = false →
    Completes (.ingestReleased base) s fun t =>
      mapGet t.ingest.guards base = none ∧ mapGet t.ingest.closed base = none ∧ t.ingest.streams = s.ingest.streams
        ∧ (∀ c ∈ t.gates.contexts, c.ctx ≠ .ingest k base)
        ∧ Raises 0x028D .source k [it 8 base] s t ∧ Reporting s { t with ingest := s.ingest, gates := s.gates })

/-- A packet that its interface accepts for an open stream counts on its leg: with a wrong SSRC as a mismatch alone; of another format as
FORMAT_MISMATCH alone; a
repeated one as a duplicate; else it joins the frame of its timestamp, which may open with it. A frame whose deadline has come closes:
incomplete, it is discarded and counted; complete, it is delivered to a free slot. Reports of a sender are kept; a leg is silent after
100 ms (R55, R64, R65, R68, R70, R77).
Where the manual leaves it open this rests on the model's own choices (log entries 3, 31 and 89). -/
def Obligations.PacketsMakeFrames : Prop :=
  (∀ p ln k x i l s, ingestRuns s = true → ingestLane s p.port p.lane = some ln → laneTakes ln p = true → streamOf s p = some (k, x, i) →
    mapGet s.ingest.streams k = some x → x.closing = none → x.stopped = false → x.legs[i]? = some l → l.leg.checkSsrc = true →
    p.ssrc ≠ l.leg.ssrc →
    Completes (.rtpPacketRx p) s fun t =>
      (∃ y, mapGet t.ingest.streams k = some y ∧ y.legs[i]? = some { l with ssrcMismatch := l.ssrcMismatch + 1 }
        ∧ y = { x with legs := y.legs })
        ∧ t = { s with ingest := t.ingest }) ∧
  (∀ p ln k x i l c s, ingestRuns s = true → ingestLane s p.port p.lane = some ln → laneTakes ln p = true → streamOf s p = some (k, x, i) →
    mapGet s.ingest.streams k = some x → x.closing = none → x.stopped = false → x.legs[i]? = some l →
    (l.leg.checkSsrc = true → p.ssrc = l.leg.ssrc) → mismatch x.params p = some c →
    Completes (.rtpPacketRx p) s fun t =>
      (mapGet s.queue.limiters (limKey 0x028B k c) = none → Raises 0x028B .source k [it 1 c, it 4 1] s t) ∧ Reporting s t) ∧
  (∀ p ln k x i l s, ingestRuns s = true → ingestLane s p.port p.lane = some ln → laneTakes ln p = true → streamOf s p = some (k, x, i) →
    mapGet s.ingest.streams k = some x → x.closing = none → x.stopped = false → x.legs[i]? = some l →
    (l.leg.checkSsrc = true → p.ssrc = l.leg.ssrc) → mismatch x.params p = none → l.lastExt = some (extendSeq x l p) →
    l.ssrc = some p.ssrc → x.heldSeqs.contains (extendSeq x l p) = true →
    Completes (.rtpPacketRx p) s fun t =>
      (∃ y m, mapGet t.ingest.streams k = some y ∧ y.legs[i]? = some m ∧ m.packets = l.packets + 1 ∧ m.duplicates = l.duplicates + 1
        ∧ m.lastNs = s.time.mono ∧ m.silent = false ∧ y.open_ = x.open_ ∧ y.slots = x.slots ∧ y.units = x.units)
        ∧ (entryOf t k).pktNs = s.time.wall) ∧
  (∀ p ln k x i l s, ingestRuns s = true → ingestLane s p.port p.lane = some ln → laneTakes ln p = true → streamOf s p = some (k, x, i) →
    mapGet s.ingest.streams k = some x → x.closing = none → x.stopped = false → x.legs[i]? = some l →
    (l.leg.checkSsrc = true → p.ssrc = l.leg.ssrc) → mismatch x.params p = none → l.lastExt = none → l.ssrc = none →
    x.heldSeqs = [] → x.open_ = [] → x.closedTs = [] → p.marker = false →
    Completes (.rtpPacketRx p) s fun t =>
      (∃ y m f, mapGet t.ingest.streams k = some y ∧ y.legs[i]? = some m ∧ m.packets = l.packets + 1 ∧ m.ssrc = some p.ssrc
        ∧ m.lastExt = some (extendSeq x l p) ∧ y.open_ = [f] ∧ f.ts = p.ts ∧ f.firstNs = s.time.wall ∧ f.packets = [extendSeq x l p]
        ∧ f.segments.map Prod.snd = p.segments ∧ f.nals.map Prod.snd = p.nals)
        ∧ (entryOf t k).pktNs = s.time.wall) ∧
  (∀ k x f s, ingestRuns s = true → mapGet s.ingest.streams k = some x → x.open_ = [f] → x.params.media = 0 → frameComplete x f = false →
    f.firstMono + (jitterUs x.params * 1000 + (if x.params.legCount = 2 then 50000000 else 0)) ≤ s.time.mono →
    Completes (.frameCloseDeadline k) s fun t =>
      (∃ y, mapGet t.ingest.streams k = some y ∧ y.open_ = [] ∧ y.incomplete = x.incomplete + 1 ∧ y.delivered = x.delivered
        ∧ y.slots = x.slots ∧ y.closedTs.contains f.ts = true)
        ∧ Reporting s { t with ingest := s.ingest }) ∧
  (∀ k x f slot rest s, ingestRuns s = true → mapGet s.ingest.streams k = some x → x.open_ = [f] → x.params.media = 0 → frameComplete x f = true →
    f.firstMono + (jitterUs x.params * 1000 + (if x.params.legCount = 2 then 50000000 else 0)) ≤ s.time.mono →
    let y := { x with open_ := [], closedTs := (f.ts :: x.closedTs).take 64 }
    let u := modStream k (fun _ => y) s
    freeSlots u y = slot :: rest → (writeSegments k y slot (f.segments.map Prod.snd) u).1 = false →
    Completes (.frameCloseDeadline k) s fun t =>
      (∃ z g, mapGet t.ingest.streams k = some z ∧ z.open_ = [] ∧ z.delivered = x.delivered + 1 ∧ z.nextNumber = x.nextNumber + 1
        ∧ z.slots.head? = some g ∧ g.slot = slot ∧ g.number = x.nextNumber ∧ g.origin = (frameOrigin y f).1)
        ∧ t.mem = (writeSegments k y slot (f.segments.map Prod.snd) u).2.mem) ∧
  (∀ port lane ssrc rtp ntp k x s, ingestRuns s = true → mapGet s.ingest.streams k = some x →
    Completes (.senderReportRx port lane ssrc rtp ntp) s fun t =>
      mapGet t.ingest.streams k = some
          (if (x.legs.any fun l => l.leg.port = port && l.leg.lane = lane && (l.ssrc = some ssrc || (l.leg.checkSsrc && l.leg.ssrc = ssrc)))
            then { x with report := some (rtp, ntp) } else x)
        ∧ t = { s with ingest := { s.ingest with streams := t.ingest.streams } }) ∧
  (∀ k leg x l s, mapGet s.ingest.streams k = some x → x.legs[leg]? = some l → l.silent = false → l.lastNs + 100000000 ≤ s.time.mono →
    Completes (.legState k leg) s fun t =>
      (∃ y, mapGet t.ingest.streams k = some y ∧ y.legs[leg]? = some { l with silent := true })
        ∧ Raises 0x0286 .source k [it 1 leg, it 1 0] s t ∧ Reporting s { t with ingest := s.ingest })

/-! ## Decoding -/

/-- DECODE_ATTACH attaches the source to the pipeline placed for it and leaves it UNKNOWN and waiting for an IRAP picture; DECODE_POLICY
sets policy and bound; DECODE_STATUS delivers its record; DECODE_DETACH starts a drain, at whose end the buffer set is guarded and the
source WITHDRAWN; the set is free once no layer scans it (R82, R86, R98, R103, R104, R113).
Where the manual leaves it open this rests on the model's own choices (log entries 15, 16, 34 and 98). -/
def Obligations.AttachmentsStartAndEnd : Prop :=
  (∀ d b p s, Executes d (.decodeAttach b) s → attachCheck b s = 0 → placeAttach b s = (0, p) → (waitingUnits s b.source) = [] →
    (∀ a ∈ onPipe s p, waitingUnits s a.1 = []) →
    Completes (.decodeAttach d b) s fun t =>
      mapGet t.decode.attached b.source = some (newAttach b p)
        ∧ (∀ k, k ≠ b.source → mapGet s.decode.attached k = none → mapGet t.decode.attached k = none)
        ∧ (entryOf t b.source).unknownLatch = true ∧ (entryOf t b.source).concealScorch = decide (b.policy = 1)
        ∧ Reports d (.decodeAttach b) 0 [] s t) ∧
  (∀ d k policy pct a s, Executes d (.decodePolicy k policy pct) s → policy ≤ 1 → pct ≤ 100 → k < 8192 →
    mapGet s.decode.attached k = some a →
    Completes (.decodePolicy d k policy pct) s fun t =>
      mapGet t.decode.attached k = some { a with body := { a.body with policy := policy, maxConcealPct := pct } }
        ∧ (entryOf t k).concealScorch = decide (policy = 1)
        ∧ Reports d (.decodePolicy k policy pct) 0 [] s t ∧ OnlyLedger s { t with decode := s.decode }) ∧
  (∀ d k a s, Executes d (.decodeStatus k) s → d.dmaOk = true → mapGet s.decode.attached k = some a →
    Completes (.decodeStatus d k) s fun t =>
      Delivers d (recordBytes 256 (decodeStatusItems a)) t ∧ Reports d (.decodeStatus k) 0 [] s t ∧ Reporting s t) ∧
  (∀ d k a s, Executes d (.decodeDetach k false) s → mapGet s.decode.attached k = some a →
    Completes (.decodeDetach d k false) s fun t =>
      mapGet t.decode.attached k = some { a with draining := true, detachTickets := a.detachTickets ++ [ticketOf d 0x0301 s] }
        ∧ ticketOf d 0x0301 s ∈ t.queue.inFlight ∧ Reporting s { t with decode := s.decode }) ∧
  (∀ k a tk r s, mapGet s.decode.attached k = some a → a.draining = true → drained s k a = true → a.held = [] → a.byClose = false →
    a.detachTickets = [tk] → tk.origin = none → tk.quiet = false → s.host.attached = true → cplRingOf s tk.ring = some r →
    Completes (.decodeDetachComplete k) s fun t =>
      mapGet t.decode.attached k = none ∧ mapGet t.decode.guards a.body.bufBase = some (a.body.bufSize, k)
        ∧ (entryOf t k).withdrawn = true
        ∧ (Published r { ticket := tk, status := 0, position := position s, forwarded := false, result := [] } t)
        ∧ OnlyLedger s { t with decode := s.decode }) ∧
  (∀ base size k s, mapGet s.decode.guards base = some (size, k) → scansBase s base = false →
    contextHeld s (.decode k base) = false →
    Completes (.decodeReleased base) s fun t =>
      mapGet t.decode.guards base = none ∧ mapGet t.decode.closed base = none ∧ t.decode.attached = s.decode.attached
        ∧ (∀ c ∈ t.gates.contexts, c.ctx ≠ .decode k base)
        ∧ Raises 0x0388 .source k [it 8 base] s t ∧ Reporting s { t with decode := s.decode, gates := s.gates })

/-- The end of an access unit: of an excluded feature, it is counted and told; an IRAP picture whose SPS is beyond the limits of the
attachment leaves the stream waiting; a picture decoded whole, from intact references, is output with its own origin time; one that the
timeout ends is CONCEALED, counted with limit 5, and takes the older origin time. While lag is above 250 ms the waiting units that are no
reference are discarded; above 500 ms everything before the next IRAP picture as well. A self-test takes a pipeline that carries no stream
and tells pass or the first differing picture (R78, R89, R90, R92, R94, R95, R99, R102, R105).
Where the manual leaves it open this rests on the model's own choices (log entries 3, 15, 35, 98, 99 and 100). -/
def Obligations.PicturesAreDecoded : Prop :=
  (∀ p k c a r i fmo x f s, mapGet s.decode.attached k = some a → c.source = k →
    mapGet s.decode.pipelines p = some { current := some c, selftest := none } → pipelineTime s p ≤ maxPipelineNs →
    ppsOf (keepSets a.body.codec r.sets a.sets) r.pps = some (i, fmo) →
    (if isIrap a.body.codec c.unit then spsOf (keepSets a.body.codec r.sets a.sets) i else a.active) = some x →
    excludedFeature a.body.codec x fmo r = some f → (∀ q ∈ onPipe s p, waitingUnits s q.1 = []) →
    Completes (.pictureDecodeEnd p r) s fun t =>
      (pipeOf t p).current = none
        ∧ (∃ b, mapGet t.decode.attached k = some b ∧ b.unsupported = a.unsupported + 1 ∧ b.shown = a.shown ∧ b.output = a.output)
        ∧ Raises 0x0382 .source k [it 1 x.profile, it 1 f] s t) ∧
  (∀ p k c a r i fmo x s, mapGet s.decode.attached k = some a → c.source = k →
    mapGet s.decode.pipelines p = some { current := some c, selftest := none } → pipelineTime s p ≤ maxPipelineNs →
    ppsOf (keepSets a.body.codec r.sets a.sets) r.pps = some (i, fmo) → isIrap a.body.codec c.unit = true →
    spsOf (keepSets a.body.codec r.sets a.sets) i = some x → excludedFeature a.body.codec x fmo r = none → spsLimit a.body x ≠ 0 →
    (∀ q ∈ onPipe s p, waitingUnits s q.1 = []) →
    Completes (.pictureDecodeEnd p r) s fun t =>
      (pipeOf t p).current = none
        ∧ (∃ b, mapGet t.decode.attached k = some b ∧ b.needIrap = true ∧ b.shown = a.shown ∧ b.output = a.output)
        ∧ Raises 0x0383 .source k [it 1 (spsLimit a.body x)] s t) ∧
  (∀ p k c a r i x s, mapGet s.decode.attached k = some a → c.source = k →
    mapGet s.decode.pipelines p = some { current := some c, selftest := none } → pipelineTime s p ≤ maxPipelineNs →
    ppsOf (keepSets a.body.codec r.sets a.sets) r.pps = some (i, false) → isIrap a.body.codec c.unit = false →
    isRasl a.body.codec c.unit = false → a.active = some x → excludedFeature a.body.codec x false r = none →
    c.refused = false → c.poisoned = false → a.held = [] → a.concealing = false → r.refs = [] → r.hash = none → r.output = true →
    x.reorder = 0 → unitLimits a.body.codec c.unit r = [] → 0 < ctuTotal x →
    let run := runSlices a.body.codec x c.unit r none
    let b := { a with sets := keepSets a.body.codec r.sets a.sets }
    let u := modAttach k (fun _ => b) (setPipe p { current := none, selftest := none } s)
    let d : Decoded :=
      { sps := x, run := run, greys := a.greys, coded := a.coded ++ [c.unit.units.filter fun n => !nalSilent a.body.codec n] }
    run.limits = [] → run.corrupt = false → run.area.length = ctuTotal x →
    (writeLines ⟨4, p⟩ (decodeContext a.body) (pictureLines a.body c.slot x (finalSample u b d (previousPicture b r.poc))) u).1 = false →
    (∀ q ∈ onPipe s p, waitingUnits s q.1 = []) →
    Completes (.pictureDecodeEnd p r) s fun t =>
      (pipeOf t p).current = none
        ∧ (∃ b q, mapGet t.decode.attached k = some b ∧ b.output = a.output + 1 ∧ b.concealing = false ∧ b.lastIntact = c.unit.origin
          ∧ b.shown.head? = some q ∧ q.au = c.unit.number ∧ q.slot = c.slot ∧ q.concealed = false ∧ q.origin = c.unit.origin)) ∧
  (∀ p k c a r i x done s, mapGet s.decode.attached k = some a → c.source = k →
    mapGet s.decode.pipelines p = some { current := some c, selftest := none } → maxPipelineNs ≤ pipelineTime s p →
    ppsOf (keepSets a.body.codec r.sets a.sets) r.pps = some (i, false) → isIrap a.body.codec c.unit = false →
    isRasl a.body.codec c.unit = false → a.active = some x → excludedFeature a.body.codec x false r = none →
    c.refused = false → c.poisoned = false → a.held = [] → r.refs = [] → r.hash = none → r.output = true →
    x.reorder = 0 → unitLimits a.body.codec c.unit r = [] → a.body.maxConcealPct = 100 →
    let run := runSlices a.body.codec x c.unit r (some done)
    let b := { a with sets := keepSets a.body.codec r.sets a.sets }
    let u := tellLimits k [5] r.poc (modAttach k (fun _ => b) (setPipe p { current := none, selftest := none } s))
    let d : Decoded :=
      { sps := x, run := run, greys := a.greys, coded := a.coded ++ [c.unit.units.filter fun n => !nalSilent a.body.codec n] }
    run.limits = [5] → run.area ≠ [] → run.area.length < ctuTotal x →
    (writeLines ⟨4, p⟩ (decodeContext a.body) (pictureLines a.body c.slot x (finalSample u b d (previousPicture b r.poc))) u).1 = false →
    (∀ q ∈ onPipe s p, waitingUnits s q.1 = []) →
    Completes (.decodePipelineTimeout p ⟨done, r⟩) s fun t =>
      (pipeOf t p).current = none
        ∧ (∃ b q, mapGet t.decode.attached k = some b ∧ b.output = a.output + 1 ∧ b.concealing = true ∧ b.lastIntact = a.lastIntact
          ∧ b.abandoned = a.abandoned + 1 ∧ b.shown.head? = some q ∧ q.au = c.unit.number ∧ q.concealed = true
          ∧ q.origin = concealedOrigin a.lastIntact c.unit.origin)
        ∧ Raises 0x0385 .source k [it 1 5, it 4 r.poc] s t) ∧
  (∀ k a u rest s, mapGet s.decode.attached k = some a → waitingUnits s k = u :: rest → 500000000 < lagOf s k →
    (pipeOf s a.pipeline).current.isSome = true →
    Completes (.decodeLag k) s fun t =>
      waitingUnits t k = ((u :: rest).dropWhile fun x => !isIrap a.body.codec x).filter (isReference a.body.codec)
        ∧ (∃ b, mapGet t.decode.attached k = some b ∧ b.lagDrops = a.lagDrops + ((u :: rest).length - (waitingUnits t k).length)
          ∧ (isIrap a.body.codec u = false → b.needIrap = true))
        ∧ Reporting s { t with decode := s.decode, ingest := s.ingest }) ∧
  (∀ k a u rest s, mapGet s.decode.attached k = some a → waitingUnits s k = u :: rest → 250000000 < lagOf s k →
    lagOf s k ≤ 500000000 → (pipeOf s a.pipeline).current.isSome = true →
    Completes (.decodeLag k) s fun t =>
      waitingUnits t k = (u :: rest).filter (isReference a.body.codec)
        ∧ Reporting s { t with decode := s.decode, ingest := s.ingest }) ∧
  (∀ d p s, Executes d (.decodeSelftest p) s → p ≤ 7 → (pipeOf s p).selftest = none → onPipe s p = [] →
    Completes (.decodeSelftest d p) s fun t =>
      (pipeOf t p).selftest = some (ticketOf d 0x0304 s) ∧ (pipeOf t p).current = none
        ∧ ticketOf d 0x0304 s ∈ t.queue.inFlight ∧ Reporting s { t with decode := s.decode }) ∧
  (∀ p tk first r s, (pipeOf s p).selftest = some tk → onPipe s p = [] → tk.origin = none → tk.quiet = false →
    s.host.attached = true → cplRingOf s tk.ring = some r →
    Completes (.decodeSelftestDone p first) s fun t =>
      (pipeOf t p).selftest = none
        ∧ (Published r { ticket := tk, status := 0, position := position s, forwarded := false,
                         result := first.elim [it 1 0] fun n => [it 1 1, it 4 n] } t)
        ∧ Reporting s { t with decode := s.decode })

/-! ## Layer composition -/

/-- SURFACE_REGISTER registers a surface with no newest image and its gate context. SURFACE_UPLOAD begins to copy, or waits while its image
is held; when its last byte is written it ends, and with present set its image is newest. SURFACE_READ holds its image until it has read
the last byte, and returns the rectangle's bytes line by line. SURFACE_RETIRE ends what waits, and the surface is gone once no image is held
(R132 to R137, R386).
Where the manual leaves it open this rests on the model's own choices (log entries 38 and 101). -/
def Obligations.SurfacesComplete : Prop :=
  (∀ d b s, Executes d (.surfaceRegister b) s → surfaceRegisterCheck b s = 0 →
    Completes (.surfaceRegister d b) s fun t =>
      mapGet t.compose.surfaces b.surface = some (newSurface b)
        ∧ (∀ k, k ≠ b.surface → mapGet t.compose.surfaces k = mapGet s.compose.surfaces k)
        ∧ surfaceCtx b ∈ t.gates.contexts
        ∧ t.mem = (memForget b.base (surfaceSize b) s).mem
        ∧ Reports d (.surfaceRegister b) 0 [] s t ∧ Reporting s { t with compose := s.compose, gates := s.gates, mem := s.mem }) ∧
  (∀ d b x s, Executes d (.surfaceUpload b) s → d.dmaOk = true → surfaceOf s b.surface = some x → uploadFieldsOk x.body b = true →
    x.waiting = [] → ¬ (x.newest = some b.image ∧ boundInForce s b.surface = true) → imageHeld s b.surface b.image = false →
    Completes (.surfaceUpload d b) s fun t =>
      mapGet t.compose.surfaces b.surface = some { x with active := x.active ++ [(ticketOf d 0x0501 s, b)] }
        ∧ ticketOf d 0x0501 s ∈ t.queue.inFlight ∧ Reporting s { t with compose := s.compose }) ∧
  (∀ d b x s, Executes d (.surfaceUpload b) s → surfaceOf s b.surface = some x → uploadFieldsOk x.body b = true →
    x.waiting = [] → ¬ (x.newest = some b.image ∧ boundInForce s b.surface = true) → imageHeld s b.surface b.image = true →
    b.noWait = false →
    Completes (.surfaceUpload d b) s fun t =>
      mapGet t.compose.surfaces b.surface = some { x with waiting := [(ticketOf d 0x0501 s, false, b)] }
        ∧ ticketOf d 0x0501 s ∈ t.queue.inFlight ∧ Reporting s { t with compose := s.compose }) ∧
  (∀ k x tk b s, surfaceOf s k = some x → x.waiting = [(tk, false, b)] →
    ¬ (x.newest = some b.image ∧ boundInForce s k = true) → imageHeld s k b.image = false → tk.dmaOk = true →
    Completes (.surfaceUploadResume k) s fun t =>
      (∃ y, mapGet t.compose.surfaces k = some y ∧ y.active = x.active ++ [(tk, b)] ∧ y.waiting = [])
        ∧ t = { s with compose := { s.compose with surfaces := t.compose.surfaces } }) ∧
  (∀ k x tk b rest s, mapGet s.compose.surfaces k = some x → x.active = (tk, b) :: rest →
    let r := (rectLines x.body b).foldl (fun r l =>
      let g := gatedWrite (dmaOf tk) (.surface k) (tagOf tk) l.1 ((b.data.drop l.2.2).take l.2.1) r.2.2
      (r.1 || g.1, r.2.1 || g.2.1, g.2.2)) (false, false, s)
    r.2.1 = false →
    Completes (.surfaceUploadComplete k) s fun t =>
      mapGet t.compose.surfaces k = some
          (if b.present then
            { x with active := rest, newest := some b.image, newestNs := s.time.mono,
                     before := if x.newestNs = s.time.mono then x.before else x.newest }
          else { x with active := rest })
        ∧ t.mem = r.2.2.mem ∧ Finishes tk 0 [] s t) ∧
  (∀ d b x s, Executes d (.surfaceRead b) s → d.dmaOk = true → surfaceOf s b.surface = some x → uploadFieldsOk x.body b = true →
    x.waiting = [] →
    Completes (.surfaceRead d b) s fun t =>
      (∃ until_, mapGet t.compose.surfaces b.surface = some { x with reading := x.reading ++ [(until_, ticketOf d 0x0503 s, b)] })
        ∧ ticketOf d 0x0503 s ∈ t.queue.inFlight ∧ Reporting s { t with compose := s.compose, free := s.free }) ∧
  (∀ k x b tk s, mapGet s.compose.surfaces k = some x → tk.dmaOk = true → tk.origin = none → s.mem.poison = [] → s.mem.injected = [] →
    (∀ l ∈ rectLines x.body b, (gatedRead (dmaOf tk) (.surface k) (tagOf tk) l.1 l.2.1 s).2.2.1 = false) →
    (∀ l ∈ rectLines x.body b, Out.hostBytes (tk.buf + l.2.2) (memReadN s l.1 l.2.1) ∈ (doRead k x b tk s).outbox)
      ∧ Finishes tk 0 [] s (doRead k x b tk s) ∧ Reporting s (doRead k x b tk s)) ∧
  (∀ d k x s, Executes d (.surfaceRetire k) s → surfaceOf s k = some x → surfaceBound s k = false →
    (∀ w ∈ mapVals s.compose.writebacks, w.body.surface ≠ k) → overlayNames s k = false →
    Completes (.surfaceRetire d k) s fun t =>
      mapGet t.compose.surfaces k = some { x with retiring := some (ticketOf d 0x0502 s), waiting := [] }
        ∧ (∀ w ∈ x.waiting, Finishes w.1 0x0352 [] s t) ∧ Reporting s { t with compose := s.compose }) ∧
  (∀ k x tk s, mapGet s.compose.surfaces k = some x → x.retiring = some tk → x.active = [] → x.reading = [] → contextHeld s (.surface k) = false →
    (∀ i < x.body.imageCount, imageHeld s k i = false) →
    Completes (.surfaceRetireRelease k) s fun t =>
      mapGet t.compose.surfaces k = none ∧ (∀ c ∈ t.gates.contexts, c.ctx ≠ .surface k)
        ∧ Finishes tk 0 [it 6 x.lastFrame, it 8 x.lastNs] s t ∧ Reporting s { t with compose := s.compose, gates := s.gates })

/-- SCALER_LOAD stores a set, SCALER_READ and COMPOSE_STATUS deliver; WRITEBACK in mode 2 is set up and completes, in mode 1 completes with
its frame, in mode 0 ends; a written frame is told in mode 2; the self-test takes idle pipes and answers with the last (R151, R152, R160,
R164).
Where the manual leaves it open this rests on the model's own choices (log entries 14, 39, 40 and 103). -/
def Obligations.ComposeCommandsComplete : Prop :=
  (∀ d set l s, Executes d (.scalerLoad set l) s → 2 ≤ set → set ≤ 15 → d.dmaOk = true → phasesOk l = true → setNamed s set = false →
    Completes (.scalerLoad d set l) s fun t =>
      mapGet t.compose.coeffs set = some l ∧ t.compose = { s.compose with coeffs := t.compose.coeffs }
        ∧ Reports d (.scalerLoad set l) 0 [] s t ∧ Reporting s { t with compose := s.compose }) ∧
  (∀ d set s, Executes d (.scalerRead set) s → set ≤ 15 → d.dmaOk = true →
    Completes (.scalerRead d set) s fun t =>
      Delivers d (itemBytes ((List.range 896).map fun i => (2, coeffOf s set i))) t ∧ Reports d (.scalerRead set) 0 [] s t
        ∧ Reporting s t) ∧
  (∀ d h s, Executes d (.composeStatus h) s → h ≤ 31 → d.dmaOk = true →
    Completes (.composeStatus d h) s fun t =>
      Delivers d (recordBytes 512 (composeStatusItems s h)) t ∧ Reports d (.composeStatus h) 0 [] s t ∧ Reporting s t) ∧
  (∀ d b x s, Executes d (.writeback b) s → b.mode = 1 ∨ b.mode = 2 → writebackCheck b s = 0 → surfaceOf s b.surface = some x →
    Completes (.writeback d b) s fun t =>
      mapGet t.compose.writebacks b.head
          = some { body := b, ticket := if b.mode = 1 then some (ticketOf d 0x0506 s) else none, writing := [], count := 0, stopping := [] }
        ∧ writebackCtx b x.body ∈ t.gates.contexts
        ∧ (b.mode = 2 → Reports d (.writeback b) 0 [] s t) ∧ (b.mode = 1 → ticketOf d 0x0506 s ∈ t.queue.inFlight)
        ∧ Reporting s { t with compose := s.compose, gates := s.gates }) ∧
  (∀ d b w s, Executes d (.writeback b) s → b.mode = 0 → b.everyN = 0 → b.head ≤ 31 → mapGet s.compose.writebacks b.head = some w →
    w.writing = [] → w.ticket = none →
    Completes (.writeback d b) s fun t =>
      mapGet t.compose.writebacks b.head = none ∧ (∀ c ∈ t.gates.contexts, c.ctx ≠ .writeback b.head)
        ∧ Reports d (.writeback b) 0 [] s t ∧ Reporting s { t with compose := s.compose, gates := s.gates }) ∧
  (∀ h w c n more s, mapGet s.compose.writebacks h = some w → mapGet s.compose.heads h = some c → w.writing = n :: more →
    c.now.frame ≠ n ∨ linesLeft c.now = false → (∀ o, c.old = some o → o.frame ≠ n) → w.stopping = [] → w.body.mode = 2 →
    Completes (.writebackFrame h) s fun t =>
      mapGet t.compose.writebacks h = some { w with writing := more }
        ∧ Raises 0x0583 .head (h % 32) [it 6 n, it 2 w.body.surface] s t ∧ Reporting s { t with compose := s.compose }) ∧
  (∀ d pipe s, Executes d (.composeSelftest pipe) s → pipe ≤ 127 → s.compose.testTicket = none → (pipeLayers s).length ≤ pipe →
    Completes (.composeSelftest d pipe) s fun t =>
      t.compose = { s.compose with tests := [pipe], testTicket := some (ticketOf d 0x0507 s) }
        ∧ ticketOf d 0x0507 s ∈ t.queue.inFlight ∧ Reporting s { t with compose := s.compose }) ∧
  (∀ pipe failed tk s, s.compose.testTicket = some tk → s.compose.tests = [pipe] →
    Completes (.composeSelftestDone pipe failed) s fun t =>
      t.compose = { s.compose with tests := [], testTicket := none }
        ∧ Finishes tk 0 (failed.elim [it 1 0] fun p => [it 1 1, it 1 p]) s t ∧ Reporting s { t with compose := s.compose })

/-- At the latch point of a group every head of it begins the frame under its bank's records, by the module's own schedule, by the pace
limit or by the twin's decision; the next line of a head is composed and its token sent to the Tailstock; a layer whose pixels are
incomplete at its fetch deadline is switched off from that line on (R141, R156 to R159, R186, R189, R190, R209).
Where the manual leaves it open this rests on the model's own choices (log entries 3, 36, 43, 106 and 115). -/
def Obligations.FramesLatchAndLinesCompose : Prop :=
  (∀ g r l s, groupRec s g = some r → nextLatch s g r = some l → inService s = true → paced r = false ∨ decides s = true →
    let u := applyAt g s
    let b := bankFor u g l.frame
    Completes (.latchPoint g) s fun t =>
      (groupRt t g).latched = some l.frame ∧ (groupRt t g).latchNs = wallOf u l.at_ ∧ (groupRt t g).nextStart = l.start
        ∧ (groupRt t g).paceNs = none
        ∧ (∀ h ∈ latchHeads u g l.frame, ∃ c, mapGet t.compose.heads h = some c ∧ c.now =
          { frame := l.frame, start := l.start, next := if headOn b h then 0 else (headScene b h).timing.vActive, scene := headScene b h })
        ∧ t.scene = { u.scene with pendingGroups := t.scene.pendingGroups }) ∧
  (∀ g at_ n r s, groupRec s g = some r → inService s = true → paced r = true → decides s = false → (groupRt s g).latched ≠ some n →
    let hs := leadTimings s g n
    let l : Latch := ⟨n, monoAt s at_, monoAt s at_ + linesNs r (groupLines hs) (leadLines r hs)⟩
    let u := applyFor g l s
    Completes (.latchDecisionRx g at_ n) s fun t =>
      (groupRt t g).latched = some n ∧ (groupRt t g).latchNs = wallOf u l.at_ ∧ (groupRt t g).nextStart = l.start
        ∧ (∀ h ∈ latchHeads u g n, ∃ c, mapGet t.compose.heads h = some c ∧ c.now.frame = n ∧ c.now.start = l.start)) ∧
  (∀ g r l s, groupRec s g = some r → timeoutLatch s g r = some l → inService s = true → decides s = true → s.txn.part = none →
    Completes (.syncPaceTimeout g) s fun t =>
      (groupRt t g).timeouts = (groupRt s g).timeouts + 1 ∧ (groupRt t g).latched = some l.frame ∧ (groupRt t g).nextStart = l.start
        ∧ (∀ h ∈ latchHeads s g l.frame, ∃ c, mapGet t.compose.heads h = some c ∧ c.now.frame = l.frame)) ∧
  (∀ h line c s, mapGet s.compose.heads h = some c → inService s = true → s.mem.channels.any (fun p => p.2.retraining) = false →
    c.old = none → c.now.next = line → linesLeft c.now = true → linesAhead s c.now line 64 = true →
    let u := fetchLayers h line c.now.frame c.now.scene false s
    Completes (.lineComposed h line) s fun t =>
      Out.token (if h < 32 then .own else .twin) (composeLine u h c.now.frame line c.now.scene false) ∈ t.outbox
        ∧ mapGet t.compose.heads h = some { c with now := { c.now with next := line + 1 } }
        ∧ t.ts = s.ts ∧ t.scene = s.scene ∧ t.ledger = s.ledger) ∧
  (∀ h line c o s, mapGet s.compose.heads h = some c → inService s = true → s.mem.channels.any (fun p => p.2.retraining) = false →
    c.old = some o → o.next = line → linesAhead s o line 64 = true →
    let u := fetchLayers h line o.frame o.scene true s
    Completes (.lineComposed h line) s fun t =>
      Out.token (if h < 32 then .own else .twin) (composeLine u h o.frame line o.scene true) ∈ t.outbox
        ∧ mapGet t.compose.heads h
          = some { c with old := if line + 1 < o.scene.timing.vActive then some { o with next := line + 1 } else none }
        ∧ t.ts = s.ts ∧ t.scene = s.scene) ∧
  (∀ h i line poison c s, mapGet s.compose.heads h = some c → inService s = true → c.old = none → (layerRt s h i).cur.isSome = true →
    (layerRt s h i).underrun = none → c.now.next ≤ line → line < c.now.scene.timing.vActive → i < 20 → linesAhead s c.now line 4 = true →
    Completes (.fetchDeadline h i line poison) s fun t =>
      layerRt t h i = { layerRt s h i with underrun := some line, underruns := (layerRt s h i).underruns + 1 }
        ∧ (∀ y, line ≤ y → layerShows t h i y false = none)
        ∧ Raises 0x0580 .head (h % 32) [it 1 i, it 6 c.now.frame, it 2 line, it 1 (flag poison)] s t
        ∧ Reporting s { t with compose := s.compose })

/-- At its latch point an enabled layer selects the newest content of what it binds, where that has the size its record states (R141,
R142).
Where the manual leaves it open this rests on the model's own choices (log entry 36). -/
def Obligations.LayersSelectTheNewestContent : Prop :=
  ∀ g r n h i l c s, groupRec s g = some r → nextLatch s g r = some n → inService s = true → paced r = false →
    let u := applyAt g s
    let hs := headScene (bankFor u g n.frame) h
    h ∈ latchHeads u g n.frame → headOn (bankFor u g n.frame) h = true → i < 20 → mapGet hs.layers i = some l → l.enable = 1 →
    candidate u hs i l = some c → c.width = l.frameW → c.height = l.frameH → pipeTested u h i = false →
    Completes (.latchPoint g) s fun t =>
      (layerRt t h i).cur = some c ∧ (layerRt t h i).void = false ∧ (layerRt t h i).underrun = none

/-! ## Wall time -/

/-- An Announce is noted; when it makes the best master clock algorithm select a grandmaster, one heard before included, that takes UNKNOWN
and HOLDOVER to ACQUIRING. Without Announces for the receipt timeout LOCKED falls to HOLDOVER and ACQUIRING to where it came from, and the
algorithm selects among the others; 250 ms without a good measurement take LOCKED to HOLDOVER; u at 60 s takes HOLDOVER to UNKNOWN. A
Delay_Req goes out while ACQUIRING or LOCKED; a measurement in ACQUIRING extends the estimate, and the one that completes the count steps
the counter, enters LOCKED, where slewing starts from the frequency error of the estimate, and sets u to 1 µs; one in LOCKED turns the
slewing against the offset; a lock confirmation resets u, and the first of the twin's after a time without one steps the counter (R24, R25,
R27, R56 to R59). Where the manual leaves it open this rests on the model's own choices (log entries 12, 15, 16, 25, 26, 27 and 88). -/
def Obligations.TheServoDisciplinesTime : Prop :=
  (∀ a s, servoRuns s = true → ptpPort s a.port = true → a.domain = s.time.ptpDomain → a.stepsRemoved < 255 → s.time.gm = none →
    selected (hear a s) = some a → s.time.servo = .unknown ∨ s.time.servo = .holdover →
    Completes (.announceRx a) s fun t =>
      t.time.gm = some a ∧ t.time.servo = .acquiring ∧ t.time.fromHoldover = decide (s.time.servo = .holdover) ∧ t.time.fit = []
        ∧ t.time.lastAnnounceNs = s.time.mono ∧ t.time.utcOffset = a.utcOffset ∧ t.time.utcValid = (s.time.utcValid || a.utcValid)
        ∧ t.time.heard = (hear a s).time.heard ∧ Raises 0x0282 .port a.port [it 8 0, it 8 a.gmId] s t
        ∧ t.time.wall = s.time.wall ∧ t.time.tRef = s.time.tRef ∧ Reporting s { t with time := s.time }) ∧
  (∀ a s, servoRuns s = true → ptpPort s a.port = true → a.domain = s.time.ptpDomain → a.stepsRemoved < 255 →
    selected (hear a s) = none →
    Completes (.announceRx a) s fun t => t = { s with time := { s.time with heard := (hear a s).time.heard } }) ∧
  (∀ g s, s.time.gm = some g → 2 ≤ s.time.announceTimeout → s.time.announceTimeout ≤ 10 →
    s.time.lastAnnounceNs + s.time.announceTimeout * g.intervalMs * 1000000 ≤ s.time.mono →
    let others := s.time.heard.filter fun f => !sameMaster f.announce g
    Completes .announceTimeout s fun t =>
      t.time.servo = (match s.time.servo with
        | .locked => .holdover
        | .acquiring => if s.time.fromHoldover then .holdover else .unknown
        | x => x)
        ∧ t.time.heard = others ∧ t.time.gm = selected { s with time := { s.time with heard := others } }
        ∧ (s.time.servo = .locked → Raises 0x0281 .port g.port [it 1 2, it 1 3, it 8 (uItem s)] s t)
        ∧ t.time.wall = s.time.wall ∧ t.time.tRef = s.time.tRef ∧ Reporting s { t with time := s.time }) ∧
  (∀ s, s.time.servo = .locked → s.time.lastGoodNs + 250000000 ≤ s.time.mono →
    Completes .measurementTimeout s fun t =>
      t.time = { s.time with servo := .holdover, fit := [], inThreshold := 0, lastMeasuredNs := none, slewE12 := 0 }
        ∧ Raises 0x0281 .port (gmPort s) [it 1 2, it 1 3, it 8 (uItem s)] s t ∧ Reporting s { t with time := s.time }) ∧
  (∀ s, s.time.servo = .holdover → uReached s = true →
    Completes .uLimit s fun t =>
      t.time = { s.time with servo := .unknown, fit := [], inThreshold := 0, lastMeasuredNs := none, slewE12 := 0 }
        ∧ Raises 0x0281 .port (gmPort s) [it 1 3, it 1 0, it 8 (uItem s)] s t ∧ Reporting s { t with time := s.time }) ∧
  (∀ s, servoRuns s = true → s.time.servo = .acquiring ∨ s.time.servo = .locked →
    (∀ d n, s.time.delayMs = some d → s.time.delayReqNs = some n → n + d * 1000000 ≤ s.time.mono) →
    Completes .delayReqSend s fun t =>
      t = { s with
            outbox := Out.packet (gmPort s) 0 "DELAY_REQ" [(s.time.ptpDomain : Int), (s.time.wall : Int)] :: s.outbox,
            time := { s.time with delayReqNs := some s.time.mono } }) ∧
  (∀ (port t1 t2 t3 t4 delay : Nat) (s : State), servoRuns s = true → gmPort s = port → s.time.servo = .acquiring →
    s.time.inThreshold + 1 < lockCountOf s →
    Completes (.offsetMeasurement port t1 t2 t3 ⟨t4, delay⟩) s fun t =>
      let o : Int := (((t2 : Int) - t1) - ((t4 : Int) - t3)) / 2
      t = { s with
            time := { s.time with
              offset := o, fit := ((s.time.mono, o) :: s.time.fit).take 64, delayMs := some delay, lastMeasuredNs := some s.time.mono,
              inThreshold := if residualOk s s.time.mono o && inTime s then s.time.inThreshold + 1 else 0 } }) ∧
  (∀ (port t1 t2 t3 t4 delay : Nat) (s : State), servoRuns s = true → gmPort s = port → s.time.servo = .acquiring →
    s.time.inThreshold + 1 = lockCountOf s → inTime s = true →
    residualOk s s.time.mono ((((t2 : Int) - t1) - ((t4 : Int) - t3)) / 2) = true →
    Completes (.offsetMeasurement port t1 t2 t3 ⟨t4, delay⟩) s fun t =>
      let o : Int := (((t2 : Int) - t1) - ((t4 : Int) - t3)) / 2
      let l := ((s.time.mono, o) :: s.time.fit).take 64
      let p := fitAt l s.time.mono
      t.time.servo = .locked ∧ t.time.wall = wall64 ((s.time.wall : Int) - p.1 / p.2) ∧ t.time.tRef = some s.time.mono
        ∧ t.time.steps = (s.time.steps + 1) % 4294967296 ∧ t.time.freqE12 = fitSlopeE12 l ∧ t.time.slewE12 = fitSlopeE12 l
        ∧ mapGet t.queue.seqs (scopeKey .port (gmPort s))
          = some (idx32 (mapGetD s.queue.seqs (scopeKey .port (gmPort s)) 0
              + if (uE6 s).any fun u => u < (p.1 / p.2).natAbs * 1000000 then 2 else 1))
        ∧ Reporting s { t with time := s.time }) ∧
  (∀ (port t1 t2 t3 t4 delay : Nat) (s : State), servoRuns s = true → gmPort s = port → s.time.servo = .locked →
    Completes (.offsetMeasurement port t1 t2 t3 ⟨t4, delay⟩) s fun t =>
      let o : Int := (((t2 : Int) - t1) - ((t4 : Int) - t3)) / 2
      t = { s with
            free := s.free + 1,
            time := { s.time with
              offset := o, delayMs := some delay, slewE12 := t.time.slewE12, lastMeasuredNs := some s.time.mono,
              lastGoodNs := if o.natAbs ≤ lockThreshold s then s.time.mono else s.time.lastGoodNs } }
        ∧ (0 ≤ o → s.time.freqE12 ≤ t.time.slewE12) ∧ (o ≤ 0 → t.time.slewE12 ≤ s.time.freqE12)) ∧
  (∀ s, servoRuns s = true → s.time.servo = .locked →
    Completes .lockConfirm s fun t =>
      t = { s with time := { s.time with tRef := some s.time.mono, lastRef := some (s.time.mono, s.time.tRef) } }
        ∧ uE6 t = some (Config.uRefNs * 1000000)) ∧
  (∀ s, twinDisciplines s = true → (∀ r, s.time.tRef = some r → r + 1000000 < s.time.mono) →
    Completes .lockConfirm s fun t =>
      let o := Config.twinOffset s.free
      t.time.wall = wall64 ((s.time.wall : Int) - o) ∧ t.time.tRef = some s.time.mono ∧ t.time.steps = (s.time.steps + 1) % 4294967296
        ∧ (∀ u, uE6 s = some u → u < o.natAbs * 1000000 → Raises 0x0280 .port (gmPort s) [(8, o), it 8 (uItem s)] { s with time := t.time } t)
        ∧ Reporting s { t with time := s.time, free := s.free })

/-! ## Heads, sinks and references -/

/-- HEAD_STATUS and HEAD_SINK_READ deliver and change nothing; HEAD_SINK_POWER turns the sink off or on, and then trains; HEAD_AUX carries an
access that is not protected; EGRESS_PORT_CONFIGURE sets its port (R174 to R176, R178).
Where the manual leaves it open this rests on the model's own choices (log entry 14). -/
def Obligations.HeadCommandsComplete : Prop :=
  (∀ d key s, Executes d (.headStatus key) s → key ≤ 31 → d.dmaOk = true →
    Completes (.headStatus d key) s fun t =>
      Delivers d (recordBytes 256 (headStatusItems s key)) t ∧ Reports d (.headStatus key) 0 [] s t ∧ Reporting s t) ∧
  (∀ d key k s, Executes d (.headSinkRead key) s → sinkCheck s key = 0 → (headRt s key).sink = some k → d.dmaOk = true →
    Completes (.headSinkRead d key) s fun t =>
      Delivers d ((k.dpcd ++ List.replicate 256 0).take 256 ++ (k.edid ++ List.replicate 2048 0).take 2048) t
        ∧ Reports d (.headSinkRead key) 0 [] s t ∧ Reporting s t) ∧
  (∀ d key s, Executes d (.headSinkPower key 3) s → sinkCheck s key = 0 →
    Completes (.headSinkPower d key 3) s fun t =>
      (headRt t key).sinkD3 = true ∧ (headRt t key).trained = none ∧ (headRt t key).training = false ∧ (headRt t key).emitting = false
        ∧ Out.dp key "SET_POWER" [2] ∈ t.outbox
        ∧ Reports d (.headSinkPower key 3) 0 [] s t ∧ Reporting s { t with ts := s.ts }) ∧
  (∀ d key k s, Executes d (.headSinkPower key 0) s → sinkCheck s key = 0 → (headRt s key).sink = some k →
    trainingOrder s (headRt s key) k ≠ [] →
    Completes (.headSinkPower d key 0) s fun t =>
      (headRt t key).sinkD3 = false ∧ (headRt t key).training = true ∧ (headRt t key).combos = trainingOrder s (headRt s key) k
        ∧ Out.dp key "SET_POWER" [1] ∈ t.outbox
        ∧ Reports d (.headSinkPower key 0) 0 [] s t ∧ Reporting s { t with ts := s.ts }) ∧
  (∀ d b s, Executes d (.headAux b) s → sinkCheck s b.head = 0 → b.write = 1 → 1 ≤ b.len → b.len ≤ 16 → b.addr ≤ 0xFFFFF →
    auxTouches b.addr b.len = false → b.acked = true →
    Completes (.headAux d b) s fun t =>
      Out.dp b.head "AUX_WRITE" ((b.addr : Int) :: (b.data.take b.len).map fun x => (x.toNat : Int)) ∈ t.outbox
        ∧ Reports d (.headAux b) 0 [] s t ∧ Reporting s t) ∧
  (∀ d b s, Executes d (.headAux b) s → sinkCheck s b.head = 0 → b.write = 0 → 1 ≤ b.len → b.len ≤ 16 → b.addr ≤ 0xFFFFF →
    b.acked = true → d.dmaOk = true →
    Completes (.headAux d b) s fun t =>
      Delivers d (b.readData.take b.len) t ∧ Reports d (.headAux b) 0 [] s t ∧ Reporting s t) ∧
  (∀ d b s, Executes d (.headAux b) s → b.head ≤ 15 → b.write = 1 → 1 ≤ b.len → b.len ≤ 16 → b.addr ≤ 0xFFFFF →
    auxTouches b.addr b.len = true →
    Completes (.headAux d b) s fun t => Reports d (.headAux b) 0x0361 [] s t ∧ Reporting s t) ∧
  (∀ d b s, Executes d (.egressPortConfigure b) s → egressConfigureCheck b s = 0 →
    Completes (.egressPortConfigure d b) s fun t =>
      mapGet t.ts.egress b.port = some { mode := b.mode, lane := laneOf b (mapGetD s.ts.egress b.port EgressPort.init).lane }
        ∧ Reports d (.egressPortConfigure b) 0 [] s t ∧ Reporting s { t with ts := s.ts })

/-- A sink that connects is read and told and its link trained; one that disconnects is gone; a lane that loses lock and a head in
LINK_FAIL train; an attempt that ends well waits for the next frame start, one that fails tries the next combination or leaves the head in
LINK_FAIL for 2 s; an egress link reports; an edge of a frame reference is a pace event of its group in mode 3 and, after eight good
periods, locks it in mode 2; three periods without an edge unlock it (R170, R173, R174, R189, R191, R192).
Where the manual leaves it open this rests on the model's own choices (log entries 3, 15, 16, 43, 96 and 102). -/
def Obligations.LinksTrainAndReferencesLock : Prop :=
  (∀ key sink s, key < 16 → s.ts.powered = true → (headRt s key).hpd = false → s.module.mode ≠ .idleLink →
    Completes (.hpdConnect key sink) s fun t =>
      (headRt t key).hpd = true ∧ (headRt t key).sink = some sink ∧ (headRt t key).edidCrc = (crc32c sink.edid).toNat
        ∧ TsRaises 0x0681 .head key [it 1 1, it 4 (crc32c sink.edid).toNat] s t ∧ Reporting s { t with ts := s.ts }) ∧
  (∀ key sink s, key < 16 → s.ts.powered = true → (headRt s key).hpd = false → s.module.mode = .idleLink →
    Completes (.hpdConnect key sink) s fun t =>
      headRt t key = { headRt s key with hpd := true, sinkUnread := some sink } ∧ t = { s with ts := t.ts }) ∧
  (∀ key s, key < 16 → s.ts.powered = true → (headRt s key).hpd = true → (headRt s key).hstate ≠ 0 → (headRt s key).hstate ≠ 8 →
    Completes (.hpdDisconnect key) s fun t =>
      (headRt t key).hpd = false ∧ (headRt t key).sink = none ∧ (headRt t key).trained = none ∧ (headRt t key).emitting = false
        ∧ TsRaises 0x0681 .head key [it 1 0, it 4 (headRt s key).edidCrc] s t ∧ Reporting s { t with ts := s.ts }) ∧
  (∀ key status l k s, key < 16 → (headRt s key).hpd = true → headServed s key = true → (headRt s key).linkFail = false →
    (headRt s key).trained = some l → (headRt s key).sinkD3 = false → (headRt s key).sink = some k →
    trainingOrder s (headRt s key) k ≠ [] →
    Completes (.irqHpd key true status) s fun t =>
      (headRt t key).losses = (headRt s key).losses + 1 ∧ (headRt t key).training = true ∧ (headRt t key).trained = none
        ∧ TsRaises 0x0683 .head key (status.map fun b => it 1 b.toNat) s t ∧ Reporting s { t with ts := s.ts }) ∧
  (∀ key c rest s, s.ts.powered = true → (headRt s key).training = true → (headRt s key).trained = none → (headRt s key).combos = c :: rest →
    Completes (.trainingAttemptEnd key true) s fun t =>
      (headRt t key).trained = some c ∧ (headRt t key).combos = [] ∧ (headRt t key).trainings = (headRt s key).trainings + 1
        ∧ TsRaises 0x0682 .head key [it 1 c.2, it 1 c.1, it 4 (headRt s key).attempts] s t ∧ Reporting s { t with ts := s.ts }) ∧
  (∀ key c n rest s, s.ts.powered = true → (headRt s key).training = true → (headRt s key).trained = none → (headRt s key).combos = c :: n :: rest →
    Completes (.trainingAttemptEnd key false) s fun t =>
      headRt t key = { headRt s key with combos := n :: rest, attempts := (headRt s key).attempts + 1 }
        ∧ (∃ a, Out.dp key "TRAIN" [(n.1 : Int), (n.2 : Int), a] ∈ t.outbox) ∧ Reporting s { t with ts := s.ts }) ∧
  (∀ key c s, s.ts.powered = true → (headRt s key).training = true → (headRt s key).trained = none → (headRt s key).combos = [c] →
    Completes (.trainingAttemptEnd key false) s fun t =>
      (headRt t key).training = false ∧ (headRt t key).linkFail = true ∧ (headRt t key).failNs = s.time.mono
        ∧ Reporting s { t with ts := s.ts }) ∧
  (∀ key k s, headServed s key = true → (headRt s key).linkFail = true → (headRt s key).hpd = true → (headRt s key).failNs + 2000000000 ≤ s.time.mono →
    (headRt s key).sink = some k → trainingOrder s (headRt s key) k ≠ [] →
    Completes (.linkRetry key) s fun t =>
      (headRt t key).training = true ∧ (headRt t key).linkFail = false ∧ (headRt t key).combos = trainingOrder s (headRt s key) k
        ∧ Reporting s { t with ts := s.ts }) ∧
  (∀ port up s, port ≤ 1 → s.ts.powered = true →
    Completes (.egressLink port up) s fun t =>
      (mapGet t.ts.egress port).map (fun p => p.lane.linkUp) = some up
        ∧ TsRaises 0x0689 .port (8 + port) [it 1 port, it 1 (flag up)] s t ∧ Reporting s { t with ts := s.ts }) ∧
  (∀ input rising ns g r s, s.ts.powered = true → 1000 ≤ ns → mapSorted s.ts.groupRecs = true → mapGet s.ts.groupRecs g = some r →
    r.mode = 3 → r.frameRef % 4 = input → bit r.frameRef 2 = rising → groupShown s g = true → (groupRt s g).paceNs = none →
    Completes (.frameRefEdge input rising ns) s fun t =>
      (groupRt t g).paceNs = some (s.time.mono / 10 * 10) ∧ Reporting s { t with ts := s.ts }) ∧
  (∀ input rising ns g r e s, s.ts.powered = true → 1000 ≤ ns → s.ts.groupRecs = [(g, r)] → r.mode = 2 → r.frameRef % 4 = input →
    bit r.frameRef 2 = rising → groupShown s g = true → (groupRt s g).lastEdge = some e → (groupRt s g).locked = false →
    periodOk r (s.time.mono / 10 * 10 - e) = true →
    Completes (.frameRefEdge input rising ns) s fun t =>
      groupRt t g = { groupRt s g with
          lastEdge := some (s.time.mono / 10 * 10), lastPeriod := s.time.mono / 10 * 10 - e, edges := (groupRt s g).edges + 1,
          locked := decide (8 ≤ (groupRt s g).edges + 1),
          rephaseDue := decide (8 ≤ (groupRt s g).edges + 1) || (groupRt s g).rephaseDue }
        ∧ Reporting s { t with ts := s.ts }) ∧
  (∀ g r e s, mapGet s.ts.groupRecs g = some r → r.mode = 2 → (groupRt s g).locked = true → (groupRt s g).lastEdge = some e →
    3 * 1000000000 * r.rateDen ≤ (s.time.mono - e) * r.rateNum →
    Completes (.refUnlockTimeout g) s fun t =>
      groupRt t g = { groupRt s g with locked := false, edges := 0, lastEdge := none } ∧ Reporting s { t with ts := s.ts })

/-! ## The Tailstock -/

/-- The Tailstock's commands, with the internal lanes up: glyphs are loaded for the next frame, and each read delivers what it names and
changes nothing; with the lanes down each answers TAILSTOCK_UNREACHABLE (R47, R194, R207, R212, R221, R224).
Where the manual leaves it open this rests on the model's own choices (log entries 14 and 44). -/
def Obligations.TailstockCommandsComplete : Prop :=
  (∀ d first count glyphs s, Executes d (.tailstockGlyphLoad first count glyphs) s → internalUp s = true → 0x80 ≤ first → 1 ≤ count →
    first + count ≤ 0xE0 → d.dmaOk = true →
    Completes (.tailstockGlyphLoad d first count glyphs) s fun t =>
      (∀ i < count, mapGet t.ts.glyphs (first + i) = some ((glyphs.drop (16 * i)).take 16))
        ∧ (∀ c, c < first ∨ first + count ≤ c → mapGet t.ts.glyphs c = mapGet s.ts.glyphs c)
        ∧ t.ts = { s.ts with glyphs := t.ts.glyphs }
        ∧ Reports d (.tailstockGlyphLoad first count glyphs) 0 [] s t ∧ Reporting s { t with ts := s.ts }) ∧
  (∀ d key s, Executes d (.calipersRead key) s → internalUp s = true → key ≤ 31 → d.dmaOk = true →
    Completes (.calipersRead d key) s fun t =>
      Delivers d (itemBytes ((List.range 16).flatMap fun i =>
          let r := mapGetD (headRt s key).cal i calInit
          [it 1 (mapGetD (headRt s key).once.calipers i resetCal).mode, it 4 (r.crc.getD 0), it 6 r.frame, it 4 r.c,
           it 1 (flag (headRt s key).calUnreliable)])) t
        ∧ Reports d (.calipersRead key) 0 [] s t ∧ Reporting s t) ∧
  (∀ d key s, Executes d (.tailstockStatus key) s → internalUp s = true → key ≤ 31 → d.dmaOk = true →
    Completes (.tailstockStatus d key) s fun t =>
      Delivers d (recordBytes 128 (tailstockStatusItems s key)) t ∧ Reports d (.tailstockStatus key) 0 [] s t ∧ Reporting s t) ∧
  (∀ d select s, Executes d (.verdictRead select) s → internalUp s = true → select ≤ 1 → d.dmaOk = true →
    Completes (.verdictRead d select) s fun t =>
      Delivers d (leBytes 1024 ((if select = 0 then s.ts.own.bits else s.ts.twin.bits).toNat : Nat)) t
        ∧ Reports d (.verdictRead select) 0 [] s t ∧ Reporting s t) ∧
  (∀ d key r s, Executes d (.holdRead key r) s → internalUp s = true → key ≤ 31 → 1 ≤ r.w → 1 ≤ r.h →
    r.x + r.w ≤ (headRt s key).once.timing.hActive → r.y + r.h ≤ (headRt s key).once.timing.vActive → d.dmaOk = true →
    Completes (.holdRead d key r) s fun t =>
      Delivers d (itemBytes (((List.range r.h).flatMap fun j => holdPixels (headRt s key) r (r.y + j))
          ++ (List.range r.h).flatMap fun j => holdSpans key (headRt s key) (r.y + j))) t
        ∧ Reports d (.holdRead key r) 0 [] s t ∧ Reporting s t) ∧
  (∀ d s, Executes d .tailstockFontRead s → internalUp s = true → d.dmaOk = true →
    Completes (.tailstockFontRead d) s fun t =>
      Delivers d (itemBytes (fontItems s)) t ∧ Reports d .tailstockFontRead 0 [] s t ∧ Reporting s t) ∧
  (∀ d select s, Executes d (.verdictRead select) s → internalUp s = false → select ≤ 1 →
    Completes (.verdictRead d select) s fun t => Reports d (.verdictRead select) 0x0570 [] s t ∧ Reporting s t)

/-- Verdict updates in sequence set their bits and no other; a gap makes every source of the bitmap not live until the next whole bitmap,
which replaces all of it. A record is staged for its own side, one held once only by the main section of the higher claim; a swap order
waits for its frame. Waiting events go out in order (R129, R196, R200, R206, R226, R227).
Where the manual leaves it open this rests on the model's own choices (log entries 3, 43 and 87). -/
def Obligations.TailstockHoldsVerdictsAndRecords : Prop :=
  (∀ side seq k live s, s.ts.powered = true → k < 8192 → seq = ((bitmapOf s side).seq + 1) % 65536 →
    Completes (.verdictUpdateRx side true seq [(k, live)]) s fun t =>
      (bitmapOf t side).bits.getLsbD k = live
        ∧ (∀ j < 8192, j ≠ k → (bitmapOf t side).bits.getLsbD j = (bitmapOf s side).bits.getLsbD j)
        ∧ (bitmapOf t side).seq = seq ∧ (bitmapOf t side).gap = (bitmapOf s side).gap
        ∧ bitmapOf t (otherSide side) = bitmapOf s (otherSide side)
        ∧ t = { s with ts := { s.ts with own := t.ts.own, twin := t.ts.twin } }) ∧
  (∀ side crcOk seq l s, s.ts.powered = true → crcOk = false ∨ seq ≠ ((bitmapOf s side).seq + 1) % 65536 →
    Completes (.verdictUpdateRx side crcOk seq l) s fun t =>
      (∀ k, (effectiveBits (bitmapOf t side)).getLsbD k = false) ∧ bitmapOf t (otherSide side) = bitmapOf s (otherSide side)
        ∧ Reporting s { t with ts := s.ts }) ∧
  (∀ side seq bits s, s.ts.powered = true →
    Completes (.wholeBitmapRx side true seq bits) s fun t =>
      (bitmapOf t side).bits = bits ∧ (bitmapOf t side).seq = seq ∧ (bitmapOf t side).gap = false
        ∧ bitmapOf t (otherSide side) = bitmapOf s (otherSide side)
        ∧ Reporting s { t with ts := s.ts }) ∧
  (∀ claim key i r s, s.ts.powered = true → key ≤ 31 → i < 128 → claim.priority ≠ 0 →
    Completes (.tailstockRecordWrite .own claim (.label key i r)) s fun t =>
      mapGet (headRt t key).own.other.labels i = some r ∧ (headRt t key).own.force = (headRt s key).own.force
        ∧ (headRt t key).twin = (headRt s key).twin ∧ t.ts.ownClaim = some (claim, s.time.mono)
        ∧ t = { s with ts := { s.ts with heads := t.ts.heads, ownClaim := t.ts.ownClaim } }) ∧
  (∀ claim key r s, s.ts.powered = true → key ≤ 31 → claim.priority ≠ 0 → sectionClaim s .twin < claimWord claim →
    Completes (.tailstockRecordWrite .own claim (.headTiming key r)) s fun t =>
      headRt t key = { headRt s key with
          onceOther := { (headRt s key).onceOther with timing := r }, onceKept := false, onceSwapped := none }
        ∧ t = { s with ts := { s.ts with heads := t.ts.heads, ownClaim := t.ts.ownClaim } }) ∧
  (∀ claim key r s, s.ts.powered = true → key ≤ 31 → claimWord claim ≤ sectionClaim s .twin →
    Completes (.tailstockRecordWrite .own claim (.headTiming key r)) s fun t => t.ts.heads = s.ts.heads) ∧
  (∀ claim source static s, s.ts.powered = true → claim.priority ≠ 0 →
    Completes (.tailstockRecordWrite .own claim (.staticSrc source static)) s fun t =>
      t.ts.heads = s.ts.heads.map (fun p =>
          (p.1, { p.2 with own := { p.2.own with
                    force := restatic source static p.2.own.force, other := restatic source static p.2.own.other } }))
        ∧ t = { s with ts := { s.ts with heads := t.ts.heads, ownClaim := t.ts.ownClaim } }) ∧
  (∀ side key frame rb s, key ≤ 31 → s.ts.powered = true → (headRt s key).once.timing.enable = 1 →
    (headRt s key).onceOther.timing.syncGroup = (headRt s key).once.timing.syncGroup →
    (∀ n, (headRt s key).frame = some n → modDiff 48 n frame < 0) →
    Completes (.swapOrderRx side key frame rb) s fun t =>
      sideOf (headRt t key) side
          = { sideOf (headRt s key) side with
              orders := (sideOf (headRt s key) side).orders ++ [{ frame := frame, rollback := rb, arrivedNs := s.time.mono, late := false }] }
        ∧ sideOf (headRt t key) (otherSide side) = sideOf (headRt s key) (otherSide side)
        ∧ t = { s with ts := { s.ts with heads := t.ts.heads } }) ∧
  (∀ e s, mainAccepts s = true → s.ts.events = [e] → s.ts.eventsLost = 0 →
    Completes .tailstockEventDelivery s fun t =>
      t.ts.events = []
        ∧ (s.host.attached = false → s.queue.events.length < Config.maxQueued →
          { code := e.code, scope := e.scope, scopeId := e.scopeId, position := position s, seq := nextSeq e.scope e.scopeId s,
            wallNs := e.wallNs, items := e.items, attention := e.attention : EventRec } ∈ t.queue.events)
        ∧ Reporting s { t with ts := s.ts }) ∧
  (∀ key side s, key ≤ 31 → s.ts.powered = true → (effClaim s (headRt s key) side != 0) ≠ (sideOf (headRt s key) side).toldClaim →
    Completes (.claimState key side) s fun t =>
      (sideOf (headRt t key) side).toldClaim = (effClaim s (headRt s key) side != 0)
        ∧ TsRaises 0x0782 .head key [it 1 (sideNum side), it 1 (flag (effClaim s (headRt s key) side != 0)),
            it 2 (claimWord (sideOf (headRt s key) side).claim)] s t
        ∧ Reporting s { t with ts := s.ts })

/-- A valid token gives its stream its claim, and its line is held until it is due, unless it matches no line due, which is a fault; a
damaged one only counts as a fault. A main section sends idle tokens for its heads. At a frame start the head passes the stream that the arbiter
chooses and its staged records come into force; at the
hold limit it shows the plate; the Calipers' self-check and the scrub of hold memory tell what they find (R200, R209 to R214, R221,
R225, R329).
Where the manual leaves it open this rests on the model's own choices (log entries 43, 44, 46, 87 and 94). -/
def Obligations.TokensAndFrameStarts : Prop :=
  (∀ tok s, s.ts.powered = true → tok.head ≤ 31 → tok.claim.high = 0 → tok.idle = true →
    Completes (.lineTokenRx .own true tok) s fun t =>
      (headRt t tok.head).own.claim = tok.claim ∧ (headRt t tok.head).own.tokenNs = some s.time.mono
        ∧ (headRt t tok.head).own.ahead = (headRt s tok.head).own.ahead ∧ (headRt t tok.head).twin = (headRt s tok.head).twin
        ∧ Reporting s { t with ts := s.ts }) ∧
  (∀ tok s, s.ts.powered = true → tok.head ≤ 31 → tok.claim.high = 0 → tok.idle = false →
    linePast s (headRt s tok.head) tok = false → (headRt s tok.head).own.ahead = [] →
    Completes (.lineTokenRx .own true tok) s fun t =>
      (headRt t tok.head).own.claim = tok.claim ∧ (headRt t tok.head).own.ahead = [(s.time.mono, tok)]
        ∧ (headRt t tok.head).lastRx = some s.time.mono
        ∧ (headRt t tok.head).own.lineNs = some s.time.mono ∧ Reporting s { t with ts := s.ts }) ∧
  (∀ tok s, s.ts.powered = true → tok.head ≤ 31 → tok.claim.high = 0 → tok.idle = false →
    linePast s (headRt s tok.head) tok = true →
    Completes (.lineTokenRx .own true tok) s fun t =>
      (headRt t tok.head).own.ahead = (headRt s tok.head).own.ahead
        ∧ mapGet (headRt t tok.head).faults 1 = some (mapGetD (headRt s tok.head).faults 1 0 + 1)
        ∧ (headRt t tok.head).lastRx = some s.time.mono ∧ Reporting s { t with ts := s.ts }) ∧
  (∀ side tok s, s.ts.powered = true → tok.head ≤ 31 →
    Completes (.lineTokenRx side false tok) s fun t =>
      mapGet (headRt t tok.head).faults 0 = some (mapGetD (headRt s tok.head).faults 0 0 + 1)
        ∧ (headRt t tok.head).own = (headRt s tok.head).own ∧ (headRt t tok.head).twin = (headRt s tok.head).twin
        ∧ Reporting s { t with ts := s.ts }) ∧
  (∀ key s, inService s = true → key < 64 → headOn s.scene.inForce key = true → key < 32 ∨ s.cascade.twinUp = true →
    tokenRecent s key = false →
    Completes (.idleTokenSend key) s fun t =>
      Out.token (if key < 32 then .own else .twin)
          { frameNo := ((mapGet s.compose.heads key).map fun c => c.now.frame).getD 0, line := 0xFFFF, head := key % 32, idle := true,
            claim := ((mapGet s.compose.heads key).map fun c => claimOf s c.now.start).getD (claimNow s), spans := [], pixels := [] }
          ∈ t.outbox
        ∧ t = { s with outbox := t.outbox, link := t.link, compose := { s.compose with tokens := mapPut s.compose.tokens key s.time.mono } }) ∧
  (∀ key f s, key ≤ 31 → s.ts.powered = true → s.module.mode ≠ .idleLink → nextFrame s (headRt s key) = some f →
    (headRt s key).once.timing.enable = 1 → (headRt s key).own.orders = [] → (headRt s key).twin.orders = [] →
    (headRt s key).line = none →
    Completes (.frameStart key) s fun t =>
      (headRt t key).frame = some f.frame ∧ (headRt t key).startMono = f.start ∧ (headRt t key).emitted = []
        ∧ (headRt t key).scorchedPx = 0 ∧ (headRt t key).passed = arbiter s (headRt s key)
        ∧ (headRt t key).own.force = (headRt s key).own.force ∧ (f.fresh = true → (groupRt t f.group).frame = some f.frame)
        ∧ Out.frameStart key f.frame ∈ t.outbox) ∧
  (∀ key f o s, key ≤ 31 → s.ts.powered = true → s.module.mode ≠ .idleLink → nextFrame s (headRt s key) = some f →
    (headRt s key).once.timing.enable = 1 → (headRt s key).own.orders = [o] → (headRt s key).twin.orders = [] →
    (headRt s key).line = none → 0 ≤ modDiff 48 f.frame o.frame → o.arrivedNs + orderLine s (headRt s key) ≤ f.start →
    o.rollback = false ∨ (headRt s key).own.kept = true → (headRt s key).onceOther = (headRt s key).once →
    Completes (.frameStart key) s fun t =>
      (headRt t key).own.force = (headRt s key).own.other ∧ (headRt t key).own.other = (headRt s key).own.force
        ∧ (headRt t key).own.orders = [] ∧ (headRt t key).frame = some f.frame ∧ Out.frameStart key f.frame ∈ t.outbox) ∧
  (∀ key s, key < 32 → headServed s key = true → (headRt s key).frame.isSome = true → (headRt s key).emitted = [] →
    (headRt s key).line = none → (headRt s key).supply ≠ 5 →
    lastRxOf (headRt s key) + holdLimitNs (headRt s key) ≤ (headRt s key).startMono →
    Completes (.holdLimit key) s fun t =>
      (headRt t key).supply = 5 ∧ (headRt t key).plates = (headRt s key).plates + 1
        ∧ TsRaises 0x0780 .head key [it 1 (headRt s key).supply, it 1 5, it 6 ((headRt s key).frame.getD 0),
            it 8 (s.time.mono - lastRxOf (headRt s key))] s t
        ∧ Reporting s { t with ts := s.ts }) ∧
  (∀ key value s, key ≤ 31 → headServed s key = true →
    Completes (.calipersSelfcheck key value) s fun t =>
      (headRt t key).calUnreliable = decide (value ≠ Config.selfCheckValue)
        ∧ (value ≠ Config.selfCheckValue → TsRaises 0x078B .head key [it 4 value] s t) ∧ Reporting s { t with ts := s.ts }) ∧
  (∀ key line errors l s, mapGet (headRt s key).hold line = some l → 2 ≤ errors → s.ts.powered = true →
    Completes (.holdScrub key line errors) s fun t =>
      mapGet (headRt t key).hold line = some { l with bad := true }
        ∧ mapGet (headRt t key).faults 6 = some (mapGetD (headRt s key).faults 6 0 + 1) ∧ Reporting s { t with ts := s.ts })

/-- A line that falls due begins to be emitted, its pixels leaving as their instants come: of the plate where the head shows it; else the
line present of the stream passed, kept in hold memory; else the held line with its held flag set in every span and the material of its own
main section, judged as that section's composition, or, where none is held sound, an empty line in the colours of the head's plate without its
label (R41, R50, R201, R203, R211 to R213).
Where the manual leaves it open this rests on the model's own choices (log entries 41, 44, 46, 93 and 104). -/
def Obligations.LinesDueAreEmitted : Prop :=
  (∀ key line n e s, key ≤ 31 → headServed s key = true → (headRt s key).frame = some n → (headRt s key).line = none →
    line < (headRt s key).once.timing.vActive → mapHas (headRt s key).emitted line = false →
    pixelTime s key (headRt s key) line 0 ≤ s.time.mono → (headRt s key).supply = 5 →
    Completes (.lineDue key ⟨line, e⟩) s fun t =>
      LineRuns key line .plate [] (List.replicate (headRt s key).once.timing.hActive ⟨0, 0, 0⟩) t
        ∧ (headRt t key).hold = (headRt s key).hold) ∧
  (∀ key line n d tok e s, key ≤ 31 → headServed s key = true → (headRt s key).frame = some n → (headRt s key).line = none →
    line < (headRt s key).once.timing.vActive → mapHas (headRt s key).emitted line = false →
    pixelTime s key (headRt s key) line 0 ≤ s.time.mono → (headRt s key).supply ≠ 5 → (headRt s key).passed = some d →
    linePresent (headRt s key) d n line (pixelTime s key (headRt s key) line 0) = some tok →
    spansOk (headRt s key).once.timing.hActive tok.spans = true → tok.pixels.length = (headRt s key).once.timing.hActive →
    Completes (.lineDue key ⟨line, e⟩) s fun t =>
      LineRuns key line (.stream d) tok.spans tok.pixels t
        ∧ mapGet (headRt t key).hold line
          = some { frameNo := tok.frameNo, side := d, spans := tok.spans, pixels := tok.pixels, bad := false }
        ∧ (∀ due, linePresent (headRt t key) d n line due = none)) ∧
  (∀ key line n l e s, key ≤ 31 → headServed s key = true → (headRt s key).frame = some n → (headRt s key).line = none →
    line < (headRt s key).once.timing.vActive → mapHas (headRt s key).emitted line = false →
    pixelTime s key (headRt s key) line 0 ≤ s.time.mono → (headRt s key).supply ≠ 5 →
    (∀ d, (headRt s key).passed = some d → linePresent (headRt s key) d n line (pixelTime s key (headRt s key) line 0) = none) →
    mapGet (headRt s key).hold line = some l → l.bad = false →
    Completes (.lineDue key ⟨line, e⟩) s fun t =>
      LineRuns key line (.held l.side) (l.spans.map fun p => { p with held := true }) l.pixels t
        ∧ (headRt t key).replayed = (headRt s key).replayed + 1 ∧ (headRt t key).hold = (headRt s key).hold) ∧
  (∀ key line n e s, key ≤ 31 → headServed s key = true → (headRt s key).frame = some n → (headRt s key).line = none →
    line < (headRt s key).once.timing.vActive → mapHas (headRt s key).emitted line = false →
    pixelTime s key (headRt s key) line 0 ≤ s.time.mono → (headRt s key).supply ≠ 5 →
    (∀ d, (headRt s key).passed = some d → linePresent (headRt s key) d n line (pixelTime s key (headRt s key) line 0) = none) →
    (∀ l, mapGet (headRt s key).hold line = some l → l.bad = true) →
    Completes (.lineDue key ⟨line, e⟩) s fun t =>
      LineRuns key line .empty [] (List.replicate (headRt s key).once.timing.hActive ⟨0, 0, 0⟩) t
        ∧ (headRt t key).replayed = (headRt s key).replayed + 1 ∧ (headRt t key).hold = (headRt s key).hold) ∧
  (∀ (s : State) (key : Nat) (h : HeadRt) (n : LineNow) (x : Nat) (c : Rgb) (a : LineAcc), n.kind = .empty →
    (emitPixel s key h n x c a).out
      = (if onStripe x n.line then (plateColours h n.errors).stripe else (plateColours h n.errors).plate) :: a.out) ∧
  (∀ (s : State) (key : Nat) (h : HeadRt) (n : LineNow) (side : Side) (x : Nat) (c : Rgb) (a : LineAcc), n.kind = .held side →
    emitPixel s key h n x c a = emitComposed s key h n side true x c a)

/-- What is emitted at each column of a composed line: an unbound pixel as it came; a live one as it came, or with the border of a
concealed window; any other as the scorch of its window, or, where the window has no entry, stripes of the first colour set over it, and
counted. A pixel of a bound span is live only with an entry of its window that names its source and layer, not void, and, unless the source
is internal, with a verdict bit that is live at the pixel's judge instant and a bounded age within the budget 800 ns before its emission, the
two judges agreeing. The plate and an empty line mark every pixel (R31, R32, R41, R45, R50, R201 to R203, R205, R213).
Where the manual leaves it open this rests on the model's own choices (log entries 36, 41, 42, 91, 92 and 93). -/
def Obligations.EveryPixelIsJudged : Prop :=
  (∀ (s : State) (key : Nat) (h : HeadRt) (n : LineNow) (side : Side) (held : Bool) (x : Nat) (c : Rgb) (a : LineAcc) (p : Span),
    (n.spans.find? fun p => p.xStart ≤ x && x < p.xStart + p.length) = some p →
    let o := emitComposed s key h n side held x c a
    let m := (sideOf h side).force
    let e := spanEntry m n.errors p
    let live := pixelLive s e (bitmapOf s side) p (pixelTime s key h n.line x) (judgeTime s key h n.line x)
      && ((e.map MapEntry.internal).getD false || !n.errors.judges.contains x)
    (p.unbound = true → o.out = c :: a.out ∧ o.fresh = none :: a.fresh ∧ o.scorchedPx = a.scorchedPx) ∧
    (p.unbound = false → live = true →
      ∃ w, e = some w ∧ o.scorchedPx = a.scorchedPx
        ∧ o.out = (if p.concealed then concealBorder (windowColours m n.errors p.window w) w.rect x n.line c else c) :: a.out) ∧
    (p.unbound = false → live = false →
      ∃ r, o.out = markPixel h m n.errors (entryRead m n.errors p.window) p r x n.line c :: a.out
        ∧ o.scorchedPx = a.scorchedPx + 1 ∧ o.fresh = none :: a.fresh)) ∧
  (∀ (s : State) (m : HeadMat) (r : LineErrors) (b : BitmapRt) (p : Span) (tP jP : Nat),
    pixelLive s (spanEntry m r p) b p tP jP = true ↔
      ∃ e, mapGet m.entries p.window = some e ∧ r.entries.contains p.window = false ∧ e.sourceId = p.sourceId ∧ e.layer = p.layer
        ∧ p.void = false
        ∧ (e.internal = true ∨ (verdictAt b jP p.sourceId = true
          ∧ ∃ u, uE6At s (tP - 800) = some u ∧ diffAt s (tP - 800) p.originUs < 549755813888
            ∧ diffAt s (tP - 800) p.originUs + ceilDiv u 1000000000 ≤ e.budgetMs * 1000))) ∧
  (∀ (s : State) (key : Nat) (h : HeadRt) (n : LineNow) (x : Nat) (c : Rgb) (a : LineAcc), n.kind = .plate ∨ n.kind = .empty →
    (emitPixel s key h n x c a).scorchedPx = a.scorchedPx + 1 ∧ (emitPixel s key h n x c a).fresh = none :: a.fresh)

/-! ## Recording -/

/-- RECORD_START makes the session that its descriptor and head give, guards its work region and sets the return divisor; FORCE_IDR makes
the next picture IDR; RECORD_STATS delivers the latest record and its length; RECORD_STOP stops the intake and, once no input slot is
held, the session ends with its region guarded until its release; each refuses a head without a session (R228 to R231, R234, R244 to R247).
Where the manual leaves it open this rests on the model's own choices (log entries 15, 49 and 97). -/
def Obligations.RecordingCommandsComplete : Prop :=
  (∀ d b s, Executes d (.recordStart b) s → recordCheck b s = 0 →
    Completes (.recordStart d b) s fun t =>
      mapGet t.record.sessions b.head = some (newSession b s) ∧ (headRt t b.head).returnDiv = b.divisor
        ∧ recordCtx b (newSession b s).pipe ∈ t.gates.contexts
        ∧ t.record = { s.record with sessions := t.record.sessions } ∧ Reports d (.recordStart b) 0 [] s t
        ∧ Reporting s { t with record := s.record, gates := s.gates, ts := s.ts }) ∧
  (∀ d b s, Executes d (.recordStart b) s → recordCheck b s ≠ 0 →
    Completes (.recordStart d b) s fun t => Reports d (.recordStart b) (recordCheck b s) [] s t ∧ Reporting s t) ∧
  (∀ d key x s, Executes d (.recordForceIdr key) s → key ≤ 31 → sessionOf s key = some x →
    Completes (.recordForceIdr d key) s fun t =>
      sessionOf t key = some { x with forceIdr := true } ∧ (∀ k, k ≠ key → sessionOf t k = sessionOf s k)
        ∧ Reports d (.recordForceIdr key) 0 [] s t ∧ Reporting s { t with record := s.record }) ∧
  (∀ d key s, Executes d (.recordForceIdr key) s → key ≤ 31 → sessionOf s key = none →
    Completes (.recordForceIdr d key) s fun t => Reports d (.recordForceIdr key) 0x0383 [] s t ∧ Reporting s t) ∧
  (∀ d key x r l s, Executes d (.recordStats key) s → key ≤ 31 → sessionOf s key = some x → x.body.statsEn = true → x.stats = r :: l →
    d.dmaOk = true →
    Completes (.recordStats d key) s fun t =>
      Delivers d (itemBytes (statItems key r)) t ∧ Reports d (.recordStats key) 0 [it 4 (statBytes x.width x.height)] s t
        ∧ Reporting s t) ∧
  (∀ d key x s, Executes d (.recordStats key) s → key ≤ 31 → sessionOf s key = some x → x.body.statsEn = true → x.stats = [] →
    Completes (.recordStats d key) s fun t => Reports d (.recordStats key) 0 [it 4 0] s t ∧ Reporting s t) ∧
  (∀ d key abort x s, Executes d (.recordStop key abort) s → key ≤ 31 → sessionOf s key = some x → x.stopping = none →
    Completes (.recordStop d key abort) s fun t =>
      sessionOf t key = some { x with stopping := some (ticketOf d 0x0801 s), input := if abort then [] else x.input }
        ∧ (headRt t key).returnDiv = 0 ∧ ticketOf d 0x0801 s ∈ t.queue.inFlight
        ∧ Reporting s { t with record := s.record, ts := s.ts }) ∧
  (∀ key x tk s, sessionOf s key = some x → x.stopping = some tk → x.input = [] →
    Completes (.recordStopComplete key) s fun t =>
      sessionOf t key = none ∧ mapGet t.record.guards x.body.workBase = some (x.body.workSize, key)
        ∧ Finishes tk 0 [] s t ∧ Reporting s { t with record := s.record }) ∧
  (∀ base size key s, mapGet s.record.guards base = some (size, key) → contextHeld s (.record key base) = false →
    Completes (.recordReleased base) s fun t =>
      mapGet t.record.guards base = none ∧ t.record.sessions = s.record.sessions
        ∧ (∀ c ∈ t.gates.contexts, c.ctx ≠ .record key base)
        ∧ Raises 0x0885 .head key [it 8 base] s t ∧ Reporting s { t with record := s.record, gates := s.gates }) ∧
  (∀ d pipe s, Executes d (.encodeSelftest pipe) s → pipe ≤ 1 → mapGet s.record.tests pipe = none → pipeCarries s pipe = false →
    Completes (.encodeSelftest d pipe) s fun t =>
      mapGet t.record.tests pipe = some (ticketOf d 0x0804 s) ∧ ticketOf d 0x0804 s ∈ t.queue.inFlight
        ∧ t.record.sessions = s.record.sessions ∧ Reporting s { t with record := s.record }) ∧
  (∀ d pipe s, Executes d (.encodeSelftest pipe) s → pipe ≤ 1 → pipeCarries s pipe = true → s.module.mode ≠ .maintenance →
    Completes (.encodeSelftest d pipe) s fun t => Reports d (.encodeSelftest pipe) 0x0384 [] s t ∧ Reporting s t) ∧
  (∀ pipe pass tk s, mapGet s.record.tests pipe = some tk →
    Completes (.encodeSelftestDone pipe pass) s fun t =>
      mapGet t.record.tests pipe = none
        ∧ (∀ key x, sessionOf s key = some x → sessionOf t key = some (if x.pipe = pipe then { x with forceIdr := true } else x))
        ∧ Finishes tk 0 [it 1 (if pass then 0 else 1)] s t ∧ Reporting s { t with record := s.record })

/-- A returned frame under way reaches its session: one that the divisor selects goes to a free input slot, through the session's gates;
with none free, or one that the divisor in force does not select, it is missed, and the next picture says so. The oldest picture of a session
is coded whole, and counts; its access unit goes to the host ring with its record, or, where it does not fit, is discarded and the next picture
is IDR (R234, R236, R238 to R240, R242 to R244).
Where the manual leaves it open this rests on the model's own choices (log entries 12, 49, 97 and 105). -/
def Obligations.PicturesAreRecorded : Prop :=
  (∀ key n h px x k s, (headRt s key).returned.find? (fun p => p.1.frameNo = n) = some (h, px) → sessionOf s key = some x →
    mainUp s = true → x.ended = false → x.stopping = none → mapGet s.record.tests x.pipe = none → n % nEff s x = 0 → freeInput x = some k →
    let u := putHead key { headRt s key with returned := (headRt s key).returned.filter fun p => p.1.frameNo != n } s
    (writeInput x k h px u).1 = false →
    Completes (.returnFrameRx ⟨key, n⟩) s fun t =>
      sessionOf t key = some { x with
          input := x.input ++ [{ slot := k, header := h, missed := x.missed, nEff := nEff s x, arrivedNs := s.time.mono }], missed := false }
        ∧ (∀ j, j ≠ key → sessionOf t j = sessionOf s j) ∧ t.mem = (writeInput x k h px u).2.mem ∧ headRt t key = headRt u key
        ∧ Reporting u { t with record := s.record, mem := s.mem, gates := s.gates }) ∧
  (∀ key n h px x s, (headRt s key).returned.find? (fun p => p.1.frameNo = n) = some (h, px) → sessionOf s key = some x →
    mainUp s = true → x.ended = false → x.stopping = none → n % nEff s x ≠ 0 ∨ (mapGet s.record.tests x.pipe).isSome = true →
    Completes (.returnFrameRx ⟨key, n⟩) s fun t =>
      sessionOf t key = some { x with missed := true } ∧ Reporting s { t with record := s.record, ts := s.ts }) ∧
  (∀ key n h px x s, (headRt s key).returned.find? (fun p => p.1.frameNo = n) = some (h, px) → sessionOf s key = some x →
    mainUp s = true → x.ended = false → x.stopping = none → mapGet s.record.tests x.pipe = none → n % nEff s x = 0 → freeInput x = none →
    mapGet s.queue.limiters (limKey 0x0880 key 0) = none →
    Completes (.returnFrameRx ⟨key, n⟩) s fun t =>
      sessionOf t key = some { x with missed := true } ∧ Raises 0x0880 .head key [it 4 1] s t
        ∧ Reporting s { t with record := s.record, ts := s.ts }) ∧
  (∀ key n h px s, (headRt s key).returned.find? (fun p => p.1.frameNo = n) = some (h, px) → sessionOf s key = none →
    Completes (.returnFrameRx ⟨key, n⟩) s fun t =>
      t = putHead key { headRt s key with returned := (headRt s key).returned.filter fun p => p.1.frameNo != n } s) ∧
  (∀ key lo hi x f rest s, sessionOf s key = some x → x.input = f :: rest → mainUp s = true → mapGet s.record.tests x.pipe = none →
    let rd := lo + hi * 4294967296
    let idr := nextIdr x
    let p := readInput x f.slot s
    let ref := if idr then (default, false, p.2.2) else readReference x p.2.2
    let rows := codeRows x f idr p.1 ref.1
    let au := accessUnit s x f rows idr
    let n := alignUp (32 + au.length) 16
    let pad := padBytes x.body.ringSize x.wr n
    p.2.1 = false → ref.2.1 = false → x.wr - rd + pad + n ≤ x.body.ringSize →
    Completes (.pictureCoded key false lo hi) s fun t =>
      sessionOf t key = some { x with
          input := rest, coded := x.coded + 1, lastCoded := f.header.frameNo, lastIdr := if idr then f.header.frameNo else x.lastIdr,
          sinceIdr := if idr then 0 else x.sinceIdr + 1, forceIdr := false, wr := x.wr + pad + n, rd := rd,
          ausWritten := x.ausWritten + 1, stats := if x.body.statsEn then (statOf x f idr rows :: x.stats).take 4 else x.stats }
        ∧ Out.hostBytes (x.body.ringAddr + (x.wr + pad + 32) % x.body.ringSize) au ∈ t.outbox
        ∧ Out.hostWrite x.body.progressAddr [it 8 (x.wr + pad + n)] ∈ t.outbox
        ∧ (∀ j, j ≠ key → sessionOf t j = sessionOf s j)
        ∧ Reporting s { t with record := s.record, mem := s.mem, gates := s.gates }) ∧
  (∀ key lo hi x f rest s, sessionOf s key = some x → x.input = f :: rest → mainUp s = true → mapGet s.record.tests x.pipe = none →
    let rd := lo + hi * 4294967296
    let idr := nextIdr x
    let p := readInput x f.slot s
    let ref := if idr then (default, false, p.2.2) else readReference x p.2.2
    let au := accessUnit s x f (codeRows x f idr p.1 ref.1) idr
    let n := alignUp (32 + au.length) 16
    p.2.1 = false → ref.2.1 = false → x.body.ringSize < x.wr - rd + padBytes x.body.ringSize x.wr n + n →
    Completes (.pictureCoded key false lo hi) s fun t =>
      (∃ y, sessionOf t key = some y ∧ y.coded = x.coded + 1 ∧ y.wr = x.wr ∧ y.ausWritten = x.ausWritten
          ∧ y.ausDropped = x.ausDropped + 1 ∧ y.forceIdr = true
          ∧ (rest = [] → y.input = [] ∧ y.missed = true)
          ∧ ∀ g l, rest = g :: l → y.input = { g with missed := true } :: l)
        ∧ (∀ j, j ≠ key → sessionOf t j = sessionOf s j)
        ∧ Reporting s { t with record := s.record, mem := s.mem, gates := s.gates }) ∧
  (∀ key stopped lo hi x f rest s, sessionOf s key = some x → x.input = f :: rest → mainUp s = true → mapGet s.record.tests x.pipe = none →
    stopped = true ∨ (readInput x f.slot s).2.1 = true →
    Completes (.pictureCoded key stopped lo hi) s fun t =>
      (∃ y, sessionOf t key = some y ∧ y.coded = x.coded ∧ y.wr = x.wr ∧ (rest = [] → y.input = [] ∧ y.missed = true)
          ∧ ∀ g l, rest = g :: l → y.input = { g with missed := true } :: l)
        ∧ (∀ j, j ≠ key → sessionOf t j = sessionOf s j)) ∧
  (∀ key stopped lo hi s, sessionOf s key = none → Completes (.pictureCoded key stopped lo hi) s fun t => t = s)

/-! ## The overlay engines -/

/-- Lists and fonts are loaded whole and only with their checks passed, a list is freed, a binding is made on the engine named or least
loaded, and taken away once its run has ended; OVERLAY_RUN sets a text slot and makes an ON_COMMAND run due; OVERLAY_STATUS delivers its
record (R250, R257, R259, R265, R267, R285).
Where the manual leaves it open this rests on the model's own choices (log entries 14, 48 and 113). -/
def Obligations.OverlayCommandsComplete : Prop :=
  (∀ d list length bytes cs s, Executes d (.overlayListLoad list length bytes) s → list ≤ 255 → length % 8 = 0 → 16 ≤ length →
    length ≤ 32768 → d.dmaOk = true → parseList 4096 0 (bytes.take length) = .inl cs →
    listStoreUsed s list + length ≤ Config.listStore → (∀ p ∈ s.overlay.bindings, p.2.body.list ≠ list) →
    Completes (.overlayListLoad d list length bytes) s fun t =>
      mapGet t.overlay.lists list = some (bytes.take length) ∧ t.overlay = { s.overlay with lists := t.overlay.lists }
        ∧ (∀ k, k ≠ list → mapGet t.overlay.lists k = mapGet s.overlay.lists k)
        ∧ Reports d (.overlayListLoad list length bytes) 0 [] s t ∧ Reporting s { t with overlay := s.overlay }) ∧
  (∀ d list length bytes off s, Executes d (.overlayListLoad list length bytes) s → list ≤ 255 → length % 8 = 0 → 16 ≤ length →
    length ≤ 32768 → d.dmaOk = true → parseList 4096 0 (bytes.take length) = .inr off →
    Completes (.overlayListLoad d list length bytes) s fun t =>
      Reports d (.overlayListLoad list length bytes) 0x0191 [it 4 off] s t ∧ Reporting s t) ∧
  (∀ d list s, Executes d (.overlayListFree list) s → list ≤ 255 → mapHas s.overlay.lists list = true →
    (∀ p ∈ s.overlay.bindings, p.2.body.list ≠ list) →
    Completes (.overlayListFree d list) s fun t =>
      mapGet t.overlay.lists list = none ∧ (∀ k, k ≠ list → mapGet t.overlay.lists k = mapGet s.overlay.lists k)
        ∧ t.overlay = { s.overlay with lists := t.overlay.lists }
        ∧ Reports d (.overlayListFree list) 0 [] s t ∧ Reporting s { t with overlay := s.overlay }) ∧
  (∀ d list p s, Executes d (.overlayListFree list) s → list ≤ 255 → mapHas s.overlay.lists list = true →
    p ∈ s.overlay.bindings → p.2.body.list = list →
    Completes (.overlayListFree d list) s fun t => Reports d (.overlayListFree list) 0x0396 [] s t ∧ Reporting s t) ∧
  (∀ d b s, Executes d (.overlayFontLoad b) s → 1 ≤ b.font → b.font ≤ 15 → 4 ≤ b.cellW → b.cellW ≤ 32 → 4 ≤ b.cellH → b.cellH ≤ 64 →
    1 ≤ b.count → b.count ≤ 256 → b.firstCode + b.count ≤ 256 → d.dmaOk = true →
    fontStoreUsed s b.font + fontBytes b.cellW b.cellH b.count ≤ Config.fontStore →
    Completes (.overlayFontLoad d b) s fun t =>
      mapGet t.overlay.fonts b.font
          = some { cellW := b.cellW, cellH := b.cellH, firstCode := b.firstCode, count := b.count, glyphs := b.glyphs }
        ∧ (∀ k, k ≠ b.font → mapGet t.overlay.fonts k = mapGet s.overlay.fonts k)
        ∧ t.overlay = { s.overlay with fonts := t.overlay.fonts }
        ∧ Reports d (.overlayFontLoad b) 0 [] s t ∧ Reporting s { t with overlay := s.overlay }) ∧
  (∀ d b e s, Executes d (.overlayBind b) s → e = (if b.engine = 0xFF then leastEngine s else b.engine) → bindCheck b e d.dmaOk s = 0 →
    Completes (.overlayBind d b) s fun t =>
      mapGet t.overlay.bindings b.binding
          = some { body := b, engine := e, slots := [], due := [], unbinding := none, stopping := false }
        ∧ (∀ k, k ≠ b.binding → mapGet t.overlay.bindings k = mapGet s.overlay.bindings k)
        ∧ t.overlay = { s.overlay with bindings := t.overlay.bindings }
        ∧ Reports d (.overlayBind b) 0 [] s t ∧ Reporting s { t with overlay := s.overlay }) ∧
  (∀ d b e s, Executes d (.overlayBind b) s → e = (if b.engine = 0xFF then leastEngine s else b.engine) → bindCheck b e d.dmaOk s ≠ 0 →
    Completes (.overlayBind d b) s fun t => Reports d (.overlayBind b) (bindCheck b e d.dmaOk s) [] s t ∧ Reporting s t) ∧
  (∀ d k b s, Executes d (.overlayUnbind k) s → k ≤ 127 → mapGet s.overlay.bindings k = some b → b.unbinding = none →
    Completes (.overlayUnbind d k) s fun t =>
      mapGet t.overlay.bindings k = some { b with due := [], unbinding := some (ticketOf d 0x0904 s) }
        ∧ (∀ j, j ≠ k → mapGet t.overlay.bindings j = mapGet s.overlay.bindings j)
        ∧ Reporting s { t with overlay := s.overlay }) ∧
  (∀ k b tk s, mapGet s.overlay.bindings k = some b → b.unbinding = some tk → bindingRuns s k = false →
    Completes (.overlayUnbindComplete k) s fun t =>
      mapGet t.overlay.bindings k = none ∧ (∀ j, j ≠ k → mapGet t.overlay.bindings j = mapGet s.overlay.bindings j)
        ∧ (∀ c ∈ t.gates.contexts, c.ctx ≠ .overlay k) ∧ Finishes tk 0 [] s t
        ∧ Reporting s { t with overlay := s.overlay, gates := s.gates }) ∧
  (∀ d b x s, Executes d (.overlayRun b) s → b.binding ≤ 127 → mapGet s.overlay.bindings b.binding = some x → x.unbinding = none →
    x.stopping = false → x.body.trigger = 2 → x.due = [] → b.setSlot = false →
    Completes (.overlayRun d b) s fun t =>
      mapGet t.overlay.bindings b.binding = some { x with
          due := [{ order := s.overlay.order, frame := none, clockNs := none, tickets := [ticketOf d 0x0905 s], noWait := b.noWait,
                    since := none, lateNs := none }] }
        ∧ ticketOf d 0x0905 s ∈ t.queue.inFlight ∧ Reporting s { t with overlay := s.overlay }) ∧
  (∀ d b x s, Executes d (.overlayRun b) s → b.binding ≤ 127 → mapGet s.overlay.bindings b.binding = some x → x.unbinding = none →
    x.stopping = false → x.body.trigger ≠ 2 → b.setSlot = true → b.slot ≤ 7 → b.textLen ≤ 24 →
    Completes (.overlayRun d b) s fun t =>
      mapGet t.overlay.bindings b.binding = some { x with slots := mapPut x.slots b.slot (b.text.take b.textLen) }
        ∧ Reports d (.overlayRun b) 0 [] s t ∧ Reporting s { t with overlay := s.overlay }) ∧
  (∀ d e s, Executes d (.overlayStatus e) s → e ≤ 7 → d.dmaOk = true →
    Completes (.overlayStatus d e) s fun t =>
      Delivers d (recordBytes 256 (overlayStatusItems s e)) t ∧ Reports d (.overlayStatus e) 0 [] s t ∧ Reporting s t)

/-- An idle engine begins its first due run on the free image of lowest index; without an image a run that does not wait is skipped, and
one that waits gives up after 100 ms. A run that reaches END makes its image the newest of the surface; one abandoned leaves the newest
image as it is, as does a seeded run whose surface has got a newer image (R260 to R265).
Where the manual leaves it open this rests on the model's own choices (log entries 18 and 48). -/
def Obligations.OverlayRunsStartAndEnd : Prop :=
  (∀ e k due rest b x i s, mainUp s = true → windingDown s = false → e ≤ 7 → (ovEngine s e).run = none →
    dueOrder s e = (k, due) :: rest → mapGet s.overlay.bindings k = some b → mapGet s.compose.surfaces b.body.surface = some x →
    targetImage s b.body.surface x = some i →
    Completes (.overlayRunStart e) s fun t =>
      (ovEngine t e).run = some
          { binding := k, image := i, newest := x.newest, startNs := s.time.wall, list := listOf s b, slots := b.slots,
            fonts := s.overlay.fonts, due := due }
        ∧ mapGet t.overlay.bindings k = some { b with due := b.due.drop 1 } ∧ overlayCtx s b.body e ∈ t.gates.contexts
        ∧ Reporting s { t with overlay := s.overlay, gates := s.gates }) ∧
  (∀ e k due b x s, mainUp s = true → windingDown s = false → e ≤ 7 → (ovEngine s e).run = none → dueOrder s e = [(k, due)] →
    mapGet s.overlay.bindings k = some b → mapGet s.compose.surfaces b.body.surface = some x →
    targetImage s b.body.surface x = none → due.tickets = [] → mapGet s.queue.limiters (limKey 0x0981 k 1) = none →
    Completes (.overlayRunStart e) s fun t =>
      (ovEngine t e).run = none ∧ (ovEngine t e).skipped = (ovEngine s e).skipped + 1
        ∧ mapGet t.overlay.bindings k = some { b with due := b.due.drop 1 }
        ∧ Raises 0x0981 .engine (32 + e) [it 2 k, it 1 1, it 4 1] s t ∧ Reporting s { t with overlay := s.overlay }) ∧
  (∀ k b due rest since tk s, mapGet s.overlay.bindings k = some b → b.due = due :: rest → due.since = some since →
    since + 100000000 ≤ s.time.mono → due.tickets = [tk] →
    Completes (.overlayNoImageTimeout k) s fun t =>
      mapGet t.overlay.bindings k = some { b with due := rest } ∧ Finishes tk 0x0394 [] s t
        ∧ Reporting s { t with overlay := s.overlay }) ∧
  (∀ e r b x s, (ovEngine s e).run = some r → mainUp s = true → runExpired s r = false →
    mapGet s.overlay.bindings r.binding = some b →
    mapGet s.compose.surfaces b.body.surface = some x → b.body.seed = false → b.body.present = true →
    (runList { engine := e, binding := r.binding, surface := x.body, image := r.image, palette := b.body.palette } r (commandsOf r.list) 0 0
      { refused := false, badCopy := false, units := 0, st := s }).1 = none →
    Completes (.overlayRunEnd e) s fun t =>
      (ovEngine t e).run = none ∧ (ovEngine t e).presented = (ovEngine s e).presented + 1
        ∧ mapGet t.compose.surfaces b.body.surface = some
            { x with newest := some r.image, newestNs := s.time.mono,
                     before := if x.newestNs = s.time.mono then x.before else x.newest }
        ∧ Reporting s { t with overlay := s.overlay, compose := s.compose, mem := s.mem, gates := s.gates }) ∧
  (∀ e r b x cause off s, (ovEngine s e).run = some r → mainUp s = true → runExpired s r = false → mapGet s.overlay.bindings r.binding = some b →
    mapGet s.compose.surfaces b.body.surface = some x → b.body.seed = false →
    (runList { engine := e, binding := r.binding, surface := x.body, image := r.image, palette := b.body.palette } r (commandsOf r.list) 0 0
      { refused := false, badCopy := false, units := 0, st := s }).1 = some (cause, off) →
    Completes (.overlayRunEnd e) s fun t =>
      (ovEngine t e).run = none ∧ mapGetD (ovEngine t e).abandoned cause 0 = mapGetD (ovEngine s e).abandoned cause 0 + 1
        ∧ t.compose = s.compose ∧ Reporting s { t with overlay := s.overlay, mem := s.mem, gates := s.gates }) ∧
  (∀ e r b x s, (ovEngine s e).run = some r → mainUp s = true → runExpired s r = false →
    mapGet s.overlay.bindings r.binding = some b →
    mapGet s.compose.surfaces b.body.surface = some x → b.body.seed = true → x.newest ≠ r.newest → b.body.trigger = 0 →
    Completes (.overlayRunEnd e) s fun t =>
      (ovEngine t e).run = none ∧ (ovEngine t e).superseded = (ovEngine s e).superseded + 1
        ∧ Raises 0x0984 .engine (32 + e) [it 2 r.binding] s t ∧ Reporting s { t with overlay := s.overlay }) ∧
  (∀ e r s, (ovEngine s e).run = some r → runExpired s r = true →
    Completes (.overlayRunTimeout e) s fun t =>
      (ovEngine t e).run = none ∧ mapGetD (ovEngine t e).abandoned 2 0 = mapGetD (ovEngine s e).abandoned 2 0 + 1
        ∧ (∀ tk, r.due.tickets = [tk] → Finishes tk 0x0395 [] s t)
        ∧ Reporting s { t with overlay := s.overlay, mem := s.mem, free := s.free })

/-! ## Scene transactions -/

/-- TXN_BEGIN opens a transaction of the modules named and their twins, with a copy of the bank in force to stage; TXN_STAGE writes its
items there, or names the offset of the first bad one; TXN_ABORT ends it with every staged bank freed; TXN_STATUS delivers the apply
report (R298, R300 to R302, R317, R318).
Where the manual leaves it open this rests on the model's own choices (log entries 15 and 50). -/
def Obligations.TransactionCommandsComplete : Prop :=
  (∀ d lockstep modules s, Executes d (.txnBegin lockstep modules) s → txnBeginCheck modules s = 0 →
    (∀ p, s.txn.part = some p → p.txn ≠ nextTxnId s) →
    Completes (.txnBegin d lockstep modules) s fun t =>
      txnOf t (nextTxnId s) = some { newTxn lockstep (participants s modules) with phase := .open_ } ∧ t.txn.lastId = nextTxnId s
        ∧ (position s ∈ participants s modules →
          t.scene.other = s.scene.inForce ∧ t.scene.otherUse = .staged ∧ t.txn.part.map PartTxn.txn = some (nextTxnId s))
        ∧ t.scene.inForce = s.scene.inForce ∧ t.scene.gen = s.scene.gen
        ∧ Raises 0x0180 .transaction (nextTxnId s) [it 1 0, it 1 1, it 8 0] s t
        ∧ Reports d (.txnBegin lockstep modules) 0
            [it 2 (nextTxnId s), it 2 0, it 8 (sumN ((participants s modules).map fun p => 2 ^ p))] s t
        ∧ Reporting s { t with txn := s.txn, scene := s.scene }) ∧
  (∀ d lockstep modules s, Executes d (.txnBegin lockstep modules) s → txnBeginCheck modules s ≠ 0 →
    Completes (.txnBegin d lockstep modules) s fun t =>
      Reports d (.txnBegin lockstep modules) (txnBeginCheck modules s) [] s t ∧ Reporting s t) ∧
  (∀ d id count len items x p s, Executes d (.txnStage id (position s) count len items) s → s.cascade.headstock = true →
    txnOf s id = some x → x.phase = .open_ → position s ∈ x.parts → twinPos s (position s) = none → s.txn.part = some p → p.txn = id →
    d.dmaOk = true → stageBad count len items = none →
    Completes (.txnStage d id (position s) count len items) s fun t =>
      t.scene = { s.scene with other := (items.take count).foldl (stageItem 0) s.scene.other } ∧ t.txn = s.txn
        ∧ Reports d (.txnStage id (position s) count len items) 0 [] s t ∧ Reporting s { t with scene := s.scene }) ∧
  (∀ d id pos count len items x o s, Executes d (.txnStage id pos count len items) s → s.cascade.headstock = true →
    txnOf s id = some x → x.phase = .open_ → pos ∈ x.parts → d.dmaOk = true → stageBad count len items = some o →
    Completes (.txnStage d id pos count len items) s fun t =>
      Reports d (.txnStage id pos count len items) 0x0110 [it 4 o] s t ∧ Reporting s t) ∧
  (∀ d id x s, Executes d (.txnAbort id) s → s.cascade.headstock = true → txnOf s id = some x → abortable x.phase = true →
    x.ticket = none →
    Completes (.txnAbort d id) s fun t =>
      txnOf t id = some { x with phase := .aborted } ∧ (∀ j, j ≠ id → txnOf t j = txnOf s j)
        ∧ (s.txn.part.map PartTxn.txn = some id → t.txn.part = none ∧ t.scene.otherUse ≠ .staged)
        ∧ t.scene.inForce = s.scene.inForce ∧ Reports d (.txnAbort id) 0 [] s t
        ∧ Reporting s { t with txn := s.txn, scene := s.scene }) ∧
  (∀ d id x s, Executes d (.txnAbort id) s → s.cascade.headstock = true → txnOf s id = some x → abortable x.phase = false →
    Completes (.txnAbort d id) s fun t => Reports d (.txnAbort id) 0x0311 [] s t ∧ Reporting s t) ∧
  (∀ d id len x s, Executes d (.txnStatus id len) s → s.cascade.headstock = true → txnOf s id = some x → 16 ≤ len → d.dmaOk = true →
    Completes (.txnStatus d id len) s fun t =>
      Delivers d (itemBytes (applyReportItems id x len)) t ∧ Reports d (.txnStatus id len) 0 [] s t ∧ Reporting s t)

/-- Validation asks every participant and ends once every result is in: VALID with no failure, else OPEN again with the first code. A commit
of a VALID transaction prepares; the last yes fixes the instant T and the frames and commits; a no, or a vote missing after 50 ms, aborts
(R302, R303, R307 to R309).
Where the manual leaves it open this rests on the model's own choices (log entries 50 and 106). -/
def Obligations.TransactionsValidateAndVote : Prop :=
  (∀ d id len x s, Executes d (.txnValidate id len) s → s.cascade.headstock = true → txnOf s id = some x → x.phase = .open_ →
    x.ticket = none → position s ∉ x.parts → 64 ≤ len →
    Completes (.txnValidate d id len) s fun t =>
      txnOf t id = some { x with ticket := some (ticketOf d 0x0102 s), isCommit := false, reportLen := len, results := [],
                                 phase := .validating }
        ∧ Out.message .east .control "VALIDATION_REQUEST" [(id : Int)] ∈ t.outbox
        ∧ Out.message .west .control "VALIDATION_REQUEST" [(id : Int)] ∈ t.outbox
        ∧ Reporting s { t with txn := s.txn }) ∧
  (∀ id pos v l x tk s, s.cascade.headstock = true → txnOf s id = some x → x.phase = .validating → pos ∈ x.parts → x.ticket = some tk →
    x.isCommit = false → tk.dmaOk = true → (∀ p ∈ x.parts, p ≠ pos → mapHas x.results p = true) →
    Completes (.validationResultRx id pos v l) s fun t =>
      let y := { x with results := mapPut x.results pos (v, l) }
      let entries := (mapVals y.results).flatMap Prod.snd ++ cascadeChecks s y
      (txnOf t id).map Txn.phase = some (if firstCode entries = 0 then .valid else .open_)
        ∧ Finishes tk (firstCode entries) [] s t ∧ Reporting s { t with txn := s.txn }) ∧
  (∀ id p s, s.cascade.headstock = false → inService s = true → s.txn.part = some p → p.txn = id →
    Completes (.validationRequestRx id) s fun t =>
      (∃ f, Out.message (headstockBond s) .control "VALIDATION_RESULT" ([(id : Int), position s, firstCode (ownEntries s)] ++ f) ∈ t.outbox)
        ∧ Reporting s t) ∧
  (∀ d id apply len x s, Executes d (.txnCommit id apply len) s → s.cascade.headstock = true → txnOf s id = some x → x.phase = .valid →
    x.ticket = none → 1040 ≤ len → apply ≤ s.time.wall + 60 * second → activationMeets s x apply = false → position s ∉ x.parts →
    Completes (.txnCommit d id apply len) s fun t =>
      txnOf t id = some { x with ticket := some (ticketOf d 0x0103 s), isCommit := true, reportLen := len, askedNs := apply, votes := [],
                                 prepareNs := s.time.mono, phase := .preparing }
        ∧ Out.message .east .control "PREPARE" [(id : Int)] ∈ t.outbox ∧ Out.message .west .control "PREPARE" [(id : Int)] ∈ t.outbox
        ∧ Reporting s { t with txn := s.txn }) ∧
  (∀ id p s, s.cascade.headstock = false → s.txn.part = some p → p.txn = id → prepareCode s = 0 →
    Completes (.prepareRx id) s fun t =>
      t.txn.part = some { p with votedYes := true, votedNs := s.time.mono, groups := affectedGroups s.scene.inForce s.scene.other }
        ∧ Out.message (headstockBond s) .control "VOTE" [(id : Int), position s, 1, 0] ∈ t.outbox ∧ Reporting s { t with txn := s.txn }) ∧
  (∀ id p s, s.cascade.headstock = false → s.txn.part = some p → p.txn = id → prepareCode s ≠ 0 →
    Completes (.prepareRx id) s fun t =>
      Out.message (headstockBond s) .control "VOTE" [(id : Int), position s, 0, prepareCode s] ∈ t.outbox ∧ Reporting s t) ∧
  (∀ id pos x T s, s.cascade.headstock = true → txnOf s id = some x → x.phase = .preparing → pos ∈ x.parts → mapHas x.votes pos = false →
    (∀ p ∈ x.parts, p ≠ pos → mapHas x.votes p = true) →
    T = (if x.askedNs = 0 then s.time.wall + 3 * pMax ((affectedRecords s x).map Prod.snd) else x.askedNs) →
    s.time.wall + 3 * pMax ((affectedRecords s x).map Prod.snd) ≤ T →
    Completes (.voteRx id pos true 0) s fun t =>
      (∃ y, txnOf t id = some y ∧ y.phase = .committed ∧ y.applyNs = some T
          ∧ y.frames = (affectedRecords s x).map fun p => (p.1, applyFrame s p.1 p.2 T))
        ∧ t.scene = s.scene ∧ Reporting s { t with txn := s.txn }) ∧
  (∀ id pos code x tk s, s.cascade.headstock = true → txnOf s id = some x → x.phase = .preparing → pos ∈ x.parts →
    mapHas x.votes pos = false → x.ticket = some tk → x.isCommit = true →
    Completes (.voteRx id pos false code) s fun t =>
      (txnOf t id).map Txn.phase = some .aborted ∧ Finishes tk 0x0312 [it 2 code, it 1 pos] s t
        ∧ Raises 0x0181 .transaction id [it 1 pos, it 1 0, it 2 code] s t
        ∧ t.scene.inForce = s.scene.inForce ∧ Reporting s { t with txn := s.txn, scene := s.scene }) ∧
  (∀ id pos x tk s, txnOf s id = some x → x.phase = .preparing → x.prepareNs + 50000000 ≤ s.time.mono →
    x.parts.find? (fun p => !mapHas x.votes p) = some pos → x.ticket = some tk → x.isCommit = true →
    Completes (.voteTimeout id) s fun t =>
      (txnOf t id).map Txn.phase = some .aborted ∧ Finishes tk 0x0510 [it 2 0, it 1 pos] s t
        ∧ t.scene.inForce = s.scene.inForce ∧ Reporting s { t with txn := s.txn, scene := s.scene })

/-- A participant that voted holds the commit, and at its deadline its banks change places, its gate rule sets swap and its scene
generation increases; a cancel in time frees its bank. The Headstock resends, cancels, decides, leaves laggards behind, and ends the
transaction in APPLIED or ABORTED_AFTER_COMMIT with its command; out of contact a bank is freed after its time; a module behind its twin
knows it (R299, R309 to R314, R318, R387).
Where the manual leaves it open this rests on the model's own choices (log entries 50 and 106). -/
def Obligations.TransactionsApply : Prop :=
  (∀ m p s, s.txn.part = some p → p.txn = m.txn → inService s = true → m.kind = .commit → p.votedYes = true → p.applied = false →
    p.commit = none → s.cascade.headstock = false →
    Completes (.commitRx m) s fun t =>
      let q := { p with commit := some m, frames := partFrames p m.frames, late := false, missed := false }
      t.txn.part = some { q with missed := partDue s q } ∧ t.scene = s.scene
        ∧ Out.message (headstockBond s) .control "COMMIT_ACK" [(m.txn : Int), position s] ∈ t.outbox
        ∧ (partDue s q = true →
          ∃ f, Out.message (headstockBond s) .control "APPLY_REPORT" ([(p.txn : Int), position s, 0, 0, 0] ++ f) ∈ t.outbox)
        ∧ Reporting s { t with txn := s.txn }) ∧
  (∀ m plus p s, s.txn.part = some p → p.txn = m.txn → inService s = true → m.kind = .retarget plus → p.votedYes = true →
    p.applied = false → s.cascade.headstock = false →
    partDue s { p with commit := some m, frames := partFrames p m.frames, late := true, missed := false } = false →
    Completes (.commitRx m) s fun t =>
      t.txn.part = some { p with commit := some m, frames := partFrames p m.frames, late := true, missed := false }
        ∧ t.scene = s.scene ∧ Reporting s { t with txn := s.txn }) ∧
  (∀ m p s, s.txn.part = some p → p.txn = m.txn → inService s = true → m.kind = .cancel → p.applied = false →
    (p.commit = none ∨ partDue s p = false) → s.cascade.headstock = false →
    Completes (.commitRx m) s fun t =>
      t.txn.part = none ∧ t.scene.otherUse ≠ .staged ∧ t.scene.inForce = s.scene.inForce ∧ t.scene.gen = s.scene.gen
        ∧ (∃ f, Out.message (headstockBond s) .control "APPLY_REPORT" ([(p.txn : Int), position s, 0, 1, 0] ++ f) ∈ t.outbox)
        ∧ Reporting s { t with txn := s.txn, scene := s.scene }) ∧
  (∀ m p s, s.txn.part = some p → p.txn = m.txn → inService s = true → m.kind = .rollback → p.applied = true →
    s.cascade.headstock = false → (∀ l ∈ latches s (partT p) p.frames 2, s.time.wall < l) →
    Completes (.commitRx m) s fun t =>
      t.scene.inForce = s.scene.other ∧ t.scene.gen = (s.scene.gen + 1) % 4294967296 ∧ t.gates.rules = s.scene.other.rules
        ∧ t.txn.part = none ∧ (∃ f, Out.message (headstockBond s) .control "APPLY_REPORT" ([(p.txn : Int), position s, 0, 0, 1] ++ f) ∈ t.outbox)
        ∧ Reporting s { t with txn := s.txn, scene := s.scene, gates := s.gates }) ∧
  (∀ p s, s.txn.part = some p → p.commit.isSome = true → p.missed = false → p.applied = false → inService s = true →
    partDue s p = true → s.cascade.headstock = false →
    Completes .txnApply s fun t =>
      t.scene = { s.scene with inForce := s.scene.other, other := s.scene.inForce, otherUse := .retained,
                               gen := (s.scene.gen + 1) % 4294967296, pendingGroups := p.frames.map (usedAt s p), restored := false,
                               behind := s.scene.behind && decide (0 < modDiff 32 s.scene.twinGen ((s.scene.gen + 1) % 4294967296)) }
        ∧ t.txn.part = some { p with applied := true, frames := p.frames.map (usedAt s p),
                                     late := p.late || (p.frames.map (usedAt s p)).any (orderLate s) }
        ∧ t.gates.rules = s.scene.other.rules
        ∧ (s.scene.other.rules ≠ s.scene.inForce.rules →
          Raises 0x0A81 .module (position s)
            [it 2 (sumN (s.scene.other.rules.map fun r => 2 ^ r.1)), it 4 ((s.gates.ruleGen + 1) % 4294967296)] s t)
        ∧ (∃ f, Out.message (headstockBond s) .control "APPLY_REPORT" ([(p.txn : Int), position s, 1, 0, 0] ++ f) ∈ t.outbox)
        ∧ Reporting s { t with txn := s.txn, scene := s.scene, gates := s.gates, ts := s.ts }) ∧
  (∀ r x o tk s, s.cascade.headstock = true → txnOf s r.txn = some x → r.position ∈ x.parts → x.phase = .committed →
    x.lockstep = false → outcomeOfReport r = some o → outcomeAt x r.position = 0 →
    (∀ p ∈ x.parts, p ≠ r.position → outcomeAt x p ≠ 0) → x.ticket = some tk → tk.dmaOk = true →
    Completes (.applyReportRx r) s fun t =>
      (∃ y, txnOf t r.txn = some y ∧ y.phase = .applied ∧ outcomeAt y r.position = o ∧ y.ticket = none)
        ∧ (∃ l, Finishes tk 0 l s t) ∧ t.scene.inForce = s.scene.inForce ∧ Reporting s { t with txn := s.txn, scene := s.scene }) ∧
  (∀ id x T pos s, txnOf s id = some x → x.applyNs = some T → s.cascade.headstock = true → x.phase = .committed →
    (x.lockstep = true ∨ s.time.wall < latest T (latches s T x.frames 2)) →
    x.lastSentNs + 1000000 ≤ s.time.mono → s.time.wall < T → pos ∈ unacked x → outcomeAt x pos = 0 →
    Completes (.commitResend id) s fun t =>
      txnOf t id = some { x with lastSentNs := s.time.mono }
        ∧ Out.message .east .control "COMMIT" ([(id : Int), (T : Int)] ++ x.frames.flatMap fun p => [(p.1 : Int), (p.2 : Int)]) ∈ t.outbox
        ∧ Out.message .west .control "COMMIT" ([(id : Int), (T : Int)] ++ x.frames.flatMap fun p => [(p.1 : Int), (p.2 : Int)]) ∈ t.outbox
        ∧ Reporting s { t with txn := s.txn }) ∧
  (∀ id x T pos s, txnOf s id = some x → x.applyNs = some T → s.cascade.headstock = true → x.lockstep = true → x.phase = .committed →
    x.cancelled = false → T - pMax ((affectedRecords s x).map Prod.snd) ≤ s.time.wall → pos ∈ unacked x → coveredByAck s x pos = false →
    Completes (.cancelPoint id) s fun t =>
      (txnOf t id).map Txn.phase = some .rollingBack
        ∧ Out.message .east .control "CANCEL" [(id : Int)] ∈ t.outbox ∧ Out.message .west .control "CANCEL" [(id : Int)] ∈ t.outbox) ∧
  (∀ id x T tk s, txnOf s id = some x → x.applyNs = some T → s.cascade.headstock = true → x.lockstep = true → x.phase = .committed →
    latest T (latches s T x.frames 0) + 1000000 ≤ s.time.wall → (∀ p ∈ x.parts, outcomeAt x p = 0 → covered s x p = true) →
    x.ticket = some tk → tk.dmaOk = true →
    Completes (.decisionPoint id) s fun t =>
      (∃ y, txnOf t id = some y ∧ y.phase = .applied ∧ (∀ p ∈ x.parts, outcomeAt y p = if outcomeAt x p = 0 then 5 else outcomeAt x p))
        ∧ (∃ l, Finishes tk 0 l s t)) ∧
  (∀ id x T pos s, txnOf s id = some x → x.applyNs = some T → s.cascade.headstock = true → x.lockstep = true → x.phase = .committed →
    latest T (latches s T x.frames 0) + 1000000 ≤ s.time.wall → pos ∈ x.parts → outcomeAt x pos = 0 → covered s x pos = false →
    Completes (.decisionPoint id) s fun t =>
      (txnOf t id).map Txn.phase = some .rollingBack ∧ Out.message .east .control "ROLLBACK" [(id : Int)] ∈ t.outbox) ∧
  (∀ id x T tk s, txnOf s id = some x → x.applyNs = some T → s.cascade.headstock = true → x.lockstep = false → x.phase = .committed →
    latest T (latches s T x.frames 2) ≤ s.time.wall → x.ticket = some tk → tk.dmaOk = true →
    Completes (.laggardExpiry id) s fun t =>
      (∃ y, txnOf t id = some y ∧ y.phase = .applied ∧ (∀ p ∈ x.parts, outcomeAt y p = if outcomeAt x p = 0 then 5 else outcomeAt x p))
        ∧ (∃ l, Finishes tk 0 l s t)) ∧
  (∀ id x tk s, txnOf s id = some x → s.cascade.headstock = true → x.phase = .rollingBack →
    (∀ p ∈ x.parts, outcomeAt x p = 3 ∨ outcomeAt x p = 4 ∨ outcomeAt x p = 5) → x.ticket = some tk → tk.dmaOk = true →
    Completes (.rollbackComplete id) s fun t =>
      (∃ y, txnOf t id = some y ∧ y.phase = .abortedAfterCommit ∧ y.outcomes = x.outcomes) ∧ (∃ l, Finishes tk 0x0313 l s t)) ∧
  (∀ id p s, s.txn.part = some p → p.txn = id → p.commit = none →
    Completes (.txnAbortRx id) s fun t =>
      t.txn = { s.txn with part := none } ∧ t.scene.otherUse ≠ .staged ∧ t.scene.inForce = s.scene.inForce
        ∧ Reporting s { t with txn := s.txn, scene := s.scene }) ∧
  (∀ p since s, s.txn.part = some p → p.lostNs = some since → p.applied = false → p.votedYes = false → since + 50000000 ≤ s.time.mono →
    Completes .contactLossTimeout s fun t =>
      t.txn = { s.txn with part := none } ∧ t.scene.otherUse ≠ .staged ∧ t.scene.inForce = s.scene.inForce
        ∧ Reporting s { t with txn := s.txn, scene := s.scene }) ∧
  (∀ gen s, s.cascade.twinUp = true →
    Completes (.sceneGenRx gen) s fun t =>
      t.scene = { s.scene with twinGen := gen, behind := decide (0 < modDiff 32 gen s.scene.gen) }
        ∧ Reporting s { t with scene := s.scene, cascade := s.cascade })

/-! ## Luasin -/

/-- A lane goes through its states: signal and training bring it UP, or not within 1 ms, or not with too much skew; lost markers and CRC
failures take it down; a neighbour's sleep leaves it in LOW_RATE; each change is told and no other lane changes. LANE_COUNTERS delivers the
counters; LANE_TEST puts a lane that is not in service into TEST, at whose end it trains again and the bit errors of both ends are told
(R331 to R336).
Where the manual leaves it open this rests on the model's own choices (log entries 14, 15, 16, 53, 54 and 116). -/
def Obligations.LanesTrainAndFail : Prop :=
  (∀ b lane k s, (bondLanes b)[lane]? = some k → lanePowered s k = true → (laneRt s k).state = 1 →
    Completes (.signalDetect b lane) s fun t =>
      laneRt t k = { laneRt s k with state := 2, sinceNs := s.time.mono, crcSlots := [] } ∧ (∀ j, j ≠ k → laneRt t j = laneRt s j)
        ∧ Raises 0x0EA0 .port (laneScope k) [it 1 (laneNo k), it 1 1, it 1 2, it 1 0] s t
        ∧ Reporting s { t with cascade := s.cascade }) ∧
  (∀ b lane k skew s, (bondLanes b)[lane]? = some k → (laneRt s k).state = 2 → skew ≤ 120 →
    Completes (.trainingComplete b lane skew) s fun t =>
      laneRt t k = { laneRt s k with state := 3, sinceNs := s.time.mono, crcSlots := [], trainings := (laneRt s k).trainings + 1 }
        ∧ (∀ j, j ≠ k → laneRt t j = laneRt s j) ∧ k ∈ lanesUp t b
        ∧ Raises 0x0EA0 .port (laneScope k) [it 1 (laneNo k), it 1 2, it 1 3, it 1 0] s t
        ∧ Reporting s { t with cascade := s.cascade }) ∧
  (∀ b lane k skew s, (bondLanes b)[lane]? = some k → (laneRt s k).state = 2 → 120 < skew →
    Completes (.trainingComplete b lane skew) s fun t =>
      (laneRt t k).state = 1 ∧ (∀ j, j ≠ k → laneRt t j = laneRt s j) ∧ k ∉ lanesUp t b
        ∧ Raises 0x0EA0 .port (laneScope k) [it 1 (laneNo k), it 1 2, it 1 1, it 1 3] s t
        ∧ Reporting s { t with cascade := s.cascade }) ∧
  (∀ b lane k s, (bondLanes b)[lane]? = some k → (laneRt s k).state = 2 → (laneRt s k).sinceNs + 1000000 ≤ s.time.mono →
    Completes (.trainingTimeout b lane) s fun t =>
      (laneRt t k).state = 1 ∧ (∀ j, j ≠ k → laneRt t j = laneRt s j)
        ∧ Raises 0x0EA0 .port (laneScope k) [it 1 (laneNo k), it 1 2, it 1 1, it 1 1] s t
        ∧ Reporting s { t with cascade := s.cascade }) ∧
  (∀ b lane k s, (bondLanes b)[lane]? = some k → (laneRt s k).state = 3 →
    downCrc s ≤ ((laneRt s k).crcSlots.filter fun x => (laneRt s k).slots < x + 64).length →
    Completes (.markerLoss b lane true) s fun t =>
      (laneRt t k).state = 1 ∧ (∀ j, j ≠ k → laneRt t j = laneRt s j)
        ∧ Raises 0x0EA0 .port (laneScope k) [it 1 (laneNo k), it 1 3, it 1 1, it 1 2] s t
        ∧ Reporting s { t with cascade := s.cascade }) ∧
  (∀ b lane k s, (bondLanes b)[lane]? = some k → (laneRt s k).state = 3 →
    Completes (.markerLoss b lane false) s fun t =>
      (laneRt t k).state = 1 ∧ (laneRt t k).marker = (laneRt s k).marker + 4 ∧ (∀ j, j ≠ k → laneRt t j = laneRt s j)
        ∧ Reporting s { t with cascade := s.cascade }) ∧
  (∀ east order k s, k = (if east then 0 else 4) → (laneRt s k).state = 3 →
    Completes (.sleepOrderRx east order) s fun t =>
      (laneRt t k).state = 5 ∧ (∀ j, j ≠ k → laneRt t j = laneRt s j)
        ∧ Raises 0x0EA0 .port (laneScope k) [it 1 k, it 1 3, it 1 5, it 1 6] s t
        ∧ Reporting s { t with cascade := s.cascade }) ∧
  (∀ d lane s, Executes d (.laneCounters lane) s → lane < 20 → d.dmaOk = true →
    Completes (.laneCounters d lane) s fun t =>
      Delivers d (itemBytes (laneItems s lane)) t ∧ Reports d (.laneCounters lane) 0 [] s t ∧ Reporting s t
        ∧ t.link.lanes = s.link.lanes) ∧
  (∀ d s, Executes d (.laneCounters 0xFF) s → d.dmaOk = true →
    Completes (.laneCounters d 0xFF) s fun t =>
      Delivers d (itemBytes ((List.range 20).flatMap (laneItems s))) t ∧ Reports d (.laneCounters 0xFF) 0 [] s t ∧ Reporting s t
        ∧ t.link.lanes = s.link.lanes) ∧
  (∀ d lane s, Executes d (.laneCounters lane) s → 20 ≤ lane → lane ≠ 0xFF →
    Completes (.laneCounters d lane) s fun t => Reports d (.laneCounters lane) 0x01E0 [] s t ∧ Reporting s t) ∧
  (∀ d lane ms path s, Executes d (.laneTest lane ms true path) s → lane ≤ 19 → 1 ≤ ms → ms ≤ 60000 → (laneRt s lane).state ≠ 4 →
    ((laneRt s lane).state = 3 → s.module.mode = .maintenance) → (controlPath s lane && path) = true →
    Completes (.laneTest d lane ms true path) s fun t =>
      (laneRt t lane).state = 4 ∧ (∀ j, j ≠ lane → laneRt t j = laneRt s j)
        ∧ mapGet t.link.tests lane = some { lane := lane, ticket := ticketOf d 0x0E21 s, durationMs := ms, startNs := s.time.mono }
        ∧ ticketOf d 0x0E21 s ∈ t.queue.inFlight ∧ Reporting s { t with cascade := s.cascade }) ∧
  (∀ d lane ms far path s, Executes d (.laneTest lane ms far path) s → lane ≤ 19 → 1 ≤ ms → ms ≤ 60000 →
    ((laneRt s lane).state = 3 ∧ s.module.mode ≠ .maintenance) ∨ far = false →
    Completes (.laneTest d lane ms far path) s fun t => Reports d (.laneTest lane ms far path) 0x03E0 [] s t ∧ Reporting s t
      ∧ t.link.lanes = s.link.lanes) ∧
  (∀ d lane ms path s, Executes d (.laneTest lane ms true path) s → lane ≤ 19 → 1 ≤ ms → ms ≤ 60000 → (laneRt s lane).state ≠ 4 →
    ((laneRt s lane).state = 3 → s.module.mode = .maintenance) → (controlPath s lane && path) = false →
    Completes (.laneTest d lane ms true path) s fun t => Reports d (.laneTest lane ms true path) 0x05E0 [] s t ∧ Reporting s t
      ∧ t.link.lanes = s.link.lanes) ∧
  (∀ lane x here far bits s, mapGet s.link.tests lane = some x → x.startNs + x.durationMs * 1000000 ≤ s.time.mono →
    Completes (.laneTestEnd lane here far bits) s fun t =>
      (laneRt t lane).state = 2 ∧ mapGet t.link.tests lane = none ∧ (∀ j, j ≠ lane → laneRt t j = laneRt s j)
        ∧ Finishes x.ticket 0 [it 4 here, it 4 far, it 4 bits] s t ∧ Reporting s { t with cascade := s.cascade })

/-- A lane UP sends the waiting message of highest priority, numbered in its class, one of a retransmitted class being kept until it is
acknowledged; a lane in training sends IDLE frames, one in test its pattern. An accepted frame of a retransmitted class in order is taken and owed an
acknowledgement; one not accepted only counts; an acknowledgement frees what it names, and without one in time everything is sent again,
at last declaring the bond down (R321, R325 to R327, R332, R335).
Where the manual leaves it open this rests on the model's own choices (log entries 13, 45, 52 and 107). -/
def Obligations.FramesAreSentAndReceived : Prop :=
  (∀ b lane k m s, (bondLanes b)[lane]? = some k → lanePowered s k = true → (laneRt s k).state = 3 → s.link.waiting = [m] → m.bond = b →
    (m.cls = .verdict ∨ m.cls = .line) → bondCarries b m.cls = true → m.sent = 0 → m.relay = false → m.arrived = none →
    dropsMessage s m = false → bodyLength m.body ≤ 1012 → (bondRt s b).acks = [] →
    Completes (.laneSlot b lane) s fun t =>
      let seq := mapGetD (bondRt s b).txSeq (classValue m.cls) 0
      let bytes := frameBytes lane (partFrame m.cls seq 0 (bodyLength m.body) true true m.body)
      Out.luasin b lane bytes (slotBits lane seq bytes).1 ∈ t.outbox ∧ t.link.waiting = []
        ∧ mapGet (bondRt t b).txSeq (classValue m.cls) = some (seq16 (seq + 1)) ∧ Reporting s t) ∧
  (∀ b lane k m s, (bondLanes b)[lane]? = some k → lanePowered s k = true → (laneRt s k).state = 3 → s.link.waiting = [m] → m.bond = b →
    m.cls = .control → bondCarries b .control = true → m.sent = 0 → m.relay = false → m.arrived = none → dropsMessage s m = false →
    bodyLength m.body ≤ 1012 →
    (bondRt s b).acks = [] → mapGetD (bondRt s b).sent (classValue .control) [] = [] →
    Completes (.laneSlot b lane) s fun t =>
      let seq := mapGetD (bondRt s b).txSeq (classValue .control) 0
      let bytes := frameBytes lane (partFrame .control seq 0 (bodyLength m.body) true true m.body)
      Out.luasin b lane bytes (slotBits lane seq bytes).1 ∈ t.outbox ∧ t.link.waiting = []
        ∧ mapGet (bondRt t b).sent (classValue .control)
          = some [{ seq := seq, offset := 0, length := bodyLength m.body, first := true, last := true, body := m.body,
                    sentNs := s.time.mono, resends := 0, again := false }]
        ∧ Reporting s t) ∧
  (∀ b lane k s, (bondLanes b)[lane]? = some k → lanePowered s k = true → (laneRt s k).state = 4 →
    Completes (.laneSlot b lane) s fun t => Out.luasinPattern b lane "PRBS31" ∈ t.outbox ∧ t.link.lanes = s.link.lanes ∧ Reporting s t) ∧
  (∀ b lane k s, (bondLanes b)[lane]? = some k → lanePowered s k = true → (laneRt s k).state = 2 →
    Completes (.laneSlot b lane) s fun t =>
      let seq := mapGetD (bondRt s b).txSeq (classValue .idle) 0
      let bytes := frameBytes lane { cls := .idle, first := false, last := false, ackKind := 0, seq := seq, claimOrAck := 0, content := [] }
      Out.luasin b lane bytes (slotBits lane seq bytes).1 ∈ t.outbox ∧ t.link.lanes = s.link.lanes
        ∧ t.link.waiting = s.link.waiting ∧ Reporting s t) ∧
  (∀ b lane k f s, (bondLanes b)[lane]? = some k → lanePowered s k = true → (laneRt s k).state = 3 → f.runViolation = false →
    frameOk b lane false f = true → f.cls = .control →
    f.seq = (match mapGet (bondRt s b).rxSeq (classValue .control) with | none => 0 | some q => seq16 (q + 1)) →
    Completes (.luasinFrameRx b lane f) s fun t =>
      mapGet (bondRt t b).rxSeq (classValue .control) = some f.seq ∧ mapHas (bondRt t b).acks (classValue .control) = true
        ∧ laneRt t k = { laneRt s k with slots := (laneRt s k).slots + 1 } ∧ Reporting s t) ∧
  (∀ b lane k f s, (bondLanes b)[lane]? = some k → lanePowered s k = true → (laneRt s k).state = 3 → f.runViolation = false →
    frameOk b lane false f = false →
    Completes (.luasinFrameRx b lane f) s fun t =>
      (laneRt t k).crc = (laneRt s k).crc + 1 ∧ (laneRt t k).state = 3 ∧ t.link.bonds = s.link.bonds ∧ t.link.waiting = s.link.waiting
        ∧ Reporting s t) ∧
  (∀ b lane k f s, (bondLanes b)[lane]? = some k → lanePowered s k = true → (laneRt s k).state = 3 → f.runViolation = false →
    frameOk b lane false f = true → f.cls = .idle → f.ackKind = 1 →
    Completes (.luasinFrameRx b lane f) s fun t =>
      mapGetD (bondRt t b).sent (classValue .control) []
          = (mapGetD (bondRt s b).sent (classValue .control) []).filter (fun y => decide (0 < modDiff 16 y.seq f.claimOrAck))
        ∧ (bondRt t b).rxSeq = (bondRt s b).rxSeq ∧ Reporting s t) ∧
  (∀ b c f l s, retxClass c = true → mapGetD (bondRt s b).sent (classValue c) [] = f :: l → f.again = false →
    f.sentNs + retxNs s ≤ s.time.mono → f.resends < 32 →
    Completes (.retxTimeout b c) s fun t =>
      mapGet (bondRt t b).sent (classValue c) = some ((f :: l).map fun y => { y with again := true })
        ∧ t.link.lanes = s.link.lanes ∧ Reporting s t) ∧
  (∀ b c f l s, retxClass c = true → mapGetD (bondRt s b).sent (classValue c) [] = f :: l → f.again = false →
    f.sentNs + retxNs s ≤ s.time.mono → 32 ≤ f.resends →
    Completes (.retxTimeout b c) s fun t => lanesUp t b = [] ∧ Reporting s { t with cascade := s.cascade }) ∧
  (∀ b k lane since s, (carrying s b).head? = some k → lane = (bondLanes b).findIdx (fun j => j = k) → s.link.waiting = [] →
    (∀ c, (mapGetD (bondRt s b).sent c []).any SentFrame.again = false) → (bondRt s b).acks = [(classValue .control, since)] →
    Completes (.ackDue b .control) s fun t =>
      let seq := mapGetD (bondRt s b).txSeq (classValue .idle) 0
      let bytes := frameBytes lane
        { cls := .idle, first := false, last := false, ackKind := 1, seq := seq,
          claimOrAck := mapGetD (bondRt s b).rxSeq (classValue .control) 65535, content := [] }
      Out.luasin b lane bytes (slotBits lane seq bytes).1 ∈ t.outbox ∧ (bondRt t b).acks = [] ∧ Reporting s t)

/-! ## The cascade, the Headstock and the twin pair -/

/-- CASCADE_STATUS delivers its record; CASCADE_RENUMBER gives every module its place in ring order, on an intact ring in SETUP;
TWIN_ROLE withdraws a module beside a ready twin, brings it back, and decides a swap; CASCADE_SLEEP begins and the end of the drain leads
into IDLE_LINK; the Headstock forwards CASCADE_WAKE to the module asleep, which wakes, and the end of the wake leads back (R293, R341, R349,
R359, R360, R449 to R453).
Where the manual leaves it open this rests on the model's own choices (log entries 14, 59, 61 and 108). -/
def Obligations.CascadeCommandsComplete : Prop :=
  (∀ d s, Executes d .cascadeStatus s → d.dmaOk = true →
    Completes (.cascadeStatus d) s fun t =>
      Delivers d (itemBytes ([it 1 s.cascade.ring.value, it 1 s.cascade.headstockPos, it 2 0, it 4 s.cascade.epoch,
          it 8 (s.cascade.storedIdentity.getD 0), it 48 0] ++ (List.range 64).flatMap (cascadeRecord s))) t
        ∧ Reports d .cascadeStatus 0 [] s t ∧ Reporting s { t with free := s.free }) ∧
  (∀ d identity i s, Executes d (.cascadeRenumber identity) s → s.cascade.ring = .intact → s.module.mode = .setup →
    (∀ p ∈ s.cascade.modules, p.2.state = 2) → (∀ j, (renumberOrder s)[j]? = some Config.serial ↔ j = i) →
    Completes (.cascadeRenumber d identity) s fun t =>
      let id := if identity = 0 then s.cascade.storedIdentity.getD Config.serial else identity
      t.cascade.position = i ∧ t.cascade.posValid = true ∧ t.cascade.storedIdentity = some id ∧ t.cascade.storedPosition = some i
        ∧ t.cascade.headstockPos = i
        ∧ (d.quiet = false → ∀ r, cplRingOf s d.ring = some r →
          Published r { recordOf d (.cascadeRenumber identity) 0 [] s with position := i } t)
        ∧ Reporting s { t with cascade := s.cascade }) ∧
  (∀ d identity s, Executes d (.cascadeRenumber identity) s → s.cascade.ring ≠ .intact →
    Completes (.cascadeRenumber d identity) s fun t => Reports d (.cascadeRenumber identity) 0x05D1 [] s t ∧ Reporting s t) ∧
  (∀ d x s, Executes d (.twinRole 0) s → s.cascade.twinUp = true → s.cascade.twin = some x →
    (x.role = .active ∨ (x.role = .standby ∧ x.caughtUp = true)) → s.cascade.role ≠ .withdrawn →
    Completes (.twinRole d 0) s fun t =>
      t.cascade.role = .withdrawn ∧ t.cascade.withdrawnByCommand = true ∧ t.cascade.headstock = false
        ∧ Raises 0x0D86 .module (position s) [it 1 s.cascade.role.value, it 1 3, it 1 3, it 1 x.role.value] s t
        ∧ Reports d (.twinRole 0) 0 [] s t ∧ Reporting s { t with cascade := s.cascade }) ∧
  (∀ d s, Executes d (.twinRole 1) s → s.cascade.role = .withdrawn → s.cascade.withdrawnByCommand = true → s.cascade.twin = none →
    Completes (.twinRole d 1) s fun t =>
      t.cascade.role = .alone ∧ t.cascade.withdrawnByCommand = false
        ∧ Reports d (.twinRole 1) 0 [] s t ∧ Reporting s { t with cascade := s.cascade }) ∧
  (∀ d x s, Executes d (.twinRole 2) s → s.cascade.twinUp = true → s.cascade.twin = some x → s.cascade.role = .active →
    x.role = .standby → x.caughtUp = true → s.cascade.swap = none →
    Completes (.twinRole d 2) s fun t =>
      t.cascade = { s.cascade with
          swap := some { atNs := swapTime s, auto := false, hitless := false, ticket := some (ticketOf d 0x0D02 s) } }
        ∧ Out.message .twin .control "SWAP" [(swapTime s : Int)] ∈ t.outbox ∧ ticketOf d 0x0D02 s ∈ t.queue.inFlight
        ∧ Reporting s { t with cascade := s.cascade }) ∧
  (∀ d s, Executes d (.twinRole 2) s → s.cascade.twinUp = false →
    Completes (.twinRole d 2) s fun t => Reports d (.twinRole 2) 0x05D0 [] s t ∧ Reporting s t) ∧
  (∀ d s, Executes d .cascadeSleep s → s.cascade.headstock = false → (s.module.mode = .setup ∨ s.module.mode = .run) →
    s.module.sleeping = none → ringWhole s = true →
    Completes (.cascadeSleep d) s fun t =>
      t.module.sleeping = some (ticketOf d 0x0D03 s) ∧ t.module.mode = s.module.mode ∧ t.cascade.role = .withdrawn
        ∧ (∀ k x, mapGet s.ingest.streams k = some x →
          mapGet t.ingest.streams k = some { x with stopped := true, open_ := [], units := [] })
        ∧ ticketOf d 0x0D03 s ∈ t.queue.inFlight
        ∧ Reporting s { t with module := s.module, cascade := s.cascade, ingest := s.ingest }) ∧
  (∀ d s, Executes d .cascadeSleep s → s.cascade.headstock = true →
    Completes (.cascadeSleep d) s fun t => Reports d .cascadeSleep 0x0300 [] s t ∧ Reporting s t) ∧
  (∀ tk s, s.module.sleeping = some tk → s.module.waking = false → (s.module.mode = .setup ∨ s.module.mode = .run) →
    s.cascade.headstock = false → drainEnded s = true →
    Completes .sleepDrainComplete s fun t =>
      t.module.mode = .idleLink ∧ t.module.sleptFrom = s.module.mode ∧ t.module.sleeping = none ∧ t.mgmt.vcoreRemoved = true
        ∧ t.host.attached = false ∧ t.host.linkSpeed = 0 ∧ Finishes tk 0 [] s t
        ∧ Out.message .east .control "SLEEP_ORDER" [] ∈ t.outbox ∧ Out.message .west .control "SLEEP_ORDER" [] ∈ t.outbox
        ∧ t.scene = s.scene ∧ t.ledger = s.ledger) ∧
  (∀ d m s, canTake d s = true → commonCheck d .cascadeWake s = 0 → isLocal d.target s = false → s.cascade.headstock = true →
    mapGet s.cascade.modules d.target = some m → m.inContact = true → m.state = 6 →
    Completes (.cascadeWake d) s fun t =>
      Out.forward (ringTo s d.target) d.target s.queue.nextForward .cascadeWake ∈ t.outbox
        ∧ mapGet t.queue.forwards s.queue.nextForward = some (ticketOf d 0x0D04 s, d.target)
        ∧ ticketOf d 0x0D04 s ∈ t.queue.inFlight ∧ Reporting s t) ∧
  (∀ origin tag dmaOk s, s.module.mode = .idleLink → s.module.waking = false → s.queue.inFlight.length < Config.maxInFlight →
    Completes (.forwardedCommandRx origin tag dmaOk .cascadeWake) s fun t =>
      t.module = { s.module with waking := true, sleeping := some (forwardTicket origin tag dmaOk .cascadeWake) }
        ∧ forwardTicket origin tag dmaOk .cascadeWake ∈ t.queue.inFlight ∧ Reporting s { t with module := s.module }) ∧
  (∀ s, s.module.mode = .idleLink → s.module.waking = true →
    Completes .wakeComplete s fun t =>
      t.module.mode = s.module.sleptFrom ∧ t.module.waking = false ∧ t.mgmt.vcoreRemoved = false ∧ t.mgmt.vcoreMv = 800
        ∧ (∀ k x, mapGet s.ingest.streams k = some x → mapGet t.ingest.streams k = some { x with stopped := false })
        ∧ t.scene = s.scene ∧ t.ledger = s.ledger)

/-- Discovery is sent both ways; what comes back gives the ring state and the positions, or a wiring fault; presence is told and heard,
and 50 ms without it puts a module out of contact and ends what waits there (R313, R339 to R341, R345).
Where the manual leaves it open this rests on the model's own choices (log entries 15, 16, 55, 56 and 110). -/
def Obligations.ModulesAreFoundAndHeard : Prop :=
  (∀ s, s.cascade.headstock = true →
    Completes .discovery s fun t =>
      t.cascade = { s.cascade with discovering := true, discoveryNs := s.time.mono }
        ∧ Out.message .east .control "DISCOVERY" [(Config.serial : Int), flag s.module.masterSel, flag s.module.sideB] ∈ t.outbox
        ∧ Out.message .west .control "DISCOVERY" [(Config.serial : Int), flag s.module.masterSel, flag s.module.sideB] ∈ t.outbox
        ∧ Reporting s { t with cascade := s.cascade }) ∧
  (∀ m p id own s, s.cascade.headstock = true → id = s.cascade.storedIdentity.getD Config.serial →
    own = (if s.cascade.storedIdentity.isSome then s.cascade.storedPosition.getD 0 else 0) →
    assignPositions id own [m] = [(m, some p)] →
    Completes (.discoveryComplete true [m]) s fun t =>
      t.cascade.ring = .intact ∧ t.cascade.position = own ∧ t.cascade.posValid = true ∧ t.cascade.storedIdentity = some id
        ∧ t.cascade.storedPosition = some own ∧ t.cascade.headstockPos = own ∧ t.cascade.discovering = false
        ∧ (mapGet t.cascade.modules p).map ModInfo.serial = some m.serial ∧ t.cascade.ringOrder = [m.serial]
        ∧ Reporting s { t with cascade := s.cascade, free := s.free }) ∧
  (∀ s, s.cascade.headstock = true → s.cascade.east.refused = false → s.cascade.west.refused = false →
    Completes (.discoveryComplete true []) s fun t =>
      t.cascade.east.refused = true ∧ t.cascade.west.refused = true ∧ t.cascade.east.up = false ∧ t.cascade.west.up = false
        ∧ t.cascade.position = s.cascade.position ∧ t.cascade.modules = s.cascade.modules
        ∧ Raises 0x0D82 .module (position s) [it 1 0, it 8 Config.serial] s t ∧ Reporting s { t with cascade := s.cascade }) ∧
  (∀ m i p s, s.cascade.headstock = false → m.serial = Config.serial → m.storedIdentity = some i → m.storedPosition = some p →
    Completes (.discoveryComplete true [m]) s fun t =>
      t.cascade.position = p ∧ t.cascade.posValid = true ∧ t.cascade.storedIdentity = some i ∧ t.cascade.storedPosition = some p
        ∧ Reporting s { t with cascade := s.cascade }) ∧
  (∀ s, s.cascade.posValid = true → s.module.mode ≠ .off → passedSince s s.cascade.presenceNs 1000000 = true →
    Completes .presenceSend s fun t =>
      Out.message (headstockBond s) .control "PRESENCE"
          [(s.cascade.position : Int), s.module.mode.value, s.cascade.role.value, s.scene.gen, s.mgmt.bootCount, flag s.cascade.caughtUp]
          ∈ t.outbox ∧ t.cascade = { s.cascade with presenceNs := some s.time.mono } ∧ Reporting s { t with cascade := s.cascade }) ∧
  (∀ p m s, s.cascade.headstock = true → s.update.hitless = none → mapGet s.cascade.modules p.position = some m → m.lastNs ≠ 0 →
    m.inContact = true → m.bootCount = p.bootCount →
    Completes (.presenceRx p) s fun t =>
      mapGet t.cascade.modules p.position = some { m with
          state := p.state, role := p.twinRole, sceneGen := p.sceneGen, caughtUp := p.caughtUp, lastNs := s.time.mono }
        ∧ (∀ q, q ≠ p.position → mapGet t.cascade.modules q = mapGet s.cascade.modules q)
        ∧ Reporting s { t with cascade := s.cascade }) ∧
  (∀ p m s, s.cascade.headstock = true → s.update.hitless = none → mapGet s.cascade.modules p.position = some m → m.lastNs ≠ 0 →
    m.inContact = false → m.bootCount = p.bootCount →
    Completes (.presenceRx p) s fun t =>
      (mapGet t.cascade.modules p.position).map ModInfo.inContact = some true
        ∧ Raises 0x0D88 .module (position s) [it 1 p.position, it 1 0, it 4 p.bootCount] s t
        ∧ Reporting s { t with cascade := s.cascade }) ∧
  (∀ pos m s, s.cascade.headstock = true → mapGet s.cascade.modules pos = some m → m.inContact = true →
    m.lastNs + 50000000 ≤ s.time.mono →
    Completes (.presenceTimeout pos) s fun t =>
      mapGet t.cascade.modules pos = some { m with inContact := false }
        ∧ (∀ f ∈ t.queue.forwards, f.2.2 = pos → outlives f.2.1 = true)
        ∧ (s.queue.forwards = [] → s.txn.txns = [] → s.update.distribute = none →
          Raises 0x0D88 .module (position s) [it 1 pos, it 1 2, it 4 m.bootCount] s t)) ∧
  (∀ p s, s.cascade.headstock = false → s.txn.part = some p → p.lostNs = none → s.update.inbound = none →
    passedSince s s.cascade.headNs 50000000 = true →
    Completes (.presenceTimeout s.cascade.headstockPos) s fun t =>
      t.txn.part = some { p with lostNs := some s.time.mono } ∧ Reporting s { t with txn := s.txn })

/-- The Headstock sends its beat both ways; another module takes a new beat over, corrects its counter by it and passes it on one hop
longer; an older epoch is nothing to it; without beats for 5 ms it runs on its own time. Round trips give the delay of each link, and a
Headstock of side B that hears another gives the role up (R349 to R352, R361).
Where the manual leaves it open this rests on the model's own choices (log entries 57, 58 and 110). -/
def Obligations.BeatsAreSentAndFollowed : Prop :=
  (∀ s, s.cascade.headstock = true → passedSince s s.cascade.beatNs 1000000 = true →
    Completes .beatSend s fun t =>
      let m : BeatMsg :=
        { kind := 0, hops := 0, origin := position s, westGoing := false, originLocked := s.time.servo == .locked, epoch := s.cascade.epoch,
          seq := (s.cascade.beatSeq + 1) % 4294967296, spindleNs := (steerOwn s).time.spindle, correctionPs := 0 }
      Out.beat true m ∈ t.outbox ∧ Out.beat false { m with westGoing := true } ∈ t.outbox
        ∧ t.cascade = { s.cascade with beatSeq := (s.cascade.beatSeq + 1) % 4294967296, beatNs := some s.time.mono }
        ∧ Reporting s { t with cascade := s.cascade, time := s.time }) ∧
  (∀ east m s, s.cascade.headstock = false → m.kind = 0 → m.hops ≤ 63 → s.cascade.epoch ≤ m.epoch → s.module.mode ≠ .off →
    (linkAt s east).refused = false → miswired east m s = false → newBeat m s = true →
    Completes (.beatRx east m) s fun t =>
      t.time.spindle = (((m.spindleNs : Int) * 1000 + m.correctionPs + portDelay east s) / 1000).toNat
        ∧ t.cascade.epoch = m.epoch ∧ t.cascade.lastBeatSeq = m.seq ∧ t.cascade.lastBeatNs = some s.time.mono
        ∧ t.cascade.headstockPos = m.origin ∧ t.cascade.onBeat = true
        ∧ (∃ r : Nat, Out.beat (!east) { m with hops := m.hops + 1, correctionPs := m.correctionPs + portDelay east s + r } ∈ t.outbox)
        ∧ t.time.wall = s.time.wall ∧ t.cascade.role = s.cascade.role ∧ t.scene = s.scene) ∧
  (∀ east m s, s.cascade.headstock = false → (linkAt s east).refused = false → miswired east m s = false → m.epoch < s.cascade.epoch →
    Completes (.beatRx east m) s fun t => t = s) ∧
  (∀ east m s, s.cascade.headstock = true → s.module.sideB = true → m.kind = 0 → m.hops ≤ 63 →
    (linkAt s east).refused = false → miswired east m s = false → s.module.mode ≠ .off → m.origin ≠ position s →
    Completes (.beatRx east m) s fun t => t.cascade.headstock = false ∧ t.queue.forwards = []) ∧
  (∀ since s, s.cascade.lastBeatNs = some since → s.cascade.onBeat = true → s.cascade.headstock = false →
    since + 5000000 ≤ s.time.mono →
    Completes .beatLoss s fun t =>
      t.cascade = { s.cascade with onBeat := false } ∧ t.time = (steerOwn s).time
        ∧ TsRaises 0x0688 .module (position s) [it 1 1] s t
        ∧ Reporting s { t with cascade := s.cascade, time := s.time, ts := s.ts }) ∧
  (∀ s, s.cascade.east.up = true → passedSince s s.cascade.east.requestNs 10000000 = true →
    Completes (.delayRequestSend true) s fun t =>
      let n := (s.cascade.east.requests + 1) % 4294967296
      Out.beat true (delayMsg true 1 (position s) n 0) ∈ t.outbox
        ∧ t.cascade = { s.cascade with east := { s.cascade.east with
              requests := n, outstanding := some n, requestNs := some s.time.mono } }
        ∧ Reporting s { t with cascade := s.cascade }) ∧
  (∀ east m residence s, m.kind = 1 → s.module.mode ≠ .off → (linkAt s east).refused = false → miswired east m s = false →
    Completes (.delayRequestRx east m residence) s fun t =>
      Out.beat east (delayMsg east 2 m.origin m.seq residence) ∈ t.outbox ∧ Reporting s t) ∧
  (∀ m roundTrip s, m.kind = 2 → s.cascade.west.outstanding = some m.seq →
    Completes (.delayResponseRx false m roundTrip) s fun t =>
      t = { s with cascade := { s.cascade with west := { s.cascade.west with
              halves := ((roundTrip - m.correctionPs) / 2 :: s.cascade.west.halves).take 16, outstanding := none } } })

/-- A candidate that may hold the role takes it where it is free, with the next epoch, and one that may no longer hold it gives it up;
it then serves its doorbells. Pairing gives the roles of R358 or names the condition that fails; a lost bond leaves the module ALONE, a
twin out of service makes a STANDBY module ACTIVE; a STANDBY catches up with its twin's scene; a swap is decided and, at its instant,
the roles change places (R346, R347, R354 to R361).
Where the manual leaves it open this rests on the model's own choices (log entries 58, 59, 60 and 61). -/
def Obligations.RolesAreTakenAndSwapped : Prop :=
  (∀ s, s.cascade.headstock = false → s.module.masterSel = true → s.cascade.candidate = true → mayHold s = true → roleFree s = true →
    Completes .headstockTake s fun t =>
      let cause := if s.cascade.lastBeatNs.isSome then 2 else 0
      t.cascade.headstock = true ∧ t.cascade.epoch = (s.cascade.epoch + 1) % 4294967296 ∧ t.cascade.headstockPos = position s
        ∧ t.cascade.handover = s.cascade.lastBeatNs.isSome
        ∧ Raises 0x0D83 .module (position s)
            [it 1 1, it 1 cause, it 1 s.cascade.headstockPos, it 4 ((s.cascade.epoch + 1) % 4294967296)] s t
        ∧ Reporting s { t with cascade := s.cascade }) ∧
  (∀ s, s.cascade.headstock = true → mayHold s = false →
    Completes .headstockTake s fun t =>
      t.cascade.headstock = false ∧ t.queue.forwards = [] ∧ Reporting s { t with cascade := s.cascade }) ∧
  (∀ s, Completes .headstockServiceReady s fun t => t = { s with cascade := { s.cascade with handover := false } }) ∧
  (∀ x s, lanesUp s .twin ≠ [] → s.module.mode ≠ .off → s.module.mode ≠ .idleLink → s.update.hitless = none → s.cascade.twinUp = false →
    s.cascade.role = .alone → pairingFault x s = 0 →
    Completes (.twinPairing x) s fun t =>
      t.cascade.twinUp = true ∧ t.cascade.twin.map TwinInfo.ident = some x ∧ t.cascade.role = pairedRole x s
        ∧ Raises 0x0D85 .port 26 [it 1 1, it 1 0, it 1 0, it 1 (lanesUp s .twin).length] s t
        ∧ Reporting s { t with cascade := s.cascade }) ∧
  (∀ x s, lanesUp s .twin ≠ [] → s.module.mode ≠ .off → s.module.mode ≠ .idleLink → s.update.hitless = none → s.cascade.twinUp = false →
    pairingFault x s ≠ 0 →
    Completes (.twinPairing x) s fun t =>
      Raises 0x0D85 .port 26 [it 1 0, it 1 1, it 1 (pairingFault x s), it 1 (lanesUp s .twin).length] s t ∧ Reporting s t) ∧
  (∀ s, twinBondLost s = true → s.update.hitless = none → (s.cascade.role = .active ∨ s.cascade.role = .standby) →
    Completes .twinLinkLoss s fun t =>
      t.cascade.twinUp = false ∧ t.cascade.twin = none ∧ t.cascade.role = .alone ∧ t.cascade.swap = none
        ∧ Raises 0x0D85 .port 26 [it 1 0, it 1 0, it 1 0, it 1 0] s t ∧ Reporting s { t with cascade := s.cascade }) ∧
  (∀ role s, s.cascade.twinUp = true → s.cascade.role = .standby →
    Completes (.twinReportRx role) s fun t => t.cascade.role = .active ∧ Reporting s { t with cascade := s.cascade }) ∧
  (∀ gen items objects registers s, s.cascade.catchingUp = true → s.cascade.role = .standby → s.cascade.twinUp = true →
    bankFree s = true → s.update.hitless = none → validate s (items.foldl (stageItem 0) SceneBank.init) = [] →
    Completes (.catchUp gen items objects registers) s fun t =>
      t.scene.inForce = items.foldl (stageItem 0) SceneBank.init ∧ t.scene.other = s.scene.inForce ∧ t.scene.gen = gen
        ∧ t.scene.behind = false ∧ t.cascade = { s.cascade with catchingUp := false, caughtUp := true }
        ∧ t.gates.rules = t.scene.inForce.rules ∧ Reporting s { t with scene := s.scene, cascade := s.cascade, gates := s.gates, ts := s.ts }) ∧
  (∀ gen items objects registers s, s.cascade.catchingUp = true → s.cascade.role = .standby → s.cascade.twinUp = true →
    bankFree s = true → s.update.hitless = none → validate s (items.foldl (stageItem 0) SceneBank.init) ≠ [] →
    Completes (.catchUp gen items objects registers) s fun t =>
      Raises 0x0D86 .module (position s) [it 1 2, it 1 2, it 1 7, it 1 (twinRoleValue s)] s t ∧ Reporting s t) ∧
  (∀ a b s, s.cascade.role = .active → s.cascade.twinUp = true → s.module.mode = .lean → s.cascade.leanSince = some a →
    a + 1000000000 ≤ s.time.mono → s.cascade.twinReadySince = some b → b + 1000000000 ≤ s.time.mono → s.cascade.swap = none →
    (∀ l, s.cascade.lastAutoSwap = some l → l + 60000000000 ≤ s.time.mono) →
    Completes .autoSwapDecision s fun t =>
      t.cascade = { s.cascade with swap := some { atNs := swapTime s, auto := true, hitless := false, ticket := none } }
        ∧ Out.message .twin .control "SWAP" [(swapTime s : Int)] ∈ t.outbox ∧ Reporting s { t with cascade := s.cascade }) ∧
  (∀ w tk s, s.cascade.twinUp = true → s.cascade.role = .active → s.cascade.swap = some w → w.atNs ≤ s.time.wall → w.ticket = some tk →
    s.update.hitless = none → s.queue.detaching = none →
    Completes .swapInstant s fun t =>
      t.cascade.role = .standby ∧ t.cascade.caughtUp = true ∧ t.cascade.catchingUp = false ∧ t.cascade.headstock = false
        ∧ t.cascade.swap = none ∧ Finishes tk 0 [] s t ∧ Reporting s { t with cascade := s.cascade }) ∧
  (∀ x s, s.cascade.twinUp = true → s.cascade.role = .standby → s.cascade.swap = none → s.cascade.twin = some x →
    s.update.hitless = none →
    Completes .swapInstant s fun t =>
      t.cascade.role = .active
        ∧ (x.ident.headstock = true → s.module.masterSel = true → s.cascade.candidate = true → inService s = true →
          t.cascade.headstock = true)
        ∧ Raises 0x0D86 .module (position s) [it 1 2, it 1 1, it 1 2, it 1 2] s t ∧ Reporting s { t with cascade := s.cascade })

/-! ## The management pair -/

/-- The commands of the management pair: status and log are delivered, MAINTENANCE is entered and left, a reset follows its command, and a
ladder test, in MAINTENANCE only, takes the steps up to its floor (R23, R409, R412, R416, R419, R446).
Where the manual leaves it open this rests on the model's own choices (log entries 14 and 70). -/
def Obligations.ManagementCommandsComplete : Prop :=
  (∀ d s, Executes d .mgmtStatus s → d.dmaOk = true →
    Completes (.mgmtStatus d) s fun t =>
      Delivers d (recordBytes 512 (mgmtStatusItems s)) t ∧ Reports d .mgmtStatus 0 [] s t ∧ Reporting s t) ∧
  (∀ d s, Executes d (.mgmtMaintenance 1) s → (s.module.mode = .setup ∨ s.module.mode = .run ∨ s.module.mode = .lean) →
    Completes (.mgmtMaintenance d 1) s fun t =>
      t.module = { s.module with mode := .maintenance }
        ∧ Raises 0x0B80 .module (position s) [it 1 s.module.mode.value, it 1 5, it 1 s.mgmt.faultCause] s t
        ∧ Reports d (.mgmtMaintenance 1) 0 [] s t ∧ Reporting s { t with module := s.module, cascade := s.cascade }) ∧
  (∀ d s, Executes d (.mgmtMaintenance 0) s → s.module.mode = .maintenance →
    Completes (.mgmtMaintenance d 0) s fun t =>
      t.module = { s.module with mode := if s.host.run then (if s.mgmt.step = 0 then .run else .lean) else .setup }
        ∧ t.mgmt.testFloor = none ∧ Reports d (.mgmtMaintenance 0) 0 [] s t
        ∧ Reporting s { t with module := s.module, cascade := s.cascade }) ∧
  (∀ d enter s, Executes d (.mgmtMaintenance enter) s → 1 < enter →
    Completes (.mgmtMaintenance d enter) s fun t => Reports d (.mgmtMaintenance enter) 0x01B0 [] s t ∧ Reporting s t) ∧
  (∀ d first count pinned s, Executes d (.mgmtLogRead first count pinned) s → 1 ≤ count → count ≤ 4096 → d.dmaOk = true →
    Completes (.mgmtLogRead d first count pinned) s fun t =>
      let l := ((logHeld s).filter fun r => decide (0 ≤ modDiff 32 r.seq first) && (!pinned || r.pinned)).take count
      Delivers d (l.flatMap logRecord) t
        ∧ Reports d (.mgmtLogRead first count pinned) 0
            [it 4 l.length, it 4 ((l.getLast?.map fun r => idx32 (r.seq + 1)).getD first),
             it 4 (((logHeld s).head?.map LogRec.seq).getD 0)] s t
        ∧ Reporting s t) ∧
  (∀ d s, Executes d .mgmtReset s →
    Completes (.mgmtReset d) s fun t =>
      t.mgmt = { s.mgmt with resetPending := some s.time.mono } ∧ Reports d .mgmtReset 0 [] s t ∧ Reporting s t) ∧
  (∀ d step s, Executes d (.mgmtLadderTest step) s → step ≤ 5 → s.module.mode ≠ .maintenance →
    Completes (.mgmtLadderTest d step) s fun t => Reports d (.mgmtLadderTest step) 0x03B1 [] s t ∧ Reporting s t) ∧
  (∀ d step s, Executes d (.mgmtLadderTest step) s → 1 ≤ step → step ≤ 5 → s.module.mode = .maintenance →
    Completes (.mgmtLadderTest d step) s fun t =>
      t.mgmt.testFloor = some step ∧ t.mgmt.step = max s.mgmt.step step ∧ t.module = s.module) ∧
  (∀ d s, Executes d (.mgmtLadderTest 0) s → s.module.mode = .maintenance →
    Completes (.mgmtLadderTest d 0) s fun t =>
      t.mgmt = { s.mgmt with testFloor := none } ∧ Reports d (.mgmtLadderTest 0) 0 [] s t ∧ Reporting s t)

/-- A message to the management pair is answered into the same slot of the host's mailbox with its kind, its tag, a status and the payload
of its kind, and leaves the pair's mailbox (R420).
Where the manual leaves it open this rests on the model's own choices (log entries 14 and 70). -/
def Obligations.ManagementAnswersItsMail : Prop :=
  (∀ slot x s, mapGet s.mbx.slots (slotKey 0 slot) = some x → x.full = true → answersMail s = true → s.host.attached = true → slot < 32 →
    msgByte x.msg 0 = 1 → x.msg.length = 64 →
    Completes (.mgmtEcho slot) s fun t =>
      (∃ y, mapGet t.mbx.slots (slotKey 33 slot) = some y ∧ y.full = true ∧ y.sender = 0 ∧ y.msg = x.msg.take 2 ++ [0, 0] ++ x.msg.drop 4)
        ∧ (∃ y, mapGet t.mbx.slots (slotKey 0 slot) = some y ∧ y.full = false) ∧ Reporting s { t with mbx := s.mbx }) ∧
  (∀ slot x s, mapGet s.mbx.slots (slotKey 0 slot) = some x → x.full = true → answersMail s = true → s.host.attached = true → slot < 32 →
    msgByte x.msg 0 = 2 → x.msg.length = 64 →
    Completes (.mgmtStatusMsg slot) s fun t =>
      (∃ y, mapGet t.mbx.slots (slotKey 33 slot) = some y ∧ y.full = true
          ∧ y.msg = x.msg.take 2 ++ [0, 0] ++ itemBytes [it 4 (identState s), it 4 (mgmtStatusWord s), it 4 (mgmtTemp s),
              it 4 s.mgmt.bootCount, it 4 s.mgmt.resetCause, it 4 s.mgmt.logSeq] ++ List.replicate 36 0)
        ∧ Reporting s { t with mbx := s.mbx }) ∧
  (∀ slot x n r s, mapGet s.mbx.slots (slotKey 0 slot) = some x → x.full = true → answersMail s = true → s.host.attached = true →
    slot < 32 → x.msg.length = 64 → msgByte x.msg 0 = 3 →
    n = msgByte x.msg 4 + msgByte x.msg 5 * 256 + msgByte x.msg 6 * 65536 + msgByte x.msg 7 * 16777216 →
    (logHeld s).find? (fun r => r.seq = n) = some r →
    Completes (.mgmtLogRecord slot) s fun t =>
      (∃ y, mapGet t.mbx.slots (slotKey 33 slot) = some y ∧ y.full = true ∧ y.msg = x.msg.take 2 ++ [0, 0] ++ (logBytes r).take 60)
        ∧ Reporting s { t with mbx := s.mbx })

/-- A reading gives its sensor a value and a level, told at a change; a limit that has held its time, a third lockstep mismatch and a third
internal fault lead to FAULT with the cause of R413; a mismatch or a first watchdog expiry restarts the pair; suppressed log records are
told once the second is over (R403 to R405, R413, R414, R418).
Where the manual leaves it open this rests on the model's own choices (log entries 15, 16, 67, 68, 69, 109 and 114). -/
def Obligations.SensorsAndFaultsAct : Prop :=
  (∀ id v s, s.power.managementUp = true → s.mgmt.restarting = false → id < 35 →
    Completes (.sensorSample [(id, v)]) s fun t =>
      mapGet t.mgmt.sensors id = some (v, newLevel s id (sensorLevel s id) v)
        ∧ (∀ j, j ≠ id → mapGet t.mgmt.sensors j = mapGet s.mgmt.sensors j)
        ∧ (∀ n, levelsPassed (sensorLevel s id).value (newLevel s id (sensorLevel s id) v).value = [n] →
          mapGet s.queue.limiters (limKey 0x0B83 id n) = none →
          Raises 0x0B83 .module (position s) [it 1 id, it 1 n, (4, v), it 4 1] s t)
        ∧ Reporting s t) ∧
  (∀ id since s, id < 16 → mapGet s.mgmt.limitSince id = some since → since + 100000000 ≤ s.time.mono → s.module.mode ≠ .off →
    s.module.mode ≠ .fault →
    Completes (.sensorLimitHeld id) s fun t =>
      t.module.mode = .fault ∧ t.mgmt.faultCause = 4 ∧ t.mgmt.vcoreRemoved = true ∧ t.cascade.role = .withdrawn
        ∧ Out.message .east .control "FAULT_ORDER" [] ∈ t.outbox ∧ Out.message .west .control "FAULT_ORDER" [] ∈ t.outbox) ∧
  (∀ s, s.module.mode ≠ .off → s.mgmt.restarting = false → (recent s s.mgmt.mismatches).length < 2 →
    Completes .lockstepMismatch s fun t =>
      t.mgmt.restarting = true ∧ t.mgmt.mismatches = s.time.mono :: recent s s.mgmt.mismatches ∧ t.module = s.module
        ∧ Raises 0x0B84 .module (position s) [it 1 0, it 4 ((recent s s.mgmt.mismatches).length + 1)] s t
        ∧ Reporting s { t with mbx := s.mbx }) ∧
  (∀ s, s.module.mode ≠ .off → s.module.mode ≠ .fault → s.mgmt.restarting = false → 2 ≤ (recent s s.mgmt.mismatches).length →
    Completes .lockstepMismatch s fun t => t.module.mode = .fault ∧ t.mgmt.faultCause = 6 ∧ t.cascade.role = .withdrawn) ∧
  (∀ b s, s.module.mode ≠ .off → watchdogDue s = true → (∀ a, s.mgmt.firstExpiry = some a → a + 60000000000 ≤ s.time.mono) →
    Completes (.watchdogExpiry b) s fun t =>
      t.mgmt.restarting = true ∧ t.mgmt.expiries = s.time.mono :: recent s s.mgmt.expiries ∧ t.mgmt.firstExpiry = some s.time.mono
        ∧ t.module = s.module ∧ Raises 0x0B84 .module (position s) [it 1 1, it 4 ((recent s s.mgmt.expiries).length + 1)] s t
        ∧ Reporting s { t with mbx := s.mbx }) ∧
  (∀ s, s.mgmt.logSuppressed ≠ 0 → s.mgmt.logSecond < s.time.wall / 1000000000 →
    Completes .logSuppressed s fun t =>
      t.mgmt.logSuppressed = 0
        ∧ (∃ r l, t.mgmt.logUnpinned = r :: l ∧ r.code = 0x0B86 ∧ r.data = [it 4 s.mgmt.logSuppressed])
        ∧ Reporting s t)

/-- An evaluation moves V_CORE by 5 mV at most, up below a margin of 1.05 and down after a surplus above 1.15 for 100 ms, within its range;
after ten evaluations below 1.00 at 900 mV the next step is taken; a critical junction takes one a second; LEAN follows; a lasting
shortage at the last step is told (R406, R407, R409 to R411).
Where the manual leaves it open this rests on the model's own choices (log entry 68). -/
def Obligations.TheGovernorSheds : Prop :=
  (∀ l projected s, inService s = true → s.mgmt.restarting = false → passedSince s s.mgmt.lastEvalNs 1000000 = true →
    thirdInternal s = false →
    Completes (.governorEvaluation l projected) s fun t =>
      t.mgmt.blocks = l ∧
        (below (leastBlock l) 1050 = true → s.mgmt.vcoreMv < 900 → t.mgmt.vcoreMv = s.mgmt.vcoreMv + 5) ∧
        (below (leastBlock l) 1050 = false → above (leastBlock l) 1150 = true →
          (∀ a, s.mgmt.surplusSince = some a → a + 100000000 ≤ s.time.mono → 620 < s.mgmt.vcoreMv →
            t.mgmt.vcoreMv = s.mgmt.vcoreMv - 5)) ∧
        (below (leastBlock l) 1050 = false → above (leastBlock l) 1150 = false → t.mgmt.vcoreMv = s.mgmt.vcoreMv)) ∧
  (∀ l projected s, inService s = true → s.mgmt.restarting = false → passedSince s s.mgmt.lastEvalNs 1000000 = true →
    thirdInternal s = false → s.mgmt.vcoreMv = 900 →
    below (leastBlock l) 1000 = true → 9 ≤ s.mgmt.shortCount → (∀ a, s.mgmt.lastTakeNs = some a → a + 20000000 ≤ s.time.mono) →
    s.mgmt.step < 5 →
    Completes (.governorEvaluation l projected) s fun t =>
      t.mgmt.step = s.mgmt.step + 1 ∧ t.mgmt.lastTakeNs = some s.time.mono ∧ (s.module.mode = .run → t.module.mode = .lean)
        ∧ Raises 0x0B81 .module (position s)
            [it 1 s.mgmt.step, it 1 (s.mgmt.step + 1), it 1 0, it 2 900, it 2 (marginPm (leastBlock l))] s t) ∧
  (∀ l projected s, inService s = true → s.mgmt.restarting = false → passedSince s s.mgmt.lastEvalNs 1000000 = true →
    thirdInternal s = true →
    Completes (.governorEvaluation l projected) s fun t => t.module.mode = .fault ∧ t.mgmt.faultCause = 8) ∧
  (∀ s, inService s = true → s.mgmt.restarting = false → anyTj s 2 = true → s.mgmt.step < 5 →
    (∀ a, s.mgmt.lastThermalNs = some a → a + 1000000000 ≤ s.time.mono) →
    Completes .thermalShed s fun t =>
      t.mgmt.step = s.mgmt.step + 1 ∧ t.mgmt.lastThermalNs = some s.time.mono ∧ (s.module.mode = .run → t.module.mode = .lean)
        ∧ Raises 0x0B81 .module (position s)
            [it 1 s.mgmt.step, it 1 (s.mgmt.step + 1), it 1 1, it 2 s.mgmt.vcoreMv, it 2 (marginPm (leastBlock s.mgmt.blocks))] s t) ∧
  (∀ a s, inService s = true → s.mgmt.restarting = false → s.mgmt.paceShort = false → s.mgmt.shortSince = some a → a + 100000000 ≤ s.time.mono →
    Completes .paceShort s fun t =>
      t.mgmt.paceShort = true
        ∧ Raises 0x0B82 .module (position s)
            [it 1 1, it 1 (((leastBlock s.mgmt.blocks).map BlockPace.code).getD 0), it 2 (marginPm (leastBlock s.mgmt.blocks))] s t
        ∧ Reporting s t)

/-! ## Resets, start-up and power -/

/-- A commanded reset, a second watchdog expiry within 60 s, SYS_RESET# and a release after shutdown reset the main section with their own
cause and boot the preferred bank, which passes its check; else the other bank, else FAULT with cause BOOT; a third watchdog reset within
ten minutes is a FAULT (R404, R413, R433, R441 to R443, R446, R447, R455).
Where the manual leaves it open this rests on the model's own choices (log entries 69, 73, 74, 79 and 109). -/
def Obligations.ResetsRestart : Prop :=
  (∀ b s, heldFor s s.mgmt.resetPending 1000000 = true → s.module.mode ≠ .off → s.update.phase ≠ .receiving → bankBoots s b s.update.bootPointer = true →
    Completes (.commandResetTimer b) s fun t =>
      Restarted 2 s t ∧ t.module.bank = s.update.bootPointer ∧ t.module.fallback = false ∧ t.module.masterSel = b.masterSel
        ∧ t.module.sideB = b.sideB ∧ t.update.phase = s.update.phase ∧ t.update.bootPointer = s.update.bootPointer) ∧
  (∀ b s, heldFor s s.mgmt.resetPending 1000000 = true → s.module.mode ≠ .off → s.update.phase ≠ .receiving → bankBoots s b s.update.bootPointer = false →
    bankBoots s b (otherBank s.update.bootPointer) = true →
    Completes (.commandResetTimer b) s fun t =>
      Restarted 2 s t ∧ t.module.bank = otherBank s.update.bootPointer ∧ t.module.fallback = true) ∧
  (∀ b s, heldFor s s.mgmt.resetPending 1000000 = true → s.module.mode ≠ .off → s.update.phase ≠ .receiving → bankBoots s b s.update.bootPointer = false →
    bankBoots s b (otherBank s.update.bootPointer) = false →
    Completes (.commandResetTimer b) s fun t => t.module.mode = .fault ∧ t.mgmt.faultCause = 1 ∧ t.mgmt.resetCause = 2) ∧
  (∀ b e s, s.module.mode ≠ .off → s.module.mode ≠ .starting → watchdogDue s = true → s.mgmt.firstExpiry = some e →
    s.time.mono < e + 60000000000 → s.update.phase ≠ .receiving → bankBoots s b s.update.bootPointer = true →
    (recent s s.mgmt.watchdogResets).length < 2 →
    Completes (.watchdogExpiry b) s fun t =>
      Restarted 3 s t ∧ t.mgmt.firstExpiry = none ∧ t.mgmt.expiries = s.time.mono :: recent s s.mgmt.expiries
        ∧ t.mgmt.watchdogResets = s.time.mono :: recent s s.mgmt.watchdogResets) ∧
  (∀ b e s, s.module.mode = .starting → watchdogDue s = true → s.mgmt.firstExpiry = some e → s.time.mono < e + 60000000000 →
    s.update.phase ≠ .receiving → s.module.bank = s.update.bootPointer → bankBoots s b (otherBank s.update.bootPointer) = true →
    (recent s s.mgmt.watchdogResets).length < 2 →
    Completes (.watchdogExpiry b) s fun t =>
      Restarted 3 s t ∧ t.module.bank = otherBank s.update.bootPointer ∧ t.module.fallback = true) ∧
  (∀ b e s, s.module.mode ≠ .off → s.module.mode ≠ .starting → watchdogDue s = true → s.mgmt.firstExpiry = some e →
    s.time.mono < e + 60000000000 → s.update.phase ≠ .receiving → bankBoots s b s.update.bootPointer = true → 2 ≤ (recent s s.mgmt.watchdogResets).length →
    Completes (.watchdogExpiry b) s fun t => t.module.mode = .fault ∧ t.mgmt.faultCause = 7 ∧ t.mgmt.resetCause = 3) ∧
  (∀ s, s.module.mode ≠ .off → s.power.sysResetHeld = false →
    Completes .sysReset s fun t => Restarted 1 s t ∧ t.power.sysResetHeld = true) ∧
  (∀ b s, s.power.sysResetHeld = true → bankBoots s b s.update.bootPointer = true →
    Completes (.sysResetRelease b) s fun t =>
      t.power = { s.power with sysResetHeld := false } ∧ t.module.mode = s.module.mode ∧ t.module.bank = s.update.bootPointer
        ∧ Raises 0x0B89 .module (position s) [it 1 5, it 1 1, it 1 0] s t
        ∧ Reporting s { t with power := s.power, module := s.module }) ∧
  (∀ b s, s.module.mode = .off → s.power.shutdownDone = true → s.power.managementUp = true → s.update.phase ≠ .receiving →
    bankBoots s b s.update.bootPointer = true →
    Completes (.shutdownRelease b) s fun t => Restarted 0 s t ∧ t.power.shutdownDone = false ∧ t.host.linkSpeed = 0)

/-- STARTING ends in SETUP with the lanes that training brought up, or in FAULT with cause DRAM_TRAINING or SELFTEST; the contacts of the
system connector are told and act: WAKE# in IDLE_LINK, the straps not at all, SHUTDOWN# by a drain, at the end of STARTING, or at once
from IDLE_LINK (R433, R440, R444, R452, R454).
Where the manual leaves it open this rests on the model's own choices (log entries 15, 16, 71, 72 and 74). -/
def Obligations.StartingEndsAndInputsAct : Prop :=
  (∀ f s, s.module.mode = .starting → s.power.sysResetHeld = false → s.power.shutdownAsked = false →
    (∀ p ∈ s.mem.channels, f.dramOk.getD p.1 false = true) → f.selfChecksOk = true →
    Completes (.startingComplete f) s fun t =>
      t.module = { s.module with mode := .setup }
        ∧ (∀ i < 52, f.lanesUp.getD i false = true → (laneRt t (if i < 20 then i else i + 12)).state = 3)
        ∧ (∀ p ∈ t.mem.channels, p.2.trained = true) ∧ t.mem.cells = s.mem.cells) ∧
  (∀ f p s, s.module.mode = .starting → s.power.sysResetHeld = false → p ∈ s.mem.channels → f.dramOk.getD p.1 false = false →
    Completes (.startingComplete f) s fun t => t.module.mode = .fault ∧ t.mgmt.faultCause = 3) ∧
  (∀ f s, s.module.mode = .starting → s.power.sysResetHeld = false → (∀ p ∈ s.mem.channels, f.dramOk.getD p.1 false = true) →
    f.selfChecksOk = false →
    Completes (.startingComplete f) s fun t => t.module.mode = .fault ∧ t.mgmt.faultCause = 2) ∧
  (∀ s, s.module.mode = .idleLink → s.power.sysResetHeld = false →
    Completes .wake s fun t =>
      t.module = { s.module with waking := true } ∧ Raises 0x0B89 .module (position s) [it 1 6, it 1 0, it 1 1] s t
        ∧ Reporting s { t with module := s.module }) ∧
  (∀ m b s, s.module.mode ≠ .off → m ≠ s.module.masterSel → b = s.module.sideB →
    Completes (.strapCheck m b) s fun t =>
      Raises 0x0B89 .module (position s) [it 1 9, it 1 (if m then 0 else 1), it 1 4] s t ∧ Reporting s t) ∧
  (∀ low s, s.module.mode ≠ .off → s.power.serviceEn ≠ low → s.update.connected = false →
    Completes (.serviceEn low) s fun t =>
      t.power = { s.power with serviceEn := low }
        ∧ Raises 0x0B89 .module (position s) [it 1 8, it 1 (if low then 0 else 1), it 1 3] s t
        ∧ Reporting s { t with power := s.power }) ∧
  (∀ s, inService s = true → s.power.sysResetHeld = false → s.power.shutdownDraining = false →
    Completes .shutdown s fun t =>
      t.power = { s.power with shutdownDraining := true, shutdownAsked := false } ∧ t.module = s.module
        ∧ (∀ k x, mapGet s.ingest.streams k = some x →
          mapGet t.ingest.streams k = some { x with stopped := true, open_ := [], units := [] })
        ∧ Raises 0x0B89 .module (position s) [it 1 7, it 1 0, it 1 2] s t
        ∧ Reporting s { t with power := s.power, ingest := s.ingest }) ∧
  (∀ s, s.module.mode = .starting → s.power.sysResetHeld = false → s.power.shutdownDraining = false →
    Completes .shutdown s fun t =>
      t.power = { s.power with shutdownAsked := true } ∧ t.module = s.module ∧ Reporting s { t with power := s.power }) ∧
  (∀ s, s.module.mode = .idleLink → s.power.sysResetHeld = false → s.power.shutdownDraining = false →
    Completes .shutdown s fun t =>
      t.module.mode = .off ∧ t.power.shutdownDone = true ∧ t.host.attached = false ∧ t.cascade.headstock = false) ∧
  (∀ s, s.power.shutdownDraining = true → drainEnded s = true → s.queue.inFlight = [] →
    Completes .shutdownDrainComplete s fun t =>
      t.module.mode = .off ∧ t.power.shutdownDraining = false ∧ t.power.shutdownDone = true ∧ t.host.attached = false
        ∧ t.host.linkSpeed = 0 ∧ t.cascade.headstock = false ∧ t.ts = s.ts)

/-- Mains come and go inlet by inlet, each change told; with both lost for 20 ms the module goes OFF; the keep-alive feed limits its current
and ends; the Tailstock loses and regains its power, its records then being written again; the pair powers up and, unless SHUTDOWN# is
low, the main section with it (R193, R195, R407, R423 to R426, R441).
Where the manual leaves it open this rests on the model's own choices (log entries 15, 16, 28 and 71). -/
def Obligations.PowerComesAndGoes : Prop :=
  (∀ volts s, s.power.inlet0 = false → 85 ≤ volts → volts ≤ 265 →
    Completes (.inletPresent 0 volts) s fun t =>
      t.power.inlet0 = true ∧ t.power.volts0 = volts ∧ t.power.bothLostSince = none ∧ t.power.inlet1 = s.power.inlet1
        ∧ (s.power.feed = .off → t.power.feed = .supplying) ∧ (s.power.feed ≠ .off → t.power.feed = s.power.feed)
        ∧ Raises 0x0B87 .module (position s)
            [it 1 0, it 1 1, it 2 volts, it 2 (sensorValue s 34).toNat] s t
        ∧ Reporting s { t with power := s.power }) ∧
  (∀ volts s, s.power.inlet1 = true → (volts < 75 ∨ 275 < volts) →
    Completes (.inletLost 1 volts) s fun t =>
      t.power = { s.power with inlet1 := false, volts1 := volts,
                               bothLostSince := if s.power.inlet0 then none else some s.time.mono }
        ∧ Raises 0x0B87 .module (position s)
            [it 1 1, it 1 0, it 2 volts, it 2 (sensorValue s 33).toNat] s t
        ∧ Reporting s { t with power := s.power }) ∧
  (∀ since s, s.power.bothLostSince = some since → since + 20000000 ≤ s.time.mono → s.power.managementUp = true →
    (s.module.mode ≠ .off ∨ s.power.feed ≠ .off) →
    Completes .holdupEnd s fun t =>
      t.module.mode = .off ∧ t.power.managementUp = true ∧ t.power.feed = .off ∧ (s.module.mode ≠ .off → t.host.attached = false)
        ∧ (s.cascade.twin ≠ none → t.ts = s.ts) ∧ (s.cascade.twin = none → t.ts.powered = false)) ∧
  (∀ since s, s.power.bothLostSince = some since → since + 60000000 ≤ s.time.mono → s.power.managementUp = true →
    s.module.mode = .off → s.power.feed = .off →
    Completes .holdupEnd s fun t =>
      t.power = { s.power with managementUp := false, shutdownDraining := false, sysResetHeld := false }
        ∧ (laneRt t 0).state = 1 ∧ (laneRt t 4).state = 1 ∧ (∀ k, k ≠ 0 → k ≠ 4 → laneRt t k = laneRt s k)
        ∧ Reporting s { t with power := s.power, cascade := s.cascade }) ∧
  (∀ limited busMv feedW s, s.power.feed ≠ .off →
    Completes (.keepaliveCurrentLimit limited busMv feedW) s fun t =>
      t.power = { s.power with busMv := busMv, feedW := feedW, feed := if limited then .limited else .supplying }
        ∧ (s.power.feed = .supplying → limited = true →
          Raises 0x0B88 .module (position s) [it 1 1, it 4 busMv, it 2 feedW] s t)
        ∧ Reporting s { t with power := s.power }) ∧
  (∀ s, s.ts.powered = true → s.power.inlet0 = false → s.power.inlet1 = false →
    Completes .keepaliveLow s fun t =>
      t.ts.powered = false ∧ t.time.tRef = none ∧ (∀ k ∈ List.range' 8 12 ++ List.range' 32 32, (laneRt t k).state = 1)
        ∧ t.module = s.module) ∧
  (∀ s, s.ts.powered = false →
    Completes .tailstockPowerUp s fun t =>
      t.ts = TsSt.init ∧ t.time.tRef = none ∧ t.time.spindle = 0
        ∧ (inService s = true → ∀ k h, mapGet s.scene.inForce.heads k = some h → k < 32 →
          ∃ c, Out.record .toTailstock c (.headTiming k h.timing) ∈ t.outbox)
        ∧ Reporting s { t with ts := s.ts, time := s.time }) ∧
  (∀ s, s.ts.powered = true → inService s = true → s.cascade.twinUp = true →
    Completes .tailstockPowerUp s fun t =>
      (∀ k h, mapGet s.scene.inForce.heads k = some h → 32 ≤ k → ∃ c, Out.record .twin c (.headTiming (k % 32) h.timing) ∈ t.outbox)
        ∧ Reporting s t) ∧
  (∀ b s, s.power.managementUp = false → (s.power.inlet0 = true ∨ s.power.inlet1 = true) → s.update.phase ≠ .receiving →
    bankBoots s b s.update.bootPointer = true →
    Completes (.managementPowerUp b false) s fun t =>
      Restarted 0 s t ∧ t.power.managementUp = true ∧ t.power.shutdownDone = false ∧ t.mgmt.step = 0 ∧ t.mgmt.vcoreMv = 800) ∧
  (∀ b s, s.power.managementUp = false → (s.power.inlet0 = true ∨ s.power.inlet1 = true) → s.module.mode = .off →
    Completes (.managementPowerUp b true) s fun t =>
      t.module = s.module ∧ t.power = { s.power with managementUp := true, shutdownDone := true } ∧ t.mgmt.step = 0
        ∧ t.time = { s.time with mgmtNs := 0 })

/-! ## Firmware update -/

/-- The commands of firmware update, each with the phase and the checks that R463 to R471 give it: status, distribution, activation at an
instant, a hitless update of a ready pair, replacement by engine, confirmation, revert and cancellation.
Where the manual leaves it open this rests on the model's own choices (log entries 14, 75, 76, 77 and 112). -/
def Obligations.UpdateCommandsComplete : Prop :=
  (∀ d s, Executes d .updateStatus s → d.dmaOk = true →
    Completes (.updateStatus d) s fun t =>
      Delivers d (recordBytes 64 (updateStatusItems s)) t ∧ Reports d .updateStatus 0 [] s t ∧ Reporting s t) ∧
  (∀ d mask staged p s, Executes d (.updateDistribute (position s) mask staged) s → s.cascade.headstock = true →
    s.update.distribute = none → s.update.phase = .staged → namedModules mask s = [p] → p ≠ position s → inTouch s p = true →
    Completes (.updateDistribute d (position s) mask staged) s fun t =>
      t.update = { s.update with distribute := some { ticket := ticketOf d 0x0C01 s, mask := [p], done := [], ok := [] } }
        ∧ Out.message .east .bulk "DISTRIBUTE" [(position s : Int), (p : Int), (s.queue.nextForward : Int)] ∈ t.outbox
        ∧ mapGet t.queue.forwards s.queue.nextForward = some (ticketOf d 0x0C01 s, p)
        ∧ Reporting s { t with update := s.update }) ∧
  (∀ d mask at_ staged s, Executes d (.updateActivate mask at_ staged) s → s.cascade.headstock = true → s.update.activate = none →
    activateTimely at_ s = true → positionsOf mask = [position s] → s.update.phase = .staged → inTxn s (position s) = false →
    Completes (.updateActivate d mask at_ staged) s fun t =>
      t.update = { s.update with
          phase := .scheduled, activateNs := some at_,
          activate := some { ticket := ticketOf d 0x0C02 s, mask := [position s], done := [], ok := [] } }
        ∧ ticketOf d 0x0C02 s ∈ t.queue.inFlight
        ∧ Raises 0x0C80 .module (position s) [it 1 2, it 1 3, it 1 (idleBank s), it 4 (bankVersion s (idleBank s))] s t
        ∧ Reporting s { t with update := s.update }) ∧
  (∀ d mask at_ staged s, Executes d (.updateActivate mask at_ staged) s → s.cascade.headstock = true → activateTimely at_ s = false →
    Completes (.updateActivate d mask at_ staged) s fun t =>
      Reports d (.updateActivate mask at_ staged) 0x03C0 [] s t ∧ Reporting s t) ∧
  (∀ d h s, Executes d (.updateHitless (some h) false) s → s.update.phase = .staged → (stagedImage s).map Colilo.bodyHash = some h →
    pairReady s = true →
    Completes (.updateHitless d (some h)) s fun t =>
      let first : Bool := s.cascade.role = .standby
      t.update = { s.update with
          phase := .scheduled, activateNs := if first then some s.time.wall else none,
          hitless := some { ticket := some (ticketOf d 0x0C03 s), step := 1, first := first, caughtUpNs := none, equalSinceNs := none } }
        ∧ Out.message .twin .control "HITLESS" [] ∈ t.outbox ∧ Reporting s { t with update := s.update }) ∧
  (∀ d twin s, Executes d (.updateHitless twin false) s → s.update.phase ≠ .staged →
    Completes (.updateHitless d twin) s fun t => Reports d (.updateHitless twin false) 0x06C7 [] s t ∧ Reporting s t) ∧
  (∀ d streams overlays e s, Executes d (.updateEngine streams overlays) s → s.update.engine = none → s.update.phase = .staged →
    replaceable s 3 = true → replaceable s 4 = true → e < 31 → bit streams e = true →
    Completes (.updateEngine d streams overlays) s fun t =>
      (∃ j, t.update.engine = some j ∧ j.ticket = ticketOf d 0x0C04 s ∧ j.loaded = false ∧ j.sinceNs = s.time.mono
          ∧ (∀ k < 32, k ∈ j.todo ↔ bit streams k = true) ∧ (∀ k < 8, 32 + k ∈ j.todo ↔ bit overlays k = true))
        ∧ mapGet t.update.engineVersion 31 = some (engineNew s) ∧ Reporting s { t with update := s.update }) ∧
  (∀ d s, Executes d .updateConfirm s → s.update.phase = .trial →
    Completes (.updateConfirm d) s fun t =>
      t.update = { s.update with
          phase := .idle, rollback := max s.update.rollback (((bankImage s s.module.bank).map Colilo.rollback).getD 0) }
        ∧ Raises 0x0C80 .module (position s) [it 1 5, it 1 0, it 1 s.module.bank, it 4 s.module.fwVersion] s t
        ∧ Reports d .updateConfirm 0 [] s t ∧ Reporting s { t with update := s.update }) ∧
  (∀ d s, Executes d .updateConfirm s → s.update.phase ≠ .trial →
    Completes (.updateConfirm d) s fun t => Reports d .updateConfirm 0x03C0 [] s t ∧ Reporting s t) ∧
  (∀ d b s, Executes d (.updateRevert b) s → s.update.phase = .idle → s.module.fallback = true →
    bankBoots s b (otherBank s.update.bootPointer) = true →
    Completes (.updateRevert d b) s fun t =>
      t.update = { s.update with bootPointer := otherBank s.update.bootPointer } ∧ Reports d (.updateRevert b) 0 [] s t
        ∧ Reporting s { t with update := s.update }) ∧
  (∀ d b s, Executes d (.updateRevert b) s → s.update.phase = .trial → bankBoots s b (otherBank s.update.bootPointer) = true →
    Completes (.updateRevert d b) s fun t =>
      Restarted 4 s t ∧ t.update.bootPointer = otherBank s.update.bootPointer ∧ t.update.phase = .idle
        ∧ Reports d (.updateRevert b) 0 [] s t) ∧
  (∀ d b s, Executes d (.updateRevert b) s → (s.update.phase = .trial ∨ s.update.phase = .idle) →
    bankBoots s b (otherBank s.update.bootPointer) = false →
    Completes (.updateRevert d b) s fun t => Reports d (.updateRevert b) 0x06C7 [] s t ∧ Reporting s t) ∧
  (∀ d mask at_ s, Executes d (.updateCancel mask) s → namedModules mask s = [position s] → s.update.phase = .scheduled →
    s.update.activateNs = some at_ → s.time.wall + 100000000 ≤ at_ → s.update.activate = none →
    Completes (.updateCancel d mask) s fun t =>
      t.update = { s.update with phase := .staged, activateNs := none } ∧ Reports d (.updateCancel mask) 0 [] s t
        ∧ Reporting s { t with update := s.update })

/-- The service port serves one connection at a time: HELLO tells the module, BEGIN with the keyswitch and a header that passes opens a
transfer into the emptied inactive bank, DATA adds to it, END leaves the verified image STAGED or the bank empty, and an abort, a stall of
10 s or a lost connection discards the transfer; every refusal names the first check that fails (R456 to R463).
Where the manual leaves it open this rests on the model's own choices (log entries 74, 75, 76 and 111). -/
def Obligations.TheServicePortUpdates : Prop :=
  (∀ s, serviceUp s = true → s.update.connected = false →
    Completes .serviceConnect s fun t => t = { s with update := { s.update with connected := true, lastDataNs := s.time.mono } }) ∧
  (∀ s, serviceUp s = true → s.update.connected = true →
    Completes .serviceConnect s fun t =>
      t.update = s.update ∧ Out.service "SECOND_RESULT" (resultBytes 0x03C0 0) ∈ t.outbox ∧ Out.service "SECOND_CLOSE" [] ∈ t.outbox
        ∧ Reporting s t) ∧
  (∀ s, serviceUp s = true → s.update.connected = true → s.update.transfer = none →
    Completes .serviceHello s fun t =>
      Out.service "HELLO_REPLY"
          (serviceBytes 0x81
            [it 4 Config.part, it 4 (Config.steppingSilicon + Config.steppingBoard * 256), it 4 (Config.serial % 4294967296),
             it 4 (Config.serial / 4294967296), it 4 s.module.fwVersion, it 4 (s.module.bank + flag s.module.fallback * 2),
             it 4 s.update.phase.value, it 4 s.update.rollback])
          ∈ t.outbox ∧ Reporting s t) ∧
  (∀ h s, serviceUp s = true → s.update.connected = true → s.update.transfer = none → s.power.serviceEn = true →
    (s.update.phase = .idle ∨ s.update.phase = .staged) → headerFault (readColilo h) s = 0 →
    Completes (.serviceBegin h) s fun t =>
      t.update.phase = .receiving ∧ t.update.transfer = some (readColilo h) ∧ t.update.body = [] ∧ bankStored t (idleBank s) = none
        ∧ bankStored t (otherBank (idleBank s)) = bankStored s (otherBank (idleBank s)) ∧ t.update.connected = true
        ∧ Out.service "RESULT" (resultBytes 0 0) ∈ t.outbox
        ∧ Raises 0x0C80 .module (position s)
            [it 1 s.update.phase.value, it 1 1, it 1 (idleBank s), it 4 (readColilo h).version] s t
        ∧ Reporting s { t with update := s.update }) ∧
  (∀ h s, serviceUp s = true → s.update.connected = true → s.update.transfer = none → s.update.body = [] →
    beginStatus (readColilo h) s ≠ 0 →
    Completes (.serviceBegin h) s fun t =>
      t.update = { s.update with connected := false } ∧ Out.service "RESULT" (resultBytes (beginStatus (readColilo h) s) 0) ∈ t.outbox
        ∧ Raises 0x0C81 .port 17 [it 2 (beginStatus (readColilo h) s), it 8 0, it 4 (readColilo h).version] s t
        ∧ Reporting s { t with update := s.update }) ∧
  (∀ bytes h s, serviceUp s = true → s.update.connected = true → s.update.transfer = some h → bytes ≠ [] → bytes.length ≤ 65536 →
    Completes (.serviceData bytes) s fun t =>
      t = { s with update := { s.update with body := s.update.body ++ bytes, lastDataNs := s.time.mono } }) ∧
  (∀ h s, serviceUp s = true → s.update.connected = true → s.update.transfer = some h → s.update.phase = .receiving →
    bodyMatches h s.update.body = true →
    Completes (.serviceEnd true) s fun t =>
      t.update.phase = .staged ∧ bankStored t (idleBank s) = some ⟨h, s.update.body⟩ ∧ t.update.transfer = none ∧ t.update.connected = true
        ∧ Out.service "RESULT" (resultBytes 0 s.update.body.length) ∈ t.outbox
        ∧ Raises 0x0C80 .module (position s) [it 1 1, it 1 2, it 1 (idleBank s), it 4 h.version] s t
        ∧ Reporting s { t with update := s.update }) ∧
  (∀ ok h s, serviceUp s = true → s.update.connected = true → s.update.transfer = some h → s.update.phase = .receiving →
    ok = false ∨ bodyMatches h s.update.body = false →
    Completes (.serviceEnd ok) s fun t =>
      t.update.phase = .idle ∧ bankStored t (idleBank s) = none ∧ t.update.transfer = none ∧ t.update.connected = false
        ∧ Out.service "RESULT" (resultBytes 0x06C5 s.update.body.length) ∈ t.outbox
        ∧ Raises 0x0C81 .port 17 [it 2 0x06C5, it 8 s.update.body.length, it 4 h.version] s t
        ∧ Reporting s { t with update := s.update }) ∧
  (∀ h s, serviceUp s = true → s.update.connected = true → s.update.transfer = some h → s.update.phase = .receiving →
    Completes .serviceAbort s fun t =>
      t.update.phase = .idle ∧ t.update.transfer = none ∧ bankStored t (idleBank s) = none ∧ t.update.connected = true
        ∧ Reporting s { t with update := s.update }) ∧
  (∀ h s, s.update.connected = true → s.update.transfer = some h → s.update.phase = .receiving →
    s.update.lastDataNs + 10000000000 ≤ s.time.mono →
    Completes .serviceStallTimeout s fun t =>
      t.update.phase = .idle ∧ t.update.transfer = none ∧ bankStored t (idleBank s) = none ∧ t.update.connected = false
        ∧ Out.service "CLOSE" [] ∈ t.outbox ∧ Reporting s { t with update := s.update }) ∧
  (∀ s, s.update.connected = true → s.update.transfer = none → s.update.phase ≠ .receiving →
    Completes .serviceDisconnect s fun t => t.update = { s.update with connected := false }
      ∧ Reporting s { t with update := s.update })

/-- A distributed image is checked as one of the service port and reported; at its instant a SCHEDULED module boots the staged bank, and in
SETUP its trial begins, or the fallback is told; a hitless update decides its swap once both bitmaps have been equal for 1 s, and gives up
30 s after the catch-up; the replacement of an engine moves its streams and loads its section (R463, R464, R466, R469 to R471).
Where the manual leaves it open this rests on the model's own choices (log entries 74, 77, 78, 111 and 112). -/
def Obligations.UpdatesRunTheirCourse : Prop :=
  (∀ source h bytes s, serviceUp s = true → s.cascade.headstock = false → s.update.phase = .idle →
    headerFault (readColilo h) s = 0 →
    Completes (.distributionRx ⟨source, some h, bytes⟩ none) s fun t =>
      t.update.phase = .receiving ∧ bankStored t (idleBank s) = none
        ∧ t.update.inbound = some { source := source, head := readColilo h, body := bytes, lastNs := s.time.mono }
        ∧ Reporting s { t with update := s.update }) ∧
  (∀ source bytes x s, serviceUp s = true → s.update.inbound = some x → x.source = source →
    Completes (.distributionRx ⟨source, none, bytes⟩ none) s fun t =>
      t = { s with update := { s.update with inbound := some { x with body := x.body ++ bytes, lastNs := s.time.mono } } }) ∧
  (∀ source bytes x s, serviceUp s = true → s.cascade.headstock = false → s.update.phase = .receiving → s.update.inbound = some x →
    x.source = source → bodyMatches x.head (x.body ++ bytes) = true →
    Completes (.distributionRx ⟨source, none, bytes⟩ (some true)) s fun t =>
      t.update.phase = .staged ∧ t.update.inbound = none ∧ bankStored t (idleBank s) = some ⟨x.head, x.body ++ bytes⟩
        ∧ Out.message (headstockBond s) .control "UPDATE_RESULT" [(position s : Int), 1] ∈ t.outbox ∧ Reporting s { t with update := s.update }) ∧
  (∀ source bytes ok x s, serviceUp s = true → s.cascade.headstock = false → s.update.phase = .receiving → s.update.inbound = some x →
    x.source = source → ok = false ∨ bodyMatches x.head (x.body ++ bytes) = false →
    Completes (.distributionRx ⟨source, none, bytes⟩ (some ok)) s fun t =>
      t.update.phase = .idle ∧ t.update.inbound = none ∧ bankStored t (idleBank s) = none
        ∧ Out.message (headstockBond s) .control "UPDATE_RESULT" [(position s : Int), 0] ∈ t.outbox
        ∧ Reporting s { t with update := s.update }) ∧
  (∀ source h bytes last s, serviceUp s = true → s.cascade.headstock = false → s.update.phase = .idle → s.update.inbound = none →
    headerFault (readColilo h) s ≠ 0 →
    Completes (.distributionRx ⟨source, some h, bytes⟩ last) s fun t =>
      Raises 0x0C81 .port 17 [it 2 (headerFault (readColilo h) s), it 8 0, it 4 (readColilo h).version] s t
        ∧ Out.message (headstockBond s) .control "UPDATE_RESULT" [(position s : Int), 0] ∈ t.outbox ∧ Reporting s t) ∧
  (∀ b at_ s, s.update.phase = .scheduled → s.update.activateNs = some at_ → at_ ≤ s.time.wall → s.module.mode ≠ .off →
    bankBoots s b (idleBank s) = true →
    Completes (.activationInstant b) s fun t =>
      Restarted 4 s t ∧ t.update.phase = .activating ∧ t.update.bootPointer = idleBank s ∧ t.update.activateNs = none
        ∧ t.module.bank = idleBank s ∧ t.mgmt.restarting = true) ∧
  (∀ s, s.update.phase = .activating → inService s = true → s.module.bank = s.update.bootPointer → s.update.activate = none →
    s.update.hitless = none →
    Completes .activationSetup s fun t =>
      t.update = { s.update with phase := .trial }
        ∧ Raises 0x0C80 .module (position s) [it 1 4, it 1 5, it 1 s.module.bank, it 4 s.module.fwVersion] s t
        ∧ Reporting s { t with update := s.update }) ∧
  (∀ s, s.update.phase = .activating → inService s = true → s.module.bank ≠ s.update.bootPointer → s.update.activate = none →
    s.update.hitless = none →
    Completes .activationSetup s fun t => t.update = { s.update with phase := .idle } ∧ Reporting s { t with update := s.update }) ∧
  (∀ h since s, s.update.hitless = some h → h.first = false → h.step = 4 → s.cascade.role = .active → s.cascade.swap = none →
    h.equalSinceNs = some since → since + 1000000000 ≤ s.time.mono →
    Completes (.hitlessSwapDecision (BitVec.ofNat 8192 (wholeBitmap s))) s fun t =>
      t.cascade = { s.cascade with swap := some { atNs := swapTime s, auto := false, hitless := true, ticket := none } }
        ∧ Out.message .twin .control "SWAP" [(swapTime s : Int)] ∈ t.outbox ∧ t.update = s.update
        ∧ Reporting s { t with cascade := s.cascade }) ∧
  (∀ h since tk s, s.update.hitless = some h → h.step = 4 → s.cascade.swap = none → h.caughtUpNs = some since →
    since + 30000000000 ≤ s.time.mono → h.ticket = some tk →
    Completes .hitlessTimeout s fun t =>
      t.update.hitless = none ∧ t.update.phase ≠ .scheduled ∧ Finishes tk 0x03C0 [] s t ∧ Reporting s { t with update := s.update }) ∧
  (∀ e j s, s.update.engine = some j → j.todo = [e] → mainUp s = true → e < 31 → j.loaded = false → carried s e = [] →
    Completes (.engineStreamMove e) s fun t =>
      t.update = { s.update with
          engine := some { j with loaded := true, sinceNs := s.time.mono },
          engineVersion := mapPut s.update.engineVersion e (engineNew s) }
        ∧ Raises 0x0C83 .module (position s) [it 1 e, it 4 (engineRuns s e), it 4 (engineNew s)] s t
        ∧ Reporting s { t with update := s.update }) ∧
  (∀ e j s, s.update.engine = some j → j.todo = [e] → mainUp s = true → e < 31 → j.loaded = true → j.moved = [] →
    Completes (.engineStreamMove e) s fun t =>
      t.update = { s.update with engine := none } ∧ Finishes j.ticket 0 [] s t ∧ Reporting s { t with update := s.update })

/-! ## Module memory -/

/-- An address of module DRAM maps to a channel and a local address by the mode, grain and hash of DRAMC.MAP, and the mapping is one to one;
the local address splits into byte, subchannel, burst column, bank group, bank and row, in both modes (R369, R370). -/
def Obligations.AddressesMapOneToOne : Prop :=
  (∀ (m : MemSt) (a : Nat), a < 2 ^ 37 →
    let s := min (max m.grainLog2 8) 16
    let g := a >>> s
    let field := fun (x i : Nat) => (x >>> i) &&& 7
    let l := localOf m a
    channelOf m a < 8 ∧ l < 2 ^ 34 ∧
    (m.mapFixed = false → m.hashEn = true → channelOf m a = field g 0 ^^^ field a 21 ^^^ field a 27 ^^^ field a 33) ∧
    (m.mapFixed = false → m.hashEn = false → channelOf m a = field g 0) ∧
    (m.mapFixed = false → l = ((a >>> (s + 3)) <<< s) ||| (a &&& (2 ^ s - 1))) ∧
    (m.mapFixed = true → channelOf m a = field a 13 ∧ l = ((a >>> 16) <<< 13) ||| (a &&& 0x1FFF)) ∧
    subOf l = (l >>> 6) &&& 1 ∧ columnOf l = field l 7 ||| (((l >>> 14) &&& 15) <<< 3) ∧ rowOf l = l >>> 18 ∧
    bankOf m l / 2 = (if m.mapFixed then field l 10 else field l 10 ^^^ field l 18) ∧ bankOf m l % 2 = (l >>> 13) &&& 1) ∧
  (∀ (m : MemSt) (a b : Nat), a < 2 ^ 37 → b < 2 ^ 37 → channelOf m a = channelOf m b → localOf m a = localOf m b → a = b) ∧
  (∀ (m : MemSt) (l k : Nat), l < 2 ^ 34 → k < 2 ^ 34 → l % 64 = k % 64 → subOf l = subOf k → columnOf l = columnOf k →
    bankOf m l = bankOf m k → rowOf l = rowOf k → l = k)

/-- Module DRAM is in canonical form after reset.
Where the manual leaves it open this rests on the model's own choices (log entry 10). -/
def Obligations.ResetMemoryIsCanonical : Prop := MemInv State.reset

/-- Every step keeps module DRAM in canonical form, from every state that has it.
Where the manual leaves it open this rests on the model's own choices (log entry 10). -/
def Obligations.StepsKeepMemoryCanonical : Prop := ∀ s t : State, MemInv s → step s = .next t → MemInv t

/-- With no burst poisoned, no error armed and none met, a read of module DRAM returns the bytes as they stand and a write stores its
bytes and no other; a read of a poisoned burst returns zeros with the poison flag and counts; an error in one device of one beat is
corrected and counted; one that touches a channel in training waits; the next burst is scrubbed (R364, R365, R366, R368, R372).
Where the manual leaves it open this rests on the model's own choices (log entries 10, 62 and 115). -/
def Obligations.MemoryIsReadAndWritten : Prop :=
  (∀ a s, a.write = false → dramOn s = true → inDram a.addr a.len = true → accessWaits s a = false → s.mem.poison = [] → s.mem.injected = [] →
    Completes (.memoryAccess a []) s fun t =>
      t = { s with outbox := Out.accessData (memReadN s a.addr a.len) false :: s.outbox }) ∧
  (∀ a s, a.write = true → dramOn s = true → inDram a.addr a.len = true → accessWaits s a = false → a.data.length = a.len → s.mem.poison = [] →
    s.mem.injected = [] →
    Completes (.memoryAccess a []) s fun t =>
      (∀ x, memRead t x = if a.addr ≤ x ∧ x < a.addr + a.len then a.data.getD (x - a.addr) 0 else memRead s x)
        ∧ t = { s with mem := { s.mem with cells := t.mem.cells } }) ∧
  (∀ a s, a.write = false → dramOn s = true → inDram a.addr a.len = true → accessWaits s a = false → 0 < a.len → a.addr / 64 = (a.addr + a.len - 1) / 64 →
    s.mem.poison.contains (a.addr / 64) = true → s.mem.injected = [] →
    Completes (.memoryAccess a []) s fun t =>
      Out.accessData ((List.range a.len).map fun _ => 0) true ∈ t.outbox ∧ t.mem.ueTotal = (s.mem.ueTotal + 1) % 4294967296
        ∧ t.mem.lastUe = 64 * (a.addr / 64) ∧ t.mem.poison = s.mem.poison ∧ Reporting s { t with mem := s.mem }) ∧
  (∀ a dev s, a.write = false → dramOn s = true → inDram a.addr a.len = true → accessWaits s a = false → 0 < a.len → a.addr / 64 = (a.addr + a.len - 1) / 64 →
    s.mem.poison = [] → s.mem.injected = [] → s.mem.failed = [] →
    Completes (.memoryAccess a [[dev]]) s fun t =>
      Out.accessData (memReadN s a.addr a.len) false ∈ t.outbox ∧ t.mem.ceTotal = (s.mem.ceTotal + 1) % 4294967296
        ∧ t.mem.cells = s.mem.cells ∧ t.mem.poison = [] ∧ Reporting s { t with mem := s.mem }) ∧
  (∀ a errors s, dramOn s = true → inDram a.addr a.len = true → accessWaits s a = true →
    Completes (.memoryAccess a errors) s fun t =>
      t = { s with mem := { s.mem with waiting := s.mem.waiting ++ [(a, errors)] } }) ∧
  (∀ s, dramOn s = true → channelTrains s (channelOf s.mem s.mem.scrubPos) = false → s.mem.poison = [] → s.mem.injected = [] →
    Completes (.scrubStep []) s fun t =>
      t.mem = (if s.mem.scrubPos + 64 = Config.dramBytes
          then { s.mem with scrubPos := 0, scrubPasses := (s.mem.scrubPasses + 1) % 4294967296 }
          else { s.mem with scrubPos := s.mem.scrubPos + 64 })
        ∧ t = { s with mem := t.mem })

/-- Refresh keeps what banks hold and tells uncorrectable errors not raised in their second; MR4 answers set each subchannel's rate; the
end of a refresh window empties the row tables of its subchannel; ZQ calibration changes nothing; measured drift is told. An activate of a
tracked row counts it, and at the threshold mitigates it and frees its entry; one of an untracked row takes a free entry with count 1, or,
the table being full, mitigates it when the random source says so (R373, R375, R376, R378, R381).
Where the manual leaves it open this rests on the model's own choices (log entries 3, 6 and 115). -/
def Obligations.RefreshAndActivatesKeepMemory : Prop :=
  (∀ c sub s, 0 < s.mem.ueUnraised → s.mem.ueSecond < s.time.mono / second →
    Completes (.refresh c sub) s fun t =>
      Raises 0x0E81 .module (position s)
          [it 8 s.mem.lastUe, it 1 (subKeyOf s.mem s.mem.lastUe / 2), it 1 (subKeyOf s.mem s.mem.lastUe % 2), it 1 0,
           it 4 s.mem.ueUnraised] s t
        ∧ t.mem = { s.mem with ueUnraised := 0 } ∧ Reporting s { t with mem := s.mem }) ∧
  (∀ c sub s, s.mem.ueUnraised = 0 → Completes (.refresh c sub) s fun t => t = s) ∧
  (∀ answers c sub ch s, dramOn s = true → c < 8 → sub < 2 → mapGet s.mem.channels c = some ch →
    Completes (.mr4Poll answers) s fun t =>
      (∃ x, mapGet t.mem.channels c = some x
        ∧ (if sub = 0 then x.hotA else x.hotB)
          = if (answers.any fun a => a.channel = c && a.sub = sub) then
              (answers.any fun a => a.channel = c && a.sub = sub && a.double)
            else if sub = 0 then ch.hotA else ch.hotB)
        ∧ t.mem = { s.mem with channels := t.mem.channels } ∧ Reporting s { t with mem := s.mem }) ∧
  (∀ c sub s,
    Completes (.refreshWindowEnd c sub) s fun t =>
      (∀ k, mapGet t.mem.tables k = if k / 32 = c * 2 + sub then none else mapGet s.mem.tables k)
        ∧ t = { s with mem := { s.mem with tables := t.mem.tables } }) ∧
  (∀ s, Completes .zqCalibration s fun t => t = s) ∧
  (∀ c a b ch s, mapGet s.mem.channels c = some ch → dramOn s = true →
    Completes (.dqsOscillator c a b) s fun t =>
      let drift := max a b
      mapGet t.mem.channels c = some { ch with driftPs := drift, driftTold := driftPast drift }
        ∧ (driftPast drift = true → ch.driftTold = false → Raises 0x0E83 .module (position s) [it 1 c, it 1 0, it 4 drift] s t)
        ∧ t.mem = { s.mem with channels := t.mem.channels } ∧ Reporting s { t with mem := s.mem }) ∧
  (∀ c sub bank row sampled k n s, k = trackKey c sub bank row →
    ((mapGetD s.mem.tables k []).find? fun p => p.1 = row) = some (row, n) → n + 1 < rdThresh s.mem →
    Completes (.rowActivate c sub bank row sampled) s fun t =>
      mapGetD t.mem.tables k [] = (mapGetD s.mem.tables k []).map (fun p => if p.1 = row then (row, n + 1) else p)
        ∧ (∀ j, j ≠ k → mapGet t.mem.tables j = mapGet s.mem.tables j)
        ∧ t = { s with mem := { s.mem with tables := t.mem.tables } }) ∧
  (∀ c sub bank row sampled k n s, k = trackKey c sub bank row →
    ((mapGetD s.mem.tables k []).find? fun p => p.1 = row) = some (row, n) → rdThresh s.mem ≤ n + 1 →
    Completes (.rowActivate c sub bank row sampled) s fun t =>
      ((mapGetD t.mem.tables k []).find? fun p => p.1 = row) = none ∧ t.mem.mitigations = (s.mem.mitigations + 1) % 4294967296
        ∧ Out.directedRefresh c sub bank row ∈ t.outbox
        ∧ t = { s with mem := { s.mem with tables := t.mem.tables, mitigations := t.mem.mitigations }, outbox := t.outbox }) ∧
  (∀ c sub bank row sampled k s, k = trackKey c sub bank row →
    ((mapGetD s.mem.tables k []).find? fun p => p.1 = row) = none → (mapGetD s.mem.tables k []).length < 16 →
    Completes (.rowActivate c sub bank row sampled) s fun t =>
      mapGetD t.mem.tables k [] = (row, 1) :: mapGetD s.mem.tables k []
        ∧ (∀ j, j ≠ k → mapGet t.mem.tables j = mapGet s.mem.tables j)
        ∧ t = { s with mem := { s.mem with tables := t.mem.tables } }) ∧
  (∀ c sub bank row sampled k s, k = trackKey c sub bank row →
    ((mapGetD s.mem.tables k []).find? fun p => p.1 = row) = none → 16 ≤ (mapGetD s.mem.tables k []).length →
    Completes (.rowActivate c sub bank row sampled) s fun t =>
      mapGetD t.mem.tables k [] = mapGetD s.mem.tables k []
        ∧ t.mem.mitigations = (if sampled then (s.mem.mitigations + 1) % 4294967296 else s.mem.mitigations)
        ∧ (sampled = true →
          Out.directedRefresh c sub bank row ∈ t.outbox))

/-- Diagnostics: MEM_STATUS delivers its record of 1,024 bytes and changes nothing; MEM_RETRAIN in MAINTENANCE begins with the first
channel named and else answers DIAG_BUSY_IN_SERVICE; a channel that has trained keeps its new margins and after the last the command
completes, the accesses that waited for the channel being served; MEM_INJECT arms an error for the next read of its burst (R379, R380).
Where the manual leaves it open this rests on the model's own choices (log entries 14, 63 and 115). -/
def Obligations.MemoryDiagnosticsComplete : Prop :=
  (∀ d s, Executes d .memStatus s → d.dmaOk = true →
    Completes (.memStatus d) s fun t =>
      Delivers d (recordBytes 1024 (memStatusItems s)) t ∧ Reports d .memStatus 0 [] s t ∧ Reporting s t) ∧
  (∀ d c ch s, Executes d (.memRetrain c) s → c ≤ 7 ∨ c = 0xFF → s.module.mode = .maintenance → s.mem.retrain = none →
    mapGet s.mem.channels (if c = 0xFF then 0 else c) = some ch →
    Completes (.memRetrain d c) s fun t =>
      t.mem.retrain = some (ticketOf d 0x0E01 s, if c = 0xFF then List.range 8 else [c], [])
        ∧ mapGet t.mem.channels (if c = 0xFF then 0 else c) = some { ch with retraining := true }
        ∧ Reporting s { t with mem := s.mem }) ∧
  (∀ d c s, Executes d (.memRetrain c) s → c ≤ 7 ∨ c = 0xFF → s.module.mode ≠ .maintenance →
    Completes (.memRetrain d c) s fun t => Reports d (.memRetrain c) 0x03E0 [] s t ∧ Reporting s t) ∧
  (∀ c rd wr tk res r ch s, s.mem.retrain = some (tk, [c], res) → mapGet s.mem.channels c = some ch → s.mem.waiting = [] →
    tk.origin = none → tk.quiet = false → s.host.attached = true → cplRingOf s tk.ring = some r →
    Completes (.memRetrainChannelDone c true rd wr) s fun t =>
      t.mem.retrain = none
        ∧ mapGet t.mem.channels c
          = some { ch with retraining := false, trained := true, readMarginPs := rd, writeMarginPs := wr, driftPs := 0, driftTold := false }
        ∧ (Published r
            { ticket := tk, status := 0, position := position s, forwarded := false, result := (res ++ [it 2 rd, it 2 wr]).take 6 } t)
        ∧ Reporting s { t with mem := s.mem }) ∧
  (∀ c rd wr tk res a s, s.mem.retrain = some (tk, [c], res) → s.mem.waiting = [(a, [])] → a.write = false → s.mem.poison = [] →
    s.mem.injected = [] → (∀ b ∈ burstsOf a.addr a.len, channelOf s.mem (64 * b) = c) → mapHas s.mem.channels c = true →
    Completes (.memRetrainChannelDone c true rd wr) s fun t =>
      t.mem.waiting = [] ∧ Out.accessData (memReadN s a.addr a.len) false ∈ t.outbox ∧ t.mem.cells = s.mem.cells) ∧
  (∀ d addr devices first s, Executes d (.memInject addr devices first) s → s.module.mode = .maintenance → addr < Config.dramBytes →
    devices = 1 ∨ devices = 2 → first ≤ 9 → first + devices ≤ 10 →
    Completes (.memInject d addr devices first) s fun t =>
      mapGet t.mem.injected (addr / 64) = some (if devices = 1 then [first] else [first, first + 1])
        ∧ t.mem = { s.mem with injected := t.mem.injected }
        ∧ Reports d (.memInject addr devices first) 0 [] s t ∧ Reporting s { t with mem := s.mem })

/-! ## Gates, mailboxes and locks -/

/-- An access that the memory gate allows whole reads the bytes as they stand, or stores its bytes and no other; one refused whole
returns zeros with the poison flag or stores nothing, is counted, and begins a fault record; an open register is written through its
gate. GATE_FENCE completes once no access is left that the named gates checked under replaced rules: at once, or with poll with
GATE_FENCE_PENDING, or when those accesses have ended; GATE_FAULT_READ copies records (R384, R385, R390, R393, R394).
Where the manual leaves it open this rests on the model's own choices (log entries 24, 64, 65 and 115). -/
def Obligations.GatesPassOrRefuse : Prop :=
  (∀ a s, a.write = false → dramOn s = true → inDram a.addr a.len = true → a.len ≤ 512 → accessWaits s a = false → (gateDo 0 a s).2.1 = false →
    s.mem.poison = [] → s.mem.injected = [] →
    Completes (.gateAccess 0 a) s fun t => t = { s with outbox := Out.accessData (memReadN s a.addr a.len) false :: s.outbox }) ∧
  (∀ a s, a.write = true → dramOn s = true → inDram a.addr a.len = true → a.len ≤ 512 → a.data.length = a.len →
    accessWaits s a = false → (gateDo 0 a s).2.1 = false → s.mem.poison = [] → s.mem.injected = [] →
    Completes (.gateAccess 0 a) s fun t =>
      (∀ x, memRead t x = if a.addr ≤ x ∧ x < a.addr + a.len then a.data.getD (x - a.addr) 0 else memRead s x)
        ∧ t = { s with mem := { s.mem with cells := t.mem.cells } }) ∧
  (∀ a s, dramOn s = true → inDram a.addr a.len = true → 0 < a.len → a.len ≤ 512 → (checkAccess s 0 a).2.1.ok = false →
    (checkAccess s 0 a).2.2 = none → s.gates.faults = [] →
    Completes (.gateAccess 0 a) s fun t =>
      (a.write = false → Out.accessData ((List.range a.len).map fun _ => 0) true ∈ t.outbox)
        ∧ t.mem = s.mem ∧ t.gates.faultCount = (s.gates.faultCount + 1) % 4294967296
        ∧ t.gates.lastFaultSeq = (s.gates.lastFaultSeq + 1) % 4294967296
        ∧ (∃ f, t.gates.faults = [f] ∧ f.seq = t.gates.lastFaultSeq ∧ f.gate = 0 ∧ f.cause = (checkAccess s 0 a).2.1.cause
          ∧ f.initiator = initiatorId a.initiator ∧ f.address = a.addr ∧ f.length = a.len ∧ f.write = a.write ∧ f.parts = 1
          ∧ f.outcomeA = (if a.write then 1 else 2) ∧ f.wallNs = s.time.wall ∧ f.further = 0)
        ∧ Reporting s { t with gates := s.gates }) ∧
  (∀ who s, RegOpen who 0x20804 true s →
    Completes (.gateAccess 8 { initiator := who, ctx := .none, cmdTag := none, addr := 0x20804, len := 4, write := true, data := [] }) s
      fun t => t = { s with mbx := { s.mbx with hostMask := 0 } }) ∧
  (∀ d mask poll s, Executes d (.gateFence mask poll) s → mask < 512 → (s.gates.draining.any fun g => bit mask g) = false →
    Completes (.gateFence d mask poll) s fun t => Reports d (.gateFence mask poll) 0 [] s t ∧ Reporting s t) ∧
  (∀ d mask s, Executes d (.gateFence mask true) s → mask < 512 → (s.gates.draining.any fun g => bit mask g) = true →
    Completes (.gateFence d mask true) s fun t => Reports d (.gateFence mask true) 0x03A0 [] s t ∧ Reporting s t) ∧
  (∀ d mask s, Executes d (.gateFence mask false) s → mask < 512 → (s.gates.draining.any fun g => bit mask g) = true →
    Completes (.gateFence d mask false) s fun t =>
      t.gates = { s.gates with fences := s.gates.fences ++ [(mask, ticketOf d 0x0A00 s)] }
        ∧ ticketOf d 0x0A00 s ∈ t.queue.inFlight ∧ Reporting s { t with gates := s.gates }) ∧
  (∀ mask tk r s, s.gates.fences = [(mask, tk)] → s.mem.waiting = [] → tk.origin = none → tk.quiet = false → s.host.attached = true →
    cplRingOf s tk.ring = some r →
    Completes .gateFenceComplete s fun t =>
      t.gates = { s.gates with draining := [], fences := [] }
        ∧ (Published r { ticket := tk, status := 0, position := position s, forwarded := false, result := [] } t)
        ∧ Reporting s { t with gates := s.gates }) ∧
  (∀ d seq s, Executes d (.gateFaultRead seq) s → d.dmaOk = true →
    Completes (.gateFaultRead d seq) s fun t =>
      Delivers d (itemBytes ((s.gates.faults.filter fun f => decide (0 ≤ modDiff 32 f.seq seq)).reverse.flatMap faultItems)) t
        ∧ Reports d (.gateFaultRead seq) 0 [it 4 (s.gates.faults.filter fun f => decide (0 ≤ modDiff 32 f.seq seq)).length] s t ∧ Reporting s t)

/-- An access part that a check finds inside two regions of one layer, object or driver, is refused with the cause OVERLAP, and the module
records it in the Shavings log with a code of class 0x0F, or counts it there where the log has had its hundred records of the second
(R389, R418).
Where the manual leaves it open this rests on the model's own choices (log entries 64 and 69). -/
def Obligations.OverlapIsRefused : Prop :=
  (∀ (s : State) (who : Initiator) (a : Nat) (c : Context) (w : Bool) (l : List ObjRegion) (x y : ObjRegion) (rest : List ObjRegion),
    who.cls ≠ 0 → who.cls ≠ 9 → objRegions s who c = some l → (l.filter fun r => inObj a r) = x :: y :: rest →
    (checkAt s 0 who c a w).ok = false ∧ (checkAt s 0 who c a w).cause = 4) ∧
  (∀ (s : State) (gate : Nat) (who : Initiator) (a : Nat) (c : Context) (w : Bool) (x y : Nat × RuleRegion)
      (rest : List (Nat × RuleRegion)),
    who.cls ≠ 0 → (objectCheck s gate who c a w).ok = true → ((driverRegions s gate).filter fun p => inRule a p.2) = x :: y :: rest →
    (checkAt s gate who c a w).ok = false ∧ (checkAt s gate who c a w).cause = 4) ∧
  (∀ (s : State) (gate : Nat) (a : Access),
    ((checkAccess s gate a).2.1.ok = false ∧ (checkAccess s gate a).2.1.cause = 4)
      ∨ (∃ q, (checkAccess s gate a).2.2 = some q ∧ q.ok = false ∧ q.cause = 4) →
    s.mem.poison = [] → s.mem.injected = [] → s.mgmt.logSuppressed = 0 →
    (gateDo gate a s).2.1 = true
      ∧ (s.mgmt.logSecond ≠ s.time.wall / 1000000000 ∨ s.mgmt.logInSecond < Config.logPerSecond →
        ∃ r ∈ (gateDo gate a s).2.2.mgmt.logPinned, r.code / 256 = 0x0F ∧ r.seq = (s.mgmt.logSeq + 1) % 4294967296)
      ∧ (s.mgmt.logSecond = s.time.wall / 1000000000 → Config.logPerSecond ≤ s.mgmt.logInSecond →
        (gateDo gate a s).2.2.mgmt.logSuppressed = 1))

/-- A read of a free lock returns 0 and makes the reader its holder; a read of a held one returns the holder's initiator id plus one and
changes nothing; of two reads of one free lock exactly one returns 0, and the other the winner's id plus one (R398).
Where the manual leaves it open this rests on the model's own choices (log entries 24 and 66). -/
def Obligations.LocksAdmitOneHolder : Prop :=
  (∀ lock who s, lock < 64 → RegOpen who (0x28000 + 4 * lock) false s → mapGet s.mbx.locks lock = none →
    Completes (.lockRead lock who) s fun t =>
      t.outbox = Out.readData 0 :: s.outbox ∧ mapGet t.mbx.locks lock = some (who.cls * 512 + who.index)
        ∧ (∀ l, l ≠ lock → mapGet t.mbx.locks l = mapGet s.mbx.locks l)
        ∧ t = { s with outbox := t.outbox, mbx := { s.mbx with locks := t.mbx.locks } }) ∧
  (∀ lock who holder s, lock < 64 → RegOpen who (0x28000 + 4 * lock) false s → mapGet s.mbx.locks lock = some holder →
    Completes (.lockRead lock who) s fun t =>
      t = { s with outbox := Out.readData (BitVec.ofNat 32 (holder + 1)) :: s.outbox }) ∧
  (∀ lock a b s, lock < 64 → RegOpen a (0x28000 + 4 * lock) false s → RegOpen b (0x28000 + 4 * lock) false s →
    mapGet s.mbx.locks lock = none →
    Completes (.lockRead lock a) s fun t => Completes (.lockRead lock b) t fun u =>
      u.outbox = Out.readData (BitVec.ofNat 32 (a.cls * 512 + a.index + 1)) :: Out.readData 0 :: s.outbox
        ∧ mapGet u.mbx.locks lock = some (a.cls * 512 + a.index))

/-- MBX_POST stores the message with its sender and sets the doorbell bit, and the collision bit where the slot was full; to a receiver
that is not serving it stores nothing and answers with the timeout flag; MBX_READ copies the host's slots of its mask and empties them;
LOCK_ACQUIRE and LOCK_RELEASE take and free a lock for the host (R395 to R399).
Where the manual leaves it open this rests on the model's own choices (log entries 17 and 66). -/
def Obligations.MailboxesAndLocksComplete : Prop :=
  (∀ d receiver slot msg s, Executes d (.mbxPost receiver slot msg) s → receiver ≤ 32 → slot ≤ 31 → d.dmaOk = true →
    serving s receiver = true →
    Completes (.mbxPost d receiver slot msg) s fun t =>
      mapGet t.mbx.slots (receiver * 32 + slot)
          = some { msg := msg, sender := 513, full := true, senderReset := false,
                   collision := (mapGetD s.mbx.slots (receiver * 32 + slot) emptySlot).full
                     || (mapGetD s.mbx.slots (receiver * 32 + slot) emptySlot).collision }
        ∧ t.mbx = { s.mbx with slots := t.mbx.slots }
        ∧ Reports d (.mbxPost receiver slot msg) 0 [it 4 (sendStatus s 33 receiver)] s t ∧ Reporting s { t with mbx := s.mbx }) ∧
  (∀ d receiver slot msg s, Executes d (.mbxPost receiver slot msg) s → receiver ≤ 32 → slot ≤ 31 → d.dmaOk = true →
    serving s receiver = false →
    Completes (.mbxPost d receiver slot msg) s fun t =>
      sendStatus t 33 receiver = Nat.lor (sendStatus s 33 receiver) 2 ∧ t.mbx = { s.mbx with sendStatus := t.mbx.sendStatus }
        ∧ Reports d (.mbxPost receiver slot msg) 0 [it 4 (sendStatus t 33 receiver)] s t ∧ Reporting s { t with mbx := s.mbx }) ∧
  (∀ d mask s, Executes d (.mbxRead mask) s → d.dmaOk = true →
    Completes (.mbxRead d mask) s fun t =>
      Delivers d (itemBytes (((List.range 32).filter fun i => bit mask i).flatMap fun i =>
          slotItems i (mapGetD s.mbx.slots (33 * 32 + i) emptySlot))) t
        ∧ (∀ i < 32, mapGet t.mbx.slots (33 * 32 + i) = (mapGet s.mbx.slots (33 * 32 + i)).map fun x =>
            if bit mask i then { x with full := false, collision := false, senderReset := false } else x)
        ∧ Reports d (.mbxRead mask) 0 [] s t ∧ Reporting s { t with mbx := s.mbx }) ∧
  (∀ d lock s, Executes d (.lockAcquire lock) s → lock < 64 →
    Completes (.lockAcquire d lock) s fun t =>
      t.mbx = (if mapGet s.mbx.locks lock = none then { s.mbx with locks := mapPut s.mbx.locks lock 513 } else s.mbx)
        ∧ Reports d (.lockAcquire lock) 0 [it 4 ((mapGet s.mbx.locks lock).elim 0 (· + 1))] s t
        ∧ Reporting s { t with mbx := s.mbx }) ∧
  (∀ d lock s, Executes d (.lockRelease lock) s → lock < 64 → mapGet s.mbx.locks lock = some 513 →
    Completes (.lockRelease d lock) s fun t =>
      mapGet t.mbx.locks lock = none ∧ t.mbx = { s.mbx with locks := t.mbx.locks }
        ∧ Reports d (.lockRelease lock) 0 [it 1 1] s t ∧ Reporting s { t with mbx := s.mbx })
end

