-- ==== Sys2Proof/Laws/State.lean ====
section
/-! SUPPORT. One lemma for each part of the state under each change of a part, true by unfolding: no later proof unfolds a
record update. -/

namespace Sys2Proof.Machine

@[simp] theorem State.modModule_module (s : State) (f : ModuleSt → ModuleSt) : (s.modModule f).module = f s.module := rfl
@[simp] theorem State.modModule_host (s : State) (f : ModuleSt → ModuleSt) : (s.modModule f).host = s.host := rfl
@[simp] theorem State.modModule_queue (s : State) (f : ModuleSt → ModuleSt) : (s.modModule f).queue = s.queue := rfl
@[simp] theorem State.modModule_mgmt (s : State) (f : ModuleSt → ModuleSt) : (s.modModule f).mgmt = s.mgmt := rfl
@[simp] theorem State.modModule_power (s : State) (f : ModuleSt → ModuleSt) : (s.modModule f).power = s.power := rfl
@[simp] theorem State.modModule_update (s : State) (f : ModuleSt → ModuleSt) : (s.modModule f).update = s.update := rfl
@[simp] theorem State.modModule_time (s : State) (f : ModuleSt → ModuleSt) : (s.modModule f).time = s.time := rfl
@[simp] theorem State.modModule_ingest (s : State) (f : ModuleSt → ModuleSt) : (s.modModule f).ingest = s.ingest := rfl
@[simp] theorem State.modModule_decode (s : State) (f : ModuleSt → ModuleSt) : (s.modModule f).decode = s.decode := rfl
@[simp] theorem State.modModule_ledger (s : State) (f : ModuleSt → ModuleSt) : (s.modModule f).ledger = s.ledger := rfl
@[simp] theorem State.modModule_scene (s : State) (f : ModuleSt → ModuleSt) : (s.modModule f).scene = s.scene := rfl
@[simp] theorem State.modModule_compose (s : State) (f : ModuleSt → ModuleSt) : (s.modModule f).compose = s.compose := rfl
@[simp] theorem State.modModule_ts (s : State) (f : ModuleSt → ModuleSt) : (s.modModule f).ts = s.ts := rfl
@[simp] theorem State.modModule_record (s : State) (f : ModuleSt → ModuleSt) : (s.modModule f).record = s.record := rfl
@[simp] theorem State.modModule_overlay (s : State) (f : ModuleSt → ModuleSt) : (s.modModule f).overlay = s.overlay := rfl
@[simp] theorem State.modModule_txn (s : State) (f : ModuleSt → ModuleSt) : (s.modModule f).txn = s.txn := rfl
@[simp] theorem State.modModule_link (s : State) (f : ModuleSt → ModuleSt) : (s.modModule f).link = s.link := rfl
@[simp] theorem State.modModule_cascade (s : State) (f : ModuleSt → ModuleSt) : (s.modModule f).cascade = s.cascade := rfl
@[simp] theorem State.modModule_mem (s : State) (f : ModuleSt → ModuleSt) : (s.modModule f).mem = s.mem := rfl
@[simp] theorem State.modModule_gates (s : State) (f : ModuleSt → ModuleSt) : (s.modModule f).gates = s.gates := rfl
@[simp] theorem State.modModule_mbx (s : State) (f : ModuleSt → ModuleSt) : (s.modModule f).mbx = s.mbx := rfl
@[simp] theorem State.modModule_outbox (s : State) (f : ModuleSt → ModuleSt) : (s.modModule f).outbox = s.outbox := rfl
@[simp] theorem State.modModule_free (s : State) (f : ModuleSt → ModuleSt) : (s.modModule f).free = s.free := rfl
@[simp] theorem State.modModule_pending (s : State) (f : ModuleSt → ModuleSt) : (s.modModule f).pending = s.pending := rfl
@[simp] theorem State.modHost_module (s : State) (f : HostSt → HostSt) : (s.modHost f).module = s.module := rfl
@[simp] theorem State.modHost_host (s : State) (f : HostSt → HostSt) : (s.modHost f).host = f s.host := rfl
@[simp] theorem State.modHost_queue (s : State) (f : HostSt → HostSt) : (s.modHost f).queue = s.queue := rfl
@[simp] theorem State.modHost_mgmt (s : State) (f : HostSt → HostSt) : (s.modHost f).mgmt = s.mgmt := rfl
@[simp] theorem State.modHost_power (s : State) (f : HostSt → HostSt) : (s.modHost f).power = s.power := rfl
@[simp] theorem State.modHost_update (s : State) (f : HostSt → HostSt) : (s.modHost f).update = s.update := rfl
@[simp] theorem State.modHost_time (s : State) (f : HostSt → HostSt) : (s.modHost f).time = s.time := rfl
@[simp] theorem State.modHost_ingest (s : State) (f : HostSt → HostSt) : (s.modHost f).ingest = s.ingest := rfl
@[simp] theorem State.modHost_decode (s : State) (f : HostSt → HostSt) : (s.modHost f).decode = s.decode := rfl
@[simp] theorem State.modHost_ledger (s : State) (f : HostSt → HostSt) : (s.modHost f).ledger = s.ledger := rfl
@[simp] theorem State.modHost_scene (s : State) (f : HostSt → HostSt) : (s.modHost f).scene = s.scene := rfl
@[simp] theorem State.modHost_compose (s : State) (f : HostSt → HostSt) : (s.modHost f).compose = s.compose := rfl
@[simp] theorem State.modHost_ts (s : State) (f : HostSt → HostSt) : (s.modHost f).ts = s.ts := rfl
@[simp] theorem State.modHost_record (s : State) (f : HostSt → HostSt) : (s.modHost f).record = s.record := rfl
@[simp] theorem State.modHost_overlay (s : State) (f : HostSt → HostSt) : (s.modHost f).overlay = s.overlay := rfl
@[simp] theorem State.modHost_txn (s : State) (f : HostSt → HostSt) : (s.modHost f).txn = s.txn := rfl
@[simp] theorem State.modHost_link (s : State) (f : HostSt → HostSt) : (s.modHost f).link = s.link := rfl
@[simp] theorem State.modHost_cascade (s : State) (f : HostSt → HostSt) : (s.modHost f).cascade = s.cascade := rfl
@[simp] theorem State.modHost_mem (s : State) (f : HostSt → HostSt) : (s.modHost f).mem = s.mem := rfl
@[simp] theorem State.modHost_gates (s : State) (f : HostSt → HostSt) : (s.modHost f).gates = s.gates := rfl
@[simp] theorem State.modHost_mbx (s : State) (f : HostSt → HostSt) : (s.modHost f).mbx = s.mbx := rfl
@[simp] theorem State.modHost_outbox (s : State) (f : HostSt → HostSt) : (s.modHost f).outbox = s.outbox := rfl
@[simp] theorem State.modHost_free (s : State) (f : HostSt → HostSt) : (s.modHost f).free = s.free := rfl
@[simp] theorem State.modHost_pending (s : State) (f : HostSt → HostSt) : (s.modHost f).pending = s.pending := rfl
@[simp] theorem State.modQueue_module (s : State) (f : QueueSt → QueueSt) : (s.modQueue f).module = s.module := rfl
@[simp] theorem State.modQueue_host (s : State) (f : QueueSt → QueueSt) : (s.modQueue f).host = s.host := rfl
@[simp] theorem State.modQueue_queue (s : State) (f : QueueSt → QueueSt) : (s.modQueue f).queue = f s.queue := rfl
@[simp] theorem State.modQueue_mgmt (s : State) (f : QueueSt → QueueSt) : (s.modQueue f).mgmt = s.mgmt := rfl
@[simp] theorem State.modQueue_power (s : State) (f : QueueSt → QueueSt) : (s.modQueue f).power = s.power := rfl
@[simp] theorem State.modQueue_update (s : State) (f : QueueSt → QueueSt) : (s.modQueue f).update = s.update := rfl
@[simp] theorem State.modQueue_time (s : State) (f : QueueSt → QueueSt) : (s.modQueue f).time = s.time := rfl
@[simp] theorem State.modQueue_ingest (s : State) (f : QueueSt → QueueSt) : (s.modQueue f).ingest = s.ingest := rfl
@[simp] theorem State.modQueue_decode (s : State) (f : QueueSt → QueueSt) : (s.modQueue f).decode = s.decode := rfl
@[simp] theorem State.modQueue_ledger (s : State) (f : QueueSt → QueueSt) : (s.modQueue f).ledger = s.ledger := rfl
@[simp] theorem State.modQueue_scene (s : State) (f : QueueSt → QueueSt) : (s.modQueue f).scene = s.scene := rfl
@[simp] theorem State.modQueue_compose (s : State) (f : QueueSt → QueueSt) : (s.modQueue f).compose = s.compose := rfl
@[simp] theorem State.modQueue_ts (s : State) (f : QueueSt → QueueSt) : (s.modQueue f).ts = s.ts := rfl
@[simp] theorem State.modQueue_record (s : State) (f : QueueSt → QueueSt) : (s.modQueue f).record = s.record := rfl
@[simp] theorem State.modQueue_overlay (s : State) (f : QueueSt → QueueSt) : (s.modQueue f).overlay = s.overlay := rfl
@[simp] theorem State.modQueue_txn (s : State) (f : QueueSt → QueueSt) : (s.modQueue f).txn = s.txn := rfl
@[simp] theorem State.modQueue_link (s : State) (f : QueueSt → QueueSt) : (s.modQueue f).link = s.link := rfl
@[simp] theorem State.modQueue_cascade (s : State) (f : QueueSt → QueueSt) : (s.modQueue f).cascade = s.cascade := rfl
@[simp] theorem State.modQueue_mem (s : State) (f : QueueSt → QueueSt) : (s.modQueue f).mem = s.mem := rfl
@[simp] theorem State.modQueue_gates (s : State) (f : QueueSt → QueueSt) : (s.modQueue f).gates = s.gates := rfl
@[simp] theorem State.modQueue_mbx (s : State) (f : QueueSt → QueueSt) : (s.modQueue f).mbx = s.mbx := rfl
@[simp] theorem State.modQueue_outbox (s : State) (f : QueueSt → QueueSt) : (s.modQueue f).outbox = s.outbox := rfl
@[simp] theorem State.modQueue_free (s : State) (f : QueueSt → QueueSt) : (s.modQueue f).free = s.free := rfl
@[simp] theorem State.modQueue_pending (s : State) (f : QueueSt → QueueSt) : (s.modQueue f).pending = s.pending := rfl
@[simp] theorem State.modMgmt_module (s : State) (f : MgmtSt → MgmtSt) : (s.modMgmt f).module = s.module := rfl
@[simp] theorem State.modMgmt_host (s : State) (f : MgmtSt → MgmtSt) : (s.modMgmt f).host = s.host := rfl
@[simp] theorem State.modMgmt_queue (s : State) (f : MgmtSt → MgmtSt) : (s.modMgmt f).queue = s.queue := rfl
@[simp] theorem State.modMgmt_mgmt (s : State) (f : MgmtSt → MgmtSt) : (s.modMgmt f).mgmt = f s.mgmt := rfl
@[simp] theorem State.modMgmt_power (s : State) (f : MgmtSt → MgmtSt) : (s.modMgmt f).power = s.power := rfl
@[simp] theorem State.modMgmt_update (s : State) (f : MgmtSt → MgmtSt) : (s.modMgmt f).update = s.update := rfl
@[simp] theorem State.modMgmt_time (s : State) (f : MgmtSt → MgmtSt) : (s.modMgmt f).time = s.time := rfl
@[simp] theorem State.modMgmt_ingest (s : State) (f : MgmtSt → MgmtSt) : (s.modMgmt f).ingest = s.ingest := rfl
@[simp] theorem State.modMgmt_decode (s : State) (f : MgmtSt → MgmtSt) : (s.modMgmt f).decode = s.decode := rfl
@[simp] theorem State.modMgmt_ledger (s : State) (f : MgmtSt → MgmtSt) : (s.modMgmt f).ledger = s.ledger := rfl
@[simp] theorem State.modMgmt_scene (s : State) (f : MgmtSt → MgmtSt) : (s.modMgmt f).scene = s.scene := rfl
@[simp] theorem State.modMgmt_compose (s : State) (f : MgmtSt → MgmtSt) : (s.modMgmt f).compose = s.compose := rfl
@[simp] theorem State.modMgmt_ts (s : State) (f : MgmtSt → MgmtSt) : (s.modMgmt f).ts = s.ts := rfl
@[simp] theorem State.modMgmt_record (s : State) (f : MgmtSt → MgmtSt) : (s.modMgmt f).record = s.record := rfl
@[simp] theorem State.modMgmt_overlay (s : State) (f : MgmtSt → MgmtSt) : (s.modMgmt f).overlay = s.overlay := rfl
@[simp] theorem State.modMgmt_txn (s : State) (f : MgmtSt → MgmtSt) : (s.modMgmt f).txn = s.txn := rfl
@[simp] theorem State.modMgmt_link (s : State) (f : MgmtSt → MgmtSt) : (s.modMgmt f).link = s.link := rfl
@[simp] theorem State.modMgmt_cascade (s : State) (f : MgmtSt → MgmtSt) : (s.modMgmt f).cascade = s.cascade := rfl
@[simp] theorem State.modMgmt_mem (s : State) (f : MgmtSt → MgmtSt) : (s.modMgmt f).mem = s.mem := rfl
@[simp] theorem State.modMgmt_gates (s : State) (f : MgmtSt → MgmtSt) : (s.modMgmt f).gates = s.gates := rfl
@[simp] theorem State.modMgmt_mbx (s : State) (f : MgmtSt → MgmtSt) : (s.modMgmt f).mbx = s.mbx := rfl
@[simp] theorem State.modMgmt_outbox (s : State) (f : MgmtSt → MgmtSt) : (s.modMgmt f).outbox = s.outbox := rfl
@[simp] theorem State.modMgmt_free (s : State) (f : MgmtSt → MgmtSt) : (s.modMgmt f).free = s.free := rfl
@[simp] theorem State.modMgmt_pending (s : State) (f : MgmtSt → MgmtSt) : (s.modMgmt f).pending = s.pending := rfl
@[simp] theorem State.modPower_module (s : State) (f : PowerSt → PowerSt) : (s.modPower f).module = s.module := rfl
@[simp] theorem State.modPower_host (s : State) (f : PowerSt → PowerSt) : (s.modPower f).host = s.host := rfl
@[simp] theorem State.modPower_queue (s : State) (f : PowerSt → PowerSt) : (s.modPower f).queue = s.queue := rfl
@[simp] theorem State.modPower_mgmt (s : State) (f : PowerSt → PowerSt) : (s.modPower f).mgmt = s.mgmt := rfl
@[simp] theorem State.modPower_power (s : State) (f : PowerSt → PowerSt) : (s.modPower f).power = f s.power := rfl
@[simp] theorem State.modPower_update (s : State) (f : PowerSt → PowerSt) : (s.modPower f).update = s.update := rfl
@[simp] theorem State.modPower_time (s : State) (f : PowerSt → PowerSt) : (s.modPower f).time = s.time := rfl
@[simp] theorem State.modPower_ingest (s : State) (f : PowerSt → PowerSt) : (s.modPower f).ingest = s.ingest := rfl
@[simp] theorem State.modPower_decode (s : State) (f : PowerSt → PowerSt) : (s.modPower f).decode = s.decode := rfl
@[simp] theorem State.modPower_ledger (s : State) (f : PowerSt → PowerSt) : (s.modPower f).ledger = s.ledger := rfl
@[simp] theorem State.modPower_scene (s : State) (f : PowerSt → PowerSt) : (s.modPower f).scene = s.scene := rfl
@[simp] theorem State.modPower_compose (s : State) (f : PowerSt → PowerSt) : (s.modPower f).compose = s.compose := rfl
@[simp] theorem State.modPower_ts (s : State) (f : PowerSt → PowerSt) : (s.modPower f).ts = s.ts := rfl
@[simp] theorem State.modPower_record (s : State) (f : PowerSt → PowerSt) : (s.modPower f).record = s.record := rfl
@[simp] theorem State.modPower_overlay (s : State) (f : PowerSt → PowerSt) : (s.modPower f).overlay = s.overlay := rfl
@[simp] theorem State.modPower_txn (s : State) (f : PowerSt → PowerSt) : (s.modPower f).txn = s.txn := rfl
@[simp] theorem State.modPower_link (s : State) (f : PowerSt → PowerSt) : (s.modPower f).link = s.link := rfl
@[simp] theorem State.modPower_cascade (s : State) (f : PowerSt → PowerSt) : (s.modPower f).cascade = s.cascade := rfl
@[simp] theorem State.modPower_mem (s : State) (f : PowerSt → PowerSt) : (s.modPower f).mem = s.mem := rfl
@[simp] theorem State.modPower_gates (s : State) (f : PowerSt → PowerSt) : (s.modPower f).gates = s.gates := rfl
@[simp] theorem State.modPower_mbx (s : State) (f : PowerSt → PowerSt) : (s.modPower f).mbx = s.mbx := rfl
@[simp] theorem State.modPower_outbox (s : State) (f : PowerSt → PowerSt) : (s.modPower f).outbox = s.outbox := rfl
@[simp] theorem State.modPower_free (s : State) (f : PowerSt → PowerSt) : (s.modPower f).free = s.free := rfl
@[simp] theorem State.modPower_pending (s : State) (f : PowerSt → PowerSt) : (s.modPower f).pending = s.pending := rfl
@[simp] theorem State.modUpdate_module (s : State) (f : UpdateSt → UpdateSt) : (s.modUpdate f).module = s.module := rfl
@[simp] theorem State.modUpdate_host (s : State) (f : UpdateSt → UpdateSt) : (s.modUpdate f).host = s.host := rfl
@[simp] theorem State.modUpdate_queue (s : State) (f : UpdateSt → UpdateSt) : (s.modUpdate f).queue = s.queue := rfl
@[simp] theorem State.modUpdate_mgmt (s : State) (f : UpdateSt → UpdateSt) : (s.modUpdate f).mgmt = s.mgmt := rfl
@[simp] theorem State.modUpdate_power (s : State) (f : UpdateSt → UpdateSt) : (s.modUpdate f).power = s.power := rfl
@[simp] theorem State.modUpdate_update (s : State) (f : UpdateSt → UpdateSt) : (s.modUpdate f).update = f s.update := rfl
@[simp] theorem State.modUpdate_time (s : State) (f : UpdateSt → UpdateSt) : (s.modUpdate f).time = s.time := rfl
@[simp] theorem State.modUpdate_ingest (s : State) (f : UpdateSt → UpdateSt) : (s.modUpdate f).ingest = s.ingest := rfl
@[simp] theorem State.modUpdate_decode (s : State) (f : UpdateSt → UpdateSt) : (s.modUpdate f).decode = s.decode := rfl
@[simp] theorem State.modUpdate_ledger (s : State) (f : UpdateSt → UpdateSt) : (s.modUpdate f).ledger = s.ledger := rfl
@[simp] theorem State.modUpdate_scene (s : State) (f : UpdateSt → UpdateSt) : (s.modUpdate f).scene = s.scene := rfl
@[simp] theorem State.modUpdate_compose (s : State) (f : UpdateSt → UpdateSt) : (s.modUpdate f).compose = s.compose := rfl
@[simp] theorem State.modUpdate_ts (s : State) (f : UpdateSt → UpdateSt) : (s.modUpdate f).ts = s.ts := rfl
@[simp] theorem State.modUpdate_record (s : State) (f : UpdateSt → UpdateSt) : (s.modUpdate f).record = s.record := rfl
@[simp] theorem State.modUpdate_overlay (s : State) (f : UpdateSt → UpdateSt) : (s.modUpdate f).overlay = s.overlay := rfl
@[simp] theorem State.modUpdate_txn (s : State) (f : UpdateSt → UpdateSt) : (s.modUpdate f).txn = s.txn := rfl
@[simp] theorem State.modUpdate_link (s : State) (f : UpdateSt → UpdateSt) : (s.modUpdate f).link = s.link := rfl
@[simp] theorem State.modUpdate_cascade (s : State) (f : UpdateSt → UpdateSt) : (s.modUpdate f).cascade = s.cascade := rfl
@[simp] theorem State.modUpdate_mem (s : State) (f : UpdateSt → UpdateSt) : (s.modUpdate f).mem = s.mem := rfl
@[simp] theorem State.modUpdate_gates (s : State) (f : UpdateSt → UpdateSt) : (s.modUpdate f).gates = s.gates := rfl
@[simp] theorem State.modUpdate_mbx (s : State) (f : UpdateSt → UpdateSt) : (s.modUpdate f).mbx = s.mbx := rfl
@[simp] theorem State.modUpdate_outbox (s : State) (f : UpdateSt → UpdateSt) : (s.modUpdate f).outbox = s.outbox := rfl
@[simp] theorem State.modUpdate_free (s : State) (f : UpdateSt → UpdateSt) : (s.modUpdate f).free = s.free := rfl
@[simp] theorem State.modUpdate_pending (s : State) (f : UpdateSt → UpdateSt) : (s.modUpdate f).pending = s.pending := rfl
@[simp] theorem State.modTime_module (s : State) (f : TimeSt → TimeSt) : (s.modTime f).module = s.module := rfl
@[simp] theorem State.modTime_host (s : State) (f : TimeSt → TimeSt) : (s.modTime f).host = s.host := rfl
@[simp] theorem State.modTime_queue (s : State) (f : TimeSt → TimeSt) : (s.modTime f).queue = s.queue := rfl
@[simp] theorem State.modTime_mgmt (s : State) (f : TimeSt → TimeSt) : (s.modTime f).mgmt = s.mgmt := rfl
@[simp] theorem State.modTime_power (s : State) (f : TimeSt → TimeSt) : (s.modTime f).power = s.power := rfl
@[simp] theorem State.modTime_update (s : State) (f : TimeSt → TimeSt) : (s.modTime f).update = s.update := rfl
@[simp] theorem State.modTime_time (s : State) (f : TimeSt → TimeSt) : (s.modTime f).time = f s.time := rfl
@[simp] theorem State.modTime_ingest (s : State) (f : TimeSt → TimeSt) : (s.modTime f).ingest = s.ingest := rfl
@[simp] theorem State.modTime_decode (s : State) (f : TimeSt → TimeSt) : (s.modTime f).decode = s.decode := rfl
@[simp] theorem State.modTime_ledger (s : State) (f : TimeSt → TimeSt) : (s.modTime f).ledger = s.ledger := rfl
@[simp] theorem State.modTime_scene (s : State) (f : TimeSt → TimeSt) : (s.modTime f).scene = s.scene := rfl
@[simp] theorem State.modTime_compose (s : State) (f : TimeSt → TimeSt) : (s.modTime f).compose = s.compose := rfl
@[simp] theorem State.modTime_ts (s : State) (f : TimeSt → TimeSt) : (s.modTime f).ts = s.ts := rfl
@[simp] theorem State.modTime_record (s : State) (f : TimeSt → TimeSt) : (s.modTime f).record = s.record := rfl
@[simp] theorem State.modTime_overlay (s : State) (f : TimeSt → TimeSt) : (s.modTime f).overlay = s.overlay := rfl
@[simp] theorem State.modTime_txn (s : State) (f : TimeSt → TimeSt) : (s.modTime f).txn = s.txn := rfl
@[simp] theorem State.modTime_link (s : State) (f : TimeSt → TimeSt) : (s.modTime f).link = s.link := rfl
@[simp] theorem State.modTime_cascade (s : State) (f : TimeSt → TimeSt) : (s.modTime f).cascade = s.cascade := rfl
@[simp] theorem State.modTime_mem (s : State) (f : TimeSt → TimeSt) : (s.modTime f).mem = s.mem := rfl
@[simp] theorem State.modTime_gates (s : State) (f : TimeSt → TimeSt) : (s.modTime f).gates = s.gates := rfl
@[simp] theorem State.modTime_mbx (s : State) (f : TimeSt → TimeSt) : (s.modTime f).mbx = s.mbx := rfl
@[simp] theorem State.modTime_outbox (s : State) (f : TimeSt → TimeSt) : (s.modTime f).outbox = s.outbox := rfl
@[simp] theorem State.modTime_free (s : State) (f : TimeSt → TimeSt) : (s.modTime f).free = s.free := rfl
@[simp] theorem State.modTime_pending (s : State) (f : TimeSt → TimeSt) : (s.modTime f).pending = s.pending := rfl
@[simp] theorem State.modIngest_module (s : State) (f : IngestSt → IngestSt) : (s.modIngest f).module = s.module := rfl
@[simp] theorem State.modIngest_host (s : State) (f : IngestSt → IngestSt) : (s.modIngest f).host = s.host := rfl
@[simp] theorem State.modIngest_queue (s : State) (f : IngestSt → IngestSt) : (s.modIngest f).queue = s.queue := rfl
@[simp] theorem State.modIngest_mgmt (s : State) (f : IngestSt → IngestSt) : (s.modIngest f).mgmt = s.mgmt := rfl
@[simp] theorem State.modIngest_power (s : State) (f : IngestSt → IngestSt) : (s.modIngest f).power = s.power := rfl
@[simp] theorem State.modIngest_update (s : State) (f : IngestSt → IngestSt) : (s.modIngest f).update = s.update := rfl
@[simp] theorem State.modIngest_time (s : State) (f : IngestSt → IngestSt) : (s.modIngest f).time = s.time := rfl
@[simp] theorem State.modIngest_ingest (s : State) (f : IngestSt → IngestSt) : (s.modIngest f).ingest = f s.ingest := rfl
@[simp] theorem State.modIngest_decode (s : State) (f : IngestSt → IngestSt) : (s.modIngest f).decode = s.decode := rfl
@[simp] theorem State.modIngest_ledger (s : State) (f : IngestSt → IngestSt) : (s.modIngest f).ledger = s.ledger := rfl
@[simp] theorem State.modIngest_scene (s : State) (f : IngestSt → IngestSt) : (s.modIngest f).scene = s.scene := rfl
@[simp] theorem State.modIngest_compose (s : State) (f : IngestSt → IngestSt) : (s.modIngest f).compose = s.compose := rfl
@[simp] theorem State.modIngest_ts (s : State) (f : IngestSt → IngestSt) : (s.modIngest f).ts = s.ts := rfl
@[simp] theorem State.modIngest_record (s : State) (f : IngestSt → IngestSt) : (s.modIngest f).record = s.record := rfl
@[simp] theorem State.modIngest_overlay (s : State) (f : IngestSt → IngestSt) : (s.modIngest f).overlay = s.overlay := rfl
@[simp] theorem State.modIngest_txn (s : State) (f : IngestSt → IngestSt) : (s.modIngest f).txn = s.txn := rfl
@[simp] theorem State.modIngest_link (s : State) (f : IngestSt → IngestSt) : (s.modIngest f).link = s.link := rfl
@[simp] theorem State.modIngest_cascade (s : State) (f : IngestSt → IngestSt) : (s.modIngest f).cascade = s.cascade := rfl
@[simp] theorem State.modIngest_mem (s : State) (f : IngestSt → IngestSt) : (s.modIngest f).mem = s.mem := rfl
@[simp] theorem State.modIngest_gates (s : State) (f : IngestSt → IngestSt) : (s.modIngest f).gates = s.gates := rfl
@[simp] theorem State.modIngest_mbx (s : State) (f : IngestSt → IngestSt) : (s.modIngest f).mbx = s.mbx := rfl
@[simp] theorem State.modIngest_outbox (s : State) (f : IngestSt → IngestSt) : (s.modIngest f).outbox = s.outbox := rfl
@[simp] theorem State.modIngest_free (s : State) (f : IngestSt → IngestSt) : (s.modIngest f).free = s.free := rfl
@[simp] theorem State.modIngest_pending (s : State) (f : IngestSt → IngestSt) : (s.modIngest f).pending = s.pending := rfl
@[simp] theorem State.modDecode_module (s : State) (f : DecodeSt → DecodeSt) : (s.modDecode f).module = s.module := rfl
@[simp] theorem State.modDecode_host (s : State) (f : DecodeSt → DecodeSt) : (s.modDecode f).host = s.host := rfl
@[simp] theorem State.modDecode_queue (s : State) (f : DecodeSt → DecodeSt) : (s.modDecode f).queue = s.queue := rfl
@[simp] theorem State.modDecode_mgmt (s : State) (f : DecodeSt → DecodeSt) : (s.modDecode f).mgmt = s.mgmt := rfl
@[simp] theorem State.modDecode_power (s : State) (f : DecodeSt → DecodeSt) : (s.modDecode f).power = s.power := rfl
@[simp] theorem State.modDecode_update (s : State) (f : DecodeSt → DecodeSt) : (s.modDecode f).update = s.update := rfl
@[simp] theorem State.modDecode_time (s : State) (f : DecodeSt → DecodeSt) : (s.modDecode f).time = s.time := rfl
@[simp] theorem State.modDecode_ingest (s : State) (f : DecodeSt → DecodeSt) : (s.modDecode f).ingest = s.ingest := rfl
@[simp] theorem State.modDecode_decode (s : State) (f : DecodeSt → DecodeSt) : (s.modDecode f).decode = f s.decode := rfl
@[simp] theorem State.modDecode_ledger (s : State) (f : DecodeSt → DecodeSt) : (s.modDecode f).ledger = s.ledger := rfl
@[simp] theorem State.modDecode_scene (s : State) (f : DecodeSt → DecodeSt) : (s.modDecode f).scene = s.scene := rfl
@[simp] theorem State.modDecode_compose (s : State) (f : DecodeSt → DecodeSt) : (s.modDecode f).compose = s.compose := rfl
@[simp] theorem State.modDecode_ts (s : State) (f : DecodeSt → DecodeSt) : (s.modDecode f).ts = s.ts := rfl
@[simp] theorem State.modDecode_record (s : State) (f : DecodeSt → DecodeSt) : (s.modDecode f).record = s.record := rfl
@[simp] theorem State.modDecode_overlay (s : State) (f : DecodeSt → DecodeSt) : (s.modDecode f).overlay = s.overlay := rfl
@[simp] theorem State.modDecode_txn (s : State) (f : DecodeSt → DecodeSt) : (s.modDecode f).txn = s.txn := rfl
@[simp] theorem State.modDecode_link (s : State) (f : DecodeSt → DecodeSt) : (s.modDecode f).link = s.link := rfl
@[simp] theorem State.modDecode_cascade (s : State) (f : DecodeSt → DecodeSt) : (s.modDecode f).cascade = s.cascade := rfl
@[simp] theorem State.modDecode_mem (s : State) (f : DecodeSt → DecodeSt) : (s.modDecode f).mem = s.mem := rfl
@[simp] theorem State.modDecode_gates (s : State) (f : DecodeSt → DecodeSt) : (s.modDecode f).gates = s.gates := rfl
@[simp] theorem State.modDecode_mbx (s : State) (f : DecodeSt → DecodeSt) : (s.modDecode f).mbx = s.mbx := rfl
@[simp] theorem State.modDecode_outbox (s : State) (f : DecodeSt → DecodeSt) : (s.modDecode f).outbox = s.outbox := rfl
@[simp] theorem State.modDecode_free (s : State) (f : DecodeSt → DecodeSt) : (s.modDecode f).free = s.free := rfl
@[simp] theorem State.modDecode_pending (s : State) (f : DecodeSt → DecodeSt) : (s.modDecode f).pending = s.pending := rfl
@[simp] theorem State.modLedger_module (s : State) (f : LedgerSt → LedgerSt) : (s.modLedger f).module = s.module := rfl
@[simp] theorem State.modLedger_host (s : State) (f : LedgerSt → LedgerSt) : (s.modLedger f).host = s.host := rfl
@[simp] theorem State.modLedger_queue (s : State) (f : LedgerSt → LedgerSt) : (s.modLedger f).queue = s.queue := rfl
@[simp] theorem State.modLedger_mgmt (s : State) (f : LedgerSt → LedgerSt) : (s.modLedger f).mgmt = s.mgmt := rfl
@[simp] theorem State.modLedger_power (s : State) (f : LedgerSt → LedgerSt) : (s.modLedger f).power = s.power := rfl
@[simp] theorem State.modLedger_update (s : State) (f : LedgerSt → LedgerSt) : (s.modLedger f).update = s.update := rfl
@[simp] theorem State.modLedger_time (s : State) (f : LedgerSt → LedgerSt) : (s.modLedger f).time = s.time := rfl
@[simp] theorem State.modLedger_ingest (s : State) (f : LedgerSt → LedgerSt) : (s.modLedger f).ingest = s.ingest := rfl
@[simp] theorem State.modLedger_decode (s : State) (f : LedgerSt → LedgerSt) : (s.modLedger f).decode = s.decode := rfl
@[simp] theorem State.modLedger_ledger (s : State) (f : LedgerSt → LedgerSt) : (s.modLedger f).ledger = f s.ledger := rfl
@[simp] theorem State.modLedger_scene (s : State) (f : LedgerSt → LedgerSt) : (s.modLedger f).scene = s.scene := rfl
@[simp] theorem State.modLedger_compose (s : State) (f : LedgerSt → LedgerSt) : (s.modLedger f).compose = s.compose := rfl
@[simp] theorem State.modLedger_ts (s : State) (f : LedgerSt → LedgerSt) : (s.modLedger f).ts = s.ts := rfl
@[simp] theorem State.modLedger_record (s : State) (f : LedgerSt → LedgerSt) : (s.modLedger f).record = s.record := rfl
@[simp] theorem State.modLedger_overlay (s : State) (f : LedgerSt → LedgerSt) : (s.modLedger f).overlay = s.overlay := rfl
@[simp] theorem State.modLedger_txn (s : State) (f : LedgerSt → LedgerSt) : (s.modLedger f).txn = s.txn := rfl
@[simp] theorem State.modLedger_link (s : State) (f : LedgerSt → LedgerSt) : (s.modLedger f).link = s.link := rfl
@[simp] theorem State.modLedger_cascade (s : State) (f : LedgerSt → LedgerSt) : (s.modLedger f).cascade = s.cascade := rfl
@[simp] theorem State.modLedger_mem (s : State) (f : LedgerSt → LedgerSt) : (s.modLedger f).mem = s.mem := rfl
@[simp] theorem State.modLedger_gates (s : State) (f : LedgerSt → LedgerSt) : (s.modLedger f).gates = s.gates := rfl
@[simp] theorem State.modLedger_mbx (s : State) (f : LedgerSt → LedgerSt) : (s.modLedger f).mbx = s.mbx := rfl
@[simp] theorem State.modLedger_outbox (s : State) (f : LedgerSt → LedgerSt) : (s.modLedger f).outbox = s.outbox := rfl
@[simp] theorem State.modLedger_free (s : State) (f : LedgerSt → LedgerSt) : (s.modLedger f).free = s.free := rfl
@[simp] theorem State.modLedger_pending (s : State) (f : LedgerSt → LedgerSt) : (s.modLedger f).pending = s.pending := rfl
@[simp] theorem State.modScene_module (s : State) (f : SceneSt → SceneSt) : (s.modScene f).module = s.module := rfl
@[simp] theorem State.modScene_host (s : State) (f : SceneSt → SceneSt) : (s.modScene f).host = s.host := rfl
@[simp] theorem State.modScene_queue (s : State) (f : SceneSt → SceneSt) : (s.modScene f).queue = s.queue := rfl
@[simp] theorem State.modScene_mgmt (s : State) (f : SceneSt → SceneSt) : (s.modScene f).mgmt = s.mgmt := rfl
@[simp] theorem State.modScene_power (s : State) (f : SceneSt → SceneSt) : (s.modScene f).power = s.power := rfl
@[simp] theorem State.modScene_update (s : State) (f : SceneSt → SceneSt) : (s.modScene f).update = s.update := rfl
@[simp] theorem State.modScene_time (s : State) (f : SceneSt → SceneSt) : (s.modScene f).time = s.time := rfl
@[simp] theorem State.modScene_ingest (s : State) (f : SceneSt → SceneSt) : (s.modScene f).ingest = s.ingest := rfl
@[simp] theorem State.modScene_decode (s : State) (f : SceneSt → SceneSt) : (s.modScene f).decode = s.decode := rfl
@[simp] theorem State.modScene_ledger (s : State) (f : SceneSt → SceneSt) : (s.modScene f).ledger = s.ledger := rfl
@[simp] theorem State.modScene_scene (s : State) (f : SceneSt → SceneSt) : (s.modScene f).scene = f s.scene := rfl
@[simp] theorem State.modScene_compose (s : State) (f : SceneSt → SceneSt) : (s.modScene f).compose = s.compose := rfl
@[simp] theorem State.modScene_ts (s : State) (f : SceneSt → SceneSt) : (s.modScene f).ts = s.ts := rfl
@[simp] theorem State.modScene_record (s : State) (f : SceneSt → SceneSt) : (s.modScene f).record = s.record := rfl
@[simp] theorem State.modScene_overlay (s : State) (f : SceneSt → SceneSt) : (s.modScene f).overlay = s.overlay := rfl
@[simp] theorem State.modScene_txn (s : State) (f : SceneSt → SceneSt) : (s.modScene f).txn = s.txn := rfl
@[simp] theorem State.modScene_link (s : State) (f : SceneSt → SceneSt) : (s.modScene f).link = s.link := rfl
@[simp] theorem State.modScene_cascade (s : State) (f : SceneSt → SceneSt) : (s.modScene f).cascade = s.cascade := rfl
@[simp] theorem State.modScene_mem (s : State) (f : SceneSt → SceneSt) : (s.modScene f).mem = s.mem := rfl
@[simp] theorem State.modScene_gates (s : State) (f : SceneSt → SceneSt) : (s.modScene f).gates = s.gates := rfl
@[simp] theorem State.modScene_mbx (s : State) (f : SceneSt → SceneSt) : (s.modScene f).mbx = s.mbx := rfl
@[simp] theorem State.modScene_outbox (s : State) (f : SceneSt → SceneSt) : (s.modScene f).outbox = s.outbox := rfl
@[simp] theorem State.modScene_free (s : State) (f : SceneSt → SceneSt) : (s.modScene f).free = s.free := rfl
@[simp] theorem State.modScene_pending (s : State) (f : SceneSt → SceneSt) : (s.modScene f).pending = s.pending := rfl
@[simp] theorem State.modCompose_module (s : State) (f : ComposeSt → ComposeSt) : (s.modCompose f).module = s.module := rfl
@[simp] theorem State.modCompose_host (s : State) (f : ComposeSt → ComposeSt) : (s.modCompose f).host = s.host := rfl
@[simp] theorem State.modCompose_queue (s : State) (f : ComposeSt → ComposeSt) : (s.modCompose f).queue = s.queue := rfl
@[simp] theorem State.modCompose_mgmt (s : State) (f : ComposeSt → ComposeSt) : (s.modCompose f).mgmt = s.mgmt := rfl
@[simp] theorem State.modCompose_power (s : State) (f : ComposeSt → ComposeSt) : (s.modCompose f).power = s.power := rfl
@[simp] theorem State.modCompose_update (s : State) (f : ComposeSt → ComposeSt) : (s.modCompose f).update = s.update := rfl
@[simp] theorem State.modCompose_time (s : State) (f : ComposeSt → ComposeSt) : (s.modCompose f).time = s.time := rfl
@[simp] theorem State.modCompose_ingest (s : State) (f : ComposeSt → ComposeSt) : (s.modCompose f).ingest = s.ingest := rfl
@[simp] theorem State.modCompose_decode (s : State) (f : ComposeSt → ComposeSt) : (s.modCompose f).decode = s.decode := rfl
@[simp] theorem State.modCompose_ledger (s : State) (f : ComposeSt → ComposeSt) : (s.modCompose f).ledger = s.ledger := rfl
@[simp] theorem State.modCompose_scene (s : State) (f : ComposeSt → ComposeSt) : (s.modCompose f).scene = s.scene := rfl
@[simp] theorem State.modCompose_compose (s : State) (f : ComposeSt → ComposeSt) : (s.modCompose f).compose = f s.compose := rfl
@[simp] theorem State.modCompose_ts (s : State) (f : ComposeSt → ComposeSt) : (s.modCompose f).ts = s.ts := rfl
@[simp] theorem State.modCompose_record (s : State) (f : ComposeSt → ComposeSt) : (s.modCompose f).record = s.record := rfl
@[simp] theorem State.modCompose_overlay (s : State) (f : ComposeSt → ComposeSt) : (s.modCompose f).overlay = s.overlay := rfl
@[simp] theorem State.modCompose_txn (s : State) (f : ComposeSt → ComposeSt) : (s.modCompose f).txn = s.txn := rfl
@[simp] theorem State.modCompose_link (s : State) (f : ComposeSt → ComposeSt) : (s.modCompose f).link = s.link := rfl
@[simp] theorem State.modCompose_cascade (s : State) (f : ComposeSt → ComposeSt) : (s.modCompose f).cascade = s.cascade := rfl
@[simp] theorem State.modCompose_mem (s : State) (f : ComposeSt → ComposeSt) : (s.modCompose f).mem = s.mem := rfl
@[simp] theorem State.modCompose_gates (s : State) (f : ComposeSt → ComposeSt) : (s.modCompose f).gates = s.gates := rfl
@[simp] theorem State.modCompose_mbx (s : State) (f : ComposeSt → ComposeSt) : (s.modCompose f).mbx = s.mbx := rfl
@[simp] theorem State.modCompose_outbox (s : State) (f : ComposeSt → ComposeSt) : (s.modCompose f).outbox = s.outbox := rfl
@[simp] theorem State.modCompose_free (s : State) (f : ComposeSt → ComposeSt) : (s.modCompose f).free = s.free := rfl
@[simp] theorem State.modCompose_pending (s : State) (f : ComposeSt → ComposeSt) : (s.modCompose f).pending = s.pending := rfl
@[simp] theorem State.modTs_module (s : State) (f : TsSt → TsSt) : (s.modTs f).module = s.module := rfl
@[simp] theorem State.modTs_host (s : State) (f : TsSt → TsSt) : (s.modTs f).host = s.host := rfl
@[simp] theorem State.modTs_queue (s : State) (f : TsSt → TsSt) : (s.modTs f).queue = s.queue := rfl
@[simp] theorem State.modTs_mgmt (s : State) (f : TsSt → TsSt) : (s.modTs f).mgmt = s.mgmt := rfl
@[simp] theorem State.modTs_power (s : State) (f : TsSt → TsSt) : (s.modTs f).power = s.power := rfl
@[simp] theorem State.modTs_update (s : State) (f : TsSt → TsSt) : (s.modTs f).update = s.update := rfl
@[simp] theorem State.modTs_time (s : State) (f : TsSt → TsSt) : (s.modTs f).time = s.time := rfl
@[simp] theorem State.modTs_ingest (s : State) (f : TsSt → TsSt) : (s.modTs f).ingest = s.ingest := rfl
@[simp] theorem State.modTs_decode (s : State) (f : TsSt → TsSt) : (s.modTs f).decode = s.decode := rfl
@[simp] theorem State.modTs_ledger (s : State) (f : TsSt → TsSt) : (s.modTs f).ledger = s.ledger := rfl
@[simp] theorem State.modTs_scene (s : State) (f : TsSt → TsSt) : (s.modTs f).scene = s.scene := rfl
@[simp] theorem State.modTs_compose (s : State) (f : TsSt → TsSt) : (s.modTs f).compose = s.compose := rfl
@[simp] theorem State.modTs_ts (s : State) (f : TsSt → TsSt) : (s.modTs f).ts = f s.ts := rfl
@[simp] theorem State.modTs_record (s : State) (f : TsSt → TsSt) : (s.modTs f).record = s.record := rfl
@[simp] theorem State.modTs_overlay (s : State) (f : TsSt → TsSt) : (s.modTs f).overlay = s.overlay := rfl
@[simp] theorem State.modTs_txn (s : State) (f : TsSt → TsSt) : (s.modTs f).txn = s.txn := rfl
@[simp] theorem State.modTs_link (s : State) (f : TsSt → TsSt) : (s.modTs f).link = s.link := rfl
@[simp] theorem State.modTs_cascade (s : State) (f : TsSt → TsSt) : (s.modTs f).cascade = s.cascade := rfl
@[simp] theorem State.modTs_mem (s : State) (f : TsSt → TsSt) : (s.modTs f).mem = s.mem := rfl
@[simp] theorem State.modTs_gates (s : State) (f : TsSt → TsSt) : (s.modTs f).gates = s.gates := rfl
@[simp] theorem State.modTs_mbx (s : State) (f : TsSt → TsSt) : (s.modTs f).mbx = s.mbx := rfl
@[simp] theorem State.modTs_outbox (s : State) (f : TsSt → TsSt) : (s.modTs f).outbox = s.outbox := rfl
@[simp] theorem State.modTs_free (s : State) (f : TsSt → TsSt) : (s.modTs f).free = s.free := rfl
@[simp] theorem State.modTs_pending (s : State) (f : TsSt → TsSt) : (s.modTs f).pending = s.pending := rfl
@[simp] theorem State.modRecord_module (s : State) (f : RecordSt → RecordSt) : (s.modRecord f).module = s.module := rfl
@[simp] theorem State.modRecord_host (s : State) (f : RecordSt → RecordSt) : (s.modRecord f).host = s.host := rfl
@[simp] theorem State.modRecord_queue (s : State) (f : RecordSt → RecordSt) : (s.modRecord f).queue = s.queue := rfl
@[simp] theorem State.modRecord_mgmt (s : State) (f : RecordSt → RecordSt) : (s.modRecord f).mgmt = s.mgmt := rfl
@[simp] theorem State.modRecord_power (s : State) (f : RecordSt → RecordSt) : (s.modRecord f).power = s.power := rfl
@[simp] theorem State.modRecord_update (s : State) (f : RecordSt → RecordSt) : (s.modRecord f).update = s.update := rfl
@[simp] theorem State.modRecord_time (s : State) (f : RecordSt → RecordSt) : (s.modRecord f).time = s.time := rfl
@[simp] theorem State.modRecord_ingest (s : State) (f : RecordSt → RecordSt) : (s.modRecord f).ingest = s.ingest := rfl
@[simp] theorem State.modRecord_decode (s : State) (f : RecordSt → RecordSt) : (s.modRecord f).decode = s.decode := rfl
@[simp] theorem State.modRecord_ledger (s : State) (f : RecordSt → RecordSt) : (s.modRecord f).ledger = s.ledger := rfl
@[simp] theorem State.modRecord_scene (s : State) (f : RecordSt → RecordSt) : (s.modRecord f).scene = s.scene := rfl
@[simp] theorem State.modRecord_compose (s : State) (f : RecordSt → RecordSt) : (s.modRecord f).compose = s.compose := rfl
@[simp] theorem State.modRecord_ts (s : State) (f : RecordSt → RecordSt) : (s.modRecord f).ts = s.ts := rfl
@[simp] theorem State.modRecord_record (s : State) (f : RecordSt → RecordSt) : (s.modRecord f).record = f s.record := rfl
@[simp] theorem State.modRecord_overlay (s : State) (f : RecordSt → RecordSt) : (s.modRecord f).overlay = s.overlay := rfl
@[simp] theorem State.modRecord_txn (s : State) (f : RecordSt → RecordSt) : (s.modRecord f).txn = s.txn := rfl
@[simp] theorem State.modRecord_link (s : State) (f : RecordSt → RecordSt) : (s.modRecord f).link = s.link := rfl
@[simp] theorem State.modRecord_cascade (s : State) (f : RecordSt → RecordSt) : (s.modRecord f).cascade = s.cascade := rfl
@[simp] theorem State.modRecord_mem (s : State) (f : RecordSt → RecordSt) : (s.modRecord f).mem = s.mem := rfl
@[simp] theorem State.modRecord_gates (s : State) (f : RecordSt → RecordSt) : (s.modRecord f).gates = s.gates := rfl
@[simp] theorem State.modRecord_mbx (s : State) (f : RecordSt → RecordSt) : (s.modRecord f).mbx = s.mbx := rfl
@[simp] theorem State.modRecord_outbox (s : State) (f : RecordSt → RecordSt) : (s.modRecord f).outbox = s.outbox := rfl
@[simp] theorem State.modRecord_free (s : State) (f : RecordSt → RecordSt) : (s.modRecord f).free = s.free := rfl
@[simp] theorem State.modRecord_pending (s : State) (f : RecordSt → RecordSt) : (s.modRecord f).pending = s.pending := rfl
@[simp] theorem State.modOverlay_module (s : State) (f : OverlaySt → OverlaySt) : (s.modOverlay f).module = s.module := rfl
@[simp] theorem State.modOverlay_host (s : State) (f : OverlaySt → OverlaySt) : (s.modOverlay f).host = s.host := rfl
@[simp] theorem State.modOverlay_queue (s : State) (f : OverlaySt → OverlaySt) : (s.modOverlay f).queue = s.queue := rfl
@[simp] theorem State.modOverlay_mgmt (s : State) (f : OverlaySt → OverlaySt) : (s.modOverlay f).mgmt = s.mgmt := rfl
@[simp] theorem State.modOverlay_power (s : State) (f : OverlaySt → OverlaySt) : (s.modOverlay f).power = s.power := rfl
@[simp] theorem State.modOverlay_update (s : State) (f : OverlaySt → OverlaySt) : (s.modOverlay f).update = s.update := rfl
@[simp] theorem State.modOverlay_time (s : State) (f : OverlaySt → OverlaySt) : (s.modOverlay f).time = s.time := rfl
@[simp] theorem State.modOverlay_ingest (s : State) (f : OverlaySt → OverlaySt) : (s.modOverlay f).ingest = s.ingest := rfl
@[simp] theorem State.modOverlay_decode (s : State) (f : OverlaySt → OverlaySt) : (s.modOverlay f).decode = s.decode := rfl
@[simp] theorem State.modOverlay_ledger (s : State) (f : OverlaySt → OverlaySt) : (s.modOverlay f).ledger = s.ledger := rfl
@[simp] theorem State.modOverlay_scene (s : State) (f : OverlaySt → OverlaySt) : (s.modOverlay f).scene = s.scene := rfl
@[simp] theorem State.modOverlay_compose (s : State) (f : OverlaySt → OverlaySt) : (s.modOverlay f).compose = s.compose := rfl
@[simp] theorem State.modOverlay_ts (s : State) (f : OverlaySt → OverlaySt) : (s.modOverlay f).ts = s.ts := rfl
@[simp] theorem State.modOverlay_record (s : State) (f : OverlaySt → OverlaySt) : (s.modOverlay f).record = s.record := rfl
@[simp] theorem State.modOverlay_overlay (s : State) (f : OverlaySt → OverlaySt) : (s.modOverlay f).overlay = f s.overlay := rfl
@[simp] theorem State.modOverlay_txn (s : State) (f : OverlaySt → OverlaySt) : (s.modOverlay f).txn = s.txn := rfl
@[simp] theorem State.modOverlay_link (s : State) (f : OverlaySt → OverlaySt) : (s.modOverlay f).link = s.link := rfl
@[simp] theorem State.modOverlay_cascade (s : State) (f : OverlaySt → OverlaySt) : (s.modOverlay f).cascade = s.cascade := rfl
@[simp] theorem State.modOverlay_mem (s : State) (f : OverlaySt → OverlaySt) : (s.modOverlay f).mem = s.mem := rfl
@[simp] theorem State.modOverlay_gates (s : State) (f : OverlaySt → OverlaySt) : (s.modOverlay f).gates = s.gates := rfl
@[simp] theorem State.modOverlay_mbx (s : State) (f : OverlaySt → OverlaySt) : (s.modOverlay f).mbx = s.mbx := rfl
@[simp] theorem State.modOverlay_outbox (s : State) (f : OverlaySt → OverlaySt) : (s.modOverlay f).outbox = s.outbox := rfl
@[simp] theorem State.modOverlay_free (s : State) (f : OverlaySt → OverlaySt) : (s.modOverlay f).free = s.free := rfl
@[simp] theorem State.modOverlay_pending (s : State) (f : OverlaySt → OverlaySt) : (s.modOverlay f).pending = s.pending := rfl
@[simp] theorem State.modTxn_module (s : State) (f : TxnSt → TxnSt) : (s.modTxn f).module = s.module := rfl
@[simp] theorem State.modTxn_host (s : State) (f : TxnSt → TxnSt) : (s.modTxn f).host = s.host := rfl
@[simp] theorem State.modTxn_queue (s : State) (f : TxnSt → TxnSt) : (s.modTxn f).queue = s.queue := rfl
@[simp] theorem State.modTxn_mgmt (s : State) (f : TxnSt → TxnSt) : (s.modTxn f).mgmt = s.mgmt := rfl
@[simp] theorem State.modTxn_power (s : State) (f : TxnSt → TxnSt) : (s.modTxn f).power = s.power := rfl
@[simp] theorem State.modTxn_update (s : State) (f : TxnSt → TxnSt) : (s.modTxn f).update = s.update := rfl
@[simp] theorem State.modTxn_time (s : State) (f : TxnSt → TxnSt) : (s.modTxn f).time = s.time := rfl
@[simp] theorem State.modTxn_ingest (s : State) (f : TxnSt → TxnSt) : (s.modTxn f).ingest = s.ingest := rfl
@[simp] theorem State.modTxn_decode (s : State) (f : TxnSt → TxnSt) : (s.modTxn f).decode = s.decode := rfl
@[simp] theorem State.modTxn_ledger (s : State) (f : TxnSt → TxnSt) : (s.modTxn f).ledger = s.ledger := rfl
@[simp] theorem State.modTxn_scene (s : State) (f : TxnSt → TxnSt) : (s.modTxn f).scene = s.scene := rfl
@[simp] theorem State.modTxn_compose (s : State) (f : TxnSt → TxnSt) : (s.modTxn f).compose = s.compose := rfl
@[simp] theorem State.modTxn_ts (s : State) (f : TxnSt → TxnSt) : (s.modTxn f).ts = s.ts := rfl
@[simp] theorem State.modTxn_record (s : State) (f : TxnSt → TxnSt) : (s.modTxn f).record = s.record := rfl
@[simp] theorem State.modTxn_overlay (s : State) (f : TxnSt → TxnSt) : (s.modTxn f).overlay = s.overlay := rfl
@[simp] theorem State.modTxn_txn (s : State) (f : TxnSt → TxnSt) : (s.modTxn f).txn = f s.txn := rfl
@[simp] theorem State.modTxn_link (s : State) (f : TxnSt → TxnSt) : (s.modTxn f).link = s.link := rfl
@[simp] theorem State.modTxn_cascade (s : State) (f : TxnSt → TxnSt) : (s.modTxn f).cascade = s.cascade := rfl
@[simp] theorem State.modTxn_mem (s : State) (f : TxnSt → TxnSt) : (s.modTxn f).mem = s.mem := rfl
@[simp] theorem State.modTxn_gates (s : State) (f : TxnSt → TxnSt) : (s.modTxn f).gates = s.gates := rfl
@[simp] theorem State.modTxn_mbx (s : State) (f : TxnSt → TxnSt) : (s.modTxn f).mbx = s.mbx := rfl
@[simp] theorem State.modTxn_outbox (s : State) (f : TxnSt → TxnSt) : (s.modTxn f).outbox = s.outbox := rfl
@[simp] theorem State.modTxn_free (s : State) (f : TxnSt → TxnSt) : (s.modTxn f).free = s.free := rfl
@[simp] theorem State.modTxn_pending (s : State) (f : TxnSt → TxnSt) : (s.modTxn f).pending = s.pending := rfl
@[simp] theorem State.modLink_module (s : State) (f : LinkSt → LinkSt) : (s.modLink f).module = s.module := rfl
@[simp] theorem State.modLink_host (s : State) (f : LinkSt → LinkSt) : (s.modLink f).host = s.host := rfl
@[simp] theorem State.modLink_queue (s : State) (f : LinkSt → LinkSt) : (s.modLink f).queue = s.queue := rfl
@[simp] theorem State.modLink_mgmt (s : State) (f : LinkSt → LinkSt) : (s.modLink f).mgmt = s.mgmt := rfl
@[simp] theorem State.modLink_power (s : State) (f : LinkSt → LinkSt) : (s.modLink f).power = s.power := rfl
@[simp] theorem State.modLink_update (s : State) (f : LinkSt → LinkSt) : (s.modLink f).update = s.update := rfl
@[simp] theorem State.modLink_time (s : State) (f : LinkSt → LinkSt) : (s.modLink f).time = s.time := rfl
@[simp] theorem State.modLink_ingest (s : State) (f : LinkSt → LinkSt) : (s.modLink f).ingest = s.ingest := rfl
@[simp] theorem State.modLink_decode (s : State) (f : LinkSt → LinkSt) : (s.modLink f).decode = s.decode := rfl
@[simp] theorem State.modLink_ledger (s : State) (f : LinkSt → LinkSt) : (s.modLink f).ledger = s.ledger := rfl
@[simp] theorem State.modLink_scene (s : State) (f : LinkSt → LinkSt) : (s.modLink f).scene = s.scene := rfl
@[simp] theorem State.modLink_compose (s : State) (f : LinkSt → LinkSt) : (s.modLink f).compose = s.compose := rfl
@[simp] theorem State.modLink_ts (s : State) (f : LinkSt → LinkSt) : (s.modLink f).ts = s.ts := rfl
@[simp] theorem State.modLink_record (s : State) (f : LinkSt → LinkSt) : (s.modLink f).record = s.record := rfl
@[simp] theorem State.modLink_overlay (s : State) (f : LinkSt → LinkSt) : (s.modLink f).overlay = s.overlay := rfl
@[simp] theorem State.modLink_txn (s : State) (f : LinkSt → LinkSt) : (s.modLink f).txn = s.txn := rfl
@[simp] theorem State.modLink_link (s : State) (f : LinkSt → LinkSt) : (s.modLink f).link = f s.link := rfl
@[simp] theorem State.modLink_cascade (s : State) (f : LinkSt → LinkSt) : (s.modLink f).cascade = s.cascade := rfl
@[simp] theorem State.modLink_mem (s : State) (f : LinkSt → LinkSt) : (s.modLink f).mem = s.mem := rfl
@[simp] theorem State.modLink_gates (s : State) (f : LinkSt → LinkSt) : (s.modLink f).gates = s.gates := rfl
@[simp] theorem State.modLink_mbx (s : State) (f : LinkSt → LinkSt) : (s.modLink f).mbx = s.mbx := rfl
@[simp] theorem State.modLink_outbox (s : State) (f : LinkSt → LinkSt) : (s.modLink f).outbox = s.outbox := rfl
@[simp] theorem State.modLink_free (s : State) (f : LinkSt → LinkSt) : (s.modLink f).free = s.free := rfl
@[simp] theorem State.modLink_pending (s : State) (f : LinkSt → LinkSt) : (s.modLink f).pending = s.pending := rfl
@[simp] theorem State.modCascade_module (s : State) (f : CascadeSt → CascadeSt) : (s.modCascade f).module = s.module := rfl
@[simp] theorem State.modCascade_host (s : State) (f : CascadeSt → CascadeSt) : (s.modCascade f).host = s.host := rfl
@[simp] theorem State.modCascade_queue (s : State) (f : CascadeSt → CascadeSt) : (s.modCascade f).queue = s.queue := rfl
@[simp] theorem State.modCascade_mgmt (s : State) (f : CascadeSt → CascadeSt) : (s.modCascade f).mgmt = s.mgmt := rfl
@[simp] theorem State.modCascade_power (s : State) (f : CascadeSt → CascadeSt) : (s.modCascade f).power = s.power := rfl
@[simp] theorem State.modCascade_update (s : State) (f : CascadeSt → CascadeSt) : (s.modCascade f).update = s.update := rfl
@[simp] theorem State.modCascade_time (s : State) (f : CascadeSt → CascadeSt) : (s.modCascade f).time = s.time := rfl
@[simp] theorem State.modCascade_ingest (s : State) (f : CascadeSt → CascadeSt) : (s.modCascade f).ingest = s.ingest := rfl
@[simp] theorem State.modCascade_decode (s : State) (f : CascadeSt → CascadeSt) : (s.modCascade f).decode = s.decode := rfl
@[simp] theorem State.modCascade_ledger (s : State) (f : CascadeSt → CascadeSt) : (s.modCascade f).ledger = s.ledger := rfl
@[simp] theorem State.modCascade_scene (s : State) (f : CascadeSt → CascadeSt) : (s.modCascade f).scene = s.scene := rfl
@[simp] theorem State.modCascade_compose (s : State) (f : CascadeSt → CascadeSt) : (s.modCascade f).compose = s.compose := rfl
@[simp] theorem State.modCascade_ts (s : State) (f : CascadeSt → CascadeSt) : (s.modCascade f).ts = s.ts := rfl
@[simp] theorem State.modCascade_record (s : State) (f : CascadeSt → CascadeSt) : (s.modCascade f).record = s.record := rfl
@[simp] theorem State.modCascade_overlay (s : State) (f : CascadeSt → CascadeSt) : (s.modCascade f).overlay = s.overlay := rfl
@[simp] theorem State.modCascade_txn (s : State) (f : CascadeSt → CascadeSt) : (s.modCascade f).txn = s.txn := rfl
@[simp] theorem State.modCascade_link (s : State) (f : CascadeSt → CascadeSt) : (s.modCascade f).link = s.link := rfl
@[simp] theorem State.modCascade_cascade (s : State) (f : CascadeSt → CascadeSt) : (s.modCascade f).cascade = f s.cascade := rfl
@[simp] theorem State.modCascade_mem (s : State) (f : CascadeSt → CascadeSt) : (s.modCascade f).mem = s.mem := rfl
@[simp] theorem State.modCascade_gates (s : State) (f : CascadeSt → CascadeSt) : (s.modCascade f).gates = s.gates := rfl
@[simp] theorem State.modCascade_mbx (s : State) (f : CascadeSt → CascadeSt) : (s.modCascade f).mbx = s.mbx := rfl
@[simp] theorem State.modCascade_outbox (s : State) (f : CascadeSt → CascadeSt) : (s.modCascade f).outbox = s.outbox := rfl
@[simp] theorem State.modCascade_free (s : State) (f : CascadeSt → CascadeSt) : (s.modCascade f).free = s.free := rfl
@[simp] theorem State.modCascade_pending (s : State) (f : CascadeSt → CascadeSt) : (s.modCascade f).pending = s.pending := rfl
@[simp] theorem State.modMem_module (s : State) (f : MemSt → MemSt) : (s.modMem f).module = s.module := rfl
@[simp] theorem State.modMem_host (s : State) (f : MemSt → MemSt) : (s.modMem f).host = s.host := rfl
@[simp] theorem State.modMem_queue (s : State) (f : MemSt → MemSt) : (s.modMem f).queue = s.queue := rfl
@[simp] theorem State.modMem_mgmt (s : State) (f : MemSt → MemSt) : (s.modMem f).mgmt = s.mgmt := rfl
@[simp] theorem State.modMem_power (s : State) (f : MemSt → MemSt) : (s.modMem f).power = s.power := rfl
@[simp] theorem State.modMem_update (s : State) (f : MemSt → MemSt) : (s.modMem f).update = s.update := rfl
@[simp] theorem State.modMem_time (s : State) (f : MemSt → MemSt) : (s.modMem f).time = s.time := rfl
@[simp] theorem State.modMem_ingest (s : State) (f : MemSt → MemSt) : (s.modMem f).ingest = s.ingest := rfl
@[simp] theorem State.modMem_decode (s : State) (f : MemSt → MemSt) : (s.modMem f).decode = s.decode := rfl
@[simp] theorem State.modMem_ledger (s : State) (f : MemSt → MemSt) : (s.modMem f).ledger = s.ledger := rfl
@[simp] theorem State.modMem_scene (s : State) (f : MemSt → MemSt) : (s.modMem f).scene = s.scene := rfl
@[simp] theorem State.modMem_compose (s : State) (f : MemSt → MemSt) : (s.modMem f).compose = s.compose := rfl
@[simp] theorem State.modMem_ts (s : State) (f : MemSt → MemSt) : (s.modMem f).ts = s.ts := rfl
@[simp] theorem State.modMem_record (s : State) (f : MemSt → MemSt) : (s.modMem f).record = s.record := rfl
@[simp] theorem State.modMem_overlay (s : State) (f : MemSt → MemSt) : (s.modMem f).overlay = s.overlay := rfl
@[simp] theorem State.modMem_txn (s : State) (f : MemSt → MemSt) : (s.modMem f).txn = s.txn := rfl
@[simp] theorem State.modMem_link (s : State) (f : MemSt → MemSt) : (s.modMem f).link = s.link := rfl
@[simp] theorem State.modMem_cascade (s : State) (f : MemSt → MemSt) : (s.modMem f).cascade = s.cascade := rfl
@[simp] theorem State.modMem_mem (s : State) (f : MemSt → MemSt) : (s.modMem f).mem = f s.mem := rfl
@[simp] theorem State.modMem_gates (s : State) (f : MemSt → MemSt) : (s.modMem f).gates = s.gates := rfl
@[simp] theorem State.modMem_mbx (s : State) (f : MemSt → MemSt) : (s.modMem f).mbx = s.mbx := rfl
@[simp] theorem State.modMem_outbox (s : State) (f : MemSt → MemSt) : (s.modMem f).outbox = s.outbox := rfl
@[simp] theorem State.modMem_free (s : State) (f : MemSt → MemSt) : (s.modMem f).free = s.free := rfl
@[simp] theorem State.modMem_pending (s : State) (f : MemSt → MemSt) : (s.modMem f).pending = s.pending := rfl
@[simp] theorem State.modGates_module (s : State) (f : GateSt → GateSt) : (s.modGates f).module = s.module := rfl
@[simp] theorem State.modGates_host (s : State) (f : GateSt → GateSt) : (s.modGates f).host = s.host := rfl
@[simp] theorem State.modGates_queue (s : State) (f : GateSt → GateSt) : (s.modGates f).queue = s.queue := rfl
@[simp] theorem State.modGates_mgmt (s : State) (f : GateSt → GateSt) : (s.modGates f).mgmt = s.mgmt := rfl
@[simp] theorem State.modGates_power (s : State) (f : GateSt → GateSt) : (s.modGates f).power = s.power := rfl
@[simp] theorem State.modGates_update (s : State) (f : GateSt → GateSt) : (s.modGates f).update = s.update := rfl
@[simp] theorem State.modGates_time (s : State) (f : GateSt → GateSt) : (s.modGates f).time = s.time := rfl
@[simp] theorem State.modGates_ingest (s : State) (f : GateSt → GateSt) : (s.modGates f).ingest = s.ingest := rfl
@[simp] theorem State.modGates_decode (s : State) (f : GateSt → GateSt) : (s.modGates f).decode = s.decode := rfl
@[simp] theorem State.modGates_ledger (s : State) (f : GateSt → GateSt) : (s.modGates f).ledger = s.ledger := rfl
@[simp] theorem State.modGates_scene (s : State) (f : GateSt → GateSt) : (s.modGates f).scene = s.scene := rfl
@[simp] theorem State.modGates_compose (s : State) (f : GateSt → GateSt) : (s.modGates f).compose = s.compose := rfl
@[simp] theorem State.modGates_ts (s : State) (f : GateSt → GateSt) : (s.modGates f).ts = s.ts := rfl
@[simp] theorem State.modGates_record (s : State) (f : GateSt → GateSt) : (s.modGates f).record = s.record := rfl
@[simp] theorem State.modGates_overlay (s : State) (f : GateSt → GateSt) : (s.modGates f).overlay = s.overlay := rfl
@[simp] theorem State.modGates_txn (s : State) (f : GateSt → GateSt) : (s.modGates f).txn = s.txn := rfl
@[simp] theorem State.modGates_link (s : State) (f : GateSt → GateSt) : (s.modGates f).link = s.link := rfl
@[simp] theorem State.modGates_cascade (s : State) (f : GateSt → GateSt) : (s.modGates f).cascade = s.cascade := rfl
@[simp] theorem State.modGates_mem (s : State) (f : GateSt → GateSt) : (s.modGates f).mem = s.mem := rfl
@[simp] theorem State.modGates_gates (s : State) (f : GateSt → GateSt) : (s.modGates f).gates = f s.gates := rfl
@[simp] theorem State.modGates_mbx (s : State) (f : GateSt → GateSt) : (s.modGates f).mbx = s.mbx := rfl
@[simp] theorem State.modGates_outbox (s : State) (f : GateSt → GateSt) : (s.modGates f).outbox = s.outbox := rfl
@[simp] theorem State.modGates_free (s : State) (f : GateSt → GateSt) : (s.modGates f).free = s.free := rfl
@[simp] theorem State.modGates_pending (s : State) (f : GateSt → GateSt) : (s.modGates f).pending = s.pending := rfl
@[simp] theorem State.modMbx_module (s : State) (f : MbxSt → MbxSt) : (s.modMbx f).module = s.module := rfl
@[simp] theorem State.modMbx_host (s : State) (f : MbxSt → MbxSt) : (s.modMbx f).host = s.host := rfl
@[simp] theorem State.modMbx_queue (s : State) (f : MbxSt → MbxSt) : (s.modMbx f).queue = s.queue := rfl
@[simp] theorem State.modMbx_mgmt (s : State) (f : MbxSt → MbxSt) : (s.modMbx f).mgmt = s.mgmt := rfl
@[simp] theorem State.modMbx_power (s : State) (f : MbxSt → MbxSt) : (s.modMbx f).power = s.power := rfl
@[simp] theorem State.modMbx_update (s : State) (f : MbxSt → MbxSt) : (s.modMbx f).update = s.update := rfl
@[simp] theorem State.modMbx_time (s : State) (f : MbxSt → MbxSt) : (s.modMbx f).time = s.time := rfl
@[simp] theorem State.modMbx_ingest (s : State) (f : MbxSt → MbxSt) : (s.modMbx f).ingest = s.ingest := rfl
@[simp] theorem State.modMbx_decode (s : State) (f : MbxSt → MbxSt) : (s.modMbx f).decode = s.decode := rfl
@[simp] theorem State.modMbx_ledger (s : State) (f : MbxSt → MbxSt) : (s.modMbx f).ledger = s.ledger := rfl
@[simp] theorem State.modMbx_scene (s : State) (f : MbxSt → MbxSt) : (s.modMbx f).scene = s.scene := rfl
@[simp] theorem State.modMbx_compose (s : State) (f : MbxSt → MbxSt) : (s.modMbx f).compose = s.compose := rfl
@[simp] theorem State.modMbx_ts (s : State) (f : MbxSt → MbxSt) : (s.modMbx f).ts = s.ts := rfl
@[simp] theorem State.modMbx_record (s : State) (f : MbxSt → MbxSt) : (s.modMbx f).record = s.record := rfl
@[simp] theorem State.modMbx_overlay (s : State) (f : MbxSt → MbxSt) : (s.modMbx f).overlay = s.overlay := rfl
@[simp] theorem State.modMbx_txn (s : State) (f : MbxSt → MbxSt) : (s.modMbx f).txn = s.txn := rfl
@[simp] theorem State.modMbx_link (s : State) (f : MbxSt → MbxSt) : (s.modMbx f).link = s.link := rfl
@[simp] theorem State.modMbx_cascade (s : State) (f : MbxSt → MbxSt) : (s.modMbx f).cascade = s.cascade := rfl
@[simp] theorem State.modMbx_mem (s : State) (f : MbxSt → MbxSt) : (s.modMbx f).mem = s.mem := rfl
@[simp] theorem State.modMbx_gates (s : State) (f : MbxSt → MbxSt) : (s.modMbx f).gates = s.gates := rfl
@[simp] theorem State.modMbx_mbx (s : State) (f : MbxSt → MbxSt) : (s.modMbx f).mbx = f s.mbx := rfl
@[simp] theorem State.modMbx_outbox (s : State) (f : MbxSt → MbxSt) : (s.modMbx f).outbox = s.outbox := rfl
@[simp] theorem State.modMbx_free (s : State) (f : MbxSt → MbxSt) : (s.modMbx f).free = s.free := rfl
@[simp] theorem State.modMbx_pending (s : State) (f : MbxSt → MbxSt) : (s.modMbx f).pending = s.pending := rfl
@[simp] theorem emit_module (o : Out) (s : State) : (emit o s).module = s.module := rfl
@[simp] theorem emit_host (o : Out) (s : State) : (emit o s).host = s.host := rfl
@[simp] theorem emit_queue (o : Out) (s : State) : (emit o s).queue = s.queue := rfl
@[simp] theorem emit_mgmt (o : Out) (s : State) : (emit o s).mgmt = s.mgmt := rfl
@[simp] theorem emit_power (o : Out) (s : State) : (emit o s).power = s.power := rfl
@[simp] theorem emit_update (o : Out) (s : State) : (emit o s).update = s.update := rfl
@[simp] theorem emit_time (o : Out) (s : State) : (emit o s).time = s.time := rfl
@[simp] theorem emit_ingest (o : Out) (s : State) : (emit o s).ingest = s.ingest := rfl
@[simp] theorem emit_decode (o : Out) (s : State) : (emit o s).decode = s.decode := rfl
@[simp] theorem emit_ledger (o : Out) (s : State) : (emit o s).ledger = s.ledger := rfl
@[simp] theorem emit_scene (o : Out) (s : State) : (emit o s).scene = s.scene := rfl
@[simp] theorem emit_compose (o : Out) (s : State) : (emit o s).compose = s.compose := rfl
@[simp] theorem emit_ts (o : Out) (s : State) : (emit o s).ts = s.ts := rfl
@[simp] theorem emit_record (o : Out) (s : State) : (emit o s).record = s.record := rfl
@[simp] theorem emit_overlay (o : Out) (s : State) : (emit o s).overlay = s.overlay := rfl
@[simp] theorem emit_txn (o : Out) (s : State) : (emit o s).txn = s.txn := rfl
@[simp] theorem emit_cascade (o : Out) (s : State) : (emit o s).cascade = s.cascade := rfl
@[simp] theorem emit_mem (o : Out) (s : State) : (emit o s).mem = s.mem := rfl
@[simp] theorem emit_gates (o : Out) (s : State) : (emit o s).gates = s.gates := rfl
@[simp] theorem emit_mbx (o : Out) (s : State) : (emit o s).mbx = s.mbx := rfl
@[simp] theorem emit_free (o : Out) (s : State) : (emit o s).free = s.free := rfl
@[simp] theorem emit_pending (o : Out) (s : State) : (emit o s).pending = s.pending := rfl
@[simp] theorem emit_outbox (o : Out) (s : State) : (emit o s).outbox = o :: s.outbox := rfl

end Sys2Proof.Machine
end

