-- ==== Sys2Proof/Laws/Ops.lean ====
section
/-! SUPPORT. What each shared operation can do, said once: an event, a log record and a completion change only what reports them;
a command executed here is its own body after the take; a completion puts its record among the outputs. -/

namespace Sys2Proof.Machine

open Sys2Proof

/-! ## Reporting -/

theorem Reporting.refl (s : State) : Reporting s s := rfl

theorem Reporting.trans {a b c : State} (h : Reporting a b) (k : Reporting b c) : Reporting a c := by
  unfold Reporting at *
  rw [k, h]

/-- What reporting leaves unchanged, part by part. -/
theorem Reporting.parts {s t : State} (h : Reporting s t) :
    t.module = s.module ∧ t.power = s.power ∧ t.update = s.update ∧ t.time = s.time ∧ t.ingest = s.ingest ∧ t.decode = s.decode
      ∧ t.ledger = s.ledger ∧ t.scene = s.scene ∧ t.compose = s.compose ∧ t.ts = s.ts ∧ t.record = s.record ∧ t.overlay = s.overlay
      ∧ t.txn = s.txn ∧ t.cascade = s.cascade ∧ t.mem = s.mem ∧ t.gates = s.gates ∧ t.mbx = s.mbx ∧ t.free = s.free
      ∧ t.pending = s.pending := by
  rw [h]
  simp

theorem emit_reporting (o : Out) (s : State) : Reporting s (emit o s) := rfl

theorem modHost_reporting (s : State) (f : HostSt → HostSt) : Reporting s (s.modHost f) := rfl

theorem modQueue_reporting (s : State) (f : QueueSt → QueueSt) : Reporting s (s.modQueue f) := rfl

theorem modMgmt_reporting (s : State) (f : MgmtSt → MgmtSt) : Reporting s (s.modMgmt f) := rfl

theorem modLink_reporting (s : State) (f : LinkSt → LinkSt) : Reporting s (s.modLink f) := rfl

theorem putEvent_reporting (r : Nat) (e : EventRec) (s : State) : Reporting s (putEvent r e s) := rfl

theorem deliver_reporting (e : EventRec) (s : State) : Reporting s (deliver e s) := by
  unfold deliver loseEvent
  repeat' split
  all_goals rfl

/-- Writing a log record changes management state only. -/
theorem logPut_eq (c v : Nat) (k : ScopeKind) (i : Nat) (l : Items) (b : Bool) (s : State) :
    ∃ f, logPut c v k i l b s = s.modMgmt f := by
  unfold logPut
  dsimp only
  repeat' split
  all_goals exact ⟨_, rfl⟩

/-- Ending the log's second changes management state only. -/
theorem logFlush_eq (s : State) : ∃ f, logFlush s = s.modMgmt f := by
  unfold logFlush
  dsimp only
  split
  · obtain ⟨f, hf⟩ := logPut_eq 0x0B86 2 .module (position s) [it 4 s.mgmt.logSuppressed] false
      (s.modMgmt fun m => { m with logSuppressed := 0 })
    exact ⟨fun m => f { m with logSuppressed := 0 }, hf⟩
  · exact ⟨id, rfl⟩

/-- Adding a log record changes management state only. -/
theorem logAdd_eq (c v : Nat) (k : ScopeKind) (i : Nat) (l : Items) (b : Bool) (s : State) :
    ∃ f, logAdd c v k i l b s = s.modMgmt f := by
  obtain ⟨g, hg⟩ := logFlush_eq s
  obtain ⟨f, hf⟩ := logPut_eq c v k i l b (logFlush s)
  exact ⟨fun m => f (g m), by rw [logAdd, hf, hg]; rfl⟩

theorem logAdd_reporting (c v : Nat) (k : ScopeKind) (i : Nat) (l : Items) (b : Bool) (s : State) :
    Reporting s (logAdd c v k i l b s) := by
  obtain ⟨f, hf⟩ := logAdd_eq c v k i l b s
  rw [hf]
  rfl

theorem logEvent_reporting (c : Nat) (k : ScopeKind) (i : Nat) (l : Items) (s : State) : Reporting s (logEvent c k i l s) := by
  unfold logEvent
  split
  · exact logAdd_reporting ..
  · rfl

/-- An event changes only what reports it (R286 to R288, R417). -/
theorem raise_reporting (c : Nat) (k : ScopeKind) (i : Nat) (l : Items) (s : State) (a : Bool) : Reporting s (raise c k i l s a) := by
  unfold raise
  exact ((modQueue_reporting s _).trans (logEvent_reporting c k i l _)).trans (deliver_reporting _ _)

theorem raiseMod_reporting (c : Nat) (l : Items) (s : State) : Reporting s (raiseMod c l s) := raise_reporting ..

/-- So does an event raised at most once in a period. -/
theorem raiseLimited_reporting (p key n c : Nat) (k : ScopeKind) (i : Nat) (mk : Nat → Items) (s : State) :
    Reporting s (raiseLimited p key n c k i mk s) := by
  unfold raiseLimited
  repeat' split
  · exact (modQueue_reporting _ _).trans (raise_reporting ..)
  · rfl
  · exact (modQueue_reporting _ _).trans (raise_reporting ..)

theorem publish_reporting (c : Completion) (s : State) : Reporting s (publish c s) := by
  unfold publish putCompletion
  repeat' split
  all_goals rfl

theorem detachHost_reporting (c : Nat) (s : State) : Reporting s (detachHost c s) := by
  unfold detachHost
  split <;> rfl

theorem settleDetach_reporting (s : State) : Reporting s (settleDetach s) := by
  have h : ∀ (u : State) (q : Bool) (c : Completion), Reporting s u → Reporting s (detachHost 6 (if q then u else publish c u)) := by
    intro u q c hu
    cases q
    · exact (hu.trans (publish_reporting c u)).trans (detachHost_reporting ..)
    · exact hu.trans (detachHost_reporting ..)
  unfold settleDetach
  split
  · split
    · exact h _ _ _ rfl
    · rfl
  · rfl

/-- A completion changes only what reports it (R283, R284, R294). -/
theorem completeAs_reporting (tk : Ticket) (st pos : Nat) (f : Bool) (l : Items) (s : State) :
    Reporting s (completeAs tk st pos f l s) := by
  unfold completeAs leaveFlight
  dsimp only
  split
  · exact (modQueue_reporting _ _).trans (emit_reporting ..)
  · split
    · exact (modQueue_reporting _ _).trans (settleDetach_reporting _)
    · exact ((modQueue_reporting _ _).trans (publish_reporting ..)).trans (settleDetach_reporting _)

theorem complete_reporting (tk : Ticket) (st : Nat) (l : Items) (s : State) : Reporting s (complete tk st l s) :=
  completeAs_reporting ..

theorem hostOut_reporting (tk : Ticket) (o : Nat) (l : List Byte) (s : State) : Reporting s (hostOut tk o l s) := by
  unfold hostOut
  split <;> rfl

theorem completeWrite_reporting (tk : Ticket) (a b : Items) (s : State) : Reporting s (completeWrite tk a b s) := by
  unfold completeWrite
  split
  · exact (hostOut_reporting ..).trans (complete_reporting ..)
  · exact complete_reporting ..

theorem completeRecord_reporting (tk : Ticket) (n : Nat) (a b : Items) (s : State) : Reporting s (completeRecord tk n a b s) := by
  unfold completeRecord
  split
  · exact (hostOut_reporting ..).trans (complete_reporting ..)
  · exact complete_reporting ..

theorem take_reporting (d : Desc) (tk : Ticket) (s : State) : Reporting s (take d tk s) := rfl

/-! ## Taking and completing a command -/

/-- A command that the module executes itself is its own body, after the take (R281, R283). -/
theorem onTake_executes {d : Desc} {c : HostCmd} {s : State} (body : Ticket → State → State) (h : Executes d c s) :
    onTake d c body s = body (ticketOf d (cmdKind c) s) (take d (ticketOf d (cmdKind c) s) s) := by
  obtain ⟨h1, h2, h3, h4, h5, -⟩ := h
  have k2 : commonCheck d c (take d (ticketOf d (cmdKind c) s) s) = 0 := h2
  have k3 : isLocal d.target (take d (ticketOf d (cmdKind c) s) s) = true := h3
  have k4 : stateServes (cmdKind c) (take d (ticketOf d (cmdKind c) s) s) = true := h4
  have k5 : (take d (ticketOf d (cmdKind c) s) s).mgmt.restarting = false := h5
  simp [onTake, runHere, h1, k2, k3, k4, k5]

/-- Outputs are only added to. -/
def Adds (s t : State) : Prop := ∃ l, t.outbox = l ++ s.outbox

theorem Adds.refl (s : State) : Adds s s := ⟨[], rfl⟩

theorem Adds.trans {a b c : State} (h : Adds a b) (k : Adds b c) : Adds a c := by
  obtain ⟨l, hl⟩ := h
  obtain ⟨m, hm⟩ := k
  exact ⟨m ++ l, by rw [hm, hl, List.append_assoc]⟩

theorem Adds.mem {a b : State} (h : Adds a b) {o : Out} (k : o ∈ a.outbox) : o ∈ b.outbox := by
  obtain ⟨l, hl⟩ := h
  rw [hl]
  exact List.mem_append_right _ k

theorem emit_adds (o : Out) (s : State) : Adds s (emit o s) := ⟨[o], rfl⟩

theorem deliver_adds (e : EventRec) (s : State) : Adds s (deliver e s) := by
  unfold deliver loseEvent
  repeat' split
  all_goals first | exact Adds.refl _ | exact ⟨[_], rfl⟩

theorem logAdd_adds (c v : Nat) (k : ScopeKind) (i : Nat) (l : Items) (b : Bool) (s : State) : Adds s (logAdd c v k i l b s) := by
  obtain ⟨f, hf⟩ := logAdd_eq c v k i l b s
  rw [hf]
  exact Adds.refl _

theorem logEvent_adds (c : Nat) (k : ScopeKind) (i : Nat) (l : Items) (s : State) : Adds s (logEvent c k i l s) := by
  unfold logEvent
  split
  · exact logAdd_adds ..
  · exact Adds.refl _

theorem raise_adds (c : Nat) (k : ScopeKind) (i : Nat) (l : Items) (s : State) (a : Bool) : Adds s (raise c k i l s a) := by
  unfold raise
  refine Adds.trans ?_ (deliver_adds _ _)
  exact Adds.trans (b := s.modQueue _) (Adds.refl _) (logEvent_adds ..)

theorem publish_adds (c : Completion) (s : State) : Adds s (publish c s) := by
  unfold publish putCompletion
  repeat' split
  all_goals first | exact Adds.refl _ | exact ⟨[_], rfl⟩

theorem detachHost_adds (c : Nat) (s : State) : Adds s (detachHost c s) := by
  unfold detachHost
  split <;> exact Adds.refl _

theorem settleDetach_adds (s : State) : Adds s (settleDetach s) := by
  have h : ∀ (u : State) (q : Bool) (c : Completion), Adds s u → Adds s (detachHost 6 (if q then u else publish c u)) := by
    intro u q c hu
    cases q
    · exact (hu.trans (publish_adds c u)).trans (detachHost_adds ..)
    · exact hu.trans (detachHost_adds ..)
  unfold settleDetach
  split
  · split
    · exact h _ _ _ (Adds.refl _)
    · exact Adds.refl _
  · exact Adds.refl _

theorem completeAs_adds (tk : Ticket) (st pos : Nat) (f : Bool) (l : Items) (s : State) : Adds s (completeAs tk st pos f l s) := by
  have h : ∀ (u : State) (q : Bool) (c : Completion), Adds s u → Adds s (settleDetach (if q then u else publish c u)) := by
    intro u q c hu
    cases q
    · exact (hu.trans (publish_adds c u)).trans (settleDetach_adds _)
    · exact hu.trans (settleDetach_adds _)
  unfold completeAs
  dsimp only
  split
  · exact ⟨[_], rfl⟩
  · exact h (leaveFlight tk s) _ _ (Adds.refl _)

theorem hostOut_adds (tk : Ticket) (o : Nat) (l : List Byte) (s : State) : Adds s (hostOut tk o l s) := by
  unfold hostOut
  split <;> exact ⟨[_], rfl⟩

/-- A completion of the command taken at `s` puts its record among the outputs, while the host is attached to the same rings. -/
theorem complete_reports (d : Desc) (c : HostCmd) (status : Nat) (result : Items) (s u : State) (ha : u.host.attached = true)
    (ht : u.host.table = s.host.table) (hs : u.host.stoppedCpl = s.host.stoppedCpl) (hp : position u = position s) :
    Reports d c status result s (complete (ticketOf d (cmdKind c) s) status result u) := by
  intro hq r hr
  have hr' : cplRingOf (leaveFlight (ticketOf d (cmdKind c) s) u) (ticketOf d (cmdKind c) s).ring = some r := by
    have : cplRingOf (leaveFlight (ticketOf d (cmdKind c) s) u) d.ring = cplRingOf s d.ring := by
      simp [cplRingOf, cmdEntry, leaveFlight, ht, hs]
    exact this.trans hr
  have hc : complete (ticketOf d (cmdKind c) s) status result u
      = settleDetach (putCompletion r (recordOf d c status result s) (leaveFlight (ticketOf d (cmdKind c) s) u)) := by
    have hn : ¬ ((ticketOf d (cmdKind c) s).quiet = true ∧ status = 0) := by
      rintro ⟨a, b⟩
      rcases hq with h | h
      · exact absurd (show d.quiet = true from a) (by simp [h])
      · exact h b
    have hb : ((ticketOf d (cmdKind c) s).quiet && decide (status = 0)) = false := by
      simpa [Bool.and_eq_false_iff] using hn
    have hat : (leaveFlight (ticketOf d (cmdKind c) s) u).host.attached = true := ha
    unfold complete completeAs
    simp only [show (ticketOf d (cmdKind c) s).origin = none from rfl]
    unfold publish
    simp [hb, hat, hr', recordOf, hp]
  rw [hc]
  exact ⟨_, _, (settleDetach_adds _).mem List.mem_cons_self⟩

/-- An event raised where rings, events, position and wall time are those of `s` is there. -/
theorem raise_raises (c : Nat) (k : ScopeKind) (i : Nat) (l : Items) (s u : State) (at_ : Bool) (hh : u.host = s.host)
    (he : u.queue.events = s.queue.events)
    (hs : u.queue.seqs = s.queue.seqs) (hr : u.queue.evtMasks = s.queue.evtMasks) (hp : position u = position s) (hw : u.time.wall = s.time.wall) :
    Raises c k i l s (raise c k i l u at_) := by
  intro hroom hring
  refine ⟨at_, ?_⟩
  have hn : nextSeq k i u = nextSeq k i s := by simp [nextSeq, hs]
  have key : ∀ (v : State) (e : EventRec), v.queue.events.length < Config.maxQueued →
      (v.host.attached = true → (evtRing v e.code).isSome = true) →
      e ∈ (deliver e v).queue.events ∨ ∃ r i ph b l, Out.event r i ph b e l ∈ (deliver e v).outbox := by
    intro v e h1 h2
    unfold deliver
    split
    · rename_i hc
      have hatt : v.host.attached = true := by simp_all
      split
      · rename_i hnone
        simp [hnone] at h2
        simp [h2] at hatt
      · split
        · exact Or.inr ⟨_, _, _, _, _, List.mem_cons_self⟩
        · left
          simp
    · left
      simp
  unfold raise
  dsimp only
  rw [hn, hp, hw]
  have hlq : ∀ v : State, (logEvent c k i l v).queue = v.queue ∧ (logEvent c k i l v).host = v.host := by
    intro v
    unfold logEvent
    split
    · obtain ⟨f, hf⟩ := logAdd_eq _ _ _ _ _ _ v
      rw [hf]
      exact ⟨rfl, rfl⟩
    · exact ⟨rfl, rfl⟩
  refine key _ _ ?_ ?_
  · rw [(hlq _).1]; simpa [he] using hroom
  · intro ha
    rw [(hlq _).2] at ha
    have := hring (by simpa [hh] using ha)
    simpa [evtRing, evtCount, evtMasks, (hlq _).1, (hlq _).2, hr, hh] using this

end Sys2Proof.Machine
end

