-- ==== Sys2Proof/Laws/Gates.lean ====
section
/-! SUPPORT. Gates and registers: an access that a register gate allows changes nothing; what an open register's read or write is. -/

namespace Sys2Proof.Machine

open Sys2Proof

/-- An access that a gate in front of registers does not refuse changes nothing (R384, R385). -/
theorem gateDo_allowed {g : Nat} {a : Access} {s : State} (hg : g ≠ 0) (h : (gateDo g a s).2.1 = false) : (gateDo g a s).2.2 = s := by
  unfold gateDo at h ⊢
  dsimp only at h ⊢
  simp [h, hg]

theorem gateOf_ne_zero (o : Nat) : gateOf o ≠ 0 := by
  unfold gateOf
  repeat' split
  all_goals simp

/-- A write of an open register that the run lock does not cover is its action. -/
theorem barWrite_open {who : Initiator} {o : Nat} {locked : Bool} {act : State → State} {s : State} (h : RegOpen who o true s)
    (hl : locked = true → s.host.run = false) : barWrite who o locked act s = act s := by
  obtain ⟨h1, h2, h3⟩ := h
  have h4 := gateDo_allowed (gateOf_ne_zero o) h3
  have h5 : (locked && s.host.run) = false := by
    cases locked
    · rfl
    · simpa using hl rfl
  simp [barWrite, h1, h2, h3, h4, h5]

/-- A read of an open register is its value, with the side effect of its own. -/
theorem barRead_open {who : Initiator} {o : Nat} {act : State → Word32 × State} {s : State} (h : RegOpen who o false s) :
    barRead who o act s = emit (.readData (act s).1) (act s).2 := by
  obtain ⟨h1, h2, h3⟩ := h
  have h4 := gateDo_allowed (gateOf_ne_zero o) h3
  have h5 : bar0Reads s = true ∧ s.module.mode ≠ .starting := by
    unfold bar0Up at h1
    unfold bar0Reads
    revert h1
    cases s.module.mode <;> simp
  simp [barRead, h5.1, h5.2, h2, h3, h4]

end Sys2Proof.Machine
end

