-- ==== Sys2Proof/Laws/Memory.lean ====
section
/-! SUPPORT. Keyed lists and module DRAM: what a read gives after a write, that a write leaves every other place alone, and that every
operation on module DRAM keeps the canonical form. -/

namespace Sys2Proof.Machine

open Sys2Proof

/-! ## Keyed lists -/

theorem mapGet_mapPut {α : Type} (m : Map α) (k n : Nat) (v : α) :
    mapGet (mapPut m k v) n = if n = k then some v else mapGet m n := by
  induction m with
  | nil => by_cases h : k = n <;> simp [mapPut, mapGet, h, eq_comm]
  | cons p t ih =>
    obtain ⟨a, w⟩ := p
    simp only [mapPut]
    split
    · by_cases h : k = n <;> simp [mapGet, h, eq_comm]
    · split
      · rename_i h
        subst h
        by_cases h : k = n <;> simp [mapGet, h, eq_comm]
      · simp only [mapGet, ih]
        by_cases h : a = n
        · subst h
          rename_i g
          simp [Ne.symm g]
        · simp [h]

@[simp] theorem mapGet_mapPut_self {α : Type} (m : Map α) (k : Nat) (v : α) : mapGet (mapPut m k v) k = some v := by
  simp [mapGet_mapPut]

theorem mapGet_mapPut_ne {α : Type} (m : Map α) {k n : Nat} (v : α) (h : n ≠ k) : mapGet (mapPut m k v) n = mapGet m n := by
  simp [mapGet_mapPut, h]

theorem mapGet_mapDel {α : Type} (m : Map α) (k n : Nat) : mapGet (mapDel m k) n = if n = k then none else mapGet m n := by
  induction m with
  | nil => simp [mapDel, mapGet]
  | cons p t ih =>
    obtain ⟨a, w⟩ := p
    have e : mapDel ((a, w) :: t) k = if a = k then mapDel t k else (a, w) :: mapDel t k := by
      by_cases h : a = k <;> simp [mapDel, h]
    rw [e]
    by_cases h : a = k
    · subst h
      rw [if_pos rfl, ih]
      by_cases g : n = a
      · simp [g]
      · simp [g, mapGet, Ne.symm g]
    · rw [if_neg h]
      simp only [mapGet, ih]
      by_cases g : a = n
      · subst g
        simp [h]
      · simp [g]

@[simp] theorem mapGet_mapDel_self {α : Type} (m : Map α) (k : Nat) : mapGet (mapDel m k) k = none := by
  simp [mapGet_mapDel]

theorem mapGet_mapDel_ne {α : Type} (m : Map α) {k n : Nat} (h : n ≠ k) : mapGet (mapDel m k) n = mapGet m n := by
  simp [mapGet_mapDel, h]

theorem mapGet_mapUpd {α : Type} (m : Map α) (k n : Nat) (f : α → α) :
    mapGet (mapUpd m k f) n = if n = k then (mapGet m k).map f else mapGet m n := by
  unfold mapUpd
  by_cases h : n = k
  · subst h
    split <;> rename_i e <;> simp [e]
  · split <;> simp [h, mapGet_mapPut]

/-! ## The canonical form -/

/-- Every key of a keyed list lies above `a`. -/
def KeysAbove {α : Type} (a : Nat) (m : Map α) : Prop := ∀ p ∈ m, a < p.1

theorem mapSorted_cons {α : Type} (p : Nat × α) (m : Map α) : mapSorted (p :: m) = true ↔ mapSorted m = true ∧ KeysAbove p.1 m := by
  induction m generalizing p with
  | nil => simp [mapSorted, KeysAbove]
  | cons q t ih =>
    have e : mapSorted (p :: q :: t) = (decide (p.1 < q.1) && mapSorted (q :: t)) := rfl
    rw [e, Bool.and_eq_true, decide_eq_true_eq]
    constructor
    · rintro ⟨h, k⟩
      refine ⟨k, ?_⟩
      intro r hr
      rcases List.mem_cons.1 hr with rfl | hr
      · exact h
      · exact lt_trans h (((ih q).1 k).2 r hr)
    · rintro ⟨h, k⟩
      exact ⟨k q (List.mem_cons_self), h⟩

theorem mapPut_keys {α : Type} {a k : Nat} {m : Map α} {v : α} (h : KeysAbove a m) (hk : a < k) : KeysAbove a (mapPut m k v) := by
  induction m with
  | nil => simpa [mapPut, KeysAbove] using hk
  | cons p t ih =>
    obtain ⟨b, w⟩ := p
    have hb : a < b := h (b, w) (List.mem_cons_self)
    have ht : KeysAbove a t := fun q hq => h q (List.mem_cons_of_mem _ hq)
    simp only [mapPut]
    split
    · intro q hq
      rcases List.mem_cons.1 hq with rfl | hq
      · exact hk
      · exact h q hq
    · split
      · intro q hq
        rcases List.mem_cons.1 hq with rfl | hq
        · exact hk
        · exact ht q hq
      · intro q hq
        rcases List.mem_cons.1 hq with rfl | hq
        · exact hb
        · exact ih ht q hq

theorem mapSorted_mapPut {α : Type} {m : Map α} (k : Nat) (v : α) (h : mapSorted m = true) : mapSorted (mapPut m k v) = true := by
  induction m with
  | nil => rfl
  | cons p t ih =>
    obtain ⟨a, w⟩ := p
    have ht := (mapSorted_cons (a, w) t).1 h
    simp only [mapPut]
    split
    · rename_i hk
      refine (mapSorted_cons _ _).2 ⟨h, ?_⟩
      intro q hq
      rcases List.mem_cons.1 hq with rfl | hq
      · exact hk
      · exact lt_trans hk (ht.2 q hq)
    · split
      · rename_i hk
        subst hk
        exact (mapSorted_cons _ _).2 ht
      · rename_i h1 h2
        exact (mapSorted_cons _ _).2 ⟨ih ht.1, mapPut_keys ht.2 (show a < k by omega)⟩

/-! ## Module DRAM -/

theorem cellsWrite_wf {m : List Host.Cell} (a : Nat) (l : List Byte) (h : Memory.wf m = true) : Memory.wf (cellsWrite m a l) = true := by
  induction l generalizing m a with
  | nil => exact h
  | cons b t ih => exact ih (a + 1) (mapSorted_mapPut a b h)

/-- What a cell holds after a write of bytes from `a` up: the byte written there, or what it held. -/
theorem mapGet_cellsWrite (m : List Host.Cell) (a : Nat) (l : List Byte) (x : Nat) :
    mapGet (cellsWrite m a l) x = if a ≤ x ∧ x < a + l.length then some (l.getD (x - a) 0) else mapGet m x := by
  induction l generalizing m a with
  | nil =>
    rw [if_neg (by simp)]
    rfl
  | cons b t ih =>
    have e : cellsWrite m a (b :: t) = cellsWrite (mapPut m a b) (a + 1) t := rfl
    rw [e, ih, mapGet_mapPut, List.length_cons]
    by_cases h : x = a
    · subst h
      rw [if_neg (by omega), if_pos rfl, if_pos (by omega), Nat.sub_self]
      rfl
    · by_cases g : a + 1 ≤ x ∧ x < a + 1 + t.length
      · rw [if_pos g, if_pos (by omega)]
        obtain ⟨n, rfl⟩ : ∃ n, x = a + (n + 1) := ⟨x - a - 1, by omega⟩
        rw [show a + (n + 1) - (a + 1) = n by omega, show a + (n + 1) - a = n + 1 by omega]
        rfl
      · rw [if_neg g, if_neg h, if_neg (by omega)]

/-- A read after a write gives the byte written, and every other byte as before (R372). -/
theorem memRead_memWrite (a : Nat) (l : List Byte) (s : State) (x : Nat) :
    memRead (memWrite a l s) x = if a ≤ x ∧ x < a + l.length then l.getD (x - a) 0 else memRead s x := by
  have e : mapGet (memWrite a l s).mem.cells x = if a ≤ x ∧ x < a + l.length then some (l.getD (x - a) 0) else mapGet s.mem.cells x :=
    mapGet_cellsWrite s.mem.cells a l x
  unfold memRead
  rw [e]
  by_cases h : a ≤ x ∧ x < a + l.length
  · rw [if_pos h, if_pos h]
  · rw [if_neg h, if_neg h]
    rfl

/-- A write changes module DRAM only, and of it only bytes and poison. -/
theorem memWrite_frame (a : Nat) (l : List Byte) (s : State) :
    memWrite a l s = { s with mem := { s.mem with cells := (memWrite a l s).mem.cells, poison := (memWrite a l s).mem.poison } } := rfl

theorem memWrite_inv (a : Nat) (l : List Byte) {s : State} (h : MemInv s) : MemInv (memWrite a l s) := cellsWrite_wf a l h

theorem memUndefine_inv (s : State) : MemInv (memUndefine s) := rfl

/-- The canonical form depends on the bytes alone. -/
theorem MemInv.congr {s t : State} (h : MemInv s) (e : t.mem.cells = s.mem.cells) : MemInv t := by
  unfold MemInv at *
  rw [e]
  exact h

/-- Where only what reports differs, the canonical form stands. -/
theorem MemInv.reporting {s t : State} (h : MemInv s) (e : Reporting s t) : MemInv t := by
  refine h.congr ?_
  rw [e]

/-- Where only the ledger and what reports it differ, the canonical form stands. -/
theorem MemInv.onlyLedger {s t : State} (h : MemInv s) (e : OnlyLedger s t) : MemInv t := by
  refine h.congr ?_
  rw [e]

end Sys2Proof.Machine
end

