-- ==== Sys2Proof/WellFormed.lean ====
section
/-! DEFINITION. Which commands are well formed: every operand fits the field that the manual's layout gives it, and a happening
names an interface, head, source or position that the module has. The meanings judge the values inside those fields themselves. -/

namespace Sys2Proof

/-- `v` fits a field of `n` bits. -/
def fits (n v : Nat) : Bool := decide (v < 2 ^ n)

/-- A rectangle of four 2-byte fields (R5, R138). -/
def Rect.wf (r : Rect) : Bool := fits 16 r.x && fits 16 r.y && fits 16 r.w && fits 16 r.h

/-- A descriptor header (R282), taken from one of 16 rings (R277). -/
def Desc.wf (d : Desc) : Bool := d.ring < 16 && fits 8 d.target && fits 8 d.version && fits 64 d.tag && fits 64 d.buf

/-- Port-configure descriptor (R52). -/
def PortBody.wf (b : PortBody) : Bool :=
  fits 8 b.port && fits 8 b.lane && fits 8 b.mode && fits 8 b.fec && fits 12 b.vlan && fits 3 b.pcp && fits 32 b.ipv4 && fits 8 b.ipv4Prefix && fits 128 b.ipv6
    && fits 8 b.ipv6Prefix

/-- Leg record (R60). -/
def Leg.wf (l : Leg) : Bool := fits 128 l.group && fits 128 l.source && fits 16 l.udpPort && fits 8 l.port && fits 8 l.lane && fits 32 l.ssrc

/-- Ingest parameter block (R60). -/
def IngestParams.wf (p : IngestParams) : Bool :=
  fits 8 p.media && fits 8 p.timingMode && fits 8 p.legCount && fits 8 p.payloadType && fits 16 p.width && fits 16 p.height && fits 32 p.rateNum
    && fits 32 p.rateDen && fits 8 p.sampling && fits 8 p.colorimetry && fits 8 p.range && fits 8 p.packing && fits 32 p.rtpClockHz && fits 32 p.peakMbps
    && fits 32 p.jitterUs && fits 8 p.frameSlots && fits 8 p.freshExtId && fits 32 p.srcUNs && fits 32 p.srUNs && fits 32 p.driftPpm
    && fits 32 p.latencyNs && p.legA.wf && p.legB.wf

/-- Ingest-open descriptor (R60). -/
def IngestOpenBody.wf (b : IngestOpenBody) : Bool :=
  fits 16 b.source && fits 32 b.paramLen && fits 64 b.regionBase && fits 64 b.regionSize && b.params.wf

/-- Proxy-open descriptor (R72). -/
def ProxyBody.wf (b : ProxyBody) : Bool :=
  fits 16 b.source && fits 8 b.port && fits 8 b.lane && fits 16 b.udpPort && fits 8 b.dscp && fits 8 b.payloadType && fits 32 b.ssrc && fits 128 b.group

/-- Decode-attach descriptor (R81). -/
def AttachBody.wf (b : AttachBody) : Bool :=
  fits 16 b.source && fits 8 b.codec && fits 8 b.pipeline && fits 16 b.maxWidth && fits 16 b.maxHeight && fits 32 b.maxRateMhz && fits 32 b.maxBitrateKbps
    && fits 8 b.maxBitDepth && fits 8 b.dpbSlots && fits 8 b.policy && fits 8 b.maxConcealPct && fits 64 b.bufBase && fits 64 b.bufSize

/-- Define and set descriptor (R108). -/
def LedgerBody.wf (b : LedgerBody) : Bool :=
  fits 16 b.source && fits 8 b.kind && fits 8 b.cls && fits 32 b.expectUs && fits 16 b.lossMs && fits 16 b.staleMs && fits 16 b.parent && fits 8 b.field

/-- Vouch descriptor or record (R121, R122). -/
def VouchBody.wf (b : VouchBody) : Bool := fits 16 b.source && fits 32 b.uNs && fits 64 b.asOfNs

/-- Surface-register descriptor (R132). -/
def SurfaceBody.wf (b : SurfaceBody) : Bool :=
  fits 16 b.surface && fits 8 b.format && fits 8 b.imageCount && fits 16 b.width && fits 16 b.height && fits 32 b.pitch && fits 32 b.imageStride && fits 64 b.base
    && fits 8 b.colorimetry && fits 8 b.range

/-- Surface-upload and surface-read descriptor (R134). -/
def UploadBody.wf (b : UploadBody) : Bool := fits 16 b.surface && fits 8 b.image && b.rect.wf && fits 32 b.hostPitch

/-- Writeback descriptor (R160). -/
def WritebackBody.wf (b : WritebackBody) : Bool := fits 8 b.head && fits 8 b.mode && fits 8 b.everyN && fits 16 b.surface

/-- HEAD_AUX (R176). -/
def AuxBody.wf (b : AuxBody) : Bool := fits 8 b.head && fits 8 b.write && fits 8 b.len && fits 20 b.addr && b.data.length ≤ 16

/-- Record-start descriptor (R228). -/
def RecordBody.wf (b : RecordBody) : Bool :=
  fits 8 b.head && fits 8 b.divisor && fits 8 b.profile && fits 8 b.qpTarget && fits 8 b.qpMax && fits 16 b.idrInterval && fits 32 b.capKbps && fits 32 b.ringSize
    && fits 64 b.ringAddr && fits 64 b.progressAddr && fits 64 b.workBase && fits 64 b.workSize

/-- OVERLAY_FONT_LOAD (R257). -/
def FontBody.wf (b : FontBody) : Bool := fits 8 b.font && fits 8 b.cellW && fits 8 b.cellH && fits 8 b.firstCode && fits 16 b.count

/-- Bind descriptor (R258, R259). -/
def BindBody.wf (b : BindBody) : Bool :=
  fits 16 b.binding && fits 8 b.engine && fits 8 b.trigger && fits 16 b.list && fits 16 b.surface && fits 8 b.everyN && fits 8 b.group && fits 16 b.eventSource
    && fits 16 b.eventMask && b.palette.length = 15

/-- OVERLAY_RUN (R265). -/
def RunBody.wf (b : RunBody) : Bool := fits 16 b.binding && fits 8 b.slot && fits 8 b.textLen && b.text.all (fits 8)

/-- The header of a staging item (R301). -/
def Item.wf (i : Item) : Bool := fits 8 i.itemType && fits 8 i.head && fits 8 i.index && fits 16 i.bodyLen

/-- An initiator id: a class of 4 bits and an index of 9 (R382). -/
def Initiator.wf (i : Initiator) : Bool := i.cls < 10 && fits 9 i.index

/-- An access of at most 512 bytes (R383). -/
def Access.wf (a : Access) : Bool := a.initiator.wf && 1 ≤ a.len && a.len ≤ 512

/-- The header of an image is 512 bytes (R459). -/
def HeaderBytes.wf (h : HeaderBytes) : Bool := h.bytes.length = 512

/-- An RTP packet at a port and an interface of it (R50, R64). -/
def RtpPacket.wf (p : RtpPacket) : Bool := p.port < 6 && p.lane < 4 && fits 32 p.ssrc && fits 7 p.payloadType && fits 16 p.seq && fits 16 p.extSeq && fits 32 p.ts

/-- A line token (R209). -/
def LineToken.wf (t : LineToken) : Bool := fits 48 t.frameNo && fits 16 t.line && t.head < 32

/-- A Luasin frame (R324). -/
def LuasinFrame.wf (f : LuasinFrame) : Bool := fits 2 f.ackKind && fits 5 f.lane && fits 16 f.seq && fits 16 f.claimOrAck && fits 10 f.length

/-- A lane of a bond: 8 internal lanes a direction towards the main section and 24 towards the Tailstock, 4 ring lanes a side, 12 twin
lanes (R320). -/
def laneOf (b : Bond) (lane : Nat) : Bool :=
  match b with
  | .toTailstock => lane < 24
  | .toMain => lane < 8
  | .east => lane < 4
  | .west => lane < 4
  | .twin => lane < 12

/-- BAR0 offsets whose write is a command of its own. -/
def ownRow (o : Nat) : Bool := o = 0x1000 || o = 0x1014 || o = 0x10000 || o = 0x20800 || (0x28000 ≤ o && o < 0x28100)

/-- A host command: each operand fits its field of the descriptor. -/
def HostCmd.wf : HostCmd → Bool
  | .portConfigure b => b.wf
  | .ingestOpen b => b.wf
  | .ingestClose source _ => fits 16 source
  | .ingestCounters source => fits 16 source
  | .proxyOpen b => b.wf
  | .proxyClose source => fits 16 source
  | .decodeAttach b => b.wf
  | .decodeDetach source _ => fits 16 source
  | .decodePolicy source policy pct => fits 16 source && fits 8 policy && fits 8 pct
  | .decodeStatus source => fits 16 source
  | .decodeSelftest pipeline => fits 8 pipeline
  | .ledgerDefine b => b.wf
  | .ledgerSet b => b.wf
  | .ledgerDelete source => fits 16 source
  | .ledgerWithdraw source _ => fits 16 source
  | .ledgerVouch b => b.wf
  | .ledgerVouchBatch count l => fits 16 count && l.all VouchBody.wf
  | .ledgerTest source _ => fits 16 source
  | .ledgerProbe source enable freezeK freezeSad => fits 16 source && fits 8 enable && fits 8 freezeK && fits 32 freezeSad
  | .ledgerRead first count => fits 16 first && fits 16 count
  | .surfaceRegister b => b.wf
  | .surfaceUpload b => b.wf
  | .surfaceRetire surface => fits 16 surface
  | .surfaceRead b => b.wf
  | .scalerLoad set coeffs => fits 8 set && coeffs.all fun c => -32768 ≤ c && c ≤ 32767
  | .scalerRead set => fits 8 set
  | .writeback b => b.wf
  | .composeSelftest pipe => fits 8 pipe
  | .composeStatus head => fits 8 head
  | .headStatus head => fits 8 head
  | .headSinkRead head => fits 8 head
  | .headSinkPower head power => fits 8 head && fits 8 power
  | .headAux b => b.wf
  | .egressPortConfigure b => b.wf
  | .tailstockGlyphLoad first count _ => fits 8 first && fits 8 count
  | .calipersRead head => fits 8 head
  | .tailstockStatus head => fits 8 head
  | .verdictRead select => fits 8 select
  | .holdRead head rect => fits 8 head && rect.wf
  | .tailstockFontRead => true
  | .recordStart b => b.wf
  | .recordStop head _ => fits 8 head
  | .recordStats head => fits 8 head
  | .recordForceIdr head => fits 8 head
  | .encodeSelftest pipe => fits 8 pipe
  | .overlayListLoad list length _ => fits 16 list && fits 32 length
  | .overlayListFree list => fits 16 list
  | .overlayFontLoad b => b.wf
  | .overlayBind b => b.wf
  | .overlayUnbind binding => fits 16 binding
  | .overlayRun b => b.wf
  | .overlayStatus engine => fits 8 engine
  | .nop => true
  | .eventRoute ring subjectMask attnMask => fits 8 ring && fits 16 subjectMask && fits 16 attnMask
  | .hostDetach => true
  | .txnBegin _ modules => fits 64 modules
  | .txnStage txn position itemCount itemsLen items => fits 16 txn && fits 8 position && fits 16 itemCount && fits 32 itemsLen && items.all Item.wf
  | .txnValidate txn reportLen => fits 16 txn && fits 32 reportLen
  | .txnCommit txn applyNs reportLen => fits 16 txn && fits 64 applyNs && fits 32 reportLen
  | .txnAbort txn => fits 16 txn
  | .txnStatus txn len => fits 16 txn && fits 32 len
  | .laneCounters lane => fits 8 lane
  | .laneTest lane durationMs _ _ => fits 8 lane && fits 16 durationMs
  | .cascadeStatus => true
  | .cascadeRenumber identity => fits 64 identity
  | .twinRole op => fits 8 op
  | .cascadeSleep => true
  | .cascadeWake => true
  | .memStatus => true
  | .memRetrain channel => fits 8 channel
  | .memInject addr devices first => fits 64 addr && fits 8 devices && fits 8 first
  | .gateFence mask _ => fits 16 mask
  | .gateFaultRead seq => fits 32 seq
  | .mbxPost receiver slot msg => fits 8 receiver && fits 8 slot && msg.length = 64
  | .mbxRead mask => fits 32 mask
  | .lockAcquire lock => fits 8 lock
  | .lockRelease lock => fits 8 lock
  | .mgmtStatus => true
  | .mgmtMaintenance enter => fits 8 enter
  | .mgmtLogRead first count _ => fits 32 first && fits 16 count
  | .mgmtReset => true
  | .mgmtLadderTest step => fits 8 step
  | .updateStatus => true
  | .updateDistribute source mask staged => fits 8 source && fits 64 mask && fits 64 staged
  | .updateActivate mask activateNs staged => fits 64 mask && fits 64 activateNs && fits 64 staged
  | .updateHitless _ _ => true
  | .updateEngine streamMask overlayMask => fits 32 streamMask && fits 8 overlayMask
  | .updateConfirm => true
  | .updateRevert _ => true
  | .updateCancel mask => fits 64 mask

/-- A command of the block. -/
def Instr.wf : Instr → Bool
  | .portConfigure d b => d.wf && HostCmd.wf (.portConfigure b)
  | .ingestOpen d b => d.wf && HostCmd.wf (.ingestOpen b)
  | .ingestClose d source abort => d.wf && HostCmd.wf (.ingestClose source abort)
  | .ingestCloseComplete source => source < 8192
  | .ingestCounters d source => d.wf && HostCmd.wf (.ingestCounters source)
  | .proxyOpen d b => d.wf && HostCmd.wf (.proxyOpen b)
  | .proxyClose d source => d.wf && HostCmd.wf (.proxyClose source)
  | .decodeAttach d b => d.wf && HostCmd.wf (.decodeAttach b)
  | .decodeDetach d source abort => d.wf && HostCmd.wf (.decodeDetach source abort)
  | .decodeDetachComplete source => source < 8192
  | .decodePolicy d source policy pct => d.wf && HostCmd.wf (.decodePolicy source policy pct)
  | .decodeStatus d source => d.wf && HostCmd.wf (.decodeStatus source)
  | .decodeSelftest d pipeline => d.wf && HostCmd.wf (.decodeSelftest pipeline)
  | .decodeSelftestDone pipeline _ => pipeline < 8
  | .ledgerDefine d b => d.wf && HostCmd.wf (.ledgerDefine b)
  | .ledgerSet d b => d.wf && HostCmd.wf (.ledgerSet b)
  | .ledgerDelete d source => d.wf && HostCmd.wf (.ledgerDelete source)
  | .ledgerWithdraw d source withdraw => d.wf && HostCmd.wf (.ledgerWithdraw source withdraw)
  | .ledgerVouch d b => d.wf && HostCmd.wf (.ledgerVouch b)
  | .ledgerVouchBatch d count l => d.wf && HostCmd.wf (.ledgerVouchBatch count l)
  | .ledgerTest d source test => d.wf && HostCmd.wf (.ledgerTest source test)
  | .ledgerProbe d source enable freezeK freezeSad => d.wf && HostCmd.wf (.ledgerProbe source enable freezeK freezeSad)
  | .ledgerRead d first count => d.wf && HostCmd.wf (.ledgerRead first count)
  | .surfaceRegister d b => d.wf && HostCmd.wf (.surfaceRegister b)
  | .surfaceUpload d b => d.wf && HostCmd.wf (.surfaceUpload b)
  | .surfaceUploadResume surface => surface < 4096
  | .surfaceUploadComplete surface => surface < 4096
  | .surfaceRetire d surface => d.wf && HostCmd.wf (.surfaceRetire surface)
  | .surfaceRetireRelease surface => surface < 4096
  | .surfaceRead d b => d.wf && HostCmd.wf (.surfaceRead b)
  | .scalerLoad d set coeffs => d.wf && HostCmd.wf (.scalerLoad set coeffs)
  | .scalerRead d set => d.wf && HostCmd.wf (.scalerRead set)
  | .writeback d b => d.wf && HostCmd.wf (.writeback b)
  | .writebackFrame head => head < 32
  | .composeSelftest d pipe => d.wf && HostCmd.wf (.composeSelftest pipe)
  | .composeSelftestDone pipe _ => pipe < 128
  | .composeStatus d head => d.wf && HostCmd.wf (.composeStatus head)
  | .headStatus d head => d.wf && HostCmd.wf (.headStatus head)
  | .headSinkRead d head => d.wf && HostCmd.wf (.headSinkRead head)
  | .headSinkPower d head power => d.wf && HostCmd.wf (.headSinkPower head power)
  | .headAux d b => d.wf && HostCmd.wf (.headAux b)
  | .egressPortConfigure d b => d.wf && HostCmd.wf (.egressPortConfigure b)
  | .tailstockGlyphLoad d first count glyphs => d.wf && HostCmd.wf (.tailstockGlyphLoad first count glyphs)
  | .calipersRead d head => d.wf && HostCmd.wf (.calipersRead head)
  | .tailstockStatus d head => d.wf && HostCmd.wf (.tailstockStatus head)
  | .verdictRead d select => d.wf && HostCmd.wf (.verdictRead select)
  | .holdRead d head rect => d.wf && HostCmd.wf (.holdRead head rect)
  | .tailstockFontRead d => d.wf && HostCmd.wf .tailstockFontRead
  | .recordStart d b => d.wf && HostCmd.wf (.recordStart b)
  | .recordStop d head abort => d.wf && HostCmd.wf (.recordStop head abort)
  | .recordStopComplete head => head < 32
  | .recordStats d head => d.wf && HostCmd.wf (.recordStats head)
  | .recordForceIdr d head => d.wf && HostCmd.wf (.recordForceIdr head)
  | .encodeSelftest d pipe => d.wf && HostCmd.wf (.encodeSelftest pipe)
  | .encodeSelftestDone pipe _ => pipe < 2
  | .overlayListLoad d list length bytes => d.wf && HostCmd.wf (.overlayListLoad list length bytes)
  | .overlayListFree d list => d.wf && HostCmd.wf (.overlayListFree list)
  | .overlayFontLoad d b => d.wf && HostCmd.wf (.overlayFontLoad b)
  | .overlayBind d b => d.wf && HostCmd.wf (.overlayBind b)
  | .overlayUnbind d binding => d.wf && HostCmd.wf (.overlayUnbind binding)
  | .overlayUnbindComplete binding => binding < 128
  | .overlayRun d b => d.wf && HostCmd.wf (.overlayRun b)
  | .overlayStatus d engine => d.wf && HostCmd.wf (.overlayStatus engine)
  | .nop d => d.wf && HostCmd.wf .nop
  | .eventRoute d ring subjectMask attnMask => d.wf && HostCmd.wf (.eventRoute ring subjectMask attnMask)
  | .hostDetach d => d.wf && HostCmd.wf .hostDetach
  | .descriptorReject d kind => d.wf && fits 16 kind
  | .txnBegin d lockstep modules => d.wf && HostCmd.wf (.txnBegin lockstep modules)
  | .txnStage d txn position itemCount itemsLen items => d.wf && HostCmd.wf (.txnStage txn position itemCount itemsLen items)
  | .txnValidate d txn reportLen => d.wf && HostCmd.wf (.txnValidate txn reportLen)
  | .validationResultRx txn position _ _ => fits 16 txn && position < 64
  | .txnCommit d txn applyNs reportLen => d.wf && HostCmd.wf (.txnCommit txn applyNs reportLen)
  | .txnAbort d txn => d.wf && HostCmd.wf (.txnAbort txn)
  | .txnStatus d txn len => d.wf && HostCmd.wf (.txnStatus txn len)
  | .laneCounters d lane => d.wf && HostCmd.wf (.laneCounters lane)
  | .laneTest d lane durationMs farAllows pathBeyond => d.wf && HostCmd.wf (.laneTest lane durationMs farAllows pathBeyond)
  | .laneTestEnd lane _ _ _ => lane < 20
  | .cascadeStatus d => d.wf && HostCmd.wf .cascadeStatus
  | .cascadeRenumber d identity => d.wf && HostCmd.wf (.cascadeRenumber identity)
  | .twinRole d op => d.wf && HostCmd.wf (.twinRole op)
  | .cascadeSleep d => d.wf && HostCmd.wf .cascadeSleep
  | .sleepDrainComplete => true
  | .cascadeWake d => d.wf && HostCmd.wf .cascadeWake
  | .memStatus d => d.wf && HostCmd.wf .memStatus
  | .memRetrain d channel => d.wf && HostCmd.wf (.memRetrain channel)
  | .memRetrainChannelDone channel _ _ _ => channel < 8
  | .memInject d addr devices first => d.wf && HostCmd.wf (.memInject addr devices first)
  | .gateFence d mask poll => d.wf && HostCmd.wf (.gateFence mask poll)
  | .gateFenceComplete => true
  | .gateFaultRead d seq => d.wf && HostCmd.wf (.gateFaultRead seq)
  | .mbxPost d receiver slot msg => d.wf && HostCmd.wf (.mbxPost receiver slot msg)
  | .mbxRead d mask => d.wf && HostCmd.wf (.mbxRead mask)
  | .lockAcquire d lock => d.wf && HostCmd.wf (.lockAcquire lock)
  | .lockRelease d lock => d.wf && HostCmd.wf (.lockRelease lock)
  | .mgmtStatus d => d.wf && HostCmd.wf .mgmtStatus
  | .mgmtMaintenance d enter => d.wf && HostCmd.wf (.mgmtMaintenance enter)
  | .mgmtLogRead d first count pinnedOnly => d.wf && HostCmd.wf (.mgmtLogRead first count pinnedOnly)
  | .mgmtReset d => d.wf && HostCmd.wf .mgmtReset
  | .mgmtLadderTest d step => d.wf && HostCmd.wf (.mgmtLadderTest step)
  | .updateStatus d => d.wf && HostCmd.wf .updateStatus
  | .updateDistribute d source mask staged => d.wf && HostCmd.wf (.updateDistribute source mask staged)
  | .distributionRx p _ => p.source < 64 && p.header.all HeaderBytes.wf
  | .updateActivate d mask activateNs staged => d.wf && HostCmd.wf (.updateActivate mask activateNs staged)
  | .updateHitless d twinHash => d.wf && HostCmd.wf (.updateHitless twinHash false)
  | .updateEngine d streamMask overlayMask => d.wf && HostCmd.wf (.updateEngine streamMask overlayMask)
  | .updateConfirm d => d.wf && HostCmd.wf .updateConfirm
  | .updateRevert d b => d.wf && HostCmd.wf (.updateRevert b)
  | .updateCancel d mask => d.wf && HostCmd.wf (.updateCancel mask)
  | .mgmtEcho slot => slot < 32
  | .mgmtStatusMsg slot => slot < 32
  | .mgmtLogRecord slot => slot < 32
  | .hostRun _ => true
  | .attachFresh _ => true
  | .attachResume => true
  | .attachDetach => true
  | .timeNowRead => true
  | .lockRead lock who => lock < 64 && who.wf
  | .lockWrite lock who _ => lock < 64 && who.wf
  | .mbxDoorbellClear _ => true
  | .dramcMapWrite _ => true
  | .registerWrite offset _ => offset < 0x100000 && offset % 4 = 0 && !ownRow offset
  | .badAccess _ => true
  | .perst => true
  | .functionLevelReset => true
  | .d3hotEntry => true
  | .busMasterClear => true
  | .hostLink _ speed width => speed < 5 && width ≤ 8
  | .doorbellPoll cmdProd cplCons evtCons _ => cmdProd.all (fits 32) && cplCons.all (fits 32) && evtCons.all (fits 32)
  | .statusPageWrite => true
  | .attentionPulse => true
  | .eventQueueDrain => true
  | .forwardedCommandRx origin _ _ c => origin < 64 && c.wf
  | .forwardedResultRx _ position status _ _ => position < 64 && fits 16 status
  | .neighbourRequestRx port lane _ _ => (port < 6 || port = 8 || port = 9 || port = 17) && lane < 4
  | .queryRx port lane _ => port < 6 && lane < 4
  | .opticsChange port _ _ => port < 6
  | .portLink port lane _ => port < 6 && lane < 4
  | .rtpPacketRx p => p.wf
  | .frameCloseDeadline source => source < 8192
  | .senderReportRx port lane _ _ _ => port < 6 && lane < 4
  | .legState source leg => source < 8192 && leg < 2
  | .ingestReleased regionBase => regionBase % 4096 = 0
  | .proxyFrameSend source => source < 8192
  | .announceRx _ => true
  | .delayReqSend => true
  | .offsetMeasurement port _ _ _ _ => port < 6
  | .lockConfirm => true
  | .announceTimeout => true
  | .measurementTimeout => true
  | .uLimit => true
  | .pictureDecodeEnd pipeline _ => pipeline < 8
  | .decodePipelineTimeout pipeline _ => pipeline < 8
  | .decodeLag source => source < 8192
  | .decodeReleased bufBase => bufBase % 4096 = 0
  | .probeCompareDone source => source < 8192
  | .lateTimer source => source < 8192
  | .staleTimer source => source < 8192
  | .lossTimer source => source < 8192
  | .ledgerStateSummary source => source < 8192
  | .verdictUpdateRx _ _ _ entries => entries.all fun e => e.1 < 8192
  | .wholeBitmapSend => true
  | .wholeBitmapRx _ _ _ _ => true
  | .latchPoint group => group < 256
  | .lineComposed head line => head < 64 && fits 16 line
  | .fetchDeadline head layer line _ => head < 64 && layer < 20 && fits 16 line
  | .tailstockPowerUp => true
  | .tailstockRecordWrite _ _ _ => true
  | .swapOrderRx _ head frameNo _ => head < 32 && fits 48 frameNo
  | .lineTokenRx _ _ t => t.wf
  | .idleTokenSend head => head < 64
  | .claimState head _ => head < 32
  | .frameStart head => head < 32
  | .holdLimit head => head < 32
  | .lineDue head l => head < 32 && fits 16 l.line
  | .calipersSelfcheck head value => head < 32 && fits 32 value
  | .holdScrub head line _ => head < 32 && fits 16 line
  | .tailstockEventDelivery => true
  | .hpdConnect head _ => head < 32
  | .hpdDisconnect head => head < 32
  | .irqHpd head _ _ => head < 32
  | .trainingAttemptEnd head _ => head < 32
  | .linkRetry head => head < 32
  | .egressLink port _ => port < 2
  | .frameRefEdge input _ _ => input < 4
  | .refUnlockTimeout group => group < 256
  | .syncPaceTimeout group => group < 256
  | .latchDecisionRx group _ _ => group < 256
  | .returnFrameRx f => f.head < 32 && f.frameNo < 281474976710656
  | .pictureCoded head _ rdLo rdHi => head < 32 && fits 32 rdLo && fits 32 rdHi
  | .recordReleased workBase => workBase % 4096 = 0
  | .overlayRunStart engine => engine < 8
  | .overlayRunEnd engine => engine < 8
  | .overlayRunTimeout engine => engine < 8
  | .overlayNoImageTimeout binding => binding < 128
  | .prepareRx txn => fits 16 txn
  | .voteRx txn position _ _ => fits 16 txn && position < 64
  | .voteTimeout txn => fits 16 txn
  | .commitRx m => fits 16 m.txn
  | .commitResend txn => fits 16 txn
  | .txnApply => true
  | .applyReportRx r => fits 16 r.txn && r.position < 64
  | .cancelPoint txn => fits 16 txn
  | .decisionPoint txn => fits 16 txn
  | .laggardExpiry txn => fits 16 txn
  | .rollbackComplete txn => fits 16 txn
  | .contactLossTimeout => true
  | .sceneGenRx _ => true
  | .laneSlot bond lane => laneOf bond lane
  | .luasinFrameRx bond lane f => laneOf bond lane && f.wf
  | .retxTimeout _ _ => true
  | .ackDue _ _ => true
  | .signalDetect bond lane => laneOf bond lane
  | .trainingComplete bond lane _ => laneOf bond lane
  | .trainingTimeout bond lane => laneOf bond lane
  | .markerLoss bond lane _ => laneOf bond lane
  | .sleepOrderRx _ _ => true
  | .discovery => true
  | .discoveryComplete _ _ => true
  | .presenceSend => true
  | .presenceRx p => p.position < 64
  | .presenceTimeout position => position < 64
  | .beatSend => true
  | .beatRx _ _ => true
  | .delayRequestSend _ => true
  | .delayRequestRx _ _ _ => true
  | .delayResponseRx _ _ _ => true
  | .beatLoss => true
  | .headstockTake => true
  | .twinPairing _ => true
  | .twinLinkLoss => true
  | .twinReportRx _ => true
  | .catchUp _ _ _ _ => true
  | .autoSwapDecision => true
  | .swapInstant => true
  | .memoryAccess a _ => a.wf
  | .scrubStep _ => true
  | .refresh channel sub => channel < 8 && sub < 2
  | .mr4Poll _ => true
  | .refreshWindowEnd channel sub => channel < 8 && sub < 2
  | .rowActivate channel sub bank row _ => channel < 8 && sub < 2 && bank < 16 && row < 65536
  | .zqCalibration => true
  | .dqsOscillator channel _ _ => channel < 8
  | .gateAccess gate a => gate < 9 && a.wf
  | .sensorSample values => values.all fun p => p.1 < 35
  | .sensorLimitHeld sensor => sensor < 35
  | .governorEvaluation _ _ => true
  | .thermalShed => true
  | .paceShort => true
  | .watchdogExpiry _ => true
  | .lockstepMismatch => true
  | .logSuppressed => true
  | .inletPresent inlet _ => inlet < 2
  | .inletLost inlet _ => inlet < 2
  | .holdupEnd => true
  | .keepaliveLow => true
  | .sysReset => true
  | .wake => true
  | .shutdown => true
  | .shutdownDrainComplete => true
  | .shutdownRelease _ => true
  | .serviceEn _ => true
  | .strapCheck _ _ => true
  | .managementPowerUp _ _ => true
  | .startingComplete _ => true
  | .wakeComplete => true
  | .serviceConnect => true
  | .serviceHello => true
  | .serviceBegin h => h.wf
  | .serviceData _ => true
  | .serviceEnd _ => true
  | .serviceAbort => true
  | .serviceStallTimeout => true
  | .activationInstant _ => true
  | .activationSetup => true
  | .hitlessSwapDecision _ => true
  | .hitlessTimeout => true
  | .engineStreamMove engine => engine < 32
  | .sysResetRelease _ => true
  | .serviceDisconnect => true
  | .managementRestartComplete => true
  | .commandResetTimer _ => true
  | .headstockServiceReady => true
  | .validationRequestRx txn => fits 16 txn
  | .txnAbortRx txn => fits 16 txn
  | .keepaliveCurrentLimit _ _ _ => true
  | .hostCompletionTimeout _ => true

end Sys2Proof
end

