-- ==== Sys2Proof/Tests/Slice0.lean ====
section
/-! SUPPORT. Tests of the model: small states on which one command runs, ill-formed terms that the checks refuse, and, for every
statement with hypotheses, concrete states and operands that meet them. -/

namespace Sys2Proof.Machine

set_option Elab.async false

open Sys2Proof

/-! ## Small states -/

/-- A ring table of one command, one completion and one event ring. -/
def tab : RingTable :=
  { version := 1, doorbellAddr := 0x10000, statusAddr := 0x11000, cmd := [⟨0x12000, 4, 0, 0⟩], cpl := [⟨0x13000, 4⟩],
    evt := [⟨0x14000, 6, 0x7FFF, 0⟩], rz := true }

/-- A module in a state, with a host attached and one command waiting in its ring. -/
def st (m : ModState) : State :=
  { State.reset with
    module := { ModuleSt.init with mode := m }
    host := { HostSt.init with
      attached := true, run := true, table := some tab, tableLo := 0x8000, tableAddr := 0x8000, cmdProd := [(0, 1)] } }

/-- The module in RUN. -/
def S : State := st .run

/-- A descriptor to the module itself. -/
def D : Desc :=
  { ring := 0, attn := false, attnErr := false, fence := false, quiet := false, target := 0xFF, version := 1, rz := true, tag := 0,
    buf := 0x20000, dmaOk := true }

/-- A command in flight. -/
def K : Ticket :=
  { kind := 0x0200, ring := 0, index := 0, attn := false, attnErr := false, quiet := false, tag := 0, buf := 0x20000, dmaOk := true,
    origin := none }

theorem noSome {α : Type} {o : Option α} {a : α} {p : Prop} (h : o = some a) (hn : o = none) : p := by
  rw [hn] at h; cases h

theorem oneSome {α : Type} {o : Option α} {a b : α} {p : α → Prop} (h : o = some b) (ho : o = some a) (hp : p a) : p b := by
  rw [ho] at h; cases h; exact hp
/-- No host attached. -/
def Z : State := { S with host := { S.host with attached := false, resumable := true } }

/-- The body of an image: 64 bytes of 0. -/
def BD : List Byte := List.replicate 64 0

/-- Its header: a section of each kind, each of 16 bytes. -/
def CO : Colilo :=
  { magicOk := true, headerVersion := 1, headerLen := 512, hwType := Config.part, minSilicon := 0, minBoard := 0, unitBound := false,
    unitSerial := 0, version := 2, rollback := 0, bodyLen := 64
    bodyHash := 30334702620541708233068840246882664934508709824285226380053429148374846699039935794600759691214866685016028474695358
    sectionCount := 4, keyId := 0
    sections := [⟨1, false, 0, 16, 1114675946⟩, ⟨2, false, 16, 16, 1114675946⟩, ⟨3, true, 32, 16, 1114675946⟩, ⟨4, true, 48, 16, 1114675946⟩]
    sigOk := true, rz := true }

/-- The image. -/
def IM : Image := { head := CO, body := BD }

/-- Both banks with that image, in an update phase. -/
def upd (p : Phase) : UpdateSt := { UpdateSt.init with phase := p, bankA := some IM, bankB := some IM, rollback := 0 }

/-- What the boot finds. -/
def BF (a b : Bool) : BootFacts := { masterSel := true, sideB := false, bankAOk := a, bankBOk := b }

/-- SETUP, the run lock open. -/
def U : State := { st .setup with host := { S.host with run := false } }
/-- The time known, well after power-up. -/
def tm (s : State) : State :=
  { s with
    time := { TimeSt.init with wall := 2000000000000, mono := 2000000000000, tRef := some 1999000000000, servo := .locked } }

/-- A NETWORK source that has received content. -/
def E : Entry :=
  { freeEntry with kind := .network, state := .live, received := true, cls := 1, expectUs := 40000, lossMs := 1000, staleMs := 1000, freezeK := 2 }

/-- Source 7 in the ledger. -/
def led (e : Entry) : State := { tm S with ledger := { LedgerSt.init with entries := [(7, e)] } }

/-- The parameters of a compressed stream with one leg. -/
def P1 : IngestParams :=
  { media := 1, timingMode := 0, legCount := 1, payloadType := 96, width := 0, height := 0, rateNum := 25, rateDen := 1, sampling := 0,
    colorimetry := 0, range := 0, packing := 0, rtpClockHz := 90000, peakMbps := 20, jitterUs := 0, frameSlots := 0, freshExtId := 0,
    srcUNs := 0, srUNs := 0, driftPpm := 0, latencyNs := 0, rz := true, legB := default,
    legA := { group := 0xE8000001, source := 0x0A000002, udpPort := 5000, port := 0, lane := 0, ssrc := 7, ipv6 := false,
              checkSsrc := true } }

/-- The parameters of an uncompressed stream. -/
def P0 : IngestParams := { P1 with media := 0, width := 64, height := 64, frameSlots := 3 }

/-- The body of an INGEST_OPEN of source 7. -/
def OB (p : IngestParams) : IngestOpenBody :=
  { source := 7, paramLen := 256, regionBase := 0x10000000, regionSize := 0x1000000, params := p }

/-- A stream just opened. -/
def X (p : IngestParams) : Stream := newStream (OB p) 0 0

/-- An ingest port with one interface up. -/
def port0 : IngestPort :=
  { IngestPort.init with
    mode := 1, lanes := [(0, { Lane.init with ipv4En := true, ipv4 := 0x0A000001, ipv4Prefix := 24, linkUp := true })] }

/-- Port 0 configured, and source 7 with a stream where one is given. -/
def ing (x : List (Nat × Stream)) : State := { led E with ingest := { IngestSt.init with ports := [(0, port0)], streams := x } }

/-- A packet of that stream. -/
def PK : RtpPacket :=
  { port := 0, lane := 0, frameLen := 1000, tags := [], ipv6 := false, group := 0xE8000001, source := 0x0A000002, udpPort := 5000, ssrc := 7,
    payloadType := 96, seq := 1, extSeq := 0, ts := 0, marker := false, element := none, segments := [], form := .single, nals := [] }

/-- The first leg of a stream. -/
def L0 : LegRt := newLeg P1.legA 0

/-- An open frame. -/
def F0 : OpenFrame :=
  { ts := 0, firstNs := 0, firstMono := 0, report := none, utc := none, markerSeq := none, packets := [], elements := [], segments := [], nals := [] }

/-- The body of a DECODE_ATTACH of source 7. -/
def AB : AttachBody :=
  { source := 7, codec := 1, pipeline := 0, maxWidth := 1920, maxHeight := 1080, maxRateMhz := 25000, maxBitrateKbps := 8000,
    maxBitDepth := 8, dpbSlots := 6, policy := 0, maxConcealPct := 100, bufBase := 0x40000000, bufSize := 0x10000000 }

/-- Source 7 attached to pipeline 0. -/
def A0 : Attach := newAttach AB 0

/-- An access unit. -/
def AU : AccessUnit :=
  { number := 1, order := 0, ts := 0, addr := 0, bytes := 10, origin := none, raw := none, complete := true, units := [[2, 1]], element := none,
    fields := [], deliveredNs := 0 }

/-- Source 7 with its stream and attachment; pipeline 0 as given. -/
def dec (a : Attach) (p : Pipeline) (l : List AccessUnit) : State :=
  { ing [(7, { X P1 with units := l })] with decode := { DecodeSt.init with attached := [(7, a)], pipelines := [(0, p)] } }

/-- What a sequence parameter set says. -/
def X1 : SpsInfo :=
  { width := 1920, height := 1080, bitDepth := 8, rateMhz := 25000, maxDpb := 4, reorder := 0, latency := 0, profile := 1, tier := 0, level := 120,
    chroma := 1, ctu := 64, constrained := false, fieldSeq := false, frameMbsOnly := true, colour := none }

/-- The access unit in decode. -/
def IND : InDecode := { source := 7, slot := 0, startNs := 1999999999000, unit := AU, fresh := false, refused := false, poisoned := false }

/-- The same with an IDR picture. -/
def INI : InDecode := { IND with unit := { AU with units := [[38, 1]] } }

/-- Pipeline 0 at work on an access unit. -/
def busyPipe : Pipeline := { current := some IND, selftest := none }

/-- The syntax of a picture that decodes without fault. -/
def PR : PicFacts :=
  { sets := [.pps 0 0 false], pps := 0, poc := 0, output := true, noPrior := false, aso := false, slices := [], refs := [], keeps := [], hash := none }

/-- A proxy of source 7. -/
def prx : Proxy :=
  { body := { source := 7, port := 0, lane := 0, udpPort := 6000, dscp := 0, payloadType := 96, ssrc := 9, ipv6 := false,
              group := 0xE8000002 }
    sending := true, seq := 0, queue := [] }

/-- A picture that the proxy is to carry. -/
def PF : ProxyFrame := { origin := ⟨1999999000000, 0⟩, decodedNs := 0, width := 64, height := 2, lines := [] }

/-- A ledger body of source 7. -/
def LB (kind : Nat) : LedgerBody :=
  { source := 7, kind := kind, cls := 1, expectUs := 40000, lossMs := 0, staleMs := 1000, parent := 0, field := 0, staticDesign := false }
/-- A surface of 16 by 16 pixels with two images. -/
def SB : SurfaceBody :=
  { surface := 9, format := 0, imageCount := 2, width := 16, height := 16, pitch := 256, imageStride := 4096, base := 0x10000000,
    colorimetry := 0, range := 0 }

/-- It registered. -/
def SF : Surface :=
  { body := SB, newest := none, newestNs := 0, before := none, retiring := none, active := [], reading := [], waiting := [], lastFrame := 0,
    lastNs := 0 }

/-- An upload of one pixel. -/
def UB : UploadBody := { surface := 9, image := 0, present := true, noWait := false, rect := ⟨0, 0, 1, 1⟩, hostPitch := 16, data := [1, 2, 3, 4] }

/-- Surfaces, among what composition holds. -/
def srf (x : Surface) : State := { tm S with compose := { ComposeSt.init with surfaces := [(9, x)] } }

/-- A small raster: 4 by 2 pixels active. -/
def T4 : HeadTiming :=
  { enable := 1, syncGroup := 1, format := 0, narrowRange := false, hActive := 4, hFront := 1, hSync := 1, hBack := 1, vActive := 2, vFront := 1,
    vSync := 1, vBack := 1, rz := true }

/-- A sync group at 60 frames a second. -/
def grp (mode : Nat) : SyncGroup :=
  { groupId := 1, mode := mode, commitHorizon := 2, frameRef := 4, rateNum := 60, rateDen := 1, phaseNs := 0, minRateMhz := 0, paceSource := 0,
    rz := true }

/-- A graphics layer on surface 9. -/
def LY : Layer :=
  { enable := 1, z := 0, content := 2, allowPrescale := false, baseWindow := false, sourceId := 0, surfaceId := 9, frameW := 16, frameH := 16,
    src := ⟨0, 0, 4, 2⟩, dst := ⟨0, 0, 4, 2⟩, window := 0, coeffSet := 0, globalAlpha := 255, rz := true }

/-- A scene of one head in group 1. -/
def HS : HeadScene := { HeadScene.init with timing := T4, layers := [(16, LY)] }

/-- That scene in force, with a group in a mode. -/
def scn (mode : Nat) (g : GroupRt) : State :=
  { srf { SF with newest := some 0 } with
    scene := { SceneSt.init with inForce := { heads := [(0, HS)], groups := [(1, grp mode)], rules := [] } }
    ts := { TsSt.init with groups := [(1, g)], groupRecs := [(1, grp mode)] } }

/-- A composed head. -/
def CH : CompHead := { now := { frame := 3, start := 0, next := 0, scene := HS }, old := none }

/-- What the layer shows. -/
def SH : Shown := { content := .image 9 0, width := 16, height := 16, own := some 0, fields := [], concealed := false, origins := [] }

/-- A head of composition and its graphics layer. -/
def cmp (c : CompHead) (l : LayerRt) : State :=
  { scn 1 GroupRt.init with
    compose := { ComposeSt.init with surfaces := [(9, { SF with newest := some 0 })], heads := [(0, c)], layers := [(layerKey 0 16, l)] } }

/-- Filter phases that pass a sample through. -/
def flat : List Int := (List.replicate 64 [256, 256, 0, 0, 0, 0, 0, 0]).flatten ++ (List.replicate 64 [256, 256, 0, 0, 0, 0]).flatten

/-- A writeback of the head. -/
def WB (mode : Nat) : Writeback :=
  { body := { head := 0, mode := mode, everyN := if mode = 2 then 1 else 0, spans := false, surface := 9 }, ticket := none, writing := [],
    count := 0, stopping := [] }
/-- A grandmaster heard at port 2. -/
def GM : Announce :=
  { port := 2, domain := 127, gmId := 5, priority1 := 1, clockClass := 6, accuracy := 0x21, variance := 0, priority2 := 1,
    stepsRemoved := 0, sender := 5, utcValid := true, utcOffset := 37, intervalMs := 1000 }

/-- The servo running in a state. -/
def srv (v : Servo) : State :=
  { tm S with time := { (tm S).time with ptpEnable := true, servo := v, gm := some GM, lastAnnounceNs := 1999999000000 } }

/-- The internal lanes up. -/
def up : LinkSt :=
  { LinkSt.init with lanes := (bondLanes .toTailstock ++ bondLanes .toMain).map fun k => (k, { LaneRt.init with state := 3 }) }

/-- The same, with that grandmaster heard once before. -/
def srg (v : Servo) : State := { srv v with
    time := { (srv v).time with gm := none, heard := [⟨GM, [1999999500000]⟩] }
    ingest := { IngestSt.init with ports := [(2, port0)] } }

/-- A head of the Tailstock in group 1. -/
def H4 : HeadRt :=
  { HeadRt.init with
    once := { HeadOnce.init with timing := T4 }, onceOther := { HeadOnce.init with timing := T4 }, hstate := 3, frame := some 3 }

/-- Head 0 of the Tailstock, the internal lanes up. -/
def hd (h : HeadRt) : State :=
  { tm S with
    link := up
    ts := { TsSt.init with heads := [(0, h)], groupRecs := [(1, grp 1)], groups := [(1, { GroupRt.init with frame := some 3 })] } }

/-- A sink. -/
def SK : SinkInfo := { maxLinkRate := 3, maxLanes := 4, dpcd := [], edid := [], range := none }

/-- Head 0 with its DisplayPort output record and a sink. -/
def HD : HeadRt :=
  { H4 with
    once := { H4.once with output := .dp { maxLinkRate := 3, maxLanes := 4, adaptiveSync := false, rz := true } }
    hpd := true, sink := some SK, trained := some (4, 3) }

/-- The body of an AUX access. -/
def AX : AuxBody := { head := 0, write := 1, len := 1, addr := 0x300, data := [1], acked := true, readData := [7] }

/-- The body of an EGRESS_PORT_CONFIGURE. -/
def EB : PortBody :=
  { port := 1, lane := 0, mode := 1, fec := 0, vlan := 0, pcp := 0, ipv4En := true, ipv6En := false, ipv4 := 0x0A000001, ipv4Prefix := 24,
    ipv6 := 0, ipv6Prefix := 0 }

/-- One unbound span of 4 pixels. -/
def SP : Span :=
  { xStart := 0, length := 4, sourceId := 0, window := 0, void := false, unbound := true, held := false, concealed := false, originUs := 0, layer := 0 }

/-- A line of 4 pixels. -/
def px4 : List Rgb := [⟨1, 2, 3⟩, ⟨4, 5, 6⟩, ⟨7, 8, 9⟩, ⟨10, 11, 12⟩]

/-- A line token for frame 3, line 0. -/
def TK : LineToken := { frameNo := 3, line := 0, head := 0, idle := false, claim := ⟨8, 0, 0⟩, spans := [SP], pixels := px4 }

/-- A held line. -/
def HL : HeldLine := { frameNo := 2, side := .own, spans := [SP], pixels := px4, bad := false }

/-- The body of a RECORD_START. -/
def RB : RecordBody :=
  { head := 0, divisor := 2, profile := 1, statsEn := true, qpTarget := 30, qpMax := 40, idrInterval := 60, capKbps := 1000000 / 5,
    ringSize := 1048576, ringAddr := 0x100000, progressAddr := 0x200000, workBase := 0x60000000, workSize := 0x10000000 }

/-- A recording session of the head. -/
def RS : Session := newSession RB (scn 1 GroupRt.init)

/-- A line that the head emits. -/
def LW (k : LineKind) : LineNow :=
  { line := 0, kind := k, spans := [SP], rest := px4, x := 0, out := [], fresh := [], errors := ⟨[], [], [], false, []⟩ }

/-- Recording sessions. -/
def rcd (x : Session) : State := { scn 1 GroupRt.init with record := { RecordSt.init with sessions := [(0, x)] } }

/-- A return frame of head 0. -/
def RH (n : Nat) : ReturnHeader :=
  { frameNo := n, head := 0, state := 3, frameStartNs := 0, claim := 0, composedBy := 0, linesReplayed := 0, width := 4, height := 2,
    plate := false, uUnbounded := false, calUnreliable := false, uUs := 1, scorchedPx := 0, windows := [] }

/-- A session, and a frame of head 0 that has come back. -/
def rcr (x : Session) (n : Nat) : State :=
  { rcd x with ts := { (rcd x).ts with heads := [(0, { HeadRt.init with returned := [(RH n, [])] })] } }

/-- That frame in a slot of the work region. -/
def IF4 (k : Nat) : InputFrame := { slot := k, header := RH 4, missed := false, nEff := 2, arrivedNs := 0 }
/-- A list that fills one pixel. -/
def OL : List Byte := [1, 2, 0, 1, 0, 0, 0, 0, 0, 0, 0, 0, 1, 0, 1, 0, 0, 1, 0, 0, 0, 0, 0, 0]

/-- The body of an OVERLAY_BIND. -/
def BB : BindBody :=
  { binding := 0, engine := 0, trigger := 2, list := 0, surface := 9, present := true, seed := false, notify := false, everyN := 0,
    group := 0, eventSource := 0, eventMask := 0, palette := List.replicate 15 ⟨0, 0, 0, 0⟩ }

/-- A binding without due runs. -/
def B0 : Binding := { body := BB, engine := 0, slots := [], due := [], unbinding := none, stopping := false }

/-- A due run. -/
def DR : DueRun := { order := 0, frame := none, clockNs := none, tickets := [], noWait := false, since := none, lateNs := none }

/-- A run in progress. -/
def RN : Run := { binding := 0, image := 0, newest := none, startNs := 1999999999000, list := OL, slots := [], fonts := [], due := DR }

/-- An engine and its run. -/
def EG (r : Option Run) : Engine := { run := r, presented := 0, skipped := 0, late := 0, superseded := 0, abandoned := [] }

/-- Bindings and engines, with the list loaded and the surface registered. -/
def ovl (b : List (Nat × Binding)) (e : List (Nat × Engine)) : State :=
  { srf SF with overlay := { OverlaySt.init with lists := [(0, OL)], bindings := b, engines := e } }

/-- The same, with the gate open to the binding's runs. -/
def ovg (b : List (Nat × Binding)) (e : List (Nat × Engine)) : State :=
  { ovl b e with gates := { GateSt.init with contexts := [overlayCtx (ovl b e) BB 0] } }

/-- A transaction in a phase. -/
def TX (p : TxnPhase) : Txn :=
  { lockstep := false, parts := [0], phase := p, ticket := none, isCommit := false, reportLen := 64, askedNs := 0, applyNs := none,
    results := [], votes := [], acked := [], outcomes := [], frames := [], used := [], gens := [], groupsOf := [], prepareNs := 0,
    lastSentNs := 0, cancelled := false, stagedGroups := [] }

/-- A transaction whose command waits. -/
def TW (p : TxnPhase) : Txn := { TX p with ticket := some K, isCommit := true, applyNs := some 1999000000000 }

/-- Its part in this module. -/
def PT : PartTxn :=
  { txn := 1, votedYes := true, votedNs := 0, commit := none, groups := [], frames := [], missed := false, applied := false, late := false,
    lostNs := none }

/-- The Headstock with that transaction. -/
def txs (t : Txn) (p : Option PartTxn) : State :=
  { tm S with
    cascade := { CascadeSt.init with headstock := true, posValid := true }
    txn := { TxnSt.init with txns := [(1, t)], lastId := 1, begun := [1], part := p } }

/-- A module that is not the Headstock, with its part. -/
def prt (p : PartTxn) : State := { tm S with txn := { TxnSt.init with part := some p } }

/-- A commit message. -/
def CM (k : CommitKind) : CommitMsg := { txn := 1, kind := k, applyNs := 2000000000000, frames := [] }

/-- A report of an apply. -/
def AR : ApplyReport :=
  { txn := 1, position := 0, applied := true, cancelled := false, rolledBack := false, late := false, frames := [], sceneGen := 1 }

/-- One lane in a state. -/
def lan (k : Nat) (l : LaneRt) : State := { tm S with link := { LinkSt.init with lanes := [(k, l)] } }

/-- A lane in a state. -/
def LN (n : Nat) : LaneRt := { LaneRt.init with state := n }

/-- A frame received. -/
def LF : LuasinFrame :=
  { cls := .control, first := true, last := true, ackKind := 0, lane := 0, seq := 0, claimOrAck := 0, length := 0, crcOk := true,
    runViolation := false, rz := true }

/-- A frame sent and not acknowledged. -/
def SNT : SentFrame := { seq := 0, offset := 0, length := 4, first := true, last := true, body := .update 1 [], sentNs := 0, resends := 0, again := false }

/-- The East bond with what it has sent and owes. -/
def bnd (l : List SentFrame) (a : List (Nat × Nat)) : State :=
  { tm S with
    link := { LinkSt.init with
      lanes := [(0, LN 3)], bonds := [(bondKey .east, { BondRt.init with sent := if l.isEmpty then [] else [(4, l)], acks := a })] } }

/-- A message that waits. -/
def QM (b : Bond) (c : TClass) : QMsg := { bond := b, cls := c, body := .update 1 [], sent := 0, started := false, relay := false, arrived := none }
/-- The cascade as given, in service. -/
def csc (c : CascadeSt) : State := { tm S with cascade := c }

/-- A module known to the Headstock. -/
def MI : ModInfo := { (default : ModInfo) with serial := 9, state := 2, inContact := true, lastNs := 1999000000000, bootCount := 1 }

/-- A twin's identity. -/
def TD : TwinIdent :=
  { part := Config.part, serial := 8, sideB := true, version := 1, identity := some 5, position := some 1, inService := true,
    starting := false, sceneGen := 0, headstock := false }

/-- A twin in a role. -/
def TI (r : Role) : TwinInfo := { ident := TD, role := r, caughtUp := true, mode := 3, sceneGen := 0 }

/-- The cascade state of a pair. -/
def pr (own twin : Role) : CascadeSt :=
  { CascadeSt.init with role := own, twinUp := true, twin := some (TI twin), storedIdentity := some 5, storedPosition := some 0, posValid := true }

/-- A swap decided for a time that has come. -/
def SW : Swap := { atNs := 0, auto := false, hitless := false, ticket := some K }

/-- A module alone in SETUP whose ring is intact. -/
def renState : State := { st .setup with cascade := { CascadeSt.init with ring := .intact } }

theorem renumber_alone : renumberOrder renState = [Config.serial] := by
  unfold renumberOrder
  dsimp only
  generalize h : (List.range _).find? _ = o
  cases o with
  | none => rfl
  | some i =>
    have := List.mem_of_find?_eq_some h
    obtain rfl : i = 0 := by simpa [renState, CascadeSt.init] using this
    rfl

/-- A beat. -/
def BM (kind epoch seq : Nat) : BeatMsg :=
  { kind := kind, hops := 1, origin := 4, westGoing := false, originLocked := true, epoch := epoch, seq := seq, spindleNs := 5, correctionPs := 0 }

/-- A presence report. -/
def PS : Presence := { position := 4, state := 3, twinRole := 0, sceneGen := 1, bootCount := 1, caughtUp := false }

/-- A module that discovery finds. -/
def DM : DiscModule :=
  { serial := 9, masterSel := false, sideB := false, storedIdentity := some 5, storedPosition := some 2, state := 2, twinRole := 0, twinSerial := none }

/-- An item that enables head 0 with no output. -/
def IT : Item := { itemType := 1, clear := false, head := 0, index := 0, bodyLen := 0, rz := true, body := .headTiming T4 }

/-- A message in a slot of the management agent. -/
def mail (m : List Byte) : State :=
  { S with
    mbx := { MbxSt.init with slots := [(slotKey 0 31, { msg := m, sender := 513, full := true, collision := false, senderReset := false })] } }

/-- A log record. -/
def LR : LogRec :=
  { seq := 5, bootCount := 1, wallNs := 0, code := 0x0B80, severity := 1, timeUnknown := true, pinned := false, fromTailstock := false,
    moduleState := 3, scope := .module, scopeId := 0, data := [] }

/-- Management as given, in RUN. -/
def mgt (m : MgmtSt) : State := { tm S with mgmt := m }

/-- A section of that image as its header names it. -/
def SE (kind flags offset : Nat) : List Byte :=
  [BitVec.ofNat 8 kind, BitVec.ofNat 8 flags, 0, 0] ++ leBytes 4 offset ++ leBytes 4 16 ++ leBytes 4 1114675946

/-- The bytes of its header. -/
def HB : HeaderBytes :=
  { bytes := [0x43, 0x4F, 0x4C, 0x49, 0x4C, 0x4F, 0x0D, 0x0A] ++ leBytes 2 1 ++ leBytes 2 512 ++ leBytes 4 0x4D583264 ++ List.replicate 16 0
      ++ leBytes 4 2 ++ leBytes 4 0 ++ leBytes 8 64 ++ beBytes 48 CO.bodyHash ++ [4, 0] ++ List.replicate 14 0
      ++ SE 1 0 0 ++ SE 2 0 16 ++ SE 3 1 32 ++ SE 4 1 48 ++ List.replicate 336 0
    sigOk := true }

/-- What has come of that image. -/
def IB : Inbound := { source := 3, head := CO, body := List.replicate 60 0, lastNs := 0 }

/-- A module in a state with that update state. -/
def ups (m : ModState) (u : UpdateSt) : State := { tm (st m) with update := u }

/-- A module that is the Headstock at position 0, with module 4. -/
def HC : CascadeSt := { CascadeSt.init with headstock := true, posValid := true, modules := [(4, MI)] }

/-- Start-up facts. -/
def SFacts : StartFacts := { dramOk := List.replicate 8 true, lanesUp := [], selfChecksOk := true }

/-- Power as given. -/
def pwr (p : PowerSt) : State := { ups .run (upd .idle) with power := p }

/-- The service port connected, with a transfer or none. -/
def svc (p : Phase) (t : Option Colilo) : State :=
  { ups .run { upd p with connected := true, transfer := t } with power := { PowerSt.init with serviceEn := true } }

/-- A hitless update of this module second. -/
def HL2 : Hitless := { ticket := some K, step := 4, first := false, caughtUpNs := some 0, equalSinceNs := some 0 }

/-- A DRAM access. -/
def AC (w : Bool) : Access :=
  { initiator := ⟨1, 0⟩, ctx := .surface 9, cmdTag := none, addr := 0x10000000, len := 16, write := w, data := if w then List.replicate 16 1 else [] }

/-- Module memory as given. -/
def dram (m : MemSt) : State := { tm S with mem := m }

/-- Gates as given. -/
def gts (g : GateSt) : State := { tm S with gates := g }

/-- The region of surface 9. -/
def RG : ObjRegion := ⟨0x10000000, 4096, true, true, 3, 9⟩

/-- A rule set with two regions that overlap. -/
def RU : RuleSet := { gate := 0, regionCount := 2, regions := [⟨0x10000000, 1, 0x3FF, 0x3FF⟩, ⟨0x10000000, 1, 0x3FF, 0x3FF⟩], rz := true }

/-- The hypotheses of IdleStepAdvancesTime are met. -/
theorem witness_IdleStepAdvancesTime :
    ∃ (s : State), s.pending = [] ∧ (∀ p ∈ s.ts.heads, p.2.line = none) ∧ (∀ p ∈ s.compose.surfaces, p.2.reading = []) :=
  ⟨S, by decide +kernel⟩

/-- The hypotheses of RingCommandsComplete are met. -/
theorem witness_RingCommandsComplete :
    (∃ d, ∃ s : State, Executes d .nop s ∧ d.target = 0xFF) ∧
    (∃ d, ∃ ring, ∃ sub, ∃ att, ∃ s : State, Executes d (.eventRoute ring sub att) s ∧ ring < evtCount s ∧ sub < 0x8000 ∧ att < 0x10000) ∧
    (∃ d, ∃ s : State, Executes d .hostDetach s ∧ s.queue.inFlight = []) ∧
    (∃ d, ∃ s : State, canTake d s = true ∧ commonCheck d .nop s = 0) ∧
    (∃ s : State, s.module.mode ≠ .off ∧ stateServes 0 s = true ∧ s.queue.inFlight.length < Config.maxInFlight ∧ s.queue.inFlight.all
      (fun f => f.origin.isNone) = true) ∧
    (∃ s : State, s.module.mode ≠ .off ∧ Config.maxInFlight ≤ s.queue.inFlight.length) ∧
    (∃ tag, ∃ tk, ∃ target, ∃ r, ∃ s : State, mainUp s = true ∧ mapGet s.queue.forwards tag = some (tk, target) ∧ tk.kind ≠ 0 ∧ tk.kind ≠
      0x0C01 ∧ tk.kind ≠ 0x0C02 ∧ tk.kind ≠ 0x0C07 ∧ tk.origin = none ∧ tk.quiet = false ∧ s.host.attached = true ∧ s.queue.detaching =
      none ∧ cplRingOf s tk.ring = some r) ∧
    (∃ tag, ∃ tk, ∃ r, ∃ s : State, (s.queue.inFlight.find? fun f => f.tag = tag && f.origin.isNone && f.buf != 0) = some tk ∧
      s.host.attached = true ∧ s.queue.detaching = none ∧ cplRingOf s tk.ring = some r) ∧
    (∃ s : State, s.mgmt.restarting = true ∧ s.mgmt.waiting = [] ∧ s.host.attached = false) ∧
    (∃ tk, ∃ r, ∃ s : State, s.mgmt.restarting = true ∧ s.mgmt.waiting = [(tk, .mgmtStatus)] ∧ stateServes 0x0B00 s = true ∧
      s.queue.detaching = none ∧ tk.origin = none ∧ tk.dmaOk = true ∧ tk.quiet = false ∧ s.host.attached = true ∧ cplRingOf s tk.ring =
      some r) :=
  ⟨⟨D, S, by decide +kernel⟩,
   ⟨D, 0, 1, 1, S, by decide +kernel⟩,
   ⟨D, S, by decide +kernel⟩,
   ⟨D, S, by decide +kernel⟩,
   ⟨S, by decide +kernel⟩,
   ⟨{ S with queue := { QueueSt.init with inFlight := List.replicate 256 K } }, by decide +kernel⟩,
   ⟨3, K, 2, 0, { S with queue := { QueueSt.init with forwards := [(3, (K, 2))] } }, by decide +kernel⟩,
   ⟨0, K, 0, { S with queue := { QueueSt.init with inFlight := [K] } }, by decide +kernel⟩,
   ⟨{ Z with mgmt := { MgmtSt.init with restarting := true }, update := upd .idle }, by decide +kernel⟩,
   ⟨K, 0, { S with mgmt := { MgmtSt.init with restarting := true, waiting := [(K, .mgmtStatus)] }, update := upd .idle },
     by decide +kernel⟩⟩

/-- The hypotheses of HostRegistersComplete are met. -/
theorem witness_HostRegistersComplete :
    (∃ v : Word32, ∃ s : State, RegOpen hostBar 0x1000 true s ∧ s.module.mode = .setup ∧ s.host.run = false ∧ v.getLsbD 0 = true) ∧
    (∃ table, ∃ s : State, RegOpen hostBar 0x1014 true s ∧ s.host.attached = false ∧ tableOk table = true ∧ tableAddrOf s % 4096 = 0 ∧
      tableAddrOf s ≠ 0) ∧
    (∃ s : State, RegOpen hostBar 0x1014 true s ∧ s.host.attached = false ∧ s.host.resumable = true ∧ tableAddrOf s = s.host.tableAddr) ∧
    (∃ s : State, RegOpen hostBar 0x1014 true s ∧ s.host.attached = true) ∧
    (∃ s : State, bar0Up s = true) ∧
    (∃ s : State, RegOpen hostBar 0x4010 false s) ∧
    (∃ lock, ∃ who, ∃ s : State, lock < 64 ∧ RegOpen who (0x28000 + 4 * lock) true s ∧ mapGet s.mbx.locks lock = some (who.cls * 512 +
      who.index)) ∧
    (∃ s : State, RegOpen hostBar 0x20800 true s) :=
  ⟨⟨1, U, by decide +kernel⟩,
   ⟨tab, Z, by decide +kernel⟩,
   ⟨Z, by decide +kernel⟩,
   ⟨S, by decide +kernel⟩,
   ⟨S, by decide +kernel⟩,
   ⟨S, by decide +kernel⟩,
   ⟨63, hostBar, { S with mbx := { MbxSt.init with locks := [(63, hostBar.cls * 512 + hostBar.index)] } }, by decide +kernel⟩,
   ⟨S, by decide +kernel⟩⟩

/-- The hypotheses of RegisterWritesSetFields are met. -/
theorem witness_RegisterWritesSetFields :
    (∃ s : State, RegOpen hostBar 0x10000 true s ∧ s.host.run = false ∧ s.module.mode = .setup ∧ noRegion s = true) ∧
    (∃ s : State, RegOpen hostBar 0x1004 true s ∧ s.host.run = false) ∧
    (∃ s : State, RegOpen hostBar 0x100C true s) ∧
    (∃ s : State, RegOpen hostBar 0x2000 true s ∧ s.host.run = false) ∧
    (∃ s : State, RegOpen hostBar 0x3000 true s ∧ s.host.run = false) ∧
    (∃ s : State, RegOpen hostBar 0x4008 true s ∧ s.host.run = false) ∧
    (∃ s : State, RegOpen hostBar 0x8018 true s) ∧
    (∃ s : State, RegOpen hostBar 0x20804 true s) ∧
    (∃ o : Nat, ∃ s : State, o % 4 = 0 ∧ o < 0x30000 ∧ runLocked o = true ∧ bar0Up s = true ∧ blockDead o s = false ∧ s.host.run = true) :=
  ⟨⟨U, by decide +kernel⟩,
   ⟨U, by decide +kernel⟩,
   ⟨S, by decide +kernel⟩,
   ⟨U, by decide +kernel⟩,
   ⟨U, by decide +kernel⟩,
   ⟨U, by decide +kernel⟩,
   ⟨S, by decide +kernel⟩,
   ⟨S, by decide +kernel⟩,
   ⟨0x1004, S, by decide +kernel⟩⟩

/-- The hypotheses of HostPortEventsComplete are met. -/
theorem witness_HostPortEventsComplete :
    (∃ s : State, s.host.attached = true) ∧
    (∃ s : State, s.host.attached = true) ∧
    (∃ s : State, s.host.attached = true) ∧
    (∃ s : State, s.host.attached = true) ∧
    (∃ s : State, mainUp s = true ∧ s.host.attached = true) ∧
    (∃ s : State, mainUp s = true ∧ s.host.attached = false) ∧
    (∃ v, ∃ s : State, s.host.attached = true ∧ busy s = false ∧ s.host.stoppedCmd.contains 0 = false ∧ (∀ e, cmdEntry s 0 = some e →
      sub32 v (mapGetD s.host.cmdCons 0 0) ≤ 2 ^ e.sizeLog2) ∧ (cmdEntry s 0).isSome = true) ∧
    (∃ s : State, s.host.attached = true) ∧
    (∃ s : State, s.host.attached = true ∧ busy s = false ∧ s.host.attnEnable = true ∧ s.queue.attnPublished = true ∧ (∀ p,
      s.queue.lastPulseNs = some p → p + (if s.host.attnHoldoffUs < 10 then 10 else s.host.attnHoldoffUs) * 1000 ≤ s.time.mono)) ∧
    (∃ e, ∃ r, ∃ s : State, s.host.attached = true ∧ s.mgmt.restarting = false ∧ s.queue.lostUntold = 0 ∧ s.queue.events = [e] ∧ evtRing
      s e.code = some r ∧ evtRoom s r (evtRecords e.items) = true) :=
  ⟨⟨S, by decide +kernel⟩,
   ⟨S, by decide +kernel⟩,
   ⟨S, by decide +kernel⟩,
   ⟨S, by decide +kernel⟩,
   ⟨S, by decide +kernel⟩,
   ⟨Z, by decide +kernel⟩,
   ⟨16, S, ⟨by decide +kernel, by decide +kernel, by decide +kernel, fun _ h => by cases h; decide, by decide +kernel⟩⟩,
   ⟨S, by decide +kernel⟩,
   ⟨{ S with queue := { QueueSt.init with attnPublished := true } }, ⟨by decide +kernel, by decide +kernel, by decide +kernel,
     by decide +kernel, fun _ h => noSome h rfl⟩⟩,
   ⟨default, 0, { S with queue := { QueueSt.init with events := [default] } }, by decide +kernel⟩⟩

/-- The hypotheses of LocksAdmitOneHolder are met. -/
theorem witness_LocksAdmitOneHolder :
    (∃ lock, ∃ who, ∃ s : State, lock < 64 ∧ RegOpen who (0x28000 + 4 * lock) false s ∧ mapGet s.mbx.locks lock = none) ∧
    (∃ lock, ∃ who, ∃ holder, ∃ s : State, lock < 64 ∧ RegOpen who (0x28000 + 4 * lock) false s ∧ mapGet s.mbx.locks lock = some holder) ∧
    (∃ lock, ∃ a, ∃ b, ∃ s : State, lock < 64 ∧ RegOpen a (0x28000 + 4 * lock) false s ∧ RegOpen b (0x28000 + 4 * lock) false s ∧ mapGet
      s.mbx.locks lock = none) :=
  ⟨⟨63, hostBar, S, by decide +kernel⟩,
   ⟨0, hostBar, 513, { S with mbx := { MbxSt.init with locks := [(0, 513)] } }, by decide +kernel⟩,
   ⟨0, hostBar, ⟨0, 1⟩, S, by decide +kernel⟩⟩

/-- The hypotheses of AddressesMapOneToOne are met. -/
theorem witness_AddressesMapOneToOne :
    (∃ (a : Nat), a < 2 ^ 37) ∧
    (∃ (m : MemSt) (a : Nat) (b : Nat), a < 2 ^ 37 ∧ b < 2 ^ 37 ∧ channelOf m a = channelOf m b ∧ localOf m a = localOf m b) ∧
    (∃ (m : MemSt) (l : Nat) (k : Nat), l < 2 ^ 34 ∧ k < 2 ^ 34 ∧ l % 64 = k % 64 ∧ subOf l = subOf k ∧ columnOf l = columnOf k ∧ bankOf
      m l = bankOf m k ∧ rowOf l = rowOf k) :=
  ⟨⟨0x740001A40, by decide +kernel⟩,
   ⟨MemSt.init, 0x1FFFFFFFFF, 0x1FFFFFFFFF, by decide +kernel⟩,
   ⟨MemSt.init, 0x3FFFFFFFF, 0x3FFFFFFFF, by decide +kernel⟩⟩

/-- The hypotheses of MailboxesAndLocksComplete are met. -/
theorem witness_MailboxesAndLocksComplete :
    (∃ d, ∃ receiver, ∃ slot, ∃ msg, ∃ s : State, Executes d (.mbxPost receiver slot msg) s ∧ receiver ≤ 32 ∧ slot ≤ 31 ∧ d.dmaOk = true
      ∧ serving s receiver = true) ∧
    (∃ d, ∃ receiver, ∃ slot, ∃ msg, ∃ s : State, Executes d (.mbxPost receiver slot msg) s ∧ receiver ≤ 32 ∧ slot ≤ 31 ∧ d.dmaOk = true
      ∧ serving s receiver = false) ∧
    (∃ d, ∃ mask, ∃ s : State, Executes d (.mbxRead mask) s ∧ d.dmaOk = true) ∧
    (∃ d, ∃ lock, ∃ s : State, Executes d (.lockAcquire lock) s ∧ lock < 64) ∧
    (∃ d, ∃ lock, ∃ s : State, Executes d (.lockRelease lock) s ∧ lock < 64 ∧ mapGet s.mbx.locks lock = some 513) :=
  ⟨⟨D, 32, 31, [], S, by decide +kernel⟩,
   ⟨D, 3, 0, [], { S with mbx := { MbxSt.init with notServing := [3] } }, by decide +kernel⟩,
   ⟨D, 1, S, by decide +kernel⟩,
   ⟨D, 63, S, by decide +kernel⟩,
   ⟨D, 63, { S with mbx := { MbxSt.init with locks := [(63, 513)] } }, by decide +kernel⟩⟩

/-- The hypotheses of LedgerEntriesAreSet are met. -/
theorem witness_LedgerEntriesAreSet :
    (∃ d, ∃ b, ∃ s : State, Executes d (.ledgerDefine b) s ∧ ledgerDefineCheck b s = 0) ∧
    (∃ d, ∃ b, ∃ s : State, Executes d (.ledgerSet b) s ∧ ledgerSetCheck b s = 0) ∧
    (∃ d, ∃ k, ∃ s : State, Executes d (.ledgerDelete k) s ∧ ledgerDeleteCheck k s = 0) ∧
    (∃ d, ∃ first, ∃ count, ∃ s : State, Executes d (.ledgerRead first count) s ∧ first + count ≤ 8192 ∧ d.dmaOk = true) :=
  ⟨⟨D, LB 2, S, by decide +kernel⟩,
   ⟨D, { LB 1 with lossMs := 1000 }, led E, by decide +kernel⟩,
   ⟨D, 7, led E, by decide +kernel⟩,
   ⟨D, 8191, 1, S, by decide +kernel⟩⟩

/-- The hypotheses of SourcesChangeState are met. -/
theorem witness_SourcesChangeState :
    (∃ d, ∃ k, ∃ s : State, Executes d (.ledgerWithdraw k true) s ∧ stateCommandCheck k s = 0) ∧
    (∃ d, ∃ k, ∃ s : State, Executes d (.ledgerWithdraw k false) s ∧ stateCommandCheck k s = 0) ∧
    (∃ d, ∃ k, ∃ on, ∃ s : State, Executes d (.ledgerTest k on) s ∧ stateCommandCheck k s = 0) ∧
    (∃ d, ∃ b, ∃ u : Nat, ∃ s : State, Executes d (.ledgerVouch b) s ∧ b.source < 8192 ∧ (entryOf s b.source).kind = .hostFed ∧ b.uNs ≤
      b.asOfNs ∧ uE6 s = some u ∧ b.asOfNs ≤ s.time.wall + b.uNs ∧ (entryOf s b.source).originNs - ((entryOf s b.source).uSrcNs : Int) ≤
      (b.asOfNs : Int) - (b.uNs : Int)) ∧
    (∃ d, ∃ count, ∃ l, ∃ s : State, Executes d (.ledgerVouchBatch count l) s ∧ 1 ≤ count ∧ count ≤ 1024 ∧ l.length = count ∧ d.dmaOk =
      true) ∧
    (∃ d, ∃ k, ∃ enable, ∃ freezeK, ∃ freezeSad, ∃ s : State, Executes d (.ledgerProbe k enable freezeK freezeSad) s ∧ ledgerProbeCheck k
      enable freezeK freezeSad s = 0) ∧
    (∃ k, ∃ s : State, (entryOf s k).received = true ∧ ((entryOf s k).kind = .network ∨ (entryOf s k).kind = .hostFed) ∧ 2 * (entryOf s
      k).expectUs * 1000 + (entryOf s k).rxNs < s.time.wall ∧ ownState (entryOf s k) = .live ∧ (entryOf s k).state = .live) ∧
    (∃ k, ∃ u, ∃ s : State, (entryOf s k).received = true ∧ ((entryOf s k).kind = .network ∨ (entryOf s k).kind = .hostFed) ∧ uE6 s =
      some u ∧ ((entryOf s k).staleMs : Int) * 1000000000000 < ((s.time.wall : Int) - (entryOf s k).originNs + (entryOf s k).uSrcNs) *
      1000000 + u ∧ (ownState (entryOf s k) = .live ∨ ownState (entryOf s k) = .late)) ∧
    (∃ k, ∃ s : State, (entryOf s k).kind = .network ∧ (entryOf s k).pktNs + (entryOf s k).lossMs * 1000000 ≤ s.time.wall ∧ (entryOf s
      k).withdrawn = false ∧ (entryOf s k).cmdTest = false ∧ (entryOf s k).rxTest = false ∧ (entryOf s k).shedLatch = false) ∧
    (∃ k, ∃ s : State, 0 < (entryOf s k).unreported ∧ (entryOf s k).second < s.time.wall / 1000000000) ∧
    (∃ k, ∃ l, ∃ n, ∃ rest, ∃ s : State, (entryOf s k).kind = .network ∧ (entryOf s k).probeLast = some l ∧ (entryOf s k).probeNext = n
      :: rest ∧ mapHas s.record.tests (entryOf s k).probePipe = false ∧ l.width = n.width ∧ l.height = n.height ∧ l.concealed = false ∧
      n.concealed = false) ∧
    (∃ s : State, mainUp s = true ∧ s.cascade.twinUp = false) :=
  ⟨⟨D, 7, led E, by decide +kernel⟩,
   ⟨D, 7, led { E with withdrawn := true }, by decide +kernel⟩,
   ⟨D, 7, true, led E, by decide +kernel⟩,
   ⟨D, { source := 7, test := false, frozen := false, uNs := 0, asOfNs := 1999999000000 }, 2000000000, led { E with kind := .hostFed },
     by decide +kernel⟩,
   ⟨D, 1, [{ source := 7, test := false, frozen := false, uNs := 0, asOfNs := 1999999000000 }], S, by decide +kernel⟩,
   ⟨D, 7, 1, 2, 0, led E, by decide +kernel⟩,
   ⟨7, led E, by decide +kernel⟩,
   ⟨7, 2000000000, led E, by decide +kernel⟩,
   ⟨7, led E, by decide +kernel⟩,
   ⟨7, led { E with unreported := 1 }, by decide +kernel⟩,
   ⟨7, ⟨64, 36, false, []⟩, ⟨64, 36, false, []⟩, [], led
     { E with probeEn := true, probeLast := some ⟨64, 36, false, []⟩, probeNext := [⟨64, 36, false, []⟩] }, by decide +kernel⟩,
   ⟨S, by decide +kernel⟩⟩

/-- The hypotheses of WholeBitmapHoldsEveryVerdict are met. -/
theorem witness_WholeBitmapHoldsEveryVerdict :
    ∃ (k : Nat) (s : State), mapSorted s.ledger.entries = true ∧ (∀ p ∈ s.ledger.entries, p.1 < 8192) ∧ k < 8192 :=
  ⟨8191, led E, by decide +kernel⟩

/-- The hypotheses of PortsAndProxiesAreServed are met. -/
theorem witness_PortsAndProxiesAreServed :
    (∃ d, ∃ b, ∃ s : State, Executes d (.portConfigure b) s ∧ portConfigureCheck b s = 0) ∧
    (∃ port, ∃ what, ∃ s : State, mainUp s = true ∧ port ≤ 5 ∧ what ≤ 2) ∧
    (∃ port, ∃ lane, ∃ l : Lane, ∃ s : State, mainUp s = true ∧ port ≤ 5 ∧ ingestLane s port lane = some l) ∧
    (∃ port, ∃ lane, ∃ mld, ∃ s : State, mainUp s = true ∧ (ingestLane s port lane).isSome = true ∧ (∃ x ∈ mapVals s.ingest.streams, ∃ l
      ∈ x.legs, l.leg.port = port ∧ l.leg.lane = lane ∧ l.leg.ipv6 = mld ∧ isMulticast mld l.leg.group = true)) ∧
    (∃ port, ∃ lane, ∃ kind : Nat, ∃ address : Nat, ∃ l : Lane, ∃ s : State, port < 6 ∧ mainUp s = true ∧ kind ≤ 3 ∧ ingestLane s port
      lane = some l ∧ (if kind = 1 ∨ kind = 3 then l.ipv6En = true ∧ l.ipv6 = address else l.ipv4En = true ∧ l.ipv4 = address)) ∧
    (∃ d, ∃ b, ∃ s : State, Executes d (.proxyOpen b) s ∧ proxyOpenCheck b s = 0) ∧
    (∃ d, ∃ k, ∃ p : Proxy, ∃ s : State, Executes d (.proxyClose k) s ∧ mapGet s.ingest.proxies k = some p) ∧
    (∃ k, ∃ p : Proxy, ∃ f : ProxyFrame, ∃ rest, ∃ l : Lane, ∃ u, ∃ s : State, mapGet s.ingest.proxies k = some p ∧ p.queue = f :: rest ∧
      uNs s = some u ∧ ingestLane s p.body.port p.body.lane = some l ∧ p.sending = true ∧ s.mgmt.step < 2 ∧ mainUp s = true ∧ verdictOf
      (entryOf s k) = true) ∧
    (∃ k, ∃ p : Proxy, ∃ f : ProxyFrame, ∃ rest, ∃ s : State, mapGet s.ingest.proxies k = some p ∧ p.queue = f :: rest ∧ verdictOf
      (entryOf s k) = false) :=
  ⟨⟨D,
     { port := 0, lane := 0, mode := 1, fec := 0, vlan := 0, pcp := 0, ipv4En := true, ipv6En := false, ipv4 := 0x0A000001, ipv4Prefix := 24, ipv6 := 0, ipv6Prefix := 0 },
     S, by decide +kernel⟩,
   ⟨5, 2, S, by decide +kernel⟩,
   ⟨0, 0, { Lane.init with ipv4En := true, ipv4 := 0x0A000001, ipv4Prefix := 24, linkUp := true }, ing [], by decide +kernel⟩,
   ⟨0, 0, false, ing [(7, X P1)], by decide +kernel⟩,
   ⟨0, 0, 0, 0x0A000001, { Lane.init with ipv4En := true, ipv4 := 0x0A000001, ipv4Prefix := 24, linkUp := true }, ing [],
     by decide +kernel⟩,
   ⟨D, prx.body, dec A0 busyPipe [], by decide +kernel⟩,
   ⟨D, 7, prx, { ing [] with ingest := { (ing []).ingest with proxies := [(7, prx)] } }, by decide +kernel⟩,
   ⟨7, { prx with queue := [PF] }, PF, [], { Lane.init with ipv4En := true, ipv4 := 0x0A000001, ipv4Prefix := 24, linkUp := true }, 2000,
     { ing [] with ingest := { (ing []).ingest with proxies := [(7, { prx with queue := [PF] })] } }, by decide +kernel⟩,
   ⟨7, { prx with queue := [PF] }, PF, [],
     { led { E with state := .lost } with ingest := { (ing []).ingest with proxies := [(7, { prx with queue := [PF] })] } },
     by decide +kernel⟩⟩

/-- The hypotheses of StreamsOpenAndClose are met. -/
theorem witness_StreamsOpenAndClose :
    (∃ d, ∃ b, ∃ e, ∃ s : State, Executes d (.ingestOpen b) s ∧ d.dmaOk = true ∧ ingestOpenCheck b s = 0 ∧ placeEngine s b.params = some
      e) ∧
    (∃ d, ∃ k, ∃ x : Stream, ∃ s : State, Executes d (.ingestCounters k) s ∧ d.dmaOk = true ∧ mapGet s.ingest.streams k = some x) ∧
    (∃ d, ∃ k, ∃ abort, ∃ x : Stream, ∃ s : State, Executes d (.ingestClose k abort) s ∧ mapGet s.ingest.streams k = some x ∧ x.closing =
      none ∧ mapGet s.decode.attached k = none) ∧
    (∃ k, ∃ x : Stream, ∃ tk, ∃ r, ∃ s : State, mapGet s.ingest.streams k = some x ∧ x.closing = some tk ∧ mapGet s.decode.attached k =
      none ∧ (entryOf s k).kind = .network ∧ tk.origin = none ∧ tk.quiet = false ∧ s.host.attached = true ∧ cplRingOf s tk.ring = some r) ∧
    (∃ base, ∃ size, ∃ k, ∃ s : State, mapGet s.ingest.guards base = some (size, k) ∧ scansBase s base = false ∧ contextHeld s (.ingest k
      base) = false) :=
  ⟨⟨D, OB P1, 0, ing [], by decide +kernel⟩,
   ⟨D, 7, X P1, ing [(7, X P1)], by decide +kernel⟩,
   ⟨D, 7, false, X P1, ing [(7, X P1)], by decide +kernel⟩,
   ⟨7, { X P1 with closing := some K }, K, 0, ing [(7, { X P1 with closing := some K })], by decide +kernel⟩,
   ⟨0x10000000, 0x1000000, 7, { ing [] with ingest := { (ing []).ingest with guards := [(0x10000000, (0x1000000, 7))] } },
     by decide +kernel⟩⟩

/-- The hypotheses of PacketsMakeFrames are met. -/
theorem witness_PacketsMakeFrames :
    (∃ p, ∃ ln, ∃ k, ∃ x : Stream, ∃ i, ∃ l : LegRt, ∃ s : State, ingestRuns s = true ∧ ingestLane s p.port p.lane = some ln ∧ laneTakes
      ln p = true ∧ streamOf s p = some (k, x, i) ∧ mapGet s.ingest.streams k = some x ∧ x.closing = none ∧ x.stopped = false ∧
      x.legs[i]? = some l ∧ l.leg.checkSsrc = true ∧ p.ssrc ≠ l.leg.ssrc) ∧
    (∃ p, ∃ ln, ∃ k, ∃ x : Stream, ∃ i, ∃ l : LegRt, ∃ c, ∃ s : State, ingestRuns s = true ∧ ingestLane s p.port p.lane = some ln ∧
      laneTakes ln p = true ∧ streamOf s p = some (k, x, i) ∧ mapGet s.ingest.streams k = some x ∧ x.closing = none ∧ x.stopped = false ∧
      x.legs[i]? = some l ∧ (l.leg.checkSsrc = true → p.ssrc = l.leg.ssrc) ∧ mismatch x.params p = some c) ∧
    (∃ p, ∃ ln, ∃ k, ∃ x : Stream, ∃ i, ∃ l : LegRt, ∃ s : State, ingestRuns s = true ∧ ingestLane s p.port p.lane = some ln ∧ laneTakes
      ln p = true ∧ streamOf s p = some (k, x, i) ∧ mapGet s.ingest.streams k = some x ∧ x.closing = none ∧ x.stopped = false ∧
      x.legs[i]? = some l ∧ (l.leg.checkSsrc = true → p.ssrc = l.leg.ssrc) ∧ mismatch x.params p = none ∧ l.lastExt = some (extendSeq x l
      p) ∧ l.ssrc = some p.ssrc ∧ x.heldSeqs.contains (extendSeq x l p) = true) ∧
    (∃ p, ∃ ln, ∃ k, ∃ x : Stream, ∃ i, ∃ l : LegRt, ∃ s : State, ingestRuns s = true ∧ ingestLane s p.port p.lane = some ln ∧ laneTakes
      ln p = true ∧ streamOf s p = some (k, x, i) ∧ mapGet s.ingest.streams k = some x ∧ x.closing = none ∧ x.stopped = false ∧
      x.legs[i]? = some l ∧ (l.leg.checkSsrc = true → p.ssrc = l.leg.ssrc) ∧ mismatch x.params p = none ∧ l.lastExt = none ∧ l.ssrc =
      none ∧ x.heldSeqs = [] ∧ x.open_ = [] ∧ x.closedTs = [] ∧ p.marker = false) ∧
    (∃ k, ∃ x : Stream, ∃ f : OpenFrame, ∃ s : State, ingestRuns s = true ∧ mapGet s.ingest.streams k = some x ∧ x.open_ = [f] ∧
      x.params.media = 0 ∧ frameComplete x f = false ∧ f.firstMono + (jitterUs x.params * 1000 + (if x.params.legCount = 2 then 50000000
      else 0)) ≤ s.time.mono) ∧
    (∃ k, ∃ x : Stream, ∃ f : OpenFrame, ∃ s : State, ingestRuns s = true ∧ mapGet s.ingest.streams k = some x ∧ x.open_ = [f] ∧
      x.params.media = 0 ∧ frameComplete x f = true ∧ f.firstMono + (jitterUs x.params * 1000 + (if x.params.legCount = 2 then 50000000
      else 0)) ≤ s.time.mono) ∧
    (∃ k, ∃ x : Stream, ∃ s : State, ingestRuns s = true ∧ mapGet s.ingest.streams k = some x) ∧
    (∃ k, ∃ leg : Nat, ∃ x : Stream, ∃ l : LegRt, ∃ s : State, mapGet s.ingest.streams k = some x ∧ x.legs[leg]? = some l ∧ l.silent =
      false ∧ l.lastNs + 100000000 ≤ s.time.mono) :=
  ⟨⟨{ PK with ssrc := 8 }, { Lane.init with ipv4En := true, ipv4 := 0x0A000001, ipv4Prefix := 24, linkUp := true }, 7, X P1, 0, L0, ing
     [(7, X P1)], by decide +kernel⟩,
   ⟨{ PK with payloadType := 97 }, { Lane.init with ipv4En := true, ipv4 := 0x0A000001, ipv4Prefix := 24, linkUp := true }, 7, X P1, 0,
     L0, 0, ing [(7, X P1)], by decide +kernel⟩,
   ⟨PK, { Lane.init with ipv4En := true, ipv4 := 0x0A000001, ipv4Prefix := 24, linkUp := true }, 7,
     { X P1 with legs := [{ L0 with lastExt := some 1, ssrc := some 7 }], heldSeqs := [1] }, 0,
     { L0 with lastExt := some 1, ssrc := some 7 }, ing [(7,
     { X P1 with legs := [{ L0 with lastExt := some 1, ssrc := some 7 }], heldSeqs := [1] })], by decide +kernel⟩,
   ⟨PK, { Lane.init with ipv4En := true, ipv4 := 0x0A000001, ipv4Prefix := 24, linkUp := true }, 7, X P1, 0, L0, ing [(7, X P1)],
     by decide +kernel⟩,
   ⟨7, { X P0 with open_ := [F0] }, F0, ing [(7, { X P0 with open_ := [F0] })], by decide +kernel⟩,
   ⟨7, { X P0 with open_ := [{ F0 with markerSeq := some 1, packets := [1] }], heldSeqs := [1, 0] },
     { F0 with markerSeq := some 1, packets := [1] }, ing [(7,
     { X P0 with open_ := [{ F0 with markerSeq := some 1, packets := [1] }], heldSeqs := [1, 0] })], by decide +kernel⟩,
   ⟨7, X P1, ing [(7, X P1)], by decide +kernel⟩,
   ⟨7, 0, X P1, L0, ing [(7, X P1)], by decide +kernel⟩⟩

/-- The hypotheses of AttachmentsStartAndEnd are met. -/
theorem witness_AttachmentsStartAndEnd :
    (∃ d, ∃ b, ∃ p, ∃ s : State, Executes d (.decodeAttach b) s ∧ attachCheck b s = 0 ∧ placeAttach b s = (0, p) ∧ (waitingUnits s
      b.source) = [] ∧ (∀ a ∈ onPipe s p, waitingUnits s a.1 = [])) ∧
    (∃ d, ∃ k, ∃ policy, ∃ pct, ∃ a : Attach, ∃ s : State, Executes d (.decodePolicy k policy pct) s ∧ policy ≤ 1 ∧ pct ≤ 100 ∧ k < 8192
      ∧ mapGet s.decode.attached k = some a) ∧
    (∃ d, ∃ k, ∃ a : Attach, ∃ s : State, Executes d (.decodeStatus k) s ∧ d.dmaOk = true ∧ mapGet s.decode.attached k = some a) ∧
    (∃ d, ∃ k, ∃ a : Attach, ∃ s : State, Executes d (.decodeDetach k false) s ∧ mapGet s.decode.attached k = some a) ∧
    (∃ k, ∃ a : Attach, ∃ tk, ∃ r, ∃ s : State, mapGet s.decode.attached k = some a ∧ a.draining = true ∧ drained s k a = true ∧ a.held =
      [] ∧ a.byClose = false ∧ a.detachTickets = [tk] ∧ tk.origin = none ∧ tk.quiet = false ∧ s.host.attached = true ∧ cplRingOf s
      tk.ring = some r) ∧
    (∃ base, ∃ size, ∃ k, ∃ s : State, mapGet s.decode.guards base = some (size, k) ∧ scansBase s base = false ∧ contextHeld s (.decode k
      base) = false) :=
  ⟨⟨D, AB, 0, ing [(7, X P1)], by decide +kernel⟩,
   ⟨D, 7, 1, 50, A0, dec A0 busyPipe [], by decide +kernel⟩,
   ⟨D, 7, A0, dec A0 busyPipe [], by decide +kernel⟩,
   ⟨D, 7, A0, dec A0 busyPipe [], by decide +kernel⟩,
   ⟨7, { A0 with draining := true, detachTickets := [K] }, K, 0, dec { A0 with draining := true, detachTickets := [K] }
     { current := none, selftest := none } [], by decide +kernel⟩,
   ⟨0x40000000, 0x10000000, 7, { ing [] with decode := { DecodeSt.init with guards := [(0x40000000, (0x10000000, 7))] } },
     by decide +kernel⟩⟩

/-- The hypotheses of PicturesAreDecoded are met. -/
theorem witness_PicturesAreDecoded :
    (∃ p : Nat, ∃ k : Nat, ∃ c : InDecode, ∃ a : Attach, ∃ r : PicFacts, ∃ i : Nat, ∃ fmo : Bool, ∃ x : SpsInfo, ∃ f : Nat, ∃ s : State,
      mapGet s.decode.attached k = some a ∧ c.source = k ∧ mapGet s.decode.pipelines p = some { current := some c, selftest := none } ∧
      pipelineTime s p ≤ maxPipelineNs ∧ ppsOf (keepSets a.body.codec r.sets a.sets) r.pps = some (i, fmo) ∧ (if isIrap a.body.codec
      c.unit then spsOf (keepSets a.body.codec r.sets a.sets) i else a.active) = some x ∧ excludedFeature a.body.codec x fmo r = some f ∧
      (∀ q ∈ onPipe s p, waitingUnits s q.1 = [])) ∧
    (∃ p : Nat, ∃ k : Nat, ∃ c : InDecode, ∃ a : Attach, ∃ r : PicFacts, ∃ i : Nat, ∃ fmo : Bool, ∃ x : SpsInfo, ∃ s : State, mapGet
      s.decode.attached k = some a ∧ c.source = k ∧ mapGet s.decode.pipelines p = some { current := some c, selftest := none } ∧
      pipelineTime s p ≤ maxPipelineNs ∧ ppsOf (keepSets a.body.codec r.sets a.sets) r.pps = some (i, fmo) ∧ isIrap a.body.codec c.unit =
      true ∧ spsOf (keepSets a.body.codec r.sets a.sets) i = some x ∧ excludedFeature a.body.codec x fmo r = none ∧ spsLimit a.body x ≠ 0
      ∧ (∀ q ∈ onPipe s p, waitingUnits s q.1 = [])) ∧
    (∃ p : Nat, ∃ k : Nat, ∃ c : InDecode, ∃ a : Attach, ∃ r : PicFacts, ∃ i : Nat, ∃ x : SpsInfo, ∃ s : State, mapGet s.decode.attached
      k = some a ∧ c.source = k ∧ mapGet s.decode.pipelines p = some { current := some c, selftest := none } ∧ pipelineTime s p ≤
      maxPipelineNs ∧ ppsOf (keepSets a.body.codec r.sets a.sets) r.pps = some (i, false) ∧ isIrap a.body.codec c.unit = false ∧ isRasl
      a.body.codec c.unit = false ∧ a.active = some x ∧ excludedFeature a.body.codec x false r = none ∧ c.refused = false ∧ c.poisoned =
      false ∧ a.held = [] ∧ a.concealing = false ∧ r.refs = [] ∧ r.hash = none ∧ r.output = true ∧ x.reorder = 0 ∧ unitLimits
      a.body.codec c.unit r = [] ∧ 0 < ctuTotal x) ∧
    (∃ p : Nat, ∃ k : Nat, ∃ c : InDecode, ∃ a : Attach, ∃ r : PicFacts, ∃ i : Nat, ∃ x : SpsInfo, ∃ s : State, mapGet s.decode.attached
      k = some a ∧ c.source = k ∧ mapGet s.decode.pipelines p = some { current := some c, selftest := none } ∧ maxPipelineNs ≤
      pipelineTime s p ∧ ppsOf (keepSets a.body.codec r.sets a.sets) r.pps = some (i, false) ∧ isIrap a.body.codec c.unit = false ∧
      isRasl a.body.codec c.unit = false ∧ a.active = some x ∧ excludedFeature a.body.codec x false r = none ∧ c.refused = false ∧
      c.poisoned = false ∧ a.held = [] ∧ r.refs = [] ∧ r.hash = none ∧ r.output = true ∧ x.reorder = 0 ∧ unitLimits a.body.codec c.unit r
      = [] ∧ a.body.maxConcealPct = 100) ∧
    (∃ k : Nat, ∃ a : Attach, ∃ u : AccessUnit, ∃ rest, ∃ s : State, mapGet s.decode.attached k = some a ∧ waitingUnits s k = u :: rest ∧
      500000000 < lagOf s k ∧ (pipeOf s a.pipeline).current.isSome = true) ∧
    (∃ k : Nat, ∃ a : Attach, ∃ u : AccessUnit, ∃ rest, ∃ s : State, mapGet s.decode.attached k = some a ∧ waitingUnits s k = u :: rest ∧
      250000000 < lagOf s k ∧ lagOf s k ≤ 500000000 ∧ (pipeOf s a.pipeline).current.isSome = true) ∧
    (∃ d, ∃ p : Nat, ∃ s : State, Executes d (.decodeSelftest p) s ∧ p ≤ 7 ∧ (pipeOf s p).selftest = none ∧ onPipe s p = []) ∧
    (∃ p : Nat, ∃ tk, ∃ r : Nat, ∃ s : State, (pipeOf s p).selftest = some tk ∧ onPipe s p = [] ∧ tk.origin = none ∧ tk.quiet = false ∧
      s.host.attached = true ∧ cplRingOf s tk.ring = some r) :=
  ⟨⟨0, 7, IND, { A0 with active := some { X1 with profile := 4 } }, PR, 0, false, { X1 with profile := 4 }, 1, dec
     { A0 with active := some { X1 with profile := 4 } } busyPipe [], by decide +kernel⟩,
   ⟨0, 7, INI, A0, { PR with sets := [.pps 0 0 false, .sps 0 { X1 with width := 3840 }] }, 0, false, { X1 with width := 3840 }, dec A0
     { current := some INI, selftest := none } [], by decide +kernel⟩,
   ⟨0, 7, IND, { A0 with active := some X1 }, PR, 0, X1, dec { A0 with active := some X1 } busyPipe [], by decide +kernel⟩,
   ⟨0, 7, { IND with startNs := 0 }, { A0 with active := some X1 }, PR, 0, X1, dec { A0 with active := some X1 }
     { current := some { IND with startNs := 0 }, selftest := none } [], by decide +kernel⟩,
   ⟨7, A0, AU, [], dec A0 busyPipe [AU], by decide +kernel⟩,
   ⟨7, A0, { AU with deliveredNs := 1999600000000 }, [], dec A0
     { current := some { IND with unit := { AU with deliveredNs := 1999600000000 } }, selftest := none }
     [{ AU with deliveredNs := 1999600000000 }], by decide +kernel⟩,
   ⟨D, 7, dec A0 busyPipe [], by decide +kernel⟩,
   ⟨3, K, 0, { dec A0 busyPipe [] with decode := { DecodeSt.init with pipelines := [(3, { current := none, selftest := some K })] } },
     by decide +kernel⟩⟩

/-- The hypotheses of SurfacesComplete are met. -/
theorem witness_SurfacesComplete :
    (∃ d, ∃ b : SurfaceBody, ∃ s : State, Executes d (.surfaceRegister b) s ∧ surfaceRegisterCheck b s = 0) ∧
    (∃ d, ∃ b : UploadBody, ∃ x : Surface, ∃ s : State, Executes d (.surfaceUpload b) s ∧ d.dmaOk = true ∧ surfaceOf s b.surface = some x
      ∧ uploadFieldsOk x.body b = true ∧ x.waiting = [] ∧ ¬ (x.newest = some b.image ∧ boundInForce s b.surface = true) ∧ imageHeld s
      b.surface b.image = false) ∧
    (∃ d, ∃ b : UploadBody, ∃ x : Surface, ∃ s : State, Executes d (.surfaceUpload b) s ∧ surfaceOf s b.surface = some x ∧ uploadFieldsOk
      x.body b = true ∧ x.waiting = [] ∧ ¬ (x.newest = some b.image ∧ boundInForce s b.surface = true) ∧ imageHeld s b.surface b.image =
      true ∧ b.noWait = false) ∧
    (∃ k, ∃ x : Surface, ∃ tk, ∃ b : UploadBody, ∃ s : State, surfaceOf s k = some x ∧ x.waiting = [(tk, false, b)] ∧ ¬ (x.newest = some
      b.image ∧ boundInForce s k = true) ∧ imageHeld s k b.image = false ∧ tk.dmaOk = true) ∧
    (∃ k, ∃ x : Surface, ∃ tk, ∃ b : UploadBody, ∃ rest : List (Ticket × UploadBody), ∃ s : State, mapGet s.compose.surfaces k = some x ∧
      x.active = (tk, b) :: rest) ∧
    (∃ d, ∃ b : UploadBody, ∃ x : Surface, ∃ s : State, Executes d (.surfaceRead b) s ∧ d.dmaOk = true ∧ surfaceOf s b.surface = some x ∧
      uploadFieldsOk x.body b = true ∧ x.waiting = []) ∧
    (∃ k, ∃ x : Surface, ∃ b : UploadBody, ∃ tk, ∃ s : State, mapGet s.compose.surfaces k = some x ∧ tk.dmaOk = true ∧ tk.origin = none ∧
      s.mem.poison = [] ∧ s.mem.injected = [] ∧ (∀ l ∈ rectLines x.body b, (gatedRead (dmaOf tk) (.surface k) (tagOf tk) l.1 l.2.1
      s).2.2.1 = false)) ∧
    (∃ d, ∃ k, ∃ x : Surface, ∃ s : State, Executes d (.surfaceRetire k) s ∧ surfaceOf s k = some x ∧ surfaceBound s k = false ∧ (∀ w ∈
      mapVals s.compose.writebacks, w.body.surface ≠ k) ∧ overlayNames s k = false) ∧
    (∃ k, ∃ x : Surface, ∃ tk, ∃ s : State, mapGet s.compose.surfaces k = some x ∧ x.retiring = some tk ∧ x.active = [] ∧ x.reading = []
      ∧ contextHeld s (.surface k) = false ∧ (∀ i < x.body.imageCount, imageHeld s k i = false)) :=
  ⟨⟨D, SB, tm S, by decide +kernel⟩,
   ⟨D, UB, SF, srf SF, by decide +kernel⟩,
   ⟨D, UB, { SF with active := [(K, UB)] },
     { srf { SF with active := [(K, UB)] } with compose := { (srf { SF with active := [(K, UB)] }).compose with writebacks := [(0, { WB 1 with writing := [0] })] } },
     by decide +kernel⟩,
   ⟨9, { SF with waiting := [(K, false, UB)] }, K, UB, srf { SF with waiting := [(K, false, UB)] }, by decide +kernel⟩,
   ⟨9, { SF with active := [(K, UB)] }, K, UB, [], srf { SF with active := [(K, UB)] }, by decide +kernel⟩,
   ⟨D, UB, SF, srf SF, by decide +kernel⟩,
   ⟨9, SF, UB, K, { srf SF with gates := { GateSt.init with contexts := [surfaceCtx SB] } }, by decide +kernel⟩,
   ⟨D, 9, SF, srf SF, by decide +kernel⟩,
   ⟨9, { SF with retiring := some K }, K, srf { SF with retiring := some K }, by decide +kernel⟩⟩

/-- The hypotheses of ComposeCommandsComplete are met. -/
theorem witness_ComposeCommandsComplete :
    (∃ d, ∃ set, ∃ l, ∃ s : State, Executes d (.scalerLoad set l) s ∧ 2 ≤ set ∧ set ≤ 15 ∧ d.dmaOk = true ∧ phasesOk l = true ∧ setNamed
      s set = false) ∧
    (∃ d, ∃ set, ∃ s : State, Executes d (.scalerRead set) s ∧ set ≤ 15 ∧ d.dmaOk = true) ∧
    (∃ d, ∃ h, ∃ s : State, Executes d (.composeStatus h) s ∧ h ≤ 31 ∧ d.dmaOk = true) ∧
    (∃ d, ∃ b, ∃ x : Surface, ∃ s : State, Executes d (.writeback b) s ∧ (b.mode = 1 ∨ b.mode = 2) ∧ writebackCheck b s = 0 ∧ surfaceOf s
      b.surface = some x) ∧
    (∃ d, ∃ b, ∃ w : Writeback, ∃ s : State, Executes d (.writeback b) s ∧ b.mode = 0 ∧ b.everyN = 0 ∧ b.head ≤ 31 ∧ mapGet
      s.compose.writebacks b.head = some w ∧ w.writing = [] ∧ w.ticket = none) ∧
    (∃ h, ∃ w : Writeback, ∃ c : CompHead, ∃ n, ∃ more, ∃ s : State, mapGet s.compose.writebacks h = some w ∧ mapGet s.compose.heads h =
      some c ∧ w.writing = n :: more ∧ (c.now.frame ≠ n ∨ linesLeft c.now = false) ∧ (∀ o, c.old = some o → o.frame ≠ n) ∧ w.stopping =
      [] ∧ w.body.mode = 2) ∧
    (∃ d, ∃ pipe, ∃ s : State, Executes d (.composeSelftest pipe) s ∧ pipe ≤ 127 ∧ s.compose.testTicket = none ∧ (pipeLayers s).length ≤
      pipe) ∧
    (∃ pipe : Nat, ∃ tk, ∃ s : State, s.compose.testTicket = some tk ∧ s.compose.tests = [pipe]) :=
  ⟨⟨D, 15, flat, S, by decide +kernel⟩,
   ⟨D, 15, S, by decide +kernel⟩,
   ⟨D, 31, S, by decide +kernel⟩,
   ⟨D, { (WB 2).body with surface := 9 }, { SF with body := { SB with format := 1, imageCount := 1 } },
     { scn 1 GroupRt.init with scene := { SceneSt.init with inForce := { heads := [(0, { HS with layers := [] })], groups := [(1, grp 1)], rules := [] } }, compose := { ComposeSt.init with surfaces := [(9, { SF with body := { SB with format := 1, imageCount := 1 } })] } },
     by decide +kernel⟩,
   ⟨D, (WB 0).body, WB 2, { tm S with compose := { ComposeSt.init with writebacks := [(0, WB 2)] } }, by decide +kernel⟩,
   ⟨0, { WB 2 with writing := [2] }, CH, 2, [],
     { cmp CH emptyLayerRt with compose := { (cmp CH emptyLayerRt).compose with writebacks := [(0, { WB 2 with writing := [2] })] } },
     by decide +kernel⟩,
   ⟨D, 127, S, by decide +kernel⟩,
   ⟨5, K, { S with compose := { ComposeSt.init with tests := [5], testTicket := some K } }, by decide +kernel⟩⟩

/-- The hypotheses of FramesLatchAndLinesCompose are met. -/
theorem witness_FramesLatchAndLinesCompose :
    (∃ g, ∃ r : SyncGroup, ∃ l : Latch, ∃ s : State, groupRec s g = some r ∧ nextLatch s g r = some l ∧ inService s = true ∧ (paced r =
      false ∨ decides s = true)) ∧
    (∃ g, ∃ n, ∃ r : SyncGroup, ∃ s : State, groupRec s g = some r ∧ inService s = true ∧ paced r = true ∧ decides s = false ∧ (groupRt s
      g).latched ≠ some n) ∧
    (∃ g, ∃ r : SyncGroup, ∃ l : Latch, ∃ s : State, groupRec s g = some r ∧ timeoutLatch s g r = some l ∧ inService s = true ∧ decides s
      = true ∧ s.txn.part = none) ∧
    (∃ h, ∃ line, ∃ c : CompHead, ∃ s : State, mapGet s.compose.heads h = some c ∧ inService s = true ∧ s.mem.channels.any (fun p =>
      p.2.retraining) = false ∧ c.old = none ∧ c.now.next = line ∧ linesLeft c.now = true ∧ linesAhead s c.now line 64 = true) ∧
    (∃ h, ∃ line : Nat, ∃ c : CompHead, ∃ o : CompFrame, ∃ s : State, mapGet s.compose.heads h = some c ∧ inService s = true ∧
      s.mem.channels.any (fun p => p.2.retraining) = false ∧ c.old = some o ∧ o.next = line ∧ linesAhead s o line 64 = true) ∧
    (∃ h, ∃ i, ∃ line, ∃ c : CompHead, ∃ s : State, mapGet s.compose.heads h = some c ∧ inService s = true ∧ c.old = none ∧ (layerRt s h
      i).cur.isSome = true ∧ (layerRt s h i).underrun = none ∧ c.now.next ≤ line ∧ line < c.now.scene.timing.vActive ∧ i < 20 ∧
      linesAhead s c.now line 4 = true) :=
  ⟨⟨1, grp 1, (nextLatch (scn 1 GroupRt.init) 1 (grp 1)).getD ⟨0, 0, 0⟩, scn 1 GroupRt.init, by decide +kernel⟩,
   ⟨1, 4, grp 1,
     { scn 1 GroupRt.init with cascade := { CascadeSt.init with role := .standby, twinUp := true }, ts := { (scn 1 GroupRt.init).ts with twinClaim := some (⟨8, 0, 0⟩, 2000000000000) } },
     by decide +kernel⟩,
   ⟨1, grp 1, (timeoutLatch (scn 1 { GroupRt.init with latched := some 0, frame := some 0 }) 1 (grp 1)).getD ⟨0, 0, 0⟩, scn 1
     { GroupRt.init with latched := some 0, frame := some 0 }, by decide +kernel⟩,
   ⟨0, 0, CH, cmp CH emptyLayerRt, by decide +kernel⟩,
   ⟨0, 1, { CH with old := some ⟨2, 0, 1, HS⟩ }, ⟨2, 0, 1, HS⟩, cmp { CH with old := some ⟨2, 0, 1, HS⟩ } emptyLayerRt,
     by decide +kernel⟩,
   ⟨0, 16, 1, CH, cmp CH { emptyLayerRt with cur := some SH }, by decide +kernel⟩⟩

/-- The hypotheses of LayersSelectTheNewestContent are met. -/
theorem witness_LayersSelectTheNewestContent :
    ∃ g, ∃ r : SyncGroup, ∃ n : Latch, ∃ s : State, groupRec s g = some r ∧ nextLatch s g r = some n ∧ inService s = true ∧ paced r =
      false :=
  ⟨1, grp 2, (nextLatch (scn 2 GroupRt.init) 1 (grp 2)).getD ⟨0, 0, 0⟩, scn 2 GroupRt.init, by decide +kernel⟩

/-- The hypotheses of TheServoDisciplinesTime are met. -/
theorem witness_TheServoDisciplinesTime :
    (∃ a : Announce, ∃ s : State, servoRuns s = true ∧ ptpPort s a.port = true ∧ a.domain = s.time.ptpDomain ∧ a.stepsRemoved < 255 ∧
      s.time.gm = none ∧ selected (hear a s) = some a ∧ (s.time.servo = .unknown ∨ s.time.servo = .holdover)) ∧
    (∃ a : Announce, ∃ s : State, servoRuns s = true ∧ ptpPort s a.port = true ∧ a.domain = s.time.ptpDomain ∧ a.stepsRemoved < 255 ∧
      selected (hear a s) = none) ∧
    (∃ g : Announce, ∃ s : State, s.time.gm = some g ∧ 2 ≤ s.time.announceTimeout ∧ s.time.announceTimeout ≤ 10 ∧ s.time.lastAnnounceNs +
      s.time.announceTimeout * g.intervalMs * 1000000 ≤ s.time.mono) ∧
    (∃ s : State, s.time.servo = .locked ∧ s.time.lastGoodNs + 250000000 ≤ s.time.mono) ∧
    (∃ s : State, s.time.servo = .holdover ∧ uReached s = true) ∧
    (∃ s : State, servoRuns s = true ∧ (s.time.servo = .acquiring ∨ s.time.servo = .locked) ∧ (∀ d n, s.time.delayMs = some d →
      s.time.delayReqNs = some n → n + d * 1000000 ≤ s.time.mono)) ∧
    (∃ (port : Nat) (s : State), servoRuns s = true ∧ gmPort s = port ∧ s.time.servo = .acquiring ∧ s.time.inThreshold + 1 < lockCountOf
      s) ∧
    (∃ (port : Nat) (t1 : Nat) (t2 : Nat) (t3 : Nat) (t4 : Nat) (s : State), servoRuns s = true ∧ gmPort s = port ∧ s.time.servo =
      .acquiring ∧ s.time.inThreshold + 1 = lockCountOf s ∧ inTime s = true ∧ residualOk s s.time.mono ((((t2 : Int) - t1) - ((t4 : Int)
      - t3)) / 2) = true) ∧
    (∃ (port : Nat) (s : State), servoRuns s = true ∧ gmPort s = port ∧ s.time.servo = .locked) ∧
    (∃ s : State, servoRuns s = true ∧ s.time.servo = .locked) ∧
    (∃ s : State, twinDisciplines s = true ∧ (∀ r, s.time.tRef = some r → r + 1000000 < s.time.mono)) :=
  ⟨⟨GM, srg .unknown, by decide +kernel⟩,
   ⟨GM, { srg .unknown with time := { (srg .unknown).time with heard := [] } }, by decide +kernel⟩,
   ⟨GM, { srv .locked with time := { (srv .locked).time with lastAnnounceNs := 0 } }, by decide +kernel⟩,
   ⟨srv .locked, by decide +kernel⟩,
   ⟨{ srv .holdover with time := { (srv .holdover).time with tRef := none } }, by decide +kernel⟩,
   ⟨srv .acquiring, ⟨by decide +kernel, by decide +kernel, fun _ _ h _ => noSome h rfl⟩⟩,
   ⟨2, srv .acquiring, by decide +kernel⟩,
   ⟨2, 10, 20, 30, 40, { srv .acquiring with time := { (srv .acquiring).time with inThreshold := 15, fit := [(0, 0), (1000, 0)] } },
     by decide +kernel⟩,
   ⟨2, srv .locked, by decide +kernel⟩,
   ⟨srv .locked, by decide +kernel⟩,
   ⟨{ tm (st .off) with cascade := { CascadeSt.init with twinUp := true }, time := { (tm S).time with tRef := some 0, mono := 2000000 } },
     ⟨by decide +kernel, fun r h => by cases h; decide +kernel⟩⟩⟩

/-- The hypotheses of HeadCommandsComplete are met. -/
theorem witness_HeadCommandsComplete :
    (∃ d, ∃ key, ∃ s : State, Executes d (.headStatus key) s ∧ key ≤ 31 ∧ d.dmaOk = true) ∧
    (∃ d, ∃ key, ∃ k : SinkInfo, ∃ s : State, Executes d (.headSinkRead key) s ∧ sinkCheck s key = 0 ∧ (headRt s key).sink = some k ∧
      d.dmaOk = true) ∧
    (∃ d, ∃ key, ∃ s : State, Executes d (.headSinkPower key 3) s ∧ sinkCheck s key = 0) ∧
    (∃ d, ∃ key, ∃ k : SinkInfo, ∃ s : State, Executes d (.headSinkPower key 0) s ∧ sinkCheck s key = 0 ∧ (headRt s key).sink = some k ∧
      trainingOrder s (headRt s key) k ≠ []) ∧
    (∃ d, ∃ b : AuxBody, ∃ s : State, Executes d (.headAux b) s ∧ sinkCheck s b.head = 0 ∧ b.write = 1 ∧ 1 ≤ b.len ∧ b.len ≤ 16 ∧ b.addr
      ≤ 0xFFFFF ∧ auxTouches b.addr b.len = false ∧ b.acked = true) ∧
    (∃ d, ∃ b : AuxBody, ∃ s : State, Executes d (.headAux b) s ∧ sinkCheck s b.head = 0 ∧ b.write = 0 ∧ 1 ≤ b.len ∧ b.len ≤ 16 ∧ b.addr
      ≤ 0xFFFFF ∧ b.acked = true ∧ d.dmaOk = true) ∧
    (∃ d, ∃ b : AuxBody, ∃ s : State, Executes d (.headAux b) s ∧ b.head ≤ 15 ∧ b.write = 1 ∧ 1 ≤ b.len ∧ b.len ≤ 16 ∧ b.addr ≤ 0xFFFFF ∧
      auxTouches b.addr b.len = true) ∧
    (∃ d, ∃ b : PortBody, ∃ s : State, Executes d (.egressPortConfigure b) s ∧ egressConfigureCheck b s = 0) :=
  ⟨⟨D, 31, S, by decide +kernel⟩,
   ⟨D, 0, SK, hd HD, by decide +kernel⟩,
   ⟨D, 0, hd HD, by decide +kernel⟩,
   ⟨D, 0, SK, hd HD, by decide +kernel⟩,
   ⟨D, AX, hd HD, by decide +kernel⟩,
   ⟨D, { AX with write := 0 }, hd HD, by decide +kernel⟩,
   ⟨D, { AX with addr := 0x100 }, hd HD, by decide +kernel⟩,
   ⟨D, EB, S, by decide +kernel⟩⟩

/-- The hypotheses of LinksTrainAndReferencesLock are met. -/
theorem witness_LinksTrainAndReferencesLock :
    (∃ key, ∃ s : State, key < 16 ∧ s.ts.powered = true ∧ (headRt s key).hpd = false ∧ s.module.mode ≠ .idleLink) ∧
    (∃ key, ∃ s : State, key < 16 ∧ s.ts.powered = true ∧ (headRt s key).hpd = false ∧ s.module.mode = .idleLink) ∧
    (∃ key, ∃ s : State, key < 16 ∧ s.ts.powered = true ∧ (headRt s key).hpd = true ∧ (headRt s key).hstate ≠ 0 ∧ (headRt s key).hstate ≠
      8) ∧
    (∃ key, ∃ l : Nat × Nat, ∃ k : SinkInfo, ∃ s : State, key < 16 ∧ (headRt s key).hpd = true ∧ headServed s key = true ∧ (headRt s
      key).linkFail = false ∧ (headRt s key).trained = some l ∧ (headRt s key).sinkD3 = false ∧ (headRt s key).sink = some k ∧
      trainingOrder s (headRt s key) k ≠ []) ∧
    (∃ key, ∃ c : Nat × Nat, ∃ rest, ∃ s : State, s.ts.powered = true ∧ (headRt s key).training = true ∧ (headRt s key).trained = none ∧
      (headRt s key).combos = c :: rest) ∧
    (∃ key, ∃ c : Nat × Nat, ∃ n : Nat × Nat, ∃ rest, ∃ s : State, s.ts.powered = true ∧ (headRt s key).training = true ∧ (headRt s
      key).trained = none ∧ (headRt s key).combos = c :: n :: rest) ∧
    (∃ key, ∃ c : Nat × Nat, ∃ s : State, s.ts.powered = true ∧ (headRt s key).training = true ∧ (headRt s key).trained = none ∧ (headRt
      s key).combos = [c]) ∧
    (∃ key, ∃ k : SinkInfo, ∃ s : State, headServed s key = true ∧ (headRt s key).linkFail = true ∧ (headRt s key).hpd = true ∧ (headRt s
      key).failNs + 2000000000 ≤ s.time.mono ∧ (headRt s key).sink = some k ∧ trainingOrder s (headRt s key) k ≠ []) ∧
    (∃ port, ∃ s : State, port ≤ 1 ∧ s.ts.powered = true) ∧
    (∃ input : Nat, ∃ rising, ∃ ns : Nat, ∃ g, ∃ r : SyncGroup, ∃ s : State, s.ts.powered = true ∧ 1000 ≤ ns ∧ mapSorted s.ts.groupRecs =
      true ∧ mapGet s.ts.groupRecs g = some r ∧ r.mode = 3 ∧ r.frameRef % 4 = input ∧ bit r.frameRef 2 = rising ∧ groupShown s g = true ∧
      (groupRt s g).paceNs = none) ∧
    (∃ input : Nat, ∃ rising, ∃ ns : Nat, ∃ g, ∃ r : SyncGroup, ∃ e : Nat, ∃ s : State, s.ts.powered = true ∧ 1000 ≤ ns ∧ s.ts.groupRecs
      = [(g, r)] ∧ r.mode = 2 ∧ r.frameRef % 4 = input ∧ bit r.frameRef 2 = rising ∧ groupShown s g = true ∧ (groupRt s g).lastEdge =
      some e ∧ (groupRt s g).locked = false ∧ periodOk r (s.time.mono / 10 * 10 - e) = true) ∧
    (∃ g, ∃ r : SyncGroup, ∃ e : Nat, ∃ s : State, mapGet s.ts.groupRecs g = some r ∧ r.mode = 2 ∧ (groupRt s g).locked = true ∧ (groupRt
      s g).lastEdge = some e ∧ 3 * 1000000000 * r.rateDen ≤ (s.time.mono - e) * r.rateNum) :=
  ⟨⟨15, hd H4, by decide +kernel⟩,
   ⟨0, { hd H4 with module := { ModuleSt.init with mode := .idleLink } }, by decide +kernel⟩,
   ⟨0, hd HD, by decide +kernel⟩,
   ⟨0, (4, 3), SK, hd HD, by decide +kernel⟩,
   ⟨0, (4, 3), [], hd { HD with training := true, trained := none, combos := [(4, 3)] }, by decide +kernel⟩,
   ⟨0, (4, 3), (2, 3), [], hd { HD with training := true, trained := none, combos := [(4, 3), (2, 3)] }, by decide +kernel⟩,
   ⟨0, (4, 3), hd { HD with training := true, trained := none, combos := [(4, 3)] }, by decide +kernel⟩,
   ⟨0, SK, hd { HD with linkFail := true }, by decide +kernel⟩,
   ⟨1, S, by decide +kernel⟩,
   ⟨0, true, 1000, 1, grp 3, { scn 3 GroupRt.init with ts := { (scn 3 GroupRt.init).ts with heads := [(0, H4)] } }, by decide +kernel⟩,
   ⟨0, true, 1000, 1, grp 2, 1999983333330,
     { scn 2 GroupRt.init with ts := { TsSt.init with heads := [(0, H4)], groupRecs := [(1, grp 2)], groups := [(1, { GroupRt.init with lastEdge := some 1999983333330 })] } },
     by decide +kernel⟩,
   ⟨1, grp 2, 1999900000000,
     { scn 2 GroupRt.init with ts := { TsSt.init with groupRecs := [(1, grp 2)], groups := [(1, { GroupRt.init with lastEdge := some 1999900000000, locked := true })] } },
     by decide +kernel⟩⟩

/-- The hypotheses of TailstockCommandsComplete are met. -/
theorem witness_TailstockCommandsComplete :
    (∃ d, ∃ first, ∃ count, ∃ glyphs, ∃ s : State, Executes d (.tailstockGlyphLoad first count glyphs) s ∧ internalUp s = true ∧ 0x80 ≤
      first ∧ 1 ≤ count ∧ first + count ≤ 0xE0 ∧ d.dmaOk = true) ∧
    (∃ d, ∃ key, ∃ s : State, Executes d (.calipersRead key) s ∧ internalUp s = true ∧ key ≤ 31 ∧ d.dmaOk = true) ∧
    (∃ d, ∃ key, ∃ s : State, Executes d (.tailstockStatus key) s ∧ internalUp s = true ∧ key ≤ 31 ∧ d.dmaOk = true) ∧
    (∃ d, ∃ select, ∃ s : State, Executes d (.verdictRead select) s ∧ internalUp s = true ∧ select ≤ 1 ∧ d.dmaOk = true) ∧
    (∃ d, ∃ key, ∃ r : Rect, ∃ s : State, Executes d (.holdRead key r) s ∧ internalUp s = true ∧ key ≤ 31 ∧ 1 ≤ r.w ∧ 1 ≤ r.h ∧ r.x + r.w
      ≤ (headRt s key).once.timing.hActive ∧ r.y + r.h ≤ (headRt s key).once.timing.vActive ∧ d.dmaOk = true) ∧
    (∃ d, ∃ s : State, Executes d .tailstockFontRead s ∧ internalUp s = true ∧ d.dmaOk = true) ∧
    (∃ d, ∃ select, ∃ s : State, Executes d (.verdictRead select) s ∧ internalUp s = false ∧ select ≤ 1) :=
  ⟨⟨D, 0x80, 1, List.replicate 16 1, hd H4, by decide +kernel⟩,
   ⟨D, 31, hd H4, by decide +kernel⟩,
   ⟨D, 31, hd H4, by decide +kernel⟩,
   ⟨D, 1, hd H4, by decide +kernel⟩,
   ⟨D, 0, ⟨0, 0, 4, 2⟩, hd H4, by decide +kernel⟩,
   ⟨D, hd H4, by decide +kernel⟩,
   ⟨D, 1, S, by decide +kernel⟩⟩

/-- The hypotheses of TailstockHoldsVerdictsAndRecords are met. -/
theorem witness_TailstockHoldsVerdictsAndRecords :
    (∃ side, ∃ seq, ∃ k, ∃ s : State, s.ts.powered = true ∧ k < 8192 ∧ seq = ((bitmapOf s side).seq + 1) % 65536) ∧
    (∃ side, ∃ crcOk, ∃ seq, ∃ s : State, s.ts.powered = true ∧ (crcOk = false ∨ seq ≠ ((bitmapOf s side).seq + 1) % 65536)) ∧
    (∃ s : State, s.ts.powered = true) ∧
    (∃ claim : Claim, ∃ key, ∃ i, ∃ s : State, s.ts.powered = true ∧ key ≤ 31 ∧ i < 128 ∧ claim.priority ≠ 0) ∧
    (∃ claim : Claim, ∃ key, ∃ s : State, s.ts.powered = true ∧ key ≤ 31 ∧ claim.priority ≠ 0 ∧ sectionClaim s .twin < claimWord claim) ∧
    (∃ claim : Claim, ∃ key, ∃ s : State, s.ts.powered = true ∧ key ≤ 31 ∧ claimWord claim ≤ sectionClaim s .twin) ∧
    (∃ claim : Claim, ∃ s : State, s.ts.powered = true ∧ claim.priority ≠ 0) ∧
    (∃ key, ∃ frame, ∃ s : State, key ≤ 31 ∧ s.ts.powered = true ∧ (headRt s key).once.timing.enable = 1 ∧ (headRt s
      key).onceOther.timing.syncGroup = (headRt s key).once.timing.syncGroup ∧ (∀ n, (headRt s key).frame = some n → modDiff 48 n frame <
      0)) ∧
    (∃ e : TsEvent, ∃ s : State, mainAccepts s = true ∧ s.ts.events = [e] ∧ s.ts.eventsLost = 0) ∧
    (∃ key, ∃ side, ∃ s : State, key ≤ 31 ∧ s.ts.powered = true ∧ (effClaim s (headRt s key) side != 0) ≠ (sideOf (headRt s key)
      side).toldClaim) :=
  ⟨⟨.own, 1, 8191, S, by decide +kernel⟩,
   ⟨.own, false, 1, S, by decide +kernel⟩,
   ⟨S, by decide +kernel⟩,
   ⟨⟨8, 0, 0⟩, 31, 127, S, by decide +kernel⟩,
   ⟨⟨8, 0, 0⟩, 31, S, by decide +kernel⟩,
   ⟨⟨0, 0, 0⟩, 31, S, by decide +kernel⟩,
   ⟨⟨8, 0, 0⟩, S, by decide +kernel⟩,
   ⟨0, 4, hd H4, ⟨by decide +kernel, by decide +kernel, by decide +kernel, by decide +kernel, fun _ h => by cases h; decide⟩⟩,
   ⟨default, { hd H4 with ts := { TsSt.init with events := [default] } }, by decide +kernel⟩,
   ⟨0, .own, hd { H4 with own := { StreamRt.init with toldClaim := true } }, by decide +kernel⟩⟩

/-- The hypotheses of TokensAndFrameStarts are met. -/
theorem witness_TokensAndFrameStarts :
    (∃ tok : LineToken, ∃ s : State, s.ts.powered = true ∧ tok.head ≤ 31 ∧ tok.claim.high = 0 ∧ tok.idle = true) ∧
    (∃ tok : LineToken, ∃ s : State, s.ts.powered = true ∧ tok.head ≤ 31 ∧ tok.claim.high = 0 ∧ tok.idle = false ∧ linePast s (headRt s
      tok.head) tok = false ∧ (headRt s tok.head).own.ahead = []) ∧
    (∃ tok : LineToken, ∃ s : State, s.ts.powered = true ∧ tok.head ≤ 31 ∧ tok.claim.high = 0 ∧ tok.idle = false ∧ linePast s (headRt s
      tok.head) tok = true) ∧
    (∃ tok : LineToken, ∃ s : State, s.ts.powered = true ∧ tok.head ≤ 31) ∧
    (∃ key, ∃ s : State, inService s = true ∧ key < 64 ∧ headOn s.scene.inForce key = true ∧ (key < 32 ∨ s.cascade.twinUp = true) ∧
      tokenRecent s key = false) ∧
    (∃ key, ∃ f : NextFrame, ∃ s : State, key ≤ 31 ∧ s.ts.powered = true ∧ s.module.mode ≠ .idleLink ∧ nextFrame s (headRt s key) = some
      f ∧ (headRt s key).once.timing.enable = 1 ∧ (headRt s key).own.orders = [] ∧ (headRt s key).twin.orders = [] ∧ (headRt s key).line
      = none) ∧
    (∃ key, ∃ f : NextFrame, ∃ o : SwapOrder, ∃ s : State, key ≤ 31 ∧ s.ts.powered = true ∧ s.module.mode ≠ .idleLink ∧ nextFrame s
      (headRt s key) = some f ∧ (headRt s key).once.timing.enable = 1 ∧ (headRt s key).own.orders = [o] ∧ (headRt s key).twin.orders = []
      ∧ (headRt s key).line = none ∧ 0 ≤ modDiff 48 f.frame o.frame ∧ o.arrivedNs + orderLine s (headRt s key) ≤ f.start ∧ (o.rollback =
      false ∨ (headRt s key).own.kept = true) ∧ (headRt s key).onceOther = (headRt s key).once) ∧
    (∃ key, ∃ s : State, key < 32 ∧ headServed s key = true ∧ (headRt s key).frame.isSome = true ∧ (headRt s key).emitted = [] ∧ (headRt
      s key).line = none ∧ (headRt s key).supply ≠ 5 ∧ lastRxOf (headRt s key) + holdLimitNs (headRt s key) ≤ (headRt s key).startMono) ∧
    (∃ key, ∃ s : State, key ≤ 31 ∧ headServed s key = true) ∧
    (∃ key, ∃ line, ∃ errors, ∃ l : HeldLine, ∃ s : State, mapGet (headRt s key).hold line = some l ∧ 2 ≤ errors ∧ s.ts.powered = true) :=
  ⟨⟨{ TK with idle := true }, hd H4, by decide +kernel⟩,
   ⟨{ TK with frameNo := 4 }, hd H4, by decide +kernel⟩,
   ⟨TK, hd H4, by decide +kernel⟩,
   ⟨TK, hd H4, by decide +kernel⟩,
   ⟨0, scn 1 GroupRt.init, by decide +kernel⟩,
   ⟨0, (nextFrame (hd H4) H4).getD ⟨1, 4, 0, 0, 0, true⟩, hd H4, by decide +kernel⟩,
   ⟨0, (nextFrame (hd H4) H4).getD ⟨1, 4, 0, 0, 0, true⟩, ⟨4, false, 0, false⟩, hd
     { H4 with own := { StreamRt.init with orders := [⟨4, false, 0, false⟩] } }, by decide +kernel⟩,
   ⟨0, hd { H4 with startMono := 2000000000000 }, by decide +kernel⟩,
   ⟨0, hd H4, by decide +kernel⟩,
   ⟨0, 0, 2, HL, hd { H4 with hold := [(0, HL)] }, by decide +kernel⟩⟩

/-- The hypotheses of LinesDueAreEmitted are met. -/
theorem witness_LinesDueAreEmitted :
    (∃ key : Nat, ∃ line : Nat, ∃ n : Nat, ∃ s : State, key ≤ 31 ∧ headServed s key = true ∧ (headRt s key).frame = some n ∧ (headRt s
      key).line = none ∧ line < (headRt s key).once.timing.vActive ∧ mapHas (headRt s key).emitted line = false ∧ pixelTime s key (headRt
      s key) line 0 ≤ s.time.mono ∧ (headRt s key).supply = 5) ∧
    (∃ key : Nat, ∃ line : Nat, ∃ n : Nat, ∃ d : Side, ∃ tok : LineToken, ∃ s : State, key ≤ 31 ∧ headServed s key = true ∧ (headRt s
      key).frame = some n ∧ (headRt s key).line = none ∧ line < (headRt s key).once.timing.vActive ∧ mapHas (headRt s key).emitted line =
      false ∧ pixelTime s key (headRt s key) line 0 ≤ s.time.mono ∧ (headRt s key).supply ≠ 5 ∧ (headRt s key).passed = some d ∧
      linePresent (headRt s key) d n line (pixelTime s key (headRt s key) line 0) = some tok ∧ spansOk (headRt s key).once.timing.hActive
      tok.spans = true ∧ tok.pixels.length = (headRt s key).once.timing.hActive) ∧
    (∃ key : Nat, ∃ line : Nat, ∃ n : Nat, ∃ l : HeldLine, ∃ s : State, key ≤ 31 ∧ headServed s key = true ∧ (headRt s key).frame = some
      n ∧ (headRt s key).line = none ∧ line < (headRt s key).once.timing.vActive ∧ mapHas (headRt s key).emitted line = false ∧ pixelTime
      s key (headRt s key) line 0 ≤ s.time.mono ∧ (headRt s key).supply ≠ 5 ∧ (∀ d, (headRt s key).passed = some d → linePresent (headRt
      s key) d n line (pixelTime s key (headRt s key) line 0) = none) ∧ mapGet (headRt s key).hold line = some l ∧ l.bad = false) ∧
    (∃ key : Nat, ∃ line : Nat, ∃ n : Nat, ∃ s : State, key ≤ 31 ∧ headServed s key = true ∧ (headRt s key).frame = some n ∧ (headRt s
      key).line = none ∧ line < (headRt s key).once.timing.vActive ∧ mapHas (headRt s key).emitted line = false ∧ pixelTime s key (headRt
      s key) line 0 ≤ s.time.mono ∧ (headRt s key).supply ≠ 5 ∧ (∀ d, (headRt s key).passed = some d → linePresent (headRt s key) d n
      line (pixelTime s key (headRt s key) line 0) = none) ∧ (∀ l, mapGet (headRt s key).hold line = some l → l.bad = true)) ∧
    (∃ (n : LineNow), n.kind = .empty) ∧
    (∃ (n : LineNow) (side : Side), n.kind = .held side) :=
  ⟨⟨0, 1, 3, hd { H4 with supply := 5 }, by decide +kernel⟩,
   ⟨0, 0, 3, .own, TK, hd { H4 with startMono := 1000, passed := some .own, own := { StreamRt.init with ahead := [(0, TK)] } },
     by decide +kernel⟩,
   ⟨0, 0, 3, HL, hd { H4 with hold := [(0, HL)] }, ⟨by decide +kernel, by decide +kernel, by decide +kernel, by decide +kernel,
     by decide +kernel, by decide +kernel, by decide +kernel, by decide +kernel, fun _ h => noSome h rfl, by decide +kernel⟩⟩,
   ⟨0, 1, 3, hd { H4 with passed := some .own }, ⟨by decide +kernel, by decide +kernel, by decide +kernel, by decide +kernel,
     by decide +kernel, by decide +kernel, by decide +kernel, by decide +kernel, fun _ h => by cases h; rfl, fun _ h => noSome h rfl⟩⟩,
   ⟨LW .empty, by decide +kernel⟩,
   ⟨LW (.held .own), .own, by decide +kernel⟩⟩

/-- The hypotheses of EveryPixelIsJudged are met. -/
theorem witness_EveryPixelIsJudged :
    (∃ (n : LineNow) (x : Nat) (p : Span), (n.spans.find? fun p => p.xStart ≤ x && x < p.xStart + p.length) = some p) ∧
    (∃ (n : LineNow), (n.kind = .plate ∨ n.kind = .empty)) :=
  ⟨⟨LW (.stream .own), 3, SP, by decide +kernel⟩,
   ⟨LW .plate, by decide +kernel⟩⟩

/-- The hypotheses of RecordingCommandsComplete are met. -/
theorem witness_RecordingCommandsComplete :
    (∃ d, ∃ b, ∃ s : State, Executes d (.recordStart b) s ∧ recordCheck b s = 0) ∧
    (∃ d, ∃ b, ∃ s : State, Executes d (.recordStart b) s ∧ recordCheck b s ≠ 0) ∧
    (∃ d, ∃ key : Nat, ∃ x : Session, ∃ s : State, Executes d (.recordForceIdr key) s ∧ key ≤ 31 ∧ sessionOf s key = some x) ∧
    (∃ d, ∃ key : Nat, ∃ s : State, Executes d (.recordForceIdr key) s ∧ key ≤ 31 ∧ sessionOf s key = none) ∧
    (∃ d, ∃ key : Nat, ∃ x : Session, ∃ r : StatRec, ∃ l : List StatRec, ∃ s : State, Executes d (.recordStats key) s ∧ key ≤ 31 ∧
      sessionOf s key = some x ∧ x.body.statsEn = true ∧ x.stats = r :: l ∧ d.dmaOk = true) ∧
    (∃ d, ∃ key : Nat, ∃ x : Session, ∃ s : State, Executes d (.recordStats key) s ∧ key ≤ 31 ∧ sessionOf s key = some x ∧ x.body.statsEn
      = true ∧ x.stats = []) ∧
    (∃ d, ∃ key : Nat, ∃ abort, ∃ x : Session, ∃ s : State, Executes d (.recordStop key abort) s ∧ key ≤ 31 ∧ sessionOf s key = some x ∧
      x.stopping = none) ∧
    (∃ key : Nat, ∃ x : Session, ∃ tk, ∃ s : State, sessionOf s key = some x ∧ x.stopping = some tk ∧ x.input = []) ∧
    (∃ base, ∃ size, ∃ key : Nat, ∃ s : State, mapGet s.record.guards base = some (size, key) ∧ contextHeld s (.record key base) = false) ∧
    (∃ d, ∃ pipe, ∃ s : State, Executes d (.encodeSelftest pipe) s ∧ pipe ≤ 1 ∧ mapGet s.record.tests pipe = none ∧ pipeCarries s pipe =
      false) ∧
    (∃ d, ∃ pipe, ∃ s : State, Executes d (.encodeSelftest pipe) s ∧ pipe ≤ 1 ∧ pipeCarries s pipe = true ∧ s.module.mode ≠ .maintenance) ∧
    (∃ pipe : Nat, ∃ tk, ∃ s : State, mapGet s.record.tests pipe = some tk) :=
  ⟨⟨D, RB, scn 1 GroupRt.init, by decide +kernel⟩,
   ⟨D, { RB with qpTarget := 52 }, scn 1 GroupRt.init, by decide +kernel⟩,
   ⟨D, 0, RS, rcd RS, by decide +kernel⟩,
   ⟨D, 31, S, by decide +kernel⟩,
   ⟨D, 0, { RS with stats := [⟨1, 1, 1, 0, 0, []⟩] }, ⟨1, 1, 1, 0, 0, []⟩, [], rcd { RS with stats := [⟨1, 1, 1, 0, 0, []⟩] },
     by decide +kernel⟩,
   ⟨D, 0, RS, rcd RS, by decide +kernel⟩,
   ⟨D, 0, true, RS, rcd RS, by decide +kernel⟩,
   ⟨0, { RS with stopping := some K }, K, rcd { RS with stopping := some K }, by decide +kernel⟩,
   ⟨0x60000000, 0x10000000, 0, { S with record := { RecordSt.init with guards := [(0x60000000, (0x10000000, 0))] } }, by decide +kernel⟩,
   ⟨D, 1, S, by decide +kernel⟩,
   ⟨D, 0, rcd RS, by decide +kernel⟩,
   ⟨1, K, { S with record := { RecordSt.init with tests := [(1, K)] } }, by decide +kernel⟩⟩

/-- The hypotheses of PicturesAreRecorded are met. -/
theorem witness_PicturesAreRecorded :
    (∃ key : Nat, ∃ n : Nat, ∃ h : ReturnHeader, ∃ px : List Byte, ∃ x : Session, ∃ k : Nat, ∃ s : State, (headRt s key).returned.find?
      (fun p => p.1.frameNo = n) = some (h, px) ∧ sessionOf s key = some x ∧ mainUp s = true ∧ x.ended = false ∧ x.stopping = none ∧
      mapGet s.record.tests x.pipe = none ∧ n % nEff s x = 0 ∧ freeInput x = some k) ∧
    (∃ key : Nat, ∃ n : Nat, ∃ h : ReturnHeader, ∃ px : List Byte, ∃ x : Session, ∃ s : State, (headRt s key).returned.find? (fun p =>
      p.1.frameNo = n) = some (h, px) ∧ sessionOf s key = some x ∧ mainUp s = true ∧ x.ended = false ∧ x.stopping = none ∧ (n % nEff s x
      ≠ 0 ∨ (mapGet s.record.tests x.pipe).isSome = true)) ∧
    (∃ key : Nat, ∃ n : Nat, ∃ h : ReturnHeader, ∃ px : List Byte, ∃ x : Session, ∃ s : State, (headRt s key).returned.find? (fun p =>
      p.1.frameNo = n) = some (h, px) ∧ sessionOf s key = some x ∧ mainUp s = true ∧ x.ended = false ∧ x.stopping = none ∧ mapGet
      s.record.tests x.pipe = none ∧ n % nEff s x = 0 ∧ freeInput x = none ∧ mapGet s.queue.limiters (limKey 0x0880 key 0) = none) ∧
    (∃ key : Nat, ∃ n : Nat, ∃ h : ReturnHeader, ∃ px : List Byte, ∃ s : State, (headRt s key).returned.find? (fun p => p.1.frameNo = n)
      = some (h, px) ∧ sessionOf s key = none) ∧
    (∃ key : Nat, ∃ x : Session, ∃ f : InputFrame, ∃ rest, ∃ s : State, sessionOf s key = some x ∧ x.input = f :: rest ∧ mainUp s = true
      ∧ mapGet s.record.tests x.pipe = none) ∧
    (∃ key : Nat, ∃ x : Session, ∃ f : InputFrame, ∃ rest, ∃ s : State, sessionOf s key = some x ∧ x.input = f :: rest ∧ mainUp s = true
      ∧ mapGet s.record.tests x.pipe = none) ∧
    (∃ key : Nat, ∃ stopped : Bool, ∃ x : Session, ∃ f : InputFrame, ∃ rest, ∃ s : State, sessionOf s key = some x ∧ x.input = f :: rest
      ∧ mainUp s = true ∧ mapGet s.record.tests x.pipe = none ∧ (stopped = true ∨ (readInput x f.slot s).2.1 = true)) ∧
    (∃ key : Nat, ∃ s : State, sessionOf s key = none) :=
  ⟨⟨0, 4, RH 4, [], RS, 0, rcr RS 4, by decide +kernel⟩,
   ⟨0, 5, RH 5, [], RS, rcr RS 5, by decide +kernel⟩,
   ⟨0, 4, RH 4, [], { RS with input := [IF4 0, IF4 1, IF4 2] }, rcr { RS with input := [IF4 0, IF4 1, IF4 2] } 4, by decide +kernel⟩,
   ⟨0, 4, RH 4, [], { rcr RS 4 with record := RecordSt.init }, by decide +kernel⟩,
   ⟨0, { RS with input := [IF4 0] }, IF4 0, [], rcd { RS with input := [IF4 0] }, by decide +kernel⟩,
   ⟨0, { RS with input := [IF4 0] }, IF4 0, [], rcd { RS with input := [IF4 0] }, by decide +kernel⟩,
   ⟨0, false, { RS with input := [IF4 0] }, IF4 0, [], rcd { RS with input := [IF4 0] }, by decide +kernel⟩,
   ⟨0, S, by decide +kernel⟩⟩

/-- The hypotheses of OverlayCommandsComplete are met. -/
theorem witness_OverlayCommandsComplete :
    (∃ d, ∃ list, ∃ length, ∃ bytes, ∃ cs, ∃ s : State, Executes d (.overlayListLoad list length bytes) s ∧ list ≤ 255 ∧ length % 8 = 0 ∧
      16 ≤ length ∧ length ≤ 32768 ∧ d.dmaOk = true ∧ parseList 4096 0 (bytes.take length) = .inl cs ∧ listStoreUsed s list + length ≤
      Config.listStore ∧ (∀ p ∈ s.overlay.bindings, p.2.body.list ≠ list)) ∧
    (∃ d, ∃ list, ∃ length, ∃ bytes, ∃ off, ∃ s : State, Executes d (.overlayListLoad list length bytes) s ∧ list ≤ 255 ∧ length % 8 = 0
      ∧ 16 ≤ length ∧ length ≤ 32768 ∧ d.dmaOk = true ∧ parseList 4096 0 (bytes.take length) = .inr off) ∧
    (∃ d, ∃ list, ∃ s : State, Executes d (.overlayListFree list) s ∧ list ≤ 255 ∧ mapHas s.overlay.lists list = true ∧ (∀ p ∈
      s.overlay.bindings, p.2.body.list ≠ list)) ∧
    (∃ d, ∃ list, ∃ p, ∃ s : State, Executes d (.overlayListFree list) s ∧ list ≤ 255 ∧ mapHas s.overlay.lists list = true ∧ p ∈
      s.overlay.bindings ∧ p.2.body.list = list) ∧
    (∃ d, ∃ b : FontBody, ∃ s : State, Executes d (.overlayFontLoad b) s ∧ 1 ≤ b.font ∧ b.font ≤ 15 ∧ 4 ≤ b.cellW ∧ b.cellW ≤ 32 ∧ 4 ≤
      b.cellH ∧ b.cellH ≤ 64 ∧ 1 ≤ b.count ∧ b.count ≤ 256 ∧ b.firstCode + b.count ≤ 256 ∧ d.dmaOk = true ∧ fontStoreUsed s b.font +
      fontBytes b.cellW b.cellH b.count ≤ Config.fontStore) ∧
    (∃ d, ∃ b : BindBody, ∃ e, ∃ s : State, Executes d (.overlayBind b) s ∧ e = (if b.engine = 0xFF then leastEngine s else b.engine) ∧
      bindCheck b e d.dmaOk s = 0) ∧
    (∃ d, ∃ b : BindBody, ∃ e, ∃ s : State, Executes d (.overlayBind b) s ∧ e = (if b.engine = 0xFF then leastEngine s else b.engine) ∧
      bindCheck b e d.dmaOk s ≠ 0) ∧
    (∃ d, ∃ k, ∃ b : Binding, ∃ s : State, Executes d (.overlayUnbind k) s ∧ k ≤ 127 ∧ mapGet s.overlay.bindings k = some b ∧ b.unbinding
      = none) ∧
    (∃ k, ∃ b : Binding, ∃ tk, ∃ s : State, mapGet s.overlay.bindings k = some b ∧ b.unbinding = some tk ∧ bindingRuns s k = false) ∧
    (∃ d, ∃ b : RunBody, ∃ x : Binding, ∃ s : State, Executes d (.overlayRun b) s ∧ b.binding ≤ 127 ∧ mapGet s.overlay.bindings b.binding
      = some x ∧ x.unbinding = none ∧ x.stopping = false ∧ x.body.trigger = 2 ∧ x.due = [] ∧ b.setSlot = false) ∧
    (∃ d, ∃ b : RunBody, ∃ x : Binding, ∃ s : State, Executes d (.overlayRun b) s ∧ b.binding ≤ 127 ∧ mapGet s.overlay.bindings b.binding
      = some x ∧ x.unbinding = none ∧ x.stopping = false ∧ x.body.trigger ≠ 2 ∧ b.setSlot = true ∧ b.slot ≤ 7 ∧ b.textLen ≤ 24) ∧
    (∃ d, ∃ e, ∃ s : State, Executes d (.overlayStatus e) s ∧ e ≤ 7 ∧ d.dmaOk = true) :=
  ⟨⟨D, 255, 24, OL, [(0, .fill 1 ⟨0, 0, 1, 1⟩), (16, .end_)], S, by decide +kernel⟩,
   ⟨D, 255, 16, OL, 16, S, by decide +kernel⟩,
   ⟨D, 0, ovl [] [], by decide +kernel⟩,
   ⟨D, 0, (0, B0), ovl [(0, B0)] [], by decide +kernel⟩,
   ⟨D, { font := 15, cellW := 4, cellH := 4, firstCode := 255, count := 1, glyphs := [] }, S, by decide +kernel⟩,
   ⟨D, BB, 0, ovl [] [], by decide +kernel⟩,
   ⟨D, { BB with list := 1 }, 0, ovl [] [], by decide +kernel⟩,
   ⟨D, 0, B0, ovl [(0, B0)] [], by decide +kernel⟩,
   ⟨0, { B0 with unbinding := some K }, K, ovl [(0, { B0 with unbinding := some K })] [], by decide +kernel⟩,
   ⟨D, { binding := 0, setSlot := false, noWait := false, slot := 0, textLen := 0, text := [] }, B0, ovl [(0, B0)] [], by decide +kernel⟩,
   ⟨D, { binding := 0, setSlot := true, noWait := false, slot := 7, textLen := 0, text := [] },
     { B0 with body := { BB with trigger := 1 } }, ovl [(0, { B0 with body := { BB with trigger := 1 } })] [], by decide +kernel⟩,
   ⟨D, 7, S, by decide +kernel⟩⟩

/-- The hypotheses of OverlayRunsStartAndEnd are met. -/
theorem witness_OverlayRunsStartAndEnd :
    (∃ e : Nat, ∃ k, ∃ due : DueRun, ∃ rest, ∃ b : Binding, ∃ x : Surface, ∃ i, ∃ s : State, mainUp s = true ∧ windingDown s = false ∧ e
      ≤ 7 ∧ (ovEngine s e).run = none ∧ dueOrder s e = (k, due) :: rest ∧ mapGet s.overlay.bindings k = some b ∧ mapGet
      s.compose.surfaces b.body.surface = some x ∧ targetImage s b.body.surface x = some i) ∧
    (∃ e : Nat, ∃ k, ∃ due : DueRun, ∃ b : Binding, ∃ x : Surface, ∃ s : State, mainUp s = true ∧ windingDown s = false ∧ e ≤ 7 ∧
      (ovEngine s e).run = none ∧ dueOrder s e = [(k, due)] ∧ mapGet s.overlay.bindings k = some b ∧ mapGet s.compose.surfaces
      b.body.surface = some x ∧ targetImage s b.body.surface x = none ∧ due.tickets = [] ∧ mapGet s.queue.limiters (limKey 0x0981 k 1) =
      none) ∧
    (∃ k, ∃ b : Binding, ∃ due : DueRun, ∃ rest, ∃ since : Nat, ∃ tk, ∃ s : State, mapGet s.overlay.bindings k = some b ∧ b.due = due ::
      rest ∧ due.since = some since ∧ since + 100000000 ≤ s.time.mono ∧ due.tickets = [tk]) ∧
    (∃ e : Nat, ∃ r : Run, ∃ b : Binding, ∃ x : Surface, ∃ s : State, (ovEngine s e).run = some r ∧ mainUp s = true ∧ runExpired s r =
      false ∧ mapGet s.overlay.bindings r.binding = some b ∧ mapGet s.compose.surfaces b.body.surface = some x ∧ b.body.seed = false ∧
      b.body.present = true ∧ (runList
      { engine := e, binding := r.binding, surface := x.body, image := r.image, palette := b.body.palette } r (commandsOf r.list) 0 0
      { refused := false, badCopy := false, units := 0, st := s }).1 = none) ∧
    (∃ e : Nat, ∃ r : Run, ∃ b : Binding, ∃ x : Surface, ∃ cause, ∃ off, ∃ s : State, (ovEngine s e).run = some r ∧ mainUp s = true ∧
      runExpired s r = false ∧ mapGet s.overlay.bindings r.binding = some b ∧ mapGet s.compose.surfaces b.body.surface = some x ∧
      b.body.seed = false ∧ (runList
      { engine := e, binding := r.binding, surface := x.body, image := r.image, palette := b.body.palette } r (commandsOf r.list) 0 0
      { refused := false, badCopy := false, units := 0, st := s }).1 = some (cause, off)) ∧
    (∃ e : Nat, ∃ r : Run, ∃ b : Binding, ∃ x : Surface, ∃ s : State, (ovEngine s e).run = some r ∧ mainUp s = true ∧ runExpired s r =
      false ∧ mapGet s.overlay.bindings r.binding = some b ∧ mapGet s.compose.surfaces b.body.surface = some x ∧ b.body.seed = true ∧
      x.newest ≠ r.newest ∧ b.body.trigger = 0) ∧
    (∃ e : Nat, ∃ r : Run, ∃ s : State, (ovEngine s e).run = some r ∧ runExpired s r = true) :=
  ⟨⟨0, 0, DR, [], { B0 with due := [DR] }, SF, 0, ovl [(0, { B0 with due := [DR] })] [], by decide +kernel⟩,
   ⟨0, 0, DR, { B0 with due := [DR] }, { SF with body := { SB with imageCount := 1 } },
     { ovl [(0, { B0 with due := [DR] }), (1, { B0 with body := { BB with binding := 1 }, engine := 1 })] [(1, EG (some { RN with binding := 1 }))] with compose := (srf { SF with body := { SB with imageCount := 1 } }).compose },
     by decide +kernel⟩,
   ⟨0, { B0 with due := [{ DR with since := some 0, tickets := [K] }] }, { DR with since := some 0, tickets := [K] }, [], 0, K, ovl [(0,
     { B0 with due := [{ DR with since := some 0, tickets := [K] }] })] [], by decide +kernel⟩,
   ⟨0, RN, B0, SF, ovg [(0, B0)] [(0, EG (some RN))], by decide +kernel⟩,
   ⟨0, RN, B0, SF, 4, 0, ovl [(0, B0)] [(0, EG (some RN))], by decide +kernel⟩,
   ⟨0, RN, { B0 with body := { BB with seed := true, trigger := 0 } }, { SF with newest := some 1 },
     { ovl [(0, { B0 with body := { BB with seed := true, trigger := 0 } })] [(0, EG (some RN))] with compose := (srf { SF with newest := some 1 }).compose },
     by decide +kernel⟩,
   ⟨0, { RN with startNs := 0 }, ovl [(0, B0)] [(0, EG (some { RN with startNs := 0 }))], by decide +kernel⟩⟩

/-- The hypotheses of TransactionCommandsComplete are met. -/
theorem witness_TransactionCommandsComplete :
    (∃ d, ∃ lockstep, ∃ modules, ∃ s : State, Executes d (.txnBegin lockstep modules) s ∧ txnBeginCheck modules s = 0 ∧ (∀ p, s.txn.part
      = some p → p.txn ≠ nextTxnId s)) ∧
    (∃ d, ∃ lockstep, ∃ modules, ∃ s : State, Executes d (.txnBegin lockstep modules) s ∧ txnBeginCheck modules s ≠ 0) ∧
    (∃ d, ∃ id, ∃ count, ∃ len, ∃ items, ∃ x : Txn, ∃ p : PartTxn, ∃ s : State, Executes d (.txnStage id (position s) count len items) s
      ∧ s.cascade.headstock = true ∧ txnOf s id = some x ∧ x.phase = .open_ ∧ position s ∈ x.parts ∧ twinPos s (position s) = none ∧
      s.txn.part = some p ∧ p.txn = id ∧ d.dmaOk = true ∧ stageBad count len items = none) ∧
    (∃ d, ∃ id, ∃ pos, ∃ count, ∃ len, ∃ items, ∃ x : Txn, ∃ o, ∃ s : State, Executes d (.txnStage id pos count len items) s ∧
      s.cascade.headstock = true ∧ txnOf s id = some x ∧ x.phase = .open_ ∧ pos ∈ x.parts ∧ d.dmaOk = true ∧ stageBad count len items =
      some o) ∧
    (∃ d, ∃ id, ∃ x : Txn, ∃ s : State, Executes d (.txnAbort id) s ∧ s.cascade.headstock = true ∧ txnOf s id = some x ∧ abortable
      x.phase = true ∧ x.ticket = none) ∧
    (∃ d, ∃ id, ∃ x : Txn, ∃ s : State, Executes d (.txnAbort id) s ∧ s.cascade.headstock = true ∧ txnOf s id = some x ∧ abortable
      x.phase = false) ∧
    (∃ d, ∃ id, ∃ len, ∃ x : Txn, ∃ s : State, Executes d (.txnStatus id len) s ∧ s.cascade.headstock = true ∧ txnOf s id = some x ∧ 16 ≤
      len ∧ d.dmaOk = true) :=
  ⟨⟨D, false, 1, { txs (TX .open_) none with txn := TxnSt.init }, ⟨by decide +kernel, by decide +kernel, fun _ h => noSome h rfl⟩⟩,
   ⟨D, false, 0, txs (TX .open_) none, by decide +kernel⟩,
   ⟨D, 1, 1, 8, [{ itemType := 1, clear := true, head := 0, index := 0, bodyLen := 0, rz := true, body := .empty }], TX .open_, PT, txs
     (TX .open_) (some PT), by decide +kernel⟩,
   ⟨D, 1, 0, 0, 8, [], TX .open_, 0, txs (TX .open_) (some PT), by decide +kernel⟩,
   ⟨D, 1, TX .open_, txs (TX .open_) none, by decide +kernel⟩,
   ⟨D, 1, TX .committed, txs (TX .committed) none, by decide +kernel⟩,
   ⟨D, 1, 16, TX .open_, txs (TX .open_) none, by decide +kernel⟩⟩

/-- The hypotheses of TransactionsValidateAndVote are met. -/
theorem witness_TransactionsValidateAndVote :
    (∃ d, ∃ id, ∃ len, ∃ x : Txn, ∃ s : State, Executes d (.txnValidate id len) s ∧ s.cascade.headstock = true ∧ txnOf s id = some x ∧
      x.phase = .open_ ∧ x.ticket = none ∧ position s ∉ x.parts ∧ 64 ≤ len) ∧
    (∃ id, ∃ pos, ∃ x : Txn, ∃ tk, ∃ s : State, s.cascade.headstock = true ∧ txnOf s id = some x ∧ x.phase = .validating ∧ pos ∈ x.parts
      ∧ x.ticket = some tk ∧ x.isCommit = false ∧ tk.dmaOk = true ∧ (∀ p ∈ x.parts, p ≠ pos → mapHas x.results p = true)) ∧
    (∃ id, ∃ p : PartTxn, ∃ s : State, s.cascade.headstock = false ∧ inService s = true ∧ s.txn.part = some p ∧ p.txn = id) ∧
    (∃ d, ∃ id, ∃ apply, ∃ len, ∃ x : Txn, ∃ s : State, Executes d (.txnCommit id apply len) s ∧ s.cascade.headstock = true ∧ txnOf s id
      = some x ∧ x.phase = .valid ∧ x.ticket = none ∧ 1040 ≤ len ∧ apply ≤ s.time.wall + 60 * second ∧ activationMeets s x apply = false
      ∧ position s ∉ x.parts) ∧
    (∃ id, ∃ p : PartTxn, ∃ s : State, s.cascade.headstock = false ∧ s.txn.part = some p ∧ p.txn = id ∧ prepareCode s = 0) ∧
    (∃ id, ∃ p : PartTxn, ∃ s : State, s.cascade.headstock = false ∧ s.txn.part = some p ∧ p.txn = id ∧ prepareCode s ≠ 0) ∧
    (∃ id, ∃ pos, ∃ x : Txn, ∃ T, ∃ s : State, s.cascade.headstock = true ∧ txnOf s id = some x ∧ x.phase = .preparing ∧ pos ∈ x.parts ∧
      mapHas x.votes pos = false ∧ (∀ p ∈ x.parts, p ≠ pos → mapHas x.votes p = true) ∧ T = (if x.askedNs = 0 then s.time.wall + 3 * pMax
      ((affectedRecords s x).map Prod.snd) else x.askedNs) ∧ s.time.wall + 3 * pMax ((affectedRecords s x).map Prod.snd) ≤ T) ∧
    (∃ id, ∃ pos, ∃ x : Txn, ∃ tk, ∃ s : State, s.cascade.headstock = true ∧ txnOf s id = some x ∧ x.phase = .preparing ∧ pos ∈ x.parts ∧
      mapHas x.votes pos = false ∧ x.ticket = some tk ∧ x.isCommit = true) ∧
    (∃ id, ∃ pos, ∃ x : Txn, ∃ tk, ∃ s : State, txnOf s id = some x ∧ x.phase = .preparing ∧ x.prepareNs + 50000000 ≤ s.time.mono ∧
      x.parts.find? (fun p => !mapHas x.votes p) = some pos ∧ x.ticket = some tk ∧ x.isCommit = true) :=
  ⟨⟨D, 1, 64, { TX .open_ with parts := [2] }, txs { TX .open_ with parts := [2] } none, by decide +kernel⟩,
   ⟨1, 0, { TX .validating with ticket := some K }, K, txs { TX .validating with ticket := some K } none, by decide +kernel⟩,
   ⟨1, PT, prt PT, by decide +kernel⟩,
   ⟨D, 1, 2060000000000, 1040, { TX .valid with parts := [2] }, txs { TX .valid with parts := [2] } none, by decide +kernel⟩,
   ⟨1, PT, prt PT, by decide +kernel⟩,
   ⟨1, PT, { prt PT with module := { ModuleSt.init with mode := .fault } }, by decide +kernel⟩,
   ⟨1, 0, TX .preparing, 2000050000001, txs (TX .preparing) none, by decide +kernel⟩,
   ⟨1, 0, TW .preparing, K, txs (TW .preparing) none, by decide +kernel⟩,
   ⟨1, 0, TW .preparing, K, txs (TW .preparing) none, by decide +kernel⟩⟩

/-- The hypotheses of TransactionsApply are met. -/
theorem witness_TransactionsApply :
    (∃ m : CommitMsg, ∃ p : PartTxn, ∃ s : State, s.txn.part = some p ∧ p.txn = m.txn ∧ inService s = true ∧ m.kind = .commit ∧
      p.votedYes = true ∧ p.applied = false ∧ p.commit = none ∧ s.cascade.headstock = false) ∧
    (∃ m : CommitMsg, ∃ plus, ∃ p : PartTxn, ∃ s : State, s.txn.part = some p ∧ p.txn = m.txn ∧ inService s = true ∧ m.kind = .retarget
      plus ∧ p.votedYes = true ∧ p.applied = false ∧ s.cascade.headstock = false ∧ partDue s
      { p with commit := some m, frames := partFrames p m.frames, late := true, missed := false } = false) ∧
    (∃ m : CommitMsg, ∃ p : PartTxn, ∃ s : State, s.txn.part = some p ∧ p.txn = m.txn ∧ inService s = true ∧ m.kind = .cancel ∧ p.applied
      = false ∧ (p.commit = none ∨ partDue s p = false) ∧ s.cascade.headstock = false) ∧
    (∃ m : CommitMsg, ∃ p : PartTxn, ∃ s : State, s.txn.part = some p ∧ p.txn = m.txn ∧ inService s = true ∧ m.kind = .rollback ∧
      p.applied = true ∧ s.cascade.headstock = false ∧ (∀ l ∈ latches s (partT p) p.frames 2, s.time.wall < l)) ∧
    (∃ p : PartTxn, ∃ s : State, s.txn.part = some p ∧ p.commit.isSome = true ∧ p.missed = false ∧ p.applied = false ∧ inService s = true
      ∧ partDue s p = true ∧ s.cascade.headstock = false) ∧
    (∃ r : ApplyReport, ∃ x : Txn, ∃ o, ∃ tk, ∃ s : State, s.cascade.headstock = true ∧ txnOf s r.txn = some x ∧ r.position ∈ x.parts ∧
      x.phase = .committed ∧ x.lockstep = false ∧ outcomeOfReport r = some o ∧ outcomeAt x r.position = 0 ∧ (∀ p ∈ x.parts, p ≠
      r.position → outcomeAt x p ≠ 0) ∧ x.ticket = some tk ∧ tk.dmaOk = true) ∧
    (∃ id, ∃ x : Txn, ∃ T : Nat, ∃ pos, ∃ s : State, txnOf s id = some x ∧ x.applyNs = some T ∧ s.cascade.headstock = true ∧ x.phase =
      .committed ∧ (x.lockstep = true ∨ s.time.wall < latest T (latches s T x.frames 2)) ∧ x.lastSentNs + 1000000 ≤ s.time.mono ∧
      s.time.wall < T ∧ pos ∈ unacked x ∧ outcomeAt x pos = 0) ∧
    (∃ id, ∃ x : Txn, ∃ T : Nat, ∃ pos, ∃ s : State, txnOf s id = some x ∧ x.applyNs = some T ∧ s.cascade.headstock = true ∧ x.lockstep =
      true ∧ x.phase = .committed ∧ x.cancelled = false ∧ T - pMax ((affectedRecords s x).map Prod.snd) ≤ s.time.wall ∧ pos ∈ unacked x ∧
      coveredByAck s x pos = false) ∧
    (∃ id, ∃ x : Txn, ∃ T : Nat, ∃ tk, ∃ s : State, txnOf s id = some x ∧ x.applyNs = some T ∧ s.cascade.headstock = true ∧ x.lockstep =
      true ∧ x.phase = .committed ∧ latest T (latches s T x.frames 0) + 1000000 ≤ s.time.wall ∧ (∀ p ∈ x.parts, outcomeAt x p = 0 →
      covered s x p = true) ∧ x.ticket = some tk ∧ tk.dmaOk = true) ∧
    (∃ id, ∃ x : Txn, ∃ T : Nat, ∃ pos, ∃ s : State, txnOf s id = some x ∧ x.applyNs = some T ∧ s.cascade.headstock = true ∧ x.lockstep =
      true ∧ x.phase = .committed ∧ latest T (latches s T x.frames 0) + 1000000 ≤ s.time.wall ∧ pos ∈ x.parts ∧ outcomeAt x pos = 0 ∧
      covered s x pos = false) ∧
    (∃ id, ∃ x : Txn, ∃ T : Nat, ∃ tk, ∃ s : State, txnOf s id = some x ∧ x.applyNs = some T ∧ s.cascade.headstock = true ∧ x.lockstep =
      false ∧ x.phase = .committed ∧ latest T (latches s T x.frames 2) ≤ s.time.wall ∧ x.ticket = some tk ∧ tk.dmaOk = true) ∧
    (∃ id, ∃ x : Txn, ∃ tk, ∃ s : State, txnOf s id = some x ∧ s.cascade.headstock = true ∧ x.phase = .rollingBack ∧ (∀ p ∈ x.parts,
      outcomeAt x p = 3 ∨ outcomeAt x p = 4 ∨ outcomeAt x p = 5) ∧ x.ticket = some tk ∧ tk.dmaOk = true) ∧
    (∃ id, ∃ p : PartTxn, ∃ s : State, s.txn.part = some p ∧ p.txn = id ∧ p.commit = none) ∧
    (∃ p : PartTxn, ∃ since : Nat, ∃ s : State, s.txn.part = some p ∧ p.lostNs = some since ∧ p.applied = false ∧ p.votedYes = false ∧
      since + 50000000 ≤ s.time.mono) ∧
    (∃ s : State, s.cascade.twinUp = true) :=
  ⟨⟨CM .commit, PT, prt PT, by decide +kernel⟩,
   ⟨{ CM (.retarget 1) with applyNs := 3000000000000 }, 1, PT, prt PT, by decide +kernel⟩,
   ⟨CM .cancel, PT, prt PT, by decide +kernel⟩,
   ⟨CM .rollback, { PT with applied := true }, prt { PT with applied := true }, by decide +kernel⟩,
   ⟨{ PT with commit := some (CM .commit) }, prt { PT with commit := some (CM .commit) }, by decide +kernel⟩,
   ⟨AR, TW .committed, 1, K, txs (TW .committed) none, by decide +kernel⟩,
   ⟨1, { TW .committed with applyNs := some 3000000000000 }, 3000000000000, 0, txs { TW .committed with applyNs := some 3000000000000 }
     none, by decide +kernel⟩,
   ⟨1, { TW .committed with lockstep := true }, 1999000000000, 0, txs { TW .committed with lockstep := true } none, by decide +kernel⟩,
   ⟨1, { TW .committed with lockstep := true, outcomes := [(0, 1)] }, 1999000000000, K, txs
     { TW .committed with lockstep := true, outcomes := [(0, 1)] } none, by decide +kernel⟩,
   ⟨1, { TW .committed with lockstep := true }, 1999000000000, 0, txs { TW .committed with lockstep := true } none, by decide +kernel⟩,
   ⟨1, TW .committed, 1999000000000, K, txs (TW .committed) none, by decide +kernel⟩,
   ⟨1, { TW .rollingBack with outcomes := [(0, 4)] }, K, txs { TW .rollingBack with outcomes := [(0, 4)] } none, by decide +kernel⟩,
   ⟨1, PT, prt PT, by decide +kernel⟩,
   ⟨{ PT with votedYes := false, lostNs := some 0 }, 0, prt { PT with votedYes := false, lostNs := some 0 }, by decide +kernel⟩,
   ⟨{ tm S with cascade := { CascadeSt.init with twinUp := true } }, by decide +kernel⟩⟩

/-- The hypotheses of LanesTrainAndFail are met. -/
theorem witness_LanesTrainAndFail :
    (∃ b : Bond, ∃ lane : Nat, ∃ k : Nat, ∃ s : State, (bondLanes b)[lane]? = some k ∧ lanePowered s k = true ∧ (laneRt s k).state = 1) ∧
    (∃ b : Bond, ∃ lane : Nat, ∃ k : Nat, ∃ skew : Nat, ∃ s : State, (bondLanes b)[lane]? = some k ∧ (laneRt s k).state = 2 ∧ skew ≤ 120) ∧
    (∃ b : Bond, ∃ lane : Nat, ∃ k : Nat, ∃ skew : Nat, ∃ s : State, (bondLanes b)[lane]? = some k ∧ (laneRt s k).state = 2 ∧ 120 < skew) ∧
    (∃ b : Bond, ∃ lane : Nat, ∃ k : Nat, ∃ s : State, (bondLanes b)[lane]? = some k ∧ (laneRt s k).state = 2 ∧ (laneRt s k).sinceNs +
      1000000 ≤ s.time.mono) ∧
    (∃ b : Bond, ∃ lane : Nat, ∃ k : Nat, ∃ s : State, (bondLanes b)[lane]? = some k ∧ (laneRt s k).state = 3 ∧ downCrc s ≤ ((laneRt s
      k).crcSlots.filter fun x => (laneRt s k).slots < x + 64).length) ∧
    (∃ b : Bond, ∃ lane : Nat, ∃ k : Nat, ∃ s : State, (bondLanes b)[lane]? = some k ∧ (laneRt s k).state = 3) ∧
    (∃ east : Bool, ∃ k : Nat, ∃ s : State, k = (if east then 0 else 4) ∧ (laneRt s k).state = 3) ∧
    (∃ d, ∃ lane : Nat, ∃ s : State, Executes d (.laneCounters lane) s ∧ lane < 20 ∧ d.dmaOk = true) ∧
    (∃ d, ∃ s : State, Executes d (.laneCounters 0xFF) s ∧ d.dmaOk = true) ∧
    (∃ d, ∃ lane : Nat, ∃ s : State, Executes d (.laneCounters lane) s ∧ 20 ≤ lane ∧ lane ≠ 0xFF) ∧
    (∃ d, ∃ lane : Nat, ∃ ms, ∃ path, ∃ s : State, Executes d (.laneTest lane ms true path) s ∧ lane ≤ 19 ∧ 1 ≤ ms ∧ ms ≤ 60000 ∧ (laneRt
      s lane).state ≠ 4 ∧ ((laneRt s lane).state = 3 → s.module.mode = .maintenance) ∧ (controlPath s lane && path) = true) ∧
    (∃ d, ∃ lane : Nat, ∃ ms, ∃ far, ∃ path : Bool, ∃ s : State, Executes d (.laneTest lane ms far path) s ∧ lane ≤ 19 ∧ 1 ≤ ms ∧ ms ≤
      60000 ∧ (((laneRt s lane).state = 3 ∧ s.module.mode ≠ .maintenance) ∨ far = false)) ∧
    (∃ d, ∃ lane : Nat, ∃ ms, ∃ path : Bool, ∃ s : State, Executes d (.laneTest lane ms true path) s ∧ lane ≤ 19 ∧ 1 ≤ ms ∧ ms ≤ 60000 ∧
      (laneRt s lane).state ≠ 4 ∧ ((laneRt s lane).state = 3 → s.module.mode = .maintenance) ∧ (controlPath s lane && path) = false) ∧
    (∃ lane : Nat, ∃ x : LaneTest, ∃ s : State, mapGet s.link.tests lane = some x ∧ x.startNs + x.durationMs * 1000000 ≤ s.time.mono) :=
  ⟨⟨.east, 0, 0, lan 0 (LN 1), by decide +kernel⟩,
   ⟨.east, 0, 0, 120, lan 0 (LN 2), by decide +kernel⟩,
   ⟨.east, 0, 0, 121, lan 0 (LN 2), by decide +kernel⟩,
   ⟨.east, 0, 0, lan 0 (LN 2), by decide +kernel⟩,
   ⟨.east, 0, 0, lan 0 { LN 3 with crcSlots := List.replicate 8 0 }, by decide +kernel⟩,
   ⟨.twin, 11, 19, lan 19 (LN 3), by decide +kernel⟩,
   ⟨true, 0, lan 0 (LN 3), by decide +kernel⟩,
   ⟨D, 19, S, by decide +kernel⟩,
   ⟨D, S, by decide +kernel⟩,
   ⟨D, 20, S, by decide +kernel⟩,
   ⟨D, 19, 60000, true, lan 18 (LN 3), by decide +kernel⟩,
   ⟨D, 0, 1, false, true, lan 0 (LN 3), by decide +kernel⟩,
   ⟨D, 19, 60000, true, S, by decide +kernel⟩,
   ⟨0, { lane := 0, ticket := K, durationMs := 1, startNs := 0 },
     { tm S with link := { LinkSt.init with tests := [(0, { lane := 0, ticket := K, durationMs := 1, startNs := 0 })] } },
     by decide +kernel⟩⟩

/-- The hypotheses of FramesAreSentAndReceived are met. -/
theorem witness_FramesAreSentAndReceived :
    (∃ b : Bond, ∃ lane : Nat, ∃ k : Nat, ∃ m : QMsg, ∃ s : State, (bondLanes b)[lane]? = some k ∧ lanePowered s k = true ∧ (laneRt s
      k).state = 3 ∧ s.link.waiting = [m] ∧ m.bond = b ∧ (m.cls = .verdict ∨ m.cls = .line) ∧ bondCarries b m.cls = true ∧ m.sent = 0 ∧
      m.relay = false ∧ m.arrived = none ∧ dropsMessage s m = false ∧ bodyLength m.body ≤ 1012 ∧ (bondRt s b).acks = []) ∧
    (∃ b : Bond, ∃ lane : Nat, ∃ k : Nat, ∃ m : QMsg, ∃ s : State, (bondLanes b)[lane]? = some k ∧ lanePowered s k = true ∧ (laneRt s
      k).state = 3 ∧ s.link.waiting = [m] ∧ m.bond = b ∧ m.cls = .control ∧ bondCarries b .control = true ∧ m.sent = 0 ∧ m.relay = false
      ∧ m.arrived = none ∧ dropsMessage s m = false ∧ bodyLength m.body ≤ 1012 ∧ (bondRt s b).acks = [] ∧ mapGetD (bondRt s b).sent
      (classValue .control) [] = []) ∧
    (∃ b : Bond, ∃ lane : Nat, ∃ k : Nat, ∃ s : State, (bondLanes b)[lane]? = some k ∧ lanePowered s k = true ∧ (laneRt s k).state = 4) ∧
    (∃ b : Bond, ∃ lane : Nat, ∃ k : Nat, ∃ s : State, (bondLanes b)[lane]? = some k ∧ lanePowered s k = true ∧ (laneRt s k).state = 2) ∧
    (∃ b : Bond, ∃ lane : Nat, ∃ k : Nat, ∃ f : LuasinFrame, ∃ s : State, (bondLanes b)[lane]? = some k ∧ lanePowered s k = true ∧
      (laneRt s k).state = 3 ∧ f.runViolation = false ∧ frameOk b lane false f = true ∧ f.cls = .control ∧ f.seq = (match mapGet (bondRt
      s b).rxSeq (classValue .control) with | none => 0 | some q => seq16 (q + 1))) ∧
    (∃ b : Bond, ∃ lane : Nat, ∃ k : Nat, ∃ f : LuasinFrame, ∃ s : State, (bondLanes b)[lane]? = some k ∧ lanePowered s k = true ∧
      (laneRt s k).state = 3 ∧ f.runViolation = false ∧ frameOk b lane false f = false) ∧
    (∃ b : Bond, ∃ lane : Nat, ∃ k : Nat, ∃ f : LuasinFrame, ∃ s : State, (bondLanes b)[lane]? = some k ∧ lanePowered s k = true ∧
      (laneRt s k).state = 3 ∧ f.runViolation = false ∧ frameOk b lane false f = true ∧ f.cls = .idle ∧ f.ackKind = 1) ∧
    (∃ b : Bond, ∃ c, ∃ f : SentFrame, ∃ l, ∃ s : State, retxClass c = true ∧ mapGetD (bondRt s b).sent (classValue c) [] = f :: l ∧
      f.again = false ∧ f.sentNs + retxNs s ≤ s.time.mono ∧ f.resends < 32) ∧
    (∃ b : Bond, ∃ c, ∃ f : SentFrame, ∃ l, ∃ s : State, retxClass c = true ∧ mapGetD (bondRt s b).sent (classValue c) [] = f :: l ∧
      f.again = false ∧ f.sentNs + retxNs s ≤ s.time.mono ∧ 32 ≤ f.resends) ∧
    (∃ b : Bond, ∃ k : Nat, ∃ lane : Nat, ∃ since, ∃ s : State, (carrying s b).head? = some k ∧ lane = (bondLanes b).findIdx (fun j => j
      = k) ∧ s.link.waiting = [] ∧ (∀ c, (mapGetD (bondRt s b).sent c []).any SentFrame.again = false) ∧ (bondRt s b).acks = [(classValue
      .control, since)]) :=
  ⟨⟨.toTailstock, 0, 32, QM .toTailstock .verdict,
     { tm S with link := { LinkSt.init with lanes := [(32, LN 3)], waiting := [QM .toTailstock .verdict] } }, by decide +kernel⟩,
   ⟨.east, 0, 0, QM .east .control, { tm S with link := { LinkSt.init with lanes := [(0, LN 3)], waiting := [QM .east .control] } },
     by decide +kernel⟩,
   ⟨.east, 0, 0, lan 0 (LN 4), by decide +kernel⟩,
   ⟨.east, 0, 0, lan 0 (LN 2), by decide +kernel⟩,
   ⟨.east, 0, 0, LF, lan 0 (LN 3), by decide +kernel⟩,
   ⟨.east, 0, 0, { LF with crcOk := false }, lan 0 (LN 3), by decide +kernel⟩,
   ⟨.east, 0, 0, { LF with cls := .idle, ackKind := 1 }, lan 0 (LN 3), by decide +kernel⟩,
   ⟨.east, .control, SNT, [], bnd [SNT] [], by decide +kernel⟩,
   ⟨.east, .control, { SNT with resends := 32 }, [], bnd [{ SNT with resends := 32 }] [], by decide +kernel⟩,
   ⟨.east, 0, 0, 0, bnd [] [(classValue .control, 0)], ⟨by decide +kernel, by decide +kernel, by decide +kernel, fun _ => rfl,
     by decide +kernel⟩⟩⟩

/-- The hypotheses of CascadeCommandsComplete are met. -/
theorem witness_CascadeCommandsComplete :
    (∃ d, ∃ s : State, Executes d .cascadeStatus s ∧ d.dmaOk = true) ∧
    (∃ d, ∃ identity, ∃ i : Nat, ∃ s : State, Executes d (.cascadeRenumber identity) s ∧ s.cascade.ring = .intact ∧ s.module.mode =
      .setup ∧ (∀ p ∈ s.cascade.modules, p.2.state = 2) ∧ (∀ j, (renumberOrder s)[j]? = some Config.serial ↔ j = i)) ∧
    (∃ d, ∃ identity, ∃ s : State, Executes d (.cascadeRenumber identity) s ∧ s.cascade.ring ≠ .intact) ∧
    (∃ d, ∃ x : TwinInfo, ∃ s : State, Executes d (.twinRole 0) s ∧ s.cascade.twinUp = true ∧ s.cascade.twin = some x ∧ (x.role = .active
      ∨ (x.role = .standby ∧ x.caughtUp = true)) ∧ s.cascade.role ≠ .withdrawn) ∧
    (∃ d, ∃ s : State, Executes d (.twinRole 1) s ∧ s.cascade.role = .withdrawn ∧ s.cascade.withdrawnByCommand = true ∧ s.cascade.twin =
      none) ∧
    (∃ d, ∃ x : TwinInfo, ∃ s : State, Executes d (.twinRole 2) s ∧ s.cascade.twinUp = true ∧ s.cascade.twin = some x ∧ s.cascade.role =
      .active ∧ x.role = .standby ∧ x.caughtUp = true ∧ s.cascade.swap = none) ∧
    (∃ d, ∃ s : State, Executes d (.twinRole 2) s ∧ s.cascade.twinUp = false) ∧
    (∃ d, ∃ s : State, Executes d .cascadeSleep s ∧ s.cascade.headstock = false ∧ (s.module.mode = .setup ∨ s.module.mode = .run) ∧
      s.module.sleeping = none ∧ ringWhole s = true) ∧
    (∃ d, ∃ s : State, Executes d .cascadeSleep s ∧ s.cascade.headstock = true) ∧
    (∃ tk, ∃ s : State, s.module.sleeping = some tk ∧ s.module.waking = false ∧ (s.module.mode = .setup ∨ s.module.mode = .run) ∧
      s.cascade.headstock = false ∧ drainEnded s = true) ∧
    (∃ d, ∃ m : ModInfo, ∃ s : State, canTake d s = true ∧ commonCheck d .cascadeWake s = 0 ∧ isLocal d.target s = false ∧
      s.cascade.headstock = true ∧ mapGet s.cascade.modules d.target = some m ∧ m.inContact = true ∧ m.state = 6) ∧
    (∃ s : State, s.module.mode = .idleLink ∧ s.module.waking = false ∧ s.queue.inFlight.length < Config.maxInFlight) ∧
    (∃ s : State, s.module.mode = .idleLink ∧ s.module.waking = true) :=
  ⟨⟨D, S, by decide +kernel⟩,
   ⟨D, 5, 0, renState, ⟨by decide +kernel, rfl, rfl, by decide, fun j => by rw [renumber_alone]; cases j <;> simp⟩⟩,
   ⟨D, 5, S, by decide +kernel⟩,
   ⟨D, TI .active, csc (pr .standby .active), by decide +kernel⟩,
   ⟨D, csc { CascadeSt.init with role := .withdrawn, withdrawnByCommand := true }, by decide +kernel⟩,
   ⟨D, TI .standby, csc (pr .active .standby), by decide +kernel⟩,
   ⟨D, S, by decide +kernel⟩,
   ⟨D, csc { CascadeSt.init with east := { LinkDelay.init with up := true }, west := { LinkDelay.init with up := true } },
     by decide +kernel⟩,
   ⟨D, csc HC, by decide +kernel⟩,
   ⟨K, { S with module := { ModuleSt.init with mode := .run, sleeping := some K } }, by decide +kernel⟩,
   ⟨{ D with target := 4 }, { MI with state := 6 }, csc { HC with modules := [(4, { MI with state := 6 })] }, by decide +kernel⟩,
   ⟨st .idleLink, by decide +kernel⟩,
   ⟨{ st .idleLink with module := { ModuleSt.init with mode := .idleLink, waking := true } }, by decide +kernel⟩⟩

/-- The hypotheses of ModulesAreFoundAndHeard are met. -/
theorem witness_ModulesAreFoundAndHeard :
    (∃ s : State, s.cascade.headstock = true) ∧
    (∃ m : DiscModule, ∃ p : Nat, ∃ id : Nat, ∃ own : Nat, ∃ s : State, s.cascade.headstock = true ∧ id = s.cascade.storedIdentity.getD
      Config.serial ∧ own = (if s.cascade.storedIdentity.isSome then s.cascade.storedPosition.getD 0 else 0) ∧ assignPositions id own [m]
      = [(m, some p)]) ∧
    (∃ s : State, s.cascade.headstock = true ∧ s.cascade.east.refused = false ∧ s.cascade.west.refused = false) ∧
    (∃ m : DiscModule, ∃ i, ∃ p : Nat, ∃ s : State, s.cascade.headstock = false ∧ m.serial = Config.serial ∧ m.storedIdentity = some i ∧
      m.storedPosition = some p) ∧
    (∃ s : State, s.cascade.posValid = true ∧ s.module.mode ≠ .off ∧ passedSince s s.cascade.presenceNs 1000000 = true) ∧
    (∃ p : Presence, ∃ m : ModInfo, ∃ s : State, s.cascade.headstock = true ∧ s.update.hitless = none ∧ mapGet s.cascade.modules
      p.position = some m ∧ m.lastNs ≠ 0 ∧ m.inContact = true ∧ m.bootCount = p.bootCount) ∧
    (∃ p : Presence, ∃ m : ModInfo, ∃ s : State, s.cascade.headstock = true ∧ s.update.hitless = none ∧ mapGet s.cascade.modules
      p.position = some m ∧ m.lastNs ≠ 0 ∧ m.inContact = false ∧ m.bootCount = p.bootCount) ∧
    (∃ pos, ∃ m : ModInfo, ∃ s : State, s.cascade.headstock = true ∧ mapGet s.cascade.modules pos = some m ∧ m.inContact = true ∧
      m.lastNs + 50000000 ≤ s.time.mono) ∧
    (∃ p : PartTxn, ∃ s : State, s.cascade.headstock = false ∧ s.txn.part = some p ∧ p.lostNs = none ∧ s.update.inbound = none ∧
      passedSince s s.cascade.headNs 50000000 = true) :=
  ⟨⟨csc HC, by decide +kernel⟩,
   ⟨DM, 2, 5, 1, csc { HC with storedIdentity := some 5, storedPosition := some 1 }, by decide +kernel⟩,
   ⟨csc HC, by decide +kernel⟩,
   ⟨{ DM with serial := Config.serial }, 5, 2, tm S, ⟨rfl, rfl, rfl, rfl⟩⟩,
   ⟨csc HC, by decide +kernel⟩,
   ⟨PS, MI, csc HC, by decide +kernel⟩,
   ⟨PS, { MI with inContact := false }, csc { HC with modules := [(4, { MI with inContact := false })] }, by decide +kernel⟩,
   ⟨4, MI, csc HC, by decide +kernel⟩,
   ⟨PT, prt PT, by decide +kernel⟩⟩

/-- The hypotheses of BeatsAreSentAndFollowed are met. -/
theorem witness_BeatsAreSentAndFollowed :
    (∃ s : State, s.cascade.headstock = true ∧ passedSince s s.cascade.beatNs 1000000 = true) ∧
    (∃ east, ∃ m : BeatMsg, ∃ s : State, s.cascade.headstock = false ∧ m.kind = 0 ∧ m.hops ≤ 63 ∧ s.cascade.epoch ≤ m.epoch ∧
      s.module.mode ≠ .off ∧ (linkAt s east).refused = false ∧ miswired east m s = false ∧ newBeat m s = true) ∧
    (∃ east, ∃ m : BeatMsg, ∃ s : State, s.cascade.headstock = false ∧ (linkAt s east).refused = false ∧ miswired east m s = false ∧
      m.epoch < s.cascade.epoch) ∧
    (∃ east, ∃ m : BeatMsg, ∃ s : State, s.cascade.headstock = true ∧ s.module.sideB = true ∧ m.kind = 0 ∧ m.hops ≤ 63 ∧ (linkAt s
      east).refused = false ∧ miswired east m s = false ∧ s.module.mode ≠ .off ∧ m.origin ≠ position s) ∧
    (∃ since : Nat, ∃ s : State, s.cascade.lastBeatNs = some since ∧ s.cascade.onBeat = true ∧ s.cascade.headstock = false ∧ since +
      5000000 ≤ s.time.mono) ∧
    (∃ s : State, s.cascade.east.up = true ∧ passedSince s s.cascade.east.requestNs 10000000 = true) ∧
    (∃ east, ∃ m : BeatMsg, ∃ s : State, m.kind = 1 ∧ s.module.mode ≠ .off ∧ (linkAt s east).refused = false ∧ miswired east m s = false) ∧
    (∃ m : BeatMsg, ∃ s : State, m.kind = 2 ∧ s.cascade.west.outstanding = some m.seq) :=
  ⟨⟨csc HC, by decide +kernel⟩,
   ⟨false, BM 0 1 1, tm S, by decide +kernel⟩,
   ⟨false, BM 0 1 1, csc { HC with headstock := false, epoch := 2 }, by decide +kernel⟩,
   ⟨false, BM 0 1 1, { csc HC with module := { ModuleSt.init with mode := .run, sideB := true } }, by decide +kernel⟩,
   ⟨0, csc { CascadeSt.init with lastBeatNs := some 0, onBeat := true }, by decide +kernel⟩,
   ⟨csc { CascadeSt.init with east := { LinkDelay.init with up := true } }, by decide +kernel⟩,
   ⟨false, BM 1 0 3, S, by decide +kernel⟩,
   ⟨BM 2 0 3, csc { CascadeSt.init with west := { LinkDelay.init with up := true, outstanding := some 3 } }, by decide +kernel⟩⟩

/-- The hypotheses of RolesAreTakenAndSwapped are met. -/
theorem witness_RolesAreTakenAndSwapped :
    (∃ s : State, s.cascade.headstock = false ∧ s.module.masterSel = true ∧ s.cascade.candidate = true ∧ mayHold s = true ∧ roleFree s =
      true) ∧
    (∃ s : State, s.cascade.headstock = true ∧ mayHold s = false) ∧
    (∃ x : TwinIdent, ∃ s : State, lanesUp s .twin ≠ [] ∧ s.module.mode ≠ .off ∧ s.module.mode ≠ .idleLink ∧ s.update.hitless = none ∧
      s.cascade.twinUp = false ∧ s.cascade.role = .alone ∧ pairingFault x s = 0) ∧
    (∃ x : TwinIdent, ∃ s : State, lanesUp s .twin ≠ [] ∧ s.module.mode ≠ .off ∧ s.module.mode ≠ .idleLink ∧ s.update.hitless = none ∧
      s.cascade.twinUp = false ∧ pairingFault x s ≠ 0) ∧
    (∃ s : State, twinBondLost s = true ∧ s.update.hitless = none ∧ (s.cascade.role = .active ∨ s.cascade.role = .standby)) ∧
    (∃ s : State, s.cascade.twinUp = true ∧ s.cascade.role = .standby) ∧
    (∃ items : List Item, ∃ s : State, s.cascade.catchingUp = true ∧ s.cascade.role = .standby ∧ s.cascade.twinUp = true ∧ bankFree s =
      true ∧ s.update.hitless = none ∧ validate s (items.foldl (stageItem 0) SceneBank.init) = []) ∧
    (∃ items : List Item, ∃ s : State, s.cascade.catchingUp = true ∧ s.cascade.role = .standby ∧ s.cascade.twinUp = true ∧ bankFree s =
      true ∧ s.update.hitless = none ∧ validate s (items.foldl (stageItem 0) SceneBank.init) ≠ []) ∧
    (∃ a : Nat, ∃ b : Nat, ∃ s : State, s.cascade.role = .active ∧ s.cascade.twinUp = true ∧ s.module.mode = .lean ∧ s.cascade.leanSince
      = some a ∧ a + 1000000000 ≤ s.time.mono ∧ s.cascade.twinReadySince = some b ∧ b + 1000000000 ≤ s.time.mono ∧ s.cascade.swap = none
      ∧ (∀ l, s.cascade.lastAutoSwap = some l → l + 60000000000 ≤ s.time.mono)) ∧
    (∃ w : Swap, ∃ tk, ∃ s : State, s.cascade.twinUp = true ∧ s.cascade.role = .active ∧ s.cascade.swap = some w ∧ w.atNs ≤ s.time.wall ∧
      w.ticket = some tk ∧ s.update.hitless = none ∧ s.queue.detaching = none) ∧
    (∃ x : TwinInfo, ∃ s : State, s.cascade.twinUp = true ∧ s.cascade.role = .standby ∧ s.cascade.swap = none ∧ s.cascade.twin = some x ∧
      s.update.hitless = none) :=
  ⟨⟨tm S, by decide +kernel⟩,
   ⟨csc { HC with role := .standby, twinUp := true }, by decide +kernel⟩,
   ⟨TD,
     { lan 8 (LN 3) with module := { ModuleSt.init with mode := .run, fwVersion := 1 }, cascade := { pr .alone .standby with twinUp := false, twin := none } },
     by decide +kernel⟩,
   ⟨{ TD with part := 0 }, lan 8 (LN 3), by decide +kernel⟩,
   ⟨csc (pr .active .standby), by decide +kernel⟩,
   ⟨csc (pr .standby .active), by decide +kernel⟩,
   ⟨[], csc { pr .standby .active with catchingUp := true }, by decide +kernel⟩,
   ⟨[IT], csc { pr .standby .active with catchingUp := true }, by decide +kernel⟩,
   ⟨0, 0, { tm (st .lean) with cascade := { pr .active .standby with leanSince := some 0, twinReadySince := some 0 } },
     ⟨by decide +kernel, by decide +kernel, by decide +kernel, by decide +kernel, by decide +kernel, by decide +kernel,
     by decide +kernel, by decide +kernel, fun _ h => noSome h rfl⟩⟩,
   ⟨SW, K, csc { pr .active .standby with swap := some SW }, by decide +kernel⟩,
   ⟨TI .active, csc (pr .standby .active), by decide +kernel⟩⟩

/-- The hypotheses of ManagementCommandsComplete are met. -/
theorem witness_ManagementCommandsComplete :
    (∃ d, ∃ s : State, Executes d .mgmtStatus s ∧ d.dmaOk = true) ∧
    (∃ d, ∃ s : State, Executes d (.mgmtMaintenance 1) s ∧ (s.module.mode = .setup ∨ s.module.mode = .run ∨ s.module.mode = .lean)) ∧
    (∃ d, ∃ s : State, Executes d (.mgmtMaintenance 0) s ∧ s.module.mode = .maintenance) ∧
    (∃ d, ∃ enter, ∃ s : State, Executes d (.mgmtMaintenance enter) s ∧ 1 < enter) ∧
    (∃ d, ∃ first : Nat, ∃ count, ∃ pinned : Bool, ∃ s : State, Executes d (.mgmtLogRead first count pinned) s ∧ 1 ≤ count ∧ count ≤ 4096
      ∧ d.dmaOk = true) ∧
    (∃ d, ∃ s : State, Executes d .mgmtReset s) ∧
    (∃ d, ∃ step, ∃ s : State, Executes d (.mgmtLadderTest step) s ∧ step ≤ 5 ∧ s.module.mode ≠ .maintenance) ∧
    (∃ d, ∃ step, ∃ s : State, Executes d (.mgmtLadderTest step) s ∧ 1 ≤ step ∧ step ≤ 5 ∧ s.module.mode = .maintenance) ∧
    (∃ d, ∃ s : State, Executes d (.mgmtLadderTest 0) s ∧ s.module.mode = .maintenance) :=
  ⟨⟨D, S, by decide +kernel⟩,
   ⟨D, S, by decide +kernel⟩,
   ⟨D, st .maintenance, by decide +kernel⟩,
   ⟨D, 2, S, by decide +kernel⟩,
   ⟨D, 0, 4096, false, S, by decide +kernel⟩,
   ⟨D, S, by decide +kernel⟩,
   ⟨D, 5, S, by decide +kernel⟩,
   ⟨D, 5, st .maintenance, by decide +kernel⟩,
   ⟨D, st .maintenance, by decide +kernel⟩⟩

/-- The hypotheses of ManagementAnswersItsMail are met. -/
theorem witness_ManagementAnswersItsMail :
    (∃ slot, ∃ x : Slot, ∃ s : State, mapGet s.mbx.slots (slotKey 0 slot) = some x ∧ x.full = true ∧ answersMail s = true ∧
      s.host.attached = true ∧ slot < 32 ∧ msgByte x.msg 0 = 1 ∧ x.msg.length = 64) ∧
    (∃ slot, ∃ x : Slot, ∃ s : State, mapGet s.mbx.slots (slotKey 0 slot) = some x ∧ x.full = true ∧ answersMail s = true ∧
      s.host.attached = true ∧ slot < 32 ∧ msgByte x.msg 0 = 2 ∧ x.msg.length = 64) ∧
    (∃ slot, ∃ x : Slot, ∃ n : Nat, ∃ r : LogRec, ∃ s : State, mapGet s.mbx.slots (slotKey 0 slot) = some x ∧ x.full = true ∧ answersMail
      s = true ∧ s.host.attached = true ∧ slot < 32 ∧ x.msg.length = 64 ∧ msgByte x.msg 0 = 3 ∧ n = msgByte x.msg 4 + msgByte x.msg 5 *
      256 + msgByte x.msg 6 * 65536 + msgByte x.msg 7 * 16777216 ∧ (logHeld s).find? (fun r => r.seq = n) = some r) :=
  ⟨⟨31, { msg := 1 :: List.replicate 63 0, sender := 513, full := true, collision := false, senderReset := false }, mail (1 ::
     List.replicate 63 0), by decide +kernel⟩,
   ⟨31, { msg := 2 :: List.replicate 63 0, sender := 513, full := true, collision := false, senderReset := false }, mail (2 ::
     List.replicate 63 0), by decide +kernel⟩,
   ⟨31, { msg := [3, 0, 0, 0, 5] ++ List.replicate 59 0, sender := 513, full := true, collision := false, senderReset := false }, 5, LR,
     { mail ([3, 0, 0, 0, 5] ++ List.replicate 59 0) with mgmt := { MgmtSt.init with logUnpinned := [LR] } }, by decide +kernel⟩⟩

/-- The hypotheses of SensorsAndFaultsAct are met. -/
theorem witness_SensorsAndFaultsAct :
    (∃ id, ∃ s : State, s.power.managementUp = true ∧ s.mgmt.restarting = false ∧ id < 35) ∧
    (∃ id, ∃ since, ∃ s : State, id < 16 ∧ mapGet s.mgmt.limitSince id = some since ∧ since + 100000000 ≤ s.time.mono ∧ s.module.mode ≠
      .off ∧ s.module.mode ≠ .fault) ∧
    (∃ s : State, s.module.mode ≠ .off ∧ s.mgmt.restarting = false ∧ (recent s s.mgmt.mismatches).length < 2) ∧
    (∃ s : State, s.module.mode ≠ .off ∧ s.module.mode ≠ .fault ∧ s.mgmt.restarting = false ∧ 2 ≤ (recent s s.mgmt.mismatches).length) ∧
    (∃ s : State, s.module.mode ≠ .off ∧ watchdogDue s = true ∧ (∀ a, s.mgmt.firstExpiry = some a → a + 60000000000 ≤ s.time.mono)) ∧
    (∃ s : State, s.mgmt.logSuppressed ≠ 0 ∧ s.mgmt.logSecond < s.time.wall / 1000000000) :=
  ⟨⟨34, S, by decide +kernel⟩,
   ⟨15, 0, mgt { MgmtSt.init with limitSince := [(15, 0)] }, by decide +kernel⟩,
   ⟨S, by decide +kernel⟩,
   ⟨mgt { MgmtSt.init with mismatches := [1999000000000, 1999000000000] }, by decide +kernel⟩,
   ⟨mgt { MgmtSt.init with pairStartNs := some 0 }, ⟨by decide +kernel, by decide +kernel, fun _ h => noSome h rfl⟩⟩,
   ⟨mgt { MgmtSt.init with logSuppressed := 1 }, by decide +kernel⟩⟩

/-- The hypotheses of TheGovernorSheds are met. -/
theorem witness_TheGovernorSheds :
    (∃ s : State, inService s = true ∧ s.mgmt.restarting = false ∧ passedSince s s.mgmt.lastEvalNs 1000000 = true ∧ thirdInternal s =
      false) ∧
    (∃ l, ∃ s : State, inService s = true ∧ s.mgmt.restarting = false ∧ passedSince s s.mgmt.lastEvalNs 1000000 = true ∧ thirdInternal s
      = false ∧ s.mgmt.vcoreMv = 900 ∧ below (leastBlock l) 1000 = true ∧ 9 ≤ s.mgmt.shortCount ∧ (∀ a, s.mgmt.lastTakeNs = some a → a +
      20000000 ≤ s.time.mono) ∧ s.mgmt.step < 5) ∧
    (∃ s : State, inService s = true ∧ s.mgmt.restarting = false ∧ passedSince s s.mgmt.lastEvalNs 1000000 = true ∧ thirdInternal s =
      true) ∧
    (∃ s : State, inService s = true ∧ s.mgmt.restarting = false ∧ anyTj s 2 = true ∧ s.mgmt.step < 5 ∧ (∀ a, s.mgmt.lastThermalNs = some
      a → a + 1000000000 ≤ s.time.mono)) ∧
    (∃ a : Nat, ∃ s : State, inService s = true ∧ s.mgmt.restarting = false ∧ s.mgmt.paceShort = false ∧ s.mgmt.shortSince = some a ∧ a +
      100000000 ≤ s.time.mono) :=
  ⟨⟨S, by decide +kernel⟩,
   ⟨[⟨0, 900, 1000⟩], mgt { MgmtSt.init with vcoreMv := 900, shortCount := 9 }, ⟨by decide +kernel, by decide +kernel, by decide +kernel,
     by decide +kernel, by decide +kernel, by decide +kernel, by decide +kernel, fun _ h => noSome h rfl, by decide +kernel⟩⟩,
   ⟨mgt { MgmtSt.init with internals := [(1024, 1999000000000), (1024, 1999000000000), (1024, 1999000000000)] }, by decide +kernel⟩,
   ⟨mgt { MgmtSt.init with sensors := [(15, (110000, .critical))] }, ⟨by decide +kernel, by decide +kernel, by decide +kernel,
     by decide +kernel, fun _ h => noSome h rfl⟩⟩,
   ⟨0, mgt { MgmtSt.init with shortSince := some 0 }, by decide +kernel⟩⟩

/-- The hypotheses of ResetsRestart are met. -/
theorem witness_ResetsRestart :
    (∃ b : BootFacts, ∃ s : State, heldFor s s.mgmt.resetPending 1000000 = true ∧ s.module.mode ≠ .off ∧ s.update.phase ≠ .receiving ∧
      bankBoots s b s.update.bootPointer = true) ∧
    (∃ b : BootFacts, ∃ s : State, heldFor s s.mgmt.resetPending 1000000 = true ∧ s.module.mode ≠ .off ∧ s.update.phase ≠ .receiving ∧
      bankBoots s b s.update.bootPointer = false ∧ bankBoots s b (otherBank s.update.bootPointer) = true) ∧
    (∃ b : BootFacts, ∃ s : State, heldFor s s.mgmt.resetPending 1000000 = true ∧ s.module.mode ≠ .off ∧ s.update.phase ≠ .receiving ∧
      bankBoots s b s.update.bootPointer = false ∧ bankBoots s b (otherBank s.update.bootPointer) = false) ∧
    (∃ b : BootFacts, ∃ e : Nat, ∃ s : State, s.module.mode ≠ .off ∧ s.module.mode ≠ .starting ∧ watchdogDue s = true ∧
      s.mgmt.firstExpiry = some e ∧ s.time.mono < e + 60000000000 ∧ s.update.phase ≠ .receiving ∧ bankBoots s b s.update.bootPointer =
      true ∧ (recent s s.mgmt.watchdogResets).length < 2) ∧
    (∃ b : BootFacts, ∃ e : Nat, ∃ s : State, s.module.mode = .starting ∧ watchdogDue s = true ∧ s.mgmt.firstExpiry = some e ∧
      s.time.mono < e + 60000000000 ∧ s.update.phase ≠ .receiving ∧ s.module.bank = s.update.bootPointer ∧ bankBoots s b (otherBank
      s.update.bootPointer) = true ∧ (recent s s.mgmt.watchdogResets).length < 2) ∧
    (∃ b : BootFacts, ∃ e : Nat, ∃ s : State, s.module.mode ≠ .off ∧ s.module.mode ≠ .starting ∧ watchdogDue s = true ∧
      s.mgmt.firstExpiry = some e ∧ s.time.mono < e + 60000000000 ∧ s.update.phase ≠ .receiving ∧ bankBoots s b s.update.bootPointer =
      true ∧ 2 ≤ (recent s s.mgmt.watchdogResets).length) ∧
    (∃ s : State, s.module.mode ≠ .off ∧ s.power.sysResetHeld = false) ∧
    (∃ b : BootFacts, ∃ s : State, s.power.sysResetHeld = true ∧ bankBoots s b s.update.bootPointer = true) ∧
    (∃ b : BootFacts, ∃ s : State, s.module.mode = .off ∧ s.power.shutdownDone = true ∧ s.power.managementUp = true ∧ s.update.phase ≠
      .receiving ∧ bankBoots s b s.update.bootPointer = true) :=
  ⟨⟨BF true true, { ups .run (upd .idle) with mgmt := { MgmtSt.init with resetPending := some 0 } }, by decide +kernel⟩,
   ⟨BF false true, { ups .run (upd .idle) with mgmt := { MgmtSt.init with resetPending := some 0 } }, by decide +kernel⟩,
   ⟨BF false false, { ups .run (upd .idle) with mgmt := { MgmtSt.init with resetPending := some 0 } }, by decide +kernel⟩,
   ⟨BF true true, 1999000000000,
     { ups .run (upd .idle) with mgmt := { MgmtSt.init with pairStartNs := some 0, firstExpiry := some 1999000000000 } },
     by decide +kernel⟩,
   ⟨BF true true, 1999000000000,
     { ups .starting (upd .idle) with mgmt := { MgmtSt.init with pairStartNs := some 0, firstExpiry := some 1999000000000 } },
     by decide +kernel⟩,
   ⟨BF true true, 1999000000000,
     { ups .run (upd .idle) with mgmt := { MgmtSt.init with pairStartNs := some 0, firstExpiry := some 1999000000000, watchdogResets := [1999000000000, 1999000000000] } },
     by decide +kernel⟩,
   ⟨S, by decide +kernel⟩,
   ⟨BF true true, pwr { PowerSt.init with sysResetHeld := true }, by decide +kernel⟩,
   ⟨BF true true, { ups .off (upd .idle) with power := { PowerSt.init with shutdownDone := true } }, by decide +kernel⟩⟩

/-- The hypotheses of StartingEndsAndInputsAct are met. -/
theorem witness_StartingEndsAndInputsAct :
    (∃ f : StartFacts, ∃ s : State, s.module.mode = .starting ∧ s.power.sysResetHeld = false ∧ s.power.shutdownAsked = false ∧ (∀ p ∈
      s.mem.channels, f.dramOk.getD p.1 false = true) ∧ f.selfChecksOk = true) ∧
    (∃ f : StartFacts, ∃ p : Nat × Channel, ∃ s : State, s.module.mode = .starting ∧ s.power.sysResetHeld = false ∧ p ∈ s.mem.channels ∧
      f.dramOk.getD p.1 false = false) ∧
    (∃ f : StartFacts, ∃ s : State, s.module.mode = .starting ∧ s.power.sysResetHeld = false ∧ (∀ p ∈ s.mem.channels, f.dramOk.getD p.1
      false = true) ∧ f.selfChecksOk = false) ∧
    (∃ s : State, s.module.mode = .idleLink ∧ s.power.sysResetHeld = false) ∧
    (∃ m, ∃ b : Bool, ∃ s : State, s.module.mode ≠ .off ∧ m ≠ s.module.masterSel ∧ b = s.module.sideB) ∧
    (∃ low, ∃ s : State, s.module.mode ≠ .off ∧ s.power.serviceEn ≠ low ∧ s.update.connected = false) ∧
    (∃ s : State, inService s = true ∧ s.power.sysResetHeld = false ∧ s.power.shutdownDraining = false) ∧
    (∃ s : State, s.module.mode = .starting ∧ s.power.sysResetHeld = false ∧ s.power.shutdownDraining = false) ∧
    (∃ s : State, s.module.mode = .idleLink ∧ s.power.sysResetHeld = false ∧ s.power.shutdownDraining = false) ∧
    (∃ s : State, s.power.shutdownDraining = true ∧ drainEnded s = true ∧ s.queue.inFlight = []) :=
  ⟨⟨SFacts, st .starting, by decide +kernel⟩,
   ⟨{ SFacts with dramOk := [] }, (7, Channel.init), st .starting, by decide +kernel⟩,
   ⟨{ SFacts with selfChecksOk := false }, st .starting, by decide +kernel⟩,
   ⟨st .idleLink, by decide +kernel⟩,
   ⟨false, false, S, by decide +kernel⟩,
   ⟨true, S, by decide +kernel⟩,
   ⟨S, by decide +kernel⟩,
   ⟨st .starting, by decide +kernel⟩,
   ⟨st .idleLink, by decide +kernel⟩,
   ⟨pwr { PowerSt.init with shutdownDraining := true }, by decide +kernel⟩⟩

/-- The hypotheses of PowerComesAndGoes are met. -/
theorem witness_PowerComesAndGoes :
    (∃ volts : Nat, ∃ s : State, s.power.inlet0 = false ∧ 85 ≤ volts ∧ volts ≤ 265) ∧
    (∃ volts : Nat, ∃ s : State, s.power.inlet1 = true ∧ (volts < 75 ∨ 275 < volts)) ∧
    (∃ since : Nat, ∃ s : State, s.power.bothLostSince = some since ∧ since + 20000000 ≤ s.time.mono ∧ s.power.managementUp = true ∧
      (s.module.mode ≠ .off ∨ s.power.feed ≠ .off)) ∧
    (∃ since : Nat, ∃ s : State, s.power.bothLostSince = some since ∧ since + 60000000 ≤ s.time.mono ∧ s.power.managementUp = true ∧
      s.module.mode = .off ∧ s.power.feed = .off) ∧
    (∃ s : State, s.power.feed ≠ .off) ∧
    (∃ s : State, s.ts.powered = true ∧ s.power.inlet0 = false ∧ s.power.inlet1 = false) ∧
    (∃ s : State, s.ts.powered = false) ∧
    (∃ s : State, s.ts.powered = true ∧ inService s = true ∧ s.cascade.twinUp = true) ∧
    (∃ b : BootFacts, ∃ s : State, s.power.managementUp = false ∧ (s.power.inlet0 = true ∨ s.power.inlet1 = true) ∧ s.update.phase ≠
      .receiving ∧ bankBoots s b s.update.bootPointer = true) ∧
    (∃ s : State, s.power.managementUp = false ∧ (s.power.inlet0 = true ∨ s.power.inlet1 = true) ∧ s.module.mode = .off) :=
  ⟨⟨230, pwr { PowerSt.init with inlet0 := false }, by decide +kernel⟩,
   ⟨74, S, by decide +kernel⟩,
   ⟨0, pwr { PowerSt.init with inlet0 := false, inlet1 := false, bothLostSince := some 0 }, by decide +kernel⟩,
   ⟨0,
     { ups .off (upd .idle) with power := { PowerSt.init with inlet0 := false, inlet1 := false, bothLostSince := some 0, feed := .off } },
     by decide +kernel⟩,
   ⟨S, by decide +kernel⟩,
   ⟨pwr { PowerSt.init with inlet0 := false, inlet1 := false }, by decide +kernel⟩,
   ⟨{ S with ts := { TsSt.init with powered := false } }, by decide +kernel⟩,
   ⟨csc { CascadeSt.init with twinUp := true }, by decide +kernel⟩,
   ⟨BF true true, pwr { PowerSt.init with managementUp := false }, by decide +kernel⟩,
   ⟨{ ups .off (upd .idle) with power := { PowerSt.init with managementUp := false } }, by decide +kernel⟩⟩

/-- The hypotheses of UpdateCommandsComplete are met. -/
theorem witness_UpdateCommandsComplete :
    (∃ d, ∃ s : State, Executes d .updateStatus s ∧ d.dmaOk = true) ∧
    (∃ d, ∃ mask, ∃ staged, ∃ p, ∃ s : State, Executes d (.updateDistribute (position s) mask staged) s ∧ s.cascade.headstock = true ∧
      s.update.distribute = none ∧ s.update.phase = .staged ∧ namedModules mask s = [p] ∧ p ≠ position s ∧ inTouch s p = true) ∧
    (∃ d, ∃ mask, ∃ at_, ∃ staged, ∃ s : State, Executes d (.updateActivate mask at_ staged) s ∧ s.cascade.headstock = true ∧
      s.update.activate = none ∧ activateTimely at_ s = true ∧ positionsOf mask = [position s] ∧ s.update.phase = .staged ∧ inTxn s
      (position s) = false) ∧
    (∃ d, ∃ mask, ∃ at_, ∃ staged, ∃ s : State, Executes d (.updateActivate mask at_ staged) s ∧ s.cascade.headstock = true ∧
      activateTimely at_ s = false) ∧
    (∃ d, ∃ h, ∃ s : State, Executes d (.updateHitless (some h) false) s ∧ s.update.phase = .staged ∧ (stagedImage s).map Colilo.bodyHash
      = some h ∧ pairReady s = true) ∧
    (∃ d, ∃ twin, ∃ s : State, Executes d (.updateHitless twin false) s ∧ s.update.phase ≠ .staged) ∧
    (∃ d, ∃ streams, ∃ overlays, ∃ e, ∃ s : State, Executes d (.updateEngine streams overlays) s ∧ s.update.engine = none ∧
      s.update.phase = .staged ∧ replaceable s 3 = true ∧ replaceable s 4 = true ∧ e < 31 ∧ bit streams e = true) ∧
    (∃ d, ∃ s : State, Executes d .updateConfirm s ∧ s.update.phase = .trial) ∧
    (∃ d, ∃ s : State, Executes d .updateConfirm s ∧ s.update.phase ≠ .trial) ∧
    (∃ d, ∃ b : BootFacts, ∃ s : State, Executes d (.updateRevert b) s ∧ s.update.phase = .idle ∧ s.module.fallback = true ∧ bankBoots s
      b (otherBank s.update.bootPointer) = true) ∧
    (∃ d, ∃ b : BootFacts, ∃ s : State, Executes d (.updateRevert b) s ∧ s.update.phase = .trial ∧ bankBoots s b (otherBank
      s.update.bootPointer) = true) ∧
    (∃ d, ∃ b : BootFacts, ∃ s : State, Executes d (.updateRevert b) s ∧ (s.update.phase = .trial ∨ s.update.phase = .idle) ∧ bankBoots s
      b (otherBank s.update.bootPointer) = false) ∧
    (∃ d, ∃ mask, ∃ at_, ∃ s : State, Executes d (.updateCancel mask) s ∧ namedModules mask s = [position s] ∧ s.update.phase =
      .scheduled ∧ s.update.activateNs = some at_ ∧ s.time.wall + 100000000 ≤ at_ ∧ s.update.activate = none) :=
  ⟨⟨D, S, by decide +kernel⟩,
   ⟨D, 16, 1, 4, { ups .run (upd .staged) with cascade := HC }, by decide +kernel⟩,
   ⟨D, 1, 2001000000000, 1, { ups .run (upd .staged) with cascade := HC }, by decide +kernel⟩,
   ⟨D, 1, 0, 1, { ups .run (upd .staged) with cascade := HC }, by decide +kernel⟩,
   ⟨D, CO.bodyHash, { ups .run (upd .staged) with cascade := pr .active .standby }, by decide +kernel⟩,
   ⟨D, none, S, by decide +kernel⟩,
   ⟨D, 1, 0, 0, ups .run (upd .staged), by decide +kernel⟩,
   ⟨D, ups .run (upd .trial), by decide +kernel⟩,
   ⟨D, S, by decide +kernel⟩,
   ⟨D, BF true true, { ups .run (upd .idle) with module := { ModuleSt.init with mode := .run, fallback := true } }, by decide +kernel⟩,
   ⟨D, BF true true, ups .run (upd .trial), by decide +kernel⟩,
   ⟨D, BF true false, ups .run (upd .idle), by decide +kernel⟩,
   ⟨D, 1, 2000100000000, { ups .run { upd .scheduled with activateNs := some 2000100000000 } with cascade := HC }, by decide +kernel⟩⟩

/-- The hypotheses of TheServicePortUpdates are met. -/
theorem witness_TheServicePortUpdates :
    (∃ s : State, serviceUp s = true ∧ s.update.connected = false) ∧
    (∃ s : State, serviceUp s = true ∧ s.update.connected = true) ∧
    (∃ s : State, serviceUp s = true ∧ s.update.connected = true ∧ s.update.transfer = none) ∧
    (∃ h : HeaderBytes, ∃ s : State, serviceUp s = true ∧ s.update.connected = true ∧ s.update.transfer = none ∧ s.power.serviceEn = true
      ∧ (s.update.phase = .idle ∨ s.update.phase = .staged) ∧ headerFault (readColilo h) s = 0) ∧
    (∃ h : HeaderBytes, ∃ s : State, serviceUp s = true ∧ s.update.connected = true ∧ s.update.transfer = none ∧ s.update.body = [] ∧
      beginStatus (readColilo h) s ≠ 0) ∧
    (∃ bytes : List Byte, ∃ h : Colilo, ∃ s : State, serviceUp s = true ∧ s.update.connected = true ∧ s.update.transfer = some h ∧ bytes
      ≠ [] ∧ bytes.length ≤ 65536) ∧
    (∃ h : Colilo, ∃ s : State, serviceUp s = true ∧ s.update.connected = true ∧ s.update.transfer = some h ∧ s.update.phase = .receiving
      ∧ bodyMatches h s.update.body = true) ∧
    (∃ ok : Bool, ∃ h : Colilo, ∃ s : State, serviceUp s = true ∧ s.update.connected = true ∧ s.update.transfer = some h ∧ s.update.phase
      = .receiving ∧ (ok = false ∨ bodyMatches h s.update.body = false)) ∧
    (∃ h : Colilo, ∃ s : State, serviceUp s = true ∧ s.update.connected = true ∧ s.update.transfer = some h ∧ s.update.phase =
      .receiving) ∧
    (∃ h : Colilo, ∃ s : State, s.update.connected = true ∧ s.update.transfer = some h ∧ s.update.phase = .receiving ∧
      s.update.lastDataNs + 10000000000 ≤ s.time.mono) ∧
    (∃ s : State, s.update.connected = true ∧ s.update.transfer = none ∧ s.update.phase ≠ .receiving) :=
  ⟨⟨S, by decide +kernel⟩,
   ⟨svc .idle none, by decide +kernel⟩,
   ⟨svc .idle none, by decide +kernel⟩,
   ⟨HB, svc .idle none, by decide +kernel⟩,
   ⟨HB, { svc .idle none with power := PowerSt.init }, by decide +kernel⟩,
   ⟨[1], CO, svc .receiving (some CO), by decide +kernel⟩,
   ⟨CO, { svc .receiving (some CO) with update := { (svc .receiving (some CO)).update with body := BD } }, by decide +kernel⟩,
   ⟨true, CO, svc .receiving (some CO), by decide +kernel⟩,
   ⟨CO, svc .receiving (some CO), by decide +kernel⟩,
   ⟨CO, svc .receiving (some CO), by decide +kernel⟩,
   ⟨svc .idle none, by decide +kernel⟩⟩

/-- The hypotheses of UpdatesRunTheirCourse are met. -/
theorem witness_UpdatesRunTheirCourse :
    (∃ h : HeaderBytes, ∃ s : State, serviceUp s = true ∧ s.cascade.headstock = false ∧ s.update.phase = .idle ∧ headerFault (readColilo
      h) s = 0) ∧
    (∃ source : Nat, ∃ x : Inbound, ∃ s : State, serviceUp s = true ∧ s.update.inbound = some x ∧ x.source = source) ∧
    (∃ source : Nat, ∃ bytes, ∃ x : Inbound, ∃ s : State, serviceUp s = true ∧ s.cascade.headstock = false ∧ s.update.phase = .receiving
      ∧ s.update.inbound = some x ∧ x.source = source ∧ bodyMatches x.head (x.body ++ bytes) = true) ∧
    (∃ source : Nat, ∃ bytes, ∃ ok : Bool, ∃ x : Inbound, ∃ s : State, serviceUp s = true ∧ s.cascade.headstock = false ∧ s.update.phase
      = .receiving ∧ s.update.inbound = some x ∧ x.source = source ∧ (ok = false ∨ bodyMatches x.head (x.body ++ bytes) = false)) ∧
    (∃ h : HeaderBytes, ∃ s : State, serviceUp s = true ∧ s.cascade.headstock = false ∧ s.update.phase = .idle ∧ s.update.inbound = none
      ∧ headerFault (readColilo h) s ≠ 0) ∧
    (∃ b : BootFacts, ∃ at_ : Nat, ∃ s : State, s.update.phase = .scheduled ∧ s.update.activateNs = some at_ ∧ at_ ≤ s.time.wall ∧
      s.module.mode ≠ .off ∧ bankBoots s b (idleBank s) = true) ∧
    (∃ s : State, s.update.phase = .activating ∧ inService s = true ∧ s.module.bank = s.update.bootPointer ∧ s.update.activate = none ∧
      s.update.hitless = none) ∧
    (∃ s : State, s.update.phase = .activating ∧ inService s = true ∧ s.module.bank ≠ s.update.bootPointer ∧ s.update.activate = none ∧
      s.update.hitless = none) ∧
    (∃ h : Hitless, ∃ since : Nat, ∃ s : State, s.update.hitless = some h ∧ h.first = false ∧ h.step = 4 ∧ s.cascade.role = .active ∧
      s.cascade.swap = none ∧ h.equalSinceNs = some since ∧ since + 1000000000 ≤ s.time.mono) ∧
    (∃ h : Hitless, ∃ since : Nat, ∃ tk, ∃ s : State, s.update.hitless = some h ∧ h.step = 4 ∧ s.cascade.swap = none ∧ h.caughtUpNs =
      some since ∧ since + 30000000000 ≤ s.time.mono ∧ h.ticket = some tk) ∧
    (∃ e : Nat, ∃ j : EngineJob, ∃ s : State, s.update.engine = some j ∧ j.todo = [e] ∧ mainUp s = true ∧ e < 31 ∧ j.loaded = false ∧
      carried s e = []) ∧
    (∃ e : Nat, ∃ j : EngineJob, ∃ s : State, s.update.engine = some j ∧ j.todo = [e] ∧ mainUp s = true ∧ e < 31 ∧ j.loaded = true ∧
      j.moved = []) :=
  ⟨⟨HB, ups .run (upd .idle), by decide +kernel⟩,
   ⟨3, IB, ups .run { upd .receiving with inbound := some IB }, by decide +kernel⟩,
   ⟨3, [0, 0, 0, 0], IB, ups .run { upd .receiving with inbound := some IB }, by decide +kernel⟩,
   ⟨3, [0, 0, 0, 1], true, IB, ups .run { upd .receiving with inbound := some IB }, by decide +kernel⟩,
   ⟨{ HB with sigOk := false }, ups .run (upd .idle), by decide +kernel⟩,
   ⟨BF true true, 2000000000000, ups .run { upd .scheduled with activateNs := some 2000000000000 }, by decide +kernel⟩,
   ⟨ups .run (upd .activating), by decide +kernel⟩,
   ⟨ups .run { upd .activating with bootPointer := 1 }, by decide +kernel⟩,
   ⟨HL2, 0, { ups .run { upd .staged with hitless := some HL2 } with cascade := pr .active .standby }, by decide +kernel⟩,
   ⟨HL2, 0, K, { ups .run { upd .staged with hitless := some HL2 } with cascade := pr .active .standby }, by decide +kernel⟩,
   ⟨30, { ticket := K, todo := [30], loaded := false, moved := [], sinceNs := 0 }, ups .run
     { upd .staged with engine := some { ticket := K, todo := [30], loaded := false, moved := [], sinceNs := 0 } }, by decide +kernel⟩,
   ⟨30, { ticket := K, todo := [30], loaded := true, moved := [], sinceNs := 0 }, ups .run
     { upd .staged with engine := some { ticket := K, todo := [30], loaded := true, moved := [], sinceNs := 0 } }, by decide +kernel⟩⟩

/-- The hypotheses of MemoryIsReadAndWritten are met. -/
theorem witness_MemoryIsReadAndWritten :
    (∃ a : Access, ∃ s : State, a.write = false ∧ dramOn s = true ∧ inDram a.addr a.len = true ∧ accessWaits s a = false ∧ s.mem.poison =
      [] ∧ s.mem.injected = []) ∧
    (∃ a : Access, ∃ s : State, a.write = true ∧ dramOn s = true ∧ inDram a.addr a.len = true ∧ accessWaits s a = false ∧ a.data.length =
      a.len ∧ s.mem.poison = [] ∧ s.mem.injected = []) ∧
    (∃ a : Access, ∃ s : State, a.write = false ∧ dramOn s = true ∧ inDram a.addr a.len = true ∧ accessWaits s a = false ∧ 0 < a.len ∧
      a.addr / 64 = (a.addr + a.len - 1) / 64 ∧ s.mem.poison.contains (a.addr / 64) = true ∧ s.mem.injected = []) ∧
    (∃ a : Access, ∃ s : State, a.write = false ∧ dramOn s = true ∧ inDram a.addr a.len = true ∧ accessWaits s a = false ∧ 0 < a.len ∧
      a.addr / 64 = (a.addr + a.len - 1) / 64 ∧ s.mem.poison = [] ∧ s.mem.injected = [] ∧ s.mem.failed = []) ∧
    (∃ a : Access, ∃ s : State, dramOn s = true ∧ inDram a.addr a.len = true ∧ accessWaits s a = true) ∧
    (∃ s : State, dramOn s = true ∧ channelTrains s (channelOf s.mem s.mem.scrubPos) = false ∧ s.mem.poison = [] ∧ s.mem.injected = []) :=
  ⟨⟨AC false, S, by decide +kernel⟩,
   ⟨AC true, S, by decide +kernel⟩,
   ⟨AC false, dram { MemSt.init with poison := [0x10000000 / 64] }, by decide +kernel⟩,
   ⟨AC false, S, by decide +kernel⟩,
   ⟨AC false, dram { MemSt.init with channels := (List.range 8).map fun i => (i, { Channel.init with retraining := true }) },
     by decide +kernel⟩,
   ⟨S, by decide +kernel⟩⟩

/-- The hypotheses of RefreshAndActivatesKeepMemory are met. -/
theorem witness_RefreshAndActivatesKeepMemory :
    (∃ s : State, 0 < s.mem.ueUnraised ∧ s.mem.ueSecond < s.time.mono / second) ∧
    (∃ s : State, s.mem.ueUnraised = 0) ∧
    (∃ c : Nat, ∃ sub : Nat, ∃ ch : Channel, ∃ s : State, dramOn s = true ∧ c < 8 ∧ sub < 2 ∧ mapGet s.mem.channels c = some ch) ∧
    (∃ c : Nat, ∃ ch : Channel, ∃ s : State, mapGet s.mem.channels c = some ch ∧ dramOn s = true) ∧
    (∃ c : Nat, ∃ sub : Nat, ∃ bank : Nat, ∃ row : Nat, ∃ k : Nat, ∃ n : Nat, ∃ s : State, k = trackKey c sub bank row ∧ ((mapGetD
      s.mem.tables k []).find? fun p => p.1 = row) = some (row, n) ∧ n + 1 < rdThresh s.mem) ∧
    (∃ c : Nat, ∃ sub : Nat, ∃ bank : Nat, ∃ row : Nat, ∃ k : Nat, ∃ n : Nat, ∃ s : State, k = trackKey c sub bank row ∧ ((mapGetD
      s.mem.tables k []).find? fun p => p.1 = row) = some (row, n) ∧ rdThresh s.mem ≤ n + 1) ∧
    (∃ c : Nat, ∃ sub : Nat, ∃ bank : Nat, ∃ row : Nat, ∃ k : Nat, ∃ s : State, k = trackKey c sub bank row ∧ ((mapGetD s.mem.tables k
      []).find? fun p => p.1 = row) = none ∧ (mapGetD s.mem.tables k []).length < 16) ∧
    (∃ c : Nat, ∃ sub : Nat, ∃ bank : Nat, ∃ row : Nat, ∃ k : Nat, ∃ s : State, k = trackKey c sub bank row ∧ ((mapGetD s.mem.tables k
      []).find? fun p => p.1 = row) = none ∧ 16 ≤ (mapGetD s.mem.tables k []).length) :=
  ⟨⟨dram { MemSt.init with ueUnraised := 1 }, by decide +kernel⟩,
   ⟨S, by decide +kernel⟩,
   ⟨7, 1, Channel.init, S, by decide +kernel⟩,
   ⟨7, Channel.init, S, by decide +kernel⟩,
   ⟨0, 0, 0, 0, trackKey 0 0 0 0, 1, dram { MemSt.init with tables := [(trackKey 0 0 0 0, [(0, 1)])] }, by decide +kernel⟩,
   ⟨0, 0, 0, 0, trackKey 0 0 0 0, 3000, dram { MemSt.init with tables := [(trackKey 0 0 0 0, [(0, 3000)])] }, by decide +kernel⟩,
   ⟨0, 0, 0, 0, trackKey 0 0 0 0, S, by decide +kernel⟩,
   ⟨0, 0, 0, 0, trackKey 0 0 0 0, dram { MemSt.init with tables := [(trackKey 0 0 0 0, (List.range 16).map fun i => (100 + i, 1))] },
     by decide +kernel⟩⟩

/-- The hypotheses of MemoryDiagnosticsComplete are met. -/
theorem witness_MemoryDiagnosticsComplete :
    (∃ d, ∃ s : State, Executes d .memStatus s ∧ d.dmaOk = true) ∧
    (∃ d, ∃ c : Nat, ∃ ch : Channel, ∃ s : State, Executes d (.memRetrain c) s ∧ (c ≤ 7 ∨ c = 0xFF) ∧ s.module.mode = .maintenance ∧
      s.mem.retrain = none ∧ mapGet s.mem.channels (if c = 0xFF then 0 else c) = some ch) ∧
    (∃ d, ∃ c : Nat, ∃ s : State, Executes d (.memRetrain c) s ∧ (c ≤ 7 ∨ c = 0xFF) ∧ s.module.mode ≠ .maintenance) ∧
    (∃ c : Nat, ∃ tk, ∃ res : Items, ∃ r, ∃ ch : Channel, ∃ s : State, s.mem.retrain = some (tk, [c], res) ∧ mapGet s.mem.channels c =
      some ch ∧ s.mem.waiting = [] ∧ tk.origin = none ∧ tk.quiet = false ∧ s.host.attached = true ∧ cplRingOf s tk.ring = some r) ∧
    (∃ c : Nat, ∃ tk, ∃ res : Items, ∃ a : Access, ∃ s : State, s.mem.retrain = some (tk, [c], res) ∧ s.mem.waiting = [(a, [])] ∧ a.write
      = false ∧ s.mem.poison = [] ∧ s.mem.injected = [] ∧ (∀ b ∈ burstsOf a.addr a.len, channelOf s.mem (64 * b) = c) ∧ mapHas
      s.mem.channels c = true) ∧
    (∃ d, ∃ addr, ∃ devices, ∃ first, ∃ s : State, Executes d (.memInject addr devices first) s ∧ s.module.mode = .maintenance ∧ addr <
      Config.dramBytes ∧ (devices = 1 ∨ devices = 2) ∧ first ≤ 9 ∧ first + devices ≤ 10) :=
  ⟨⟨D, S, by decide +kernel⟩,
   ⟨D, 0xFF, Channel.init, st .maintenance, by decide +kernel⟩,
   ⟨D, 7, S, by decide +kernel⟩,
   ⟨7, K, [], 0, Channel.init, dram { MemSt.init with retrain := some (K, [7], []) }, by decide +kernel⟩,
   ⟨channelOf MemSt.init 0x10000000, K, [], AC false, dram
     { MemSt.init with retrain := some (K, [channelOf MemSt.init 0x10000000], []), waiting := [(AC false, [])] }, by decide +kernel⟩,
   ⟨D, 0, 2, 8, st .maintenance, by decide +kernel⟩⟩

/-- The hypotheses of GatesPassOrRefuse are met. -/
theorem witness_GatesPassOrRefuse :
    (∃ a : Access, ∃ s : State, a.write = false ∧ dramOn s = true ∧ inDram a.addr a.len = true ∧ a.len ≤ 512 ∧ accessWaits s a = false ∧
      (gateDo 0 a s).2.1 = false ∧ s.mem.poison = [] ∧ s.mem.injected = []) ∧
    (∃ a : Access, ∃ s : State, a.write = true ∧ dramOn s = true ∧ inDram a.addr a.len = true ∧ a.len ≤ 512 ∧ a.data.length = a.len ∧
      accessWaits s a = false ∧ (gateDo 0 a s).2.1 = false ∧ s.mem.poison = [] ∧ s.mem.injected = []) ∧
    (∃ a : Access, ∃ s : State, dramOn s = true ∧ inDram a.addr a.len = true ∧ 0 < a.len ∧ a.len ≤ 512 ∧ (checkAccess s 0 a).2.1.ok =
      false ∧ (checkAccess s 0 a).2.2 = none ∧ s.gates.faults = []) ∧
    (∃ who, ∃ s : State, RegOpen who 0x20804 true s) ∧
    (∃ d, ∃ mask, ∃ poll, ∃ s : State, Executes d (.gateFence mask poll) s ∧ mask < 512 ∧ (s.gates.draining.any fun g => bit mask g) =
      false) ∧
    (∃ d, ∃ mask, ∃ s : State, Executes d (.gateFence mask true) s ∧ mask < 512 ∧ (s.gates.draining.any fun g => bit mask g) = true) ∧
    (∃ d, ∃ mask, ∃ s : State, Executes d (.gateFence mask false) s ∧ mask < 512 ∧ (s.gates.draining.any fun g => bit mask g) = true) ∧
    (∃ mask : Nat, ∃ tk, ∃ r, ∃ s : State, s.gates.fences = [(mask, tk)] ∧ s.mem.waiting = [] ∧ tk.origin = none ∧ tk.quiet = false ∧
      s.host.attached = true ∧ cplRingOf s tk.ring = some r) ∧
    (∃ d, ∃ seq, ∃ s : State, Executes d (.gateFaultRead seq) s ∧ d.dmaOk = true) :=
  ⟨⟨AC false, gts { GateSt.init with contexts := [surfaceCtx SB] }, by decide +kernel⟩,
   ⟨AC true, gts { GateSt.init with contexts := [surfaceCtx SB] }, by decide +kernel⟩,
   ⟨AC false, S, by decide +kernel⟩,
   ⟨⟨2, 0⟩, S, by decide +kernel⟩,
   ⟨D, 511, false, S, by decide +kernel⟩,
   ⟨D, 1, gts { GateSt.init with draining := [0] }, by decide +kernel⟩,
   ⟨D, 1, gts { GateSt.init with draining := [0] }, by decide +kernel⟩,
   ⟨1, K, 0, gts { GateSt.init with fences := [(1, K)] }, by decide +kernel⟩,
   ⟨D, 0, S, by decide +kernel⟩⟩

/-- The hypotheses of OverlapIsRefused are met. -/
theorem witness_OverlapIsRefused :
    (∃ (s : State) (who : Initiator) (a : Nat) (c : Context) (l : List ObjRegion) (x : ObjRegion) (y : ObjRegion) (rest : List
      ObjRegion), who.cls ≠ 0 ∧ who.cls ≠ 9 ∧ objRegions s who c = some l ∧ (l.filter fun r => inObj a r) = x :: y :: rest) ∧
    (∃ (s : State) (gate : Nat) (who : Initiator) (a : Nat) (c : Context) (w : Bool) (x : Nat × RuleRegion) (y : Nat × RuleRegion) (rest
      : List (Nat × RuleRegion)), who.cls ≠ 0 ∧ (objectCheck s gate who c a w).ok = true ∧ ((driverRegions s gate).filter fun p => inRule
      a p.2) = x :: y :: rest) ∧
    (∃ (s : State) (gate : Nat) (a : Access), (((checkAccess s gate a).2.1.ok = false ∧ (checkAccess s gate a).2.1.cause = 4) ∨ (∃ q,
      (checkAccess s gate a).2.2 = some q ∧ q.ok = false ∧ q.cause = 4)) ∧ s.mem.poison = [] ∧ s.mem.injected = [] ∧ s.mgmt.logSuppressed
      = 0) :=
  ⟨⟨gts { GateSt.init with contexts := [{ ctx := .surface 9, who := [⟨1, 0⟩], regions := [RG, RG] }] }, ⟨1, 0⟩, 0x10000000, .surface 9,
     [RG, RG], RG, RG, [], by decide +kernel⟩,
   ⟨gts { GateSt.init with contexts := [{ ctx := .surface 9, who := [⟨1, 0⟩], regions := [RG] }], rules := [(0, RU)] }, 0, ⟨1, 0⟩,
     0x10000000, .surface 9, false, (0, ⟨0x10000000, 1, 0x3FF, 0x3FF⟩), (0, ⟨0x10000000, 1, 0x3FF, 0x3FF⟩), [], by decide +kernel⟩,
   ⟨gts { GateSt.init with contexts := [{ ctx := .surface 9, who := [⟨1, 0⟩], regions := [RG, RG] }] }, 0, AC false, ⟨.inl
     (by decide +kernel), by decide, by decide, by decide⟩⟩⟩

/-! ## Ill-formed terms, one for each check -/

theorem test_ill_formed_fields :
    fits 4 16 = false ∧ Rect.wf ⟨0, 0, 65536, 0⟩ = false ∧ Desc.wf { D with ring := 16 } = false ∧ Desc.wf { D with target := 256 } = false :=
  by decide

theorem test_ill_formed_ingest :
    PortBody.wf { (default : PortBody) with vlan := 4096 } = false ∧ Leg.wf { (default : Leg) with udpPort := 65536 } = false
      ∧ IngestParams.wf { (default : IngestParams) with legB := { (default : Leg) with lane := 256 } } = false
      ∧ IngestOpenBody.wf { (default : IngestOpenBody) with source := 65536 } = false
      ∧ ProxyBody.wf { (default : ProxyBody) with dscp := 256 } = false ∧ RtpPacket.wf { (default : RtpPacket) with port := 6 } = false :=
  by decide

theorem test_ill_formed_sources :
    AttachBody.wf { (default : AttachBody) with codec := 256 } = false ∧ LedgerBody.wf { (default : LedgerBody) with parent := 65536 } = false
      ∧ VouchBody.wf { (default : VouchBody) with uNs := 4294967296 } = false :=
  by decide

theorem test_ill_formed_pictures :
    SurfaceBody.wf { (default : SurfaceBody) with width := 65536 } = false ∧ UploadBody.wf { (default : UploadBody) with image := 256 } = false
      ∧ WritebackBody.wf { (default : WritebackBody) with everyN := 256 } = false
      ∧ AuxBody.wf { (default : AuxBody) with addr := 1048576 } = false
      ∧ RecordBody.wf { (default : RecordBody) with head := 256 } = false :=
  by decide

theorem test_ill_formed_overlay :
    FontBody.wf { (default : FontBody) with count := 65536 } = false ∧ BindBody.wf { (default : BindBody) with palette := [] } = false
      ∧ RunBody.wf { (default : RunBody) with text := [256] } = false ∧ Item.wf { (default : Item) with index := 256 } = false :=
  by decide

theorem test_ill_formed_others :
    Initiator.wf ⟨10, 0⟩ = false ∧ Access.wf { (default : Access) with len := 513 } = false
      ∧ HeaderBytes.wf { (default : HeaderBytes) with bytes := [] } = false ∧ LineToken.wf { (default : LineToken) with head := 32 } = false
      ∧ LuasinFrame.wf { (default : LuasinFrame) with lane := 32 } = false ∧ Sys2Proof.laneOf .twin 12 = false
      ∧ HostCmd.wf (.tailstockStatus 256) = false :=
  by decide

theorem test_ill_formed_commands :
    ([.txnAbort { D with ring := 16 } 0, .decodeSelftestDone 8 none, .lateTimer 8192, .recordReleased 1, .registerWrite 0x1002 0,
      .registerWrite 0x10000 0, .frameStart 32, .neighbourRequestRx 6 0 0 0, .hostLink true 5 1, .memoryAccess { (default : Access) with len := 0 } [],
      .rowActivate 8 0 0 0 false, .presenceTimeout 64, .gateAccess 9 default, .laneSlot .east 4] : List Instr).all (fun c => !c.wf) = true :=
  by decide

/-! ## The decoder, and the first command after reset -/

/-- The table gives no row any bits: no word spells a command, and placing a word changes nothing. -/
theorem test_no_word_decodes (n w : Nat) : decodeTableWord n w = none ∧ State.reset.withFetchWord n w = State.reset := ⟨rfl, rfl⟩

/-- After reset nothing waits, and an idle step lets one nanosecond pass. -/
theorem test_idle_from_reset : ∃ t, step State.reset = .next t ∧ t.time.wall = 1 ∧ t.pending = [] := ⟨_, rfl, rfl, rfl⟩

/-! ## Effects, from the manual's worked examples and tables -/

/-- R371: address 0x07_4000_1A40 lies in channel 2 at local address 0xE800_0A40, with the hash as it is at reset. -/
theorem test_channel_of_address :
    channelOf State.reset.mem 0x0740001A40 = 2 ∧ localOf State.reset.mem 0x0740001A40 = 0xE8000A40 := by decide +kernel

/-- R278, R281: one descriptor taken moves the ring's consumer index by one, and NOP completes with SUCCESS. -/
theorem test_nop_completes :
    ∃ t, exec (.nop D) S = .next t ∧ mapGet t.host.cmdCons 0 = some 1
      ∧ (t.outbox.any fun o => match o with | .completion _ _ _ c _ => c.status = 0 | _ => false) = true :=
  ⟨_, rfl, by decide +kernel, by decide +kernel⟩

/-- R398: a free lock reads 0 and is taken; a held one reads its holder's id plus one. -/
theorem test_lock_is_taken_once :
    ∃ t, exec (.lockRead 5 ⟨8, 1⟩) S = .next t ∧ mapGet t.mbx.locks 5 = some (initiatorId ⟨8, 1⟩) := ⟨_, rfl, by decide +kernel⟩

/-- R6: an access that is not an aligned 32-bit one is counted. -/
theorem test_bad_access_is_counted : ∃ t, exec (.badAccess true) S = .next t ∧ t.host.badAccess = 1 := ⟨_, rfl, by decide +kernel⟩

/-- R276: HOSTIF.RUN set by the driver. -/
theorem test_run_is_set : ∃ t, exec (.hostRun 1) (st .setup) = .next t ∧ t.host.run = true := ⟨_, rfl, by decide +kernel⟩

/-- The premise of StepsKeepMemoryCanonical is met. -/
theorem witness_StepsKeepMemoryCanonical : ∃ s t, MemInv s ∧ step s = .next t := ⟨State.reset, _, by decide, rfl⟩

end Sys2Proof.Machine
end

-- Lines that fall due (R201, R211 to R214)
section
/-! SUPPORT. What the emission of a line rests on, and that telling an event or a fault leaves it alone; the run of a line's
pixels; what a line that falls due is taken from. -/

namespace Sys2Proof.Machine

open Sys2Proof

/-! ## What the lines of a head rest on -/

/-- Time, timing, material, hold memory and the lines held ahead: what decides where a line of a head comes from and when its pixels leave. -/
structure LineBase where
  (time : TimeSt)
  (groupRecs : Map SyncGroup)
  (egress : Map EgressPort)
  (once : HeadOnce)
  (startMono : Nat)
  (hold : Map HeldLine)
  (own twin : StreamRt)
  (replayed : Nat)

/-- That base, with the line being emitted and those emitted whole. -/
structure LineView where
  (base : LineBase)
  (line : Option LineNow)
  (emitted : Map EmLine)

/-- The view of a state with the head `h`. -/
def viewWith (s : State) (h : HeadRt) : LineView :=
  { base := ⟨s.time, s.ts.groupRecs, s.ts.egress, h.once, h.startMono, h.hold, h.own, h.twin, h.replayed⟩
    line := h.line
    emitted := h.emitted }

/-- The view of a head. -/
def lineView (key : Nat) (s : State) : LineView := viewWith s (headRt s key)

@[simp] theorem headRt_putHead (key : Nat) (h : HeadRt) (s : State) : headRt (putHead key h s) key = h := by
  simp [headRt, putHead, mapGetD]

theorem lineView_putHead (key : Nat) (h : HeadRt) (s : State) : lineView key (putHead key h s) = viewWith s h := by
  unfold lineView
  rw [headRt_putHead]
  rfl

/-- A head written with the same lines and what they rest on keeps the view. -/
theorem lineView_putHead_keeps {key : Nat} {h : HeadRt} {s : State} (e : viewWith s h = lineView key s) :
    lineView key (putHead key h s) = lineView key s := (lineView_putHead key h s).trans e

theorem Reporting.lineView {s t : State} (h : Reporting s t) (key : Nat) : lineView key t = lineView key s := by
  rw [h]
  rfl

@[simp] theorem lineView_emit (key : Nat) (o : Out) (s : State) : lineView key (emit o s) = lineView key s := rfl

/-! ## Telling leaves it alone -/

theorem deliverTs_reporting (e : TsEvent) (s : State) : Reporting s (deliverTs e s) :=
  ((modQueue_reporting s _).trans (logEvent_reporting ..)).trans (deliver_reporting ..)

@[simp] theorem lineView_tsRaise (key code : Nat) (k : ScopeKind) (id : Nat) (l : Items) (a : Bool) (s : State) :
    lineView key (tsRaise code k id l a s) = lineView key s := by
  unfold tsRaise
  dsimp only
  split
  · exact (deliverTs_reporting _ s).lineView key
  · split <;> rfl

@[simp] theorem lineView_tsHeadEvent (key code k : Nat) (l : Items) (s : State) :
    lineView key (tsHeadEvent code k l s) = lineView key s := lineView_tsRaise ..

@[simp] theorem lineView_tsLimited (key k n code head : Nat) (mk : Nat → Items) (a : Bool) (s : State) :
    lineView key (tsLimited k n code head mk a s) = lineView key s := by
  unfold tsLimited
  dsimp only
  split
  · exact lineView_tsRaise ..
  · split
    · rfl
    · exact lineView_tsRaise ..

@[simp] theorem lineView_tsFaults (key cause n : Nat) (s : State) : lineView key (tsFaults key cause n s) = lineView key s := by
  unfold tsFaults
  split
  · rfl
  · exact (lineView_tsLimited ..).trans (lineView_putHead_keeps rfl)

@[simp] theorem lineView_tsFault (key cause : Nat) (s : State) : lineView key (tsFault key cause s) = lineView key s :=
  lineView_tsFaults ..

@[simp] theorem lineView_settleHead (key : Nat) (s : State) : lineView key (settleHead key s) = lineView key s := by
  unfold settleHead enterHead
  dsimp only
  split
  · rfl
  · exact (lineView_tsHeadEvent ..).trans (lineView_putHead_keeps rfl)

@[simp] theorem lineView_setSupply (key new : Nat) (s : State) : lineView key (setSupply key new s) = lineView key s := by
  unfold setSupply
  dsimp only
  split
  · rfl
  · exact (lineView_tsHeadEvent ..).trans (lineView_putHead_keeps rfl)

@[simp] theorem lineView_tellMismatchOf (key : Nat) (m : Option (Nat × Nat × Nat × Nat × Nat)) (s : State) :
    lineView key (tellMismatchOf key m s) = lineView key s := by
  unfold tellMismatchOf
  dsimp only
  split
  · split
    · rfl
    · exact (lineView_tsHeadEvent ..).trans (lineView_putHead_keeps rfl)
  · rfl

@[simp] theorem lineView_setBitmap (key : Nat) (side : Side) (b : BitmapRt) (s : State) :
    lineView key (setBitmap side b s) = lineView key s := by
  cases side <;> rfl

@[simp] theorem lineView_tellErrors (key : Nat) (k : LineKind) (e : LineErrors) (s : State) :
    lineView key (tellErrors key k e s) = lineView key s := by
  unfold tellErrors
  dsimp only
  cases k with
  | stream d | held d => split_ifs <;> simp
  | plate | empty => split_ifs <;> simp

theorem lineView_putPacket (key : Nat) (n : LineNow) (j : Nat) (s : State) :
    lineView key (putPacket key n j s) = lineView key s := by
  unfold putPacket
  exact (lineView_emit ..).trans (lineView_putHead_keeps rfl)

theorem lineView_putPackets (key : Nat) (n : LineNow) (l : List Nat) (s : State) :
    lineView key (l.foldl (fun s j => putPacket key n j s) s) = lineView key s := by
  induction l generalizing s with
  | nil => rfl
  | cons j l ih => exact (ih _).trans (lineView_putPacket ..)

@[simp] theorem lineView_putPixels (key : Nat) (n : LineNow) (from_ : Nat) (s : State) :
    lineView key (putPixels key n from_ s) = lineView key s := by
  unfold putPixels
  dsimp only
  split
  · rfl
  · split
    · split <;> rfl
    · exact lineView_putPackets ..

/-! ## What the base decides -/

theorem time_of_base {key : Nat} {s t : State} (h : (lineView key t).base = (lineView key s).base) : t.time = s.time :=
  congrArg LineBase.time h

theorem once_of_base {key : Nat} {s t : State} (h : (lineView key t).base = (lineView key s).base) :
    (headRt t key).once = (headRt s key).once := congrArg LineBase.once h

theorem hold_of_base {key : Nat} {s t : State} (h : (lineView key t).base = (lineView key s).base) :
    (headRt t key).hold = (headRt s key).hold := congrArg LineBase.hold h

theorem sideOf_of_base {key : Nat} {s t : State} (h : (lineView key t).base = (lineView key s).base) (d : Side) :
    sideOf (headRt t key) d = sideOf (headRt s key) d := by
  cases d
  · exact congrArg LineBase.own h
  · exact congrArg LineBase.twin h

/-- The instants of a head's pixels follow from the base. -/
theorem pixelTime_of_base {key : Nat} {s t : State} (h : (lineView key t).base = (lineView key s).base) (line x : Nat) :
    pixelTime t key (headRt t key) line x = pixelTime s key (headRt s key) line x := by
  have hg : t.ts.groupRecs = s.ts.groupRecs := congrArg LineBase.groupRecs h
  have he : t.ts.egress = s.ts.egress := congrArg LineBase.egress h
  have hs : (headRt t key).startMono = (headRt s key).startMono := congrArg LineBase.startMono h
  unfold pixelTime tsGroup headerBytes
  rw [hg, he, hs, once_of_base h]

/-! ## The run of a line's pixels (R203) -/

/-- Whatever a line comes from, each of its pixels gives one pixel out. -/
theorem emitPixel_out_length (s : State) (key : Nat) (h : HeadRt) (n : LineNow) (x : Nat) (c : Rgb) (a : LineAcc) :
    (emitPixel s key h n x c a).out.length = a.out.length + 1 := by
  have composed (side : Side) (held : Bool) : (emitComposed s key h n side held x c a).out.length = a.out.length + 1 := by
    unfold emitComposed
    split
    · rfl
    · split <;> rfl
  unfold emitPixel
  split
  · exact composed ..
  · exact composed ..
  · rfl
  · rfl

/-- A run emits the first `j` pixels, and stops at the end or at a pixel whose instant has not come. -/
theorem emitRun_emits (s : State) (key : Nat) (h : HeadRt) (n : LineNow) (x : Nat) (px : List Rgb) (a : LineAcc) :
    ∃ j, (emitRun s key h n x px a).1 = x + j ∧ (emitRun s key h n x px a).2.1 = px.drop j
      ∧ (emitRun s key h n x px a).2.2.out.length = a.out.length + j
      ∧ (j = px.length ∨ j < px.length ∧ s.time.mono < pixelTime s key h n.line (x + j)) := by
  induction px generalizing x a with
  | nil => exact ⟨0, rfl, rfl, rfl, .inl rfl⟩
  | cons c px ih =>
    unfold emitRun
    split
    · obtain ⟨j, hx, hrest, hout, hstop⟩ := ih (x + 1) (emitPixel s key h n x c a)
      rw [emitPixel_out_length] at hout
      refine ⟨j + 1, by omega, hrest, by omega, hstop.imp (by simp) fun ⟨hlt, hp⟩ => ⟨by simpa using hlt, ?_⟩⟩
      rwa [show x + (j + 1) = x + 1 + j by omega]
    · next hnot => exact ⟨0, rfl, rfl, rfl, .inr ⟨by simp, by simpa using hnot⟩⟩

/-- A run that reaches no further column has emitted nothing. -/
theorem emitRun_stays {s : State} {key : Nat} {h : HeadRt} {n : LineNow} {x : Nat} {px : List Rgb} {a : LineAcc}
    (hx : (emitRun s key h n x px a).1 = x) : emitRun s key h n x px a = (x, px, a) := by
  cases px with
  | nil => rfl
  | cons c px =>
    unfold emitRun at hx ⊢
    split at hx
    · obtain ⟨j, hj, -⟩ := emitRun_emits s key h n (x + 1) px (emitPixel s key h n x c a)
      omega
    · next hnot => exact if_neg hnot

/-! ## The line being emitted advances -/

/-- The line being emitted after the run of its pixels whose instants have come. -/
def lineRun (key : Nat) (s : State) (n : LineNow) : LineNow :=
  let r := emitRun s key (headRt s key) n n.x n.rest (accOf (headRt s key) n)
  { n with rest := r.2.1, x := r.1, out := r.2.2.out, fresh := r.2.2.fresh }

/-- A line of which nothing has been emitted, after its run: its first pixels are out, and the next one's instant has not come. -/
theorem lineRun_from_start {key : Nat} {s : State} {n : LineNow} (hx : n.x = 0) (ho : n.out = []) :
    (lineRun key s n).rest = n.rest.drop (lineRun key s n).x ∧ (lineRun key s n).out.length = (lineRun key s n).x
      ∧ ((lineRun key s n).x = n.rest.length ∨ (lineRun key s n).x < n.rest.length
        ∧ s.time.mono < pixelTime s key (headRt s key) n.line (lineRun key s n).x) := by
  obtain ⟨j, hj, hrest, hout, hstop⟩ := emitRun_emits s key (headRt s key) n n.x n.rest (accOf (headRt s key) n)
  have hacc : (accOf (headRt s key) n).out = [] := ho
  rw [hacc, List.length_nil, Nat.zero_add] at hout
  have hj0 : (lineRun key s n).x = j := by
    rw [show (lineRun key s n).x = n.x + j from hj, hx, Nat.zero_add]
  rw [hx, Nat.zero_add] at hstop
  rw [hj0]
  exact ⟨hrest, hout, hstop⟩

theorem lineRun_stays {key : Nat} {s : State} {n : LineNow} (h : (lineRun key s n).x = n.x) : lineRun key s n = n := by
  unfold lineRun
  rw [emitRun_stays h]
  rfl

theorem advanceLine_none {key : Nat} {s : State} (h : (headRt s key).line = none) : advanceLine key s = s := by
  simp [advanceLine, h]

/-- A line with pixels left goes on from where its run stopped. -/
theorem advanceLine_part {key : Nat} {s : State} {n : LineNow} (hn : (headRt s key).line = some n) (hr : (lineRun key s n).rest ≠ []) :
    lineView key (advanceLine key s) = { lineView key s with line := some (lineRun key s n) } := by
  by_cases hx : (lineRun key s n).x = n.x
  · have : advanceLine key s = s := by
      simp only [lineRun] at hx hr
      simp [advanceLine, hn, hx, hr]
    rw [this, lineRun_stays hx, ← hn]
    rfl
  · simp only [lineRun] at hx hr
    simp only [advanceLine, hn, hx, decide_false, Bool.false_and, Bool.false_eq_true, ↓reduceIte, List.isEmpty_iff, hr,
      lineView_putPixels, lineView_tsFaults, lineView_tellMismatchOf, lineView_putHead]
    rfl

/-- A line emitted whole, as the frame keeps it. -/
def emittedLine (m : LineNow) : EmLine := { pixels := m.out.reverse, fresh := m.fresh.reverse }

/-- A line emitted whole is among the lines of the frame as emitted. -/
theorem advanceLine_whole {key : Nat} {s : State} {n : LineNow} (hn : (headRt s key).line = some n) (hr : (lineRun key s n).rest = []) :
    lineView key (advanceLine key s)
      = { lineView key s with
          line := none
          emitted := mapPut (headRt s key).emitted n.line (emittedLine (lineRun key s n)) } := by
  simp only [lineRun] at hr
  simp only [advanceLine, hn, hr, List.isEmpty_nil, Bool.not_true, Bool.and_false, Bool.false_eq_true, ↓reduceIte,
    lineView_putPixels, lineView_tsFaults, lineView_tellMismatchOf, lineView_putHead]
  rfl

/-- However far a line advances, what it rests on stays. -/
theorem advanceLine_base (key : Nat) (s : State) : (lineView key (advanceLine key s)).base = (lineView key s).base := by
  cases hn : (headRt s key).line with
  | none => rw [advanceLine_none hn]
  | some n =>
    by_cases hr : (lineRun key s n).rest = []
    · rw [advanceLine_whole hn hr]
    · rw [advanceLine_part hn hr]

/-- A line of which nothing has been emitted runs. -/
theorem advanceLine_runs {key : Nat} {s : State} {n : LineNow} (hn : (headRt s key).line = some n) (hx : n.x = 0) (ho : n.out = []) :
    LineRuns key n.line n.kind n.spans n.rest (advanceLine key s) := by
  obtain ⟨hrest, hout, hstop⟩ := lineRun_from_start (key := key) (s := s) hx ho
  have hbase := advanceLine_base key s
  by_cases hr : (lineRun key s n).rest = []
  · have hv := advanceLine_whole hn hr
    have hall : (lineRun key s n).x = n.rest.length := by
      have := List.drop_eq_nil_iff.mp (hrest.symm.trans hr)
      omega
    have hemitted : (headRt (advanceLine key s) key).emitted = mapPut (headRt s key).emitted n.line (emittedLine (lineRun key s n)) :=
      congrArg LineView.emitted hv
    refine .inr ⟨congrArg LineView.line hv, emittedLine (lineRun key s n), ?_, ?_⟩
    · rw [hemitted, mapGet_mapPut_self]
    · rw [emittedLine, List.length_reverse, hout, hall]
  · have hlt : (lineRun key s n).x < n.rest.length ∧ s.time.mono < pixelTime s key (headRt s key) n.line (lineRun key s n).x :=
      hstop.resolve_left fun h => hr (by rw [hrest, h, List.drop_length])
    refine .inl ⟨lineRun key s n, congrArg LineView.line (advanceLine_part hn hr), rfl, rfl, rfl, hrest, hout, hlt.1, ?_⟩
    rw [time_of_base hbase, pixelTime_of_base hbase]
    exact hlt.2

/-- A line that begins to be emitted runs. -/
theorem beginLine_runs (key line : Nat) (k : LineKind) (spans : List Span) (px : List Rgb) (e : LineErrors) (s : State) :
    LineRuns key line k spans px (beginLine key line k spans px e s) :=
  advanceLine_runs (n := ⟨line, k, spans, px, 0, [], [], e⟩) (by rw [headRt_putHead]) rfl rfl

/-- What a line rests on stays as it begins. -/
theorem beginLine_base (key line : Nat) (k : LineKind) (spans : List Span) (px : List Rgb) (e : LineErrors) (s : State) :
    (lineView key (beginLine key line k spans px e s)).base = (lineView key s).base := by
  unfold beginLine
  rw [advanceLine_base, lineView_putHead, ← lineView_tellErrors key k e s]
  rfl

theorem plainLine_runs (key line : Nat) (k : LineKind) (e : LineErrors) (s : State) :
    LineRuns key line k [] (List.replicate (headRt s key).once.timing.hActive ⟨0, 0, 0⟩) (plainLine key line k e s) :=
  beginLine_runs ..

theorem plainLine_base (key line : Nat) (k : LineKind) (e : LineErrors) (s : State) :
    (lineView key (plainLine key line k e s)).base = (lineView key s).base := beginLine_base ..

/-! ## A line that is present (R211, R212) -/

theorem setSide_hold (h : HeadRt) (d : Side) (r : StreamRt) : (setSide h d r).hold = h.hold := by cases d <;> rfl

theorem sideOf_setSide (h : HeadRt) (d : Side) (r : StreamRt) : sideOf (setSide h d r) d = r := by cases d <;> rfl

/-- A line present is one of its frame and number. -/
theorem linePresent_token {h : HeadRt} {d : Side} {n line due : Nat} {tok : LineToken} (hp : linePresent h d n line due = some tok) :
    tok.frameNo = n ∧ tok.line = line := by
  obtain ⟨p, hfind, rfl⟩ := Option.map_eq_some_iff.mp hp
  have hmatch := List.find?_some hfind
  simp only [Bool.and_eq_true, decide_eq_true_eq] at hmatch
  exact hmatch.1

/-- With its tokens dropped from a stream, no line is present at any instant. -/
theorem linePresent_dropped {h : HeadRt} {d : Side} {l : List (Nat × LineToken)} {n line : Nat}
    (hl : (sideOf h d).ahead = l.filter fun x => !(x.2.frameNo = n && x.2.line = line)) (due : Nat) :
    linePresent h d n line due = none := by
  unfold linePresent
  rw [hl, Option.map_eq_none_iff, List.find?_eq_none]
  intro p hp
  have hother := (List.mem_filter.mp hp).2
  grind

/-- What is kept of a line present: its token as composed (R212). -/
def keptLine (d : Side) (tok : LineToken) : HeldLine :=
  { frameNo := tok.frameNo, side := d, spans := tok.spans, pixels := tok.pixels, bad := false }

/-- The head that has taken a line present: its token is kept in hold memory and dropped from those held ahead. -/
def headTaking (h : HeadRt) (line : Nat) (d : Side) (tok : LineToken) : HeadRt :=
  setSide { h with hold := mapPut h.hold line (keptLine d tok) } d
    { sideOf h d with ahead := (sideOf h d).ahead.filter fun x => !(x.2.frameNo = tok.frameNo && x.2.line = line) }

theorem headTaking_hold (h : HeadRt) (line : Nat) (d : Side) (tok : LineToken) :
    mapGet (headTaking h line d tok).hold line = some (keptLine d tok) := by
  rw [headTaking, setSide_hold, mapGet_mapPut_self]

theorem headTaking_not_present (h : HeadRt) (line : Nat) (d : Side) (tok : LineToken) (due : Nat) :
    linePresent (headTaking h line d tok) d tok.frameNo line due = none :=
  linePresent_dropped (by rw [headTaking, sideOf_setSide]) due

theorem presentLine_eq (key line : Nat) (d : Side) (tok : LineToken) (e : LineErrors) (s : State) :
    presentLine key line d tok e s
      = beginLine key line (.stream d) tok.spans tok.pixels e (putHead key (headTaking (headRt s key) line d tok) s) := rfl

/-- A present line begins, kept in hold memory and present no longer. -/
theorem presentLine_runs (key line : Nat) (d : Side) (tok : LineToken) (e : LineErrors) (s : State) :
    LineRuns key line (.stream d) tok.spans tok.pixels (presentLine key line d tok e s)
      ∧ mapGet (headRt (presentLine key line d tok e s) key).hold line = some (keptLine d tok)
      ∧ ∀ due, linePresent (headRt (presentLine key line d tok e s) key) d tok.frameNo line due = none := by
  rw [presentLine_eq]
  have hbase := beginLine_base key line (.stream d) tok.spans tok.pixels e (putHead key (headTaking (headRt s key) line d tok) s)
  refine ⟨beginLine_runs .., ?_, fun due => ?_⟩
  · rw [hold_of_base hbase, headRt_putHead, headTaking_hold]
  · unfold linePresent
    rw [sideOf_of_base hbase, headRt_putHead]
    exact headTaking_not_present (headRt s key) line d tok due

/-! ## A line that is not present (R211 to R214) -/

/-- The state in which a line is replayed: it counts, and what that tells is told. -/
def replayTold (key : Nat) (s : State) : State :=
  let h := headRt s key
  let s := putHead key { h with replayed := h.replayed + 1, replayedTotal := h.replayedTotal + 1 } s
  let s := if streamSilent s h && h.supply = 3 then settleHead key (setSupply key 4 s) else s
  if h.passed.isSome then tsLimited (limKey 0x0784 key 0) 1 0x0784 key (fun c => [it 4 c, it 6 (h.frame.getD 0)]) false s else s

/-- Telling that a line is replayed changes only the count of them. -/
theorem replayTold_view (key : Nat) (s : State) :
    lineView key (replayTold key s)
      = { lineView key s with base := { (lineView key s).base with replayed := (headRt s key).replayed + 1 } } := by
  unfold replayTold
  dsimp only
  split_ifs
  all_goals
    simp only [lineView_tsLimited, lineView_settleHead, lineView_setSupply, lineView_putHead]
    rfl

theorem replayLine_held {key line : Nat} {l : HeldLine} {s : State} (e : LineErrors) (hl : mapGet (headRt s key).hold line = some l)
    (hb : l.bad = false) :
    replayLine key line e s
      = beginLine key line (.held l.side) (l.spans.map fun p => { p with held := true }) l.pixels e (replayTold key s) := by
  simp [replayLine, replayTold, hl, hb]

/-- Where no sound line is held, the line is empty, after the fault of the damaged one, if any. -/
theorem replayLine_empty {key line : Nat} {s : State} (e : LineErrors) (hl : ∀ l, mapGet (headRt s key).hold line = some l → l.bad = true) :
    ∃ u, lineView key u = lineView key (replayTold key s) ∧ replayLine key line e s = plainLine key line .empty e u := by
  cases hm : mapGet (headRt s key).hold line with
  | none => exact ⟨replayTold key s, rfl, by simp [replayLine, replayTold, hm]⟩
  | some l => exact ⟨tsFault key 6 (replayTold key s), lineView_tsFault .., by simp [replayLine, replayTold, hm, hl l hm]⟩

/-! ## A line that falls due (R211, R213) -/

/-- A line of frame `n` of a head falls due: it is of the frame, not emitted yet, with none before it under way, and its first pixel's instant
has come. -/
structure FallsDue (key line n : Nat) (s : State) : Prop where
  head : key ≤ 31
  served : headServed s key = true
  frame : (headRt s key).frame = some n
  idle : (headRt s key).line = none
  active : line < (headRt s key).once.timing.vActive
  fresh : mapHas (headRt s key).emitted line = false
  due : pixelTime s key (headRt s key) line 0 ≤ s.time.mono

/-- LINE_DUE of a line that falls due begins it. -/
theorem FallsDue.completes {key line n : Nat} {s : State} (h : FallsDue key line n s) (e : LineErrors) {p : State → Prop}
    (hp : p (dueLine key line n e s)) : Completes (.lineDue key ⟨line, e⟩) s p := by
  refine ⟨dueLine key line n e s, ?_, hp⟩
  have hk := h.head
  have ha := h.active
  have hd := h.due
  change execLineDue key ⟨line, e⟩ s = _
  simp [execLineDue, advanceLine_none h.idle, h.served, h.frame, h.idle, h.fresh, Nat.not_lt.mpr hk, Nat.not_le.mpr ha, Nat.not_lt.mpr hd]

theorem dueLine_plate {key line n : Nat} {s : State} (e : LineErrors) (h : (headRt s key).supply = 5) :
    dueLine key line n e s = plainLine key line .plate e s := by simp [dueLine, h]

theorem dueLine_present {key line n : Nat} {d : Side} {tok : LineToken} {s : State} (e : LineErrors) (h : (headRt s key).supply ≠ 5)
    (hd : (headRt s key).passed = some d)
    (ht : linePresent (headRt s key) d n line (pixelTime s key (headRt s key) line 0) = some tok)
    (hs : spansOk (headRt s key).once.timing.hActive tok.spans = true) (hp : tok.pixels.length = (headRt s key).once.timing.hActive) :
    dueLine key line n e s = presentLine key line d tok e s := by
  simp [dueLine, h, hd, ht, hs, hp]

theorem dueLine_absent {key line n : Nat} {s : State} (e : LineErrors) (h : (headRt s key).supply ≠ 5)
    (hd : ∀ d, (headRt s key).passed = some d →
      linePresent (headRt s key) d n line (pixelTime s key (headRt s key) line 0) = none) :
    dueLine key line n e s = replayLine key line e s := by
  cases hp : (headRt s key).passed with
  | none => simp [dueLine, h, hp]
  | some d => simp [dueLine, h, hp, hd d hp]

/-- A line not present, with a sound line held, is replayed from hold memory with its held flag set. -/
theorem replayLine_held_runs {key line : Nat} {l : HeldLine} {s : State} (e : LineErrors)
    (hl : mapGet (headRt s key).hold line = some l) (hb : l.bad = false) :
    LineRuns key line (.held l.side) (l.spans.map fun p => { p with held := true }) l.pixels (replayLine key line e s)
      ∧ (headRt (replayLine key line e s) key).replayed = (headRt s key).replayed + 1
      ∧ (headRt (replayLine key line e s) key).hold = (headRt s key).hold := by
  rw [replayLine_held e hl hb]
  have hbase := (beginLine_base key line (.held l.side) (l.spans.map fun p => { p with held := true }) l.pixels e (replayTold key s)).trans
    (congrArg LineView.base (replayTold_view key s))
  exact ⟨beginLine_runs .., congrArg LineBase.replayed hbase, congrArg LineBase.hold hbase⟩

/-- A line not present, with no sound line held, is empty. -/
theorem replayLine_empty_runs {key line : Nat} {s : State} (e : LineErrors)
    (hl : ∀ l, mapGet (headRt s key).hold line = some l → l.bad = true) :
    LineRuns key line .empty [] (List.replicate (headRt s key).once.timing.hActive ⟨0, 0, 0⟩) (replayLine key line e s)
      ∧ (headRt (replayLine key line e s) key).replayed = (headRt s key).replayed + 1
      ∧ (headRt (replayLine key line e s) key).hold = (headRt s key).hold := by
  obtain ⟨u, hu, heq⟩ := replayLine_empty e hl
  have htold := congrArg LineView.base (hu.trans (replayTold_view key s))
  have hbase := (plainLine_base key line .empty e u).trans htold
  have honce : (headRt u key).once = (headRt s key).once := congrArg LineBase.once htold
  rw [heq]
  refine ⟨?_, congrArg LineBase.replayed hbase, congrArg LineBase.hold hbase⟩
  rw [← honce]
  exact plainLine_runs ..

/-! ## The pixels of lines from hold memory (R213) -/

theorem emitPixel_empty_out {n : LineNow} (hn : n.kind = .empty) (s : State) (key : Nat) (h : HeadRt) (x : Nat) (c : Rgb) (a : LineAcc) :
    (emitPixel s key h n x c a).out = emptyPixel (plateColours h n.errors) x n.line :: a.out := by
  simp [emitPixel, hn, emitMarked, emitPlain]

theorem emitPixel_held {n : LineNow} {side : Side} (hn : n.kind = .held side) (s : State) (key : Nat) (h : HeadRt) (x : Nat) (c : Rgb)
    (a : LineAcc) : emitPixel s key h n x c a = emitComposed s key h n side true x c a := by
  simp [emitPixel, hn]

/-- Settles O26: each line that falls due is taken from the plate, the stream passed or hold memory, and whatever it is taken from begins its
run with what that decides. -/
theorem linesDueAreEmitted : Obligations.LinesDueAreEmitted := by
  unfold Obligations.LinesDueAreEmitted
  refine ⟨?plate, ?present, ?held, ?empty, fun s key h n x c a hn => emitPixel_empty_out hn s key h x c a,
    fun s key h n side x c a hn => emitPixel_held hn s key h x c a⟩
  case plate =>
    intro key line n e s hk hserved hframe hidle hactive hfresh hdue hplate
    have falls : FallsDue key line n s := ⟨hk, hserved, hframe, hidle, hactive, hfresh, hdue⟩
    apply falls.completes
    rw [dueLine_plate e hplate]
    exact ⟨plainLine_runs .., hold_of_base (plainLine_base ..)⟩
  case present =>
    intro key line n d tok e s hk hserved hframe hidle hactive hfresh hdue hsupply hpassed htok hspans hpixels
    have falls : FallsDue key line n s := ⟨hk, hserved, hframe, hidle, hactive, hfresh, hdue⟩
    obtain ⟨rfl, -⟩ := linePresent_token htok
    apply falls.completes
    rw [dueLine_present e hsupply hpassed htok hspans hpixels]
    exact presentLine_runs ..
  case held =>
    intro key line n l e s hk hserved hframe hidle hactive hfresh hdue hsupply habsent hheld hsound
    have falls : FallsDue key line n s := ⟨hk, hserved, hframe, hidle, hactive, hfresh, hdue⟩
    apply falls.completes
    rw [dueLine_absent e hsupply habsent]
    exact replayLine_held_runs e hheld hsound
  case empty =>
    intro key line n e s hk hserved hframe hidle hactive hfresh hdue hsupply habsent hheld
    have falls : FallsDue key line n s := ⟨hk, hserved, hframe, hidle, hactive, hfresh, hdue⟩
    apply falls.completes
    rw [dueLine_absent e hsupply habsent]
    exact replayLine_empty_runs e hheld

end Sys2Proof.Machine
end

-- Addresses of module DRAM (R369, R370)
section
/-! SUPPORT. Both modes of DRAMC.MAP place an address alike: a channel field above the grain, XORed with bits from above that field, and the
rest of the address as the local address. Likewise both modes take the bank group from one field of the local address, XORed with bits of the
row. In the fixed mode those bits are zero. So what is XORed in can be cancelled, and the fields left put the address together again. -/

namespace Sys2Proof.Machine

open Sys2Proof

/-! ## Fields of three bits -/

theorem bits3_eq_shiftRight_and (a i : Nat) : bits3 a i = (a >>> i) &&& 7 := by
  rw [bits3, Nat.shiftRight_eq_div_pow]
  exact (Nat.and_two_pow_sub_one_eq_mod _ 3).symm

theorem bits3_lt (a i : Nat) : bits3 a i < 2 ^ 3 := Nat.mod_lt _ (by decide)

@[simp] theorem bits3_shiftRight_zero (a i : Nat) : bits3 (a >>> i) 0 = bits3 a i := by
  rw [bits3, Nat.pow_zero, Nat.div_one, Nat.shiftRight_eq_div_pow]
  rfl

/-- A field of three bits at or above bit `j` depends only on what lies above bit `j`. -/
theorem bits3_congr {a b i j : Nat} (hij : j ≤ i) (h : a / 2 ^ j = b / 2 ^ j) : bits3 a i = bits3 b i := by
  have above (x : Nat) : x / 2 ^ i = x / 2 ^ j / 2 ^ (i - j) := by
    rw [Nat.div_div_eq_div_mul, ← pow_add, Nat.add_sub_cancel' hij]
  rw [bits3, bits3, above a, above b, h]

/-- An address is what lies above a field of three bits, that field, and what lies below it. -/
theorem eq_above_bits3_below (a s : Nat) : (a / 2 ^ (s + 3) * 8 + bits3 a s) * 2 ^ s + a % 2 ^ s = a := by
  have above : a / 2 ^ (s + 3) = a / 2 ^ s / 8 := by
    rw [pow_add, ← Nat.div_div_eq_div_mul]
    rfl
  rw [above, bits3, Nat.div_add_mod', Nat.div_add_mod']

/-! ## The channel and the local address (R369) -/

theorem grain_eq_clamp (m : MemSt) : grain m = min (max m.grainLog2 8) 16 := by
  unfold grain
  split_ifs <;> omega

/-- The lowest bit of the channel field: bit 13 in the fixed mode, the grain's in the interleaved one. -/
def channelShift (m : MemSt) : Nat := if m.mapFixed then 13 else grain m

theorem channelShift_le (m : MemSt) : channelShift m ≤ 16 := by
  have := grain_eq_clamp m
  unfold channelShift
  split_ifs <;> omega

/-- What is XORed to the channel field. -/
def channelHash (m : MemSt) (a : Nat) : Nat :=
  if m.mapFixed then 0 else if m.hashEn then bits3 a 21 ^^^ bits3 a 27 ^^^ bits3 a 33 else 0

theorem channelHash_lt (m : MemSt) (a : Nat) : channelHash m a < 2 ^ 3 := by
  unfold channelHash
  split_ifs
  · decide
  · exact Nat.xor_lt_two_pow (Nat.xor_lt_two_pow (bits3_lt ..) (bits3_lt ..)) (bits3_lt ..)
  · decide

/-- The hash bits lie above the channel field for every grain. -/
theorem channelHash_congr (m : MemSt) {a b : Nat}
    (h : a / 2 ^ (channelShift m + 3) = b / 2 ^ (channelShift m + 3)) : channelHash m a = channelHash m b := by
  have hs := channelShift_le m
  unfold channelHash
  rw [bits3_congr (i := 21) (by omega) h, bits3_congr (i := 27) (by omega) h, bits3_congr (i := 33) (by omega) h]

theorem channelOf_eq_xor (m : MemSt) (a : Nat) : channelOf m a = bits3 a (channelShift m) ^^^ channelHash m a := by
  unfold channelOf channelShift channelHash
  split_ifs
  · exact (Nat.xor_zero _).symm
  · change bits3 a (grain m) ^^^ bits3 a 21 ^^^ bits3 a 27 ^^^ bits3 a 33 = _
    simp only [Nat.xor_assoc]
  · exact (Nat.xor_zero _).symm

theorem channelOf_lt (m : MemSt) (a : Nat) : channelOf m a < 2 ^ 3 := by
  rw [channelOf_eq_xor]
  exact Nat.xor_lt_two_pow (bits3_lt ..) (channelHash_lt ..)

theorem localOf_eq (m : MemSt) (a : Nat) :
    localOf m a = a / 2 ^ (channelShift m + 3) * 2 ^ channelShift m + a % 2 ^ channelShift m := by
  unfold localOf channelShift
  split_ifs <;> rfl

theorem localOf_eq_or (m : MemSt) (a : Nat) :
    localOf m a = ((a >>> (channelShift m + 3)) <<< channelShift m) ||| (a &&& (2 ^ channelShift m - 1)) := by
  have below : a % 2 ^ channelShift m < 2 ^ channelShift m := Nat.mod_lt _ (Nat.two_pow_pos _)
  rw [Nat.and_two_pow_sub_one_eq_mod, ← Nat.shiftLeft_add_eq_or_of_lt below, localOf_eq, Nat.shiftLeft_eq, Nat.shiftRight_eq_div_pow]

theorem localOf_lt (m : MemSt) {a : Nat} (h : a < 2 ^ 37) : localOf m a < 2 ^ 34 := by
  have hs := channelShift_le m
  have above : (a >>> (channelShift m + 3)) <<< channelShift m < 2 ^ 34 := by
    have := Nat.div_mul_le_self a (2 ^ (channelShift m + 3))
    rw [pow_add, ← mul_assoc] at this
    rw [Nat.shiftLeft_eq, Nat.shiftRight_eq_div_pow, pow_add]
    omega
  have below : a &&& (2 ^ channelShift m - 1) < 2 ^ 34 := by
    rw [Nat.and_two_pow_sub_one_eq_mod]
    calc a % 2 ^ channelShift m < 2 ^ channelShift m := Nat.mod_lt _ (Nat.two_pow_pos _)
      _ ≤ 2 ^ 34 := Nat.pow_le_pow_right (by decide) (by omega)
  rw [localOf_eq_or]
  exact Nat.or_lt_two_pow above below

/-- The local address holds what lies above the channel field. -/
theorem localOf_div (m : MemSt) (a : Nat) : localOf m a / 2 ^ channelShift m = a / 2 ^ (channelShift m + 3) := by
  rw [localOf_eq, Nat.add_comm, Nat.add_mul_div_right _ _ (Nat.two_pow_pos _), Nat.div_eq_of_lt (Nat.mod_lt _ (Nat.two_pow_pos _)),
    Nat.zero_add]

/-- The local address holds what lies below the channel field. -/
theorem localOf_mod (m : MemSt) (a : Nat) : localOf m a % 2 ^ channelShift m = a % 2 ^ channelShift m := by
  rw [localOf_eq, Nat.mul_add_mod', Nat.mod_mod]

theorem eq_of_channelOf_localOf {m : MemSt} {a b : Nat} (hc : channelOf m a = channelOf m b) (hl : localOf m a = localOf m b) : a = b := by
  have above : a / 2 ^ (channelShift m + 3) = b / 2 ^ (channelShift m + 3) := by rw [← localOf_div, hl, localOf_div]
  have below : a % 2 ^ channelShift m = b % 2 ^ channelShift m := by rw [← localOf_mod, hl, localOf_mod]
  have field : bits3 a (channelShift m) = bits3 b (channelShift m) := by
    rw [channelOf_eq_xor, channelOf_eq_xor, channelHash_congr m above] at hc
    exact Nat.xor_left_injective hc
  rw [← eq_above_bits3_below a (channelShift m), above, field, below, eq_above_bits3_below]

/-! ## The fields of the local address (R370) -/

/-- What is XORed to the bank group's field. -/
def groupHash (m : MemSt) (l : Nat) : Nat := if m.mapFixed then 0 else bits3 l 18

theorem bankOf_div_two (m : MemSt) (l : Nat) : bankOf m l / 2 = bits3 l 10 ^^^ groupHash m l := by
  unfold bankOf groupHash
  split_ifs
  · rw [Nat.xor_zero]
    omega
  · change ((bits3 l 10 ^^^ bits3 l 18) * 2 + l / 8192 % 2) / 2 = _
    omega

theorem bankOf_mod_two (m : MemSt) (l : Nat) : bankOf m l % 2 = l / 8192 % 2 := by
  unfold bankOf
  omega

theorem rowOf_of_lt {l : Nat} (h : l < 2 ^ 34) : rowOf l = l / 2 ^ 18 := by
  unfold rowOf
  omega

/-- The bits XORed to the bank group's field lie in the row. -/
theorem groupHash_congr (m : MemSt) {l k : Nat} (h : l / 2 ^ 18 = k / 2 ^ 18) : groupHash m l = groupHash m k := by
  rw [groupHash, groupHash, bits3_congr le_rfl h]

theorem columnOf_eq_or (l : Nat) : columnOf l = bits3 l 7 ||| (((l >>> 14) &&& 15) <<< 3) := by
  rw [Nat.or_comm, ← Nat.shiftLeft_add_eq_or_of_lt (bits3_lt l 7), Nat.shiftLeft_eq, Nat.shiftRight_eq_div_pow,
    show 15 = 2 ^ 4 - 1 from rfl, Nat.and_two_pow_sub_one_eq_mod, Nat.add_comm]
  rfl

/-- A local address is its row, the upper column bits, the bank, the bank group's field, the lower column bits, the subchannel and the
byte. -/
theorem eq_localFields (m : MemSt) (l : Nat) :
    l / 2 ^ 18 * 2 ^ 18 + columnOf l / 8 * 2 ^ 14 + bankOf m l % 2 * 2 ^ 13 + bits3 l 10 * 2 ^ 10 + columnOf l % 8 * 2 ^ 7
      + subOf l * 2 ^ 6 + l % 64 = l := by
  rw [bankOf_mod_two]
  unfold columnOf subOf bits3
  omega

theorem eq_of_localFields {m : MemSt} {l k : Nat} (hl : l < 2 ^ 34) (hk : k < 2 ^ 34) (hbyte : l % 64 = k % 64) (hsub : subOf l = subOf k)
    (hcolumn : columnOf l = columnOf k) (hbank : bankOf m l = bankOf m k) (hrow : rowOf l = rowOf k) : l = k := by
  rw [rowOf_of_lt hl, rowOf_of_lt hk] at hrow
  have group : bits3 l 10 = bits3 k 10 := by
    have hdiv := congrArg (· / 2) hbank
    simp only [bankOf_div_two, groupHash_congr m hrow] at hdiv
    exact Nat.xor_left_injective hdiv
  rw [← eq_localFields m l, hrow, hcolumn, hbank, group, hsub, hbyte, eq_localFields]

/-! ## Each row of the tables -/

theorem channelOf_hashed {m : MemSt} (hm : m.mapFixed = false) (hh : m.hashEn = true) (a : Nat) :
    channelOf m a = bits3 a (grain m) ^^^ bits3 a 21 ^^^ bits3 a 27 ^^^ bits3 a 33 := by
  simp [channelOf_eq_xor, channelShift, channelHash, hm, hh, Nat.xor_assoc]

theorem channelOf_unhashed {m : MemSt} (hm : m.mapFixed = false) (hh : m.hashEn = false) (a : Nat) :
    channelOf m a = bits3 a (grain m) := by
  simp [channelOf_eq_xor, channelShift, channelHash, hm, hh]

theorem channelOf_fixed {m : MemSt} (hm : m.mapFixed = true) (a : Nat) : channelOf m a = bits3 a 13 := by
  simp [channelOf_eq_xor, channelShift, channelHash, hm]

theorem channelShift_interleaved {m : MemSt} (hm : m.mapFixed = false) : channelShift m = grain m := by simp [channelShift, hm]

theorem channelShift_fixed {m : MemSt} (hm : m.mapFixed = true) : channelShift m = 13 := by simp [channelShift, hm]

theorem subOf_eq_and (l : Nat) : subOf l = (l >>> 6) &&& 1 := by
  rw [Nat.and_one_is_mod, Nat.shiftRight_eq_div_pow]
  rfl

theorem bankOf_mod_two_eq_and (m : MemSt) (l : Nat) : bankOf m l % 2 = (l >>> 13) &&& 1 := by
  rw [bankOf_mod_two, Nat.and_one_is_mod, Nat.shiftRight_eq_div_pow]

/-- Settles O51: the channel field and the bank group's field are each XORed with bits that the rest of the address keeps. -/
theorem addressesMapOneToOne : Obligations.AddressesMapOneToOne := by
  unfold Obligations.AddressesMapOneToOne
  refine ⟨?fields, fun m a b _ _ hc hl => eq_of_channelOf_localOf hc hl, fun m l k => eq_of_localFields⟩
  case fields =>
    intro m a ha
    simp only [← grain_eq_clamp, ← bits3_eq_shiftRight_and, bits3_shiftRight_zero]
    refine ⟨channelOf_lt m a, localOf_lt m ha, ?hashed, ?unhashed, ?interleaved, ?fixed, subOf_eq_and _, columnOf_eq_or _, ?row, ?group,
      bankOf_mod_two_eq_and m _⟩
    case hashed => exact fun hm hh => channelOf_hashed hm hh a
    case unhashed => exact fun hm hh => channelOf_unhashed hm hh a
    case interleaved =>
      intro hm
      rw [localOf_eq_or, channelShift_interleaved hm]
    case fixed =>
      intro hm
      refine ⟨channelOf_fixed hm a, ?_⟩
      rw [localOf_eq_or, channelShift_fixed hm]
      rfl
    case row => rw [rowOf_of_lt (localOf_lt m ha), Nat.shiftRight_eq_div_pow]
    case group =>
      rw [bankOf_div_two, groupHash]
      split_ifs
      · exact Nat.xor_zero _
      · rfl

end Sys2Proof.Machine
end

-- Reads of the lock registers (R398)
section
/-! SUPPORT. What a read of a lock finds, free or held, decides what it answers and does. A read changes nothing that a gate looks at, so a
register open to a second reader is still open to it after the first has read. -/

namespace Sys2Proof.Machine

open Sys2Proof

/-- The state with a lock given to an initiator. -/
def giveLock (lock id : Nat) (s : State) : State := s.modMbx fun m => { m with locks := mapPut m.locks lock id }

@[simp] theorem holder_giveLock (lock id : Nat) (s : State) : mapGet (giveLock lock id s).mbx.locks lock = some id :=
  mapGet_mapPut_self ..

theorem holder_giveLock_ne {l lock : Nat} (h : l ≠ lock) (id : Nat) (s : State) :
    mapGet (giveLock lock id s).mbx.locks l = mapGet s.mbx.locks l := mapGet_mapPut_ne _ _ h

theorem lockTake_free {lock : Nat} {s : State} (h : mapGet s.mbx.locks lock = none) (id : Nat) :
    lockTake lock id s = (0, giveLock lock id s) := by
  simp [lockTake, h, giveLock]

theorem lockTake_held {lock holder : Nat} {s : State} (h : mapGet s.mbx.locks lock = some holder) (id : Nat) :
    lockTake lock id s = (holder + 1, s) := by
  simp [lockTake, h]

/-- The register at a lock's offset answers and does what taking the lock gives. -/
theorem getReg_lock {lock : Nat} (h : lock < 64) (who : Initiator) (s : State) :
    getReg who (0x28000 + 4 * lock) s
      = (BitVec.ofNat 32 (lockTake lock (initiatorId who) s).1, (lockTake lock (initiatorId who) s).2) := by
  have within : 0x28000 + 4 * lock < 0x28100 := by omega
  simp [getReg, within]

/-- LOCK_READ of an open lock register is the taking of the lock, its answer given. -/
theorem exec_lockRead_open {lock : Nat} {who : Initiator} {s : State} (hl : lock < 64)
    (ho : RegOpen who (0x28000 + 4 * lock) false s) :
    exec (.lockRead lock who) s
      = .next (emit (.readData (BitVec.ofNat 32 (lockTake lock (initiatorId who) s).1)) (lockTake lock (initiatorId who) s).2) := by
  change execLockRead lock who s = _
  rw [execLockRead, if_pos hl, barRead_open ho, getReg_lock hl]

/-- LOCK_READ of a free lock, open to the reader (R398). -/
theorem lockRead_free_completes {lock : Nat} {who : Initiator} {s : State} {p : State → Prop} (hl : lock < 64)
    (ho : RegOpen who (0x28000 + 4 * lock) false s) (hfree : mapGet s.mbx.locks lock = none)
    (hp : p (emit (.readData 0) (giveLock lock (initiatorId who) s))) : Completes (.lockRead lock who) s p :=
  ⟨_, by rw [exec_lockRead_open hl ho, lockTake_free hfree]; rfl, hp⟩

/-- LOCK_READ of a held lock, open to the reader (R398). -/
theorem lockRead_held_completes {lock holder : Nat} {who : Initiator} {s : State} {p : State → Prop} (hl : lock < 64)
    (ho : RegOpen who (0x28000 + 4 * lock) false s) (hheld : mapGet s.mbx.locks lock = some holder)
    (hp : p (emit (.readData (BitVec.ofNat 32 (holder + 1))) s)) : Completes (.lockRead lock who) s p :=
  ⟨_, by rw [exec_lockRead_open hl ho, lockTake_held hheld], hp⟩

/-- Neither an output nor a lock's holder is among what opens a register: the mode, the blocks served and the gates' regions. -/
theorem RegOpen.emit_giveLock {who : Initiator} {o : Nat} {write : Bool} {s : State} (h : RegOpen who o write s) (out : Out)
    (lock id : Nat) : RegOpen who o write (emit out (giveLock lock id s)) := h

/-- Settles O59: the first read of a free lock takes it, so the second, whoever makes it, finds it held by the first. -/
theorem locksAdmitOneHolder : Obligations.LocksAdmitOneHolder := by
  unfold Obligations.LocksAdmitOneHolder
  refine ⟨?free, ?held, ?both⟩
  case free =>
    intro lock who s hl ho hfree
    apply lockRead_free_completes hl ho hfree
    exact ⟨rfl, holder_giveLock .., fun l hne => holder_giveLock_ne hne .., rfl⟩
  case held =>
    intro lock who holder s hl ho hheld
    exact lockRead_held_completes hl ho hheld rfl
  case both =>
    intro lock a b s hl ha hb hfree
    apply lockRead_free_completes hl ha hfree
    have taken : mapGet (emit (.readData 0) (giveLock lock (initiatorId a) s)).mbx.locks lock = some (initiatorId a) :=
      holder_giveLock ..
    exact lockRead_held_completes hl (hb.emit_giveLock ..) taken ⟨rfl, taken⟩

end Sys2Proof.Machine
end

-- Commands that leave module DRAM alone (R363)
section
/-! SUPPORT. For each operation that does not touch module DRAM, that it leaves it alone, said once by its name. -/

namespace Sys2Proof.Machine

open Sys2Proof

/-- A fold whose every step leaves module DRAM alone leaves it alone. -/
theorem mem_foldl {α : Type} {g : State → α → State} (h : ∀ s x, (g s x).mem = s.mem) (l : List α) (s : State) :
    (l.foldl g s).mem = s.mem := by
  induction l generalizing s with
  | nil => rfl
  | cons a l ih => rw [List.foldl_cons, ih, h]

/-! ### Events, the log and completions -/

@[simp] theorem draw_mem (s : State) : (draw s).2.mem = s.mem := by rfl

@[simp] theorem confirmLock_mem (s : State) : (confirmLock s).mem = s.mem := by rfl

@[simp] theorem putEvent_mem (r : Nat) (e : EventRec) (s : State) : (putEvent r e s).mem = s.mem := by rfl

@[simp] theorem loseEvent_mem (s : State) : (loseEvent s).mem = s.mem := by rfl

@[simp] theorem deliver_mem (e : EventRec) (s : State) : (deliver e s).mem = s.mem := by
  unfold deliver
  (repeat' split) <;> simp

@[simp] theorem logPut_mem (code severity : Nat) (scope : ScopeKind) (scopeId : Nat) (data : Items) (fromTs : Bool) (s : State) :
    (logPut code severity scope scopeId data fromTs s).mem = s.mem := by
  unfold logPut
  dsimp only
  (repeat' split) <;> simp

@[simp] theorem logFlush_mem (s : State) : (logFlush s).mem = s.mem := by
  unfold logFlush
  dsimp only
  (repeat' split) <;> simp

@[simp] theorem logAdd_mem (code severity : Nat) (scope : ScopeKind) (scopeId : Nat) (data : Items) (fromTs : Bool) (s : State) :
    (logAdd code severity scope scopeId data fromTs s).mem = s.mem := by simp [logAdd]

@[simp] theorem logEvent_mem (code : Nat) (scope : ScopeKind) (id : Nat) (items : Items) (s : State) :
    (logEvent code scope id items s).mem = s.mem := by
  unfold logEvent
  split <;> simp

@[simp] theorem logInternal_mem (unit detail : Nat) (s : State) : (logInternal unit detail s).mem = s.mem := by simp [logInternal]

@[simp] theorem raise_mem (code : Nat) (k : ScopeKind) (id : Nat) (items : Items) (s : State) (attention : Bool) :
    (raise code k id items s attention).mem = s.mem := by simp [raise]

@[simp] theorem raiseMod_mem (code : Nat) (items : Items) (s : State) : (raiseMod code items s).mem = s.mem := by simp [raiseMod]

@[simp] theorem raiseLimited_mem (period key n code : Nat) (k : ScopeKind) (id : Nat) (mk : Nat → Items) (s : State) :
    (raiseLimited period key n code k id mk s).mem = s.mem := by
  unfold raiseLimited
  (repeat' split) <;> simp

@[simp] theorem putCompletion_mem (ring : Nat) (c : Completion) (s : State) : (putCompletion ring c s).mem = s.mem := by rfl

@[simp] theorem publish_mem (c : Completion) (s : State) : (publish c s).mem = s.mem := by
  unfold publish
  (repeat' split) <;> simp

@[simp] theorem detachHost_mem (cause : Nat) (s : State) : (detachHost cause s).mem = s.mem := by
  unfold detachHost
  split <;> simp

@[simp] theorem settleDetach_mem (s : State) : (settleDetach s).mem = s.mem := by
  unfold settleDetach
  (repeat' split) <;> simp

@[simp] theorem leaveFlight_mem (tk : Ticket) (s : State) : (leaveFlight tk s).mem = s.mem := by rfl

@[simp] theorem completeAs_mem (tk : Ticket) (status pos : Nat) (forwarded : Bool) (result : Items) (s : State) :
    (completeAs tk status pos forwarded result s).mem = s.mem := by
  unfold completeAs
  (repeat' split) <;> simp

@[simp] theorem complete_mem (tk : Ticket) (status : Nat) (result : Items) (s : State) :
    (complete tk status result s).mem = s.mem := by simp [complete]

@[simp] theorem hostOut_mem (tk : Ticket) (off : Nat) (l : List Byte) (s : State) : (hostOut tk off l s).mem = s.mem := by
  unfold hostOut
  split <;> simp

@[simp] theorem completeWrite_mem (tk : Ticket) (data result : Items) (s : State) : (completeWrite tk data result s).mem = s.mem := by
  unfold completeWrite
  split <;> simp

@[simp] theorem completeRecord_mem (tk : Ticket) (n : Nat) (data result : Items) (s : State) :
    (completeRecord tk n data result s).mem = s.mem := by
  unfold completeRecord
  split <;> simp

@[simp] theorem setMode_mem (m : ModState) (s : State) : (setMode m s).mem = s.mem := by
  unfold setMode
  split <;> simp

/-! ### Mailboxes and locks -/

@[simp] theorem setSendStatus_mem (sender receiver b : Nat) (s : State) : (setSendStatus sender receiver b s).mem = s.mem := by rfl

@[simp] theorem mbxStore_mem (receiver slot sender : Nat) (msg : List Byte) (s : State) :
    (mbxStore receiver slot sender msg s).mem = s.mem := by
  unfold mbxStore
  dsimp only
  (repeat' split) <;> simp

@[simp] theorem mbxClear_mem (receiver slot : Nat) (s : State) : (mbxClear receiver slot s).mem = s.mem := by rfl

@[simp] theorem lostMessage_mem (receiver sender : Nat) (s : State) : (lostMessage receiver sender s).mem = s.mem := by
  unfold lostMessage
  split <;> simp

@[simp] theorem agentReset_mem (agent : Nat) (s : State) : (agentReset agent s).mem = s.mem := by
  unfold agentReset
  dsimp only
  simp [mem_foldl]

@[simp] theorem orphanLocks_mem (id : Nat) (s : State) : (orphanLocks id s).mem = s.mem := by
  unfold orphanLocks
  dsimp only
  simp [mem_foldl]

@[simp] theorem lockTake_mem (lock id : Nat) (s : State) : (lockTake lock id s).2.mem = s.mem := by
  unfold lockTake
  split <;> simp

@[simp] theorem lockPut_mem (lock id value : Nat) (s : State) : (lockPut lock id value s).2.mem = s.mem := by
  unfold lockPut
  (repeat' split) <;> simp

@[simp] theorem mbxPostBody_mem (receiver slot : Nat) (msg : List Byte) (tk : Ticket) (s : State) :
    (mbxPostBody receiver slot msg tk s).mem = s.mem := by
  unfold mbxPostBody
  (repeat' split) <;> simp

@[simp] theorem mbxReadBody_mem (mask : Nat) (tk : Ticket) (s : State) : (mbxReadBody mask tk s).mem = s.mem := by
  unfold mbxReadBody
  dsimp only
  (repeat' split) <;> simp [mem_foldl]

@[simp] theorem lockAcquireBody_mem (lock : Nat) (tk : Ticket) (s : State) : (lockAcquireBody lock tk s).mem = s.mem := by
  unfold lockAcquireBody
  split <;> simp

@[simp] theorem lockReleaseBody_mem (lock : Nat) (tk : Ticket) (s : State) : (lockReleaseBody lock tk s).mem = s.mem := by
  unfold lockReleaseBody
  split <;> simp

/-! ### Rings -/

@[simp] theorem take_mem (d : Desc) (tk : Ticket) (s : State) : (take d tk s).mem = s.mem := by rfl

@[simp] theorem forwardCmd_mem (t : Nat) (tk : Ticket) (c : HostCmd) (s : State) : (forwardCmd t tk c s).mem = s.mem := by
  unfold forwardCmd
  dsimp only
  (repeat' split) <;> simp

@[simp] theorem nopBody_mem (targeted : Bool) (tk : Ticket) (s : State) : (nopBody targeted tk s).mem = s.mem := by
  unfold nopBody
  split <;> simp

@[simp] theorem eventRouteBody_mem (ring sub att : Nat) (tk : Ticket) (s : State) : (eventRouteBody ring sub att tk s).mem = s.mem := by
  unfold eventRouteBody
  split <;> simp

@[simp] theorem hostDetachBody_mem (tk : Ticket) (s : State) : (hostDetachBody tk s).mem = s.mem := by simp [hostDetachBody]

theorem execDescriptorReject_mem (d : Desc) (kind : Nat) (s : State) :
    ∃ t, execDescriptorReject d kind s = .next t ∧ t.mem = s.mem := ⟨_, rfl, by split <;> simp⟩

@[simp] theorem drainList_mem (l : List EventRec) (blocked : List Nat) (kept : List EventRec) (s : State) :
    (drainList l blocked kept s).2.mem = s.mem := by
  induction l generalizing blocked kept s with
  | nil => rfl
  | cons e t ih =>
    unfold drainList
    (repeat' split) <;> simp [ih]

@[simp] theorem tellLost_mem (s : State) : (tellLost s).mem = s.mem := by
  unfold tellLost
  (repeat' split) <;> simp

@[simp] theorem drainEvents_mem (s : State) : (drainEvents s).mem = s.mem := by
  unfold drainEvents
  split <;> simp

theorem execEventQueueDrain_mem (s : State) : ∃ t, execEventQueueDrain s = .next t ∧ t.mem = s.mem := ⟨_, rfl, by simp⟩

theorem execStatusPageWrite_mem (s : State) : ∃ t, execStatusPageWrite s = .next t ∧ t.mem = s.mem := ⟨_, rfl, by split <;> simp⟩

theorem execAttentionPulse_mem (s : State) :
    ∃ t, execAttentionPulse s = .next t ∧ t.mem = s.mem := ⟨_, rfl, by dsimp only; (repeat' split) <;> simp⟩

@[simp] theorem ringError_mem (kind ring found expected : Nat) (s : State) :
    (ringError kind ring found expected s).mem = s.mem := by simp [ringError]

@[simp] theorem seeCmdProd_mem (r v : Nat) (s : State) : (seeCmdProd r v s).mem = s.mem := by
  unfold seeCmdProd
  (repeat' split) <;> simp

@[simp] theorem seeCplCons_mem (r v : Nat) (s : State) : (seeCplCons r v s).mem = s.mem := by
  unfold seeCplCons
  dsimp only
  (repeat' split) <;> simp

@[simp] theorem seeEvtCons_mem (r v : Nat) (s : State) : (seeEvtCons r v s).mem = s.mem := by
  unfold seeEvtCons
  dsimp only
  (repeat' split) <;> simp

theorem seeAll_mem {f : Nat → Nat → State → State} (h : ∀ r v s, (f r v s).mem = s.mem) (r : Nat) (l : List Nat) (s : State) :
    (seeAll f r l s).mem = s.mem := by
  induction l generalizing r s with
  | nil => rfl
  | cons v t ih => exact (ih ..).trans (h ..)

@[simp] theorem dmaDetach_mem (s : State) : (dmaDetach s).mem = s.mem := by simp [dmaDetach]

theorem execDoorbellPoll_mem (cmdProd cplCons evtCons : List Nat) (ok : Bool) (s : State) :
    ∃ t, execDoorbellPoll cmdProd cplCons evtCons ok s = .next t ∧ t.mem = s.mem := ⟨_, rfl, by split_ifs <;> simp [seeAll_mem]⟩

@[simp] theorem lockViolation_mem (offset : Nat) (s : State) : (lockViolation offset s).mem = s.mem := by simp [lockViolation]

@[simp] theorem badAccess_mem (s : State) : (badAccess s).mem = s.mem := by rfl

@[simp] theorem attachedEvent_mem (mode discarded : Nat) (s : State) : (attachedEvent mode discarded s).mem = s.mem := by
  unfold attachedEvent
  dsimp only
  (repeat' split) <;> simp

@[simp] theorem attachFreshDo_mem (table : Option RingTable) (s : State) : (attachFreshDo table s).mem = s.mem := by
  unfold attachFreshDo
  dsimp only
  (repeat' split) <;> simp

@[simp] theorem attachResumeDo_mem (s : State) : (attachResumeDo s).mem = s.mem := by
  unfold attachResumeDo
  dsimp only
  (repeat' split) <;> simp [mem_foldl]

theorem execPerst_mem (s : State) : ∃ t, execPerst s = .next t ∧ t.mem = s.mem := ⟨_, rfl, by simp⟩

theorem execFunctionLevelReset_mem (s : State) : ∃ t, execFunctionLevelReset s = .next t ∧ t.mem = s.mem := ⟨_, rfl, by simp⟩

theorem execD3hotEntry_mem (s : State) : ∃ t, execD3hotEntry s = .next t ∧ t.mem = s.mem := ⟨_, rfl, by simp⟩

theorem execBusMasterClear_mem (s : State) : ∃ t, execBusMasterClear s = .next t ∧ t.mem = s.mem := ⟨_, rfl, by simp⟩

theorem execHostLink_mem (up : Bool) (speed width : Nat) (s : State) :
    ∃ t, execHostLink up speed width s = .next t ∧ t.mem = s.mem := ⟨_, rfl, by (repeat' split) <;> simp⟩

/-! ### Operands -/

@[simp] theorem addCtx_mem (c : GateCtx) (s : State) : (addCtx c s).mem = s.mem := by rfl

@[simp] theorem moveCtx_mem (c : Context) (who : Initiator) (s : State) : (moveCtx c who s).mem = s.mem := by rfl

@[simp] theorem dropCtx_mem (c : Context) (s : State) : (dropCtx c s).mem = s.mem := by rfl

@[simp] theorem addDue_mem (b : Nat) (d : DueRun) (s : State) : (addDue b d s).mem = s.mem := by rfl

@[simp] theorem onSourceState_mem (source : Nat) (st : SrcState) (s : State) : (onSourceState source st s).mem = s.mem := by
  simp [onSourceState, apply_ite State.mem, mem_foldl]

@[simp] theorem onContent_mem (source : Nat) (s : State) : (onContent source s).mem = s.mem := by rfl

@[simp] theorem rewriteStatic_mem (source : Nat) (static : Bool) (s : State) : (rewriteStatic source static s).mem = s.mem := by
  unfold rewriteStatic
  dsimp only
  (repeat' split) <;> simp

/-! ### The ledger -/

@[simp] theorem setEntry_mem (k : Nat) (e : Entry) (s : State) : (setEntry k e s).mem = s.mem := by rfl

@[simp] theorem sendVerdict_mem (k : Nat) (live : Bool) (s : State) : (sendVerdict k live s).mem = s.mem := by
  unfold sendVerdict
  dsimp only
  (repeat' split) <;> simp

@[simp] theorem raiseState_mem (k : Nat) (old : SrcState) (e : Entry) (n : Nat) (s : State) :
    (raiseState k old e n s).mem = s.mem := by simp [raiseState]

@[simp] theorem writeEntry_mem (k : Nat) (e : Entry) (cause : Cause) (s : State) : (writeEntry k e cause s).mem = s.mem := by
  unfold writeEntry
  dsimp only
  (repeat' split) <;> simp

@[simp] theorem refreshChildren_mem (k : Nat) (s : State) : (refreshChildren k s).mem = s.mem := by
  unfold refreshChildren
  dsimp only
  simp [mem_foldl]

@[simp] theorem changeEntry_mem (k : Nat) (e : Entry) (cause : Cause) (s : State) :
    (changeEntry k e cause s).mem = s.mem := by simp [changeEntry]

@[simp] theorem shedAll_mem (s : State) : (shedAll s).mem = s.mem := by
  simp [shedAll, apply_ite State.mem, mem_foldl]

@[simp] theorem shedOne_mem (k : Nat) (s : State) : (shedOne k s).mem = s.mem := by
  unfold shedOne
  dsimp only
  (repeat' split) <;> simp

@[simp] theorem receipt_mem (k : Nat) (o : Origin) (f : ReceiptFlags) (s : State) : (receipt k o f s).mem = s.mem := by simp [receipt]

@[simp] theorem raiseProbe_mem (k : Nat) (running : Bool) (cause : Nat) (s : State) :
    (raiseProbe k running cause s).mem = s.mem := by simp [raiseProbe]

@[simp] theorem enterUnknown_mem (k : Nat) (e : Entry) (s : State) : (enterUnknown k e s).mem = s.mem := by
  unfold enterUnknown
  dsimp only
  (repeat' split) <;> simp

@[simp] theorem probeByCommand_mem (k : Nat) (before shedBefore : Bool) (s : State) :
    (probeByCommand k before shedBefore s).mem = s.mem := by
  unfold probeByCommand
  dsimp only
  (repeat' split) <;> simp

@[simp] theorem followParent_mem (parent : Nat) (raw : Origin) (fields : List FieldRec) (s : State) (c : Nat) :
    (followParent parent raw fields s c).mem = s.mem := by
  unfold followParent
  dsimp only
  (repeat' split) <;> simp

@[simp] theorem probeByElement_mem (k : Nat) (before : Bool) (s : State) : (probeByElement k before s).mem = s.mem := by
  unfold probeByElement
  split <;> simp

@[simp] theorem networkReceipt_mem (k : Nat) (o raw : Origin) (x : Option Element) (concealed : Bool) (s : State) :
    (networkReceipt k o raw x concealed s).mem = s.mem := by
  unfold networkReceipt
  dsimp only
  simp [mem_foldl]

@[simp] theorem probeFrame_mem (k w h : Nat) (concealed : Bool) (px : Nat → Nat → Nat) (s : State) :
    (probeFrame k w h concealed px s).mem = s.mem := by
  unfold probeFrame
  dsimp only
  (repeat' split) <;> simp

theorem execProbeCompareDone_mem (k : Nat) (s : State) :
    ∃ t, execProbeCompareDone k s = .next t ∧ t.mem = s.mem := ⟨_, rfl, by dsimp only; (repeat' split) <;> simp⟩

theorem execLateTimer_mem (k : Nat) (s : State) :
    ∃ t, execLateTimer k s = .next t ∧ t.mem = s.mem := ⟨_, rfl, by dsimp only; (repeat' split) <;> simp⟩

theorem execStaleTimer_mem (k : Nat) (s : State) :
    ∃ t, execStaleTimer k s = .next t ∧ t.mem = s.mem := ⟨_, rfl, by dsimp only; (repeat' split) <;> simp⟩

theorem execLossTimer_mem (k : Nat) (s : State) :
    ∃ t, execLossTimer k s = .next t ∧ t.mem = s.mem := ⟨_, rfl, by dsimp only; (repeat' split) <;> simp⟩

theorem execLedgerStateSummary_mem (k : Nat) (s : State) :
    ∃ t, execLedgerStateSummary k s = .next t ∧ t.mem = s.mem := ⟨_, rfl, by dsimp only; (repeat' split) <;> simp⟩

theorem execWholeBitmapSend_mem (s : State) :
    ∃ t, execWholeBitmapSend s = .next t ∧ t.mem = s.mem := ⟨_, rfl, by dsimp only; (repeat' split) <;> simp⟩

@[simp] theorem ledgerDefineBody_mem (b : LedgerBody) (tk : Ticket) (s : State) : (ledgerDefineBody b tk s).mem = s.mem := by
  unfold ledgerDefineBody
  dsimp only
  (repeat' split) <;> simp

@[simp] theorem ledgerSetBody_mem (b : LedgerBody) (tk : Ticket) (s : State) : (ledgerSetBody b tk s).mem = s.mem := by
  unfold ledgerSetBody
  dsimp only
  (repeat' split) <;> simp

@[simp] theorem ledgerDeleteBody_mem (k : Nat) (tk : Ticket) (s : State) : (ledgerDeleteBody k tk s).mem = s.mem := by
  unfold ledgerDeleteBody
  dsimp only
  (repeat' split) <;> simp

@[simp] theorem ledgerWithdrawBody_mem (k : Nat) (on : Bool) (tk : Ticket) (s : State) : (ledgerWithdrawBody k on tk s).mem = s.mem := by
  unfold ledgerWithdrawBody
  dsimp only
  (repeat' split) <;> simp

@[simp] theorem ledgerTestBody_mem (k : Nat) (on : Bool) (tk : Ticket) (s : State) : (ledgerTestBody k on tk s).mem = s.mem := by
  unfold ledgerTestBody
  dsimp only
  (repeat' split) <;> simp

@[simp] theorem applyVouch_mem (b : VouchBody) (s : State) : (applyVouch b s).2.mem = s.mem := by
  unfold applyVouch
  split <;> simp

@[simp] theorem ledgerVouchBody_mem (b : VouchBody) (tk : Ticket) (s : State) :
    (ledgerVouchBody b tk s).mem = s.mem := by simp [ledgerVouchBody]

@[simp] theorem applyVouches_mem (l : List VouchBody) (acc : Nat × Nat × Nat) (s : State) : (applyVouches l acc s).2.mem = s.mem := by
  induction l generalizing acc s with
  | nil => rfl
  | cons b t ih => exact (ih ..).trans (applyVouch_mem ..)

@[simp] theorem ledgerVouchBatchBody_mem (count : Nat) (l : List VouchBody) (tk : Ticket) (s : State) :
    (ledgerVouchBatchBody count l tk s).mem = s.mem := by
  unfold ledgerVouchBatchBody
  split_ifs <;> simp

@[simp] theorem ledgerProbeBody_mem (k enable freezeK freezeSad : Nat) (tk : Ticket) (s : State) :
    (ledgerProbeBody k enable freezeK freezeSad tk s).mem = s.mem := by
  unfold ledgerProbeBody
  dsimp only
  (repeat' split) <;> simp

@[simp] theorem ledgerReadBody_mem (first count : Nat) (tk : Ticket) (s : State) : (ledgerReadBody first count tk s).mem = s.mem := by
  unfold ledgerReadBody
  split <;> simp

/-! ### Wall time -/

@[simp] theorem setServo_mem (new : Servo) (port : Nat) (s : State) : (setServo new port s).mem = s.mem := by
  unfold setServo
  split <;> simp

@[simp] theorem hear_mem (a : Announce) (s : State) : (hear a s).mem = s.mem := by rfl

@[simp] theorem selectMaster_mem (g : Option Announce) (s : State) : (selectMaster g s).mem = s.mem := by
  unfold selectMaster
  dsimp only
  (repeat' split) <;> simp

theorem execAnnounceRx_mem (a : Announce) (s : State) :
    ∃ t, execAnnounceRx a s = .next t ∧ t.mem = s.mem := ⟨_, rfl, by dsimp only; (repeat' split) <;> simp⟩

theorem execAnnounceTimeout_mem (s : State) :
    ∃ t, execAnnounceTimeout s = .next t ∧ t.mem = s.mem := ⟨_, rfl, by dsimp only; (repeat' split) <;> simp⟩

theorem execDelayReqSend_mem (s : State) :
    ∃ t, execDelayReqSend s = .next t ∧ t.mem = s.mem := ⟨_, rfl, by dsimp only; (repeat' split) <;> simp⟩

@[simp] theorem stepCounter_mem (delta : Int) (s : State) : (stepCounter delta s).mem = s.mem := by
  unfold stepCounter
  dsimp only
  (repeat' split) <;> simp

@[simp] theorem acquireStep_mem (o : Int) (s : State) : (acquireStep o s).mem = s.mem := by
  unfold acquireStep
  dsimp only
  (repeat' split) <;> simp

@[simp] theorem slewRate_mem (o : Int) (s : State) : (slewRate o s).mem = s.mem := by rfl

@[simp] theorem steerStep_mem (o : Int) (s : State) : (steerStep o s).mem = s.mem := by rfl

@[simp] theorem advanceWall_mem (s : State) : (advanceWall s).mem = s.mem := by rfl

theorem execOffsetMeasurement_mem (port t1 t2 t3 : Nat) (r : DelayResp) (s : State) :
    ∃ t, execOffsetMeasurement port t1 t2 t3 r s = .next t ∧ t.mem = s.mem := ⟨_, rfl, by dsimp only; (repeat' split) <;> simp⟩

@[simp] theorem twinConfirm_mem (o : Int) (s : State) : (twinConfirm o s).mem = s.mem := by
  unfold twinConfirm
  split <;> simp

theorem execLockConfirm_mem (s : State) : ∃ t, execLockConfirm s = .next t ∧ t.mem = s.mem := ⟨_, rfl, by (repeat' split) <;> simp⟩

theorem execMeasurementTimeout_mem (s : State) : ∃ t, execMeasurementTimeout s = .next t ∧ t.mem = s.mem := ⟨_, rfl, by split <;> simp⟩

theorem execULimit_mem (s : State) : ∃ t, execULimit s = .next t ∧ t.mem = s.mem := ⟨_, rfl, by split <;> simp⟩

/-! ### Module memory -/

theorem execZqCalibration_mem (s : State) : ∃ t, execZqCalibration s = .next t ∧ t.mem = s.mem := ⟨_, rfl, rfl⟩

@[simp] theorem memStatusBody_mem (tk : Ticket) (s : State) : (memStatusBody tk s).mem = s.mem := by simp [memStatusBody]

/-! ### Gates -/

@[simp] theorem recordFault_mem (gate : Nat) (a : Access) (n : Nat) (p : PartCheck) (q : Option PartCheck) (s : State) :
    (recordFault gate a n p q s).mem = s.mem := by
  unfold recordFault
  dsimp only
  (repeat' split) <;> simp

@[simp] theorem gateFenceBody_mem (mask : Nat) (poll : Bool) (tk : Ticket) (s : State) : (gateFenceBody mask poll tk s).mem = s.mem := by
  unfold gateFenceBody
  dsimp only
  (repeat' split) <;> simp

theorem execGateFenceComplete_mem (s : State) :
    ∃ t, execGateFenceComplete s = .next t ∧ t.mem = s.mem := ⟨_, rfl, by dsimp only; (repeat' split) <;> simp [mem_foldl]⟩

@[simp] theorem gateFaultReadBody_mem (seq : Nat) (tk : Ticket) (s : State) :
    (gateFaultReadBody seq tk s).mem = s.mem := by simp [gateFaultReadBody]

/-! ### Decoding -/

@[simp] theorem modAttach_mem (k : Nat) (f : Attach → Attach) (s : State) : (modAttach k f s).mem = s.mem := by rfl

@[simp] theorem modStream_mem (k : Nat) (f : Stream → Stream) (s : State) : (modStream k f s).mem = s.mem := by rfl

@[simp] theorem setPipe_mem (p : Nat) (x : Pipeline) (s : State) : (setPipe p x s).mem = s.mem := by rfl

@[simp] theorem raiseBehind_mem (k cause n : Nat) (s : State) : (raiseBehind k cause n s).mem = s.mem := by
  unfold raiseBehind
  (repeat' split) <;> simp

@[simp] theorem purgeUnits_mem (k : Nat) (s : State) : (purgeUnits k s).mem = s.mem := by
  unfold purgeUnits
  (repeat' split) <;> simp

@[simp] theorem raiseProxy_mem (k : Nat) (sending : Bool) (cause : Nat) (s : State) :
    (raiseProxy k sending cause s).mem = s.mem := by simp [raiseProxy]

@[simp] theorem proxyTake_mem (k : Nat) (b : AttachBody) (q : Picture) (s : State) : (proxyTake k b q s).mem = s.mem := by
  unfold proxyTake
  (repeat' split) <;> simp

@[simp] theorem pictureRegressed_mem (k : Nat) (last : Option Int) (q : Picture) (s : State) :
    (pictureRegressed k last q s).mem = s.mem := by
  unfold pictureRegressed
  (repeat' split) <;> simp

@[simp] theorem outputPicture_mem (k : Nat) (q : Picture) (s : State) : (outputPicture k q s).mem = s.mem := by
  unfold outputPicture
  dsimp only
  (repeat' split) <;> simp

@[simp] theorem outputAll_mem (k : Nat) (l : List Picture) (s : State) : (outputAll k l s).mem = s.mem := by
  simp [outputAll, mem_foldl]

@[simp] theorem tellConcealed_mem (k : Nat) (entering : Bool) (v : Verdict) (poc : Nat) (s : State) :
    (tellConcealed k entering v poc s).mem = s.mem := by
  unfold tellConcealed
  split <;> simp

@[simp] theorem tellLimits_mem (k : Nat) (l : List Nat) (poc : Nat) (s : State) : (tellLimits k l poc s).mem = s.mem := by
  simp [tellLimits, mem_foldl]

@[simp] theorem leaveSequence_mem (k : Nat) (noPrior : Bool) (s : State) : (leaveSequence k noPrior s).mem = s.mem := by
  unfold leaveSequence
  (repeat' split) <;> simp

@[simp] theorem placePicture_mem (k : Nat) (c : InDecode) (r : PicFacts) (d : Decoded) (v : Verdict) (s : State) :
    (placePicture k c r d v s).mem = s.mem := by
  unfold placePicture
  dsimp only
  (repeat' split) <;> simp

@[simp] theorem decodeFault_mem (k p : Nat) (s : State) : (decodeFault k p s).mem = s.mem := by
  unfold decodeFault
  split <;> simp

@[simp] theorem activateSps_mem (k : Nat) (x : SpsInfo) (noPrior fresh : Bool) (s : State) :
    (activateSps k x noPrior fresh s).mem = s.mem := by
  unfold activateSps
  (repeat' split) <;> simp

@[simp] theorem dropForLag_mem (k : Nat) (rest : List AccessUnit) (s : State) : (dropForLag k rest s).mem = s.mem := by simp [dropForLag]

@[simp] theorem finishDetach_mem (k : Nat) (a : Attach) (s : State) : (finishDetach k a s).mem = s.mem := by
  unfold finishDetach
  dsimp only
  (repeat' split) <;> simp [mem_foldl]

theorem execDecodeDetachComplete_mem (k : Nat) (s : State) :
    ∃ t, execDecodeDetachComplete k s = .next t ∧ t.mem = s.mem := ⟨_, rfl, by (repeat' split) <;> simp⟩

@[simp] theorem decodePolicyBody_mem (k policy pct : Nat) (tk : Ticket) (s : State) :
    (decodePolicyBody k policy pct tk s).mem = s.mem := by
  unfold decodePolicyBody
  (repeat' split) <;> simp

@[simp] theorem decodeStatusBody_mem (k : Nat) (tk : Ticket) (s : State) : (decodeStatusBody k tk s).mem = s.mem := by
  unfold decodeStatusBody
  split <;> simp

theorem execDecodeReleased_mem (bufBase : Nat) (s : State) :
    ∃ t, execDecodeReleased bufBase s = .next t ∧ t.mem = s.mem := ⟨_, rfl, by (repeat' split) <;> simp⟩

/-! ### Ingest -/

@[simp] theorem portConfigureBody_mem (b : PortBody) (tk : Ticket) (s : State) : (portConfigureBody b tk s).mem = s.mem := by
  unfold portConfigureBody
  dsimp only
  (repeat' split) <;> simp

theorem execOpticsChange_mem (port what : Nat) (f : OpticsFacts) (s : State) :
    ∃ t, execOpticsChange port what f s = .next t ∧ t.mem = s.mem := ⟨_, rfl, by split <;> simp⟩

theorem execPortLink_mem (port lane : Nat) (up : Bool) (s : State) :
    ∃ t, execPortLink port lane up s = .next t ∧ t.mem = s.mem := ⟨_, rfl, by split <;> simp⟩

theorem execQueryRx_mem (port lane : Nat) (mld : Bool) (s : State) :
    ∃ t, execQueryRx port lane mld s = .next t ∧ t.mem = s.mem := ⟨_, rfl, by dsimp only; (repeat' split) <;> simp⟩

@[simp] theorem sendJoins_mem (name : String) (legs : List Leg) (s : State) : (sendJoins name legs s).mem = s.mem := by
  simp [sendJoins, apply_ite State.mem, mem_foldl]

@[simp] theorem ingestOpenBody_mem (b : IngestOpenBody) (tk : Ticket) (s : State) : (ingestOpenBody b tk s).mem = s.mem := by
  unfold ingestOpenBody
  dsimp only
  (repeat' split) <;> simp

@[simp] theorem ingestCountersBody_mem (k : Nat) (tk : Ticket) (s : State) : (ingestCountersBody k tk s).mem = s.mem := by
  unfold ingestCountersBody
  split <;> simp

@[simp] theorem tellElement_mem (k : Nat) (x : Stream) (f : OpenFrame) (s : State) : (tellElement k x f s).mem = s.mem := by
  unfold tellElement
  (repeat' split) <;> simp

@[simp] theorem tellAhead_mem (k : Nat) (x : Stream) (f : OpenFrame) (o : Option Origin) (s : State) :
    (tellAhead k x f o s).mem = s.mem := by
  unfold tellAhead
  (repeat' split) <;> simp

@[simp] theorem tellRegressed_mem (k : Nat) (x : Stream) (o : Option Origin) (s : State) : (tellRegressed k x o s).mem = s.mem := by
  unfold tellRegressed
  (repeat' split) <;> simp

@[simp] theorem lossReport_mem (k : Nat) (s : State) : (lossReport k s).mem = s.mem := by
  unfold lossReport
  dsimp only
  (repeat' split) <;> simp

@[simp] theorem firstFrame_mem (k : Nat) (x : Stream) (o : Option Origin) (s : State) : (firstFrame k x o s).mem = s.mem := by
  unfold firstFrame
  split <;> simp

@[simp] theorem overflowFrame_mem (k : Nat) (s : State) : (overflowFrame k s).mem = s.mem := by simp [overflowFrame]

@[simp] theorem modLeg_mem (k i : Nat) (f : LegRt → LegRt) (s : State) : (modLeg k i f s).mem = s.mem := by rfl

@[simp] theorem tellMismatch_mem (k cause : Nat) (s : State) : (tellMismatch k cause s).mem = s.mem := by simp [tellMismatch]

@[simp] theorem resync_mem (k cause : Nat) (s : State) : (resync k cause s).mem = s.mem := by simp [resync]

theorem execSenderReportRx_mem (port lane ssrc rtp ntpNs : Nat) (s : State) :
    ∃ t, execSenderReportRx port lane ssrc rtp ntpNs s = .next t ∧ t.mem = s.mem := ⟨_, rfl, by split <;> simp⟩

theorem execLegState_mem (k leg : Nat) (s : State) :
    ∃ t, execLegState k leg s = .next t ∧ t.mem = s.mem := ⟨_, rfl, by (repeat' split) <;> simp⟩

theorem execIngestCloseComplete_mem (k : Nat) (s : State) :
    ∃ t, execIngestCloseComplete k s = .next t ∧ t.mem = s.mem := ⟨_, rfl, by (repeat' split) <;> simp⟩

theorem execIngestReleased_mem (base : Nat) (s : State) :
    ∃ t, execIngestReleased base s = .next t ∧ t.mem = s.mem := ⟨_, rfl, by (repeat' split) <;> simp⟩

@[simp] theorem proxyOpenBody_mem (b : ProxyBody) (tk : Ticket) (s : State) : (proxyOpenBody b tk s).mem = s.mem := by
  unfold proxyOpenBody
  dsimp only
  (repeat' split) <;> simp

@[simp] theorem proxyCloseBody_mem (k : Nat) (tk : Ticket) (s : State) : (proxyCloseBody k tk s).mem = s.mem := by
  unfold proxyCloseBody
  split <;> simp

theorem execProxyFrameSend_mem (k : Nat) (s : State) : ∃ t, execProxyFrameSend k s = .next t ∧ t.mem = s.mem := by
  refine ⟨_, rfl, ?_⟩
  (repeat' split) <;> try rfl
  exact mem_foldl (fun _ _ => by rfl) ..

/-! ### Timing -/

@[simp] theorem setGroup_mem (g : Nat) (r : GroupRt) (s : State) : (setGroup g r s).mem = s.mem := by rfl

/-! ### Composition -/

@[simp] theorem modSurface_mem (k : Nat) (f : Surface → Surface) (s : State) : (modSurface k f s).mem = s.mem := by rfl

@[simp] theorem presentImage_mem (k image : Nat) (s : State) : (presentImage k image s).mem = s.mem := by rfl

@[simp] theorem beginRead_mem (k : Nat) (b : UploadBody) (tk : Ticket) (s : State) : (beginRead k b tk s).mem = s.mem := by
  unfold beginRead
  split <;> simp

@[simp] theorem beginUpload_mem (k : Nat) (x : Surface) (b : UploadBody) (tk : Ticket) (s : State) :
    (beginUpload k x b tk s).2.mem = s.mem := by
  unfold beginUpload
  (repeat' split) <;> simp

@[simp] theorem beginAccess_mem (k : Nat) (x : Surface) (read : Bool) (b : UploadBody) (tk : Ticket) (s : State) :
    (beginAccess k x read b tk s).2.mem = s.mem := by
  unfold beginAccess
  split <;> simp

@[simp] theorem queueAccess_mem (k : Nat) (read : Bool) (b : UploadBody) (tk : Ticket) (s : State) :
    (queueAccess k read b tk s).mem = s.mem := by
  unfold queueAccess
  dsimp only
  (repeat' split) <;> simp

@[simp] theorem surfaceUploadBody_mem (b : UploadBody) (tk : Ticket) (s : State) :
    (surfaceUploadBody b tk s).mem = s.mem := by simp [surfaceUploadBody]

@[simp] theorem surfaceReadBody_mem (b : UploadBody) (tk : Ticket) (s : State) :
    (surfaceReadBody b tk s).mem = s.mem := by simp [surfaceReadBody]

@[simp] theorem resumeWaiting_mem (k : Nat) (l : List (Ticket × Bool × UploadBody)) (s : State) : (resumeWaiting k l s).mem = s.mem := by
  induction l generalizing s with
  | nil => rfl
  | cons w t ih =>
    obtain ⟨tk, read, b⟩ := w
    unfold resumeWaiting
    split
    · rfl
    · dsimp only
      split <;> simp [ih]

theorem execSurfaceUploadResume_mem (k : Nat) (s : State) :
    ∃ t, execSurfaceUploadResume k s = .next t ∧ t.mem = s.mem := ⟨_, rfl, by (repeat' split) <;> simp⟩

@[simp] theorem surfaceRetireBody_mem (k : Nat) (tk : Ticket) (s : State) : (surfaceRetireBody k tk s).mem = s.mem := by
  unfold surfaceRetireBody
  dsimp only
  (repeat' split) <;> simp [mem_foldl]

theorem execSurfaceRetireRelease_mem (k : Nat) (s : State) :
    ∃ t, execSurfaceRetireRelease k s = .next t ∧ t.mem = s.mem := ⟨_, rfl, by (repeat' split) <;> simp⟩

@[simp] theorem scalerLoadBody_mem (set : Nat) (l : List Int) (tk : Ticket) (s : State) : (scalerLoadBody set l tk s).mem = s.mem := by
  unfold scalerLoadBody
  (repeat' split) <;> simp

@[simp] theorem scalerReadBody_mem (set : Nat) (tk : Ticket) (s : State) : (scalerReadBody set tk s).mem = s.mem := by
  unfold scalerReadBody
  split <;> simp

@[simp] theorem setLayer_mem (h i : Nat) (r : LayerRt) (s : State) : (setLayer h i r s).mem = s.mem := by rfl

@[simp] theorem tellVoid_mem (h i n : Nat) (void : Bool) (s : State) : (tellVoid h i n void s).mem = s.mem := by
  unfold tellVoid
  split <;> simp

@[simp] theorem selectLayer_mem (h n : Nat) (hs : HeadScene) (i : Nat) (l : Layer) (oldDone : Bool) (s : State) :
    (selectLayer h n hs i l oldDone s).mem = s.mem := by
  unfold selectLayer
  dsimp only
  (repeat' split) <;> simp

@[simp] theorem restLayer_mem (h i : Nat) (oldDone : Bool) (s : State) : (restLayer h i oldDone s).mem = s.mem := by
  unfold restLayer
  split <;> simp

@[simp] theorem latchHead_mem (n start : Nat) (b : SceneBank) (h : Nat) (s : State) : (latchHead n start b h s).mem = s.mem := by
  unfold latchHead
  refine (mem_foldl (fun s i => ?_) (List.range 20) s)
  split <;> simp

@[simp] theorem beginWriteback_mem (n h : Nat) (s : State) : (beginWriteback n h s).mem = s.mem := by
  unfold beginWriteback
  dsimp only
  (repeat' split) <;> simp

@[simp] theorem orderMoves_mem (g : Nat) (s : State) : (orderMoves g s).mem = s.mem := by
  unfold orderMoves
  refine mem_foldl (fun _ _ => ?_) ..
  rfl

@[simp] theorem lateRuns_mem (g n ns : Nat) (s : State) : (lateRuns g n ns s).mem = s.mem := by rfl

@[simp] theorem latchRuns_mem (g n start : Nat) (s : State) : (latchRuns g n start s).mem = s.mem := by
  simp [latchRuns, apply_ite State.mem, mem_foldl]

@[simp] theorem latch_mem (g : Nat) (l : Latch) (s : State) : (latch g l s).mem = s.mem := by
  unfold latch
  dsimp only
  (repeat' split) <;> simp [mem_foldl]

@[simp] theorem tellLatch_mem (g : Nat) (r : SyncGroup) (l : Latch) (s : State) : (tellLatch g r l s).mem = s.mem := by
  unfold tellLatch
  split <;> simp

@[simp] theorem noteSurfaces_mem (h frame : Nat) (useOld : Bool) (s : State) : (noteSurfaces h frame useOld s).mem = s.mem := by
  unfold noteSurfaces
  refine mem_foldl (fun _ _ => ?_) ..
  rfl

@[simp] theorem releaseAfter_mem (h line : Nat) (hs : HeadScene) (useOld : Bool) (s : State) :
    (releaseAfter h line hs useOld s).mem = s.mem := by
  simp [releaseAfter, apply_ite State.mem, mem_foldl]

@[simp] theorem underrunLayer_mem (h i line frame : Nat) (poison useOld : Bool) (s : State) :
    (underrunLayer h i line frame poison useOld s).mem = s.mem := by simp [underrunLayer]

@[simp] theorem sendToken_mem (h : Nat) (t : LineToken) (s : State) : (sendToken h t s).mem = s.mem := by rfl

theorem execFetchDeadline_mem (h i line : Nat) (poison : Bool) (s : State) :
    ∃ t, execFetchDeadline h i line poison s = .next t ∧ t.mem = s.mem := ⟨_, rfl, by dsimp only; (repeat' split) <;> simp⟩

@[simp] theorem endWriteback_mem (h : Nat) (s : State) : (endWriteback h s).mem = s.mem := by rfl

@[simp] theorem supersede_mem (h : Nat) (s : State) : (supersede h s).mem = s.mem := by
  unfold supersede
  split
  · rfl
  · exact (mem_foldl (fun _ _ => complete_mem ..) ..).trans (endWriteback_mem ..)

@[simp] theorem writebackBody_mem (b : WritebackBody) (tk : Ticket) (s : State) : (writebackBody b tk s).mem = s.mem := by
  unfold writebackBody
  dsimp only
  (repeat' split) <;> simp

theorem execWritebackFrame_mem (h : Nat) (s : State) : ∃ t, execWritebackFrame h s = .next t ∧ t.mem = s.mem := by
  refine ⟨_, rfl, ?_⟩
  split
  · split
    · dsimp only
      have ended (l : List Ticket) (u : State) : (l.foldl (fun s t => complete t 0 [] s) u).mem = u.mem := mem_foldl (fun s t => complete_mem t 0 [] s) l u
      split_ifs <;> simp only [ended, endWriteback_mem, raise_mem, State.modCompose_mem]
    · rfl
  · rfl

@[simp] theorem voidTested_mem (s : State) : (voidTested s).mem = s.mem := by
  unfold voidTested
  dsimp only
  simp [mem_foldl]

@[simp] theorem composeSelftestBody_mem (pipe : Nat) (tk : Ticket) (s : State) : (composeSelftestBody pipe tk s).mem = s.mem := by
  unfold composeSelftestBody
  dsimp only
  (repeat' split) <;> simp

theorem execComposeSelftestDone_mem (pipe : Nat) (failed : Option Nat) (s : State) :
    ∃ t, execComposeSelftestDone pipe failed s = .next t ∧ t.mem = s.mem := ⟨_, rfl, by dsimp only; (repeat' split) <;> simp⟩

@[simp] theorem composeStatusBody_mem (h : Nat) (tk : Ticket) (s : State) : (composeStatusBody h tk s).mem = s.mem := by
  unfold composeStatusBody
  split <;> simp

/-! ### Scan-out -/

@[simp] theorem deliverTs_mem (e : TsEvent) (s : State) : (deliverTs e s).mem = s.mem := by simp [deliverTs]

@[simp] theorem tsRaise_mem (code : Nat) (k : ScopeKind) (id : Nat) (items : Items) (attention : Bool) (s : State) :
    (tsRaise code k id items attention s).mem = s.mem := by
  unfold tsRaise
  (repeat' split) <;> simp

@[simp] theorem tsHeadEvent_mem (code key : Nat) (items : Items) (s : State) :
    (tsHeadEvent code key items s).mem = s.mem := by simp [tsHeadEvent]

@[simp] theorem tsLimited_mem (key n code head : Nat) (mk : Nat → Items) (attention : Bool) (s : State) :
    (tsLimited key n code head mk attention s).mem = s.mem := by
  unfold tsLimited
  (repeat' split) <;> simp

theorem execTailstockEventDelivery_mem (s : State) :
    ∃ t, execTailstockEventDelivery s = .next t ∧ t.mem = s.mem := ⟨_, rfl, by dsimp only; (repeat' split) <;> simp [mem_foldl]⟩

@[simp] theorem putHead_mem (key : Nat) (h : HeadRt) (s : State) : (putHead key h s).mem = s.mem := by rfl

@[simp] theorem enterHead_mem (key new : Nat) (s : State) : (enterHead key new s).mem = s.mem := by
  unfold enterHead
  dsimp only
  (repeat' split) <;> simp

@[simp] theorem settleHead_mem (key : Nat) (s : State) : (settleHead key s).mem = s.mem := by simp [settleHead]

@[simp] theorem settleAtStart_mem (key : Nat) (s : State) : (settleAtStart key s).mem = s.mem := by simp [settleAtStart]

@[simp] theorem settleHeads_mem (s : State) : (settleHeads s).mem = s.mem := by
  simp [settleHeads, mem_foldl]

@[simp] theorem startTraining_mem (key : Nat) (s : State) : (startTraining key s).mem = s.mem := by
  unfold startTraining
  dsimp only
  (repeat' split) <;> simp

@[simp] theorem train_mem (key : Nat) (s : State) : (train key s).mem = s.mem := by simp [train]

@[simp] theorem checkRange_mem (key : Nat) (s : State) : (checkRange key s).mem = s.mem := by
  unfold checkRange
  dsimp only
  (repeat' split) <;> simp

theorem execTrainingAttemptEnd_mem (key : Nat) (ok : Bool) (s : State) :
    ∃ t, execTrainingAttemptEnd key ok s = .next t ∧ t.mem = s.mem := ⟨_, rfl, by dsimp only; (repeat' split) <;> simp⟩

theorem execLinkRetry_mem (key : Nat) (s : State) :
    ∃ t, execLinkRetry key s = .next t ∧ t.mem = s.mem := ⟨_, rfl, by dsimp only; (repeat' split) <;> simp⟩

@[simp] theorem readSink_mem (key : Nat) (sink : SinkInfo) (s : State) : (readSink key sink s).mem = s.mem := by simp [readSink]

theorem execHpdConnect_mem (key : Nat) (sink : SinkInfo) (s : State) :
    ∃ t, execHpdConnect key sink s = .next t ∧ t.mem = s.mem := ⟨_, rfl, by dsimp only; (repeat' split) <;> simp⟩

theorem execHpdDisconnect_mem (key : Nat) (s : State) :
    ∃ t, execHpdDisconnect key s = .next t ∧ t.mem = s.mem := ⟨_, rfl, by dsimp only; (repeat' split) <;> simp⟩

theorem execIrqHpd_mem (key : Nat) (lost : Bool) (status : List Byte) (s : State) :
    ∃ t, execIrqHpd key lost status s = .next t ∧ t.mem = s.mem := ⟨_, rfl, by dsimp only; (repeat' split) <;> simp⟩

@[simp] theorem trainIfNeeded_mem (key : Nat) (s : State) : (trainIfNeeded key s).mem = s.mem := by
  unfold trainIfNeeded
  dsimp only
  (repeat' split) <;> simp

theorem execEgressLink_mem (port : Nat) (up : Bool) (s : State) :
    ∃ t, execEgressLink port up s = .next t ∧ t.mem = s.mem := ⟨_, rfl, by split <;> simp⟩

@[simp] theorem egressPortConfigureBody_mem (b : PortBody) (tk : Ticket) (s : State) : (egressPortConfigureBody b tk s).mem = s.mem := by
  unfold egressPortConfigureBody
  dsimp only
  (repeat' split) <;> simp

theorem execNeighbourRequestRx_mem (port lane kind address : Nat) (s : State) :
    ∃ t, execNeighbourRequestRx port lane kind address s = .next t ∧ t.mem = s.mem := ⟨_, rfl, by dsimp only; (repeat' split) <;> simp⟩

@[simp] theorem refState_mem (g : Nat) (r : SyncGroup) (locked : Bool) (period : Nat) (s : State) :
    (refState g r locked period s).mem = s.mem := by simp [refState]

@[simp] theorem groupEdge_mem (g : Nat) (r : SyncGroup) (s : State) : (groupEdge g r s).mem = s.mem := by
  unfold groupEdge
  dsimp only
  (repeat' split) <;> simp

theorem execFrameRefEdge_mem (input : Nat) (rising : Bool) (pulseNs : Nat) (s : State) :
    ∃ t, execFrameRefEdge input rising pulseNs s = .next t ∧ t.mem = s.mem := ⟨_, rfl, by simp [apply_ite State.mem, mem_foldl]⟩

theorem execRefUnlockTimeout_mem (g : Nat) (s : State) :
    ∃ t, execRefUnlockTimeout g s = .next t ∧ t.mem = s.mem := ⟨_, rfl, by dsimp only; (repeat' split) <;> simp⟩

@[simp] theorem headStatusBody_mem (key : Nat) (tk : Ticket) (s : State) : (headStatusBody key tk s).mem = s.mem := by
  unfold headStatusBody
  split <;> simp

@[simp] theorem headSinkReadBody_mem (key : Nat) (tk : Ticket) (s : State) : (headSinkReadBody key tk s).mem = s.mem := by
  unfold headSinkReadBody
  dsimp only
  (repeat' split) <;> simp only [complete_mem, hostOut_mem]

@[simp] theorem headSinkPowerBody_mem (key power : Nat) (tk : Ticket) (s : State) : (headSinkPowerBody key power tk s).mem = s.mem := by
  unfold headSinkPowerBody
  dsimp only
  (repeat' split) <;> simp

@[simp] theorem headAuxBody_mem (b : AuxBody) (tk : Ticket) (s : State) : (headAuxBody b tk s).mem = s.mem := by
  unfold headAuxBody
  dsimp only
  (repeat' split) <;> simp

/-! ### Recording -/

@[simp] theorem modSession_mem (key : Nat) (f : Session → Session) (s : State) : (modSession key f s).mem = s.mem := by rfl

@[simp] theorem setReturn_mem (key n : Nat) (s : State) : (setReturn key n s).mem = s.mem := by rfl

@[simp] theorem recordStartBody_mem (b : RecordBody) (tk : Ticket) (s : State) : (recordStartBody b tk s).mem = s.mem := by
  unfold recordStartBody
  dsimp only
  (repeat' split) <;> simp

@[simp] theorem recordStep_mem (s : State) : (recordStep s).mem = s.mem := by
  unfold recordStep
  dsimp only
  (repeat' split) <;> simp [mem_foldl]

@[simp] theorem noteMissed_mem (key : Nat) (s : State) : (noteMissed key s).mem = s.mem := by rfl

@[simp] theorem writeProgress_mem (x : Session) (s : State) : (writeProgress x s).mem = s.mem := by rfl

@[simp] theorem writeAu_mem (key : Nat) (f : InputFrame) (rows : List RowCode) (idr : Bool) (au : List Byte) (rd : Nat) (s : State) :
    (writeAu key f rows idr au rd s).mem = s.mem := by
  unfold writeAu
  dsimp only
  (repeat' split) <;> simp

@[simp] theorem dropPicture_mem (key : Nat) (s : State) : (dropPicture key s).mem = s.mem := by rfl

@[simp] theorem endSession_mem (key : Nat) (s : State) : (endSession key s).mem = s.mem := by
  unfold endSession
  split <;> simp

@[simp] theorem recordStopBody_mem (key : Nat) (abort : Bool) (tk : Ticket) (s : State) :
    (recordStopBody key abort tk s).mem = s.mem := by
  unfold recordStopBody
  (repeat' split) <;> simp

theorem execRecordStopComplete_mem (key : Nat) (s : State) :
    ∃ t, execRecordStopComplete key s = .next t ∧ t.mem = s.mem := ⟨_, rfl, by (repeat' split) <;> simp⟩

@[simp] theorem endByHead_mem (key cause : Nat) (s : State) : (endByHead key cause s).mem = s.mem := by
  unfold endByHead
  (repeat' split) <;> simp

@[simp] theorem recordFrameStart_mem (key : Nat) (t : HeadTiming) (s : State) : (recordFrameStart key t s).mem = s.mem := by
  unfold recordFrameStart
  (repeat' split) <;> simp

theorem execRecordReleased_mem (base : Nat) (s : State) :
    ∃ t, execRecordReleased base s = .next t ∧ t.mem = s.mem := ⟨_, rfl, by (repeat' split) <;> simp⟩

@[simp] theorem recordStatsBody_mem (key : Nat) (tk : Ticket) (s : State) : (recordStatsBody key tk s).mem = s.mem := by
  unfold recordStatsBody
  (repeat' split) <;> simp

@[simp] theorem recordForceIdrBody_mem (key : Nat) (tk : Ticket) (s : State) : (recordForceIdrBody key tk s).mem = s.mem := by
  unfold recordForceIdrBody
  (repeat' split) <;> simp

@[simp] theorem encodeSelftestBody_mem (pipe : Nat) (tk : Ticket) (s : State) : (encodeSelftestBody pipe tk s).mem = s.mem := by
  unfold encodeSelftestBody
  (repeat' split) <;> simp

theorem execEncodeSelftestDone_mem (pipe : Nat) (pass : Bool) (s : State) :
    ∃ t, execEncodeSelftestDone pipe pass s = .next t ∧ t.mem = s.mem := ⟨_, rfl, by split <;> simp⟩

/-! ### Overlay -/

@[simp] theorem overlayListLoadBody_mem (list length : Nat) (bytes : List Byte) (tk : Ticket) (s : State) :
    (overlayListLoadBody list length bytes tk s).mem = s.mem := by
  unfold overlayListLoadBody
  dsimp only
  (repeat' split) <;> simp

@[simp] theorem overlayListFreeBody_mem (list : Nat) (tk : Ticket) (s : State) : (overlayListFreeBody list tk s).mem = s.mem := by
  unfold overlayListFreeBody
  (repeat' split) <;> simp

@[simp] theorem overlayFontLoadBody_mem (b : FontBody) (tk : Ticket) (s : State) : (overlayFontLoadBody b tk s).mem = s.mem := by
  unfold overlayFontLoadBody
  (repeat' split) <;> simp

@[simp] theorem overlayBindBody_mem (b : BindBody) (tk : Ticket) (s : State) : (overlayBindBody b tk s).mem = s.mem := by
  unfold overlayBindBody
  dsimp only
  (repeat' split) <;> simp

@[simp] theorem modBinding_mem (k : Nat) (f : Binding → Binding) (s : State) : (modBinding k f s).mem = s.mem := by rfl

@[simp] theorem putEngine_mem (e : Nat) (x : Engine) (s : State) : (putEngine e x s).mem = s.mem := by rfl

@[simp] theorem discardDue_mem (k : Nat) (s : State) : (discardDue k s).mem = s.mem := by
  unfold discardDue
  dsimp only
  (repeat' split) <;> simp [mem_foldl]

@[simp] theorem overlayUnbindBody_mem (k : Nat) (tk : Ticket) (s : State) : (overlayUnbindBody k tk s).mem = s.mem := by
  unfold overlayUnbindBody
  (repeat' split) <;> simp

theorem execOverlayUnbindComplete_mem (k : Nat) (s : State) :
    ∃ t, execOverlayUnbindComplete k s = .next t ∧ t.mem = s.mem := ⟨_, rfl, by (repeat' split) <;> simp⟩

@[simp] theorem overlayGroupGone_mem (g : Nat) (s : State) : (overlayGroupGone g s).mem = s.mem := by
  simp [overlayGroupGone, apply_ite State.mem, mem_foldl]

@[simp] theorem overlayRunBody_mem (b : RunBody) (tk : Ticket) (s : State) : (overlayRunBody b tk s).mem = s.mem := by
  unfold overlayRunBody
  (repeat' split) <;> simp

@[simp] theorem noImage_mem (e k : Nat) (d : DueRun) (s : State) : (noImage e k d s).mem = s.mem := by
  unfold noImage
  dsimp only
  (repeat' split) <;> simp [mem_foldl]

@[simp] theorem beginRun_mem (e : Nat) (l : List (Nat × DueRun)) (s : State) : (beginRun e l s).mem = s.mem := by
  induction l generalizing s with
  | nil => rfl
  | cons p t ih =>
    unfold beginRun
    (repeat' split) <;> simp [ih]

theorem execOverlayRunStart_mem (e : Nat) (s : State) :
    ∃ t, execOverlayRunStart e s = .next t ∧ t.mem = s.mem := ⟨_, rfl, by split <;> simp⟩

theorem execOverlayNoImageTimeout_mem (k : Nat) (s : State) :
    ∃ t, execOverlayNoImageTimeout k s = .next t ∧ t.mem = s.mem := ⟨_, rfl, by (repeat' split) <;> simp [mem_foldl]⟩

@[simp] theorem supersededRun_mem (e : Nat) (r : Run) (b : Binding) (s : State) : (supersededRun e r b s).mem = s.mem := by
  unfold supersededRun
  dsimp only
  (repeat' split) <;> simp [mem_foldl]

@[simp] theorem lateRun_mem (e : Nat) (r : Run) (s : State) : (lateRun e r s).mem = s.mem := by
  unfold lateRun
  split <;> simp

@[simp] theorem presentRun_mem (e : Nat) (r : Run) (b : Binding) (units : Nat) (s : State) : (presentRun e r b units s).mem = s.mem := by
  unfold presentRun
  dsimp only
  (repeat' split) <;> simp [mem_foldl]

@[simp] theorem overlayStatusBody_mem (e : Nat) (tk : Ticket) (s : State) : (overlayStatusBody e tk s).mem = s.mem := by
  unfold overlayStatusBody
  split <;> simp

/-! ### The Tailstock -/

@[simp] theorem modSide_mem (key : Nat) (side : Side) (f : StreamRt → StreamRt) (s : State) : (modSide key side f s).mem = s.mem := by rfl

@[simp] theorem hearClaim_mem (side : Side) (c : Claim) (s : State) : (hearClaim side c s).mem = s.mem := by
  unfold hearClaim
  split <;> simp

@[simp] theorem tellClaim_mem (key : Nat) (side : Side) (s : State) : (tellClaim key side s).mem = s.mem := by
  unfold tellClaim
  dsimp only
  (repeat' split) <;> simp

@[simp] theorem tsFaults_mem (key cause n : Nat) (s : State) : (tsFaults key cause n s).mem = s.mem := by
  unfold tsFaults
  split <;> simp

@[simp] theorem tsFault_mem (key cause : Nat) (s : State) : (tsFault key cause s).mem = s.mem := by simp [tsFault]

@[simp] theorem tailstockInit_mem (s : State) : (tailstockInit s).mem = s.mem := by rfl

theorem execTailstockRecordWrite_mem (side : Side) (claim : Claim) (r : TsRecord) (s : State) :
    ∃ t, execTailstockRecordWrite side claim r s = .next t ∧ t.mem = s.mem := ⟨_, rfl, by dsimp only; (repeat' split) <;> simp⟩

@[simp] theorem mapLate_mem (key : Nat) (side : Side) (frame : Nat) (s : State) :
    (mapLate key side frame s).mem = s.mem := by simp [mapLate]

@[simp] theorem swapOrder_mem (key : Nat) (side : Side) (n start line : Nat) (o : SwapOrder) (s : State) :
    (swapOrder key side n start line o s).mem = s.mem := by
  delta swapOrder
  extract_lets h r
  split_ifs
  · rfl
  · exact putHead_mem ..
  · rfl
  · exact (mapLate_mem ..).trans (modSide_mem ..)

@[simp] theorem swapSide_mem (key : Nat) (side : Side) (n start line : Nat) (s : State) :
    (swapSide key side n start line s).mem = s.mem := by
  unfold swapSide
  generalize (sideOf (headRt s key) side).orders = l
  induction l generalizing s with
  | nil => rfl
  | cons o l ih => rw [List.foldl_cons, ih, swapOrder_mem]

theorem execSwapOrderRx_mem (side : Side) (key frame : Nat) (rollback : Bool) (s : State) :
    ∃ t, execSwapOrderRx side key frame rollback s = .next t ∧ t.mem = s.mem := ⟨_, rfl, by dsimp only; (repeat' split) <;> simp⟩

@[simp] theorem setBitmap_mem (side : Side) (b : BitmapRt) (s : State) : (setBitmap side b s).mem = s.mem := by
  unfold setBitmap
  split <;> simp

@[simp] theorem bitmapGap_mem (side : Side) (expected received : Nat) (s : State) :
    (bitmapGap side expected received s).mem = s.mem := by simp [bitmapGap]

theorem execVerdictUpdateRx_mem (side : Side) (crcOk : Bool) (seq : Nat) (entries : List (Nat × Bool)) (s : State) :
    ∃ t, execVerdictUpdateRx side crcOk seq entries s = .next t ∧ t.mem = s.mem := ⟨_, rfl, by dsimp only; (repeat' split) <;> simp⟩

theorem execWholeBitmapRx_mem (side : Side) (both : Bool) (seq : Nat) (bits : Bitmap) (s : State) :
    ∃ t, execWholeBitmapRx side both seq bits s = .next t ∧ t.mem = s.mem := ⟨_, rfl, by dsimp only; (repeat' split) <;> simp⟩

@[simp] theorem acceptLine_mem (side : Side) (t : LineToken) (s : State) : (acceptLine side t s).mem = s.mem := by
  unfold acceptLine
  split <;> simp

@[simp] theorem hearLine_mem (side : Side) (key : Nat) (s : State) : (hearLine side key s).mem = s.mem := by rfl

theorem execLineTokenRx_mem (side : Side) (crcOk : Bool) (t : LineToken) (s : State) :
    ∃ u, execLineTokenRx side crcOk t s = .next u ∧ u.mem = s.mem := ⟨_, rfl, by simp [apply_ite State.mem]⟩

theorem execIdleTokenSend_mem (key : Nat) (s : State) :
    ∃ t, execIdleTokenSend key s = .next t ∧ t.mem = s.mem := ⟨_, rfl, by split <;> simp⟩

theorem execClaimState_mem (key : Nat) (side : Side) (s : State) :
    ∃ t, execClaimState key side s = .next t ∧ t.mem = s.mem := ⟨_, rfl, by split <;> simp⟩

@[simp] theorem calEvent_mem (code key : Nat) (r : CalRect) (items : Items) (s : State) :
    (calEvent code key r items s).mem = s.mem := by simp [calEvent]

@[simp] theorem calExpected_mem (key i : Nat) (r : CalRect) (rt : CalRt) (crc frame unrel : Nat) (s : State) :
    (calExpected key i r rt crc frame unrel s).2.mem = s.mem := by
  unfold calExpected
  (repeat' split) <;> simp

@[simp] theorem calChange_mem (key i : Nat) (r : CalRect) (rt : CalRt) (c : Nat) (p : Option Nat) (frame unrel : Nat) (s : State) :
    (calChange key i r rt c p frame unrel s).mem = s.mem := by
  unfold calChange
  (repeat' split) <;> simp

@[simp] theorem calFrame_mem (key frame i : Nat) (r : CalRect) (s : State) : (calFrame key frame i r s).mem = s.mem := by
  unfold calFrame
  (repeat' split) <;> simp

@[simp] theorem returnFrame_mem (key frame : Nat) (s : State) : (returnFrame key frame s).mem = s.mem := by
  unfold returnFrame
  dsimp only
  (repeat' split) <;> simp

@[simp] theorem finishFrame_mem (key : Nat) (s : State) : (finishFrame key s).mem = s.mem := by
  unfold finishFrame
  dsimp only
  (repeat' split) <;> simp [mem_foldl]

@[simp] theorem rephase_mem (f : NextFrame) (s : State) : (rephase f s).mem = s.mem := by
  unfold rephase
  split <;> simp

@[simp] theorem setSupply_mem (key new : Nat) (s : State) : (setSupply key new s).mem = s.mem := by
  unfold setSupply
  dsimp only
  (repeat' split) <;> simp

@[simp] theorem switchover_mem (key n start : Nat) (s : State) : (switchover key n start s).mem = s.mem := by
  unfold switchover
  dsimp only
  (repeat' split) <;> simp

@[simp] theorem groupEnds_mem (g : Nat) (s : State) : (groupEnds g s).mem = s.mem := by
  unfold groupEnds
  split <;> simp

@[simp] theorem tellGeneration_mem (group : Nat) (s : State) : (tellGeneration group s).mem = s.mem := by
  unfold tellGeneration
  split <;> simp

@[simp] theorem groupBegins_mem (f : NextFrame) (s : State) : (groupBegins f s).mem = s.mem := by
  unfold groupBegins
  split <;> simp

@[simp] theorem beginFrame_mem (key : Nat) (f : NextFrame) (s : State) : (beginFrame key f s).mem = s.mem := by simp [beginFrame]

@[simp] theorem settleFrame_mem (key n start : Nat) (s : State) : (settleFrame key n start s).mem = s.mem := by simp [settleFrame]

@[simp] theorem leaveFrames_mem (key n : Nat) (s : State) : (leaveFrames key n s).mem = s.mem := by simp [leaveFrames]

@[simp] theorem putPacket_mem (key : Nat) (n : LineNow) (j : Nat) (s : State) : (putPacket key n j s).mem = s.mem := by rfl

@[simp] theorem putPixels_mem (key : Nat) (n : LineNow) (from_ : Nat) (s : State) : (putPixels key n from_ s).mem = s.mem := by
  unfold putPixels
  dsimp only
  (repeat' split) <;> simp [mem_foldl]

@[simp] theorem tellMismatchOf_mem (key : Nat) (m : Option (Nat × Nat × Nat × Nat × Nat)) (s : State) :
    (tellMismatchOf key m s).mem = s.mem := by
  unfold tellMismatchOf
  dsimp only
  (repeat' split) <;> simp

@[simp] theorem advanceLine_mem (key : Nat) (s : State) : (advanceLine key s).mem = s.mem := by
  unfold advanceLine
  dsimp only
  (repeat' split) <;> simp

@[simp] theorem advanceLines_mem (s : State) : (advanceLines s).mem = s.mem := by
  simp [advanceLines, apply_ite State.mem, mem_foldl]

@[simp] theorem tellErrors_mem (key : Nat) (k : LineKind) (e : LineErrors) (s : State) : (tellErrors key k e s).mem = s.mem := by
  unfold tellErrors
  (repeat' split) <;> simp

@[simp] theorem beginLine_mem (key line : Nat) (k : LineKind) (spans : List Span) (pixels : List Rgb) (e : LineErrors) (s : State) :
    (beginLine key line k spans pixels e s).mem = s.mem := by simp [beginLine]

@[simp] theorem plainLine_mem (key line : Nat) (k : LineKind) (e : LineErrors) (s : State) :
    (plainLine key line k e s).mem = s.mem := by simp [plainLine]

@[simp] theorem replayLine_mem (key line : Nat) (e : LineErrors) (s : State) : (replayLine key line e s).mem = s.mem := by
  unfold replayLine
  dsimp only
  (repeat' split) <;> simp

@[simp] theorem presentLine_mem (key line : Nat) (side : Side) (t : LineToken) (e : LineErrors) (s : State) :
    (presentLine key line side t e s).mem = s.mem := by simp [presentLine]

@[simp] theorem dueLine_mem (key line n : Nat) (e : LineErrors) (s : State) : (dueLine key line n e s).mem = s.mem := by
  unfold dueLine
  dsimp only
  (repeat' split) <;> simp

theorem execLineDue_mem (key : Nat) (l : DueLine) (s : State) :
    ∃ t, execLineDue key l s = .next t ∧ t.mem = s.mem := ⟨_, rfl, by dsimp only; (repeat' split) <;> simp⟩

@[simp] theorem startFrame_mem (key : Nat) (f : NextFrame) (s : State) : (startFrame key f s).mem = s.mem := by
  unfold startFrame
  dsimp only
  (repeat' split) <;> simp

theorem execFrameStart_mem (key : Nat) (s : State) :
    ∃ t, execFrameStart key s = .next t ∧ t.mem = s.mem := ⟨_, rfl, by (repeat' split) <;> simp⟩

theorem execHoldLimit_mem (key : Nat) (s : State) :
    ∃ t, execHoldLimit key s = .next t ∧ t.mem = s.mem := ⟨_, rfl, by dsimp only; (repeat' split) <;> simp⟩

theorem execCalipersSelfcheck_mem (key value : Nat) (s : State) :
    ∃ t, execCalipersSelfcheck key value s = .next t ∧ t.mem = s.mem := ⟨_, rfl, by (repeat' split) <;> simp⟩

theorem execHoldScrub_mem (key line errors : Nat) (s : State) :
    ∃ t, execHoldScrub key line errors s = .next t ∧ t.mem = s.mem := ⟨_, rfl, by dsimp only; (repeat' split) <;> simp⟩

theorem tsCommand_mem {body : Ticket → State → State} (h : ∀ tk s, (body tk s).mem = s.mem) (ok : Bool) (tk : Ticket) (s : State) :
    (tsCommand ok body tk s).mem = s.mem := by
  unfold tsCommand
  split_ifs <;> simp [h]

@[simp] theorem tailstockGlyphLoadBody_mem (first count : Nat) (glyphs : List Byte) (tk : Ticket) (s : State) :
    (tailstockGlyphLoadBody first count glyphs tk s).mem = s.mem := by
  refine tsCommand_mem (fun tk s => ?_) ..
  (repeat' split) <;> simp

@[simp] theorem calipersReadBody_mem (key : Nat) (tk : Ticket) (s : State) : (calipersReadBody key tk s).mem = s.mem := by
  refine tsCommand_mem (fun tk s => ?_) ..
  simp

@[simp] theorem tailstockStatusBody_mem (key : Nat) (tk : Ticket) (s : State) : (tailstockStatusBody key tk s).mem = s.mem := by
  refine tsCommand_mem (fun tk s => ?_) ..
  simp

@[simp] theorem verdictReadBody_mem (select : Nat) (tk : Ticket) (s : State) : (verdictReadBody select tk s).mem = s.mem := by
  refine tsCommand_mem (fun tk s => ?_) ..
  (repeat' split) <;> simp

@[simp] theorem holdReadBody_mem (key : Nat) (r : Rect) (tk : Ticket) (s : State) : (holdReadBody key r tk s).mem = s.mem := by
  refine tsCommand_mem (fun tk s => ?_) ..
  simp

@[simp] theorem tailstockFontReadBody_mem (tk : Ticket) (s : State) : (tailstockFontReadBody tk s).mem = s.mem := by
  refine tsCommand_mem (fun tk s => ?_) ..
  simp

/-! ### Scene transactions -/

@[simp] theorem broadcast_mem (name : String) (fields : List Int) (s : State) : (broadcast name fields s).mem = s.mem := by rfl

@[simp] theorem modTxnAt_mem (id : Nat) (f : Txn → Txn) (s : State) : (modTxnAt id f s).mem = s.mem := by rfl

@[simp] theorem txnEvent_mem (code id : Nat) (items : Items) (s : State) : (txnEvent code id items s).mem = s.mem := by simp [txnEvent]

@[simp] theorem mirrorTxn_mem (id : Nat) (s : State) : (mirrorTxn id s).mem = s.mem := by
  unfold mirrorTxn
  (repeat' split) <;> simp

@[simp] theorem setPhase_mem (id : Nat) (p : TxnPhase) (s : State) : (setPhase id p s).mem = s.mem := by
  unfold setPhase
  (repeat' split) <;> simp

@[simp] theorem endTicket_mem (id status : Nat) (data result : Items) (s : State) : (endTicket id status data result s).mem = s.mem := by
  unfold endTicket
  (repeat' split) <;> simp

@[simp] theorem openPart_mem (id : Nat) (s : State) : (openPart id s).mem = s.mem := by
  unfold openPart
  split <;> simp

@[simp] theorem freePart_mem (s : State) : (freePart s).mem = s.mem := by rfl

@[simp] theorem modPart_mem (f : PartTxn → PartTxn) (s : State) : (modPart f s).mem = s.mem := by rfl

@[simp] theorem sendRecords_mem (b : SceneBank) (s : State) (key : Nat) : (sendRecords b s key).mem = s.mem := by
  unfold sendRecords
  refine mem_foldl (fun _ _ => ?_) ..
  rfl

@[simp] theorem writeStaged_mem (s : State) : (writeStaged s).mem = s.mem := by
  unfold writeStaged
  refine (mem_foldl (fun s p => ?_) ..).trans (mem_foldl (sendRecords_mem _) ..)
  dsimp only
  split <;> rfl

@[simp] theorem prepareOwn_mem (id : Nat) (s : State) : (prepareOwn id s).2.mem = s.mem := by
  unfold prepareOwn
  dsimp only
  (repeat' split) <;> simp

@[simp] theorem sendSwaps_mem (frames : Map Nat) (rollback : Bool) (s : State) : (sendSwaps frames rollback s).mem = s.mem := by
  unfold sendSwaps
  refine mem_foldl (fun _ _ => ?_) ..
  rfl

@[simp] theorem swapScene_mem (frames : Map Nat) (rollback : Bool) (s : State) : (swapScene frames rollback s).mem = s.mem := by
  unfold swapScene
  dsimp only
  (repeat' split) <;> simp

@[simp] theorem raiseOutcome_mem (id pos : Nat) (s : State) : (raiseOutcome id pos s).mem = s.mem := by
  unfold raiseOutcome
  dsimp only
  (repeat' split) <;> simp [mem_foldl]

@[simp] theorem settlePart_mem (id pos outcome : Nat) (s : State) : (settlePart id pos outcome s).mem = s.mem := by simp [settlePart]

@[simp] theorem endPart_mem (id : Nat) (s : State) : (endPart id s).mem = s.mem := by
  unfold endPart
  split <;> simp

@[simp] theorem finishTxn_mem (id : Nat) (p : TxnPhase) (status : Nat) (s : State) : (finishTxn id p status s).mem = s.mem := by
  unfold finishTxn
  dsimp only
  (repeat' split) <;> simp

@[simp] theorem tolerantDone_mem (id : Nat) (s : State) : (tolerantDone id s).mem = s.mem := by
  unfold tolerantDone
  (repeat' split) <;> simp

@[simp] theorem takeReport_mem (r : ApplyReport) (s : State) : (takeReport r s).mem = s.mem := by
  unfold takeReport
  (repeat' split) <;> simp

@[simp] theorem sendReport_mem (r : ApplyReport) (s : State) : (sendReport r s).mem = s.mem := by
  unfold sendReport
  split <;> simp

@[simp] theorem holdCommit_mem (q : PartTxn) (m : CommitMsg) (s : State) : (holdCommit q m s).mem = s.mem := by
  unfold holdCommit
  dsimp only
  (repeat' split) <;> simp

@[simp] theorem createGroup_mem (T : Nat) (s : State) (g : Nat) : (createGroup T s g).mem = s.mem := by
  unfold createGroup
  (repeat' split) <;> simp

@[simp] theorem applyPart_mem (p : PartTxn) (s : State) : (applyPart p s).mem = s.mem := by
  unfold applyPart
  dsimp only
  simp [mem_foldl]

@[simp] theorem applyDue_mem (s : State) : (applyDue s).mem = s.mem := by
  unfold applyDue
  (repeat' split) <;> simp

@[simp] theorem applyAt_mem (g : Nat) (s : State) : (applyAt g s).mem = s.mem := by
  unfold applyAt
  (repeat' split) <;> simp

@[simp] theorem applyFor_mem (g : Nat) (l : Latch) (s : State) : (applyFor g l s).mem = s.mem := by
  unfold applyFor
  (repeat' split) <;> simp

@[simp] theorem rollbackPart_mem (p : PartTxn) (s : State) : (rollbackPart p s).mem = s.mem := by
  unfold rollbackPart
  dsimp only
  (repeat' split) <;> simp

@[simp] theorem takeCommit_mem (m : CommitMsg) (s : State) : (takeCommit m s).mem = s.mem := by
  unfold takeCommit
  dsimp only
  (repeat' split) <;> simp

theorem execCommitRx_mem (m : CommitMsg) (s : State) : ∃ t, execCommitRx m s = .next t ∧ t.mem = s.mem := ⟨_, rfl, by simp⟩

theorem execTxnApply_mem (s : State) : ∃ t, execTxnApply s = .next t ∧ t.mem = s.mem := ⟨_, rfl, by simp⟩

theorem execLatchPoint_mem (g : Nat) (s : State) :
    ∃ t, execLatchPoint g s = .next t ∧ t.mem = s.mem := ⟨_, rfl, by (repeat' split) <;> simp⟩

theorem execSyncPaceTimeout_mem (g : Nat) (s : State) :
    ∃ t, execSyncPaceTimeout g s = .next t ∧ t.mem = s.mem := ⟨_, rfl, by (repeat' split) <;> simp⟩

theorem execLatchDecisionRx_mem (g latchNs n : Nat) (s : State) :
    ∃ t, execLatchDecisionRx g latchNs n s = .next t ∧ t.mem = s.mem := ⟨_, rfl, by (repeat' split) <;> simp⟩

theorem execApplyReportRx_mem (r : ApplyReport) (s : State) :
    ∃ t, execApplyReportRx r s = .next t ∧ t.mem = s.mem := ⟨_, rfl, by split <;> simp⟩

@[simp] theorem txnBeginBody_mem (lockstep : Bool) (modules : Nat) (tk : Ticket) (s : State) :
    (txnBeginBody lockstep modules tk s).mem = s.mem := by
  unfold txnBeginBody
  dsimp only
  (repeat' split) <;> simp

@[simp] theorem stageOwn_mem (pos : Nat) (items : List Item) (s : State) : (stageOwn pos items s).mem = s.mem := by rfl

@[simp] theorem copyStage_mem (pos : Nat) (c : HostCmd) (s : State) : (copyStage pos c s).mem = s.mem := by rfl

@[simp] theorem noteStaged_mem (id pos : Nat) (items : List Item) (s : State) : (noteStaged id pos items s).mem = s.mem := by rfl

@[simp] theorem txnStageBody_mem (id pos itemCount itemsLen : Nat) (items : List Item) (tk : Ticket) (s : State) :
    (txnStageBody id pos itemCount itemsLen items tk s).mem = s.mem := by
  unfold txnStageBody
  dsimp only
  (repeat' split) <;> simp

@[simp] theorem txnStageForwarded_mem (id pos itemCount itemsLen : Nat) (items : List Item) (tk : Ticket) (s : State) :
    (txnStageForwarded id pos itemCount itemsLen items tk s).mem = s.mem := by
  unfold txnStageForwarded
  dsimp only
  (repeat' split) <;> simp

@[simp] theorem abortTxn_mem (id status : Nat) (result : Items) (s : State) : (abortTxn id status result s).mem = s.mem := by
  unfold abortTxn
  dsimp only
  (repeat' split) <;> simp

@[simp] theorem txnAbortBody_mem (id : Nat) (tk : Ticket) (s : State) : (txnAbortBody id tk s).mem = s.mem := by
  unfold txnAbortBody
  (repeat' split) <;> simp

theorem execTxnAbortRx_mem (id : Nat) (s : State) :
    ∃ t, execTxnAbortRx id s = .next t ∧ t.mem = s.mem := ⟨_, rfl, by (repeat' split) <;> simp⟩

@[simp] theorem txnModuleLost_mem (pos : Nat) (reset : Bool) (s : State) : (txnModuleLost pos reset s).mem = s.mem := by
  refine mem_foldl (fun s p => ?_) ..
  (repeat' split) <;> simp

@[simp] theorem txnOwnFault_mem (s : State) : (txnOwnFault s).mem = s.mem := by
  unfold txnOwnFault
  (repeat' split) <;> simp

@[simp] theorem issueCommit_mem (id : Nat) (s : State) : (issueCommit id s).mem = s.mem := by
  unfold issueCommit
  dsimp only
  (repeat' split) <;> simp

@[simp] theorem takeVote_mem (id pos : Nat) (yes : Bool) (code : Nat) (s : State) : (takeVote id pos yes code s).mem = s.mem := by
  unfold takeVote
  (repeat' split) <;> simp

@[simp] theorem sendPrepare_mem (id : Nat) (s : State) : (sendPrepare id s).mem = s.mem := by
  unfold sendPrepare
  dsimp only
  (repeat' split) <;> simp

theorem execPrepareRx_mem (id : Nat) (s : State) : ∃ t, execPrepareRx id s = .next t ∧ t.mem = s.mem := ⟨_, rfl, by split <;> simp⟩

theorem execVoteRx_mem (id pos : Nat) (yes : Bool) (code : Nat) (s : State) :
    ∃ t, execVoteRx id pos yes code s = .next t ∧ t.mem = s.mem := ⟨_, rfl, by split <;> simp⟩

theorem execVoteTimeout_mem (id : Nat) (s : State) :
    ∃ t, execVoteTimeout id s = .next t ∧ t.mem = s.mem := ⟨_, rfl, by (repeat' split) <;> simp⟩

@[simp] theorem validationDone_mem (id : Nat) (s : State) : (validationDone id s).mem = s.mem := by
  unfold validationDone
  dsimp only
  (repeat' split) <;> simp

@[simp] theorem takeResult_mem (id pos : Nat) (v : ValSummary) (l : List ReportEntry) (s : State) :
    (takeResult id pos v l s).mem = s.mem := by
  unfold takeResult
  (repeat' split) <;> simp

@[simp] theorem startValidation_mem (id : Nat) (s : State) : (startValidation id s).mem = s.mem := by
  unfold startValidation
  dsimp only
  (repeat' split) <;> simp

theorem execValidationRequestRx_mem (id : Nat) (s : State) :
    ∃ t, execValidationRequestRx id s = .next t ∧ t.mem = s.mem := ⟨_, rfl, by dsimp only; split_ifs <;> simp only [emit_mem, openPart_mem]⟩

theorem execValidationResultRx_mem (id pos : Nat) (v : ValSummary) (l : List ReportEntry) (s : State) :
    ∃ t, execValidationResultRx id pos v l s = .next t ∧ t.mem = s.mem := ⟨_, rfl, by split <;> simp⟩

@[simp] theorem txnValidateBody_mem (id len : Nat) (tk : Ticket) (s : State) : (txnValidateBody id len tk s).mem = s.mem := by
  unfold txnValidateBody
  (repeat' split) <;> simp

@[simp] theorem txnCommitBody_mem (id apply len : Nat) (tk : Ticket) (s : State) : (txnCommitBody id apply len tk s).mem = s.mem := by
  unfold txnCommitBody
  (repeat' split) <;> simp

@[simp] theorem txnStatusBody_mem (id len : Nat) (tk : Ticket) (s : State) : (txnStatusBody id len tk s).mem = s.mem := by
  unfold txnStatusBody
  (repeat' split) <;> simp

@[simp] theorem resendTo_mem (id : Nat) (t : Txn) (T : Nat) (s : State) (pos : Nat) : (resendTo id t T s pos).mem = s.mem := by
  unfold resendTo
  dsimp only
  (repeat' split) <;> simp [mem_foldl]

theorem execCommitResend_mem (id : Nat) (s : State) :
    ∃ t, execCommitResend id s = .next t ∧ t.mem = s.mem := ⟨_, rfl, by dsimp only; (repeat' split) <;> simp [mem_foldl]⟩

theorem execCancelPoint_mem (id : Nat) (s : State) :
    ∃ t, execCancelPoint id s = .next t ∧ t.mem = s.mem := ⟨_, rfl, by dsimp only; (repeat' split) <;> simp⟩

theorem execDecisionPoint_mem (id : Nat) (s : State) :
    ∃ t, execDecisionPoint id s = .next t ∧ t.mem = s.mem := ⟨_, rfl, by dsimp only; (repeat' split) <;> simp [mem_foldl]⟩

theorem execLaggardExpiry_mem (id : Nat) (s : State) :
    ∃ t, execLaggardExpiry id s = .next t ∧ t.mem = s.mem := ⟨_, rfl, by dsimp only; (repeat' split) <;> simp [mem_foldl]⟩

theorem execRollbackComplete_mem (id : Nat) (s : State) :
    ∃ t, execRollbackComplete id s = .next t ∧ t.mem = s.mem := ⟨_, rfl, by dsimp only; (repeat' split) <;> simp [mem_foldl]⟩

theorem execContactLossTimeout_mem (s : State) :
    ∃ t, execContactLossTimeout s = .next t ∧ t.mem = s.mem := ⟨_, rfl, by dsimp only; (repeat' split) <;> simp⟩

theorem execSceneGenRx_mem (gen : Nat) (s : State) : ∃ t, execSceneGenRx gen s = .next t ∧ t.mem = s.mem := ⟨_, rfl, by split <;> simp⟩

/-! ### Luasin -/

@[simp] theorem modLane_mem (k : Nat) (f : LaneRt → LaneRt) (s : State) : (modLane k f s).mem = s.mem := by rfl

@[simp] theorem modBond_mem (b : Bond) (f : BondRt → BondRt) (s : State) : (modBond b f s).mem = s.mem := by rfl

@[simp] theorem afterLane_mem (k before : Nat) (lane : Option Nat) (s : State) : (afterLane k before lane s).mem = s.mem := by
  unfold afterLane
  dsimp only
  (repeat' split) <;> simp

@[simp] theorem setLane_mem (k new cause : Nat) (s : State) : (setLane k new cause s).mem = s.mem := by
  unfold setLane
  dsimp only
  (repeat' split) <;> simp

@[simp] theorem tellLane_mem (k : Nat) (s : State) : (tellLane k s).mem = s.mem := by
  unfold tellLane
  dsimp only
  (repeat' split) <;> simp

@[simp] theorem laneEnable_mem (mask : Nat) (s : State) : (laneEnable mask s).mem = s.mem := by
  simp [laneEnable, apply_ite State.mem, mem_foldl]

@[simp] theorem lanesSleep_mem (twin : Bool) (s : State) : (lanesSleep twin s).mem = s.mem := by
  simp [lanesSleep, apply_ite State.mem, mem_foldl]

@[simp] theorem lanesWake_mem (s : State) : (lanesWake s).mem = s.mem := by
  refine mem_foldl (fun s k => ?_) ..
  split_ifs <;> simp

@[simp] theorem nextFrameOn_mem (b : Bond) (c : TClass) (k : Nat) (s : State) : (nextFrameOn b c k s).2.mem = s.mem := by
  unfold nextFrameOn
  dsimp only
  (repeat' split) <;> simp

@[simp] theorem addAck_mem (b : Bond) (f : TxFrame) (s : State) : (addAck b f s).2.mem = s.mem := by
  unfold addAck
  dsimp only
  (repeat' split) <;> simp

@[simp] theorem sendSlot_mem (b : Bond) (lane k : Nat) (noLine : Bool) (s : State) : (sendSlot b lane k noLine s).mem = s.mem := by
  simp only [sendSlot, emit_mem, apply_ite State.mem, modLane_mem, addAck_mem, nextFrameOn_mem, State.modLink_mem, ite_self]

@[simp] theorem trainSlot_mem (b : Bond) (lane k : Nat) (s : State) : (trainSlot b lane k s).mem = s.mem := by simp [trainSlot]

theorem execLaneSlot_mem (b : Bond) (lane : Nat) (s : State) :
    ∃ t, execLaneSlot b lane s = .next t ∧ t.mem = s.mem := ⟨_, rfl, by (repeat' split) <;> simp⟩

theorem execAckDue_mem (b : Bond) (c : TClass) (s : State) :
    ∃ t, execAckDue b c s = .next t ∧ t.mem = s.mem := ⟨_, rfl, by (repeat' split) <;> simp⟩

@[simp] theorem takeOrdered_mem (b : Bond) (f : LuasinFrame) (s : State) : (takeOrdered b f s).mem = s.mem := by rfl

@[simp] theorem takeLoose_mem (b : Bond) (f : LuasinFrame) (s : State) : (takeLoose b f s).mem = s.mem := by rfl

@[simp] theorem takeAck_mem (b : Bond) (f : LuasinFrame) (s : State) : (takeAck b f s).mem = s.mem := by
  unfold takeAck
  split <;> simp

theorem execLuasinFrameRx_mem (b : Bond) (lane : Nat) (f : LuasinFrame) (s : State) :
    ∃ t, execLuasinFrameRx b lane f s = .next t ∧ t.mem = s.mem := ⟨_, rfl, by dsimp only; (repeat' split) <;> simp⟩

@[simp] theorem bondDown_mem (b : Bond) (s : State) : (bondDown b s).mem = s.mem := by
  unfold bondDown
  dsimp only
  simp [mem_foldl]

theorem execRetxTimeout_mem (b : Bond) (c : TClass) (s : State) :
    ∃ t, execRetxTimeout b c s = .next t ∧ t.mem = s.mem := ⟨_, rfl, by (repeat' split) <;> simp⟩

theorem execSignalDetect_mem (b : Bond) (lane : Nat) (s : State) :
    ∃ t, execSignalDetect b lane s = .next t ∧ t.mem = s.mem := ⟨_, rfl, by dsimp only; (repeat' split) <;> simp⟩

theorem execTrainingComplete_mem (b : Bond) (lane skewNs : Nat) (s : State) :
    ∃ t, execTrainingComplete b lane skewNs s = .next t ∧ t.mem = s.mem := ⟨_, rfl, by (repeat' split) <;> simp⟩

theorem execTrainingTimeout_mem (b : Bond) (lane : Nat) (s : State) :
    ∃ t, execTrainingTimeout b lane s = .next t ∧ t.mem = s.mem := ⟨_, rfl, by (repeat' split) <;> simp⟩

theorem execMarkerLoss_mem (b : Bond) (lane : Nat) (byCrc : Bool) (s : State) :
    ∃ t, execMarkerLoss b lane byCrc s = .next t ∧ t.mem = s.mem := ⟨_, rfl, by dsimp only; (repeat' split) <;> simp⟩

theorem execSleepOrderRx_mem (east _faultOrder : Bool) (s : State) :
    ∃ t, execSleepOrderRx east _faultOrder s = .next t ∧ t.mem = s.mem := ⟨_, rfl, by dsimp only; (repeat' split) <;> simp⟩

@[simp] theorem laneCountersBody_mem (lane : Nat) (tk : Ticket) (s : State) : (laneCountersBody lane tk s).mem = s.mem := by
  unfold laneCountersBody
  (repeat' split) <;> simp

@[simp] theorem laneTestBody_mem (lane durationMs : Nat) (farAllows pathBeyond : Bool) (tk : Ticket) (s : State) :
    (laneTestBody lane durationMs farAllows pathBeyond tk s).mem = s.mem := by
  unfold laneTestBody
  (repeat' split) <;> simp

theorem execLaneTestEnd_mem (lane errorsHere errorsFar bits : Nat) (s : State) :
    ∃ t, execLaneTestEnd lane errorsHere errorsFar bits s = .next t ∧ t.mem = s.mem := ⟨_, rfl, by (repeat' split) <;> simp⟩

/-! ### Changes of module state -/

@[simp] theorem setBank_mem (n : Nat) (image : Option Image) (s : State) : (setBank n image s).mem = s.mem := by rfl

@[simp] theorem enterPhase_mem (new : Phase) (bank version : Nat) (s : State) : (enterPhase new bank version s).mem = s.mem := by
  unfold enterPhase
  dsimp only
  (repeat' split) <;> simp

@[simp] theorem updateRefused_mem (status accepted version : Nat) (s : State) :
    (updateRefused status accepted version s).mem = s.mem := by simp [updateRefused]

@[simp] theorem dropInbound_mem (s : State) : (dropInbound s).mem = s.mem := by
  unfold dropInbound
  split <;> simp

@[simp] theorem updateFailed_mem (cause step bank : Nat) (s : State) :
    (updateFailed cause step bank s).mem = s.mem := by simp [updateFailed]

@[simp] theorem unschedule_mem (s : State) : (unschedule s).mem = s.mem := by
  unfold unschedule
  split <;> simp

@[simp] theorem schedule_mem (instant : Nat) (s : State) : (schedule instant s).mem = s.mem := by simp [schedule]

@[simp] theorem setJob_mem (distribute : Bool) (j : Option UpdateJob) (s : State) : (setJob distribute j s).mem = s.mem := by rfl

@[simp] theorem settleJob_mem (distribute : Bool) (s : State) : (settleJob distribute s).mem = s.mem := by
  unfold settleJob
  (repeat' split) <;> simp

@[simp] theorem reportJob_mem (distribute : Bool) (pos : Nat) (ok : Bool) (s : State) :
    (reportJob distribute pos ok s).mem = s.mem := by simp [reportJob]

@[simp] theorem stopHitless_mem (cause : Nat) (s : State) : (stopHitless cause s).mem = s.mem := by
  unfold stopHitless
  (repeat' split) <;> simp

@[simp] theorem hitlessStep_mem (n : Nat) (s : State) : (hitlessStep n s).mem = s.mem := by rfl

@[simp] theorem endHitless_mem (s : State) : (endHitless s).mem = s.mem := by
  unfold endHitless
  (repeat' split) <;> simp

@[simp] theorem hitlessPaired_mem (version : Nat) (s : State) : (hitlessPaired version s).mem = s.mem := by
  unfold hitlessPaired
  (repeat' split) <;> simp

@[simp] theorem hitlessHeard_mem (s : State) : (hitlessHeard s).mem = s.mem := by
  unfold hitlessHeard
  (repeat' split) <;> simp

@[simp] theorem hitlessCaughtUp_mem (s : State) : (hitlessCaughtUp s).mem = s.mem := by
  unfold hitlessCaughtUp
  (repeat' split) <;> simp

/-! ### The cascade -/

@[simp] theorem endForwards_mem (p : Ticket → Nat → Bool) (status : Nat) (s : State) : (endForwards p status s).mem = s.mem := by
  unfold endForwards
  dsimp only
  simp [mem_foldl]

@[simp] theorem headstockEvent_mem (taken : Bool) (cause old : Nat) (s : State) :
    (headstockEvent taken cause old s).mem = s.mem := by simp [headstockEvent]

@[simp] theorem takeHeadstock_mem (cause : Nat) (s : State) : (takeHeadstock cause s).mem = s.mem := by simp [takeHeadstock]

@[simp] theorem giveHeadstock_mem (cause : Nat) (s : State) : (giveHeadstock cause s).mem = s.mem := by simp [giveHeadstock]

@[simp] theorem checkHeadstock_mem (cause : Nat) (s : State) : (checkHeadstock cause s).mem = s.mem := by
  unfold checkHeadstock
  split <;> simp

theorem execHeadstockTake_mem (s : State) : ∃ t, execHeadstockTake s = .next t ∧ t.mem = s.mem := ⟨_, rfl, by (repeat' split) <;> simp⟩

theorem execHeadstockServiceReady_mem (s : State) : ∃ t, execHeadstockServiceReady s = .next t ∧ t.mem = s.mem := ⟨_, rfl, rfl⟩

theorem execDiscovery_mem (s : State) : ∃ t, execDiscovery s = .next t ∧ t.mem = s.mem := ⟨_, rfl, by split <;> simp⟩

@[simp] theorem tellAssigned_mem (identity serial new : Nat) (oldIdentity oldPosition : Option Nat) (s : State) :
    (tellAssigned identity serial new oldIdentity oldPosition s).mem = s.mem := by
  unfold tellAssigned
  split <;> simp

@[simp] theorem storePosition_mem (identity pos : Nat) (s : State) : (storePosition identity pos s).mem = s.mem := by rfl

@[simp] theorem setRing_mem (r : RingState) (s : State) : (setRing r s).mem = s.mem := by
  unfold setRing
  (repeat' split) <;> simp

@[simp] theorem judgeCandidates_mem (found : List DiscModule) (s : State) : (judgeCandidates found s).mem = s.mem := by
  unfold judgeCandidates
  dsimp only
  (repeat' split) <;> simp

@[simp] theorem modDelay_mem (east : Bool) (f : LinkDelay → LinkDelay) (s : State) : (modDelay east f s).mem = s.mem := by rfl

@[simp] theorem refuseLink_mem (east : Bool) (s : State) : (refuseLink east s).mem = s.mem := by
  unfold refuseLink
  split <;> simp

@[simp] theorem concludeDiscovery_mem (returned : Bool) (found : List DiscModule) (s : State) :
    (concludeDiscovery returned found s).mem = s.mem := by
  unfold concludeDiscovery
  split
  · simp
  · refine (judgeCandidates_mem ..).trans ((mem_foldl (fun s x => ?_) ..).trans ?_)
    · split <;> simp
    · simp

@[simp] theorem learnDiscovery_mem (found : List DiscModule) (s : State) : (learnDiscovery found s).mem = s.mem := by
  unfold learnDiscovery
  (repeat' split) <;> simp

theorem execDiscoveryComplete_mem (returned : Bool) (found : List DiscModule) (s : State) :
    ∃ t, execDiscoveryComplete returned found s = .next t ∧ t.mem = s.mem := ⟨_, rfl, by split <;> simp⟩

theorem execPresenceSend_mem (s : State) : ∃ t, execPresenceSend s = .next t ∧ t.mem = s.mem := ⟨_, rfl, by split <;> simp⟩

@[simp] theorem presenceEvent_mem (pos what boot : Nat) (s : State) :
    (presenceEvent pos what boot s).mem = s.mem := by simp [presenceEvent]

@[simp] theorem moduleGone_mem (pos : Nat) (reset : Bool) (s : State) : (moduleGone pos reset s).mem = s.mem := by
  unfold moduleGone
  dsimp only
  (repeat' split) <;> simp

@[simp] theorem hearTwin_mem (p : Presence) (s : State) : (hearTwin p s).mem = s.mem := by rfl

@[simp] theorem hearModule_mem (p : Presence) (s : State) : (hearModule p s).mem = s.mem := by
  unfold hearModule
  (repeat' split) <;> simp

theorem execPresenceRx_mem (p : Presence) (s : State) :
    ∃ t, execPresenceRx p s = .next t ∧ t.mem = s.mem := ⟨_, rfl, by dsimp only; (repeat' split) <;> simp⟩

theorem execPresenceTimeout_mem (pos : Nat) (s : State) :
    ∃ t, execPresenceTimeout pos s = .next t ∧ t.mem = s.mem := ⟨_, rfl, by dsimp only; (repeat' split) <;> simp⟩

@[simp] theorem steerOwn_mem (s : State) : (steerOwn s).mem = s.mem := by rfl

@[simp] theorem spindleEvent_mem (own : Bool) (s : State) : (spindleEvent own s).mem = s.mem := by simp [spindleEvent]

@[simp] theorem timebaseEvent_mem (own : Bool) (s : State) : (timebaseEvent own s).mem = s.mem := by simp [timebaseEvent]

theorem execBeatSend_mem (s : State) : ∃ t, execBeatSend s = .next t ∧ t.mem = s.mem := ⟨_, rfl, by split <;> simp⟩

@[simp] theorem correctSpindle_mem (east : Bool) (m : BeatMsg) (s : State) : (correctSpindle east m s).mem = s.mem := by rfl

@[simp] theorem useBeat_mem (east : Bool) (m : BeatMsg) (s : State) : (useBeat east m s).mem = s.mem := by
  unfold useBeat
  dsimp only
  (repeat' split) <;> simp

@[simp] theorem forwardBeat_mem (east : Bool) (m : BeatMsg) (s : State) : (forwardBeat east m s).mem = s.mem := by rfl

theorem execBeatRx_mem (east : Bool) (m : BeatMsg) (s : State) :
    ∃ t, execBeatRx east m s = .next t ∧ t.mem = s.mem := ⟨_, rfl, by dsimp only; (repeat' split) <;> simp⟩

theorem execBeatLoss_mem (s : State) : ∃ t, execBeatLoss s = .next t ∧ t.mem = s.mem := ⟨_, rfl, by (repeat' split) <;> simp⟩

theorem execDelayRequestSend_mem (east : Bool) (s : State) :
    ∃ t, execDelayRequestSend east s = .next t ∧ t.mem = s.mem := ⟨_, rfl, by dsimp only; (repeat' split) <;> simp⟩

theorem execDelayRequestRx_mem (east : Bool) (m : BeatMsg) (residencePs : Nat) (s : State) :
    ∃ t, execDelayRequestRx east m residencePs s = .next t ∧ t.mem = s.mem := ⟨_, rfl, by (repeat' split) <;> simp⟩

theorem execDelayResponseRx_mem (east : Bool) (m : BeatMsg) (roundTripPs : Int) (s : State) :
    ∃ t, execDelayResponseRx east m roundTripPs s = .next t ∧ t.mem = s.mem := ⟨_, rfl, by dsimp only; (repeat' split) <;> simp⟩

@[simp] theorem roleEvent_mem (old new : Role) (cause : Nat) (s : State) : (roleEvent old new cause s).mem = s.mem := by simp [roleEvent]

@[simp] theorem endSwap_mem (status : Nat) (s : State) : (endSwap status s).mem = s.mem := by
  unfold endSwap
  (repeat' split) <;> simp

@[simp] theorem setRole_mem (new : Role) (cause : Nat) (s : State) : (setRole new cause s).mem = s.mem := by
  unfold setRole
  dsimp only
  (repeat' split) <;> simp

@[simp] theorem takePairing_mem (t : TwinIdent) (s : State) : (takePairing t s).mem = s.mem := by
  unfold takePairing
  split <;> simp

@[simp] theorem loseTwin_mem (s : State) : (loseTwin s).mem = s.mem := by
  unfold loseTwin
  dsimp only
  (repeat' split) <;> simp

@[simp] theorem twinDown_mem (s : State) : (twinDown s).mem = s.mem := by simp [twinDown]

theorem execTwinPairing_mem (t : TwinIdent) (s : State) :
    ∃ u, execTwinPairing t s = .next u ∧ u.mem = s.mem := ⟨_, rfl, by dsimp only; split_ifs <;> simp⟩

theorem execTwinReportRx_mem (twinRole : Nat) (s : State) :
    ∃ t, execTwinReportRx twinRole s = .next t ∧ t.mem = s.mem := ⟨_, rfl, by dsimp only; (repeat' split) <;> simp⟩

@[simp] theorem leaveWithdrawn_mem (cause : Nat) (s : State) : (leaveWithdrawn cause s).mem = s.mem := by
  unfold leaveWithdrawn
  dsimp only
  (repeat' split) <;> simp

@[simp] theorem decideSwap_mem (auto hitless : Bool) (tk : Option Ticket) (s : State) :
    (decideSwap auto hitless tk s).mem = s.mem := by rfl

theorem execAutoSwapDecision_mem (s : State) :
    ∃ t, execAutoSwapDecision s = .next t ∧ t.mem = s.mem := ⟨_, rfl, by dsimp only; (repeat' split) <;> simp⟩

@[simp] theorem swapRoles_mem (s : State) : (swapRoles s).mem = s.mem := by
  unfold swapRoles
  dsimp only
  (repeat' split) <;> simp

@[simp] theorem twinRoleBody_mem (op : Nat) (tk : Ticket) (s : State) : (twinRoleBody op tk s).mem = s.mem := by
  unfold twinRoleBody
  dsimp only
  (repeat' split) <;> simp

@[simp] theorem cascadeStatusBody_mem (tk : Ticket) (s : State) : (cascadeStatusBody tk s).mem = s.mem := by simp [cascadeStatusBody]

@[simp] theorem renumberOne_mem (identity : Nat) (was old : Option Nat) (p : Nat × Nat) (s : State) :
    (renumberOne identity was old p s).mem = s.mem := by
  unfold renumberOne
  split <;> simp

@[simp] theorem cascadeRenumberBody_mem (identity : Nat) (tk : Ticket) (s : State) : (cascadeRenumberBody identity tk s).mem = s.mem := by
  unfold cascadeRenumberBody
  dsimp only
  (repeat' split) <;> simp [mem_foldl]

/-! ### Management -/

@[simp] theorem removeCore_mem (s : State) : (removeCore s).mem = s.mem := by
  simp only [removeCore, lanesSleep_mem, State.modMgmt_mem, emit_mem]

@[simp] theorem enterFault_mem (cause detail : Nat) (s : State) : (enterFault cause detail s).mem = s.mem := by
  unfold enterFault
  (repeat' split) <;> simp

@[simp] theorem haltPair_mem (s : State) : (haltPair s).mem = s.mem := by simp [haltPair]

@[simp] theorem restartPair_mem (cause n : Nat) (s : State) : (restartPair cause n s).mem = s.mem := by simp [restartPair]

theorem execLockstepMismatch_mem (s : State) :
    ∃ t, execLockstepMismatch s = .next t ∧ t.mem = s.mem := ⟨_, rfl, by dsimp only; (repeat' split) <;> simp⟩

@[simp] theorem proxyLadder_mem (s : State) : (proxyLadder s).mem = s.mem := by
  simp [proxyLadder, apply_ite State.mem, mem_foldl]

@[simp] theorem noteMargin_mem (l : List BlockPace) (m : Option BlockPace) (projectedPm : Nat) (s : State) :
    (noteMargin l m projectedPm s).mem = s.mem := by rfl

@[simp] theorem paceEvent_mem (set : Bool) (s : State) : (paceEvent set s).mem = s.mem := by simp [paceEvent]

theorem execPaceShort_mem (s : State) : ∃ t, execPaceShort s = .next t ∧ t.mem = s.mem := ⟨_, rfl, by (repeat' split) <;> simp⟩

@[simp] theorem crossLevel_mem (id : Nat) (v : Int) (up : Bool) (n : Nat) (s : State) :
    (crossLevel id v up n s).mem = s.mem := by simp [crossLevel]

@[simp] theorem readSensor_mem (p : Nat × Int) (s : State) : (readSensor p s).mem = s.mem := by
  unfold readSensor
  dsimp only
  (repeat' split) <;> simp [mem_foldl]

theorem execSensorSample_mem (values : List (Nat × Int)) (s : State) :
    ∃ t, execSensorSample values s = .next t ∧ t.mem = s.mem := ⟨_, rfl, by simp [apply_ite State.mem, mem_foldl]⟩

theorem execSensorLimitHeld_mem (sensor : Nat) (s : State) :
    ∃ t, execSensorLimitHeld sensor s = .next t ∧ t.mem = s.mem := ⟨_, rfl, by dsimp only; (repeat' split) <;> simp⟩

theorem execLogSuppressed_mem (s : State) : ∃ t, execLogSuppressed s = .next t ∧ t.mem = s.mem := ⟨_, rfl, by simp⟩

@[simp] theorem mgmtStatusBody_mem (tk : Ticket) (s : State) : (mgmtStatusBody tk s).mem = s.mem := by simp [mgmtStatusBody]

@[simp] theorem mgmtMaintenanceBody_mem (enter : Nat) (tk : Ticket) (s : State) : (mgmtMaintenanceBody enter tk s).mem = s.mem := by
  unfold mgmtMaintenanceBody
  dsimp only
  (repeat' split) <;> simp

@[simp] theorem mgmtLogReadBody_mem (first count : Nat) (pinnedOnly : Bool) (tk : Ticket) (s : State) :
    (mgmtLogReadBody first count pinnedOnly tk s).mem = s.mem := by
  unfold mgmtLogReadBody
  (repeat' split) <;> simp

@[simp] theorem mgmtResetBody_mem (tk : Ticket) (s : State) : (mgmtResetBody tk s).mem = s.mem := by simp [mgmtResetBody]

@[simp] theorem mailReply_mem (slot : Nat) (m : List Byte) (status : Nat) (payload : List Byte) (s : State) :
    (mailReply slot m status payload s).mem = s.mem := by simp [mailReply]

@[simp] theorem mailAnswer_mem (slot kind : Nat) (answer : List Byte → State → Nat × List Byte) (s : State) :
    (mailAnswer slot kind answer s).mem = s.mem := by
  unfold mailAnswer
  dsimp only
  (repeat' split) <;> simp

theorem execMgmtEcho_mem (slot : Nat) (s : State) : ∃ t, execMgmtEcho slot s = .next t ∧ t.mem = s.mem := ⟨_, rfl, by simp⟩

theorem execMgmtStatusMsg_mem (slot : Nat) (s : State) : ∃ t, execMgmtStatusMsg slot s = .next t ∧ t.mem = s.mem := ⟨_, rfl, by simp⟩

theorem execMgmtLogRecord_mem (slot : Nat) (s : State) : ∃ t, execMgmtLogRecord slot s = .next t ∧ t.mem = s.mem := ⟨_, rfl, by simp⟩

/-! ### Start-up -/

@[simp] theorem bankFailed_mem (s : State) : (bankFailed s).mem = s.mem := by simp [bankFailed]

@[simp] theorem pairStarted_mem (b : BootFacts) (s : State) : (pairStarted b s).mem = s.mem := by
  unfold pairStarted
  dsimp only
  (repeat' split) <;> simp

@[simp] theorem bootFrom_mem (n : Nat) (fallback : Bool) (s : State) : (bootFrom n fallback s).mem = s.mem := by rfl

@[simp] theorem boot_mem (b : BootFacts) (failed : Option Nat) (s : State) : (boot b failed s).mem = s.mem := by
  unfold boot
  dsimp only
  (repeat' split) <;> simp

@[simp] theorem resetUpdate_mem (s : State) : (resetUpdate s).mem = s.mem := by
  unfold resetUpdate
  split <;> simp

@[simp] theorem systemInput_mem (contact : Nat) (high : Bool) (cause : Nat) (s : State) :
    (systemInput contact high cause s).mem = s.mem := by simp [systemInput]

theorem execSysResetRelease_mem (b : BootFacts) (s : State) :
    ∃ t, execSysResetRelease b s = .next t ∧ t.mem = s.mem := ⟨_, rfl, by split <;> simp⟩

@[simp] theorem startDrain_mem (s : State) : (startDrain s).mem = s.mem := by
  simp [startDrain, apply_ite State.mem, mem_foldl]

@[simp] theorem dropDecode_mem (s : State) : (dropDecode s).mem = s.mem := by rfl

@[simp] theorem startShutdown_mem (s : State) : (startShutdown s).mem = s.mem := by simp [startShutdown]

@[simp] theorem startLanes_mem (l : List Bool) (s : State) : (startLanes l s).mem = s.mem := by
  simp [startLanes, apply_ite State.mem, mem_foldl]

@[simp] theorem cascadeSleepBody_mem (tk : Ticket) (s : State) : (cascadeSleepBody tk s).mem = s.mem := by
  unfold cascadeSleepBody
  (repeat' split) <;> simp

@[simp] theorem dropHostLink_mem (s : State) : (dropHostLink s).mem = s.mem := by simp [dropHostLink]

@[simp] theorem resetEngines_mem (s : State) : (resetEngines s).mem = s.mem := mem_foldl (fun s a => agentReset_mem a s) ..

@[simp] theorem rejoin_mem (s : State) : (rejoin s).mem = s.mem := by
  simp [rejoin, apply_ite State.mem, mem_foldl]

@[simp] theorem noSleep_mem (tk : Ticket) (s : State) : (noSleep tk s).mem = s.mem := by
  unfold noSleep
  dsimp only
  (repeat' split) <;> simp

@[simp] theorem stopHeads_mem (s : State) : (stopHeads s).mem = s.mem := by rfl

theorem execSleepDrainComplete_mem (s : State) :
    ∃ t, execSleepDrainComplete s = .next t ∧ t.mem = s.mem := ⟨_, rfl, by (repeat' split) <;> simp⟩

@[simp] theorem cascadeWakeBody_mem (tk : Ticket) (s : State) : (cascadeWakeBody tk s).mem = s.mem := by
  unfold cascadeWakeBody
  split <;> simp

theorem execWake_mem (s : State) : ∃ t, execWake s = .next t ∧ t.mem = s.mem := ⟨_, rfl, by split <;> simp⟩

theorem execWakeComplete_mem (s : State) :
    ∃ t, execWakeComplete s = .next t ∧ t.mem = s.mem := ⟨_, rfl, by dsimp only; (repeat' split) <;> simp⟩

/-! ### Power -/

@[simp] theorem goOff_mem (s : State) : (goOff s).mem = s.mem := by
  unfold goOff
  split <;> simp

@[simp] theorem setFeed_mem (f : Feed) (s : State) : (setFeed f s).mem = s.mem := by
  unfold setFeed
  split <;> simp

@[simp] theorem mainsState_mem (inlet : Nat) (present : Bool) (volts : Nat) (s : State) :
    (mainsState inlet present volts s).mem = s.mem := by simp [mainsState]

@[simp] theorem setInlet_mem (inlet : Nat) (present : Bool) (volts : Nat) (s : State) :
    (setInlet inlet present volts s).mem = s.mem := by rfl

theorem execInletPresent_mem (inlet volts : Nat) (s : State) :
    ∃ t, execInletPresent inlet volts s = .next t ∧ t.mem = s.mem := ⟨_, rfl, by dsimp only; (repeat' split) <;> simp⟩

theorem execInletLost_mem (inlet volts : Nat) (s : State) :
    ∃ t, execInletLost inlet volts s = .next t ∧ t.mem = s.mem := ⟨_, rfl, by split <;> simp⟩

@[simp] theorem lanesDown_mem (l : List Nat) (s : State) : (lanesDown l s).mem = s.mem := by
  simp [lanesDown, mem_foldl]

@[simp] theorem tailstockDown_mem (s : State) : (tailstockDown s).mem = s.mem := by
  simp only [tailstockDown, State.modTime_mem, State.modTs_mem, lanesDown_mem]

@[simp] theorem endFeed_mem (s : State) : (endFeed s).mem = s.mem := by
  unfold endFeed
  dsimp only
  (repeat' split) <;> simp

@[simp] theorem endStandby_mem (s : State) : (endStandby s).mem = s.mem := by simp [endStandby]

theorem execHoldupEnd_mem (s : State) : ∃ t, execHoldupEnd s = .next t ∧ t.mem = s.mem := ⟨_, rfl, by (repeat' split) <;> simp⟩

theorem execKeepaliveLow_mem (s : State) : ∃ t, execKeepaliveLow s = .next t ∧ t.mem = s.mem := ⟨_, rfl, by split <;> simp⟩

@[simp] theorem rewriteTailstock_mem (twin : Bool) (s : State) : (rewriteTailstock twin s).mem = s.mem := by
  unfold rewriteTailstock
  refine (mem_foldl (fun s k => ?_) ..).trans ((mem_foldl (fun s p => ?_) ..).trans (mem_foldl (sendRecords_mem _) ..))
  all_goals rfl

theorem execTailstockPowerUp_mem (s : State) :
    ∃ t, execTailstockPowerUp s = .next t ∧ t.mem = s.mem := ⟨_, rfl, by dsimp only; (repeat' split) <;> simp⟩

theorem execKeepaliveCurrentLimit_mem (limited : Bool) (busMv feedW : Nat) (s : State) :
    ∃ t, execKeepaliveCurrentLimit limited busMv feedW s = .next t ∧ t.mem = s.mem := ⟨_, rfl, by dsimp only; (repeat' split) <;> simp⟩

theorem execShutdown_mem (s : State) : ∃ t, execShutdown s = .next t ∧ t.mem = s.mem := ⟨_, rfl, by dsimp only; (repeat' split) <;> simp⟩

theorem execShutdownDrainComplete_mem (s : State) :
    ∃ t, execShutdownDrainComplete s = .next t ∧ t.mem = s.mem := ⟨_, rfl, by split <;> simp⟩

theorem execStrapCheck_mem (masterSel sideB : Bool) (s : State) :
    ∃ t, execStrapCheck masterSel sideB s = .next t ∧ t.mem = s.mem := ⟨_, rfl, by dsimp only; (repeat' split) <;> simp⟩

/-! ### Update -/

@[simp] theorem serviceResult_mem (status : Nat) (s : State) : (serviceResult status s).mem = s.mem := by rfl

@[simp] theorem closeService_mem (s : State) : (closeService s).mem = s.mem := by rfl

@[simp] theorem dropTransfer_mem (s : State) : (dropTransfer s).mem = s.mem := by
  unfold dropTransfer
  split <;> simp

@[simp] theorem failSession_mem (status : Nat) (s : State) : (failSession status s).mem = s.mem := by simp [failSession]

theorem execServiceConnect_mem (s : State) : ∃ t, execServiceConnect s = .next t ∧ t.mem = s.mem := ⟨_, rfl, by (repeat' split) <;> simp⟩

theorem execServiceHello_mem (s : State) : ∃ t, execServiceHello s = .next t ∧ t.mem = s.mem := ⟨_, rfl, by (repeat' split) <;> simp⟩

theorem execServiceBegin_mem (h : HeaderBytes) (s : State) :
    ∃ t, execServiceBegin h s = .next t ∧ t.mem = s.mem := ⟨_, rfl, by dsimp only; (repeat' split) <;> simp⟩

theorem execServiceData_mem (bytes : List Byte) (s : State) :
    ∃ t, execServiceData bytes s = .next t ∧ t.mem = s.mem := ⟨_, rfl, by (repeat' split) <;> simp⟩

theorem execServiceEnd_mem (readsBack : Bool) (s : State) :
    ∃ t, execServiceEnd readsBack s = .next t ∧ t.mem = s.mem := ⟨_, rfl, by (repeat' split) <;> simp⟩

theorem execServiceAbort_mem (s : State) : ∃ t, execServiceAbort s = .next t ∧ t.mem = s.mem := ⟨_, rfl, by (repeat' split) <;> simp⟩

theorem execServiceStallTimeout_mem (s : State) : ∃ t, execServiceStallTimeout s = .next t ∧ t.mem = s.mem := ⟨_, rfl, by split <;> simp⟩

theorem execServiceDisconnect_mem (s : State) : ∃ t, execServiceDisconnect s = .next t ∧ t.mem = s.mem := ⟨_, rfl, by split <;> simp⟩

theorem execServiceEn_mem (low : Bool) (s : State) :
    ∃ t, execServiceEn low s = .next t ∧ t.mem = s.mem := ⟨_, rfl, by dsimp only; (repeat' split) <;> simp⟩

@[simp] theorem updateStatusBody_mem (tk : Ticket) (s : State) : (updateStatusBody tk s).mem = s.mem := by simp [updateStatusBody]

@[simp] theorem updateConfirmBody_mem (tk : Ticket) (s : State) : (updateConfirmBody tk s).mem = s.mem := by
  unfold updateConfirmBody
  split <;> simp

@[simp] theorem sendPart_mem (tk : Ticket) (p : Nat) (mk : Nat → List Out) (s : State) :
    (sendPart tk p mk s).mem = s.mem := (mem_foldl (g := fun s o => emit o s) (fun _ _ => rfl) ..).trans rfl

@[simp] theorem updateDistributeBody_mem (source mask staged : Nat) (tk : Ticket) (s : State) :
    (updateDistributeBody source mask staged tk s).mem = s.mem := by
  unfold updateDistributeBody
  dsimp only
  (repeat' split) <;> simp [mem_foldl]

@[simp] theorem answerDistribution_mem (ok : Bool) (s : State) : (answerDistribution ok s).mem = s.mem := by
  unfold answerDistribution
  split <;> simp

@[simp] theorem startInbound_mem (source : Nat) (h : Colilo) (s : State) : (startInbound source h s).mem = s.mem := by
  unfold startInbound
  dsimp only
  (repeat' split) <;> simp

@[simp] theorem addInbound_mem (source : Nat) (bytes : List Byte) (s : State) : (addInbound source bytes s).mem = s.mem := by rfl

@[simp] theorem endInbound_mem (source : Nat) (readsBack : Bool) (s : State) : (endInbound source readsBack s).mem = s.mem := by
  unfold endInbound
  (repeat' split) <;> simp

theorem execDistributionRx_mem (p : ImagePiece) (last : Option Bool) (s : State) :
    ∃ t, execDistributionRx p last s = .next t ∧ t.mem = s.mem := ⟨_, rfl, by (repeat' split) <;> simp⟩

@[simp] theorem joinActivation_mem (t : Nat) (tk : Ticket) (s : State) : (joinActivation t tk s).mem = s.mem := by
  unfold joinActivation
  split <;> simp

@[simp] theorem updateActivateBody_mem (mask t staged : Nat) (tk : Ticket) (s : State) :
    (updateActivateBody mask t staged tk s).mem = s.mem := by
  unfold updateActivateBody
  dsimp only
  (repeat' split) <;> simp [mem_foldl]

@[simp] theorem updateCancelBody_mem (mask : Nat) (tk : Ticket) (s : State) : (updateCancelBody mask tk s).mem = s.mem := by
  unfold updateCancelBody
  dsimp only
  (repeat' split) <;> simp [mem_foldl]

@[simp] theorem reportActivation_mem (ok : Bool) (s : State) : (reportActivation ok s).mem = s.mem := by
  unfold reportActivation
  split <;> simp

theorem execActivationSetup_mem (s : State) :
    ∃ t, execActivationSetup s = .next t ∧ t.mem = s.mem := ⟨_, rfl, by dsimp only; (repeat' split) <;> simp⟩

@[simp] theorem updateHitlessBody_mem (twinHash : Option Nat) (join : Bool) (tk : Ticket) (s : State) :
    (updateHitlessBody twinHash join tk s).mem = s.mem := by
  unfold updateHitlessBody
  dsimp only
  (repeat' split) <;> simp

theorem execHitlessSwapDecision_mem (twinBitmap : Bitmap) (s : State) :
    ∃ t, execHitlessSwapDecision twinBitmap s = .next t ∧ t.mem = s.mem := ⟨_, rfl, by dsimp only; (repeat' split) <;> simp⟩

theorem execHitlessTimeout_mem (s : State) : ∃ t, execHitlessTimeout s = .next t ∧ t.mem = s.mem := ⟨_, rfl, by (repeat' split) <;> simp⟩

theorem execTwinLinkLoss_mem (s : State) :
    ∃ t, execTwinLinkLoss s = .next t ∧ t.mem = s.mem := ⟨_, rfl, by dsimp only; (repeat' split) <;> simp⟩

theorem execSwapInstant_mem (s : State) :
    ∃ t, execSwapInstant s = .next t ∧ t.mem = s.mem := ⟨_, rfl, by dsimp only; (repeat' split) <;> simp⟩

@[simp] theorem loadEngine_mem (e : Nat) (s : State) : (loadEngine e s).mem = s.mem := by simp [loadEngine]

@[simp] theorem updateEngineBody_mem (streamMask overlayMask : Nat) (tk : Ticket) (s : State) :
    (updateEngineBody streamMask overlayMask tk s).mem = s.mem := by
  unfold updateEngineBody
  dsimp only
  (repeat' split) <;> simp

@[simp] theorem nextEngine_mem (j : EngineJob) (s : State) : (nextEngine j s).mem = s.mem := by
  unfold nextEngine
  split <;> simp

/-! ### Registers -/

@[simp] theorem setRun_mem (v : Word32) (s : State) : (setRun v s).mem = s.mem := by
  unfold setRun
  dsimp only
  (repeat' split) <;> simp

@[simp] theorem setLanes_mem (v : Word32) (s : State) : (setLanes v s).mem = s.mem := by simp [setLanes]

@[simp] theorem clearErr_mem (v : Word32) (s : State) : (clearErr v s).mem = s.mem := by rfl

@[simp] theorem clearDoorbells_mem (v : Word32) (s : State) : (clearDoorbells v s).mem = s.mem := by
  simp [clearDoorbells, apply_ite State.mem, mem_foldl]

@[simp] theorem setAttach_mem (v : Word32) (s : State) : (setAttach v s).mem = s.mem := by
  unfold setAttach
  (repeat' split) <;> simp

@[simp] theorem getReg_mem (who : Initiator) (o : Nat) (s : State) : (getReg who o s).2.mem = s.mem := by
  unfold getReg
  (repeat' split) <;> simp

@[simp] theorem misAccess_mem (write : Bool) (s : State) : (misAccess write s).mem = s.mem := by
  unfold misAccess
  (repeat' split) <;> simp

@[simp] theorem reservedAccess_mem (write aligned : Bool) (s : State) : (reservedAccess write aligned s).mem = s.mem := by
  unfold reservedAccess
  (repeat' split) <;> simp

theorem execBadAccess_mem (write : Bool) (s : State) : ∃ t, execBadAccess write s = .next t ∧ t.mem = s.mem := ⟨_, rfl, by simp⟩

/-! ### Forwarded commands and time -/

@[simp] theorem partAnswer_mem (kind pos status : Nat) (result : List Byte) (s : State) :
    (partAnswer kind pos status result s).mem = s.mem := by
  unfold partAnswer
  (repeat' split) <;> simp

@[simp] theorem forwardedDone_mem (tk : Ticket) (pos status : Nat) (result data : List Byte) (s : State) :
    (forwardedDone tk pos status result data s).mem = s.mem := by
  unfold forwardedDone
  (repeat' split) <;> simp

theorem execForwardedResultRx_mem (tag pos status : Nat) (result data : List Byte) (s : State) :
    ∃ t, execForwardedResultRx tag pos status result data s = .next t ∧ t.mem = s.mem := ⟨_, rfl, by (repeat' split) <;> simp⟩

@[simp] theorem forgetTicket_mem (tk : Ticket) (s : State) : (forgetTicket tk s).mem = s.mem := by rfl

theorem execHostCompletionTimeout_mem (tag : Nat) (s : State) :
    ∃ t, execHostCompletionTimeout tag s = .next t ∧ t.mem = s.mem := ⟨_, rfl, by split <;> simp⟩

@[simp] theorem advanceTime_mem (s : State) : (advanceTime s).mem = s.mem := by
  unfold advanceTime
  dsimp only
  (repeat' split) <;> simp

end Sys2Proof.Machine
end

-- The canonical form of module DRAM (R363)
section
/-! SUPPORT. What writes module DRAM keeps its addresses rising: bytes written, a range forgotten, all of it undefined. Everything else that
touches it does so through these, so each operation keeps the form, and with them every step. -/

namespace Sys2Proof.Machine

open Sys2Proof

/-! ## The canonical form -/

/-- Module DRAM in canonical form (R363). -/
def Canonical (m : MemSt) : Prop := Memory.wf m.cells = true

theorem Canonical.congr {m n : MemSt} (h : Canonical m) (e : n.cells = m.cells) : Canonical n := by
  unfold Canonical
  rw [e]
  exact h

/-- A fold keeps the canonical form of the state inside what it accumulates, where each of its steps does. -/
theorem canonical_foldl {α β : Type} {π : β → State} {g : β → α → β} (h : ∀ b x, Canonical (π b).mem → Canonical (π (g b x)).mem)
    (l : List α) {b : β} (hb : Canonical (π b).mem) : Canonical (π (l.foldl g b)).mem := by
  induction l generalizing b with
  | nil => exact hb
  | cons a l ih => exact ih (h b a hb)

/-! ### Events, the log and completions -/

theorem mapSorted_filter {α : Type} {m : Map α} (p : Nat × α → Bool) (h : mapSorted m = true) : mapSorted (m.filter p) = true := by
  induction m with
  | nil => rfl
  | cons q t ih =>
    obtain ⟨ht, above⟩ := (mapSorted_cons q t).1 h
    rw [List.filter_cons]
    split
    · exact (mapSorted_cons _ _).2 ⟨ih ht, fun r hr => above r (List.mem_filter.1 hr).1⟩
    · exact ih ht

theorem canonical_ite {c : Prop} [Decidable c] {s t : State} (hs : Canonical s.mem) (ht : Canonical t.mem) :
    Canonical (if c then s else t).mem := by
  split
  · exact hs
  · exact ht

@[simp] theorem memWrite_canonical (a : Nat) (l : List Byte) (s : State) (hc : Canonical s.mem) :
    Canonical (memWrite a l s).mem := cellsWrite_wf a l hc

@[simp] theorem memForget_canonical (a n : Nat) (s : State) (hc : Canonical s.mem) :
    Canonical (memForget a n s).mem := mapSorted_filter _ hc

@[simp] theorem memUndefine_canonical (s : State) (hc : Canonical s.mem) : Canonical (memUndefine s).mem := rfl

/-! ### Module memory -/

@[simp] theorem countCorrected_canonical (sub dev : Nat) (s : State) (hc : Canonical s.mem) :
    Canonical (countCorrected sub dev s).mem := by
  unfold countCorrected
  dsimp only
  split
  · rw [raiseMod_mem]
    exact hc.congr rfl
  · exact hc.congr rfl

@[simp] theorem noteCorrected_canonical (a : Nat) (devs : List Nat) (s : State) (hc : Canonical s.mem) :
    Canonical (noteCorrected a devs s).mem := by
  unfold noteCorrected
  split
  · exact hc
  · dsimp only
    rw [raiseLimited_mem]
    exact canonical_foldl (π := id) (fun s d h => countCorrected_canonical _ d s h) devs hc

@[simp] theorem tellUnraised_canonical (s : State) (hc : Canonical s.mem) : Canonical (tellUnraised s).mem := by
  unfold tellUnraised
  dsimp only
  split
  · rw [raiseMod_mem]
    exact hc.congr rfl
  · exact hc

@[simp] theorem noteUncorrectable_canonical (b cls : Nat) (stays : Bool) (s : State) (hc : Canonical s.mem) :
    Canonical (noteUncorrectable b cls stays s).mem := by
  have told := tellUnraised_canonical s hc
  unfold noteUncorrectable
  extract_lets t a sub sec raised u
  have marked : Canonical u.mem := told.congr rfl
  split
  · rw [raiseMod_mem]
    exact marked
  · exact marked

@[simp] theorem readBurst_canonical (b cls : Nat) (errors : BeatErrors) (s : State) (hc : Canonical s.mem) :
    Canonical (readBurst b cls errors s).2.mem := by
  have taken : Canonical (s.modMem fun m => { m with injected := mapDel m.injected b }).mem := hc.congr rfl
  unfold readBurst
  dsimp only
  split
  · exact noteUncorrectable_canonical _ _ _ _ taken
  · split
    · exact noteCorrected_canonical _ _ _ taken
    · exact noteUncorrectable_canonical _ _ _ _ taken
    · split
      · exact noteUncorrectable_canonical _ _ _ _ taken
      · exact memWrite_canonical _ _ _ taken

theorem readBursts_canonical (cls : Nat) (errors : BeatErrors) (l : List Nat) (s : State) (hc : Canonical s.mem) :
    Canonical (readBursts cls errors l s).2.mem := by
  induction l generalizing errors s with
  | nil => exact hc
  | cons b t ih => exact ih _ _ (readBurst_canonical _ _ _ _ hc)

@[simp] theorem meetErrors_canonical (a n cls : Nat) (s : State) (hc : Canonical s.mem) :
    Canonical (meetErrors a n cls s).2.mem := readBursts_canonical _ _ _ _ hc

@[simp] theorem writeAt_canonical (a cls : Nat) (errors : BeatErrors) (l : List Byte) (s : State) (hc : Canonical s.mem) :
    Canonical (writeAt a cls errors l s).mem := memWrite_canonical _ _ _ ((readBursts_canonical _ _ _ _ hc).congr rfl)

@[simp] theorem serveRead_canonical (a n cls : Nat) (errors : BeatErrors) (s : State) (hc : Canonical s.mem) :
    Canonical (serveRead a n cls errors s).mem := readBursts_canonical _ _ _ _ hc

@[simp] theorem performAccess_canonical (a : Access) (errors : BeatErrors) (s : State) (hc : Canonical s.mem) :
    Canonical (performAccess a errors s).mem := by
  unfold performAccess
  split
  · exact writeAt_canonical _ _ _ _ _ hc
  · exact serveRead_canonical _ _ _ _ _ hc

theorem execMemoryAccess_canonical (a : Access) (errors : BeatErrors) (s : State) (hc : Canonical s.mem) :
    ∃ t, execMemoryAccess a errors s = .next t ∧ Canonical t.mem := by
  refine ⟨_, rfl, ?_⟩
  split
  · split
    · exact hc.congr rfl
    · exact performAccess_canonical _ _ _ hc
  · exact hc

@[simp] theorem serveWaiting_canonical (s : State) (hc : Canonical s.mem) : Canonical (serveWaiting s).mem := by
  unfold serveWaiting
  refine canonical_foldl (π := id) (fun s p h => performAccess_canonical _ _ s h) _ ?_
  exact hc.congr rfl

theorem execScrubStep_canonical (errors : BeatErrors) (s : State) (hc : Canonical s.mem) :
    ∃ t, execScrubStep errors s = .next t ∧ Canonical t.mem := by
  refine ⟨_, rfl, ?_⟩
  split
  · refine (readBurst_canonical (s.mem.scrubPos / 64) 0 errors s hc).congr ?_
    dsimp only [State.modMem_mem]
    split <;> rfl
  · exact hc

theorem execRefresh_canonical (_channel _sub : Nat) (s : State) (hc : Canonical s.mem) :
    ∃ t, execRefresh _channel _sub s = .next t ∧ Canonical t.mem := ⟨_, rfl, by simp [hc]⟩

@[simp] theorem setRate_canonical (c sub : Nat) (double : Bool) (s : State) (hc : Canonical s.mem) :
    Canonical (setRate c sub double s).mem := by
  unfold setRate
  split
  · exact hc
  · next ch _ =>
    by_cases same : (if sub = 0 then ch.hotA else ch.hotB) = double
    · rw [if_pos same]
      exact hc
    · rw [if_neg same, raiseMod_mem]
      exact hc.congr rfl

theorem execMr4Poll_canonical (answers : List Mr4) (s : State) (hc : Canonical s.mem) :
    ∃ t, execMr4Poll answers s = .next t ∧ Canonical t.mem := by
  refine ⟨_, rfl, ?_⟩
  split
  · refine canonical_foldl (π := id) (fun s i h => ?_) _ hc
    dsimp only [id]
    split
    · exact h
    · exact setRate_canonical _ _ _ _ h
  · exact hc

theorem execRefreshWindowEnd_canonical (c sub : Nat) (s : State) (hc : Canonical s.mem) :
    ∃ t, execRefreshWindowEnd c sub s = .next t ∧ Canonical t.mem := ⟨_, rfl, hc.congr rfl⟩

@[simp] theorem mitigate_canonical (c sub bank row : Nat) (s : State) (hc : Canonical s.mem) :
    Canonical (mitigate c sub bank row s).mem := hc.congr rfl

theorem execRowActivate_canonical (c sub bank row : Nat) (sampled : Bool) (s : State) (hc : Canonical s.mem) :
    ∃ t, execRowActivate c sub bank row sampled s = .next t ∧ Canonical t.mem := by
  refine ⟨_, rfl, ?_⟩
  dsimp only
  split
  · exact mitigate_canonical _ _ _ _ _ (hc.congr rfl)
  · exact hc.congr rfl

theorem execDqsOscillator_canonical (c driftA driftB : Nat) (s : State) (hc : Canonical s.mem) :
    ∃ t, execDqsOscillator c driftA driftB s = .next t ∧ Canonical t.mem := by
  refine ⟨_, rfl, ?_⟩
  dsimp only
  split
  · exact hc
  · split
    · rw [raiseMod_mem]
      exact hc.congr rfl
    · exact hc.congr rfl

@[simp] theorem retrainNext_canonical (s : State) (hc : Canonical s.mem) : Canonical (retrainNext s).mem := by
  unfold retrainNext
  split
  · exact hc.congr rfl
  · exact hc

@[simp] theorem memRetrainBody_canonical (c : Nat) (tk : Ticket) (s : State) (hc : Canonical s.mem) :
    Canonical (memRetrainBody c tk s).mem := by
  unfold memRetrainBody
  split_ifs
  · simpa using hc
  · simpa using hc
  · exact retrainNext_canonical _ (hc.congr rfl)

theorem execMemRetrainChannelDone_canonical (c : Nat) (ok : Bool) (readPs writePs : Nat) (s : State) (hc : Canonical s.mem) :
    ∃ t, execMemRetrainChannelDone c ok readPs writePs s = .next t ∧ Canonical t.mem := by
  refine ⟨_, rfl, ?_⟩
  split
  · split
    · dsimp only
      split
      · rw [complete_mem]
        exact serveWaiting_canonical _ (by rw [raiseMod_mem]; exact hc.congr rfl)
      · exact retrainNext_canonical _ (serveWaiting_canonical _ (by rw [raiseMod_mem]; exact hc.congr rfl))
    · exact hc
  · exact hc

@[simp] theorem memInjectBody_canonical (addr devices first : Nat) (tk : Ticket) (s : State) (hc : Canonical s.mem) :
    Canonical (memInjectBody addr devices first tk s).mem := by
  unfold memInjectBody
  split_ifs <;> rw [complete_mem] <;> exact hc.congr rfl

/-! ### Gates -/

@[simp] theorem performWrite_canonical (a : Access) (n : Nat) (p : PartCheck) (q : Option PartCheck) (s : State) (hc : Canonical s.mem) :
    Canonical (performWrite a n p q s).mem := by
  have first : Canonical (if p.ok then writeAt a.addr a.initiator.cls [] ((a.data.take a.len).take n) s else s).mem := by
    split
    · exact writeAt_canonical _ _ _ _ _ hc
    · exact hc
  unfold performWrite
  dsimp only
  split
  · split
    · exact writeAt_canonical _ _ _ _ _ first
    · exact first
  · exact first

@[simp] theorem servedRead_canonical (a : Access) (s : State) (hc : Canonical s.mem) : Canonical (servedRead a s).2.2.mem := by
  have first : Canonical (if (checkAccess s 0 a).2.1.ok then meetErrors a.addr (checkAccess s 0 a).1 a.initiator.cls s else ([], s)).2.mem := by
    split
    · exact meetErrors_canonical _ _ _ _ hc
    · exact hc
  unfold servedRead
  dsimp only
  split
  · exact meetErrors_canonical _ _ _ _ first
  · exact first

@[simp] theorem gateDo_canonical (gate : Nat) (a : Access) (s : State) (hc : Canonical s.mem) : Canonical (gateDo gate a s).2.2.mem := by
  have done (w : Bool) (n : Nat) (p : PartCheck) (q : Option PartCheck) : Canonical (if w then performWrite a n p q s else s).mem := by
    split
    · exact performWrite_canonical _ _ _ _ _ hc
    · exact hc
  unfold gateDo
  dsimp only
  split
  · rw [recordFault_mem]
    exact done ..
  · exact done ..

theorem gatedWriteN_canonical (who : Initiator) (c : Context) (tag : Option Nat) (n addr : Nat) (l : List Byte)
    (r : Bool × Bool × State) (hc : Canonical r.2.2.mem) : Canonical (gatedWriteN who c tag n addr l r).2.2.mem := by
  induction n generalizing addr l r with
  | zero => exact hc
  | succ n ih =>
    unfold gatedWriteN
    split
    · exact hc
    · exact ih _ _ _ (gateDo_canonical _ _ _ hc)

@[simp] theorem gatedWrite_canonical (who : Initiator) (c : Context) (tag : Option Nat) (addr : Nat) (l : List Byte) (s : State) (hc : Canonical s.mem) :
    Canonical (gatedWrite who c tag addr l s).2.2.mem := gatedWriteN_canonical _ _ _ _ _ _ _ hc

theorem gatedReadN_canonical (who : Initiator) (c : Context) (tag : Option Nat) (k addr n : Nat)
    (r : List Byte × Bool × Bool × Bool × State) (hc : Canonical r.2.2.2.2.mem) :
    Canonical (gatedReadN who c tag k addr n r).2.2.2.2.mem := by
  induction k generalizing addr n r with
  | zero => exact hc
  | succ k ih =>
    unfold gatedReadN
    split
    · exact hc
    · exact ih _ _ _ (gateDo_canonical _ _ _ (servedRead_canonical _ _ hc))

@[simp] theorem gatedRead_canonical (who : Initiator) (c : Context) (tag : Option Nat) (addr n : Nat) (s : State) (hc : Canonical s.mem) :
    Canonical (gatedRead who c tag addr n s).2.2.2.2.mem := gatedReadN_canonical _ _ _ _ _ _ _ hc

/-! ### Decoding -/

@[simp] theorem readUnit_canonical (p : Nat) (b : AttachBody) (x : Stream) (u : AccessUnit) (s : State) (hc : Canonical s.mem) :
    Canonical (readUnit p b x u s).2.2.mem := by
  unfold readUnit
  refine canonical_foldl (π := fun r : Bool × Bool × State => r.2.2) (fun r x h => ?_) _ hc
  exact gatedRead_canonical _ _ _ _ _ _ h

@[simp] theorem beginUnit_canonical (p k slot : Nat) (a : Attach) (u : AccessUnit) (s : State) (hc : Canonical s.mem) :
    Canonical (beginUnit p k slot a u s).mem := by
  unfold beginUnit
  dsimp only
  rw [modAttach_mem, setPipe_mem]
  split
  · exact readUnit_canonical _ _ _ _ _ hc
  · exact hc

@[simp] theorem startDecodeN_canonical (n p : Nat) (s : State) (hc : Canonical s.mem) : Canonical (startDecodeN n p s).mem := by
  induction n generalizing s with
  | zero => exact hc
  | succ n ih =>
    unfold startDecodeN
    split
    · exact hc
    · split
      · exact hc
      · dsimp only
        split
        · exact beginUnit_canonical _ _ _ _ _ _ (by simpa using hc)
        · exact ih _ (by simpa using hc)

@[simp] theorem startDecode_canonical (p : Nat) (s : State) (hc : Canonical s.mem) : Canonical (startDecode p s).mem := by
  have purged (l : List (Nat × Attach)) : (l.foldl (fun s a => purgeUnits a.1 s) s).mem = s.mem := mem_foldl (fun s a => by simp) ..
  unfold startDecode
  dsimp only
  split
  · exact hc
  · split
    · rw [mem_foldl (fun s a => by rw [modStream_mem]), purged]
      exact hc
    · exact startDecodeN_canonical _ _ _ (by rwa [purged])

@[simp] theorem shedDecode_canonical (s : State) (hc : Canonical s.mem) : Canonical (shedDecode s).mem := by
  unfold shedDecode
  exact canonical_foldl (π := fun r : State => r) (fun r x h => startDecode_canonical _ _ h) _ hc

@[simp] theorem writeLines_canonical (who : Initiator) (c : Context) (l : List (Nat × List Byte)) (s : State) (hc : Canonical s.mem) :
    Canonical (writeLines who c l s).2.mem := by
  unfold writeLines
  refine canonical_foldl (π := fun r : Bool × State => r.2) (fun r x h => ?_) _ hc
  exact gatedWrite_canonical _ _ _ _ _ _ h

@[simp] theorem decodePicture_canonical (k p : Nat) (c : InDecode) (r : PicFacts) (x : SpsInfo) (done : Option Nat) (s : State) (hc : Canonical s.mem) :
    Canonical (decodePicture k p c r x done s).mem := by
  unfold decodePicture
  dsimp only
  (repeat' split) <;> simp [hc]

@[simp] theorem endUnit_canonical (p : Nat) (c : InDecode) (r : PicFacts) (done : Option Nat) (s : State) (hc : Canonical s.mem) :
    Canonical (endUnit p c r done s).mem := by
  unfold endUnit
  dsimp only
  (repeat' split) <;> simp [hc]

@[simp] theorem pipelineEnd_canonical (p : Nat) (r : PicFacts) (done : Option Nat) (s : State) (hc : Canonical s.mem) :
    Canonical (pipelineEnd p r done s).mem := by
  unfold pipelineEnd
  split <;> simp [hc]

theorem execPictureDecodeEnd_canonical (p : Nat) (r : PicFacts) (s : State) (hc : Canonical s.mem) :
    ∃ t, execPictureDecodeEnd p r s = .next t ∧ Canonical t.mem := ⟨_, rfl, by split <;> simp [hc]⟩

theorem execDecodePipelineTimeout_canonical (p : Nat) (r : PartFacts) (s : State) (hc : Canonical s.mem) :
    ∃ t, execDecodePipelineTimeout p r s = .next t ∧ Canonical t.mem := ⟨_, rfl, by split <;> simp [hc]⟩

theorem execDecodeLag_canonical (k : Nat) (s : State) (hc : Canonical s.mem) :
    ∃ t, execDecodeLag k s = .next t ∧ Canonical t.mem := ⟨_, rfl, by split <;> simp [hc]⟩

@[simp] theorem decodeAttachBody_canonical (b : AttachBody) (tk : Ticket) (s : State) (hc : Canonical s.mem) :
    Canonical (decodeAttachBody b tk s).mem := by
  unfold decodeAttachBody
  dsimp only
  (repeat' split) <;> simp [hc]

@[simp] theorem abortDecode_canonical (k : Nat) (s : State) (hc : Canonical s.mem) : Canonical (abortDecode k s).mem := by
  unfold abortDecode
  dsimp only
  (repeat' split) <;> simp [hc]

@[simp] theorem startDetach_canonical (k : Nat) (tks : List Ticket) (byClose abort : Bool) (s : State) (hc : Canonical s.mem) :
    Canonical (startDetach k tks byClose abort s).mem := by
  unfold startDetach
  split <;> simp [hc]

@[simp] theorem decodeDetachBody_canonical (k : Nat) (abort : Bool) (tk : Ticket) (s : State) (hc : Canonical s.mem) :
    Canonical (decodeDetachBody k abort tk s).mem := by
  unfold decodeDetachBody
  (repeat' split) <;> simp [hc]

@[simp] theorem decodeSelftestBody_canonical (p : Nat) (tk : Ticket) (s : State) (hc : Canonical s.mem) :
    Canonical (decodeSelftestBody p tk s).mem := by
  unfold decodeSelftestBody
  (repeat' split) <;> simp [hc]

theorem execDecodeSelftestDone_canonical (p : Nat) (firstDiffering : Option Nat) (s : State) (hc : Canonical s.mem) :
    ∃ t, execDecodeSelftestDone p firstDiffering s = .next t ∧ Canonical t.mem := ⟨_, rfl, by dsimp only; (repeat' split) <;> simp [hc, mem_foldl]⟩

/-! ### Ingest -/

@[simp] theorem writeSegments_canonical (k : Nat) (x : Stream) (slot : Nat) (l : List Segment) (s : State) (hc : Canonical s.mem) :
    Canonical (writeSegments k x slot l s).2.mem := by
  unfold writeSegments
  refine canonical_foldl (π := fun r : Bool × State => r.2) (fun r x h => ?_) _ hc
  exact gatedWrite_canonical _ _ _ _ _ _ h

@[simp] theorem deliverFrame_canonical (k : Nat) (x : Stream) (f : OpenFrame) (s : State) (hc : Canonical s.mem) :
    Canonical (deliverFrame k x f s).mem := by
  unfold deliverFrame
  dsimp only
  (repeat' split) <;> simp [hc]

@[simp] theorem writeUnit_canonical (k : Nat) (x : Stream) (l : List Byte) (s : State) (hc : Canonical s.mem) :
    Canonical (writeUnit k x l s).2.mem := by
  unfold writeUnit
  exact canonical_foldl (π := fun r : List Byte × Bool × State => r.2.2) (fun r x h => gatedWrite_canonical _ _ _ _ _ _ h) _ hc

@[simp] theorem deliverUnit_canonical (k : Nat) (x : Stream) (f : OpenFrame) (complete_ : Bool) (s : State) (hc : Canonical s.mem) :
    Canonical (deliverUnit k x f complete_ s).mem := by
  unfold deliverUnit
  extract_lets units bytes w t o fields u keep v y z r
  have written : Canonical w.2.mem := writeUnit_canonical k x units.flatten s hc
  have told : Canonical r.mem := by simpa [r, z, y, v, t] using written
  refine canonical_ite ?_ (canonical_ite ?_ ?_)
  · rw [overflowFrame_mem]
    exact hc
  · rw [logInternal_mem]
    exact written
  · split
    · exact startDecode_canonical _ _ told
    · exact told

@[simp] theorem closeFrame_canonical (k : Nat) (f : OpenFrame) (complete_ : Bool) (s : State) (hc : Canonical s.mem) :
    Canonical (closeFrame k f complete_ s).mem := by
  unfold closeFrame
  dsimp only
  (repeat' split) <;> simp [hc]

theorem execFrameCloseDeadline_canonical (k : Nat) (s : State) (hc : Canonical s.mem) :
    ∃ t, execFrameCloseDeadline k s = .next t ∧ Canonical t.mem := ⟨_, rfl, by dsimp only; (repeat' split) <;> simp [hc]⟩

@[simp] theorem closeComplete_canonical (k n : Nat) (s : State) (hc : Canonical s.mem) : Canonical (closeComplete k n s).mem := by
  induction n generalizing s with
  | zero => exact hc
  | succ n ih =>
    unfold closeComplete
    split
    · exact ih _ (closeFrame_canonical _ _ _ _ hc)
    · exact hc

@[simp] theorem placePacket_canonical (k i ext : Nat) (p : RtpPacket) (s : State) (hc : Canonical s.mem) :
    Canonical (placePacket k i ext p s).mem := by
  unfold placePacket
  split
  · exact hc
  · split_ifs
    · simpa using hc
    · simpa using hc
    · exact closeComplete_canonical _ _ _ (by simpa using hc)

@[simp] theorem takePacket_canonical (k i : Nat) (l : LegRt) (x : Stream) (p : RtpPacket) (s : State) (hc : Canonical s.mem) :
    Canonical (takePacket k i l x p s).mem := by
  unfold takePacket
  dsimp only
  (repeat' split) <;> simp [hc]

theorem execRtpPacketRx_canonical (p : RtpPacket) (s : State) (hc : Canonical s.mem) :
    ∃ t, execRtpPacketRx p s = .next t ∧ Canonical t.mem := ⟨_, rfl, by (repeat' split) <;> simp [hc]⟩

@[simp] theorem ingestCloseBody_canonical (k : Nat) (abort : Bool) (tk : Ticket) (s : State) (hc : Canonical s.mem) :
    Canonical (ingestCloseBody k abort tk s).mem := by
  unfold ingestCloseBody
  dsimp only
  (repeat' split) <;> simp [hc]

/-! ### Composition -/

@[simp] theorem surfaceRegisterBody_canonical (b : SurfaceBody) (tk : Ticket) (s : State) (hc : Canonical s.mem) :
    Canonical (surfaceRegisterBody b tk s).mem := by
  unfold surfaceRegisterBody
  dsimp only
  (repeat' split) <;> simp [hc]

@[simp] theorem doRead_canonical (k : Nat) (x : Surface) (b : UploadBody) (tk : Ticket) (s : State) (hc : Canonical s.mem) :
    Canonical (doRead k x b tk s).mem := by
  unfold doRead
  dsimp only
  rw [complete_mem]
  refine canonical_foldl (π := fun r : Bool × Bool × Bool × State => r.2.2.2) (fun r l h => ?_) _ hc
  dsimp only
  rw [hostOut_mem]
  exact gatedRead_canonical _ _ _ _ _ _ h

@[simp] theorem finishReads_canonical (k : Nat) (s : State) (hc : Canonical s.mem) : Canonical (finishReads k s).mem := by
  unfold finishReads
  split
  · exact hc
  · exact canonical_foldl (π := id) (fun s r h => doRead_canonical _ _ _ _ s h) _ (by simpa using hc)

theorem execSurfaceUploadComplete_canonical (k : Nat) (s : State) (hc : Canonical s.mem) :
    ∃ t, execSurfaceUploadComplete k s = .next t ∧ Canonical t.mem := by
  refine ⟨_, rfl, ?_⟩
  split
  · exact hc
  · next x _ =>
    split
    · exact hc
    · next tk b rest _ =>
      have written := canonical_foldl (π := fun r : Bool × Bool × State => r.2.2)
        (fun r l h => gatedWrite_canonical (dmaOf tk) (.surface k) (tagOf tk) l.1 ((b.data.drop l.2.2).take l.2.1) r.2.2 h)
        (g := fun r l =>
          let g := gatedWrite (dmaOf tk) (.surface k) (tagOf tk) l.1 ((b.data.drop l.2.2).take l.2.1) r.2.2
          (r.1 || g.1, r.2.1 || g.2.1, g.2.2))
        (rectLines x.body b) (b := (false, false, s)) hc
      dsimp only at written ⊢
      rw [complete_mem]
      split <;> simpa using written

@[simp] theorem writebackLine_canonical (h : Nat) (hs : HeadScene) (t : LineToken) (s : State) (hc : Canonical s.mem) :
    Canonical (writebackLine h hs t s).mem := by
  unfold writebackLine
  (repeat' split) <;> simp [hc]

@[simp] theorem fetchLine_canonical (h i line : Nat) (l : Layer) (c : Content) (s : State) (hc : Canonical s.mem) :
    Canonical (fetchLine h i line l c s).2.mem := by
  unfold fetchLine
  refine canonical_foldl (π := fun r : Bool × State => r.2) (fun r x h => ?_) _ hc
  exact gatedRead_canonical _ _ _ _ _ _ h

@[simp] theorem fetchLayers_canonical (h line frame : Nat) (hs : HeadScene) (useOld : Bool) (s : State) (hc : Canonical s.mem) :
    Canonical (fetchLayers h line frame hs useOld s).mem := by
  refine canonical_foldl (π := id) (fun s p h => ?_) _ hc
  dsimp only [id]
  split
  · split
    · split
      · rw [underrunLayer_mem]
        exact fetchLine_canonical _ _ _ _ _ _ h
      · exact fetchLine_canonical _ _ _ _ _ _ h
    · exact h
  · exact h

@[simp] theorem composeNext_canonical (h : Nat) (c : CompFrame) (useOld : Bool) (s : State) (hc : Canonical s.mem) :
    Canonical (composeNext h c useOld s).mem := by
  unfold composeNext
  simp [hc]

theorem execLineComposed_canonical (h line : Nat) (s : State) (hc : Canonical s.mem) :
    ∃ t, execLineComposed h line s = .next t ∧ Canonical t.mem := ⟨_, rfl, by (repeat' split) <;> simp [hc]⟩

/-! ### Recording -/

@[simp] theorem writeInput_canonical (x : Session) (slot : Nat) (h : ReturnHeader) (px : List Byte) (s : State) (hc : Canonical s.mem) :
    Canonical (writeInput x slot h px s).2.mem := by
  unfold writeInput
  simp [hc]

@[simp] theorem takeFrame_canonical (key slot : Nat) (x : Session) (h : ReturnHeader) (px : List Byte) (s : State) (hc : Canonical s.mem) :
    Canonical (takeFrame key slot x h px s).mem := by
  unfold takeFrame
  dsimp only
  (repeat' split) <;> simp [hc]

theorem execReturnFrameRx_canonical (f : ReturnedId) (s : State) (hc : Canonical s.mem) :
    ∃ t, execReturnFrameRx f s = .next t ∧ Canonical t.mem := ⟨_, rfl, by dsimp only; (repeat' split) <;> simp [hc]⟩

@[simp] theorem readLines_canonical (who : Initiator) (c : Context) (base pitch bytes n : Nat) (s : State) (hc : Canonical s.mem) :
    Canonical (readLines who c base pitch bytes n s).2.2.mem := by
  unfold readLines
  refine canonical_foldl (π := fun r : List (List Byte) × Bool × State => r.2.2) (fun r x h => ?_) _ hc
  exact gatedRead_canonical _ _ _ _ _ _ h

@[simp] theorem readInput_canonical (x : Session) (slot : Nat) (s : State) (hc : Canonical s.mem) :
    Canonical (readInput x slot s).2.2.mem := by
  unfold readInput
  simp [hc]

@[simp] theorem readReference_canonical (x : Session) (s : State) (hc : Canonical s.mem) : Canonical (readReference x s).2.2.mem := by
  unfold readReference
  simp [hc]

@[simp] theorem writeRecon_canonical (x : Session) (idr : Bool) (poc : Nat) (p ref : Planes) (rows : List RowCode) (s : State) (hc : Canonical s.mem) :
    Canonical (writeRecon x idr poc p ref rows s).mem := canonical_foldl (π := id) (fun _ _ h => gatedWrite_canonical _ _ _ _ _ _ h) _
    (canonical_foldl (π := id) (fun _ _ h => gatedWrite_canonical _ _ _ _ _ _ h) _ hc)

@[simp] theorem codePicture_canonical (key : Nat) (x : Session) (f : InputFrame) (rest : List InputFrame) (rd : Nat) (s : State) (hc : Canonical s.mem) :
    Canonical (codePicture key x f rest rd s).mem := by
  have input := readInput_canonical x f.slot s hc
  have reference : Canonical (if nextIdr x then (default, false, (readInput x f.slot s).2.2) else readReference x (readInput x f.slot s).2.2).2.2.mem := by
    split
    · exact input
    · exact readReference_canonical _ _ input
  unfold codePicture
  extract_lets idr p ref rows u v w subst
  have coded : Canonical u.mem := writeRecon_canonical _ _ _ _ _ _ _ reference
  refine canonical_ite ?_ (canonical_ite ?_ ?_)
  · rw [dropPicture_mem, logInternal_mem]
    exact reference
  · rw [writeAu_mem, modSession_mem]
    exact coded
  · rw [raiseLimited_mem, writeAu_mem, modSession_mem]
    exact coded

theorem execPictureCoded_canonical (key : Nat) (interrupted : Bool) (rdLo rdHi : Nat) (s : State) (hc : Canonical s.mem) :
    ∃ t, execPictureCoded key interrupted rdLo rdHi s = .next t ∧ Canonical t.mem := ⟨_, rfl, by (repeat' split) <;> simp [hc]⟩

/-! ### Overlay -/

@[simp] theorem forgetImage_canonical (r : Run) (s : State) (hc : Canonical s.mem) : Canonical (forgetImage r s).mem := by
  unfold forgetImage
  split <;> simp [hc]

@[simp] theorem abandonRun_canonical (e : Nat) (r : Run) (cause off : Nat) (s : State) (hc : Canonical s.mem) :
    Canonical (abandonRun e r cause off s).mem := by
  unfold abandonRun
  dsimp only
  simp [hc, mem_foldl]

@[simp] theorem expireRun_canonical (e : Nat) (r : Run) (s : State) (hc : Canonical s.mem) : Canonical (expireRun e r s).mem := by
  unfold expireRun
  simp [hc]

theorem putBytes_canonical (k : Canvas) (x y : Nat) (l : List Byte) (d : Draw) (hc : Canonical d.st.mem) :
    Canonical (putBytes k x y l d).st.mem := by
  unfold putBytes
  split
  · exact gatedWrite_canonical _ _ _ _ _ _ hc
  · exact hc

theorem putColour_canonical (k : Canvas) (x y c : Nat) (d : Draw) (hc : Canonical d.st.mem) : Canonical (putColour k x y c d).st.mem := by
  unfold putColour
  split
  · exact hc
  · exact putBytes_canonical _ _ _ _ _ hc

theorem putRect_canonical (k : Canvas) (r : Rect) (c : Nat) (p : Nat → Nat → Bool) (d : Draw) (hc : Canonical d.st.mem) :
    Canonical (putRect k r c p d).st.mem := by
  refine canonical_foldl (π := Draw.st) (fun d j h => canonical_foldl (π := Draw.st) (fun d i h => ?_) _ h) _ hc
  split
  · exact putColour_canonical _ _ _ _ _ h
  · exact h

theorem putSquare_canonical (k : Canvas) (p : Int × Int) (w c : Nat) (d : Draw) (hc : Canonical d.st.mem) :
    Canonical (putSquare k p w c d).st.mem := by
  refine canonical_foldl (π := Draw.st) (fun d j h => canonical_foldl (π := Draw.st) (fun d i h => ?_) _ h) _ hc
  dsimp only
  split
  · exact putColour_canonical _ _ _ _ _ h
  · exact h

theorem putString_canonical (k : Canvas) (fonts : Map Font) (f scale spacing x y fg bg : Nat) (codes : List Nat) (d : Draw)
    (hc : Canonical d.st.mem) : Canonical (putString k fonts f scale spacing x y fg bg codes d).st.mem :=
  canonical_foldl (π := Draw.st) (fun _ _ h => canonical_foldl (π := Draw.st) (fun _ _ h => canonical_foldl (π := Draw.st)
    (fun _ _ h => putColour_canonical _ _ _ _ _ h) _ h) _ h) _ hc

theorem putCopy_canonical (k : Canvas) (source : Nat) (r : Rect) (dx dy : Nat) (d : Draw) (hc : Canonical d.st.mem) :
    Canonical (putCopy k source r dx dy d).st.mem := by
  unfold putCopy
  split
  · exact hc
  · split
    · exact hc
    · split
      · exact hc
      · refine canonical_foldl (π := Draw.st) (fun d j h => canonical_foldl (π := Draw.st) (fun d i h => ?_) _ h) _ hc
        split
        · exact putBytes_canonical _ _ _ _ _ (gatedRead_canonical _ _ _ _ _ _ h)
        · exact h

/-- Drawing writes module DRAM through the gate alone (R252, R258). -/
theorem drawCmd_canonical (k : Canvas) (r : Run) (c : OvCmd) (d : Draw) (hc : Canonical d.st.mem) : Canonical (drawCmd k r c d).st.mem := by
  unfold drawCmd
  split
  · exact hc
  · exact putRect_canonical _ _ _ _ _ hc
  · exact canonical_foldl (π := Draw.st) (fun _ _ h => putSquare_canonical _ _ _ _ _ h) _ hc
  · exact putRect_canonical _ _ _ _ _ hc
  · exact putString_canonical _ _ _ _ _ _ _ _ _ _ _ hc
  · exact putCopy_canonical _ _ _ _ _ _ hc
  · exact putString_canonical _ _ _ _ _ _ _ _ _ _ _ hc
  · exact hc

theorem runList_canonical (k : Canvas) (r : Run) (l : List (Nat × OvCmd)) (skip count : Nat) (d : Draw) (hc : Canonical d.st.mem) :
    Canonical (runList k r l skip count d).2.st.mem := by
  induction l generalizing skip count d with
  | nil => exact hc
  | cons p t ih =>
    have drawn (u : Nat) : Canonical (drawCmd k r p.2 { d with units := u }).st.mem := drawCmd_canonical _ _ _ _ hc
    unfold runList
    split
    · exact hc
    · split
      · exact ih _ _ _ hc
      · split
        · exact hc
        · dsimp only
          split
          · exact hc
          · split
            · exact drawn _
            · split
              · exact drawn _
              · split
                · exact ih _ _ _ (drawn _)
                · exact ih _ _ _ (drawn _)

theorem seedCopy_canonical (k : Canvas) (newest : Option Nat) (d : Draw) (hc : Canonical d.st.mem) : Canonical (seedCopy k newest d).st.mem := by
  unfold seedCopy
  split
  · exact hc
  · exact gatedWrite_canonical _ _ _ _ _ _ (gatedRead_canonical _ _ _ _ _ _ hc)

theorem execOverlayRunEnd_canonical (e : Nat) (s : State) (hc : Canonical s.mem) :
    ∃ t, execOverlayRunEnd e s = .next t ∧ Canonical t.mem := by
  refine ⟨_, rfl, ?_⟩
  split
  · exact hc
  · next r _ =>
    split
    · next b _ _ =>
      split
      · exact expireRun_canonical _ _ _ hc
      · split
        · exact abandonRun_canonical _ _ _ _ _ hc
        · next x _ =>
          split
          · simpa using hc
          · dsimp only
            generalize hd : (if b.body.seed then seedCopy _ x.newest _ else _) = d
            have drawn : Canonical d.st.mem := by
              rw [← hd]
              split
              · exact seedCopy_canonical _ _ _ hc
              · exact hc
            split
            · exact abandonRun_canonical _ _ _ _ _ drawn
            · split
              · exact abandonRun_canonical _ _ _ _ _ (runList_canonical _ _ _ _ _ _ drawn)
              · rw [presentRun_mem]
                exact runList_canonical _ _ _ _ _ _ drawn
    · exact hc

theorem execOverlayRunTimeout_canonical (e : Nat) (s : State) (hc : Canonical s.mem) :
    ∃ t, execOverlayRunTimeout e s = .next t ∧ Canonical t.mem := ⟨_, rfl, by (repeat' split) <;> simp [hc]⟩

/-! ### Management -/

@[simp] theorem setStep_canonical (new cause margin : Nat) (s : State) (hc : Canonical s.mem) :
    Canonical (setStep new cause margin s).mem := by
  have told (l : List Nat) (b : Bool) (c : Nat) (s : State) : (l.foldl (fun s k => raiseProbe k b c s) s).mem = s.mem :=
    mem_foldl (fun s k => by simp) ..
  have shed := shedDecode_canonical
    (shedAll (proxyLadder (recordStep (raiseMod 0x0B81 [it 1 s.mgmt.step, it 1 new, it 1 cause, it 2 s.mgmt.vcoreMv, it 2 margin]
      (s.modMgmt fun m => { m with step := new }))))) (by simpa using hc)
  unfold setStep
  dsimp only
  split_ifs <;> simpa [told] using shed

@[simp] theorem takeStep_canonical (cause margin : Nat) (s : State) (hc : Canonical s.mem) : Canonical (takeStep cause margin s).mem := by
  unfold takeStep
  exact setStep_canonical _ _ _ _ hc

@[simp] theorem restoreStep_canonical (margin : Nat) (s : State) (hc : Canonical s.mem) : Canonical (restoreStep margin s).mem := by
  unfold restoreStep
  exact setStep_canonical _ _ _ _ hc

@[simp] theorem evaluate_canonical (l : List BlockPace) (projectedPm : Nat) (s : State) (hc : Canonical s.mem) :
    Canonical (evaluate l projectedPm s).mem := by
  unfold evaluate
  extract_lets m t v u w
  have noted : Canonical u.mem := by simpa [u, t] using hc
  have taken : Canonical w.mem := by
    simp only [w]
    split
    · exact takeStep_canonical _ _ _ noted
    · exact noted
  split
  · exact restoreStep_canonical _ _ taken
  · exact taken

theorem execGovernorEvaluation_canonical (l : List BlockPace) (projectedPm : Nat) (s : State) (hc : Canonical s.mem) :
    ∃ t, execGovernorEvaluation l projectedPm s = .next t ∧ Canonical t.mem := by
  refine ⟨_, rfl, ?_⟩
  split_ifs
  · exact hc
  · simpa using hc
  · exact evaluate_canonical _ _ _ (by simpa using hc)

theorem execThermalShed_canonical (s : State) (hc : Canonical s.mem) : ∃ t, execThermalShed s = .next t ∧ Canonical t.mem := by
  refine ⟨_, rfl, canonical_ite ?_ hc⟩
  refine takeStep_canonical _ _ _ ?_
  exact hc

@[simp] theorem raiseTo_canonical (n floor : Nat) (s : State) (hc : Canonical s.mem) : Canonical (raiseTo n floor s).mem := by
  induction n generalizing s with
  | zero => exact hc
  | succ n ih =>
    unfold raiseTo
    split
    · exact ih _ (takeStep_canonical _ _ _ hc)
    · exact hc

@[simp] theorem mgmtLadderTestBody_canonical (step : Nat) (tk : Ticket) (s : State) (hc : Canonical s.mem) :
    Canonical (mgmtLadderTestBody step tk s).mem := by
  have raised := raiseTo_canonical 5 step (s.modMgmt fun m => { m with testFloor := some step }) hc
  unfold mgmtLadderTestBody
  split_ifs <;> simpa only [complete_mem, State.modMgmt_mem] using by assumption

/-! ### Start-up -/

@[simp] theorem clearMain_canonical (cold : Bool) (cause : Nat) (s : State) (hc : Canonical s.mem) :
    Canonical (clearMain cold cause s).mem := rfl

@[simp] theorem mainReset_canonical (cause : Nat) (b : Option BootFacts) (s : State) (hc : Canonical s.mem) :
    Canonical (mainReset cause b s).mem := by
  unfold mainReset
  dsimp only
  (repeat' split) <;> simp [hc]

theorem execCommandResetTimer_canonical (b : BootFacts) (s : State) (hc : Canonical s.mem) :
    ∃ t, execCommandResetTimer b s = .next t ∧ Canonical t.mem := ⟨_, rfl, by split <;> simp [hc]⟩

theorem execWatchdogExpiry_canonical (b : BootFacts) (s : State) (hc : Canonical s.mem) :
    ∃ t, execWatchdogExpiry b s = .next t ∧ Canonical t.mem := ⟨_, rfl, by dsimp only; (repeat' split) <;> simp [hc]⟩

theorem execSysReset_canonical (s : State) (hc : Canonical s.mem) : ∃ t, execSysReset s = .next t ∧ Canonical t.mem := by
  refine ⟨_, rfl, ?_⟩
  split
  · exact hc
  · rw [systemInput_mem]
    exact mainReset_canonical _ _ _ hc

@[simp] theorem startDram_canonical (l : List Bool) (s : State) (hc : Canonical s.mem) : Canonical (startDram l s).mem := hc.congr rfl

theorem execStartingComplete_canonical (f : StartFacts) (s : State) (hc : Canonical s.mem) :
    ∃ t, execStartingComplete f s = .next t ∧ Canonical t.mem := ⟨_, rfl, by dsimp only; (repeat' split) <;> simp [hc]⟩

/-! ### Power -/

@[simp] theorem powerUp_canonical (b : BootFacts) (s : State) (hc : Canonical s.mem) : Canonical (powerUp b s).mem := by
  unfold powerUp
  simp [hc]

theorem execManagementPowerUp_canonical (b : BootFacts) (shutdownLow : Bool) (s : State) (hc : Canonical s.mem) :
    ∃ t, execManagementPowerUp b shutdownLow s = .next t ∧ Canonical t.mem := ⟨_, rfl, by (repeat' split) <;> simp [hc]⟩

theorem execShutdownRelease_canonical (b : BootFacts) (s : State) (hc : Canonical s.mem) :
    ∃ t, execShutdownRelease b s = .next t ∧ Canonical t.mem := ⟨_, rfl, by split <;> simp [hc]⟩

/-! ### Update -/

@[simp] theorem updateRevertBody_canonical (b : BootFacts) (tk : Ticket) (s : State) (hc : Canonical s.mem) :
    Canonical (updateRevertBody b tk s).mem := by
  unfold updateRevertBody
  dsimp only
  (repeat' split) <;> simp [hc]

theorem execActivationInstant_canonical (b : BootFacts) (s : State) (hc : Canonical s.mem) :
    ∃ t, execActivationInstant b s = .next t ∧ Canonical t.mem := ⟨_, rfl, by split <;> simp [hc]⟩

@[simp] theorem moveStream_canonical (k to_ : Nat) (late : Bool) (s : State) (hc : Canonical s.mem) :
    Canonical (moveStream k to_ late s).2.mem := by
  unfold moveStream
  split
  · exact hc
  · split
    · exact hc
    · dsimp only
      rw [moveCtx_mem, modStream_mem]
      exact canonical_foldl (π := id) (fun s f h => closeFrame_canonical _ _ _ s h) _ hc

theorem moveStreams_canonical (to_ : Nat) (late : Bool) (l : List Nat) (s : State) (hc : Canonical s.mem) :
    Canonical (moveStreams to_ late l s).2.mem := by
  induction l generalizing s with
  | nil => exact hc
  | cons k t ih => exact ih _ (moveStream_canonical _ _ _ _ hc)

@[simp] theorem workEngine_canonical (e : Nat) (j : EngineJob) (s : State) (hc : Canonical s.mem) : Canonical (workEngine e j s).mem := by
  have moved (n : Nat) (late : Bool) (l : List Nat) := moveStreams_canonical n late l s hc
  unfold workEngine
  extract_lets now late r left r2 j2
  refine canonical_ite (canonical_ite hc ?_) (canonical_ite (canonical_ite ?_ hc) (canonical_ite ?_ ?_))
  · rwa [nextEngine_mem, loadEngine_mem]
  · rwa [nextEngine_mem, loadEngine_mem]
  · refine canonical_ite ?_ (moved ..)
    rw [nextEngine_mem]
    exact moved ..
  · refine canonical_ite ?_ (moved ..)
    rw [State.modUpdate_mem, loadEngine_mem]
    exact moved ..

theorem execEngineStreamMove_canonical (engine : Nat) (s : State) (hc : Canonical s.mem) :
    ∃ t, execEngineStreamMove engine s = .next t ∧ Canonical t.mem := ⟨_, rfl, by (repeat' split) <;> simp [hc]⟩

/-! ### Registers -/

theorem barRead_canonical {act : State → Word32 × State} (h : ∀ s, Canonical s.mem → Canonical (act s).2.mem) (who : Initiator) (o : Nat)
    (s : State) (hc : Canonical s.mem) : Canonical (barRead who o act s).mem := by
  have passed := gateDo_canonical (gateOf o) (regAccess who o false) s hc
  unfold barRead
  exact canonical_ite hc (canonical_ite hc (canonical_ite hc (canonical_ite passed (h _ passed))))

theorem barWrite_canonical {act : State → State} (h : ∀ s, Canonical s.mem → Canonical (act s).mem) (who : Initiator) (o : Nat)
    (locked : Bool) (s : State) (hc : Canonical s.mem) : Canonical (barWrite who o locked act s).mem := by
  have passed := gateDo_canonical (gateOf o) (regAccess who o true) s hc
  unfold barWrite
  exact canonical_ite hc (canonical_ite hc (canonical_ite (by rwa [lockViolation_mem]) (canonical_ite passed (h _ passed))))

@[simp] theorem setMap_canonical (v : Word32) (s : State) (hc : Canonical s.mem) : Canonical (setMap v s).mem := by
  unfold setMap
  dsimp only
  split_ifs
  · exact hc.congr rfl
  · exact (memUndefine_canonical _ hc).congr rfl
  · exact hc.congr rfl

@[simp] theorem setReg_canonical (who : Initiator) (o : Nat) (v : Word32) (s : State) (hc : Canonical s.mem) :
    Canonical (setReg who o v s).mem := by
  unfold setReg
  split
  · simpa using hc
  · split <;> simp [hc]
    all_goals exact hc.congr rfl

theorem getReg_canonical (who : Initiator) (o : Nat) (s : State) (hc : Canonical s.mem) : Canonical (getReg who o s).2.mem := by
  rwa [getReg_mem]

theorem execHostRun_canonical (v : Word32) (s : State) (hc : Canonical s.mem) :
    ∃ t, execHostRun v s = .next t ∧ Canonical t.mem := ⟨_, rfl, barWrite_canonical (fun s h => by rwa [setRun_mem]) _ _ _ s hc⟩

theorem execAttachFresh_canonical (table : Option RingTable) (s : State) (hc : Canonical s.mem) :
    ∃ t, execAttachFresh table s = .next t ∧ Canonical t.mem := ⟨_, rfl, barWrite_canonical (fun s h => canonical_ite h (by rwa [attachFreshDo_mem])) _ _ _ s hc⟩

theorem execAttachResume_canonical (s : State) (hc : Canonical s.mem) :
    ∃ t, execAttachResume s = .next t ∧ Canonical t.mem := ⟨_, rfl, barWrite_canonical (fun s h => by rwa [setAttach_mem]) _ _ _ s hc⟩

theorem execAttachDetach_canonical (s : State) (hc : Canonical s.mem) :
    ∃ t, execAttachDetach s = .next t ∧ Canonical t.mem := ⟨_, rfl, barWrite_canonical (fun s h => by rwa [setAttach_mem]) _ _ _ s hc⟩

theorem execTimeNowRead_canonical (s : State) (hc : Canonical s.mem) :
    ∃ t, execTimeNowRead s = .next t ∧ Canonical t.mem := ⟨_, rfl, barRead_canonical (fun s h => getReg_canonical _ _ s h) _ _ s hc⟩

theorem execLockRead_canonical (lock : Nat) (who : Initiator) (s : State) (hc : Canonical s.mem) :
    ∃ t, execLockRead lock who s = .next t ∧ Canonical t.mem := ⟨_, rfl, canonical_ite (barRead_canonical (fun s h => getReg_canonical _ _ s h) _ _ s hc) hc⟩

theorem execLockWrite_canonical (lock : Nat) (who : Initiator) (value : Word32) (s : State) (hc : Canonical s.mem) :
    ∃ t, execLockWrite lock who value s = .next t ∧ Canonical t.mem := ⟨_, rfl, canonical_ite (barWrite_canonical (fun s h => setReg_canonical _ _ _ s h) _ _ _ s hc) hc⟩

theorem execMbxDoorbellClear_canonical (value : Word32) (s : State) (hc : Canonical s.mem) :
    ∃ t, execMbxDoorbellClear value s = .next t ∧ Canonical t.mem := ⟨_, rfl, barWrite_canonical (fun s h => by rwa [clearDoorbells_mem]) _ _ _ s hc⟩

theorem execDramcMapWrite_canonical (v : Word32) (s : State) (hc : Canonical s.mem) :
    ∃ t, execDramcMapWrite v s = .next t ∧ Canonical t.mem := ⟨_, rfl, barWrite_canonical (fun s h => setMap_canonical _ s h) _ _ _ s hc⟩

theorem execRegisterWrite_canonical (o : Nat) (v : Word32) (s : State) (hc : Canonical s.mem) :
    ∃ t, execRegisterWrite o v s = .next t ∧ Canonical t.mem := by
  refine ⟨_, rfl, canonical_ite ?_ (canonical_ite ?_ (barWrite_canonical (fun s h => setReg_canonical _ _ _ s h) _ _ _ s hc))⟩
  · rwa [misAccess_mem]
  · rwa [reservedAccess_mem]

@[simp] theorem gateMemRead_canonical (a : Access) (s : State) (hc : Canonical s.mem) :
    Canonical (gateMemRead a s).mem := gateDo_canonical _ _ _ (servedRead_canonical _ _ hc)

theorem execGateAccess_canonical (gate : Nat) (a : Access) (s : State) (hc : Canonical s.mem) :
    ∃ t, execGateAccess gate a s = .next t ∧ Canonical t.mem := by
  refine ⟨_, rfl, canonical_ite (canonical_ite ?_ hc) (canonical_ite ?_ (canonical_ite (canonical_ite ?_ (canonical_ite ?_ ?_)) hc))⟩
  · extract_lets refused t
    have done : Canonical t.mem := canonical_ite (gateDo_canonical _ _ _ hc) (gateMemRead_canonical _ _ hc)
    refine canonical_ite ?_ done
    rwa [logInternal_mem]
  · rwa [reservedAccess_mem]
  · rwa [misAccess_mem]
  · exact barWrite_canonical (fun s h => setReg_canonical _ _ _ s h) _ _ _ s hc
  · exact barRead_canonical (fun s h => getReg_canonical _ _ s h) _ _ s hc

/-! ### Forwarded commands and time -/

theorem runHere_canonical {c : HostCmd} {body : Ticket → State → State} (h : ∀ tk s, Canonical s.mem → Canonical (body tk s).mem)
    (tk : Ticket) (s : State) (hc : Canonical s.mem) : Canonical (runHere tk c body s).mem := by
  unfold runHere
  refine canonical_ite ?_ (canonical_ite hc (h tk s hc))
  rwa [complete_mem]

/-- A command taken from its ring keeps the canonical form where its own rule does. -/
theorem onTake_canonical {c : HostCmd} {body : Ticket → State → State} (h : ∀ tk s, Canonical s.mem → Canonical (body tk s).mem)
    (d : Desc) (s : State) (hc : Canonical s.mem) : ∃ t, (.next (onTake d c body s) : Host.Outcome State Fault Refusal) = .next t ∧ Canonical t.mem := by
  refine ⟨_, rfl, ?_⟩
  unfold onTake
  refine canonical_ite (canonical_ite ?_ (canonical_ite (runHere_canonical h _ _ hc) ?_)) hc
  · rwa [complete_mem]
  · rwa [forwardCmd_mem]

/-- Each command's own rule keeps the canonical form. -/
theorem runCmd_canonical (c : HostCmd) (tk : Ticket) (s : State) (hc : Canonical s.mem) : Canonical (runCmd c tk s).mem := by
  cases c <;> simp [runCmd, hc]

theorem execForwardedCommandRx_canonical (origin tag : Nat) (dmaOk : Bool) (c : HostCmd) (s : State) (hc : Canonical s.mem) :
    ∃ t, execForwardedCommandRx origin tag dmaOk c s = .next t ∧ Canonical t.mem := by
  refine ⟨_, rfl, canonical_ite hc (canonical_ite ?_ ?_)⟩
  · rwa [complete_mem]
  · exact runHere_canonical (runCmd_canonical c) _ _ hc

theorem execManagementRestartComplete_canonical (s : State) (hc : Canonical s.mem) :
    ∃ t, execManagementRestartComplete s = .next t ∧ Canonical t.mem := by
  refine ⟨_, rfl, canonical_ite ?_ hc⟩
  rw [drainEvents_mem]
  refine canonical_foldl (π := id) (fun s p h => ?_) _ ?_
  · exact runHere_canonical (runCmd_canonical p.2) _ s h
  · simpa using hc

@[simp] theorem recreate_canonical (c : HostCmd) (s : State) (hc : Canonical s.mem) :
    Canonical (recreate c s).mem := runCmd_canonical c (twinTicket c) s hc

@[simp] theorem takeRegister_canonical (p : Nat × Word32) (s : State) (hc : Canonical s.mem) : Canonical (takeRegister p s).mem := by
  unfold takeRegister
  split
  · exact hc
  · exact setReg_canonical _ _ _ _ hc

theorem execCatchUp_canonical (gen : Nat) (items : List Item) (objects : List HostCmd) (registers : List (Nat × Word32)) (s : State) (hc : Canonical s.mem) :
    ∃ t, execCatchUp gen items objects registers s = .next t ∧ Canonical t.mem := by
  refine ⟨_, rfl, canonical_ite ?_ hc⟩
  extract_lets t bank u v now frames w x y
  have caught : Canonical t.mem := by
    refine canonical_ite ?_ hc
    exact canonical_foldl (π := id) (fun s c h => recreate_canonical c s h) _
      (canonical_foldl (π := id) (fun s p h => takeRegister_canonical p s h) _ hc)
  have groups (l : List (Nat × Nat)) (s : State) : (l.foldl (fun s p => createGroup now s p.1) s).mem = s.mem :=
    mem_foldl (fun s p => by rw [createGroup_mem]) ..
  refine canonical_ite ?_ ?_
  · simpa [y, x, w, v, u, groups] using caught
  · rwa [roleEvent_mem]

@[simp] theorem finishAllReads_canonical (s : State) (hc : Canonical s.mem) : Canonical (finishAllReads s).mem := by
  refine canonical_foldl (π := id) (fun s p h => ?_) _ hc
  dsimp only [id]
  split
  · exact h
  · exact finishReads_canonical _ _ h

/-! ### Every step -/

/-- A command that leaves module DRAM alone keeps its form. -/
theorem canonical_of_mem {o : Host.Outcome State Fault Refusal} {s : State} (h : ∃ t, o = .next t ∧ t.mem = s.mem)
    (hc : Canonical s.mem) : ∃ t, o = .next t ∧ Canonical t.mem := by
  obtain ⟨t, ho, hm⟩ := h
  exact ⟨t, ho, hm ▸ hc⟩

/-- Every command answers a next state, with module DRAM in canonical form where it was before. -/
theorem exec_canonical (c : Instr) (s : State) (hc : Canonical s.mem) : ∃ t, exec c s = .next t ∧ Canonical t.mem := by
  match c with
  | .portConfigure d b => exact onTake_canonical (runCmd_canonical (.portConfigure b)) d s hc
  | .ingestOpen d b => exact onTake_canonical (runCmd_canonical (.ingestOpen b)) d s hc
  | .ingestClose d source abort => exact onTake_canonical (runCmd_canonical (.ingestClose source abort)) d s hc
  | .ingestCloseComplete .. => exact canonical_of_mem (execIngestCloseComplete_mem ..) hc
  | .ingestCounters d source => exact onTake_canonical (runCmd_canonical (.ingestCounters source)) d s hc
  | .proxyOpen d b => exact onTake_canonical (runCmd_canonical (.proxyOpen b)) d s hc
  | .proxyClose d source => exact onTake_canonical (runCmd_canonical (.proxyClose source)) d s hc
  | .decodeAttach d b => exact onTake_canonical (runCmd_canonical (.decodeAttach b)) d s hc
  | .decodeDetach d source abort => exact onTake_canonical (runCmd_canonical (.decodeDetach source abort)) d s hc
  | .decodeDetachComplete .. => exact canonical_of_mem (execDecodeDetachComplete_mem ..) hc
  | .decodePolicy d source policy pct => exact onTake_canonical (runCmd_canonical (.decodePolicy source policy pct)) d s hc
  | .decodeStatus d source => exact onTake_canonical (runCmd_canonical (.decodeStatus source)) d s hc
  | .decodeSelftest d pipeline => exact onTake_canonical (runCmd_canonical (.decodeSelftest pipeline)) d s hc
  | .decodeSelftestDone pipeline firstDiffering => exact execDecodeSelftestDone_canonical pipeline firstDiffering s hc
  | .ledgerDefine d b => exact onTake_canonical (runCmd_canonical (.ledgerDefine b)) d s hc
  | .ledgerSet d b => exact onTake_canonical (runCmd_canonical (.ledgerSet b)) d s hc
  | .ledgerDelete d source => exact onTake_canonical (runCmd_canonical (.ledgerDelete source)) d s hc
  | .ledgerWithdraw d source withdraw => exact onTake_canonical (runCmd_canonical (.ledgerWithdraw source withdraw)) d s hc
  | .ledgerVouch d b => exact onTake_canonical (runCmd_canonical (.ledgerVouch b)) d s hc
  | .ledgerVouchBatch d count l => exact onTake_canonical (runCmd_canonical (.ledgerVouchBatch count l)) d s hc
  | .ledgerTest d source test => exact onTake_canonical (runCmd_canonical (.ledgerTest source test)) d s hc
  | .ledgerProbe d source enable freezeK freezeSad => exact onTake_canonical (runCmd_canonical (.ledgerProbe source enable freezeK freezeSad)) d s hc
  | .ledgerRead d first count => exact onTake_canonical (runCmd_canonical (.ledgerRead first count)) d s hc
  | .surfaceRegister d b => exact onTake_canonical (runCmd_canonical (.surfaceRegister b)) d s hc
  | .surfaceUpload d b => exact onTake_canonical (runCmd_canonical (.surfaceUpload b)) d s hc
  | .surfaceUploadResume .. => exact canonical_of_mem (execSurfaceUploadResume_mem ..) hc
  | .surfaceUploadComplete surface => exact execSurfaceUploadComplete_canonical surface s hc
  | .surfaceRetire d surface => exact onTake_canonical (runCmd_canonical (.surfaceRetire surface)) d s hc
  | .surfaceRetireRelease .. => exact canonical_of_mem (execSurfaceRetireRelease_mem ..) hc
  | .surfaceRead d b => exact onTake_canonical (runCmd_canonical (.surfaceRead b)) d s hc
  | .scalerLoad d set coeffs => exact onTake_canonical (runCmd_canonical (.scalerLoad set coeffs)) d s hc
  | .scalerRead d set => exact onTake_canonical (runCmd_canonical (.scalerRead set)) d s hc
  | .writeback d b => exact onTake_canonical (runCmd_canonical (.writeback b)) d s hc
  | .writebackFrame .. => exact canonical_of_mem (execWritebackFrame_mem ..) hc
  | .composeSelftest d pipe => exact onTake_canonical (runCmd_canonical (.composeSelftest pipe)) d s hc
  | .composeSelftestDone .. => exact canonical_of_mem (execComposeSelftestDone_mem ..) hc
  | .composeStatus d head => exact onTake_canonical (runCmd_canonical (.composeStatus head)) d s hc
  | .headStatus d head => exact onTake_canonical (runCmd_canonical (.headStatus head)) d s hc
  | .headSinkRead d head => exact onTake_canonical (runCmd_canonical (.headSinkRead head)) d s hc
  | .headSinkPower d head power => exact onTake_canonical (runCmd_canonical (.headSinkPower head power)) d s hc
  | .headAux d b => exact onTake_canonical (runCmd_canonical (.headAux b)) d s hc
  | .egressPortConfigure d b => exact onTake_canonical (runCmd_canonical (.egressPortConfigure b)) d s hc
  | .tailstockGlyphLoad d first count glyphs => exact onTake_canonical (runCmd_canonical (.tailstockGlyphLoad first count glyphs)) d s hc
  | .calipersRead d head => exact onTake_canonical (runCmd_canonical (.calipersRead head)) d s hc
  | .tailstockStatus d head => exact onTake_canonical (runCmd_canonical (.tailstockStatus head)) d s hc
  | .verdictRead d select => exact onTake_canonical (runCmd_canonical (.verdictRead select)) d s hc
  | .holdRead d head rect => exact onTake_canonical (runCmd_canonical (.holdRead head rect)) d s hc
  | .tailstockFontRead d => exact onTake_canonical (runCmd_canonical (.tailstockFontRead)) d s hc
  | .recordStart d b => exact onTake_canonical (runCmd_canonical (.recordStart b)) d s hc
  | .recordStop d head abort => exact onTake_canonical (runCmd_canonical (.recordStop head abort)) d s hc
  | .recordStopComplete .. => exact canonical_of_mem (execRecordStopComplete_mem ..) hc
  | .recordStats d head => exact onTake_canonical (runCmd_canonical (.recordStats head)) d s hc
  | .recordForceIdr d head => exact onTake_canonical (runCmd_canonical (.recordForceIdr head)) d s hc
  | .encodeSelftest d pipe => exact onTake_canonical (runCmd_canonical (.encodeSelftest pipe)) d s hc
  | .encodeSelftestDone .. => exact canonical_of_mem (execEncodeSelftestDone_mem ..) hc
  | .overlayListLoad d list length bytes => exact onTake_canonical (runCmd_canonical (.overlayListLoad list length bytes)) d s hc
  | .overlayListFree d list => exact onTake_canonical (runCmd_canonical (.overlayListFree list)) d s hc
  | .overlayFontLoad d b => exact onTake_canonical (runCmd_canonical (.overlayFontLoad b)) d s hc
  | .overlayBind d b => exact onTake_canonical (runCmd_canonical (.overlayBind b)) d s hc
  | .overlayUnbind d binding => exact onTake_canonical (runCmd_canonical (.overlayUnbind binding)) d s hc
  | .overlayUnbindComplete .. => exact canonical_of_mem (execOverlayUnbindComplete_mem ..) hc
  | .overlayRun d b => exact onTake_canonical (runCmd_canonical (.overlayRun b)) d s hc
  | .overlayStatus d engine => exact onTake_canonical (runCmd_canonical (.overlayStatus engine)) d s hc
  | .nop d => exact onTake_canonical (fun tk s h => by rwa [nopBody_mem]) d s hc
  | .eventRoute d ring subjectMask attnMask => exact onTake_canonical (runCmd_canonical (.eventRoute ring subjectMask attnMask)) d s hc
  | .hostDetach d => exact onTake_canonical (runCmd_canonical (.hostDetach)) d s hc
  | .descriptorReject .. => exact canonical_of_mem (execDescriptorReject_mem ..) hc
  | .txnBegin d lockstep modules => exact onTake_canonical (runCmd_canonical (.txnBegin lockstep modules)) d s hc
  | .txnStage d txn position itemCount itemsLen items => exact onTake_canonical (fun tk s h => by rwa [txnStageBody_mem]) d s hc
  | .txnValidate d txn reportLen => exact onTake_canonical (runCmd_canonical (.txnValidate txn reportLen)) d s hc
  | .validationResultRx .. => exact canonical_of_mem (execValidationResultRx_mem ..) hc
  | .txnCommit d txn applyNs reportLen => exact onTake_canonical (runCmd_canonical (.txnCommit txn applyNs reportLen)) d s hc
  | .txnAbort d txn => exact onTake_canonical (runCmd_canonical (.txnAbort txn)) d s hc
  | .txnStatus d txn len => exact onTake_canonical (runCmd_canonical (.txnStatus txn len)) d s hc
  | .laneCounters d lane => exact onTake_canonical (runCmd_canonical (.laneCounters lane)) d s hc
  | .laneTest d lane durationMs farAllows pathBeyond => exact onTake_canonical (runCmd_canonical (.laneTest lane durationMs farAllows pathBeyond)) d s hc
  | .laneTestEnd .. => exact canonical_of_mem (execLaneTestEnd_mem ..) hc
  | .cascadeStatus d => exact onTake_canonical (runCmd_canonical (.cascadeStatus)) d s hc
  | .cascadeRenumber d identity => exact onTake_canonical (runCmd_canonical (.cascadeRenumber identity)) d s hc
  | .twinRole d op => exact onTake_canonical (runCmd_canonical (.twinRole op)) d s hc
  | .cascadeSleep d => exact onTake_canonical (runCmd_canonical (.cascadeSleep)) d s hc
  | .sleepDrainComplete .. => exact canonical_of_mem (execSleepDrainComplete_mem ..) hc
  | .cascadeWake d => exact onTake_canonical (runCmd_canonical (.cascadeWake)) d s hc
  | .memStatus d => exact onTake_canonical (runCmd_canonical (.memStatus)) d s hc
  | .memRetrain d channel => exact onTake_canonical (runCmd_canonical (.memRetrain channel)) d s hc
  | .memRetrainChannelDone channel ok readMarginPs writeMarginPs => exact execMemRetrainChannelDone_canonical channel ok readMarginPs writeMarginPs s hc
  | .memInject d addr devices first => exact onTake_canonical (runCmd_canonical (.memInject addr devices first)) d s hc
  | .gateFence d mask poll => exact onTake_canonical (runCmd_canonical (.gateFence mask poll)) d s hc
  | .gateFenceComplete .. => exact canonical_of_mem (execGateFenceComplete_mem ..) hc
  | .gateFaultRead d seq => exact onTake_canonical (runCmd_canonical (.gateFaultRead seq)) d s hc
  | .mbxPost d receiver slot msg => exact onTake_canonical (runCmd_canonical (.mbxPost receiver slot msg)) d s hc
  | .mbxRead d mask => exact onTake_canonical (runCmd_canonical (.mbxRead mask)) d s hc
  | .lockAcquire d lock => exact onTake_canonical (runCmd_canonical (.lockAcquire lock)) d s hc
  | .lockRelease d lock => exact onTake_canonical (runCmd_canonical (.lockRelease lock)) d s hc
  | .mgmtStatus d => exact onTake_canonical (runCmd_canonical (.mgmtStatus)) d s hc
  | .mgmtMaintenance d enter => exact onTake_canonical (runCmd_canonical (.mgmtMaintenance enter)) d s hc
  | .mgmtLogRead d first count pinnedOnly => exact onTake_canonical (runCmd_canonical (.mgmtLogRead first count pinnedOnly)) d s hc
  | .mgmtReset d => exact onTake_canonical (runCmd_canonical (.mgmtReset)) d s hc
  | .mgmtLadderTest d step => exact onTake_canonical (runCmd_canonical (.mgmtLadderTest step)) d s hc
  | .updateStatus d => exact onTake_canonical (runCmd_canonical (.updateStatus)) d s hc
  | .updateDistribute d source mask staged => exact onTake_canonical (runCmd_canonical (.updateDistribute source mask staged)) d s hc
  | .distributionRx .. => exact canonical_of_mem (execDistributionRx_mem ..) hc
  | .updateActivate d mask activateNs staged => exact onTake_canonical (runCmd_canonical (.updateActivate mask activateNs staged)) d s hc
  | .updateHitless d twinHash => exact onTake_canonical (runCmd_canonical (.updateHitless twinHash false)) d s hc
  | .updateEngine d streamMask overlayMask => exact onTake_canonical (runCmd_canonical (.updateEngine streamMask overlayMask)) d s hc
  | .updateConfirm d => exact onTake_canonical (runCmd_canonical (.updateConfirm)) d s hc
  | .updateRevert d b => exact onTake_canonical (runCmd_canonical (.updateRevert b)) d s hc
  | .updateCancel d mask => exact onTake_canonical (runCmd_canonical (.updateCancel mask)) d s hc
  | .mgmtEcho .. => exact canonical_of_mem (execMgmtEcho_mem ..) hc
  | .mgmtStatusMsg .. => exact canonical_of_mem (execMgmtStatusMsg_mem ..) hc
  | .mgmtLogRecord .. => exact canonical_of_mem (execMgmtLogRecord_mem ..) hc
  | .hostRun value => exact execHostRun_canonical value s hc
  | .attachFresh table => exact execAttachFresh_canonical table s hc
  | .attachResume => exact execAttachResume_canonical s hc
  | .attachDetach => exact execAttachDetach_canonical s hc
  | .timeNowRead => exact execTimeNowRead_canonical s hc
  | .lockRead lock who => exact execLockRead_canonical lock who s hc
  | .lockWrite lock who value => exact execLockWrite_canonical lock who value s hc
  | .mbxDoorbellClear value => exact execMbxDoorbellClear_canonical value s hc
  | .dramcMapWrite value => exact execDramcMapWrite_canonical value s hc
  | .registerWrite offset value => exact execRegisterWrite_canonical offset value s hc
  | .badAccess .. => exact canonical_of_mem (execBadAccess_mem ..) hc
  | .perst .. => exact canonical_of_mem (execPerst_mem ..) hc
  | .functionLevelReset .. => exact canonical_of_mem (execFunctionLevelReset_mem ..) hc
  | .d3hotEntry .. => exact canonical_of_mem (execD3hotEntry_mem ..) hc
  | .busMasterClear .. => exact canonical_of_mem (execBusMasterClear_mem ..) hc
  | .hostLink .. => exact canonical_of_mem (execHostLink_mem ..) hc
  | .doorbellPoll .. => exact canonical_of_mem (execDoorbellPoll_mem ..) hc
  | .statusPageWrite .. => exact canonical_of_mem (execStatusPageWrite_mem ..) hc
  | .attentionPulse .. => exact canonical_of_mem (execAttentionPulse_mem ..) hc
  | .eventQueueDrain .. => exact canonical_of_mem (execEventQueueDrain_mem ..) hc
  | .forwardedCommandRx origin tag dmaOk c => exact execForwardedCommandRx_canonical origin tag dmaOk c s hc
  | .forwardedResultRx .. => exact canonical_of_mem (execForwardedResultRx_mem ..) hc
  | .neighbourRequestRx .. => exact canonical_of_mem (execNeighbourRequestRx_mem ..) hc
  | .queryRx .. => exact canonical_of_mem (execQueryRx_mem ..) hc
  | .opticsChange .. => exact canonical_of_mem (execOpticsChange_mem ..) hc
  | .portLink .. => exact canonical_of_mem (execPortLink_mem ..) hc
  | .rtpPacketRx p => exact execRtpPacketRx_canonical p s hc
  | .frameCloseDeadline source => exact execFrameCloseDeadline_canonical source s hc
  | .senderReportRx .. => exact canonical_of_mem (execSenderReportRx_mem ..) hc
  | .legState .. => exact canonical_of_mem (execLegState_mem ..) hc
  | .ingestReleased .. => exact canonical_of_mem (execIngestReleased_mem ..) hc
  | .proxyFrameSend .. => exact canonical_of_mem (execProxyFrameSend_mem ..) hc
  | .announceRx .. => exact canonical_of_mem (execAnnounceRx_mem ..) hc
  | .delayReqSend .. => exact canonical_of_mem (execDelayReqSend_mem ..) hc
  | .offsetMeasurement .. => exact canonical_of_mem (execOffsetMeasurement_mem ..) hc
  | .lockConfirm .. => exact canonical_of_mem (execLockConfirm_mem ..) hc
  | .announceTimeout .. => exact canonical_of_mem (execAnnounceTimeout_mem ..) hc
  | .measurementTimeout .. => exact canonical_of_mem (execMeasurementTimeout_mem ..) hc
  | .uLimit .. => exact canonical_of_mem (execULimit_mem ..) hc
  | .pictureDecodeEnd pipeline r => exact execPictureDecodeEnd_canonical pipeline r s hc
  | .decodePipelineTimeout pipeline r => exact execDecodePipelineTimeout_canonical pipeline r s hc
  | .decodeLag source => exact execDecodeLag_canonical source s hc
  | .decodeReleased .. => exact canonical_of_mem (execDecodeReleased_mem ..) hc
  | .probeCompareDone .. => exact canonical_of_mem (execProbeCompareDone_mem ..) hc
  | .lateTimer .. => exact canonical_of_mem (execLateTimer_mem ..) hc
  | .staleTimer .. => exact canonical_of_mem (execStaleTimer_mem ..) hc
  | .lossTimer .. => exact canonical_of_mem (execLossTimer_mem ..) hc
  | .ledgerStateSummary .. => exact canonical_of_mem (execLedgerStateSummary_mem ..) hc
  | .verdictUpdateRx .. => exact canonical_of_mem (execVerdictUpdateRx_mem ..) hc
  | .wholeBitmapSend .. => exact canonical_of_mem (execWholeBitmapSend_mem ..) hc
  | .wholeBitmapRx .. => exact canonical_of_mem (execWholeBitmapRx_mem ..) hc
  | .latchPoint .. => exact canonical_of_mem (execLatchPoint_mem ..) hc
  | .lineComposed head line => exact execLineComposed_canonical head line s hc
  | .fetchDeadline .. => exact canonical_of_mem (execFetchDeadline_mem ..) hc
  | .tailstockPowerUp .. => exact canonical_of_mem (execTailstockPowerUp_mem ..) hc
  | .tailstockRecordWrite .. => exact canonical_of_mem (execTailstockRecordWrite_mem ..) hc
  | .swapOrderRx .. => exact canonical_of_mem (execSwapOrderRx_mem ..) hc
  | .lineTokenRx .. => exact canonical_of_mem (execLineTokenRx_mem ..) hc
  | .idleTokenSend .. => exact canonical_of_mem (execIdleTokenSend_mem ..) hc
  | .claimState .. => exact canonical_of_mem (execClaimState_mem ..) hc
  | .frameStart .. => exact canonical_of_mem (execFrameStart_mem ..) hc
  | .holdLimit .. => exact canonical_of_mem (execHoldLimit_mem ..) hc
  | .lineDue .. => exact canonical_of_mem (execLineDue_mem ..) hc
  | .calipersSelfcheck .. => exact canonical_of_mem (execCalipersSelfcheck_mem ..) hc
  | .holdScrub .. => exact canonical_of_mem (execHoldScrub_mem ..) hc
  | .tailstockEventDelivery .. => exact canonical_of_mem (execTailstockEventDelivery_mem ..) hc
  | .hpdConnect .. => exact canonical_of_mem (execHpdConnect_mem ..) hc
  | .hpdDisconnect .. => exact canonical_of_mem (execHpdDisconnect_mem ..) hc
  | .irqHpd .. => exact canonical_of_mem (execIrqHpd_mem ..) hc
  | .trainingAttemptEnd .. => exact canonical_of_mem (execTrainingAttemptEnd_mem ..) hc
  | .linkRetry .. => exact canonical_of_mem (execLinkRetry_mem ..) hc
  | .egressLink .. => exact canonical_of_mem (execEgressLink_mem ..) hc
  | .frameRefEdge .. => exact canonical_of_mem (execFrameRefEdge_mem ..) hc
  | .refUnlockTimeout .. => exact canonical_of_mem (execRefUnlockTimeout_mem ..) hc
  | .syncPaceTimeout .. => exact canonical_of_mem (execSyncPaceTimeout_mem ..) hc
  | .latchDecisionRx .. => exact canonical_of_mem (execLatchDecisionRx_mem ..) hc
  | .returnFrameRx f => exact execReturnFrameRx_canonical f s hc
  | .pictureCoded head interrupted rdLo rdHi => exact execPictureCoded_canonical head interrupted rdLo rdHi s hc
  | .recordReleased .. => exact canonical_of_mem (execRecordReleased_mem ..) hc
  | .overlayRunStart .. => exact canonical_of_mem (execOverlayRunStart_mem ..) hc
  | .overlayRunEnd engine => exact execOverlayRunEnd_canonical engine s hc
  | .overlayRunTimeout engine => exact execOverlayRunTimeout_canonical engine s hc
  | .overlayNoImageTimeout .. => exact canonical_of_mem (execOverlayNoImageTimeout_mem ..) hc
  | .prepareRx .. => exact canonical_of_mem (execPrepareRx_mem ..) hc
  | .voteRx .. => exact canonical_of_mem (execVoteRx_mem ..) hc
  | .voteTimeout .. => exact canonical_of_mem (execVoteTimeout_mem ..) hc
  | .commitRx .. => exact canonical_of_mem (execCommitRx_mem ..) hc
  | .commitResend .. => exact canonical_of_mem (execCommitResend_mem ..) hc
  | .txnApply .. => exact canonical_of_mem (execTxnApply_mem ..) hc
  | .applyReportRx .. => exact canonical_of_mem (execApplyReportRx_mem ..) hc
  | .cancelPoint .. => exact canonical_of_mem (execCancelPoint_mem ..) hc
  | .decisionPoint .. => exact canonical_of_mem (execDecisionPoint_mem ..) hc
  | .laggardExpiry .. => exact canonical_of_mem (execLaggardExpiry_mem ..) hc
  | .rollbackComplete .. => exact canonical_of_mem (execRollbackComplete_mem ..) hc
  | .contactLossTimeout .. => exact canonical_of_mem (execContactLossTimeout_mem ..) hc
  | .sceneGenRx .. => exact canonical_of_mem (execSceneGenRx_mem ..) hc
  | .laneSlot .. => exact canonical_of_mem (execLaneSlot_mem ..) hc
  | .luasinFrameRx .. => exact canonical_of_mem (execLuasinFrameRx_mem ..) hc
  | .retxTimeout .. => exact canonical_of_mem (execRetxTimeout_mem ..) hc
  | .ackDue .. => exact canonical_of_mem (execAckDue_mem ..) hc
  | .signalDetect .. => exact canonical_of_mem (execSignalDetect_mem ..) hc
  | .trainingComplete .. => exact canonical_of_mem (execTrainingComplete_mem ..) hc
  | .trainingTimeout .. => exact canonical_of_mem (execTrainingTimeout_mem ..) hc
  | .markerLoss .. => exact canonical_of_mem (execMarkerLoss_mem ..) hc
  | .sleepOrderRx east faultOrder => exact canonical_of_mem (execSleepOrderRx_mem east faultOrder s) hc
  | .discovery .. => exact canonical_of_mem (execDiscovery_mem ..) hc
  | .discoveryComplete .. => exact canonical_of_mem (execDiscoveryComplete_mem ..) hc
  | .presenceSend .. => exact canonical_of_mem (execPresenceSend_mem ..) hc
  | .presenceRx .. => exact canonical_of_mem (execPresenceRx_mem ..) hc
  | .presenceTimeout .. => exact canonical_of_mem (execPresenceTimeout_mem ..) hc
  | .beatSend .. => exact canonical_of_mem (execBeatSend_mem ..) hc
  | .beatRx .. => exact canonical_of_mem (execBeatRx_mem ..) hc
  | .delayRequestSend .. => exact canonical_of_mem (execDelayRequestSend_mem ..) hc
  | .delayRequestRx .. => exact canonical_of_mem (execDelayRequestRx_mem ..) hc
  | .delayResponseRx .. => exact canonical_of_mem (execDelayResponseRx_mem ..) hc
  | .beatLoss .. => exact canonical_of_mem (execBeatLoss_mem ..) hc
  | .headstockTake .. => exact canonical_of_mem (execHeadstockTake_mem ..) hc
  | .twinPairing .. => exact canonical_of_mem (execTwinPairing_mem ..) hc
  | .twinLinkLoss .. => exact canonical_of_mem (execTwinLinkLoss_mem ..) hc
  | .twinReportRx .. => exact canonical_of_mem (execTwinReportRx_mem ..) hc
  | .catchUp gen items objects registers => exact execCatchUp_canonical gen items objects registers s hc
  | .autoSwapDecision .. => exact canonical_of_mem (execAutoSwapDecision_mem ..) hc
  | .swapInstant .. => exact canonical_of_mem (execSwapInstant_mem ..) hc
  | .memoryAccess a errors => exact execMemoryAccess_canonical a errors s hc
  | .scrubStep errors => exact execScrubStep_canonical errors s hc
  | .refresh channel sub => exact execRefresh_canonical channel sub s hc
  | .mr4Poll answers => exact execMr4Poll_canonical answers s hc
  | .refreshWindowEnd channel sub => exact execRefreshWindowEnd_canonical channel sub s hc
  | .rowActivate channel sub bank row sampled => exact execRowActivate_canonical channel sub bank row sampled s hc
  | .zqCalibration .. => exact canonical_of_mem (execZqCalibration_mem ..) hc
  | .dqsOscillator channel driftA driftB => exact execDqsOscillator_canonical channel driftA driftB s hc
  | .gateAccess gate a => exact execGateAccess_canonical gate a s hc
  | .sensorSample .. => exact canonical_of_mem (execSensorSample_mem ..) hc
  | .sensorLimitHeld .. => exact canonical_of_mem (execSensorLimitHeld_mem ..) hc
  | .governorEvaluation blocks projectedPm => exact execGovernorEvaluation_canonical blocks projectedPm s hc
  | .thermalShed => exact execThermalShed_canonical s hc
  | .paceShort .. => exact canonical_of_mem (execPaceShort_mem ..) hc
  | .watchdogExpiry b => exact execWatchdogExpiry_canonical b s hc
  | .lockstepMismatch .. => exact canonical_of_mem (execLockstepMismatch_mem ..) hc
  | .logSuppressed .. => exact canonical_of_mem (execLogSuppressed_mem ..) hc
  | .inletPresent .. => exact canonical_of_mem (execInletPresent_mem ..) hc
  | .inletLost .. => exact canonical_of_mem (execInletLost_mem ..) hc
  | .holdupEnd .. => exact canonical_of_mem (execHoldupEnd_mem ..) hc
  | .keepaliveLow .. => exact canonical_of_mem (execKeepaliveLow_mem ..) hc
  | .sysReset => exact execSysReset_canonical s hc
  | .wake .. => exact canonical_of_mem (execWake_mem ..) hc
  | .shutdown .. => exact canonical_of_mem (execShutdown_mem ..) hc
  | .shutdownDrainComplete .. => exact canonical_of_mem (execShutdownDrainComplete_mem ..) hc
  | .shutdownRelease b => exact execShutdownRelease_canonical b s hc
  | .serviceEn .. => exact canonical_of_mem (execServiceEn_mem ..) hc
  | .strapCheck .. => exact canonical_of_mem (execStrapCheck_mem ..) hc
  | .managementPowerUp b shutdownLow => exact execManagementPowerUp_canonical b shutdownLow s hc
  | .startingComplete f => exact execStartingComplete_canonical f s hc
  | .wakeComplete .. => exact canonical_of_mem (execWakeComplete_mem ..) hc
  | .serviceConnect .. => exact canonical_of_mem (execServiceConnect_mem ..) hc
  | .serviceHello .. => exact canonical_of_mem (execServiceHello_mem ..) hc
  | .serviceBegin .. => exact canonical_of_mem (execServiceBegin_mem ..) hc
  | .serviceData .. => exact canonical_of_mem (execServiceData_mem ..) hc
  | .serviceEnd .. => exact canonical_of_mem (execServiceEnd_mem ..) hc
  | .serviceAbort .. => exact canonical_of_mem (execServiceAbort_mem ..) hc
  | .serviceStallTimeout .. => exact canonical_of_mem (execServiceStallTimeout_mem ..) hc
  | .activationInstant b => exact execActivationInstant_canonical b s hc
  | .activationSetup .. => exact canonical_of_mem (execActivationSetup_mem ..) hc
  | .hitlessSwapDecision .. => exact canonical_of_mem (execHitlessSwapDecision_mem ..) hc
  | .hitlessTimeout .. => exact canonical_of_mem (execHitlessTimeout_mem ..) hc
  | .engineStreamMove engine => exact execEngineStreamMove_canonical engine s hc
  | .sysResetRelease .. => exact canonical_of_mem (execSysResetRelease_mem ..) hc
  | .serviceDisconnect .. => exact canonical_of_mem (execServiceDisconnect_mem ..) hc
  | .managementRestartComplete => exact execManagementRestartComplete_canonical s hc
  | .commandResetTimer b => exact execCommandResetTimer_canonical b s hc
  | .headstockServiceReady .. => exact canonical_of_mem (execHeadstockServiceReady_mem ..) hc
  | .validationRequestRx .. => exact canonical_of_mem (execValidationRequestRx_mem ..) hc
  | .txnAbortRx .. => exact canonical_of_mem (execTxnAbortRx_mem ..) hc
  | .keepaliveCurrentLimit .. => exact canonical_of_mem (execKeepaliveCurrentLimit_mem ..) hc
  | .hostCompletionTimeout .. => exact canonical_of_mem (execHostCompletionTimeout_mem ..) hc

theorem tick_canonical (s : State) (hc : Canonical s.mem) : Canonical (tick s).mem := by
  unfold tick
  dsimp only
  split_ifs <;> simp [hc]

/-- Settles O53: whatever a command or the tick does to module DRAM goes through writes of bytes in rising order, a range forgotten, or
all of it undefined, and each keeps addresses strictly rising. -/
theorem stepsKeepMemoryCanonical : Obligations.StepsKeepMemoryCanonical := by
  unfold Obligations.StepsKeepMemoryCanonical
  intro s t hc hstep
  unfold step at hstep
  split at hstep
  · cases hstep
    exact tick_canonical s hc
  · next c rest _ =>
    obtain ⟨u, hu, hm⟩ := exec_canonical c { s with pending := rest } hc
    rw [hu] at hstep
    cases hstep
    exact hm

end Sys2Proof.Machine
end

-- The queue and the block's own time
section
/-! SUPPORT. A tick with no line under way and no read in progress is the counters' own. -/

namespace Sys2Proof.Machine

open Sys2Proof

/-- Settles O1: a step takes the front command, and executes it with the queue's rest. -/
theorem stepExecutesTheFrontCommand : Obligations.StepExecutesTheFrontCommand := by
  unfold Obligations.StepExecutesTheFrontCommand
  intro c rest s
  rfl

/-- A fold whose steps do nothing for the list's elements does nothing. -/
theorem foldl_eq_self {α β : Type} {g : β → α → β} {l : List α} {b : β} (h : ∀ x ∈ l, g b x = b) : l.foldl g b = b := by
  induction l with
  | nil => rfl
  | cons a l ih =>
    rw [List.foldl_cons, h a List.mem_cons_self]
    exact ih fun x hx => h x (List.mem_cons_of_mem a hx)

theorem advanceLines_idle {s : State} (h : ∀ p ∈ s.ts.heads, p.2.line = none) : advanceLines s = s :=
  foldl_eq_self fun p hp => by simp [h p hp]

theorem finishAllReads_idle {s : State} (h : ∀ p ∈ s.compose.surfaces, p.2.reading = []) : finishAllReads s = s :=
  foldl_eq_self fun p hp => by simp [h p hp]

/-- Time advances, and nothing but its counters changes. -/
theorem advanceTime_frame (s : State) : advanceTime s = { s with time := (advanceTime s).time } := by
  unfold advanceTime
  dsimp only
  split_ifs <;> rfl

theorem steerOwn_keeps (s : State) : (steerOwn s).time.mono = s.time.mono ∧ (steerOwn s).time.wall = s.time.wall := by
  unfold steerOwn
  dsimp only [State.modTime]
  split_ifs <;> exact ⟨rfl, rfl⟩

theorem advanceTime_mono (s : State) : (advanceTime s).time.mono = s.time.mono + 1 := by
  have steered (c : Prop) [Decidable c] (u : State) : (if c then steerOwn u else u).time.mono = u.time.mono := by
    split
    · exact (steerOwn_keeps u).1
    · rfl
  unfold advanceTime
  exact (steered ..).trans (by split_ifs <;> rfl)

/-- Wall time goes on by what the tick and the slewing make of it, while the Tailstock is powered (R24, R58). -/
theorem advanceTime_wall {s : State} (h : s.ts.powered = true) : (advanceTime s).time.wall = (advanceWall s).time.wall := by
  unfold advanceTime
  extract_lets u v
  have hu : u = advanceWall s := if_pos h
  split
  · exact (steerOwn_keeps v).2.trans (congrArg (fun s => s.time.wall) hu)
  · exact congrArg (fun s => s.time.wall) hu

theorem advanceWall_unslewed {s : State} (h : slewing s = false) (h0 : 0 ≤ s.time.slewPart) (h1 : s.time.slewPart < 1000000000000) :
    (advanceWall s).time.wall = (s.time.wall + 1) % 18446744073709551616 := by
  have none_over : s.time.slewPart / 1000000000000 = 0 := Int.ediv_eq_zero_of_lt h0 h1
  simp only [advanceWall, h, Bool.false_eq_true, if_false, add_zero, State.modTime_time, none_over, sub_zero, wall64]
  omega

theorem advanceTime_unpowered {s : State} (h : s.ts.powered = false) :
    (advanceTime s).time.wall = s.time.wall ∧ (advanceTime s).time.spindle = s.time.spindle := by
  simp [advanceTime, h]

/-- Settles O2: with nothing to emit and nothing to finish, a tick is the counters' own. -/
theorem idleStepAdvancesTime : Obligations.IdleStepAdvancesTime := by
  unfold Obligations.IdleStepAdvancesTime
  intro s hpending hlines hreads
  have hframe := advanceTime_frame s
  have htick : tick s = advanceTime s := by
    have hheads : ∀ p ∈ (advanceTime s).ts.heads, p.2.line = none := by
      rw [hframe]
      exact hlines
    have hsurfaces : ∀ p ∈ (advanceTime s).compose.surfaces, p.2.reading = [] := by
      rw [hframe]
      exact hreads
    simp [tick, advanceLines_idle hheads, finishAllReads_idle hsurfaces]
  refine ⟨advanceTime s, ?_, advanceTime_mono s, hframe, ?_, advanceTime_unpowered⟩
  · rw [step, hpending, ← htick]
  · intro hpowered hslewing h0 h1
    rw [advanceTime_wall hpowered, advanceWall_unslewed hslewing h0 h1]

/-- Settles O52: after reset no byte of module DRAM is listed. -/
theorem resetMemoryIsCanonical : Obligations.ResetMemoryIsCanonical := by
  unfold Obligations.ResetMemoryIsCanonical
  decide

end Sys2Proof.Machine
end

-- What an obligation's proof goes through: sessions, reports and events
section
/-! SUPPORT. The part of the state that completions go by, which nothing but rings and completions changes; a command executed here ends
with its report; what reporting leaves alone, part by part; and an event stays told. -/

namespace Sys2Proof.Machine

open Sys2Proof

/-! ## What reporting leaves alone, part by part -/

namespace Reporting

variable {s t : State} (h : Reporting s t)
include h

theorem module : t.module = s.module := by rw [h]
theorem power : t.power = s.power := by rw [h]
theorem update : t.update = s.update := by rw [h]
theorem time : t.time = s.time := by rw [h]
theorem ingest : t.ingest = s.ingest := by rw [h]
theorem decode : t.decode = s.decode := by rw [h]
theorem ledger : t.ledger = s.ledger := by rw [h]
theorem scene : t.scene = s.scene := by rw [h]
theorem compose : t.compose = s.compose := by rw [h]
theorem ts : t.ts = s.ts := by rw [h]
theorem record : t.record = s.record := by rw [h]
theorem overlay : t.overlay = s.overlay := by rw [h]
theorem txn : t.txn = s.txn := by rw [h]
theorem cascade : t.cascade = s.cascade := by rw [h]
theorem mem : t.mem = s.mem := by rw [h]
theorem gates : t.gates = s.gates := by rw [h]
theorem mbx : t.mbx = s.mbx := by rw [h]
theorem free : t.free = s.free := by rw [h]

end Reporting

/-! ## The session that completions go by -/

/-- What a completion goes by: whether the host is attached, to which rings, the commands in flight, a detach that waits, the position. -/
structure HostView where
  (attached : Bool)
  (table : Option RingTable)
  (stoppedCpl : List Nat)
  (inFlight : List Ticket)
  (detaching : Option Ticket)
  (position : Nat)

/-- That view of a state. -/
def hostView (s : State) : HostView :=
  ⟨s.host.attached, s.host.table, s.host.stoppedCpl, s.queue.inFlight, s.queue.detaching, position s⟩

@[simp] theorem hostView_emit (o : Out) (s : State) : hostView (emit o s) = hostView s := rfl
@[simp] theorem hostView_modMgmt (s : State) (f : MgmtSt → MgmtSt) : hostView (s.modMgmt f) = hostView s := rfl
@[simp] theorem hostView_modLedger (s : State) (f : LedgerSt → LedgerSt) : hostView (s.modLedger f) = hostView s := rfl

@[simp] theorem hostView_putEvent (r : Nat) (e : EventRec) (s : State) : hostView (putEvent r e s) = hostView s := rfl

@[simp] theorem hostView_deliver (e : EventRec) (s : State) : hostView (deliver e s) = hostView s := by
  unfold deliver loseEvent
  (repeat' split) <;> rfl

@[simp] theorem hostView_logAdd (c v : Nat) (k : ScopeKind) (i : Nat) (l : Items) (b : Bool) (s : State) :
    hostView (logAdd c v k i l b s) = hostView s := by
  obtain ⟨f, hf⟩ := logAdd_eq c v k i l b s
  rw [hf, hostView_modMgmt]

@[simp] theorem hostView_logEvent (c : Nat) (k : ScopeKind) (i : Nat) (l : Items) (s : State) : hostView (logEvent c k i l s) = hostView s := by
  unfold logEvent
  split <;> simp

@[simp] theorem hostView_raise (c : Nat) (k : ScopeKind) (i : Nat) (l : Items) (s : State) (a : Bool) :
    hostView (raise c k i l s a) = hostView s := by
  unfold raise
  rw [hostView_deliver, hostView_logEvent]
  rfl

@[simp] theorem hostView_raiseMod (c : Nat) (l : Items) (s : State) : hostView (raiseMod c l s) = hostView s := hostView_raise ..

@[simp] theorem hostView_raiseLimited (p key n c : Nat) (k : ScopeKind) (i : Nat) (mk : Nat → Items) (s : State) :
    hostView (raiseLimited p key n c k i mk s) = hostView s := by
  unfold raiseLimited
  split
  · exact hostView_raise ..
  · split
    · rfl
    · exact hostView_raise ..

@[simp] theorem hostView_hostOut (tk : Ticket) (o : Nat) (l : List Byte) (s : State) : hostView (hostOut tk o l s) = hostView s := by
  unfold hostOut
  split <;> rfl

/-! ## Commands executed here -/

/-- The state in which a command's own rule acts: the module has taken the command (R281). -/
abbrev taken (d : Desc) (c : HostCmd) (s : State) : State := take d (ticketOf d (cmdKind c) s) s

/-- A command executed here completes as its own rule has it (R281 to R283). -/
theorem Executes.completes {d : Desc} {c : HostCmd} {s : State} (h : Executes d c s) {i : Instr} {body : Ticket → State → State}
    {p : State → Prop} (hi : exec i s = .next (onTake d c body s)) (hp : p (body (ticketOf d (cmdKind c) s) (taken d c s))) :
    Completes i s p :=
  ⟨_, hi.trans (congrArg _ (onTake_executes body h)), hp⟩

theorem Executes.attached {d : Desc} {c : HostCmd} {s : State} (h : Executes d c s) : s.host.attached = true := by
  obtain ⟨ht, -⟩ := h
  simp only [canTake, Bool.and_eq_true] at ht
  exact ht.1.1.1.1.1.1.1.1

/-- Its completion reports, wherever the host view is that of the take. -/
theorem Executes.reports {d : Desc} {c : HostCmd} {s u : State} (h : Executes d c s) (hu : hostView u = hostView (taken d c s)) (status : Nat)
    (result : Items) : Reports d c status result s (complete (ticketOf d (cmdKind c) s) status result u) :=
  complete_reports d c status result s u ((congrArg HostView.attached hu).trans h.attached) (congrArg HostView.table hu)
    (congrArg HostView.stoppedCpl hu) (congrArg HostView.position hu)

theorem completeWrite_ok {tk : Ticket} (h : tk.dmaOk = true) (data result : Items) (s : State) :
    completeWrite tk data result s = complete tk 0 result (hostOut tk 0 (itemBytes data) s) := if_pos h

theorem completeRecord_ok {tk : Ticket} (h : tk.dmaOk = true) (n : Nat) (data result : Items) (s : State) :
    completeRecord tk n data result s = complete tk 0 result (hostOut tk 0 (recordBytes n data) s) := if_pos h

theorem complete_adds (tk : Ticket) (st : Nat) (l : Items) (s : State) : Adds s (complete tk st l s) := completeAs_adds ..

/-- Bytes written to the host buffer are there when the command has completed. -/
theorem delivers_complete (d : Desc) (kind : Nat) (bytes : List Byte) (st : Nat) (l : Items) (s u : State) :
    Delivers d bytes (complete (ticketOf d kind s) st l (hostOut (ticketOf d kind s) 0 bytes u)) :=
  (complete_adds ..).mem List.mem_cons_self

/-- A command that writes fields to its host buffer, and changes nothing else (R285). -/
theorem Executes.writes {d : Desc} {c : HostCmd} {s : State} (h : Executes d c s) (hd : d.dmaOk = true) (data result : Items) :
    let t := completeWrite (ticketOf d (cmdKind c) s) data result (taken d c s)
    Delivers d (itemBytes data) t ∧ Reports d c 0 result s t ∧ Reporting s t := by
  dsimp only
  rw [completeWrite_ok hd]
  exact ⟨delivers_complete .., h.reports (hostView_hostOut ..) 0 result,
    ((take_reporting d _ s).trans (hostOut_reporting ..)).trans (complete_reporting ..)⟩

/-- A command that writes a record to its host buffer, and changes nothing else (R285). -/
theorem Executes.writesRecord {d : Desc} {c : HostCmd} {s : State} (h : Executes d c s) (hd : d.dmaOk = true) (n : Nat) (data result : Items) :
    let t := completeRecord (ticketOf d (cmdKind c) s) n data result (taken d c s)
    Delivers d (recordBytes n data) t ∧ Reports d c 0 result s t ∧ Reporting s t := by
  dsimp only
  rw [completeRecord_ok hd]
  exact ⟨delivers_complete .., h.reports (hostView_hostOut ..) 0 result,
    ((take_reporting d _ s).trans (hostOut_reporting ..)).trans (complete_reporting ..)⟩

/-- A command whose rule completes it at once (R283). -/
theorem Executes.ends {d : Desc} {c : HostCmd} {s u : State} (h : Executes d c s) (hu : hostView u = hostView (taken d c s)) (st : Nat)
    (l : Items) :
    Reports d c st l s (complete (ticketOf d (cmdKind c) s) st l u) ∧ Reporting u (complete (ticketOf d (cmdKind c) s) st l u) :=
  ⟨h.reports hu st l, complete_reporting ..⟩

/-! ## Events stay told -/

theorem Raises.mono {c : Nat} {k : ScopeKind} {i : Nat} {l : Items} {s u t : State} (h : Raises c k i l s u) (ha : Adds u t)
    (he : u.queue.events ⊆ t.queue.events) : Raises c k i l s t := by
  intro hroom hring
  obtain ⟨a, hin | ⟨r, j, ph, b, m, hout⟩⟩ := h hroom hring
  · exact ⟨a, .inl (he hin)⟩
  · exact ⟨a, .inr ⟨r, j, ph, b, m, ha.mem hout⟩⟩

/-- An event raised at `s` itself is there. -/
theorem raise_self (c : Nat) (k : ScopeKind) (i : Nat) (l : Items) (s : State) (a : Bool) : Raises c k i l s (raise c k i l s a) :=
  raise_raises c k i l s s a rfl rfl rfl rfl rfl rfl

theorem publish_events (c : Completion) (s : State) : (publish c s).queue.events = s.queue.events := by
  unfold publish putCompletion
  (repeat' split) <;> rfl

theorem detachHost_queue (c : Nat) (s : State) : (detachHost c s).queue = s.queue := by
  unfold detachHost
  split <;> rfl

theorem settleDetach_events (s : State) : (settleDetach s).queue.events = s.queue.events := by
  unfold settleDetach
  split
  · split
    · rw [detachHost_queue]
      split
      · rfl
      · exact publish_events ..
    · rfl
  · rfl

theorem completeAs_events (tk : Ticket) (st pos : Nat) (f : Bool) (l : Items) (s : State) :
    (completeAs tk st pos f l s).queue.events = s.queue.events := by
  unfold completeAs
  dsimp only
  split
  · rfl
  · rw [settleDetach_events]
    split
    · rfl
    · exact publish_events ..

/-- Completing a command leaves an event told. -/
theorem Raises.complete {c : Nat} {k : ScopeKind} {i : Nat} {l : Items} {s u : State} (h : Raises c k i l s u) (tk : Ticket) (st : Nat)
    (res : Items) : Raises c k i l s (complete tk st res u) :=
  h.mono (complete_adds ..) (by rw [show (Sys2Proof.Machine.complete tk st res u).queue.events = u.queue.events from completeAs_events ..]; exact List.Subset.refl _)

theorem deliver_events (e : EventRec) (s : State) : s.queue.events ⊆ (deliver e s).queue.events := by
  unfold deliver loseEvent
  (repeat' split) <;> simp [putEvent]

theorem logEvent_queue (c : Nat) (k : ScopeKind) (i : Nat) (l : Items) (s : State) : (logEvent c k i l s).queue = s.queue := by
  unfold logEvent
  split
  · obtain ⟨f, hf⟩ := logAdd_eq _ _ _ _ _ _ s
    rw [hf]
    rfl
  · rfl

theorem raise_events (c : Nat) (k : ScopeKind) (i : Nat) (l : Items) (s : State) (a : Bool) :
    s.queue.events ⊆ (raise c k i l s a).queue.events := by
  unfold raise
  refine List.Subset.trans ?_ (deliver_events ..)
  rw [logEvent_queue]
  exact List.Subset.refl _

/-- A later event leaves an earlier one told. -/
theorem Raises.raise {c c' : Nat} {k k' : ScopeKind} {i i' : Nat} {l l' : Items} {s u : State} (h : Raises c k i l s u) (a : Bool) :
    Raises c k i l s (raise c' k' i' l' u a) :=
  h.mono (raise_adds ..) (raise_events ..)

end Sys2Proof.Machine
end

-- The ledger (R107 to R131)
section
/-! SUPPORT. An entry written holds what it was given, with its state evaluated; its children follow it and change nothing else of any entry
than what following means; and all of it is the ledger's own. -/

namespace Sys2Proof.Machine

open Sys2Proof

/-! ## Only the ledger changes -/

theorem OnlyLedger.refl (s : State) : OnlyLedger s s := rfl

theorem OnlyLedger.trans {a b c : State} (h : OnlyLedger a b) (k : OnlyLedger b c) : OnlyLedger a c := by
  unfold OnlyLedger at *
  rw [k, h]

theorem Reporting.onlyLedger {s t : State} (h : Reporting s t) : OnlyLedger s t := by
  unfold OnlyLedger
  rw [h]

theorem OnlyLedger.foldl {α : Type} {g : State → α → State} (h : ∀ s x, OnlyLedger s (g s x)) (l : List α) (s : State) :
    OnlyLedger s (l.foldl g s) := by
  induction l generalizing s with
  | nil => exact .refl s
  | cons a l ih => exact (h s a).trans (ih _)

theorem sendVerdict_onlyLedger (k : Nat) (live : Bool) (s : State) : OnlyLedger s (sendVerdict k live s) := by
  unfold sendVerdict
  dsimp only
  split <;> rfl

theorem onSourceState_onlyLedger (k : Nat) (st : SrcState) (s : State) : OnlyLedger s (onSourceState k st s) := by
  refine OnlyLedger.foldl (fun s p => ?_) _ s
  dsimp only
  split <;> rfl

theorem raiseState_reporting (k : Nat) (old : SrcState) (e : Entry) (n : Nat) (s : State) : Reporting s (raiseState k old e n s) :=
  raise_reporting ..

theorem writeEntry_onlyLedger (k : Nat) (e : Entry) (cause : Cause) (s : State) : OnlyLedger s (writeEntry k e cause s) := by
  have told (c : Prop) [Decidable c] (old : SrcState) (x : Entry) (n : Nat) (u : State) :
      OnlyLedger u (if c then raiseState k old x n u else u) := by
    split
    · exact (raiseState_reporting ..).onlyLedger
    · exact .refl u
  have sent (c : Prop) [Decidable c] (b : Bool) (u : State) : OnlyLedger u (if c then u else sendVerdict k b u) := by
    split
    · exact .refl u
    · exact sendVerdict_onlyLedger ..
  have set (x : Entry) (u : State) : OnlyLedger u (setEntry k x u) := rfl
  unfold writeEntry
  dsimp only
  split
  · exact (set _ s).trans (sent _ _ _)
  · exact ((((told _ _ _ _ s).trans (set _ _)).trans (told _ _ _ _ _)).trans (sent _ _ _)).trans (onSourceState_onlyLedger ..)

theorem refreshChildren_onlyLedger (k : Nat) (s : State) : OnlyLedger s (refreshChildren k s) :=
  OnlyLedger.foldl (fun _ _ => writeEntry_onlyLedger ..) _ s

theorem changeEntry_onlyLedger (k : Nat) (e : Entry) (cause : Cause) (s : State) : OnlyLedger s (changeEntry k e cause s) :=
  (writeEntry_onlyLedger ..).trans (refreshChildren_onlyLedger ..)

theorem shedOne_onlyLedger (k : Nat) (s : State) : OnlyLedger s (shedOne k s) := by
  unfold shedOne
  dsimp only
  split
  · exact changeEntry_onlyLedger ..
  · exact .refl s

theorem probeByCommand_reporting (k : Nat) (before shedBefore : Bool) (s : State) : Reporting s (probeByCommand k before shedBefore s) := by
  unfold probeByCommand
  dsimp only
  split
  · exact .refl s
  · exact raise_reporting ..

theorem receipt_onlyLedger (k : Nat) (o : Origin) (f : ReceiptFlags) (s : State) : OnlyLedger s (receipt k o f s) :=
  changeEntry_onlyLedger ..

theorem applyVouch_onlyLedger (b : VouchBody) (s : State) : OnlyLedger s (applyVouch b s).2 := by
  unfold applyVouch
  split
  · exact (raise_reporting ..).onlyLedger
  · exact receipt_onlyLedger ..

theorem applyVouches_onlyLedger (l : List VouchBody) (acc : Nat × Nat × Nat) (s : State) : OnlyLedger s (applyVouches l acc s).2 := by
  induction l generalizing acc s with
  | nil => exact .refl s
  | cons b t ih => exact (applyVouch_onlyLedger b s).trans (ih ..)

/-! ## The host's view stays -/

theorem hostView_foldl {α : Type} {g : State → α → State} (h : ∀ s x, hostView (g s x) = hostView s) (l : List α) (s : State) :
    hostView (l.foldl g s) = hostView s := by
  induction l generalizing s with
  | nil => rfl
  | cons a l ih => exact (ih _).trans (h s a)

@[simp] theorem hostView_sendVerdict (k : Nat) (live : Bool) (s : State) : hostView (sendVerdict k live s) = hostView s := by
  unfold sendVerdict
  dsimp only
  split <;> rfl

@[simp] theorem hostView_onSourceState (k : Nat) (st : SrcState) (s : State) : hostView (onSourceState k st s) = hostView s := by
  refine hostView_foldl (fun s p => ?_) _ s
  dsimp only
  split <;> rfl

@[simp] theorem hostView_setEntry (k : Nat) (e : Entry) (s : State) : hostView (setEntry k e s) = hostView s := rfl

@[simp] theorem hostView_raiseState (k : Nat) (old : SrcState) (e : Entry) (n : Nat) (s : State) :
    hostView (raiseState k old e n s) = hostView s := hostView_raise ..

@[simp] theorem hostView_writeEntry (k : Nat) (e : Entry) (cause : Cause) (s : State) :
    hostView (writeEntry k e cause s) = hostView s := by
  unfold writeEntry
  dsimp only
  split
  · split <;> simp
  · simp [apply_ite hostView]

@[simp] theorem hostView_refreshChildren (k : Nat) (s : State) : hostView (refreshChildren k s) = hostView s :=
  hostView_foldl (fun _ _ => hostView_writeEntry ..) _ s

@[simp] theorem hostView_changeEntry (k : Nat) (e : Entry) (cause : Cause) (s : State) :
    hostView (changeEntry k e cause s) = hostView s := (hostView_refreshChildren ..).trans (hostView_writeEntry ..)

@[simp] theorem hostView_shedOne (k : Nat) (s : State) : hostView (shedOne k s) = hostView s := by
  unfold shedOne
  dsimp only
  split <;> simp

@[simp] theorem hostView_probeByCommand (k : Nat) (before shedBefore : Bool) (s : State) :
    hostView (probeByCommand k before shedBefore s) = hostView s := by
  unfold probeByCommand
  dsimp only
  split
  · rfl
  · exact hostView_raise ..

@[simp] theorem hostView_rewriteStatic (k : Nat) (static : Bool) (s : State) : hostView (rewriteStatic k static s) = hostView s := by
  unfold rewriteStatic
  dsimp only
  split <;> rfl

@[simp] theorem hostView_applyVouch (b : VouchBody) (s : State) : hostView (applyVouch b s).2 = hostView s := by
  unfold applyVouch
  split
  · exact hostView_raise ..
  · exact hostView_changeEntry ..

@[simp] theorem hostView_applyVouches (l : List VouchBody) (acc : Nat × Nat × Nat) (s : State) :
    hostView (applyVouches l acc s).2 = hostView s := by
  induction l generalizing acc s with
  | nil => rfl
  | cons b t ih => exact (ih ..).trans (hostView_applyVouch b s)

/-! ## Outputs are only added to -/

theorem Adds.foldl {α : Type} {g : State → α → State} (h : ∀ s x, Adds s (g s x)) (l : List α) (s : State) : Adds s (l.foldl g s) := by
  induction l generalizing s with
  | nil => exact .refl s
  | cons a l ih => exact (h s a).trans (ih _)

theorem onSourceState_adds (k : Nat) (st : SrcState) (s : State) : Adds s (onSourceState k st s) := by
  refine Adds.foldl (fun s p => ?_) _ s
  dsimp only
  split <;> exact ⟨[], rfl⟩

theorem sendVerdict_adds (k : Nat) (live : Bool) (s : State) : Adds s (sendVerdict k live s) := by
  unfold sendVerdict
  dsimp only
  split
  · exact ⟨[_, _], rfl⟩
  · exact ⟨[_], rfl⟩

theorem raiseState_adds (k : Nat) (old : SrcState) (e : Entry) (n : Nat) (s : State) : Adds s (raiseState k old e n s) := raise_adds ..

theorem writeEntry_adds (k : Nat) (e : Entry) (cause : Cause) (s : State) : Adds s (writeEntry k e cause s) := by
  have told (c : Prop) [Decidable c] (old : SrcState) (x : Entry) (n : Nat) (u : State) :
      Adds u (if c then raiseState k old x n u else u) := by
    split
    · exact raiseState_adds ..
    · exact .refl u
  have sent (c : Prop) [Decidable c] (b : Bool) (u : State) : Adds u (if c then u else sendVerdict k b u) := by
    split
    · exact .refl u
    · exact sendVerdict_adds ..
  have set (x : Entry) (u : State) : Adds u (setEntry k x u) := ⟨[], rfl⟩
  unfold writeEntry
  dsimp only
  split
  · exact (set _ s).trans (sent _ _ _)
  · exact ((((told _ _ _ _ s).trans (set _ _)).trans (told _ _ _ _ _)).trans (sent _ _ _)).trans (onSourceState_adds ..)

theorem refreshChildren_adds (k : Nat) (s : State) : Adds s (refreshChildren k s) := Adds.foldl (fun _ _ => writeEntry_adds ..) _ s

/-! ## Entries written -/

theorem entryOf_congr {s t : State} (h : t.ledger.entries = s.ledger.entries) (k : Nat) : entryOf t k = entryOf s k := by
  unfold entryOf
  rw [h]

theorem Reporting.entryOf {s t : State} (h : Reporting s t) (k : Nat) : Sys2Proof.Machine.entryOf t k = Sys2Proof.Machine.entryOf s k :=
  entryOf_congr (by rw [h.ledger]) k

@[simp] theorem entryOf_setEntry_self (k : Nat) (e : Entry) (s : State) : entryOf (setEntry k e s) k = e := by
  simp [entryOf, setEntry, mapGetD]

theorem entryOf_setEntry_ne {j k : Nat} (h : j ≠ k) (e : Entry) (s : State) : entryOf (setEntry k e s) j = entryOf s j := by
  simp [entryOf, setEntry, mapGetD, mapGet_mapPut_ne _ _ h]

theorem sendVerdict_entries (k : Nat) (live : Bool) (s : State) : (sendVerdict k live s).ledger.entries = s.ledger.entries := by
  unfold sendVerdict
  dsimp only
  split <;> rfl

theorem onSourceState_ledger (k : Nat) (st : SrcState) (s : State) : (onSourceState k st s).ledger = s.ledger := by
  unfold onSourceState
  generalize s.overlay.bindings = l
  induction l generalizing s with
  | nil => rfl
  | cons a l ih =>
    refine (ih _).trans ?_
    dsimp only
    split <;> rfl

/-- The entry that is written for one given: its state evaluated, with cause, instant and counts where it changes (R116, R131). -/
def evaluated (k : Nat) (e : Entry) (cause : Cause) (s : State) : Entry :=
  let old := entryOf s k
  let st := stateOf e (entryOf s e.parent)
  if st = old.state then { e with state := st, cause := old.cause, stateNs := old.stateNs }
  else
    let sec := s.time.wall / 1000000000
    let fresh := old.second != sec
    let changes := if fresh then 1 else old.changes + 1
    { e with state := st, cause := cause, stateNs := s.time.wall, second := sec, changes := changes,
             unreported := if fresh then 0 else if changes ≤ 16 then old.unreported else old.unreported + 1 }

theorem writeEntry_entries (k : Nat) (e : Entry) (cause : Cause) (s : State) :
    (writeEntry k e cause s).ledger.entries = mapPut s.ledger.entries k (evaluated k e cause s) := by
  have told (c : Prop) [Decidable c] (old : SrcState) (x : Entry) (n : Nat) (u : State) :
      (if c then raiseState k old x n u else u).ledger = u.ledger ∧ (if c then raiseState k old x n u else u).time = u.time := by
    split
    · exact ⟨(raiseState_reporting ..).ledger, (raiseState_reporting ..).time⟩
    · exact ⟨rfl, rfl⟩
  have sent (c : Prop) [Decidable c] (b : Bool) (u : State) :
      (if c then u else sendVerdict k b u).ledger.entries = u.ledger.entries := by
    split
    · rfl
    · exact sendVerdict_entries ..
  unfold writeEntry evaluated
  dsimp only
  split
  · rw [sent]
    rfl
  · rw [onSourceState_ledger, sent, (told ..).1]
    simp only [setEntry, State.modLedger_ledger, (told ..).1, (told ..).2]

@[simp] theorem entryOf_writeEntry_self (k : Nat) (e : Entry) (cause : Cause) (s : State) :
    entryOf (writeEntry k e cause s) k = evaluated k e cause s := by
  simp [entryOf, writeEntry_entries, mapGetD]

theorem entryOf_writeEntry_ne {j k : Nat} (h : j ≠ k) (e : Entry) (cause : Cause) (s : State) :
    entryOf (writeEntry k e cause s) j = entryOf s j := by
  simp [entryOf, writeEntry_entries, mapGetD, mapGet_mapPut_ne _ _ h]

@[simp] theorem evaluated_state (k : Nat) (e : Entry) (cause : Cause) (s : State) :
    (evaluated k e cause s).state = stateOf e (entryOf s e.parent) := by
  unfold evaluated
  dsimp only
  split <;> rfl

/-- A change of state takes its cause and the wall time (R116). -/
theorem evaluated_changes {k : Nat} {e : Entry} {cause : Cause} {s : State} (h : stateOf e (entryOf s e.parent) ≠ (entryOf s k).state) :
    (evaluated k e cause s).cause = cause ∧ (evaluated k e cause s).stateNs = s.time.wall := by
  simp [evaluated, h]

/-- What a source's following of its parent, its shedding and the evaluation of its state may change of an entry; all else is the same. -/
def SameSource (e f : Entry) : Prop :=
  f = { e with state := f.state, cause := f.cause, stateNs := f.stateNs, second := f.second, changes := f.changes, unreported := f.unreported,
               concealScorch := f.concealScorch, shedLatch := f.shedLatch }

theorem SameSource.refl (e : Entry) : SameSource e e := rfl

theorem SameSource.trans {a b c : Entry} (h : SameSource a b) (k : SameSource b c) : SameSource a c := by
  unfold SameSource at *
  rw [k, h]

theorem evaluated_sameSource (k : Nat) (e : Entry) (cause : Cause) (s : State) : SameSource e (evaluated k e cause s) := by
  unfold evaluated
  dsimp only
  split <;> rfl

/-- Children that follow their parent change no entry otherwise (R114). -/
theorem refreshChildren_sameSource (j k : Nat) (s : State) : SameSource (entryOf s k) (entryOf (refreshChildren j s) k) := by
  unfold refreshChildren
  dsimp only
  generalize childrenOf s j = l
  generalize (entryOf s j).concealScorch = scorch
  induction l generalizing s with
  | nil => exact .refl _
  | cons c l ih =>
    refine SameSource.trans ?_ (ih _)
    by_cases h : k = c
    · rw [h, entryOf_writeEntry_self]
      exact (show SameSource (entryOf s c) { entryOf s c with concealScorch := scorch } from rfl).trans (evaluated_sameSource ..)
    · rw [entryOf_writeEntry_ne h]
      exact .refl _

/-- A state that its parent has no part in. -/
def Settled (e : Entry) : Prop := ∀ p, stateOf e p = e.state

theorem evaluated_settled {k : Nat} {s : State} (h : Settled (entryOf s k)) (x : Bool) (cause : Cause) :
    evaluated k { entryOf s k with concealScorch := x } cause s = { entryOf s k with concealScorch := x } := by
  have same : stateOf { entryOf s k with concealScorch := x } (entryOf s (entryOf s k).parent) = (entryOf s k).state := h _
  unfold evaluated
  dsimp only
  rw [if_pos same, same]

/-- An entry whose state its parent has no part in keeps it, with its cause and instant, as children follow theirs. -/
theorem refreshChildren_settled (j : Nat) {k : Nat} {s : State} (h : Settled (entryOf s k)) :
    (entryOf (refreshChildren j s) k).state = (entryOf s k).state ∧ (entryOf (refreshChildren j s) k).cause = (entryOf s k).cause
      ∧ (entryOf (refreshChildren j s) k).stateNs = (entryOf s k).stateNs := by
  unfold refreshChildren
  dsimp only
  generalize childrenOf s j = l
  generalize (entryOf s j).concealScorch = scorch
  induction l generalizing s with
  | nil => exact ⟨rfl, rfl, rfl⟩
  | cons c l ih =>
    by_cases hk : k = c
    · have hw : entryOf (writeEntry c { entryOf s c with concealScorch := scorch } .parent s) k = { entryOf s k with concealScorch := scorch } := by
        subst hk
        rw [entryOf_writeEntry_self, evaluated_settled h]
      have hs : Settled (entryOf (writeEntry c { entryOf s c with concealScorch := scorch } .parent s) k) := by
        rw [hw]
        exact h
      have := ih hs
      rwa [hw] at this
    · have hw := entryOf_writeEntry_ne hk { entryOf s c with concealScorch := scorch } .parent s
      have := ih (hw.symm ▸ h)
      rwa [hw] at this

theorem changeEntry_sameSource (k : Nat) (e : Entry) (cause : Cause) (s : State) : SameSource e (entryOf (changeEntry k e cause s) k) := by
  have h := refreshChildren_sameSource k k (writeEntry k e cause s)
  rw [entryOf_writeEntry_self] at h
  exact (evaluated_sameSource ..).trans h

/-- The state of an entry changed to one whose state its parent has no part in; with a change of state come its cause and the wall time. -/
theorem changeEntry_state {e : Entry} {st : SrcState} (h : ∀ p, stateOf e p = st) (k : Nat) (cause : Cause) (s : State) :
    (entryOf (changeEntry k e cause s) k).state = st
      ∧ (st ≠ (entryOf s k).state → (entryOf (changeEntry k e cause s) k).cause = cause
        ∧ (entryOf (changeEntry k e cause s) k).stateNs = s.time.wall) := by
  have hst : (entryOf (writeEntry k e cause s) k).state = st := by rw [entryOf_writeEntry_self, evaluated_state, h]
  have hs : Settled (entryOf (writeEntry k e cause s) k) := by
    intro p
    rw [hst]
    refine Eq.trans ?_ (h p)
    rw [entryOf_writeEntry_self]
    unfold evaluated
    dsimp only
    split <;> rfl
  obtain ⟨h1, h2, h3⟩ := refreshChildren_settled k hs
  refine ⟨h1.trans hst, fun hne => ?_⟩
  have hc := evaluated_changes (k := k) (e := e) (cause := cause) (s := s) (by rwa [h])
  rw [entryOf_writeEntry_self] at h2 h3
  exact ⟨h2.trans hc.1, h3.trans hc.2⟩

theorem shedOne_sameSource (k : Nat) (s : State) : SameSource (entryOf s k) (entryOf (shedOne k s) k) := by
  unfold shedOne
  dsimp only
  split
  · exact (show SameSource (entryOf s k) { entryOf s k with shedLatch := true } from rfl).trans (changeEntry_sameSource ..)
  · exact .refl _

/-- The state of a source whose kind is none of FREE, INTERNAL, TEST and DERIVED is its own. -/
theorem stateOf_own {e : Entry} (h : e.kind = .network ∨ e.kind = .hostFed) (p : Entry) : stateOf e p = ownState e := by
  rcases h with h | h <;> simp [stateOf, h]

/-- A source withdrawn is WITHDRAWN, whatever its parent's state. -/
theorem stateOf_withdrawn {e : Entry} (h : e.kind = .network ∨ e.kind = .hostFed ∨ e.kind = .derived) (hw : e.withdrawn = true) (p : Entry) :
    stateOf e p = .withdrawn := by
  have own : ownState e = .withdrawn := by simp [ownState, hw]
  rcases h with h | h | h
  · simp [stateOf, h, own]
  · simp [stateOf, h, own]
  · simp only [stateOf, h, own]
    cases p.state <;> simp [SrcState.rank, takesFromParent]

/-- The check of a command for a NETWORK, HOST_FED or DERIVED source passes for these alone (R115). -/
theorem kind_of_stateCommandCheck {k : Nat} {s : State} (h : stateCommandCheck k s = 0) :
    (entryOf s k).kind = .network ∨ (entryOf s k).kind = .hostFed ∨ (entryOf s k).kind = .derived := by
  unfold stateCommandCheck at h
  split at h
  · simp at h
  · cases hk : (entryOf s k).kind <;> simp_all

/-- An event takes the next sequence number of its scope (R288). -/
theorem raise_seqs (c : Nat) (k : ScopeKind) (i : Nat) (l : Items) (s : State) (a : Bool) :
    (raise c k i l s a).queue.seqs = mapPut s.queue.seqs (scopeKey k i) (nextSeq k i s) := by
  have delivered (e : EventRec) (u : State) : (deliver e u).queue.seqs = u.queue.seqs := by
    unfold deliver loseEvent
    (repeat' split) <;> rfl
  unfold raise
  rw [delivered, logEvent_queue]
  rfl

/-! ## Entries set by command -/

/-- A command of the ledger that changes an entry, and with it only the ledger. -/
theorem Executes.endsLedger {d : Desc} {c : HostCmd} {s u : State} (h : Executes d c s) (hv : hostView u = hostView (taken d c s))
    (hu : OnlyLedger (taken d c s) u) (st : Nat) (l : Items) :
    Reports d c st l s (complete (ticketOf d (cmdKind c) s) st l u) ∧ OnlyLedger s (complete (ticketOf d (cmdKind c) s) st l u) :=
  ⟨h.reports hv st l, ((take_reporting d _ s).onlyLedger.trans hu).trans (complete_reporting ..).onlyLedger⟩

theorem ledgerDefineBody_ok {b : LedgerBody} {s : State} (h : ledgerDefineCheck b s = 0) (tk : Ticket) :
    ledgerDefineBody b tk s
      = complete tk 0 [] (writeEntry b.source
          { definedEntry b (entryOf s b.source) with concealScorch := b.kind = 4 && (entryOf s b.parent).concealScorch } .command s) := by
  simp [ledgerDefineBody, h]

theorem ledgerSetBody_ok {b : LedgerBody} {s : State} (h : ledgerSetCheck b s = 0) (tk : Ticket) :
    ∃ before shedBefore changed, ledgerSetBody b tk s
      = complete tk 0 [] (let u := probeByCommand b.source before shedBefore (shedOne b.source (changeEntry b.source
          { entryOf s b.source with
            cls := b.cls, expectUs := b.expectUs, lossMs := b.lossMs, staleMs := b.staleMs, staticDesign := b.staticDesign } .command s))
          if changed = true then rewriteStatic b.source b.staticDesign u else u) :=
  ⟨probes s b.source, shedNow s b.source (entryOf s b.source), (entryOf s b.source).staticDesign != b.staticDesign, by
    simp only [ledgerSetBody, h, bne_self_eq_false, Bool.false_eq_true, if_false]⟩

theorem ledgerDeleteBody_ok {k : Nat} {s : State} (h : ledgerDeleteCheck k s = 0) (tk : Ticket) :
    ledgerDeleteBody k tk s = complete tk 0 [] (writeEntry k (freedEntry (entryOf s k)) .command s) := by
  simp [ledgerDeleteBody, h]

theorem ledgerReadBody_ok {first count : Nat} (h : first + count ≤ 8192) (tk : Ticket) (s : State) :
    ledgerReadBody first count tk s = completeWrite tk ((List.range count).flatMap fun i => entryItems s (first + i)) [] s :=
  if_neg (Nat.not_lt.mpr h)

theorem kind_of_freed (e : Entry) : (freedEntry e).kind = .free := rfl

/-- Settles O7: each command writes the entry that its descriptor gives, and following, shedding and probing leave its figures. -/
theorem ledgerEntriesAreSet : Obligations.LedgerEntriesAreSet := by
  unfold Obligations.LedgerEntriesAreSet
  refine ⟨?define, ?set, ?delete, ?read⟩
  case define =>
    intro d b s h hcheck
    refine h.completes rfl ?_
    rw [ledgerDefineBody_ok (s := taken d (.ledgerDefine b) s) hcheck]
    obtain ⟨hrep, honly⟩ := h.endsLedger (hostView_writeEntry b.source
      { definedEntry b (entryOf s b.source) with concealScorch := b.kind = 4 && (entryOf s b.parent).concealScorch } .command _)
      (writeEntry_onlyLedger ..) 0 []
    rw [(complete_reporting ..).entryOf, entryOf_writeEntry_self]
    have same := evaluated_sameSource b.source
      { definedEntry b (entryOf s b.source) with concealScorch := b.kind = 4 && (entryOf s b.parent).concealScorch } .command
      (taken d (.ledgerDefine b) s)
    refine ⟨congrArg Entry.kind same, congrArg Entry.cls same, congrArg Entry.expectUs same, congrArg Entry.staleMs same,
      congrArg Entry.parent same, congrArg Entry.field same, ?_, ?_, ?_, hrep, honly⟩
    all_goals
      intro hk
      rw [evaluated_state]
      simp [stateOf, ownState, definedEntry, freedEntry, freeEntry, kindOfValue, hk]
  case set =>
    intro d b s h hcheck
    refine h.completes rfl ?_
    obtain ⟨before, shedBefore, changed, heq⟩ := ledgerSetBody_ok (s := taken d (.ledgerSet b) s) hcheck (ticketOf d (cmdKind (.ledgerSet b)) s)
    rw [heq]
    have same := (changeEntry_sameSource b.source
      { entryOf s b.source with
        cls := b.cls, expectUs := b.expectUs, lossMs := b.lossMs, staleMs := b.staleMs, staticDesign := b.staticDesign } .command
      (taken d (.ledgerSet b) s)).trans (shedOne_sameSource ..)
    dsimp only
    have hentry (u : State) : entryOf (if changed = true then rewriteStatic b.source b.staticDesign
        (probeByCommand b.source before shedBefore u) else probeByCommand b.source before shedBefore u) b.source = entryOf u b.source := by
      refine Eq.trans ?_ ((probeByCommand_reporting b.source before shedBefore u).entryOf b.source)
      split
      · refine entryOf_congr ?_ _
        unfold rewriteStatic
        dsimp only
        split <;> rfl
      · rfl
    rw [(complete_reporting ..).entryOf, hentry]
    refine ⟨congrArg Entry.cls same, congrArg Entry.expectUs same, congrArg Entry.lossMs same, congrArg Entry.staleMs same,
      congrArg Entry.staticDesign same, h.reports ?_ 0 []⟩
    split <;> simp
  case delete =>
    intro d k s h hcheck
    refine h.completes rfl ?_
    rw [ledgerDeleteBody_ok (s := taken d (.ledgerDelete k) s) hcheck]
    refine ⟨?_, h.endsLedger (hostView_writeEntry ..) (writeEntry_onlyLedger ..) 0 []⟩
    rw [(complete_reporting ..).entryOf, entryOf_writeEntry_self]
    exact congrArg Entry.kind (evaluated_sameSource ..)
  case read =>
    intro d first count s h hrange hd
    refine h.completes rfl ?_
    rw [ledgerReadBody_ok hrange]
    exact h.writes hd ((List.range count).flatMap fun i => entryItems s (first + i)) []

end Sys2Proof.Machine
end

-- Source states (R111 to R131)
section
/-! SUPPORT. What commands, receipts and timers make of a source's entry and its state, and the whole bitmap bit by bit. -/

namespace Sys2Proof.Machine

open Sys2Proof

/-! ## Commands -/

theorem ledgerWithdrawBody_ok {k : Nat} {s : State} (h : stateCommandCheck k s = 0) (on : Bool) (tk : Ticket) :
    ledgerWithdrawBody k on tk s = complete tk 0 []
      (changeEntry k { entryOf s k with
        withdrawn := on, unknownLatch := (entryOf s k).unknownLatch || ((entryOf s k).withdrawn && !on) } .command s) := by
  simp [ledgerWithdrawBody, h]

theorem ledgerTestBody_ok {k : Nat} {s : State} (h : stateCommandCheck k s = 0) (on : Bool) (tk : Ticket) :
    ledgerTestBody k on tk s = complete tk 0 [] (changeEntry k { entryOf s k with cmdTest := on } .command s) := by
  simp [ledgerTestBody, h]

theorem ledgerProbeBody_ok {k enable freezeK freezeSad : Nat} {s : State} (h : ledgerProbeCheck k enable freezeK freezeSad s = 0)
    (tk : Ticket) : ∃ before pipe, ledgerProbeBody k enable freezeK freezeSad tk s = complete tk 0 []
      (probeByCommand k before false (shedOne k (changeEntry k
        { entryOf s k with probeEn := enable = 1, freezeK := freezeK, freezeSad := freezeSad, probePipe := pipe } .command s))) :=
  ⟨probes s k, if enable = 1 && !(entryOf s k).probeEn then probePlace s else (entryOf s k).probePipe, by
    simp only [ledgerProbeBody, h, bne_self_eq_false, Bool.false_eq_true, if_false]⟩

theorem ledgerVouchBatchBody_ok {count : Nat} {l : List VouchBody} {tk : Ticket} (h1 : 1 ≤ count) (h2 : count ≤ 1024) (hl : l.length = count)
    (hd : tk.dmaOk = true) (s : State) :
    ledgerVouchBatchBody count l tk s
      = complete tk (if (applyVouches l (0, 0, 0) s).1.1 = 0 then (applyVouches l (0, 0, 0) s).1.2.2 else 0)
          [it 4 (applyVouches l (0, 0, 0) s).1.1, it 4 (applyVouches l (0, 0, 0) s).1.2.1] (applyVouches l (0, 0, 0) s).2 := by
  have hn : (decide (count = 0) || decide (1024 < count) || l.length != count) = false := by
    simp [hl, Nat.not_lt.mpr h2, Nat.ne_of_gt h1]
  simp [ledgerVouchBatchBody, hn, hd]

/-- Every vouch of a batch is accepted or refused (R122). -/
theorem applyVouches_counts (l : List VouchBody) (acc : Nat × Nat × Nat) (s : State) :
    (applyVouches l acc s).1.1 + (applyVouches l acc s).1.2.1 = acc.1 + acc.2.1 + l.length := by
  induction l generalizing acc s with
  | nil => rfl
  | cons b t ih =>
    obtain ⟨ok, bad, st⟩ := acc
    rw [applyVouches, ih]
    split <;> simp only [List.length_cons] <;> omega

/-- A vouch of a HOST_FED source that passes every check of R121. -/
theorem vouchCheck_passes {b : VouchBody} {s : State} {u : Nat} (hk : b.source < 8192) (hf : (entryOf s b.source).kind = .hostFed)
    (hu : b.uNs ≤ b.asOfNs) (hb : uE6 s = some u) (hw : b.asOfNs ≤ s.time.wall + b.uNs)
    (hr : (entryOf s b.source).originNs - ((entryOf s b.source).uSrcNs : Int) ≤ (b.asOfNs : Int) - (b.uNs : Int)) :
    vouchCheck b s = none := by
  have h1 : ¬ Config.sources ≤ b.source := Nat.not_le.mpr hk
  have h2 : ¬ s.time.wall < b.asOfNs - b.uNs := by omega
  have h3 : ¬ ((b.asOfNs : Int) - b.uNs) < (entryOf s b.source).originNs - (entryOf s b.source).uSrcNs := not_lt.mpr hr
  simp [vouchCheck, h1, hf, Nat.not_lt.mpr hu, uBounded, hb, h2, h3]

theorem applyVouch_accepted {b : VouchBody} {s : State} (h : vouchCheck b s = none) :
    applyVouch b s
      = (0, receipt b.source ⟨b.asOfNs, b.uNs⟩ { test := b.test, frozen := b.frozen, concealed := false, element := none } s) := by
  simp [applyVouch, h]

/-! ## Timers and comparisons -/

/-- The effect of a condition that holds, on an event of the module's own. -/
theorem completes_of_exec {i : Instr} {s t : State} {p : State → Prop} (h : exec i s = .next t) (hp : p t) : Completes i s p := ⟨t, h, hp⟩

/-- A source neither withdrawn, in test, shed, lost nor unknown, and whose later conditions do not hold either, is LIVE. -/
theorem ownState_live_iff (e : Entry) :
    ownState e = .live ↔ e.withdrawn = false ∧ e.cmdTest = false ∧ e.rxTest = false ∧ e.shedLatch = false ∧ e.lostLatch = false
      ∧ e.unknownLatch = false ∧ frozenNow e = false ∧ e.concealedNow = false ∧ e.staleNow = false ∧ e.lateNow = false := by
  unfold ownState
  split_ifs <;> grind

/-- A source that is LIVE or LATE is STALE where its bound is exceeded, and LATE where only its interval is. -/
theorem ownState_stale {e : Entry} (h : ownState e = .live ∨ ownState e = .late) : ownState { e with staleNow := true } = .stale := by
  unfold ownState frozenNow at *
  split_ifs at h <;> simp_all

theorem ownState_late {e : Entry} (h : ownState e = .live) : ownState { e with lateNow := true } = .late := by
  unfold ownState frozenNow at *
  split_ifs at h
  simp_all

/-- A change of verdict is told to the own Tailstock, under the next sequence number of its bitmap (R128). -/
theorem writeEntry_tellsVerdict {k : Nat} {e : Entry} {cause : Cause} {s : State} {v : Bool}
    (hv : verdictOf (evaluated k e cause s) = v) (hne : v ≠ verdictOf (entryOf s k))
    (hst : stateOf e (entryOf s e.parent) ≠ (entryOf s k).state) :
    Out.verdict .toTailstock ((s.ledger.seqOwn + 1) % 65536) [(k, v)] ∈ (writeEntry k e cause s).outbox := by
  have sent (u : State) (hu : u.ledger.seqOwn = s.ledger.seqOwn) :
      Out.verdict .toTailstock ((s.ledger.seqOwn + 1) % 65536) [(k, v)] ∈ (sendVerdict k v u).outbox := by
    unfold sendVerdict
    dsimp only
    rw [hu]
    split
    · exact List.mem_cons_of_mem _ List.mem_cons_self
    · exact List.mem_cons_self
  have told (c : Prop) [Decidable c] (old : SrcState) (x : Entry) (n : Nat) (u : State) :
      (if c then raiseState k old x n u else u).ledger = u.ledger := by
    split
    · exact (raiseState_reporting ..).ledger
    · rfl
  have timed (c : Prop) [Decidable c] (old : SrcState) (x : Entry) (n : Nat) (u : State) :
      (if c then raiseState k old x n u else u).time = u.time := by
    split
    · exact (raiseState_reporting ..).time
    · rfl
  unfold evaluated at hv
  unfold writeEntry
  dsimp only at hv ⊢
  rw [if_neg hst] at hv ⊢
  simp only [timed]
  rw [hv, if_neg hne]
  apply (onSourceState_adds ..).mem
  apply sent
  rw [told]
  simp only [setEntry, State.modLedger_ledger, told]

/-- An entry withdrawn is WITHDRAWN (R118). -/
theorem changeEntry_withdraws {k : Nat} {u : State}
    (h : (entryOf u k).kind = .network ∨ (entryOf u k).kind = .hostFed ∨ (entryOf u k).kind = .derived) (latch : Bool) :
    let t := changeEntry k { entryOf u k with withdrawn := true, unknownLatch := latch } .command u
    (entryOf t k).withdrawn = true ∧ (entryOf t k).state = .withdrawn := by
  have same := congrArg Entry.withdrawn
    (changeEntry_sameSource k { entryOf u k with withdrawn := true, unknownLatch := latch } .command u)
  have state := changeEntry_state (fun p => stateOf_withdrawn (e := { entryOf u k with withdrawn := true, unknownLatch := latch }) h rfl p)
    k .command u
  exact ⟨same, state.1⟩

/-- A source that is not withdrawn and that a command puts in test is TEST (R117). -/
theorem changeEntry_tests {k : Nat} {u : State} (h : (entryOf u k).kind = .network ∨ (entryOf u k).kind = .hostFed)
    (hw : (entryOf u k).withdrawn = false) :
    (entryOf (changeEntry k { entryOf u k with cmdTest := true } .command u) k).state = .test := by
  have own : ownState { entryOf u k with cmdTest := true } = .test := by simp [ownState, hw]
  have state := changeEntry_state (fun p => (stateOf_own (e := { entryOf u k with cmdTest := true }) h p).trans own) k .command u
  exact state.1

theorem receipt_sameSource (k : Nat) (o : Origin) (f : ReceiptFlags) (u : State) :
    SameSource (received u o f (entryOf u k)) (entryOf (receipt k o f u) k) :=
  changeEntry_sameSource ..

/-- A HOST_FED source that no condition keeps from it is LIVE by a vouch within its bound (R116, R121). -/
theorem receipt_live {b : VouchBody} {u : State} {n : Nat} (hf : (entryOf u b.source).kind = .hostFed) (hb : uE6 u = some n)
    (hw : (entryOf u b.source).withdrawn = false) (hc : (entryOf u b.source).cmdTest = false) (hs : (entryOf u b.source).shedLatch = false)
    (ht : b.test = false) (hfr : b.frozen = false)
    (hbound : ((u.time.wall : Int) - b.asOfNs + b.uNs) * 1000000 + n ≤ ((entryOf u b.source).staleMs : Int) * 1000000000000) :
    (entryOf (receipt b.source ⟨b.asOfNs, b.uNs⟩ { test := b.test, frozen := b.frozen, concealed := false, element := none } u) b.source).state
      = .live := by
  have own : ownState (received u ⟨b.asOfNs, b.uNs⟩ { test := b.test, frozen := b.frozen, concealed := false, element := none }
      (entryOf u b.source)) = .live := by
    rw [ownState_live_iff]
    refine ⟨hw, hc, ht, ?_, rfl, rfl, ?_, rfl, ?_, rfl⟩
    · simp [received, hs]
    · simp [received, frozenNow, hfr, hf]
    · simp only [received, staleCond, hb, Bool.true_and, decide_eq_false_iff_not, not_lt]
      exact hbound
  have state := changeEntry_state (fun p => (stateOf_own (e := received u ⟨b.asOfNs, b.uNs⟩
    { test := b.test, frozen := b.frozen, concealed := false, element := none } (entryOf u b.source)) (.inr hf) p).trans own) b.source
  exact (state ..).1

theorem verdictOf_lost {e : Entry} (hk : e.kind = .network) (hs : e.state = .lost) : verdictOf e = false := by simp [verdictOf, hk, hs]

/-- Settles O8: each command, receipt and timer changes an entry, and its state follows from the conditions the entry then has. -/
theorem sourcesChangeState : Obligations.SourcesChangeState := by
  unfold Obligations.SourcesChangeState
  refine ⟨?withdraw, ?restore, ?test, ?vouch, ?batch, ?probe, ?late, ?stale, ?loss, ?summary, ?compare, ?bitmap⟩
  case withdraw =>
    intro d k s h hcheck
    refine h.completes rfl ?_
    rw [ledgerWithdrawBody_ok (s := taken d (.ledgerWithdraw k true) s) hcheck]
    rw [(complete_reporting ..).entryOf]
    have kind := kind_of_stateCommandCheck hcheck
    obtain ⟨hw, hst⟩ := changeEntry_withdraws (u := taken d (.ledgerWithdraw k true) s) kind
      ((entryOf s k).unknownLatch || ((entryOf s k).withdrawn && !true))
    refine ⟨hw, hst, ?_⟩
    · exact h.endsLedger (hostView_changeEntry ..) (changeEntry_onlyLedger ..) 0 []
  case restore =>
    intro d k s h hcheck
    refine h.completes rfl ?_
    rw [ledgerWithdrawBody_ok (s := taken d (.ledgerWithdraw k false) s) hcheck]
    rw [(complete_reporting ..).entryOf]
    refine ⟨congrArg Entry.withdrawn (changeEntry_sameSource ..), fun hw => ?_,
      h.endsLedger (hostView_changeEntry ..) (changeEntry_onlyLedger ..) 0 []⟩
    refine (congrArg Entry.unknownLatch (changeEntry_sameSource ..)).trans ?_
    have hw' : (entryOf (taken d (.ledgerWithdraw k false) s) k).withdrawn = true := hw
    simp [hw']
  case test =>
    intro d k on s h hcheck
    refine h.completes rfl ?_
    rw [ledgerTestBody_ok (s := taken d (.ledgerTest k on) s) hcheck]
    rw [(complete_reporting ..).entryOf]
    refine ⟨congrArg Entry.cmdTest (changeEntry_sameSource ..), fun hon hnd hw => ?_,
      h.endsLedger (hostView_changeEntry ..) (changeEntry_onlyLedger ..) 0 []⟩
    have kind : (entryOf s k).kind = .network ∨ (entryOf s k).kind = .hostFed := by
      rcases kind_of_stateCommandCheck hcheck with hk | hk | hk
      · exact .inl hk
      · exact .inr hk
      · exact absurd hk hnd
    subst hon
    exact changeEntry_tests (u := taken d (.ledgerTest k true) s) kind hw
  case vouch =>
    intro d b u s h hk hf hu hb hwall hr
    refine h.completes rfl ?_
    have hpass := vouchCheck_passes (s := taken d (.ledgerVouch b) s) hk hf hu hb hwall hr
    unfold ledgerVouchBody
    rw [applyVouch_accepted hpass]
    rw [(complete_reporting ..).entryOf]
    have same : SameSource _ (entryOf (receipt b.source _ _ (taken d (.ledgerVouch b) s)) b.source) :=
      receipt_sameSource b.source ⟨b.asOfNs, b.uNs⟩ { test := b.test, frozen := b.frozen, concealed := false, element := none }
        (taken d (.ledgerVouch b) s)
    refine ⟨congrArg Entry.originNs same, congrArg Entry.uSrcNs same, congrArg Entry.rxNs same, congrArg Entry.rxTest same,
      congrArg Entry.rxFrozen same, ?_, h.endsLedger (hostView_changeEntry ..) (receipt_onlyLedger ..) 0 []⟩
    intro hw hc hs ht hfr hbound
    exact receipt_live (u := taken d (.ledgerVouch b) s) hf hb hw hc hs ht hfr hbound
  case batch =>
    intro d count l s h h1 h2 hl hd
    refine h.completes rfl ?_
    have hd' : (ticketOf d (cmdKind (.ledgerVouchBatch count l)) s).dmaOk = true := hd
    rw [ledgerVouchBatchBody_ok h1 h2 hl hd']
    refine ⟨(complete_reporting ..).ledger, ?_, h.endsLedger (hostView_applyVouches ..) (applyVouches_onlyLedger ..) _ _⟩
    rw [applyVouches_counts, hl]
    simp
  case probe =>
    intro d k enable freezeK freezeSad s h hcheck
    refine h.completes rfl ?_
    obtain ⟨before, pipe, heq⟩ := ledgerProbeBody_ok (s := taken d (.ledgerProbe k enable freezeK freezeSad) s) hcheck
      (ticketOf d (cmdKind (.ledgerProbe k enable freezeK freezeSad)) s)
    rw [heq, (complete_reporting ..).entryOf, (probeByCommand_reporting ..).entryOf]
    have same := (changeEntry_sameSource k
      { entryOf (taken d (.ledgerProbe k enable freezeK freezeSad) s) k with
        probeEn := enable = 1, freezeK := freezeK, freezeSad := freezeSad, probePipe := pipe } .command
      (taken d (.ledgerProbe k enable freezeK freezeSad) s)).trans (shedOne_sameSource ..)
    refine ⟨congrArg Entry.probeEn same, congrArg Entry.freezeK same, congrArg Entry.freezeSad same, h.endsLedger ?_ ?_ 0 []⟩
    · simp
    · exact ((changeEntry_onlyLedger ..).trans (shedOne_onlyLedger ..)).trans (probeByCommand_reporting ..).onlyLedger
  case late =>
    intro k s hrec hkind hlate hown hstate
    have hcond : lateCond s (entryOf s k) = true := by simp [lateCond, hrec, hlate]
    refine completes_of_exec (t := changeEntry k { entryOf s k with lateNow := true } .lateTimer s) ?_ ?_
    · change execLateTimer k s = _
      simp [execLateTimer, hcond]
    · obtain ⟨hst, hchange⟩ := changeEntry_state
        (fun p => (stateOf_own (e := { entryOf s k with lateNow := true }) hkind p).trans (ownState_late hown)) k .lateTimer s
      obtain ⟨hcause, hns⟩ := hchange (by rw [hstate]; decide)
      exact ⟨hst, hcause, hns, changeEntry_onlyLedger ..⟩
  case stale =>
    intro k u s hrec hkind hu hstale hown
    have hcond : staleCond s (entryOf s k) = true := by simp [staleCond, hrec, hu, hstale]
    refine completes_of_exec (t := changeEntry k { entryOf s k with staleNow := true } .staleTimer s) ?_ ?_
    · change execStaleTimer k s = _
      simp [execStaleTimer, hrec, hcond]
    · have state := changeEntry_state
        (fun p => (stateOf_own (e := { entryOf s k with staleNow := true }) hkind p).trans (ownState_stale hown)) k .staleTimer s
      exact ⟨state.1, changeEntry_onlyLedger ..⟩
  case loss =>
    intro k s hkind hloss hw hc hr hs
    have hcond : lossCond s (entryOf s k) = true := by simp [lossCond, hkind, hloss]
    have own : ownState { entryOf s k with lostLatch := true } = .lost := by simp [ownState, hw, hc, hr, hs]
    have hlost (p : Entry) : stateOf { entryOf s k with lostLatch := true } p = .lost :=
      (stateOf_own (e := { entryOf s k with lostLatch := true }) (.inl hkind) p).trans own
    refine completes_of_exec (t := changeEntry k { entryOf s k with lostLatch := true } .lossTimer s) ?_ ?_
    · change execLossTimer k s = _
      simp [execLossTimer, hcond]
    · refine ⟨(changeEntry_state hlost ..).1, fun hv => ?_, changeEntry_onlyLedger ..⟩
      refine (refreshChildren_adds ..).mem (writeEntry_tellsVerdict ?_ (by rw [hv]; decide) ?_)
      · have same := congrArg Entry.kind (evaluated_sameSource k { entryOf s k with lostLatch := true } .lossTimer s)
        exact verdictOf_lost (same.trans hkind) ((evaluated_state ..).trans (hlost _))
      · rw [hlost]
        intro hstate
        simp [verdictOf, hkind, ← hstate] at hv
  case summary =>
    intro k s hn hsec
    refine completes_of_exec (t := raiseState k (entryOf s k).state (entryOf s k) (entryOf s k).unreported
      (setEntry k { entryOf s k with unreported := 0 } s)) ?_ ?_
    · change execLedgerStateSummary k s = _
      simp [execLedgerStateSummary, hn, hsec]
    · refine ⟨?_, ?_, (show OnlyLedger s (setEntry k _ s) from rfl).trans (raiseState_reporting ..).onlyLedger⟩
      · rw [(raiseState_reporting ..).entryOf, entryOf_setEntry_self]
      · unfold raiseState
        rw [raise_seqs, show scopeKey .source k = 65536 + k by simp [scopeKey, ScopeKind.value], mapGet_mapPut_self]
        simp [nextSeq, idx32, scopeKey, ScopeKind.value, setEntry]
  case compare =>
    intro k l n rest s hkind hl hn ht hw hh hlc hnc
    refine completes_of_exec (t := changeEntry k
      { entryOf s k with probeLast := some n, probeNext := rest, sadRepeat := compareProbe (entryOf s k) l n } .probe s) ?_ ?_
    · change execProbeCompareDone k s = _
      simp [execProbeCompareDone, hl, hn, ht, hw, hh]
    · have same := changeEntry_sameSource k
        { entryOf s k with probeLast := some n, probeNext := rest, sadRepeat := compareProbe (entryOf s k) l n } .probe s
      refine ⟨congrArg Entry.probeLast same, congrArg Entry.probeNext same, (congrArg Entry.sadRepeat same).trans ?_, changeEntry_onlyLedger ..⟩
      simp [compareProbe, hw, hh, hlc, hnc]
  case bitmap =>
    intro s hup htwin
    refine completes_of_exec (t := emit (.wholeBitmap .toTailstock s.ledger.seqOwn (BitVec.ofNat 8192 (wholeBitmap s)))
      (s.modLedger fun l => { l with wholeSent := true })) ?_ ⟨rfl, rfl, rfl⟩
    change execWholeBitmapSend s = _
    simp [execWholeBitmapSend, hup, htwin]

/-! ## The whole bitmap (R129, R130) -/

/-- The sum of the powers of two of the keys that `f` marks, as the whole bitmap is formed. -/
def markedSum (f : Entry → Bool) (m : Map Entry) : Nat := sumN (m.map fun p => if f p.2 then 2 ^ p.1 else 0)

theorem sumN_cons (a : Nat) (l : List Nat) : sumN (a :: l) = a + sumN l := by
  rw [sumN, ← List.sum_eq_foldl, List.sum_cons, List.sum_eq_foldl, sumN]

theorem mem_of_mapGet {α : Type} {m : Map α} {k : Nat} {v : α} (h : mapGet m k = some v) : (k, v) ∈ m := by
  induction m with
  | nil => simp [mapGet] at h
  | cons p t ih =>
    obtain ⟨a, w⟩ := p
    rw [mapGet] at h
    split at h
    · next ha =>
      cases h
      rw [ha]
      exact List.mem_cons_self
    · exact List.mem_cons_of_mem _ (ih h)

/-- The sum over keys above `a` is a multiple of the power after `a`. -/
theorem markedSum_dvd (f : Entry → Bool) {a : Nat} {m : Map Entry} (h : KeysAbove a m) : 2 ^ (a + 1) ∣ markedSum f m := by
  induction m with
  | nil => exact dvd_zero _
  | cons p t ih =>
    have ha : a < p.1 := h p List.mem_cons_self
    rw [markedSum, List.map_cons, sumN_cons]
    refine dvd_add ?_ (ih fun q hq => h q (List.mem_cons_of_mem _ hq))
    split
    · exact pow_dvd_pow 2 ha
    · exact dvd_zero _

/-- With keys rising strictly, a bit of the sum is set where its key is marked. -/
theorem testBit_markedSum (f : Entry → Bool) (k : Nat) {m : Map Entry} (h : mapSorted m = true) :
    (markedSum f m).testBit k = ((mapGet m k).map f).getD false := by
  induction m with
  | nil => exact Nat.zero_testBit k
  | cons p t ih =>
    obtain ⟨a, e⟩ := p
    obtain ⟨ht, above⟩ := (mapSorted_cons (a, e) t).1 h
    obtain ⟨c, hc⟩ := markedSum_dvd f above
    have split_sum : markedSum f ((a, e) :: t) = 2 ^ (a + 1) * c ||| (if f e then 2 ^ a else 0) := by
      have hlt : (if f e then 2 ^ a else 0) < 2 ^ (a + 1) := by
        split
        · exact Nat.pow_lt_pow_right (by decide) (Nat.lt_succ_self a)
        · exact Nat.two_pow_pos _
      rw [← Nat.two_pow_add_eq_or_of_lt hlt, ← hc, markedSum, List.map_cons, sumN_cons, Nat.add_comm]
      rfl
    have hgone : k ≤ a → mapGet t k = none := by
      intro hk
      cases hg : mapGet t k with
      | none => rfl
      | some v => exact absurd (above _ (mem_of_mapGet hg)) (Nat.not_lt.mpr hk)
    rw [split_sum, Nat.testBit_or, ← hc, ih ht, mapGet]
    by_cases hk : a = k
    · rw [if_pos hk, hgone hk.ge]
      subst hk
      split <;> simp_all
    · rw [if_neg hk]
      have : (if f e then 2 ^ a else 0).testBit k = false := by
        split
        · exact Nat.testBit_two_pow_of_ne hk
        · exact Nat.zero_testBit k
      rw [this, Bool.or_false]

/-- Settles O9: the whole bitmap is the sum of the powers of two of the sources marked, each key once. -/
theorem wholeBitmapHoldsEveryVerdict : Obligations.WholeBitmapHoldsEveryVerdict := by
  unfold Obligations.WholeBitmapHoldsEveryVerdict
  intro k s hsorted _ hk
  have hbit : (BitVec.ofNat 8192 (wholeBitmap s)).getLsbD k
      = ((mapGet s.ledger.entries k).map fun e => verdictOf e && (s.ledger.wholeSent || e.kind == .internal)).getD false := by
    rw [BitVec.getLsbD_ofNat, decide_eq_true hk, Bool.true_and]
    exact testBit_markedSum (fun e => verdictOf e && (s.ledger.wholeSent || e.kind == .internal)) k hsorted
  rw [hbit]
  unfold entryOf mapGetD
  constructor
  · intro hsent
    cases mapGet s.ledger.entries k with
    | none => rfl
    | some e => simp [hsent]
  · intro hsent
    cases mapGet s.ledger.entries k with
    | none => rfl
    | some e =>
      by_cases hkind : e.kind = .internal
      · simp [verdictOf, hkind]
      · simp [hsent, hkind]

/-- Settles O10: the state of an entry is evaluated as it is written, and these kinds fix it. -/
theorem kindsFixTheirStates : Obligations.KindsFixTheirStates := by
  unfold Obligations.KindsFixTheirStates
  intro k e cause s
  have hkind : (entryOf (writeEntry k e cause s) k).kind = e.kind := by
    rw [entryOf_writeEntry_self]
    have same := evaluated_sameSource k e cause s
    have kind := congrArg Entry.kind same
    exact kind
  have hstate : (entryOf (writeEntry k e cause s) k).state = stateOf e (entryOf s e.parent) := by
    rw [entryOf_writeEntry_self, evaluated_state]
  refine ⟨?_, ?_, ?_⟩
  all_goals
    intro h
    rw [h] at hkind
    simp only [verdictOf, hkind, hstate, stateOf, h, and_self]

end Sys2Proof.Machine
end

-- Mailboxes and locks (R395 to R400)
section
/-! SUPPORT. A command whose effect is one part of the state, and the commands of mailboxes and locks. -/

namespace Sys2Proof.Machine

open Sys2Proof

/-! ## A part of the state set alike on both sides -/

namespace Reporting

variable {s t : State} (h : Reporting s t)
include h

theorem keep_mbx (m : MbxSt) : Reporting { s with mbx := m } { t with mbx := m } := by
  unfold Reporting
  rw [h]

theorem keep_mem (m : MemSt) : Reporting { s with mem := m } { t with mem := m } := by
  unfold Reporting
  rw [h]

theorem keep_gates (m : GateSt) : Reporting { s with gates := m } { t with gates := m } := by
  unfold Reporting
  rw [h]

end Reporting

/-- A command whose rule completes it at once, its effect told by `g`, which sets back what it changes (R283). -/
theorem Executes.endsPart {d : Desc} {c : HostCmd} {s u : State} (h : Executes d c s) (hv : hostView u = hostView (taken d c s))
    {g : State → State} (hg : ∀ {a b : State}, Reporting a b → Reporting (g a) (g b)) (hu : Reporting s (g u)) (st : Nat) (l : Items) :
    Reports d c st l s (complete (ticketOf d (cmdKind c) s) st l u) ∧ Reporting s (g (complete (ticketOf d (cmdKind c) s) st l u)) :=
  ⟨h.reports hv st l, hu.trans (hg (complete_reporting ..))⟩

@[simp] theorem hostView_modMbx (s : State) (f : MbxSt → MbxSt) : hostView (s.modMbx f) = hostView s := rfl

@[simp] theorem raiseMod_mbx (c : Nat) (l : Items) (s : State) : (raiseMod c l s).mbx = s.mbx := (raiseMod_reporting ..).mbx

/-! ## Posts -/

/-- A slot after a post (R395). -/
def postedSlot (old : Slot) (sender : Nat) (msg : List Byte) : Slot :=
  { msg := msg, sender := sender, full := true, collision := old.full || old.collision, senderReset := false }

/-- The state with a message posted to a slot. -/
def posted (receiver slot sender : Nat) (msg : List Byte) (s : State) : State :=
  s.modMbx fun m =>
    { m with slots := mapPut m.slots (slotKey receiver slot) (postedSlot (mapGetD m.slots (slotKey receiver slot) emptySlot) sender msg) }

theorem mbxStore_serving {receiver : Nat} {s : State} (h : serving s receiver = true) (slot sender : Nat) (msg : List Byte) :
    Reporting (posted receiver slot sender msg s) (mbxStore receiver slot sender msg s)
    ∧ hostView (mbxStore receiver slot sender msg s) = hostView s := by
  unfold mbxStore
  rw [if_pos h]
  dsimp only
  split
  · exact ⟨raiseMod_reporting .., by simp⟩
  · exact ⟨.refl _, rfl⟩

theorem mbxStore_notServing {receiver : Nat} {s : State} (h : serving s receiver = false) (slot sender : Nat) (msg : List Byte) :
    mbxStore receiver slot sender msg s = setSendStatus (agentOf sender) receiver 2 s := by simp [mbxStore, h]

theorem mbxPostBody_ok {receiver slot : Nat} {tk : Ticket} (h1 : receiver ≤ 32) (h2 : slot ≤ 31) (hd : tk.dmaOk = true) (msg : List Byte)
    (s : State) :
    mbxPostBody receiver slot msg tk s
      = complete tk 0 [it 4 (sendStatus (mbxStore receiver slot hostId msg s) 33 receiver)] (mbxStore receiver slot hostId msg s) := by
  simp [mbxPostBody, Nat.not_lt.mpr h1, Nat.not_lt.mpr h2, hd]

/-! ## Reads -/

theorem mbxClear_reporting (receiver slot : Nat) (s : State) (m : MbxSt) :
    Reporting { s with mbx := m } { mbxClear receiver slot s with mbx := m } := rfl

/-- Slots cleared one after another: each of them is empty, and no other has changed. -/
theorem mapGet_mbxClears (receiver j : Nat) (l : List Nat) (s : State) :
    mapGet (l.foldl (fun s i => mbxClear receiver i s) s).mbx.slots (slotKey receiver j) = (mapGet s.mbx.slots (slotKey receiver j)).map fun x =>
      if j ∈ l then { x with full := false, collision := false, senderReset := false } else x := by
  induction l generalizing s with
  | nil => simp
  | cons i t ih =>
    rw [List.foldl_cons, ih]
    by_cases hj : j = i
    · subst hj
      simp only [mbxClear, State.modMbx_mbx, mapGet_mapUpd, if_true, List.mem_cons, true_or]
      cases mapGet s.mbx.slots (slotKey receiver j) <;> simp
    · have : slotKey receiver j ≠ slotKey receiver i := by simp [slotKey, hj]
      simp [mbxClear, mapGet_mapUpd, this, hj]

theorem mbxClears_frame (receiver : Nat) (l : List Nat) (s : State) :
    hostView (l.foldl (fun s i => mbxClear receiver i s) s) = hostView s
      ∧ Adds s (l.foldl (fun s i => mbxClear receiver i s) s)
      ∧ ∀ m, Reporting { s with mbx := m } { l.foldl (fun s i => mbxClear receiver i s) s with mbx := m } := by
  induction l generalizing s with
  | nil => exact ⟨rfl, .refl _, fun m => .refl _⟩
  | cons i t ih =>
    obtain ⟨hv, ha, hr⟩ := ih (mbxClear receiver i s)
    exact ⟨hv, ha, hr⟩

/-! ## Locks -/

theorem lockTake_host (lock : Nat) (s : State) :
    (lockTake lock hostId s).1 = (mapGet s.mbx.locks lock).elim 0 (· + 1)
    ∧ (lockTake lock hostId s).2.mbx
        = (if mapGet s.mbx.locks lock = none then { s.mbx with locks := mapPut s.mbx.locks lock 513 } else s.mbx)
    ∧ hostView (lockTake lock hostId s).2 = hostView s ∧ Reporting s { (lockTake lock hostId s).2 with mbx := s.mbx } := by
  unfold lockTake
  cases h : mapGet s.mbx.locks lock <;> exact ⟨rfl, rfl, rfl, rfl⟩

theorem lockPut_freed {lock holder : Nat} {s : State} (h : mapGet s.mbx.locks lock = some holder) :
    lockPut lock holder 0 s = (true, s.modMbx fun m => { m with locks := mapDel m.locks lock }) := by simp [lockPut, h]

/-- Settles O60: a post is stored or only flagged, a read empties the slots of its mask, and a lock has one holder. -/
theorem mailboxesAndLocksComplete : Obligations.MailboxesAndLocksComplete := by
  unfold Obligations.MailboxesAndLocksComplete
  refine ⟨?post, ?refused, ?read, ?acquire, ?release⟩
  case post =>
    intro d receiver slot msg s h h1 h2 hd hs
    refine h.completes rfl ?_
    obtain ⟨hr, hv⟩ := mbxStore_serving (s := taken d (.mbxPost receiver slot msg) s) hs slot hostId msg
    have word : sendStatus (mbxStore receiver slot hostId msg (taken d (.mbxPost receiver slot msg) s)) 33 receiver
        = sendStatus s 33 receiver := by
      unfold sendStatus
      rw [hr.mbx]
      rfl
    have hd' : (ticketOf d (cmdKind (.mbxPost receiver slot msg)) s).dmaOk = true := hd
    rw [mbxPostBody_ok h1 h2 hd', word]
    obtain ⟨hrep, hfr⟩ := h.endsPart (g := fun t => { t with mbx := s.mbx }) hv (fun k => k.keep_mbx _) (hr.keep_mbx s.mbx) 0
      [it 4 (sendStatus s 33 receiver)]
    have hmbx := (complete_reporting (ticketOf d (cmdKind (.mbxPost receiver slot msg)) s) 0 [it 4 (sendStatus s 33 receiver)]
      (mbxStore receiver slot hostId msg (taken d (.mbxPost receiver slot msg) s))).mbx.trans hr.mbx
    refine ⟨?_, ?_, hrep, hfr⟩
    · rw [hmbx]
      exact mapGet_mapPut_self ..
    · rw [hmbx]
      rfl
  case refused =>
    intro d receiver slot msg s h h1 h2 hd hs
    refine h.completes rfl ?_
    have hd' : (ticketOf d (cmdKind (.mbxPost receiver slot msg)) s).dmaOk = true := hd
    rw [mbxPostBody_ok h1 h2 hd', mbxStore_notServing (s := taken d (.mbxPost receiver slot msg) s) hs]
    have hmbx (u : State) (l : Items) := (complete_reporting (ticketOf d (cmdKind (.mbxPost receiver slot msg)) s) 0 l u).mbx
    have word (u : State) (l : Items) :
        sendStatus (complete (ticketOf d (cmdKind (.mbxPost receiver slot msg)) s) 0 l u) 33 receiver = sendStatus u 33 receiver := by
      simp [sendStatus, hmbx]
    rw [word, hmbx]
    obtain ⟨hrep, hfr⟩ := h.endsPart (u := setSendStatus (agentOf hostId) receiver 2 (taken d (.mbxPost receiver slot msg) s))
      (g := fun t => { t with mbx := s.mbx }) rfl (fun k => k.keep_mbx _) rfl 0
      [it 4 (sendStatus (setSendStatus (agentOf hostId) receiver 2 (taken d (.mbxPost receiver slot msg) s)) 33 receiver)]
    refine ⟨?_, rfl, hrep, hfr⟩
    simp [sendStatus, setSendStatus, mapGetD, agentOf, hostId]
    rfl
  case read =>
    intro d mask s h hd
    refine h.completes rfl ?_
    have hd' : (ticketOf d (cmdKind (.mbxRead mask)) s).dmaOk = true := hd
    unfold mbxReadBody
    rw [if_pos hd']
    dsimp only
    obtain ⟨hv, ha, hr⟩ := mbxClears_frame 33 ((List.range 32).filter fun i => bit mask i)
      (hostOut (ticketOf d (cmdKind (.mbxRead mask)) s) 0 (itemBytes (((List.range 32).filter fun i => bit mask i).flatMap fun i =>
          slotItems i (mapGetD s.mbx.slots (33 * 32 + i) emptySlot))) (taken d (.mbxRead mask) s))
    obtain ⟨hrep, hfr⟩ := h.endsPart (g := fun t => { t with mbx := s.mbx }) (hv.trans (hostView_hostOut ..)) (fun k => k.keep_mbx _)
      ((show Reporting s { hostOut (ticketOf d (cmdKind (.mbxRead mask)) s) 0 _ (taken d (.mbxRead mask) s) with mbx := s.mbx } from
        (hostOut_reporting ..).keep_mbx s.mbx).trans (hr s.mbx)) 0 []
    refine ⟨(complete_adds ..).mem (ha.mem List.mem_cons_self), fun i hi => ?_, hrep, hfr⟩
    rw [(complete_reporting ..).mbx]
    refine (mapGet_mbxClears ..).trans ?_
    simp [slotKey, hi, (hostOut_reporting ..).mbx]
    rfl
  case acquire =>
    intro d lock s h hl
    refine h.completes rfl ?_
    obtain ⟨hres, hmbx, hv, hr⟩ := lockTake_host lock (taken d (.lockAcquire lock) s)
    unfold lockAcquireBody
    rw [if_neg (by omega)]
    dsimp only
    rw [hres, (complete_reporting ..).mbx]
    exact ⟨hmbx, h.endsPart (g := fun t => { t with mbx := s.mbx }) hv (fun k => k.keep_mbx _) hr 0 _⟩
  case release =>
    intro d lock s h hl hhold
    refine h.completes rfl ?_
    unfold lockReleaseBody
    rw [if_neg (by omega)]
    dsimp only
    rw [hostId, lockPut_freed (s := taken d (.lockRelease lock) s) hhold, (complete_reporting ..).mbx]
    obtain ⟨hrep, hfr⟩ := h.endsPart (u := (taken d (.lockRelease lock) s).modMbx fun m => { m with locks := mapDel m.locks lock })
      (g := fun t => { t with mbx := s.mbx }) rfl (fun k => k.keep_mbx _) rfl 0 [it 1 1]
    exact ⟨mapGet_mapDel_self .., rfl, hrep, hfr⟩

end Sys2Proof.Machine
end

-- Module memory (R363 to R381)
section
/-! SUPPORT. Bursts read without and with errors, the tables and rates of refresh, and the commands of diagnostics. -/

namespace Sys2Proof.Machine

open Sys2Proof

/-! ## Commands taken earlier -/

/-- The command of a ticket taken earlier ends with its record, wherever the host view is that of `s` (R283, R284). -/
theorem complete_finishes {s u : State} (hu : hostView u = hostView s) (tk : Ticket) (st : Nat) (l : Items) :
    Finishes tk st l s (complete tk st l u) := by
  intro horg hq hatt r hr
  have hat : u.host.attached = true := (congrArg HostView.attached hu).trans hatt
  have htab : u.host.table = s.host.table := congrArg HostView.table hu
  have hstop : u.host.stoppedCpl = s.host.stoppedCpl := congrArg HostView.stoppedCpl hu
  have hring : cplRingOf (leaveFlight tk u) tk.ring = some r := by
    rw [← hr]
    simp [cplRingOf, cmdEntry, leaveFlight, htab, hstop]
  have hpos : position u = position s := congrArg HostView.position hu
  have hsilent : (tk.quiet && decide (st = 0)) = false := by
    rcases hq with h | h <;> simp [h]
  have hat' : (leaveFlight tk u).host.attached = true := hat
  have heq : complete tk st l u = settleDetach (putCompletion r
      { ticket := tk, status := st, position := position s, forwarded := false, result := resultOf tk st l } (leaveFlight tk u)) := by
    unfold complete completeAs
    simp [horg, hsilent, publish, hat', hring, hpos]
  rw [heq]
  exact ⟨_, _, (settleDetach_adds _).mem List.mem_cons_self⟩

@[simp] theorem hostView_modMem (s : State) (f : MemSt → MemSt) : hostView (s.modMem f) = hostView s := rfl

/-- Only memory and what reports differ. -/
def OnlyMem (s t : State) : Prop := Reporting s { t with mem := s.mem }

theorem OnlyMem.refl (s : State) : OnlyMem s s := rfl

theorem OnlyMem.trans {a b c : State} (h : OnlyMem a b) (k : OnlyMem b c) : OnlyMem a c :=
  Reporting.trans h (Reporting.keep_mem k a.mem)

theorem Reporting.onlyMem {s t : State} (h : Reporting s t) : OnlyMem s t := by
  unfold OnlyMem Reporting
  rw [h]

theorem modMem_onlyMem (f : MemSt → MemSt) (s : State) : OnlyMem s (s.modMem f) := rfl

theorem OnlyMem.foldl {α : Type} {g : State → α → State} (h : ∀ s x, OnlyMem s (g s x)) (l : List α) (s : State) :
    OnlyMem s (l.foldl g s) := by
  induction l generalizing s with
  | nil => exact .refl s
  | cons x t ih => exact (h s x).trans (ih (g s x))

/-- A byte depends on the cells and on what undefined bytes read as. -/
theorem memRead_congr {s t : State} (hc : t.mem.cells = s.mem.cells) (he : t.mem.epoch = s.mem.epoch) (a : Nat) : memRead t a = memRead s a := by
  unfold memRead
  rw [hc, he]

/-! ## Bursts without errors -/

/-- No burst is poisoned and no error is armed. -/
def Clean (s : State) : Prop := s.mem.poison = [] ∧ s.mem.injected = []

/-- A read disarms the error of its burst; without one armed, nothing. -/
theorem disarm_eq {s : State} (h : s.mem.injected = []) (b : Nat) : (s.modMem fun m => { m with injected := mapDel m.injected b }) = s := by
  have none : mapDel s.mem.injected b = s.mem.injected := by
    rw [h]
    rfl
  show { s with mem := { s.mem with injected := mapDel s.mem.injected b } } = s
  rw [none]

theorem readBurst_clean {s : State} (h : Clean s) (b cls : Nat) : readBurst b cls [] s = (false, s) := by
  obtain ⟨hp, hi⟩ := h
  simp [readBurst, burstErrors, hp, hi, mapGet, judgeBurst, noteCorrected, disarm_eq hi]

theorem readBursts_clean {s : State} (h : Clean s) (cls : Nat) (l : List Nat) : readBursts cls [] l s = ([], s) := by
  induction l with
  | nil => rfl
  | cons b t ih => simp [readBursts, readBurst_clean h, ih]

theorem serveRead_clean {s : State} (h : Clean s) (a n cls : Nat) :
    serveRead a n cls [] s = emit (.accessData (memReadN s a n) false) s := by
  simp [serveRead, readBursts_clean h, memReadN]

theorem writeAt_clean {s : State} (h : Clean s) (a cls : Nat) (l : List Byte) : writeAt a cls [] l s = memWrite a l s := by
  have same : (s.modMem fun m => { m with poison := m.poison }) = s := rfl
  simp [writeAt, readBursts_clean h, same]

theorem memWrite_clean {s : State} (h : Clean s) (a : Nat) (l : List Byte) :
    memWrite a l s = { s with mem := { s.mem with cells := (memWrite a l s).mem.cells } } := by
  obtain ⟨hp, -⟩ := h
  obtain ⟨⟩ := s
  simp_all [memWrite, State.modMem]

/-! ## Poisoned bursts -/

theorem tellUnraised_onlyMem (s : State) : OnlyMem s (tellUnraised s) := by
  unfold tellUnraised
  split
  · exact (modMem_onlyMem _ s).trans (raiseMod_reporting ..).onlyMem
  · exact .refl s

/-- Of memory, telling the uncorrectable errors not raised changes their count alone (R381). -/
theorem tellUnraised_mem_eq (s : State) : (tellUnraised s).mem = { s.mem with ueUnraised := (tellUnraised s).mem.ueUnraised } := by
  unfold tellUnraised
  split
  · rw [(raiseMod_reporting ..).mem]
    rfl
  · rfl

theorem noteUncorrectable_onlyMem (b cls : Nat) (stays : Bool) (s : State) : OnlyMem s (noteUncorrectable b cls stays s) := by
  unfold noteUncorrectable
  extract_lets u a sub sec raised v
  have noted : OnlyMem s v := (tellUnraised_onlyMem s).trans (modMem_onlyMem _ u)
  split
  · exact noted.trans (raiseMod_reporting ..).onlyMem
  · exact noted

/-- A poisoned burst that is read: counted, noted as the latest, and poisoned still (R365). -/
theorem noteUncorrectable_poisoned {b : Nat} {s : State} (h : s.mem.poison.contains b = true) (cls : Nat) (stays : Bool) :
    (noteUncorrectable b cls stays s).mem.ueTotal = (s.mem.ueTotal + 1) % 4294967296
      ∧ (noteUncorrectable b cls stays s).mem.lastUe = 64 * b ∧ (noteUncorrectable b cls stays s).mem.poison = s.mem.poison := by
  have told := tellUnraised_mem_eq s
  unfold noteUncorrectable
  extract_lets u a sub sec raised v
  have hv : v.mem.ueTotal = (s.mem.ueTotal + 1) % 4294967296 ∧ v.mem.lastUe = 64 * b ∧ v.mem.poison = s.mem.poison := by
    have hu : u.mem.ueTotal = s.mem.ueTotal ∧ u.mem.poison = s.mem.poison := by
      rw [told]
      exact ⟨rfl, rfl⟩
    refine ⟨?_, rfl, ?_⟩
    · show (u.mem.ueTotal + 1) % 4294967296 = _
      rw [hu.1]
    · show (if (!stays || u.mem.poison.contains b) = true then u.mem.poison else b :: u.mem.poison) = _
      rw [hu.2, h, Bool.or_true, if_pos rfl]
  split
  · rwa [(raiseMod_reporting ..).mem]
  · exact hv

theorem readBurst_poisoned {b : Nat} {s : State} (hp : s.mem.poison.contains b = true) (hi : s.mem.injected = []) (cls : Nat) :
    readBurst b cls [] s = (true, noteUncorrectable b cls true s) := by
  simp only [readBurst, disarm_eq hi, hp, if_true]

/-! ## Corrected errors -/

/-- Memory after one corrected beat: counts, and whether the device has failed (R367). -/
theorem countCorrected_facts (sub dev : Nat) (s : State) :
    (countCorrected sub dev s).mem = { s.mem with
        ceTotal := (s.mem.ceTotal + 1) % 4294967296, ceTimes := (countCorrected sub dev s).mem.ceTimes,
        ceDevice := (countCorrected sub dev s).mem.ceDevice, failed := (countCorrected sub dev s).mem.failed }
      ∧ OnlyMem s (countCorrected sub dev s) := by
  unfold countCorrected
  extract_lets key now times u v
  split
  · rw [(raiseMod_reporting ..).mem]
    exact ⟨rfl, ((modMem_onlyMem _ s).trans (modMem_onlyMem _ u)).trans (raiseMod_reporting ..).onlyMem⟩
  · exact ⟨rfl, modMem_onlyMem _ s⟩

/-- A corrected beat of one device, noted (R364, R381). -/
theorem noteCorrected_one (a dev : Nat) (s : State) :
    (noteCorrected a [dev] s).mem = (countCorrected (subKeyOf s.mem a) dev s).mem ∧ OnlyMem s (noteCorrected a [dev] s) := by
  unfold noteCorrected
  simp only [List.isEmpty_cons, Bool.false_eq_true, if_false, List.foldl_cons, List.foldl_nil]
  have rep := raiseLimited_reporting second (limKey 0x0E80 (subKeyOf s.mem a / 2) 0) [dev].length 0x0E80 .module
    (position (countCorrected (subKeyOf s.mem a) dev s))
    (fun n => [it 1 (subKeyOf s.mem a / 2), it 1 (subKeyOf s.mem a % 2),
      it 1 (worstDevice (countCorrected (subKeyOf s.mem a) dev s).mem (subKeyOf s.mem a)), it 4 n, it 8 a])
    (countCorrected (subKeyOf s.mem a) dev s)
  exact ⟨rep.mem, (countCorrected_facts ..).2.trans rep.onlyMem⟩

/-- An error in one device of one beat is corrected (R364). -/
theorem readBurst_oneDevice {s : State} (h : Clean s) (hf : s.mem.failed = []) (b cls dev : Nat) :
    readBurst b cls [[dev]] s = (false, noteCorrected (64 * b) [dev] s) := by
  obtain ⟨hp, hi⟩ := h
  have erased : erasedOf s.mem (subKeyOf s.mem (64 * b)) = none := by simp [erasedOf, hf]
  have good : judgeBurst none [[dev]] = .good [dev] := by simp [judgeBurst, judgeBeat, List.eraseDups_cons]
  simp [readBurst, burstErrors, hp, hi, mapGet, disarm_eq hi, erased, good]

/-! ## Accesses -/

/-- An access within one burst touches that burst alone. -/
theorem burstsOf_one {a n : Nat} (hn : 0 < n) (h : a / 64 = (a + n - 1) / 64) : burstsOf a n = [a / 64] := by
  simp [burstsOf, ← h, Nat.ne_of_gt hn]

theorem serveRead_one {a n : Nat} (hn : 0 < n) (h : a / 64 = (a + n - 1) / 64) (cls : Nat) (errors : BeatErrors) (s : State) :
    serveRead a n cls errors s = emit (.accessData ((List.range n).map fun i =>
        if (readBurst (a / 64) cls errors s).1 then 0 else memRead (readBurst (a / 64) cls errors s).2 (a + i))
      (readBurst (a / 64) cls errors s).1) (readBurst (a / 64) cls errors s).2 := by
  have same {i : Nat} (hi : i < n) : (a + i) / 64 = a / 64 := by omega
  simp only [serveRead, burstsOf_one hn h, readBursts]
  cases (readBurst (a / 64) cls errors s).1
  · simp
  · congr 2
    refine List.map_congr_left fun i hi => ?_
    simp [same (List.mem_range.1 hi)]

/-- An access of powered module DRAM that no training holds back is performed (R372). -/
theorem memoryAccess_completes {a : Access} {errors : BeatErrors} {s : State} {p : State → Prop} (hon : dramOn s = true)
    (hin : inDram a.addr a.len = true) (hw : accessWaits s a = false) (hp : p (performAccess a errors s)) :
    Completes (.memoryAccess a errors) s p := by
  refine completes_of_exec ?_ hp
  change execMemoryAccess a errors s = _
  simp [execMemoryAccess, hon, hin, hw]

theorem performAccess_read {a : Access} (h : a.write = false) (errors : BeatErrors) (s : State) :
    performAccess a errors s = serveRead a.addr a.len a.initiator.cls errors s := by simp [performAccess, h]

theorem performAccess_write {a : Access} (h : a.write = true) (hl : a.data.length = a.len) (errors : BeatErrors) (s : State) :
    performAccess a errors s = writeAt a.addr a.initiator.cls errors a.data s := by simp [performAccess, h, ← hl]

/-- Settles O54: each access is read or written burst by burst, and a burst is clean, poisoned, or corrected. -/
theorem memoryIsReadAndWritten : Obligations.MemoryIsReadAndWritten := by
  unfold Obligations.MemoryIsReadAndWritten
  refine ⟨?read, ?write, ?poisoned, ?corrected, ?waits, ?scrub⟩
  case read =>
    intro a s hr hon hin hw hp hi
    refine memoryAccess_completes hon hin hw ?_
    rw [performAccess_read hr, serveRead_clean ⟨hp, hi⟩]
    rfl
  case write =>
    intro a s hwr hon hin hw hl hp hi
    refine memoryAccess_completes hon hin hw ?_
    rw [performAccess_write hwr hl, writeAt_clean ⟨hp, hi⟩]
    refine ⟨fun x => ?_, memWrite_clean ⟨hp, hi⟩ ..⟩
    rw [memRead_memWrite, hl]
  case poisoned =>
    intro a s hr hon hin hw hn hone hp hi
    refine memoryAccess_completes hon hin hw ?_
    rw [performAccess_read hr, serveRead_one hn hone, readBurst_poisoned hp hi]
    obtain ⟨htotal, hlast, hpoison⟩ := noteUncorrectable_poisoned hp a.initiator.cls true
    exact ⟨List.mem_cons_self, htotal, hlast, hpoison, OnlyMem.trans (noteUncorrectable_onlyMem ..) (emit_reporting ..).onlyMem⟩
  case corrected =>
    intro a dev s hr hon hin hw hn hone hp hi hf
    refine memoryAccess_completes hon hin hw ?_
    rw [performAccess_read hr, serveRead_one hn hone, readBurst_oneDevice ⟨hp, hi⟩ hf]
    obtain ⟨hmem, honly⟩ := noteCorrected_one (64 * (a.addr / 64)) dev s
    rw [(countCorrected_facts ..).1] at hmem
    have bytes (x : Nat) : memRead (noteCorrected (64 * (a.addr / 64)) [dev] s) x = memRead s x :=
      memRead_congr (by rw [hmem]) (by rw [hmem]) x
    simp only [Bool.false_eq_true, if_false, bytes]
    refine ⟨List.mem_cons_self, ?_, ?_, ?_, honly.trans (emit_reporting ..).onlyMem⟩
    · simp only [emit_mem, hmem]
    · simp only [emit_mem, hmem]
    · simp only [emit_mem, hmem, hp]
  case waits =>
    intro a errors s hon hin hw
    refine completes_of_exec (t := { s with mem := { s.mem with waiting := s.mem.waiting ++ [(a, errors)] } }) ?_ rfl
    change execMemoryAccess a errors s = _
    simp [execMemoryAccess, hon, hin, hw, State.modMem]
  case scrub =>
    intro s hon htr hp hi
    refine completes_of_exec (t := s.modMem fun m =>
        if m.scrubPos + 64 = Config.dramBytes then { m with scrubPos := 0, scrubPasses := (m.scrubPasses + 1) % 4294967296 }
        else { m with scrubPos := m.scrubPos + 64 }) ?_ ⟨rfl, rfl⟩
    change execScrubStep [] s = _
    simp [execScrubStep, hon, htr, readBurst_clean ⟨hp, hi⟩]

end Sys2Proof.Machine
end

-- Refresh, row disturbance and diagnostics of memory (R373 to R380)
section
/-! SUPPORT. The rates and tables of refresh, and the commands of memory diagnostics. -/

namespace Sys2Proof.Machine

open Sys2Proof

@[simp] theorem raiseMod_mem_eq (c : Nat) (l : Items) (s : State) : (raiseMod c l s).mem = s.mem := (raiseMod_reporting ..).mem

/-- An event of the module raised where rings, events, position and wall time are those of `s`. -/
theorem raiseMod_raises (c : Nat) (l : Items) (s u : State) (hh : u.host = s.host) (hq : u.queue = s.queue) (hp : position u = position s)
    (hw : u.time.wall = s.time.wall) : Raises c .module (position s) l s (raiseMod c l u) := by
  unfold raiseMod
  rw [hp]
  exact raise_raises c .module (position s) l s u false hh (by rw [hq]) (by rw [hq]) (by rw [hq]) hp hw

/-! ## Rates (R373) -/

/-- Of memory only channels differ, and elsewhere only what reports. -/
def OnlyChannels (s t : State) : Prop := t.mem = { s.mem with channels := t.mem.channels } ∧ OnlyMem s t

theorem OnlyChannels.refl (s : State) : OnlyChannels s s := ⟨rfl, .refl s⟩

theorem OnlyChannels.trans {a b c : State} (h : OnlyChannels a b) (k : OnlyChannels b c) : OnlyChannels a c := by
  obtain ⟨hm, ho⟩ := h
  obtain ⟨km, ko⟩ := k
  refine ⟨?_, ho.trans ko⟩
  rw [km, hm]

theorem OnlyChannels.foldl {α : Type} {g : State → α → State} (h : ∀ s x, OnlyChannels s (g s x)) (l : List α) (s : State) :
    OnlyChannels s (l.foldl g s) := by
  induction l generalizing s with
  | nil => exact .refl s
  | cons x t ih => exact (h s x).trans (ih (g s x))

/-- A change of the channels that is told. -/
theorem putChannels_onlyChannels (m : Map Channel) (c : Nat) (l : Items) (s : State) :
    OnlyChannels s (raiseMod c l (s.modMem fun x => { x with channels := m })) := by
  refine ⟨?_, (modMem_onlyMem _ s).trans (raiseMod_reporting ..).onlyMem⟩
  rw [raiseMod_mem_eq]
  rfl

/-- A channel's rate at a subchannel. -/
def isHot (ch : Channel) (sub : Nat) : Bool := if sub = 0 then ch.hotA else ch.hotB

/-- A channel with that rate. -/
def withRate (ch : Channel) (sub : Nat) (double : Bool) : Channel := if sub = 0 then { ch with hotA := double } else { ch with hotB := double }

theorem isHot_withRate {sub j : Nat} (hs : sub < 2) (hj : j < 2) (ch : Channel) (double : Bool) :
    isHot (withRate ch sub double) j = if j = sub then double else isHot ch j := by
  interval_cases sub <;> interval_cases j <;> rfl

theorem setRate_eq {c : Nat} {ch : Channel} {s : State} (h : mapGet s.mem.channels c = some ch) (sub : Nat) (double : Bool) :
    setRate c sub double s = if isHot ch sub = double then s
      else raiseMod 0x0E84 [it 1 c, it 1 sub, it 1 (flag double)]
        (s.modMem fun m => { m with channels := mapPut m.channels c (withRate ch sub double) }) := by
  unfold setRate
  rw [h]
  rfl

theorem setRate_none {c : Nat} {s : State} (h : mapGet s.mem.channels c = none) (sub : Nat) (double : Bool) : setRate c sub double s = s := by
  unfold setRate
  rw [h]

theorem setRate_onlyChannels (c sub : Nat) (double : Bool) (s : State) : OnlyChannels s (setRate c sub double s) := by
  cases h : mapGet s.mem.channels c with
  | none =>
    rw [setRate_none h]
    exact .refl s
  | some ch =>
    rw [setRate_eq h]
    split
    · exact .refl s
    · exact putChannels_onlyChannels ..

/-- The rate of a subchannel, where its channel is there. -/
def subRate (s : State) (c sub : Nat) : Option Bool := (mapGet s.mem.channels c).map fun ch => isHot ch sub

/-- Setting a rate sets that of its subchannel and no other. -/
theorem subRate_setRate {c sub j k : Nat} (hsub : sub < 2) (hk : k < 2) (double : Bool) (s : State) :
    subRate (setRate c sub double s) j k = if j = c ∧ k = sub then (subRate s c sub).map fun _ => double else subRate s j k := by
  unfold subRate
  cases h : mapGet s.mem.channels c with
  | none =>
    rw [setRate_none h]
    split
    · next hsame => simp [hsame.1, h]
    · rfl
  | some ch =>
    rw [setRate_eq h]
    split
    · next hd =>
      split
      · next hsame => simp [hsame.1, hsame.2, h, hd]
      · rfl
    · rw [raiseMod_mem_eq, State.modMem_mem, mapGet_mapPut]
      by_cases hj : j = c
      · by_cases hk' : k = sub <;> simp [hj, hk', h, isHot_withRate hsub hk, isHot_withRate hsub hsub]
      · simp [hj]

/-- What the answers of MR4 make of subchannel `i` of the sixteen (R373). -/
def pollRate (answers : List Mr4) (s : State) (i : Nat) : State :=
  if (answers.filter fun a => a.channel = i / 2 && a.sub = i % 2).isEmpty then s
  else setRate (i / 2) (i % 2) ((answers.filter fun a => a.channel = i / 2 && a.sub = i % 2).any Mr4.double) s

/-- The rate after the answers: double when any device asks, as it was without answers (R373). -/
def rateAfter (answers : List Mr4) (c sub : Nat) (old : Bool) : Bool :=
  if (answers.any fun a => a.channel = c && a.sub = sub) then (answers.any fun a => a.channel = c && a.sub = sub && a.double) else old

theorem pollRate_onlyChannels (answers : List Mr4) (s : State) (i : Nat) : OnlyChannels s (pollRate answers s i) := by
  unfold pollRate
  split
  · exact .refl s
  · exact setRate_onlyChannels ..

theorem subRate_pollRate (answers : List Mr4) {c sub : Nat} (hsub : sub < 2) (i : Nat) (s : State) :
    subRate (pollRate answers s i) c sub = if i = c * 2 + sub then (subRate s c sub).map (rateAfter answers c sub) else subRate s c sub := by
  have key : i = c * 2 + sub ↔ c = i / 2 ∧ sub = i % 2 := by omega
  by_cases hi : i = c * 2 + sub
  · obtain ⟨hc, hs⟩ := key.1 hi
    rw [if_pos hi]
    unfold pollRate
    rw [← hc, ← hs]
    cases hany : answers.any fun a => a.channel = c && a.sub = sub with
    | false =>
      have none : (answers.filter fun a => a.channel = c && a.sub = sub) = [] := by simpa [List.filter_eq_nil_iff] using hany
      have same : rateAfter answers c sub = id := by
        funext old
        simp [rateAfter, hany]
      simp [none, same]
    | true =>
      have some_ : (answers.filter fun a => a.channel = c && a.sub = sub) ≠ [] := by
        simpa [List.filter_eq_nil_iff] using hany
      have after : rateAfter answers c sub = fun _ => (answers.filter fun a => a.channel = c && a.sub = sub).any Mr4.double := by
        funext old
        simp [rateAfter, hany, List.any_filter]
      rw [if_neg (by simpa using some_), subRate_setRate hsub hsub, after]
      simp
  · rw [if_neg hi]
    unfold pollRate
    split
    · rfl
    · rw [subRate_setRate (Nat.mod_lt i (by decide)) hsub, if_neg (fun h => hi (key.2 h))]

/-- The answers of MR4, one subchannel after another. -/
theorem subRate_pollRates (answers : List Mr4) {c sub : Nat} (hsub : sub < 2) (l : List Nat) (s : State) :
    subRate (l.foldl (pollRate answers) s) c sub
      = if c * 2 + sub ∈ l then (subRate s c sub).map (rateAfter answers c sub) else subRate s c sub := by
  have twice (o : Option Bool) : (o.map (rateAfter answers c sub)).map (rateAfter answers c sub) = o.map (rateAfter answers c sub) := by
    cases o with
    | none => rfl
    | some old =>
      simp only [Option.map_some, Option.some.injEq, rateAfter]
      split <;> rfl
  induction l generalizing s with
  | nil => simp
  | cons i t ih =>
    rw [List.foldl_cons, ih, subRate_pollRate answers hsub]
    by_cases hi : i = c * 2 + sub
    · simp [hi, twice]
    · simp [hi, Ne.symm hi]

/-! ## Row tables (R375, R376) -/

/-- A keyed list without the keys of which `p` holds. -/
theorem mapGet_filter_key {α : Type} (p : Nat → Bool) (m : Map α) (k : Nat) :
    mapGet (m.filter fun x => p x.1) k = if p k then mapGet m k else none := by
  induction m with
  | nil => simp [mapGet]
  | cons x t ih =>
    obtain ⟨j, v⟩ := x
    by_cases hj : j = k
    · subst hj
      by_cases hp : p j <;> simp_all [mapGet]
    · by_cases hp : p j <;> simp_all [mapGet]

/-- The state after an activate without mitigation. -/
def putTable (k : Nat) (t : RowTable) (s : State) : State := s.modMem fun m => { m with tables := mapPut m.tables k t }

theorem exec_rowActivate {c sub bank row : Nat} {sampled : Bool} {s : State} {r : RowTable × Bool}
    (h : activate (mapGetD s.mem.tables (trackKey c sub bank row) []) row (rdThresh s.mem) sampled = r) :
    exec (.rowActivate c sub bank row sampled) s
      = .next (if r.2 then mitigate c sub bank row (putTable (trackKey c sub bank row) r.1 s) else putTable (trackKey c sub bank row) r.1 s) := by
  subst h
  rfl

theorem putTable_same (k : Nat) (t : RowTable) (s : State) : mapGetD (putTable k t s).mem.tables k [] = t := by
  simp [putTable, mapGetD]

theorem putTable_other {k j : Nat} (h : j ≠ k) (t : RowTable) (s : State) : mapGet (putTable k t s).mem.tables j = mapGet s.mem.tables j :=
  mapGet_mapPut_ne _ _ h

/-- A row without its entry is not found. -/
theorem find_removed (t : RowTable) (row : Nat) : ((t.filter fun p => p.1 != row).find? fun p => p.1 = row) = none := by
  simp [List.find?_eq_none]

/-- Settles O55: refresh and calibration keep memory, each answer sets a rate, and each activate is one entry of one table. -/
theorem refreshAndActivatesKeepMemory : Obligations.RefreshAndActivatesKeepMemory := by
  unfold Obligations.RefreshAndActivatesKeepMemory
  refine ⟨?told, ?quiet, ?poll, ?window, ?calibration, ?drift, ?counted, ?threshold, ?free, ?full⟩
  case told =>
    intro c sub s hn hsec
    refine completes_of_exec (t := tellUnraised s) rfl ?_
    have heq : tellUnraised s = raiseMod 0x0E81 [it 8 s.mem.lastUe, it 1 (subKeyOf s.mem s.mem.lastUe / 2),
        it 1 (subKeyOf s.mem s.mem.lastUe % 2), it 1 0, it 4 s.mem.ueUnraised] (s.modMem fun m => { m with ueUnraised := 0 }) := by
      simp [tellUnraised, hn, hsec]
    refine ⟨?_, ?_, tellUnraised_onlyMem s⟩
    · rw [heq]
      exact raiseMod_raises _ _ _ _ rfl rfl rfl rfl
    · rw [heq, raiseMod_mem_eq]
      rfl
  case quiet =>
    intro c sub s hn
    refine completes_of_exec (t := tellUnraised s) rfl ?_
    simp [tellUnraised, hn]
  case poll =>
    intro answers c sub ch s hon hc hsub hch
    refine completes_of_exec (t := (List.range 16).foldl (pollRate answers) s) ?_ ?_
    · change execMr4Poll answers s = _
      unfold execMr4Poll
      rw [if_pos hon]
      rfl
    · have hin : c * 2 + sub ∈ List.range 16 := List.mem_range.2 (by omega)
      have hrate := subRate_pollRates answers hsub (List.range 16) s (c := c)
      rw [if_pos hin] at hrate
      obtain ⟨hmem, honly⟩ := OnlyChannels.foldl (pollRate_onlyChannels answers) (List.range 16) s
      refine ⟨?_, hmem, honly⟩
      unfold subRate at hrate
      rw [hch] at hrate
      obtain ⟨x, hx, hhot⟩ := Option.map_eq_some_iff.1 hrate
      exact ⟨x, hx, hhot⟩
  case window =>
    intro c sub s
    refine completes_of_exec (t := s.modMem fun m => { m with tables := m.tables.filter fun p => p.1 / 32 != c * 2 + sub }) rfl ⟨fun k => ?_, rfl⟩
    refine (mapGet_filter_key (fun j => j / 32 != c * 2 + sub) s.mem.tables k).trans ?_
    by_cases hk : k / 32 = c * 2 + sub <;> simp [hk]
  case calibration =>
    intro s
    exact completes_of_exec (t := s) rfl rfl
  case drift =>
    intro c a b ch s hch hon
    have hex : exec (.dqsOscillator c a b) s = .next
        (if driftPast (max a b) && !ch.driftTold then raiseMod 0x0E83 [it 1 c, it 1 0, it 4 (max a b)] (s.modMem fun m =>
            { m with channels := mapPut m.channels c { ch with driftPs := max a b, driftTold := driftPast (max a b) } })
          else s.modMem fun m =>
            { m with channels := mapPut m.channels c { ch with driftPs := max a b, driftTold := driftPast (max a b) } }) := by
      change execDqsOscillator c a b s = _
      simp [execDqsOscillator, hch, hon, Option.filter]
    refine completes_of_exec hex ?_
    dsimp only
    split
    · refine ⟨?_, fun _ _ => raiseMod_raises _ _ _ _ rfl rfl rfl rfl, putChannels_onlyChannels ..⟩
      rw [raiseMod_mem_eq]
      exact mapGet_mapPut_self ..
    · next hnot =>
      refine ⟨mapGet_mapPut_self .., fun h1 h2 => absurd ?_ hnot, rfl, rfl⟩
      rw [h1, h2]
      rfl
  case counted =>
    intro c sub bank row sampled k n s hk hfind hn
    subst hk
    refine completes_of_exec (exec_rowActivate (r := ((mapGetD s.mem.tables (trackKey c sub bank row) []).map fun p => if p.1 = row then (row, n + 1) else p, false)) ?_) ?_
    · simp [activate, hfind, Nat.not_le.mpr hn]
    · exact ⟨putTable_same .., fun j hj => putTable_other hj .., rfl⟩
  case threshold =>
    intro c sub bank row sampled k n s hk hfind hn
    subst hk
    refine completes_of_exec (exec_rowActivate (r := ((mapGetD s.mem.tables (trackKey c sub bank row) []).filter fun p => p.1 != row, true)) ?_) ?_
    · simp [activate, hfind, hn]
    · refine ⟨?_, rfl, List.mem_cons_self, rfl⟩
      refine Eq.trans ?_ (find_removed (mapGetD s.mem.tables (trackKey c sub bank row) []) row)
      exact congrArg (List.find? _) (putTable_same ..)
  case free =>
    intro c sub bank row sampled k s hk hfind hlen
    subst hk
    refine completes_of_exec (exec_rowActivate (r := ((row, 1) :: mapGetD s.mem.tables (trackKey c sub bank row) [], false)) ?_) ?_
    · simp [activate, hfind, hlen]
    · exact ⟨putTable_same .., fun j hj => putTable_other hj .., rfl⟩
  case full =>
    intro c sub bank row sampled k s hk hfind hlen
    subst hk
    refine completes_of_exec (exec_rowActivate (r := (mapGetD s.mem.tables (trackKey c sub bank row) [], sampled)) ?_) ?_
    · simp [activate, hfind, Nat.not_lt.mpr hlen]
    · cases sampled
      · exact ⟨putTable_same .., rfl, fun h => absurd h (by decide)⟩
      · exact ⟨putTable_same .., rfl, fun _ => List.mem_cons_self⟩

/-! ## Diagnostics (R379, R380) -/

theorem retrainList_eq (c : Nat) : retrainList c = if c = 0xFF then List.range 8 else [c] := rfl

theorem range_eight : List.range 8 = 0 :: [1, 2, 3, 4, 5, 6, 7] := by decide

theorem memRetrainBody_begins {c : Nat} {s : State} (hc : c ≤ 7 ∨ c = 0xFF) (hm : s.module.mode = .maintenance) (hr : s.mem.retrain = none)
    (tk : Ticket) :
    memRetrainBody c tk s = s.modMem fun m => { m with
      retrain := some (tk, retrainList c, []),
      channels := mapUpd m.channels (if c = 0xFF then 0 else c) fun x => { x with retraining := true } } := by
  have hbad : (decide (7 < c) && c != 0xFF) = false := by
    rcases hc with h | h
    · simp [Nat.not_lt.mpr h]
    · simp [h]
  unfold memRetrainBody
  rw [if_neg (by simp [hbad]), if_neg (by simp [hm, hr])]
  unfold retrainNext
  by_cases h : c = 0xFF
  · simp [h, retrainList, range_eight, State.modMem]
  · simp [h, retrainList, State.modMem]

theorem memRetrainBody_busy {c : Nat} {s : State} (hc : c ≤ 7 ∨ c = 0xFF) (hm : s.module.mode ≠ .maintenance) (tk : Ticket) :
    memRetrainBody c tk s = complete tk 0x03E0 [] s := by
  have hbad : (decide (7 < c) && c != 0xFF) = false := by
    rcases hc with h | h
    · simp [Nat.not_lt.mpr h]
    · simp [h]
  simp [memRetrainBody, hbad, hm]

/-- The channel after its training has succeeded (R379). -/
def trainedChannel (ch : Channel) (rd wr : Nat) : Channel :=
  { ch with retraining := false, trained := true, readMarginPs := rd, writeMarginPs := wr, driftPs := 0, driftTold := false }

/-- The state in which a retraining has ended with its last channel. -/
def lastTrained (c rd wr : Nat) (s : State) : State :=
  raiseMod 0x0E83 [it 1 c, it 1 1, it 4 rd]
    (s.modMem fun m => { m with channels := mapUpd m.channels c fun ch => trainedChannel ch rd wr, retrain := none })

theorem exec_lastTrained {c rd wr : Nat} {tk : Ticket} {res : Items} {s : State} (h : s.mem.retrain = some (tk, [c], res)) :
    exec (.memRetrainChannelDone c true rd wr) s
      = .next (complete tk 0 ((res ++ [it 2 rd, it 2 wr]).take 6) (serveWaiting (lastTrained c rd wr s))) := by
  change execMemRetrainChannelDone c true rd wr s = _
  simp [execMemRetrainChannelDone, h, lastTrained, trainedChannel]

theorem lastTrained_mem (c rd wr : Nat) (s : State) :
    (lastTrained c rd wr s).mem
      = { s.mem with channels := mapUpd s.mem.channels c fun ch => trainedChannel ch rd wr, retrain := none } :=
  raiseMod_mem_eq ..

theorem lastTrained_onlyMem (c rd wr : Nat) (s : State) : OnlyMem s (lastTrained c rd wr s) :=
  (modMem_onlyMem _ s).trans (raiseMod_reporting ..).onlyMem

/-- Without accesses that wait, nothing is served. -/
theorem serveWaiting_none {s : State} (h : s.mem.waiting = []) : serveWaiting s = s := by
  unfold serveWaiting
  rw [h]
  have same : (s.modMem fun m => { m with waiting := [] }) = s := by
    show { s with mem := { s.mem with waiting := [] } } = s
    rw [← h]
  simpa using same

/-- The one access that waits is performed once no training holds it back. -/
theorem serveWaiting_one {a : Access} {s : State} (h : s.mem.waiting = [(a, [])]) (hw : accessWaits s a = false) :
    serveWaiting s = performAccess a [] (s.modMem fun m => { m with waiting := [] }) := by
  unfold serveWaiting
  simp [h, hw]

theorem hostView_lastTrained (c rd wr : Nat) (s : State) : hostView (lastTrained c rd wr s) = hostView s := by simp [lastTrained]

theorem memInjectBody_ok {addr devices first : Nat} {s : State} (ha : addr < Config.dramBytes) (hd : devices = 1 ∨ devices = 2)
    (hf : first ≤ 9) (hl : first + devices ≤ 10) (hm : s.module.mode = .maintenance) (tk : Ticket) :
    memInjectBody addr devices first tk s = complete tk 0 []
      (s.modMem fun m => { m with injected := mapPut m.injected (addr / 64) ((List.range devices).map fun i => first + i) }) := by
  have h1 : devices ≠ 0 := by omega
  have h2 : ¬ 2 < devices := by omega
  simp [memInjectBody, Nat.not_le.mpr ha, h1, h2, Nat.not_lt.mpr hf, Nat.not_lt.mpr hl, hm]

/-- Settles O56: diagnostics read memory, arm an error, or train one channel after another. -/
theorem memoryDiagnosticsComplete : Obligations.MemoryDiagnosticsComplete := by
  unfold Obligations.MemoryDiagnosticsComplete
  refine ⟨?status, ?retrain, ?busy, ?done, ?served, ?inject⟩
  case status =>
    intro d s h hd
    exact h.completes rfl (h.writesRecord hd 1024 (memStatusItems s) [])
  case retrain =>
    intro d c ch s h hc hm hr hch
    refine h.completes rfl ?_
    rw [memRetrainBody_begins (s := taken d (.memRetrain c) s) hc hm hr]
    refine ⟨rfl, ?_, rfl⟩
    refine (mapGet_mapUpd ..).trans ?_
    rw [if_pos rfl]
    exact congrArg (Option.map _) hch
  case busy =>
    intro d c s h hc hm
    refine h.completes rfl ?_
    rw [memRetrainBody_busy (s := taken d (.memRetrain c) s) hc hm]
    exact h.ends rfl 0x03E0 []
  case done =>
    intro c rd wr tk res r ch s hre hch hw horg hq hatt hring
    refine completes_of_exec (exec_lastTrained hre) ?_
    have hnone : (lastTrained c rd wr s).mem.waiting = [] := by
      rw [lastTrained_mem]
      exact hw
    rw [serveWaiting_none hnone]
    refine ⟨?_, ?_, ?_, (lastTrained_onlyMem ..).trans (complete_reporting ..).onlyMem⟩
    · rw [(complete_reporting ..).mem, lastTrained_mem]
    · rw [(complete_reporting ..).mem, lastTrained_mem]
      simp [mapGet_mapUpd, hch, trainedChannel]
    · exact complete_finishes (hostView_lastTrained c rd wr s) tk 0 _ horg (.inl hq) hatt r hring
  case served =>
    intro c rd wr tk res a s hre hwait hread hp hi hchan hhas
    refine completes_of_exec (exec_lastTrained hre) ?_
    have hmem := lastTrained_mem c rd wr s
    have hfree : accessWaits (lastTrained c rd wr s) a = false := by
      unfold accessWaits
      rw [List.any_eq_false]
      intro b hb
      have hcb : channelOf (lastTrained c rd wr s).mem (64 * b) = c := by
        rw [hmem]
        exact hchan b hb
      rw [hcb]
      simp only [channelTrains, hmem, mapGet_mapUpd, if_true]
      cases mapGet s.mem.channels c <;> simp [trainedChannel]
    rw [serveWaiting_one (by rw [hmem]; exact hwait) hfree, performAccess_read hread, serveRead_clean]
    · rw [(complete_reporting ..).mem]
      refine ⟨rfl, (complete_adds ..).mem ?_, ?_⟩
      · have bytes (x : Nat) : memRead ((lastTrained c rd wr s).modMem fun m => { m with waiting := [] }) x = memRead s x :=
          memRead_congr (by simp [hmem]) (by simp [hmem]) x
        simp only [memReadN, bytes]
        exact List.mem_cons_self
      · simp [hmem]
    · exact ⟨by simp [hmem, hp], by simp [hmem, hi]⟩
  case inject =>
    intro d addr devices first s h hm ha hdev hf hl
    refine h.completes rfl ?_
    rw [memInjectBody_ok (s := taken d (.memInject addr devices first) s) ha hdev hf hl hm]
    obtain ⟨hrep, hfr⟩ := h.endsPart (u := (taken d (.memInject addr devices first) s).modMem fun m =>
        { m with injected := mapPut m.injected (addr / 64) ((List.range devices).map fun i => first + i) })
      (g := fun t => { t with mem := s.mem }) rfl (fun k => k.keep_mem _) rfl 0 []
    rw [(complete_reporting ..).mem]
    refine ⟨?_, rfl, hrep, hfr⟩
    refine (mapGet_mapPut_self ..).trans ?_
    rcases hdev with rfl | rfl <;> simp [List.range_succ]

end Sys2Proof.Machine
end

-- Gates (R382 to R394)
section
/-! SUPPORT. What an access of module DRAM through its gate does when it is allowed whole or refused whole, what an overlap records, and
the commands of fences and fault records. -/

namespace Sys2Proof.Machine

open Sys2Proof

/-! ## Checks -/

/-- A part inside two object regions of its context is refused for OVERLAP (R389). -/
theorem objectCheck_overlap {s : State} {who : Initiator} {a : Nat} {c : Context} {l : List ObjRegion} {x y : ObjRegion}
    {rest : List ObjRegion} (h0 : who.cls ≠ 0) (h9 : who.cls ≠ 9) (hl : objRegions s who c = some l)
    (hf : (l.filter fun r => inObj a r) = x :: y :: rest) (w : Bool) : objectCheck s 0 who c a w = ⟨false, 4, x.kind, x.objectId, 0xFF⟩ := by
  simp [objectCheck, h0, h9, hl, hf]

/-- A part inside two driver regions of its gate is refused for OVERLAP (R389). -/
theorem driverCheck_overlap {s : State} {gate cls a : Nat} {x y : Nat × RuleRegion} {rest : List (Nat × RuleRegion)} (h0 : cls ≠ 0)
    (hf : ((driverRegions s gate).filter fun p => inRule a p.2) = x :: y :: rest) (w : Bool) :
    driverCheck s gate cls a w = ⟨false, 4, 0, 0, x.1⟩ := by
  obtain ⟨n, r⟩ := x
  simp [driverCheck, h0, hf]

/-- The first part of an access is no longer than the access. -/
theorem partLen_le (s : State) (gate : Nat) (who : Initiator) (c : Context) (a len : Nat) : partLen s gate who c a len ≤ len := by
  have shrinks (l : List Nat) (m : Nat) : l.foldl (fun m b => if a < b && b < a + m then b - a else m) m ≤ m := by
    induction l generalizing m with
    | nil => exact le_refl m
    | cons b t ih =>
      refine (ih _).trans ?_
      dsimp only
      split
      · next h =>
        simp only [Bool.and_eq_true, decide_eq_true_eq] at h
        omega
      · exact le_refl m
  exact shrinks _ len

/-- An access in one part is that part. -/
theorem checkAccess_whole {s : State} {gate : Nat} {a : Access} (h : (checkAccess s gate a).2.2 = none) : (checkAccess s gate a).1 = a.len := by
  have hle := partLen_le s gate a.initiator a.ctx a.addr a.len
  unfold checkAccess at h ⊢
  dsimp only at h ⊢
  split at h
  · simp at h
  · omega

/-- An access that a gate does not refuse: both its parts are allowed. -/
theorem gateDo_passes {gate : Nat} {a : Access} {s : State} (h : (gateDo gate a s).2.1 = false) :
    (checkAccess s gate a).2.1.ok = true ∧ ((checkAccess s gate a).2.2.map fun x => !x.ok).getD false = false := by
  unfold gateDo at h
  simpa using h

/-! ## Accesses allowed whole (R365, R366) -/

theorem meetErrors_clean {s : State} (h : Clean s) (a n cls : Nat) : meetErrors a n cls s = ([], s) := by
  obtain ⟨hp, hi⟩ := h
  simp [meetErrors, hp, hi, readBursts]

theorem memWrite_keeps_clean {s : State} (h : Clean s) (a : Nat) (l : List Byte) : Clean (memWrite a l s) := by
  obtain ⟨hp, hi⟩ := h
  exact ⟨by simp [memWrite, hp], hi⟩

/-- The second part of an access, if there is one, is allowed. -/
theorem second_ok {q : Option PartCheck} (h : (q.map fun x => !x.ok).getD false = false) (x : PartCheck) (hx : q = some x) : x.ok = true := by
  subst hx
  simpa using h

theorem servedRead_clean {a : Access} {s : State} (h : Clean s) (hp : (gateDo 0 a s).2.1 = false) :
    servedRead a s = (memReadN s a.addr a.len, false, s) := by
  obtain ⟨h1, h2⟩ := gateDo_passes hp
  have h3 : (((checkAccess s 0 a).2.2).map PartCheck.ok).getD true = true := by
    cases hq : (checkAccess s 0 a).2.2 with
    | none => rfl
    | some x => exact second_ok h2 x hq
  simp [servedRead, meetErrors_clean h, h1, h3, memReadN]

theorem gateDo_read {a : Access} {s : State} (hr : a.write = false) (h : (gateDo 0 a s).2.1 = false) : (gateDo 0 a s).2.2 = s := by
  unfold gateDo at h ⊢
  dsimp only at h ⊢
  simp [h, hr]

theorem gateDo_write {a : Access} {s : State} (hw : a.write = true) (h : (gateDo 0 a s).2.1 = false) :
    (gateDo 0 a s).2.2 = performWrite a (checkAccess s 0 a).1 (checkAccess s 0 a).2.1 (checkAccess s 0 a).2.2 s := by
  unfold gateDo at h ⊢
  dsimp only at h ⊢
  simp [h, hw]

/-- Only cells of module DRAM differ. -/
def OnlyCells (s t : State) : Prop := t = { s with mem := { s.mem with cells := t.mem.cells } }

theorem OnlyCells.trans {a b c : State} (h : OnlyCells a b) (k : OnlyCells b c) : OnlyCells a c := by
  unfold OnlyCells at *
  rw [k, h]

/-- A write in two parts is the write of the bytes (R390). -/
theorem memRead_memWrite_parts {l : List Byte} {n : Nat} (hn : n ≤ l.length) (a : Nat) (s : State) (x : Nat) :
    memRead (memWrite (a + n) (l.drop n) (memWrite a (l.take n) s)) x = if a ≤ x ∧ x < a + l.length then l.getD (x - a) 0 else memRead s x := by
  rw [memRead_memWrite, memRead_memWrite, List.length_drop, List.length_take, min_eq_left hn]
  by_cases h1 : a + n ≤ x ∧ x < a + n + (l.length - n)
  · rw [if_pos h1, if_pos (by omega), List.getD_eq_getElem?_getD, List.getD_eq_getElem?_getD, List.getElem?_drop,
      show n + (x - (a + n)) = x - a by omega]
  · rw [if_neg h1]
    by_cases h2 : a ≤ x ∧ x < a + n
    · rw [if_pos h2, if_pos (by omega), List.getD_eq_getElem?_getD, List.getD_eq_getElem?_getD, List.getElem?_take_of_lt (by omega)]
    · rw [if_neg h2, if_neg (by omega)]

/-- A write allowed whole stores its bytes and no other (R366, R390). -/
theorem performWrite_allowed {a : Access} {s : State} (h : Clean s) (hp : (gateDo 0 a s).2.1 = false) (hl : a.data.length = a.len) :
    let t := performWrite a (checkAccess s 0 a).1 (checkAccess s 0 a).2.1 (checkAccess s 0 a).2.2 s
    (∀ x, memRead t x = if a.addr ≤ x ∧ x < a.addr + a.len then a.data.getD (x - a.addr) 0 else memRead s x) ∧ OnlyCells s t := by
  obtain ⟨h1, h2⟩ := gateDo_passes hp
  have hle : (checkAccess s 0 a).1 ≤ a.len := partLen_le ..
  have data : a.data.take a.len = a.data := by rw [← hl, List.take_length]
  have first (l : List Byte) : writeAt a.addr a.initiator.cls [] l s = memWrite a.addr l s := writeAt_clean h ..
  dsimp only
  unfold performWrite
  rw [if_pos h1, data, first]
  cases hq : (checkAccess s 0 a).2.2 with
  | none =>
    have hn := checkAccess_whole hq
    rw [hn, ← hl, List.take_length]
    exact ⟨fun x => memRead_memWrite .., memWrite_clean h ..⟩
  | some x =>
    simp only [second_ok h2 x hq, if_true]
    have hclean := memWrite_keeps_clean h a.addr (a.data.take (checkAccess s 0 a).1)
    rw [writeAt_clean hclean]
    refine ⟨fun y => ?_, OnlyCells.trans (memWrite_clean h ..) (memWrite_clean hclean ..)⟩
    rw [memRead_memWrite_parts (by omega), hl]

/-! ## Accesses refused whole (R390, R394) -/

theorem servedRead_refused {a : Access} {s : State} (h : (checkAccess s 0 a).2.1.ok = false) (hq : (checkAccess s 0 a).2.2 = none) :
    servedRead a s = ((List.range a.len).map fun _ => 0, false, s) := by
  have hn := checkAccess_whole hq
  unfold servedRead
  simp only [h, hq, hn, Bool.false_eq_true, if_false, Option.map_none, Option.getD_none, List.append_nil, List.isEmpty_nil, Bool.not_true]
  congr 1
  refine List.map_congr_left fun i hi => ?_
  simp [List.mem_range.1 hi]

theorem gateDo_refused {gate : Nat} {a : Access} {s : State} (h : (checkAccess s gate a).2.1.ok = false)
    (hq : (checkAccess s gate a).2.2 = none) :
    gateDo gate a s = (false, true, recordFault gate a (checkAccess s gate a).1 (checkAccess s gate a).2.1 none s) := by
  unfold gateDo
  simp [h, hq, performWrite]

/-- A fault record begun at `s` by an access refused whole (R394). -/
def beganFault (a : Access) (s t : State) : Prop :=
  t.mem = s.mem ∧ t.gates.faultCount = (s.gates.faultCount + 1) % 4294967296
    ∧ t.gates.lastFaultSeq = (s.gates.lastFaultSeq + 1) % 4294967296
    ∧ (∃ f, t.gates.faults = [f] ∧ f.seq = t.gates.lastFaultSeq ∧ f.gate = 0 ∧ f.cause = (checkAccess s 0 a).2.1.cause
      ∧ f.initiator = initiatorId a.initiator ∧ f.address = a.addr ∧ f.length = a.len ∧ f.write = a.write ∧ f.parts = 1
      ∧ f.outcomeA = (if a.write then 1 else 2) ∧ f.wallNs = s.time.wall ∧ f.further = 0)
    ∧ Reporting s { t with gates := s.gates }

theorem beganFault.reporting {a : Access} {s t u : State} (h : beganFault a s t) (hu : Reporting t u) : beganFault a s u := by
  obtain ⟨hm, hc, hl, hf, hr⟩ := h
  refine ⟨hu.mem.trans hm, ?_, ?_, ?_, hr.trans (hu.keep_gates _)⟩
  all_goals rw [hu.gates]
  exacts [hc, hl, hf]

theorem logInternal_reporting (unit detail : Nat) (s : State) : Reporting s (logInternal unit detail s) := by
  unfold logInternal
  obtain ⟨f, hf⟩ := logAdd_eq 0x0F00 3 .module (position s) [it 4 unit, it 4 detail] false
    (s.modMgmt fun m => { m with internals := (unit, s.time.mono) :: m.internals })
  dsimp only
  rw [show position s = position (s.modMgmt fun m => { m with internals := (unit, s.time.mono) :: m.internals }) from rfl] at hf
  rw [hf]
  rfl

theorem logInternal_outbox (unit detail : Nat) (s : State) : (logInternal unit detail s).outbox = s.outbox := by
  unfold logInternal
  dsimp only
  obtain ⟨f, hf⟩ := logAdd_eq 0x0F00 3 .module (position (s.modMgmt fun m => { m with internals := (unit, s.time.mono) :: m.internals }))
    [it 4 unit, it 4 detail] false (s.modMgmt fun m => { m with internals := (unit, s.time.mono) :: m.internals })
  rw [hf]
  rfl

theorem recordFault_begins {a : Access} {s : State} (h : (checkAccess s 0 a).2.1.ok = false) (hnone : s.gates.faults = []) (n : Nat) :
    beganFault a s (recordFault 0 a n (checkAccess s 0 a).2.1 none s) := by
  unfold recordFault
  extract_lets u f cause over4 v more seq g w sc
  have hv : Reporting u v := by
    show Reporting u (if _ then _ else _)
    split
    · exact logInternal_reporting ..
    · exact .refl u
  have hfree : v.gates.faults.any (sameFault a) = false := by
    rw [hv.gates]
    simp [u, hnone]
  rw [hfree]
  simp only [Bool.false_eq_true, if_false]
  refine beganFault.reporting ?_ (raise_reporting ..)
  have hgates : v.gates = { s.gates with faultCount := (s.gates.faultCount + 1) % 4294967296 } := hv.gates
  have hseq : seq = (s.gates.lastFaultSeq + 1) % 4294967296 := by simp [seq, hgates]
  refine ⟨hv.mem, ?_, hseq, ⟨g, ?_, rfl, rfl, ?_, rfl, rfl, rfl, rfl, rfl, ?_, ?_, rfl⟩, ?_⟩
  · exact congrArg GateSt.faultCount hgates
  · simp [w, hgates, hnone, Config.gateRecords]
  · simp [g, cause, f, h]
  · simp [g, outcomeOf, h]
  · exact congrArg TimeSt.wall hv.time
  · exact hv.keep_gates s.gates

/-! ## The record of an overlap (R389, R416) -/

theorem raise_mgmt {c : Nat} (h : logSeverity c = none) (k : ScopeKind) (i : Nat) (l : Items) (s : State) (a : Bool) :
    (raise c k i l s a).mgmt = s.mgmt := by
  unfold raise deliver loseEvent logEvent
  rw [h]
  dsimp only
  (repeat' split) <;> rfl

/-- An internal fault is recorded, or, in a second that has had its hundred records, counted (R416, R418). -/
theorem logInternal_records (unit detail : Nat) {s : State} (hs : s.mgmt.logSuppressed = 0) :
    (s.mgmt.logSecond ≠ s.time.wall / 1000000000 ∨ s.mgmt.logInSecond < Config.logPerSecond →
        ∃ r ∈ (logInternal unit detail s).mgmt.logPinned, r.code / 256 = 0x0F ∧ r.seq = (s.mgmt.logSeq + 1) % 4294967296)
      ∧ (s.mgmt.logSecond = s.time.wall / 1000000000 → Config.logPerSecond ≤ s.mgmt.logInSecond →
        (logInternal unit detail s).mgmt.logSuppressed = 1) := by
  unfold logInternal logAdd
  extract_lets u
  have flush : logFlush u = u := by
    unfold logFlush
    simp [u, hs]
  rw [flush]
  unfold logPut
  extract_lets sec used seq r
  constructor
  · intro hroom
    have hused : used < Config.logPerSecond := by
      show (if s.mgmt.logSecond = s.time.wall / 1000000000 then s.mgmt.logInSecond else 0) < _
      split
      · next h => exact hroom.resolve_left (not_not.mpr h)
      · decide
    rw [if_pos hused]
    exact ⟨r, by simp [keepLog, r, Config.logPinned], by simp [r], by simp [r, seq, u, idx32]⟩
  · intro hsec hfull
    have hused : ¬ used < Config.logPerSecond := by
      show ¬ (if s.mgmt.logSecond = s.time.wall / 1000000000 then s.mgmt.logInSecond else 0) < _
      rw [if_pos hsec]
      exact Nat.not_lt.mpr hfull
    rw [if_neg hused]
    show u.mgmt.logSuppressed + 1 = 1
    simp [u, hs]

theorem performWrite_clean {s : State} (h : Clean s) (a : Access) (n : Nat) (p : PartCheck) (q : Option PartCheck) :
    OnlyCells s (performWrite a n p q s) := by
  have part (c : Bool) (x : Nat) (l : List Byte) {u : State} (hu : Clean u) :
      Clean (if c then writeAt x a.initiator.cls [] l u else u) ∧ OnlyCells u (if c then writeAt x a.initiator.cls [] l u else u) := by
    cases c
    · exact ⟨hu, rfl⟩
    · simp only [if_true, writeAt_clean hu]
      exact ⟨memWrite_keeps_clean hu .., memWrite_clean hu ..⟩
  unfold performWrite
  obtain ⟨hclean, honly⟩ := part p.ok a.addr ((a.data.take a.len).take n) h
  cases q with
  | none => exact honly
  | some x => exact honly.trans (part x.ok (a.addr + n) ((a.data.take a.len).drop n) hclean).2

theorem recordFault_overlap {gate : Nat} {a : Access} {n : Nat} {p : PartCheck} {q : Option PartCheck}
    (h : (p.ok = false ∧ p.cause = 4) ∨ (∃ x, q = some x ∧ x.ok = false ∧ x.cause = 4)) (s : State) :
    (recordFault gate a n p q s).mgmt
      = (logInternal (initiatorId a.initiator) 4 (s.modGates fun g => { g with faultCount := (g.faultCount + 1) % 4294967296 })).mgmt := by
  unfold recordFault
  extract_lets u f cause over4 v more seq g w sc
  have hover : (over4 p || (q.map over4).getD false) = true := by
    rcases h with ⟨h1, h2⟩ | ⟨x, rfl, h1, h2⟩
    · simp [over4, h1, h2]
    · simp [over4, h1, h2]
  have hv : v = logInternal (initiatorId a.initiator) 4 u := by
    show (if _ then _ else _) = _
    rw [if_pos hover]
  split
  · rw [State.modGates_mgmt, hv]
  · rw [raise_mgmt (by decide)]
    show v.mgmt = _
    rw [hv]

/-- Settles O58: two regions at an address refuse the part with OVERLAP, and its record is that of an internal fault. -/
theorem overlapIsRefused : Obligations.OverlapIsRefused := by
  unfold Obligations.OverlapIsRefused
  refine ⟨?object, ?driver, ?recorded⟩
  case object =>
    intro s who a c w l x y rest h0 h9 hl hf
    simp [checkAt, objectCheck_overlap h0 h9 hl hf]
  case driver =>
    intro s gate who a c w x y rest h0 hobj hf
    simp [checkAt, hobj, driverCheck_overlap h0 hf]
  case recorded =>
    intro s gate a hover hp hi hs
    have hrefused : (gateDo gate a s).2.1 = true := by
      unfold gateDo
      rcases hover with ⟨h1, -⟩ | ⟨x, hx, h1, -⟩
      · simp [h1]
      · simp [hx, h1]
    refine ⟨hrefused, ?_⟩
    have hstate : ∃ u, OnlyCells s u ∧ (gateDo gate a s).2.2
        = recordFault gate a (checkAccess s gate a).1 (checkAccess s gate a).2.1 (checkAccess s gate a).2.2 u := by
      unfold gateDo at hrefused ⊢
      dsimp only at hrefused ⊢
      rw [if_pos hrefused]
      refine ⟨_, ?_, rfl⟩
      split
      · exact performWrite_clean ⟨hp, hi⟩ ..
      · rfl
    obtain ⟨u, hu, heq⟩ := hstate
    rw [heq, recordFault_overlap hover, hu]
    exact logInternal_records (s := { s with mem := { s.mem with cells := u.mem.cells } }.modGates fun g =>
      { g with faultCount := (g.faultCount + 1) % 4294967296 }) (initiatorId a.initiator) 4 hs

/-! ## Fences and records (R393, R394) -/

theorem gateFenceBody_drained {mask : Nat} {s : State} (hm : mask < 512) (h : (s.gates.draining.any fun g => bit mask g) = false) (poll : Bool)
    (tk : Ticket) : gateFenceBody mask poll tk s = complete tk 0 [] s := by
  have : ¬ 511 < mask := by omega
  cases poll <;> simp [gateFenceBody, this, h]

theorem gateFenceBody_poll {mask : Nat} {s : State} (hm : mask < 512) (h : (s.gates.draining.any fun g => bit mask g) = true) (tk : Ticket) :
    gateFenceBody mask true tk s = complete tk 0x03A0 [] s := by
  have : ¬ 511 < mask := by omega
  simp only [gateFenceBody, this, h, if_true, if_false]

theorem gateFenceBody_waits {mask : Nat} {s : State} (hm : mask < 512) (h : (s.gates.draining.any fun g => bit mask g) = true) (tk : Ticket) :
    gateFenceBody mask false tk s = s.modGates fun g => { g with fences := g.fences ++ [(mask, tk)] } := by
  have : ¬ 511 < mask := by omega
  simp only [gateFenceBody, this, h, if_true, if_false, Bool.false_eq_true]

/-- The fault records from a sequence number on. -/
def faultsFrom (seq : Nat) (s : State) : List GateFault := s.gates.faults.filter fun f => decide (0 ≤ modDiff 32 f.seq seq)

theorem gateFaultReadBody_eq (seq : Nat) (tk : Ticket) (s : State) :
    gateFaultReadBody seq tk s = completeWrite tk ((faultsFrom seq s).reverse.flatMap faultItems) [it 4 (faultsFrom seq s).length] s := by
  simp [gateFaultReadBody, faultsFrom]

/-- An access of powered module DRAM at its gate (R385). -/
theorem exec_gateAccess_mem {a : Access} {s : State} (hon : dramOn s = true) (hin : inDram a.addr a.len = true) (hl : a.len ≤ 512) :
    exec (.gateAccess 0 a) s = .next
      (if (gateDo 0 a s).2.1 && (a.initiator.cls = 2 || a.initiator.cls = 5) then
        logInternal (initiatorId a.initiator) 0 (if a.write then (gateDo 0 a s).2.2 else gateMemRead a s)
      else if a.write then (gateDo 0 a s).2.2 else gateMemRead a s) := by
  change execGateAccess 0 a s = _
  unfold execGateAccess
  rw [if_pos rfl, if_pos (by simp [hon, hin, hl])]

/-- Settles O57: allowed accesses are those of memory, refused ones begin a record, and fences wait for what drains. -/
theorem gatesPassOrRefuse : Obligations.GatesPassOrRefuse := by
  unfold Obligations.GatesPassOrRefuse
  refine ⟨?read, ?write, ?refused, ?register, ?drained, ?poll, ?waits, ?fence, ?faults⟩
  case read =>
    intro a s hr hon hin hl _ hpass hp hi
    refine completes_of_exec (exec_gateAccess_mem hon hin hl) ?_
    simp only [hpass, hr, Bool.false_and, Bool.false_eq_true, if_false, gateMemRead, servedRead_clean ⟨hp, hi⟩ hpass, gateDo_read hr hpass,
      Bool.or_false]
    rfl
  case write =>
    intro a s hw hon hin hl hdata _ hpass hp hi
    refine completes_of_exec (exec_gateAccess_mem hon hin hl) ?_
    simp only [hpass, hw, Bool.false_and, Bool.false_eq_true, if_false, if_true, gateDo_write hw hpass]
    exact performWrite_allowed ⟨hp, hi⟩ hpass hdata
  case refused =>
    intro a s hon hin _ hl hno hone hnone
    refine completes_of_exec (exec_gateAccess_mem hon hin hl) ?_
    have hdo := gateDo_refused hno hone
    have hread : gateMemRead a s = emit (.accessData ((List.range a.len).map fun _ => 0) true) (gateDo 0 a s).2.2 := by
      simp [gateMemRead, servedRead_refused hno hone, hdo]
    have began : beganFault a s (gateDo 0 a s).2.2 := by
      rw [hdo]
      exact recordFault_begins hno hnone _
    have served : beganFault a s (if a.write then (gateDo 0 a s).2.2 else gateMemRead a s) := by
      rw [hread]
      split
      · exact began
      · exact began.reporting (emit_reporting ..)
    have told (hr : a.write = false) :
        Out.accessData ((List.range a.len).map fun _ => 0) true ∈ (if a.write then (gateDo 0 a s).2.2 else gateMemRead a s).outbox := by
      rw [hr, hread]
      exact List.mem_cons_self
    split
    · refine ⟨fun hr => ?_, served.reporting (logInternal_reporting ..)⟩
      rw [logInternal_outbox]
      exact told hr
    · exact ⟨told, served⟩
  case register =>
    intro who s hopen
    refine completes_of_exec (t := { s with mbx := { s.mbx with hostMask := 0 } }) ?_ rfl
    change execGateAccess 8 _ s = _
    unfold execGateAccess
    dsimp only
    rw [if_neg (by decide), if_neg (by simp [gateOf]), if_pos (by simp [gateOf]), if_neg (by simp), if_pos rfl]
    refine congrArg _ ?_
    exact (barWrite_open hopen (fun h => absurd h (by decide))).trans rfl
  case drained =>
    intro d mask poll s h hm hno
    refine h.completes rfl ?_
    rw [gateFenceBody_drained (s := taken d (.gateFence mask poll) s) hm hno]
    exact h.ends rfl 0 []
  case poll =>
    intro d mask s h hm hyes
    refine h.completes rfl ?_
    rw [gateFenceBody_poll (s := taken d (.gateFence mask true) s) hm hyes]
    exact h.ends rfl 0x03A0 []
  case waits =>
    intro d mask s h hm hyes
    refine h.completes rfl ?_
    rw [gateFenceBody_waits (s := taken d (.gateFence mask false) s) hm hyes]
    exact ⟨rfl, List.mem_append_right _ List.mem_cons_self, rfl⟩
  case fence =>
    intro mask tk r s hf hw horg hq hatt hring
    refine completes_of_exec (t := complete tk 0 [] (s.modGates fun g => { g with draining := [], fences := [] })) ?_ ?_
    · change execGateFenceComplete s = _
      simp [execGateFenceComplete, hf, hw]
    · refine ⟨(complete_reporting ..).gates, ?_, (complete_reporting ..).keep_gates s.gates⟩
      exact complete_finishes (s := s) (u := s.modGates fun g => { g with draining := [], fences := [] }) rfl tk 0 [] horg (.inl hq) hatt r hring
  case faults =>
    intro d seq s h hd
    refine h.completes rfl ?_
    rw [gateFaultReadBody_eq]
    exact h.writes hd ((faultsFrom seq s).reverse.flatMap faultItems) [it 4 (faultsFrom seq s).length]

end Sys2Proof.Machine
end

-- The port and its registers (R6 to R9, R270 to R296)
section
/-! SUPPORT. What events leave alone, attaching and detaching, and what the writes of registers set. -/

namespace Sys2Proof.Machine

open Sys2Proof

/-! ## What events leave alone -/

/-- Only what events differ: the log, event rings and what waits for them. -/
def OnlyEvents (s t : State) : Prop :=
  t = { s with
        host := { s.host with evtProd := t.host.evtProd },
        queue := { s.queue with
          events := t.queue.events, lostUntold := t.queue.lostUntold, eventsLost := t.queue.eventsLost, seqs := t.queue.seqs,
          limiters := t.queue.limiters, pageDirty := t.queue.pageDirty, attnWritten := t.queue.attnWritten },
        mgmt := { s.mgmt with
          logSeq := t.mgmt.logSeq, logSecond := t.mgmt.logSecond, logInSecond := t.mgmt.logInSecond,
          logSuppressed := t.mgmt.logSuppressed, logPinned := t.mgmt.logPinned, logUnpinned := t.mgmt.logUnpinned },
        outbox := t.outbox }

theorem OnlyEvents.refl (s : State) : OnlyEvents s s := rfl

theorem OnlyEvents.trans {a b c : State} (h : OnlyEvents a b) (k : OnlyEvents b c) : OnlyEvents a c := by
  unfold OnlyEvents at *
  rw [k, h]

theorem OnlyEvents.foldl {α : Type} {g : State → α → State} (h : ∀ s x, OnlyEvents s (g s x)) (l : List α) (s : State) :
    OnlyEvents s (l.foldl g s) := by
  induction l generalizing s with
  | nil => exact .refl s
  | cons x t ih => exact (h s x).trans (ih (g s x))

namespace OnlyEvents

variable {s t : State} (h : OnlyEvents s t)
include h

theorem reporting : Reporting s t := by
  unfold Reporting
  rw [h]

theorem host : t.host = { s.host with evtProd := t.host.evtProd } := congrArg State.host h

theorem retained : t.queue.retained = s.queue.retained := by rw [h]

theorem evtMasks : t.queue.evtMasks = s.queue.evtMasks := by rw [h]

theorem detaching : t.queue.detaching = s.queue.detaching := by rw [h]

theorem inFlight : t.queue.inFlight = s.queue.inFlight := by rw [h]

theorem step : t.mgmt.step = s.mgmt.step := by rw [h]

theorem restarting : t.mgmt.restarting = s.mgmt.restarting := by rw [h]

theorem link : t.link = s.link := by rw [h]

end OnlyEvents

theorem logPut_onlyEvents (c v : Nat) (k : ScopeKind) (i : Nat) (l : Items) (b : Bool) (s : State) : OnlyEvents s (logPut c v k i l b s) := by
  unfold logPut
  extract_lets sec used seq r
  split
  · cases hp : r.pinned <;> simp only [keepLog, hp] <;> rfl
  · rfl

theorem logFlush_onlyEvents (s : State) : OnlyEvents s (logFlush s) := by
  unfold logFlush
  dsimp only
  split
  · exact (show OnlyEvents s (s.modMgmt fun m => { m with logSuppressed := 0 }) from rfl).trans (logPut_onlyEvents ..)
  · exact .refl s

theorem logAdd_onlyEvents (c v : Nat) (k : ScopeKind) (i : Nat) (l : Items) (b : Bool) (s : State) : OnlyEvents s (logAdd c v k i l b s) :=
  (logFlush_onlyEvents s).trans (logPut_onlyEvents ..)

theorem logEvent_onlyEvents (c : Nat) (k : ScopeKind) (i : Nat) (l : Items) (s : State) : OnlyEvents s (logEvent c k i l s) := by
  unfold logEvent
  split
  · exact logAdd_onlyEvents ..
  · exact .refl s

theorem putEvent_onlyEvents (r : Nat) (e : EventRec) (s : State) : OnlyEvents s (putEvent r e s) := rfl

theorem deliver_onlyEvents (e : EventRec) (s : State) : OnlyEvents s (deliver e s) := by
  unfold deliver loseEvent
  (repeat' split) <;> rfl

theorem raise_onlyEvents (c : Nat) (k : ScopeKind) (i : Nat) (l : Items) (s : State) (a : Bool) : OnlyEvents s (raise c k i l s a) := by
  unfold raise
  refine OnlyEvents.trans ?_ (deliver_onlyEvents ..)
  exact (show OnlyEvents s (s.modQueue fun q => { q with seqs := mapPut q.seqs (scopeKey k i) (nextSeq k i s) }) from rfl).trans
    (logEvent_onlyEvents ..)

theorem raiseMod_onlyEvents (c : Nat) (l : Items) (s : State) : OnlyEvents s (raiseMod c l s) := raise_onlyEvents ..

theorem raiseLimited_onlyEvents (p key n c : Nat) (k : ScopeKind) (i : Nat) (mk : Nat → Items) (s : State) :
    OnlyEvents s (raiseLimited p key n c k i mk s) := by
  have limits (m : Map (Nat × Nat)) : OnlyEvents s (s.modQueue fun q => { q with limiters := m }) := rfl
  unfold raiseLimited
  split
  · exact (limits _).trans (raise_onlyEvents ..)
  · split
    · exact limits _
    · exact (limits _).trans (raise_onlyEvents ..)

theorem tellLost_onlyEvents (s : State) : OnlyEvents s (tellLost s) := by
  unfold tellLost
  (repeat' split) <;> rfl

theorem drainList_onlyEvents (l : List EventRec) (blocked : List Nat) (kept : List EventRec) (s : State) :
    OnlyEvents s (drainList l blocked kept s).2 := by
  induction l generalizing blocked kept s with
  | nil => exact .refl s
  | cons e t ih =>
    unfold drainList
    split
    · exact (show OnlyEvents s (s.modQueue fun q => { q with eventsLost := q.eventsLost + 1 }) from rfl).trans (ih ..)
    · split
      · exact (putEvent_onlyEvents ..).trans (ih ..)
      · exact ih ..

theorem drainEvents_onlyEvents (s : State) : OnlyEvents s (drainEvents s) := by
  unfold drainEvents
  split
  · exact ((tellLost_onlyEvents s).trans (drainList_onlyEvents _ [] [] _)).trans rfl
  · exact .refl s

theorem attachedEvent_onlyEvents (mode n : Nat) (s : State) : OnlyEvents s (attachedEvent mode n s) := by
  unfold attachedEvent
  extract_lets e u
  have hu : OnlyEvents s u := rfl
  split
  · exact (hu.trans (show OnlyEvents u (u.modQueue fun q => { q with eventsLost := q.eventsLost + 1 }) from rfl)).trans
      (drainEvents_onlyEvents _)
  · split
    · exact (hu.trans (putEvent_onlyEvents ..)).trans (drainEvents_onlyEvents _)
    · exact hu.trans rfl

/-- While no host is attached an event leaves the port as it is. -/
theorem raise_host_detached {s : State} (h : s.host.attached = false) (c : Nat) (k : ScopeKind) (i : Nat) (l : Items) (a : Bool) :
    (raise c k i l s a).host = s.host := by
  unfold raise
  obtain ⟨f, hf⟩ : ∃ f, logEvent c k i l (s.modQueue fun q => { q with seqs := mapPut q.seqs (scopeKey k i) (nextSeq k i s) }) =
      (s.modQueue fun q => { q with seqs := mapPut q.seqs (scopeKey k i) (nextSeq k i s) }).modMgmt f := by
    unfold logEvent
    split
    · exact logAdd_eq ..
    · exact ⟨id, rfl⟩
  dsimp only
  rw [hf]
  unfold deliver loseEvent
  rw [if_neg (by simp [h])]
  split <;> rfl

/-! ## Attaching and detaching (R294, R295) -/

/-- A kept completion that is written while the host is attached. -/
theorem publish_attached (c : Completion) {s : State} (h : s.host.attached = true) :
    (publish c s).host = { s.host with cplProd := (publish c s).host.cplProd } ∧ (publish c s).queue.retained = s.queue.retained := by
  unfold publish putCompletion
  rw [if_pos h]
  split <;> exact ⟨rfl, rfl⟩

theorem publishes_attached (l : List Completion) {s : State} (h : s.host.attached = true) :
    let t := l.foldl (fun s c => publish c s) s
    t.host = { s.host with cplProd := t.host.cplProd } ∧ t.queue.retained = s.queue.retained ∧ Reporting s t := by
  induction l generalizing s with
  | nil => exact ⟨rfl, rfl, .refl s⟩
  | cons c t ih =>
    obtain ⟨hh, hr⟩ := publish_attached c h
    obtain ⟨ih1, ih2, ih3⟩ := ih (s := publish c s) (by rw [hh]; exact h)
    refine ⟨?_, ih2.trans hr, (publish_reporting ..).trans ih3⟩
    rw [List.foldl_cons, ih1, hh]

theorem detachHost_attached {s : State} (h : s.host.attached = true) (c : Nat) :
    detachHost c s = { s with
      host := { s.host with attached := false, resumable := true, detachCause := c, detachWallNs := s.time.wall } } := if_pos h

/-! ## Writes and reads of registers by the host -/

/-- What an open register of the host's does when it is written. -/
theorem barWrite_completes {i : Instr} {o : Nat} {locked : Bool} {act : State → State} {s : State} {p : State → Prop}
    (hi : exec i s = .next (barWrite hostBar o locked act s)) (h : RegOpen hostBar o true s) (hl : locked = true → s.host.run = false)
    (hp : p (act s)) : Completes i s p :=
  completes_of_exec hi (by rwa [barWrite_open h hl])

/-- REGISTER_WRITE of an open register sets it. -/
theorem registerWrite_completes {o : Nat} {v : Word32} {s : State} {p : State → Prop} (ho : o % 4 = 0) (ho' : o < 0x30000)
    (h : RegOpen hostBar o true s) (hl : runLocked o = true → s.host.run = false) (hp : p (setReg hostBar o v s)) :
    Completes (.registerWrite o v) s p := by
  refine barWrite_completes ?_ h hl hp
  change execRegisterWrite o v s = _
  simp [execRegisterWrite, ho, Nat.not_le.mpr ho']

/-- Entering a mode: what else differs but the time since LEAN is what events change. -/
theorem setMode_eq {m : ModState} {s : State} (h : s.module.mode ≠ m) :
    OnlyEvents { s with module := { s.module with mode := m },
                        cascade := { s.cascade with leanSince := if m = .lean then some s.time.mono else none } } (setMode m s) := by
  unfold setMode
  rw [if_neg h]
  exact raiseMod_onlyEvents ..

theorem OnlyEvents.mode {s t : State} (h : OnlyEvents s t) : t.module.mode = s.module.mode := by rw [h.reporting.module]

theorem OnlyEvents.run {s t : State} (h : OnlyEvents s t) : t.host.run = s.host.run := by rw [h.host]

theorem setRun_sets {v : Word32} {s : State} (hm : s.module.mode = .setup) (hr : s.host.run = false) (hv : v.getLsbD 0 = true) :
    (setRun v s).host.run = true ∧ (setRun v s).module.mode = (if s.mgmt.step = 0 then .run else .lean) := by
  have first := setMode_eq (m := .run) (s := s.modHost fun h => { h with run := true }) (by simp [hm])
  have hstep := first.step
  have hmode := first.mode
  have hrun := first.run
  unfold setRun
  rw [if_pos (by simp [hv, hm, hr])]
  dsimp only
  by_cases hs : s.mgmt.step = 0
  · rw [if_neg (by rw [hstep]; simp [hs]), if_pos hs]
    exact ⟨hrun, hmode⟩
  · have second := setMode_eq (m := .lean) (s := setMode .run (s.modHost fun h => { h with run := true })) (fun h => ModState.noConfusion (hmode.symm.trans h))
    rw [if_pos (by rw [hstep]; simp [hs]), if_neg hs]
    exact ⟨second.run.trans hrun, second.mode⟩

theorem attachFreshDo_ok {t : RingTable} {s : State} (ht : tableOk t = true) (ha : tableAddrOf s % 4096 = 0) (h0 : tableAddrOf s ≠ 0) :
    ∃ u : State, OnlyEvents { u with
        host := { u.host with
          attached := true, resumable := false, table := some t, tableAddr := tableAddrOf s, cmdProd := [], cmdCons := [], cplProd := [],
          cplCons := [], evtProd := [], evtCons := [], stoppedCmd := [], stoppedCpl := [], stoppedEvt := [] },
        queue := { u.queue with retained := [], cplDiscarded := 0, evtMasks := [], pageDirty := true } } (attachFreshDo (some t) s) := by
  refine ⟨orphanLocks hostId (agentReset 33 s), ?_⟩
  unfold attachFreshDo
  dsimp only
  rw [if_pos (by simp [ht, ha, h0])]
  exact attachedEvent_onlyEvents ..

theorem attachResumeDo_ok {s : State} (hr : s.host.resumable = true) (ha : tableAddrOf s = s.host.tableAddr) :
    ∃ u : State, u.host = { s.host with attached := true, stoppedCmd := [], stoppedCpl := [], stoppedEvt := [], cplProd := u.host.cplProd }
      ∧ u.queue.retained = [] ∧ Reporting s u ∧ OnlyEvents u (attachResumeDo s) := by
  obtain ⟨hh, hq, hrep⟩ := publishes_attached s.queue.retained
    (s := (s.modHost fun h => { h with attached := true, stoppedCmd := [], stoppedCpl := [], stoppedEvt := [] }).modQueue fun q =>
      { q with retained := [], cplDiscarded := 0, pageDirty := true }) rfl
  refine ⟨_, hh, hq, hrep, ?_⟩
  unfold attachResumeDo
  dsimp only
  rw [if_pos (by simp [hr, ha])]
  exact attachedEvent_onlyEvents ..

theorem getReg_now (who : Initiator) (s : State) :
    getReg who 0x4010 s = (BitVec.ofNat 32 s.time.wall, s.modTime fun t => { t with nowHi := highWord t.wall }) := rfl

theorem setReg_lock {lock : Nat} (h : lock < 64) (who : Initiator) (v : Word32) (s : State) :
    setReg who (0x28000 + 4 * lock) v s = (lockPut lock (initiatorId who) v.toNat s).2 := by
  have hin : (decide (0x28000 ≤ 0x28000 + 4 * lock) && decide (0x28000 + 4 * lock < 0x28100)) = true := by
    simp
    omega
  unfold setReg
  rw [if_pos hin, show (0x28000 + 4 * lock - 0x28000) / 4 = lock by omega]

/-- The doorbells that a write clears, one after another (R395). -/
theorem clearDoorbells_eq (v : Word32) (s : State) :
    clearDoorbells v s = ((List.range 32).filter fun i => v.getLsbD i).foldl (fun s i => mbxClear 33 i s) s := by
  rw [List.foldl_filter]
  rfl

theorem lockViolation_facts (o : Nat) (s : State) :
    (lockViolation o s).host.lockViolations = (s.host.lockViolations + 1) % 4294967296
      ∧ (lockViolation o s).host.lastViolation = o % 1048576 ∧ Reporting s (lockViolation o s) := by
  have told := raiseLimited_onlyEvents second (limKey 0x0084 0 0) 1 0x0084 .port 16 (fun n => [it 4 o, it 4 n])
    (s.modHost fun h => { h with lockViolations := (h.lockViolations + 1) % 4294967296, lastViolation := o % 1048576 })
  unfold lockViolation
  rw [told.host]
  exact ⟨rfl, rfl, (show Reporting s (s.modHost _) from rfl).trans told.reporting⟩

/-- Settles O4: each register with an action does it where its gate passes. -/
theorem hostRegistersComplete : Obligations.HostRegistersComplete := by
  unfold Obligations.HostRegistersComplete
  refine ⟨?run, ?fresh, ?resume, ?detach, ?bad, ?now, ?lock, ?doorbell⟩
  case run =>
    intro v s h hm hr hv
    exact barWrite_completes rfl h (fun _ => hr) (setRun_sets hm hr hv)
  case fresh =>
    intro table s h hno ht ha h0
    refine barWrite_completes rfl h (fun k => absurd k (by decide)) ?_
    rw [if_neg (by simp [hno])]
    obtain ⟨u, hu⟩ := attachFreshDo_ok ht ha h0
    rw [hu.host, hu.retained]
    exact ⟨rfl, rfl, rfl, rfl, rfl, rfl, rfl, rfl, rfl, rfl⟩
  case resume =>
    intro s h hno hr ha
    refine barWrite_completes rfl h (fun k => absurd k (by decide)) ?_
    have hset : setAttach 2 s = attachResumeDo s := by
      unfold setAttach
      rw [if_pos (by decide), if_neg (by simp [hno])]
    rw [hset]
    obtain ⟨u, hh, hq, hrep, hu⟩ := attachResumeDo_ok hr ha
    rw [hu.host, hu.retained, hh]
    exact ⟨rfl, rfl, rfl, rfl, hq, hrep.trans hu.reporting⟩
  case detach =>
    intro s h hatt
    refine barWrite_completes rfl h (fun k => absurd k (by decide)) ?_
    exact (show setAttach 3 s = detachHost 6 s from rfl).trans (detachHost_attached hatt 6)
  case bad =>
    intro write s hup
    have hreads : bar0Reads s = true ∧ s.module.mode ≠ .starting := by
      unfold bar0Up at hup
      unfold bar0Reads
      revert hup
      cases s.module.mode <;> simp
    refine completes_of_exec (t := if write then badAccess s else emit (.readData 0) (badAccess s)) ?_ ?_
    · change execBadAccess write s = _
      simp [execBadAccess, misAccess, hreads.1, hreads.2]
    · cases write <;> exact ⟨rfl, rfl, rfl⟩
  case now =>
    intro s h
    refine completes_of_exec (t := barRead hostBar 0x4010 (getReg hostBar 0x4010) s) rfl ?_
    rw [barRead_open h, getReg_now]
    rfl
  case lock =>
    intro lock who s hl h hhold
    refine completes_of_exec (t := s.modMbx fun m => { m with locks := mapDel m.locks lock }) ?_ ⟨mapGet_mapDel_self .., rfl⟩
    change execLockWrite lock who 0 s = _
    unfold execLockWrite
    rw [if_pos hl, barWrite_open h (fun k => absurd k (by decide)), setReg_lock hl]
    exact congrArg (fun r : Bool × State => Host.Outcome.next r.2) (lockPut_freed hhold)
  case doorbell =>
    intro v s h
    refine barWrite_completes rfl h (fun k => absurd k (by decide)) ?_
    intro i hi
    rw [clearDoorbells_eq]
    refine (mapGet_mbxClears ..).trans ?_
    simp [slotKey, hi]

/-! ## Registers with fields -/

/-- The encoding of DRAMC.MAP tells its fields apart. -/
theorem map_word_injective {s t : State} (h : dramcReg 0x10000 s = dramcReg 0x10000 t) :
    (s.mem.mapFixed, s.mem.hashEn, s.mem.grainLog2) = (t.mem.mapFixed, t.mem.hashEn, t.mem.grainLog2) := by
  simp only [dramcReg] at h
  cases hs1 : s.mem.mapFixed <;> cases hs2 : s.mem.hashEn <;> cases ht1 : t.mem.mapFixed <;> cases ht2 : t.mem.hashEn <;>
    simp [hs1, hs2, ht1, ht2, flag] at h ⊢ <;> omega

theorem setMap_sets {v : Word32} {s : State} (hm : s.module.mode = .setup) (hr : noRegion s = true) :
    let t := setMap v s
    t.mem.mapFixed = v.getLsbD 0 ∧ t.mem.hashEn = v.getLsbD 1 ∧ t.mem.grainLog2 = v.toNat / 256 % 16 ∧ t.mem.mapRefused = false
      ∧ ((t.mem.mapFixed, t.mem.hashEn, t.mem.grainLog2) ≠ (s.mem.mapFixed, s.mem.hashEn, s.mem.grainLog2) →
        t.mem.cells = [] ∧ t.mem.epoch = s.mem.epoch + 1 ∧ t.mem.scrubPos = 0) := by
  unfold setMap
  rw [if_pos (by simp [hm, hr])]
  dsimp only
  split
  · next hsame => exact ⟨rfl, rfl, rfl, rfl, fun hne => absurd (map_word_injective hsame) hne⟩
  · exact ⟨rfl, rfl, rfl, rfl, fun _ => ⟨rfl, rfl, rfl⟩⟩

/-- Settles O5: a register write sets the fields of its register, or is counted by the run lock. -/
theorem registerWritesSetFields : Obligations.RegisterWritesSetFields := by
  unfold Obligations.RegisterWritesSetFields
  refine ⟨?map, ?poll, ?table, ?watchdog, ?debug, ?threshold, ?select, ?mask, ?locked⟩
  case map =>
    intro v s h hr hm hno
    exact barWrite_completes rfl h (fun _ => hr) (setMap_sets hm hno)
  case poll =>
    intro v s h hr
    exact registerWrite_completes (by decide) (by decide) h (fun _ => hr) rfl
  case table =>
    intro v s h
    exact registerWrite_completes (by decide) (by decide) h (fun k => absurd k (by decide)) rfl
  case watchdog =>
    intro v s h hr
    refine registerWrite_completes (by decide) (by decide) h (fun _ => hr) ?_
    show s.modMgmt (fun m => { m with wdtMs := v.toNat / 2 ^ 0 % 2 ^ 16 }) = _
    rw [pow_zero, Nat.div_one]
    rfl
  case debug =>
    intro v s h hr
    exact registerWrite_completes (by decide) (by decide) h (fun _ => hr) rfl
  case threshold =>
    intro v s h hr
    refine registerWrite_completes (by decide) (by decide) h (fun _ => hr) ?_
    show s.modTime (fun t => { t with lockThresh := v.toNat / 2 ^ 0 % 2 ^ 16 }) = _
    rw [pow_zero, Nat.div_one]
    rfl
  case select =>
    intro v s h
    refine registerWrite_completes (by decide) (by decide) h (fun k => absurd k (by decide)) ?_
    show s.modLink (fun l => { l with cntSel := v.toNat / 2 ^ 0 % 2 ^ 5 }) = _
    rw [pow_zero, Nat.div_one]
    rfl
  case mask =>
    intro v s h
    exact registerWrite_completes (by decide) (by decide) h (fun k => absurd k (by decide)) rfl
  case locked =>
    intro o v s ho ho' hl hup hdead hr
    refine completes_of_exec (t := lockViolation o s) ?_ ?_
    · change execRegisterWrite o v s = _
      simp [execRegisterWrite, ho, Nat.not_le.mpr ho', barWrite, hup, hdead, hl, hr]
    · obtain ⟨hcount, hlast, hrep⟩ := lockViolation_facts o s
      exact ⟨hcount, hlast.trans (Nat.mod_eq_of_lt (by omega)), hrep⟩

/-! ## The port's own events (R270, R278 to R296) -/

/-- Settles O6: each event detaches with its cause, or changes the pages and rings alone. -/
theorem hostPortEventsComplete : Obligations.HostPortEventsComplete := by
  unfold Obligations.HostPortEventsComplete
  refine ⟨?perst, ?reset, ?d3hot, ?master, ?down, ?up, ?doorbell, ?page, ?pulse, ?drain⟩
  case perst =>
    intro s h
    exact completes_of_exec rfl (detachHost_attached (s := s.modHost fun h => { h with linkSpeed := 0, linkWidth := 0 }) h 2)
  case reset =>
    intro s h
    exact completes_of_exec rfl (detachHost_attached h 2)
  case d3hot =>
    intro s h
    exact completes_of_exec rfl (detachHost_attached h 3)
  case master =>
    intro s h
    exact completes_of_exec rfl (detachHost_attached h 4)
  case down =>
    intro speed width s hup h
    have gone := detachHost_attached (s := s.modHost fun h => { h with linkSpeed := 0, linkWidth := 0 }) h 1
    refine completes_of_exec (t := raise 0x0083 .port 16 [it 1 0, it 1 0]
      (detachHost 1 (s.modHost fun h => { h with linkSpeed := 0, linkWidth := 0 }))) ?_ ?_
    · change execHostLink false speed width s = _
      simp [execHostLink, hup]
    · have ports : Reporting s (detachHost 1 (s.modHost fun h => { h with linkSpeed := 0, linkWidth := 0 })) := by
        rw [gone]
        rfl
      refine ⟨?_, ports.trans (raise_reporting ..)⟩
      rw [gone]
      exact raise_host_detached rfl ..
  case up =>
    intro speed width s hup h
    refine completes_of_exec (t := raise 0x0083 .port 16 [it 1 speed, it 1 width]
      (s.modHost fun h => { h with linkSpeed := speed, linkWidth := width })) ?_ ?_
    · change execHostLink true speed width s = _
      simp [execHostLink, hup]
    · exact ⟨raise_host_detached (s := s.modHost fun h => { h with linkSpeed := speed, linkWidth := width }) h .., (show Reporting s (s.modHost _) from rfl).trans (raise_reporting ..)⟩
  case doorbell =>
    intro v s hatt hready hstop hnear hring
    obtain ⟨e, he⟩ := Option.isSome_iff_exists.1 hring
    refine completes_of_exec (t := s.modHost fun h => { h with cmdProd := mapPut h.cmdProd 0 (idx32 v) }) ?_ ⟨mapGet_mapPut_self .., rfl⟩
    change execDoorbellPoll [v] [] [] true s = _
    simp only [execDoorbellPoll, hatt, hready, Bool.not_false, Bool.and_self, if_true, List.take_nil, seeAll, List.take_succ_cons, seeCmdProd, he,
      hstop, Bool.false_eq_true, if_false, Nat.not_lt.mpr (hnear e he)]
  case page =>
    intro s hatt
    exact ⟨_, congrArg Host.Outcome.next (if_pos hatt), rfl, rfl, rfl, rfl, rfl⟩
  case pulse =>
    intro s hatt hready hen hpub hgap
    refine completes_of_exec (t := emit .attentionPulse (s.modQueue fun q =>
      { q with attnPublished := false, lastPulseNs := some s.time.mono })) ?_ ⟨rfl, rfl, rfl, rfl, rfl⟩
    change execAttentionPulse s = _
    unfold execAttentionPulse
    cases hlast : s.queue.lastPulseNs with
    | none => simp [hatt, hready, hen, hpub]
    | some p =>
      have spaced := hgap p hlast
      simp only [hatt, hready, hen, hpub, decide_eq_true spaced, Bool.not_false, Bool.and_self, if_true]
  case drain =>
    intro e r s hatt hrun hlost hev hring hroom
    refine completes_of_exec (t := (putEvent r e s).modQueue fun q => { q with events := [] }) ?_
      ⟨rfl, ⟨_, _, _, _, rfl⟩, mapGet_mapPut_self .., rfl⟩
    change execEventQueueDrain s = _
    simp [execEventQueueDrain, drainEvents, hatt, hrun, tellLost, hlost, hev, drainList, hring, hroom, ringClear]

end Sys2Proof.Machine
end

-- Ring control, forwarding and the pair's restart (R281 to R293, R343, R403)
section
/-! SUPPORT. What completing a command leaves of the port, its queue and the management pair; forwarded commands; and the end of a restart
of the pair. -/

namespace Sys2Proof.Machine

open Sys2Proof

/-! ## The management pair's own part -/

/-- The state of the management pair without the log and without what a fault sets. -/
def State.duty (s : State) : MgmtSt :=
  { s.mgmt with
    logSeq := 0, logSecond := 0, logInSecond := 0, logSuppressed := 0, logPinned := [], logUnpinned := [], faultCause := 0, testFloor := none,
    vcoreRemoved := false }

theorem OnlyEvents.duty {s t : State} (h : OnlyEvents s t) : t.duty = s.duty := by
  unfold State.duty
  rw [h]

theorem duty_foldl {α : Type} {g : State → α → State} (h : ∀ s x, (g s x).duty = s.duty) (l : List α) (s : State) :
    (l.foldl g s).duty = s.duty := by
  induction l generalizing s with
  | nil => rfl
  | cons a l ih => rw [List.foldl_cons, ih, h]

@[simp] theorem emit_duty (o : Out) (s : State) : (emit o s).duty = s.duty := rfl

@[simp] theorem State.modModule_duty (s : State) (f : ModuleSt → ModuleSt) : (s.modModule f).duty = s.duty := rfl
@[simp] theorem State.modHost_duty (s : State) (f : HostSt → HostSt) : (s.modHost f).duty = s.duty := rfl
@[simp] theorem State.modQueue_duty (s : State) (f : QueueSt → QueueSt) : (s.modQueue f).duty = s.duty := rfl
@[simp] theorem State.modPower_duty (s : State) (f : PowerSt → PowerSt) : (s.modPower f).duty = s.duty := rfl
@[simp] theorem State.modUpdate_duty (s : State) (f : UpdateSt → UpdateSt) : (s.modUpdate f).duty = s.duty := rfl
@[simp] theorem State.modTime_duty (s : State) (f : TimeSt → TimeSt) : (s.modTime f).duty = s.duty := rfl
@[simp] theorem State.modIngest_duty (s : State) (f : IngestSt → IngestSt) : (s.modIngest f).duty = s.duty := rfl
@[simp] theorem State.modDecode_duty (s : State) (f : DecodeSt → DecodeSt) : (s.modDecode f).duty = s.duty := rfl
@[simp] theorem State.modLedger_duty (s : State) (f : LedgerSt → LedgerSt) : (s.modLedger f).duty = s.duty := rfl
@[simp] theorem State.modScene_duty (s : State) (f : SceneSt → SceneSt) : (s.modScene f).duty = s.duty := rfl
@[simp] theorem State.modCompose_duty (s : State) (f : ComposeSt → ComposeSt) : (s.modCompose f).duty = s.duty := rfl
@[simp] theorem State.modTs_duty (s : State) (f : TsSt → TsSt) : (s.modTs f).duty = s.duty := rfl
@[simp] theorem State.modRecord_duty (s : State) (f : RecordSt → RecordSt) : (s.modRecord f).duty = s.duty := rfl
@[simp] theorem State.modOverlay_duty (s : State) (f : OverlaySt → OverlaySt) : (s.modOverlay f).duty = s.duty := rfl
@[simp] theorem State.modTxn_duty (s : State) (f : TxnSt → TxnSt) : (s.modTxn f).duty = s.duty := rfl
@[simp] theorem State.modLink_duty (s : State) (f : LinkSt → LinkSt) : (s.modLink f).duty = s.duty := rfl
@[simp] theorem State.modCascade_duty (s : State) (f : CascadeSt → CascadeSt) : (s.modCascade f).duty = s.duty := rfl
@[simp] theorem State.modMem_duty (s : State) (f : MemSt → MemSt) : (s.modMem f).duty = s.duty := rfl
@[simp] theorem State.modGates_duty (s : State) (f : GateSt → GateSt) : (s.modGates f).duty = s.duty := rfl
@[simp] theorem State.modMbx_duty (s : State) (f : MbxSt → MbxSt) : (s.modMbx f).duty = s.duty := rfl

@[simp] theorem logAdd_duty (c v : Nat) (k : ScopeKind) (i : Nat) (l : Items) (b : Bool) (s : State) : (logAdd c v k i l b s).duty = s.duty :=
  (logAdd_onlyEvents ..).duty

@[simp] theorem raise_duty (c : Nat) (k : ScopeKind) (i : Nat) (l : Items) (s : State) (a : Bool) : (raise c k i l s a).duty = s.duty :=
  (raise_onlyEvents ..).duty

@[simp] theorem raiseMod_duty (c : Nat) (l : Items) (s : State) : (raiseMod c l s).duty = s.duty := (raiseMod_onlyEvents ..).duty

@[simp] theorem raiseLimited_duty (p key n c : Nat) (k : ScopeKind) (i : Nat) (mk : Nat → Items) (s : State) :
    (raiseLimited p key n c k i mk s).duty = s.duty := (raiseLimited_onlyEvents ..).duty

@[simp] theorem putCompletion_duty (ring : Nat) (c : Completion) (s : State) : (putCompletion ring c s).duty = s.duty := by rfl

@[simp] theorem publish_duty (c : Completion) (s : State) : (publish c s).duty = s.duty := by
  unfold publish
  (repeat' split) <;> simp

@[simp] theorem detachHost_duty (cause : Nat) (s : State) : (detachHost cause s).duty = s.duty := by
  unfold detachHost
  split <;> simp

@[simp] theorem settleDetach_duty (s : State) : (settleDetach s).duty = s.duty := by
  unfold settleDetach
  (repeat' split) <;> simp

@[simp] theorem leaveFlight_duty (tk : Ticket) (s : State) : (leaveFlight tk s).duty = s.duty := by rfl

@[simp] theorem completeAs_duty (tk : Ticket) (status pos : Nat) (forwarded : Bool) (result : Items) (s : State) :
    (completeAs tk status pos forwarded result s).duty = s.duty := by
  unfold completeAs
  (repeat' split) <;> simp

@[simp] theorem complete_duty (tk : Ticket) (status : Nat) (result : Items) (s : State) :
    (complete tk status result s).duty = s.duty := by simp [complete]

@[simp] theorem hostOut_duty (tk : Ticket) (off : Nat) (l : List Byte) (s : State) : (hostOut tk off l s).duty = s.duty := by
  unfold hostOut
  split <;> simp

@[simp] theorem completeRecord_duty (tk : Ticket) (n : Nat) (data result : Items) (s : State) :
    (completeRecord tk n data result s).duty = s.duty := by
  unfold completeRecord
  split <;> simp

@[simp] theorem setMode_duty (m : ModState) (s : State) : (setMode m s).duty = s.duty := by
  unfold setMode
  split <;> simp

@[simp] theorem freePart_duty (s : State) : (freePart s).duty = s.duty := by rfl

@[simp] theorem txnOwnFault_duty (s : State) : (txnOwnFault s).duty = s.duty := by
  unfold txnOwnFault
  (repeat' split) <;> simp

@[simp] theorem modLane_duty (k : Nat) (f : LaneRt → LaneRt) (s : State) : (modLane k f s).duty = s.duty := by rfl

@[simp] theorem modBond_duty (b : Bond) (f : BondRt → BondRt) (s : State) : (modBond b f s).duty = s.duty := by rfl

@[simp] theorem afterLane_duty (k before : Nat) (lane : Option Nat) (s : State) : (afterLane k before lane s).duty = s.duty := by
  unfold afterLane
  dsimp only
  (repeat' split) <;> simp

@[simp] theorem setLane_duty (k new cause : Nat) (s : State) : (setLane k new cause s).duty = s.duty := by
  unfold setLane
  dsimp only
  (repeat' split) <;> simp

@[simp] theorem lanesSleep_duty (twin : Bool) (s : State) : (lanesSleep twin s).duty = s.duty := by
  simp [lanesSleep, apply_ite State.duty, duty_foldl]

@[simp] theorem endForwards_duty (p : Ticket → Nat → Bool) (status : Nat) (s : State) : (endForwards p status s).duty = s.duty := by
  unfold endForwards
  dsimp only
  simp [duty_foldl]

@[simp] theorem headstockEvent_duty (taken : Bool) (cause old : Nat) (s : State) :
    (headstockEvent taken cause old s).duty = s.duty := by simp [headstockEvent]

@[simp] theorem giveHeadstock_duty (cause : Nat) (s : State) : (giveHeadstock cause s).duty = s.duty := by simp [giveHeadstock]

@[simp] theorem checkHeadstock_duty (cause : Nat) (s : State) : (checkHeadstock cause s).duty = s.duty := by
  unfold checkHeadstock
  split <;> simp

@[simp] theorem roleEvent_duty (old new : Role) (cause : Nat) (s : State) : (roleEvent old new cause s).duty = s.duty := by simp [roleEvent]

@[simp] theorem endSwap_duty (status : Nat) (s : State) : (endSwap status s).duty = s.duty := by
  unfold endSwap
  (repeat' split) <;> simp

@[simp] theorem setRole_duty (new : Role) (cause : Nat) (s : State) : (setRole new cause s).duty = s.duty := by
  unfold setRole
  dsimp only
  (repeat' split) <;> simp

@[simp] theorem removeCore_duty (s : State) : (removeCore s).duty = s.duty := by
  simp only [removeCore, lanesSleep_duty]
  rfl

@[simp] theorem enterFault_duty (cause detail : Nat) (s : State) : (enterFault cause detail s).duty = s.duty := by
  unfold enterFault
  split
  · rfl
  · extract_lets u v w x y
    have hx : x.duty = s.duty := by
      simp only [x, w, v, txnOwnFault_duty, checkHeadstock_duty, setRole_duty, setMode_duty]
      rfl
    have hy : y.duty = x.duty := by
      show (if _ then _ else _ : State).duty = _
      split
      · exact removeCore_duty x
      · rfl
    rw [raiseMod_duty, hy, hx]

@[simp] theorem bankFailed_duty (s : State) : (bankFailed s).duty = s.duty := by simp [bankFailed]
/-! ## What completing a command leaves alone -/

/-- Only what completions change of the port and its queue differs. -/
def OnlyCompletion (s t : State) : Prop :=
  t.host = { s.host with
      cplProd := t.host.cplProd, resumable := t.host.resumable, attached := t.host.attached, detachCause := t.host.detachCause,
      detachWallNs := t.host.detachWallNs }
    ∧ t.queue = { s.queue with
      inFlight := t.queue.inFlight, retained := t.queue.retained, cplDiscarded := t.queue.cplDiscarded, pageDirty := t.queue.pageDirty,
      attnWritten := t.queue.attnWritten, detaching := t.queue.detaching }

theorem OnlyCompletion.trans {a b c : State} (h : OnlyCompletion a b) (k : OnlyCompletion b c) : OnlyCompletion a c := by
  obtain ⟨hh, hq⟩ := h
  obtain ⟨kh, kq⟩ := k
  exact ⟨by rw [kh, hh], by rw [kq, hq]⟩

theorem publish_onlyCompletion (c : Completion) (s : State) : OnlyCompletion s (publish c s) := by
  unfold publish putCompletion
  (repeat' split) <;> exact ⟨rfl, rfl⟩

theorem detachHost_onlyCompletion (c : Nat) (s : State) : OnlyCompletion s (detachHost c s) := by
  unfold detachHost
  split <;> exact ⟨rfl, rfl⟩

theorem settleDetach_onlyCompletion (s : State) : OnlyCompletion s (settleDetach s) := by
  have set (l : List Ticket) : OnlyCompletion s (s.modQueue fun q => { q with inFlight := l, detaching := none }) := ⟨rfl, rfl⟩
  have told (l : List Ticket) (q : Bool) (c : Completion) :
      OnlyCompletion s (if q then s.modQueue fun x => { x with inFlight := l, detaching := none }
        else publish c (s.modQueue fun x => { x with inFlight := l, detaching := none })) := by
    cases q
    · exact (set l).trans (publish_onlyCompletion ..)
    · exact set l
  unfold settleDetach
  split
  · split
    · exact (told ..).trans (detachHost_onlyCompletion ..)
    · exact ⟨rfl, rfl⟩
  · exact ⟨rfl, rfl⟩

theorem completeAs_onlyCompletion (tk : Ticket) (st pos : Nat) (f : Bool) (l : Items) (s : State) :
    OnlyCompletion s (completeAs tk st pos f l s) := by
  have left : OnlyCompletion s (leaveFlight tk s) := ⟨rfl, rfl⟩
  unfold completeAs
  dsimp only
  split
  · exact left.trans ⟨rfl, rfl⟩
  · refine OnlyCompletion.trans ?_ (settleDetach_onlyCompletion _)
    split
    · exact left
    · exact left.trans (publish_onlyCompletion ..)

/-- While no detach waits, a command that completes leaves those in flight, and no other does. -/
theorem settleDetach_none {s : State} (h : s.queue.detaching = none) : settleDetach s = s := by
  unfold settleDetach
  rw [h]

theorem publish_queue (c : Completion) (s : State) :
    (publish c s).queue.detaching = s.queue.detaching ∧ (publish c s).queue.inFlight = s.queue.inFlight := by
  unfold publish putCompletion
  (repeat' split) <;> exact ⟨rfl, rfl⟩

theorem completeAs_inFlight {s : State} (h : s.queue.detaching = none) (tk : Ticket) (st pos : Nat) (f : Bool) (l : Items) :
    (completeAs tk st pos f l s).queue.inFlight = s.queue.inFlight.filter fun x => !sameTicket x tk := by
  unfold completeAs
  dsimp only
  split
  · rfl
  · rw [settleDetach_none]
    · split
      · rfl
      · exact (publish_queue ..).2
    · split
      · exact h
      · exact (publish_queue ..).1.trans h

/-- A command of this module's rings, completed for a position, puts its record among the outputs (R284). -/
theorem completeAs_published {tk : Ticket} {st r : Nat} {s : State} (horg : tk.origin = none) (hq : tk.quiet = false ∨ st ≠ 0)
    (hatt : s.host.attached = true) (hr : cplRingOf s tk.ring = some r) (pos : Nat) (f : Bool) (l : Items) :
    Published r { ticket := tk, status := st, position := pos, forwarded := f, result := resultOf tk st l } (completeAs tk st pos f l s) := by
  have hsilent : (tk.quiet && decide (st = 0)) = false := by
    rcases hq with h | h <;> simp [h]
  have hatt' : (leaveFlight tk s).host.attached = true := hatt
  have hring : cplRingOf (leaveFlight tk s) tk.ring = some r := hr
  have heq : completeAs tk st pos f l s = settleDetach (putCompletion r
      { ticket := tk, status := st, position := pos, forwarded := f, result := resultOf tk st l } (leaveFlight tk s)) := by
    unfold completeAs
    simp [horg, hsilent, publish, hatt', hring]
  rw [heq]
  exact ⟨_, _, (settleDetach_adds _).mem List.mem_cons_self⟩

/-- A forwarded command answers over the ring (R343). -/
theorem completeAs_forwarded {tk : Ticket} {org tag : Nat} (horg : tk.origin = some (org, tag)) (st pos : Nat) (f : Bool) (l : Items)
    (s : State) :
    completeAs tk st pos f l s = emit (.message (headstockBond s) .control "FORWARD_RESULT"
      ([(org : Int), tag, st, pos] ++ (resultOf tk st l).map Prod.snd)) (leaveFlight tk s) := by
  unfold completeAs
  rw [horg]
  rfl

/-! ## Ring-control commands (R292) -/

theorem eventRouteBody_ok {ring sub att : Nat} {s : State} (hr : ring < evtCount s) (hs : sub < 0x8000) (ha : att < 0x10000) (tk : Ticket) :
    eventRouteBody ring sub att tk s = complete tk 0 [] (s.modQueue fun q => { q with evtMasks := mapPut q.evtMasks ring (sub, att) }) := by
  have hbit : bit sub 15 = false := Nat.testBit_lt_two_pow hs
  have h1 : ¬ 65535 < sub := by omega
  have h2 : ¬ 65535 < att := by omega
  simp [eventRouteBody, Nat.not_le.mpr hr, hbit, h1, h2]

theorem sameTicket_self (tk : Ticket) : sameTicket tk tk = true := by simp [sameTicket]

/-- A detach with no other command in flight: the command reports, and the host is detached (R292). -/
theorem hostDetachBody_ok {tk : Ticket} {s : State} (h : s.queue.inFlight = [tk]) :
    hostDetachBody tk s = detachHost 6
      (if tk.quiet then s.modQueue fun q => { q with inFlight := [], detaching := none }
       else publish { ticket := tk, status := 0, position := position s, forwarded := false, result := [] }
        (s.modQueue fun q => { q with inFlight := [], detaching := none })) := by
  unfold hostDetachBody settleDetach
  simp only [State.modQueue_queue, h, sameTicket_self, if_true]
  rfl

theorem publish_host_attached (c : Completion) {s : State} (h : s.host.attached = true) :
    (publish c s).host.attached = true ∧ (publish c s).time = s.time := by
  rw [(publish_attached c h).1, (publish_reporting ..).time]
  exact ⟨h, rfl⟩

/-! ## Results of forwarded commands (R343) -/

theorem forwardedDone_plain {tk : Ticket} (hk : tk.kind ≠ 0) (pos st : Nat) (s : State) :
    forwardedDone tk pos st [] [] s = completeAs tk st pos true [] s := by simp [forwardedDone, hk]

/-! ## The end of a restart (R403) -/

/-- The pair serves again, with nothing waiting. -/
theorem pairStarted_duty (b : BootFacts) (s : State) :
    (pairStarted b s).duty = { s.duty with restarting := false, pairStartNs := some s.time.mono } := by
  unfold pairStarted
  extract_lets now u
  have hu : u.duty = { s.duty with restarting := false, pairStartNs := some s.time.mono } :=
    (logAdd_duty 0x0B84 0 .module (position s) [] false (s.modMgmt fun m => { m with restarting := false, pairStartNs := some now })).trans rfl
  split
  · split
    · exact hu
    · rw [bankFailed_duty, hu]
  · rw [enterFault_duty, bankFailed_duty, hu]

/-- Whether a bank boots is a question of what is stored alone. -/
theorem bankBoots_congr {s t : State} (h : t.update = s.update) (b : BootFacts) (n : Nat) : bankBoots t b n = bankBoots s b n := by
  unfold bankBoots bankStored headerFault
  rw [h]

/-- Where the preferred bank boots, the pair's start is an entry of the log and no more (R417). -/
theorem pairStarted_boots {b : BootFacts} {s : State} (h : bankBoots s b s.update.bootPointer = true) :
    pairStarted b s = logAdd 0x0B84 0 .module (position s) [] false
      (s.modMgmt fun m => { m with restarting := false, pairStartNs := some s.time.mono }) := by
  unfold pairStarted
  extract_lets now u
  have hu : OnlyEvents (s.modMgmt fun m => { m with restarting := false, pairStartNs := some now }) u := logAdd_onlyEvents ..
  have hupd : u.update = s.update := hu.reporting.update.trans rfl
  have hmod : u.module = s.module := hu.reporting.module.trans rfl
  have hboots : bankBoots u b u.update.bootPointer = true := by
    rw [hupd, ← h]
    exact bankBoots_congr hupd ..
  have hchosen : bankChosen u (bankBoots u b) = some u.update.bootPointer := by
    unfold bankChosen
    dsimp only
    rw [if_pos hboots]
  rw [hchosen]
  dsimp only
  rw [if_pos rfl]

/-- With the preferred bank booting, the start of the pair changes its own part, the log and nothing else. -/
theorem pairStarted_boots_frame {b : BootFacts} {s : State} (h : bankBoots s b s.update.bootPointer = true) :
    OnlyEvents (s.modMgmt fun m => { m with restarting := false, pairStartNs := some s.time.mono }) (pairStarted b s) := by
  rw [pairStarted_boots h]
  exact logAdd_onlyEvents ..

theorem Reporting.keep_free {s t : State} (h : Reporting s t) (n : Nat) : Reporting { s with free := n } { t with free := n } := by
  unfold Reporting
  rw [h]

/-- A record of the log takes the next sequence number where its second has room (R416, R418). -/
theorem logAdd_seq {s : State} (hn : s.mgmt.logInSecond = 0) (hs : s.mgmt.logSuppressed = 0) (c v : Nat) (k : ScopeKind) (i : Nat) (l : Items)
    (b : Bool) : (logAdd c v k i l b s).mgmt.logSeq = (s.mgmt.logSeq + 1) % 4294967296 := by
  have flush : logFlush s = s := by simp [logFlush, hs]
  unfold logAdd
  rw [flush]
  unfold logPut
  extract_lets sec used seq r
  have hused : used < Config.logPerSecond := by
    simp only [used, hn, ite_self]
    decide
  rw [if_pos hused]
  simp only [State.modMgmt_mgmt, keepLog]
  split <;> rfl

/-- The state in which a restart of the pair ends. -/
def restartEnds (s : State) : State := (draw s).2.modMgmt fun m => { m with waiting := [] }

theorem exec_restartComplete {s : State} (h : s.mgmt.restarting = true) :
    exec .managementRestartComplete s = .next (drainEvents (s.mgmt.waiting.foldl (fun s p => runHere p.1 p.2 (runCmd p.2) s)
      (pairStarted (Config.restartFacts s.free) (restartEnds s)))) := by
  change execManagementRestartComplete s = _
  unfold execManagementRestartComplete
  rw [if_pos h]
  rfl

theorem hostOut_host (tk : Ticket) (o : Nat) (l : List Byte) (s : State) : (hostOut tk o l s).host = s.host := by
  unfold hostOut
  split <;> rfl

theorem cplRingOf_hostOut (tk : Ticket) (o : Nat) (l : List Byte) (s : State) (r : Nat) : cplRingOf (hostOut tk o l s) r = cplRingOf s r := by
  unfold cplRingOf cmdEntry
  rw [hostOut_host]

theorem drainList_adds (l : List EventRec) (blocked : List Nat) (kept : List EventRec) (s : State) :
    Adds s (drainList l blocked kept s).2 := by
  induction l generalizing blocked kept s with
  | nil => exact .refl s
  | cons e t ih =>
    unfold drainList
    split
    · exact (show Adds s (s.modQueue fun q => { q with eventsLost := q.eventsLost + 1 }) from .refl s).trans (ih ..)
    · split
      · exact (show Adds s (putEvent _ e s) from ⟨[_], rfl⟩).trans (ih ..)
      · exact ih ..

theorem tellLost_adds (s : State) : Adds s (tellLost s) := by
  unfold tellLost
  split
  · exact .refl s
  · split
    · exact .refl s
    · split
      · exact ⟨[_], rfl⟩
      · exact .refl s

theorem drainEvents_adds (s : State) : Adds s (drainEvents s) := by
  unfold drainEvents
  split
  · exact (tellLost_adds s).trans (drainList_adds _ [] [] _)
  · exact .refl s

/-- A command that waited is served as any other (R403). -/
theorem runHere_served {tk : Ticket} {c : HostCmd} {s : State} (hs : stateServes (cmdKind c) s = true) (hr : s.mgmt.restarting = false)
    (body : Ticket → State → State) : runHere tk c body s = body tk s := by simp [runHere, hs, hr]

theorem runHere_mgmtStatus_duty (tk : Ticket) {s : State} (hr : s.mgmt.restarting = false) :
    (runHere tk .mgmtStatus mgmtStatusBody s).duty = s.duty := by
  unfold runHere
  split
  · exact complete_duty ..
  · rw [if_neg (by simp [hr])]
    exact completeRecord_duty ..

/-- Settles O3: each ring-control command has its one effect, and what completes a command leaves the rest of the queue alone. -/
theorem ringCommandsComplete : Obligations.RingCommandsComplete := by
  unfold Obligations.RingCommandsComplete
  refine ⟨?nop, ?route, ?detach, ?reject, ?forwarded, ?queueFull, ?result, ?timeout, ?restart, ?served⟩
  case nop =>
    intro d s h ht
    have hbody : nopBody (d.target != 0xFF) = fun tk s => complete tk 0 [] s := by
      funext tk u
      simp [nopBody, ht]
    refine h.completes (i := .nop d) rfl ?_
    rw [hbody]
    exact h.ends rfl 0 []
  case route =>
    intro d ring sub att s h hr hs ha
    refine h.completes rfl ?_
    rw [eventRouteBody_ok (s := taken d (.eventRoute ring sub att) s) hr hs ha]
    obtain ⟨hrep, hfr⟩ := h.ends (u := (taken d (.eventRoute ring sub att) s).modQueue fun q =>
      { q with evtMasks := mapPut q.evtMasks ring (sub, att) }) rfl 0 []
    refine ⟨?_, hrep, Reporting.trans (b := (taken d (.eventRoute ring sub att) s).modQueue fun q =>
      { q with evtMasks := mapPut q.evtMasks ring (sub, att) }) rfl hfr⟩
    unfold evtMasks
    rw [show (complete _ 0 [] ((taken d (.eventRoute ring sub att) s).modQueue fun q =>
      { q with evtMasks := mapPut q.evtMasks ring (sub, att) })).queue.evtMasks = mapPut s.queue.evtMasks ring (sub, att) from
        congrArg QueueSt.evtMasks (completeAs_onlyCompletion ..).2, mapGet_mapPut_self]
  case detach =>
    intro d s h hnone
    refine h.completes rfl ?_
    have alone : (taken d .hostDetach s).queue.inFlight = [ticketOf d (cmdKind .hostDetach) s] := by
      show s.queue.inFlight ++ _ = _
      rw [hnone]
      rfl
    rw [hostDetachBody_ok alone]
    have hatt : ((taken d .hostDetach s).modQueue fun q => { q with inFlight := [], detaching := none }).host.attached = true := h.attached
    have frame (c : Completion) :
        Reporting s (detachHost 6 (publish c ((taken d .hostDetach s).modQueue fun q => { q with inFlight := [], detaching := none }))) :=
      Reporting.trans (b := (taken d .hostDetach s).modQueue fun q => { q with inFlight := [], detaching := none }) rfl
        ((publish_reporting ..).trans (detachHost_reporting ..))
    by_cases hq : (ticketOf d (cmdKind .hostDetach) s).quiet = true
    · rw [if_pos hq, detachHost_attached hatt]
      refine ⟨rfl, rfl, rfl, rfl, rfl, fun hloud => ?_, rfl⟩
      rcases hloud with hloud | hloud
      · exact absurd hq (by rw [show (ticketOf d (cmdKind .hostDetach) s).quiet = false from hloud]; decide)
      · exact absurd rfl hloud
    · rw [if_neg hq]
      obtain ⟨hatt', htime⟩ := publish_host_attached
        { ticket := ticketOf d (cmdKind .hostDetach) s, status := 0, position := position (taken d .hostDetach s), forwarded := false, result := [] }
        hatt
      refine ⟨?_, ?_, ?_, ?_, ?_, fun _ r hr => ?_, frame _⟩
      · rw [detachHost_attached hatt']
      · rw [detachHost_attached hatt']
      · rw [detachHost_attached hatt']
      · rw [detachHost_attached hatt', htime]
        rfl
      · rw [detachHost_attached hatt']
        exact (publish_queue ..).2
      · have hring : cplRingOf ((taken d .hostDetach s).modQueue fun q => { q with inFlight := [], detaching := none })
            (ticketOf d (cmdKind .hostDetach) s).ring = some r := hr
        rw [detachHost_attached hatt']
        unfold publish
        rw [if_pos hatt]
        simp only [hring]
        exact ⟨_, _, List.mem_cons_self⟩
  case reject =>
    intro d kind s htake hcheck
    refine completes_of_exec (t := complete (ticketOf d kind s) 0x0100 [] (take d (ticketOf d kind s) s)) ?_ ?_
    · change execDescriptorReject d kind s = _
      have hcheck' : commonCheck d .nop (take d (ticketOf d kind s) s) = 0 := hcheck
      simp [execDescriptorReject, htake, hcheck']
    · refine ⟨?_, (take_reporting d _ s).trans (complete_reporting ..), fun _ r hr => ?_⟩
      · rw [show (complete (ticketOf d kind s) 0x0100 [] (take d (ticketOf d kind s) s)).host.cmdCons
          = mapPut s.host.cmdCons d.ring (idx32 (mapGetD s.host.cmdCons d.ring 0 + 1)) from
            congrArg HostSt.cmdCons (completeAs_onlyCompletion ..).1, mapGet_mapPut_self]
      · have hatt : s.host.attached = true := by
          simp only [canTake, Bool.and_eq_true] at htake
          exact htake.1.1.1.1.1.1.1.1
        exact completeAs_published (tk := ticketOf d kind s) (s := take d (ticketOf d kind s) s) rfl (.inr (by decide)) hatt hr _ _ []
  case forwarded =>
    intro origin tag dmaOk s hoff hserves hroom hnone
    have hex : exec (.forwardedCommandRx origin tag dmaOk .nop) s = .next (complete (forwardTicket origin tag dmaOk .nop) 0 []
        (s.modQueue fun q => { q with inFlight := q.inFlight ++ [forwardTicket origin tag dmaOk .nop] })) := by
      change execForwardedCommandRx origin tag dmaOk .nop s = _
      have hserves' : stateServes (cmdKind .nop)
          (s.modQueue fun q => { q with inFlight := q.inFlight ++ [forwardTicket origin tag dmaOk .nop] }) = true := hserves
      have hrange : (cmdKind .nop / 256 = 0x0B) = False := by decide
      simp [execForwardedCommandRx, hoff, Nat.not_le.mpr hroom, runHere, hserves', hrange, runCmd, nopBody]
    refine completes_of_exec hex ?_
    unfold complete
    rw [completeAs_forwarded (tk := forwardTicket origin tag dmaOk .nop) rfl]
    refine ⟨rfl, ?_, rfl⟩
    show (s.queue.inFlight ++ [forwardTicket origin tag dmaOk .nop]).filter _ = _
    have others : (s.queue.inFlight.filter fun x => !sameTicket x (forwardTicket origin tag dmaOk .nop)) = s.queue.inFlight := by
      rw [List.filter_eq_self]
      intro x hx
      have hxo : x.origin = none := Option.isNone_iff_eq_none.1 (List.all_eq_true.1 hnone x hx)
      simp [sameTicket, forwardTicket, hxo]
    rw [List.filter_append, others]
    simp [sameTicket_self]
  case queueFull =>
    intro origin tag dmaOk c s hoff hfull
    refine completes_of_exec (t := complete (forwardTicket origin tag dmaOk c) 0x0200 [] s) ?_ ?_
    · change execForwardedCommandRx origin tag dmaOk c s = _
      simp [execForwardedCommandRx, hoff, hfull]
    · refine ⟨?_, complete_reporting ..⟩
      unfold complete
      rw [completeAs_forwarded (tk := forwardTicket origin tag dmaOk c) rfl]
      rfl
  case result =>
    intro tag pos status tk target r s hup hfwd h0 h1 h2 h7 horg hq hatt hdet hring
    refine completes_of_exec (t := completeAs tk status pos true [] (s.modQueue fun q => { q with forwards := mapDel q.forwards tag })) ?_ ?_
    · change execForwardedResultRx tag pos status [] [] s = _
      simp only [execForwardedResultRx, hup, hfwd, Bool.not_true, Bool.false_eq_true, if_false, decide_eq_false h1, decide_eq_false h2,
        decide_eq_false h7, Bool.or_self, forwardedDone_plain h0]
    · refine ⟨?_, ?_, (show Reporting s (s.modQueue _) from rfl).trans (completeAs_reporting ..)⟩
      · rw [(completeAs_onlyCompletion ..).2]
        exact mapGet_mapDel_self ..
      · exact completeAs_published (s := s.modQueue fun q => { q with forwards := mapDel q.forwards tag }) horg (.inl hq) hatt hring ..
  case timeout =>
    intro tag tk r s hfind hatt hdet hring
    refine completes_of_exec (t := complete tk 0x0500 [] (forgetTicket tk s)) ?_ ?_
    · change execHostCompletionTimeout tag s = _
      simp [execHostCompletionTimeout, hfind]
    · have horg : tk.origin = none := by
        have := List.find?_some hfind
        simp only [Bool.and_eq_true, Option.isNone_iff_eq_none] at this
        exact this.1.2
      refine ⟨?_, ?_⟩
      · exact completeAs_published (s := forgetTicket tk s) horg (.inr (by decide)) hatt hring (position s) false []
      · exact completeAs_inFlight (s := forgetTicket tk s) hdet ..
  case restart =>
    intro s hr hw hno
    refine completes_of_exec (exec_restartComplete hr) ?_
    rw [hw]
    have duty := pairStarted_duty (Config.restartFacts s.free) (restartEnds s)
    rw [List.foldl_nil]
    have drained := drainEvents_onlyEvents (pairStarted (Config.restartFacts s.free) (restartEnds s))
    refine ⟨drained.restarting.trans (congrArg MgmtSt.restarting duty), ?_, fun hboots => ?_⟩
    · exact (congrArg MgmtSt.pairStartNs drained.duty).trans (congrArg MgmtSt.pairStartNs duty)
    · have hboots' : bankBoots (restartEnds s) (Config.restartFacts s.free) (restartEnds s).update.bootPointer = true :=
        (bankBoots_congr rfl ..).trans hboots
      rw [pairStarted_boots hboots']
      have hno' : (logAdd 0x0B84 0 .module (position (restartEnds s)) [] false ((restartEnds s).modMgmt fun m =>
          { m with restarting := false, pairStartNs := some (restartEnds s).time.mono })).host.attached = false := by
        rw [(logAdd_onlyEvents ..).host]
        exact hno
      have idle (u : State) (hu : u.host.attached = false) : drainEvents u = u := by simp [drainEvents, hu]
      rw [idle _ hno']
      refine ⟨fun hn hs => logAdd_seq (s := (restartEnds s).modMgmt fun m =>
        { m with restarting := false, pairStartNs := some (restartEnds s).time.mono }) hn hs .., ?_⟩
      exact Reporting.trans (b := { (restartEnds s).modMgmt fun m =>
          { m with restarting := false, pairStartNs := some (restartEnds s).time.mono } with free := s.free }) rfl
        ((logAdd_onlyEvents ..).reporting.keep_free s.free)
  case served =>
    intro tk r s hr hw hserves hdet horg hd hq hatt hring
    refine completes_of_exec (exec_restartComplete hr) ?_
    rw [hw]
    have duty := pairStarted_duty (Config.restartFacts s.free) (restartEnds s)
    simp only [List.foldl_cons, List.foldl_nil, runCmd]
    have hrun : (pairStarted (Config.restartFacts s.free) (restartEnds s)).mgmt.restarting = false := congrArg MgmtSt.restarting duty
    have after := ((drainEvents_onlyEvents _).duty.trans (runHere_mgmtStatus_duty tk hrun)).trans duty
    refine ⟨congrArg MgmtSt.restarting after, congrArg MgmtSt.waiting after, fun hboots => ?_⟩
    have hboots' : bankBoots (restartEnds s) (Config.restartFacts s.free) (restartEnds s).update.bootPointer = true :=
      (bankBoots_congr rfl ..).trans hboots
    have frame := pairStarted_boots_frame hboots'
    have hserves' : stateServes (cmdKind .mgmtStatus) (pairStarted (Config.restartFacts s.free) (restartEnds s)) = true := by
      rw [frame]
      exact hserves
    have hattached : (pairStarted (Config.restartFacts s.free) (restartEnds s)).host.attached = true := by
      rw [frame]
      exact hatt
    have hring' : cplRingOf (pairStarted (Config.restartFacts s.free) (restartEnds s)) tk.ring = some r := by
      rw [frame]
      exact hring
    have hpos : position (pairStarted (Config.restartFacts s.free) (restartEnds s)) = position s := by
      rw [frame]
      rfl
    rw [runHere_served hserves' hrun]
    unfold mgmtStatusBody
    rw [completeRecord_ok hd]
    refine ⟨[], ?_⟩
    obtain ⟨i, ph, hout⟩ := completeAs_published (s := hostOut tk 0
      (recordBytes 512 (mgmtStatusItems (pairStarted (Config.restartFacts s.free) (restartEnds s))))
      (pairStarted (Config.restartFacts s.free) (restartEnds s))) (st := 0) horg (.inl hq) (by rw [hostOut_host]; exact hattached)
      (by rw [cplRingOf_hostOut]; exact hring') (position s) false []
    refine ⟨i, ph, (drainEvents_adds _).mem ?_⟩
    rw [← hpos] at hout
    unfold complete
    rw [show position (hostOut _ _ _ _) = position _ from congrArg HostView.position (hostView_hostOut ..), ← hpos]
    exact hout

end Sys2Proof.Machine
end

-- Events of the Tailstock and of its heads (R173, R226)
section
/-! SUPPORT. What reports leaves an earlier completion and an earlier event as they are; only the Tailstock differs; of a head that settles
only its state number. -/

namespace Sys2Proof.Machine

open Sys2Proof

/-! ## What only adds to what has been told -/

/-- The host view is the same, the outputs are still there, and so are the events that wait. -/
structure Tells (s t : State) : Prop where
  view : hostView t = hostView s
  adds : Adds s t
  events : s.queue.events ⊆ t.queue.events

namespace Tells

theorem refl (s : State) : Tells s s := ⟨rfl, .refl s, List.Subset.refl _⟩

/-- A state with the same session, the same queue and the same outputs. -/
theorem same {s t : State} (hh : t.host = s.host) (hq : t.queue = s.queue) (hc : t.cascade = s.cascade) (ho : t.outbox = s.outbox) :
    Tells s t := by
  refine ⟨?_, ⟨[], by rw [ho, List.nil_append]⟩, by rw [hq]; exact List.Subset.refl _⟩
  simp only [hostView, position, hh, hq, hc]

theorem trans {a b c : State} (h : Tells a b) (k : Tells b c) : Tells a c :=
  ⟨k.view.trans h.view, h.adds.trans k.adds, List.Subset.trans h.events k.events⟩

theorem emit {s t : State} (h : Tells s t) (o : Out) : Tells s (emit o t) := h.trans ⟨rfl, emit_adds .., List.Subset.refl _⟩

theorem raise {s t : State} (h : Tells s t) (c : Nat) (k : ScopeKind) (i : Nat) (l : Items) (a : Bool) : Tells s (raise c k i l t a) :=
  h.trans ⟨hostView_raise .., raise_adds .., raise_events ..⟩

theorem foldl {α : Type} {g : State → α → State} (h : ∀ s x, Tells s (g s x)) (l : List α) (s : State) : Tells s (l.foldl g s) := by
  induction l generalizing s with
  | nil => exact .refl s
  | cons x l ih => exact (h s x).trans (ih _)

end Tells

theorem Raises.tells {c : Nat} {k : ScopeKind} {i : Nat} {l : Items} {s u t : State} (h : Raises c k i l s u) (ht : Tells u t) :
    Raises c k i l s t := h.mono ht.adds ht.events

theorem logEvent_adds_view (c : Nat) (k : ScopeKind) (i : Nat) (l : Items) (s : State) : Tells s (logEvent c k i l s) :=
  ⟨hostView_logEvent .., logEvent_adds .., by rw [logEvent_queue]; exact List.Subset.refl _⟩

theorem deliver_tells (e : EventRec) (s : State) : Tells s (deliver e s) := ⟨hostView_deliver .., deliver_adds .., deliver_events ..⟩

theorem raise_tells (c : Nat) (k : ScopeKind) (i : Nat) (l : Items) (s : State) (a : Bool) : Tells s (raise c k i l s a) :=
  (Tells.refl s).raise c k i l a

/-! ## Only the Tailstock differs -/

/-- Only the Tailstock differs, and what reports. -/
abbrev OnlyTs (s t : State) : Prop := Reporting s { t with ts := s.ts }

namespace OnlyTs

theorem trans {a b c : State} (h : OnlyTs a b) (k : OnlyTs b c) : OnlyTs a c := by
  unfold OnlyTs Reporting at *
  rw [State.mk.injEq] at *
  simp_all

theorem reporting {a b c : State} (h : OnlyTs a b) (k : Reporting b c) : OnlyTs a c := by
  refine h.trans ?_
  unfold OnlyTs Reporting at *
  rw [k]

theorem foldl {α : Type} {g : State → α → State} (h : ∀ s x, OnlyTs s (g s x)) (l : List α) (s : State) : OnlyTs s (l.foldl g s) := by
  induction l generalizing s with
  | nil => rfl
  | cons x l ih => exact (h s x).trans (ih _)

end OnlyTs

/-! ## Events of the Tailstock -/

theorem deliverTs_tells (e : TsEvent) (s : State) : Tells s (deliverTs e s) := by
  unfold deliverTs
  refine Tells.trans ?_ (deliver_tells ..)
  refine Tells.trans ?_ (logEvent_adds_view ..)
  exact ⟨rfl, .refl _, List.Subset.refl _⟩

theorem tsRaise_tells (c : Nat) (k : ScopeKind) (i : Nat) (l : Items) (a : Bool) (s : State) : Tells s (tsRaise c k i l a s) := by
  unfold tsRaise
  dsimp only
  split
  · exact deliverTs_tells ..
  · split <;> exact .same rfl rfl rfl rfl

theorem tsRaise_onlyTs (c : Nat) (k : ScopeKind) (i : Nat) (l : Items) (a : Bool) (s : State) : OnlyTs s (tsRaise c k i l a s) := by
  unfold tsRaise
  dsimp only
  split
  · exact OnlyTs.reporting (b := s) rfl (deliverTs_reporting ..)
  · split <;> rfl

/-- Of the Tailstock, an event changes the queue of events alone. -/
theorem tsRaise_ts (c : Nat) (k : ScopeKind) (i : Nat) (l : Items) (a : Bool) (s : State) :
    (tsRaise c k i l a s).ts
      = { s.ts with events := (tsRaise c k i l a s).ts.events, eventsLost := (tsRaise c k i l a s).ts.eventsLost } := by
  unfold tsRaise
  dsimp only
  split
  · rw [(deliverTs_reporting ..).ts]
  · split <;> rfl

@[simp] theorem headRt_tsRaise (key c : Nat) (k : ScopeKind) (i : Nat) (l : Items) (a : Bool) (s : State) :
    headRt (tsRaise c k i l a s) key = headRt s key := by
  unfold headRt
  rw [tsRaise_ts]

theorem headRt_putHead_ne {k key : Nat} (hk : k ≠ key) (h : HeadRt) (s : State) : headRt (putHead key h s) k = headRt s k := by
  show mapGetD (mapPut s.ts.heads key h) k HeadRt.init = mapGetD s.ts.heads k HeadRt.init
  unfold mapGetD
  rw [mapGet_mapPut_ne _ _ hk]

theorem Reporting.headRt {s t : State} (h : Reporting s t) (key : Nat) : headRt t key = headRt s key := by
  unfold Machine.headRt
  rw [h.ts]

/-! ## A head settles -/

theorem putHead_tells (key : Nat) (h : HeadRt) (s : State) : Tells s (putHead key h s) := .same rfl rfl rfl rfl

theorem putHead_onlyTs (key : Nat) (h : HeadRt) (s : State) : OnlyTs s (putHead key h s) := rfl

theorem settleHead_tells (key : Nat) (s : State) : Tells s (settleHead key s) := by
  unfold settleHead enterHead
  dsimp only
  split
  · exact .refl s
  · exact (putHead_tells ..).trans (tsRaise_tells ..)

theorem settleHead_onlyTs (key : Nat) (s : State) : OnlyTs s (settleHead key s) := by
  unfold settleHead enterHead
  dsimp only
  split
  · rfl
  · exact (putHead_onlyTs ..).trans (tsRaise_onlyTs ..)

theorem headRt_settleHead (key : Nat) (s : State) (k : Nat) : ∃ n, headRt (settleHead key s) k = { headRt s k with hstate := n } := by
  unfold settleHead enterHead tsHeadEvent
  dsimp only
  split
  · exact ⟨_, rfl⟩
  · rw [headRt_tsRaise]
    by_cases hk : k = key
    · subst hk
      exact ⟨_, headRt_putHead ..⟩
    · exact ⟨_, headRt_putHead_ne hk ..⟩

/-- Of the Tailstock, a head that settles changes its heads and the queue of events alone. -/
theorem settleHead_ts (key : Nat) (s : State) :
    (settleHead key s).ts
      = { s.ts with
            heads := (settleHead key s).ts.heads, events := (settleHead key s).ts.events, eventsLost := (settleHead key s).ts.eventsLost } := by
  unfold settleHead enterHead tsHeadEvent
  dsimp only
  split
  · rfl
  · rw [tsRaise_ts]
    rfl

theorem settleHeads_tells (s : State) : Tells s (settleHeads s) := Tells.foldl (g := fun s (p : Nat × HeadRt) => settleHead p.1 s) (fun s p => settleHead_tells p.1 s) s.ts.heads s

theorem settleHeads_onlyTs (s : State) : OnlyTs s (settleHeads s) := OnlyTs.foldl (g := fun s (p : Nat × HeadRt) => settleHead p.1 s) (fun s p => settleHead_onlyTs p.1 s) s.ts.heads s

theorem settleHeads_egress (s : State) : (settleHeads s).ts.egress = s.ts.egress := by
  unfold settleHeads
  generalize s.ts.heads = l
  induction l generalizing s with
  | nil => rfl
  | cons p l ih => rw [List.foldl_cons, ih, settleHead_ts]

end Sys2Proof.Machine
end

-- Commands of the heads and of the Tailstock (R174 to R178, R207, R212, R221, R224)
section
/-! SUPPORT. A command whose rule changes the Tailstock alone, and the checks of these commands passed. -/

namespace Sys2Proof.Machine

open Sys2Proof

/-- A command whose rule changes the Tailstock alone completes so (R283). -/
theorem Executes.endsTs {d : Desc} {c : HostCmd} {s u : State} (h : Executes d c s) (hv : Tells (taken d c s) u) (hu : OnlyTs (taken d c s) u)
    (st : Nat) (l : Items) :
    Reports d c st l s (complete (ticketOf d (cmdKind c) s) st l u) ∧ OnlyTs s (complete (ticketOf d (cmdKind c) s) st l u) :=
  ⟨h.reports hv.view st l, (OnlyTs.trans (b := taken d c s) rfl hu).reporting (complete_reporting ..)⟩

theorem complete_ts (tk : Ticket) (st : Nat) (l : Items) (s : State) : (complete tk st l s).ts = s.ts := (complete_reporting ..).ts

theorem headRt_complete (key : Nat) (tk : Ticket) (st : Nat) (l : Items) (s : State) : headRt (complete tk st l s) key = headRt s key :=
  (complete_reporting ..).headRt key

/-- An output is still there when the command has completed, after what only adds to the outputs. -/
theorem mem_outbox_complete {o : Out} {u v : State} (ho : o ∈ u.outbox) (hv : Tells u v) (tk : Ticket) (st : Nat) (l : Items) :
    o ∈ (complete tk st l v).outbox := (complete_adds ..).mem (hv.adds.mem ho)

/-- A command that sends one output and completes. -/
theorem Executes.emits {d : Desc} {c : HostCmd} {s : State} (h : Executes d c s) (o : Out) (st : Nat) (l : Items) :
    let t := complete (ticketOf d (cmdKind c) s) st l (emit o (taken d c s))
    o ∈ t.outbox ∧ Reports d c st l s t ∧ Reporting s t :=
  ⟨(complete_adds _ st l (emit o (taken d c s))).mem List.mem_cons_self, h.reports (u := emit o (taken d c s)) rfl st l,
    ((take_reporting d _ s).trans (emit_reporting o _)).trans (complete_reporting ..)⟩

/-- A command that sends one output, writes bytes to its host buffer and completes. -/
theorem Executes.emitsAndDelivers {d : Desc} {c : HostCmd} {s : State} (h : Executes d c s) (o : Out) (bytes : List Byte) (st : Nat) (l : Items) :
    let t := complete (ticketOf d (cmdKind c) s) st l (hostOut (ticketOf d (cmdKind c) s) 0 bytes (emit o (taken d c s)))
    Delivers d bytes t ∧ Reports d c st l s t ∧ Reporting s t :=
  ⟨delivers_complete .., h.reports (hostView_hostOut _ 0 bytes (emit o (taken d c s))) st l,
    (((take_reporting d _ s).trans (emit_reporting o _)).trans (hostOut_reporting ..)).trans (complete_reporting ..)⟩

/-! ## Commands of the heads -/

theorem headSinkPowerBody_off {key : Nat} {s : State} (h : sinkCheck s key = 0) (tk : Ticket) :
    headSinkPowerBody key 3 tk s
      = complete tk 0 [] (settleHead key (emit (.dp key "SET_POWER" [2]) (putHead key
          { headRt s key with sinkD3 := true, trained := none, combos := [], training := false, linkFail := false, emitting := false } s))) := by
  simp [headSinkPowerBody, h]

theorem headSinkPowerBody_on {key : Nat} {s : State} (h : sinkCheck s key = 0) (tk : Ticket) :
    headSinkPowerBody key 0 tk s
      = complete tk 0 [] (train key (emit (.dp key "SET_POWER" [1]) (putHead key { headRt s key with sinkD3 := false } s))) := by
  simp [headSinkPowerBody, h]

/-- A head with a sink and a combination to try begins to train. -/
theorem startTraining_begins {key : Nat} {k : SinkInfo} {s : State} (hk : (headRt s key).sink = some k)
    (ho : trainingOrder s (headRt s key) k ≠ []) :
    ∃ o, startTraining key s = emit o (putHead key
      { headRt s key with
          trained := none, combos := trainingOrder s (headRt s key) k, attempts := 1, training := true, linkFail := false,
          emitting := false } s) := by
  unfold startTraining
  simp only [hk, List.isEmpty_iff, ho, if_false]
  exact ⟨_, rfl⟩

theorem startTraining_tells (key : Nat) (s : State) : Tells s (startTraining key s) := by
  unfold startTraining
  dsimp only
  split
  · exact .refl s
  · split
    · exact putHead_tells ..
    · exact (putHead_tells ..).emit _

theorem startTraining_onlyTs (key : Nat) (s : State) : OnlyTs s (startTraining key s) := by
  unfold startTraining
  dsimp only
  split
  · rfl
  · split <;> rfl

theorem train_tells (key : Nat) (s : State) : Tells s (train key s) := (startTraining_tells ..).trans (settleHead_tells ..)

theorem train_onlyTs (key : Nat) (s : State) : OnlyTs s (train key s) := (startTraining_onlyTs ..).trans (settleHead_onlyTs ..)

/-- Which combinations are tried depends on the head's timing and output, and on the groups. -/
theorem trainingOrder_congr {s t : State} {h k : HeadRt} (hr : t.ts.groupRecs = s.ts.groupRecs) (ho : k.once = h.once) (n : SinkInfo) :
    trainingOrder t k n = trainingOrder s h n := by
  unfold trainingOrder
  have hg : tsGroup t k = tsGroup s h := by
    unfold tsGroup
    rw [hr, ho]
  rw [hg, ho]

theorem headStatusBody_ok {key : Nat} (hk : key ≤ 31) (tk : Ticket) (s : State) :
    headStatusBody key tk s = completeRecord tk 256 (headStatusItems s key) [] s := if_neg (Nat.not_lt.mpr hk)

theorem headSinkReadBody_ok {key : Nat} {k : SinkInfo} {s : State} (hc : sinkCheck s key = 0) (hk : (headRt s key).sink = some k)
    {tk : Ticket} (hd : tk.dmaOk = true) :
    headSinkReadBody key tk s
      = complete tk 0 []
          (hostOut tk 0 ((k.dpcd ++ List.replicate 256 0).take 256 ++ (k.edid ++ List.replicate 2048 0).take 2048) s) := by
  unfold headSinkReadBody
  simp only [hc, hk, hd, bne_self_eq_false, Bool.false_eq_true, if_false, Bool.not_true]

/-- An egress port with its interface set. -/
def egressSet (b : PortBody) (s : State) : State :=
  s.modTs fun t => { t with egress := mapPut t.egress b.port { mode := b.mode, lane := laneOf b (mapGetD s.ts.egress b.port EgressPort.init).lane } }

theorem egressPortConfigureBody_ok {b : PortBody} {s : State} (hc : egressConfigureCheck b s = 0) (tk : Ticket) :
    egressPortConfigureBody b tk s = complete tk 0 [] (settleHeads (egressSet b s)) := by
  unfold egressPortConfigureBody
  simp only [hc, bne_self_eq_false, Bool.false_eq_true, if_false]
  rfl

theorem egressSet_tells (b : PortBody) (s : State) : Tells s (egressSet b s) := .same rfl rfl rfl rfl

theorem egressSet_onlyTs (b : PortBody) (s : State) : OnlyTs s (egressSet b s) := rfl

theorem headAuxBody_write {b : AuxBody} {s : State} (hc : sinkCheck s b.head = 0) (hw : b.write = 1) (h1 : 1 ≤ b.len) (h2 : b.len ≤ 16)
    (h3 : b.addr ≤ 0xFFFFF) (ht : auxTouches b.addr b.len = false) (ha : b.acked = true) (tk : Ticket) :
    headAuxBody b tk s
      = complete tk 0 [] (emit (.dp b.head "AUX_WRITE" ((b.addr : Int) :: (b.data.take b.len).map fun x => (x.toNat : Int))) s) := by
  simp [headAuxBody, hc, hw, ht, ha, Nat.not_lt.mpr h2, Nat.not_lt.mpr h3, Nat.one_le_iff_ne_zero.mp h1]

theorem headAuxBody_read {b : AuxBody} {s : State} (hc : sinkCheck s b.head = 0) (hw : b.write = 0) (h1 : 1 ≤ b.len) (h2 : b.len ≤ 16)
    (h3 : b.addr ≤ 0xFFFFF) (ha : b.acked = true) {tk : Ticket} (hd : tk.dmaOk = true) :
    headAuxBody b tk s
      = complete tk 0 [] (hostOut tk 0 (b.readData.take b.len) (emit (.dp b.head "AUX_READ" [(b.addr : Int), b.len]) s)) := by
  simp [headAuxBody, hc, hw, ha, hd, Nat.not_lt.mpr h2, Nat.not_lt.mpr h3, Nat.one_le_iff_ne_zero.mp h1]

/-- A DisplayPort head's sink check fails, if at all, with SINK_ABSENT. -/
theorem sinkCheck_dp {key : Nat} (h : key ≤ 15) (s : State) : sinkCheck s key ≠ 0x0168 ∧ sinkCheck s key ≠ 0x0363 := by
  have h1 : ¬ 31 < key := by omega
  have h2 : ¬ 16 ≤ key := by omega
  unfold sinkCheck
  rw [if_neg h1, if_neg h2]
  split <;> simp

theorem headAuxBody_protected {b : AuxBody} {s : State} (hk : b.head ≤ 15) (hw : b.write = 1) (h1 : 1 ≤ b.len) (h2 : b.len ≤ 16)
    (h3 : b.addr ≤ 0xFFFFF) (ht : auxTouches b.addr b.len = true) (tk : Ticket) : headAuxBody b tk s = complete tk 0x0361 [] s := by
  obtain ⟨hc1, hc2⟩ := sinkCheck_dp hk s
  simp [headAuxBody, hc1, hc2, hw, ht, Nat.not_lt.mpr h2, Nat.not_lt.mpr h3, Nat.one_le_iff_ne_zero.mp h1]

/-- The head with its sink on again, before it trains. -/
def sinkOn (key : Nat) (s : State) : State :=
  emit (.dp key "SET_POWER" [1]) (putHead key { headRt s key with sinkD3 := false } s)

theorem headRt_sinkOn (key : Nat) (s : State) : headRt (sinkOn key s) key = { headRt s key with sinkD3 := false } := headRt_putHead ..

theorem sinkOn_tells (key : Nat) (s : State) : Tells s (sinkOn key s) := (putHead_tells ..).emit _

theorem sinkOn_onlyTs (key : Nat) (s : State) : OnlyTs s (sinkOn key s) := rfl

theorem trainingOrder_sinkOn (key : Nat) (s : State) (k : SinkInfo) :
    trainingOrder (sinkOn key s) (headRt (sinkOn key s) key) k = trainingOrder s (headRt s key) k := by
  rw [headRt_sinkOn]
  exact trainingOrder_congr rfl rfl k

/-- A sink turned on trains, the combinations tried those of before (R175). -/
theorem headPowerOn_trains {d : Desc} {key : Nat} {k : SinkInfo} {s : State} (h : Executes d (.headSinkPower key 0) s)
    (hk : (headRt s key).sink = some k) (ho : trainingOrder s (headRt s key) k ≠ []) :
    let t := complete (ticketOf d (cmdKind (.headSinkPower key 0)) s) 0 [] (train key (sinkOn key (taken d (.headSinkPower key 0) s)))
    (headRt t key).sinkD3 = false ∧ (headRt t key).training = true ∧ (headRt t key).combos = trainingOrder s (headRt s key) k
      ∧ Out.dp key "SET_POWER" [1] ∈ t.outbox ∧ Reports d (.headSinkPower key 0) 0 [] s t ∧ OnlyTs s t := by
  intro t
  have hs : (headRt (sinkOn key (taken d (.headSinkPower key 0) s)) key).sink = some k := by
    rw [headRt_sinkOn]
    exact hk
  have horder := trainingOrder_sinkOn key (taken d (.headSinkPower key 0) s) k
  obtain ⟨o, hstart⟩ := startTraining_begins hs (by rw [horder]; exact ho)
  obtain ⟨n, hn⟩ := headRt_settleHead key (startTraining key (sinkOn key (taken d (.headSinkPower key 0) s))) key
  have ht : headRt t key = headRt (train key (sinkOn key (taken d (.headSinkPower key 0) s))) key := headRt_complete ..
  have htrain : headRt (train key (sinkOn key (taken d (.headSinkPower key 0) s))) key = _ := hn
  rw [hstart, show ∀ o t, headRt (emit o t) key = headRt t key from fun _ _ => rfl, headRt_putHead, horder, headRt_sinkOn] at htrain
  rw [ht, htrain]
  exact ⟨rfl, rfl, rfl, mem_outbox_complete (u := sinkOn key (taken d (.headSinkPower key 0) s)) List.mem_cons_self (train_tells ..) ..,
    h.endsTs ((sinkOn_tells ..).trans (train_tells ..)) ((sinkOn_onlyTs ..).trans (train_onlyTs ..)) 0 []⟩

/-- Settles O21: the reads deliver; the sink's power sets its head, which then settles; an AUX access is carried as it is. -/
theorem headCommandsComplete : Obligations.HeadCommandsComplete := by
  unfold Obligations.HeadCommandsComplete
  refine ⟨?status, ?sinkRead, ?powerOff, ?powerOn, ?auxWrite, ?auxRead, ?auxProtected, ?egressPort⟩
  case status =>
    intro d key s h hk hd
    refine h.completes rfl ?_
    rw [headStatusBody_ok hk]
    exact h.writesRecord hd 256 _ []
  case sinkRead =>
    intro d key k s h hc hk hd
    refine h.completes rfl ?_
    rw [headSinkReadBody_ok (s := taken d (.headSinkRead key) s) hc hk hd]
    exact ⟨delivers_complete .., h.reports (hostView_hostOut ..) 0 [],
      ((take_reporting ..).trans (hostOut_reporting ..)).trans (complete_reporting ..)⟩
  case powerOff =>
    intro d key s h hc
    refine h.completes rfl ?_
    rw [headSinkPowerBody_off (s := taken d (.headSinkPower key 3) s) hc]
    obtain ⟨n, hn⟩ := headRt_settleHead key (emit (.dp key "SET_POWER" [2]) (putHead key
      { headRt (taken d (.headSinkPower key 3) s) key with
          sinkD3 := true, trained := none, combos := [], training := false, linkFail := false, emitting := false }
      (taken d (.headSinkPower key 3) s))) key
    rw [show ∀ o t, headRt (emit o t) key = headRt t key from fun _ _ => rfl, headRt_putHead] at hn
    simp only [headRt_complete, hn, true_and]
    exact ⟨mem_outbox_complete List.mem_cons_self (settleHead_tells ..) ..,
      h.endsTs (((putHead_tells ..).emit _).trans (settleHead_tells ..))
        ((OnlyTs.reporting (putHead_onlyTs ..) (emit_reporting ..)).trans (settleHead_onlyTs ..)) 0 []⟩
  case powerOn =>
    intro d key k s h hc hk ho
    refine h.completes rfl ?_
    rw [headSinkPowerBody_on (s := taken d (.headSinkPower key 0) s) hc]
    exact headPowerOn_trains h hk ho
  case auxWrite =>
    intro d b s h hc hw h1 h2 h3 ht ha
    refine h.completes rfl ?_
    rw [headAuxBody_write (s := taken d (.headAux b) s) hc hw h1 h2 h3 ht ha]
    exact h.emits _ 0 []
  case auxRead =>
    intro d b s h hc hw h1 h2 h3 ha hd
    refine h.completes rfl ?_
    rw [headAuxBody_read (s := taken d (.headAux b) s) hc hw h1 h2 h3 ha hd]
    exact h.emitsAndDelivers _ _ 0 []
  case auxProtected =>
    intro d b s h hk hw h1 h2 h3 ht
    refine h.completes rfl ?_
    rw [headAuxBody_protected (s := taken d (.headAux b) s) hk hw h1 h2 h3 ht]
    exact ⟨h.reports rfl _ [], (take_reporting ..).trans (complete_reporting ..)⟩
  case egressPort =>
    intro d b s h hc
    refine h.completes rfl ?_
    rw [egressPortConfigureBody_ok (s := taken d (.egressPortConfigure b) s) hc]
    refine ⟨?_, h.endsTs ((egressSet_tells ..).trans (settleHeads_tells _)) ((egressSet_onlyTs ..).trans (settleHeads_onlyTs _)) 0 []⟩
    rw [complete_ts, settleHeads_egress]
    exact mapGet_mapPut_self ..

/-! ## Commands of the Tailstock -/

/-- With the internal lanes up, a command of the Tailstock with its operands in range is served. -/
theorem tsCommand_up {ok : Bool} {s : State} (hok : ok = true) (hu : internalUp s = true) (body : Ticket → State → State) (tk : Ticket) :
    tsCommand ok body tk s = body tk s := by simp [tsCommand, hok, hu]

theorem tsCommand_down {ok : Bool} {s : State} (hok : ok = true) (hu : internalUp s = false) (body : Ticket → State → State) (tk : Ticket) :
    tsCommand ok body tk s = complete tk 0x0570 [] s := by simp [tsCommand, hok, hu]

/-- Entries put one after another, each under a key of its own. -/
theorem mapGet_putRange {α : Type} (f : Nat → α) (first n : Nat) (m : Map α) (c : Nat) :
    mapGet ((List.range n).foldl (fun m i => mapPut m (first + i) (f i)) m) c
      = if first ≤ c ∧ c < first + n then some (f (c - first)) else mapGet m c := by
  induction n with
  | zero => simp
  | succ n ih =>
    rw [List.range_succ, List.foldl_append, List.foldl_cons, List.foldl_nil, mapGet_mapPut, ih]
    by_cases hc : c = first + n
    · simp [hc]
    · have : (first ≤ c ∧ c < first + (n + 1)) ↔ (first ≤ c ∧ c < first + n) := by omega
      simp [hc, this]

/-- The glyphs put under their codes. -/
def glyphsPut (first count : Nat) (glyphs : List Byte) (s : State) : State :=
  s.modTs fun t =>
    { t with glyphs := (List.range count).foldl (fun m i => mapPut m (first + i) ((glyphs.drop (16 * i)).take 16)) t.glyphs }

theorem glyphsPut_tells (first count : Nat) (glyphs : List Byte) (s : State) : Tells s (glyphsPut first count glyphs s) :=
  .same rfl rfl rfl rfl

theorem glyphsPut_onlyTs (first count : Nat) (glyphs : List Byte) (s : State) : OnlyTs s (glyphsPut first count glyphs s) := rfl

theorem tailstockGlyphLoadBody_ok {first count : Nat} {s : State} (hu : internalUp s = true) (h1 : 0x80 ≤ first) (h2 : 1 ≤ count)
    (h3 : first + count ≤ 0xE0) {tk : Ticket} (hd : tk.dmaOk = true) (glyphs : List Byte) :
    tailstockGlyphLoadBody first count glyphs tk s = complete tk 0 [] (glyphsPut first count glyphs s) := by
  have hok : (decide (0x80 ≤ first) && decide (first ≤ 0xDF) && decide (1 ≤ count) && decide (count ≤ 96)
      && decide (first + count ≤ 0xE0)) = true := by
    simp only [Bool.and_eq_true, decide_eq_true_eq]
    omega
  exact (tsCommand_up hok hu ..).trans (if_neg (by simp [hd]))

theorem verdictReadBody_ok {select : Nat} {s : State} (hu : internalUp s = true) (hk : select ≤ 1) (tk : Ticket) :
    verdictReadBody select tk s
      = completeWrite tk [(1024, ((if select = 0 then s.ts.own.bits else s.ts.twin.bits).toNat : Int))] [] s := by
  refine (tsCommand_up (decide_eq_true hk) hu ..).trans ?_
  dsimp only
  split <;> rfl

theorem itemBytes_single (n : Nat) (v : Int) : itemBytes [(n, v)] = leBytes n v := List.append_nil _

theorem holdReadBody_ok {key : Nat} {r : Rect} {s : State} (hu : internalUp s = true) (hk : key ≤ 31) (h1 : 1 ≤ r.w) (h2 : 1 ≤ r.h)
    (h3 : r.x + r.w ≤ (headRt s key).once.timing.hActive) (h4 : r.y + r.h ≤ (headRt s key).once.timing.vActive) (tk : Ticket) :
    holdReadBody key r tk s
      = completeWrite tk (((List.range r.h).flatMap fun j => holdPixels (headRt s key) r (r.y + j))
          ++ (List.range r.h).flatMap fun j => holdSpans key (headRt s key) (r.y + j)) [] s := by
  have hok : (decide (key ≤ 31) && decide (1 ≤ r.w) && decide (1 ≤ r.h) && decide (r.x + r.w ≤ (headRt s key).once.timing.hActive)
      && decide (r.y + r.h ≤ (headRt s key).once.timing.vActive)) = true := by
    simp only [Bool.and_eq_true, decide_eq_true_eq]
    exact ⟨⟨⟨⟨hk, h1⟩, h2⟩, h3⟩, h4⟩
  unfold holdReadBody
  dsimp only
  rw [tsCommand_up hok hu]
  simp only [List.flatMap_map]

/-- Settles O23: with the lanes up a read delivers and the glyphs are put under their codes; with the lanes down a command is refused. -/
theorem tailstockCommandsComplete : Obligations.TailstockCommandsComplete := by
  unfold Obligations.TailstockCommandsComplete
  refine ⟨?glyphs, ?calipers, ?status, ?verdicts, ?hold, ?font, ?down⟩
  case glyphs =>
    intro d first count glyphs s h hu h1 h2 h3 hd
    refine h.completes rfl ?_
    rw [tailstockGlyphLoadBody_ok (s := taken d (.tailstockGlyphLoad first count glyphs) s) hu h1 h2 h3 hd]
    rw [complete_ts]
    refine ⟨fun i hi => ?_, fun c hc => ?_, rfl,
      h.endsTs (glyphsPut_tells ..) (glyphsPut_onlyTs ..) 0 []⟩
    · exact (mapGet_putRange ..).trans (by simp [hi])
    · exact (mapGet_putRange ..).trans (if_neg (by omega))
  case calipers =>
    intro d key s h hu hk hd
    refine h.completes rfl ?_
    rw [show calipersReadBody key (ticketOf d (cmdKind (.calipersRead key)) s) (taken d (.calipersRead key) s) = _ from
      tsCommand_up (s := taken d (.calipersRead key) s) (decide_eq_true hk) hu ..]
    exact h.writes hd _ []
  case status =>
    intro d key s h hu hk hd
    refine h.completes rfl ?_
    rw [show tailstockStatusBody key (ticketOf d (cmdKind (.tailstockStatus key)) s) (taken d (.tailstockStatus key) s) = _ from
      tsCommand_up (s := taken d (.tailstockStatus key) s) (decide_eq_true hk) hu ..]
    exact h.writesRecord hd 128 _ []
  case verdicts =>
    intro d select s h hu hk hd
    refine h.completes rfl ?_
    rw [verdictReadBody_ok (s := taken d (.verdictRead select) s) hu hk, ← itemBytes_single]
    exact h.writes hd _ []
  case hold =>
    intro d key r s h hu hk h1 h2 h3 h4 hd
    refine h.completes rfl ?_
    rw [holdReadBody_ok (s := taken d (.holdRead key r) s) hu hk h1 h2 h3 h4]
    exact h.writes hd _ []
  case font =>
    intro d s h hu hd
    refine h.completes rfl ?_
    rw [show tailstockFontReadBody (ticketOf d (cmdKind .tailstockFontRead) s) (taken d .tailstockFontRead s) = _ from
      tsCommand_up (s := taken d .tailstockFontRead s) rfl hu ..]
    exact h.writes hd _ []
  case down =>
    intro d select s h hu hk
    refine h.completes rfl ?_
    rw [show verdictReadBody select (ticketOf d (cmdKind (.verdictRead select)) s) (taken d (.verdictRead select) s) = _ from
      tsCommand_down (s := taken d (.verdictRead select) s) (decide_eq_true hk) hu ..]
    exact ⟨h.reports rfl _ [], (take_reporting ..).trans (complete_reporting ..)⟩

end Sys2Proof.Machine
end

-- What is emitted at each pixel (R31, R32, R41, R45, R50, R203, R205)
section
/-! SUPPORT. The emission of a bound pixel, and when the judge finds one live. -/

namespace Sys2Proof.Machine

open Sys2Proof

/-- A composed pixel inside a bound span is emitted under the material and the bitmap of its side. -/
theorem emitComposed_bound {n : LineNow} {x : Nat} {p : Span} (hp : (n.spans.find? fun p => p.xStart ≤ x && x < p.xStart + p.length) = some p)
    (hu : p.unbound = false) (s : State) (key : Nat) (h : HeadRt) (side : Side) (held : Bool) (c : Rgb) (a : LineAcc) :
    emitComposed s key h n side held x c a = emitBound s key h n (sideOf h side).force (bitmapOf s side) held p x c a := by
  unfold emitComposed
  rw [hp]
  dsimp only
  rw [hu]
  cases side <;> rfl

theorem emitComposed_unbound {n : LineNow} {x : Nat} {p : Span} (hp : (n.spans.find? fun p => p.xStart ≤ x && x < p.xStart + p.length) = some p)
    (hu : p.unbound = true) (s : State) (key : Nat) (h : HeadRt) (side : Side) (held : Bool) (c : Rgb) (a : LineAcc) :
    emitComposed s key h n side held x c a
      = { emitPlain c a with disagreed := a.disagreed + flag (n.errors.judges.contains x) } := by
  unfold emitComposed
  rw [hp]
  dsimp only
  rw [hu]
  rfl

/-- The judgement of a pixel of a bound span, both judges counted (R31, R205). -/
def judged (s : State) (key : Nat) (h : HeadRt) (n : LineNow) (m : HeadMat) (b : BitmapRt) (p : Span) (x : Nat) : Bool :=
  pixelLive s (spanEntry m n.errors p) b p (pixelTime s key h n.line x) (judgeTime s key h n.line x)
    && (((spanEntry m n.errors p).map MapEntry.internal).getD false || !n.errors.judges.contains x)

/-- A pixel judged live has an entry. -/
theorem judged_entry {s : State} {key : Nat} {h : HeadRt} {n : LineNow} {m : HeadMat} {b : BitmapRt} {p : Span} {x : Nat}
    (hj : judged s key h n m b p x = true) : ∃ w, spanEntry m n.errors p = some w := by
  unfold judged at hj
  cases he : spanEntry m n.errors p with
  | none => simp [pixelLive, he] at hj
  | some w => exact ⟨w, rfl⟩

theorem emitBound_live {s : State} {key : Nat} {h : HeadRt} {n : LineNow} {m : HeadMat} {b : BitmapRt} {p : Span} {x : Nat} {w : MapEntry}
    (hj : judged s key h n m b p x = true) (hw : spanEntry m n.errors p = some w) (held : Bool) (c : Rgb) (a : LineAcc) :
    (emitBound s key h n m b held p x c a).scorchedPx = a.scorchedPx
    ∧ (emitBound s key h n m b held p x c a).out
      = (if p.concealed then concealBorder (windowColours m n.errors p.window w) w.rect x n.line c else c) :: a.out := by
  unfold judged at hj
  unfold emitBound
  dsimp only
  rw [hj, hw]
  exact ⟨rfl, rfl⟩

theorem emitBound_scorched {s : State} {key : Nat} {h : HeadRt} {n : LineNow} {m : HeadMat} {b : BitmapRt} {p : Span} {x : Nat}
    (hj : judged s key h n m b p x = false) (held : Bool) (c : Rgb) (a : LineAcc) :
    (∃ r, (emitBound s key h n m b held p x c a).out = markPixel h m n.errors (entryRead m n.errors p.window) p r x n.line c :: a.out)
    ∧ (emitBound s key h n m b held p x c a).scorchedPx = a.scorchedPx + 1
    ∧ (emitBound s key h n m b held p x c a).fresh = none :: a.fresh := by
  unfold judged at hj
  unfold emitBound
  simp only [hj, Bool.false_eq_true, if_false, Bool.not_false, Bool.false_and, flag, if_true, and_true]
  exact ⟨_, rfl⟩

/-- The entry that a span names: read without a fault, of its source and layer (R202). -/
theorem spanEntry_eq_some {m : HeadMat} {r : LineErrors} {p : Span} {e : MapEntry} :
    spanEntry m r p = some e
      ↔ mapGet m.entries p.window = some e ∧ r.entries.contains p.window = false ∧ e.sourceId = p.sourceId ∧ e.layer = p.layer := by
  unfold spanEntry entryRead
  cases hc : r.entries.contains p.window
  · simp [Option.filter_eq_some_iff]
  · simp

theorem ageAt_unknown {s : State} {t : Nat} (hu : uE6At s t = none) (origin : Nat) : ageAt s t origin = none := by
  simp only [ageAt, uUsAt, hu, Option.map_none]

theorem ageAt_known {s : State} {t u : Nat} (hu : uE6At s t = some u) (origin : Nat) :
    ageAt s t origin = if diffAt s t origin < 549755813888 then some (diffAt s t origin + ceilDiv u 1000000000) else none := by
  simp only [ageAt, uUsAt, hu, Option.map_some]

/-- The age is within the budget: u is known, and the difference with u added is not beyond it (R32). -/
theorem ageOk_iff (s : State) (tP origin budgetMs : Nat) :
    ageOk s tP origin budgetMs = true
      ↔ ∃ u, uE6At s (tP - 800) = some u ∧ diffAt s (tP - 800) origin < 549755813888
          ∧ diffAt s (tP - 800) origin + ceilDiv u 1000000000 ≤ budgetMs * 1000 := by
  unfold ageOk Config.judgeLeadNs
  generalize tP - 800 = t
  cases hu : uE6At s t with
  | none => simp [ageAt_unknown hu]
  | some u =>
    rw [ageAt_known hu]
    simp only [Option.some.injEq, exists_eq_left']
    generalize diffAt s t origin = x
    by_cases hx : x < 549755813888
    · rw [if_pos hx]
      simp [hx]
    · rw [if_neg hx]
      simp [hx]

theorem pixelLive_iff (s : State) (m : HeadMat) (r : LineErrors) (b : BitmapRt) (p : Span) (tP jP : Nat) :
    pixelLive s (spanEntry m r p) b p tP jP = true ↔
      ∃ e, spanEntry m r p = some e ∧ p.void = false
        ∧ (e.internal = true ∨ (verdictAt b jP p.sourceId = true ∧ ageOk s tP p.originUs e.budgetMs = true)) := by
  unfold pixelLive
  cases spanEntry m r p with
  | none => simp
  | some e => simp

/-- Settles O27: a bound pixel is emitted as the judgement has it, and the judgement is the guarantee's. -/
theorem everyPixelIsJudged : Obligations.EveryPixelIsJudged := by
  unfold Obligations.EveryPixelIsJudged
  refine ⟨?composed, ?judgement, ?marked⟩
  case composed =>
    intro s key h n side held x c a p hp
    refine ⟨fun hu => ?_, fun hu hl => ?_, fun hu hl => ?_⟩
    · rw [emitComposed_unbound hp hu]
      exact ⟨rfl, rfl, rfl⟩
    · rw [emitComposed_bound hp hu]
      obtain ⟨w, hw⟩ := judged_entry hl
      exact ⟨w, hw, emitBound_live hl hw held c a⟩
    · rw [emitComposed_bound hp hu]
      obtain ⟨⟨r, hr⟩, hs, hf⟩ := emitBound_scorched hl held c a
      exact ⟨r, hr, hs, hf⟩
  case judgement =>
    intro s m r b p tP jP
    simp only [pixelLive_iff, spanEntry_eq_some, ageOk_iff, and_assoc]
  case marked =>
    intro s key h n x c a hk
    unfold emitPixel
    obtain hk | hk := hk <;> rw [hk] <;> exact ⟨rfl, rfl⟩

end Sys2Proof.Machine
end

-- Selection at the latch point (R141, R142)
section
/-! SUPPORT. What a latch changes: layers, heads and writebacks of the composition, and what reports; the offers of a layer rest on none
of it. -/

namespace Sys2Proof.Machine

open Sys2Proof

/-- Only layers, heads and writebacks of the composition differ, and what reports. -/
def Selecting (s t : State) : Prop :=
  Reporting { s with compose := { s.compose with layers := t.compose.layers, heads := t.compose.heads, writebacks := t.compose.writebacks } } t

namespace Selecting

variable {a b c : State}

theorem refl (s : State) : Selecting s s := rfl

theorem trans (h : Selecting a b) (k : Selecting b c) : Selecting a c := by
  unfold Selecting Reporting at *
  rw [k, h]

theorem of_reporting (h : Reporting a b) : Selecting a b := by
  unfold Selecting Reporting at *
  rw [h]

theorem foldl {α : Type} {g : State → α → State} (h : ∀ s x, Selecting s (g s x)) (l : List α) (s : State) : Selecting s (l.foldl g s) := by
  induction l generalizing s with
  | nil => exact .refl s
  | cons x l ih => exact (h s x).trans (ih _)

/-- What a layer is offered, and whether its pipe is in a test, is as before. -/
theorem candidate (h : Selecting a b) (hs : HeadScene) (i : Nat) (l : Layer) : candidate b hs i l = candidate a hs i l := by
  rw [h]
  rfl

theorem pipeTested (h : Selecting a b) (k i : Nat) : pipeTested b k i = pipeTested a k i := by
  rw [h]
  rfl

end Selecting

theorem setLayer_selecting (h i : Nat) (r : LayerRt) (s : State) : Selecting s (setLayer h i r s) := rfl

theorem restLayer_selecting (h i : Nat) (o : Bool) (s : State) : Selecting s (restLayer h i o s) := by
  unfold restLayer
  split
  · exact setLayer_selecting ..
  · exact .refl s

theorem tellVoid_reporting (h i n : Nat) (v : Bool) (s : State) : Reporting s (tellVoid h i n v s) := by
  unfold tellVoid
  split
  · exact raise_reporting ..
  · exact .refl s

theorem selectLayer_selecting (h n : Nat) (hs : HeadScene) (i : Nat) (l : Layer) (o : Bool) (s : State) :
    Selecting s (selectLayer h n hs i l o s) := by
  unfold selectLayer
  refine Selecting.trans (b := tellVoid ..) (.of_reporting ?_) (setLayer_selecting ..)
  refine Reporting.trans ?_ (tellVoid_reporting ..)
  split
  · exact raiseLimited_reporting ..
  · exact .refl s

/-- The start of a frame changes the writeback of its head alone (R161). -/
theorem beginWriteback_cases (n h : Nat) (s : State) :
    beginWriteback n h s = s
    ∨ ∃ w, Reporting (s.modCompose fun c => { c with writebacks := mapPut c.writebacks h w }) (beginWriteback n h s) := by
  have told {p : Prop} [Decidable p] {a b : State} (k : Reporting a b) : Reporting a (if p then b else a) := by
    split
    · exact k
    · exact .refl a
  unfold beginWriteback
  split
  · exact .inl rfl
  · exact .inr ⟨_, told (raise_reporting ..)⟩

theorem beginWriteback_selecting (n h : Nat) (s : State) : Selecting s (beginWriteback n h s) := by
  obtain e | ⟨w, hw⟩ := beginWriteback_cases n h s
  · rw [e]
    exact .refl s
  · exact Selecting.trans (b := s.modCompose fun c => { c with writebacks := mapPut c.writebacks h w }) rfl (.of_reporting hw)

/-! ## The layers of a head -/

theorem layerRt_setLayer (h i : Nat) (r : LayerRt) (s : State) : layerRt (setLayer h i r s) h i = r := by
  show mapGetD (mapPut s.compose.layers (layerKey h i) r) (layerKey h i) emptyLayerRt = r
  unfold mapGetD
  rw [mapGet_mapPut_self]
  rfl

theorem layerRt_setLayer_ne {h i k j : Nat} (hne : layerKey h i ≠ layerKey k j) (r : LayerRt) (s : State) :
    layerRt (setLayer k j r s) h i = layerRt s h i := by
  show mapGetD (mapPut s.compose.layers (layerKey k j) r) (layerKey h i) emptyLayerRt = _
  unfold mapGetD
  rw [mapGet_mapPut_ne _ _ hne]
  rfl

theorem layerKey_inj {h i k j : Nat} (hi : i < 20) (hj : j < 20) (e : layerKey h i = layerKey k j) : h = k ∧ i = j := by
  unfold layerKey at e
  omega

theorem layerRt_congr {s t : State} (h : t.compose.layers = s.compose.layers) (k i : Nat) : layerRt t k i = layerRt s k i := by
  unfold layerRt
  rw [h]

theorem tellVoid_compose (h i n : Nat) (v : Bool) (s : State) : (tellVoid h i n v s).compose = s.compose := (tellVoid_reporting ..).compose

theorem layerRt_selectLayer_ne {h i k j : Nat} (hne : layerKey h i ≠ layerKey k j) (n : Nat) (hs : HeadScene) (l : Layer) (o : Bool) (s : State) :
    layerRt (selectLayer k n hs j l o s) h i = layerRt s h i := by
  unfold selectLayer
  rw [layerRt_setLayer_ne hne]
  refine layerRt_congr ?_ h i
  rw [tellVoid_compose]
  split
  · exact congrArg ComposeSt.layers (raiseLimited_reporting ..).compose
  · rfl

theorem layerRt_restLayer_ne {h i k j : Nat} (hne : layerKey h i ≠ layerKey k j) (o : Bool) (s : State) :
    layerRt (restLayer k j o s) h i = layerRt s h i := by
  unfold restLayer
  split
  · exact layerRt_setLayer_ne hne ..
  · rfl

/-- The layer shows `c`, and is neither void nor switched off. -/
def Shows (h i : Nat) (c : Shown) (s : State) : Prop :=
  (layerRt s h i).cur = some c ∧ (layerRt s h i).void = false ∧ (layerRt s h i).underrun = none

theorem Shows.congr {h i : Nat} {c : Shown} {s t : State} (k : Shows h i c s) (e : layerRt t h i = layerRt s h i) : Shows h i c t := by
  unfold Shows
  rw [e]
  exact k

/-- The newest content, of the recorded size, is selected (R141). -/
theorem selectLayer_shows {h i : Nat} {hs : HeadScene} {l : Layer} {c : Shown} {s : State} (hc : candidate s hs i l = some c)
    (hw : c.width = l.frameW) (hh : c.height = l.frameH) (hp : pipeTested s h i = false) (n : Nat) (o : Bool) :
    Shows h i c (selectLayer h n hs i l o s) := by
  unfold Shows selectLayer
  simp only [layerRt_setLayer]
  simp [hc, hw, hh, hp, leaveOld]

/-- What one member of a list brings about, and the others keep, holds after all of them. -/
theorem foldl_brings {α : Type} {g : State → α → State} {R Q : State → Prop} {a : α} (hR : ∀ s x, R s → R (g s x))
    {l : List α} (hQ : ∀ s x, x ∈ l → x ≠ a → R s → Q s → Q (g s x)) (ha : ∀ s, R s → Q (g s a)) (hl : a ∈ l) {s : State} (hs : R s) :
    Q (l.foldl g s) := by
  have keep (l : List α) (hQ : ∀ s x, x ∈ l → x ≠ a → R s → Q s → Q (g s x)) (s : State) (hs : R s) (hq : Q s) : Q (l.foldl g s) := by
    induction l generalizing s with
    | nil => exact hq
    | cons x l ih =>
      refine ih (fun s y hy => hQ s y (List.mem_cons_of_mem _ hy)) _ (hR s x hs) ?_
      by_cases hx : x = a
      · subst hx
        exact ha s hs
      · exact hQ s x List.mem_cons_self hx hs hq
  induction l generalizing s with
  | nil => exact absurd hl List.not_mem_nil
  | cons x l ih =>
    by_cases hx : x = a
    · subst hx
      exact keep l (fun s y hy => hQ s y (List.mem_cons_of_mem _ hy)) _ (hR s x hs) (ha s hs)
    · exact ih (fun s y hy => hQ s y (List.mem_cons_of_mem _ hy)) ((List.mem_cons.mp hl).resolve_left fun e => hx e.symm) (hR s x hs)

/-! ## The heads of a group -/

/-- One layer of a head at its latch point. -/
def latchLayer (h n : Nat) (hs : HeadScene) (on oldDone : Bool) (s : State) (i : Nat) : State :=
  match (mapGet hs.layers i).filter fun l => on && l.enable = 1 with
  | some l => selectLayer h n hs i l oldDone s
  | none => restLayer h i oldDone s

theorem latchLayer_selecting (h n : Nat) (hs : HeadScene) (on o : Bool) (s : State) (i : Nat) : Selecting s (latchLayer h n hs on o s i) := by
  unfold latchLayer
  split
  · exact selectLayer_selecting ..
  · exact restLayer_selecting ..

theorem layerRt_latchLayer_ne {h i k j : Nat} (hne : layerKey h i ≠ layerKey k j) (n : Nat) (hs : HeadScene) (on o : Bool) (s : State) :
    layerRt (latchLayer k n hs on o s j) h i = layerRt s h i := by
  unfold latchLayer
  split
  · exact layerRt_selectLayer_ne hne ..
  · exact layerRt_restLayer_ne hne ..

/-- The layers of a head after its latch. -/
def latchLayers (h n : Nat) (hs : HeadScene) (on oldDone : Bool) (s : State) : State :=
  (List.range 20).foldl (latchLayer h n hs on oldDone) s

theorem latchHead_eq (n start : Nat) (b : SceneBank) (h : Nat) (s : State) :
    ∃ c, latchHead n start b h s
      = (latchLayers h n (headScene b h) (headOn b h) (((mapGet s.compose.heads h).map CompHead.now).filter linesLeft).isNone s).modCompose
          fun x => { x with heads := mapPut x.heads h c } := ⟨_, rfl⟩

theorem latchHead_selecting (n start : Nat) (b : SceneBank) (h : Nat) (s : State) : Selecting s (latchHead n start b h s) := by
  obtain ⟨c, hc⟩ := latchHead_eq n start b h s
  rw [hc]
  exact Selecting.trans (b := latchLayers ..) (.foldl (g := latchLayer h n (headScene b h) (headOn b h) _) (fun s i => latchLayer_selecting h n (headScene b h) (headOn b h) _ s i) (List.range 20) s) rfl

theorem layerRt_latchHead_ne {h i k : Nat} (hi : i < 20) (hk : k ≠ h) (n start : Nat) (b : SceneBank) (s : State) :
    layerRt (latchHead n start b k s) h i = layerRt s h i := by
  obtain ⟨c, hc⟩ := latchHead_eq n start b k s
  rw [hc]
  show layerRt (latchLayers ..) h i = _
  unfold latchLayers
  have step (l : List Nat) (hl : ∀ j ∈ l, j < 20) (o : Bool) (s : State) :
      layerRt (l.foldl (latchLayer k n (headScene b k) (headOn b k) o) s) h i = layerRt s h i := by
    induction l generalizing s with
    | nil => rfl
    | cons j l ih =>
      rw [List.foldl_cons, ih fun x hx => hl x (List.mem_cons_of_mem _ hx)]
      exact layerRt_latchLayer_ne (fun e => hk (layerKey_inj hi (hl j List.mem_cons_self) e).1.symm) ..
  exact step _ (fun j hj => List.mem_range.mp hj) _ s

theorem latchHead_shows {h i n : Nat} {b : SceneBank} {l : Layer} {c : Shown} {s : State} (hi : i < 20) (hon : headOn b h = true)
    (hl : mapGet (headScene b h).layers i = some l) (he : l.enable = 1) (hc : candidate s (headScene b h) i l = some c)
    (hw : c.width = l.frameW) (hh : c.height = l.frameH) (hp : pipeTested s h i = false) (start : Nat) :
    Shows h i c (latchHead n start b h s) := by
  obtain ⟨k, hk⟩ := latchHead_eq n start b h s
  rw [hk]
  refine Shows.congr (s := latchLayers ..) ?_ rfl
  refine foldl_brings (R := Selecting s) (a := i) (fun u j hu => hu.trans (latchLayer_selecting ..)) (fun u j hm hj hu hq => ?_)
    (fun u hu => ?_) (List.mem_range.mpr hi) (.refl s)
  · exact hq.congr (layerRt_latchLayer_ne (fun e => hj (layerKey_inj hi (List.mem_range.mp hm) e).2.symm) ..)
  · unfold latchLayer
    simp only [hl, Option.filter_some, hon, he, decide_true, Bool.and_self, if_true]
    exact selectLayer_shows ((hu.candidate ..).trans hc) hw hh ((hu.pipeTested ..).trans hp) ..

theorem beginWriteback_layerRt (n k : Nat) (s : State) (h i : Nat) : layerRt (beginWriteback n k s) h i = layerRt s h i := by
  obtain e | ⟨w, hw⟩ := beginWriteback_cases n k s
  · rw [e]
  · exact layerRt_congr (congrArg ComposeSt.layers hw.compose) h i

/-! ## What follows the heads -/

theorem compose_foldl {α : Type} {g : State → α → State} (h : ∀ s x, (g s x).compose = s.compose) (l : List α) (s : State) :
    (l.foldl g s).compose = s.compose := by
  induction l generalizing s with
  | nil => rfl
  | cons x l ih => exact (ih _).trans (h s x)

theorem addDue_compose (k : Nat) (r : DueRun) (s : State) : (addDue k r s).compose = s.compose := rfl

theorem orderMoves_compose (g : Nat) (s : State) : (orderMoves g s).compose = s.compose := by
  unfold orderMoves
  exact compose_foldl (fun s h => emit_compose _ s) _ s

theorem latchRuns_compose (g n start : Nat) (s : State) : (latchRuns g n start s).compose = s.compose := by
  unfold latchRuns
  refine compose_foldl (fun s p => ?_) _ s
  dsimp only
  split
  · split
    · exact (raiseLimited_reporting ..).compose
    · exact addDue_compose ..
  · rfl

theorem tellLatch_compose (g : Nat) (r : SyncGroup) (l : Latch) (s : State) : (tellLatch g r l s).compose = s.compose := by
  unfold tellLatch
  split <;> rfl

/-- The heads of a group begin the frame. -/
def latchAll (g : Nat) (l : Latch) (s : State) : State :=
  (latchHeads s g l.frame).foldl (fun t h => beginWriteback l.frame h (latchHead l.frame l.start (bankFor s g l.frame) h t)) s

/-- After the heads, nothing of a latch changes the composition. -/
theorem latch_compose (g : Nat) (l : Latch) (s : State) : (latch g l s).compose = (latchAll g l s).compose := by
  unfold latch
  dsimp only
  rw [latchRuns_compose]
  show (lateRuns _ _ _ _).compose = _
  unfold lateRuns
  rw [State.modOverlay_compose]
  split
  · split
    · rw [State.modScene_compose, orderMoves_compose]
      rfl
    · rfl
  · rfl

theorem layerRt_latch (g : Nat) (l : Latch) (s : State) (h i : Nat) : layerRt (latch g l s) h i = layerRt (latchAll g l s) h i :=
  layerRt_congr (congrArg ComposeSt.layers (latch_compose ..)) h i

/-- A head of the group shows the newest content of a layer that it enables (R141). -/
theorem latchAll_shows {g h i : Nat} {n : Latch} {l : Layer} {c : Shown} {s : State} (hm : h ∈ latchHeads s g n.frame) (hi : i < 20)
    (hon : headOn (bankFor s g n.frame) h = true) (hl : mapGet (headScene (bankFor s g n.frame) h).layers i = some l) (he : l.enable = 1)
    (hc : candidate s (headScene (bankFor s g n.frame) h) i l = some c) (hw : c.width = l.frameW) (hh : c.height = l.frameH)
    (hp : pipeTested s h i = false) : Shows h i c (latchAll g n s) := by
  unfold latchAll
  refine foldl_brings (R := Selecting s) (a := h)
    (fun u k hu => (hu.trans (latchHead_selecting ..)).trans (beginWriteback_selecting ..)) (fun u k _ hk hu hq => ?_) (fun u hu => ?_) hm (.refl s)
  · exact hq.congr ((beginWriteback_layerRt ..).trans (layerRt_latchHead_ne hi hk ..))
  · exact (latchHead_shows hi hon hl he ((hu.candidate ..).trans hc) hw hh ((hu.pipeTested ..).trans hp) _).congr
      (beginWriteback_layerRt ..)

/-- Settles O19: the heads of the group are latched one after another, and neither an earlier one nor what follows changes the selection. -/
theorem layersSelectTheNewestContent : Obligations.LayersSelectTheNewestContent := by
  unfold Obligations.LayersSelectTheNewestContent
  intro g r n h i l c s hr hn hin hp
  dsimp only
  intro hm hon hi hl he hc hw hh ht
  refine completes_of_exec (t := tellLatch g r n (latch g n (applyAt g s))) ?_ ?_
  · change execLatchPoint g s = _
    simp [execLatchPoint, hr, hn, hin, hp]
  · have hs : Shows h i c (latchAll g n (applyAt g s)) := latchAll_shows hm hi hon hl he hc hw hh ht
    exact hs.congr ((layerRt_congr (congrArg ComposeSt.layers (tellLatch_compose ..)) h i).trans (layerRt_latch ..))

end Sys2Proof.Machine
end

-- Frames of any parts of the state
section
/-! SUPPORT. A frame as a function that sets parts of the state back: it lets reporting through, and frames chain. -/

namespace Sys2Proof.Machine

open Sys2Proof

/-- What sets back none of the parts that reporting changes, and does so whatever they are. -/
def SetsBack (g : State → State) : Prop :=
  ∀ (v : State) (a : HostSt) (b : QueueSt) (c : MgmtSt) (d : LinkSt) (e : List Out),
    g { v with host := a, queue := b, mgmt := c, link := d, outbox := e } = { g v with host := a, queue := b, mgmt := c, link := d, outbox := e }

theorem Reporting.setBack {u t : State} (h : Reporting u t) {g : State → State} (hg : SetsBack g) : Reporting (g u) (g t) := by
  unfold Reporting at *
  rw [h, hg]

/-- `keep s t` is `t` with some parts as in `s`. -/
structure Frame (keep : State → State → State) : Prop where
  back : ∀ s, SetsBack (keep s)
  again : ∀ a b c, keep a (keep b c) = keep a c
  self : ∀ a, keep a a = a

namespace Frame

variable {keep : State → State → State} (hk : Frame keep)
include hk

theorem trans {a b c : State} (h : Reporting a (keep a b)) (k : Reporting b (keep b c)) : Reporting a (keep a c) := by
  have := k.setBack (hk.back a)
  rw [hk.again] at this
  exact h.trans this

theorem of_reporting {a b : State} (h : Reporting a b) : Reporting a (keep a b) := by
  have := h.setBack (hk.back a)
  rwa [hk.self] at this

theorem reporting {a b c : State} (h : Reporting a (keep a b)) (k : Reporting b c) : Reporting a (keep a c) :=
  h.trans (k.setBack (hk.back a))

/-- What keeps more parts keeps these. -/
theorem widen {a b : State} {g : State → State} (h : Reporting a (g b)) (hg : keep a (g b) = keep a b) : Reporting a (keep a b) := by
  have := hk.of_reporting h
  rwa [hg] at this

theorem foldl {α : Type} {g : State → α → State} (h : ∀ s x, Reporting s (keep s (g s x))) (l : List α) (s : State) :
    Reporting s (keep s (l.foldl g s)) := by
  induction l generalizing s with
  | nil => exact hk.of_reporting (.refl s)
  | cons x l ih => exact hk.trans (h s x) (ih _)

end Frame

/-- A command whose rule changes parts of the state that `keep` sets back completes so (R283). -/
theorem Executes.endsFrame {keep : State → State → State} (hk : Frame keep) {d : Desc} {c : HostCmd} {s u : State} (h : Executes d c s)
    (hv : Tells (taken d c s) u) (hu : Reporting (taken d c s) (keep (taken d c s) u)) (st : Nat) (l : Items) :
    Reports d c st l s (complete (ticketOf d (cmdKind c) s) st l u)
      ∧ Reporting s (keep s (complete (ticketOf d (cmdKind c) s) st l u)) :=
  ⟨h.reports hv.view st l, hk.reporting (hk.trans (hk.of_reporting (take_reporting ..)) hu) (complete_reporting ..)⟩

/-- A command refused before it changes anything (R283). -/
theorem Executes.refused {d : Desc} {c : HostCmd} {s : State} (h : Executes d c s) (st : Nat) (l : Items) :
    Reports d c st l s (complete (ticketOf d (cmdKind c) s) st l (taken d c s))
      ∧ Reporting s (complete (ticketOf d (cmdKind c) s) st l (taken d c s)) :=
  ⟨h.reports rfl st l, (take_reporting ..).trans (complete_reporting ..)⟩

/-! ## Bytes of fields -/

@[simp] theorem length_leBytes (n : Nat) (v : Int) : (leBytes n v).length = n := by
  induction n generalizing v with
  | zero => rfl
  | succ n ih => simp [leBytes, ih]

theorem length_itemBytes (l : Items) : (itemBytes l).length = (l.map Prod.fst).sum := by
  induction l with
  | nil => rfl
  | cons p l ih => simpa [itemBytes, List.flatMap_cons] using ih

@[simp] theorem length_recordBytes (n : Nat) (l : Items) : (recordBytes n l).length = n := by simp [recordBytes]

end Sys2Proof.Machine
end

-- Messages to the management pair (R420)
section
/-! SUPPORT. A message of a kind is answered into the same slot of the host's mailbox. -/

namespace Sys2Proof.Machine

open Sys2Proof

theorem frame_mbx : Frame fun s t => { t with mbx := s.mbx } where
  back _ _ _ _ _ _ _ := rfl
  again _ _ _ := rfl
  self _ := rfl

/-- The pair serves its mail only in a state in which the host's mailbox is served too. -/
theorem answersMail_serving {s : State} (h : answersMail s = true) (ha : s.host.attached = true) : serving s 33 = true := by
  unfold answersMail serving at h
  unfold serving
  split at h
  · simp at h
  · next hoff => simp [hoff, ha]

/-- The body of an answer: kind and tag of the message, the status, the payload filled up with zeros (R420). -/
def answerBody (m : List Byte) (status : Nat) (payload : List Byte) : List Byte :=
  m.take 2 ++ leBytes 2 (status : Int) ++ (payload ++ List.replicate 60 0).take 60

theorem slotKey_ne (slot : Nat) : slotKey 0 slot ≠ slotKey 33 slot := by unfold slotKey; omega

/-- An answer is in the host's slot, the message is gone, and nothing but mailboxes has changed (R420). -/
theorem mailReply_answers {slot : Nat} {x : Slot} {s : State} (hx : mapGet s.mbx.slots (slotKey 0 slot) = some x) (hs : serving s 33 = true)
    (m : List Byte) (status : Nat) (payload : List Byte) :
    let t := mailReply slot m status payload s
    (∃ y, mapGet t.mbx.slots (slotKey 33 slot) = some y ∧ y.full = true ∧ y.sender = 0 ∧ y.msg = answerBody m status payload)
      ∧ (∃ y, mapGet t.mbx.slots (slotKey 0 slot) = some y ∧ y.full = false) ∧ Reporting s { t with mbx := s.mbx } := by
  have hs' : serving (mbxClear 0 slot s) 33 = true := hs
  obtain ⟨hr, -⟩ := mbxStore_serving hs' slot 0 (answerBody m status payload)
  have hm : (mailReply slot m status payload s).mbx = (posted 33 slot 0 (answerBody m status payload) (mbxClear 0 slot s)).mbx := hr.mbx
  refine ⟨⟨_, by rw [hm]; exact mapGet_mapPut_self .., rfl, rfl, rfl⟩, ⟨{ x with full := false, collision := false, senderReset := false }, ?_, rfl⟩,
    frame_mbx.reporting (b := posted 33 slot 0 (answerBody m status payload) (mbxClear 0 slot s)) rfl hr⟩
  rw [hm]
  refine (mapGet_mapPut_ne _ _ (slotKey_ne slot)).trans ?_
  simp [mbxClear, mapGet_mapUpd, hx]

theorem mailAnswer_ok {slot kind : Nat} {x : Slot} {s : State} (hx : mapGet s.mbx.slots (slotKey 0 slot) = some x) (hf : x.full = true)
    (ha : answersMail s = true) (hk : msgByte x.msg 0 = kind) (answer : List Byte → State → Nat × List Byte) :
    mailAnswer slot kind answer s = mailReply slot x.msg (answer x.msg s).1 (answer x.msg s).2 s := by
  simp [mailAnswer, mapGetD, hx, hf, ha, hk]

theorem answerBody_exact {payload : List Byte} (h : payload.length = 60) (m : List Byte) : answerBody m 0 payload = m.take 2 ++ [0, 0] ++ payload := by
  unfold answerBody
  rw [← h, List.take_left' rfl]
  rfl

theorem answerBody_padded (m payload : List Byte) (n : Nat) (h : payload.length + n = 60) :
    answerBody m 0 payload = m.take 2 ++ [0, 0] ++ payload ++ List.replicate n 0 := by
  unfold answerBody
  have hp : (payload ++ List.replicate 60 0).take 60 = payload ++ List.replicate n (0 : Byte) := by
    rw [List.take_append, List.take_of_length_le (Nat.le.intro h), List.take_replicate]
    congr 2
    omega
  rw [hp, ← List.append_assoc]
  rfl

theorem answerBody_cut {payload : List Byte} (h : 60 ≤ payload.length) (m : List Byte) :
    answerBody m 0 payload = m.take 2 ++ [0, 0] ++ payload.take 60 := by
  unfold answerBody
  rw [List.take_append_of_le_length h]
  rfl

/-- Settles O42: each kind is answered with its payload. -/
theorem managementAnswersItsMail : Obligations.ManagementAnswersItsMail := by
  unfold Obligations.ManagementAnswersItsMail
  refine ⟨?echo, ?status, ?log⟩
  case echo =>
    intro slot x s hx hf ha hh hlt hk hl
    refine completes_of_exec (t := mailReply slot x.msg 0 (x.msg.drop 4) s) (congrArg Host.Outcome.next (mailAnswer_ok hx hf ha hk _)) ?_
    rw [← answerBody_exact (by simp [hl])]
    exact mailReply_answers hx (answersMail_serving ha hh) ..
  case status =>
    intro slot x s hx hf ha hh hlt hk hl
    refine completes_of_exec (t := mailReply slot x.msg 0 _ s) (congrArg Host.Outcome.next (mailAnswer_ok hx hf ha hk _)) ?_
    rw [← answerBody_padded x.msg _ 36 (by simp [length_itemBytes, it])]
    obtain ⟨⟨y, hy, hfull, -, hmsg⟩, -, hr⟩ := mailReply_answers hx (answersMail_serving ha hh) x.msg 0
      (itemBytes [it 4 (identState s), it 4 (mgmtStatusWord s), it 4 (mgmtTemp s), it 4 s.mgmt.bootCount, it 4 s.mgmt.resetCause,
        it 4 s.mgmt.logSeq])
    exact ⟨⟨y, hy, hfull, hmsg⟩, hr⟩
  case log =>
    intro slot x n r s hx hf ha hh hlt hl hk hn hr
    subst hn
    have hlen : 60 ≤ (logBytes r).length := by simp [logBytes, length_itemBytes, logItems, it]
    refine completes_of_exec (t := mailReply slot x.msg 0 (logBytes r) s)
      (congrArg Host.Outcome.next ((mailAnswer_ok hx hf ha hk _).trans (by dsimp only; rw [hr]))) ?_
    rw [← answerBody_cut hlen]
    obtain ⟨⟨y, hy, hfull, -, hmsg⟩, -, hrep⟩ := mailReply_answers hx (answersMail_serving ha hh) x.msg 0 (logBytes r)
    exact ⟨⟨y, hy, hfull, hmsg⟩, hrep⟩

end Sys2Proof.Machine
end

-- Commands of the recording encoder (R228 to R231, R243, R244, R247, R248)
section
/-! SUPPORT. The frames of the recording state, its sessions, and the commands with their checks passed. -/

namespace Sys2Proof.Machine

open Sys2Proof

theorem frame_record : Frame fun s t => { t with record := s.record } where
  back _ _ _ _ _ _ _ := rfl
  again _ _ _ := rfl
  self _ := rfl

theorem frame_recordTs : Frame fun s t => { t with record := s.record, ts := s.ts } where
  back _ _ _ _ _ _ _ := rfl
  again _ _ _ := rfl
  self _ := rfl

theorem frame_recordGates : Frame fun s t => { t with record := s.record, gates := s.gates } where
  back _ _ _ _ _ _ _ := rfl
  again _ _ _ := rfl
  self _ := rfl

theorem frame_recordGatesTs : Frame fun s t => { t with record := s.record, gates := s.gates, ts := s.ts } where
  back _ _ _ _ _ _ _ := rfl
  again _ _ _ := rfl
  self _ := rfl

theorem complete_record (tk : Ticket) (st : Nat) (l : Items) (s : State) : (complete tk st l s).record = s.record :=
  (complete_reporting ..).record

theorem complete_gates (tk : Ticket) (st : Nat) (l : Items) (s : State) : (complete tk st l s).gates = s.gates := (complete_reporting ..).gates

theorem sessionOf_complete (tk : Ticket) (st : Nat) (l : Items) (s : State) (key : Nat) : sessionOf (complete tk st l s) key = sessionOf s key := by
  unfold sessionOf
  rw [complete_record]

theorem sessionOf_modSession (key : Nat) (f : Session → Session) (s : State) (k : Nat) :
    sessionOf (modSession key f s) k = if k = key then (sessionOf s key).map f else sessionOf s k := mapGet_mapUpd ..

theorem modSession_tells (key : Nat) (f : Session → Session) (s : State) : Tells s (modSession key f s) := .same rfl rfl rfl rfl

theorem mapHas_of_get {α : Type} {m : Map α} {k : Nat} {v : α} (h : mapGet m k = some v) : mapHas m k = true := by
  unfold mapHas
  rw [h]
  rfl

theorem mapHas_of_none {α : Type} {m : Map α} {k : Nat} (h : mapGet m k = none) : mapHas m k = false := by
  unfold mapHas
  rw [h]
  rfl

/-- All values changed alike. -/
theorem mapGet_map_snd {α : Type} (f : α → α) (m : Map α) (k : Nat) : mapGet (m.map fun p => (p.1, f p.2)) k = (mapGet m k).map f := by
  induction m with
  | nil => rfl
  | cons p m ih =>
    simp only [List.map_cons, mapGet]
    split
    · rfl
    · exact ih

theorem ticket_in_flight (d : Desc) (c : HostCmd) (s : State) : ticketOf d (cmdKind c) s ∈ (taken d c s).queue.inFlight :=
  List.mem_append_right _ List.mem_cons_self

/-! ## RECORD_START -/

/-- The state with the session that RECORD_START makes (R228 to R231). -/
def sessionMade (b : RecordBody) (s : State) : State :=
  setReturn b.head b.divisor (addCtx (recordCtx b (newSession b s).pipe)
    (s.modRecord fun r => { r with sessions := mapPut r.sessions b.head (newSession b s) }))

theorem recordStartBody_ok {b : RecordBody} {s : State} (h : recordCheck b s = 0) (tk : Ticket) :
    recordStartBody b tk s = complete tk 0 [] (sessionMade b s) := by
  unfold recordStartBody
  rw [h]
  rfl

theorem recordStartBody_refused {b : RecordBody} {s : State} (h : recordCheck b s ≠ 0) (tk : Ticket) :
    recordStartBody b tk s = complete tk (recordCheck b s) [] s := by
  unfold recordStartBody
  simp only [bne_iff_ne, ne_eq, h, not_false_eq_true, if_true]

theorem sessionMade_tells (b : RecordBody) (s : State) : Tells s (sessionMade b s) := .same rfl rfl rfl rfl

theorem sessionMade_frame (b : RecordBody) (s : State) :
    Reporting s { sessionMade b s with record := s.record, gates := s.gates, ts := s.ts } := rfl

theorem headRt_setReturn (key n : Nat) (s : State) : (headRt (setReturn key n s) key).returnDiv = n := by
  unfold setReturn
  rw [headRt_putHead]

/-! ## The self-test of a pipeline -/

/-- A pipeline that carries no session codes no picture. -/
theorem codedNow_none {pipe : Nat} {s : State} (h : pipeCarries s pipe = false) : codedNow s pipe = none := by
  have hnone : (s.record.sessions.filter fun p => p.2.pipe = pipe && !p.2.input.isEmpty) = [] := by
    unfold pipeCarries at h
    simp only [Bool.or_eq_false_iff, mapVals, List.any_map, List.any_eq_false, Function.comp_apply, decide_eq_true_eq] at h
    simp only [List.filter_eq_nil_iff, Bool.and_eq_true, decide_eq_true_eq, not_and]
    exact fun p hp he => absurd he (h.1 p hp)
  unfold codedNow
  rw [hnone]
  rfl

theorem encodeSelftestBody_ok {pipe : Nat} {s : State} (hp : pipe ≤ 1) (ht : mapGet s.record.tests pipe = none)
    (hc : pipeCarries s pipe = false) (tk : Ticket) :
    encodeSelftestBody pipe tk s = s.modRecord fun r => { r with tests := mapPut r.tests pipe tk } := by
  unfold encodeSelftestBody
  rw [if_neg (Nat.not_lt.mpr hp), mapHas_of_none ht, hc, codedNow_none hc]
  rfl

theorem encodeSelftestBody_refused {pipe : Nat} {s : State} (hp : pipe ≤ 1) (hc : pipeCarries s pipe = true) (hm : s.module.mode ≠ .maintenance)
    (tk : Ticket) : encodeSelftestBody pipe tk s = complete tk 0x0384 [] s := by
  unfold encodeSelftestBody
  rw [if_neg (Nat.not_lt.mpr hp), hc]
  simp [hm]

/-- A picture is coded from the start after a self-test on its pipeline (R248). -/
def resumed (pipe : Nat) (x : Session) : Session := if x.pipe = pipe then { x with forceIdr := true } else x

/-- The pipeline's test has ended. -/
def testEnded (pipe : Nat) (s : State) : State :=
  s.modRecord fun r => { r with tests := mapDel r.tests pipe, sessions := r.sessions.map fun p => (p.1, resumed pipe p.2) }

theorem exec_encodeSelftestDone {pipe : Nat} {tk : Ticket} {s : State} (h : mapGet s.record.tests pipe = some tk) (pass : Bool) :
    exec (.encodeSelftestDone pipe pass) s = .next (complete tk 0 [it 1 (flag !pass)] (testEnded pipe s)) := by
  change execEncodeSelftestDone pipe pass s = _
  unfold execEncodeSelftestDone
  rw [h]
  rfl

theorem testEnded_tells (pipe : Nat) (s : State) : Tells s (testEnded pipe s) := .same rfl rfl rfl rfl

theorem sessionOf_testEnded (pipe : Nat) (s : State) (key : Nat) : sessionOf (testEnded pipe s) key = (sessionOf s key).map (resumed pipe) :=
  mapGet_map_snd ..

/-! ## The end of a session -/

theorem endSession_tells (key : Nat) (s : State) : Tells s (endSession key s) := by
  unfold endSession
  split
  · exact .refl s
  · exact .same rfl rfl rfl rfl

theorem endSession_eq {key : Nat} {x : Session} {s : State} (h : sessionOf s key = some x) :
    endSession key s = s.modRecord fun r =>
      { r with sessions := mapDel r.sessions key, guards := mapPut r.guards x.body.workBase (x.body.workSize, key) } := by
  unfold endSession
  rw [h]

theorem exec_recordStopComplete {key : Nat} {x : Session} {tk : Ticket} {s : State} (h : sessionOf s key = some x) (ht : x.stopping = some tk)
    (hi : x.input = []) : exec (.recordStopComplete key) s = .next (complete tk 0 [] (endSession key s)) := by
  change execRecordStopComplete key s = _
  simp [execRecordStopComplete, h, ht, hi]

/-- The guarded region of a session that has ended is free again. -/
def regionFreed (base key : Nat) (s : State) : State :=
  dropCtx (.record key base) (s.modRecord fun r => { r with guards := mapDel r.guards base })

theorem exec_recordReleased {base size key : Nat} {s : State} (h : mapGet s.record.guards base = some (size, key))
    (hc : contextHeld s (.record key base) = false) :
    exec (.recordReleased base) s = .next (raise 0x0885 .head key [it 8 base] (regionFreed base key s)) := by
  change execRecordReleased base s = _
  simp only [execRecordReleased, h, hc, Bool.false_eq_true, if_false]
  rfl

theorem dropCtx_gone (c : Context) (s : State) : ∀ x ∈ (dropCtx c s).gates.contexts, x.ctx ≠ c := by
  intro x hx
  have := (List.mem_filter.mp hx).2
  simpa using this

theorem recordStopBody_ok {key : Nat} {x : Session} {s : State} (hk : key ≤ 31) (h : sessionOf s key = some x) (hs : x.stopping = none)
    (abort : Bool) (tk : Ticket) :
    recordStopBody key abort tk s
      = setReturn key 0 (modSession key (fun x => { x with stopping := some tk, input := if abort then [] else x.input }) s) := by
  unfold recordStopBody
  rw [if_neg (Nat.not_lt.mpr hk)]
  simp only [h, hs, Option.isSome_none, Bool.false_eq_true, if_false]

theorem recordForceIdrBody_ok {key : Nat} {x : Session} {s : State} (hk : key ≤ 31) (h : sessionOf s key = some x) (tk : Ticket) :
    recordForceIdrBody key tk s = complete tk 0 [] (modSession key (fun x => { x with forceIdr := true }) s) :=
  (if_neg (Nat.not_lt.mpr hk)).trans (if_pos (mapHas_of_get h))

theorem recordForceIdrBody_refused {key : Nat} {s : State} (hk : key ≤ 31) (h : sessionOf s key = none) (tk : Ticket) :
    recordForceIdrBody key tk s = complete tk 0x0383 [] s :=
  (if_neg (Nat.not_lt.mpr hk)).trans (if_neg (Bool.eq_false_iff.mp (mapHas_of_none h)))

theorem recordStatsBody_newest {key : Nat} {x : Session} {r : StatRec} {l : List StatRec} {s : State} (hk : key ≤ 31)
    (h : sessionOf s key = some x) (he : x.body.statsEn = true) (hl : x.stats = r :: l) (tk : Ticket) :
    recordStatsBody key tk s = completeWrite tk (statItems key r) [it 4 (statBytes x.width x.height)] s := by
  unfold recordStatsBody
  rw [if_neg (Nat.not_lt.mpr hk)]
  simp only [h, he, hl, Bool.not_true, Bool.false_eq_true, if_false]

theorem recordStatsBody_none {key : Nat} {x : Session} {s : State} (hk : key ≤ 31) (h : sessionOf s key = some x) (he : x.body.statsEn = true)
    (hl : x.stats = []) (tk : Ticket) : recordStatsBody key tk s = complete tk 0 [it 4 0] s := by
  unfold recordStatsBody
  rw [if_neg (Nat.not_lt.mpr hk)]
  simp only [h, he, hl, Bool.not_true, Bool.false_eq_true, if_false]

/-- Settles O28: each command's checks passed, its rule sets the session that its head names. -/
theorem recordingCommandsComplete : Obligations.RecordingCommandsComplete := by
  unfold Obligations.RecordingCommandsComplete
  refine ⟨?start, ?startRefused, ?idr, ?idrRefused, ?stats, ?statsEmpty, ?stop, ?stopEnd, ?released, ?test, ?testRefused, ?testDone⟩
  case start =>
    intro d b s h hc
    refine h.completes rfl ?_
    rw [recordStartBody_ok (s := taken d (.recordStart b) s) hc]
    refine ⟨?_, (congrArg HeadRt.returnDiv (headRt_complete ..)).trans (headRt_setReturn ..), ?_, ?_,
      h.endsFrame frame_recordGatesTs (sessionMade_tells ..) (sessionMade_frame ..) 0 []⟩
    · rw [complete_record]
      exact mapGet_mapPut_self ..
    · rw [complete_gates]
      exact List.mem_append_right _ List.mem_cons_self
    · rw [complete_record]
      rfl
  case startRefused =>
    intro d b s h hc
    refine h.completes rfl ?_
    rw [recordStartBody_refused (s := taken d (.recordStart b) s) hc]
    exact h.refused _ []
  case idr =>
    intro d key x s h hk hx
    refine h.completes rfl ?_
    rw [recordForceIdrBody_ok (s := taken d (.recordForceIdr key) s) hk hx]
    refine ⟨?_, fun k hk => ?_, h.endsFrame frame_record (modSession_tells ..) rfl 0 []⟩
    · rw [sessionOf_complete, sessionOf_modSession, if_pos rfl]
      exact congrArg (Option.map _) hx
    · rw [sessionOf_complete, sessionOf_modSession, if_neg hk]
      rfl
  case idrRefused =>
    intro d key s h hk hx
    refine h.completes rfl ?_
    rw [recordForceIdrBody_refused (s := taken d (.recordForceIdr key) s) hk hx]
    exact h.refused _ []
  case stats =>
    intro d key x r l s h hk hx he hl hd
    refine h.completes rfl ?_
    rw [recordStatsBody_newest (s := taken d (.recordStats key) s) hk hx he hl]
    exact h.writes hd _ _
  case statsEmpty =>
    intro d key x s h hk hx he hl
    refine h.completes rfl ?_
    rw [recordStatsBody_none (s := taken d (.recordStats key) s) hk hx he hl]
    exact h.refused _ _
  case stop =>
    intro d key abort x s h hk hx hs
    refine h.completes rfl ?_
    rw [recordStopBody_ok (s := taken d (.recordStop key abort) s) hk hx hs]
    refine ⟨?_, headRt_setReturn .., ticket_in_flight .., rfl⟩
    refine (sessionOf_modSession ..).trans ?_
    rw [if_pos rfl]
    exact congrArg (Option.map _) hx
  case stopEnd =>
    intro key x tk s hx ht hi
    refine completes_of_exec (exec_recordStopComplete hx ht hi) ?_
    refine ⟨?_, ?_, complete_finishes (endSession_tells ..).view tk 0 [], frame_record.reporting ?_ (complete_reporting ..)⟩
    · rw [sessionOf_complete, endSession_eq hx]
      exact mapGet_mapDel_self ..
    · rw [complete_record, endSession_eq hx]
      exact mapGet_mapPut_self ..
    · rw [endSession_eq hx]
      rfl
  case released =>
    intro base size key s hg hc
    refine completes_of_exec (exec_recordReleased hg hc) ?_
    have hr := raise_reporting 0x0885 .head key [it 8 base] (regionFreed base key s) false
    refine ⟨?_, ?_, ?_, raise_raises _ _ _ _ _ _ _ rfl rfl rfl rfl rfl rfl, frame_recordGates.reporting (b := regionFreed base key s) rfl hr⟩
    · rw [hr.record]
      exact mapGet_mapDel_self ..
    · rw [hr.record]
      rfl
    · rw [hr.gates]
      exact dropCtx_gone _ _
  case test =>
    intro d pipe s h hp ht hc
    refine h.completes rfl ?_
    rw [encodeSelftestBody_ok (s := taken d (.encodeSelftest pipe) s) hp ht hc]
    exact ⟨mapGet_mapPut_self .., ticket_in_flight .., rfl, rfl⟩
  case testRefused =>
    intro d pipe s h hp hc hm
    refine h.completes rfl ?_
    rw [encodeSelftestBody_refused (s := taken d (.encodeSelftest pipe) s) hp hc hm]
    exact h.refused _ []
  case testDone =>
    intro pipe pass tk s ht
    refine completes_of_exec (exec_encodeSelftestDone ht pass) ?_
    simp only [complete_record, sessionOf_complete]
    refine ⟨mapGet_mapDel_self .., fun key x hx => ?_, ?_, frame_record.reporting (b := testEnded pipe s) rfl (complete_reporting ..)⟩
    · rw [sessionOf_testEnded, hx]
      rfl
    · cases pass <;> exact complete_finishes (testEnded_tells ..).view tk 0 _

end Sys2Proof.Machine
end

-- Commands of the overlay engines (R250, R257 to R259, R265, R267)
section
/-! SUPPORT. The frames of the overlay state, its bindings, and the commands with their checks passed. -/

namespace Sys2Proof.Machine

open Sys2Proof

theorem frame_overlay : Frame fun s t => { t with overlay := s.overlay } where
  back _ _ _ _ _ _ _ := rfl
  again _ _ _ := rfl
  self _ := rfl

theorem frame_overlayGates : Frame fun s t => { t with overlay := s.overlay, gates := s.gates } where
  back _ _ _ _ _ _ _ := rfl
  again _ _ _ := rfl
  self _ := rfl

theorem complete_overlay (tk : Ticket) (st : Nat) (l : Items) (s : State) : (complete tk st l s).overlay = s.overlay :=
  (complete_reporting ..).overlay

theorem complete_tells (tk : Ticket) (st : Nat) (l : Items) (s : State) : Adds s (complete tk st l s) := complete_adds ..

/-- Commands that end one after another leave all but rings and their records as they are. -/
theorem completes_reporting (st : Nat) (l : List Ticket) (s : State) : Reporting s (l.foldl (fun s t => complete t st [] s) s) := by
  induction l generalizing s with
  | nil => exact .refl s
  | cons t l ih => exact (complete_reporting ..).trans (ih _)

/-- The state with its overlay part changed. -/
theorem modOverlay_tells (f : OverlaySt → OverlaySt) (s : State) : Tells s (s.modOverlay f) := .same rfl rfl rfl rfl

theorem modOverlay_frame (f : OverlaySt → OverlaySt) (s : State) : Reporting s { s.modOverlay f with overlay := s.overlay } := rfl

/-- A command that changes the overlay part alone and completes (R283). -/
theorem Executes.endsOverlay {d : Desc} {c : HostCmd} {s : State} (h : Executes d c s) (f : OverlaySt → OverlaySt) (st : Nat) (l : Items) :
    let t := complete (ticketOf d (cmdKind c) s) st l ((taken d c s).modOverlay f)
    t.overlay = f s.overlay ∧ Reports d c st l s t ∧ Reporting s { t with overlay := s.overlay } :=
  ⟨complete_overlay .., h.endsFrame frame_overlay (modOverlay_tells ..) (modOverlay_frame ..) st l⟩

/-! ## Lists and fonts -/

/-- No binding names the list. -/
theorem list_unbound {list : Nat} {s : State} (h : ∀ p ∈ s.overlay.bindings, p.2.body.list ≠ list) (q : Nat × Binding → Bool) :
    (s.overlay.bindings.any fun p => q p && decide (p.2.body.list = list)) = false := by
  rw [List.any_eq_false]
  intro p hp
  simp [h p hp]

theorem listFields_ok {list length : Nat} (h1 : list ≤ 255) (h2 : length % 8 = 0) (h3 : 16 ≤ length) (h4 : length ≤ 32768) :
    (decide (255 < list) || length % 8 != 0 || decide (length < 16) || decide (32768 < length)) = false := by
  simp [h2, Nat.not_lt.mpr h1, Nat.not_lt.mpr h3, Nat.not_lt.mpr h4]

theorem overlayListLoadBody_ok {list length : Nat} {bytes : List Byte} {cs : List (Nat × OvCmd)} {s : State} (h1 : list ≤ 255)
    (h2 : length % 8 = 0) (h3 : 16 ≤ length) (h4 : length ≤ 32768) (hp : parseList 4096 0 (bytes.take length) = .inl cs)
    (hu : listStoreUsed s list + length ≤ Config.listStore) (hb : ∀ p ∈ s.overlay.bindings, p.2.body.list ≠ list) {tk : Ticket}
    (hd : tk.dmaOk = true) :
    overlayListLoadBody list length bytes tk s
      = complete tk 0 [] (s.modOverlay fun o => { o with lists := mapPut o.lists list (bytes.take length) }) := by
  have hnone (e : Nat) : (s.overlay.bindings.any fun p => decide (p.2.engine = e) && decide (p.2.body.list = list)) = false := list_unbound hb _
  unfold overlayListLoadBody
  rw [listFields_ok h1 h2 h3 h4]
  simp [hd, hp, Nat.not_lt.mpr hu, hnone]

theorem overlayListLoadBody_bad {list length : Nat} {bytes : List Byte} {off : Nat} (h1 : list ≤ 255) (h2 : length % 8 = 0) (h3 : 16 ≤ length)
    (h4 : length ≤ 32768) (hp : parseList 4096 0 (bytes.take length) = .inr off) {tk : Ticket} (hd : tk.dmaOk = true) (s : State) :
    overlayListLoadBody list length bytes tk s = complete tk 0x0191 [it 4 off] s := by
  unfold overlayListLoadBody
  rw [listFields_ok h1 h2 h3 h4]
  simp [hd, hp]

theorem overlayListFreeBody_ok {list : Nat} {s : State} (h1 : list ≤ 255) (hh : mapHas s.overlay.lists list = true)
    (hb : ∀ p ∈ s.overlay.bindings, p.2.body.list ≠ list) (tk : Ticket) :
    overlayListFreeBody list tk s = complete tk 0 [] (s.modOverlay fun o => { o with lists := mapDel o.lists list }) := by
  have hnone : (s.overlay.bindings.any fun p => decide (p.2.body.list = list)) = false := by
    simpa using list_unbound hb fun _ => true
  unfold overlayListFreeBody
  rw [if_neg (Nat.not_lt.mpr h1), hh, hnone]
  rfl

theorem overlayListFreeBody_bound {list : Nat} {p : Nat × Binding} {s : State} (h1 : list ≤ 255) (hh : mapHas s.overlay.lists list = true)
    (hp : p ∈ s.overlay.bindings) (hl : p.2.body.list = list) (tk : Ticket) : overlayListFreeBody list tk s = complete tk 0x0396 [] s := by
  have hany : (s.overlay.bindings.any fun p => decide (p.2.body.list = list)) = true :=
    List.any_eq_true.mpr ⟨p, hp, decide_eq_true hl⟩
  unfold overlayListFreeBody
  rw [if_neg (Nat.not_lt.mpr h1), hh, hany]
  rfl

/-- The font of a FONT_LOAD. -/
def loadedFont (b : FontBody) : Font := { cellW := b.cellW, cellH := b.cellH, firstCode := b.firstCode, count := b.count, glyphs := b.glyphs }

theorem overlayFontLoadBody_ok {b : FontBody} {s : State} (h1 : 1 ≤ b.font) (h2 : b.font ≤ 15) (h3 : 4 ≤ b.cellW) (h4 : b.cellW ≤ 32)
    (h5 : 4 ≤ b.cellH) (h6 : b.cellH ≤ 64) (h7 : 1 ≤ b.count) (h8 : b.count ≤ 256) (h9 : b.firstCode + b.count ≤ 256)
    (hu : fontStoreUsed s b.font + fontBytes b.cellW b.cellH b.count ≤ Config.fontStore) {tk : Ticket} (hd : tk.dmaOk = true) :
    overlayFontLoadBody b tk s = complete tk 0 [] (s.modOverlay fun o => { o with fonts := mapPut o.fonts b.font (loadedFont b) }) := by
  have hf : (decide (b.font = 0) || decide (15 < b.font) || decide (b.cellW < 4) || decide (32 < b.cellW) || decide (b.cellH < 4)
      || decide (64 < b.cellH) || decide (b.count = 0) || decide (256 < b.count) || decide (256 < b.firstCode + b.count)) = false := by
    simp only [Bool.or_eq_false_iff, decide_eq_false_iff_not]
    omega
  unfold overlayFontLoadBody
  rw [hf]
  simp [hd, Nat.not_lt.mpr hu, loadedFont]

/-! ## Bindings -/

/-- The binding of an OVERLAY_BIND (R259). -/
def newBinding (b : BindBody) (e : Nat) : Binding := { body := b, engine := e, slots := [], due := [], unbinding := none, stopping := false }

/-- The engine of an OVERLAY_BIND: the one named, or the least loaded (R259). -/
def bindEngine (b : BindBody) (s : State) : Nat := if b.engine = 0xFF then leastEngine s else b.engine

theorem overlayBindBody_ok {b : BindBody} {s : State} {tk : Ticket} (h : bindCheck b (bindEngine b s) tk.dmaOk s = 0) :
    overlayBindBody b tk s
      = complete tk 0 [] (s.modOverlay fun o => { o with bindings := mapPut o.bindings b.binding (newBinding b (bindEngine b s)) }) := by
  unfold bindEngine at h
  unfold overlayBindBody
  dsimp only
  rw [h]
  rfl

theorem overlayBindBody_refused {b : BindBody} {s : State} {tk : Ticket} (h : bindCheck b (bindEngine b s) tk.dmaOk s ≠ 0) :
    overlayBindBody b tk s = complete tk (bindCheck b (bindEngine b s) tk.dmaOk s) [] s := by
  unfold bindEngine at *
  unfold overlayBindBody
  dsimp only
  rw [if_pos (by simpa using h)]

theorem bindEngine_taken (b : BindBody) (d : Desc) (c : HostCmd) (s : State) : bindEngine b (taken d c s) = bindEngine b s := rfl

theorem bindCheck_taken (b : BindBody) (e : Nat) (ok : Bool) (d : Desc) (c : HostCmd) (s : State) :
    bindCheck b e ok (taken d c s) = bindCheck b e ok s := rfl

theorem bindings_modBinding (k : Nat) (f : Binding → Binding) (s : State) (j : Nat) :
    mapGet (modBinding k f s).overlay.bindings j = if j = k then (mapGet s.overlay.bindings k).map f else mapGet s.overlay.bindings j :=
  mapGet_mapUpd ..

theorem modBinding_frame (k : Nat) (f : Binding → Binding) (s : State) : Reporting s { modBinding k f s with overlay := s.overlay } := rfl

theorem modBinding_tells (k : Nat) (f : Binding → Binding) (s : State) : Tells s (modBinding k f s) := .same rfl rfl rfl rfl

/-- Due runs discarded: the binding has none, and no other changes (R267). -/
theorem discardDue_bindings {k : Nat} {b : Binding} {s : State} (h : mapGet s.overlay.bindings k = some b) (j : Nat) :
    mapGet (discardDue k s).overlay.bindings j = if j = k then some { b with due := [] } else mapGet s.overlay.bindings j := by
  unfold discardDue
  rw [h]
  dsimp only
  rw [(completes_reporting ..).overlay, bindings_modBinding, h]
  rfl

theorem discardDue_frame (k : Nat) (s : State) : Reporting s { discardDue k s with overlay := s.overlay } := by
  unfold discardDue
  split
  · rfl
  · exact frame_overlay.reporting (modBinding_frame ..) (completes_reporting ..)

theorem overlayUnbindBody_ok {k : Nat} {b : Binding} {s : State} (hk : k ≤ 127) (hb : mapGet s.overlay.bindings k = some b)
    (hu : b.unbinding = none) (tk : Ticket) :
    overlayUnbindBody k tk s = modBinding k (fun b => { b with unbinding := some tk }) (discardDue k s) := by
  unfold overlayUnbindBody
  rw [if_neg (Nat.not_lt.mpr hk)]
  simp [hb, hu]

/-- A binding taken away with its gate context. -/
def bindingGone (k : Nat) (s : State) : State := dropCtx (.overlay k) (s.modOverlay fun o => { o with bindings := mapDel o.bindings k })

theorem exec_overlayUnbindComplete {k : Nat} {b : Binding} {tk : Ticket} {s : State} (hb : mapGet s.overlay.bindings k = some b)
    (hu : b.unbinding = some tk) (hr : bindingRuns s k = false) :
    exec (.overlayUnbindComplete k) s = .next (complete tk 0 [] (bindingGone k s)) := by
  change execOverlayUnbindComplete k s = _
  simp [execOverlayUnbindComplete, hb, hu, hr, bindingGone]

theorem bindingGone_tells (k : Nat) (s : State) : Tells s (bindingGone k s) := .same rfl rfl rfl rfl

/-! ## Runs on command -/

/-- A binding that neither ends nor has stopped takes runs. -/
theorem binding_open {k : Nat} {x : Binding} {s : State} (hx : mapGet s.overlay.bindings k = some x) (hu : x.unbinding = none)
    (hs : x.stopping = false) : ((mapGet s.overlay.bindings k).filter fun x => x.unbinding.isNone && !x.stopping) = some x := by
  rw [hx, Option.filter_some, hu, hs]
  rfl

theorem overlayRunBody_due {b : RunBody} {x : Binding} {s : State} (hk : b.binding ≤ 127) (hx : mapGet s.overlay.bindings b.binding = some x)
    (hu : x.unbinding = none) (hs : x.stopping = false) (ht : x.body.trigger = 2) (hd : x.due = []) (hset : b.setSlot = false) (tk : Ticket) :
    overlayRunBody b tk s
      = addDue b.binding { order := 0, frame := none, clockNs := none, tickets := [tk], noWait := b.noWait, since := none, lateNs := none } s := by
  unfold overlayRunBody
  rw [binding_open hx hu hs]
  simp [Nat.not_lt.mpr hk, ht, hd, hset]

theorem overlayRunBody_slot {b : RunBody} {x : Binding} {s : State} (hk : b.binding ≤ 127) (hx : mapGet s.overlay.bindings b.binding = some x)
    (hu : x.unbinding = none) (hs : x.stopping = false) (ht : x.body.trigger ≠ 2) (hset : b.setSlot = true) (h7 : b.slot ≤ 7)
    (h24 : b.textLen ≤ 24) (tk : Ticket) :
    overlayRunBody b tk s
      = complete tk 0 [] (modBinding b.binding (fun x => { x with slots := mapPut x.slots b.slot (b.text.take b.textLen) }) s) := by
  unfold overlayRunBody
  rw [binding_open hx hu hs]
  simp [Nat.not_lt.mpr hk, ht, hset, Nat.not_lt.mpr h7, Nat.not_lt.mpr h24]

theorem overlayStatusBody_ok {e : Nat} (he : e ≤ 7) (tk : Ticket) (s : State) :
    overlayStatusBody e tk s = completeRecord tk 256 (overlayStatusItems s e) [] s := if_neg (Nat.not_lt.mpr he)

theorem overlayStatusItems_taken (d : Desc) (c : HostCmd) (s : State) (e : Nat) : overlayStatusItems (taken d c s) e = overlayStatusItems s e := by
  unfold overlayStatusItems
  rw [show ovLoad (taken d c s) e = ovLoad s e from rfl]
  rfl

/-- Settles O30: each command's checks passed, its rule sets the list, font or binding that it names. -/
theorem overlayCommandsComplete : Obligations.OverlayCommandsComplete := by
  unfold Obligations.OverlayCommandsComplete
  refine ⟨?load, ?loadBad, ?free, ?freeBound, ?font, ?bind, ?bindRefused, ?unbind, ?unbindEnd, ?run, ?slot, ?status⟩
  case load =>
    intro d list length bytes cs s h h1 h2 h3 h4 hd hp hu hb
    refine h.completes rfl ?_
    rw [overlayListLoadBody_ok (s := taken d (.overlayListLoad list length bytes) s) h1 h2 h3 h4 hp hu hb hd]
    obtain ⟨ho, hrep, hfr⟩ := h.endsOverlay (fun o => { o with lists := mapPut o.lists list (bytes.take length) }) 0 []
    rw [ho]
    exact ⟨mapGet_mapPut_self .., rfl, fun k hk => mapGet_mapPut_ne _ _ hk, hrep, hfr⟩
  case loadBad =>
    intro d list length bytes off s h h1 h2 h3 h4 hd hp
    refine h.completes rfl ?_
    rw [overlayListLoadBody_bad h1 h2 h3 h4 hp hd]
    exact h.refused _ _
  case free =>
    intro d list s h h1 hh hb
    refine h.completes rfl ?_
    rw [overlayListFreeBody_ok (s := taken d (.overlayListFree list) s) h1 hh hb]
    obtain ⟨ho, hrep, hfr⟩ := h.endsOverlay (fun o => { o with lists := mapDel o.lists list }) 0 []
    rw [ho]
    exact ⟨mapGet_mapDel_self .., fun k hk => mapGet_mapDel_ne _ hk, rfl, hrep, hfr⟩
  case freeBound =>
    intro d list p s h h1 hh hp hl
    refine h.completes rfl ?_
    rw [overlayListFreeBody_bound (s := taken d (.overlayListFree list) s) h1 hh hp hl]
    exact h.refused _ _
  case font =>
    intro d b s h h1 h2 h3 h4 h5 h6 h7 h8 h9 hd hu
    refine h.completes rfl ?_
    rw [overlayFontLoadBody_ok (s := taken d (.overlayFontLoad b) s) h1 h2 h3 h4 h5 h6 h7 h8 h9 hu hd]
    obtain ⟨ho, hrep, hfr⟩ := h.endsOverlay (fun o => { o with fonts := mapPut o.fonts b.font (loadedFont b) }) 0 []
    rw [ho]
    exact ⟨mapGet_mapPut_self .., fun k hk => mapGet_mapPut_ne _ _ hk, rfl, hrep, hfr⟩
  case bind =>
    intro d b e s h he hc
    subst he
    refine h.completes rfl ?_
    rw [overlayBindBody_ok (s := taken d (.overlayBind b) s) (by rw [bindCheck_taken]; exact hc), bindEngine_taken]
    obtain ⟨ho, hrep, hfr⟩ := h.endsOverlay (fun o => { o with bindings := mapPut o.bindings b.binding (newBinding b (bindEngine b s)) }) 0 []
    rw [ho]
    exact ⟨mapGet_mapPut_self .., fun k hk => mapGet_mapPut_ne _ _ hk, rfl, hrep, hfr⟩
  case bindRefused =>
    intro d b e s h he hc
    subst he
    refine h.completes rfl ?_
    rw [overlayBindBody_refused (s := taken d (.overlayBind b) s) (by rw [bindCheck_taken]; exact hc), bindCheck_taken, bindEngine_taken]
    exact h.refused _ _
  case unbind =>
    intro d k b s h hk hb hu
    refine h.completes rfl ?_
    rw [overlayUnbindBody_ok (s := taken d (.overlayUnbind k) s) hk hb hu]
    have hb' : mapGet (taken d (.overlayUnbind k) s).overlay.bindings k = some b := hb
    refine ⟨?_, fun j hj => ?_, frame_overlay.trans (frame_overlay.trans (frame_overlay.of_reporting (take_reporting d _ s)) (discardDue_frame ..))
      (modBinding_frame ..)⟩
    · rw [bindings_modBinding, if_pos rfl, discardDue_bindings hb', if_pos rfl]
      rfl
    · rw [bindings_modBinding, if_neg hj, discardDue_bindings hb', if_neg hj]
      rfl
  case unbindEnd =>
    intro k b tk s hb hu hr
    refine completes_of_exec (exec_overlayUnbindComplete hb hu hr) ?_
    rw [complete_overlay, complete_gates]
    exact ⟨mapGet_mapDel_self .., fun j hj => mapGet_mapDel_ne _ hj, dropCtx_gone _ _, complete_finishes (bindingGone_tells k s).view tk 0 [],
      frame_overlayGates.reporting (b := bindingGone k s) rfl (complete_reporting ..)⟩
  case run =>
    intro d b x s h hk hx hu hs ht hd hset
    refine h.completes rfl ?_
    rw [overlayRunBody_due (s := taken d (.overlayRun b) s) hk hx hu hs ht hd hset]
    refine ⟨?_, ticket_in_flight .., rfl⟩
    refine (mapGet_mapUpd ..).trans ?_
    rw [if_pos rfl, show mapGet (taken d (.overlayRun b) s).overlay.bindings b.binding = some x from hx, Option.map_some, hd]
    rfl
  case slot =>
    intro d b x s h hk hx hu hs ht hset h7 h24
    refine h.completes rfl ?_
    rw [overlayRunBody_slot (s := taken d (.overlayRun b) s) hk hx hu hs ht hset h7 h24]
    refine ⟨?_, h.endsFrame frame_overlay (modBinding_tells ..) (modBinding_frame ..) 0 []⟩
    rw [complete_overlay, bindings_modBinding, if_pos rfl]
    exact congrArg (Option.map _) hx
  case status =>
    intro d e s h he hd
    refine h.completes rfl ?_
    rw [overlayStatusBody_ok he, overlayStatusItems_taken]
    exact h.writesRecord hd 256 _ []

end Sys2Proof.Machine
end

-- The end of a run (R260, R264, R367)
section
/-! SUPPORT. A run whose list is drawn whole; a burst beyond what its error correction bounds is read as a free value decides; the state
that refutes the frame of a run's end. -/

namespace Sys2Proof.Machine

open Sys2Proof

/-- A burst in error beyond what is corrected or detected for certain is decided by free values, which are used up (R367). -/
theorem readBurst_draws {b cls : Nat} {errors : BeatErrors} {s : State} (hp : s.mem.poison.contains b = false)
    (hj : judgeBurst (erasedOf s.mem (subKeyOf s.mem (64 * b))) (burstErrors s.mem b errors) = .unbounded) :
    s.free < (readBurst b cls errors s).2.free := by
  have hj' : judgeBurst (erasedOf (s.modMem fun m => { m with injected := mapDel m.injected b }).mem
      (subKeyOf (s.modMem fun m => { m with injected := mapDel m.injected b }).mem (64 * b))) (burstErrors s.mem b errors) = .unbounded := hj
  unfold readBurst
  dsimp only
  rw [hj']
  simp only [State.modMem_mem, hp, Bool.false_eq_true, if_false]
  split
  · rw [show ∀ u, (noteUncorrectable b cls true u).free = u.free from fun u => (noteUncorrectable_onlyMem b cls true u).free]
    exact Nat.lt_succ_self _
  · exact Nat.lt_add_of_pos_right (k := 2) (by decide)

/-- The drawing of a run, begun. -/
def drawing (e : Nat) (r : Run) (b : Binding) (x : Surface) (s : State) : Option (Nat × Nat) × Draw :=
  runList { engine := e, binding := r.binding, surface := x.body, image := r.image, palette := b.body.palette } r (commandsOf r.list) 0 0
    { refused := false, badCopy := false, units := 0, st := s }

theorem exec_overlayRunEnd_drawn {e : Nat} {r : Run} {b : Binding} {x : Surface} {s : State} (hr : (ovEngine s e).run = some r)
    (hm : mainUp s = true) (he : runExpired s r = false) (hb : mapGet s.overlay.bindings r.binding = some b)
    (hx : mapGet s.compose.surfaces b.body.surface = some x) (hseed : b.body.seed = false) (hd : (drawing e r b x s).1 = none) :
    exec (.overlayRunEnd e) s = .next (presentRun e r b (drawing e r b x s).2.units (drawing e r b x s).2.st) := by
  change execOverlayRunEnd e s = _
  unfold drawing at *
  unfold execOverlayRunEnd
  simp only [hr, hb, hm, he, hx, hseed, Bool.false_and, Bool.false_eq_true, if_false]
  rw [hd]

theorem lateRun_free (e : Nat) (r : Run) (s : State) : (lateRun e r s).free = s.free := by
  unfold lateRun
  split
  · exact (raiseLimited_reporting ..).free
  · rfl

theorem presentRun_free (e : Nat) (r : Run) (b : Binding) (units : Nat) (s : State) : (presentRun e r b units s).free = s.free := by
  unfold presentRun
  dsimp only
  rw [(completes_reporting ..).free]
  split
  · rw [(raise_reporting ..).free, lateRun_free]
    split <;> rfl
  · rw [lateRun_free]
    split <;> rfl

/-! ## The state that refutes it -/

namespace OverlayRefuted

/-- A surface of 16 by 16 pixels at the start of a burst. -/
def body : SurfaceBody :=
  { surface := 9, format := 0, imageCount := 2, width := 16, height := 16, pitch := 256, imageStride := 4096, base := 0x10000000,
    colorimetry := 0, range := 0 }

/-- It registered, no image held. -/
def surface : Surface :=
  { body := body, newest := none, newestNs := 0, before := none, retiring := none, active := [], reading := [], waiting := [], lastFrame := 0,
    lastNs := 0 }

/-- FILL of one pixel, and END. -/
def list : List Byte := [1, 2, 0, 1, 0, 0, 0, 0, 0, 0, 0, 0, 1, 0, 1, 0, 0, 1, 0, 0, 0, 0, 0, 0]

/-- A binding of that list to the surface, which presents. -/
def binding : Binding :=
  { body := { binding := 0, engine := 0, trigger := 2, list := 0, surface := 9, present := true, seed := false, notify := false, everyN := 0,
              group := 0, eventSource := 0, eventMask := 0, palette := List.replicate 15 ⟨0, 0, 0, 0⟩ }
    engine := 0, slots := [], due := [], unbinding := none, stopping := false }

/-- Its run in progress. -/
def run : Run :=
  { binding := 0, image := 0, newest := none, startNs := 0, list := list, slots := [], fonts := []
    due := { order := 0, frame := none, clockNs := none, tickets := [], noWait := false, since := none, lateNs := none } }

/-- The burst that the pixel lies in. -/
def burst : Nat := 4194304

/-- RUN, the gate open to the run, device 9 of the burst's subchannel failed, and MEM_INJECT armed for its devices 0 and 1 (R380). -/
def state : State :=
  { State.reset with
    module := { ModuleSt.init with mode := .run }
    compose := { ComposeSt.init with surfaces := [(9, surface)] }
    overlay := { OverlaySt.init with
      lists := [(0, list)], bindings := [(0, binding)]
      engines := [(0, { run := some run, presented := 0, skipped := 0, late := 0, superseded := 0, abandoned := [] })] }
    gates := { GateSt.init with contexts := [{ ctx := .overlay 0, who := [⟨3, 0⟩], regions := [⟨0x10000000, 8192, true, true, 3, 9⟩] }] }
    mem := { MemSt.init with injected := [(burst, [0, 1])], failed := [49] } }

/-- The list is drawn whole. -/
theorem drawn : (drawing 0 run binding surface state).1 = none := by decide +kernel

/-- Its one write reads the burst that it does not cover. -/
theorem drawn_free : (drawing 0 run binding surface state).2.st.free = (readBurst burst 3 [] state).2.free := by rfl

theorem draws : state.free < (drawing 0 run binding surface state).2.st.free := by
  rw [drawn_free]
  exact readBurst_draws (by decide) (by decide)

end OverlayRefuted

open OverlayRefuted in
/-- Refutes O31: the write of a pixel reads the rest of its burst, where a failed device and two devices in error leave the outcome to free
values; these are used up, and the frame of a run that reached END leaves no room for that. -/
theorem not_overlayRunsStartAndEnd : ¬ Obligations.OverlayRunsStartAndEnd := by
  unfold Obligations.OverlayRunsStartAndEnd
  intro h
  obtain ⟨-, -, -, hend, -, -, -⟩ := h
  obtain ⟨t, ht, -, -, -, hframe⟩ := hend 0 run binding surface state rfl rfl (by decide) rfl rfl rfl rfl drawn
  rw [exec_overlayRunEnd_drawn rfl rfl (by decide) rfl rfl rfl drawn] at ht
  injection ht with ht
  have hfree : t.free = state.free := hframe.free
  rw [← ht, presentRun_free] at hfree
  exact Nat.ne_of_gt draws hfree

end Sys2Proof.Machine
end

-- A returned frame taken into its input slot (R222, R239, R367)
section
/-! SUPPORT. A returned frame that is taken; the state that refutes its frame. -/

namespace Sys2Proof.Machine

open Sys2Proof

/-- The state with a returned frame no longer under way. -/
def frameLeft (key n : Nat) (s : State) : State :=
  putHead key { headRt s key with returned := (headRt s key).returned.filter fun p => p.1.frameNo != n } s

theorem exec_returnFrameRx_taken {key n k : Nat} {h : ReturnHeader} {px : List Byte} {x : Session} {s : State}
    (hf : (headRt s key).returned.find? (fun p => p.1.frameNo = n) = some (h, px)) (hx : sessionOf s key = some x) (hm : mainUp s = true)
    (he : x.ended = false) (hs : x.stopping = none) (ht : mapGet s.record.tests x.pipe = none) (hn : n % nEff s x = 0)
    (hk : freeInput x = some k) : exec (.returnFrameRx ⟨key, n⟩) s = .next (takeFrame key k x h px (frameLeft key n s)) := by
  change execReturnFrameRx ⟨key, n⟩ s = _
  have hx' : sessionOf (frameLeft key n s) key = some x := hx
  have hm' : mainUp (frameLeft key n s) = true := hm
  have hn' : n % nEff (frameLeft key n s) x = 0 := hn
  have ht' : mapHas (frameLeft key n s).record.tests x.pipe = false := mapHas_of_none ht
  unfold frameLeft at *
  unfold execReturnFrameRx
  simp only [hf, hx', hm', he, hs, ht', hn', hk, Bool.not_true, Option.isSome_none, Bool.or_self, Bool.false_eq_true, if_false, bne_self_eq_false]

theorem takeFrame_free {k : Nat} {x : Session} {h : ReturnHeader} {px : List Byte} {s : State} (hw : (writeInput x k h px s).1 = false) (key : Nat) :
    (takeFrame key k x h px s).free = (writeInput x k h px s).2.free := by
  unfold takeFrame
  dsimp only
  rw [hw]
  rfl

/-! ## A write through the gate that reads one burst -/

/-- The access of a write of at most 512 bytes through the memory gate. -/
def writeAccess (who : Initiator) (c : Context) (addr : Nat) (l : List Byte) : Access :=
  { initiator := who, ctx := c, cmdTag := none, addr := addr, len := l.length, write := true, data := l }

theorem gatedWrite_nil (who : Initiator) (c : Context) (addr : Nat) (s : State) : (gatedWrite who c none addr [] s).2.2 = s := rfl

theorem gatedWrite_small {l : List Byte} (h0 : l ≠ []) (hl : l.length < 512) (who : Initiator) (c : Context) (addr : Nat) (s : State) :
    (gatedWrite who c none addr l s).2.2 = (gateDo 0 (writeAccess who c addr l) s).2.2 := by
  unfold gatedWrite
  rw [Nat.div_eq_of_lt hl]
  unfold gatedWriteN
  simp only [List.isEmpty_iff, h0, if_false, List.take_of_length_le (Nat.le_of_lt hl)]
  rfl

/-- An allowed write reads the one burst that it does not cover (R363, R365). -/
theorem gatedWrite_free {l : List Byte} {who : Initiator} {c : Context} {addr b : Nat} {s : State} (h0 : l ≠ []) (hl : l.length < 512)
    (hok : (checkAccess s 0 (writeAccess who c addr l)).2.1.ok = true) (hq : (checkAccess s 0 (writeAccess who c addr l)).2.2 = none)
    (hb : ((burstsOf addr l.length).filter fun b => !coversBurst addr l.length b) = [b]) :
    (gatedWrite who c none addr l s).2.2.free = (readBurst b who.cls [] s).2.free := by
  have hn := checkAccess_whole hq
  rw [gatedWrite_small h0 hl]
  have hdo : (gateDo 0 (writeAccess who c addr l) s).2.2 = writeAt addr who.cls [] l s := by
    rw [gateDo_write rfl (by unfold gateDo; simp [hok, hq])]
    unfold performWrite
    rw [hok, hq, hn, if_pos rfl]
    simp only [writeAccess, List.take_length]
  rw [hdo]
  unfold writeAt
  rw [hb]
  rfl

/-! ## The state that refutes it -/

namespace RecordingRefuted

/-- The session of a head of 16 by 2 pixels. -/
def session : Session :=
  { body := { head := 0, divisor := 1, profile := 1, statsEn := false, qpTarget := 20, qpMax := 40, idrInterval := 10, capKbps := 1000,
              ringSize := 65536, ringAddr := 0x100000, progressAddr := 0x200000, workBase := 0x10000000, workSize := 65536 }
    width := 16, height := 2, rateNum := 60, rateDen := 1, pipe := 0, input := [], lastIdr := 0, sinceIdr := 0, forceIdr := false, coded := 0,
    lastCoded := 0, missed := false, wr := 0, rd := 0, ausWritten := 0, ausDropped := 0, stats := [], stopping := none, ended := false }

/-- The header of frame 4, with the summary of one window: 84 bytes. -/
def header : ReturnHeader :=
  { frameNo := 4, head := 0, state := 3, frameStartNs := 0, claim := 0, composedBy := 0, linesReplayed := 0, width := 16, height := 2,
    plate := false, uUnbounded := false, calUnreliable := false, uUs := 0, scorchedPx := 0
    windows := [{ window := 0, scorchedAny := false, scorchedAll := false, voidAny := false, heldAny := false, concealedAny := false,
                  mismatchAny := false, sourceId := 7, scorchedPx := 0, ageMinUs := 0, ageMaxUs := 0 }] }

/-- The burst in which the header ends. -/
def burst : Nat := 4194305

/-- RUN, the frame under way, the gate open to its session, device 9 of the burst's subchannel failed, and MEM_INJECT armed for its devices 0
and 1 (R380). -/
def state : State :=
  { State.reset with
    module := { ModuleSt.init with mode := .run }
    ts := { TsSt.init with heads := [(0, { HeadRt.init with returned := [(header, [])] })] }
    record := { RecordSt.init with sessions := [(0, session)] }
    gates := { GateSt.init with contexts := [recordCtx session.body 0] }
    mem := { MemSt.init with injected := [(burst, [0, 1])], failed := [subKeyOf MemSt.init (64 * burst) * 10 + 9] } }

/-- No write of the frame is refused. -/
theorem written : (writeInput session 0 header [] (frameLeft 0 4 state)).1 = false := by decide +kernel

/-- Its last burst is read, since the frame does not cover it. -/
theorem written_free : (writeInput session 0 header [] (frameLeft 0 4 state)).2.free = (readBurst burst 5 [] (frameLeft 0 4 state)).2.free :=
  gatedWrite_free (l := itemBytes (returnHeaderItems header ++ header.windows.flatMap windowItems)) (who := ⟨5, 2⟩) (c := .record 0 0x10000000)
    (addr := inputAddr session 0) (s := frameLeft 0 4 state) (by decide +kernel) (by decide +kernel) (by decide +kernel) (by decide +kernel)
    (by decide +kernel)

theorem draws : state.free < (writeInput session 0 header [] (frameLeft 0 4 state)).2.free := by
  rw [written_free]
  exact readBurst_draws (s := frameLeft 0 4 state) (by decide) (by decide)

end RecordingRefuted

open RecordingRefuted in
/-- Refutes O29: the header of a returned frame ends inside a burst, which is read; where a failed device and two devices in error leave the
outcome to free values, these are used up, and the frame of the statement leaves no room for that. -/
theorem not_picturesAreRecorded : ¬ Obligations.PicturesAreRecorded := by
  unfold Obligations.PicturesAreRecorded
  intro h
  obtain ⟨htaken, -⟩ := h
  obtain ⟨t, ht, -, -, -, -, hframe⟩ := htaken 0 4 header [] session 0 state rfl rfl rfl rfl rfl rfl rfl rfl written
  rw [exec_returnFrameRx_taken (n := 4) (h := header) (px := []) (x := session) (k := 0) rfl rfl rfl rfl rfl rfl rfl rfl] at ht
  injection ht with ht
  have hfree : t.free = state.free := hframe.free
  rw [← ht, takeFrame_free written] at hfree
  exact Nat.ne_of_gt draws hfree

end Sys2Proof.Machine
end

-- A writeback that takes the place of one whose command has the same position (R160, R281)
section
/-! SUPPORT. A module with a host attached and one command waiting, which refutations start from; and the state that refutes that the
command of a writeback is in flight. -/

namespace Sys2Proof.Machine

open Sys2Proof

/-- RUN, with a host attached and one command waiting in its command ring 0. -/
def hosted : State :=
  { State.reset with
    module := { ModuleSt.init with mode := .run }
    host := { HostSt.init with
      attached := true, run := true, tableLo := 0x8000, tableAddr := 0x8000, cmdProd := [(0, 1)]
      table := some { version := 1, doorbellAddr := 0x10000, statusAddr := 0x11000, cmd := [⟨0x12000, 4, 0, 0⟩], cpl := [⟨0x13000, 4⟩],
                      evt := [⟨0x14000, 6, 0x7FFF, 0⟩], rz := true } }
    time := { TimeSt.init with wall := 2000000000000, mono := 2000000000000, tRef := some 1999000000000, servo := .locked } }

/-- The descriptor of that command, for the module itself. -/
def waitingDesc : Desc :=
  { ring := 0, attn := false, attnErr := false, fence := false, quiet := false, target := 0xFF, version := 1, rz := true, tag := 0,
    buf := 0x20000, dmaOk := true }

namespace WritebackRefuted

/-- A writeback of one frame of head 0. -/
def body : WritebackBody := { head := 0, mode := 1, everyN := 0, spans := false, surface := 9 }

/-- The surface it writes. -/
def surface : Surface :=
  newSurface { surface := 9, format := 1, imageCount := 1, width := 16, height := 16, pitch := 256, imageStride := 4096, base := 0x10000000,
               colorimetry := 0, range := 0 }

/-- The command's ticket. -/
def ticket : Ticket := ticketOf waitingDesc (cmdKind (.writeback body)) hosted

/-- The head's writeback still waits with a command of the same ring and index: 2^32 commands have been taken since (R281). -/
def state : State :=
  { hosted with
    compose := { ComposeSt.init with
      surfaces := [(9, surface)]
      writebacks := [(0, { body := body, ticket := some ticket, writing := [], count := 0, stopping := [] })] } }

/-- As the older command completes, the newer one leaves those in flight with it. -/
theorem not_inFlight : ∃ t, exec (.writeback waitingDesc body) state = .next t ∧ t.queue.inFlight = [] := ⟨_, rfl, by decide +kernel⟩

end WritebackRefuted

open WritebackRefuted in
/-- Refutes O17: where the superseded writeback's command has the ring and index of the new one, completing it takes both out of those in
flight. -/
theorem not_composeCommandsComplete : ¬ Obligations.ComposeCommandsComplete := by
  unfold Obligations.ComposeCommandsComplete
  intro h
  obtain ⟨-, -, -, hwrite, -⟩ := h
  obtain ⟨t, ht, -, -, -, hflight, -⟩ := hwrite waitingDesc body surface state (by decide +kernel) (.inl rfl) (by decide +kernel) rfl
  obtain ⟨u, hu, hempty⟩ := not_inFlight
  rw [hu] at ht
  injection ht with ht
  subst ht
  exact absurd (hflight rfl) (by rw [hempty]; exact List.not_mem_nil)

end Sys2Proof.Machine
end

-- What accesses to module DRAM change (R363 to R367, R388 to R391, R394)
section
/-! SUPPORT. A read or a write of module DRAM, through a gate or not, changes memory, gates and free values alone, and only adds to what has
been told. -/

namespace Sys2Proof.Machine

open Sys2Proof

theorem raiseMod_tells (c : Nat) (l : Items) (s : State) : Tells s (raiseMod c l s) := raise_tells ..

theorem raiseLimited_tells (p key n c : Nat) (k : ScopeKind) (i : Nat) (mk : Nat → Items) (s : State) :
    Tells s (raiseLimited p key n c k i mk s) := by
  have set (f : Map (Nat × Nat)) : Tells s (s.modQueue fun q => { q with limiters := f }) := ⟨rfl, .refl _, List.Subset.refl _⟩
  unfold raiseLimited
  split
  · exact (set _).raise ..
  · split
    · exact set _
    · exact (set _).raise ..

theorem logInternal_tells (unit detail : Nat) (s : State) : Tells s (logInternal unit detail s) := by
  have hr := logInternal_reporting unit detail s
  have hh : (logInternal unit detail s).host = s.host ∧ (logInternal unit detail s).queue = s.queue := by
    unfold logInternal
    dsimp only
    obtain ⟨f, hf⟩ := logAdd_eq 0x0F00 3 .module (position (s.modMgmt fun m => { m with internals := (unit, s.time.mono) :: m.internals }))
      [it 4 unit, it 4 detail] false (s.modMgmt fun m => { m with internals := (unit, s.time.mono) :: m.internals })
    rw [hf]
    exact ⟨rfl, rfl⟩
  exact .same hh.1 hh.2 hr.cascade (logInternal_outbox ..)

/-- Only memory, gates and free values differ, and what reports; what has been told stays. -/
structure Accesses (s t : State) : Prop where
  tells : Tells s t
  frame : Reporting s { t with mem := s.mem, gates := s.gates, free := s.free }

theorem frame_access : Frame fun s t => { t with mem := s.mem, gates := s.gates, free := s.free } where
  back _ _ _ _ _ _ _ := rfl
  again _ _ _ := rfl
  self _ := rfl

namespace Accesses

theorem refl (s : State) : Accesses s s := ⟨.refl s, rfl⟩

theorem trans {a b c : State} (h : Accesses a b) (k : Accesses b c) : Accesses a c := ⟨h.tells.trans k.tells, frame_access.trans h.frame k.frame⟩

theorem of_reporting {a b : State} (h : Reporting a b) (ht : Tells a b) : Accesses a b := ⟨ht, frame_access.of_reporting h⟩

theorem foldl {α : Type} {g : State → α → State} (h : ∀ s x, Accesses s (g s x)) (l : List α) (s : State) : Accesses s (l.foldl g s) := by
  induction l generalizing s with
  | nil => exact .refl s
  | cons x l ih => exact (h s x).trans (ih _)

section
variable {s t : State} (h : Accesses s t)
include h

theorem module : t.module = s.module := h.frame.module
theorem time : t.time = s.time := h.frame.time
theorem ingest : t.ingest = s.ingest := h.frame.ingest
theorem decode : t.decode = s.decode := h.frame.decode
theorem ledger : t.ledger = s.ledger := h.frame.ledger
theorem scene : t.scene = s.scene := h.frame.scene
theorem compose : t.compose = s.compose := h.frame.compose
theorem ts : t.ts = s.ts := h.frame.ts
theorem overlay : t.overlay = s.overlay := h.frame.overlay

end

end Accesses

theorem modMem_accesses (f : MemSt → MemSt) (s : State) : Accesses s (s.modMem f) := ⟨.same rfl rfl rfl rfl, rfl⟩

theorem modGates_accesses (f : GateSt → GateSt) (s : State) : Accesses s (s.modGates f) := ⟨.same rfl rfl rfl rfl, rfl⟩

theorem memWrite_accesses (a : Nat) (l : List Byte) (s : State) : Accesses s (memWrite a l s) := modMem_accesses _ s

theorem draw_accesses (s : State) : Accesses s (draw s).2 := ⟨.same rfl rfl rfl rfl, rfl⟩

theorem raise_accesses (c : Nat) (k : ScopeKind) (i : Nat) (l : Items) (s : State) (a : Bool) : Accesses s (raise c k i l s a) :=
  .of_reporting (raise_reporting ..) (raise_tells ..)

theorem raiseLimited_accesses (p key n c : Nat) (k : ScopeKind) (i : Nat) (mk : Nat → Items) (s : State) :
    Accesses s (raiseLimited p key n c k i mk s) := .of_reporting (raiseLimited_reporting ..) (raiseLimited_tells ..)

theorem logInternal_accesses (unit detail : Nat) (s : State) : Accesses s (logInternal unit detail s) :=
  .of_reporting (logInternal_reporting ..) (logInternal_tells ..)

/-! ## Errors of bursts -/

theorem tellUnraised_accesses (s : State) : Accesses s (tellUnraised s) := by
  unfold tellUnraised
  split
  · exact (modMem_accesses _ s).trans (raise_accesses ..)
  · exact .refl s

theorem noteUncorrectable_accesses (b cls : Nat) (stays : Bool) (s : State) : Accesses s (noteUncorrectable b cls stays s) := by
  unfold noteUncorrectable
  extract_lets u a sub sec raised v
  have noted : Accesses s v := (tellUnraised_accesses s).trans (modMem_accesses _ u)
  split
  · exact noted.trans (raise_accesses ..)
  · exact noted

theorem countCorrected_accesses (sub dev : Nat) (s : State) : Accesses s (countCorrected sub dev s) := by
  unfold countCorrected
  extract_lets key now times u v
  split
  · exact ((modMem_accesses _ s).trans (modMem_accesses _ u)).trans (raise_accesses ..)
  · exact modMem_accesses _ s

theorem noteCorrected_accesses (a : Nat) (devs : List Nat) (s : State) : Accesses s (noteCorrected a devs s) := by
  unfold noteCorrected
  split
  · exact .refl s
  · exact (Accesses.foldl (g := fun s d => countCorrected (subKeyOf _ a) d s) (fun s d => countCorrected_accesses _ d s) devs s).trans
      (raiseLimited_accesses ..)

theorem readBurst_accesses (b cls : Nat) (errors : BeatErrors) (s : State) : Accesses s (readBurst b cls errors s).2 := by
  have disarmed := modMem_accesses (fun m => { m with injected := mapDel m.injected b }) s
  unfold readBurst
  dsimp only
  split
  · exact disarmed.trans (noteUncorrectable_accesses ..)
  · split
    · exact disarmed.trans (noteCorrected_accesses ..)
    · exact disarmed.trans (noteUncorrectable_accesses ..)
    · split
      · exact (disarmed.trans (draw_accesses _)).trans (noteUncorrectable_accesses ..)
      · exact ((disarmed.trans (draw_accesses _)).trans (draw_accesses _)).trans (memWrite_accesses ..)

theorem readBursts_accesses (cls : Nat) (errors : BeatErrors) (l : List Nat) (s : State) : Accesses s (readBursts cls errors l s).2 := by
  induction l generalizing errors s with
  | nil => exact .refl s
  | cons b l ih => exact (readBurst_accesses ..).trans (ih ..)

theorem meetErrors_accesses (a n cls : Nat) (s : State) : Accesses s (meetErrors a n cls s).2 := readBursts_accesses ..

theorem writeAt_accesses (a cls : Nat) (errors : BeatErrors) (l : List Byte) (s : State) : Accesses s (writeAt a cls errors l s) :=
  ((readBursts_accesses ..).trans (modMem_accesses _ _)).trans (memWrite_accesses ..)

/-! ## Accesses through a gate -/

theorem performWrite_accesses (a : Access) (n : Nat) (p : PartCheck) (q : Option PartCheck) (s : State) :
    Accesses s (performWrite a n p q s) := by
  have first : Accesses s (if p.ok then writeAt a.addr a.initiator.cls [] ((a.data.take a.len).take n) s else s) := by
    split
    · exact writeAt_accesses ..
    · exact .refl s
  unfold performWrite
  dsimp only
  split
  · split
    · exact first.trans (writeAt_accesses ..)
    · exact first
  · exact first

theorem recordFault_accesses (gate : Nat) (a : Access) (n : Nat) (p : PartCheck) (q : Option PartCheck) (s : State) :
    Accesses s (recordFault gate a n p q s) := by
  unfold recordFault
  extract_lets u f cause over4 v
  have hv : Accesses s v := by
    have hu : Accesses s u := modGates_accesses (fun g => { g with faultCount := (g.faultCount + 1) % 4294967296 }) s
    refine hu.trans ?_
    show Accesses u (if _ then logInternal (initiatorId a.initiator) 4 u else u)
    split
    · exact logInternal_accesses ..
    · exact .refl u
  split
  · exact hv.trans (modGates_accesses _ v)
  · exact (hv.trans (modGates_accesses _ v)).trans (raise_accesses ..)

theorem servedRead_accesses (a : Access) (s : State) : Accesses s (servedRead a s).2.2 := by
  have part (p : Bool) (b n cls : Nat) (u : State) : Accesses u (if p then meetErrors b n cls u else ([], u)).2 := by
    cases p
    · exact .refl u
    · exact meetErrors_accesses ..
  exact (part ..).trans (part ..)

theorem gateDo_accesses (gate : Nat) (a : Access) (s : State) : Accesses s (gateDo gate a s).2.2 := by
  unfold gateDo
  extract_lets r n p q refused done u
  have hu : Accesses s u := by
    show Accesses s (if _ then performWrite a n p q s else s)
    split
    · exact performWrite_accesses ..
    · exact .refl s
  show Accesses s (if _ then recordFault gate a n p q u else u)
  split
  · exact hu.trans (recordFault_accesses ..)
  · exact hu

theorem gatedReadN_accesses (who : Initiator) (c : Context) (tag : Option Nat) (fuel addr n : Nat) (r : List Byte × Bool × Bool × Bool × State) :
    Accesses r.2.2.2.2 (gatedReadN who c tag fuel addr n r).2.2.2.2 := by
  induction fuel generalizing addr n r with
  | zero => exact .refl _
  | succ fuel ih =>
    unfold gatedReadN
    split
    · exact .refl _
    · dsimp only
      refine Accesses.trans ?_ (ih ..)
      exact (servedRead_accesses ..).trans (gateDo_accesses ..)

theorem gatedWriteN_accesses (who : Initiator) (c : Context) (tag : Option Nat) (fuel addr : Nat) (l : List Byte) (r : Bool × Bool × State) :
    Accesses r.2.2 (gatedWriteN who c tag fuel addr l r).2.2 := by
  induction fuel generalizing addr l r with
  | zero => exact .refl _
  | succ fuel ih =>
    unfold gatedWriteN
    split
    · exact .refl _
    · dsimp only
      refine Accesses.trans ?_ (ih ..)
      exact gateDo_accesses ..

theorem gatedRead_accesses (who : Initiator) (c : Context) (tag : Option Nat) (addr n : Nat) (s : State) :
    Accesses s (gatedRead who c tag addr n s).2.2.2.2 := gatedReadN_accesses _ _ _ _ _ _ ([], false, false, false, s)

theorem gatedWrite_accesses (who : Initiator) (c : Context) (tag : Option Nat) (addr : Nat) (l : List Byte) (s : State) :
    Accesses s (gatedWrite who c tag addr l s).2.2 := gatedWriteN_accesses _ _ _ _ _ _ (false, false, s)

/-! ## A read of clean memory that no gate refuses -/

theorem memReadN_append (s : State) (a m n : Nat) : memReadN s a m ++ memReadN s (a + m) n = memReadN s a (m + n) := by
  simp only [memReadN, List.range_add, List.map_append, List.map_map, Function.comp_def, Nat.add_assoc]

/-- A refusal met once is not taken back. -/
theorem gatedReadN_refused (who : Initiator) (c : Context) (tag : Option Nat) (fuel addr n : Nat) (r : List Byte × Bool × Bool × Bool × State)
    (h : (gatedReadN who c tag fuel addr n r).2.2.1 = false) : r.2.2.1 = false := by
  induction fuel generalizing addr n r with
  | zero => exact h
  | succ fuel ih =>
    unfold gatedReadN at h
    split at h
    · exact h
    · exact (Bool.or_eq_false_iff.mp (ih _ _ _ h)).1

/-- A read of clean memory meets no error and leaves the state, whatever its checks. -/
theorem servedRead_state {s : State} (h : Clean s) (a : Access) : (servedRead a s).2 = (false, s) := by
  unfold servedRead
  simp only [meetErrors_clean h, ite_self, List.append_nil, List.isEmpty_nil, Bool.not_true]

/-- The bytes as they stand, and nothing changed (R363, R390). -/
theorem gatedReadN_clean {who : Initiator} {c : Context} {tag : Option Nat} {fuel addr n : Nat} {l : List Byte} {done : Bool} {s : State}
    (hc : Clean s) (hf : n ≤ 512 * fuel) (h : (gatedReadN who c tag fuel addr n (l, done, false, false, s)).2.2.1 = false) :
    ∃ d, gatedReadN who c tag fuel addr n (l, done, false, false, s) = (l ++ memReadN s addr n, d, false, false, s) := by
  induction fuel generalizing addr n l done with
  | zero =>
    obtain rfl : n = 0 := by omega
    exact ⟨done, by simp [gatedReadN, memReadN]⟩
  | succ fuel ih =>
    unfold gatedReadN at h ⊢
    split at h
    · next hn =>
      rw [if_pos hn, hn]
      exact ⟨done, by simp [memReadN]⟩
    · next hn =>
      rw [if_neg hn]
      extract_lets m a b x at h
      show ∃ d, gatedReadN who c tag fuel (addr + m) (n - m) (l ++ b.1, done || x.1, false || x.2.1, false || b.2.1, x.2.2) = _
      have hb : b.2 = (false, s) := servedRead_state hc a
      have hpass : (gateDo 0 a s).2.1 = false := by
        have hor : (false || x.2.1) = false :=
          gatedReadN_refused _ _ _ _ _ _ (l ++ b.1, done || x.1, false || x.2.1, false || b.2.1, x.2.2) h
        rwa [Bool.false_or, show x = gateDo 0 a b.2.2 from rfl, hb] at hor
      have hx : x.2.1 = false ∧ x.2.2 = s := by
        rw [show x = gateDo 0 a b.2.2 from rfl, hb]
        exact ⟨hpass, gateDo_read rfl hpass⟩
      have hbytes : b.1 = memReadN s addr m := congrArg Prod.fst (servedRead_clean hc hpass)
      rw [hb, hx.1, hx.2, hbytes] at h ⊢
      have hm : m ≤ n ∧ n - m ≤ 512 * fuel := by
        show (if n < 512 then n else 512) ≤ n ∧ n - (if n < 512 then n else 512) ≤ 512 * fuel
        split <;> omega
      obtain ⟨d, hd⟩ := ih hm.2 h
      refine ⟨d, hd.trans ?_⟩
      rw [List.append_assoc, memReadN_append, Nat.add_sub_cancel' hm.1]

theorem gatedRead_clean {who : Initiator} {c : Context} {tag : Option Nat} {addr n : Nat} {s : State} (hc : Clean s)
    (h : (gatedRead who c tag addr n s).2.2.1 = false) : ∃ d, gatedRead who c tag addr n s = (memReadN s addr n, d, false, false, s) :=
  gatedReadN_clean hc (by omega) h

end Sys2Proof.Machine
end

-- Commands that end one after another (R281 to R284)
section
/-! SUPPORT. While no detach waits, completing a command leaves the session as it is, so that the next one ends too. -/

namespace Sys2Proof.Machine

open Sys2Proof

/-- The session goes on: the same rings are written for the same position, and outputs stay. -/
structure Serves (s t : State) : Prop where
  attached : s.host.attached = true → t.host.attached = true
  table : t.host.table = s.host.table
  stoppedCpl : t.host.stoppedCpl = s.host.stoppedCpl
  position : position t = position s
  detaching : s.queue.detaching = none → t.queue.detaching = none
  adds : Adds s t

namespace Serves

theorem refl (s : State) : Serves s s := ⟨id, rfl, rfl, rfl, id, .refl s⟩

theorem trans {a b c : State} (h : Serves a b) (k : Serves b c) : Serves a c :=
  ⟨k.attached ∘ h.attached, k.table.trans h.table, k.stoppedCpl.trans h.stoppedCpl, k.position.trans h.position, k.detaching ∘ h.detaching,
    h.adds.trans k.adds⟩

theorem of_tells {s t : State} (h : Tells s t) : Serves s t :=
  ⟨fun a => (congrArg HostView.attached h.view).trans a, congrArg HostView.table h.view, congrArg HostView.stoppedCpl h.view,
    congrArg HostView.position h.view, fun a => (congrArg HostView.detaching h.view).trans a, h.adds⟩

theorem cplRingOf {s t : State} (h : Serves s t) (r : Nat) : cplRingOf t r = cplRingOf s r := by
  unfold Machine.cplRingOf cmdEntry
  rw [h.table, h.stoppedCpl]

end Serves

theorem completeAs_serves {s : State} (h : s.queue.detaching = none) (tk : Ticket) (st pos : Nat) (f : Bool) (l : Items) :
    Serves s (completeAs tk st pos f l s) := by
  obtain ⟨hh, -⟩ := completeAs_onlyCompletion tk st pos f l s
  have hrest : (s.host.attached = true → (completeAs tk st pos f l s).host.attached = true)
      ∧ (completeAs tk st pos f l s).queue.detaching = none := by
    unfold completeAs
    dsimp only
    split
    · exact ⟨id, h⟩
    · split
      · rw [settleDetach_none (show (leaveFlight tk s).queue.detaching = none from h)]
        exact ⟨id, h⟩
      · have hd := (publish_queue { ticket := tk, status := st, position := pos, forwarded := f, result := resultOf tk st l } (leaveFlight tk s)).1
        rw [settleDetach_none (hd.trans h)]
        exact ⟨fun ha => (publish_host_attached _ (s := leaveFlight tk s) ha).1, hd.trans h⟩
  refine ⟨hrest.1, by rw [hh], by rw [hh], ?_, fun _ => hrest.2, completeAs_adds ..⟩
  unfold position
  rw [(completeAs_reporting ..).cascade]

theorem complete_serves {s : State} (h : s.queue.detaching = none) (tk : Ticket) (st : Nat) (l : Items) : Serves s (complete tk st l s) :=
  completeAs_serves h ..

theorem Finishes.adds {tk : Ticket} {st : Nat} {l : Items} {s u t : State} (h : Finishes tk st l s u) (ha : Adds u t) : Finishes tk st l s t := by
  intro horg hq hatt r hr
  obtain ⟨i, ph, hm⟩ := h horg hq hatt r hr
  exact ⟨i, ph, ha.mem hm⟩

/-- A command ends with its record wherever the session goes on. -/
theorem Serves.finishes {s u : State} (h : Serves s u) (tk : Ticket) (st : Nat) (l : Items) : Finishes tk st l s (complete tk st l u) := by
  intro horg hq hatt r hr
  have hp := completeAs_published horg hq (h.attached hatt) ((h.cplRingOf tk.ring).trans hr) (Machine.position u) false l
  rw [h.position] at hp
  unfold complete
  rwa [h.position]

/-- Commands that end one after another, while no detach waits: the session goes on. -/
theorem completes_serves {s : State} (h : s.queue.detaching = none) (st : Nat) (l : List Ticket) :
    Serves s (l.foldl (fun s t => complete t st [] s) s) := by
  induction l generalizing s with
  | nil => exact .refl s
  | cons t l ih =>
    have hc := complete_serves h t st []
    exact hc.trans (ih (hc.detaching h))

/-- Each of them ends with its record. -/
theorem completes_finish {s u : State} (hu : Serves s u) (h : u.queue.detaching = none) (st : Nat) (l : List Ticket) :
    ∀ w ∈ l, Finishes w st [] s (l.foldl (fun s t => complete t st [] s) u) := by
  induction l generalizing u with
  | nil => exact fun w hw => absurd hw List.not_mem_nil
  | cons t l ih =>
    have hc := complete_serves h t st []
    intro w hw
    obtain rfl | hw := List.mem_cons.mp hw
    · exact (hu.finishes w st []).adds (completes_serves (hc.detaching h) st l).adds
    · exact ih (hu.trans hc) (hc.detaching h) w hw

/-- The record of a command executed here, wherever the session goes on. -/
theorem Executes.reportsServing {d : Desc} {c : HostCmd} {s u : State} (h : Executes d c s) (hu : Serves (taken d c s) u) (st : Nat) (l : Items) :
    Reports d c st l s (complete (ticketOf d (cmdKind c) s) st l u) :=
  complete_reports d c st l s u (hu.attached h.attached) hu.table hu.stoppedCpl hu.position

theorem Executes.notDetaching {d : Desc} {c : HostCmd} {s : State} (h : Executes d c s) : s.queue.detaching = none := h.2.2.2.2.2

end Sys2Proof.Machine
end

-- Surfaces (R132 to R137)
section
/-! SUPPORT. The frames of the composition, and the commands of surfaces with their checks passed. -/

namespace Sys2Proof.Machine

open Sys2Proof

theorem frame_compose : Frame fun s t => { t with compose := s.compose } where
  back _ _ _ _ _ _ _ := rfl
  again _ _ _ := rfl
  self _ := rfl

theorem frame_composeGates : Frame fun s t => { t with compose := s.compose, gates := s.gates } where
  back _ _ _ _ _ _ _ := rfl
  again _ _ _ := rfl
  self _ := rfl

theorem frame_composeGatesMem : Frame fun s t => { t with compose := s.compose, gates := s.gates, mem := s.mem } where
  back _ _ _ _ _ _ _ := rfl
  again _ _ _ := rfl
  self _ := rfl

theorem complete_compose (tk : Ticket) (st : Nat) (l : Items) (s : State) : (complete tk st l s).compose = s.compose :=
  (complete_reporting ..).compose

theorem surface_modSurface (k : Nat) (f : Surface → Surface) (s : State) :
    mapGet (modSurface k f s).compose.surfaces k = (mapGet s.compose.surfaces k).map f := by
  refine (mapGet_mapUpd ..).trans ?_
  rw [if_pos rfl]

theorem modSurface_tells (k : Nat) (f : Surface → Surface) (s : State) : Tells s (modSurface k f s) := .same rfl rfl rfl rfl

theorem modSurface_frame (k : Nat) (f : Surface → Surface) (s : State) : Reporting s { modSurface k f s with compose := s.compose } := rfl

/-- A surface that commands may name is registered. -/
theorem surface_of_surfaceOf {s : State} {k : Nat} {x : Surface} (h : surfaceOf s k = some x) :
    mapGet s.compose.surfaces k = some x ∧ x.retiring = none := by
  unfold surfaceOf at h
  obtain ⟨hx, hr⟩ := Option.filter_eq_some_iff.mp h
  exact ⟨hx, Option.isNone_iff_eq_none.mp hr⟩

theorem surfaceOf_some {s : State} {k : Nat} {x : Surface} (h : mapGet s.compose.surfaces k = some x) (hr : x.retiring = none) :
    surfaceOf s k = some x := by
  unfold surfaceOf
  rw [h, Option.filter_some, hr]
  rfl

/-! ## Registering -/

/-- The state with a surface registered (R133). -/
def registered (b : SurfaceBody) (s : State) : State :=
  addCtx (surfaceCtx b) ((memForget b.base (surfaceSize b) s).modCompose fun c =>
    { c with surfaces := mapPut c.surfaces b.surface (newSurface b) })

theorem surfaceRegisterBody_ok {b : SurfaceBody} {s : State} (h : surfaceRegisterCheck b s = 0) (tk : Ticket) :
    surfaceRegisterBody b tk s = complete tk 0 [] (registered b s) := by
  unfold surfaceRegisterBody
  rw [h]
  rfl

theorem surfaceRegisterCheck_taken (b : SurfaceBody) (d : Desc) (c : HostCmd) (s : State) :
    surfaceRegisterCheck b (taken d c s) = surfaceRegisterCheck b s := rfl

theorem registered_tells (b : SurfaceBody) (s : State) : Tells s (registered b s) := .same rfl rfl rfl rfl

theorem registered_frame (b : SurfaceBody) (s : State) :
    Reporting s { registered b s with compose := s.compose, gates := s.gates, mem := s.mem } := rfl

/-! ## Uploads -/

/-- An image that an upload may write now (R134, R135). -/
structure Writable (s : State) (k : Nat) (x : Surface) (b : UploadBody) : Prop where
  notShown : ¬ (x.newest = some b.image ∧ boundInForce s k = true)
  free : imageHeld s k b.image = false

theorem beginUpload_starts {s : State} {k : Nat} {x : Surface} {b : UploadBody} (h : Writable s k x b) {tk : Ticket} (hd : tk.dmaOk = true) :
    beginUpload k x b tk s = (false, modSurface k (fun x => { x with active := x.active ++ [(tk, b)] }) s) := by
  have h1 : (decide (x.newest = some b.image) && boundInForce s k) = false := by
    have := h.notShown
    simpa [Bool.and_eq_false_iff] using this
  unfold beginUpload
  simp only [h1, h.free, hd, Bool.not_true, Bool.false_eq_true, if_false]

theorem beginUpload_waits {s : State} {k : Nat} {x : Surface} {b : UploadBody} (hn : ¬ (x.newest = some b.image ∧ boundInForce s k = true))
    (hh : imageHeld s k b.image = true) (hw : b.noWait = false) (tk : Ticket) : beginUpload k x b tk s = (true, s) := by
  have h1 : (decide (x.newest = some b.image) && boundInForce s k) = false := by
    simpa [Bool.and_eq_false_iff] using hn
  unfold beginUpload
  simp only [h1, hh, hw, Bool.false_eq_true, if_false, if_true]

/-- A command that a surface takes, with none waiting. -/
theorem queueAccess_first {s : State} {k : Nat} {x : Surface} {b : UploadBody} (hx : surfaceOf s k = some x) (hf : uploadFieldsOk x.body b = true)
    (hw : x.waiting = []) (read : Bool) (tk : Ticket) :
    queueAccess k read b tk s = if (beginAccess k x read b tk s).1 then
        modSurface k (fun x => { x with waiting := x.waiting ++ [(tk, read, b)] }) (beginAccess k x read b tk s).2
      else (beginAccess k x read b tk s).2 := by
  unfold queueAccess
  simp only [hx, hf, hw, Bool.not_true, List.isEmpty_nil, Bool.false_eq_true, if_false]

theorem surfaceUploadBody_starts {s : State} {x : Surface} {b : UploadBody} (hx : surfaceOf s b.surface = some x)
    (hf : uploadFieldsOk x.body b = true) (hw : x.waiting = []) (h : Writable s b.surface x b) {tk : Ticket} (hd : tk.dmaOk = true) :
    surfaceUploadBody b tk s = modSurface b.surface (fun x => { x with active := x.active ++ [(tk, b)] }) s := by
  unfold surfaceUploadBody
  rw [queueAccess_first hx hf hw]
  show (if (beginUpload b.surface x b tk s).1 = true then _ else (beginUpload b.surface x b tk s).2) = _
  rw [beginUpload_starts h hd]
  rfl

theorem surfaceUploadBody_waits {s : State} {x : Surface} {b : UploadBody} (hx : surfaceOf s b.surface = some x)
    (hf : uploadFieldsOk x.body b = true) (hw : x.waiting = []) (hn : ¬ (x.newest = some b.image ∧ boundInForce s b.surface = true))
    (hh : imageHeld s b.surface b.image = true) (hnw : b.noWait = false) (tk : Ticket) :
    surfaceUploadBody b tk s = modSurface b.surface (fun x => { x with waiting := x.waiting ++ [(tk, false, b)] }) s := by
  unfold surfaceUploadBody
  rw [queueAccess_first hx hf hw]
  show (if (beginUpload b.surface x b tk s).1 = true then modSurface _ _ (beginUpload b.surface x b tk s).2 else _) = _
  rw [beginUpload_waits hn hh hnw]
  rfl

theorem imageHeld_taken (d : Desc) (c : HostCmd) (s : State) (k i : Nat) : imageHeld (taken d c s) k i = imageHeld s k i := rfl

theorem boundInForce_taken (d : Desc) (c : HostCmd) (s : State) (k : Nat) : boundInForce (taken d c s) k = boundInForce s k := rfl

/-- The one upload that waits begins when its image is free (R135). -/
theorem resumeWaiting_one {s : State} {k : Nat} {x : Surface} {b : UploadBody} {tk : Ticket} (hx : surfaceOf s k = some x)
    (h : Writable s k x b) (hd : tk.dmaOk = true) :
    resumeWaiting k [(tk, false, b)] s
      = modSurface k (fun x => { x with waiting := [] }) (modSurface k (fun x => { x with active := x.active ++ [(tk, b)] }) s) := by
  unfold resumeWaiting
  rw [hx]
  show (if (beginUpload k x b tk s).1 = true then _ else resumeWaiting k [] (beginUpload k x b tk s).2) = _
  rw [beginUpload_starts h hd]
  rfl

/-- The bytes of an upload written line by line through the gate (R135): whether any part was done, whether any was refused. -/
def uploadLines (k : Nat) (x : Surface) (tk : Ticket) (b : UploadBody) (s : State) : Bool × Bool × State :=
  (rectLines x.body b).foldl (fun r l =>
    let g := gatedWrite (dmaOf tk) (.surface k) (tagOf tk) l.1 ((b.data.drop l.2.2).take l.2.1) r.2.2
    (r.1 || g.1, r.2.1 || g.2.1, g.2.2)) (false, false, s)

theorem uploadLines_accesses (k : Nat) (x : Surface) (tk : Ticket) (b : UploadBody) (s : State) :
    Accesses s (uploadLines k x tk b s).2.2 := by
  have lines (l : List (Nat × Nat × Nat)) (r : Bool × Bool × State) : Accesses r.2.2 (l.foldl (fun r l =>
      let g := gatedWrite (dmaOf tk) (.surface k) (tagOf tk) l.1 ((b.data.drop l.2.2).take l.2.1) r.2.2
      (r.1 || g.1, r.2.1 || g.2.1, g.2.2)) r).2.2 := by
    induction l generalizing r with
    | nil => exact .refl _
    | cons p l ih =>
      refine Accesses.trans ?_ (ih ..)
      exact gatedWrite_accesses ..
  exact lines _ (false, false, s)

/-- The state with an upload at its end (R134, R135). -/
def uploaded (k : Nat) (b : UploadBody) (rest : List (Ticket × UploadBody)) (s : State) : State :=
  if b.present then presentImage k b.image (modSurface k (fun x => { x with active := rest }) s)
  else modSurface k (fun x => { x with active := rest }) s

theorem exec_surfaceUploadComplete {k : Nat} {x : Surface} {tk : Ticket} {b : UploadBody} {rest : List (Ticket × UploadBody)} {s : State}
    (hx : mapGet s.compose.surfaces k = some x) (ha : x.active = (tk, b) :: rest) (hr : (uploadLines k x tk b s).2.1 = false) :
    exec (.surfaceUploadComplete k) s = .next (complete tk 0 [] (uploaded k b rest (uploadLines k x tk b s).2.2)) := by
  change execSurfaceUploadComplete k s = _
  unfold uploadLines at hr
  unfold execSurfaceUploadComplete uploaded uploadLines
  simp only [hx, ha, hr, gateStatus, Bool.false_eq_true, if_false, decide_true, Bool.and_true]

theorem uploaded_tells (k : Nat) (b : UploadBody) (rest : List (Ticket × UploadBody)) (s : State) : Tells s (uploaded k b rest s) := by
  unfold uploaded presentImage
  split <;> exact .same rfl rfl rfl rfl

theorem uploaded_mem (k : Nat) (b : UploadBody) (rest : List (Ticket × UploadBody)) (s : State) : (uploaded k b rest s).mem = s.mem := by
  unfold uploaded presentImage
  split <;> rfl

theorem uploaded_surface {k : Nat} {x : Surface} {s : State} (hx : mapGet s.compose.surfaces k = some x) (b : UploadBody)
    (rest : List (Ticket × UploadBody)) :
    mapGet (uploaded k b rest s).compose.surfaces k = some
      (if b.present then
        { x with active := rest, newest := some b.image, newestNs := s.time.mono,
                 before := if x.newestNs = s.time.mono then x.before else x.newest }
      else { x with active := rest }) := by
  unfold uploaded presentImage
  cases b.present
  · rw [if_neg Bool.false_ne_true, if_neg Bool.false_ne_true, surface_modSurface, hx]
    rfl
  · rw [if_pos rfl, if_pos rfl, surface_modSurface, surface_modSurface, hx]
    rfl

/-! ## Reads -/

/-- A read that has begun: it holds its image until a free instant (R136). -/
def readBegun (k : Nat) (b : UploadBody) (tk : Ticket) (s : State) : State :=
  modSurface k (fun x => { x with reading := x.reading ++ [((draw s).2.time.mono + (draw s).1, tk, b)] }) (draw s).2

theorem surfaceReadBody_begins {s : State} {x : Surface} {b : UploadBody} (hx : surfaceOf s b.surface = some x)
    (hf : uploadFieldsOk x.body b = true) (hw : x.waiting = []) {tk : Ticket} (hd : tk.dmaOk = true) :
    surfaceReadBody b tk s = readBegun b.surface b tk s := by
  unfold surfaceReadBody
  rw [queueAccess_first hx hf hw]
  show beginRead b.surface b tk s = _
  unfold beginRead
  rw [hd]
  rfl

/-- The lines of a read, each to its place in the host buffer (R136). -/
def readLinesOut (k : Nat) (x : Surface) (b : UploadBody) (tk : Ticket) (s : State) : Bool × Bool × Bool × State :=
  (rectLines x.body b).foldl (fun r l =>
    let g := gatedRead (dmaOf tk) (.surface k) (tagOf tk) l.1 l.2.1 r.2.2.2
    (r.1 || g.2.1, r.2.1 || g.2.2.1, r.2.2.1 || g.2.2.2.1, hostOut tk l.2.2 g.1 g.2.2.2.2)) (false, false, false, s)

/-- The state with bytes written to the host buffer of a command of this module. -/
theorem hostOut_own {tk : Ticket} (h : tk.origin = none) (off : Nat) (l : List Byte) (s : State) :
    hostOut tk off l s = emit (.hostBytes (tk.buf + off) l) s := by
  unfold hostOut
  rw [h]

/-- Whether clean memory's gate refuses a read does not depend on the outputs so far. -/
theorem gatedReadN_outputs {who : Initiator} {c : Context} {tag : Option Nat} {fuel addr n : Nat} {l m : List Byte} {done dn p q : Bool}
    {s : State} (hc : Clean s) (o : List Out) (h : (gatedReadN who c tag fuel addr n (l, done, false, p, s)).2.2.1 = false) :
    (gatedReadN who c tag fuel addr n (m, dn, false, q, { s with outbox := o })).2.2.1 = false := by
  induction fuel generalizing addr n l m done dn p q with
  | zero => rfl
  | succ fuel ih =>
    unfold gatedReadN at h ⊢
    split
    · rfl
    · next hn =>
      rw [if_neg hn] at h
      extract_lets k a b x at h
      have hb : b.2 = (false, s) := servedRead_state hc a
      have hpass : (gateDo 0 a s).2.1 = false := by
        have hor : (false || x.2.1) = false :=
          gatedReadN_refused _ _ _ _ _ _ (l ++ b.1, done || x.1, false || x.2.1, p || b.2.1, x.2.2) h
        rwa [Bool.false_or, show x = gateDo 0 a b.2.2 from rfl, hb] at hor
      have hx : x.2.1 = false ∧ x.2.2 = s := by
        rw [show x = gateDo 0 a b.2.2 from rfl, hb]
        exact ⟨hpass, gateDo_read rfl hpass⟩
      have hb' : (servedRead a { s with outbox := o }).2 = (false, { s with outbox := o }) := servedRead_state (s := { s with outbox := o }) hc a
      have hpass' : (gateDo 0 a { s with outbox := o }).2.1 = false := hpass
      have hx' : (gateDo 0 a (servedRead a { s with outbox := o }).2.2).2.1 = false
          ∧ (gateDo 0 a (servedRead a { s with outbox := o }).2.2).2.2 = { s with outbox := o } := by
        rw [hb']
        exact ⟨hpass', gateDo_read rfl hpass'⟩
      rw [hx.1, hx.2] at h
      dsimp only
      rw [hx'.1, hx'.2]
      exact ih h

theorem gatedRead_outputs {who : Initiator} {c : Context} {tag : Option Nat} {addr n : Nat} {s : State} (hc : Clean s) (o : List Out)
    (h : (gatedRead who c tag addr n s).2.2.1 = false) : ∃ d, gatedRead who c tag addr n { s with outbox := o }
      = (memReadN s addr n, d, false, false, { s with outbox := o }) :=
  gatedRead_clean (s := { s with outbox := o }) hc (gatedReadN_outputs hc o h)

/-- The lines of a read of clean memory that no gate refuses: each goes out as it stands, and nothing else changes. -/
theorem readLines_clean {k : Nat} {tk : Ticket} {s : State} (hc : Clean s) (horg : tk.origin = none) (l : List (Nat × Nat × Nat))
    (hl : ∀ p ∈ l, (gatedRead (dmaOf tk) (.surface k) (tagOf tk) p.1 p.2.1 s).2.2.1 = false) (done : Bool) (o : List Out) :
    let r := l.foldl (fun r l =>
      let g := gatedRead (dmaOf tk) (.surface k) (tagOf tk) l.1 l.2.1 r.2.2.2
      (r.1 || g.2.1, r.2.1 || g.2.2.1, r.2.2.1 || g.2.2.2.1, hostOut tk l.2.2 g.1 g.2.2.2.2)) (done, false, false, { s with outbox := o })
    r.2.1 = false ∧ r.2.2.1 = false ∧ (∃ q, r.2.2.2 = { s with outbox := q ++ o })
      ∧ ∀ p ∈ l, Out.hostBytes (tk.buf + p.2.2) (memReadN s p.1 p.2.1) ∈ r.2.2.2.outbox := by
  induction l generalizing done o with
  | nil => exact ⟨rfl, rfl, ⟨[], rfl⟩, fun p hp => absurd hp List.not_mem_nil⟩
  | cons p l ih =>
    obtain ⟨d, hd⟩ := gatedRead_outputs hc o (hl p List.mem_cons_self)
    rw [List.foldl_cons]
    dsimp only
    rw [hd, hostOut_own horg]
    obtain ⟨h1, h2, ⟨q, hq⟩, hout⟩ := ih (fun x hx => hl x (List.mem_cons_of_mem _ hx)) (done || d)
      (Out.hostBytes (tk.buf + p.2.2) (memReadN s p.1 p.2.1) :: o)
    refine ⟨h1, h2, ⟨q ++ [Out.hostBytes (tk.buf + p.2.2) (memReadN s p.1 p.2.1)], ?_⟩, fun x hx => ?_⟩
    · rw [List.append_assoc]
      exact hq
    · obtain rfl | hx := List.mem_cons.mp hx
      · refine (congrArg (_ ∈ State.outbox ·) hq).mpr ?_
        exact List.mem_append_right _ List.mem_cons_self
      · exact hout x hx

/-- A read of clean memory that no gate refuses (R136). -/
theorem doRead_clean {k : Nat} {x : Surface} {b : UploadBody} {tk : Ticket} {s : State} (hc : Clean s) (horg : tk.origin = none)
    (hl : ∀ p ∈ rectLines x.body b, (gatedRead (dmaOf tk) (.surface k) (tagOf tk) p.1 p.2.1 s).2.2.1 = false) :
    ∃ q, doRead k x b tk s = complete tk 0 [] { s with outbox := q ++ s.outbox }
      ∧ ∀ p ∈ rectLines x.body b, Out.hostBytes (tk.buf + p.2.2) (memReadN s p.1 p.2.1) ∈ q ++ s.outbox := by
  obtain ⟨h1, h2, ⟨q, hq⟩, hout⟩ := readLines_clean hc horg (rectLines x.body b) hl false s.outbox
  refine ⟨q, ?_, fun p hp => (congrArg (_ ∈ State.outbox ·) hq).mp (hout p hp)⟩
  unfold doRead
  dsimp only at h1 h2 hq ⊢
  rw [h1, h2, hq]
  rfl

/-! ## Retiring -/

theorem surfaceRetireBody_ok {k : Nat} {x : Surface} {s : State} (hx : surfaceOf s k = some x) (hb : surfaceBound s k = false)
    (hw : ∀ w ∈ mapVals s.compose.writebacks, w.body.surface ≠ k) (ho : overlayNames s k = false) (tk : Ticket) :
    surfaceRetireBody k tk s
      = (x.waiting.map Prod.fst).foldl (fun s t => complete t 0x0352 [] s)
          (modSurface k (fun x => { x with retiring := some tk, waiting := [] }) s) := by
  have hany : (mapVals s.compose.writebacks).any (fun w => decide (w.body.surface = k)) = false := by
    rw [List.any_eq_false]
    intro w hm
    simp [hw w hm]
  unfold surfaceRetireBody
  simp only [hx, hb, hany, ho, Bool.or_self, Bool.false_eq_true, if_false, List.foldl_map]

theorem surfaceBound_taken (d : Desc) (c : HostCmd) (s : State) (k : Nat) : surfaceBound (taken d c s) k = surfaceBound s k := rfl

theorem overlayNames_taken (d : Desc) (c : HostCmd) (s : State) (k : Nat) : overlayNames (taken d c s) k = overlayNames s k := rfl

/-- A surface gone, with its gate context. -/
def surfaceGone (k : Nat) (s : State) : State := dropCtx (.surface k) (s.modCompose fun c => { c with surfaces := mapDel c.surfaces k })

theorem surfaceGone_tells (k : Nat) (s : State) : Tells s (surfaceGone k s) := .same rfl rfl rfl rfl

theorem exec_surfaceRetireRelease {k : Nat} {x : Surface} {tk : Ticket} {s : State} (hx : mapGet s.compose.surfaces k = some x)
    (hr : x.retiring = some tk) (ha : x.active = []) (hread : x.reading = []) (hc : contextHeld s (.surface k) = false)
    (hh : ∀ i < x.body.imageCount, imageHeld s k i = false) :
    exec (.surfaceRetireRelease k) s = .next (complete tk 0 [it 6 x.lastFrame, it 8 x.lastNs] (surfaceGone k s)) := by
  have hnone : (List.range x.body.imageCount).any (fun i => imageHeld s k i) = false := by
    rw [List.any_eq_false]
    intro i hi
    rw [hh i (List.mem_range.mp hi)]
    exact Bool.false_ne_true
  change execSurfaceRetireRelease k s = _
  unfold execSurfaceRetireRelease surfaceGone
  simp only [hx, hr, ha, hread, hc, hnone, List.isEmpty_nil, Bool.not_true, Bool.or_self, Bool.false_eq_true, if_false]

/-- Settles O16: registering, the life of an upload and of a read, and the end of a surface, each by its own rule. -/
theorem surfacesComplete : Obligations.SurfacesComplete := by
  unfold Obligations.SurfacesComplete
  refine ⟨?register, ?upload, ?uploadWaits, ?resume, ?uploadEnd, ?read, ?readEnd, ?retire, ?release⟩
  case register =>
    intro d b s h hc
    refine h.completes rfl ?_
    rw [surfaceRegisterBody_ok (s := taken d (.surfaceRegister b) s) (by rw [surfaceRegisterCheck_taken]; exact hc)]
    refine ⟨?_, fun k hk => ?_, ?_, ?_, h.endsFrame frame_composeGatesMem (registered_tells ..) (registered_frame ..) 0 []⟩
    · rw [complete_compose]
      exact mapGet_mapPut_self ..
    · rw [complete_compose]
      exact mapGet_mapPut_ne _ _ hk
    · rw [complete_gates]
      exact List.mem_append_right _ List.mem_cons_self
    · rw [(complete_reporting ..).mem]
      rfl
  case upload =>
    intro d b x s h hd hx hf hw hn hh
    refine h.completes rfl ?_
    rw [surfaceUploadBody_starts (s := taken d (.surfaceUpload b) s) hx hf hw
      ⟨by rw [boundInForce_taken]; exact hn, by rw [imageHeld_taken]; exact hh⟩ hd]
    refine ⟨?_, ticket_in_flight .., frame_compose.trans (frame_compose.of_reporting (take_reporting ..)) (modSurface_frame ..)⟩
    rw [surface_modSurface]
    exact congrArg (Option.map _) (surface_of_surfaceOf hx).1
  case uploadWaits =>
    intro d b x s h hx hf hw hn hh hnw
    refine h.completes rfl ?_
    rw [surfaceUploadBody_waits (s := taken d (.surfaceUpload b) s) hx hf hw (by rw [boundInForce_taken]; exact hn)
      (by rw [imageHeld_taken]; exact hh) hnw]
    refine ⟨?_, ticket_in_flight .., frame_compose.trans (frame_compose.of_reporting (take_reporting ..)) (modSurface_frame ..)⟩
    rw [surface_modSurface, show mapGet (taken d (.surfaceUpload b) s).compose.surfaces b.surface = some x from (surface_of_surfaceOf hx).1,
      Option.map_some, hw]
    rfl
  case resume =>
    intro k x tk b s hx hw hn hh hd
    refine completes_of_exec (t := modSurface k (fun x => { x with waiting := [] })
      (modSurface k (fun x => { x with active := x.active ++ [(tk, b)] }) s)) ?_ ?_
    · change execSurfaceUploadResume k s = _
      unfold execSurfaceUploadResume
      simp only [hx, hw, List.isEmpty_cons, Bool.false_eq_true, if_false]
      rw [resumeWaiting_one hx ⟨hn, hh⟩ hd]
    · refine ⟨⟨{ x with active := x.active ++ [(tk, b)], waiting := [] }, ?_, rfl, rfl⟩, rfl⟩
      rw [surface_modSurface, surface_modSurface, (surface_of_surfaceOf hx).1]
      rfl
  case uploadEnd =>
    intro k x tk b rest s hx ha
    dsimp only
    intro hr
    have hacc := uploadLines_accesses k x tk b s
    refine completes_of_exec (exec_surfaceUploadComplete hx ha hr) ⟨?_, ?_, complete_finishes (hacc.tells.trans (uploaded_tells ..)).view tk 0 []⟩
    · rw [complete_compose, uploaded_surface (x := x) (by rw [hacc.compose]; exact hx), hacc.time]
    · rw [(complete_reporting ..).mem, uploaded_mem]
      rfl
  case read =>
    intro d b x s h hd hx hf hw
    refine h.completes rfl ?_
    rw [surfaceReadBody_begins (s := taken d (.surfaceRead b) s) hx hf hw hd]
    refine ⟨⟨_, (surface_modSurface ..).trans (congrArg (Option.map _) (surface_of_surfaceOf hx).1)⟩, ticket_in_flight .., rfl⟩
  case readEnd =>
    intro k x b tk s hx hd horg hp hi hl
    obtain ⟨q, hq, hout⟩ := doRead_clean ⟨hp, hi⟩ horg hl
    rw [hq]
    exact ⟨fun l hm => (complete_adds ..).mem (hout l hm), complete_finishes (u := { s with outbox := q ++ s.outbox }) rfl tk 0 [],
      Reporting.trans (b := { s with outbox := q ++ s.outbox }) rfl (complete_reporting ..)⟩
  case retire =>
    intro d k x s h hx hb hw ho
    refine h.completes rfl ?_
    rw [surfaceRetireBody_ok (s := taken d (.surfaceRetire k) s) hx (by rw [surfaceBound_taken]; exact hb) hw
      (by rw [overlayNames_taken]; exact ho)]
    refine ⟨?_, fun w hm => ?_, frame_compose.reporting (frame_compose.trans (frame_compose.of_reporting (take_reporting ..)) (modSurface_frame ..))
      (completes_reporting ..)⟩
    · rw [(completes_reporting ..).compose, surface_modSurface]
      exact congrArg (Option.map _) (surface_of_surfaceOf hx).1
    · have hs : Serves s (modSurface k (fun x => { x with retiring := some (ticketOf d 0x0502 s), waiting := [] }) (taken d (.surfaceRetire k) s)) :=
        ⟨id, rfl, rfl, rfl, id, .refl _⟩
      exact completes_finish hs h.notDetaching 0x0352 _ w.1 (List.mem_map_of_mem hm)
  case release =>
    intro k x tk s hx hr ha hread hc hh
    refine completes_of_exec (exec_surfaceRetireRelease hx hr ha hread hc hh) ?_
    rw [complete_compose, complete_gates]
    exact ⟨mapGet_mapDel_self .., dropCtx_gone _ _, complete_finishes (surfaceGone_tells k s).view tk 0 _,
      frame_composeGates.reporting (b := surfaceGone k s) rfl (complete_reporting ..)⟩

end Sys2Proof.Machine
end

-- What rules do to some parts of the state (R281 to R288)
section
/-! SUPPORT. Only the parts that a frame sets back differ, and what has been told stays told: such steps chain, and a command that takes them
completes so. -/

namespace Sys2Proof.Machine

open Sys2Proof

/-- The parts that `keep` sets back may differ; of the rest only what reports, to which it adds. -/
structure Moves (keep : State → State → State) (s t : State) : Prop where
  tells : Tells s t
  frame : Reporting s (keep s t)

namespace Moves

variable {keep : State → State → State} (hk : Frame keep)
include hk

theorem of_reporting {s t : State} (ht : Tells s t) (h : Reporting s t) : Moves keep s t := ⟨ht, hk.of_reporting h⟩

theorem refl (s : State) : Moves keep s s := of_reporting hk (.refl s) (.refl s)

theorem trans {a b c : State} (h : Moves keep a b) (k : Moves keep b c) : Moves keep a c :=
  ⟨h.tells.trans k.tells, hk.trans h.frame k.frame⟩

theorem emit {s t : State} (h : Moves keep s t) (o : Out) : Moves keep s (emit o t) :=
  h.trans hk (of_reporting hk ((Tells.refl t).emit o) (emit_reporting ..))

theorem raise {s t : State} (h : Moves keep s t) (c : Nat) (k : ScopeKind) (i : Nat) (l : Items) (a : Bool := false) :
    Moves keep s (raise c k i l t a) :=
  h.trans hk (of_reporting hk (raise_tells ..) (raise_reporting ..))

theorem foldl {α : Type} {g : State → α → State} (h : ∀ s x, Moves keep s (g s x)) (l : List α) (s : State) : Moves keep s (l.foldl g s) := by
  induction l generalizing s with
  | nil => exact refl hk s
  | cons x l ih => exact (h s x).trans hk (ih _)

/-- What a step keeps, one that keeps fewer parts does too. -/
theorem widen {keep' : State → State → State} {s t : State} (h : Moves keep' s t) (he : keep s (keep' s t) = keep s t) : Moves keep s t :=
  ⟨h.tells, hk.widen h.frame he⟩

/-- A command executed here completes after such steps (R283). -/
theorem ends {d : Desc} {c : HostCmd} {s u : State} (h : Executes d c s) (hu : Moves keep (taken d c s) u) (st : Nat) (l : Items) :
    Reports d c st l s (complete (ticketOf d (cmdKind c) s) st l u)
      ∧ Reporting s (keep s (complete (ticketOf d (cmdKind c) s) st l u)) :=
  h.endsFrame hk hu.tells hu.frame st l

/-- A command executed here takes such steps, and is in progress after them (R283). -/
theorem begins {d : Desc} {c : HostCmd} {s u : State} (hu : Moves keep (taken d c s) u) : Reporting s (keep s u) :=
  hk.trans (hk.of_reporting (take_reporting ..)) hu.frame

/-- A command in progress completes after such steps (R283). -/
theorem finishes {s u : State} (hu : Moves keep s u) (tk : Ticket) (st : Nat) (l : Items) :
    Finishes tk st l s (complete tk st l u) ∧ Reporting s (keep s (complete tk st l u)) :=
  ⟨complete_finishes hu.tells.view tk st l, hk.reporting hu.frame (complete_reporting ..)⟩

end Moves

theorem Tells.mem {s t : State} (h : Tells s t) {o : Out} (ho : o ∈ s.outbox) : o ∈ t.outbox := h.adds.mem ho

theorem hostOut_tells (tk : Ticket) (o : Nat) (l : List Byte) (s : State) : Tells s (hostOut tk o l s) := by
  unfold hostOut
  split <;> exact (Tells.refl s).emit _

end Sys2Proof.Machine
end

-- Transactions: beginning, staging, abort and status (R297 to R302, R317, R318)
section
/-! SUPPORT. What a transaction is after each operation on it: its change, its phase, this module's part opened and freed. -/

namespace Sys2Proof.Machine

open Sys2Proof

/-- All but transactions. -/
abbrev keepTxn (s t : State) : State := { t with txn := s.txn }

/-- All but transactions and scenes. -/
abbrev keepTxnScene (s t : State) : State := { t with txn := s.txn, scene := s.scene }

theorem frame_txn : Frame keepTxn where
  back _ _ _ _ _ _ _ := rfl
  again _ _ _ := rfl
  self _ := rfl

theorem frame_txnScene : Frame keepTxnScene where
  back _ _ _ _ _ _ _ := rfl
  again _ _ _ := rfl
  self _ := rfl

theorem Moves.withScene {s t : State} (h : Moves keepTxn s t) : Moves keepTxnScene s t := h.widen frame_txnScene rfl

theorem Moves.scene {s t : State} (h : Moves keepTxn s t) : t.scene = s.scene := Reporting.scene (t := keepTxn s t) h.frame

theorem Moves.position {keep : State → State → State} {s t : State} (h : Moves keep s t) : position t = position s :=
  congrArg HostView.position h.tells.view

/-! ## One transaction -/

theorem txnOf_modTxnAt (id j : Nat) (f : Txn → Txn) (s : State) :
    txnOf (modTxnAt id f s) j = if j = id then (txnOf s id).map f else txnOf s j := mapGet_mapUpd ..

theorem txnOf_modTxnAt_self {id : Nat} {x : Txn} {s : State} (h : txnOf s id = some x) (f : Txn → Txn) :
    txnOf (modTxnAt id f s) id = some (f x) := by
  rw [txnOf_modTxnAt, if_pos rfl, h]
  rfl

theorem modTxnAt_moves (id : Nat) (f : Txn → Txn) (s : State) : Moves keepTxn s (modTxnAt id f s) := ⟨.same rfl rfl rfl rfl, rfl⟩

theorem broadcast_moves (name : String) (fields : List Int) (s : State) : Moves keepTxn s (broadcast name fields s) :=
  ((Moves.refl frame_txn s).emit frame_txn _).emit frame_txn _

theorem broadcast_reporting (name : String) (fields : List Int) (s : State) : Reporting s (broadcast name fields s) := rfl

theorem broadcast_east (name : String) (fields : List Int) (s : State) :
    Out.message .east .control name fields ∈ (broadcast name fields s).outbox := List.mem_cons_of_mem _ List.mem_cons_self

theorem broadcast_west (name : String) (fields : List Int) (s : State) :
    Out.message .west .control name fields ∈ (broadcast name fields s).outbox := List.mem_cons_self

theorem mirrorTxn_reporting (id : Nat) (s : State) : Reporting s (mirrorTxn id s) := by
  unfold mirrorTxn
  (repeat' split) <;> rfl

/-- The mirror is a message alone. -/
theorem mirrorTxn_outbox (id : Nat) (s : State) : mirrorTxn id s = { s with link := (mirrorTxn id s).link, outbox := (mirrorTxn id s).outbox } := by
  unfold mirrorTxn
  (repeat' split) <;> rfl

theorem mirrorTxn_tells (id : Nat) (s : State) : Tells s (mirrorTxn id s) := by
  unfold mirrorTxn
  split
  · split
    · exact (Tells.refl s).emit _
    · exact .refl s
  · exact .refl s

theorem mirrorTxn_moves (id : Nat) (s : State) : Moves keepTxn s (mirrorTxn id s) :=
  .of_reporting frame_txn (mirrorTxn_tells ..) (mirrorTxn_reporting ..)

theorem txnEvent_moves (c id : Nat) (l : Items) (s : State) : Moves keepTxn s (txnEvent c id l s) :=
  .of_reporting frame_txn (raise_tells ..) (raise_reporting ..)

theorem mirrorTxn_txn (id : Nat) (s : State) : (mirrorTxn id s).txn = s.txn := (mirrorTxn_reporting ..).txn

theorem txnEvent_txn (c id : Nat) (l : Items) (s : State) : (txnEvent c id l s).txn = s.txn := (raise_reporting ..).txn

theorem broadcast_txn (name : String) (fields : List Int) (s : State) : (broadcast name fields s).txn = s.txn := rfl

theorem complete_txn (tk : Ticket) (st : Nat) (l : Items) (s : State) : (complete tk st l s).txn = s.txn := (complete_reporting ..).txn

theorem complete_scene (tk : Ticket) (st : Nat) (l : Items) (s : State) : (complete tk st l s).scene = s.scene :=
  (complete_reporting ..).scene

theorem txnOf_congr {s t : State} (h : t.txn = s.txn) (j : Nat) : txnOf t j = txnOf s j := by
  unfold txnOf
  rw [h]

/-! ## The phase of a transaction -/

theorem setPhase_changes {id : Nat} {x : Txn} {p : TxnPhase} {s : State} (h : txnOf s id = some x) (hp : x.phase ≠ p) :
    setPhase id p s = txnEvent 0x0180 id [it 1 x.phase.value, it 1 p.value, it 8 (x.applyNs.getD 0)]
      (mirrorTxn id (modTxnAt id (fun t => { t with phase := p }) s)) := by
  simp [setPhase, h, hp]

theorem setPhase_same {id : Nat} {x : Txn} {s : State} (h : txnOf s id = some x) : setPhase id x.phase s = s := by
  simp [setPhase, h]

theorem setPhase_moves (id : Nat) (p : TxnPhase) (s : State) : Moves keepTxn s (setPhase id p s) := by
  unfold setPhase
  split
  · exact .refl frame_txn s
  · split
    · exact .refl frame_txn s
    · exact ((modTxnAt_moves ..).trans frame_txn (mirrorTxn_moves ..)).trans frame_txn (txnEvent_moves ..)

theorem setPhase_part (id : Nat) (p : TxnPhase) (s : State) : (setPhase id p s).txn.part = s.txn.part := by
  unfold setPhase
  split
  · rfl
  · split
    · rfl
    · rw [txnEvent_txn, mirrorTxn_txn]
      rfl

theorem setPhase_lastId (id : Nat) (p : TxnPhase) (s : State) : (setPhase id p s).txn.lastId = s.txn.lastId := by
  unfold setPhase
  split
  · rfl
  · split
    · rfl
    · rw [txnEvent_txn, mirrorTxn_txn]
      rfl

theorem txnOf_setPhase {id : Nat} {x : Txn} {s : State} (h : txnOf s id = some x) (p : TxnPhase) :
    txnOf (setPhase id p s) id = some { x with phase := p } := by
  by_cases hp : x.phase = p
  · subst hp
    rw [setPhase_same h, h]
  · rw [setPhase_changes h hp, txnOf_congr (txnEvent_txn ..), txnOf_congr (mirrorTxn_txn ..), txnOf_modTxnAt_self h]

theorem txnOf_setPhase_ne {id j : Nat} (hj : j ≠ id) (p : TxnPhase) (s : State) : txnOf (setPhase id p s) j = txnOf s j := by
  unfold setPhase
  split
  · rfl
  · split
    · rfl
    · rw [txnOf_congr (txnEvent_txn ..), txnOf_congr (mirrorTxn_txn ..), txnOf_modTxnAt, if_neg hj]

/-- A change of phase is told (R302). -/
theorem setPhase_raises {id : Nat} {x : Txn} {p : TxnPhase} {s : State} (h : txnOf s id = some x) (hp : x.phase ≠ p) :
    Raises 0x0180 .transaction id [it 1 x.phase.value, it 1 p.value, it 8 (x.applyNs.getD 0)] s (setPhase id p s) := by
  rw [setPhase_changes h hp]
  have hm := mirrorTxn_outbox id (modTxnAt id (fun t => { t with phase := p }) s)
  exact raise_raises _ _ _ _ s _ false (by rw [hm]; rfl) (by rw [hm]; rfl) (by rw [hm]; rfl) (by rw [hm]; rfl) (by rw [hm]; rfl)
    (by rw [hm]; rfl)

/-! ## This module's part -/

theorem openPart_open {id : Nat} {p : PartTxn} {s : State} (h : s.txn.part = some p) (hp : p.txn = id) : openPart id s = s := by
  simp [openPart, h, hp]

/-- The part of a transaction just opened (R298). -/
def newPart (id : Nat) : PartTxn :=
  { txn := id, votedYes := false, votedNs := 0, commit := none, groups := [], frames := [], missed := false, applied := false,
    late := false, lostNs := none }

theorem openPart_opens {id : Nat} {s : State} (h : ∀ p, s.txn.part = some p → p.txn ≠ id) (hb : bankFree s = true) :
    openPart id s = { s with
      scene := { s.scene with other := s.scene.inForce, otherUse := .staged }, txn := { s.txn with part := some (newPart id) } } := by
  have hn : (s.txn.part.map fun p => decide (p.txn = id)).getD false = false := by
    cases hs : s.txn.part with
    | none => rfl
    | some p => simpa using h p hs
  unfold openPart
  simp only [hn, hb, Bool.not_true, Bool.or_self, Bool.false_eq_true, if_false]
  rfl

theorem openPart_moves (id : Nat) (s : State) : Moves keepTxnScene s (openPart id s) := by
  unfold openPart
  split
  · exact .refl frame_txnScene s
  · exact ⟨.same rfl rfl rfl rfl, rfl⟩

theorem freePart_moves (s : State) : Moves keepTxnScene s (freePart s) := ⟨.same rfl rfl rfl rfl, rfl⟩

theorem freePart_otherUse (s : State) : (freePart s).scene.otherUse ≠ .staged := by
  change (if s.scene.otherUse = .staged then BankUse.free else s.scene.otherUse) ≠ .staged
  split
  · decide
  · assumption

theorem bankFree_congr {s t : State} (hs : t.scene = s.scene) (ht : t.txn.part = s.txn.part) : bankFree t = bankFree s := by
  unfold bankFree
  rw [hs, ht]

/-! ## TXN_BEGIN -/

/-- The transaction begun, before its phase (R300). -/
def txnBegun (lockstep : Bool) (modules : Nat) (s : State) : State :=
  let forget := (s.txn.begun.drop 1023).filter fun i => ((txnOf s i).map fun t => settledPhase t.phase).getD true
  s.modTxn fun t =>
    { t with
      txns := mapPut (t.txns.filter fun p => !forget.contains p.1) (nextTxnId s) (newTxn lockstep (participants s modules)),
      lastId := nextTxnId s, begun := nextTxnId s :: (t.begun.filter fun i => i != nextTxnId s && !forget.contains i) }

/-- This module opens its part, where it takes part. -/
def openOwn (modules id : Nat) (s t : State) : State := if (participants s modules).contains (position s) then openPart id t else t

/-- The transaction open, and this module's part of it (R300). -/
def txnOpened (lockstep : Bool) (modules : Nat) (s : State) : State :=
  openOwn modules (nextTxnId s) s (setPhase (nextTxnId s) .open_ (txnBegun lockstep modules s))

theorem txnBeginBody_ok {lockstep : Bool} {modules : Nat} {s : State} (h : txnBeginCheck modules s = 0) (tk : Ticket) :
    txnBeginBody lockstep modules tk s
      = complete tk 0 [it 2 (nextTxnId s), it 2 0, it 8 (sumN ((participants s modules).map fun p => 2 ^ p))]
          (txnOpened lockstep modules s) := by
  unfold txnBeginBody
  simp only [h, bne_self_eq_false, Bool.false_eq_true, if_false]
  have hp : position (setPhase (nextTxnId s) .open_ (txnBegun lockstep modules s)) = position s := (setPhase_moves ..).position
  unfold txnOpened openOwn
  rw [← hp]
  rfl

theorem txnBeginBody_refuses {lockstep : Bool} {modules : Nat} {s : State} (h : txnBeginCheck modules s ≠ 0) (tk : Ticket) :
    txnBeginBody lockstep modules tk s = complete tk (txnBeginCheck modules s) [] s := by
  unfold txnBeginBody
  simp [h]

/-- The check passes only with the bank of this module free, where it takes part (R300). -/
theorem bankFree_of_check {modules : Nat} {s : State} (h : txnBeginCheck modules s = 0) (hp : position s ∈ participants s modules) :
    bankFree s = true := by
  have hb : (participants s modules).any (bankTaken s) = false := by
    unfold txnBeginCheck at h
    dsimp only at h
    (repeat' split at h) <;> simp_all
  have := List.any_eq_false.mp hb _ hp
  simp only [bankTaken, decide_true, Bool.true_and, Bool.or_eq_true, Bool.not_eq_true', not_or, Bool.not_eq_false] at this
  exact this.2

theorem txnOf_txnBegun (lockstep : Bool) (modules : Nat) (s : State) :
    txnOf (txnBegun lockstep modules s) (nextTxnId s) = some (newTxn lockstep (participants s modules)) := mapGet_mapPut_self ..

theorem txnBegun_moves (lockstep : Bool) (modules : Nat) (s : State) : Moves keepTxn s (txnBegun lockstep modules s) :=
  ⟨.same rfl rfl rfl rfl, rfl⟩

theorem openOwn_moves (modules id : Nat) (s t : State) : Moves keepTxnScene t (openOwn modules id s t) := by
  unfold openOwn
  split
  · exact openPart_moves ..
  · exact .refl frame_txnScene t

theorem txnOpened_moves (lockstep : Bool) (modules : Nat) (s : State) : Moves keepTxnScene s (txnOpened lockstep modules s) :=
  ((txnBegun_moves ..).trans frame_txn (setPhase_moves ..)).withScene.trans frame_txnScene (openOwn_moves ..)

theorem openPart_txns (id : Nat) (s : State) : (openPart id s).txn.txns = s.txn.txns := by
  unfold openPart
  split <;> rfl

theorem openPart_keeps (id : Nat) (s : State) :
    (openPart id s).txn.txns = s.txn.txns ∧ (openPart id s).txn.lastId = s.txn.lastId ∧ (openPart id s).scene.inForce = s.scene.inForce
      ∧ (openPart id s).scene.gen = s.scene.gen := by
  unfold openPart
  split <;> exact ⟨rfl, rfl, rfl, rfl⟩

theorem openOwn_keeps (modules id : Nat) (s t : State) :
    (openOwn modules id s t).txn.txns = t.txn.txns ∧ (openOwn modules id s t).txn.lastId = t.txn.lastId
      ∧ (openOwn modules id s t).scene.inForce = t.scene.inForce ∧ (openOwn modules id s t).scene.gen = t.scene.gen := by
  unfold openOwn
  split
  · exact openPart_keeps ..
  · exact ⟨rfl, rfl, rfl, rfl⟩

/-- A transaction begun is open, and what its beginning has told (R300). -/
theorem txnOpened_txn (lockstep : Bool) (modules : Nat) (s : State) :
    let t := txnOpened lockstep modules s
    txnOf t (nextTxnId s) = some { newTxn lockstep (participants s modules) with phase := .open_ } ∧ t.txn.lastId = nextTxnId s
      ∧ t.scene.inForce = s.scene.inForce ∧ t.scene.gen = s.scene.gen
      ∧ Raises 0x0180 .transaction (nextTxnId s) [it 1 0, it 1 1, it 8 0] s t := by
  intro t
  obtain ⟨htxns, hlast, hforce, hgen⟩ := openOwn_keeps modules (nextTxnId s) s (setPhase (nextTxnId s) .open_ (txnBegun lockstep modules s))
  have hphase := setPhase_moves (nextTxnId s) .open_ (txnBegun lockstep modules s)
  refine ⟨?_, ?_, ?_, ?_, ?_⟩
  · exact (congrArg (fun m => mapGet m (nextTxnId s)) htxns).trans (txnOf_setPhase (txnOf_txnBegun ..) _)
  · exact hlast.trans ((setPhase_lastId ..).trans rfl)
  · exact hforce.trans (by rw [hphase.scene]; rfl)
  · exact hgen.trans (by rw [hphase.scene]; rfl)
  · have hr := setPhase_raises (s := txnBegun lockstep modules s) (p := .open_) (txnOf_txnBegun ..) (nofun)
    exact Raises.tells hr (openOwn_moves ..).tells

/-- Where this module takes part, its free bank is staged (R298, R300). -/
theorem txnOpened_part {lockstep : Bool} {modules : Nat} {s : State} (h : txnBeginCheck modules s = 0)
    (hn : ∀ p, s.txn.part = some p → p.txn ≠ nextTxnId s) (hp : position s ∈ participants s modules) :
    let t := txnOpened lockstep modules s
    t.scene.other = s.scene.inForce ∧ t.scene.otherUse = .staged ∧ t.txn.part.map PartTxn.txn = some (nextTxnId s) := by
  have hpart : (setPhase (nextTxnId s) .open_ (txnBegun lockstep modules s)).txn.part = s.txn.part := setPhase_part ..
  have hscene : (setPhase (nextTxnId s) .open_ (txnBegun lockstep modules s)).scene = s.scene := (setPhase_moves ..).scene
  have hb : bankFree (setPhase (nextTxnId s) .open_ (txnBegun lockstep modules s)) = true :=
    (bankFree_congr hscene hpart).trans (bankFree_of_check h hp)
  intro t
  have ht : t = _ := if_pos (List.contains_iff_mem.mpr hp)
  rw [ht, openPart_opens (by rw [hpart]; exact hn) hb]
  exact ⟨by rw [hscene], rfl, rfl⟩

/-! ## TXN_STAGE, TXN_ABORT, TXN_STATUS -/

theorem txnStageBody_own {id count len : Nat} {items : List Item} {x : Txn} {p : PartTxn} {s : State} (hh : s.cascade.headstock = true)
    (hx : txnOf s id = some x) (hphase : x.phase = .open_) (hin : position s ∈ x.parts) (ht : twinPos s (position s) = none)
    (hp : s.txn.part = some p) (hid : p.txn = id) {tk : Ticket} (hd : tk.dmaOk = true) (hb : stageBad count len items = none) :
    txnStageBody id (position s) count len items tk s = complete tk 0 [] (stageOwn (position s) (items.take count) s) := by
  have hs : setPhase id .open_ s = s := hphase ▸ setPhase_same hx
  have hpos : position (stageOwn (position s) (items.take count) s) = position s := rfl
  simp [txnStageBody, hh, hx, hphase, hin, ht, hd, hb, hs, openPart_open hp hid, hpos]

/-- All but scenes. -/
abbrev keepScene (s t : State) : State := { t with scene := s.scene }

theorem frame_scene : Frame keepScene where
  back _ _ _ _ _ _ _ := rfl
  again _ _ _ := rfl
  self _ := rfl

theorem stageOwn_moves (pos : Nat) (items : List Item) (s : State) : Moves keepScene s (stageOwn pos items s) :=
  ⟨.same rfl rfl rfl rfl, rfl⟩

theorem stageOwn_txn (pos : Nat) (items : List Item) (s : State) : (stageOwn pos items s).txn = s.txn := rfl

theorem stageOwn_own (items : List Item) (s : State) :
    (stageOwn (position s) items s).scene = { s.scene with other := items.foldl (stageItem 0) s.scene.other } := by
  unfold stageOwn
  rw [if_pos rfl]
  rfl

theorem txnStageBody_bad {id pos count len o : Nat} {items : List Item} {x : Txn} {s : State} (hh : s.cascade.headstock = true)
    (hx : txnOf s id = some x) (hphase : x.phase = .open_) (hin : pos ∈ x.parts) {tk : Ticket} (hd : tk.dmaOk = true)
    (hb : stageBad count len items = some o) :
    txnStageBody id pos count len items tk s = complete tk 0x0110 [it 4 o] s := by
  simp [txnStageBody, hh, hx, hphase, hin, hd, hb]

theorem txnAbortBody_ok {id : Nat} {x : Txn} {s : State} (hh : s.cascade.headstock = true) (hx : txnOf s id = some x)
    (ha : abortable x.phase = true) (tk : Ticket) : txnAbortBody id tk s = complete tk 0 [] (abortTxn id 0x0311 [] s) := by
  simp [txnAbortBody, hh, hx, ha]

theorem txnAbortBody_late {id : Nat} {x : Txn} {s : State} (hh : s.cascade.headstock = true) (hx : txnOf s id = some x)
    (ha : abortable x.phase = false) (tk : Ticket) : txnAbortBody id tk s = complete tk 0x0311 [] s := by
  simp [txnAbortBody, hh, hx, ha]

theorem txnStatusBody_ok {id len : Nat} {x : Txn} {s : State} (hh : s.cascade.headstock = true) (hx : txnOf s id = some x) (hl : 16 ≤ len)
    (tk : Ticket) : txnStatusBody id len tk s = completeWrite tk (applyReportItems id x len) [] s := by
  simp [txnStatusBody, hh, hx, Nat.not_lt.mpr hl]

/-- This module's part is of a transaction. -/
def partOf (id : Nat) (s : State) : Bool := (s.txn.part.map fun p => decide (p.txn = id)).getD false

theorem partOf_iff {id : Nat} {s : State} : partOf id s = true ↔ s.txn.part.map PartTxn.txn = some id := by
  unfold partOf
  cases s.txn.part <;> simp

/-- The transaction in phase ABORTED, every staged bank freed (R302). -/
def txnAborted (id : Nat) (s : State) : State :=
  let t := broadcast "TXN_ABORT" [(id : Int)] (setPhase id .aborted s)
  if partOf id t then freePart t else t

/-- What a validation that ends with its transaction writes (R307). -/
def abortReport (id status : Nat) (x : Txn) : Items := if x.isCommit then [] else [it 2 id, it 2 status, it 2 0, it 2 0, it 1 0, it 23 0]

theorem abortTxn_eq {id : Nat} {x : Txn} {s : State} (hx : txnOf s id = some x) (status : Nat) (result : Items) :
    abortTxn id status result s = endTicket id status (abortReport id status x) result (txnAborted id s) := by
  unfold abortTxn
  rw [hx]
  rfl

theorem txnAborted_moves (id : Nat) (s : State) : Moves keepTxnScene s (txnAborted id s) := by
  have h := ((setPhase_moves id .aborted s).trans frame_txn (broadcast_moves "TXN_ABORT" [(id : Int)] _)).withScene
  unfold txnAborted
  dsimp only
  split
  · exact h.trans frame_txnScene (freePart_moves _)
  · exact h

theorem txnAborted_txns (id : Nat) (s : State) : (txnAborted id s).txn.txns = (setPhase id .aborted s).txn.txns := by
  unfold txnAborted
  dsimp only
  split <;> rfl

theorem txnOf_txnAborted {id : Nat} {x : Txn} {s : State} (hx : txnOf s id = some x) :
    txnOf (txnAborted id s) id = some { x with phase := .aborted } :=
  (congrArg (fun m => mapGet m id) (txnAborted_txns id s)).trans (txnOf_setPhase hx _)

theorem txnOf_txnAborted_ne {id j : Nat} (hj : j ≠ id) (s : State) : txnOf (txnAborted id s) j = txnOf s j :=
  (congrArg (fun m => mapGet m j) (txnAborted_txns id s)).trans (txnOf_setPhase_ne hj ..)

theorem txnAborted_inForce (id : Nat) (s : State) : (txnAborted id s).scene.inForce = s.scene.inForce := by
  have h : (setPhase id .aborted s).scene.inForce = s.scene.inForce := by rw [(setPhase_moves ..).scene]
  unfold txnAborted
  dsimp only
  split <;> exact h

/-- Where it is this module's, the part ends and its bank is free (R302). -/
theorem txnAborted_part {id : Nat} {s : State} (h : s.txn.part.map PartTxn.txn = some id) :
    (txnAborted id s).txn.part = none ∧ (txnAborted id s).scene.otherUse ≠ .staged := by
  have hp : partOf id (broadcast "TXN_ABORT" [(id : Int)] (setPhase id .aborted s)) = true :=
    partOf_iff.mpr ((congrArg (Option.map PartTxn.txn) (setPhase_part ..)).trans h)
  have ht : txnAborted id s = _ := if_pos hp
  rw [ht]
  exact ⟨rfl, freePart_otherUse _⟩

theorem endTicket_idle {id status : Nat} {x : Txn} {s : State} (hx : txnOf s id = some x) (ht : x.ticket = none) (data result : Items) :
    endTicket id status data result s = s := by
  simp [endTicket, hx, ht]

/-- Settles O32: each operation on the transaction, on its phase and on this module's part has its own lemma. -/
theorem transactionCommandsComplete : Obligations.TransactionCommandsComplete := by
  unfold Obligations.TransactionCommandsComplete
  refine ⟨?begin, ?beginRefused, ?stage, ?stageBad, ?abort, ?abortLate, ?status⟩
  case begin =>
    intro d lockstep modules s h hc hn
    refine h.completes rfl ?_
    rw [txnBeginBody_ok (s := taken d (.txnBegin lockstep modules) s) hc]
    obtain ⟨hx, hlast, hforce, hgen, hraise⟩ := txnOpened_txn lockstep modules (taken d (.txnBegin lockstep modules) s)
    rw [txnOf_congr (complete_txn ..), complete_txn, complete_scene]
    exact ⟨hx, hlast, txnOpened_part (s := taken d (.txnBegin lockstep modules) s) hc hn, hforce, hgen, Raises.complete hraise _ _ _,
      (txnOpened_moves ..).ends frame_txnScene h 0 _⟩
  case beginRefused =>
    intro d lockstep modules s h hc
    refine h.completes rfl ?_
    rw [txnBeginBody_refuses (s := taken d (.txnBegin lockstep modules) s) hc]
    exact h.refused _ []
  case stage =>
    intro d id count len items x p s h hh hx hphase hin ht hp hid hd hb
    refine h.completes rfl ?_
    have hbody : txnStageBody id (position s) count len items
        (ticketOf d (cmdKind (.txnStage id (position s) count len items)) s) (taken d (.txnStage id (position s) count len items) s)
          = complete _ 0 [] (stageOwn (position s) (items.take count) (taken d (.txnStage id (position s) count len items) s)) :=
      txnStageBody_own (s := taken d (.txnStage id (position s) count len items) s) hh hx hphase hin ht hp hid hd hb
    rw [hbody]
    exact ⟨(complete_scene ..).trans (stageOwn_own _ (taken d (.txnStage id (position s) count len items) s)), complete_txn .., (stageOwn_moves (position s) (items.take count) _).ends frame_scene h 0 []⟩
  case stageBad =>
    intro d id pos count len items x o s h hh hx hphase hin hd hb
    refine h.completes rfl ?_
    rw [txnStageBody_bad (s := taken d (.txnStage id pos count len items) s) hh hx hphase hin hd hb]
    exact h.refused _ _
  case abort =>
    intro d id x s h hh hx ha ht
    refine h.completes rfl ?_
    have hx' : txnOf (taken d (.txnAbort id) s) id = some x := hx
    rw [txnAbortBody_ok (s := taken d (.txnAbort id) s) hh hx ha, abortTxn_eq hx', endTicket_idle (txnOf_txnAborted hx') ht]
    refine ⟨(txnOf_congr (complete_txn ..) id).trans (txnOf_txnAborted hx'),
      fun j hj => (txnOf_congr (complete_txn ..) j).trans (txnOf_txnAborted_ne hj _), ?_, ?_, ?_⟩
    · rw [complete_txn, complete_scene]
      exact txnAborted_part (s := taken d (.txnAbort id) s)
    · rw [complete_scene]
      exact txnAborted_inForce ..
    · exact (txnAborted_moves ..).ends frame_txnScene h 0 []
  case abortLate =>
    intro d id x s h hh hx ha
    refine h.completes rfl ?_
    rw [txnAbortBody_late (s := taken d (.txnAbort id) s) hh hx ha]
    exact h.refused _ []
  case status =>
    intro d id len x s h hh hx hl hd
    refine h.completes rfl ?_
    rw [txnStatusBody_ok (s := taken d (.txnStatus id len) s) hh hx hl]
    exact h.writes hd _ []

end Sys2Proof.Machine
end

-- Transactions: validation, votes and the commit (R302 to R309)
section
/-! SUPPORT. The operations of the Headstock on a transaction, each as what it sends and what becomes of the transaction, and a participant's
answers. -/

namespace Sys2Proof.Machine

open Sys2Proof

/-- All parts: nothing but what reports differs. -/
abbrev keepAll (_ t : State) : State := t

theorem frame_all : Frame keepAll where
  back _ _ _ _ _ _ _ := rfl
  again _ _ _ := rfl
  self _ := rfl

theorem Moves.reporting {s t : State} (h : Moves keepAll s t) : Reporting s t := h.frame

theorem Moves.of_all {keep : State → State → State} (hk : Frame keep) {s t : State} (h : Moves keepAll s t) : Moves keep s t :=
  .of_reporting hk h.tells h.frame

/-- What differs where only transactions do, and what reports. -/
theorem Moves.txn_eq {s t : State} (h : Moves keepTxn s t) :
    t = { s with host := t.host, queue := t.queue, mgmt := t.mgmt, link := t.link, outbox := t.outbox, txn := t.txn } :=
  congrArg (fun v : State => { v with txn := t.txn }) (h.frame : keepTxn s t = _)

theorem Moves.headstock {s t : State} (h : Moves keepTxn s t) : t.cascade = s.cascade := by rw [h.txn_eq]

/-! ## The command in progress of a transaction ends -/

/-- A transaction without its command in progress. -/
def withoutTicket (id : Nat) (s : State) : State := modTxnAt id (fun t => { t with ticket := none }) s

theorem withoutTicket_moves (id : Nat) (s : State) : Moves keepTxn s (withoutTicket id s) := modTxnAt_moves ..

theorem endTicket_plain {id : Nat} {x : Txn} {tk : Ticket} {s : State} (hx : txnOf s id = some x) (ht : x.ticket = some tk) (status : Nat)
    (result : Items) : endTicket id status [] result s = complete tk status result (withoutTicket id s) := by
  simp [endTicket, hx, ht, withoutTicket]

theorem endTicket_writes {id : Nat} {x : Txn} {tk : Ticket} {s : State} (hx : txnOf s id = some x) (ht : x.ticket = some tk)
    (hd : tk.dmaOk = true) (status : Nat) {data : Items} (hne : data ≠ []) (result : Items) :
    endTicket id status data result s = complete tk status result (hostOut tk 0 (itemBytes data) (withoutTicket id s)) := by
  simp [endTicket, hx, ht, hd, hne, withoutTicket]

/-! ## Validation -/

/-- Every participant is asked (R303). -/
def validationAsked (id : Nat) (s : State) : State :=
  broadcast "VALIDATION_REQUEST" [(id : Int)] (setPhase id .validating (modTxnAt id (fun t => { t with results := [] }) s))

theorem validationAsked_moves (id : Nat) (s : State) : Moves keepTxn s (validationAsked id s) :=
  ((modTxnAt_moves ..).trans frame_txn (setPhase_moves ..)).trans frame_txn (broadcast_moves ..)

theorem txnOf_validationAsked {id : Nat} {x : Txn} {s : State} (hx : txnOf s id = some x) :
    txnOf (validationAsked id s) id = some { x with results := [], phase := .validating } :=
  (txnOf_congr (broadcast_txn ..) id).trans (txnOf_setPhase (txnOf_modTxnAt_self hx _) _)

/-- Where this module takes no part, validation begins with the request alone. -/
theorem startValidation_others {id : Nat} {x : Txn} {s : State} (hx : txnOf s id = some x) (hn : position s ∉ x.parts) :
    startValidation id s = validationAsked id s := by
  have hp : position (validationAsked id s) = position s := (validationAsked_moves ..).position
  have hy := txnOf_validationAsked hx
  unfold startValidation
  unfold validationAsked at hy hp ⊢
  simp only [hy, hp, List.contains_iff_mem, hn, if_false]

/-- The command that validates, noted. -/
def validateNoted (id len : Nat) (tk : Ticket) (s : State) : State :=
  modTxnAt id (fun t => { t with ticket := some tk, isCommit := false, reportLen := len }) s

theorem txnValidateBody_ok {id len : Nat} {x : Txn} {s : State} (hh : s.cascade.headstock = true) (hx : txnOf s id = some x)
    (hphase : x.phase = .open_) (ht : x.ticket = none) (hl : 64 ≤ len) (tk : Ticket) :
    txnValidateBody id len tk s = startValidation id (validateNoted id len tk s) := by
  simp [txnValidateBody, hh, hx, hphase, ht, Nat.not_lt.mpr hl, validateNoted]

/-- The report of a validation is never empty. -/
theorem validationReport_ne_nil (id status len : Nat) (results : List (ValSummary × List ReportEntry)) (entries : List ReportEntry) :
    validationReport id status len results entries ≠ [] := by simp [validationReport]

/-- What the results of a transaction say (R303). -/
def validationEntries (s : State) (y : Txn) : List ReportEntry := (mapVals y.results).flatMap Prod.snd ++ cascadeChecks s y

/-- With every result in, the phase moves, and the TXN_VALIDATE ends with its report (R302, R307). -/
theorem validationDone_ends {id : Nat} {y : Txn} {tk : Ticket} {s : State} (hy : txnOf s id = some y) (hphase : y.phase = .validating)
    (hall : ∀ p ∈ y.parts, mapHas y.results p = true) (ht : y.ticket = some tk) (hc : y.isCommit = false) (hd : tk.dmaOk = true) :
    validationDone id s
      = complete tk (firstCode (validationEntries s y)) []
          (hostOut tk 0 (itemBytes (validationReport id (firstCode (validationEntries s y)) y.reportLen (mapVals y.results) (validationEntries s y)))
            (withoutTicket id (setPhase id (if firstCode (validationEntries s y) = 0 then .valid else .open_) s))) := by
  have hres : (y.parts.all fun p => mapHas y.results p) = true := List.all_eq_true.mpr hall
  unfold validationDone
  simp only [hy, hphase, hres, hc, bne_self_eq_false, Bool.not_true, Bool.or_self, Bool.false_eq_true, if_false]
  exact endTicket_writes (txnOf_setPhase hy (if firstCode (validationEntries s y) = 0 then .valid else .open_)) ht hd _
    (validationReport_ne_nil _ _ _ _ _) []

theorem takeResult_done {id pos : Nat} {x : Txn} {s : State} (hx : txnOf s id = some x) (hphase : x.phase = .validating)
    (hp : pos ∈ x.parts) (v : ValSummary) (l : List ReportEntry) :
    takeResult id pos v l s = validationDone id (modTxnAt id (fun t => { t with results := mapPut t.results pos (v, l) }) s) := by
  simp [takeResult, hx, hphase, hp]

theorem mapHas_mapPut {α : Type} {m : Map α} {k p : Nat} (v : α) (h : p ≠ k → mapHas m p = true) : mapHas (mapPut m k v) p = true := by
  unfold mapHas at *
  rw [mapGet_mapPut]
  split
  · rfl
  · next hne => exact h hne

/-- The summary and the entries that a participant's result carries (R307). -/
def resultFields (s : State) : List Int :=
  (summaryItems (summarise s s.scene.other)).map Prod.snd ++ (ownEntries s).flatMap fun e => (entryReport e).map Prod.snd

/-! ## Prepare and votes -/

theorem emits_moves {α : Type} (f : α → Out) (l : List α) (s : State) : Moves keepAll s (l.foldl (fun s r => emit (f r) s) s) :=
  Moves.foldl frame_all (fun s r => (Moves.refl frame_all s).emit frame_all (f r)) l s

theorem sendRecords_moves (b : SceneBank) (s : State) (key : Nat) : Moves keepAll s (sendRecords b s key) :=
  Moves.foldl frame_all (fun s _ => (Moves.refl frame_all s).emit frame_all _) _ s

/-- Staged records are messages alone (R308). -/
theorem writeStaged_moves (s : State) : Moves keepAll s (writeStaged s) := by
  unfold writeStaged
  refine (Moves.foldl frame_all (sendRecords_moves _) _ s).trans frame_all (Moves.foldl frame_all (fun s p => ?_) _ _)
  dsimp only
  split
  · exact ((Moves.refl frame_all s).emit frame_all _).emit frame_all _
  · exact (Moves.refl frame_all s).emit frame_all _

/-- This module's part with its vote (R308). -/
def votedPart (s : State) (p : PartTxn) : PartTxn :=
  { p with votedYes := true, votedNs := s.time.mono, groups := affectedGroups s.scene.inForce s.scene.other }

theorem prepareOwn_yes {id : Nat} {p : PartTxn} {s : State} (hp : s.txn.part = some p) (hid : p.txn = id) (hc : prepareCode s = 0) :
    prepareOwn id s = (0, writeStaged (modPart (votedPart s) s)) := by
  simp [prepareOwn, openPart_open hp hid, hp, hid, hc]
  rfl

theorem prepareOwn_no {id : Nat} {p : PartTxn} {s : State} (hp : s.txn.part = some p) (hid : p.txn = id) (hc : prepareCode s ≠ 0) :
    prepareOwn id s = (prepareCode s, s) := by
  simp [prepareOwn, openPart_open hp hid, hp, hid, hc]

theorem modPart_moves (f : PartTxn → PartTxn) (s : State) : Moves keepTxn s (modPart f s) := ⟨.same rfl rfl rfl rfl, rfl⟩

/-- The prepare is sent (R308). -/
def prepareSent (id : Nat) (s : State) : State :=
  broadcast "PREPARE" [(id : Int)] (setPhase id .preparing (modTxnAt id (fun t => { t with votes := [], prepareNs := s.time.mono }) s))

theorem prepareSent_moves (id : Nat) (s : State) : Moves keepTxn s (prepareSent id s) :=
  ((modTxnAt_moves ..).trans frame_txn (setPhase_moves ..)).trans frame_txn (broadcast_moves ..)

theorem txnOf_prepareSent {id : Nat} {x : Txn} {s : State} (hx : txnOf s id = some x) :
    txnOf (prepareSent id s) id = some { x with votes := [], prepareNs := s.time.mono, phase := .preparing } :=
  (txnOf_congr (broadcast_txn ..) id).trans (txnOf_setPhase (txnOf_modTxnAt_self hx _) _)

theorem sendPrepare_others {id : Nat} {x : Txn} {s : State} (hx : txnOf s id = some x) (hn : position s ∉ x.parts) :
    sendPrepare id s = prepareSent id s := by
  have hp : position (prepareSent id s) = position s := (prepareSent_moves ..).position
  have hy := txnOf_prepareSent hx
  unfold sendPrepare
  unfold prepareSent at hy hp ⊢
  simp only [hy, hp, List.contains_iff_mem, hn, if_false]

/-- The command that commits, noted. -/
def commitNoted (id apply len : Nat) (tk : Ticket) (s : State) : State :=
  modTxnAt id (fun t => { t with ticket := some tk, isCommit := true, reportLen := len, askedNs := apply }) s

theorem txnCommitBody_valid {id apply len : Nat} {x : Txn} {s : State} (hh : s.cascade.headstock = true) (hx : txnOf s id = some x)
    (hphase : x.phase = .valid) (ht : x.ticket = none) (hl : 1040 ≤ len) (ha : apply ≤ s.time.wall + 60 * second)
    (hm : activationMeets s x apply = false) (tk : Ticket) :
    txnCommitBody id apply len tk s = sendPrepare id (commitNoted id apply len tk s) := by
  simp [txnCommitBody, hh, hx, hphase, ht, Nat.not_lt.mpr hl, Nat.not_lt.mpr ha, hm, commitNoted]

/-- A vote is noted and told (R309). -/
def voteNoted (id pos : Nat) (yes : Bool) (code : Nat) (s : State) : State :=
  txnEvent 0x0181 id [it 1 pos, it 1 (flag yes), it 2 code]
    (mirrorTxn id (modTxnAt id (fun t => { t with votes := mapPut t.votes pos (yes, code) }) s))

theorem voteNoted_moves (id pos : Nat) (yes : Bool) (code : Nat) (s : State) : Moves keepTxn s (voteNoted id pos yes code s) :=
  ((modTxnAt_moves ..).trans frame_txn (mirrorTxn_moves ..)).trans frame_txn (txnEvent_moves ..)

theorem voteNoted_txn (id pos : Nat) (yes : Bool) (code : Nat) (s : State) :
    (voteNoted id pos yes code s).txn = (modTxnAt id (fun t => { t with votes := mapPut t.votes pos (yes, code) }) s).txn :=
  (txnEvent_txn ..).trans (mirrorTxn_txn ..)

theorem txnOf_voteNoted {id pos : Nat} {x : Txn} {s : State} (hx : txnOf s id = some x) (yes : Bool) (code : Nat) :
    txnOf (voteNoted id pos yes code s) id = some { x with votes := mapPut x.votes pos (yes, code) } :=
  (txnOf_congr (voteNoted_txn ..) id).trans (txnOf_modTxnAt_self hx _)

theorem voteNoted_raises (id pos : Nat) (yes : Bool) (code : Nat) (s : State) :
    Raises 0x0181 .transaction id [it 1 pos, it 1 (flag yes), it 2 code] s (voteNoted id pos yes code s) := by
  have hm := mirrorTxn_outbox id (modTxnAt id (fun t => { t with votes := mapPut t.votes pos (yes, code) }) s)
  exact raise_raises _ _ _ _ s _ false (by rw [hm]; rfl) (by rw [hm]; rfl) (by rw [hm]; rfl) (by rw [hm]; rfl) (by rw [hm]; rfl)
    (by rw [hm]; rfl)

theorem takeVote_no {id pos code : Nat} {x : Txn} {s : State} (hx : txnOf s id = some x) (hphase : x.phase = .preparing) (hp : pos ∈ x.parts)
    (hv : mapHas x.votes pos = false) :
    takeVote id pos false code s = abortTxn id 0x0312 [it 2 code, it 1 pos] (voteNoted id pos false code s) := by
  simp [takeVote, hx, hphase, hp, hv, voteNoted]

theorem takeVote_last {id pos code : Nat} {x : Txn} {s : State} (hx : txnOf s id = some x) (hphase : x.phase = .preparing) (hp : pos ∈ x.parts)
    (hv : mapHas x.votes pos = false) (hall : ∀ p ∈ x.parts, p ≠ pos → mapHas x.votes p = true) :
    takeVote id pos true code s = issueCommit id (voteNoted id pos true code s) := by
  have ha : (x.parts.all fun p => p = pos || mapHas x.votes p) = true := by
    refine List.all_eq_true.mpr fun p hpm => ?_
    by_cases he : p = pos
    · simp [he]
    · simp [hall p hpm he]
  have hc : x.parts.contains pos = true := List.contains_iff_mem.mpr hp
  simp only [takeVote, hx, hphase, hc, hv, ha, bne_self_eq_false, Bool.not_true, Bool.or_self, Bool.false_eq_true, if_false, if_true]
  rfl

/-! ## The commit is issued -/

theorem affectedRecords_congr {s t : State} {x y : Txn} (hs : t.scene = s.scene) (ht : t.txn.part = s.txn.part) (hp : y.parts = x.parts)
    (hg : y.groupsOf = x.groupsOf) (hr : y.stagedGroups = x.stagedGroups) : affectedRecords t y = affectedRecords s x := by
  unfold affectedRecords anyGroup groupRec
  rw [hs, ht, hp, hg, hr]

/-- The apply instant of a commit issued now (R309). -/
def commitInstant (s : State) (x : Txn) : Nat :=
  if x.askedNs = 0 then s.time.wall + 3 * pMax ((affectedRecords s x).map Prod.snd) else x.askedNs

/-- The apply frames of a commit (R309). -/
def commitFrames (s : State) (x : Txn) (T : Nat) : Map Nat := (affectedRecords s x).map fun p => (p.1, applyFrame s p.1 p.2 T)

/-- What a transaction knows of its commit (R309). -/
def withApply (s : State) (T : Nat) (frames : Map Nat) (t : Txn) : Txn :=
  { t with
    applyNs := some T, frames := frames, lastSentNs := s.time.mono, acked := if t.parts.contains (position s) then [position s] else [],
    groupsOf := mapPut t.groupsOf (position s) ((s.txn.part.map PartTxn.groups).getD []) }

/-- The commit is sent (R309). -/
def commitSent (id T : Nat) (frames : Map Nat) (s : State) : State :=
  broadcast "COMMIT" ([(id : Int), T] ++ frames.flatMap fun p => [(p.1 : Int), p.2])
    (setPhase id .committed (modTxnAt id (withApply s T frames) s))

theorem commitSent_moves (id T : Nat) (frames : Map Nat) (s : State) : Moves keepTxn s (commitSent id T frames s) :=
  ((modTxnAt_moves ..).trans frame_txn (setPhase_moves ..)).trans frame_txn (broadcast_moves ..)

theorem txnOf_commitSent {id : Nat} {x : Txn} {s : State} (hx : txnOf s id = some x) (T : Nat) (frames : Map Nat) :
    txnOf (commitSent id T frames s) id = some { withApply s T frames x with phase := .committed } :=
  (txnOf_congr (broadcast_txn ..) id).trans (txnOf_setPhase (txnOf_modTxnAt_self hx _) _)

/-- A commit whose instant is late enough is sent, and taken by this module's own part (R309). -/
theorem issueCommit_sends {id : Nat} {x : Txn} {s : State} (hx : txnOf s id = some x)
    (hT : s.time.wall + 3 * pMax ((affectedRecords s x).map Prod.snd) ≤ commitInstant s x) :
    issueCommit id s = takeCommit
      { txn := id, kind := .commit, applyNs := commitInstant s x, frames := commitFrames s x (commitInstant s x) }
      (commitSent id (commitInstant s x) (commitFrames s x (commitInstant s x)) s) := by
  have hlate : (x.askedNs != 0 && decide (x.askedNs < s.time.wall + 3 * pMax ((affectedRecords s x).map Prod.snd))) = false := by
    by_cases ha : x.askedNs = 0
    · simp [ha]
    · unfold commitInstant at hT
      rw [if_neg ha] at hT
      simp [Nat.not_lt.mpr hT]
  unfold issueCommit
  simp only [hx, hlate, Bool.false_eq_true, if_false]
  rfl

/-! ## A commit reaches this module's part -/

theorem frames_of_ack {r : ApplyReport} (ha : r.applied = false) (hc : r.cancelled = false) (hb : r.rolledBack = false) :
    outcomeOfReport r = none := by simp [outcomeOfReport, ha, hc, hb]

/-- Acknowledgements apart, every transaction is as it was. -/
structure OnlyAcks (s t : State) : Prop where
  moves : Moves keepTxn s t
  txns : ∀ j y, txnOf s j = some y → ∃ l, txnOf t j = some { y with acked := l }

theorem OnlyAcks.refl (s : State) : OnlyAcks s s := ⟨.refl frame_txn s, fun _ y h => ⟨y.acked, h⟩⟩

/-- A report that tells no outcome only acknowledges (R310). -/
theorem takeReport_acks {r : ApplyReport} (h : outcomeOfReport r = none) (s : State) : OnlyAcks s (takeReport r s) := by
  unfold takeReport
  split
  · exact .refl s
  · next x hx =>
    split
    · exact .refl s
    · rw [h]
      dsimp only
      split
      · exact .refl s
      · refine ⟨(modTxnAt_moves ..).trans frame_txn (mirrorTxn_moves ..), fun j y hj => ?_⟩
        rw [txnOf_congr (mirrorTxn_txn ..), txnOf_modTxnAt]
        split
        · next hji =>
          subst hji
          exact ⟨r.position :: y.acked, by rw [hj]; rfl⟩
        · exact ⟨y.acked, hj⟩

/-- A commit held as this module's part. -/
def withPart (q : PartTxn) (s : State) : State := s.modTxn fun t => { t with part := some q }

theorem withPart_acks (q : PartTxn) (s : State) : OnlyAcks s (withPart q s) := ⟨⟨.same rfl rfl rfl rfl, rfl⟩, fun _ y h => ⟨y.acked, h⟩⟩

/-- The Headstock that holds a commit of its own acknowledges it at most (R310). -/
theorem holdCommit_acks (q : PartTxn) (m : CommitMsg) {s : State} (hh : s.cascade.headstock = true) : OnlyAcks s (holdCommit q m s) := by
  have hw : (withPart q s).cascade.headstock = true := hh
  have hq : holdCommit q m s
      = if q.missed then sendReport (reportOf (withPart q s) q false false false q.frames) (withPart q s) else withPart q s := by
    unfold holdCommit
    change (if q.missed then sendReport (reportOf (if (withPart q s).cascade.headstock then withPart q s else _) q false false false q.frames)
      (if (withPart q s).cascade.headstock then withPart q s else _) else if (withPart q s).cascade.headstock then withPart q s else _) = _
    simp only [hw, if_true]
  rw [hq]
  split
  · rw [sendReport, if_pos hw]
    have hr := takeReport_acks (frames_of_ack (r := reportOf (withPart q s) q false false false q.frames) rfl rfl rfl) (withPart q s)
    exact ⟨(withPart_acks q s).moves.trans frame_txn hr.moves, fun j y hj => hr.txns j y hj⟩
  · exact withPart_acks q s

/-- In the Headstock, taking a commit holds it and acknowledges it at most (R310). -/
theorem takeCommit_holds {m : CommitMsg} {s : State} (hk : m.kind = .commit) (hh : s.cascade.headstock = true) :
    OnlyAcks s (takeCommit m s) := by
  unfold takeCommit
  split
  · exact .refl s
  · split
    · exact .refl s
    · rw [hk]
      dsimp only
      split
      · exact holdCommit_acks _ _ hh
      · exact .refl s

/-- Settles O33: each step of a transaction, from its request to its commit, by the lemma about it. -/
theorem transactionsValidateAndVote : Obligations.TransactionsValidateAndVote := by
  unfold Obligations.TransactionsValidateAndVote
  refine ⟨?validate, ?result, ?request, ?commit, ?prepareYes, ?prepareNo, ?lastVote, ?voteNo, ?timeout⟩
  case validate =>
    intro d id len x s h hh hx hphase ht hn hl
    refine h.completes rfl ?_
    rw [txnValidateBody_ok (s := taken d (.txnValidate id len) s) hh hx hphase ht hl]
    have hy := txnOf_modTxnAt_self (s := taken d (.txnValidate id len) s) hx
      (fun t => { t with ticket := some (ticketOf d 0x0102 s), isCommit := false, reportLen := len })
    have hstart : startValidation id (validateNoted id len (ticketOf d (cmdKind (.txnValidate id len)) s) (taken d (.txnValidate id len) s))
        = validationAsked id _ := startValidation_others hy hn
    rw [hstart]
    exact ⟨txnOf_validationAsked hy, broadcast_east .., broadcast_west ..,
      ((modTxnAt_moves ..).trans frame_txn (validationAsked_moves ..)).begins frame_txn⟩
  case result =>
    intro id pos v l x tk s hh hx hphase hp ht hc hd hall
    refine completes_of_exec (t := takeResult id pos v l s) ?_ ?_
    · change execValidationResultRx id pos v l s = _
      simp [execValidationResultRx, hh]
    · intro y entries
      have hy : txnOf (modTxnAt id (fun t => { t with results := mapPut t.results pos (v, l) }) s) id = some y := txnOf_modTxnAt_self hx _
      have hentries : validationEntries (modTxnAt id (fun t => { t with results := mapPut t.results pos (v, l) }) s) y = entries := rfl
      rw [takeResult_done hx hphase hp, validationDone_ends hy hphase (fun p hpm => mapHas_mapPut _ (hall p hpm)) ht hc hd, hentries]
      have hm : Moves keepTxn s (hostOut tk 0 (itemBytes (validationReport id (firstCode entries) y.reportLen (mapVals y.results) entries))
          (withoutTicket id (setPhase id (if firstCode entries = 0 then .valid else .open_)
            (modTxnAt id (fun t => { t with results := mapPut t.results pos (v, l) }) s)))) :=
        (((modTxnAt_moves ..).trans frame_txn (setPhase_moves ..)).trans frame_txn (withoutTicket_moves ..)).trans frame_txn
          (.of_reporting frame_txn (hostOut_tells ..) (hostOut_reporting ..))
      refine ⟨?_, hm.finishes frame_txn tk _ []⟩
      rw [txnOf_congr (complete_txn ..), txnOf_congr ((hostOut_reporting ..).txn), withoutTicket, txnOf_modTxnAt_self (txnOf_setPhase hy _)]
      rfl
  case request =>
    intro id p s hh hs hp hid
    refine completes_of_exec (t := emit (.message (headstockBond s) .control "VALIDATION_RESULT"
      ([(id : Int), position s, firstCode (ownEntries s)] ++ resultFields s)) s) ?_ ⟨⟨_, List.mem_cons_self⟩, emit_reporting ..⟩
    change execValidationRequestRx id s = _
    simp only [execValidationRequestRx, hh, hs, openPart_open hp hid, hp, Option.map_some, Option.getD_some, hid, decide_true, Bool.not_true,
      Bool.or_self, Bool.false_eq_true, if_false, if_true, List.append_assoc, resultFields]
  case commit =>
    intro d id apply len x s h hh hx hphase ht hl ha hm hn
    refine h.completes rfl ?_
    rw [txnCommitBody_valid (s := taken d (.txnCommit id apply len) s) hh hx hphase ht hl ha hm]
    have hy := txnOf_modTxnAt_self (s := taken d (.txnCommit id apply len) s) hx
      (fun t => { t with ticket := some (ticketOf d 0x0103 s), isCommit := true, reportLen := len, askedNs := apply })
    have hsend : sendPrepare id
        (commitNoted id apply len (ticketOf d (cmdKind (.txnCommit id apply len)) s) (taken d (.txnCommit id apply len) s))
          = prepareSent id _ := sendPrepare_others hy hn
    rw [hsend]
    exact ⟨txnOf_prepareSent hy, broadcast_east .., broadcast_west ..,
      ((modTxnAt_moves ..).trans frame_txn (prepareSent_moves ..)).begins frame_txn⟩
  case prepareYes =>
    intro id p s hh hp hid hc
    refine completes_of_exec (t := emit (.message (headstockBond s) .control "VOTE" [(id : Int), position s, 1, 0])
      (writeStaged (modPart (votedPart s) s))) ?_ ⟨?_, List.mem_cons_self, ?_⟩
    · change execPrepareRx id s = _
      simp only [execPrepareRx, hh, prepareOwn_yes hp hid hc, Bool.false_eq_true, if_false]
      rfl
    · refine (congrArg TxnSt.part (writeStaged_moves (modPart (votedPart s) s)).reporting.txn).trans ?_
      change s.txn.part.map (votedPart s) = _
      rw [hp]
      rfl
    · exact (((modPart_moves ..).trans frame_txn ((writeStaged_moves _).of_all frame_txn)).emit frame_txn _).frame
  case prepareNo =>
    intro id p s hh hp hid hc
    refine completes_of_exec (t := emit (.message (headstockBond s) .control "VOTE" [(id : Int), position s, 0, prepareCode s]) s) ?_
      ⟨List.mem_cons_self, emit_reporting ..⟩
    change execPrepareRx id s = _
    simp [execPrepareRx, hh, prepareOwn_no hp hid hc, hc, flag]
  case lastVote =>
    intro id pos x T s hh hx hphase hp hv hall hT hle
    have hm := voteNoted_moves id pos true 0 s
    have hx' := txnOf_voteNoted (pos := pos) hx true 0
    have hrec : affectedRecords (voteNoted id pos true 0 s) { x with votes := mapPut x.votes pos (true, 0) } = affectedRecords s x :=
      affectedRecords_congr hm.scene (by rw [voteNoted_txn]; rfl) rfl rfl rfl
    have hwall : (voteNoted id pos true 0 s).time.wall = s.time.wall := by rw [hm.txn_eq]
    have hinst : commitInstant (voteNoted id pos true 0 s) { x with votes := mapPut x.votes pos (true, 0) } = T := by
      unfold commitInstant
      rw [hrec, hwall, hT]
    have hframes : commitFrames (voteNoted id pos true 0 s) { x with votes := mapPut x.votes pos (true, 0) } T = commitFrames s x T := by
      unfold commitFrames
      rw [hrec, hm.txn_eq]
      rfl
    refine completes_of_exec (t := takeCommit { txn := id, kind := .commit, applyNs := T, frames := commitFrames s x T }
      (commitSent id T (commitFrames s x T) (voteNoted id pos true 0 s))) ?_ ?_
    · change execVoteRx id pos true 0 s = _
      rw [execVoteRx, if_pos hh, takeVote_last hx hphase hp hv hall, issueCommit_sends hx' (by rw [hinst, hrec, hwall]; exact hle), hinst,
        hframes]
    · have hsent := hm.trans frame_txn (commitSent_moves id T (commitFrames s x T) _)
      have hack := takeCommit_holds (m := { txn := id, kind := .commit, applyNs := T, frames := commitFrames s x T }) rfl
        ((congrArg CascadeSt.headstock hsent.headstock).trans hh)
      obtain ⟨l, hl⟩ := hack.txns id _ (txnOf_commitSent hx' T _)
      have hall := hsent.trans frame_txn hack.moves
      exact ⟨⟨_, hl, rfl, rfl, rfl⟩, hall.scene, hall.frame⟩
  case voteNo =>
    intro id pos code x tk s hh hx hphase hp hv ht hc
    have hx' := txnOf_voteNoted (pos := pos) hx false code
    have hm := (voteNoted_moves id pos false code s).withScene.trans frame_txnScene (txnAborted_moves id _)
    refine completes_of_exec (t := complete tk 0x0312 [it 2 code, it 1 pos] (withoutTicket id (txnAborted id (voteNoted id pos false code s)))) ?_ ?_
    · change execVoteRx id pos false code s = _
      rw [execVoteRx, if_pos hh, takeVote_no hx hphase hp hv, abortTxn_eq hx', abortReport, if_pos hc,
        endTicket_plain (txnOf_txnAborted hx') ht]
    · have hm' := hm.trans frame_txnScene (withoutTicket_moves id _).withScene
      obtain ⟨hfin, hrep⟩ := hm'.finishes frame_txnScene tk 0x0312 [it 2 code, it 1 pos]
      refine ⟨?_, hfin, ?_, ?_, hrep⟩
      · rw [txnOf_congr (complete_txn ..), withoutTicket, txnOf_modTxnAt_self (txnOf_txnAborted hx')]
        rfl
      · have hr := voteNoted_raises id pos false code s
        exact (Raises.tells hr ((txnAborted_moves ..).tells.trans (withoutTicket_moves ..).tells)).complete _ _ _
      · rw [complete_scene]
        exact (txnAborted_inForce ..).trans (by rw [(voteNoted_moves ..).scene])
  case timeout =>
    intro id pos x tk s hx hphase htime hfirst ht hc
    refine completes_of_exec (t := complete tk 0x0510 [it 2 0, it 1 pos] (withoutTicket id (txnAborted id s))) ?_ ?_
    · change execVoteTimeout id s = _
      simp only [execVoteTimeout, hx, hphase, htime, hfirst, decide_true, Bool.and_self, if_true]
      rw [abortTxn_eq hx, abortReport, if_pos hc, endTicket_plain (txnOf_txnAborted hx) ht]
    · obtain ⟨hfin, hrep⟩ := ((txnAborted_moves id s).trans frame_txnScene (withoutTicket_moves id _).withScene).finishes frame_txnScene tk 0x0510
        [it 2 0, it 1 pos]
      refine ⟨?_, hfin, ?_, hrep⟩
      · rw [txnOf_congr (complete_txn ..), withoutTicket, txnOf_modTxnAt_self (txnOf_txnAborted hx)]
        rfl
      · rw [complete_scene]
        exact txnAborted_inForce ..

end Sys2Proof.Machine
end

-- Transactions: apply, laggards and rollback (R309 to R314)
section
/-! SUPPORT. The banks that change places, a participant that holds, applies, cancels or rolls back, and the Headstock that settles
participants and ends a transaction. -/

namespace Sys2Proof.Machine

open Sys2Proof

/-! ## Reports of a participant -/

/-- The way to the Headstock is read from the cascade alone (R343). -/
theorem headstockBond_congr {s t : State} (h : t.cascade = s.cascade) : headstockBond t = headstockBond s := by
  unfold headstockBond ringTo hopsEast
  rw [h]

/-- The last fields of that report: whether it is late, the scene generation, the frames. -/
def reportTail (r : ApplyReport) : List Int := [(flag r.late : Int), r.sceneGen] ++ r.frames.flatMap fun p => [(p.1 : Int), p.2]

/-- The report that a participant other than the Headstock sends (R310). -/
def reportMsg (r : ApplyReport) (s : State) : Out :=
  .message (headstockBond s) .control "APPLY_REPORT"
    ([(r.txn : Int), r.position, flag r.applied, flag r.cancelled, flag r.rolledBack] ++ reportTail r)

theorem sendReport_sends {s : State} (h : s.cascade.headstock = false) (r : ApplyReport) : sendReport r s = emit (reportMsg r s) s := by
  unfold sendReport
  rw [if_neg (by simp [h])]
  rfl

theorem sendReport_takes {s : State} (h : s.cascade.headstock = true) (r : ApplyReport) : sendReport r s = takeReport r s := if_pos h

/-- A commit held and acknowledged (R309). -/
def commitHeld (q : PartTxn) (id : Nat) (s : State) : State :=
  emit (.message (headstockBond s) .control "COMMIT_ACK" [(id : Int), position s]) (withPart q s)

theorem withPart_moves (q : PartTxn) (s : State) : Moves keepTxn s (withPart q s) := (withPart_acks q s).moves

theorem commitHeld_moves (q : PartTxn) (id : Nat) (s : State) : Moves keepTxn s (commitHeld q id s) := (withPart_moves q s).emit frame_txn _

theorem holdCommit_sends (q : PartTxn) (m : CommitMsg) {s : State} (h : s.cascade.headstock = false) :
    holdCommit q m s = if q.missed then emit (reportMsg (reportOf s q false false false q.frames) s) (commitHeld q m.txn s)
      else commitHeld q m.txn s := by
  have hw : ¬ (withPart q s).cascade.headstock = true := by
    exact Bool.eq_false_iff.mp h
  unfold holdCommit
  change (if q.missed then sendReport (reportOf (if (withPart q s).cascade.headstock then withPart q s else commitHeld q m.txn s) q false false
      false q.frames) (if (withPart q s).cascade.headstock then withPart q s else commitHeld q m.txn s)
    else if (withPart q s).cascade.headstock then withPart q s else commitHeld q m.txn s) = _
  simp only [hw]
  split
  · exact sendReport_sends (s := commitHeld q m.txn s) h _
  · rfl

theorem holdCommit_part (q : PartTxn) (m : CommitMsg) {s : State} (h : s.cascade.headstock = false) :
    (holdCommit q m s).txn.part = some q := by
  rw [holdCommit_sends q m h]
  split <;> rfl

theorem holdCommit_moves (q : PartTxn) (m : CommitMsg) {s : State} (h : s.cascade.headstock = false) :
    Moves keepTxn s (holdCommit q m s) := by
  rw [holdCommit_sends q m h]
  split
  · exact (commitHeld_moves ..).emit frame_txn _
  · exact commitHeld_moves ..

theorem holdCommit_acks_sent (q : PartTxn) (m : CommitMsg) {s : State} (h : s.cascade.headstock = false) :
    Out.message (headstockBond s) .control "COMMIT_ACK" [(m.txn : Int), position s] ∈ (holdCommit q m s).outbox := by
  rw [holdCommit_sends q m h]
  split
  · exact List.mem_cons_of_mem _ List.mem_cons_self
  · exact List.mem_cons_self

theorem holdCommit_reports {q : PartTxn} (hq : q.missed = true) (m : CommitMsg) {s : State} (h : s.cascade.headstock = false) :
    reportMsg (reportOf s q false false false q.frames) s ∈ (holdCommit q m s).outbox := by
  rw [holdCommit_sends q m h, if_pos hq]
  exact List.mem_cons_self

/-! ## A commit reaches a participant -/

section
variable {m : CommitMsg} {p : PartTxn} {s : State} (hp : s.txn.part = some p) (hid : p.txn = m.txn) (hs : inService s = true)
include hp hid hs

theorem takeCommit_commit (hk : m.kind = .commit) (hv : p.votedYes = true) (ha : p.applied = false) (hc : p.commit = none) :
    takeCommit m s = holdCommit (withCommit s p m false) m s := by
  simp [takeCommit, hp, hid, hs, hk, hv, ha, hc]

theorem takeCommit_retarget {plus : Nat} (hk : m.kind = .retarget plus) (hv : p.votedYes = true) (ha : p.applied = false)
    (hq : (withCommit s p m true).missed = false) : takeCommit m s = holdCommit (withCommit s p m true) m s := by
  simp [takeCommit, hp, hid, hs, hk, hv, ha, hq]

theorem takeCommit_cancel (hk : m.kind = .cancel) (ha : p.applied = false) (hc : p.commit = none ∨ partDue s p = false) :
    takeCommit m s = sendReport (reportOf s p false true false []) (freePart s) := by
  have hc' : (p.commit.isNone || !partDue s p) = true := by
    obtain h | h := hc <;> simp [h]
  simp [takeCommit, hp, hid, hs, hk, ha, hc']

theorem takeCommit_rollback (hk : m.kind = .rollback) (ha : p.applied = true) : takeCommit m s = rollbackPart p s := by
  simp [takeCommit, hp, hid, hs, hk, ha]

end

/-! ## The banks change places -/

/-- All but scenes and gates. -/
abbrev keepSceneGates (s t : State) : State := { t with scene := s.scene, gates := s.gates }

/-- All but transactions, scenes and gates. -/
abbrev keepTxnSceneGates (s t : State) : State := { t with txn := s.txn, scene := s.scene, gates := s.gates }

/-- All but transactions, scenes, gates and the Tailstock. -/
abbrev keepTxnSceneGatesTs (s t : State) : State := { t with txn := s.txn, scene := s.scene, gates := s.gates, ts := s.ts }

theorem frame_sceneGates : Frame keepSceneGates where
  back _ _ _ _ _ _ _ := rfl
  again _ _ _ := rfl
  self _ := rfl

theorem frame_txnSceneGates : Frame keepTxnSceneGates where
  back _ _ _ _ _ _ _ := rfl
  again _ _ _ := rfl
  self _ := rfl

theorem frame_txnSceneGatesTs : Frame keepTxnSceneGatesTs where
  back _ _ _ _ _ _ _ := rfl
  again _ _ _ := rfl
  self _ := rfl

/-- The scene with its banks in each other's place (R299, R310). -/
def swappedScene (frames : Map Nat) (rollback : Bool) (c : SceneSt) : SceneSt :=
  { c with
    inForce := c.other, other := c.inForce, otherUse := .retained, gen := (c.gen + 1) % 4294967296, pendingGroups := frames,
    restored := rollback, behind := c.behind && decide (0 < modDiff 32 c.twinGen ((c.gen + 1) % 4294967296)) }

/-- Gate rules that the swap replaces (R387). -/
def rulesDiffer (s : State) : Bool := s.scene.other.rules != s.scene.inForce.rules

/-- The gates with the rule sets of the bank now in force (R387, R401). -/
def swappedGates (s : State) : GateSt :=
  { s.gates with
    rules := s.scene.other.rules, ruleGen := if rulesDiffer s then s.gates.ruleGen + 1 else s.gates.ruleGen,
    draining := if rulesDiffer s then List.range 9 else s.gates.draining }

/-- The banks and the gates swapped, before anything is told. -/
def swappedBanks (frames : Map Nat) (rollback : Bool) (s : State) : State :=
  { s with scene := swappedScene frames rollback s.scene, gates := swappedGates s }

/-- A change of rules is told (R387). -/
def rulesTold (frames : Map Nat) (rollback : Bool) (s : State) : State :=
  let t := swappedBanks frames rollback s
  if rulesDiffer s then raiseMod 0x0A81 [it 2 (sumN (t.gates.rules.map fun p => 2 ^ p.1)), it 4 (t.gates.ruleGen % 4294967296)] t else t

theorem sendSwaps_moves (frames : Map Nat) (rollback : Bool) (s : State) : Moves keepAll s (sendSwaps frames rollback s) :=
  Moves.foldl frame_all (fun s _ => (Moves.refl frame_all s).emit frame_all _) _ s

theorem swapScene_told (frames : Map Nat) (rollback : Bool) (s : State) :
    Moves keepAll (rulesTold frames rollback s) (swapScene frames rollback s) := by
  change Moves keepAll (rulesTold frames rollback s)
    (if (sendSwaps frames rollback (rulesTold frames rollback s)).cascade.twinUp then emit _ (sendSwaps frames rollback (rulesTold frames rollback s))
     else sendSwaps frames rollback (rulesTold frames rollback s))
  split
  · exact (sendSwaps_moves ..).emit frame_all _
  · exact sendSwaps_moves ..

theorem rulesTold_moves (frames : Map Nat) (rollback : Bool) (s : State) :
    Moves keepAll (swappedBanks frames rollback s) (rulesTold frames rollback s) := by
  unfold rulesTold
  dsimp only
  split
  · exact ⟨raiseMod_tells .., raiseMod_reporting ..⟩
  · exact .refl frame_all _

theorem swapScene_swapped (frames : Map Nat) (rollback : Bool) (s : State) :
    Moves keepAll (swappedBanks frames rollback s) (swapScene frames rollback s) :=
  (rulesTold_moves ..).trans frame_all (swapScene_told ..)

theorem swapScene_moves (frames : Map Nat) (rollback : Bool) (s : State) : Moves keepSceneGates s (swapScene frames rollback s) :=
  Moves.trans frame_sceneGates (b := swappedBanks frames rollback s) ⟨.same rfl rfl rfl rfl, rfl⟩
    ((swapScene_swapped frames rollback s).of_all frame_sceneGates)

theorem swapScene_scene (frames : Map Nat) (rollback : Bool) (s : State) :
    (swapScene frames rollback s).scene = swappedScene frames rollback s.scene := (swapScene_swapped ..).reporting.scene

theorem swapScene_rules (frames : Map Nat) (rollback : Bool) (s : State) :
    (swapScene frames rollback s).gates.rules = s.scene.other.rules :=
  congrArg GateSt.rules (swapScene_swapped frames rollback s).reporting.gates

theorem swapScene_txn (frames : Map Nat) (rollback : Bool) (s : State) : (swapScene frames rollback s).txn = s.txn :=
  (swapScene_swapped frames rollback s).reporting.txn

theorem swapScene_cascade (frames : Map Nat) (rollback : Bool) (s : State) : (swapScene frames rollback s).cascade = s.cascade :=
  (swapScene_swapped frames rollback s).reporting.cascade

/-- Where rules change, that is told (R387). -/
theorem swapScene_raises {s u : State} (hu : ∃ ts x, u = { s with ts := ts, txn := x }) (frames : Map Nat) (rollback : Bool)
    (h : s.scene.other.rules ≠ s.scene.inForce.rules) :
    Raises 0x0A81 .module (position s)
      [it 2 (sumN (s.scene.other.rules.map fun r => 2 ^ r.1)), it 4 ((s.gates.ruleGen + 1) % 4294967296)] s (swapScene frames rollback u) := by
  obtain ⟨ts, x, rfl⟩ := hu
  have hd : rulesDiffer { s with ts := ts, txn := x } = true := bne_iff_ne.mpr h
  have ht : rulesTold frames rollback { s with ts := ts, txn := x }
      = raise 0x0A81 .module (position s) [it 2 (sumN (s.scene.other.rules.map fun r => 2 ^ r.1)), it 4 ((s.gates.ruleGen + 1) % 4294967296)]
          (swappedBanks frames rollback { s with ts := ts, txn := x }) := by
    unfold rulesTold
    dsimp only
    rw [if_pos hd]
    have hg : (swappedBanks frames rollback { s with ts := ts, txn := x }).gates.ruleGen = s.gates.ruleGen + 1 := if_pos hd
    rw [hg]
    rfl
  have hr := raise_raises 0x0A81 .module (position s)
    [it 2 (sumN (s.scene.other.rules.map fun r => 2 ^ r.1)), it 4 ((s.gates.ruleGen + 1) % 4294967296)] s
    (swappedBanks frames rollback { s with ts := ts, txn := x }) false rfl rfl rfl rfl rfl rfl
  rw [← ht] at hr
  exact Raises.tells hr (swapScene_told ..).tells

/-! ## A participant rolls back -/

/-- The latch points of the frames `plus` on that have passed are those of the part's latches. -/
theorem no_latch_passed {s : State} {T plus : Nat} {frames : Map Nat} (h : ∀ l ∈ latches s T frames plus, s.time.wall < l) :
    (frames.any fun x => ((anyGroup s x.1).map fun r => decide (latchAt s T plus x.1 (x.2 + plus) r ≤ s.time.wall)).getD false) = false := by
  refine List.any_eq_false.mpr fun x hx => ?_
  cases hr : anyGroup s x.1 with
  | none => simp
  | some r =>
    have := h (latchAt s T plus x.1 (x.2 + plus) r) (List.mem_filterMap.mpr ⟨x, hx, by rw [hr]; rfl⟩)
    simpa using this

/-- The frames from which a rollback takes effect (R311). -/
def rollbackFrames (p : PartTxn) (s : State) : Map Nat :=
  p.frames.map fun x =>
    (x.1, if ((anyGroup s x.1).map fun r => decide (latchAt s (partT p) 1 x.1 (x.2 + 1) r ≤ s.time.wall)).getD false then x.2 + 2 else x.2 + 1)

/-- The retained bank restored, and the part at its end (R311). -/
def rolledBack (p : PartTxn) (s : State) : State :=
  (swapScene (rollbackFrames p s) true s).modTxn fun t => { t with part := none }

theorem rollbackPart_restores {p : PartTxn} {s : State} (h : ∀ l ∈ latches s (partT p) p.frames 2, s.time.wall < l) :
    rollbackPart p s = sendReport (reportOf (rolledBack p s) p false false true (rollbackFrames p s)) (rolledBack p s) := by
  have hn := no_latch_passed h
  unfold rollbackPart
  dsimp only
  rw [if_neg (by rw [hn]; decide)]
  rfl

theorem rollbackPart_cases (p : PartTxn) (s : State) :
    rollbackPart p s = s
      ∨ rollbackPart p s = sendReport (reportOf (rolledBack p s) p false false true (rollbackFrames p s)) (rolledBack p s) := by
  unfold rollbackPart
  dsimp only
  split
  · exact .inl rfl
  · exact .inr rfl

theorem rolledBack_moves (p : PartTxn) (s : State) : Moves keepTxnSceneGates s (rolledBack p s) :=
  ((swapScene_moves (rollbackFrames p s) true s).widen frame_txnSceneGates rfl).trans frame_txnSceneGates ⟨.same rfl rfl rfl rfl, rfl⟩

/-! ## A participant applies -/

theorem createGroup_eq (T : Nat) (s : State) (g : Nat) : ∃ ts, createGroup T s g = { s with ts := ts } := by
  unfold createGroup
  split
  · split
    · split
      · exact ⟨_, rfl⟩
      · exact ⟨_, rfl⟩
    · exact ⟨_, rfl⟩
  · exact ⟨_, rfl⟩

theorem createGroups_eq (T : Nat) (l : List Nat) (s : State) : ∃ ts, l.foldl (createGroup T) s = { s with ts := ts } := by
  induction l generalizing s with
  | nil => exact ⟨s.ts, rfl⟩
  | cons g l ih =>
    obtain ⟨a, ha⟩ := createGroup_eq T s g
    obtain ⟨b, hb⟩ := ih { s with ts := a }
    exact ⟨b, by rw [List.foldl_cons, ha, hb]⟩

/-- The part as it has applied (R310). -/
def appliedPart (p : PartTxn) (s : State) : PartTxn :=
  { p with applied := true, frames := p.frames.map (usedAt s p), late := p.late || (p.frames.map (usedAt s p)).any (orderLate s) }

/-- The groups created, and the part applied, before the banks swap (R310). -/
def partApplied (p : PartTxn) (s : State) : State := withPart (appliedPart p s) (p.groups.foldl (createGroup (partT p)) s)

theorem partApplied_eq (p : PartTxn) (s : State) :
    ∃ ts, partApplied p s = { s with ts := ts, txn := { s.txn with part := some (appliedPart p s) } } := by
  obtain ⟨ts, hts⟩ := createGroups_eq (partT p) p.groups s
  exact ⟨ts, by unfold partApplied withPart; rw [hts]; rfl⟩

theorem not_isEmpty_filter {α : Type} (f : α → Bool) (l : List α) : (!(l.filter f).isEmpty) = l.any f := by
  induction l with
  | nil => rfl
  | cons a l ih =>
    rw [List.filter_cons, List.any_cons]
    cases f a
    · simpa using ih
    · simp

/-- The frames that an applying part reports, those one on whose swap orders come late (R200, R310). -/
def framesTold (p : PartTxn) (s : State) : Map Nat :=
  (p.frames.map (usedAt s p)).map fun x =>
    if ((p.frames.map (usedAt s p)).filter (orderLate s)).contains x then (x.1, x.2 + 1) else x

theorem applyPart_applies (p : PartTxn) (s : State) :
    applyPart p s = sendReport
      (reportOf (swapScene (p.frames.map (usedAt s p)) false (partApplied p s)) (appliedPart p s) true false false (framesTold p s))
      (swapScene (p.frames.map (usedAt s p)) false (partApplied p s)) := by
  unfold applyPart partApplied appliedPart
  dsimp only
  rw [not_isEmpty_filter]
  rfl

/-! ## The Headstock settles participants -/

theorem raiseOutcome_moves (id pos : Nat) (s : State) : Moves keepAll s (raiseOutcome id pos s) := by
  unfold raiseOutcome
  split
  · exact .refl frame_all s
  · dsimp only
    split
    · exact (Moves.refl frame_all s).raise frame_all ..
    · exact Moves.foldl frame_all (fun s _ => (Moves.refl frame_all s).raise frame_all ..) _ s

theorem settlePart_moves (id pos o : Nat) (s : State) : Moves keepTxn s (settlePart id pos o s) :=
  ((modTxnAt_moves ..).trans frame_txn (mirrorTxn_moves ..)).trans frame_txn ((raiseOutcome_moves ..).of_all frame_txn)

theorem settlePart_txn (id pos o : Nat) (s : State) :
    (settlePart id pos o s).txn = (modTxnAt id (fun t => { t with outcomes := mapPut t.outcomes pos o }) s).txn :=
  (raiseOutcome_moves ..).reporting.txn.trans (mirrorTxn_txn ..)

theorem txnOf_settlePart {id : Nat} {x : Txn} {s : State} (hx : txnOf s id = some x) (pos o : Nat) :
    txnOf (settlePart id pos o s) id = some { x with outcomes := mapPut x.outcomes pos o } :=
  (txnOf_congr (settlePart_txn ..) id).trans (txnOf_modTxnAt_self hx _)

theorem outcomeAt_mapPut {x y : Txn} {pos o : Nat} (h : y.outcomes = mapPut x.outcomes pos o) (p : Nat) :
    outcomeAt y p = if p = pos then o else outcomeAt x p := by
  unfold outcomeAt mapGetD
  rw [h, mapGet_mapPut]
  split <;> rfl

/-- Participants left behind (R311). -/
def leaveBehind (id : Nat) (l : List Nat) (s : State) : State := l.foldl (fun s p => settlePart id p 5 s) s

theorem leaveBehind_moves (id : Nat) (l : List Nat) (s : State) : Moves keepTxn s (leaveBehind id l s) :=
  Moves.foldl frame_txn (fun s p => settlePart_moves id p 5 s) l s

/-- Of the transaction only the outcomes differ, those of the participants left behind. -/
theorem txnOf_leaveBehind {id : Nat} (l : List Nat) {x : Txn} {s : State} (hx : txnOf s id = some x) :
    ∃ o, txnOf (leaveBehind id l s) id = some { x with outcomes := o }
      ∧ ∀ p, outcomeAt { x with outcomes := o } p = if p ∈ l then 5 else outcomeAt x p := by
  induction l generalizing x s with
  | nil => exact ⟨x.outcomes, hx, by simp⟩
  | cons q l ih =>
    obtain ⟨o, ho, hp⟩ := ih (txnOf_settlePart hx q 5)
    refine ⟨o, ho, fun p => (hp p).trans ?_⟩
    rw [outcomeAt_mapPut (x := x) rfl]
    by_cases hpl : p ∈ l <;> by_cases hpq : p = q <;> simp [hpl, hpq]

/-! ## A transaction ends -/

theorem endPart_moves (id : Nat) (s : State) : Moves keepTxnScene s (endPart id s) := by
  unfold endPart
  split
  · exact ⟨.same rfl rfl rfl rfl, rfl⟩
  · exact .refl frame_txnScene s

theorem endPart_keeps (id : Nat) (s : State) :
    (endPart id s).txn.txns = s.txn.txns ∧ (endPart id s).scene.inForce = s.scene.inForce := by
  unfold endPart
  split <;> exact ⟨rfl, rfl⟩

/-- The phase moved and this module's part ended (R311). -/
def txnEnded (id : Nat) (p : TxnPhase) (s : State) : State := endPart id (setPhase id p s)

theorem txnEnded_moves (id : Nat) (p : TxnPhase) (s : State) : Moves keepTxnScene s (txnEnded id p s) :=
  (setPhase_moves ..).withScene.trans frame_txnScene (endPart_moves ..)

theorem txnEnded_inForce (id : Nat) (p : TxnPhase) (s : State) : (txnEnded id p s).scene.inForce = s.scene.inForce :=
  (endPart_keeps ..).2.trans (by rw [(setPhase_moves ..).scene])

theorem txnOf_txnEnded {id : Nat} {x : Txn} {s : State} (hx : txnOf s id = some x) (p : TxnPhase) :
    txnOf (txnEnded id p s) id = some { x with phase := p } :=
  (congrArg (fun m => mapGet m id) (endPart_keeps id (setPhase id p s)).1).trans (txnOf_setPhase hx p)

/-- The apply report is never empty. -/
theorem applyReportItems_ne_nil (id : Nat) (x : Txn) (len : Nat) : applyReportItems id x len ≠ [] := by simp [applyReportItems]

/-- A committed transaction ends with its command (R311, R318): its phase, the completion, and what it leaves as it was. -/
theorem finishTxn_finishes {id : Nat} {x : Txn} {tk : Ticket} {s u : State} (hu : Moves keepTxnScene s u) (hx : txnOf u id = some x)
    (ht : x.ticket = some tk) (hd : tk.dmaOk = true) (p : TxnPhase) (st : Nat) :
    txnOf (finishTxn id p st u) id = some { x with phase := p, ticket := none } ∧ (∃ l, Finishes tk st l s (finishTxn id p st u))
      ∧ (finishTxn id p st u).scene.inForce = u.scene.inForce ∧ Reporting s (keepTxnScene s (finishTxn id p st u)) := by
  have hy := txnOf_txnEnded hx p
  have hf : finishTxn id p st u = endTicket id st (applyReportItems id { x with phase := p } x.reportLen) (commitResult { x with phase := p })
      (txnEnded id p u) := by
    unfold finishTxn
    unfold txnEnded at hy ⊢
    simp only [hy]
  rw [endTicket_writes hy ht hd st (applyReportItems_ne_nil _ _ _)] at hf
  rw [hf]
  have hm := ((hu.trans frame_txnScene (txnEnded_moves id p u)).trans frame_txnScene (withoutTicket_moves id _).withScene).trans frame_txnScene
    (.of_reporting frame_txnScene (hostOut_tells tk 0 (itemBytes (applyReportItems id { x with phase := p } x.reportLen)) _)
      (hostOut_reporting ..))
  obtain ⟨hfin, hrep⟩ := hm.finishes frame_txnScene tk st (commitResult { x with phase := p })
  refine ⟨?_, ⟨_, hfin⟩, ?_, hrep⟩
  · rw [txnOf_congr (complete_txn ..), txnOf_congr ((hostOut_reporting ..).txn), withoutTicket, txnOf_modTxnAt_self hy]
  · rw [complete_scene, (hostOut_reporting ..).scene]
    exact txnEnded_inForce ..

theorem tolerantDone_finishes {id : Nat} {x : Txn} {s : State} (hx : txnOf s id = some x) (hl : x.lockstep = false) (hp : x.phase = .committed)
    (ha : ∀ p ∈ x.parts, outcomeAt x p ≠ 0) : tolerantDone id s = finishTxn id .applied 0 s := by
  have hall : allSettled x = true := List.all_eq_true.mpr fun p h => by simpa using ha p h
  simp [tolerantDone, hx, hl, hp, hall]

/-! ## The Headstock takes a report -/

/-- A report acknowledges the commit (R310). -/
def ackNoted (r : ApplyReport) (x : Txn) (s : State) : State :=
  if x.acked.contains r.position then s else mirrorTxn r.txn (modTxnAt r.txn (fun t => { t with acked := r.position :: t.acked }) s)

/-- What a transaction knows of a report (R318). -/
def withReport (r : ApplyReport) (t : Txn) : Txn :=
  { t with
    used := r.frames.foldl (fun m p => mapPut m (r.position * 256 + p.1) p.2) t.used, gens := mapPut t.gens r.position r.sceneGen,
    groupsOf := mapPut t.groupsOf r.position (r.frames.map Prod.fst) }

/-- The report noted (R310). -/
def reportNoted (r : ApplyReport) (x : Txn) (s : State) : State := modTxnAt r.txn (withReport r) (ackNoted r x s)

theorem ackNoted_moves (r : ApplyReport) (x : Txn) (s : State) : Moves keepTxn s (ackNoted r x s) := by
  unfold ackNoted
  split
  · exact .refl frame_txn s
  · exact (modTxnAt_moves ..).trans frame_txn (mirrorTxn_moves ..)

theorem reportNoted_moves (r : ApplyReport) (x : Txn) (s : State) : Moves keepTxn s (reportNoted r x s) :=
  (ackNoted_moves ..).trans frame_txn (modTxnAt_moves ..)

theorem txnOf_ackNoted {r : ApplyReport} {x : Txn} {s : State} (hx : txnOf s r.txn = some x) :
    ∃ l, txnOf (ackNoted r x s) r.txn = some { x with acked := l } := by
  unfold ackNoted
  split
  · exact ⟨x.acked, hx⟩
  · exact ⟨_, (txnOf_congr (mirrorTxn_txn ..) _).trans (txnOf_modTxnAt_self hx _)⟩

theorem txnOf_reportNoted {r : ApplyReport} {x : Txn} {s : State} (hx : txnOf s r.txn = some x) :
    ∃ l, txnOf (reportNoted r x s) r.txn = some (withReport r { x with acked := l }) := by
  obtain ⟨l, hl⟩ := txnOf_ackNoted hx
  exact ⟨l, txnOf_modTxnAt_self hl _⟩

theorem takeReport_settles {r : ApplyReport} {x : Txn} {o : Nat} {s : State} (hx : txnOf s r.txn = some x) (hp : r.position ∈ x.parts)
    (hph : x.phase = .committed) (ho : outcomeOfReport r = some o) (hz : outcomeAt x r.position = 0) :
    takeReport r s = tolerantDone r.txn (settlePart r.txn r.position o (reportNoted r x s)) := by
  have hc : x.parts.contains r.position = true := List.contains_iff_mem.mpr hp
  simp only [takeReport, hx, hc, hph, ho, hz, decide_true, Bool.not_true, Bool.or_false, Bool.true_or, Bool.false_eq_true,
    if_false, reduceCtorEq, decide_false, Bool.false_and]
  rfl

theorem outcomeOfReport_ne_zero {r : ApplyReport} {o : Nat} (h : outcomeOfReport r = some o) : o ≠ 0 := by
  unfold outcomeOfReport at h
  (repeat' split at h) <;> cases h <;> decide

/-! ## While a transaction rolls back -/

/-- The transaction is rolling back. -/
def RollsBack (id : Nat) (s : State) : Prop := (txnOf s id).map Txn.phase = some .rollingBack

/-- It stays so, and what has been told stays told. -/
structure KeepsRolling (id : Nat) (s t : State) : Prop where
  tells : Tells s t
  rolls : RollsBack id t

theorem tolerantDone_rolling {id : Nat} {s : State} (h : RollsBack id s) : tolerantDone id s = s := by
  unfold RollsBack at h
  unfold tolerantDone
  split
  · next x hx =>
    rw [hx] at h
    have hp : x.phase = .rollingBack := Option.some.inj h
    simp [hp]
  · rfl

/-- What a report can do: nothing, acknowledge, tell what is told, or settle its participant, with a rollback where one is due (R311). -/
theorem takeReport_cases {r : ApplyReport} {x : Txn} {s : State} (hx : txnOf s r.txn = some x) :
    takeReport r s = s ∨ takeReport r s = ackNoted r x s ∨ takeReport r s = reportNoted r x s
      ∨ ∃ o, takeReport r s = tolerantDone r.txn (settlePart r.txn r.position o (reportNoted r x s))
        ∨ takeReport r s = broadcast "ROLLBACK" [(r.txn : Int)] (tolerantDone r.txn (settlePart r.txn r.position o (reportNoted r x s))) := by
  unfold takeReport
  rw [hx]
  dsimp only
  split
  · exact .inl rfl
  · split
    · exact .inr (.inl rfl)
    · next o _ =>
      refine .inr (.inr ?_)
      split
      · refine .inr ⟨o, ?_⟩
        split
        · exact .inr rfl
        · exact .inl rfl
      · exact .inl rfl

/-- A report leaves a transaction that is rolling back so (R311). -/
theorem takeReport_rolling {r : ApplyReport} {s : State} (h : RollsBack r.txn s) : KeepsRolling r.txn s (takeReport r s) := by
  cases hx : txnOf s r.txn with
  | none => simp [RollsBack, hx] at h
  | some x =>
    have hph : x.phase = .rollingBack := by simpa [RollsBack, hx] using h
    obtain ⟨l, hl⟩ := txnOf_ackNoted (r := r) hx
    obtain ⟨k, hk⟩ := txnOf_reportNoted (r := r) hx
    have hack : KeepsRolling r.txn s (ackNoted r x s) := ⟨(ackNoted_moves ..).tells, (congrArg (Option.map Txn.phase) hl).trans (congrArg some hph)⟩
    have hnoted : KeepsRolling r.txn s (reportNoted r x s) := ⟨(reportNoted_moves ..).tells, (congrArg (Option.map Txn.phase) hk).trans (congrArg some hph)⟩
    have hsettled : ∀ o, KeepsRolling r.txn s (settlePart r.txn r.position o (reportNoted r x s)) := by
      intro o
      have ho := txnOf_settlePart hk r.position o
      refine ⟨hnoted.tells.trans (settlePart_moves ..).tells, ?_⟩
      unfold RollsBack
      rw [ho]
      exact congrArg some hph
    obtain he | he | he | ⟨o, he | he⟩ := takeReport_cases hx <;> rw [he]
    · exact ⟨.refl s, h⟩
    · exact hack
    · exact hnoted
    · rw [tolerantDone_rolling (hsettled o).rolls]
      exact hsettled o
    · rw [tolerantDone_rolling (hsettled o).rolls]
      have hb := broadcast_moves "ROLLBACK" [(r.txn : Int)] (settlePart r.txn r.position o (reportNoted r x s))
      exact ⟨(hsettled o).tells.trans hb.tells, (congrArg (Option.map Txn.phase) (txnOf_congr (broadcast_txn ..) r.txn)).trans (hsettled o).rolls⟩

/-- A cancel or a rollback that the Headstock takes itself leaves the transaction rolling back (R311). -/
theorem takeCommit_rolling {m : CommitMsg} {s : State} (hk : m.kind = .cancel ∨ m.kind = .rollback) (hh : s.cascade.headstock = true)
    (h : RollsBack m.txn s) : KeepsRolling m.txn s (takeCommit m s) := by
  have hsame : KeepsRolling m.txn s s := ⟨.refl s, h⟩
  unfold takeCommit
  split
  · exact hsame
  · next p hp =>
    split
    · exact hsame
    · next hid =>
      have hid : p.txn = m.txn := by simp_all
      obtain hk | hk := hk <;> rw [hk] <;> dsimp only <;> split
      · rw [sendReport_takes (s := freePart s) hh]
        have hr := takeReport_rolling (r := reportOf s p false true false []) (s := freePart s) (by rw [show (reportOf s p false true false []).txn = m.txn from hid]; exact h)
        rw [show (reportOf s p false true false []).txn = m.txn from hid] at hr
        exact ⟨(freePart_moves s).tells.trans hr.tells, hr.rolls⟩
      · exact hsame
      · obtain he | he := rollbackPart_cases p s
        · rw [he]
          exact hsame
        · have hhead : (rolledBack p s).cascade.headstock = true := (congrArg CascadeSt.headstock (swapScene_cascade ..)).trans hh
          have htxns : txnOf (swapScene (rollbackFrames p s) true s) m.txn = txnOf s m.txn := txnOf_congr (swapScene_txn ..) _
          have hroll : RollsBack m.txn (rolledBack p s) := (congrArg (Option.map Txn.phase) htxns).trans h
          rw [he, sendReport_takes hhead]
          have hr := takeReport_rolling (r := reportOf (rolledBack p s) p false false true (rollbackFrames p s)) (s := rolledBack p s)
            (by rw [show (reportOf (rolledBack p s) p false false true (rollbackFrames p s)).txn = m.txn from hid]; exact hroll)
          rw [show (reportOf (rolledBack p s) p false false true (rollbackFrames p s)).txn = m.txn from hid] at hr
          exact ⟨(rolledBack_moves p s).tells.trans hr.tells, hr.rolls⟩
      · exact hsame

/-! ## The commit sent again -/

/-- The message of a commit (R309). -/
def commitFields (id T : Nat) (x : Txn) : List Int := [(id : Int), T] ++ x.frames.flatMap fun p => [(p.1 : Int), (p.2 : Int)]

theorem resendTo_commit {id T : Nat} {x : Txn} {s : State} (h : s.time.wall < T) (pos : Nat) :
    resendTo id x T s pos = broadcast "COMMIT" (commitFields id T x) s := by
  simp [resendTo, h, commitFields]

theorem resends_moves {id T : Nat} (x : Txn) (l : List Nat) {s : State} (h : s.time.wall < T) :
    Moves keepAll s (l.foldl (resendTo id x T) s) := by
  induction l generalizing s with
  | nil => exact .refl frame_all s
  | cons a l ih =>
    rw [List.foldl_cons, resendTo_commit h]
    have hb : Moves keepAll s (broadcast "COMMIT" (commitFields id T x) s) :=
      ((Moves.refl frame_all s).emit frame_all _).emit frame_all _
    exact hb.trans frame_all (ih h)

/-- One participant to be reached is enough for the message to go both ways (R309). -/
theorem resends_sent {id T pos : Nat} (x : Txn) {l : List Nat} (hl : pos ∈ l) {s : State} (h : s.time.wall < T) :
    Out.message .east .control "COMMIT" (commitFields id T x) ∈ (l.foldl (resendTo id x T) s).outbox
      ∧ Out.message .west .control "COMMIT" (commitFields id T x) ∈ (l.foldl (resendTo id x T) s).outbox := by
  cases l with
  | nil => exact absurd hl List.not_mem_nil
  | cons a l =>
    rw [List.foldl_cons, resendTo_commit h]
    have hm := resends_moves (id := id) x l (s := broadcast "COMMIT" (commitFields id T x) s) h
    exact ⟨hm.tells.mem (broadcast_east ..), hm.tells.mem (broadcast_west ..)⟩

/-- The participants that have neither acknowledged nor settled. -/
def openParts (x : Txn) : List Nat := (unacked x).filter fun p => outcomeAt x p = 0

theorem mem_pending {x : Txn} (p : Nat) : p ∈ (x.parts.filter fun p => outcomeAt x p = 0) ↔ p ∈ x.parts ∧ outcomeAt x p = 0 := by
  simp [List.mem_filter]

/-- A tolerant transaction's own part that has applied nothing is given up past its latch points (R311). -/
def laggardFreed (id : Nat) (s : State) : State :=
  match s.txn.part with
  | some p =>
    if p.txn = id && p.commit.isSome && !p.applied
        && latest (partT p) (latches s (partT p) p.frames (if p.late then 0 else 2)) < s.time.wall then freePart s
    else s
  | none => s

theorem laggardFreed_cases (id : Nat) (s : State) : laggardFreed id s = s ∨ laggardFreed id s = freePart s := by
  unfold laggardFreed
  split
  · exact (ite_eq_or_eq ..).symm
  · exact .inl rfl

theorem laggardFreed_moves (id : Nat) (s : State) : Moves keepTxnScene s (laggardFreed id s) := by
  obtain h | h := laggardFreed_cases id s <;> rw [h]
  · exact .refl frame_txnScene s
  · exact freePart_moves s

theorem txnOf_laggardFreed (id : Nat) (s : State) (j : Nat) : txnOf (laggardFreed id s) j = txnOf s j := by
  obtain h | h := laggardFreed_cases id s <;> rw [h]
  rfl

theorem latches_laggardFreed (id : Nat) (s : State) (T : Nat) (frames : Map Nat) (plus : Nat) :
    latches (laggardFreed id s) T frames plus = latches s T frames plus ∧ (laggardFreed id s).time = s.time
      ∧ (laggardFreed id s).cascade = s.cascade := by
  obtain h | h := laggardFreed_cases id s <;> rw [h] <;> exact ⟨rfl, rfl, rfl⟩

/-- A tolerant transaction past the latch points for N + 2 leaves its laggards behind (R311). -/
def laggardsLeft (id : Nat) (s : State) : State :=
  match txnOf s id with
  | none => s
  | some t =>
    match t.applyNs with
    | none => s
    | some T =>
      if s.cascade.headstock && !t.lockstep && t.phase = .committed && latest T (latches s T t.frames 2) ≤ s.time.wall then
        tolerantDone id (leaveBehind id (t.parts.filter fun p => outcomeAt t p = 0) s)
      else s

/-- Settles O34: what a participant and the Headstock do at each point of a commit, by the lemmas about each. -/
theorem transactionsApply : Obligations.TransactionsApply := by
  unfold Obligations.TransactionsApply
  refine ⟨?commit, ?retarget, ?cancel, ?rollback, ?apply, ?report, ?resend, ?cancelPoint, ?decide, ?decideBack, ?laggards, ?rolledBack, ?abort,
    ?lost, ?sceneGen⟩
  case commit =>
    intro m p s hp hid hs hk hv ha hc hh
    refine completes_of_exec (t := holdCommit (withCommit s p m false) m s)
      (congrArg Host.Outcome.next (takeCommit_commit hp hid hs hk hv ha hc)) ?_
    intro q
    have hm := holdCommit_moves (withCommit s p m false) m hh
    exact ⟨holdCommit_part _ m hh, hm.scene, holdCommit_acks_sent _ m hh, fun hdue => ⟨_, holdCommit_reports hdue m hh⟩, hm.frame⟩
  case retarget =>
    intro m plus p s hp hid hs hk hv ha hh hdue
    refine completes_of_exec (t := holdCommit (withCommit s p m true) m s)
      (congrArg Host.Outcome.next (takeCommit_retarget hp hid hs hk hv ha hdue)) ?_
    have hm := holdCommit_moves (withCommit s p m true) m hh
    refine ⟨(holdCommit_part _ m hh).trans ?_, hm.scene, hm.frame⟩
    unfold withCommit
    dsimp only
    rw [hdue]
  case cancel =>
    intro m p s hp hid hs hk ha hc hh
    refine completes_of_exec (t := emit (reportMsg (reportOf s p false true false []) (freePart s)) (freePart s)) ?_ ?_
    · change Host.Outcome.next (takeCommit m s) = _
      rw [takeCommit_cancel hp hid hs hk ha hc, sendReport_sends (s := freePart s) hh]
    · exact ⟨rfl, freePart_otherUse s, rfl, rfl, ⟨_, List.mem_cons_self⟩, ((freePart_moves s).emit frame_txnScene _).frame⟩
  case rollback =>
    intro m p s hp hid hs hk ha hh hl
    have hhead : (rolledBack p s).cascade.headstock = false := (congrArg CascadeSt.headstock (swapScene_cascade ..)).trans hh
    have hscene : (rolledBack p s).scene = swappedScene (rollbackFrames p s) true s.scene := swapScene_scene ..
    have hpos : position (rolledBack p s) = position s := (rolledBack_moves p s).position
    have hbond : headstockBond (rolledBack p s) = headstockBond s := headstockBond_congr (swapScene_cascade (rollbackFrames p s) true s)
    let r := reportOf (rolledBack p s) p false false true (rollbackFrames p s)
    refine completes_of_exec (t := emit (reportMsg r (rolledBack p s)) (rolledBack p s)) ?_ ?_
    · change Host.Outcome.next (takeCommit m s) = _
      rw [takeCommit_rollback hp hid hs hk ha, rollbackPart_restores hl, sendReport_sends hhead]
    · refine ⟨congrArg SceneSt.inForce hscene, congrArg SceneSt.gen hscene, swapScene_rules .., rfl, ⟨reportTail r, ?_⟩,
        ((rolledBack_moves p s).emit frame_txnSceneGates _).frame⟩
      rw [← hbond, ← hpos]
      exact List.mem_cons_self
  case apply =>
    intro p s hp hc hm ha hs hdue hh
    obtain ⟨ts, hts⟩ := partApplied_eq p s
    let used := p.frames.map (usedAt s p)
    let u := swapScene used false (partApplied p s)
    have hmoves : Moves keepTxnSceneGatesTs s u :=
      Moves.trans frame_txnSceneGatesTs (b := partApplied p s)
        ⟨by rw [hts]; exact .same rfl rfl rfl rfl, by rw [hts]; rfl⟩
        ((swapScene_moves used false (partApplied p s)).widen frame_txnSceneGatesTs rfl)
    have hcascade : u.cascade = s.cascade := (swapScene_cascade ..).trans (by rw [hts])
    have hscene : u.scene = swappedScene used false s.scene := (swapScene_scene ..).trans (by rw [hts])
    have hbond : headstockBond u = headstockBond s := headstockBond_congr hcascade
    let r := reportOf u (appliedPart p s) true false false (framesTold p s)
    refine completes_of_exec (t := emit (reportMsg r u) u) ?_ ?_
    · have hready : readyPart s = some p := by simp [readyPart, hp, hc, hm, ha, hs]
      change Host.Outcome.next (applyDue s) = _
      unfold applyDue
      rw [hready]
      dsimp only
      rw [if_pos hdue, applyPart_applies, sendReport_sends ((congrArg CascadeSt.headstock hcascade).trans hh)]
    · refine ⟨hscene, ?_, (swapScene_rules ..).trans (by rw [hts]), fun hne => ?_, ⟨reportTail r, ?_⟩, (hmoves.emit frame_txnSceneGatesTs _).frame⟩
      · exact (congrArg TxnSt.part (swapScene_txn used false (partApplied p s))).trans (by rw [hts]; rfl)
      · have hr := swapScene_raises (s := s) (u := partApplied p s) ⟨ts, _, hts⟩ used false hne
        exact Raises.tells hr ((Tells.refl u).emit _)
      · rw [← hbond, ← hmoves.position]
        exact List.mem_cons_self
  case report =>
    intro r x o tk s hh hx hp hph hl ho hz hall ht hd
    obtain ⟨k, hk⟩ := txnOf_reportNoted (r := r) hx
    have hy := txnOf_settlePart hk r.position o
    have hm := (reportNoted_moves r x s).trans frame_txn (settlePart_moves r.txn r.position o _)
    have ha : ∀ p ∈ x.parts, outcomeAt { withReport r { x with acked := k } with outcomes := mapPut x.outcomes r.position o } p ≠ 0 := by
      intro p hpm
      rw [outcomeAt_mapPut (x := x) rfl]
      split
      · exact outcomeOfReport_ne_zero ho
      · next hne => exact hall p hpm hne
    obtain ⟨htxn, hfin, hforce, hrep⟩ := finishTxn_finishes hm.withScene hy ht hd .applied 0
    refine completes_of_exec (t := finishTxn r.txn .applied 0 (settlePart r.txn r.position o (reportNoted r x s))) ?_
      ⟨⟨_, htxn, rfl, ?_, rfl⟩, hfin, hforce.trans (by rw [hm.scene]), hrep⟩
    · change execApplyReportRx r s = _
      rw [execApplyReportRx, if_pos hh, takeReport_settles hx hp hph ho hz, tolerantDone_finishes hy hl hph ha]
    · exact (outcomeAt_mapPut (x := x) rfl r.position).trans (if_pos rfl)
  case resend =>
    intro id x T pos s hx hT hh hph hover hlast hwall hpos hz
    have hin : pos ∈ openParts x := List.mem_filter.mpr ⟨hpos, by simpa using hz⟩
    have hover' : (!x.lockstep && decide (latest T (latches s T x.frames 2) ≤ s.time.wall)) = false := by
      obtain h | h := hover
      · simp [h]
      · simp [Nat.not_le.mpr h]
    refine completes_of_exec (t := (openParts x).foldl (resendTo id x T) (modTxnAt id (fun t => { t with lastSentNs := s.time.mono }) s)) ?_ ?_
    · change execCommitResend id s = _
      simp only [execCommitResend, hx, hT, hh, hph, hover', hlast, decide_true, Bool.and_self, Bool.not_false, if_true]
      rfl
    · have hw : (modTxnAt id (fun t => { t with lastSentNs := s.time.mono }) s).time.wall < T := hwall
      have hm := resends_moves (id := id) x (openParts x) hw
      obtain ⟨heast, hwest⟩ := resends_sent (id := id) x hin hw
      exact ⟨(txnOf_congr hm.reporting.txn id).trans (txnOf_modTxnAt_self hx _), heast, hwest,
        ((modTxnAt_moves id _ s).trans frame_txn (hm.of_all frame_txn)).frame⟩
  case cancelPoint =>
    intro id x T pos s hx hT hh hl hph hc hdue hpos hcov
    have hany : ((unacked x).any fun p => !coveredByAck s x p) = true := List.any_eq_true.mpr ⟨pos, hpos, by simp [hcov]⟩
    let u := broadcast "CANCEL" [(id : Int)] (setPhase id .rollingBack (modTxnAt id (fun t => { t with cancelled := true }) s))
    have hm : Moves keepTxn s u := ((modTxnAt_moves ..).trans frame_txn (setPhase_moves ..)).trans frame_txn (broadcast_moves ..)
    have hroll : RollsBack id u := by
      rw [RollsBack, txnOf_congr (broadcast_txn ..), txnOf_setPhase (txnOf_modTxnAt_self hx _)]
      rfl
    have hk := takeCommit_rolling (m := { txn := id, kind := .cancel, applyNs := T, frames := x.frames }) (.inl rfl)
      ((congrArg CascadeSt.headstock hm.headstock).trans hh) hroll
    refine completes_of_exec (t := takeCommit { txn := id, kind := .cancel, applyNs := T, frames := x.frames } u) ?_
      ⟨hk.rolls, hk.tells.mem (broadcast_east ..), hk.tells.mem (broadcast_west ..)⟩
    change execCancelPoint id s = _
    simp only [execCancelPoint, hx, hT, hh, hl, hph, hc, hdue, hany, decide_true, Bool.and_self, Bool.not_false, if_true]
    rfl
  case decide =>
    intro id x T tk s hx hT hh hl hph hdue hcov ht hd
    have hany : ((x.parts.filter fun p => outcomeAt x p = 0).any fun p => !covered s x p) = false := by
      refine List.any_eq_false.mpr fun p hp => ?_
      obtain ⟨hpm, hz⟩ := (mem_pending p).mp hp
      simp [hcov p hpm hz]
    obtain ⟨o, ho, hout⟩ := txnOf_leaveBehind (x.parts.filter fun p => outcomeAt x p = 0) hx
    obtain ⟨htxn, hfin, -, -⟩ := finishTxn_finishes (leaveBehind_moves id _ s).withScene ho ht hd .applied 0
    refine completes_of_exec (t := finishTxn id .applied 0 (leaveBehind id (x.parts.filter fun p => outcomeAt x p = 0) s)) ?_
      ⟨⟨_, htxn, rfl, fun p hp => (hout p).trans ?_⟩, hfin⟩
    · change execDecisionPoint id s = _
      simp only [execDecisionPoint, hx, hT, hh, hl, hph, hdue, hany, decide_true, Bool.and_self, if_true, Bool.false_eq_true, if_false]
      rfl
    · simp [hp]
  case decideBack =>
    intro id x T pos s hx hT hh hl hph hdue hpos hz hcov
    have hany : ((x.parts.filter fun p => outcomeAt x p = 0).any fun p => !covered s x p) = true :=
      List.any_eq_true.mpr ⟨pos, (mem_pending pos).mpr ⟨hpos, hz⟩, by simp [hcov]⟩
    let u := broadcast "ROLLBACK" [(id : Int)] (setPhase id .rollingBack s)
    have hm : Moves keepTxn s u := (setPhase_moves ..).trans frame_txn (broadcast_moves ..)
    have hroll : RollsBack id u := by
      rw [RollsBack, txnOf_congr (broadcast_txn ..), txnOf_setPhase hx]
      rfl
    have hk := takeCommit_rolling (m := { txn := id, kind := .rollback, applyNs := T, frames := x.frames }) (.inr rfl)
      ((congrArg CascadeSt.headstock hm.headstock).trans hh) hroll
    refine completes_of_exec (t := takeCommit { txn := id, kind := .rollback, applyNs := T, frames := x.frames } u) ?_
      ⟨hk.rolls, hk.tells.mem (broadcast_east ..)⟩
    change execDecisionPoint id s = _
    simp only [execDecisionPoint, hx, hT, hh, hl, hph, hdue, hany, decide_true, Bool.and_self, if_true]
    rfl
  case laggards =>
    intro id x T tk s hx hT hh hl hph hdue ht hd
    have hx' : txnOf (laggardFreed id s) id = some x := (txnOf_laggardFreed ..).trans hx
    obtain ⟨hlat, htime, hcas⟩ := latches_laggardFreed id s T x.frames 2
    obtain ⟨o, ho, hout⟩ := txnOf_leaveBehind (x.parts.filter fun p => outcomeAt x p = 0) hx'
    have hm := (laggardFreed_moves id s).trans frame_txnScene (leaveBehind_moves id (x.parts.filter fun p => outcomeAt x p = 0) _).withScene
    obtain ⟨htxn, hfin, -, -⟩ := finishTxn_finishes hm ho ht hd .applied 0
    have hval : ∀ p ∈ x.parts, outcomeAt { x with outcomes := o } p = if outcomeAt x p = 0 then 5 else outcomeAt x p := by
      intro p hp
      rw [hout p]
      simp [hp]
    refine completes_of_exec (t := finishTxn id .applied 0 (leaveBehind id (x.parts.filter fun p => outcomeAt x p = 0) (laggardFreed id s))) ?_
      ⟨⟨_, htxn, rfl, hval⟩, hfin⟩
    have hdone := tolerantDone_finishes ho hl hph fun p hp => by
      rw [hval p hp]
      split
      · decide
      · assumption
    change execLaggardExpiry id s = _
    rw [← hdone]
    rw [show execLaggardExpiry id s = .next (laggardsLeft id (laggardFreed id s)) from rfl]
    simp only [laggardsLeft, hx', hT, hlat, htime, hcas, hh, hl, hph, hdue, decide_true, Bool.and_self, Bool.not_false, if_true]
  case rolledBack =>
    intro id x tk s hx hh hph hall ht hd
    have hdone : (x.parts.all fun p => decide (outcomeAt x p = 3) || decide (outcomeAt x p = 4) || decide (outcomeAt x p = 5)) = true := by
      refine List.all_eq_true.mpr fun p hp => ?_
      obtain h | h | h := hall p hp <;> simp [h]
    have hnone : (x.parts.filter fun p => !(decide (outcomeAt x p = 3) || decide (outcomeAt x p = 4) || decide (outcomeAt x p = 5))) = [] := by
      refine List.filter_eq_nil_iff.mpr fun p hp => ?_
      obtain h | h | h := hall p hp <;> simp [h]
    obtain ⟨htxn, hfin, -, -⟩ := finishTxn_finishes (.refl frame_txnScene s) hx ht hd .abortedAfterCommit 0x0313
    refine completes_of_exec (t := finishTxn id .abortedAfterCommit 0x0313 s) ?_ ⟨⟨_, htxn, rfl, rfl⟩, hfin⟩
    change execRollbackComplete id s = _
    simp only [execRollbackComplete, hx, hh, hph, hdone, hnone, decide_true, Bool.and_self, Bool.or_true, if_true, List.foldl_nil]
  case abort =>
    intro id p s hp hid hc
    refine completes_of_exec (t := freePart s) ?_ ⟨rfl, freePart_otherUse s, rfl, (freePart_moves s).frame⟩
    change execTxnAbortRx id s = _
    simp [execTxnAbortRx, hp, hid, hc]
  case lost =>
    intro p since s hp hl ha hv hdue
    refine completes_of_exec (t := freePart s) ?_ ⟨rfl, freePart_otherUse s, rfl, (freePart_moves s).frame⟩
    change execContactLossTimeout s = _
    simp [execContactLossTimeout, hp, hl, ha, hv, hdue]
  case sceneGen =>
    intro gen s hu
    exact completes_of_exec (congrArg Host.Outcome.next (if_pos hu)) ⟨rfl, rfl⟩

end Sys2Proof.Machine
end

-- What rules leave of the management pair (R403 to R416, R445 to R447)
section
/-! SUPPORT. The pair's own state without its log; steps that only tell, and steps that complete commands as well, leave it as it is; a change
of mode, of the servo, of the role, and a fault. -/

namespace Sys2Proof.Machine

open Sys2Proof

/-- The state of the management pair without its log. -/
def State.pair (s : State) : MgmtSt :=
  { s.mgmt with logSeq := 0, logSecond := 0, logInSecond := 0, logSuppressed := 0, logPinned := [], logUnpinned := [] }

theorem OnlyEvents.pair {s t : State} (h : OnlyEvents s t) : t.pair = s.pair := by
  unfold State.pair
  rw [h]

/-! ## Steps that only tell -/

/-- The parts that `keep` sets back may differ; of the host's port the event rings' producer indices, of the management pair its log, and what
reports. -/
structure Tends (keep : State → State → State) (s t : State) : Prop where
  moves : Moves keep s t
  pair : t.pair = s.pair
  host : t.host = { s.host with evtProd := t.host.evtProd }

/-- Commands may complete as well: outputs are added, and of the management pair only the log differs. -/
structure Runs (keep : State → State → State) (s t : State) : Prop where
  adds : Adds s t
  frame : Reporting s (keep s t)
  pair : t.pair = s.pair

theorem logAdd_tells (c v : Nat) (k : ScopeKind) (i : Nat) (l : Items) (b : Bool) (s : State) : Tells s (logAdd c v k i l b s) := by
  obtain ⟨f, hf⟩ := logAdd_eq c v k i l b s
  rw [hf]
  exact ⟨rfl, .refl _, List.Subset.refl _⟩

section
variable {keep : State → State → State} (hk : Frame keep)
include hk

theorem Tends.refl (s : State) : Tends keep s s := ⟨.refl hk s, rfl, rfl⟩

theorem Tends.trans {a b c : State} (h : Tends keep a b) (k : Tends keep b c) : Tends keep a c :=
  ⟨h.moves.trans hk k.moves, k.pair.trans h.pair, by rw [k.host, h.host]⟩

theorem Tends.of_onlyEvents {s t : State} (h : OnlyEvents s t) (ht : Tells s t) : Tends keep s t :=
  ⟨.of_reporting hk ht h.reporting, h.pair, h.host⟩

theorem Tends.raise (c : Nat) (k : ScopeKind) (i : Nat) (l : Items) (s : State) (a : Bool) : Tends keep s (raise c k i l s a) :=
  .of_onlyEvents hk (raise_onlyEvents ..) (raise_tells ..)

theorem Tends.raiseMod (c : Nat) (l : Items) (s : State) : Tends keep s (raiseMod c l s) := Tends.raise hk ..

theorem Tends.logAdd (c v : Nat) (k : ScopeKind) (i : Nat) (l : Items) (b : Bool) (s : State) : Tends keep s (logAdd c v k i l b s) :=
  .of_onlyEvents hk (logAdd_onlyEvents ..) (logAdd_tells ..)

theorem Tends.widen {keep' : State → State → State} {s t : State} (h : Tends keep' s t) (he : keep s (keep' s t) = keep s t) : Tends keep s t :=
  ⟨h.moves.widen hk he, h.pair, h.host⟩

theorem Runs.refl (s : State) : Runs keep s s := ⟨.refl s, hk.of_reporting (.refl s), rfl⟩

theorem Runs.trans {a b c : State} (h : Runs keep a b) (k : Runs keep b c) : Runs keep a c :=
  ⟨h.adds.trans k.adds, hk.trans h.frame k.frame, k.pair.trans h.pair⟩

theorem Runs.foldl {α : Type} {g : State → α → State} (h : ∀ s x, Runs keep s (g s x)) (l : List α) (s : State) : Runs keep s (l.foldl g s) := by
  induction l generalizing s with
  | nil => exact refl hk s
  | cons x l ih => exact (h s x).trans hk (ih _)

theorem Runs.widen {keep' : State → State → State} {s t : State} (h : Runs keep' s t) (he : keep s (keep' s t) = keep s t) : Runs keep s t :=
  ⟨h.adds, hk.widen h.frame he, h.pair⟩

theorem Runs.emit (o : Out) (s : State) : Runs keep s (emit o s) := ⟨emit_adds .., hk.of_reporting (emit_reporting ..), rfl⟩

end

theorem Tends.runs {keep : State → State → State} {s t : State} (h : Tends keep s t) : Runs keep s t := ⟨h.moves.tells.adds, h.moves.frame, h.pair⟩

/-! ## Completions -/

theorem publish_mgmt (c : Completion) (s : State) : (publish c s).mgmt = s.mgmt := by
  unfold publish putCompletion
  (repeat' split) <;> rfl

theorem detachHost_mgmt (c : Nat) (s : State) : (detachHost c s).mgmt = s.mgmt := by
  unfold detachHost
  split <;> rfl

theorem settleDetach_mgmt (s : State) : (settleDetach s).mgmt = s.mgmt := by
  unfold settleDetach
  split
  · split
    · rw [detachHost_mgmt]
      split
      · rfl
      · exact publish_mgmt ..
    · rfl
  · rfl

theorem completeAs_mgmt (tk : Ticket) (st pos : Nat) (f : Bool) (l : Items) (s : State) : (completeAs tk st pos f l s).mgmt = s.mgmt := by
  unfold completeAs
  dsimp only
  split
  · rfl
  · rw [settleDetach_mgmt]
    split
    · rfl
    · exact publish_mgmt ..

theorem pair_of_mgmt {s t : State} (h : t.mgmt = s.mgmt) : t.pair = s.pair := by
  unfold State.pair
  rw [h]

theorem complete_pair (tk : Ticket) (st : Nat) (l : Items) (s : State) : (complete tk st l s).pair = s.pair := pair_of_mgmt (completeAs_mgmt ..)

theorem Runs.completeAs {keep : State → State → State} (hk : Frame keep) (tk : Ticket) (st pos : Nat) (f : Bool) (l : Items) (s : State) :
    Runs keep s (completeAs tk st pos f l s) :=
  ⟨completeAs_adds .., hk.of_reporting (completeAs_reporting ..), pair_of_mgmt (completeAs_mgmt ..)⟩

theorem Runs.complete {keep : State → State → State} (hk : Frame keep) (tk : Ticket) (st : Nat) (l : Items) (s : State) :
    Runs keep s (complete tk st l s) := Runs.completeAs hk ..

/-! ## Roles of the module and of the pair -/

/-- All but the cascade. -/
abbrev keepCascade (s t : State) : State := { t with cascade := s.cascade }

/-- All but the module and the cascade. -/
abbrev keepModuleCascade (s t : State) : State := { t with module := s.module, cascade := s.cascade }

theorem frame_cascade : Frame keepCascade where
  back _ _ _ _ _ _ _ := rfl
  again _ _ _ := rfl
  self _ := rfl

theorem frame_moduleCascade : Frame keepModuleCascade where
  back _ _ _ _ _ _ _ := rfl
  again _ _ _ := rfl
  self _ := rfl

/-- The mode, before it is told: since when the module is LEAN goes with it (R3). -/
def modePut (m : ModState) (s : State) : State :=
  { s with module := { s.module with mode := m }, cascade := { s.cascade with leanSince := if m = .lean then some s.time.mono else none } }

theorem setMode_told {m : ModState} {s : State} (h : s.module.mode ≠ m) :
    setMode m s = raiseMod 0x0B80 [it 1 s.module.mode.value, it 1 m.value, it 1 s.mgmt.faultCause] (modePut m s) := if_neg h

theorem modePut_tends (m : ModState) (s : State) : Tends keepModuleCascade s (modePut m s) :=
  ⟨⟨⟨rfl, .refl _, List.Subset.refl _⟩, rfl⟩, rfl, rfl⟩

theorem setMode_tends (m : ModState) (s : State) : Tends keepModuleCascade s (setMode m s) := by
  by_cases h : s.module.mode = m
  · rw [show setMode m s = s from if_pos h]
    exact .refl frame_moduleCascade s
  · rw [setMode_told h]
    exact (modePut_tends m s).trans frame_moduleCascade (.raiseMod frame_moduleCascade ..)

theorem setMode_module (m : ModState) (s : State) : (setMode m s).module = { s.module with mode := m } := by
  by_cases h : s.module.mode = m
  · rw [show setMode m s = s from if_pos h, ← h]
  · rw [setMode_told h]
    exact (raiseMod_reporting ..).module

/-- Of the cascade, a change of mode sets only since when the module is LEAN. -/
theorem setMode_cascade (m : ModState) (s : State) : ∃ o, (setMode m s).cascade = { s.cascade with leanSince := o } := by
  by_cases h : s.module.mode = m
  · rw [show setMode m s = s from if_pos h]
    exact ⟨_, rfl⟩
  · rw [setMode_told h]
    exact ⟨_, (raiseMod_reporting ..).cascade⟩

theorem endForwards_runs (p : Ticket → Nat → Bool) (st : Nat) (s : State) : Runs keepAll s (endForwards p st s) := by
  unfold endForwards
  dsimp only
  refine Runs.trans frame_all (b := s.modQueue fun q => { q with forwards := q.forwards.filter fun f => !p f.2.1 f.2.2 })
    ⟨.refl s, rfl, rfl⟩ (Runs.foldl frame_all (fun s f => ?_) _ _)
  exact Runs.completeAs frame_all ..

theorem headstockEvent_tends (taken : Bool) (cause old : Nat) (s : State) : Tends keepAll s (headstockEvent taken cause old s) :=
  .raiseMod frame_all ..

/-- The role of Headstock given up, before it is told (R342). -/
def headstockPut (s : State) : State :=
  (endForwards (fun _ _ => true) 0x03D1 s).modCascade fun c => { c with headstock := false, handover := false }

theorem headstockPut_runs (s : State) : Runs keepCascade s (headstockPut s) :=
  ((endForwards_runs ..).widen frame_cascade rfl).trans frame_cascade ⟨.refl _, rfl, rfl⟩

theorem giveHeadstock_runs (cause : Nat) (s : State) : Runs keepCascade s (giveHeadstock cause s) :=
  (headstockPut_runs s).trans frame_cascade ((headstockEvent_tends ..).runs.widen frame_cascade rfl)

theorem giveHeadstock_cascade (cause : Nat) (s : State) :
    (giveHeadstock cause s).cascade = { s.cascade with headstock := false, handover := false } := by
  unfold giveHeadstock
  refine ((headstockEvent_tends ..).moves.frame.cascade).trans ?_
  rw [show ∀ (f : CascadeSt → CascadeSt) (u : State), (u.modCascade f).cascade = f u.cascade from fun _ _ => rfl,
    (endForwards_runs (fun _ _ => true) 0x03D1 s).frame.cascade]

theorem checkHeadstock_runs (cause : Nat) (s : State) : Runs keepCascade s (checkHeadstock cause s) := by
  unfold checkHeadstock
  split
  · exact giveHeadstock_runs ..
  · exact .refl frame_cascade s

theorem roleEvent_tends (old new : Role) (cause : Nat) (s : State) : Tends keepAll s (roleEvent old new cause s) := .raiseMod frame_all ..

theorem endSwap_runs (st : Nat) (s : State) : Runs keepCascade s (endSwap st s) := by
  unfold endSwap
  split
  · exact .refl frame_cascade s
  · have h : Runs keepCascade s (s.modCascade fun c => { c with swap := none }) := ⟨.refl s, rfl, rfl⟩
    dsimp only
    split
    · exact h.trans frame_cascade (.complete frame_cascade ..)
    · exact h

theorem setRole_runs (new : Role) (cause : Nat) (s : State) : Runs keepCascade s (setRole new cause s) := by
  unfold setRole
  dsimp only
  split
  · exact .refl frame_cascade s
  · have h : ∀ (f : CascadeSt → CascadeSt) (c : Nat),
        Runs keepCascade s (checkHeadstock c (roleEvent s.cascade.role new cause (s.modCascade f))) := fun f c =>
      (Runs.trans frame_cascade (b := s.modCascade f) ⟨.refl s, rfl, rfl⟩
        ((roleEvent_tends ..).runs.widen frame_cascade rfl)).trans frame_cascade (checkHeadstock_runs ..)
    split
    · exact h ..
    · exact (h _ _).trans frame_cascade (endSwap_runs ..)

/-! ## A fault -/

/-- All but the module, the cascade, transactions and scenes. -/
abbrev keepFault (s t : State) : State := { t with module := s.module, cascade := s.cascade, txn := s.txn, scene := s.scene }

theorem frame_fault : Frame keepFault where
  back _ _ _ _ _ _ _ := rfl
  again _ _ _ := rfl
  self _ := rfl

theorem txnOwnFault_tends (s : State) : Tends keepTxnScene s (txnOwnFault s) := by
  unfold txnOwnFault
  split
  · split
    · exact .refl frame_txnScene s
    · exact ⟨freePart_moves s, rfl, rfl⟩
  · exact .refl frame_txnScene s

/-- The module in FAULT, with its role withdrawn and its part in a transaction given up, before V_CORE may be removed (R412, R413). -/
def faultTaken (cause : Nat) (s : State) : State :=
  txnOwnFault (checkHeadstock 2 (setRole .withdrawn 5 (setMode .fault (s.modMgmt fun m => { m with faultCause := cause, testFloor := none }))))

/-- The cause, noted before the mode changes. -/
def causeNoted (cause : Nat) (s : State) : State := s.modMgmt fun m => { m with faultCause := cause, testFloor := none }

theorem faultTaken_runs (cause : Nat) (s : State) : Runs keepFault (causeNoted cause s) (faultTaken cause s) :=
  ((((setMode_tends ..).runs.widen frame_fault rfl).trans frame_fault ((setRole_runs ..).widen frame_fault rfl)).trans frame_fault
    ((checkHeadstock_runs ..).widen frame_fault rfl)).trans frame_fault ((txnOwnFault_tends _).runs.widen frame_fault rfl)

theorem faultTaken_module (cause : Nat) (s : State) : (faultTaken cause s).module = { s.module with mode := .fault } := by
  unfold faultTaken
  refine ((txnOwnFault_tends _).moves.frame.module).trans ?_
  refine ((checkHeadstock_runs ..).frame.module).trans ?_
  exact ((setRole_runs ..).frame.module).trans (setMode_module ..)

theorem enterFault_keepsCore {cause : Nat} {s : State} (hoff : s.module.mode ≠ .off) (hfault : s.module.mode ≠ .fault) (hc : cause ≠ 4)
    (hc' : cause ≠ 5) (detail : Nat) : enterFault cause detail s = raiseMod 0x0B85 [it 1 cause, it 2 detail] (faultTaken cause s) := by
  simp [enterFault, hoff, hfault, hc, hc', faultTaken]

/-- A fault that leaves V_CORE (R412): the mode, the cause, and the rest of the pair's state. -/
theorem enterFault_enters {cause : Nat} {s : State} (hoff : s.module.mode ≠ .off) (hfault : s.module.mode ≠ .fault) (hc : cause ≠ 4)
    (hc' : cause ≠ 5) (detail : Nat) :
    (enterFault cause detail s).module = { s.module with mode := .fault }
      ∧ (enterFault cause detail s).pair = { s.pair with faultCause := cause, testFloor := none } := by
  rw [enterFault_keepsCore hoff hfault hc hc']
  exact ⟨(raiseMod_reporting ..).module.trans (faultTaken_module ..), (raiseMod_onlyEvents ..).pair.trans (faultTaken_runs ..).pair⟩

end Sys2Proof.Machine
end

-- Resets (R403, R415, R445 to R447)
section
/-! SUPPORT. A reset as the clearing of the main section, what is told of it, and the boot; what boots from which bank. -/

namespace Sys2Proof.Machine

open Sys2Proof

/-! ## The main section cleared -/

/-- A Headstock that is reset gives its role up (R342). -/
def roleGiven (s : State) : State := if s.cascade.headstock then giveHeadstock 2 s else s

/-- The main section cleared (R446, R447). -/
def mainCleared (cause : Nat) (s : State) : State :=
  clearMain (cause = 0 || s.module.mode = .idleLink) cause (roleGiven s)

theorem roleGiven_runs (s : State) : Runs keepCascade s (roleGiven s) := by
  unfold roleGiven
  split
  · exact giveHeadstock_runs ..
  · exact .refl frame_cascade s

/-- All but the module, the cascade, time and update. -/
abbrev keepReset (s t : State) : State := { t with module := s.module, cascade := s.cascade, time := s.time, update := s.update }

theorem frame_reset : Frame keepReset where
  back _ _ _ _ _ _ _ := rfl
  again _ _ _ := rfl
  self _ := rfl

/-- All but time. -/
abbrev keepTime (s t : State) : State := { t with time := s.time }

theorem frame_time : Frame keepTime where
  back _ _ _ _ _ _ _ := rfl
  again _ _ _ := rfl
  self _ := rfl

/-- All but update. -/
abbrev keepUpdate (s t : State) : State := { t with update := s.update }

theorem frame_update : Frame keepUpdate where
  back _ _ _ _ _ _ _ := rfl
  again _ _ _ := rfl
  self _ := rfl

/-- All but power and the module. -/
abbrev keepPowerModule (s t : State) : State := { t with power := s.power, module := s.module }

theorem frame_powerModule : Frame keepPowerModule where
  back _ _ _ _ _ _ _ := rfl
  again _ _ _ := rfl
  self _ := rfl

/-- All but the module. -/
abbrev keepModule (s t : State) : State := { t with module := s.module }

theorem frame_module : Frame keepModule where
  back _ _ _ _ _ _ _ := rfl
  again _ _ _ := rfl
  self _ := rfl

theorem setServo_tends (new : Servo) (port : Nat) (s : State) : Tends keepTime s (setServo new port s) := by
  unfold setServo
  split
  · exact .refl frame_time s
  · exact Tends.trans frame_time (b := s.modTime _) ⟨⟨.same rfl rfl rfl rfl, rfl⟩, rfl, rfl⟩ (.raise frame_time ..)

/-- The instants from which u and elapsed time are counted, of the wall and of the servo. -/
theorem setServo_tRef (new : Servo) (port : Nat) (s : State) :
    (setServo new port s).time.tRef = s.time.tRef ∧ (setServo new port s).time.mono = s.time.mono := by
  unfold setServo
  split
  · exact ⟨rfl, rfl⟩
  · dsimp only
    rw [(raise_reporting ..).time]
    exact ⟨rfl, rfl⟩

theorem enterPhase_changes {new : Phase} {s : State} (h : s.update.phase ≠ new) (bank version : Nat) :
    enterPhase new bank version s
      = raiseMod 0x0C80 [it 1 s.update.phase.value, it 1 new.value, it 1 bank, it 4 version] (s.modUpdate fun u => { u with phase := new }) :=
  if_neg h

theorem enterPhase_update (new : Phase) (bank version : Nat) (s : State) :
    (enterPhase new bank version s).update = { s.update with phase := new } := by
  by_cases h : s.update.phase = new
  · rw [show enterPhase new bank version s = s from if_pos h, ← h]
  · rw [enterPhase_changes h]
    exact (raiseMod_reporting ..).update

theorem enterPhase_tends (new : Phase) (bank version : Nat) (s : State) : Tends keepUpdate s (enterPhase new bank version s) := by
  by_cases h : s.update.phase = new
  · rw [show enterPhase new bank version s = s from if_pos h]
    exact .refl frame_update s
  · rw [enterPhase_changes h]
    exact Tends.trans frame_update (b := s.modUpdate _) ⟨⟨.same rfl rfl rfl rfl, rfl⟩, rfl, rfl⟩ (.raiseMod frame_update ..)

/-- A change of phase is told (R463). -/
theorem enterPhase_raises {new : Phase} {s : State} (h : s.update.phase ≠ new) (bank version : Nat) :
    Raises 0x0C80 .module (position s) [it 1 s.update.phase.value, it 1 new.value, it 1 bank, it 4 version] s
      (enterPhase new bank version s) := by
  rw [enterPhase_changes h]
  exact raise_raises 0x0C80 .module (position s) _ s (s.modUpdate fun u => { u with phase := new }) false rfl rfl rfl rfl rfl rfl

theorem modUpdate_tends (f : UpdateSt → UpdateSt) (s : State) : Tends keepUpdate s (s.modUpdate f) :=
  ⟨⟨.same rfl rfl rfl rfl, rfl⟩, rfl, rfl⟩

theorem setBank_tends (n : Nat) (image : Option Image) (s : State) : Tends keepUpdate s (setBank n image s) := modUpdate_tends ..

theorem resetUpdate_tends (s : State) : Tends keepUpdate s (resetUpdate s) := by
  unfold resetUpdate
  dsimp only
  split
  · exact (((modUpdate_tends _ s).trans frame_update (setBank_tends ..)).trans frame_update (enterPhase_tends ..)).trans frame_update
      (modUpdate_tends ..)
  · exact modUpdate_tends ..

/-- What a boot goes by: which bank is preferred, the images of both, the rollback counter. -/
theorem resetUpdate_idle {s : State} (h : s.update.phase ≠ .receiving) :
    ∃ d a k, (resetUpdate s).update
      = { s.update with distribute := d, activate := a, hitless := k, engine := none, engineVersion := [] } := by
  unfold resetUpdate
  rw [if_neg h]
  exact ⟨_, _, _, rfl⟩

theorem Tends.reset_of_time {s t : State} (h : Tends keepTime s t) : Tends keepReset s t := h.widen frame_reset rfl

theorem Tends.reset_of_update {s t : State} (h : Tends keepUpdate s t) : Tends keepReset s t := h.widen frame_reset rfl

theorem Tends.reset_of_mode {s t : State} (h : Tends keepModuleCascade s t) : Tends keepReset s t := h.widen frame_reset rfl

/-- The reset told (R446). -/
def clearTold (cause : Nat) (s : State) : State :=
  logAdd 0x0B80 4 .module (position (mainCleared cause s)) [it 1 (mainCleared cause s).module.mode.value, it 1 1, it 1 0, it 1 cause] false
    (mainCleared cause s)

/-- The servo after a reset: u goes on (R447). -/
def servoTold (cause : Nat) (s : State) : State :=
  setServo (if uBounded s then .holdover else .unknown) (gmPort s) (setMode .starting (clearTold cause s))

/-- The main section cleared, with what is told of it, before the watchdog's resets are counted (R446). -/
def resetTold (cause : Nat) (s : State) : State := resetUpdate (servoTold cause s)

theorem clearTold_tends (cause : Nat) (s : State) : Tends keepAll (mainCleared cause s) (clearTold cause s) := Tends.logAdd frame_all ..

theorem servoTold_tends (cause : Nat) (s : State) : Tends keepReset (mainCleared cause s) (servoTold cause s) :=
  ((Tends.logAdd frame_reset ..).trans frame_reset (setMode_tends ..).reset_of_mode).trans frame_reset (setServo_tends ..).reset_of_time

theorem resetTold_tends (cause : Nat) (s : State) : Tends keepReset (mainCleared cause s) (resetTold cause s) :=
  (servoTold_tends cause s).trans frame_reset (resetUpdate_tends _).reset_of_update

/-- Resets of the watchdog so far (R403). -/
def watchdogResetsAt (cause : Nat) (s : State) : List Nat :=
  if cause = 3 then s.time.mono :: recent s s.mgmt.watchdogResets else s.mgmt.watchdogResets

/-- The main section reset, before it boots. -/
def mainStopped (cause : Nat) (s : State) : State :=
  (resetTold cause s).modMgmt fun m => { m with watchdogResets := watchdogResetsAt cause (resetTold cause s) }

/-- The bank that is known to have failed: the one that was booting at a watchdog's reset (R445). -/
def bankLost (cause : Nat) (s : State) : Option Nat := if cause = 3 && s.module.mode = .starting then some s.module.bank else none

/-- The boot, where one follows. -/
def bootAfter (b : Option BootFacts) (failed : Option Nat) (s : State) : State :=
  match b with
  | some f => boot f failed s
  | none => s

theorem mainReset_eq (cause : Nat) (b : Option BootFacts) (s : State) :
    mainReset cause b s =
      if cause = 3 && decide (3 ≤ (watchdogResetsAt cause (resetTold cause s)).length) then
        enterFault 7 0 (bootAfter b (bankLost cause s) (mainStopped cause s))
      else bootAfter b (bankLost cause s) (mainStopped cause s) := by
  unfold mainReset bootAfter mainStopped watchdogResetsAt bankLost resetTold servoTold clearTold mainCleared roleGiven
  cases b <;> rfl

/-! ## What the reset leaves -/

theorem mainCleared_module (cause : Nat) (s : State) :
    (mainCleared cause s).module = { s.module with sleeping := none, waking := false } :=
  congrArg (fun m : ModuleSt => { m with sleeping := none, waking := false }) (roleGiven_runs s).frame.module

theorem mainCleared_time (cause : Nat) (s : State) : (mainCleared cause s).time = resetTime s.time :=
  congrArg resetTime (roleGiven_runs s).frame.time

theorem mainCleared_update (cause : Nat) (s : State) : (mainCleared cause s).update = s.update := (roleGiven_runs s).frame.update

theorem setServo_module (new : Servo) (port : Nat) (s : State) : (setServo new port s).module = s.module :=
  (setServo_tends new port s).moves.frame.module

theorem setServo_update (new : Servo) (port : Nat) (s : State) : (setServo new port s).update = s.update :=
  (setServo_tends new port s).moves.frame.update

theorem setMode_time (m : ModState) (s : State) : (setMode m s).time = s.time := (setMode_tends m s).moves.frame.time

theorem setMode_update (m : ModState) (s : State) : (setMode m s).update = s.update := (setMode_tends m s).moves.frame.update

theorem resetUpdate_module (s : State) : (resetUpdate s).module = s.module := (resetUpdate_tends s).moves.frame.module

theorem resetUpdate_time (s : State) : (resetUpdate s).time = s.time := (resetUpdate_tends s).moves.frame.time

theorem clearTold_module (cause : Nat) (s : State) : (clearTold cause s).module = (mainCleared cause s).module :=
  (clearTold_tends cause s).moves.frame.module

theorem clearTold_time (cause : Nat) (s : State) : (clearTold cause s).time = (mainCleared cause s).time :=
  (clearTold_tends cause s).moves.frame.time

theorem clearTold_update (cause : Nat) (s : State) : (clearTold cause s).update = (mainCleared cause s).update :=
  (clearTold_tends cause s).moves.frame.update

theorem servoTold_module (cause : Nat) (s : State) :
    (servoTold cause s).module = { s.module with mode := .starting, sleeping := none, waking := false } := by
  rw [servoTold, setServo_module, setMode_module, clearTold_module, mainCleared_module]

theorem servoTold_time (cause : Nat) (s : State) :
    (servoTold cause s).time.tRef = s.time.tRef ∧ (servoTold cause s).time.mono = s.time.mono := by
  obtain ⟨href, hmono⟩ := setServo_tRef (if uBounded s then .holdover else .unknown) (gmPort s) (setMode .starting (clearTold cause s))
  rw [setMode_time, clearTold_time, mainCleared_time] at href hmono
  exact ⟨href, hmono⟩

theorem servoTold_update (cause : Nat) (s : State) : (servoTold cause s).update = s.update := by
  rw [servoTold, setServo_update, setMode_update, clearTold_update, mainCleared_update]

theorem resetTold_module (cause : Nat) (s : State) :
    (resetTold cause s).module = { s.module with mode := .starting, sleeping := none, waking := false } := by
  rw [resetTold, resetUpdate_module, servoTold_module]

theorem resetTold_time (cause : Nat) (s : State) :
    (resetTold cause s).time.tRef = s.time.tRef ∧ (resetTold cause s).time.mono = s.time.mono := by
  rw [resetTold, resetUpdate_time]
  exact servoTold_time cause s

theorem resetTold_update {s : State} (h : s.update.phase ≠ .receiving) (cause : Nat) :
    ∃ d a k, (resetTold cause s).update
      = { s.update with distribute := d, activate := a, hitless := k, engine := none, engineVersion := [] } := by
  obtain ⟨d, a, k, he⟩ := resetUpdate_idle (s := servoTold cause s) (by rw [servoTold_update]; exact h)
  refine ⟨d, a, k, he.trans ?_⟩
  rw [servoTold_update]

@[simp] theorem pair_watchdogResets (s : State) : s.pair.watchdogResets = s.mgmt.watchdogResets := rfl
@[simp] theorem pair_resetCause (s : State) : s.pair.resetCause = s.mgmt.resetCause := rfl
@[simp] theorem pair_firstExpiry (s : State) : s.pair.firstExpiry = s.mgmt.firstExpiry := rfl
@[simp] theorem pair_expiries (s : State) : s.pair.expiries = s.mgmt.expiries := rfl
@[simp] theorem pair_faultCause (s : State) : s.pair.faultCause = s.mgmt.faultCause := rfl
@[simp] theorem pair_bootCount (s : State) : s.pair.bootCount = s.mgmt.bootCount := rfl

theorem clearMain_pair (cold : Bool) (cause : Nat) (s : State) :
    (clearMain cold cause s).pair = resetMgmt (s.mgmt.vcoreRemoved || cold) cause s.pair := rfl

theorem mainCleared_pair (cause : Nat) (s : State) : ∃ removed, (mainCleared cause s).pair = resetMgmt removed cause s.pair := by
  refine ⟨(roleGiven s).mgmt.vcoreRemoved || (cause = 0 || s.module.mode = .idleLink), ?_⟩
  rw [mainCleared, clearMain_pair, (roleGiven_runs s).pair]

theorem withResets_pair (l : List Nat) (s : State) :
    (s.modMgmt fun m => { m with watchdogResets := l }).pair = { s.pair with watchdogResets := l } := rfl

theorem watchdogResetsAt_resetTold (cause : Nat) (s : State) : watchdogResetsAt cause (resetTold cause s) = watchdogResetsAt cause s := by
  obtain ⟨removed, hc⟩ := mainCleared_pair cause s
  have hm : (resetTold cause s).mgmt.watchdogResets = s.mgmt.watchdogResets := by
    rw [← pair_watchdogResets, (resetTold_tends cause s).pair, hc]
    rfl
  unfold watchdogResetsAt recent
  rw [hm, (resetTold_time cause s).2]

/-- The pair's state after a reset: of what a reset of the main section leaves alone, only the watchdog's resets differ. -/
theorem mainStopped_pair (cause : Nat) (s : State) :
    ∃ removed, (mainStopped cause s).pair = { resetMgmt removed cause s.pair with watchdogResets := watchdogResetsAt cause s } := by
  obtain ⟨removed, hc⟩ := mainCleared_pair cause s
  refine ⟨removed, ?_⟩
  rw [mainStopped, withResets_pair, (resetTold_tends cause s).pair, hc, watchdogResetsAt_resetTold]

/-- No host and no command, and every block of the main section at its reset values (R446). -/
structure Cleared (t : State) : Prop where
  attached : t.host.attached = false
  table : t.host.table = none
  inFlight : t.queue.inFlight = []
  ledger : t.ledger = LedgerSt.init
  scene : t.scene = SceneSt.init
  ingest : t.ingest = IngestSt.init
  decode : t.decode = DecodeSt.init
  compose : t.compose = ComposeSt.init
  overlay : t.overlay = OverlaySt.init
  record : t.record = RecordSt.init
  txn : t.txn = TxnSt.init
  gates : t.gates = GateSt.init
  cells : t.mem.cells = []

theorem clearMain_cleared (cold : Bool) (cause : Nat) (s : State) : Cleared (clearMain cold cause s) :=
  ⟨rfl, rfl, rfl, rfl, rfl, rfl, rfl, rfl, rfl, rfl, rfl, rfl, rfl⟩

/-- It stays cleared while nothing but the module, the cascade, time and update changes, and what is told. -/
theorem Cleared.next {c t : State} (h : Cleared c) (k : Moves keepReset c t) : Cleared t where
  attached := (congrArg HostView.attached k.tells.view).trans h.attached
  table := (congrArg HostView.table k.tells.view).trans h.table
  inFlight := (congrArg HostView.inFlight k.tells.view).trans h.inFlight
  ledger := k.frame.ledger.trans h.ledger
  scene := k.frame.scene.trans h.scene
  ingest := k.frame.ingest.trans h.ingest
  decode := k.frame.decode.trans h.decode
  compose := k.frame.compose.trans h.compose
  overlay := k.frame.overlay.trans h.overlay
  record := k.frame.record.trans h.record
  txn := k.frame.txn.trans h.txn
  gates := k.frame.gates.trans h.gates
  cells := (congrArg MemSt.cells k.frame.mem).trans h.cells

/-- A reset is the module STARTING, the cause and the count noted, the blocks cleared, the Tailstock's heads and u as they were. -/
theorem restarted_iff {cause : Nat} {s t : State} :
    Restarted cause s t ↔ t.module.mode = .starting ∧ t.mgmt.resetCause = cause ∧ t.mgmt.bootCount = idx32 (s.mgmt.bootCount + 1)
      ∧ Cleared t ∧ t.ts.heads = s.ts.heads ∧ t.time.tRef = s.time.tRef := by
  constructor
  · rintro ⟨hmode, hcause, hcount, h1, h2, h3, h4, h5, h6, h7, h8, h9, h10, h11, h12, h13, hheads, htref⟩
    exact ⟨hmode, hcause, hcount, ⟨h1, h2, h3, h4, h5, h6, h7, h8, h9, h10, h11, h12, h13⟩, hheads, htref⟩
  · rintro ⟨hmode, hcause, hcount, ⟨h1, h2, h3, h4, h5, h6, h7, h8, h9, h10, h11, h12, h13⟩, hheads, htref⟩
    exact ⟨hmode, hcause, hcount, h1, h2, h3, h4, h5, h6, h7, h8, h9, h10, h11, h12, h13, hheads, htref⟩

theorem withResets_keeps (l : List Nat) (s : State) :
    (s.modMgmt fun m => { m with watchdogResets := l }).module = s.module ∧ (s.modMgmt fun m => { m with watchdogResets := l }).time = s.time
      ∧ (s.modMgmt fun m => { m with watchdogResets := l }).update = s.update := ⟨rfl, rfl, rfl⟩

theorem withResets_moves (l : List Nat) (s : State) : Moves keepReset s (s.modMgmt fun m => { m with watchdogResets := l }) :=
  ⟨.same rfl rfl rfl rfl, rfl⟩

theorem Moves.reset_ts {s t : State} (h : Moves keepReset s t) : t.ts = s.ts := h.frame.ts

theorem Moves.reset_power {s t : State} (h : Moves keepReset s t) : t.power = s.power := h.frame.power

theorem mainStopped_moves (cause : Nat) (s : State) : Moves keepReset (mainCleared cause s) (mainStopped cause s) :=
  (resetTold_tends cause s).moves.trans frame_reset (withResets_moves ..)

theorem mainCleared_heads (cause : Nat) (s : State) : (mainCleared cause s).ts.heads = s.ts.heads :=
  congrArg TsSt.heads (roleGiven_runs s).frame.ts

theorem mainStopped_module (cause : Nat) (s : State) :
    (mainStopped cause s).module = { s.module with mode := .starting, sleeping := none, waking := false } := by
  rw [mainStopped, (withResets_keeps ..).1, resetTold_module]

theorem mainStopped_time (cause : Nat) (s : State) :
    (mainStopped cause s).time.tRef = s.time.tRef ∧ (mainStopped cause s).time.mono = s.time.mono := by
  rw [mainStopped, (withResets_keeps ..).2.1]
  exact resetTold_time cause s

/-- Update goes on over a reset but for what the main section does of it (R446, R463). -/
theorem mainStopped_update {s : State} (h : s.update.phase ≠ .receiving) (cause : Nat) :
    ∃ d a k, (mainStopped cause s).update
      = { s.update with distribute := d, activate := a, hitless := k, engine := none, engineVersion := [] } := by
  rw [mainStopped, (withResets_keeps ..).2.2]
  exact resetTold_update h cause

/-- A reset main section, before it boots, is restarted (R446, R447). -/
theorem mainStopped_restarted (cause : Nat) (s : State) : Restarted cause s (mainStopped cause s) := by
  obtain ⟨removed, hp⟩ := mainStopped_pair cause s
  have hm := mainStopped_moves cause s
  refine restarted_iff.mpr ⟨?_, ?_, ?_, (clearMain_cleared ..).next hm, ?_, (mainStopped_time cause s).1⟩
  · rw [mainStopped_module]
  · rw [← pair_resetCause, hp]
    rfl
  · rw [← pair_bootCount, hp]
    rfl
  · exact (congrArg TsSt.heads hm.reset_ts).trans (mainCleared_heads cause s)

theorem Moves.reset_of_module {s t : State} (h : Moves keepModule s t) : Moves keepReset s t := h.widen frame_reset rfl

/-- It stays so while only the module's bank is noted, and what is told. -/
theorem Restarted.next {cause : Nat} {s r t : State} (h : Restarted cause s r) (k : Tends keepModule r t)
    (hm : t.module.mode = r.module.mode) : Restarted cause s t := by
  obtain ⟨hmode, hcause, hcount, hclear, hheads, htref⟩ := restarted_iff.mp h
  exact restarted_iff.mpr ⟨hm.trans hmode, (congrArg MgmtSt.resetCause k.pair).trans hcause, (congrArg MgmtSt.bootCount k.pair).trans hcount,
    hclear.next k.moves.reset_of_module, (congrArg TsSt.heads k.moves.frame.ts).trans hheads, (congrArg TimeSt.tRef k.moves.frame.time).trans htref⟩

/-! ## What boots -/

/-- A bank boots by its image and the rollback counter alone (R460, R462). -/
theorem bankBoots_of_banks {s t : State} (ha : t.update.bankA = s.update.bankA) (hb : t.update.bankB = s.update.bankB)
    (hr : t.update.rollback = s.update.rollback) (b : BootFacts) (n : Nat) : bankBoots t b n = bankBoots s b n := by
  unfold bankBoots bankStored headerFault
  rw [ha, hb, hr]

theorem otherBank_ne (n : Nat) : otherBank n ≠ n := by
  unfold otherBank
  split <;> omega

/-- What the boot facts tell of the module's place. -/
def placed (b : BootFacts) (s : State) : State := s.modModule fun m => { m with masterSel := b.masterSel, sideB := b.sideB }

theorem bankFailed_tends (s : State) : Tends keepModule s (bankFailed s) := .logAdd frame_module ..

theorem boot_preferred {b : BootFacts} {failed : Option Nat} {s : State} (h : bankBoots s b s.update.bootPointer = true)
    (hf : failed ≠ some s.update.bootPointer) : boot b failed s = bootFrom s.update.bootPointer false (placed b s) := by
  have hc : bankChosen (placed b s) (fun n => bankBoots s b n && failed != some n) = some s.update.bootPointer := by
    unfold bankChosen
    change (if (bankBoots s b s.update.bootPointer && failed != some s.update.bootPointer) = true then some s.update.bootPointer else _) = _
    rw [if_pos (by simp [h, hf])]
  unfold boot
  dsimp only
  unfold placed at hc
  rw [hc]
  dsimp only
  rw [if_pos rfl]
  rfl

theorem boot_other {b : BootFacts} {failed : Option Nat} {s : State}
    (h : bankBoots s b s.update.bootPointer = false ∨ failed = some s.update.bootPointer)
    (ho : bankBoots s b (otherBank s.update.bootPointer) = true) (hf : failed ≠ some (otherBank s.update.bootPointer)) :
    boot b failed s = bootFrom (otherBank s.update.bootPointer) true (bankFailed (placed b s)) := by
  have hc : bankChosen (placed b s) (fun n => bankBoots s b n && failed != some n) = some (otherBank s.update.bootPointer) := by
    have hp : (bankBoots s b s.update.bootPointer && failed != some s.update.bootPointer) = false := by
      obtain h | h := h <;> simp [h]
    unfold bankChosen
    change (if (bankBoots s b s.update.bootPointer && failed != some s.update.bootPointer) = true then _ else
      if (bankBoots s b (otherBank s.update.bootPointer) && failed != some (otherBank s.update.bootPointer)) = true then _ else _) = _
    rw [if_neg (by simp [hp]), if_pos (by simp [ho, hf])]
    rfl
  unfold boot
  dsimp only
  unfold placed at hc
  rw [hc]
  dsimp only
  rw [if_neg (otherBank_ne s.update.bootPointer)]
  rfl

theorem boot_none {b : BootFacts} {s : State} (h : bankBoots s b s.update.bootPointer = false)
    (ho : bankBoots s b (otherBank s.update.bootPointer) = false) : boot b none s = enterFault 1 0 (bankFailed (placed b s)) := by
  have hc : bankChosen (placed b s) (fun n => bankBoots s b n && (none : Option Nat) != some n) = none := by
    unfold bankChosen
    change (if (bankBoots s b s.update.bootPointer && _) = true then _ else
      if (bankBoots s b (otherBank s.update.bootPointer) && _) = true then _ else _) = _
    rw [if_neg (by simp [h]), if_neg (by simp [ho])]
  unfold boot
  dsimp only
  unfold placed at hc
  rw [hc]
  rfl

/-- The module as it boots from a bank (R445). -/
def bootedModule (b : BootFacts) (n : Nat) (fallback : Bool) (version : Nat) (m : ModuleSt) : ModuleSt :=
  { m with masterSel := b.masterSel, sideB := b.sideB, bank := n, fallback := fallback, fwVersion := version }

theorem bootedModule_mode (b : BootFacts) (n : Nat) (f : Bool) (v : Nat) (m : ModuleSt) : (bootedModule b n f v m).mode = m.mode := rfl

theorem placed_mode (b : BootFacts) (s : State) : (placed b s).module.mode = s.module.mode := rfl

theorem bankFailed_module (s : State) : (bankFailed s).module = s.module := (logAdd_reporting ..).module

theorem placed_tends (b : BootFacts) (s : State) : Tends keepModule s (placed b s) := ⟨⟨.same rfl rfl rfl rfl, rfl⟩, rfl, rfl⟩

theorem bootFrom_tends (n : Nat) (f : Bool) (s : State) : Tends keepModule s (bootFrom n f s) := ⟨⟨.same rfl rfl rfl rfl, rfl⟩, rfl, rfl⟩

/-- A boot from the preferred bank. -/
theorem boot_first {b : BootFacts} {failed : Option Nat} {s : State} (h : bankBoots s b s.update.bootPointer = true)
    (hf : failed ≠ some s.update.bootPointer) :
    Tends keepModule s (boot b failed s) ∧ ∃ v, (boot b failed s).module = bootedModule b s.update.bootPointer false v s.module := by
  rw [boot_preferred h hf]
  exact ⟨(placed_tends b s).trans frame_module (bootFrom_tends ..), _, rfl⟩

/-- A boot from the other bank, told as a fallback. -/
theorem boot_second {b : BootFacts} {failed : Option Nat} {s : State}
    (h : bankBoots s b s.update.bootPointer = false ∨ failed = some s.update.bootPointer)
    (ho : bankBoots s b (otherBank s.update.bootPointer) = true) (hf : failed ≠ some (otherBank s.update.bootPointer)) :
    Tends keepModule s (boot b failed s)
      ∧ ∃ v, (boot b failed s).module = bootedModule b (otherBank s.update.bootPointer) true v s.module := by
  rw [boot_other h ho hf]
  refine ⟨((placed_tends b s).trans frame_module (bankFailed_tends _)).trans frame_module (bootFrom_tends ..),
    bankVersion (bankFailed (placed b s)) (otherBank s.update.bootPointer), ?_⟩
  unfold bootFrom
  dsimp only
  rw [show ∀ (f : ModuleSt → ModuleSt) (u : State), (u.modModule f).module = f u.module from fun _ _ => rfl, bankFailed_module]
  rfl

/-! ## A reset that boots -/

/-- The watchdog has not reset the module too often for it to go on (R403). -/
theorem mainReset_goesOn {cause : Nat} {s : State} (h : cause ≠ 3 ∨ (recent s s.mgmt.watchdogResets).length < 2) (b : Option BootFacts) :
    mainReset cause b s = bootAfter b (bankLost cause s) (mainStopped cause s) := by
  rw [mainReset_eq, watchdogResetsAt_resetTold]
  refine if_neg ?_
  obtain h | h := h
  · simp [h]
  · have hlen : (watchdogResetsAt cause s).length < 3 ∨ cause ≠ 3 := by
      by_cases hc : cause = 3
      · left
        rw [watchdogResetsAt, if_pos hc, List.length_cons]
        omega
      · exact .inr hc
    simp only [Bool.and_eq_true, decide_eq_true_eq, not_and]
    omega

theorem bankBoots_mainStopped {cause : Nat} {s : State} (h : s.update.phase ≠ .receiving) (b : BootFacts) (n : Nat) :
    bankBoots (mainStopped cause s) b n = bankBoots s b n := by
  obtain ⟨d, a, k, hu⟩ := mainStopped_update h cause
  exact bankBoots_of_banks (by rw [hu]) (by rw [hu]) (by rw [hu]) b n

theorem bootPointer_mainStopped {s : State} (h : s.update.phase ≠ .receiving) (cause : Nat) :
    (mainStopped cause s).update.bootPointer = s.update.bootPointer := by
  obtain ⟨d, a, k, hu⟩ := mainStopped_update h cause
  rw [hu]

/-- A reset that boots: restarted, with the module as it booted. -/
structure BootsFrom (cause : Nat) (b : BootFacts) (n : Nat) (fallback : Bool) (s t : State) : Prop where
  tends : Tends keepModule (mainStopped cause s) t
  module : ∃ v, t.module = bootedModule b n fallback v (mainStopped cause s).module

theorem BootsFrom.restarted {cause n : Nat} {b : BootFacts} {f : Bool} {s t : State} (h : BootsFrom cause b n f s t) : Restarted cause s t := by
  obtain ⟨v, hv⟩ := h.module
  exact (mainStopped_restarted cause s).next h.tends (by rw [hv, bootedModule_mode])

theorem BootsFrom.update {cause n : Nat} {b : BootFacts} {f : Bool} {s t : State} (h : BootsFrom cause b n f s t) :
    t.update = (mainStopped cause s).update := h.tends.moves.frame.update

theorem BootsFrom.power {cause n : Nat} {b : BootFacts} {f : Bool} {s t : State} (h : BootsFrom cause b n f s t) :
    t.power = (mainStopped cause s).power := h.tends.moves.frame.power

theorem BootsFrom.place {cause n : Nat} {b : BootFacts} {f : Bool} {s t : State} (h : BootsFrom cause b n f s t) :
    t.module.bank = n ∧ t.module.fallback = f ∧ t.module.masterSel = b.masterSel ∧ t.module.sideB = b.sideB := by
  obtain ⟨v, hv⟩ := h.module
  rw [hv]
  exact ⟨rfl, rfl, rfl, rfl⟩

/-- A reset boots the preferred bank where that boots (R445). -/
theorem mainReset_first {cause : Nat} {b : BootFacts} {s : State} (hw : cause ≠ 3 ∨ (recent s s.mgmt.watchdogResets).length < 2)
    (hp : s.update.phase ≠ .receiving) (hb : bankBoots s b s.update.bootPointer = true)
    (hf : bankLost cause s ≠ some s.update.bootPointer) :
    BootsFrom cause b s.update.bootPointer false s (mainReset cause (some b) s) := by
  have hptr := bootPointer_mainStopped hp cause
  rw [mainReset_goesOn hw]
  obtain ⟨ht, hm⟩ := boot_first (failed := bankLost cause s) (s := mainStopped cause s) (b := b)
    (by rw [hptr, bankBoots_mainStopped hp]; exact hb) (by rw [hptr]; exact hf)
  rw [hptr] at hm
  exact ⟨ht, hm⟩

/-- It boots the other bank where the preferred one does not boot, or has failed (R445). -/
theorem mainReset_second {cause : Nat} {b : BootFacts} {s : State} (hw : cause ≠ 3 ∨ (recent s s.mgmt.watchdogResets).length < 2)
    (hp : s.update.phase ≠ .receiving) (h : bankBoots s b s.update.bootPointer = false ∨ bankLost cause s = some s.update.bootPointer)
    (hb : bankBoots s b (otherBank s.update.bootPointer) = true) (hf : bankLost cause s ≠ some (otherBank s.update.bootPointer)) :
    BootsFrom cause b (otherBank s.update.bootPointer) true s (mainReset cause (some b) s) := by
  have hptr := bootPointer_mainStopped hp cause
  rw [mainReset_goesOn hw]
  obtain ⟨ht, hm⟩ := boot_second (failed := bankLost cause s) (s := mainStopped cause s) (b := b)
    (by rw [hptr, bankBoots_mainStopped hp]; exact h) (by rw [hptr, bankBoots_mainStopped hp]; exact hb) (by rw [hptr]; exact hf)
  rw [hptr] at hm
  exact ⟨ht, hm⟩

theorem bankLost_commanded {cause : Nat} (h : cause ≠ 3) (s : State) : bankLost cause s = none := by simp [bankLost, h]

theorem bankLost_served {s : State} (h : s.module.mode ≠ .starting) (cause : Nat) : bankLost cause s = none := by simp [bankLost, h]

/-- What a reset goes by, told of another state of the same module. -/
theorem Restarted.of_same {cause : Nat} {s u t : State} (h : Restarted cause u t) (hc : u.mgmt.bootCount = s.mgmt.bootCount)
    (hts : u.ts.heads = s.ts.heads) (hr : u.time.tRef = s.time.tRef) : Restarted cause s t := by
  obtain ⟨hmode, hcause, hcount, hclear, hheads, htref⟩ := restarted_iff.mp h
  exact restarted_iff.mpr ⟨hmode, hcause, by rw [hcount, hc], hclear, hheads.trans hts, htref.trans hr⟩

/-! ## The watchdog -/

/-- A second expiry within 60 s, noted (R403). -/
def secondExpiry (s : State) : State :=
  s.modMgmt fun m => { m with expiries := s.time.mono :: recent s s.mgmt.expiries, firstExpiry := none }

/-- A second expiry, noted and logged. -/
def secondLogged (s : State) : State :=
  logAdd 0x0B84 3 .module (position (secondExpiry s)) [it 1 1, it 4 (s.time.mono :: recent s s.mgmt.expiries).length] false (secondExpiry s)

theorem secondLogged_tends (s : State) : Tends keepAll (secondExpiry s) (secondLogged s) := Tends.logAdd frame_all ..

theorem secondLogged_keeps (s : State) :
    (secondLogged s).time = s.time ∧ (secondLogged s).module = s.module ∧ (secondLogged s).update = s.update ∧ (secondLogged s).ts = s.ts := by
  have h := (secondLogged_tends s).moves.reporting
  exact ⟨h.time, h.module, h.update, h.ts⟩

theorem secondLogged_resets (s : State) :
    (secondLogged s).mgmt.watchdogResets = s.mgmt.watchdogResets ∧ (secondLogged s).mgmt.bootCount = s.mgmt.bootCount := by
  have h := (secondLogged_tends s).pair
  rw [← pair_watchdogResets, ← pair_bootCount, h]
  exact ⟨rfl, rfl⟩

theorem recent_secondLogged (s : State) : recent (secondLogged s) (secondLogged s).mgmt.watchdogResets = recent s s.mgmt.watchdogResets := by
  unfold recent
  rw [(secondLogged_keeps s).1, (secondLogged_resets s).1]

theorem execWatchdogExpiry_second {b : BootFacts} {e : Nat} {s : State} (hm : s.module.mode ≠ .off) (hd : watchdogDue s = true)
    (hf : s.mgmt.firstExpiry = some e) (he : s.time.mono < e + 60000000000) :
    execWatchdogExpiry b s = .next (mainReset 3 (some b) (secondLogged s)) := by
  have hs : (s.mgmt.firstExpiry.any fun t => decide (s.time.mono < t + 60 * second)) = true := by
    have h60 : 60 * second = 60000000000 := rfl
    rw [hf, Option.any_some, decide_eq_true_eq, h60]
    exact he
  unfold execWatchdogExpiry
  simp only [hm, hd, hs, Bool.not_true, Bool.or_false, decide_false, Bool.false_eq_true, if_false, if_true]
  rfl

theorem Restarted.of_secondLogged {s t : State} (h : Restarted 3 (secondLogged s) t) : Restarted 3 s t :=
  h.of_same (secondLogged_resets s).2 (by rw [(secondLogged_keeps s).2.2.2]) (by rw [(secondLogged_keeps s).1])

/-- The pair's state after a watchdog's reset (R403). -/
theorem BootsFrom.watchdog_pair {n : Nat} {b : BootFacts} {f : Bool} {s t : State} (h : BootsFrom 3 b n f (secondLogged s) t) :
    t.mgmt.firstExpiry = none ∧ t.mgmt.expiries = s.time.mono :: recent s s.mgmt.expiries
      ∧ t.mgmt.watchdogResets = s.time.mono :: recent s s.mgmt.watchdogResets := by
  obtain ⟨removed, hp⟩ := mainStopped_pair 3 (secondLogged s)
  have ht := h.tends.pair.trans hp
  rw [(secondLogged_tends s).pair] at ht
  refine ⟨congrArg MgmtSt.firstExpiry ht, congrArg MgmtSt.expiries ht, (congrArg MgmtSt.watchdogResets ht).trans ?_⟩
  change watchdogResetsAt 3 (secondLogged s) = _
  rw [watchdogResetsAt, if_pos rfl, recent_secondLogged, (secondLogged_keeps s).1]

/-! ## The pair's start, and the system connector -/

theorem systemInput_tends (c : Nat) (high : Bool) (cause : Nat) (s : State) : Tends keepModule s (systemInput c high cause s) :=
  .raiseMod frame_module ..

theorem systemInput_module (c : Nat) (high : Bool) (cause : Nat) (s : State) : (systemInput c high cause s).module = s.module :=
  (raiseMod_reporting ..).module

theorem systemInput_power (c : Nat) (high : Bool) (cause : Nat) (s : State) : (systemInput c high cause s).power = s.power :=
  (raiseMod_reporting ..).power

theorem mainCleared_power (cause : Nat) (s : State) :
    (mainCleared cause s).power = { s.power with shutdownDraining := false, shutdownAsked := false } :=
  congrArg (fun p : PowerSt => { p with shutdownDraining := false, shutdownAsked := false }) (roleGiven_runs s).frame.power

theorem mainStopped_power (cause : Nat) (s : State) :
    (mainStopped cause s).power = { s.power with shutdownDraining := false, shutdownAsked := false } :=
  (mainStopped_moves cause s).reset_power.trans (mainCleared_power cause s)

theorem withResets_host (l : List Nat) (s : State) : (s.modMgmt fun m => { m with watchdogResets := l }).host = s.host := rfl

theorem Tends.linkSpeed {keep : State → State → State} {s t : State} (h : Tends keep s t) : t.host.linkSpeed = s.host.linkSpeed := by
  rw [h.host]

/-- A cold reset takes the link down (R446). -/
theorem mainStopped_cold (s : State) : (mainStopped 0 s).host.linkSpeed = 0 := by
  rw [mainStopped, withResets_host, (resetTold_tends 0 s).host]
  rfl

/-- The power switch of a shutdown released, and the pair started (R417, R454). -/
def releasedPair (s : State) : State :=
  logAdd 0x0B84 0 .module (position s) [] false
    ((s.modPower fun p => { p with shutdownDone := false }).modMgmt fun m => { m with restarting := false, pairStartNs := some s.time.mono })

/-- The same, before it is logged. -/
def releasedPlain (s : State) : State :=
  (s.modPower fun p => { p with shutdownDone := false }).modMgmt fun m => { m with restarting := false, pairStartNs := some s.time.mono }

theorem releasedPair_tends (s : State) : Tends keepAll (releasedPlain s) (releasedPair s) := Tends.logAdd frame_all ..

theorem releasedPair_keeps (s : State) :
    (releasedPair s).update = s.update ∧ (releasedPair s).ts = s.ts ∧ (releasedPair s).time = s.time
      ∧ (releasedPair s).mgmt.bootCount = s.mgmt.bootCount ∧ (releasedPair s).power = { s.power with shutdownDone := false } := by
  have h := releasedPair_tends s
  exact ⟨h.moves.reporting.update, h.moves.reporting.ts, h.moves.reporting.time, by rw [← pair_bootCount, h.pair]; rfl,
    h.moves.reporting.power⟩

/-- Settles O45: a reset clears the main section and boots the bank chosen; what does not boot, and a third reset by the watchdog, is a
fault. -/
theorem resetsRestart : Obligations.ResetsRestart := by
  unfold Obligations.ResetsRestart
  refine ⟨?first, ?second, ?none, ?watchdog, ?starting, ?third, ?sysReset, ?release, ?shutdown⟩
  case first =>
    intro b s hheld hmode hphase hboots
    have h := mainReset_first (cause := 2) (.inl (by decide)) hphase hboots (by rw [bankLost_commanded (by decide)]; nofun)
    obtain ⟨hbank, hfall, hmaster, hside⟩ := h.place
    obtain ⟨d, a, k, hu⟩ := mainStopped_update hphase 2
    refine completes_of_exec (t := mainReset 2 (some b) s) ?_ ⟨h.restarted, hbank, hfall, hmaster, hside, ?_, ?_⟩
    · change execCommandResetTimer b s = _
      simp [execCommandResetTimer, hheld, hmode]
    · rw [h.update, hu]
    · rw [h.update, hu]
  case second =>
    intro b s hheld hmode hphase hfails hboots
    have h := mainReset_second (cause := 2) (.inl (by decide)) hphase (.inl hfails) hboots (by rw [bankLost_commanded (by decide)]; nofun)
    refine completes_of_exec (t := mainReset 2 (some b) s) ?_ ⟨h.restarted, h.place.1, h.place.2.1⟩
    change execCommandResetTimer b s = _
    simp [execCommandResetTimer, hheld, hmode]
  case none =>
    intro b s hheld hmode hphase hfails hother
    have hptr := bootPointer_mainStopped hphase 2
    have hu := (placed_tends b (mainStopped 2 s)).trans frame_module (bankFailed_tends _)
    have hstart : (bankFailed (placed b (mainStopped 2 s))).module.mode = .starting := by
      rw [bankFailed_module, placed_mode, mainStopped_module]
    obtain ⟨hmod, hpair⟩ := enterFault_enters (cause := 1) (s := bankFailed (placed b (mainStopped 2 s))) (by rw [hstart]; nofun)
      (by rw [hstart]; nofun) (by decide) (by decide) 0
    obtain ⟨removed, hp⟩ := mainStopped_pair 2 s
    rw [hu.pair, hp] at hpair
    refine completes_of_exec (t := enterFault 1 0 (bankFailed (placed b (mainStopped 2 s)))) ?_
      ⟨congrArg ModuleSt.mode hmod, by rw [← pair_faultCause, hpair], by rw [← pair_resetCause, hpair]; rfl⟩
    change execCommandResetTimer b s = _
    rw [execCommandResetTimer, if_pos (by simp [hheld, hmode]), mainReset_goesOn (.inl (by decide)), bankLost_commanded (by decide)]
    exact congrArg Host.Outcome.next (boot_none (by rw [hptr, bankBoots_mainStopped hphase]; exact hfails)
      (by rw [hptr, bankBoots_mainStopped hphase]; exact hother))
  case watchdog =>
    intro b e s hoff hmode hdue hfirst he hphase hboots hfew
    obtain ⟨htime, hmod, hupd, hts⟩ := secondLogged_keeps s
    have h := mainReset_first (cause := 3) (b := b) (s := secondLogged s) (.inr (by rw [recent_secondLogged]; exact hfew))
      (by rw [hupd]; exact hphase) (by rw [bankBoots_congr hupd, hupd]; exact hboots)
      (by rw [bankLost_served (by rw [hmod]; exact hmode)]; nofun)
    exact completes_of_exec (execWatchdogExpiry_second hoff hdue hfirst he) ⟨h.restarted.of_secondLogged, h.watchdog_pair⟩
  case starting =>
    intro b e s hmode hdue hfirst he hphase hbank hboots hfew
    obtain ⟨htime, hmod, hupd, hts⟩ := secondLogged_keeps s
    have hlost : bankLost 3 (secondLogged s) = some s.update.bootPointer := by simp [bankLost, hmod, hmode, hbank]
    have h := mainReset_second (cause := 3) (b := b) (s := secondLogged s) (.inr (by rw [recent_secondLogged]; exact hfew))
      (by rw [hupd]; exact hphase) (.inr (by rw [hlost, hupd])) (by rw [bankBoots_congr hupd, hupd]; exact hboots)
      (by rw [hlost, hupd]; intro hne; exact otherBank_ne _ (Option.some.inj hne).symm)
    refine completes_of_exec (execWatchdogExpiry_second (by rw [hmode]; nofun) hdue hfirst he)
      ⟨h.restarted.of_secondLogged, h.place.1.trans (by rw [hupd]), h.place.2.1⟩
  case third =>
    intro b e s hoff hmode hdue hfirst he hphase hboots hmany
    obtain ⟨htime, hmod, hupd, hts⟩ := secondLogged_keeps s
    have hphase' : (secondLogged s).update.phase ≠ .receiving := by rw [hupd]; exact hphase
    have hptr := bootPointer_mainStopped hphase' 3
    have hlost := bankLost_served (s := secondLogged s) (by rw [hmod]; exact hmode) 3
    obtain ⟨ht, v, hm⟩ := boot_first (failed := bankLost 3 (secondLogged s)) (s := mainStopped 3 (secondLogged s)) (b := b)
      (by rw [hptr, bankBoots_mainStopped hphase', bankBoots_congr hupd, hupd]; exact hboots) (by rw [hlost]; nofun)
    have hstart : (boot b (bankLost 3 (secondLogged s)) (mainStopped 3 (secondLogged s))).module.mode = .starting := by
      rw [hm, bootedModule_mode, mainStopped_module]
    obtain ⟨hfm, hpair⟩ := enterFault_enters (cause := 7) (s := boot b (bankLost 3 (secondLogged s)) (mainStopped 3 (secondLogged s)))
      (by rw [hstart]; nofun) (by rw [hstart]; nofun) (by decide) (by decide) 0
    obtain ⟨removed, hp⟩ := mainStopped_pair 3 (secondLogged s)
    rw [ht.pair, hp] at hpair
    refine completes_of_exec (t := enterFault 7 0 (boot b (bankLost 3 (secondLogged s)) (mainStopped 3 (secondLogged s)))) ?_
      ⟨congrArg ModuleSt.mode hfm, by rw [← pair_faultCause, hpair], by rw [← pair_resetCause, hpair]; rfl⟩
    refine (execWatchdogExpiry_second hoff hdue hfirst he).trans (congrArg Host.Outcome.next ?_)
    rw [mainReset_eq, watchdogResetsAt_resetTold]
    refine if_pos ?_
    have hlen : 3 ≤ (watchdogResetsAt 3 (secondLogged s)).length := by
      rw [watchdogResetsAt, if_pos rfl, List.length_cons, recent_secondLogged]
      omega
    simp [hlen]
  case sysReset =>
    intro s hmode hheld
    let u := s.modPower fun p => { p with sysResetHeld := true }
    have ht := systemInput_tends 5 false 0 (mainStopped 1 u)
    refine completes_of_exec (t := systemInput 5 false 0 (mainStopped 1 u)) ?_
      ⟨((mainStopped_restarted 1 u).of_same rfl rfl rfl).next ht (by rw [systemInput_module]), ?_⟩
    · change execSysReset s = _
      rw [execSysReset, if_neg (by simp [hmode, hheld])]
      exact congrArg (fun t => Host.Outcome.next (systemInput 5 false 0 t)) (mainReset_goesOn (.inl (by decide)) none)
    · rw [systemInput_power, mainStopped_power]
      rfl
  case release =>
    intro b s hheld hboots
    let u := bootFrom s.update.bootPointer false (placed b (s.modPower fun p => { p with sysResetHeld := false }))
    have hr := raiseMod_reporting 0x0B89 [it 1 5, it 1 1, it 1 0] u
    refine completes_of_exec (t := systemInput 5 true 0 u) ?_ ⟨hr.power, ?_, ?_, ?_, ?_⟩
    · change execSysResetRelease b s = _
      rw [execSysResetRelease, if_pos hheld]
      exact congrArg (fun t => Host.Outcome.next (systemInput 5 true 0 t))
        (boot_preferred (s := s.modPower fun p => { p with sysResetHeld := false }) hboots nofun)
    · rw [systemInput_module]
      rfl
    · rw [systemInput_module]
      rfl
    · exact raise_raises 0x0B89 .module (position s) [it 1 5, it 1 1, it 1 0] s u false rfl rfl rfl rfl rfl rfl
    · exact frame_powerModule.reporting (a := s) (b := u) rfl hr
  case shutdown =>
    intro b s hmode hdone hup hphase hboots
    obtain ⟨hupd, hts, htime, hcount, hpower⟩ := releasedPair_keeps s
    have h := mainReset_first (cause := 0) (b := b) (s := releasedPair s) (.inl (by decide)) (by rw [hupd]; exact hphase)
      (by rw [bankBoots_congr hupd, hupd]; exact hboots) (by rw [bankLost_commanded (by decide)]; nofun)
    have ht := systemInput_tends 7 true 2 (mainReset 0 (some b) (releasedPair s))
    have hres : Restarted 0 s (mainReset 0 (some b) (releasedPair s)) :=
      h.restarted.of_same hcount (congrArg TsSt.heads hts) (congrArg TimeSt.tRef htime)
    refine completes_of_exec (t := systemInput 7 true 2 (mainReset 0 (some b) (releasedPair s))) ?_
      ⟨hres.next ht (congrArg ModuleSt.mode (systemInput_module ..)), ?_, ?_⟩
    · change execShutdownRelease b s = _
      rw [execShutdownRelease, if_pos (by simp [hmode, hdone, hup])]
      exact congrArg (fun t => Host.Outcome.next (systemInput 7 true 2 (mainReset 0 (some b) t)))
        (pairStarted_boots (s := s.modPower fun p => { p with shutdownDone := false }) hboots)
    · rw [systemInput_power, h.power, mainStopped_power, hpower]
    · rw [ht.linkSpeed, h.tends.linkSpeed, mainStopped_cold]

end Sys2Proof.Machine
end

-- The service port (R456 to R463)
section
/-! SUPPORT. Banks written and read, messages of the service port, and what begins, ends and drops a transfer. -/

namespace Sys2Proof.Machine

open Sys2Proof

theorem Tends.emit {keep : State → State → State} (hk : Frame keep) (o : Out) (s : State) : Tends keep s (emit o s) :=
  ⟨.of_reporting hk ((Tells.refl s).emit o) (emit_reporting ..), rfl, rfl⟩

theorem Tends.reporting_update {s t : State} (h : Tends keepUpdate s t) : Reporting s { t with update := s.update } := h.moves.frame

theorem Tends.mem {keep : State → State → State} {s t : State} (h : Tends keep s t) {o : Out} (ho : o ∈ s.outbox) : o ∈ t.outbox :=
  h.moves.tells.mem ho

/-! ## Banks -/

theorem setBank_banks (n : Nat) (x : Option Image) (s : State) :
    ∃ a b, (setBank n x s).update = { s.update with bankA := a, bankB := b } := by
  unfold setBank
  by_cases h : n = 0
  · simp only [h, if_true]
    exact ⟨_, _, rfl⟩
  · simp only [h, if_false]
    exact ⟨_, _, rfl⟩

theorem bankStored_setBank (n : Nat) (x : Option Image) (s : State) : bankStored (setBank n x s) n = x := by
  unfold setBank bankStored
  by_cases h : n = 0
  · simp [h, State.modUpdate]
  · simp [h, State.modUpdate]

theorem bankStored_setBank_other (n : Nat) (x : Option Image) (s : State) :
    bankStored (setBank n x s) (otherBank n) = bankStored s (otherBank n) := by
  unfold setBank bankStored otherBank
  by_cases h : n = 0
  · simp [h, State.modUpdate]
  · simp [h, State.modUpdate]

theorem bankStored_of_update {s t : State} (h : ∃ p, t.update = { s.update with phase := p }) (n : Nat) : bankStored t n = bankStored s n := by
  obtain ⟨p, hp⟩ := h
  unfold bankStored
  rw [hp]

theorem bankStored_enterPhase (p : Phase) (b v : Nat) (s : State) (n : Nat) : bankStored (enterPhase p b v s) n = bankStored s n :=
  bankStored_of_update ⟨p, enterPhase_update p b v s⟩ n

theorem idleBank_of_module {s t : State} (h : t.module = s.module) : idleBank t = idleBank s := by
  unfold idleBank
  rw [h]

/-! ## Messages -/

theorem serviceResult_tends (st : Nat) (s : State) : Tends keepAll s (serviceResult st s) := .emit frame_all ..

theorem serviceResult_update (st : Nat) (s : State) : (serviceResult st s).update = s.update := rfl

theorem serviceResult_sent (st : Nat) (s : State) : Out.service "RESULT" (resultBytes st s.update.body.length) ∈ (serviceResult st s).outbox :=
  List.mem_cons_self

theorem updateRefused_tends (st n v : Nat) (s : State) : Tends keepAll s (updateRefused st n v s) := .raise frame_all ..

theorem updateRefused_update (st n v : Nat) (s : State) : (updateRefused st n v s).update = s.update := (raise_reporting ..).update

theorem updateRefused_raises (st n v : Nat) (s : State) :
    Raises 0x0C81 .port 17 [it 2 st, it 8 n, it 4 v] s (updateRefused st n v s) := raise_self _ _ _ _ _ _

theorem closeService_tends (s : State) : Tends keepUpdate s (closeService s) :=
  (modUpdate_tends _ s).trans frame_update (.emit frame_update ..)

theorem closeService_update (s : State) : (closeService s).update = { s.update with connected := false } := rfl

/-! ## Transfers -/

/-- The transfer gone and the bank empty, before the phase is told. -/
def transferGone (s : State) : State := setBank (idleBank s) none (s.modUpdate fun u => { u with transfer := none, body := [] })

theorem dropTransfer_drops {h : Colilo} {s : State} (ht : s.update.transfer = some h) :
    dropTransfer s = enterPhase .idle (idleBank s) 0 (transferGone s) := by
  unfold dropTransfer
  rw [if_pos (by simp [ht])]
  rfl

theorem dropTransfer_none {s : State} (h : s.update.transfer = none) : dropTransfer s = s := by
  unfold dropTransfer
  rw [if_neg (by simp [h])]

theorem dropTransfer_tends (s : State) : Tends keepUpdate s (dropTransfer s) := by
  unfold dropTransfer
  split
  · exact ((modUpdate_tends _ s).trans frame_update (setBank_tends ..)).trans frame_update (enterPhase_tends ..)
  · exact .refl frame_update s

/-- After it no transfer is left, the inactive bank is empty, and the phase is IDLE (R458, R463). -/
theorem dropTransfer_update {h : Colilo} {s : State} (ht : s.update.transfer = some h) :
    (dropTransfer s).update.phase = .idle ∧ (dropTransfer s).update.transfer = none ∧ bankStored (dropTransfer s) (idleBank s) = none
      ∧ (dropTransfer s).update.connected = s.update.connected := by
  obtain ⟨a, b, hb⟩ := setBank_banks (idleBank s) none (s.modUpdate fun u => { u with transfer := none, body := [] })
  rw [dropTransfer_drops ht, bankStored_enterPhase, enterPhase_update]
  refine ⟨rfl, ?_, bankStored_setBank .., ?_⟩
  · unfold transferGone
    rw [hb]
    rfl
  · unfold transferGone
    rw [hb]
    rfl

/-- The refusal told and answered, before the transfer is dropped. -/
def sessionRefused (st : Nat) (s : State) : State :=
  serviceResult st (updateRefused st s.update.body.length (transferVersion s) s)

theorem failSession_eq (st : Nat) (s : State) : failSession st s = closeService (dropTransfer (sessionRefused st s)) := rfl

theorem sessionRefused_tends (st : Nat) (s : State) : Tends keepAll s (sessionRefused st s) :=
  (updateRefused_tends ..).trans frame_all (serviceResult_tends ..)

theorem sessionRefused_update (st : Nat) (s : State) : (sessionRefused st s).update = s.update :=
  (serviceResult_update ..).trans (updateRefused_update ..)

theorem Tends.update_of_all {s t : State} (h : Tends keepAll s t) : Tends keepUpdate s t := h.widen frame_update rfl

theorem failSession_tends (st : Nat) (s : State) : Tends keepUpdate s (failSession st s) := by
  rw [failSession_eq]
  exact ((sessionRefused_tends st s).update_of_all.trans frame_update (dropTransfer_tends _)).trans frame_update (closeService_tends _)

/-- A session that fails with a transfer under way (R457, R458). -/
theorem failSession_fails {h : Colilo} {s : State} (ht : s.update.transfer = some h) (st : Nat) :
    (failSession st s).update.phase = .idle ∧ bankStored (failSession st s) (idleBank s) = none ∧ (failSession st s).update.transfer = none
      ∧ (failSession st s).update.connected = false ∧ Out.service "RESULT" (resultBytes st s.update.body.length) ∈ (failSession st s).outbox
      ∧ Raises 0x0C81 .port 17 [it 2 st, it 8 s.update.body.length, it 4 h.version] s (failSession st s) := by
  have hu := sessionRefused_update st s
  have hmod : (sessionRefused st s).module = s.module := (sessionRefused_tends st s).moves.reporting.module
  obtain ⟨hphase, htrans, hbank, -⟩ := dropTransfer_update (s := sessionRefused st s) (h := h) (by rw [hu]; exact ht)
  rw [idleBank_of_module hmod] at hbank
  have hrest := (dropTransfer_tends (sessionRefused st s)).trans frame_update (closeService_tends _)
  have hver : transferVersion s = h.version := by
    unfold transferVersion
    rw [ht]
    rfl
  have hr := updateRefused_raises st s.update.body.length (transferVersion s) s
  rw [hver] at hr
  rw [failSession_eq]
  refine ⟨hphase, hbank, htrans, rfl, hrest.mem ?_, ?_⟩
  · unfold sessionRefused
    rw [serviceResult, updateRefused_update]
    exact List.mem_cons_self
  · refine Raises.tells hr (Tells.trans ?_ hrest.moves.tells)
    unfold sessionRefused
    rw [hver]
    exact (serviceResult_tends ..).moves.tells

/-- A transfer begun, before the phase is told (R461). -/
def transferBegun (h : Colilo) (s : State) : State :=
  setBank (idleBank s) none (s.modUpdate fun u => { u with transfer := some h, body := [], lastDataNs := s.time.mono })

/-- The image stored and its RESULT sent, before the transfer ends (R462). -/
def imageStored (h : Colilo) (s : State) : State := serviceResult 0 (setBank (idleBank s) (some ⟨h, s.update.body⟩) s)

/-- The image staged, before the phase is told. -/
def transferEnded (h : Colilo) (s : State) : State := (imageStored h s).modUpdate fun u => { u with transfer := none, body := [] }

theorem transferBegun_tends (h : Colilo) (s : State) : Tends keepUpdate s (transferBegun h s) :=
  (modUpdate_tends _ s).trans frame_update (setBank_tends ..)

theorem imageStored_tends (h : Colilo) (s : State) : Tends keepUpdate s (imageStored h s) :=
  (setBank_tends ..).trans frame_update (serviceResult_tends ..).update_of_all

theorem transferEnded_tends (h : Colilo) (s : State) : Tends keepUpdate s (transferEnded h s) :=
  (imageStored_tends h s).trans frame_update (modUpdate_tends ..)

/-- A raise from a state whose update alone differs. -/
theorem enterPhase_raises_from {new old : Phase} {s u : State} (hh : u.host = s.host) (hq : u.queue = s.queue) (ht : u.time = s.time)
    (hc : u.cascade = s.cascade) (hp : u.update.phase = old) (h : old ≠ new) (bank version : Nat) :
    Raises 0x0C80 .module (position s) [it 1 old.value, it 1 new.value, it 1 bank, it 4 version] s (enterPhase new bank version u) := by
  have hpos : position u = position s := by
    unfold position
    rw [hc]
  rw [enterPhase_changes (by rw [hp]; exact h), hp]
  unfold raiseMod
  rw [show position (u.modUpdate fun x => { x with phase := new }) = position s from hpos]
  exact raise_raises _ _ _ _ s (u.modUpdate fun x => { x with phase := new }) false hh (congrArg QueueSt.events hq) (congrArg QueueSt.seqs hq)
    (congrArg QueueSt.evtMasks hq) hpos (congrArg TimeSt.wall ht)

/-- Settles O49: each message of the port by what it does to the transfer, with the messages and events it sends. -/
theorem theServicePortUpdates : Obligations.TheServicePortUpdates := by
  unfold Obligations.TheServicePortUpdates
  refine ⟨?connect, ?second, ?hello, ?begin, ?beginRefused, ?data, ?endOk, ?endBad, ?abort, ?stall, ?disconnect⟩
  case connect =>
    intro s hup hc
    refine completes_of_exec (t := _) ?_ rfl
    change execServiceConnect s = _
    simp only [execServiceConnect, hup, hc, Bool.not_true, Bool.false_eq_true, if_false]
    rfl
  case second =>
    intro s hup hc
    refine completes_of_exec (t := emit (.service "SECOND_CLOSE" []) (emit (.service "SECOND_RESULT" (resultBytes 0x03C0 0)) s)) ?_
      ⟨rfl, List.mem_cons_of_mem _ List.mem_cons_self, List.mem_cons_self, rfl⟩
    change execServiceConnect s = _
    simp [execServiceConnect, hup, hc]
  case hello =>
    intro s hup hc ht
    refine completes_of_exec (t := emit _ s) ?_ ⟨List.mem_cons_self, rfl⟩
    change execServiceHello s = _
    simp only [execServiceHello, hup, hc, ht, Bool.not_true, Bool.or_self, Option.isSome_none, Bool.false_eq_true, if_false]
  case begin =>
    intro h s hup hc ht hen hphase hfault
    obtain ⟨a, b, hb⟩ := setBank_banks (idleBank s) none
      (s.modUpdate fun u => { u with transfer := some (readColilo h), body := [], lastDataNs := s.time.mono })
    have hu : (transferBegun (readColilo h) s).update = { s.update with
        transfer := some (readColilo h), body := [], lastDataNs := s.time.mono, bankA := a, bankB := b } := hb
    have hp := enterPhase_update .receiving (idleBank s) (readColilo h).version (transferBegun (readColilo h) s)
    have hne : s.update.phase ≠ .receiving := by
      obtain hphase | hphase := hphase <;> rw [hphase] <;> nofun
    have htends := (transferBegun_tends (readColilo h) s).trans frame_update
      ((enterPhase_tends .receiving (idleBank s) (readColilo h).version _).trans frame_update (serviceResult_tends 0 _).update_of_all)
    refine completes_of_exec
      (t := serviceResult 0 (enterPhase .receiving (idleBank s) (readColilo h).version (transferBegun (readColilo h) s))) ?_
      ⟨?_, ?_, ?_, ?_, ?_, ?_, ?_, ?_, htends.reporting_update⟩
    · have hst : beginStatus (readColilo h) s = 0 := by
        unfold beginStatus
        rw [if_neg (by simp [hen]), if_neg (by obtain hphase | hphase := hphase <;> simp [hphase])]
        exact hfault
      change execServiceBegin h s = _
      simp only [execServiceBegin, hup, hc, ht, hst, Bool.not_true, Bool.or_self, Option.isSome_none, bne_self_eq_false, Bool.false_eq_true,
        if_false]
      rfl
    · rw [serviceResult_update, hp]
    · rw [serviceResult_update, hp, hu]
    · rw [serviceResult_update, hp, hu]
    · exact (bankStored_enterPhase ..).trans (bankStored_setBank ..)
    · exact (bankStored_enterPhase ..).trans (bankStored_setBank_other ..)
    · rw [serviceResult_update, hp, hu]
      exact hc
    · have hsent := serviceResult_sent 0 (enterPhase .receiving (idleBank s) (readColilo h).version (transferBegun (readColilo h) s))
      rw [hp, hu] at hsent
      exact hsent
    · exact Raises.tells (enterPhase_raises_from (s := s) (u := transferBegun (readColilo h) s) rfl rfl rfl rfl (by rw [hu]) hne _ _)
        (serviceResult_tends ..).moves.tells
  case beginRefused =>
    intro h s hup hc ht hbody hst
    have htends := ((updateRefused_tends (beginStatus (readColilo h) s) 0 (readColilo h).version s).trans frame_all
      (serviceResult_tends (beginStatus (readColilo h) s) _)).update_of_all.trans frame_update (closeService_tends _)
    refine completes_of_exec
      (t := closeService (serviceResult (beginStatus (readColilo h) s) (updateRefused (beginStatus (readColilo h) s) 0 (readColilo h).version s)))
      ?_ ⟨?_, ?_, ?_, htends.reporting_update⟩
    · change execServiceBegin h s = _
      simp [execServiceBegin, hup, hc, ht, hst]
    · rw [closeService_update, serviceResult_update, updateRefused_update]
    · refine (closeService_tends _).mem ?_
      rw [serviceResult, updateRefused_update, hbody]
      exact List.mem_cons_self
    · exact Raises.tells (updateRefused_raises _ _ _ s) ((serviceResult_tends ..).moves.tells.trans (closeService_tends _).moves.tells)
  case data =>
    intro bytes h s hup hc ht hne hlen
    refine completes_of_exec (t := _) ?_ rfl
    change execServiceData bytes s = _
    rw [execServiceData, if_neg (by simp [hup, hc]), if_neg (by simp [ht, hne, Nat.not_lt.mpr hlen])]
    rfl
  case endOk =>
    intro h s hup hc ht hphase hm
    obtain ⟨a, b, hb⟩ := setBank_banks (idleBank s) (some ⟨h, s.update.body⟩) s
    have hu : (transferEnded h s).update = { s.update with bankA := a, bankB := b, transfer := none, body := [] } :=
      congrArg (fun u : UpdateSt => { u with transfer := none, body := [] }) hb
    have hp := enterPhase_update .staged (idleBank s) h.version (transferEnded h s)
    have htends := (transferEnded_tends h s).trans frame_update (enterPhase_tends .staged (idleBank s) h.version _)
    refine completes_of_exec (t := enterPhase .staged (idleBank s) h.version (transferEnded h s)) ?_
      ⟨?_, ?_, ?_, ?_, ?_, ?_, htends.reporting_update⟩
    · change execServiceEnd true s = _
      simp only [execServiceEnd, hup, hc, ht, hm, Bool.not_true, Bool.or_self, Bool.and_self, Bool.false_eq_true, if_false, if_true]
      rfl
    · rw [hp]
    · exact (bankStored_enterPhase ..).trans (bankStored_setBank ..)
    · rw [hp, hu]
    · rw [hp, hu]
      exact hc
    · refine (enterPhase_tends ..).mem (List.mem_cons.mpr (.inl ?_))
      rw [hb]
    · exact enterPhase_raises_from (s := s) (u := transferEnded h s) (old := .receiving) (new := .staged) rfl rfl rfl rfl (by rw [hu]; exact hphase)
        (by decide) _ _
  case endBad =>
    intro ok h s hup hc ht hphase hbad
    have hno : (ok && bodyMatches h s.update.body) = false := by
      obtain hbad | hbad := hbad <;> simp [hbad]
    obtain ⟨h1, h2, h3, h4, h5, h6⟩ := failSession_fails ht 0x06C5
    refine completes_of_exec (t := failSession 0x06C5 s) ?_ ⟨h1, h2, h3, h4, h5, h6, (failSession_tends 0x06C5 s).reporting_update⟩
    change execServiceEnd ok s = _
    simp only [execServiceEnd, hup, hc, ht, hno, Bool.not_true, Bool.or_self, Bool.false_eq_true, if_false]
  case abort =>
    intro h s hup hc ht hphase
    obtain ⟨h1, h2, h3, h4⟩ := dropTransfer_update ht
    refine completes_of_exec (t := dropTransfer s) ?_ ⟨h1, h2, h3, h4.trans hc, (dropTransfer_tends s).reporting_update⟩
    change execServiceAbort s = _
    simp [execServiceAbort, hup, hc, ht]
  case stall =>
    intro h s hc ht hphase hlate
    obtain ⟨h1, h2, h3, -⟩ := dropTransfer_update ht
    have h10 : 10 * second = 10000000000 := rfl
    refine completes_of_exec (t := closeService (dropTransfer s)) ?_
      ⟨h1, h2, h3, rfl, List.mem_cons_self, ((dropTransfer_tends s).trans frame_update (closeService_tends _)).reporting_update⟩
    change execServiceStallTimeout s = _
    rw [execServiceStallTimeout, h10, if_pos (by simp [hc, ht, hlate])]
  case disconnect =>
    intro s hc ht hphase
    refine completes_of_exec (t := s.modUpdate fun u => { u with connected := false }) ?_ ⟨rfl, rfl⟩
    change execServiceDisconnect s = _
    rw [execServiceDisconnect, if_pos hc, dropTransfer_none (s := s.modUpdate fun u => { u with connected := false }) ht]

end Sys2Proof.Machine
end

-- Commands of firmware update (R463 to R472)
section
/-! SUPPORT. What each command of update does once its checks pass, and the reset that a revert ends with. -/

namespace Sys2Proof.Machine

open Sys2Proof

theorem Reports.adds {d : Desc} {c : HostCmd} {st : Nat} {l : Items} {s t u : State} (h : Reports d c st l s t) (ha : Adds t u) :
    Reports d c st l s u := by
  intro hq r hr
  obtain ⟨i, ph, hm⟩ := h hq r hr
  exact ⟨i, ph, ha.mem hm⟩

/-- A command executed here completes after steps that change update alone (R283). -/
theorem Tends.ends_update {d : Desc} {c : HostCmd} {s u : State} (h : Executes d c s) (hu : Tends keepUpdate (taken d c s) u) (st : Nat)
    (l : Items) :
    Reports d c st l s (complete (ticketOf d (cmdKind c) s) st l u)
      ∧ Reporting s { complete (ticketOf d (cmdKind c) s) st l u with update := s.update } := hu.moves.ends frame_update h st l

theorem complete_update (tk : Ticket) (st : Nat) (l : Items) (s : State) : (complete tk st l s).update = s.update :=
  (complete_reporting ..).update

/-! ## Work on several modules -/

theorem setJob_tends (b : Bool) (j : Option UpdateJob) (s : State) : Tends keepUpdate s (setJob b j s) := modUpdate_tends ..

theorem settleJob_waits {b : Bool} {j : UpdateJob} {s : State} (hj : jobOf s b = some j) (h : (j.mask.all fun p => j.done.contains p) = false) :
    settleJob b s = s := by
  rw [settleJob, hj]
  exact if_neg (by rw [h]; decide)

theorem settleJob_none {b : Bool} {s : State} (hj : jobOf s b = none) : settleJob b s = s := by rw [settleJob, hj]

/-- The work of a distribution or an activation, nothing of it done. -/
def newJob (tk : Ticket) (mask : List Nat) : UpdateJob := { ticket := tk, mask := mask, done := [], ok := [] }

/-- The message of a distribution to one module, both ways round the ring (R466). -/
def distributeMsgs (source p tag : Nat) : List Out :=
  [Bond.east, .west].map fun b => .message b .bulk "DISTRIBUTE" [(source : Int), (p : Int), (tag : Int)]

theorem updateDistributeBody_one {mask staged p : Nat} {s : State} (hh : s.cascade.headstock = true) (hd : s.update.distribute = none)
    (hphase : s.update.phase = .staged) (hm : namedModules mask s = [p]) (hp : p ≠ position s) (ht : inTouch s p = true) (tk : Ticket) :
    updateDistributeBody (position s) mask staged tk s
      = sendPart tk p (distributeMsgs (position s) p) (setJob true (some (newJob tk [p])) s) := by
  have hpos : position (setJob true (some (newJob tk [p])) s) = position s := rfl
  have ht' : inTouch (setJob true (some (newJob tk [p])) s) p = true := ht
  have hjob : jobOf (sendPart tk p (distributeMsgs (position s) p) (setJob true (some (newJob tk [p])) s)) true = some (newJob tk [p]) := rfl
  have hgone : [p].filter (fun q => !inTouch s q) = [] := by simp [ht]
  have hsame : [p].filter (fun q => decide (q = position s)) = [] := by simp [hp]
  have hsend : [p].filter (fun q => q != position s && q != position s && inTouch (setJob true (some (newJob tk [p])) s) q) = [p] := by
    simp [hp, ht']
  unfold updateDistributeBody
  simp only [hh, hd, hphase, hm, hgone, hsame, if_true, decide_true, Bool.not_true, Option.isSome_none, Bool.false_eq_true, if_false,
    List.append_nil]
  change settleJob true (([p].filter fun q => q != position s && q != position s && inTouch (setJob true (some (newJob tk [p])) s) q).foldl
    (fun u q => sendPart tk q (distributeMsgs (position s) q) u) (setJob true (some (newJob tk [p])) s)) = _
  rw [hsend]
  exact settleJob_waits hjob (by simp [newJob])

theorem schedule_tends (t : Nat) (s : State) : Tends keepUpdate s (schedule t s) :=
  (modUpdate_tends _ s).trans frame_update (enterPhase_tends ..)

theorem schedule_update (t : Nat) (s : State) : (schedule t s).update = { s.update with activateNs := some t, phase := .scheduled } :=
  enterPhase_update ..

/-- A module that is STAGED and gets an instant tells that it is SCHEDULED (R463, R467). -/
theorem schedule_raises {s u : State} (hh : u.host = s.host) (hq : u.queue = s.queue) (ht : u.time = s.time) (hc : u.cascade = s.cascade)
    (hp : u.update.phase = .staged) (t : Nat) :
    Raises 0x0C80 .module (position s) [it 1 2, it 1 3, it 1 (idleBank u), it 4 (bankVersion u (idleBank u))] s (schedule t u) :=
  enterPhase_raises_from (s := s) (u := u.modUpdate fun x => { x with activateNs := some t }) (old := .staged) (new := .scheduled) hh hq ht hc hp
    (by decide) _ _

theorem updateActivateBody_own {mask t staged : Nat} {s : State} (hh : s.cascade.headstock = true) (ha : s.update.activate = none)
    (ht : activateTimely t s = true) (hm : positionsOf mask = [position s]) (hphase : s.update.phase = .staged)
    (htx : inTxn s (position s) = false) {tk : Ticket} (hf : tk.origin = none) :
    updateActivateBody mask t staged tk s = schedule t (setJob false (some (newJob tk [position s])) s) := by
  have hnamed : namedModules mask s = [position s] := by simp [namedModules, hm]
  have hjob : jobOf (schedule t (setJob false (some (newJob tk [position s])) s)) false = some (newJob tk [position s]) :=
    congrArg UpdateSt.activate (schedule_update ..)
  have hrest : [position s].filter (fun p => p != position s) = [] := by simp
  have hthere : [position s].contains (position s) = true := by simp
  unfold updateActivateBody
  simp only [hf, hh, ha, ht, hnamed, hm, hphase, htx, hrest, hthere, Option.isSome_none, Bool.not_true, Bool.or_self, Bool.false_eq_true, if_false,
    if_true, List.all_cons, List.all_nil, List.any_cons, List.any_nil, decide_true, Bool.and_self, List.foldl_nil]
  exact settleJob_waits hjob (by simp [newJob])

theorem updateActivateBody_late {mask t staged : Nat} {s : State} (hh : s.cascade.headstock = true) (ht : activateTimely t s = false)
    {tk : Ticket} (hf : tk.origin = none) : updateActivateBody mask t staged tk s = complete tk 0x03C0 [] s := by
  simp [updateActivateBody, hf, hh, ht]

theorem unschedule_scheduled {s : State} (h : s.update.phase = .scheduled) :
    unschedule s = enterPhase .staged (idleBank s) (bankVersion s (idleBank s)) (s.modUpdate fun u => { u with activateNs := none }) :=
  if_pos h

theorem unschedule_tends (s : State) : Tends keepUpdate s (unschedule s) := by
  unfold unschedule
  split
  · exact (modUpdate_tends _ s).trans frame_update (enterPhase_tends ..)
  · exact .refl frame_update s

theorem reportJob_none {b : Bool} {s : State} (h : jobOf s b = none) (p : Nat) (ok : Bool) : reportJob b p ok s = s := by
  have hset : setJob b none s = s := by
    cases b
    · change { s with update := { s.update with activate := none } } = s
      rw [← (show s.update.activate = none from h)]
    · change { s with update := { s.update with distribute := none } } = s
      rw [← (show s.update.distribute = none from h)]
  unfold reportJob
  dsimp only
  rw [h, Option.map_none, hset]
  exact settleJob_none h

theorem updateCancelBody_own {mask t : Nat} {s : State} (hm : namedModules mask s = [position s]) (hphase : s.update.phase = .scheduled)
    (hn : s.update.activateNs = some t) (ht : s.time.wall + 100000000 ≤ t) (ha : s.update.activate = none) {tk : Ticket}
    (hf : tk.origin = none) : updateCancelBody mask tk s = complete tk 0 [] (unschedule s) := by
  have htimely : cancelTimely s = true := by
    unfold cancelTimely
    rw [hn]
    exact decide_eq_true ht
  have hjob : jobOf (unschedule s) false = none := by
    rw [unschedule_scheduled hphase]
    exact (congrArg UpdateSt.activate (enterPhase_update ..)).trans ha
  have hrest : [position s].filter (fun p => p != position s) = [] := by simp
  have hany : [position s].any (fun p => p != position s) = false := by simp
  have hthere : [position s].contains (position s) = true := by simp
  unfold updateCancelBody
  simp only [hf, hm, hphase, htimely, hrest, hany, hthere, Option.isSome_none, Bool.and_false, Bool.false_eq_true, if_false, if_true, Bool.not_true,
    bne_self_eq_false, List.foldl_nil, List.foldl_cons, reportJob_none hjob]

/-! ## Hitless update and replacement -/

/-- A hitless update begun at one module of a ready pair (R469). -/
def hitlessBegun (tk : Ticket) (s : State) : Hitless :=
  { ticket := some tk, step := 1, first := s.cascade.role = .standby, caughtUpNs := none, equalSinceNs := none }

/-- Both modules scheduled, the STANDBY one at once. -/
def hitlessScheduled (tk : Ticket) (s : State) : State :=
  (schedule s.time.wall s).modUpdate fun u =>
    { u with hitless := some (hitlessBegun tk s), activateNs := if s.cascade.role = Role.standby then some s.time.wall else none }

theorem hitlessScheduled_tends (tk : Ticket) (s : State) : Tends keepUpdate s (hitlessScheduled tk s) :=
  (schedule_tends ..).trans frame_update (modUpdate_tends ..)

theorem hitlessScheduled_update (tk : Ticket) (s : State) :
    (hitlessScheduled tk s).update = { s.update with
      phase := .scheduled, hitless := some (hitlessBegun tk s), activateNs := if s.cascade.role = Role.standby then some s.time.wall else none } :=
  congrArg (fun u : UpdateSt =>
    { u with hitless := some (hitlessBegun tk s), activateNs := if s.cascade.role = Role.standby then some s.time.wall else none }) (schedule_update ..)

theorem updateHitlessBody_begins {h : Nat} {s : State} (hphase : s.update.phase = .staged) (hi : (stagedImage s).map Colilo.bodyHash = some h)
    (hp : pairReady s = true) (tk : Ticket) :
    updateHitlessBody (some h) false tk s = emit (.message .twin .control "HITLESS" []) (hitlessScheduled tk s) := by
  simp only [updateHitlessBody, hphase, hi, hp, if_true, Option.isNone_some, bne_self_eq_false, Bool.or_self, Bool.not_true, Bool.false_eq_true,
    if_false]
  rfl

theorem updateHitlessBody_unstaged {s : State} (hphase : s.update.phase ≠ .staged) (twin : Option Nat) (tk : Ticket) :
    updateHitlessBody twin false tk s = complete tk 0x06C7 [] s := by
  simp [updateHitlessBody, hphase]

/-- The engines that a replacement names: stream engines, then overlay engines from 32 on (R471). -/
def engineList (streams overlays : Nat) : List Nat :=
  ((List.range 32).filter fun i => bit streams i) ++ ((List.range 8).filter fun i => bit overlays i).map fun i => 32 + i

theorem mem_engineList_stream {streams overlays k : Nat} (hk : k < 32) : k ∈ engineList streams overlays ↔ bit streams k = true := by
  simp only [engineList, List.mem_append, List.mem_filter, List.mem_range, List.mem_map]
  constructor
  · rintro (⟨-, h⟩ | ⟨i, -, rfl⟩)
    · exact h
    · omega
  · exact fun h => .inl ⟨hk, h⟩

theorem mem_engineList_overlay {streams overlays k : Nat} (hk : k < 8) : 32 + k ∈ engineList streams overlays ↔ bit overlays k = true := by
  simp only [engineList, List.mem_append, List.mem_filter, List.mem_range, List.mem_map]
  constructor
  · rintro (⟨h, -⟩ | ⟨i, ⟨-, h⟩, he⟩)
    · omega
    · rwa [show i = k by omega] at h
  · exact fun h => .inr ⟨k, ⟨hk, h⟩, rfl⟩

/-- The replacement begun: SE31 has its new section (R471). -/
def engineBegun (streams overlays : Nat) (tk : Ticket) (s : State) : State :=
  s.modUpdate fun u =>
    { u with
      engine := some { ticket := tk, todo := engineList streams overlays, loaded := false, moved := [], sinceNs := s.time.mono },
      engineVersion := mapPut u.engineVersion 31 (engineNew s) }

theorem updateEngineBody_begins {streams overlays e : Nat} {s : State} (he : s.update.engine = none) (hphase : s.update.phase = .staged)
    (h3 : replaceable s 3 = true) (h4 : replaceable s 4 = true) (hlt : e < 31) (hb : bit streams e = true) (tk : Ticket) :
    updateEngineBody streams overlays tk s = engineBegun streams overlays tk s := by
  have hmem : e ∈ (List.range 32).filter fun i => bit streams i := List.mem_filter.mpr ⟨List.mem_range.mpr (by omega), hb⟩
  have hne : engineList streams overlays ≠ [] := List.ne_nil_of_mem (List.mem_append_left _ hmem)
  have hany : (((List.range 32).filter fun i => bit streams i).any fun i => decide (i < 31)) = true :=
    List.any_eq_true.mpr ⟨e, hmem, decide_eq_true hlt⟩
  unfold updateEngineBody
  dsimp only
  rw [if_neg (by simp [he]), if_neg (by simp [hphase, h3, h4])]
  change (if (engineList streams overlays).isEmpty then _ else _) = _
  rw [if_neg (by simpa using hne)]
  simp only [hany, if_true]
  rfl

/-! ## Confirm and revert -/

/-- The rollback counter raised to that of the image in trial (R465). -/
def counterRaised (s : State) : State :=
  s.modUpdate fun u => { u with rollback := max u.rollback (((bankImage s s.module.bank).map Colilo.rollback).getD 0) }

theorem updateConfirmBody_trial {s : State} (h : s.update.phase = .trial) (tk : Ticket) :
    updateConfirmBody tk s = complete tk 0 [] (enterPhase .idle s.module.bank s.module.fwVersion (counterRaised s)) := by
  simp only [updateConfirmBody, h, bne_self_eq_false, Bool.false_eq_true, if_false]
  rfl

theorem updateConfirmBody_none {s : State} (h : s.update.phase ≠ .trial) (tk : Ticket) : updateConfirmBody tk s = complete tk 0x03C0 [] s := by
  simp [updateConfirmBody, h]

/-- The boot pointer at the other bank, and no update under way (R465). -/
def reverted (s : State) : State :=
  enterPhase .idle s.module.bank s.module.fwVersion (s.modUpdate fun u => { u with bootPointer := otherBank u.bootPointer })

theorem reverted_tends (s : State) : Tends keepUpdate s (reverted s) := (modUpdate_tends _ s).trans frame_update (enterPhase_tends ..)

theorem reverted_update (s : State) :
    (reverted s).update = { s.update with bootPointer := otherBank s.update.bootPointer, phase := .idle } := enterPhase_update ..

theorem updateRevertBody_idle {b : BootFacts} {s : State} (hp : s.update.phase = .idle) (hf : s.module.fallback = true)
    (hb : bankBoots s b (otherBank s.update.bootPointer) = true) (tk : Ticket) : updateRevertBody b tk s = complete tk 0 [] (reverted s) := by
  simp only [updateRevertBody, hp, hf, hb, reduceCtorEq, decide_true, decide_false, Bool.false_or, Bool.not_true, Bool.false_eq_true, if_false,
    Bool.and_self, if_true]
  rfl

theorem updateRevertBody_trial {b : BootFacts} {s : State} (hp : s.update.phase = .trial)
    (hb : bankBoots s b (otherBank s.update.bootPointer) = true) (tk : Ticket) :
    updateRevertBody b tk s = mainReset 4 (some b) (complete tk 0 [] (reverted s)) := by
  simp only [updateRevertBody, hp, hb, reduceCtorEq, decide_true, decide_false, Bool.true_or, Bool.not_true, Bool.false_eq_true, if_false,
    Bool.false_and]
  rfl

theorem updateRevertBody_refuses {b : BootFacts} {s : State} (hp : s.update.phase = .trial ∨ s.update.phase = .idle)
    (hb : bankBoots s b (otherBank s.update.bootPointer) = false) (tk : Ticket) : updateRevertBody b tk s = complete tk 0x06C7 [] s := by
  have hok : (decide (s.update.phase = .trial) || decide (s.update.phase = .idle)) = true := by simpa using hp
  unfold updateRevertBody
  rw [hok, hb]
  rfl

/-! ## What a reset has told stays told -/

theorem mainStopped_adds (cause : Nat) (s : State) : Adds s (mainStopped cause s) := by
  have h1 : Adds s (mainCleared cause s) := (roleGiven_runs s).adds
  exact h1.trans (mainStopped_moves cause s).tells.adds

theorem BootsFrom.adds {cause n : Nat} {b : BootFacts} {f : Bool} {s t : State} (h : BootsFrom cause b n f s t) : Adds s t :=
  (mainStopped_adds cause s).trans h.tends.moves.tells.adds

/-- Settles O48: each command by what it does once its checks pass, or by the check that fails. -/
theorem updateCommandsComplete : Obligations.UpdateCommandsComplete := by
  unfold Obligations.UpdateCommandsComplete
  refine ⟨?status, ?distribute, ?activate, ?activateLate, ?hitless, ?hitlessUnstaged, ?engine, ?confirm, ?confirmNone, ?revertIdle, ?revertTrial,
    ?revertRefused, ?cancel⟩
  case status =>
    intro d s h hd
    exact h.completes rfl (h.writesRecord hd 64 _ [])
  case distribute =>
    intro d mask staged p s h hh hdis hphase hm hp ht
    refine h.completes rfl ?_
    have hbody : updateDistributeBody (position s) mask staged (ticketOf d (cmdKind (.updateDistribute (position s) mask staged)) s)
        (taken d (.updateDistribute (position s) mask staged) s) = _ :=
      updateDistributeBody_one (s := taken d (.updateDistribute (position s) mask staged) s) hh hdis hphase hm hp ht _
    rw [hbody]
    exact ⟨rfl, List.mem_cons_of_mem _ List.mem_cons_self, mapGet_mapPut_self .., rfl⟩
  case activate =>
    intro d mask at_ staged s h hh ha ht hm hphase htx
    refine h.completes rfl ?_
    rw [updateActivateBody_own (s := taken d (.updateActivate mask at_ staged) s) hh ha ht hm hphase htx rfl]
    have hu := schedule_update at_ (setJob false (some (newJob (ticketOf d 0x0C02 s) [position s])) (taken d (.updateActivate mask at_ staged) s))
    have htends := (setJob_tends false (some (newJob (ticketOf d 0x0C02 s) [position s])) (taken d (.updateActivate mask at_ staged) s)).trans
      frame_update (schedule_tends at_ _)
    refine ⟨hu, ?_, ?_, htends.moves.begins frame_update⟩
    · rw [show ∀ u, (schedule at_ u).queue.inFlight = u.queue.inFlight from
        fun u => congrArg HostView.inFlight (schedule_tends at_ u).moves.tells.view]
      exact ticket_in_flight d _ s
    · exact schedule_raises (s := taken d (.updateActivate mask at_ staged) s)
        (u := setJob false (some (newJob (ticketOf d 0x0C02 s) [position s])) (taken d (.updateActivate mask at_ staged) s)) rfl rfl rfl rfl hphase at_
  case activateLate =>
    intro d mask at_ staged s h hh ht
    refine h.completes rfl ?_
    rw [updateActivateBody_late (s := taken d (.updateActivate mask at_ staged) s) hh ht rfl]
    exact h.refused _ []
  case hitless =>
    intro d k s h hphase hi hp
    refine h.completes rfl ?_
    rw [updateHitlessBody_begins (s := taken d (.updateHitless (some k) false) s) hphase hi hp]
    exact ⟨(hitlessScheduled_update _ (taken d (.updateHitless (some k) false) s)).trans
      (by simp only [hitlessBegun, decide_eq_true_eq]; rfl), List.mem_cons_self,
      ((hitlessScheduled_tends _ _).trans frame_update (.emit frame_update ..)).moves.begins frame_update⟩
  case hitlessUnstaged =>
    intro d twin s h hphase
    refine h.completes rfl ?_
    rw [updateHitlessBody_unstaged (s := taken d (.updateHitless twin false) s) hphase]
    exact h.refused _ []
  case engine =>
    intro d streams overlays e s h he hphase h3 h4 hlt hb
    refine h.completes rfl ?_
    rw [updateEngineBody_begins (s := taken d (.updateEngine streams overlays) s) he hphase h3 h4 hlt hb]
    exact ⟨⟨_, rfl, rfl, rfl, rfl, fun k hk => mem_engineList_stream hk, fun k hk => mem_engineList_overlay hk⟩, mapGet_mapPut_self ..,
      (modUpdate_tends _ _).moves.begins frame_update⟩
  case confirm =>
    intro d s h hphase
    refine h.completes rfl ?_
    rw [updateConfirmBody_trial (s := taken d .updateConfirm s) hphase]
    have htends := (modUpdate_tends (fun u => { u with
        rollback := max u.rollback (((bankImage s s.module.bank).map Colilo.rollback).getD 0) }) (taken d .updateConfirm s)).trans frame_update
      (enterPhase_tends .idle s.module.bank s.module.fwVersion _)
    refine ⟨(complete_update ..).trans ((enterPhase_update ..).trans rfl), ?_, htends.ends_update h 0 []⟩
    have hr := enterPhase_raises_from (s := taken d .updateConfirm s) (u := counterRaised (taken d .updateConfirm s)) (old := .trial) (new := .idle)
      rfl rfl rfl rfl hphase (by decide) s.module.bank s.module.fwVersion
    exact Raises.complete hr _ _ _
  case confirmNone =>
    intro d s h hphase
    refine h.completes rfl ?_
    rw [updateConfirmBody_none (s := taken d .updateConfirm s) hphase]
    exact h.refused _ []
  case revertIdle =>
    intro d b s h hphase hfall hb
    refine h.completes rfl ?_
    rw [updateRevertBody_idle (s := taken d (.updateRevert b) s) hphase hfall hb]
    refine ⟨?_, (reverted_tends _).ends_update h 0 []⟩
    rw [complete_update, reverted_update, ← hphase]
    rfl
  case revertTrial =>
    intro d b s h hphase hb
    refine h.completes rfl ?_
    rw [updateRevertBody_trial (s := taken d (.updateRevert b) s) hphase hb]
    let v := reverted (taken d (.updateRevert b) s)
    let u := complete (ticketOf d (cmdKind (.updateRevert b)) s) 0 [] v
    have hu : u.update = { s.update with bootPointer := otherBank s.update.bootPointer, phase := .idle } :=
      (complete_update ..).trans (reverted_update (taken d (.updateRevert b) s))
    have hrep := complete_reporting (ticketOf d (cmdKind (.updateRevert b)) s) 0 [] v
    have hboots : bankBoots u b u.update.bootPointer = true := by
      rw [bankBoots_of_banks (s := s) (by rw [hu]) (by rw [hu]) (by rw [hu]), hu]
      exact hb
    have hphase' : u.update.phase ≠ .receiving := by
      rw [hu]
      nofun
    have hreset := mainReset_first (cause := 4) (b := b) (s := u) (.inl (by decide)) hphase' hboots
      (by rw [bankLost_commanded (by decide)]; nofun)
    obtain ⟨dj, a, k, hm⟩ := mainStopped_update hphase' 4
    have hcount : u.mgmt.bootCount = s.mgmt.bootCount := by
      have hp : u.pair = s.pair := (complete_pair ..).trans (reverted_tends (taken d (.updateRevert b) s)).pair
      rw [← pair_bootCount, hp, pair_bootCount]
    have hts : u.ts = s.ts := hrep.ts.trans (reverted_tends (taken d (.updateRevert b) s)).moves.frame.ts
    have htime : u.time = s.time := hrep.time.trans (reverted_tends (taken d (.updateRevert b) s)).moves.frame.time
    refine ⟨hreset.restarted.of_same hcount (congrArg TsSt.heads hts) (congrArg TimeSt.tRef htime), ?_, ?_,
      ((reverted_tends _).ends_update h 0 []).1.adds hreset.adds⟩
    · rw [hreset.update, hm, hu]
    · rw [hreset.update, hm, hu]
  case revertRefused =>
    intro d b s h hphase hb
    refine h.completes rfl ?_
    rw [updateRevertBody_refuses (s := taken d (.updateRevert b) s) hphase hb]
    exact h.refused _ []
  case cancel =>
    intro d mask at_ s h hm hphase hn ht ha
    refine h.completes rfl ?_
    rw [updateCancelBody_own (s := taken d (.updateCancel mask) s) hm hphase hn ht ha rfl]
    refine ⟨?_, (unschedule_tends _).ends_update h 0 []⟩
    rw [complete_update, unschedule_scheduled (s := taken d (.updateCancel mask) s) hphase, enterPhase_update]
    rfl

end Sys2Proof.Machine
end

-- The course of updates (R463 to R471)
section
/-! SUPPORT. A distributed image as it comes, the activation of a staged bank, the decision of a hitless update and its end, and the work on an
engine. -/

namespace Sys2Proof.Machine

open Sys2Proof

/-! ## The pair halted -/

/-- All but the mailboxes. -/
abbrev keepMbx (s t : State) : State := { t with mbx := s.mbx }

theorem Tends.foldl {keep : State → State → State} (hk : Frame keep) {α : Type} {g : State → α → State} (h : ∀ s x, Tends keep s (g s x))
    (l : List α) (s : State) : Tends keep s (l.foldl g s) := by
  induction l generalizing s with
  | nil => exact .refl hk s
  | cons x l ih => exact (h s x).trans hk (ih _)

theorem modMbx_tends (f : MbxSt → MbxSt) (s : State) : Tends keepMbx s (s.modMbx f) := ⟨⟨.same rfl rfl rfl rfl, rfl⟩, rfl, rfl⟩

theorem lostMessage_tends (r q : Nat) (s : State) : Tends keepMbx s (lostMessage r q s) := by
  unfold lostMessage
  dsimp only
  split
  · exact (modMbx_tends ..).trans frame_mbx (.raiseMod frame_mbx ..)
  · exact modMbx_tends ..

theorem agentReset_tends (agent : Nat) (s : State) : Tends keepMbx s (agentReset agent s) := by
  unfold agentReset
  exact (Tends.foldl frame_mbx (fun s (p : Nat × Slot) => lostMessage_tends agent p.2.sender s) _ s).trans frame_mbx (modMbx_tends ..)

theorem orphanLocks_tends (id : Nat) (s : State) : Tends keepMbx s (orphanLocks id s) := by
  unfold orphanLocks
  exact (modMbx_tends _ s).trans frame_mbx (Tends.foldl frame_mbx (fun s _ => .raiseMod frame_mbx ..) _ _)

/-- The restart of the pair noted, before mail and locks are lost with it (R403). -/
def haltNoted (s : State) : State :=
  s.modMgmt fun m => { m with restarting := true, keptOutputs := if s.mgmt.restarting then s.mgmt.keptOutputs else outputConditions s }

theorem haltPair_tends (s : State) : Tends keepMbx (haltNoted s) (haltPair s) := (agentReset_tends 0 _).trans frame_mbx (orphanLocks_tends 0 _)

@[simp] theorem pair_restarting (s : State) : s.pair.restarting = s.mgmt.restarting := rfl

/-- What the halt of the pair leaves alone, and that it restarts. -/
theorem haltPair_keeps (s : State) :
    (haltPair s).update = s.update ∧ (haltPair s).ts = s.ts ∧ (haltPair s).time = s.time ∧ (haltPair s).module = s.module
      ∧ (haltPair s).mgmt.bootCount = s.mgmt.bootCount ∧ (haltPair s).mgmt.restarting = true := by
  have h := haltPair_tends s
  have hf := h.moves.frame
  refine ⟨hf.update, hf.ts, hf.time, hf.module, ?_, ?_⟩
  · rw [← pair_bootCount, h.pair]
    rfl
  · rw [← pair_restarting, h.pair]
    rfl

/-! ## A distributed image -/

theorem addInbound_tends (source : Nat) (bytes : List Byte) (s : State) : Tends keepUpdate s (addInbound source bytes s) := by
  unfold addInbound
  exact modUpdate_tends ..

/-- More of the body of an image that comes (R466). -/
def moreCome (x : Inbound) (bytes : List Byte) (s : State) : Inbound := { x with body := x.body ++ bytes, lastNs := s.time.mono }

theorem addInbound_adds {source : Nat} {bytes : List Byte} {x : Inbound} {s : State} (h : s.update.inbound = some x) (hx : x.source = source) :
    addInbound source bytes s = { s with update := { s.update with inbound := some (moreCome x bytes s) } } := by
  subst hx
  unfold addInbound State.modUpdate
  simp only [h, Option.map_some, if_true]
  rfl

theorem addInbound_none {source : Nat} {bytes : List Byte} {s : State} (h : s.update.inbound = none) : addInbound source bytes s = s := by
  unfold addInbound State.modUpdate
  simp only [h, Option.map_none]
  rw [← h]

theorem answerDistribution_sends {s : State} (h : s.cascade.headstock = false) (ok : Bool) :
    answerDistribution ok s = emit (.message (headstockBond s) .control "UPDATE_RESULT" [(position s : Int), flag ok]) s := by
  simp [answerDistribution, h]

/-- The image that begins to come, before the phase is told (R466). -/
def inboundBegun (source : Nat) (h : Colilo) (s : State) : State :=
  setBank (idleBank s) none (s.modUpdate fun u => { u with inbound := some { source := source, head := h, body := [], lastNs := s.time.mono } })

theorem inboundBegun_tends (source : Nat) (h : Colilo) (s : State) : Tends keepUpdate s (inboundBegun source h s) :=
  (modUpdate_tends _ s).trans frame_update (setBank_tends ..)

theorem startInbound_begins {source : Nat} {h : Colilo} {s : State} (hp : s.update.phase = .idle) (hf : headerFault h s = 0) :
    startInbound source h s = enterPhase .receiving (idleBank s) h.version (inboundBegun source h s) := by
  simp only [startInbound, hp, hf, reduceCtorEq, decide_false, Bool.false_and, Bool.false_eq_true, if_false, decide_true, Bool.true_or,
    Bool.not_true, bne_self_eq_false]
  rfl

theorem startInbound_refuses {source : Nat} {h : Colilo} {s : State} (hp : s.update.phase = .idle) (hf : headerFault h s ≠ 0) :
    startInbound source h s = answerDistribution false (updateRefused (headerFault h s) 0 h.version s) := by
  simp [startInbound, hp, hf]

/-- The image stored, before the phase is told (R462, R466). -/
def inboundStored (x : Inbound) (s : State) : State :=
  setBank (idleBank s) (some ⟨x.head, x.body⟩) (s.modUpdate fun u => { u with inbound := none })

theorem inboundStored_tends (x : Inbound) (s : State) : Tends keepUpdate s (inboundStored x s) :=
  (modUpdate_tends _ s).trans frame_update (setBank_tends ..)

theorem endInbound_stores {source : Nat} {x : Inbound} {s : State} (h : s.update.inbound = some x) (hx : x.source = source)
    (hb : bodyMatches x.head x.body = true) :
    endInbound source true s = answerDistribution true (enterPhase .staged (idleBank s) x.head.version (inboundStored x s)) := by
  simp only [endInbound, h, hx, hb, bne_self_eq_false, Bool.false_eq_true, if_false, Bool.and_self, if_true]
  rfl

theorem endInbound_discards {source : Nat} {ok : Bool} {x : Inbound} {s : State} (h : s.update.inbound = some x) (hx : x.source = source)
    (hb : ok = false ∨ bodyMatches x.head x.body = false) :
    endInbound source ok s = answerDistribution false (updateRefused 0x06C5 x.body.length x.head.version (dropInbound s)) := by
  have hno : (ok && bodyMatches x.head x.body) = false := by
    obtain hb | hb := hb <;> simp [hb]
  simp only [endInbound, h, hx, hno, bne_self_eq_false, Bool.false_eq_true, if_false]

theorem endInbound_none {source : Nat} {ok : Bool} {s : State} (h : s.update.inbound = none) : endInbound source ok s = s := by
  simp [endInbound, h]

/-- The image gone, before the phase is told. -/
def inboundGone (s : State) : State := setBank (idleBank s) none (s.modUpdate fun u => { u with inbound := none })

theorem inboundGone_tends (s : State) : Tends keepUpdate s (inboundGone s) := (modUpdate_tends _ s).trans frame_update (setBank_tends ..)

theorem dropInbound_drops {x : Inbound} {s : State} (h : s.update.inbound = some x) :
    dropInbound s = enterPhase .idle (idleBank s) 0 (inboundGone s) := by
  unfold dropInbound
  rw [h]
  rfl

/-- What follows the bytes of a message: the end of the image, where the message is the last (R466). -/
def pieceEnded (source : Nat) (last : Option Bool) (s : State) : State :=
  match last with
  | some ok => endInbound source ok s
  | none => s

theorem execDistributionRx_piece {source : Nat} {bytes : List Byte} {s : State} (h : serviceUp s = true) (last : Option Bool) :
    execDistributionRx ⟨source, none, bytes⟩ last s = .next (pieceEnded source last (addInbound source bytes s)) := by
  have hup : ¬ (!serviceUp s) = true := by simp [h]
  cases last
  · exact congrArg Host.Outcome.next (if_neg hup)
  · exact congrArg Host.Outcome.next (if_neg hup)

theorem execDistributionRx_first {source : Nat} {hd : HeaderBytes} {bytes : List Byte} {s : State} (h : serviceUp s = true)
    (last : Option Bool) :
    execDistributionRx ⟨source, some hd, bytes⟩ last s
      = .next (pieceEnded source last (addInbound source bytes (startInbound source (readColilo hd) s))) := by
  have hup : ¬ (!serviceUp s) = true := by simp [h]
  cases last
  · exact congrArg Host.Outcome.next (if_neg hup)
  · exact congrArg Host.Outcome.next (if_neg hup)

/-! ## Activation -/

/-- The staged bank preferred, before the phase is told (R464). -/
def pointerMoved (s : State) : State := s.modUpdate fun u => { u with bootPointer := idleBank s, activateNs := none }

/-- The activation told, and the pair halted (R464). -/
def activationHalted (s : State) : State :=
  haltPair (enterPhase .activating (idleBank s) (bankVersion s (idleBank s)) (pointerMoved s))

theorem activationHalted_keeps (s : State) :
    (activationHalted s).update = { s.update with bootPointer := idleBank s, activateNs := none, phase := .activating }
      ∧ (activationHalted s).ts = s.ts ∧ (activationHalted s).time = s.time ∧ (activationHalted s).mgmt.bootCount = s.mgmt.bootCount
      ∧ (activationHalted s).mgmt.restarting = true := by
  have ht := (modUpdate_tends (fun u => { u with bootPointer := idleBank s, activateNs := none }) s).trans frame_update
    (enterPhase_tends .activating (idleBank s) (bankVersion s (idleBank s)) (pointerMoved s))
  obtain ⟨hupd, hts, htime, -, hcount, hrest⟩ :=
    haltPair_keeps (enterPhase .activating (idleBank s) (bankVersion s (idleBank s)) (pointerMoved s))
  refine ⟨hupd.trans (enterPhase_update ..), hts.trans ht.moves.frame.ts, htime.trans ht.moves.frame.time, hcount.trans ?_, hrest⟩
  rw [← pair_bootCount, ht.pair, pair_bootCount]

theorem reportActivation_none {s : State} (h : s.update.activate = none) (ok : Bool) : reportActivation ok s = s := by
  simp [reportActivation, h]

/-! ## Hitless update -/

theorem updateFailed_tends (cause step bank : Nat) (s : State) : Tends keepUpdate s (updateFailed cause step bank s) := .raiseMod frame_update ..

/-- The hitless update given up, before its command ends (R470). -/
def hitlessGone (cause : Nat) (h : Hitless) (s : State) : State :=
  let u := unschedule (s.modUpdate fun u => { u with hitless := none })
  updateFailed cause h.step (idleBank u) u

theorem hitlessGone_tends (cause : Nat) (h : Hitless) (s : State) : Tends keepUpdate s (hitlessGone cause h s) :=
  ((modUpdate_tends _ s).trans frame_update (unschedule_tends _)).trans frame_update (updateFailed_tends ..)

theorem unschedule_update (s : State) :
    (unschedule s).update = if s.update.phase = .scheduled then { s.update with activateNs := none, phase := .staged } else s.update := by
  by_cases h : s.update.phase = .scheduled
  · rw [unschedule_scheduled h, enterPhase_update, if_pos h]
    rfl
  · rw [if_neg h, unschedule, if_neg h]

theorem hitlessGone_update (cause : Nat) (h : Hitless) (s : State) :
    (hitlessGone cause h s).update.hitless = none ∧ (hitlessGone cause h s).update.phase ≠ .scheduled := by
  have hu : (hitlessGone cause h s).update = (unschedule (s.modUpdate fun u => { u with hitless := none })).update :=
    (raiseMod_reporting ..).update
  rw [hu, unschedule_update]
  split
  · exact ⟨rfl, nofun⟩
  · next hne => exact ⟨rfl, hne⟩

theorem stopHitless_ends {cause : Nat} {h : Hitless} {tk : Ticket} {s : State} (hs : s.update.hitless = some h) (ht : h.ticket = some tk) :
    stopHitless cause s = complete tk 0x03C0 [] (hitlessGone cause h s) := by
  simp only [stopHitless, hs, ht]
  rfl

/-! ## Engines -/

/-- An engine with its new section, before it is told (R471). -/
def sectionLoaded (e : Nat) (s : State) : State := s.modUpdate fun u => { u with engineVersion := mapPut u.engineVersion e (engineNew s) }

theorem loadEngine_eq (e : Nat) (s : State) :
    loadEngine e s = raiseMod 0x0C83 [it 1 e, it 4 (engineRuns s e), it 4 (engineNew s)] (sectionLoaded e s) := rfl

theorem loadEngine_tends (e : Nat) (s : State) : Tends keepUpdate s (loadEngine e s) :=
  (modUpdate_tends _ s).trans frame_update (.raiseMod frame_update ..)

theorem loadEngine_update (e : Nat) (s : State) :
    (loadEngine e s).update = { s.update with engineVersion := mapPut s.update.engineVersion e (engineNew s) } := (raiseMod_reporting ..).update

theorem workEngine_loads {e : Nat} {j : EngineJob} {s : State} (he : e < 31) (hl : j.loaded = false) (hc : carried s e = []) :
    workEngine e j s = (loadEngine e s).modUpdate fun u => { u with engine := some { j with loaded := true, sinceNs := s.time.mono } } := by
  have h32 : ¬ 32 ≤ e := by omega
  have h31 : e ≠ 31 := by omega
  have hm : ({ j with moved := j.moved ++ [] } : EngineJob) = j := by rw [List.append_nil]
  unfold workEngine
  simp only [h32, h31, hl, hc, moveStreams, List.isEmpty_nil, Bool.false_eq_true, if_false, if_true]
  rw [show ({ ticket := j.ticket, todo := j.todo, loaded := true, moved := j.moved ++ [], sinceNs := s.time.mono } : EngineJob)
    = { j with loaded := true, sinceNs := s.time.mono } by rw [List.append_nil]]

theorem workEngine_done {e : Nat} {j : EngineJob} {s : State} (he : e < 31) (hl : j.loaded = true) (hm : j.moved = []) :
    workEngine e j s = nextEngine j s := by
  have h32 : ¬ 32 ≤ e := by omega
  have h31 : e ≠ 31 := by omega
  unfold workEngine
  simp only [h32, h31, hl, hm, moveStreams, List.filter_nil, List.isEmpty_nil, if_false, if_true]

theorem execEngineStreamMove_works {e : Nat} {j : EngineJob} {s : State} (hj : s.update.engine = some j) (ht : j.todo = [e])
    (hu : mainUp s = true) : execEngineStreamMove e s = .next (workEngine e j s) := by
  simp [execEngineStreamMove, hj, ht, hu]

theorem startInbound_starts {source : Nat} {h : Colilo} {s : State} (hp : s.update.phase = .idle) (hf : headerFault h s = 0) :
    Tends keepUpdate s (startInbound source h s) ∧ (startInbound source h s).update.phase = .receiving
      ∧ (startInbound source h s).update.inbound = some { source := source, head := h, body := [], lastNs := s.time.mono }
      ∧ bankStored (startInbound source h s) (idleBank s) = none := by
  rw [startInbound_begins hp hf]
  obtain ⟨a, b, hbanks⟩ := setBank_banks (idleBank s) none
    (s.modUpdate fun u => { u with inbound := some { source := source, head := h, body := [], lastNs := s.time.mono } })
  refine ⟨(inboundBegun_tends source h s).trans frame_update (enterPhase_tends ..), ?_, ?_, ?_⟩
  · rw [enterPhase_update]
  · rw [enterPhase_update, inboundBegun, hbanks]
    rfl
  · rw [bankStored_enterPhase, inboundBegun, bankStored_setBank]

theorem setBank_inbound (n : Nat) (x : Option Image) (s : State) : (setBank n x s).update.inbound = s.update.inbound := by
  obtain ⟨a, b, h⟩ := setBank_banks n x s
  rw [h]

theorem dropInbound_drops_bank {x : Inbound} {s : State} (h : s.update.inbound = some x) :
    Tends keepUpdate s (dropInbound s) ∧ (dropInbound s).update.phase = .idle ∧ (dropInbound s).update.inbound = none
      ∧ bankStored (dropInbound s) (idleBank s) = none := by
  rw [dropInbound_drops h]
  refine ⟨(inboundGone_tends s).trans frame_update (enterPhase_tends ..), ?_, ?_, ?_⟩
  · rw [enterPhase_update]
  · rw [enterPhase_update]
    exact setBank_inbound ..
  · rw [bankStored_enterPhase, inboundGone, bankStored_setBank]

/-- An answer over the ring, sent after steps that change update alone (R466). -/
theorem answer_after {s u : State} (hh : s.cascade.headstock = false) (hu : Tends keepUpdate s u) (ok : Bool) :
    (answerDistribution ok u).update = u.update
      ∧ Out.message (headstockBond s) .control "UPDATE_RESULT" [(position s : Int), flag ok] ∈ (answerDistribution ok u).outbox
      ∧ Tends keepUpdate s (answerDistribution ok u) := by
  have hc : u.cascade = s.cascade := hu.moves.frame.cascade
  have hpos : position u = position s := by
    unfold position
    rw [hc]
  rw [answerDistribution_sends (by rw [hc]; exact hh), headstockBond_congr hc, hpos]
  exact ⟨rfl, List.mem_cons_self, hu.trans frame_update (.emit frame_update ..)⟩

theorem modUpdate_update (f : UpdateSt → UpdateSt) (s : State) : (s.modUpdate f).update = f s.update := rfl

theorem decideSwap_runs (auto hitless : Bool) (tk : Option Ticket) (s : State) : Runs keepCascade s (decideSwap auto hitless tk s) :=
  Runs.trans (b := s.modCascade _) frame_cascade ⟨.refl s, rfl, rfl⟩ (.emit frame_cascade ..)

theorem heldFor_iff (s : State) (t n : Nat) : heldFor s (some t) n = true ↔ t + n ≤ s.time.mono := by simp [heldFor]

theorem execHitlessSwapDecision_decides {h : Hitless} {since : Nat} {s : State} (hs : s.update.hitless = some h) (hf : h.first = false)
    (h4 : h.step = 4) (hr : s.cascade.role = .active) (hw : s.cascade.swap = none) (he : h.equalSinceNs = some since)
    (hd : since + second ≤ s.time.mono) :
    execHitlessSwapDecision (BitVec.ofNat 8192 (wholeBitmap s)) s = .next (decideSwap false true none s) := by
  obtain ⟨ticket, step, first, caught, equal⟩ := h
  dsimp only at hf h4 he
  subst hf h4 he
  have hsame : s.modUpdate (fun u => { u with hitless := some ⟨ticket, 4, false, caught, some since⟩ }) = s := by
    rw [← hs]
    rfl
  have hheld := (heldFor_iff s since second).mpr hd
  unfold execHitlessSwapDecision
  simp only [hs, hr, hw, Option.isSome_none, bne_self_eq_false, Bool.or_self, Bool.false_eq_true, if_false, if_true,
    Option.getD_some, hsame, hheld]

theorem execHitlessTimeout_stops {h : Hitless} {since : Nat} {s : State} (hs : s.update.hitless = some h) (h4 : h.step = 4)
    (hw : s.cascade.swap = none) (hc : h.caughtUpNs = some since) (hd : since + 30 * second ≤ s.time.mono) :
    execHitlessTimeout s = .next (stopHitless 1 s) := by
  have hheld := (heldFor_iff s since (30 * second)).mpr hd
  unfold execHitlessTimeout
  simp only [hs, h4, hw, hc, hheld, Option.isNone_none, decide_true, Bool.and_self, if_true]

theorem execActivationInstant_due {b : BootFacts} {at_ : Nat} {s : State} (hp : s.update.phase = .scheduled)
    (ha : s.update.activateNs = some at_) (hd : at_ ≤ s.time.wall) (hm : s.module.mode ≠ .off) :
    execActivationInstant b s = .next (mainReset 4 (some b) (activationHalted s)) := by
  have hdue : (activationDue s && s.module.mode != .off) = true := by simp [activationDue, hp, ha, hd, hm]
  unfold execActivationInstant
  rw [if_pos hdue]
  rfl

/-- The activation's reset boots the staged bank and leaves the pair restarting (R464). -/
theorem activationHalted_boots {b : BootFacts} {s : State} (hb : bankBoots s b (idleBank s) = true) :
    BootsFrom 4 b (idleBank s) false (activationHalted s) (mainReset 4 (some b) (activationHalted s)) := by
  obtain ⟨hu, -, -, -, -⟩ := activationHalted_keeps s
  have hptr : (activationHalted s).update.bootPointer = idleBank s := by rw [hu]
  have h := mainReset_first (cause := 4) (b := b) (s := activationHalted s) (.inl (by decide)) (by rw [hu]; exact nofun)
    (by rw [hptr, bankBoots_of_banks (s := s) (by rw [hu]) (by rw [hu]) (by rw [hu])]; exact hb)
    (by rw [bankLost_commanded (by decide)]; exact nofun)
  rwa [hptr] at h

theorem BootsFrom.restarting {cause n : Nat} {b : BootFacts} {f : Bool} {s t : State} (h : BootsFrom cause b n f s t) :
    t.mgmt.restarting = s.mgmt.restarting := by
  obtain ⟨removed, hp⟩ := mainStopped_pair cause s
  have hstop := congrArg MgmtSt.restarting hp
  have ht := congrArg MgmtSt.restarting h.tends.pair
  exact ht.trans hstop

theorem execActivationSetup_trial {s : State} (hp : s.update.phase = .activating) (hi : inService s = true)
    (hb : s.module.bank = s.update.bootPointer) (ha : s.update.activate = none) (hh : s.update.hitless = none) :
    execActivationSetup s = .next (enterPhase .trial s.module.bank s.module.fwVersion s) := by
  have hnone : (enterPhase .trial s.module.bank s.module.fwVersion s).update.activate = none := by rw [enterPhase_update]; exact ha
  unfold execActivationSetup
  simp only [hp, hi, hb, hh, Option.map_none, Option.getD_none, bne_self_eq_false, Bool.not_true, Bool.or_self, Bool.false_eq_true, if_false,
    if_true, id]
  rw [← hb, reportActivation_none hnone]

theorem execActivationSetup_fallback {s : State} (hp : s.update.phase = .activating) (hi : inService s = true)
    (hb : s.module.bank ≠ s.update.bootPointer) (ha : s.update.activate = none) (hh : s.update.hitless = none) :
    execActivationSetup s
      = .next (updateFailed 0 0 s.update.bootPointer (enterPhase .idle s.module.bank s.module.fwVersion s)) := by
  have hu : (updateFailed 0 0 s.update.bootPointer (enterPhase .idle s.module.bank s.module.fwVersion s)).update
      = { s.update with phase := .idle } := (raiseMod_reporting ..).update.trans (enterPhase_update ..)
  have hnone : (updateFailed 0 0 s.update.bootPointer (enterPhase .idle s.module.bank s.module.fwVersion s)).update.activate = none := by
    rw [hu]; exact ha
  have hptr : (enterPhase .idle s.module.bank s.module.fwVersion s).update.bootPointer = s.update.bootPointer := by rw [enterPhase_update]
  have hhit : (enterPhase .idle s.module.bank s.module.fwVersion s).update.hitless = none := by rw [enterPhase_update]; exact hh
  unfold execActivationSetup
  simp only [hp, hi, hb, hptr, hhit, Option.isSome_none, bne_self_eq_false, Bool.not_true, Bool.or_self, Bool.false_eq_true, if_false]
  rw [reportActivation_none hnone]

theorem nextEngine_last {j : EngineJob} {e : Nat} {s : State} (h : j.todo = [e]) :
    nextEngine j s = complete j.ticket 0 [] (s.modUpdate fun u => { u with engine := none }) := by
  simp only [nextEngine, h]

/-- Settles O50: each event of an update by the one step it takes. -/
theorem updatesRunTheirCourse : Obligations.UpdatesRunTheirCourse := by
  unfold Obligations.UpdatesRunTheirCourse
  refine ⟨?begin, ?piece, ?store, ?discard, ?refuse, ?instant, ?trial, ?fallback, ?swap, ?timeout, ?load, ?done⟩
  case begin =>
    intro source h bytes s hup hh hp hf
    obtain ⟨ht, hphase, hin, hbank⟩ := startInbound_starts (source := source) hp hf
    refine completes_of_exec (execDistributionRx_first hup none) ?_
    dsimp only [pieceEnded]
    rw [addInbound_adds hin rfl]
    refine ⟨hphase, hbank, ?_, ht.reporting_update⟩
    simp only [moreCome, List.nil_append]
    rw [ht.moves.frame.time]
  case piece =>
    intro source bytes x s hup hin hx
    exact completes_of_exec (execDistributionRx_piece hup none) (addInbound_adds hin hx)
  case store =>
    intro source bytes x s hup hh hp hin hx hb
    refine completes_of_exec (execDistributionRx_piece hup (some true)) ?_
    dsimp only [pieceEnded]
    have ha := addInbound_tends source bytes s
    have hidle : idleBank (addInbound source bytes s) = idleBank s := idleBank_of_module ha.moves.frame.module
    have hadd : (addInbound source bytes s).update.inbound = some (moreCome x bytes s) := by rw [addInbound_adds hin hx]
    rw [endInbound_stores hadd hx hb, hidle]
    have hs := ha.trans frame_update ((inboundStored_tends (moreCome x bytes s) (addInbound source bytes s)).trans frame_update
      (enterPhase_tends .staged (idleBank s) (moreCome x bytes s).head.version _))
    obtain ⟨hu, hmsg, ht⟩ := answer_after hh hs true
    refine ⟨?_, ?_, ?_, hmsg, ht.reporting_update⟩
    · rw [hu, enterPhase_update]
    · rw [hu, enterPhase_update]
      exact setBank_inbound ..
    · rw [bankStored_of_update ⟨_, hu⟩, bankStored_enterPhase, inboundStored, hidle, bankStored_setBank]
      rfl
  case discard =>
    intro source bytes ok x s hup hh hp hin hx hb
    refine completes_of_exec (execDistributionRx_piece hup (some ok)) ?_
    dsimp only [pieceEnded]
    have ha := addInbound_tends source bytes s
    have hidle : idleBank (addInbound source bytes s) = idleBank s := idleBank_of_module ha.moves.frame.module
    have hadd : (addInbound source bytes s).update.inbound = some (moreCome x bytes s) := by rw [addInbound_adds hin hx]
    obtain ⟨hd, hphase, hnone, hbank⟩ := dropInbound_drops_bank hadd
    rw [endInbound_discards hadd hx hb]
    have hs := (ha.trans frame_update hd).trans frame_update
      (updateRefused_tends 0x06C5 (moreCome x bytes s).body.length (moreCome x bytes s).head.version _).update_of_all
    obtain ⟨hu, hmsg, ht⟩ := answer_after hh hs false
    rw [hidle] at hbank
    have hupd := hu.trans (updateRefused_update ..)
    refine ⟨?_, ?_, ?_, hmsg, ht.reporting_update⟩
    · rw [hupd, hphase]
    · rw [hupd, hnone]
    · rw [← hbank]
      unfold bankStored
      rw [hupd]
  case refuse =>
    intro source h bytes last s hup hh hp hin hf
    have hs := (updateRefused_tends (headerFault (readColilo h) s) 0 (readColilo h).version s).update_of_all
    obtain ⟨hu, hmsg, ht⟩ := answer_after hh hs false
    have hnone : (answerDistribution false (updateRefused (headerFault (readColilo h) s) 0 (readColilo h).version s)).update.inbound = none := by
      rw [hu, updateRefused_update]
      exact hin
    have hexec : execDistributionRx ⟨source, some h, bytes⟩ last s
        = .next (answerDistribution false (updateRefused (headerFault (readColilo h) s) 0 (readColilo h).version s)) := by
      rw [execDistributionRx_first hup, startInbound_refuses hp hf, addInbound_none hnone]
      cases last with
      | none => rfl
      | some ok => exact congrArg _ (endInbound_none hnone)
    refine completes_of_exec hexec ⟨?_, hmsg, ?_⟩
    · rw [answerDistribution_sends (by rw [hs.moves.frame.cascade]; exact hh)]
      exact Raises.tells (updateRefused_raises (headerFault (readColilo h) s) 0 (readColilo h).version s) ((Tells.refl _).emit _)
    · have hrep := ht.reporting_update
      rwa [← updateRefused_update (headerFault (readColilo h) s) 0 (readColilo h).version s, ← hu] at hrep
  case instant =>
    intro b at_ s hp ha hd hm hb
    refine completes_of_exec (execActivationInstant_due hp ha hd hm) ?_
    obtain ⟨hu, hts, htime, hcount, hrest⟩ := activationHalted_keeps s
    have h := activationHalted_boots hb
    obtain ⟨d, a, k, hstop⟩ := mainStopped_update (s := activationHalted s) (by rw [hu]; exact nofun) 4
    have hupd := h.update.trans hstop
    refine ⟨h.restarted.of_same hcount (by rw [hts]) (by rw [htime]), ?_, ?_, ?_, h.place.1, h.restarting.trans hrest⟩
    · rw [hupd, hu]
    · rw [hupd, hu]
    · rw [hupd, hu]
  case trial =>
    intro s hp hi hb ha hh
    refine completes_of_exec (execActivationSetup_trial hp hi hb ha hh) ⟨enterPhase_update .., ?_, (enterPhase_tends ..).reporting_update⟩
    exact enterPhase_raises_from (s := s) (u := s) rfl rfl rfl rfl hp (by decide) s.module.bank s.module.fwVersion
  case fallback =>
    intro s hp hi hb ha hh
    exact completes_of_exec (execActivationSetup_fallback hp hi hb ha hh)
      ⟨(raiseMod_reporting ..).update.trans (enterPhase_update ..),
        ((enterPhase_tends ..).trans frame_update (updateFailed_tends ..)).reporting_update⟩
  case swap =>
    intro h since s hs hf h4 hr hw he hd
    have hsec : second = 1000000000 := rfl
    rw [← hsec] at hd
    exact completes_of_exec (execHitlessSwapDecision_decides hs hf h4 hr hw he hd)
      ⟨rfl, List.mem_cons_self, rfl, (decideSwap_runs false true none s).frame⟩
  case timeout =>
    intro h since tk s hs h4 hw hc hd hk
    have hsec : 30 * second = 30000000000 := rfl
    rw [← hsec] at hd
    refine completes_of_exec (execHitlessTimeout_stops hs h4 hw hc hd) ?_
    rw [stopHitless_ends hs hk]
    obtain ⟨hnone, hphase⟩ := hitlessGone_update 1 h s
    have hfin := (hitlessGone_tends 1 h s).moves.finishes frame_update tk 0x03C0 []
    exact ⟨by rw [complete_update]; exact hnone, by rw [complete_update]; exact hphase, hfin.1, hfin.2⟩
  case load =>
    intro e j s hj ht hup he hl hc
    refine completes_of_exec (execEngineStreamMove_works hj ht hup) ?_
    rw [workEngine_loads he hl hc]
    refine ⟨?_, ?_, ((loadEngine_tends e s).trans frame_update (modUpdate_tends ..)).reporting_update⟩
    · rw [modUpdate_update, loadEngine_update]
    · exact raise_raises 0x0C83 .module (position s) _ s (sectionLoaded e s) false rfl rfl rfl rfl rfl rfl
  case done =>
    intro e j s hj ht hup he hl hm
    refine completes_of_exec (execEngineStreamMove_works hj ht hup) ?_
    rw [workEngine_done he hl hm, nextEngine_last ht]
    have hfin := (modUpdate_tends (fun u => { u with engine := none }) s).moves.finishes frame_update j.ticket 0 []
    exact ⟨(complete_update ..).trans rfl, hfin.1, hfin.2⟩

end Sys2Proof.Machine
end

-- The effects of a step of the ladder (R409, R412)
section
/-! SUPPORT. What reads memory, writes the ledger or decodes leaves the management pair's figures as they are; so do the effects of a step of
the ladder, which differ in the parts they act on. -/

namespace Sys2Proof.Machine

open Sys2Proof

/-! ## The figures of the management pair -/

/-- The state of the management pair without its log and without the internal faults it counts. -/
def State.figures (s : State) : MgmtSt := { s.pair with internals := [] }

theorem figures_of_pair {s t : State} (h : t.pair = s.pair) : t.figures = s.figures := by rw [State.figures, h, State.figures]

theorem figures_of_mgmt {s t : State} (h : t.mgmt = s.mgmt) : t.figures = s.figures := by rw [State.figures, State.pair, h, State.figures, State.pair]

@[simp] theorem figures_modMem (f : MemSt → MemSt) (s : State) : (s.modMem f).figures = s.figures := rfl

@[simp] theorem figures_modGates (f : GateSt → GateSt) (s : State) : (s.modGates f).figures = s.figures := rfl

@[simp] theorem figures_memWrite (a : Nat) (l : List Byte) (s : State) : (memWrite a l s).figures = s.figures := rfl

@[simp] theorem figures_draw (s : State) : (draw s).2.figures = s.figures := rfl

@[simp] theorem figures_raise (c : Nat) (k : ScopeKind) (i : Nat) (l : Items) (s : State) (a : Bool) : (raise c k i l s a).figures = s.figures :=
  figures_of_pair (raise_onlyEvents ..).pair

@[simp] theorem figures_raiseMod (c : Nat) (l : Items) (s : State) : (raiseMod c l s).figures = s.figures := figures_raise ..

@[simp] theorem figures_raiseLimited (p key n c : Nat) (k : ScopeKind) (i : Nat) (mk : Nat → Items) (s : State) :
    (raiseLimited p key n c k i mk s).figures = s.figures := figures_of_pair (raiseLimited_onlyEvents ..).pair

@[simp] theorem figures_logInternal (unit detail : Nat) (s : State) : (logInternal unit detail s).figures = s.figures :=
  (figures_of_pair (logAdd_onlyEvents ..).pair).trans rfl

@[simp] theorem figures_tellUnraised (s : State) : (tellUnraised s).figures = s.figures := by
  unfold tellUnraised
  split <;> simp

@[simp] theorem figures_noteUncorrectable (b cls : Nat) (stays : Bool) (s : State) : (noteUncorrectable b cls stays s).figures = s.figures := by
  simp [noteUncorrectable, apply_ite State.figures]

@[simp] theorem figures_countCorrected (sub dev : Nat) (s : State) : (countCorrected sub dev s).figures = s.figures := by
  unfold countCorrected
  dsimp only
  split <;> simp

theorem figures_foldl {α : Type} {g : State → α → State} (h : ∀ s x, (g s x).figures = s.figures) (l : List α) (s : State) :
    (l.foldl g s).figures = s.figures := by
  induction l generalizing s with
  | nil => rfl
  | cons x l ih => exact (ih _).trans (h s x)

@[simp] theorem figures_noteCorrected (a : Nat) (devs : List Nat) (s : State) : (noteCorrected a devs s).figures = s.figures := by
  unfold noteCorrected
  split
  · rfl
  · exact (figures_raiseLimited ..).trans (figures_foldl (fun s d => figures_countCorrected _ d s) devs s)

@[simp] theorem figures_readBurst (b cls : Nat) (errors : BeatErrors) (s : State) : (readBurst b cls errors s).2.figures = s.figures := by
  unfold readBurst
  dsimp only
  split
  · simp
  · split
    · simp
    · simp
    · split <;> simp

@[simp] theorem figures_readBursts (cls : Nat) (errors : BeatErrors) (l : List Nat) (s : State) :
    (readBursts cls errors l s).2.figures = s.figures := by
  induction l generalizing errors s with
  | nil => rfl
  | cons b l ih => exact (ih ..).trans (figures_readBurst ..)

@[simp] theorem figures_meetErrors (a n cls : Nat) (s : State) : (meetErrors a n cls s).2.figures = s.figures := figures_readBursts ..

@[simp] theorem figures_writeAt (a cls : Nat) (errors : BeatErrors) (l : List Byte) (s : State) : (writeAt a cls errors l s).figures = s.figures := by
  simp [writeAt]

@[simp] theorem figures_performWrite (a : Access) (n : Nat) (p : PartCheck) (q : Option PartCheck) (s : State) :
    (performWrite a n p q s).figures = s.figures := by
  unfold performWrite
  dsimp only
  cases q <;> simp [apply_ite State.figures]

@[simp] theorem figures_recordFault (gate : Nat) (a : Access) (n : Nat) (p : PartCheck) (q : Option PartCheck) (s : State) :
    (recordFault gate a n p q s).figures = s.figures := by
  unfold recordFault
  dsimp only
  split <;> simp [apply_ite State.figures]

@[simp] theorem figures_servedRead (a : Access) (s : State) : (servedRead a s).2.2.figures = s.figures := by
  have part (p : Bool) (b n cls : Nat) (u : State) : (if p then meetErrors b n cls u else ([], u)).2.figures = u.figures := by
    cases p
    · rfl
    · exact figures_meetErrors ..
  exact (part ..).trans (part ..)

@[simp] theorem figures_gateDo (gate : Nat) (a : Access) (s : State) : (gateDo gate a s).2.2.figures = s.figures := by
  simp [gateDo, apply_ite State.figures]

theorem figures_gatedReadN (who : Initiator) (c : Context) (tag : Option Nat) (fuel addr n : Nat) (r : List Byte × Bool × Bool × Bool × State) :
    (gatedReadN who c tag fuel addr n r).2.2.2.2.figures = r.2.2.2.2.figures := by
  induction fuel generalizing addr n r with
  | zero => rfl
  | succ fuel ih =>
    unfold gatedReadN
    split
    · rfl
    · exact (ih ..).trans ((figures_gateDo ..).trans (figures_servedRead ..))

@[simp] theorem figures_gatedRead (who : Initiator) (c : Context) (tag : Option Nat) (addr n : Nat) (s : State) :
    (gatedRead who c tag addr n s).2.2.2.2.figures = s.figures := figures_gatedReadN _ _ _ _ _ _ ([], false, false, false, s)

/-! ## Work that keeps the figures -/

/-- The parts that `keep` sets back may differ; of the management pair its log and the internal faults counted, and what reports. -/
structure Works (keep : State → State → State) (s t : State) : Prop where
  moves : Moves keep s t
  figures : t.figures = s.figures

section
variable {keep : State → State → State} (hk : Frame keep)
include hk

theorem Works.refl (s : State) : Works keep s s := ⟨.refl hk s, rfl⟩

theorem Works.trans {a b c : State} (h : Works keep a b) (k : Works keep b c) : Works keep a c :=
  ⟨h.moves.trans hk k.moves, k.figures.trans h.figures⟩

theorem Works.foldl {α : Type} {g : State → α → State} (h : ∀ s x, Works keep s (g s x)) (l : List α) (s : State) : Works keep s (l.foldl g s) :=
  ⟨.foldl hk (fun s x => (h s x).moves) l s, figures_foldl (fun s x => (h s x).figures) l s⟩

theorem Works.widen {keep' : State → State → State} {s t : State} (h : Works keep' s t) (he : keep s (keep' s t) = keep s t) : Works keep s t :=
  ⟨h.moves.widen hk he, h.figures⟩

theorem Works.emit (o : Out) (s : State) : Works keep s (emit o s) := ⟨Moves.emit hk (.refl hk s) o, rfl⟩

theorem Works.raise (c : Nat) (k : ScopeKind) (i : Nat) (l : Items) (s : State) (a : Bool) : Works keep s (raise c k i l s a) :=
  ⟨Moves.raise hk (.refl hk s) c k i l a, figures_raise ..⟩

theorem Works.raiseLimited (p key n c : Nat) (k : ScopeKind) (i : Nat) (mk : Nat → Items) (s : State) :
    Works keep s (raiseLimited p key n c k i mk s) :=
  ⟨.of_reporting hk (raiseLimited_tells ..) (raiseLimited_reporting ..), figures_raiseLimited ..⟩

omit hk in
theorem Works.ite {c : Prop} [Decidable c] {s a b : State} (ha : c → Works keep s a) (hb : ¬ c → Works keep s b) :
    Works keep s (if c then a else b) := by
  split
  · next h => exact ha h
  · next h => exact hb h

end

theorem Tends.works {keep : State → State → State} {s t : State} (h : Tends keep s t) : Works keep s t := ⟨h.moves, figures_of_pair h.pair⟩

/-! ## The ledger -/

/-- All but the ledger and the runs of overlays that its sources make due. -/
abbrev keepSources (s t : State) : State := { t with ledger := s.ledger, overlay := s.overlay }

theorem frame_sources : Frame keepSources where
  back _ _ _ _ _ _ _ := rfl
  again _ _ _ := rfl
  self _ := rfl

theorem setEntry_works (k : Nat) (e : Entry) (s : State) : Works keepSources s (setEntry k e s) := ⟨⟨.same rfl rfl rfl rfl, rfl⟩, rfl⟩

theorem modLedger_works (f : LedgerSt → LedgerSt) (s : State) : Works keepSources s (s.modLedger f) := ⟨⟨.same rfl rfl rfl rfl, rfl⟩, rfl⟩

theorem sendVerdict_works (k : Nat) (live : Bool) (s : State) : Works keepSources s (sendVerdict k live s) := by
  have own := (modLedger_works (fun l => { l with seqOwn := (s.ledger.seqOwn + 1) % 65536 }) s).trans frame_sources (.emit frame_sources
    (.verdict .toTailstock ((s.ledger.seqOwn + 1) % 65536) [(k, live)]) _)
  unfold sendVerdict
  dsimp only
  split
  · exact own.trans frame_sources ((modLedger_works _ _).trans frame_sources (.emit frame_sources ..))
  · exact own

theorem addDue_works (b : Nat) (d : DueRun) (s : State) : Works keepSources s (addDue b d s) := ⟨⟨.same rfl rfl rfl rfl, rfl⟩, rfl⟩

theorem onSourceState_works (k : Nat) (st : SrcState) (s : State) : Works keepSources s (onSourceState k st s) :=
  .foldl frame_sources (fun s _ => .ite (fun _ => addDue_works ..) fun _ => .refl frame_sources s) _ s

theorem writeEntry_works (k : Nat) (e : Entry) (cause : Cause) (s : State) : Works keepSources s (writeEntry k e cause s) := by
  have told (c : Prop) [Decidable c] (old : SrcState) (x : Entry) (n : Nat) (u : State) :
      Works keepSources u (if c then raiseState k old x n u else u) :=
    .ite (fun _ => .raise frame_sources ..) fun _ => .refl frame_sources u
  have sent (c : Prop) [Decidable c] (b : Bool) (u : State) : Works keepSources u (if c then u else sendVerdict k b u) :=
    .ite (fun _ => .refl frame_sources u) fun _ => sendVerdict_works ..
  unfold writeEntry
  dsimp only
  split
  · exact (setEntry_works ..).trans frame_sources (sent _ _ _)
  · exact ((((told _ _ _ _ s).trans frame_sources (setEntry_works ..)).trans frame_sources (told _ _ _ _ _)).trans frame_sources (sent _ _ _)).trans
      frame_sources (onSourceState_works ..)

theorem refreshChildren_works (k : Nat) (s : State) : Works keepSources s (refreshChildren k s) :=
  .foldl frame_sources (fun _ _ => writeEntry_works ..) _ s

theorem changeEntry_works (k : Nat) (e : Entry) (cause : Cause) (s : State) : Works keepSources s (changeEntry k e cause s) :=
  (writeEntry_works ..).trans frame_sources (refreshChildren_works ..)

theorem shedAll_works (s : State) : Works keepSources s (shedAll s) :=
  .foldl frame_sources (fun s _ => .ite (fun _ => changeEntry_works ..) fun _ => .refl frame_sources s) _ s

/-! ## Decoding begun -/

/-- All but streams, decoding, and what reading module DRAM changes. -/
abbrev keepDecoding (s t : State) : State :=
  { t with ingest := s.ingest, decode := s.decode, mem := s.mem, gates := s.gates, free := s.free }

theorem frame_decoding : Frame keepDecoding where
  back _ _ _ _ _ _ _ := rfl
  again _ _ _ := rfl
  self _ := rfl

theorem modStream_works (k : Nat) (f : Stream → Stream) (s : State) : Works keepDecoding s (modStream k f s) := ⟨⟨.same rfl rfl rfl rfl, rfl⟩, rfl⟩

theorem modAttach_works (k : Nat) (f : Attach → Attach) (s : State) : Works keepDecoding s (modAttach k f s) := ⟨⟨.same rfl rfl rfl rfl, rfl⟩, rfl⟩

theorem setPipe_works (p : Nat) (x : Pipeline) (s : State) : Works keepDecoding s (setPipe p x s) := ⟨⟨.same rfl rfl rfl rfl, rfl⟩, rfl⟩

theorem raiseBehind_works (k cause n : Nat) (s : State) : Works keepDecoding s (raiseBehind k cause n s) :=
  .ite (fun _ => .refl frame_decoding s) fun _ =>
    .ite (fun _ => .raiseLimited frame_decoding ..) fun _ => .raise frame_decoding ..

theorem purgeUnits_works (k : Nat) (s : State) : Works keepDecoding s (purgeUnits k s) := by
  unfold purgeUnits
  split
  · exact .refl frame_decoding s
  · dsimp only
    split
    · exact (modStream_works ..).trans frame_decoding (modAttach_works ..)
    · split
      · exact ((modStream_works ..).trans frame_decoding (modAttach_works ..)).trans frame_decoding (raiseBehind_works ..)
      · exact .refl frame_decoding s

theorem gatedRead_works (who : Initiator) (c : Context) (tag : Option Nat) (addr n : Nat) (s : State) :
    Works keepDecoding s (gatedRead who c tag addr n s).2.2.2.2 := by
  have h := gatedRead_accesses who c tag addr n s
  exact ⟨⟨h.tells, frame_decoding.widen (g := fun t => { t with mem := s.mem, gates := s.gates, free := s.free }) h.frame rfl⟩,
    figures_gatedRead ..⟩

/-- One piece of an access unit read: what was refused or poisoned before, or now. -/
def readPiece (p : Nat) (b : AttachBody) (r : Bool × Bool × State) (q : Nat × Nat) : Bool × Bool × State :=
  let g := gatedRead ⟨4, p⟩ (decodeContext b) none q.1 q.2 r.2.2
  (r.1 || g.2.2.1, r.2.1 || g.2.2.2.1, g.2.2.2.2)

theorem readPieces_works (p : Nat) (b : AttachBody) (l : List (Nat × Nat)) (r : Bool × Bool × State) :
    Works keepDecoding r.2.2 (l.foldl (readPiece p b) r).2.2 := by
  induction l generalizing r with
  | nil => exact .refl frame_decoding _
  | cons q l ih => exact Works.trans frame_decoding (b := (readPiece p b r q).2.2) (gatedRead_works ..) (ih (readPiece p b r q))

theorem readUnit_works (p : Nat) (b : AttachBody) (x : Stream) (u : AccessUnit) (s : State) : Works keepDecoding s (readUnit p b x u s).2.2 :=
  readPieces_works p b _ (false, false, s)

theorem beginUnit_works (p k slot : Nat) (a : Attach) (u : AccessUnit) (s : State) : Works keepDecoding s (beginUnit p k slot a u s) := by
  have hread : Works keepDecoding s (match mapGet s.ingest.streams k with
      | some x => readUnit p a.body x u s
      | none => (false, false, s)).2.2 := by
    split
    · exact readUnit_works ..
    · exact .refl frame_decoding s
  exact (hread.trans frame_decoding (setPipe_works ..)).trans frame_decoding (modAttach_works ..)

theorem startDecodeN_works (n p : Nat) (s : State) : Works keepDecoding s (startDecodeN n p s) := by
  induction n generalizing s with
  | zero => exact .refl frame_decoding s
  | succ n ih =>
    unfold startDecodeN
    split
    · exact .refl frame_decoding s
    · split
      · exact .refl frame_decoding s
      · dsimp only
        split
        · exact (modStream_works ..).trans frame_decoding (beginUnit_works ..)
        · exact ((((modStream_works ..).trans frame_decoding (modAttach_works ..)).trans frame_decoding (raiseBehind_works ..)).trans
            frame_decoding (purgeUnits_works ..)).trans frame_decoding (ih _)

theorem startDecode_works (p : Nat) (s : State) : Works keepDecoding s (startDecode p s) := by
  have purged (l : List (Nat × Attach)) (u : State) : Works keepDecoding u (l.foldl (fun s a => purgeUnits a.1 s) u) :=
    .foldl frame_decoding (fun _ _ => purgeUnits_works ..) l u
  have emptied (l : List (Nat × Attach)) (u : State) :
      Works keepDecoding u (l.foldl (fun s a => modStream a.1 (fun x => { x with units := [] }) s) u) :=
    .foldl frame_decoding (fun _ _ => modStream_works ..) l u
  unfold startDecode
  dsimp only
  split
  · exact .refl frame_decoding s
  · split
    · exact (purged _ s).trans frame_decoding (emptied _ _)
    · exact (purged _ s).trans frame_decoding (startDecodeN_works ..)

theorem shedDecode_works (s : State) : Works keepDecoding s (shedDecode s) := .foldl frame_decoding (fun _ p => startDecode_works p _) _ s

end Sys2Proof.Machine
end

-- Faults, the ladder and the restarts of the pair (R403, R407 to R415)
section
/-! SUPPORT. A fault withdraws the role and may remove V_CORE; a step of the ladder sets the step and the mode and acts on what is shed; a
restart of the pair acts on mail and locks alone. -/

namespace Sys2Proof.Machine

open Sys2Proof

/-! ## The role in a fault -/

@[simp] theorem modCascade_cascade (f : CascadeSt → CascadeSt) (s : State) : (s.modCascade f).cascade = f s.cascade := rfl

theorem checkHeadstock_role (cause : Nat) (s : State) : (checkHeadstock cause s).cascade.role = s.cascade.role := by
  unfold checkHeadstock
  split
  · rw [giveHeadstock_cascade]
  · rfl

theorem complete_cascade (tk : Ticket) (st : Nat) (l : Items) (s : State) : (complete tk st l s).cascade = s.cascade :=
  (complete_reporting ..).cascade

theorem endSwap_role (st : Nat) (s : State) : (endSwap st s).cascade.role = s.cascade.role := by
  unfold endSwap
  split
  · rfl
  · dsimp only
    split
    · rw [complete_cascade]
      rfl
    · rfl

theorem setRole_role (new : Role) (cause : Nat) (s : State) : (setRole new cause s).cascade.role = new := by
  unfold setRole
  dsimp only
  split
  · next h => exact h
  · have h : ∀ (f : CascadeSt → CascadeSt) (c : Nat), (f s.cascade).role = new →
        (checkHeadstock c (roleEvent s.cascade.role new cause (s.modCascade f))).cascade.role = new := fun f c hf => by
      rw [checkHeadstock_role, (roleEvent_tends ..).moves.frame.cascade]
      exact hf
    split
    · exact h _ _ rfl
    · rw [endSwap_role]
      exact h _ _ rfl

theorem faultTaken_role (cause : Nat) (s : State) : (faultTaken cause s).cascade.role = .withdrawn := by
  unfold faultTaken
  rw [(txnOwnFault_tends _).moves.frame.cascade, checkHeadstock_role, setRole_role]

theorem enterFault_withdraws {cause : Nat} {s : State} (hoff : s.module.mode ≠ .off) (hfault : s.module.mode ≠ .fault) (hc : cause ≠ 4)
    (hc' : cause ≠ 5) (detail : Nat) :
    (enterFault cause detail s).module.mode = .fault ∧ (enterFault cause detail s).mgmt.faultCause = cause
      ∧ (enterFault cause detail s).cascade.role = .withdrawn := by
  obtain ⟨hmod, hpair⟩ := enterFault_enters hoff hfault hc hc' detail
  refine ⟨by rw [hmod], by rw [← pair_faultCause, hpair], ?_⟩
  rw [enterFault_keepsCore hoff hfault hc hc']
  exact (congrArg CascadeSt.role (raiseMod_reporting ..).cascade).trans (faultTaken_role ..)

/-! ## Lanes -/

/-- The lanes of a lane's bond counted again, and a change told, before the beat's path is looked at (R322). -/
def bondCounted (k before : Nat) (s : State) : State :=
  if (lanesUp s (bondOfLane k)).length = before then s
  else
    raise 0x0EA2 .port (laneScope k) [it 1 before, it 1 (lanesUp s (bondOfLane k)).length]
      (modBond (bondOfLane k) (fun x => { x with downNs := if (lanesUp s (bondOfLane k)).length = 0 then some s.time.mono else none }) s)

theorem bondCounted_tends (k before : Nat) (s : State) : Tends keepAll s (bondCounted k before s) := by
  unfold bondCounted
  split
  · exact .refl frame_all s
  · exact Tends.trans (b := modBond _ _ s) frame_all ⟨⟨.same rfl rfl rfl rfl, rfl⟩, rfl, rfl⟩ (.raise frame_all ..)

theorem bondCounted_cascade (k before : Nat) (s : State) : (bondCounted k before s).cascade = s.cascade :=
  (bondCounted_tends k before s).moves.frame.cascade

/-- The paths of the beat as they are after a change of a lane (R341). -/
def beatPaths (b : Bond) (lane : Option Nat) (s : State) : State :=
  match b with
  | .east => s.modCascade fun c => { c with east := relink lane (beatLane s .east) c.east }
  | .west => s.modCascade fun c => { c with west := relink lane (beatLane s .west) c.west }
  | _ => s

theorem beatPaths_tends (b : Bond) (lane : Option Nat) (s : State) : Tends keepCascade s (beatPaths b lane s) := by
  unfold beatPaths
  split
  · exact ⟨⟨⟨rfl, .refl _, List.Subset.refl _⟩, rfl⟩, rfl, rfl⟩
  · exact ⟨⟨⟨rfl, .refl _, List.Subset.refl _⟩, rfl⟩, rfl, rfl⟩
  · exact .refl frame_cascade s

theorem beatPaths_role (b : Bond) (lane : Option Nat) (s : State) : (beatPaths b lane s).cascade.role = s.cascade.role := by
  unfold beatPaths
  split <;> rfl

theorem afterLane_eq (k before : Nat) (lane : Option Nat) (s : State) :
    afterLane k before lane s = beatPaths (bondOfLane k) lane (bondCounted k before s) := rfl

theorem afterLane_tends (k before : Nat) (lane : Option Nat) (s : State) : Tends keepCascade s (afterLane k before lane s) := by
  rw [afterLane_eq]
  exact ((bondCounted_tends ..).widen frame_cascade rfl).trans frame_cascade (beatPaths_tends ..)

theorem afterLane_role (k before : Nat) (lane : Option Nat) (s : State) : (afterLane k before lane s).cascade.role = s.cascade.role := by
  rw [afterLane_eq, beatPaths_role, bondCounted_cascade]

/-- The state of a lane put, and told, before its bond is looked at (R322). -/
def lanePut (k new cause : Nat) (s : State) : State :=
  raise 0x0EA0 .port (laneScope k) [it 1 (laneNo k), it 1 (laneRt s k).state, it 1 new, it 1 cause]
    (modLane k (fun l => { l with state := new, sinceNs := s.time.mono, crcSlots := [] }) s)

theorem setLane_changes {k new : Nat} {s : State} (h : (laneRt s k).state ≠ new) (cause : Nat) :
    setLane k new cause s = afterLane k (lanesUp s (bondOfLane k)).length (beatLane s (bondOfLane k)) (lanePut k new cause s) := if_neg h

theorem lanePut_tends (k new cause : Nat) (s : State) : Tends keepCascade s (lanePut k new cause s) :=
  Tends.trans (b := modLane k _ s) frame_cascade ⟨⟨.same rfl rfl rfl rfl, rfl⟩, rfl, rfl⟩ (.raise frame_cascade ..)

theorem setLane_tends (k new cause : Nat) (s : State) : Tends keepCascade s (setLane k new cause s) := by
  by_cases h : (laneRt s k).state = new
  · rw [show setLane k new cause s = s from if_pos h]
    exact .refl frame_cascade s
  · rw [setLane_changes h]
    exact (lanePut_tends ..).trans frame_cascade (afterLane_tends ..)

theorem setLane_role (k new cause : Nat) (s : State) : (setLane k new cause s).cascade.role = s.cascade.role := by
  by_cases h : (laneRt s k).state = new
  · rw [show setLane k new cause s = s from if_pos h]
  · rw [setLane_changes h, afterLane_role]
    exact congrArg CascadeSt.role (raise_reporting ..).cascade

/-- What a lane is put into when the lanes go to the low-rate state (R326). -/
def sleepLane (s : State) (k : Nat) : State :=
  if k = 0 || k = 4 then (if (laneRt s k).state = 3 then setLane k 5 6 s else s) else setLane k 0 6 s

theorem sleepLane_keeps (s : State) (k : Nat) : Tends keepCascade s (sleepLane s k) ∧ (sleepLane s k).cascade.role = s.cascade.role := by
  unfold sleepLane
  split
  · split
    · exact ⟨setLane_tends .., setLane_role ..⟩
    · exact ⟨.refl frame_cascade s, rfl⟩
  · exact ⟨setLane_tends .., setLane_role ..⟩

theorem lanesSleep_keeps (twin : Bool) (s : State) : Tends keepCascade s (lanesSleep twin s) ∧ (lanesSleep twin s).cascade.role = s.cascade.role := by
  refine ⟨Tends.foldl frame_cascade (g := sleepLane) (fun s k => (sleepLane_keeps s k).1) _ s, ?_⟩
  have h : ∀ (l : List Nat) (u : State), (l.foldl sleepLane u).cascade.role = u.cascade.role := by
    intro l
    induction l with
    | nil => exact fun _ => rfl
    | cons k l ih => exact fun u => (ih _).trans (sleepLane_keeps u k).2
  exact h _ s

/-! ## V_CORE removed -/

/-- The fault orders sent, and V_CORE noted as removed, before the lanes sleep (R415). -/
def coreOff (s : State) : State :=
  (emit (.message .west .control "FAULT_ORDER" []) (emit (.message .east .control "FAULT_ORDER" []) s)).modMgmt fun m =>
    { m with vcoreRemoved := true }

@[simp] theorem pair_vcoreRemoved (s : State) : s.pair.vcoreRemoved = s.mgmt.vcoreRemoved := rfl

theorem coreOff_module (s : State) : (coreOff s).module = s.module := rfl

theorem coreOff_cascade (s : State) : (coreOff s).cascade = s.cascade := rfl

theorem coreOff_pair (s : State) : (coreOff s).pair = { s.pair with vcoreRemoved := true } := rfl

theorem Tends.cascade_module {s t : State} (h : Tends keepCascade s t) : t.module = s.module := h.moves.frame.module

theorem raiseMod_cascade (c : Nat) (l : Items) (s : State) : (raiseMod c l s).cascade = s.cascade := (raiseMod_reporting ..).cascade

theorem enterFault_removes {cause : Nat} {s : State} (hoff : s.module.mode ≠ .off) (hfault : s.module.mode ≠ .fault)
    (hc : cause = 4 ∨ cause = 5) (detail : Nat) :
    enterFault cause detail s = raiseMod 0x0B85 [it 1 cause, it 2 detail] (lanesSleep false (coreOff (faultTaken cause s))) := by
  have hcore : (decide (cause = 4) || decide (cause = 5)) = true := by
    obtain rfl | rfl := hc <;> rfl
  unfold enterFault
  simp only [hoff, hfault, decide_false, Bool.or_self, Bool.false_eq_true, if_false, hcore, if_true]
  rfl

/-- A fault that removes V_CORE (R414, R415). -/
theorem enterFault_takesCore {cause : Nat} {s : State} (hoff : s.module.mode ≠ .off) (hfault : s.module.mode ≠ .fault)
    (hc : cause = 4 ∨ cause = 5) (detail : Nat) :
    (enterFault cause detail s).module = { s.module with mode := .fault }
      ∧ (enterFault cause detail s).pair = { s.pair with faultCause := cause, testFloor := none, vcoreRemoved := true }
      ∧ (enterFault cause detail s).cascade.role = .withdrawn
      ∧ Tells (coreOff (faultTaken cause s)) (enterFault cause detail s) := by
  rw [enterFault_removes hoff hfault hc]
  obtain ⟨hsleep, hrole⟩ := lanesSleep_keeps false (coreOff (faultTaken cause s))
  have h := hsleep.trans frame_cascade (Tends.raiseMod frame_cascade 0x0B85 [it 1 cause, it 2 detail] _)
  refine ⟨?_, ?_, ?_, h.moves.tells⟩
  · rw [h.cascade_module, coreOff_module, faultTaken_module]
  · rw [h.pair, coreOff_pair, (faultTaken_runs cause s).pair]
    rfl
  · rw [raiseMod_cascade, hrole, coreOff_cascade, faultTaken_role]

/-! ## A step of the ladder -/

/-- All but what a step of the ladder acts on (R409). -/
abbrev keepShed (s t : State) : State :=
  { t with
    ledger := s.ledger, overlay := s.overlay, ingest := s.ingest, decode := s.decode, record := s.record, mem := s.mem, gates := s.gates,
    free := s.free }

theorem frame_shed : Frame keepShed where
  back _ _ _ _ _ _ _ := rfl
  again _ _ _ := rfl
  self _ := rfl

theorem Works.shed_of_sources {s t : State} (h : Works keepSources s t) : Works keepShed s t := h.widen frame_shed rfl

theorem Works.shed_of_decoding {s t : State} (h : Works keepDecoding s t) : Works keepShed s t := h.widen frame_shed rfl

theorem recordStep_works (s : State) : Works keepShed s (recordStep s) := by
  unfold recordStep
  split
  · exact .refl frame_shed s
  · exact Works.trans frame_shed (b := s.modRecord _) ⟨⟨.same rfl rfl rfl rfl, rfl⟩, rfl⟩
      (.foldl frame_shed (fun _ _ => .raise frame_shed ..) _ _)

theorem proxyLadder_works (s : State) : Works keepShed s (proxyLadder s) := by
  unfold proxyLadder
  split
  · exact .refl frame_shed s
  · refine .foldl frame_shed (fun s p => ?_) _ s
    exact Works.trans frame_shed (b := s.modIngest _) ⟨⟨.same rfl rfl rfl rfl, rfl⟩, rfl⟩
      (.ite (fun _ => .raise frame_shed ..) fun _ => .refl frame_shed _)

/-- The step put, before it is told (R409). -/
def stepPut (new : Nat) (s : State) : State := s.modMgmt fun m => { m with step := new }

/-- The step put, and told. -/
def stepTold (new cause margin : Nat) (s : State) : State :=
  raiseMod 0x0B81 [it 1 s.mgmt.step, it 1 new, it 1 cause, it 2 (stepPut new s).mgmt.vcoreMv, it 2 margin] (stepPut new s)

/-- What is shed at the step in force, and what no longer is, done. -/
def stepActed (new cause margin : Nat) (s : State) : State := shedDecode (shedAll (proxyLadder (recordStep (stepTold new cause margin s))))

/-- Of some sources, that their probes run or stop, told (R126). -/
def probesTold (running : Bool) (cause : Nat) (l : List Nat) (s : State) : State := l.foldl (fun s k => raiseProbe k running cause s) s

theorem probesTold_works (running : Bool) (cause : Nat) (l : List Nat) (s : State) : Works keepShed s (probesTold running cause l s) :=
  .foldl frame_shed (fun _ _ => .raise frame_shed ..) l s

/-- The probes that stop and those that start, told. -/
def probesFelt (before : List Nat) (s : State) : State :=
  probesTold true 2 ((probing s).filter fun k => !before.contains k) (probesTold false 1 (before.filter fun k => !(probing s).contains k) s)

theorem probesFelt_works (before : List Nat) (s : State) : Works keepShed s (probesFelt before s) :=
  (probesTold_works ..).trans frame_shed (probesTold_works ..)

/-- The mode that goes with a step, put (R409). -/
def stepMode (new : Nat) (s : State) : State :=
  if s.module.mode = .run && new != 0 then setMode .lean s else if s.module.mode = .lean && new = 0 then setMode .run s else s

theorem setStep_eq (new cause margin : Nat) (s : State) :
    setStep new cause margin s = stepMode new (probesFelt (probing s) (stepActed new cause margin s)) := by
  unfold setStep stepMode probesFelt probesTold stepActed stepTold stepPut
  rfl

theorem stepActed_works (new cause margin : Nat) (s : State) : Works keepShed (stepTold new cause margin s) (stepActed new cause margin s) :=
  (((recordStep_works (stepTold new cause margin s)).trans frame_shed (proxyLadder_works _)).trans frame_shed (shedAll_works _).shed_of_sources).trans
    frame_shed (shedDecode_works _).shed_of_decoding

/-- The mode that goes with a step (R409). -/
def modeAtStep (new : Nat) (m : ModState) : ModState := if m = .run && new != 0 then .lean else if m = .lean && new = 0 then .run else m

/-- All but what a step of the ladder acts on, and the mode. -/
abbrev keepLadder (s t : State) : State := { keepShed s t with module := s.module, cascade := s.cascade }

theorem frame_ladder : Frame keepLadder where
  back _ _ _ _ _ _ _ := rfl
  again _ _ _ := rfl
  self _ := rfl

theorem Works.ladder_of_shed {s t : State} (h : Works keepShed s t) : Works keepLadder s t := h.widen frame_ladder rfl

theorem Works.ladder_of_mode {s t : State} (h : Works keepModuleCascade s t) : Works keepLadder s t := h.widen frame_ladder rfl

theorem stepMode_works (new : Nat) (s : State) : Works keepLadder s (stepMode new s) :=
  .ite (fun _ => (setMode_tends ..).works.ladder_of_mode) fun _ =>
    .ite (fun _ => (setMode_tends ..).works.ladder_of_mode) fun _ => .refl frame_ladder s

theorem stepMode_module (new : Nat) (s : State) : (stepMode new s).module = { s.module with mode := modeAtStep new s.module.mode } := by
  unfold stepMode modeAtStep
  split
  · exact setMode_module ..
  · split
    · exact setMode_module ..
    · rfl

theorem Works.shed_module {s t : State} (h : Works keepShed s t) : t.module = s.module := h.moves.frame.module

theorem Works.ladder_time {s t : State} (h : Works keepLadder s t) : t.time = s.time := h.moves.frame.time

theorem stepTold_module (new cause margin : Nat) (s : State) : (stepTold new cause margin s).module = s.module := (raiseMod_reporting ..).module

theorem stepTold_time (new cause margin : Nat) (s : State) : (stepTold new cause margin s).time = s.time := (raiseMod_reporting ..).time

theorem stepTold_figures (new cause margin : Nat) (s : State) : (stepTold new cause margin s).figures = { s.figures with step := new } :=
  figures_raiseMod ..

theorem setStep_works (new cause margin : Nat) (s : State) : Works keepLadder (stepTold new cause margin s) (setStep new cause margin s) := by
  rw [setStep_eq]
  exact ((stepActed_works new cause margin s).trans frame_shed (probesFelt_works ..)).ladder_of_shed.trans frame_ladder (stepMode_works ..)

theorem setStep_module (new cause margin : Nat) (s : State) :
    (setStep new cause margin s).module = { s.module with mode := modeAtStep new s.module.mode } := by
  have h := ((stepActed_works new cause margin s).trans frame_shed (probesFelt_works (probing s) _)).shed_module
  rw [setStep_eq, stepMode_module, h, stepTold_module]

theorem setStep_figures (new cause margin : Nat) (s : State) : (setStep new cause margin s).figures = { s.figures with step := new } :=
  (setStep_works new cause margin s).figures.trans (stepTold_figures ..)

/-- A step is told (R409). -/
theorem setStep_raises {s u : State} (hh : u.host = s.host) (hq : u.queue = s.queue) (ht : u.time = s.time) (hc : u.cascade = s.cascade)
    (new cause margin : Nat) :
    Raises 0x0B81 .module (position s) [it 1 u.mgmt.step, it 1 new, it 1 cause, it 2 u.mgmt.vcoreMv, it 2 margin] s
      (setStep new cause margin u) := by
  have hpos : position u = position s := by
    unfold position
    rw [hc]
  have told : Raises 0x0B81 .module (position s) [it 1 u.mgmt.step, it 1 new, it 1 cause, it 2 u.mgmt.vcoreMv, it 2 margin] s
      (stepTold new cause margin u) := by
    unfold stepTold raiseMod
    rw [show position (stepPut new u) = position s from hpos]
    exact raise_raises _ _ _ _ s (stepPut new u) false hh (congrArg QueueSt.events hq) (congrArg QueueSt.seqs hq)
      (congrArg QueueSt.evtMasks hq) hpos (congrArg TimeSt.wall ht)
  exact Raises.tells told (setStep_works new cause margin u).moves.tells

/-! ## A step taken -/

/-- When a step is taken, noted (R407). -/
def takeNoted (s : State) : State := s.modMgmt fun m => { m with lastTakeNs := some s.time.mono, projectedSince := some s.time.mono }

theorem takeStep_eq (cause margin : Nat) (s : State) : takeStep cause margin s = setStep (s.mgmt.step + 1) cause margin (takeNoted s) := rfl

theorem takeStep_figures (cause margin : Nat) (s : State) :
    (takeStep cause margin s).figures
      = { s.figures with step := s.mgmt.step + 1, lastTakeNs := some s.time.mono, projectedSince := some s.time.mono } := by
  rw [takeStep_eq, setStep_figures]
  rfl

theorem takeStep_module (cause margin : Nat) (s : State) :
    (takeStep cause margin s).module = { s.module with mode := modeAtStep (s.mgmt.step + 1) s.module.mode } := by
  rw [takeStep_eq, setStep_module]
  rfl

theorem modeAtStep_taken (n : Nat) (m : ModState) : modeAtStep (n + 1) m = if m = .run then .lean else m := by
  cases m <;> rfl

theorem takeStep_time (cause margin : Nat) (s : State) : (takeStep cause margin s).time = s.time := by
  rw [takeStep_eq, (setStep_works ..).ladder_time, stepTold_time]
  rfl

theorem takeStep_raises {s u : State} (hh : u.host = s.host) (hq : u.queue = s.queue) (ht : u.time = s.time) (hc : u.cascade = s.cascade)
    (cause margin : Nat) :
    Raises 0x0B81 .module (position s) [it 1 u.mgmt.step, it 1 (u.mgmt.step + 1), it 1 cause, it 2 u.mgmt.vcoreMv, it 2 margin] s
      (takeStep cause margin u) := setStep_raises (u := takeNoted u) hh hq ht hc (u.mgmt.step + 1) cause margin

theorem takeStep_tells (cause margin : Nat) (s : State) : Tells s (takeStep cause margin s) := by
  have told : Tells s (stepTold (s.mgmt.step + 1) cause margin (takeNoted s)) :=
    Tells.trans (b := stepPut (s.mgmt.step + 1) (takeNoted s)) (.same rfl rfl rfl rfl) (raise_tells ..)
  exact told.trans (setStep_works (s.mgmt.step + 1) cause margin (takeNoted s)).moves.tells

/-! ## Restarts of the pair -/

/-- The restart told, before the pair halts (R403). -/
def restartTold (cause n : Nat) (s : State) : State := raiseMod 0x0B84 [it 1 cause, it 4 n] s

/-- The outputs that a halt keeps (R434). -/
def keptAtHalt (s : State) : List Bool := if s.mgmt.restarting then s.mgmt.keptOutputs else outputConditions s

theorem haltNoted_pair (s : State) : (haltNoted s).pair = { s.pair with restarting := true, keptOutputs := keptAtHalt s } := rfl

theorem restartTold_pair (cause n : Nat) (s : State) : (restartTold cause n s).pair = s.pair := (raiseMod_onlyEvents ..).pair

theorem haltNoted_reporting (s : State) : Reporting s (haltNoted s) := rfl

theorem restartPair_tends (cause n : Nat) (s : State) : Tends keepMbx (haltNoted (restartTold cause n s)) (restartPair cause n s) :=
  haltPair_tends (restartTold cause n s)

theorem restartPair_keeps (cause n : Nat) (s : State) :
    Reporting s { restartPair cause n s with mbx := s.mbx } ∧ (restartPair cause n s).module = s.module
      ∧ ∃ l, (restartPair cause n s).pair = { s.pair with restarting := true, keptOutputs := l } := by
  have h := restartPair_tends cause n s
  have hframe : Reporting s (keepMbx s (restartPair cause n s)) :=
    frame_mbx.trans (frame_mbx.of_reporting (b := haltNoted (restartTold cause n s)) ((raiseMod_reporting ..).trans (haltNoted_reporting _))) h.moves.frame
  refine ⟨hframe, h.moves.frame.module.trans (raiseMod_reporting ..).module, keptAtHalt (restartTold cause n s), ?_⟩
  rw [h.pair, haltNoted_pair, restartTold_pair]

theorem restartPair_raises {s u : State} (hh : u.host = s.host) (hq : u.queue = s.queue) (ht : u.time = s.time) (hc : u.cascade = s.cascade)
    (cause n : Nat) : Raises 0x0B84 .module (position s) [it 1 cause, it 4 n] s (restartPair cause n u) := by
  have hpos : position u = position s := by
    unfold position
    rw [hc]
  have told : Raises 0x0B84 .module (position s) [it 1 cause, it 4 n] s (restartTold cause n u) := by
    unfold restartTold raiseMod
    rw [hpos]
    exact raise_raises _ _ _ _ s u false hh (congrArg QueueSt.events hq) (congrArg QueueSt.seqs hq) (congrArg QueueSt.evtMasks hq) hpos
      (congrArg TimeSt.wall ht)
  have hnoted : Tells (restartTold cause n u) (haltNoted (restartTold cause n u)) := .same rfl rfl rfl rfl
  exact Raises.tells told (hnoted.trans (restartPair_tends cause n u).moves.tells)

end Sys2Proof.Machine
end

-- The management pair (R23, R403 to R412, R416 to R419)
section
/-! SUPPORT. Its commands, its sensors, and the governor. -/

namespace Sys2Proof.Machine

open Sys2Proof

/-! ## Maintenance -/

/-- The floor of a ladder test put. -/
def floorPut (o : Option Nat) (s : State) : State := s.modMgmt fun m => { m with testFloor := o }

/-- The mode that MAINTENANCE is left for (R23, R409). -/
def maintenanceLeft (s : State) : State :=
  let s := if s.host.run then setMode .run s else setMode .setup s
  if s.host.run && s.mgmt.step != 0 then setMode .lean s else s

theorem Tends.run {keep : State → State → State} {s t : State} (h : Tends keep s t) : t.host.run = s.host.run := by rw [h.host]

theorem Tends.step {keep : State → State → State} {s t : State} (h : Tends keep s t) : t.mgmt.step = s.mgmt.step := by
  have hp := congrArg MgmtSt.step h.pair
  exact hp

theorem maintenanceLeft_keeps (s : State) :
    Tends keepModuleCascade s (maintenanceLeft s)
      ∧ (maintenanceLeft s).module = { s.module with mode := if s.host.run then (if s.mgmt.step = 0 then .run else .lean) else .setup } := by
  unfold maintenanceLeft
  cases hrun : s.host.run with
  | false =>
    have h := setMode_tends .setup s
    simp only [Bool.false_eq_true, if_false, h.run, hrun, Bool.false_and]
    exact ⟨h, setMode_module ..⟩
  | true =>
    have h := setMode_tends .run s
    simp only [if_true, h.run, hrun, Bool.true_and, h.step]
    by_cases h0 : s.mgmt.step = 0
    · simp only [h0, bne_self_eq_false, Bool.false_eq_true, if_false, if_true]
      exact ⟨h, setMode_module ..⟩
    · simp only [h0, bne_iff_ne, ne_eq, not_false_eq_true, if_true, if_false]
      exact ⟨h.trans frame_moduleCascade (setMode_tends ..), by rw [setMode_module, setMode_module]⟩

theorem mgmtMaintenanceBody_leave {tk : Ticket} {s : State} (h : s.module.mode = .maintenance) :
    mgmtMaintenanceBody 0 tk s = complete tk 0 [] (maintenanceLeft (floorPut none s)) := by
  simp only [mgmtMaintenanceBody, h, Nat.not_lt_zero, if_false, bne_self_eq_false, Bool.false_eq_true, Nat.zero_ne_one]
  rfl

theorem mgmtMaintenanceBody_enter {tk : Ticket} {s : State} (h : s.module.mode = .setup ∨ s.module.mode = .run ∨ s.module.mode = .lean) :
    mgmtMaintenanceBody 1 tk s = complete tk 0 [] (setMode .maintenance s) := by
  have hm : (decide (s.module.mode = .setup) || decide (s.module.mode = .run) || decide (s.module.mode = .lean)) = true := by
    simpa [or_assoc] using h
  simp only [mgmtMaintenanceBody, Nat.lt_irrefl, if_false, if_true, hm]

theorem mgmtMaintenanceBody_refused {enter : Nat} {tk : Ticket} {s : State} (h : 1 < enter) :
    mgmtMaintenanceBody enter tk s = complete tk 0x01B0 [] s := if_pos h

/-- A change of mode is told (R3). -/
theorem setMode_raises {m : ModState} {s : State} (h : s.module.mode ≠ m) :
    Raises 0x0B80 .module (position s) [it 1 s.module.mode.value, it 1 m.value, it 1 s.mgmt.faultCause] s (setMode m s) := by
  rw [setMode_told h]
  exact raise_raises 0x0B80 .module (position s) _ s (modePut m s) false rfl rfl rfl rfl rfl rfl

/-! ## The ladder test -/

theorem raiseTo_reaches {n f : Nat} {s : State} (h : f ≤ s.mgmt.step + n) (hm : s.module.mode ≠ .run) :
    (raiseTo n f s).mgmt.step = max s.mgmt.step f ∧ (raiseTo n f s).mgmt.testFloor = s.mgmt.testFloor
      ∧ (raiseTo n f s).module = s.module := by
  induction n generalizing s with
  | zero => exact ⟨(Nat.max_eq_left h).symm, rfl, rfl⟩
  | succ n ih =>
    unfold raiseTo
    by_cases hlt : s.mgmt.step < f
    · rw [if_pos hlt]
      have hfig := takeStep_figures 3 (marginPm (leastBlock s.mgmt.blocks)) s
      have hmod := takeStep_module 3 (marginPm (leastBlock s.mgmt.blocks)) s
      rw [modeAtStep_taken, if_neg hm] at hmod
      have hstep := congrArg MgmtSt.step hfig
      have hfloor := congrArg MgmtSt.testFloor hfig
      generalize takeStep 3 (marginPm (leastBlock s.mgmt.blocks)) s = t at hstep hfloor hmod ⊢
      change t.mgmt.step = s.mgmt.step + 1 at hstep
      obtain ⟨h1, h2, h3⟩ := ih (s := t) (by omega) (by rw [hmod]; exact hm)
      exact ⟨by omega, h2.trans hfloor, h3.trans hmod⟩
    · rw [if_neg hlt]
      exact ⟨by omega, rfl, rfl⟩

theorem mgmtLadderTestBody_served {step : Nat} {tk : Ticket} {s : State} (h : step ≤ 5) (hm : s.module.mode ≠ .maintenance) :
    mgmtLadderTestBody step tk s = complete tk 0x03B1 [] s := by
  simp [mgmtLadderTestBody, Nat.not_lt.mpr h, hm]

theorem mgmtLadderTestBody_raises {step : Nat} {tk : Ticket} {s : State} (h1 : 1 ≤ step) (h : step ≤ 5) (hm : s.module.mode = .maintenance) :
    mgmtLadderTestBody step tk s = complete tk 0 [] (raiseTo 5 step (floorPut (some step) s)) := by
  have h0 : step ≠ 0 := by omega
  simp only [mgmtLadderTestBody, Nat.not_lt.mpr h, hm, h0, bne_self_eq_false, Bool.false_eq_true, if_false]
  rfl

theorem mgmtLadderTestBody_ends {tk : Ticket} {s : State} (hm : s.module.mode = .maintenance) :
    mgmtLadderTestBody 0 tk s = complete tk 0 [] (floorPut none s) := by
  simp only [mgmtLadderTestBody, Nat.not_lt_zero, hm, bne_self_eq_false, Bool.false_eq_true, if_false, if_true]
  rfl

/-! ## The log -/

/-- The records that MGMT_LOG_READ copies (R419). -/
def logCopied (first count : Nat) (pinned : Bool) (s : State) : List LogRec :=
  ((logHeld s).filter fun r => decide (0 ≤ modDiff 32 r.seq first) && (!pinned || r.pinned)).take count

theorem mgmtLogReadBody_copies {first count : Nat} {pinned : Bool} {tk : Ticket} {s : State} (h1 : 1 ≤ count) (h : count ≤ 4096)
    (hd : tk.dmaOk = true) :
    mgmtLogReadBody first count pinned tk s
      = complete tk 0
          [it 4 (logCopied first count pinned s).length,
           it 4 (((logCopied first count pinned s).getLast?.map fun r => idx32 (r.seq + 1)).getD first),
           it 4 (((logHeld s).head?.map LogRec.seq).getD 0)]
          (hostOut tk 0 ((logCopied first count pinned s).flatMap logRecord) s) := by
  have hbad : (decide (count = 0) || decide (4096 < count)) = false := by
    simp only [Bool.or_eq_false_iff, decide_eq_false_iff_not]
    omega
  unfold mgmtLogReadBody
  rw [if_neg (by rw [hbad]; exact Bool.false_ne_true), if_pos hd]
  rfl

/-- Settles O41: each command by its checks and its effect; the ladder test by the steps it takes up to its floor. -/
theorem managementCommandsComplete : Obligations.ManagementCommandsComplete := by
  unfold Obligations.ManagementCommandsComplete
  refine ⟨?status, ?enter, ?leave, ?refused, ?log, ?reset, ?served, ?raised, ?ended⟩
  case status =>
    intro d s h hd
    exact h.completes rfl (h.writesRecord hd 512 _ [])
  case enter =>
    intro d s h hm
    refine h.completes rfl ?_
    rw [mgmtMaintenanceBody_enter (s := taken d (.mgmtMaintenance 1) s) hm]
    have hne : (taken d (.mgmtMaintenance 1) s).module.mode ≠ .maintenance := by
      obtain hm | hm | hm := hm <;> exact fun hx => absurd (hm.symm.trans hx) (by decide)
    have hends := (setMode_tends .maintenance (taken d (.mgmtMaintenance 1) s)).moves.ends frame_moduleCascade h 0 []
    exact ⟨(complete_reporting ..).module.trans (setMode_module ..), Raises.complete (setMode_raises hne) _ _ _, hends.1, hends.2⟩
  case leave =>
    intro d s h hm
    refine h.completes rfl ?_
    rw [mgmtMaintenanceBody_leave (s := taken d (.mgmtMaintenance 0) s) hm]
    obtain ⟨ht, hmod⟩ := maintenanceLeft_keeps (floorPut none (taken d (.mgmtMaintenance 0) s))
    have hmoves : Moves keepModuleCascade (taken d (.mgmtMaintenance 0) s) (maintenanceLeft (floorPut none (taken d (.mgmtMaintenance 0) s))) :=
      Moves.trans frame_moduleCascade (b := floorPut none (taken d (.mgmtMaintenance 0) s)) ⟨.same rfl rfl rfl rfl, rfl⟩ ht.moves
    have hends := hmoves.ends frame_moduleCascade h 0 []
    refine ⟨(complete_reporting ..).module.trans hmod, ?_, hends.1, hends.2⟩
    have hp := ht.pair
    rw [show ∀ tk st l u, (complete tk st l u).mgmt = u.mgmt from fun tk st l u => completeAs_mgmt ..]
    have hfloor := congrArg MgmtSt.testFloor hp
    exact hfloor
  case refused =>
    intro d enter s h he
    refine h.completes rfl ?_
    rw [mgmtMaintenanceBody_refused he]
    exact h.refused _ []
  case log =>
    intro d first count pinned s h h1 hc hd
    refine h.completes rfl ?_
    rw [mgmtLogReadBody_copies (s := taken d (.mgmtLogRead first count pinned) s) h1 hc hd]
    exact ⟨delivers_complete .., h.reports (hostView_hostOut ..) 0 _,
      ((take_reporting d _ s).trans (hostOut_reporting ..)).trans (complete_reporting ..)⟩
  case reset =>
    intro d s h
    refine h.completes rfl ⟨completeAs_mgmt .., h.ends (u := (taken d .mgmtReset s).modMgmt _) rfl 0 []⟩
  case served =>
    intro d step s h h5 hm
    refine h.completes rfl ?_
    rw [mgmtLadderTestBody_served (s := taken d (.mgmtLadderTest step) s) h5 hm]
    exact h.refused _ []
  case raised =>
    intro d step s h h1 h5 hm
    refine h.completes rfl ?_
    rw [mgmtLadderTestBody_raises (s := taken d (.mgmtLadderTest step) s) h1 h5 hm]
    obtain ⟨hstep, hfloor, hmod⟩ := raiseTo_reaches (n := 5) (f := step) (s := floorPut (some step) (taken d (.mgmtLadderTest step) s)) (by omega)
      (fun hx => absurd (hm.symm.trans hx) (by decide))
    rw [show ∀ tk st l u, (complete tk st l u).mgmt = u.mgmt from fun tk st l u => completeAs_mgmt ..]
    exact ⟨hfloor, hstep, (complete_reporting ..).module.trans hmod⟩
  case ended =>
    intro d s h hm
    refine h.completes rfl ?_
    rw [mgmtLadderTestBody_ends (s := taken d (.mgmtLadderTest 0) s) hm]
    exact ⟨completeAs_mgmt .., h.ends (u := floorPut none (taken d (.mgmtLadderTest 0) s)) rfl 0 []⟩

end Sys2Proof.Machine
end

-- Sensors, faults and the governor (R403, R405 to R413, R418)
section
/-! SUPPORT. A sensor read is told level by level; a limit, a third mismatch and a third internal fault lead to FAULT; an evaluation of the
governor sets V_CORE and takes or restores a step. -/

namespace Sys2Proof.Machine

open Sys2Proof

/-! ## Sensors -/

/-- Since when a sensor read has been at its limit. -/
def limitFrom (p : Nat × Int) (s : State) : Option Nat :=
  if atLimit s p.1 p.2 then some ((mapGet s.mgmt.limitSince p.1).getD s.time.mono) else none

/-- A value read, before what it crosses is told (R405). -/
def sensorPut (p : Nat × Int) (s : State) : State :=
  s.modMgmt fun m =>
    { m with
      sensors := mapPut m.sensors p.1 (p.2, newLevel s p.1 (sensorLevel s p.1) p.2),
      limitSince := match limitFrom p s with
        | some t => mapPut m.limitSince p.1 t
        | none => mapDel m.limitSince p.1 }

/-- The levels that a read passes. -/
def readPasses (p : Nat × Int) (s : State) : List Nat := levelsPassed (sensorLevel s p.1).value (newLevel s p.1 (sensorLevel s p.1) p.2).value

/-- Whether a read goes up. -/
def readRises (p : Nat × Int) (s : State) : Bool := decide ((sensorLevel s p.1).value < (newLevel s p.1 (sensorLevel s p.1) p.2).value)

theorem readSensor_eq (p : Nat × Int) (s : State) :
    readSensor p s = (readPasses p s).foldl (fun t n => crossLevel p.1 p.2 (readRises p s) n t) (sensorPut p s) := rfl

theorem crossLevel_onlyEvents (id : Nat) (v : Int) (up : Bool) (n : Nat) (s : State) : OnlyEvents s (crossLevel id v up n s) := by
  unfold crossLevel
  exact (logAdd_onlyEvents ..).trans (raiseLimited_onlyEvents ..)

theorem crossLevels_onlyEvents (id : Nat) (v : Int) (up : Bool) (l : List Nat) (s : State) :
    OnlyEvents s (l.foldl (fun t n => crossLevel id v up n t) s) := by
  induction l generalizing s with
  | nil => exact .refl s
  | cons n l ih => exact (crossLevel_onlyEvents ..).trans (ih _)

/-- A crossing not told within the last second is told (R405). -/
theorem crossLevel_raises {id n : Nat} {s u : State} (hh : u.host = s.host) (hq : u.queue = s.queue) (ht : u.time = s.time)
    (hc : u.cascade = s.cascade) (hl : mapGet s.queue.limiters (limKey 0x0B83 id n) = none) (v : Int) (up : Bool) :
    Raises 0x0B83 .module (position s) [it 1 id, it 1 n, (4, v), it 4 1] s (crossLevel id v up n u) := by
  have hpos : position u = position s := by
    unfold position
    rw [hc]
  obtain ⟨f, hf⟩ := logAdd_eq 0x0B83 (if !up then 0 else if n = 1 then 2 else 3) .module (position u)
    [it 1 id, it 1 n, (4, v), it 4 1] false u
  unfold crossLevel
  dsimp only
  rw [hf, show position (u.modMgmt f) = position s from hpos]
  unfold raiseLimited
  rw [show (u.modMgmt f).queue.limiters = s.queue.limiters from congrArg QueueSt.limiters hq, hl]
  have hevents := congrArg QueueSt.events hq
  have hseqs := congrArg QueueSt.seqs hq
  have hmasks := congrArg QueueSt.evtMasks hq
  exact raise_raises _ _ _ _ s ((u.modMgmt f).modQueue _) false hh hevents hseqs hmasks hpos (congrArg TimeSt.wall ht)

theorem execSensorSample_reads {id : Nat} {v : Int} {s : State} (hp : s.power.managementUp = true) (hr : s.mgmt.restarting = false)
    (h : id < 35) : execSensorSample [(id, v)] s = .next (readSensor (id, v) s) := by
  simp [execSensorSample, hp, hr, h]

/-! ## Faults -/

theorem execSensorLimitHeld_held {id at_ : Nat} {s : State} (hid : id < 16) (ha : mapGet s.mgmt.limitSince id = some at_)
    (hd : at_ + 100000000 ≤ s.time.mono) : execSensorLimitHeld id s = .next (enterFault 4 0x0B83 s) := by
  have hheld := (heldFor_iff s at_ 100000000).mpr hd
  simp only [execSensorLimitHeld, hid, if_true, ha, hheld]

/-- A mismatch noted (R403). -/
def mismatchNoted (s : State) : State := s.modMgmt fun m => { m with mismatches := s.time.mono :: recent s s.mgmt.mismatches }

theorem restarts_of_pair {t : State} {m : MgmtSt} {l : List Bool} (h : t.pair = { m with restarting := true, keptOutputs := l }) :
    t.mgmt.restarting = true ∧ t.mgmt.mismatches = m.mismatches ∧ t.mgmt.expiries = m.expiries ∧ t.mgmt.firstExpiry = m.firstExpiry := by
  have hrest := congrArg MgmtSt.restarting h
  have hmis := congrArg MgmtSt.mismatches h
  have hexp := congrArg MgmtSt.expiries h
  have hfirst := congrArg MgmtSt.firstExpiry h
  exact ⟨hrest, hmis, hexp, hfirst⟩

theorem restartPair_mgmt (cause n : Nat) (s : State) :
    (restartPair cause n s).mgmt.restarting = true ∧ (restartPair cause n s).mgmt.mismatches = s.mgmt.mismatches
      ∧ (restartPair cause n s).mgmt.expiries = s.mgmt.expiries ∧ (restartPair cause n s).mgmt.firstExpiry = s.mgmt.firstExpiry := by
  obtain ⟨-, -, l, hp⟩ := restartPair_keeps cause n s
  exact restarts_of_pair (m := s.pair) hp

theorem mismatchNoted_frame {s t : State} (h : Reporting (mismatchNoted s) { t with mbx := (mismatchNoted s).mbx }) :
    Reporting s { t with mbx := s.mbx } := (show Reporting s (mismatchNoted s) from rfl).trans h

theorem execLockstepMismatch_restarts {s : State} (hm : s.module.mode ≠ .off) (hr : s.mgmt.restarting = false)
    (hn : (recent s s.mgmt.mismatches).length < 2) :
    execLockstepMismatch s = .next (restartPair 0 ((recent s s.mgmt.mismatches).length + 1) (mismatchNoted s)) := by
  have h3 : ¬ 3 ≤ (recent s s.mgmt.mismatches).length + 1 := by omega
  simp only [execLockstepMismatch, hm, hr, decide_false, Bool.or_self, Bool.false_eq_true, if_false, List.length_cons, h3]
  rfl

theorem execLockstepMismatch_faults {s : State} (hm : s.module.mode ≠ .off) (hr : s.mgmt.restarting = false)
    (hn : 2 ≤ (recent s s.mgmt.mismatches).length) :
    execLockstepMismatch s
      = .next (enterFault 6 0x0B84 (restartPair 0 ((recent s s.mgmt.mismatches).length + 1) (mismatchNoted s))) := by
  have h3 : 3 ≤ (recent s s.mgmt.mismatches).length + 1 := by omega
  simp only [execLockstepMismatch, hm, hr, decide_false, Bool.or_self, Bool.false_eq_true, if_false, List.length_cons, h3, if_true]
  rfl

/-- A first expiry within 60 s, noted (R403). -/
def firstExpiry (s : State) : State :=
  s.modMgmt fun m => { m with expiries := s.time.mono :: recent s s.mgmt.expiries, firstExpiry := some s.time.mono }

theorem firstExpiry_frame {s t : State} (h : Reporting (firstExpiry s) { t with mbx := (firstExpiry s).mbx }) :
    Reporting s { t with mbx := s.mbx } := (show Reporting s (firstExpiry s) from rfl).trans h

theorem any_lt_false {o : Option Nat} {m n : Nat} (h : ∀ a, o = some a → a + n ≤ m) : (o.any fun t => decide (m < t + n)) = false := by
  cases o with
  | none => rfl
  | some a => simpa using h a rfl

theorem execWatchdogExpiry_first {b : BootFacts} {s : State} (hm : s.module.mode ≠ .off) (hd : watchdogDue s = true)
    (he : ∀ a, s.mgmt.firstExpiry = some a → a + 60 * second ≤ s.time.mono) :
    execWatchdogExpiry b s = .next (restartPair 1 ((recent s s.mgmt.expiries).length + 1) (firstExpiry s)) := by
  have hno := any_lt_false he
  simp only [execWatchdogExpiry, hm, hd, hno, decide_false, Bool.not_true, Bool.or_self, Bool.false_eq_true, if_false, List.length_cons]
  rfl

/-! ## Suppressed records -/

/-- The count of suppressed records taken, before it is told (R418). -/
def suppressedTaken (s : State) : State := s.modMgmt fun m => { m with logSuppressed := 0 }

theorem logFlush_puts {s : State} (h : s.mgmt.logSuppressed ≠ 0) (hs : s.mgmt.logSecond < s.time.wall / 1000000000) :
    logFlush s = logPut 0x0B86 2 .module (position s) [it 4 s.mgmt.logSuppressed] false (suppressedTaken s) := by
  have hb : (s.mgmt.logSuppressed != 0 && s.mgmt.logSecond != s.time.wall / 1000000000) = true := by
    simp only [Bool.and_eq_true, bne_iff_ne]
    exact ⟨h, Nat.ne_of_lt hs⟩
  unfold logFlush
  rw [if_pos hb]
  rfl

/-- A record of a new second is kept, first of those not pinned (R417, R418). -/
theorem logPut_keeps {c v : Nat} {k : ScopeKind} {i : Nat} {l : Items} {b : Bool} {s : State} (hs : s.mgmt.logSecond < s.time.wall / 1000000000)
    (hv : v < 3) :
    (logPut c v k i l b s).mgmt.logSuppressed = s.mgmt.logSuppressed
      ∧ ∃ r m, (logPut c v k i l b s).mgmt.logUnpinned = r :: m ∧ r.code = c ∧ r.data = l := by
  have hne : s.mgmt.logSecond ≠ s.time.wall / 1000000000 := Nat.ne_of_lt hs
  have hroom : 0 < Config.logPerSecond := by decide
  have hv3 : decide (3 ≤ v) = false := by
    rw [decide_eq_false_iff_not]
    omega
  unfold logPut
  simp only [hne, if_false, hroom, if_true, hv3]
  exact ⟨rfl, _, _, rfl, rfl, rfl⟩

/-- Settles O43: each cause with what it leads to. -/
theorem sensorsAndFaultsAct : Obligations.SensorsAndFaultsAct := by
  unfold Obligations.SensorsAndFaultsAct
  refine ⟨?sample, ?limit, ?mismatch, ?third, ?expiry, ?suppressed⟩
  case sample =>
    intro id v s hp hr hid
    refine completes_of_exec (execSensorSample_reads hp hr hid) ?_
    rw [readSensor_eq]
    have hevents := crossLevels_onlyEvents id v (readRises (id, v) s) (readPasses (id, v) s) (sensorPut (id, v) s)
    have hsens := congrArg MgmtSt.sensors hevents.pair
    refine ⟨?_, fun j hj => ?_, fun n hn hl => ?_, (show Reporting s (sensorPut (id, v) s) from rfl).trans hevents.reporting⟩
    · exact (congrArg (mapGet · id) hsens).trans (mapGet_mapPut_self ..)
    · exact (congrArg (mapGet · j) hsens).trans (mapGet_mapPut_ne _ _ hj)
    · rw [show readPasses (id, v) s = [n] from hn]
      exact crossLevel_raises (u := sensorPut (id, v) s) rfl rfl rfl rfl hl v (readRises (id, v) s)
  case limit =>
    intro id since s hid ha hd hoff hfault
    refine completes_of_exec (execSensorLimitHeld_held hid ha hd) ?_
    obtain ⟨hmod, hpair, hrole, htells⟩ := enterFault_takesCore hoff hfault (.inl rfl) 0x0B83
    have hcause := congrArg MgmtSt.faultCause hpair
    have hcore := congrArg MgmtSt.vcoreRemoved hpair
    exact ⟨by rw [hmod], hcause, hcore, hrole, htells.mem (List.mem_cons_of_mem _ List.mem_cons_self), htells.mem List.mem_cons_self⟩
  case mismatch =>
    intro s hm hr hn
    refine completes_of_exec (execLockstepMismatch_restarts hm hr hn) ?_
    obtain ⟨hrest, hlist, -, -⟩ := restartPair_mgmt 0 ((recent s s.mgmt.mismatches).length + 1) (mismatchNoted s)
    obtain ⟨hframe, hmod, -⟩ := restartPair_keeps 0 ((recent s s.mgmt.mismatches).length + 1) (mismatchNoted s)
    exact ⟨hrest, hlist, hmod, restartPair_raises (u := mismatchNoted s) rfl rfl rfl rfl 0 _, mismatchNoted_frame hframe⟩
  case third =>
    intro s hm hfault hr hn
    refine completes_of_exec (execLockstepMismatch_faults hm hr hn) ?_
    obtain ⟨-, hmod, -⟩ := restartPair_keeps 0 ((recent s s.mgmt.mismatches).length + 1) (mismatchNoted s)
    exact enterFault_withdraws (by rw [hmod]; exact hm) (by rw [hmod]; exact hfault) (by decide) (by decide) _
  case expiry =>
    intro b s hm hd he
    have h60 : 60 * second = 60000000000 := rfl
    rw [← h60] at he
    refine completes_of_exec (execWatchdogExpiry_first hm hd he) ?_
    obtain ⟨hrest, -, hlist, hfirst⟩ := restartPair_mgmt 1 ((recent s s.mgmt.expiries).length + 1) (firstExpiry s)
    obtain ⟨hframe, hmod, -⟩ := restartPair_keeps 1 ((recent s s.mgmt.expiries).length + 1) (firstExpiry s)
    exact ⟨hrest, hlist, hfirst, hmod, restartPair_raises (u := firstExpiry s) rfl rfl rfl rfl 1 _, firstExpiry_frame hframe⟩
  case suppressed =>
    intro s hn hs
    refine completes_of_exec (t := logFlush s) rfl ?_
    obtain ⟨hzero, hrec⟩ := logPut_keeps (c := 0x0B86) (v := 2) (k := .module) (i := position s) (l := [it 4 s.mgmt.logSuppressed]) (b := false)
      (s := suppressedTaken s) hs (by decide)
    refine ⟨?_, ?_, (logFlush_onlyEvents s).reporting⟩
    · rw [logFlush_puts hn hs]
      exact hzero
    · rw [logFlush_puts hn hs]
      exact hrec

end Sys2Proof.Machine
end

-- The governor (R406 to R411)
section
/-! SUPPORT. An evaluation notes the figures, sets V_CORE by them, and takes or restores a step. -/

namespace Sys2Proof.Machine

open Sys2Proof

/-! ## Steps taken and restored -/

theorem takeSpaced_iff {s : State} {n : Nat} (h : ∀ a, s.mgmt.lastTakeNs = some a → a + n ≤ s.time.mono) : takeSpaced s n = true := by
  unfold takeSpaced
  cases ht : s.mgmt.lastTakeNs with
  | none => rfl
  | some a => exact decide_eq_true (h a ht)

theorem takeSpaced_just {s : State} {n : Nat} (h : s.mgmt.lastTakeNs = some s.time.mono) (hn : 0 < n) : takeSpaced s n = false := by
  unfold takeSpaced
  rw [h]
  exact decide_eq_false (by omega)

theorem figures_of {t : State} {m : MgmtSt} (h : t.figures = m) :
    t.mgmt.blocks = m.blocks ∧ t.mgmt.vcoreMv = m.vcoreMv ∧ t.mgmt.step = m.step ∧ t.mgmt.lastTakeNs = m.lastTakeNs
      ∧ t.mgmt.lastThermalNs = m.lastThermalNs := by
  have hblocks := congrArg MgmtSt.blocks h
  have hcore := congrArg MgmtSt.vcoreMv h
  have hstep := congrArg MgmtSt.step h
  have htake := congrArg MgmtSt.lastTakeNs h
  have htherm := congrArg MgmtSt.lastThermalNs h
  exact ⟨hblocks, hcore, hstep, htake, htherm⟩

theorem takeStep_keeps (cause margin : Nat) (s : State) :
    (takeStep cause margin s).mgmt.blocks = s.mgmt.blocks ∧ (takeStep cause margin s).mgmt.vcoreMv = s.mgmt.vcoreMv
      ∧ (takeStep cause margin s).mgmt.step = s.mgmt.step + 1 ∧ (takeStep cause margin s).mgmt.lastTakeNs = some s.time.mono
      ∧ (takeStep cause margin s).mgmt.lastThermalNs = s.mgmt.lastThermalNs :=
  figures_of (m := { s.figures with step := s.mgmt.step + 1, lastTakeNs := some s.time.mono, projectedSince := some s.time.mono })
    (takeStep_figures cause margin s)

/-- A step taken in RUN leaves LEAN (R409). -/
theorem takeStep_lean {s : State} (h : s.module.mode = .run) (cause margin : Nat) : (takeStep cause margin s).module.mode = .lean := by
  rw [takeStep_module, modeAtStep_taken, if_pos h]

/-- When a step is restored, noted (R407). -/
def restoreNoted (s : State) : State := s.modMgmt fun m => { m with projectedSince := some s.time.mono }

theorem restoreStep_eq (margin : Nat) (s : State) : restoreStep margin s = setStep (s.mgmt.step - 1) 2 margin (restoreNoted s) := rfl

theorem restoreStep_keeps (margin : Nat) (s : State) :
    (restoreStep margin s).mgmt.blocks = s.mgmt.blocks ∧ (restoreStep margin s).mgmt.vcoreMv = s.mgmt.vcoreMv := by
  rw [restoreStep_eq]
  have h := figures_of (m := { (restoreNoted s).figures with step := s.mgmt.step - 1 })
    (setStep_figures (s.mgmt.step - 1) 2 margin (restoreNoted s))
  exact ⟨h.1, h.2.1⟩

/-! ## One evaluation -/

/-- When an evaluation was made, noted. -/
def evalNoted (s : State) : State := s.modMgmt fun m => { m with lastEvalNs := some s.time.mono }

/-- V_CORE as an evaluation sets it (R407). -/
def coreSet (l : List BlockPace) (pm : Nat) (s : State) : State :=
  (noteMargin l (leastBlock l) pm s).modMgmt fun g => { g with vcoreMv := nextCore (noteMargin l (leastBlock l) pm s) (leastBlock l) }

/-- A step taken, where margin has been short for ten evaluations (R407). -/
def takeDue (m : Option BlockPace) (s : State) : State :=
  if s.mgmt.vcoreMv = 900 && 10 ≤ s.mgmt.shortCount && takeSpaced s 20000000 && s.mgmt.step < 5 then takeStep 0 (marginPm m) s else s

/-- A step restored, where the projected margin has sufficed (R407). -/
def restoreDue (m : Option BlockPace) (s : State) : State :=
  if s.mgmt.testFloor.getD 0 < s.mgmt.step && takeSpaced s 10000000000 && !anyTj s 1 && heldFor s s.mgmt.projectedSince (restoreNs s) then
    restoreStep (marginPm m) s
  else s

theorem evaluate_eq (l : List BlockPace) (pm : Nat) (s : State) :
    evaluate l pm s = restoreDue (leastBlock l) (takeDue (leastBlock l) (coreSet l pm s)) := by
  unfold evaluate restoreDue takeDue coreSet
  rfl

theorem takeDue_keeps (m : Option BlockPace) (s : State) :
    (takeDue m s).mgmt.blocks = s.mgmt.blocks ∧ (takeDue m s).mgmt.vcoreMv = s.mgmt.vcoreMv := by
  unfold takeDue
  split
  · exact ⟨(takeStep_keeps ..).1, (takeStep_keeps ..).2.1⟩
  · exact ⟨rfl, rfl⟩

theorem restoreDue_keeps (m : Option BlockPace) (s : State) :
    (restoreDue m s).mgmt.blocks = s.mgmt.blocks ∧ (restoreDue m s).mgmt.vcoreMv = s.mgmt.vcoreMv := by
  unfold restoreDue
  split
  · exact restoreStep_keeps ..
  · exact ⟨rfl, rfl⟩

theorem evaluate_keeps (l : List BlockPace) (pm : Nat) (s : State) :
    (evaluate l pm s).mgmt.blocks = l ∧ (evaluate l pm s).mgmt.vcoreMv = nextCore (noteMargin l (leastBlock l) pm s) (leastBlock l) := by
  rw [evaluate_eq, (restoreDue_keeps ..).1, (restoreDue_keeps ..).2, (takeDue_keeps ..).1, (takeDue_keeps ..).2]
  exact ⟨rfl, rfl⟩

theorem restoreDue_justTaken {s : State} (h : s.mgmt.lastTakeNs = some s.time.mono) (m : Option BlockPace) : restoreDue m s = s := by
  unfold restoreDue
  rw [takeSpaced_just h (by decide), Bool.and_false, Bool.false_and, Bool.false_and, if_neg Bool.false_ne_true]

/-! ## V_CORE -/

theorem nextCore_rises {s : State} {m : Option BlockPace} (h : below m 1050 = true) (hv : s.mgmt.vcoreMv < 900) :
    nextCore s m = s.mgmt.vcoreMv + 5 := by simp [nextCore, h, hv]

theorem nextCore_falls {s : State} {m : Option BlockPace} (h : below m 1050 = false) (hs : heldFor s s.mgmt.surplusSince 100000000 = true)
    (hv : 620 < s.mgmt.vcoreMv) : nextCore s m = s.mgmt.vcoreMv - 5 := by simp [nextCore, h, hs, hv]

theorem nextCore_stays {s : State} {m : Option BlockPace} (h : below m 1050 = false ∨ ¬ s.mgmt.vcoreMv < 900)
    (hs : s.mgmt.surplusSince = none) : nextCore s m = s.mgmt.vcoreMv := by
  have hb : (below m 1050 && decide (s.mgmt.vcoreMv < 900)) = false := by
    obtain h | h := h <;> simp [h]
  simp [nextCore, hb, hs, heldFor]

theorem noteMargin_core (l : List BlockPace) (m : Option BlockPace) (pm : Nat) (s : State) :
    (noteMargin l m pm s).mgmt.vcoreMv = s.mgmt.vcoreMv := rfl

theorem noteMargin_surplus {m : Option BlockPace} {a : Nat} {s : State} (h : above m 1150 = true) (ha : s.mgmt.surplusSince = some a)
    (l : List BlockPace) (pm : Nat) : (noteMargin l m pm s).mgmt.surplusSince = some a := by
  change since s s.mgmt.surplusSince (above m 1150) = some a
  rw [h, ha]
  rfl

theorem noteMargin_noSurplus {m : Option BlockPace} (h : above m 1150 = false) (l : List BlockPace) (pm : Nat) (s : State) :
    (noteMargin l m pm s).mgmt.surplusSince = none := by
  change since s s.mgmt.surplusSince (above m 1150) = none
  rw [h]
  rfl

/-- Below 1.00 there is no surplus (R406). -/
theorem above_of_below {m : Option BlockPace} (h : below m 1000 = true) : above m 1150 = false := by
  cases m with
  | none => exact absurd h Bool.false_ne_true
  | some b =>
    simp only [below, decide_eq_true_eq] at h
    simp only [above, decide_eq_false_iff_not]
    omega

/-! ## Ten evaluations short -/

theorem coreSet_short {l : List BlockPace} {pm : Nat} {s : State} (hv : s.mgmt.vcoreMv = 900) (hb : below (leastBlock l) 1000 = true) :
    (coreSet l pm s).mgmt.vcoreMv = 900 ∧ (coreSet l pm s).mgmt.shortCount = s.mgmt.shortCount + 1 := by
  constructor
  · have hnot : ¬ (noteMargin l (leastBlock l) pm s).mgmt.vcoreMv < 900 := by rw [noteMargin_core, hv]; exact Nat.lt_irrefl _
    exact (nextCore_stays (.inr hnot) (noteMargin_noSurplus (above_of_below hb) ..)).trans hv
  · change (if decide (s.mgmt.vcoreMv = 900) && below (leastBlock l) 1000 then s.mgmt.shortCount + 1 else 0) = _
    rw [hv, hb]
    rfl

theorem takeDue_takes {m : Option BlockPace} {s : State} (hv : s.mgmt.vcoreMv = 900) (hn : 10 ≤ s.mgmt.shortCount)
    (ht : ∀ a, s.mgmt.lastTakeNs = some a → a + 20000000 ≤ s.time.mono) (h5 : s.mgmt.step < 5) : takeDue m s = takeStep 0 (marginPm m) s := by
  unfold takeDue
  rw [takeSpaced_iff ht, if_pos (by simp [hv, hn, h5])]

/-- The tenth evaluation short takes a step (R407). -/
theorem evaluate_takes {l : List BlockPace} {pm : Nat} {s : State} (hv : s.mgmt.vcoreMv = 900) (hb : below (leastBlock l) 1000 = true)
    (hn : 9 ≤ s.mgmt.shortCount) (ht : ∀ a, s.mgmt.lastTakeNs = some a → a + 20000000 ≤ s.time.mono) (h5 : s.mgmt.step < 5) :
    evaluate l pm s = takeStep 0 (marginPm (leastBlock l)) (coreSet l pm s) := by
  obtain ⟨hv', hn'⟩ := coreSet_short (pm := pm) hv hb
  rw [evaluate_eq, takeDue_takes hv' (by omega) ht h5, restoreDue_justTaken]
  rw [takeStep_time]
  exact (takeStep_keeps ..).2.2.2.1

/-! ## The instructions -/

theorem execGovernorEvaluation_evaluates {l : List BlockPace} {pm : Nat} {s : State} (hi : inService s = true) (hr : s.mgmt.restarting = false)
    (hp : passedSince s s.mgmt.lastEvalNs 1000000 = true) (ht : thirdInternal s = false) :
    execGovernorEvaluation l pm s = .next (evaluate l pm (evalNoted s)) := by
  simp only [execGovernorEvaluation, hi, hr, hp, ht, Bool.not_true, Bool.or_self, Bool.false_eq_true, if_false]
  rfl

theorem execGovernorEvaluation_faults {l : List BlockPace} {pm : Nat} {s : State} (hi : inService s = true) (hr : s.mgmt.restarting = false)
    (hp : passedSince s s.mgmt.lastEvalNs 1000000 = true) (ht : thirdInternal s = true) :
    execGovernorEvaluation l pm s = .next (enterFault 8 0x0F00 s) := by
  simp only [execGovernorEvaluation, hi, hr, hp, ht, Bool.not_true, Bool.or_self, Bool.false_eq_true, if_false, if_true]

theorem mode_of_inService {s : State} (h : inService s = true) : s.module.mode ≠ .off ∧ s.module.mode ≠ .fault := by
  unfold inService at h
  constructor
  · intro hm
    rw [hm] at h
    exact Bool.false_ne_true h
  · intro hm
    rw [hm] at h
    exact Bool.false_ne_true h

/-- When a critical junction last took a step, noted (R410). -/
def thermalNoted (s : State) : State := s.modMgmt fun m => { m with lastThermalNs := some s.time.mono }

theorem execThermalShed_takes {s : State} (hi : inService s = true) (hr : s.mgmt.restarting = false) (ht : anyTj s 2 = true)
    (h5 : s.mgmt.step < 5) (hd : ∀ a, s.mgmt.lastThermalNs = some a → a + second ≤ s.time.mono) :
    execThermalShed s = .next (takeStep 1 (marginPm (leastBlock s.mgmt.blocks)) (thermalNoted s)) := by
  have hdue : (match s.mgmt.lastThermalNs with
      | some t => decide (t + second ≤ s.time.mono)
      | none => true) = true := by
    cases hl : s.mgmt.lastThermalNs with
    | none => rfl
    | some a => exact decide_eq_true (hd a hl)
  unfold execThermalShed
  simp only [hi, hr, ht, h5, Bool.not_false, Bool.and_self, decide_true, Bool.true_and, Bool.and_true]
  exact congrArg _ (if_pos hdue)

theorem execPaceShort_sets {a : Nat} {s : State} (hi : inService s = true) (hr : s.mgmt.restarting = false) (hp : s.mgmt.paceShort = false)
    (ha : s.mgmt.shortSince = some a) (hd : a + 100000000 ≤ s.time.mono) : execPaceShort s = .next (paceEvent true s) := by
  have hheld := (heldFor_iff s a 100000000).mpr hd
  simp only [execPaceShort, hi, hr, hp, ha, hheld, Bool.not_true, Bool.not_false, Bool.or_self, Bool.and_self, Bool.false_eq_true, if_false,
    if_true]

/-- Whether PACE_SHORT is set, noted before it is told (R411). -/
def paceNoted (set : Bool) (s : State) : State := s.modMgmt fun g => { g with paceShort := set }

theorem paceEvent_sets (set : Bool) (s : State) : (paceEvent set s).mgmt.paceShort = set ∧ Reporting s (paceEvent set s) := by
  have h := raiseMod_onlyEvents 0x0B82 [it 1 (flag set), it 1 (((leastBlock s.mgmt.blocks).map BlockPace.code).getD 0),
    it 2 (marginPm (leastBlock s.mgmt.blocks))] (paceNoted set s)
  have hset := congrArg MgmtSt.paceShort h.pair
  exact ⟨hset, (show Reporting s (paceNoted set s) from rfl).trans h.reporting⟩

/-- Settles O44: an evaluation by what it notes and the core it sets; steps by the moment that takes them. -/
theorem theGovernorSheds : Obligations.TheGovernorSheds := by
  unfold Obligations.TheGovernorSheds
  refine ⟨?core, ?short, ?internal, ?thermal, ?pace⟩
  case core =>
    intro l projected s hi hr hp ht
    refine completes_of_exec (execGovernorEvaluation_evaluates hi hr hp ht) ?_
    obtain ⟨hblocks, hcore⟩ := evaluate_keeps l projected (evalNoted s)
    rw [hcore]
    refine ⟨hblocks, fun hb hv => nextCore_rises hb hv, fun hb ha a hs hd hv => nextCore_falls hb ?_ hv, fun hb ha =>
      nextCore_stays (.inl hb) (noteMargin_noSurplus ha ..)⟩
    rw [noteMargin_surplus (s := evalNoted s) ha hs]
    exact (heldFor_iff _ a 100000000).mpr hd
  case short =>
    intro l projected s hi hr hp ht hv hb hn hlast h5
    refine completes_of_exec (execGovernorEvaluation_evaluates hi hr hp ht) ?_
    rw [evaluate_takes (s := evalNoted s) hv hb hn hlast h5]
    obtain ⟨-, -, hstep, htake, -⟩ := takeStep_keeps 0 (marginPm (leastBlock l)) (coreSet l projected (evalNoted s))
    have hraise := takeStep_raises (s := s) (u := coreSet l projected (evalNoted s)) rfl rfl rfl rfl 0 (marginPm (leastBlock l))
    rw [(coreSet_short (s := evalNoted s) hv hb).1] at hraise
    exact ⟨hstep, htake, fun hm => takeStep_lean (s := coreSet l projected (evalNoted s)) hm 0 _, hraise⟩
  case internal =>
    intro l projected s hi hr hp ht
    obtain ⟨hoff, hfault⟩ := mode_of_inService hi
    obtain ⟨hmode, hcause, -⟩ := enterFault_withdraws (cause := 8) hoff hfault (by decide) (by decide) 0x0F00
    exact completes_of_exec (execGovernorEvaluation_faults hi hr hp ht) ⟨hmode, hcause⟩
  case thermal =>
    intro s hi hr ht h5 hd
    have hsec : second = 1000000000 := rfl
    rw [← hsec] at hd
    refine completes_of_exec (execThermalShed_takes hi hr ht h5 hd) ?_
    obtain ⟨-, -, hstep, -, htherm⟩ := takeStep_keeps 1 (marginPm (leastBlock s.mgmt.blocks)) (thermalNoted s)
    exact ⟨hstep, htherm, fun hm => takeStep_lean (s := thermalNoted s) hm 1 _, takeStep_raises (u := thermalNoted s) rfl rfl rfl rfl 1 _⟩
  case pace =>
    intro a s hi hr hp ha hd
    obtain ⟨hset, hframe⟩ := paceEvent_sets true s
    exact completes_of_exec (execPaceShort_sets hi hr hp ha hd)
      ⟨hset, raise_raises 0x0B82 .module (position s) _ s (paceNoted true s) false rfl rfl rfl rfl rfl rfl, hframe⟩

end Sys2Proof.Machine
end

-- Lanes, drains, and the main domain going down (R322, R424, R449, R454)
section
/-! SUPPORT. A lane set changes that lane alone; a drain stops every stream; a module that goes OFF has no host and no role of Headstock. -/

namespace Sys2Proof.Machine

open Sys2Proof

/-! ## Lanes -/

theorem laneRt_congr {s t : State} (h : t.link = s.link) (k : Nat) : laneRt t k = laneRt s k := by
  unfold laneRt
  rw [h]

theorem raise_link (c : Nat) (k : ScopeKind) (i : Nat) (l : Items) (s : State) (a : Bool) : (raise c k i l s a).link = s.link :=
  (raise_onlyEvents ..).link

theorem laneRt_modLane_self (k : Nat) (f : LaneRt → LaneRt) (s : State) : laneRt (modLane k f s) k = f (laneRt s k) := by
  simp [laneRt, modLane, mapGetD, State.modLink]

theorem laneRt_modLane_other {j k : Nat} (h : j ≠ k) (f : LaneRt → LaneRt) (s : State) : laneRt (modLane k f s) j = laneRt s j := by
  simp [laneRt, modLane, mapGetD, State.modLink, mapGet_mapPut_ne _ _ h]

theorem laneRt_modBond (b : Bond) (f : BondRt → BondRt) (s : State) (k : Nat) : laneRt (modBond b f s) k = laneRt s k := rfl

theorem laneRt_bondCounted (k before : Nat) (s : State) (j : Nat) : laneRt (bondCounted k before s) j = laneRt s j := by
  unfold bondCounted
  split
  · rfl
  · rw [laneRt_congr (raise_link ..), laneRt_modBond]

theorem laneRt_beatPaths (b : Bond) (lane : Option Nat) (s : State) (j : Nat) : laneRt (beatPaths b lane s) j = laneRt s j := by
  unfold beatPaths
  split <;> rfl

theorem laneRt_afterLane (k before : Nat) (lane : Option Nat) (s : State) (j : Nat) : laneRt (afterLane k before lane s) j = laneRt s j := by
  rw [afterLane_eq, laneRt_beatPaths, laneRt_bondCounted]

/-- A lane set to another state begins it anew (R322). -/
theorem laneRt_setLane_self {k new : Nat} {s : State} (h : (laneRt s k).state ≠ new) (cause : Nat) :
    laneRt (setLane k new cause s) k = { laneRt s k with state := new, sinceNs := s.time.mono, crcSlots := [] } := by
  rw [setLane_changes h, laneRt_afterLane, lanePut, laneRt_congr (raise_link ..), laneRt_modLane_self]

theorem laneRt_setLane_other {j k : Nat} (h : j ≠ k) (new cause : Nat) (s : State) : laneRt (setLane k new cause s) j = laneRt s j := by
  by_cases hs : (laneRt s k).state = new
  · rw [show setLane k new cause s = s from if_pos hs]
  · rw [setLane_changes hs, laneRt_afterLane, lanePut, laneRt_congr (raise_link ..), laneRt_modLane_other h]

theorem setLane_state (k new cause : Nat) (s : State) : (laneRt (setLane k new cause s) k).state = new := by
  by_cases hs : (laneRt s k).state = new
  · rw [show setLane k new cause s = s from if_pos hs]
    exact hs
  · rw [laneRt_setLane_self hs]

/-- A lane's change is told (R322). -/
theorem setLane_raises {k new : Nat} {s : State} (h : (laneRt s k).state ≠ new) (cause : Nat) :
    Raises 0x0EA0 .port (laneScope k) [it 1 (laneNo k), it 1 (laneRt s k).state, it 1 new, it 1 cause] s (setLane k new cause s) := by
  rw [setLane_changes h]
  have told : Raises 0x0EA0 .port (laneScope k) [it 1 (laneNo k), it 1 (laneRt s k).state, it 1 new, it 1 cause] s (lanePut k new cause s) :=
    raise_raises 0x0EA0 .port (laneScope k) _ s (modLane k _ s) false rfl rfl rfl rfl rfl rfl
  exact told.tells (afterLane_tends ..).moves.tells

theorem lanesDown_tends (l : List Nat) (s : State) : Tends keepCascade s (lanesDown l s) :=
  .foldl frame_cascade (fun _ _ => setLane_tends ..) l s

theorem laneRt_lanesDown_other {j : Nat} {l : List Nat} (h : j ∉ l) (s : State) : laneRt (lanesDown l s) j = laneRt s j := by
  induction l generalizing s with
  | nil => rfl
  | cons k l ih =>
    obtain ⟨hk, hl⟩ := not_or.mp (mt List.mem_cons.mpr h)
    exact (ih hl (setLane k 1 0 s)).trans (laneRt_setLane_other hk ..)

theorem lanesDown_keepsDown {j : Nat} (l : List Nat) {s : State} (h : (laneRt s j).state = 1) : (laneRt (lanesDown l s) j).state = 1 := by
  induction l generalizing s with
  | nil => exact h
  | cons k l ih =>
    refine ih (s := setLane k 1 0 s) ?_
    by_cases hj : j = k
    · rw [hj, setLane_state]
    · rw [laneRt_setLane_other hj, h]

theorem lanesDown_state {j : Nat} {l : List Nat} (h : j ∈ l) (s : State) : (laneRt (lanesDown l s) j).state = 1 := by
  induction l generalizing s with
  | nil => exact absurd h List.not_mem_nil
  | cons k l ih =>
    obtain rfl | hl := List.mem_cons.mp h
    · exact lanesDown_keepsDown l (s := setLane j 1 0 s) (setLane_state ..)
    · exact ih hl (setLane k 1 0 s)

/-! ## The main domain down -/

theorem roleGiven_headstock (s : State) : (roleGiven s).cascade.headstock = false := by
  unfold roleGiven
  split
  · rw [giveHeadstock_cascade]
  · next h => exact Bool.eq_false_iff.mpr h

theorem detachHost_detaches (cause : Nat) (s : State) : (detachHost cause s).host.attached = false := by
  unfold detachHost
  split
  · rfl
  · next h => exact Bool.eq_false_iff.mpr h

/-- The lanes of the main domain down with it. -/
def mainLanesDown (s : State) : State :=
  s.modLink fun l => { l with lanes := l.lanes.map fun p =>
    (p.1, if p.1 = 0 || p.1 = 4 || (8 ≤ p.1 && p.1 < 20) then p.2 else { p.2 with state := 1 }) }

/-- The host link down. -/
def hostLinkDown (s : State) : State := s.modHost fun h => { h with linkSpeed := 0, linkWidth := 0 }

theorem goOff_eq (s : State) : goOff s = mainLanesDown (hostLinkDown (detachHost 1 (setMode .off (roleGiven s)))) := rfl

theorem downs_reporting (s : State) : Reporting s (mainLanesDown (hostLinkDown s)) := rfl

theorem downs_attached (s : State) : (mainLanesDown (hostLinkDown s)).host.attached = s.host.attached := rfl

theorem downs_pair (s : State) : (mainLanesDown (hostLinkDown s)).pair = s.pair := rfl

theorem detachHost_pair (cause : Nat) (s : State) : (detachHost cause s).pair = s.pair := by
  unfold detachHost
  split <;> rfl

theorem Runs.moduleCascade_of_cascade {s t : State} (h : Runs keepCascade s t) : Runs keepModuleCascade s t := h.widen frame_moduleCascade rfl

theorem offGiven_runs (s : State) : Runs keepModuleCascade s (setMode .off (roleGiven s)) :=
  (roleGiven_runs s).moduleCascade_of_cascade.trans frame_moduleCascade (setMode_tends ..).runs

theorem Runs.cascade_module {s t : State} (h : Runs keepCascade s t) : t.module = s.module := h.frame.module

/-- A module that goes OFF (R19, R424). -/
theorem goOff_keeps (s : State) :
    (goOff s).module = { s.module with mode := .off } ∧ (goOff s).host.attached = false ∧ (goOff s).host.linkSpeed = 0
      ∧ (goOff s).cascade.headstock = false ∧ (goOff s).pair = s.pair ∧ Reporting s (keepModuleCascade s (goOff s)) := by
  have hrep : Reporting (setMode .off (roleGiven s)) (goOff s) := by
    rw [goOff_eq]
    exact (detachHost_reporting ..).trans (downs_reporting _)
  have hgiven := offGiven_runs s
  have hmode := setMode_module .off (roleGiven s)
  obtain ⟨o, hcas⟩ := setMode_cascade .off (roleGiven s)
  refine ⟨?_, ?_, rfl, ?_, ?_, frame_moduleCascade.reporting hgiven.frame hrep⟩
  · rw [hrep.module, hmode, (roleGiven_runs s).cascade_module]
  · rw [goOff_eq, downs_attached, detachHost_detaches]
  · rw [hrep.cascade, hcas]
    exact roleGiven_headstock s
  · rw [goOff_eq, downs_pair, detachHost_pair, hgiven.pair]

/-! ## Drains -/

/-- All but power and streams. -/
abbrev keepDrain (s t : State) : State := { t with power := s.power, ingest := s.ingest }

theorem frame_drain : Frame keepDrain where
  back _ _ _ _ _ _ _ := rfl
  again _ _ _ := rfl
  self _ := rfl

theorem sendJoins_tends {keep : State → State → State} (hk : Frame keep) (name : String) (legs : List Leg) (s : State) :
    Tends keep s (sendJoins name legs s) := by
  refine .foldl hk (fun s l => ?_) legs s
  split
  · exact .emit hk ..
  · exact .refl hk s

/-- The groups of the streams that still receive, left. -/
def streamsLeft (s : State) : State :=
  s.ingest.streams.foldl (fun s p => if p.2.stopped then s else sendJoins "LEAVE" (legsOf p.2.params) s) s

theorem streamsLeft_tends (s : State) : Tends keepAll s (streamsLeft s) := by
  refine .foldl frame_all (fun s p => ?_) _ s
  split
  · exact .refl frame_all s
  · exact sendJoins_tends frame_all ..

theorem startDrain_eq (s : State) :
    startDrain s = (streamsLeft s).modIngest fun i =>
      { i with streams := i.streams.map fun p => (p.1, { p.2 with stopped := true, open_ := [], units := [] }) } := rfl

theorem modIngest_tends (f : IngestSt → IngestSt) (s : State) : Tends keepDrain s (s.modIngest f) := ⟨⟨.same rfl rfl rfl rfl, rfl⟩, rfl, rfl⟩

theorem Tends.drain_of_all {s t : State} (h : Tends keepAll s t) : Tends keepDrain s t := h.widen frame_drain rfl

theorem startDrain_tends (s : State) : Tends keepDrain s (startDrain s) := by
  rw [startDrain_eq]
  exact (streamsLeft_tends s).drain_of_all.trans frame_drain (modIngest_tends ..)

theorem Tends.all_ingest {s t : State} (h : Tends keepAll s t) : t.ingest = s.ingest ∧ t.power = s.power ∧ t.module = s.module :=
  ⟨h.moves.frame.ingest, h.moves.frame.power, h.moves.frame.module⟩

theorem startDrain_keeps (s : State) : (startDrain s).power = s.power ∧ (startDrain s).module = s.module := by
  rw [startDrain_eq]
  exact (streamsLeft_tends s).all_ingest.2

/-- A drain stops every stream and discards what has not become a frame (R449). -/
theorem startDrain_stops {k : Nat} {x : Stream} {s : State} (h : mapGet s.ingest.streams k = some x) :
    mapGet (startDrain s).ingest.streams k = some { x with stopped := true, open_ := [], units := [] } := by
  have hmap := mapGet_map_snd (fun x : Stream => { x with stopped := true, open_ := [], units := [] }) s.ingest.streams k
  rw [h] at hmap
  rw [startDrain_eq]
  change mapGet ((streamsLeft s).ingest.streams.map _) k = _
  rw [(streamsLeft_tends s).all_ingest.1]
  exact hmap

end Sys2Proof.Machine
end

-- The end of STARTING, and the system connector (R433, R444, R452, R454)
section
/-! SUPPORT. What the end of STARTING leaves of lanes and memory, and what each contact does. -/

namespace Sys2Proof.Machine

open Sys2Proof

/-! ## Lanes when heads settle -/

theorem deliverTs_link (e : TsEvent) (s : State) : (deliverTs e s).link = s.link := by
  unfold deliverTs
  rw [(deliver_onlyEvents ..).link, (logEvent_onlyEvents ..).link]
  rfl

theorem tsRaise_link (c : Nat) (k : ScopeKind) (i : Nat) (l : Items) (a : Bool) (s : State) : (tsRaise c k i l a s).link = s.link := by
  unfold tsRaise
  dsimp only
  split
  · exact deliverTs_link ..
  · split <;> rfl

theorem settleHead_link (key : Nat) (s : State) : (settleHead key s).link = s.link := by
  unfold settleHead enterHead tsHeadEvent
  dsimp only
  split
  · rfl
  · exact tsRaise_link ..

theorem settleHeads_link (s : State) : (settleHeads s).link = s.link := by
  unfold settleHeads
  generalize s.ts.heads = l
  induction l generalizing s with
  | nil => rfl
  | cons p l ih => rw [List.foldl_cons, ih, settleHead_link]

theorem setMode_link (m : ModState) (s : State) : (setMode m s).link = s.link := by
  by_cases h : s.module.mode = m
  · rw [show setMode m s = s from if_pos h]
  · rw [setMode_told h, raiseMod]
    exact raise_link ..

/-! ## The end of STARTING -/

/-- The lane of an index of the training report (R444). -/
def startLaneOf (i : Nat) : Nat := if i < 20 then i else i + 12

/-- One lane that the training brought up. -/
def startLane (up : List Bool) (s : State) (i : Nat) : State := if up.getD i false then setLane (startLaneOf i) 3 0 s else s

theorem startLane_tends (up : List Bool) (s : State) (i : Nat) : Tends keepCascade s (startLane up s i) := by
  unfold startLane
  split
  · exact setLane_tends ..
  · exact .refl frame_cascade s

theorem startLanes_tends (up : List Bool) (s : State) : Tends keepCascade s (startLanes up s) :=
  Tends.foldl frame_cascade (g := startLane up) (startLane_tends up) _ s

theorem startLane_keepsUp {up : List Bool} {s : State} {k : Nat} (h : (laneRt s k).state = 3) (i : Nat) : (laneRt (startLane up s i) k).state = 3 := by
  unfold startLane
  split
  · by_cases hk : k = startLaneOf i
    · rw [hk, setLane_state]
    · rw [laneRt_setLane_other hk, h]
  · exact h

theorem startLaneList_keepsUp {up : List Bool} {k : Nat} (l : List Nat) {s : State} (h : (laneRt s k).state = 3) :
    (laneRt (l.foldl (startLane up) s) k).state = 3 := by
  induction l generalizing s with
  | nil => exact h
  | cons i l ih => exact ih (startLane_keepsUp h i)

theorem startLaneList_up {up : List Bool} {i : Nat} (hu : up.getD i false = true) {l : List Nat} (hi : i ∈ l) (s : State) :
    (laneRt (l.foldl (startLane up) s) (startLaneOf i)).state = 3 := by
  induction l generalizing s with
  | nil => exact absurd hi List.not_mem_nil
  | cons j l ih =>
    obtain rfl | hl := List.mem_cons.mp hi
    · refine startLaneList_keepsUp l ?_
      rw [startLane, if_pos hu, setLane_state]
    · exact ih hl _

/-- Every lane that the training brought up is UP (R444). -/
theorem startLanes_up {up : List Bool} {i : Nat} (h : i < 52) (hu : up.getD i false = true) (s : State) :
    (laneRt (startLanes up s) (startLaneOf i)).state = 3 := startLaneList_up hu (List.mem_range.mpr h) s

/-- SETUP entered from STARTING, with heads settled (R444). -/
def startedUp (f : StartFacts) (s : State) : State := settleHeads (setMode .setup (startLanes f.lanesUp (startDram f.dramOk s)))

theorem startDram_trained {l : List Bool} {s : State} (h : ∀ p ∈ s.mem.channels, l.getD p.1 false = true) :
    ∀ p ∈ (startDram l s).mem.channels, p.2.trained = true := by
  intro p hp
  obtain ⟨q, hq, rfl⟩ := List.mem_map.mp hp
  exact h q hq

theorem startDram_all {l : List Bool} {s : State} (h : ∀ p ∈ s.mem.channels, l.getD p.1 false = true) :
    ((startDram l s).mem.channels.all fun p => p.2.trained) = true := List.all_eq_true.mpr (startDram_trained h)

theorem startDram_missing {l : List Bool} {s : State} {p : Nat × Channel} (hp : p ∈ s.mem.channels) (h : l.getD p.1 false = false) :
    ((startDram l s).mem.channels.all fun p => p.2.trained) = false := by
  rw [List.all_eq_false]
  refine ⟨(p.1, { p.2 with trained := l.getD p.1 false }), List.mem_map.mpr ⟨p, hp, rfl⟩, ?_⟩
  simp only [h]
  exact Bool.false_ne_true

theorem Tends.cascade_power {s t : State} (h : Tends keepCascade s t) : t.power = s.power := h.moves.frame.power

theorem Tends.cascade_mem {s t : State} (h : Tends keepCascade s t) : t.mem = s.mem := h.moves.frame.mem

theorem Tends.mode_power {s t : State} (h : Tends keepModuleCascade s t) : t.power = s.power ∧ t.mem = s.mem := ⟨h.moves.frame.power, h.moves.frame.mem⟩

theorem OnlyTs.parts {s t : State} (h : OnlyTs s t) : t.module = s.module ∧ t.power = s.power ∧ t.mem = s.mem := by
  have h' : Reporting s { t with ts := s.ts } := h
  exact ⟨h'.module, h'.power, h'.mem⟩

theorem startedUp_keeps (f : StartFacts) (s : State) :
    (startedUp f s).module = { s.module with mode := .setup } ∧ (startedUp f s).power = s.power
      ∧ (startedUp f s).mem = (startDram f.dramOk s).mem
      ∧ ∀ k, laneRt (startedUp f s) k = laneRt (startLanes f.lanesUp (startDram f.dramOk s)) k := by
  have hlanes := startLanes_tends f.lanesUp (startDram f.dramOk s)
  have hmode := setMode_tends .setup (startLanes f.lanesUp (startDram f.dramOk s))
  obtain ⟨h1, h2, h3⟩ := (settleHeads_onlyTs (setMode .setup (startLanes f.lanesUp (startDram f.dramOk s)))).parts
  refine ⟨?_, ?_, ?_, fun k => laneRt_congr ?_ k⟩
  · rw [startedUp, h1, setMode_module, hlanes.cascade_module]
    rfl
  · rw [startedUp, h2, hmode.mode_power.1, hlanes.cascade_power]
    rfl
  · rw [startedUp, h3, hmode.mode_power.2, hlanes.cascade_mem]
  · rw [startedUp, settleHeads_link, setMode_link]

theorem execStartingComplete_up {f : StartFacts} {s : State} (hm : s.module.mode = .starting) (hr : s.power.sysResetHeld = false)
    (ha : s.power.shutdownAsked = false) (hd : ∀ p ∈ s.mem.channels, f.dramOk.getD p.1 false = true) (hc : f.selfChecksOk = true) :
    execStartingComplete f s = .next (startedUp f s) := by
  have hall := startDram_all hd
  have hask : (startedUp f s).power.shutdownAsked = false := by rw [(startedUp_keeps f s).2.1, ha]
  unfold execStartingComplete
  simp only [hm, hr, hall, hc, bne_self_eq_false, Bool.or_self, Bool.not_true, Bool.false_eq_true, if_false]
  exact congrArg _ (if_neg (by rw [← startedUp, hask]; exact Bool.false_ne_true))

theorem execStartingComplete_dram {f : StartFacts} {p : Nat × Channel} {s : State} (hm : s.module.mode = .starting)
    (hr : s.power.sysResetHeld = false) (hp : p ∈ s.mem.channels) (h : f.dramOk.getD p.1 false = false) :
    execStartingComplete f s = .next (enterFault 3 0 (startDram f.dramOk s)) := by
  have hall := startDram_missing hp h
  unfold execStartingComplete
  simp only [hm, hr, hall, bne_self_eq_false, Bool.or_self, Bool.not_false, Bool.false_eq_true, if_false, if_true]

theorem execStartingComplete_selftest {f : StartFacts} {s : State} (hm : s.module.mode = .starting) (hr : s.power.sysResetHeld = false)
    (hd : ∀ p ∈ s.mem.channels, f.dramOk.getD p.1 false = true) (hc : f.selfChecksOk = false) :
    execStartingComplete f s = .next (enterFault 2 0 (startLanes f.lanesUp (startDram f.dramOk s))) := by
  have hall := startDram_all hd
  unfold execStartingComplete
  simp only [hm, hr, hall, hc, bne_self_eq_false, Bool.or_self, Bool.not_true, Bool.not_false, Bool.false_eq_true, if_false, if_true]

/-! ## Contacts -/

theorem systemInput_raises {s u : State} (hh : u.host = s.host) (hq : u.queue = s.queue) (ht : u.time = s.time) (hc : u.cascade = s.cascade)
    (contact : Nat) (high : Bool) (cause : Nat) :
    Raises 0x0B89 .module (position s) [it 1 contact, it 1 (flag high), it 1 cause] s (systemInput contact high cause u) := by
  have hpos : position u = position s := by
    unfold position
    rw [hc]
  unfold systemInput raiseMod
  rw [hpos]
  exact raise_raises _ _ _ _ s u false hh (congrArg QueueSt.events hq) (congrArg QueueSt.seqs hq) (congrArg QueueSt.evtMasks hq) hpos
    (congrArg TimeSt.wall ht)

/-- All but power. -/
abbrev keepPower (s t : State) : State := { t with power := s.power }

theorem frame_power : Frame keepPower where
  back _ _ _ _ _ _ _ := rfl
  again _ _ _ := rfl
  self _ := rfl

theorem modModule_tends (f : ModuleSt → ModuleSt) (s : State) : Tends keepModule s (s.modModule f) := ⟨⟨.same rfl rfl rfl rfl, rfl⟩, rfl, rfl⟩

theorem modPower_tends (f : PowerSt → PowerSt) (s : State) : Tends keepPower s (s.modPower f) := ⟨⟨.same rfl rfl rfl rfl, rfl⟩, rfl, rfl⟩

theorem systemInput_all (c : Nat) (high : Bool) (cause : Nat) (s : State) : Tends keepAll s (systemInput c high cause s) := .raiseMod frame_all ..

theorem Tends.power_of_all {s t : State} (h : Tends keepAll s t) : Tends keepPower s t := h.widen frame_power rfl

theorem Tends.drain_of_power {s t : State} (h : Tends keepPower s t) : Tends keepDrain s t := h.widen frame_drain rfl

/-- A shutdown asked for, before the drain begins (R454). -/
def shutdownBegun (s : State) : State := s.modPower fun p => { p with shutdownDraining := true, shutdownAsked := false }

theorem inService_modes {s : State} (h : inService s = true) :
    s.module.mode = .setup ∨ s.module.mode = .run ∨ s.module.mode = .lean ∨ s.module.mode = .maintenance := by
  unfold inService at h
  cases hm : s.module.mode <;> simp [hm] at h ⊢

theorem execShutdown_drains {s : State} (hi : inService s = true) (hr : s.power.sysResetHeld = false) (hd : s.power.shutdownDraining = false) :
    execShutdown s = .next (startDrain (shutdownBegun (systemInput 7 false 2 s))) := by
  have hoff := (mode_of_inService hi).1
  have hmod := systemInput_module 7 false 2 s
  unfold execShutdown
  simp only [hoff, hr, hd, decide_false, Bool.or_self, Bool.false_eq_true, if_false, hmod]
  obtain hm | hm | hm | hm := inService_modes hi <;> rw [hm] <;> rfl

theorem execShutdown_waits {s : State} (hm : s.module.mode = .starting) (hr : s.power.sysResetHeld = false)
    (hd : s.power.shutdownDraining = false) :
    execShutdown s = .next ((systemInput 7 false 2 s).modPower fun p => { p with shutdownAsked := true }) := by
  simp [execShutdown, hm, hr, hd, systemInput_module]

theorem execShutdown_sleeping {s : State} (hm : s.module.mode = .idleLink) (hr : s.power.sysResetHeld = false)
    (hd : s.power.shutdownDraining = false) :
    execShutdown s = .next (goOff ((systemInput 7 false 2 s).modPower fun p => { p with shutdownDone := true })) := by
  simp [execShutdown, hm, hr, hd, systemInput_module]

theorem goOff_power (s : State) : (goOff s).power = s.power ∧ (goOff s).ts = s.ts := by
  obtain ⟨-, -, -, -, -, h⟩ := goOff_keeps s
  have hpower := h.power
  have hts := h.ts
  exact ⟨hpower, hts⟩

/-- Settles O46: the end of STARTING by its report, each contact by the mode it finds. -/
theorem startingEndsAndInputsAct : Obligations.StartingEndsAndInputsAct := by
  unfold Obligations.StartingEndsAndInputsAct
  refine ⟨?up, ?dram, ?selftest, ?wake, ?strap, ?service, ?drain, ?waits, ?sleeping, ?drained⟩
  case up =>
    intro f s hm hr ha hd hc
    obtain ⟨hmod, -, hmem, hlanes⟩ := startedUp_keeps f s
    refine completes_of_exec (execStartingComplete_up hm hr ha hd hc) ⟨hmod, fun i hi hu => ?_, ?_, by rw [hmem]; rfl⟩
    · rw [hlanes]
      exact startLanes_up hi hu _
    · rw [hmem]
      exact startDram_trained hd
  case dram =>
    intro f p s hm hr hp h
    obtain ⟨hmode, hcause, -⟩ := enterFault_withdraws (cause := 3) (s := startDram f.dramOk s) (fun hx => absurd (hm.symm.trans hx) (by decide))
      (fun hx => absurd (hm.symm.trans hx) (by decide)) (by decide) (by decide) 0
    exact completes_of_exec (execStartingComplete_dram hm hr hp h) ⟨hmode, hcause⟩
  case selftest =>
    intro f s hm hr hd hc
    have hmode' : (startLanes f.lanesUp (startDram f.dramOk s)).module.mode = .starting := by
      rw [(startLanes_tends ..).cascade_module]
      exact hm
    obtain ⟨hmode, hcause, -⟩ := enterFault_withdraws (cause := 2) (s := startLanes f.lanesUp (startDram f.dramOk s))
      (fun hx => absurd (hmode'.symm.trans hx) (by decide)) (fun hx => absurd (hmode'.symm.trans hx) (by decide)) (by decide) (by decide) 0
    exact completes_of_exec (execStartingComplete_selftest hm hr hd hc) ⟨hmode, hcause⟩
  case wake =>
    intro s hm hr
    have hexec : execWake s = .next (systemInput 6 false 1 (s.modModule fun m => { m with waking := true })) := by
      simp [execWake, hm, hr]
    exact completes_of_exec hexec ⟨systemInput_module .., systemInput_raises (u := s.modModule _) rfl rfl rfl rfl 6 false 1,
      ((modModule_tends _ s).trans frame_module (systemInput_tends ..)).moves.frame⟩
  case strap =>
    intro m b s hoff hm hb
    have hexec : execStrapCheck m b s = .next (systemInput 9 (!m) 4 s) := by
      simp [execStrapCheck, hoff, hm, hb, systemInput_module]
    refine completes_of_exec hexec ⟨?_, (systemInput_all ..).moves.frame⟩
    have h := systemInput_raises (s := s) (u := s) rfl rfl rfl rfl 9 (!m) 4
    cases m <;> exact h
  case service =>
    intro low s hoff hl hc
    have hexec : execServiceEn low s = .next (systemInput 8 (!low) 3 (s.modPower fun p => { p with serviceEn := low })) := by
      have hconn : (systemInput 8 (!low) 3 (s.modPower fun p => { p with serviceEn := low })).update.connected = false :=
        (congrArg UpdateSt.connected (raiseMod_reporting ..).update).trans hc
      simp [execServiceEn, hoff, hl, hconn]
    refine completes_of_exec hexec ⟨systemInput_power .., ?_,
      ((modPower_tends _ s).trans frame_power (systemInput_all ..).power_of_all).moves.frame⟩
    have h := systemInput_raises (s := s) (u := s.modPower fun p => { p with serviceEn := low }) rfl rfl rfl rfl 8 (!low) 3
    cases low <;> exact h
  case drain =>
    intro s hi hr hd
    have hin := systemInput_all 7 false 2 s
    have hbegun : Tends keepDrain s (shutdownBegun (systemInput 7 false 2 s)) :=
      (hin.power_of_all.trans frame_power (modPower_tends ..)).drain_of_power
    obtain ⟨hpower, hmod⟩ := startDrain_keeps (shutdownBegun (systemInput 7 false 2 s))
    have ht := hbegun.trans frame_drain (startDrain_tends _)
    refine completes_of_exec (execShutdown_drains hi hr hd) ⟨?_, ?_, fun k x hx => startDrain_stops ?_, ?_, ht.moves.frame⟩
    · rw [hpower, ← systemInput_power 7 false 2 s]
      rfl
    · rw [hmod]
      exact systemInput_module ..
    · rw [← hx, ← hin.all_ingest.1]
      rfl
    · have h := systemInput_raises (s := s) (u := s) rfl rfl rfl rfl 7 false 2
      exact h.tells ((modPower_tends _ (systemInput 7 false 2 s)).moves.tells.trans (startDrain_tends _).moves.tells)
  case waits =>
    intro s hm hr hd
    have hpower := systemInput_power 7 false 2 s
    refine completes_of_exec (execShutdown_waits hm hr hd) ⟨?_, systemInput_module ..,
      ((systemInput_all 7 false 2 s).power_of_all.trans frame_power (modPower_tends ..)).moves.frame⟩
    rw [← hpower]
    rfl
  case sleeping =>
    intro s hm hr hd
    obtain ⟨hmod, hatt, -, hhead, -, -⟩ := goOff_keeps ((systemInput 7 false 2 s).modPower fun p => { p with shutdownDone := true })
    exact completes_of_exec (execShutdown_sleeping hm hr hd)
      ⟨by rw [hmod], by rw [(goOff_power _).1]; rfl, hatt, hhead⟩
  case drained =>
    intro s hd he hq
    have hexec : execShutdownDrainComplete s
        = .next (goOff (s.modPower fun p => { p with shutdownDraining := false, shutdownDone := true })) := by
      simp [execShutdownDrainComplete, hd, he, hq]
    obtain ⟨hmod, hatt, hlink, hhead, -, -⟩ := goOff_keeps (s.modPower fun p => { p with shutdownDraining := false, shutdownDone := true })
    obtain ⟨hpower, hts⟩ := goOff_power (s.modPower fun p => { p with shutdownDraining := false, shutdownDone := true })
    exact completes_of_exec hexec ⟨by rw [hmod], by rw [hpower]; rfl, by rw [hpower]; rfl, hatt, hlink, hhead, by rw [hts]; rfl⟩

end Sys2Proof.Machine
end

-- Power (R193 to R195, R407, R422 to R426, R441)
section
/-! SUPPORT. Mains, the keep-alive bus and the Tailstock's domain, and the management domain's start. -/

namespace Sys2Proof.Machine

open Sys2Proof

/-! ## Mains -/

/-- The feed's state put, before it is told (R426). -/
def feedPut (f : Feed) (s : State) : State := s.modPower fun p => { p with feed := f }

theorem setFeed_keeps (f : Feed) (s : State) : Tends keepPower s (setFeed f s) ∧ (setFeed f s).power = { s.power with feed := f } := by
  unfold setFeed
  split
  · next h => exact ⟨.refl frame_power s, by rw [← h]⟩
  · exact ⟨(modPower_tends _ s).trans frame_power (.raiseMod frame_power ..), (raiseMod_reporting ..).power⟩

theorem raiseMod_raises_from {s u : State} (hh : u.host = s.host) (hq : u.queue = s.queue) (ht : u.time = s.time) (hc : u.cascade = s.cascade)
    (c : Nat) (l : Items) : Raises c .module (position s) l s (raiseMod c l u) := by
  have hpos : position u = position s := by
    unfold position
    rw [hc]
  unfold raiseMod
  rw [hpos]
  exact raise_raises _ _ _ _ s u false hh (congrArg QueueSt.events hq) (congrArg QueueSt.seqs hq) (congrArg QueueSt.evtMasks hq) hpos
    (congrArg TimeSt.wall ht)

/-- An inlet as its AC comes, before it is told (R423). -/
def inletCome (volts : Nat) (s : State) : State := (setInlet 0 true volts s).modPower fun p => { p with bothLostSince := none }

theorem inletCome_power (volts : Nat) (s : State) :
    (inletCome volts s).power = { s.power with inlet0 := true, volts0 := volts, bothLostSince := none } := rfl

/-- An inlet's AC told, and the feed on again where it was off (R423, R426). -/
def inletTold (volts : Nat) (s : State) : State :=
  let t := mainsState 0 true volts s
  if t.power.feed = .off then setFeed .supplying t else t

theorem inletTold_keeps (volts : Nat) (s : State) :
    Tends keepPower s (inletTold volts s)
      ∧ (inletTold volts s).power = { s.power with feed := if s.power.feed = .off then .supplying else s.power.feed } := by
  have hm : Tends keepPower s (mainsState 0 true volts s) := .raiseMod frame_power ..
  have hp : (mainsState 0 true volts s).power = s.power := (raiseMod_reporting ..).power
  unfold inletTold
  dsimp only
  rw [hp]
  split
  · exact ⟨hm.trans frame_power (setFeed_keeps ..).1, by rw [(setFeed_keeps ..).2, hp]⟩
  · exact ⟨hm, hp⟩

theorem mainsState_raises {s u : State} (hh : u.host = s.host) (hq : u.queue = s.queue) (ht : u.time = s.time) (hc : u.cascade = s.cascade)
    (hm : u.mgmt = s.mgmt) (inlet : Nat) (present : Bool) (volts : Nat) :
    Raises 0x0B87 .module (position s) [it 1 inlet, it 1 (flag present), it 2 volts, it 2 (sensorValue s (34 - inlet)).toNat] s
      (mainsState inlet present volts u) := by
  have hv : sensorValue u (34 - inlet) = sensorValue s (34 - inlet) := by
    unfold sensorValue
    rw [hm]
  unfold mainsState
  rw [hv]
  exact raiseMod_raises_from hh hq ht hc _ _

theorem inletTold_tells (volts : Nat) (s : State) : Tells (mainsState 0 true volts s) (inletTold volts s) := by
  unfold inletTold
  dsimp only
  split
  · exact (setFeed_keeps ..).1.moves.tells
  · exact .refl _

theorem execInletPresent_comes {volts : Nat} {s : State} (h0 : s.power.inlet0 = false) (h85 : 85 ≤ volts) (h265 : volts ≤ 265) :
    execInletPresent 0 volts s = .next (inletTold volts (inletCome volts s)) := by
  have hno : (decide (1 < 0) || inletOn s 0 || decide (volts < 85) || decide (265 < volts)) = false := by
    simp [inletOn, h0, h85, h265]
  unfold execInletPresent
  rw [hno, if_neg Bool.false_ne_true]
  rfl

/-- An inlet as its AC goes, before it is told (R423, R424). -/
def inletGone (volts : Nat) (s : State) : State :=
  (setInlet 1 false volts s).modPower fun p => { p with bothLostSince := if p.inlet0 || p.inlet1 then none else some s.time.mono }

theorem execInletLost_goes {volts : Nat} {s : State} (h1 : s.power.inlet1 = true) (hv : volts < 75 ∨ 275 < volts) :
    execInletLost 1 volts s = .next (mainsState 1 false volts (inletGone volts s)) := by
  have hno : (decide (1 < 1) || !inletOn s 1 || (decide (75 ≤ volts) && decide (volts ≤ 275))) = false := by
    have hv' : (decide (75 ≤ volts) && decide (volts ≤ 275)) = false := by
      simp only [Bool.and_eq_false_iff, decide_eq_false_iff_not]
      omega
    rw [hv']
    simp [inletOn, h1]
  unfold execInletLost
  rw [hno, if_neg Bool.false_ne_true]
  rfl

theorem inletGone_power (volts : Nat) (s : State) :
    (inletGone volts s).power
      = { s.power with inlet1 := false, volts1 := volts, bothLostSince := if s.power.inlet0 then none else some s.time.mono } := by
  cases h : s.power.inlet0 <;> simp [inletGone, setInlet, State.modPower, h]

theorem inletGone_tends (volts : Nat) (s : State) : Tends keepPower s (inletGone volts s) :=
  (modPower_tends _ s).trans frame_power (modPower_tends ..)

/-! ## Hold-up -/

/-- The Tailstock's domain down, once its lanes are (R193). -/
def tailstockOff (s : State) : State :=
  (s.modTs fun t => { t with powered := false }).modTime fun t => { t with tRef := none, lastRef := none }

/-- The lanes of the Tailstock's domain (R15). -/
def tailstockLanes : List Nat := List.range' 8 12 ++ List.range' 32 32

theorem tailstockDown_eq (s : State) : tailstockDown s = tailstockOff (lanesDown tailstockLanes s) := rfl

theorem tailstockOff_keeps (l : List Nat) (s : State) :
    (tailstockOff (lanesDown l s)).module = s.module ∧ (tailstockOff (lanesDown l s)).power = s.power
      ∧ (tailstockOff (lanesDown l s)).host.attached = s.host.attached ∧ (tailstockOff (lanesDown l s)).ts.powered = false
      ∧ (tailstockOff (lanesDown l s)).time.tRef = none ∧ ∀ k ∈ l, (laneRt (tailstockOff (lanesDown l s)) k).state = 1 := by
  have h := lanesDown_tends l s
  have hatt := congrArg HostSt.attached h.host
  exact ⟨h.cascade_module, h.cascade_power, hatt, rfl, rfl, fun k hk => lanesDown_state hk s⟩

theorem tailstockDown_keeps (s : State) :
    (tailstockDown s).module = s.module ∧ (tailstockDown s).power = s.power ∧ (tailstockDown s).host.attached = s.host.attached
      ∧ (tailstockDown s).ts.powered = false ∧ (tailstockDown s).time.tRef = none
      ∧ ∀ k ∈ tailstockLanes, (laneRt (tailstockDown s) k).state = 1 := by
  rw [tailstockDown_eq]
  exact tailstockOff_keeps tailstockLanes s

/-- The main domain down, unless it is already. -/
def offAfter (s : State) : State := if s.module.mode = .off then s else goOff s

theorem offAfter_keeps (s : State) :
    (offAfter s).module.mode = .off ∧ (offAfter s).power = s.power ∧ (offAfter s).ts = s.ts
      ∧ (s.module.mode ≠ .off → (offAfter s).host.attached = false) := by
  unfold offAfter
  split
  · next h => exact ⟨h, rfl, rfl, fun hne => absurd h hne⟩
  · obtain ⟨hmod, hatt, -⟩ := goOff_keeps s
    obtain ⟨hpower, hts⟩ := goOff_power s
    exact ⟨by rw [hmod], hpower, hts, fun _ => hatt⟩

/-- The Tailstock's domain down where nothing else powers its bus (R20). -/
def aloneDown (alone : Bool) (s : State) : State := if alone && s.ts.powered then tailstockDown s else s

theorem aloneDown_keeps (alone : Bool) (s : State) :
    (aloneDown alone s).module = s.module ∧ (aloneDown alone s).power = s.power ∧ (aloneDown alone s).host.attached = s.host.attached
      ∧ (alone = false → (aloneDown alone s).ts = s.ts) ∧ (alone = true → (aloneDown alone s).ts.powered = false) := by
  unfold aloneDown
  cases alone with
  | false => exact ⟨rfl, rfl, rfl, fun _ => rfl, nofun⟩
  | true =>
    cases hp : s.ts.powered with
    | false => exact ⟨rfl, rfl, rfl, nofun, fun _ => hp⟩
    | true =>
      obtain ⟨h1, h2, h3, h4, -⟩ := tailstockDown_keeps s
      exact ⟨h1, h2, h3, nofun, fun _ => h4⟩

theorem endFeed_eq (s : State) : endFeed s = aloneDown s.cascade.twin.isNone (offAfter (setFeed .off s)) := rfl

theorem endFeed_keeps (s : State) :
    (endFeed s).module.mode = .off ∧ (endFeed s).power = { s.power with feed := .off }
      ∧ (s.module.mode ≠ .off → (endFeed s).host.attached = false) ∧ (s.cascade.twin ≠ none → (endFeed s).ts = s.ts)
      ∧ (s.cascade.twin = none → (endFeed s).ts.powered = false) := by
  obtain ⟨hfeed, hpow⟩ := setFeed_keeps .off s
  obtain ⟨hmode, hpow', hts, hatt⟩ := offAfter_keeps (setFeed .off s)
  obtain ⟨amod, apow, aatt, ats, adown⟩ := aloneDown_keeps s.cascade.twin.isNone (offAfter (setFeed .off s))
  have fmod : (setFeed .off s).module = s.module := hfeed.moves.frame.module
  have fts : (setFeed .off s).ts = s.ts := hfeed.moves.frame.ts
  rw [endFeed_eq]
  refine ⟨by rw [amod, hmode], by rw [apow, hpow', hpow], fun hne => ?_, fun ht => ?_, fun ht => adown (by rw [ht]; rfl)⟩
  · rw [aatt]
    exact hatt (by rw [fmod]; exact hne)
  · rw [ats (by cases h : s.cascade.twin with
      | none => exact absurd h ht
      | some v => rfl), hts, fts]

theorem execHoldupEnd_feed {since : Nat} {s : State} (hs : s.power.bothLostSince = some since) (hd : since + 20000000 ≤ s.time.mono)
    (hm : s.power.managementUp = true) (ho : s.module.mode ≠ .off ∨ s.power.feed ≠ .off) : execHoldupEnd s = .next (endFeed s) := by
  have hlate : ¬ s.time.mono < since + 20000000 := Nat.not_lt.mpr hd
  have hon : (s.module.mode != .off || s.power.feed != .off) = true := by simpa using ho
  simp only [execHoldupEnd, hs, hlate, hm, hon, decide_false, Bool.not_true, Bool.or_self, Bool.false_eq_true, if_false, if_true]

theorem execHoldupEnd_standby {since : Nat} {s : State} (hs : s.power.bothLostSince = some since) (hd : since + 60000000 ≤ s.time.mono)
    (hm : s.power.managementUp = true) (ho : s.module.mode = .off) (hf : s.power.feed = .off) : execHoldupEnd s = .next (endStandby s) := by
  have hlate : ¬ s.time.mono < since + 20000000 := by omega
  simp only [execHoldupEnd, hs, hlate, hm, ho, hf, hd, decide_false, Bool.not_true, bne_self_eq_false, Bool.or_self, Bool.false_eq_true, if_false,
    if_true]

/-- All but power and the cascade. -/
abbrev keepPowerCascade (s t : State) : State := { t with power := s.power, cascade := s.cascade }

theorem frame_powerCascade : Frame keepPowerCascade where
  back _ _ _ _ _ _ _ := rfl
  again _ _ _ := rfl
  self _ := rfl

theorem Tends.powerCascade_of_power {s t : State} (h : Tends keepPower s t) : Tends keepPowerCascade s t := h.widen frame_powerCascade rfl

theorem Tends.powerCascade_of_cascade {s t : State} (h : Tends keepCascade s t) : Tends keepPowerCascade s t := h.widen frame_powerCascade rfl

/-! ## The Tailstock powered up -/

/-- Records sent one by one. -/
def recordsSent (bond : Bond) (l : List TsRecord) (s : State) : State := l.foldl (fun s r => emit (.record bond (claimNow s) r) s) s

theorem recordsSent_tends (bond : Bond) (l : List TsRecord) (s : State) : Tends keepAll s (recordsSent bond l s) :=
  .foldl frame_all (fun _ _ => .emit frame_all ..) l s

theorem recordsSent_mem {bond : Bond} {r : TsRecord} {l : List TsRecord} (h : r ∈ l) (s : State) :
    ∃ c, Out.record bond c r ∈ (recordsSent bond l s).outbox := by
  induction l generalizing s with
  | nil => exact absurd h List.not_mem_nil
  | cons q l ih =>
    obtain rfl | hl := List.mem_cons.mp h
    · exact ⟨_, (recordsSent_tends bond l (emit (.record bond (claimNow s) r) s)).mem List.mem_cons_self⟩
    · exact ih hl (emit (.record bond (claimNow s) q) s)

theorem sendRecords_eq (b : SceneBank) (s : State) (key : Nat) :
    sendRecords b s key = recordsSent (if key < 32 then .toTailstock else .twin) (headRecords s b key) s := by
  unfold sendRecords recordsSent
  rfl

theorem sendRecords_tends (b : SceneBank) (s : State) (key : Nat) : Tends keepAll s (sendRecords b s key) := by
  rw [sendRecords_eq]
  exact recordsSent_tends ..

theorem sendRecordList_tends (b : SceneBank) (l : List Nat) (s : State) : Tends keepAll s (l.foldl (sendRecords b) s) :=
  .foldl frame_all (fun s k => sendRecords_tends b s k) l s

theorem headTiming_mem (s : State) (b : SceneBank) (key : Nat) : TsRecord.headTiming (key % 32) (headScene b key).timing ∈ headRecords s b key := by
  simp only [headRecords, List.mem_append, List.mem_cons, true_or, or_true]

theorem headTiming_sent {b : SceneBank} {key : Nat} {l : List Nat} (h : key ∈ l) (s : State) :
    ∃ c, Out.record (if key < 32 then .toTailstock else .twin) c (.headTiming (key % 32) (headScene b key).timing)
      ∈ (l.foldl (sendRecords b) s).outbox := by
  induction l generalizing s with
  | nil => exact absurd h List.not_mem_nil
  | cons k l ih =>
    rw [List.foldl_cons]
    obtain rfl | hl := List.mem_cons.mp h
    · obtain ⟨c, hc⟩ := recordsSent_mem (bond := if key < 32 then .toTailstock else .twin) (headTiming_mem s b key) s
      rw [← sendRecords_eq] at hc
      exact ⟨c, (sendRecordList_tends b l (sendRecords b s key)).mem hc⟩
    · exact ih hl _

/-- The heads of the scene in force that one Tailstock, or its twin, holds. -/
def headsOf (twin : Bool) (s : State) : List Nat := (s.scene.inForce.heads.map Prod.fst).filter fun k => decide (32 ≤ k) == twin

/-- The groups' records, and the orders to swap, sent after the heads' records (R196). -/
theorem rewriteTailstock_tends (twin : Bool) (s : State) :
    Tends keepAll ((headsOf twin s).foldl (sendRecords s.scene.inForce) s) (rewriteTailstock twin s) := by
  unfold rewriteTailstock
  dsimp only
  refine Tends.trans frame_all (b := ?groups) ?_ ?_
  case groups =>
    exact s.scene.inForce.groups.foldl
      (fun s p => emit (.record (if twin then .twin else .toTailstock) (claimNow s) (.syncGroup p.1 (some p.2))) s)
      ((headsOf twin s).foldl (sendRecords s.scene.inForce) s)
  · exact .foldl frame_all (fun _ _ => .emit frame_all ..) _ _
  · exact .foldl frame_all (fun _ _ => .emit frame_all ..) _ _

theorem rewriteTailstock_sends {twin : Bool} {k : Nat} {h : HeadScene} {s : State} (hk : mapGet s.scene.inForce.heads k = some h)
    (ht : decide (32 ≤ k) = twin) :
    Tends keepAll s (rewriteTailstock twin s)
      ∧ ∃ c, Out.record (if k < 32 then .toTailstock else .twin) c (.headTiming (k % 32) h.timing) ∈ (rewriteTailstock twin s).outbox := by
  have hin : k ∈ headsOf twin s :=
    List.mem_filter.mpr ⟨List.mem_map.mpr ⟨(k, h), mem_of_mapGet hk, rfl⟩, by simp [ht]⟩
  obtain ⟨c, hc⟩ := headTiming_sent (b := s.scene.inForce) hin s
  have hscene : headScene s.scene.inForce k = h := by
    unfold headScene mapGetD
    rw [hk]
    rfl
  rw [hscene] at hc
  exact ⟨(sendRecordList_tends ..).trans frame_all (rewriteTailstock_tends ..), c, (rewriteTailstock_tends twin s).mem hc⟩

theorem rewriteTailstock_all (twin : Bool) (s : State) : Tends keepAll s (rewriteTailstock twin s) :=
  (sendRecordList_tends ..).trans frame_all (rewriteTailstock_tends ..)

/-- The Tailstock initialised, with its counter of frames at 0 (R193). -/
def tailstockFresh (s : State) : State := (tailstockInit s).modTime fun t => { t with spindle := 0 }

/-- The Tailstock initialised, and its records written by a main section in service. -/
def tailstockUp (s : State) : State := if inService s then rewriteTailstock false s else s

theorem tailstockUp_tends (s : State) : Tends keepAll s (tailstockUp s) := by
  unfold tailstockUp
  split
  · exact rewriteTailstock_all ..
  · exact .refl frame_all s

/-- All but the Tailstock and time. -/
abbrev keepTsTime (s t : State) : State := { t with ts := s.ts, time := s.time }

theorem frame_tsTime : Frame keepTsTime where
  back _ _ _ _ _ _ _ := rfl
  again _ _ _ := rfl
  self _ := rfl

theorem tailstockFresh_frame {s t : State} (h : Reporting (tailstockFresh s) t) : Reporting s (keepTsTime s t) :=
  frame_tsTime.reporting (b := tailstockFresh s) rfl h

theorem execTailstockPowerUp_own {s : State} (h : s.ts.powered = false) : execTailstockPowerUp s = .next (tailstockUp (tailstockFresh s)) := by
  unfold execTailstockPowerUp
  rw [h]
  rfl

/-! ## The management domain powered up -/

/-- The management domain up, before its pair starts (R407, R441). -/
def managementUp (low : Bool) (s : State) : State :=
  ((s.modPower fun p => { p with managementUp := true, shutdownDone := low }).modTime fun t => { t with mgmtNs := 0 }).modMgmt fun m =>
    { m with
      step := 0, testFloor := none, vcoreMv := 800, vcoreRemoved := false, restarting := false, expiries := [], firstExpiry := none, sensors := [],
      limitSince := [], lastTakeNs := none, lastThermalNs := none, lastEvalNs := none }

/-- The pair noted as started. -/
def pairNoted (s : State) : State := s.modMgmt fun m => { m with restarting := false, pairStartNs := some s.time.mono }

/-- In OFF the start of the pair changes its own part and the log, whether or not a bank passes its check. -/
theorem pairStarted_off (b : BootFacts) {s : State} (h : s.module.mode = .off) : OnlyEvents (pairNoted s) (pairStarted b s) := by
  have hlog : OnlyEvents (pairNoted s) (logAdd 0x0B84 0 .module (position s) [] false (pairNoted s)) := logAdd_onlyEvents ..
  have hfail : ∀ u, OnlyEvents u (bankFailed u) := fun u => logAdd_onlyEvents ..
  have hoff : ∀ u, OnlyEvents (pairNoted s) u → enterFault 1 0 u = u := fun u hu => by
    have hm : u.module.mode = .off := (congrArg ModuleSt.mode hu.reporting.module).trans h
    simp [enterFault, hm]
  unfold pairStarted
  dsimp only
  split
  · split
    · exact hlog
    · exact hlog.trans (hfail _)
  · exact (congrArg (OnlyEvents (pairNoted s)) (hoff _ (hlog.trans (hfail _)))).mpr (hlog.trans (hfail _))

theorem execManagementPowerUp_boots {b : BootFacts} {s : State} (hm : s.power.managementUp = false)
    (hi : s.power.inlet0 = true ∨ s.power.inlet1 = true) :
    execManagementPowerUp b false s = .next (powerUp b (pairStarted b (managementUp false s))) := by
  have hon : (s.power.inlet0 || s.power.inlet1) = true := by simpa using hi
  simp only [execManagementPowerUp, hm, hon, Bool.false_and, Bool.not_true, Bool.or_self, Bool.false_eq_true, if_false]
  rfl

theorem execManagementPowerUp_holds {b : BootFacts} {s : State} (hm : s.power.managementUp = false)
    (hi : s.power.inlet0 = true ∨ s.power.inlet1 = true) :
    execManagementPowerUp b true s = .next (pairStarted b (managementUp true s)) := by
  have hon : (s.power.inlet0 || s.power.inlet1) = true := by simpa using hi
  unfold execManagementPowerUp
  rw [hm, hon]
  rfl

/-- The pair started from power-up, where the preferred bank boots. -/
theorem managementUp_starts {b : BootFacts} {s : State} (hb : bankBoots s b s.update.bootPointer = true) :
    OnlyEvents (pairNoted (managementUp false s)) (pairStarted b (managementUp false s)) := pairStarted_boots_frame hb

theorem BootsFrom.ladder {cause n : Nat} {b : BootFacts} {f : Bool} {s t : State} (h : BootsFrom cause b n f s t) :
    t.mgmt.step = s.mgmt.step ∧ (s.mgmt.vcoreMv = 800 → t.mgmt.vcoreMv = 800) := by
  obtain ⟨removed, hp⟩ := mainStopped_pair cause s
  have ht := h.tends.pair.trans hp
  have hstep := congrArg MgmtSt.step ht
  have hcore := congrArg MgmtSt.vcoreMv ht
  refine ⟨hstep, fun hv => hcore.trans ?_⟩
  change (if removed then 800 else s.mgmt.vcoreMv) = 800
  cases removed
  · exact hv
  · rfl

/-- The main domain comes up, and boots (R441, R446). -/
theorem powerUp_boots {b : BootFacts} {s u : State} (hupd : u.update = s.update) (hheads : u.ts.heads = s.ts.heads)
    (href : u.time.tRef = s.time.tRef) (hcount : u.mgmt.bootCount = s.mgmt.bootCount) (hstep : u.mgmt.step = 0) (hcore : u.mgmt.vcoreMv = 800)
    (hphase : s.update.phase ≠ .receiving) (hb : bankBoots s b s.update.bootPointer = true) :
    Restarted 0 s (powerUp b u) ∧ (powerUp b u).power = { u.power with shutdownDraining := false, shutdownAsked := false }
      ∧ (powerUp b u).mgmt.step = 0 ∧ (powerUp b u).mgmt.vcoreMv = 800 := by
  have hboot := mainReset_first (cause := 0) (b := b) (s := u) (.inl (by decide)) (by rw [hupd]; exact hphase)
    (by rw [bankBoots_congr hupd, hupd]; exact hb) (by rw [bankLost_commanded (by decide)]; nofun)
  obtain ⟨hladder, hvolts⟩ := hboot.ladder
  unfold powerUp
  exact ⟨hboot.restarted.of_same hcount hheads href, hboot.power.trans (mainStopped_power ..), hladder.trans hstep, hvolts hcore⟩

/-- What the start of the pair leaves of a module whose management domain comes up. -/
theorem managementUp_keeps {s u : State} (h : OnlyEvents (pairNoted (managementUp false s)) u) :
    u.update = s.update ∧ u.ts.heads = s.ts.heads ∧ u.time.tRef = s.time.tRef ∧ u.mgmt.bootCount = s.mgmt.bootCount ∧ u.mgmt.step = 0
      ∧ u.mgmt.vcoreMv = 800 ∧ u.power = { s.power with managementUp := true, shutdownDone := false } := by
  have hts := congrArg TsSt.heads h.reporting.ts
  have htime := congrArg TimeSt.tRef h.reporting.time
  have hcount := congrArg MgmtSt.bootCount h.pair
  have hstep := congrArg MgmtSt.step h.pair
  have hcore := congrArg MgmtSt.vcoreMv h.pair
  exact ⟨h.reporting.update, hts, htime, hcount, hstep, hcore, h.reporting.power⟩

/-- Settles O47: each change of power by what it takes down or brings up. -/
theorem powerComesAndGoes : Obligations.PowerComesAndGoes := by
  unfold Obligations.PowerComesAndGoes
  refine ⟨?come, ?gone, ?feed, ?standby, ?limit, ?low, ?own, ?twin, ?management, ?held⟩
  case come =>
    intro volts s h0 h85 h265
    obtain ⟨ht, hp⟩ := inletTold_keeps volts (inletCome volts s)
    rw [inletCome_power] at hp
    have hraise : Raises 0x0B87 .module (position s) [it 1 0, it 1 1, it 2 volts, it 2 (sensorValue s 34).toNat] s
        (inletTold volts (inletCome volts s)) :=
      Raises.tells (mainsState_raises (u := inletCome volts s) rfl rfl rfl rfl rfl 0 true volts) (inletTold_tells ..)
    refine completes_of_exec (execInletPresent_comes h0 h85 h265) ?_
    rw [hp]
    exact ⟨rfl, rfl, rfl, rfl, fun hf => if_pos hf, fun hf => if_neg hf, hraise,
      (((modPower_tends _ s).trans frame_power (modPower_tends ..)).trans frame_power ht).moves.frame⟩
  case gone =>
    intro volts s h1 hv
    exact completes_of_exec (execInletLost_goes h1 hv) ⟨(raiseMod_reporting ..).power.trans (inletGone_power volts s),
      mainsState_raises (u := inletGone volts s) rfl rfl rfl rfl rfl 1 false volts,
      ((inletGone_tends volts s).trans frame_power (.raiseMod frame_power ..)).moves.frame⟩
  case feed =>
    intro since s hs hd hm ho
    obtain ⟨hmode, hpow, hatt, htwin, halone⟩ := endFeed_keeps s
    exact completes_of_exec (execHoldupEnd_feed hs hd hm ho) ⟨hmode, by rw [hpow]; exact hm, by rw [hpow], hatt, htwin, halone⟩
  case standby =>
    intro since s hs hd hm ho hf
    have hlanes := lanesDown_tends [0, 4] s
    refine completes_of_exec (execHoldupEnd_standby hs hd hm ho hf) ⟨?_, lanesDown_state (by decide) s, lanesDown_state (by decide) s,
      fun k h0 h4 => laneRt_lanesDown_other (by simp [h0, h4]) s,
      (hlanes.powerCascade_of_cascade.trans frame_powerCascade (modPower_tends ..).powerCascade_of_power).moves.frame⟩
    rw [← hlanes.cascade_power]
    rfl
  case limit =>
    intro limited busMv feedW s hf
    have hexec : execKeepaliveCurrentLimit limited busMv feedW s
        = .next (setFeed (if limited then .limited else .supplying) (s.modPower fun p => { p with busMv := busMv, feedW := feedW })) :=
      congrArg _ (if_neg hf)
    obtain ⟨ht, hp⟩ := setFeed_keeps (if limited then .limited else .supplying) (s.modPower fun p => { p with busMv := busMv, feedW := feedW })
    refine completes_of_exec hexec ⟨hp, fun hsup hlim => ?_, ((modPower_tends _ s).trans frame_power ht).moves.frame⟩
    have hne : (s.modPower fun p => { p with busMv := busMv, feedW := feedW }).power.feed ≠ .limited := fun hx =>
      absurd (hsup.symm.trans hx) (by decide)
    rw [hlim, if_pos rfl, setFeed, if_neg hne]
    exact raiseMod_raises_from (u := feedPut .limited (s.modPower fun p => { p with busMv := busMv, feedW := feedW })) rfl rfl rfl rfl _ _
  case low =>
    intro s hp h0 h1
    have hexec : execKeepaliveLow s = .next (tailstockDown s) := by simp [execKeepaliveLow, hp, h0, h1]
    obtain ⟨hmod, -, -, hoff, href, hlanes⟩ := tailstockDown_keeps s
    exact completes_of_exec hexec ⟨hoff, href, hlanes, hmod⟩
  case own =>
    intro s hp
    have ht := (tailstockUp_tends (tailstockFresh s)).moves.reporting
    refine completes_of_exec (execTailstockPowerUp_own hp) ⟨ht.ts, ?_, ?_, fun hi k h hk h32 => ?_, tailstockFresh_frame ht⟩
    · rw [ht.time]
      rfl
    · rw [ht.time]
      rfl
    · obtain ⟨-, c, hc⟩ := rewriteTailstock_sends (twin := false) (s := tailstockFresh s) hk (decide_eq_false (by omega))
      rw [if_pos h32, Nat.mod_eq_of_lt h32] at hc
      refine ⟨c, ?_⟩
      rw [tailstockUp, if_pos (show inService (tailstockFresh s) = true from hi)]
      exact hc
  case twin =>
    intro s hp hi ht
    have hexec : execTailstockPowerUp s = .next (rewriteTailstock true s) := by simp [execTailstockPowerUp, hp, hi, ht]
    refine completes_of_exec hexec ⟨fun k h hk h32 => ?_, (rewriteTailstock_all true s).moves.reporting⟩
    obtain ⟨-, c, hc⟩ := rewriteTailstock_sends (twin := true) (s := s) hk (decide_eq_true h32)
    rw [if_neg (Nat.not_lt.mpr h32)] at hc
    exact ⟨c, hc⟩
  case management =>
    intro b s hm hi hphase hb
    obtain ⟨hupd, hheads, href, hcount, hstep, hcore, hpower⟩ := managementUp_keeps (managementUp_starts (s := s) hb)
    obtain ⟨hres, hpow, hzero, hvolts⟩ := powerUp_boots hupd hheads href hcount hstep hcore hphase hb
    rw [hpower] at hpow
    have hup := congrArg PowerSt.managementUp hpow
    have hdone := congrArg PowerSt.shutdownDone hpow
    exact completes_of_exec (execManagementPowerUp_boots hm hi) ⟨hres, hup, hdone, hzero, hvolts⟩
  case held =>
    intro b s hm hi hmode
    have hup := pairStarted_off b (s := managementUp true s) hmode
    have hrep := hup.reporting
    have hstep := congrArg MgmtSt.step hup.pair
    exact completes_of_exec (execManagementPowerUp_holds hm hi) ⟨hrep.module, hrep.power, hstep, hrep.time⟩

end Sys2Proof.Machine
end

-- The lanes (R322 to R326, R330, R331)
section
/-! SUPPORT. A completion leaves the lanes alone; each cause sets one lane; the commands of the lanes by their checks. -/

namespace Sys2Proof.Machine

open Sys2Proof

/-! ## Completions leave the lanes -/

/-- The link without the messages that wait for it. -/
def State.wires (s : State) : LinkSt := { s.link with waiting := [], messages := 0 }

theorem laneRt_of_wires {s t : State} (h : t.wires = s.wires) (k : Nat) : laneRt t k = laneRt s k := by
  have hl := congrArg LinkSt.lanes h
  change t.link.lanes = s.link.lanes at hl
  unfold laneRt
  rw [hl]

@[simp] theorem emit_wires (o : Out) (s : State) : (emit o s).wires = s.wires := by
  unfold State.wires emit
  dsimp only
  split <;> rfl

theorem publish_wires (c : Completion) (s : State) : (publish c s).wires = s.wires := by
  unfold publish putCompletion
  split
  · split
    · exact emit_wires ..
    · rfl
  · split <;> rfl

theorem detachHost_wires (c : Nat) (s : State) : (detachHost c s).wires = s.wires := by
  unfold detachHost
  split <;> rfl

theorem settleDetach_wires (s : State) : (settleDetach s).wires = s.wires := by
  unfold settleDetach
  split
  · dsimp only
    split
    · rw [detachHost_wires]
      split
      · rfl
      · exact publish_wires ..
    · rfl
  · rfl

theorem complete_wires (tk : Ticket) (st : Nat) (l : Items) (s : State) : (complete tk st l s).wires = s.wires := by
  unfold complete completeAs
  dsimp only
  split
  · exact emit_wires ..
  · rw [settleDetach_wires]
    split
    · rfl
    · exact publish_wires ..

theorem hostOut_wires (tk : Ticket) (off : Nat) (l : List Byte) (s : State) : (hostOut tk off l s).wires = s.wires := by
  unfold hostOut
  split <;> exact emit_wires ..

theorem completeWrite_wires (tk : Ticket) (data result : Items) (s : State) : (completeWrite tk data result s).wires = s.wires := by
  unfold completeWrite
  split
  · rw [complete_wires, hostOut_wires]
  · exact complete_wires ..

theorem lanes_of_wires {s t : State} (h : t.wires = s.wires) : t.link.lanes = s.link.lanes := by
  have hl := congrArg LinkSt.lanes h
  exact hl

theorem tests_of_wires {s t : State} (h : t.wires = s.wires) : t.link.tests = s.link.tests := by
  have hl := congrArg LinkSt.tests h
  exact hl

/-! ## A lane's change -/

theorem bondCounted_tests (k before : Nat) (s : State) : (bondCounted k before s).link.tests = s.link.tests := by
  unfold bondCounted
  split
  · rfl
  · rw [raise_link]
    rfl

theorem beatPaths_tests (b : Bond) (lane : Option Nat) (s : State) : (beatPaths b lane s).link.tests = s.link.tests := by
  unfold beatPaths
  split <;> rfl

theorem setLane_tests (k new cause : Nat) (s : State) : (setLane k new cause s).link.tests = s.link.tests := by
  by_cases h : (laneRt s k).state = new
  · rw [show setLane k new cause s = s from if_pos h]
  · rw [setLane_changes h, afterLane_eq, beatPaths_tests, bondCounted_tests, lanePut, raise_link]
    rfl

/-- A lane's change, told as one of a state where the lane alone differs (R322). -/
theorem setLane_raises_from {k new old : Nat} {s u : State} (hh : u.host = s.host) (hq : u.queue = s.queue) (ht : u.time = s.time)
    (hc : u.cascade = s.cascade) (ho : (laneRt u k).state = old) (h : old ≠ new) (cause : Nat) :
    Raises 0x0EA0 .port (laneScope k) [it 1 (laneNo k), it 1 old, it 1 new, it 1 cause] s (setLane k new cause u) := by
  have hpos : position u = position s := by
    unfold position
    rw [hc]
  rw [setLane_changes (by rw [ho]; exact h)]
  have told : Raises 0x0EA0 .port (laneScope k) [it 1 (laneNo k), it 1 old, it 1 new, it 1 cause] s (lanePut k new cause u) := by
    unfold lanePut
    rw [ho]
    exact raise_raises _ _ _ _ s (modLane k _ u) false hh (congrArg QueueSt.events hq) (congrArg QueueSt.seqs hq) (congrArg QueueSt.evtMasks hq)
      hpos (congrArg TimeSt.wall ht)
  exact told.tells (afterLane_tends ..).moves.tells

/-- A lane in a state, set to another: told, every other lane as it was (R322). -/
structure LaneSet (k old new cause : Nat) (s t : State) : Prop where
  state : (laneRt t k).state = new
  others : ∀ j, j ≠ k → laneRt t j = laneRt s j
  raised : Raises 0x0EA0 .port (laneScope k) [it 1 (laneNo k), it 1 old, it 1 new, it 1 cause] s t
  frame : Reporting s { t with cascade := s.cascade }

theorem setLane_sets {k old new : Nat} {s : State} (ho : (laneRt s k).state = old) (h : old ≠ new) (cause : Nat) :
    LaneSet k old new cause s (setLane k new cause s) :=
  ⟨setLane_state .., fun _ hj => laneRt_setLane_other hj .., setLane_raises_from rfl rfl rfl rfl ho h cause, (setLane_tends ..).moves.frame⟩

/-- A training counted (R322). -/
def trainingCounted (k : Nat) (s : State) : State := modLane k (fun l => { l with trainings := l.trainings + 1 }) s

theorem trainingCounted_sets {k new : Nat} {s : State} (ho : (laneRt s k).state = 2) (h : 2 ≠ new) (cause : Nat) :
    LaneSet k 2 new cause s (setLane k new cause (trainingCounted k s)) := by
  have hst : (laneRt (trainingCounted k s) k).state = 2 := by
    rw [trainingCounted, laneRt_modLane_self]
    exact ho
  refine ⟨setLane_state .., fun j hj => ?_, setLane_raises_from (u := trainingCounted k s) rfl rfl rfl rfl hst h cause,
    (Tends.trans (b := trainingCounted k s) frame_cascade ⟨⟨.same rfl rfl rfl rfl, rfl⟩, rfl, rfl⟩ (setLane_tends ..)).moves.frame⟩
  rw [laneRt_setLane_other hj, trainingCounted, laneRt_modLane_other hj]

theorem mem_lanesUp {b : Bond} {lane k : Nat} (hb : (bondLanes b)[lane]? = some k) (s : State) : k ∈ lanesUp s b ↔ (laneRt s k).state = 3 := by
  unfold lanesUp
  rw [List.mem_filter, decide_eq_true_eq]
  exact ⟨fun h => h.2, fun h => ⟨List.mem_of_getElem? hb, h⟩⟩

/-! ## Counters told -/

theorem modLane_tends (k : Nat) (f : LaneRt → LaneRt) (s : State) : Tends keepCascade s (modLane k f s) :=
  ⟨⟨.same rfl rfl rfl rfl, rfl⟩, rfl, rfl⟩

theorem tellLane_keeps (k : Nat) (s : State) :
    Tells s (tellLane k s) ∧ Reporting s (tellLane k s) ∧ (laneRt (tellLane k s) k).state = (laneRt s k).state
      ∧ (laneRt (tellLane k s) k).marker = (laneRt s k).marker ∧ ∀ j, j ≠ k → laneRt (tellLane k s) j = laneRt s j := by
  unfold tellLane
  extract_lets l cur last due
  split
  · exact ⟨.refl s, .refl s, rfl, rfl, fun _ _ => rfl⟩
  · refine ⟨?_, ?_, ?_, ?_, fun j hj => ?_⟩
    · exact Tells.trans (b := modLane k _ (s.modQueue _)) ⟨rfl, .refl _, List.Subset.refl _⟩ (raise_tells ..)
    · exact (show Reporting s (modLane k _ (s.modQueue _)) from rfl).trans (raise_reporting ..)
    · rw [laneRt_congr (raise_link ..), laneRt_modLane_self]
      rfl
    · rw [laneRt_congr (raise_link ..), laneRt_modLane_self]
      rfl
    · rw [laneRt_congr (raise_link ..), laneRt_modLane_other hj]
      rfl

theorem setLane_marker (k new cause : Nat) (s : State) : (laneRt (setLane k new cause s) k).marker = (laneRt s k).marker := by
  by_cases h : (laneRt s k).state = new
  · rw [show setLane k new cause s = s from if_pos h]
  · rw [laneRt_setLane_self h]

/-- The slots of a lost marker counted (R323). -/
def markersCounted (k : Nat) (s : State) : State := modLane k (fun l => { l with marker := l.marker + 4, slots := l.slots + 4 }) s

theorem markerLost_keeps (k : Nat) (s : State) :
    let t := setLane k 1 1 (tellLane k (markersCounted k s))
    (laneRt t k).state = 1 ∧ (laneRt t k).marker = (laneRt s k).marker + 4 ∧ (∀ j, j ≠ k → laneRt t j = laneRt s j)
      ∧ Reporting s { t with cascade := s.cascade } := by
  obtain ⟨-, hrep, -, hmark, hother⟩ := tellLane_keeps k (markersCounted k s)
  refine ⟨setLane_state .., ?_, fun j hj => ?_, ?_⟩
  · rw [setLane_marker, hmark, markersCounted, laneRt_modLane_self]
  · rw [laneRt_setLane_other hj, hother j hj, markersCounted, laneRt_modLane_other hj]
  · exact frame_cascade.trans (frame_cascade.of_reporting ((show Reporting s (markersCounted k s) from rfl).trans hrep))
      (setLane_tends ..).moves.frame

/-! ## The instructions -/

theorem execSignalDetect_trains {b : Bond} {lane k : Nat} {s : State} (hb : (bondLanes b)[lane]? = some k) (hp : lanePowered s k = true)
    (hs : (laneRt s k).state = 1) : execSignalDetect b lane s = .next (setLane k 2 0 s) := by
  simp [execSignalDetect, hb, hp, hs]

theorem execTrainingComplete_up {b : Bond} {lane k skew : Nat} {s : State} (hb : (bondLanes b)[lane]? = some k) (hs : (laneRt s k).state = 2)
    (hk : skew ≤ 120) : execTrainingComplete b lane skew s = .next (setLane k 3 0 (trainingCounted k s)) := by
  have hlt : ¬ 120 < skew := Nat.not_lt.mpr hk
  simp only [execTrainingComplete, hb, hs, hlt, decide_false, Bool.and_false, Bool.false_eq_true, if_false, bne_self_eq_false]
  rfl

theorem execTrainingComplete_skewed {b : Bond} {lane k skew : Nat} {s : State} (hb : (bondLanes b)[lane]? = some k)
    (hs : (laneRt s k).state = 2) (hk : 120 < skew) : execTrainingComplete b lane skew s = .next (setLane k 1 3 (trainingCounted k s)) := by
  simp only [execTrainingComplete, hb, hs, hk, Nat.reduceEqDiff, decide_false, Bool.false_and, Bool.false_eq_true, if_false,
    bne_self_eq_false, if_true]
  rfl

theorem execTrainingTimeout_ends {b : Bond} {lane k : Nat} {s : State} (hb : (bondLanes b)[lane]? = some k) (hs : (laneRt s k).state = 2)
    (ht : (laneRt s k).sinceNs + 1000000 ≤ s.time.mono) : execTrainingTimeout b lane s = .next (setLane k 1 1 s) := by
  simp only [execTrainingTimeout, hb, hs, ht, decide_true, Bool.and_self, if_true]

theorem execMarkerLoss_crc {b : Bond} {lane k : Nat} {s : State} (hb : (bondLanes b)[lane]? = some k) (hs : (laneRt s k).state = 3)
    (hn : downCrc s ≤ ((laneRt s k).crcSlots.filter fun x => decide ((laneRt s k).slots < x + 64)).length) :
    execMarkerLoss b lane true s = .next (setLane k 1 2 s) := by
  simp only [execMarkerLoss, hb, hs, hn, bne_self_eq_false, Bool.false_eq_true, if_false, if_true]

theorem execMarkerLoss_marker {b : Bond} {lane k : Nat} {s : State} (hb : (bondLanes b)[lane]? = some k) (hs : (laneRt s k).state = 3) :
    execMarkerLoss b lane false s = .next (setLane k 1 1 (tellLane k (markersCounted k s))) := by
  simp only [execMarkerLoss, hb, hs, bne_self_eq_false, Bool.false_eq_true, if_false]
  rfl

theorem execSleepOrderRx_sleeps {east order : Bool} {s : State} (hs : (laneRt s (if east then 0 else 4)).state = 3) :
    execSleepOrderRx east order s = .next (setLane (if east then 0 else 4) 5 6 s) := congrArg _ (if_pos hs)

/-! ## The commands -/

theorem laneCountersBody_one {lane : Nat} {tk : Ticket} {s : State} (h : lane < 20) :
    laneCountersBody lane tk s = completeWrite tk (laneItems s lane) [] s := by
  have hne : lane ≠ 0xFF := by omega
  simp only [laneCountersBody, hne, h, if_false, if_true]

theorem laneCountersBody_all {tk : Ticket} {s : State} :
    laneCountersBody 0xFF tk s = completeWrite tk ((List.range 20).flatMap (laneItems s)) [] s := if_pos rfl

theorem laneCountersBody_none {lane : Nat} {tk : Ticket} {s : State} (h : 20 ≤ lane) (hne : lane ≠ 0xFF) :
    laneCountersBody lane tk s = complete tk 0x01E0 [] s := by
  have hlt : ¬ lane < 20 := Nat.not_lt.mpr h
  simp only [laneCountersBody, hne, hlt, if_false]

/-- A lane's test noted (R331). -/
def testNoted (lane ms : Nat) (tk : Ticket) (s : State) : State :=
  s.modLink fun l => { l with tests := mapPut l.tests lane { lane := lane, ticket := tk, durationMs := ms, startNs := s.time.mono } }

theorem laneTest_allowed {lane : Nat} {s : State} (h4 : (laneRt s lane).state ≠ 4) (h3 : (laneRt s lane).state = 3 → s.module.mode = .maintenance) :
    ((decide ((laneRt s lane).state = 3) && s.module.mode != .maintenance) || decide ((laneRt s lane).state = 4) || !true) = false := by
  by_cases h : (laneRt s lane).state = 3
  · simp [h, h3 h]
  · simp [h, h4]

section
variable {lane ms : Nat} {tk : Ticket} {s : State} (hl : lane ≤ 19) (h1 : 1 ≤ ms) (hms : ms ≤ 60000)
include hl h1 hms

theorem laneTest_inRange : (decide (19 < lane) || decide (ms = 0) || decide (60000 < ms)) = false := by
  simp only [Bool.or_eq_false_iff, decide_eq_false_iff_not]
  omega

theorem laneTestBody_refused {far path : Bool} (h : ((laneRt s lane).state = 3 ∧ s.module.mode ≠ .maintenance) ∨ far = false) :
    laneTestBody lane ms far path tk s = complete tk 0x03E0 [] s := by
  have hno : ((decide ((laneRt s lane).state = 3) && s.module.mode != .maintenance) || decide ((laneRt s lane).state = 4) || !far) = true := by
    obtain ⟨h3, hm⟩ | hf := h
    · simp [h3, hm]
    · simp [hf]
  unfold laneTestBody
  rw [laneTest_inRange hl h1 hms, if_neg Bool.false_ne_true, if_pos hno]

theorem laneTestBody_begins {path : Bool} (h4 : (laneRt s lane).state ≠ 4) (h3 : (laneRt s lane).state = 3 → s.module.mode = .maintenance)
    (hp : (controlPath s lane && path) = true) : laneTestBody lane ms true path tk s = setLane lane 4 5 (testNoted lane ms tk s) := by
  unfold laneTestBody
  rw [laneTest_inRange hl h1 hms, if_neg Bool.false_ne_true, laneTest_allowed h4 h3, if_neg Bool.false_ne_true, hp]
  rfl

theorem laneTestBody_noPath {path : Bool} (h4 : (laneRt s lane).state ≠ 4) (h3 : (laneRt s lane).state = 3 → s.module.mode = .maintenance)
    (hp : (controlPath s lane && path) = false) : laneTestBody lane ms true path tk s = complete tk 0x05E0 [] s := by
  unfold laneTestBody
  rw [laneTest_inRange hl h1 hms, if_neg Bool.false_ne_true, laneTest_allowed h4 h3, if_neg Bool.false_ne_true, hp]
  rfl

end

/-- A lane's test over (R331). -/
def testOver (lane : Nat) (s : State) : State := s.modLink fun l => { l with tests := mapDel l.tests lane }

theorem execLaneTestEnd_ends {lane here far bits : Nat} {x : LaneTest} {s : State} (hx : mapGet s.link.tests lane = some x)
    (hd : x.startNs + x.durationMs * 1000000 ≤ s.time.mono) :
    execLaneTestEnd lane here far bits s
      = .next (complete x.ticket 0 [it 4 here, it 4 far, it 4 bits] (setLane lane 2 5 (testOver lane s))) := by
  simp only [execLaneTestEnd, hx, Nat.not_lt.mpr hd, if_false]
  rfl

theorem testNoted_tends (lane ms : Nat) (tk : Ticket) (s : State) : Tends keepCascade s (testNoted lane ms tk s) :=
  ⟨⟨.same rfl rfl rfl rfl, rfl⟩, rfl, rfl⟩

theorem testOver_tends (lane : Nat) (s : State) : Tends keepCascade s (testOver lane s) := ⟨⟨.same rfl rfl rfl rfl, rfl⟩, rfl, rfl⟩

/-- Settles O35: each cause as the one lane it sets; the commands by their checks. -/
theorem lanesTrainAndFail : Obligations.LanesTrainAndFail := by
  unfold Obligations.LanesTrainAndFail
  refine ⟨?signal, ?up, ?skewed, ?timeout, ?crc, ?marker, ?sleep, ?one, ?all, ?none, ?test, ?refused, ?noPath, ?ended⟩
  case signal =>
    intro b lane k s hb hp hs
    have h := setLane_sets hs (new := 2) (by decide) 0
    exact completes_of_exec (execSignalDetect_trains hb hp hs)
      ⟨laneRt_setLane_self (by rw [hs]; decide) 0, h.others, h.raised, h.frame⟩
  case up =>
    intro b lane k skew s hb hs hk
    have h := trainingCounted_sets hs (new := 3) (by decide) 0
    have hst : (laneRt (trainingCounted k s) k).state ≠ 3 := by
      rw [trainingCounted, laneRt_modLane_self, hs]
      decide
    refine completes_of_exec (execTrainingComplete_up hb hs hk) ⟨?_, h.others, (mem_lanesUp hb _).mpr h.state, h.raised, h.frame⟩
    rw [laneRt_setLane_self hst, trainingCounted, laneRt_modLane_self]
    rfl
  case skewed =>
    intro b lane k skew s hb hs hk
    have h := trainingCounted_sets hs (new := 1) (by decide) 3
    exact completes_of_exec (execTrainingComplete_skewed hb hs hk)
      ⟨h.state, h.others, fun hin => absurd ((mem_lanesUp hb _).mp hin) (by rw [h.state]; decide), h.raised, h.frame⟩
  case timeout =>
    intro b lane k s hb hs ht
    have h := setLane_sets hs (new := 1) (by decide) 1
    exact completes_of_exec (execTrainingTimeout_ends hb hs ht) ⟨h.state, h.others, h.raised, h.frame⟩
  case crc =>
    intro b lane k s hb hs hn
    have h := setLane_sets hs (new := 1) (by decide) 2
    exact completes_of_exec (execMarkerLoss_crc hb hs hn) ⟨h.state, h.others, h.raised, h.frame⟩
  case marker =>
    intro b lane k s hb hs
    exact completes_of_exec (execMarkerLoss_marker hb hs) (markerLost_keeps k s)
  case sleep =>
    intro east order k s hk hs
    subst hk
    have h := setLane_sets hs (new := 5) (by decide) 6
    have hno : laneNo (if east then 0 else 4) = if east then 0 else 4 := by cases east <;> rfl
    have hraised := h.raised
    rw [hno] at hraised
    exact completes_of_exec (execSleepOrderRx_sleeps (order := order) hs) ⟨h.state, h.others, hraised, h.frame⟩
  case one =>
    intro d lane s h hl hd
    refine h.completes rfl ?_
    rw [laneCountersBody_one hl]
    obtain ⟨hdel, hrep, hframe⟩ := h.writes hd (laneItems s lane) []
    exact ⟨hdel, hrep, hframe, lanes_of_wires (completeWrite_wires ..)⟩
  case all =>
    intro d s h hd
    refine h.completes rfl ?_
    rw [laneCountersBody_all]
    obtain ⟨hdel, hrep, hframe⟩ := h.writes hd ((List.range 20).flatMap (laneItems s)) []
    exact ⟨hdel, hrep, hframe, lanes_of_wires (completeWrite_wires ..)⟩
  case none =>
    intro d lane s h hl hne
    refine h.completes rfl ?_
    rw [laneCountersBody_none hl hne]
    exact h.refused _ []
  case test =>
    intro d lane ms path s h hl h1 hms h4 h3 hp
    refine h.completes rfl ?_
    rw [laneTestBody_begins (s := taken d (.laneTest lane ms true path) s) hl h1 hms h4 h3 hp]
    have ht := (testNoted_tends lane ms (ticketOf d 0x0E21 s) (taken d (.laneTest lane ms true path) s)).trans frame_cascade
      (setLane_tends lane 4 5 _)
    refine ⟨setLane_state .., fun j hj => laneRt_setLane_other hj .., ?_, ?_, ht.moves.begins frame_cascade⟩
    · rw [setLane_tests]
      exact mapGet_mapPut_self ..
    · rw [show ∀ u, (setLane lane 4 5 u).queue.inFlight = u.queue.inFlight from
        fun u => congrArg HostView.inFlight (setLane_tends lane 4 5 u).moves.tells.view]
      exact ticket_in_flight d _ s
  case refused =>
    intro d lane ms far path s h hl h1 hms hno
    refine h.completes rfl ?_
    rw [laneTestBody_refused (s := taken d (.laneTest lane ms far path) s) hl h1 hms hno]
    obtain ⟨hrep, hframe⟩ := h.refused 0x03E0 []
    exact ⟨hrep, hframe, lanes_of_wires (complete_wires ..)⟩
  case noPath =>
    intro d lane ms path s h hl h1 hms h4 h3 hp
    refine h.completes rfl ?_
    rw [laneTestBody_noPath (s := taken d (.laneTest lane ms true path) s) hl h1 hms h4 h3 hp]
    obtain ⟨hrep, hframe⟩ := h.refused 0x05E0 []
    exact ⟨hrep, hframe, lanes_of_wires (complete_wires ..)⟩
  case ended =>
    intro lane x here far bits s hx hd
    have ht := (testOver_tends lane s).trans frame_cascade (setLane_tends lane 2 5 _)
    have hfin := ht.moves.finishes frame_cascade x.ticket 0 [it 4 here, it 4 far, it 4 bits]
    have hwires := complete_wires x.ticket 0 [it 4 here, it 4 far, it 4 bits] (setLane lane 2 5 (testOver lane s))
    refine completes_of_exec (execLaneTestEnd_ends hx hd) ⟨?_, ?_, fun j hj => ?_, hfin.1, hfin.2⟩
    · rw [laneRt_of_wires hwires, setLane_state]
    · rw [tests_of_wires hwires, setLane_tests]
      exact mapGet_mapDel_self ..
    · rw [laneRt_of_wires hwires, laneRt_setLane_other hj]
      rfl

end Sys2Proof.Machine
end

-- The lanes' slots and the commands of the cascade (R332, R449)
section
/-! SUPPORT. Two states that refute: an acknowledgement owed on a lane in LOW_RATE, and a swap's command of the same ring and index
as CASCADE_SLEEP. -/

namespace Sys2Proof.Machine

open Sys2Proof

namespace AckRefuted

/-- East lane 0 runs in LOW_RATE beside a neighbour that sleeps, and an acknowledgement of CONTROL is owed there. -/
def state : State :=
  { State.reset with
    power := { PowerSt.init with managementUp := true }
    link := { LinkSt.init with
      lanes := [(0, { LaneRt.init with state := 5 })], bonds := [(2, { BondRt.init with rxSeq := [(4, 0)], acks := [(4, 0)] })] } }

/-- The frame that carries the acknowledgement. -/
def frame : TxFrame := { cls := .idle, first := false, last := false, ackKind := 1, seq := 0, claimOrAck := 0, content := [] }

/-- That frame, and the state in which it is sent. -/
theorem frame_sent :
    (addAck .east (nextFrameOn .east (nextClass state .east 0 true) 0 state).1 (nextFrameOn .east (nextClass state .east 0 true) 0 state).2).1
      = frame := rfl

/-- No message waits that could be dropped. -/
theorem filtered :
    (state.modLink fun l => { l with waiting := l.waiting.filter fun m => !(m.bond = .east && dropsMessage state m) }) = state := rfl

/-- The state after the frame is formed. -/
def formed : State :=
  (addAck .east (nextFrameOn .east (nextClass state .east 0 true) 0 state).1 (nextFrameOn .east (nextClass state .east 0 true) 0 state).2).2

/-- The bits of the frame at the full rate. -/
def bits : List Bool × Nat := slotBits 0 0 (frameBytes 0 frame)

/-- The state after the stuffed bits beyond the thirteenth are counted. -/
def counted : State := if bits.2 = 0 then formed else modLane 0 (fun l => { l with stuffing := l.stuffing + bits.2 }) formed

theorem counted_low : (laneRt counted 0).state = 5 := by
  unfold counted
  split
  · rfl
  · exact congrArg LaneRt.state (laneRt_modLane_self ..)

theorem counted_outbox : counted.outbox = [] := by
  unfold counted
  split <;> rfl

theorem ack_sent :
    exec (.ackDue .east .control) state = .next (emit (.luasin .east 0 (frameBytes 0 frame) (lineRate counted 0 bits.1)) counted) := by
  have hsend : sendSlot .east 0 0 true state = emit (.luasin .east 0 (frameBytes 0 frame) (lineRate counted 0 bits.1)) counted := by
    unfold sendSlot counted bits formed
    rw [filtered]
    dsimp only
    rw [frame_sent, show frame.seq = 0 from rfl]
  rw [← hsend]
  change execAckDue .east .control state = _
  unfold execAckDue
  rw [show (carrying state .east).head? = some 0 from rfl, show mapHas (bondRt state .east).acks (classValue .control) = true from rfl]
  dsimp only
  rw [if_pos rfl, show ((bondLanes .east).findIdx fun j => j = 0) = 0 from rfl]

end AckRefuted

/-- Bits that each last eight bit times are not the bits themselves. -/
theorem flatMap_replicate_ne {l : List Bool} (h : l ≠ []) : l.flatMap (List.replicate 8) ≠ l := by
  intro he
  have hlen := congrArg List.length he
  have hpos := List.length_pos_iff.mpr h
  simp only [List.length_flatMap, List.length_replicate, List.map_const', List.sum_replicate, smul_eq_mul] at hlen
  omega

theorem slotBits_ne_nil (lane seq : Nat) (l : List Byte) : (slotBits lane seq l).1 ≠ [] := by
  simp [slotBits]

theorem lineRate_low {s : State} {k : Nat} (h : (laneRt s k).state = 5) (l : List Bool) :
    lineRate s k l = l.flatMap (List.replicate 8) := if_pos h

open AckRefuted in
/-- Refutes O36: on a lane in LOW_RATE, which carries frames as well, each bit of an acknowledgement's frame lasts eight bit times, and is not
sent at the full rate. -/
theorem not_framesAreSentAndReceived : ¬ Obligations.FramesAreSentAndReceived := by
  unfold Obligations.FramesAreSentAndReceived
  intro h
  obtain ⟨-, -, -, -, -, -, -, -, -, hack⟩ := h
  obtain ⟨t, ht, hout, -, -⟩ :=
    hack .east 0 0 0 state (by decide +kernel) (by decide +kernel) rfl (fun c => by
      rw [show (bondRt state .east).sent = [] from rfl]
      rfl) rfl
  rw [ack_sent] at ht
  injection ht with ht
  subst ht
  change Out.luasin .east 0 (frameBytes 0 frame) bits.1 ∈ _ :: counted.outbox at hout
  rw [counted_outbox, List.mem_singleton, lineRate_low counted_low] at hout
  injection hout with _ _ _ hbits
  exact flatMap_replicate_ne (slotBits_ne_nil _ _ _) hbits.symm

namespace SleepRefuted

/-- An attached module beside its twin, in RUN with both ring links up. -/
def awake : State :=
  { hosted with
    cascade := { CascadeSt.init with
      role := .standby, twinUp := true, east := { LinkDelay.init with up := true }, west := { LinkDelay.init with up := true } } }

/-- A swap waits with a command of the same ring and index: 2^32 commands have been taken since (R281). -/
def state : State :=
  { awake with
    cascade := { awake.cascade with
      swap := some { atNs := 0, auto := false, hitless := false, ticket := some (ticketOf waitingDesc (cmdKind .cascadeSleep) awake) } } }

/-- As the swap's command completes, CASCADE_SLEEP leaves those in flight with it. -/
theorem not_inFlight : ∃ t, exec (.cascadeSleep waitingDesc) state = .next t ∧ t.queue.inFlight = [] := ⟨_, rfl, by decide +kernel⟩

end SleepRefuted

open SleepRefuted in
/-- Refutes O37: where a swap waits with a command of the ring and index of CASCADE_SLEEP, ending it takes both out of those in flight. -/
theorem not_cascadeCommandsComplete : ¬ Obligations.CascadeCommandsComplete := by
  unfold Obligations.CascadeCommandsComplete
  intro h
  obtain ⟨-, -, -, -, -, -, -, hsleep, -⟩ := h
  obtain ⟨t, ht, -, -, -, -, hflight, -⟩ :=
    hsleep waitingDesc state (by decide +kernel) rfl (.inr rfl) rfl (by decide +kernel)
  obtain ⟨u, hu, hempty⟩ := not_inFlight
  rw [hu] at ht
  injection ht with ht
  subst ht
  exact absurd hflight (by rw [hempty]; exact List.not_mem_nil)

end Sys2Proof.Machine
end

-- The Spindle beat (R349 to R352, R361)
section
/-! SUPPORT. What steering and correcting change, events of the Tailstock that wait there, a beat used and passed on, and delays of links. -/

namespace Sys2Proof.Machine

open Sys2Proof

/-! ## Events of the Tailstock that wait there -/

/-- While the main section does not accept events, one that arises waits where there is room (R226). -/
theorem tsRaise_waits {s u : State} (ht : u.ts.events = s.ts.events) (hw : u.time.wall = s.time.wall) (ha : mainAccepts u = mainAccepts s)
    (c : Nat) (k : ScopeKind) (i : Nat) (l : Items) (a : Bool) : TsRaises c k i l s (tsRaise c k i l a u) := by
  intro hmain hroom
  refine ⟨a, ?_⟩
  unfold tsRaise
  dsimp only
  rw [ha, hmain, Bool.false_and, if_neg Bool.false_ne_true, ht, if_pos hroom, hw]
  exact List.mem_append_right _ (List.mem_singleton.mpr rfl)

theorem TsRaises.reporting {c : Nat} {k : ScopeKind} {i : Nat} {l : Items} {s u t : State} (h : TsRaises c k i l s u) (hr : Reporting u t) :
    TsRaises c k i l s t := by
  intro hmain hroom
  rw [hr.ts]
  exact h hmain hroom

/-! ## Commands in flight at other modules -/

theorem OnlyEvents.forwards {s t : State} (h : OnlyEvents s t) : t.queue.forwards = s.queue.forwards := by rw [h]

theorem publish_forwards (c : Completion) (s : State) : (publish c s).queue.forwards = s.queue.forwards := by
  unfold publish putCompletion
  (repeat' split) <;> rfl

theorem settleDetach_forwards (s : State) : (settleDetach s).queue.forwards = s.queue.forwards := by
  unfold settleDetach
  split
  · split
    · rw [detachHost_queue]
      split
      · rfl
      · exact publish_forwards ..
    · rfl
  · rfl

theorem completeAs_forwards (tk : Ticket) (st pos : Nat) (f : Bool) (l : Items) (s : State) :
    (completeAs tk st pos f l s).queue.forwards = s.queue.forwards := by
  unfold completeAs
  dsimp only
  split
  · rfl
  · rw [settleDetach_forwards]
    split
    · rfl
    · exact publish_forwards ..

/-- Those that end are taken out, and no other (R293). -/
theorem endForwards_forwards (p : Ticket → Nat → Bool) (st : Nat) (s : State) :
    (endForwards p st s).queue.forwards = s.queue.forwards.filter fun f => !p f.2.1 f.2.2 := by
  have hfold : ∀ (l : List (Nat × Ticket × Nat)) (u : State),
      (l.foldl (fun s f => completeAs f.2.1 st f.2.2 true [] s) u).queue.forwards = u.queue.forwards := fun l => by
    induction l with
    | nil => exact fun _ => rfl
    | cons f l ih => exact fun u => (ih _).trans (completeAs_forwards ..)
  exact hfold _ _

theorem giveHeadstock_forwards (cause : Nat) (s : State) : (giveHeadstock cause s).queue.forwards = [] := by
  have hf := endForwards_forwards (fun _ _ => true) 0x03D1 s
  rw [Bool.not_true, List.filter_false] at hf
  exact ((raiseMod_onlyEvents ..).forwards).trans hf

theorem deliverTs_forwards (e : TsEvent) (s : State) : (deliverTs e s).queue.forwards = s.queue.forwards := by
  unfold deliverTs
  exact (deliver_onlyEvents ..).forwards.trans (logEvent_onlyEvents ..).forwards

theorem tsRaise_forwards (c : Nat) (k : ScopeKind) (i : Nat) (l : Items) (a : Bool) (s : State) :
    (tsRaise c k i l a s).queue.forwards = s.queue.forwards := by
  unfold tsRaise
  dsimp only
  split
  · exact deliverTs_forwards ..
  · split <;> rfl

/-! ## The counter and its source -/

/-- All but the cascade and time. -/
abbrev keepCascadeTime (s t : State) : State := { t with cascade := s.cascade, time := s.time }

theorem frame_cascadeTime : Frame keepCascadeTime where
  back _ _ _ _ _ _ _ := rfl
  again _ _ _ := rfl
  self _ := rfl

/-- All but the cascade, time and the Tailstock. -/
abbrev keepBeatTs (s t : State) : State := { t with cascade := s.cascade, time := s.time, ts := s.ts }

theorem frame_beatTs : Frame keepBeatTs where
  back _ _ _ _ _ _ _ := rfl
  again _ _ _ := rfl
  self _ := rfl

theorem timebaseEvent_onlyTs (own : Bool) (s : State) : OnlyTs s (timebaseEvent own s) := tsRaise_onlyTs ..

theorem spindleEvent_reporting (own : Bool) (s : State) : Reporting s (spindleEvent own s) := raise_reporting ..

/-- A delay is told where the beat is used, and that alone: cascade, time and scenes stay as they are. -/
theorem timebaseEvent_cascade (own : Bool) (s : State) :
    (timebaseEvent own s).cascade = s.cascade ∧ (timebaseEvent own s).time = s.time ∧ (timebaseEvent own s).scene = s.scene := by
  have h := timebaseEvent_onlyTs own s
  exact ⟨Reporting.cascade (t := { timebaseEvent own s with ts := s.ts }) h, Reporting.time (t := { timebaseEvent own s with ts := s.ts }) h,
    Reporting.scene (t := { timebaseEvent own s with ts := s.ts }) h⟩

/-- A beat of the Headstock sent: its counter steered, and the beat numbered (R350, R351). -/
def beatStamped (s : State) : State :=
  { s with
    time := (steerOwn s).time
    cascade := { s.cascade with beatSeq := (s.cascade.beatSeq + 1) % 4294967296, beatNs := some s.time.mono } }

/-- The beat that the Headstock sends eastwards (R351). -/
def ownBeat (s : State) : BeatMsg :=
  { kind := 0, hops := 0, origin := position s, westGoing := false, originLocked := s.time.servo == .locked, epoch := s.cascade.epoch,
    seq := (s.cascade.beatSeq + 1) % 4294967296, spindleNs := (steerOwn s).time.spindle, correctionPs := 0 }

theorem steerOwn_servo (s : State) : (steerOwn s).time.servo = s.time.servo := by
  unfold steerOwn State.modTime
  dsimp only
  (repeat' split) <;> rfl

theorem steerOwn_wall (s : State) : (steerOwn s).time.wall = s.time.wall := by
  unfold steerOwn State.modTime
  dsimp only
  (repeat' split) <;> rfl

theorem execBeatSend_due {s : State} (hhead : s.cascade.headstock = true) (hdue : passedSince s s.cascade.beatNs 1000000 = true) :
    execBeatSend s = .next (emit (.beat false { ownBeat s with westGoing := true }) (emit (.beat true (ownBeat s)) (beatStamped s))) := by
  have hc : (s.cascade.headstock && passedSince s s.cascade.beatNs 1000000) = true := by rw [hhead, hdue]; rfl
  unfold execBeatSend ownBeat beatStamped
  rw [if_pos hc, ← steerOwn_servo]
  rfl

theorem beatStamped_reporting (s : State) : Reporting s { beatStamped s with cascade := s.cascade, time := s.time } := rfl

/-! ## A beat of another Headstock -/

/-- The change of source told: of the timebase where beats have returned, and of the path (R185, R352). -/
def beatTold (back told : Bool) (s : State) : State :=
  let u := if back then timebaseEvent false s else s
  if told then spindleEvent false u else u

theorem beatTold_keeps (back told : Bool) (s : State) :
    (beatTold back told s).cascade = s.cascade ∧ (beatTold back told s).time = s.time ∧ (beatTold back told s).scene = s.scene := by
  have h : (if back then timebaseEvent false s else s).cascade = s.cascade ∧ (if back then timebaseEvent false s else s).time = s.time
      ∧ (if back then timebaseEvent false s else s).scene = s.scene := by
    split
    · exact timebaseEvent_cascade ..
    · exact ⟨rfl, rfl, rfl⟩
  unfold beatTold
  dsimp only
  cases told
  · exact h
  · rw [if_pos rfl]
    have hr := spindleEvent_reporting false (if back then timebaseEvent false s else s)
    rwa [hr.cascade, hr.time, hr.scene]

theorem beatTold_forwards (back told : Bool) (s : State) : (beatTold back told s).queue.forwards = s.queue.forwards := by
  unfold beatTold
  dsimp only
  have h : (if back then timebaseEvent false s else s).queue.forwards = s.queue.forwards := by
    split
    · exact tsRaise_forwards ..
    · rfl
  cases told
  · exact h
  · exact (raiseMod_onlyEvents ..).forwards.trans h

/-- A beat used corrects the counter, and of the cascade sets what beats set (R352). -/
theorem useBeat_eq (east : Bool) (m : BeatMsg) (s : State) :
    ∃ u back told, useBeat east m s = beatTold back told u
      ∧ u.time = { s.time with spindle := (((m.spindleNs : Int) * 1000 + m.correctionPs + portDelay east s) / 1000).toNat }
      ∧ u.cascade = { s.cascade with
          epoch := m.epoch, lastBeatSeq := m.seq, lastBeatNs := some s.time.mono, headstockPos := m.origin, onBeat := true,
          beatOrigin := u.cascade.beatOrigin, beatHops := u.cascade.beatHops, beatWest := u.cascade.beatWest, pathSeq := u.cascade.pathSeq }
      ∧ u.scene = s.scene ∧ u.queue = s.queue := ⟨_, _, _, rfl, rfl, rfl, rfl, rfl⟩

/-- A beat passed on changes nothing else (R352). -/
theorem forwardBeat_keeps (east : Bool) (m : BeatMsg) (s : State) :
    (forwardBeat east m s).cascade = s.cascade ∧ (forwardBeat east m s).time = s.time ∧ (forwardBeat east m s).scene = s.scene
      ∧ (forwardBeat east m s).queue = s.queue ∧ (forwardBeat east m s).update = s.update := ⟨rfl, rfl, rfl, rfl, rfl⟩

theorem forwardBeat_sends (east : Bool) (m : BeatMsg) (s : State) :
    ∃ r : Nat, Out.beat (!east) { m with hops := m.hops + 1, correctionPs := m.correctionPs + portDelay east s + r } ∈ (forwardBeat east m s).outbox :=
  ⟨(draw s).1, List.mem_cons_self ..⟩

/-- A beat is looked at: it came over an admitted link, at a module that is not OFF (R352). -/
theorem execBeatRx_admitted {east : Bool} {m : BeatMsg} {s : State} (hkind : m.kind = 0) (hhops : m.hops ≤ 63) (hmode : s.module.mode ≠ .off)
    (hlink : (linkAt s east).refused = false) (hwired : miswired east m s = false) (hhead : s.cascade.headstock = false) :
    execBeatRx east m s = .next (if m.epoch < s.cascade.epoch then s
      else forwardBeat east m
        (if newBeat m s || (m.epoch = s.cascade.epoch && m.seq = s.cascade.lastBeatSeq
           && betterPath m.hops m.westGoing s.cascade.beatHops s.cascade.beatWest) then useBeat east m s else s)) := by
  unfold execBeatRx
  rw [if_neg (by simp [hkind, hmode]; omega), if_neg (by simp [hlink]), if_neg (by simp [hwired]), if_neg (by simp [hhead])]
  have hs : (if (s.cascade.headstock && s.module.sideB) = true then giveHeadstock 3 s else s) = s := if_neg (by simp [hhead])
  dsimp only
  rw [hs, hhead, Bool.false_or]
  simp only [decide_eq_true_eq]

theorem beatUsed {east : Bool} {m : BeatMsg} {s : State} (hhead : s.cascade.headstock = false) (hkind : m.kind = 0) (hhops : m.hops ≤ 63)
    (hepoch : s.cascade.epoch ≤ m.epoch) (hmode : s.module.mode ≠ .off) (hlink : (linkAt s east).refused = false)
    (hwired : miswired east m s = false) (hnew : newBeat m s = true) :
    execBeatRx east m s = .next (forwardBeat east m (useBeat east m s)) := by
  rw [execBeatRx_admitted hkind hhops hmode hlink hwired hhead, if_neg (by omega), hnew, Bool.true_or, if_pos rfl]

theorem beatOlder {east : Bool} {m : BeatMsg} {s : State} (hhead : s.cascade.headstock = false) (hlink : (linkAt s east).refused = false)
    (hwired : miswired east m s = false) (hepoch : m.epoch < s.cascade.epoch) : execBeatRx east m s = .next s := by
  by_cases hok : m.kind = 0 ∧ m.hops ≤ 63 ∧ s.module.mode ≠ .off
  · obtain ⟨hkind, hhops, hmode⟩ := hok
    rw [execBeatRx_admitted hkind hhops hmode hlink hwired hhead, if_pos hepoch]
  · unfold execBeatRx
    rw [if_pos]
    simp only [Bool.or_eq_true, bne_iff_ne, decide_eq_true_eq]
    by_contra hc
    push Not at hc
    obtain ⟨⟨hkind, hhops⟩, hmode⟩ := hc
    exact hok ⟨hkind, hhops, hmode⟩

theorem useBeat_forwards (east : Bool) (m : BeatMsg) (s : State) : (useBeat east m s).queue.forwards = s.queue.forwards := by
  obtain ⟨u, back, told, he, -, -, -, hq⟩ := useBeat_eq east m s
  rw [he, beatTold_forwards, hq]

theorem useBeat_cascade (east : Bool) (m : BeatMsg) (s : State) :
    ∃ o h w p, (useBeat east m s).cascade = { s.cascade with
      epoch := m.epoch, lastBeatSeq := m.seq, lastBeatNs := some s.time.mono, headstockPos := m.origin, onBeat := true,
      beatOrigin := o, beatHops := h, beatWest := w, pathSeq := p } := by
  obtain ⟨u, back, told, he, -, hc, -, -⟩ := useBeat_eq east m s
  exact ⟨_, _, _, _, by rw [he, (beatTold_keeps back told u).1]; exact hc⟩

theorem useBeat_time (east : Bool) (m : BeatMsg) (s : State) :
    (useBeat east m s).time = { s.time with spindle := (((m.spindleNs : Int) * 1000 + m.correctionPs + portDelay east s) / 1000).toNat } := by
  obtain ⟨u, back, told, he, ht, -, -, -⟩ := useBeat_eq east m s
  rw [he, (beatTold_keeps back told u).2.1, ht]

theorem useBeat_scene (east : Bool) (m : BeatMsg) (s : State) : (useBeat east m s).scene = s.scene := by
  obtain ⟨u, back, told, he, -, -, hs, -⟩ := useBeat_eq east m s
  rw [he, (beatTold_keeps back told u).2.2, hs]

theorem portDelay_congr {s t : State} (he : t.cascade.east = s.cascade.east) (hw : t.cascade.west = s.cascade.west) (east : Bool) :
    portDelay east t = portDelay east s := by
  unfold portDelay
  rw [he, hw]

/-- A Headstock of side B that hears another gives the role up, and may use the beat (R361). -/
theorem beatYields {east : Bool} {m : BeatMsg} {s : State} (hhead : s.cascade.headstock = true) (hside : s.module.sideB = true)
    (hkind : m.kind = 0) (hhops : m.hops ≤ 63) (hlink : (linkAt s east).refused = false) (hwired : miswired east m s = false)
    (hmode : s.module.mode ≠ .off) (horigin : m.origin ≠ position s) :
    ∃ t, execBeatRx east m s = .next t ∧ t.cascade.headstock = false ∧ t.queue.forwards = [] := by
  have hs : (if (s.cascade.headstock && s.module.sideB) = true then giveHeadstock 3 s else s) = giveHeadstock 3 s :=
    if_pos (by simp [hhead, hside])
  have hgiven : (giveHeadstock 3 s).cascade.headstock = false := by rw [giveHeadstock_cascade]
  have hforwards := giveHeadstock_forwards 3 s
  unfold execBeatRx
  rw [if_neg (by simp [hkind, hmode]; omega), if_neg (by simp [hlink]), if_neg (by simp [hwired]), if_neg (by simp [horigin])]
  dsimp only
  rw [hs]
  refine ⟨_, rfl, ?_⟩
  split
  · exact ⟨hgiven, hforwards⟩
  · rw [(forwardBeat_keeps ..).1, (forwardBeat_keeps ..).2.2.2.1]
    split
    · obtain ⟨o, h, w, p, hc⟩ := useBeat_cascade east m (giveHeadstock 3 s)
      exact ⟨by rw [hc]; exact hgiven, (useBeat_forwards ..).trans hforwards⟩
    · exact ⟨hgiven, hforwards⟩

/-! ## Beats lost -/

/-- The module on its own time, before it is told (R352). -/
def beatsLost (s : State) : State := { s with time := (steerOwn s).time, cascade := { s.cascade with onBeat := false } }

theorem execBeatLoss_due {since : Nat} {s : State} (hlast : s.cascade.lastBeatNs = some since) (hbeat : s.cascade.onBeat = true)
    (hhead : s.cascade.headstock = false) (hdue : since + 5000000 ≤ s.time.mono) :
    execBeatLoss s = .next (spindleEvent true (timebaseEvent true (beatsLost s))) := by
  unfold execBeatLoss
  rw [hlast]
  dsimp only
  rw [if_pos (by simp [hbeat, hhead, hdue])]
  rfl

theorem beatsLost_told (s : State) :
    TsRaises 0x0688 .module (position s) [it 1 1] s (spindleEvent true (timebaseEvent true (beatsLost s))) :=
  TsRaises.reporting (tsRaise_waits (s := s) (u := beatsLost s) rfl (steerOwn_wall s) rfl _ _ _ _ _) (spindleEvent_reporting ..)

/-! ## Delays of links -/

/-- The round trip that is asked for on the east link (R352). -/
def delayAsked (s : State) : State :=
  { s with cascade := { s.cascade with east := { s.cascade.east with
      requests := (s.cascade.east.requests + 1) % 4294967296, outstanding := some ((s.cascade.east.requests + 1) % 4294967296),
      requestNs := some s.time.mono } } }

theorem execDelayRequestSend_due {s : State} (hup : s.cascade.east.up = true)
    (hdue : passedSince s s.cascade.east.requestNs 10000000 = true) :
    execDelayRequestSend true s = .next (emit (.beat true (delayMsg true 1 (position s) ((s.cascade.east.requests + 1) % 4294967296) 0)) (delayAsked s)) := by
  unfold execDelayRequestSend
  rw [show linkAt s true = s.cascade.east from rfl]
  dsimp only
  rw [if_pos (by rw [hup, hdue]; rfl)]
  rfl

theorem execDelayRequestRx_ok {east : Bool} {m : BeatMsg} {residence : Nat} {s : State} (hkind : m.kind = 1) (hmode : s.module.mode ≠ .off)
    (hlink : (linkAt s east).refused = false) (hwired : miswired east m s = false) :
    execDelayRequestRx east m residence s = .next (emit (.beat east (delayMsg east 2 m.origin m.seq residence)) s) := by
  unfold execDelayRequestRx
  rw [if_neg (by simp [hkind, hmode, hlink]), if_neg (by simp [hwired])]

theorem execDelayResponseRx_west {m : BeatMsg} {roundTrip : Int} {s : State} (hkind : m.kind = 2)
    (hseq : s.cascade.west.outstanding = some m.seq) :
    execDelayResponseRx false m roundTrip s
      = .next { s with cascade := { s.cascade with west := { s.cascade.west with
          halves := ((roundTrip - m.correctionPs) / 2 :: s.cascade.west.halves).take 16, outstanding := none } } } := by
  unfold execDelayResponseRx
  rw [show linkAt s false = s.cascade.west from rfl]
  dsimp only
  rw [if_pos (by simp [hkind, hseq])]
  rfl

/-- Settles O39: the Headstock's beat goes both ways from its steered counter; a beat used corrects the counter and goes on; one of an
older epoch changes nothing; a Headstock of side B yields; lost beats leave the module to its own time; delays are asked, answered and
kept. -/
theorem beatsAreSentAndFollowed : Obligations.BeatsAreSentAndFollowed := by
  unfold Obligations.BeatsAreSentAndFollowed
  refine ⟨?send, ?used, ?older, ?yields, ?loss, ?request, ?answer, ?response⟩
  case send =>
    intro s hhead hdue
    refine ⟨_, execBeatSend_due hhead hdue, List.mem_cons_of_mem _ (List.mem_cons_self ..), List.mem_cons_self .., rfl, ?_⟩
    exact frame_cascadeTime.reporting (frame_cascadeTime.reporting (beatStamped_reporting s) (emit_reporting ..)) (emit_reporting ..)
  case used =>
    intro east m s hhead hkind hhops hepoch hmode hlink hwired hnew
    refine ⟨_, beatUsed hhead hkind hhops hepoch hmode hlink hwired hnew, ?_⟩
    obtain ⟨o, h, w, p, hc⟩ := useBeat_cascade east m s
    have hdelay : portDelay east (useBeat east m s) = portDelay east s := portDelay_congr (by rw [hc]) (by rw [hc]) east
    have hsends := forwardBeat_sends east m (useBeat east m s)
    rw [hdelay] at hsends
    rw [(forwardBeat_keeps ..).1, (forwardBeat_keeps ..).2.1, (forwardBeat_keeps ..).2.2.1, hc, useBeat_time, useBeat_scene]
    exact ⟨rfl, rfl, rfl, rfl, rfl, rfl, hsends, rfl, rfl, rfl⟩
  case older =>
    intro east m s hhead hlink hwired hepoch
    exact ⟨s, beatOlder hhead hlink hwired hepoch, rfl⟩
  case yields =>
    intro east m s hhead hside hkind hhops hlink hwired hmode horigin
    exact beatYields hhead hside hkind hhops hlink hwired hmode horigin
  case loss =>
    intro since s hlast hbeat hhead hdue
    refine ⟨_, execBeatLoss_due hlast hbeat hhead hdue, ?_⟩
    have hr := spindleEvent_reporting true (timebaseEvent true (beatsLost s))
    obtain ⟨hc, ht, -⟩ := timebaseEvent_cascade true (beatsLost s)
    refine ⟨(hr.cascade.trans hc).trans rfl, (hr.time.trans ht).trans rfl, beatsLost_told s, ?_⟩
    have h1 : Reporting s (keepBeatTs s (timebaseEvent true (beatsLost s))) :=
      frame_beatTs.trans (b := beatsLost s) rfl (frame_beatTs.widen (g := fun t => { t with ts := (beatsLost s).ts }) (timebaseEvent_onlyTs ..) rfl)
    exact frame_beatTs.reporting h1 hr
  case request =>
    intro s hup hdue
    exact ⟨_, execDelayRequestSend_due hup hdue, List.mem_cons_self .., rfl,
      frame_cascade.reporting (b := delayAsked s) rfl (emit_reporting ..)⟩
  case answer =>
    intro east m residence s hkind hmode hlink hwired
    exact ⟨_, execDelayRequestRx_ok hkind hmode hlink hwired, List.mem_cons_self .., emit_reporting ..⟩
  case response =>
    intro m roundTrip s hkind hseq
    exact ⟨_, execDelayResponseRx_west hkind hseq, rfl⟩

end Sys2Proof.Machine
end

-- Discovery and presence (R337 to R341, R345)
section
/-! SUPPORT. What leaves the ring as it is, positions assigned and stored, links refused, and modules heard and lost. -/

namespace Sys2Proof.Machine

open Sys2Proof

/-! ## What leaves the cascade and what is forwarded -/

/-- The cascade is the same, and so are the commands in flight at other modules. -/
def RingKept (s t : State) : Prop := t.cascade = s.cascade ∧ t.queue.forwards = s.queue.forwards

namespace RingKept

theorem refl (s : State) : RingKept s s := ⟨rfl, rfl⟩

theorem trans {a b c : State} (h : RingKept a b) (k : RingKept b c) : RingKept a c := ⟨k.1.trans h.1, k.2.trans h.2⟩

theorem foldl {α : Type} {g : State → α → State} (h : ∀ s x, RingKept s (g s x)) (l : List α) (s : State) : RingKept s (l.foldl g s) := by
  induction l generalizing s with
  | nil => exact .refl s
  | cons x l ih => exact (h s x).trans (ih _)

theorem raise (c : Nat) (k : ScopeKind) (i : Nat) (l : Items) (s : State) (a : Bool) : RingKept s (raise c k i l s a) :=
  ⟨(raise_reporting ..).cascade, (raise_onlyEvents ..).forwards⟩

theorem complete (tk : Ticket) (st : Nat) (l : Items) (s : State) : RingKept s (complete tk st l s) :=
  ⟨(complete_reporting ..).cascade, completeAs_forwards ..⟩

theorem hostOut (tk : Ticket) (off : Nat) (l : List Byte) (s : State) : RingKept s (hostOut tk off l s) := by
  unfold Machine.hostOut
  split <;> exact ⟨rfl, rfl⟩

theorem mirrorTxn (id : Nat) (s : State) : RingKept s (mirrorTxn id s) := by
  unfold Machine.mirrorTxn
  split
  · split <;> exact ⟨rfl, rfl⟩
  · exact refl s

theorem modTxnAt (id : Nat) (f : Txn → Txn) (s : State) : RingKept s (modTxnAt id f s) := ⟨rfl, rfl⟩

theorem setPhase (id : Nat) (p : TxnPhase) (s : State) : RingKept s (setPhase id p s) := by
  unfold Machine.setPhase
  split
  · exact refl s
  · split
    · exact refl s
    · exact ((modTxnAt ..).trans (mirrorTxn ..)).trans (raise ..)

theorem endTicket (id st : Nat) (data result : Items) (s : State) : RingKept s (endTicket id st data result s) := by
  unfold Machine.endTicket
  split
  · exact refl s
  · split
    · exact refl s
    · dsimp only
      split
      · exact (modTxnAt ..).trans (complete ..)
      · split
        · exact ((modTxnAt ..).trans (hostOut ..)).trans (complete ..)
        · exact (modTxnAt ..).trans (complete ..)

theorem txnAborted (id : Nat) (s : State) : RingKept s (txnAborted id s) := by
  have h : RingKept s (broadcast "TXN_ABORT" [(id : Int)] (Machine.setPhase id .aborted s)) := (setPhase ..).trans ⟨rfl, rfl⟩
  unfold Machine.txnAborted
  dsimp only
  split
  · exact h.trans ⟨rfl, rfl⟩
  · exact h

theorem abortTxn (id st : Nat) (result : Items) (s : State) : RingKept s (abortTxn id st result s) := by
  cases hx : txnOf s id with
  | none =>
    unfold Machine.abortTxn
    rw [hx]
    exact refl s
  | some x =>
    rw [abortTxn_eq hx]
    exact (txnAborted ..).trans (endTicket ..)

/-- What the loss of a module does to a transaction that it takes part in (R302, R311). -/
theorem txnModuleLost (pos : Nat) (s : State) : RingKept s (txnModuleLost pos false s) := by
  refine foldl (fun s p => ?_) _ s
  split
  · exact refl s
  · split
    · exact abortTxn ..
    · exact abortTxn ..
    · exact abortTxn ..
    · exact refl s
    · exact refl s
    · exact refl s
    · exact refl s

theorem reportJob (distribute : Bool) (pos : Nat) (ok : Bool) (s : State) : RingKept s (reportJob distribute pos ok s) := by
  unfold Machine.reportJob settleJob
  dsimp only
  split
  · exact ⟨rfl, rfl⟩
  · split
    · exact RingKept.trans (b := setJob distribute none _) ⟨rfl, rfl⟩ (complete ..)
    · exact ⟨rfl, rfl⟩

end RingKept

/-! ## Discovery (R337 to R340, R345) -/

/-- All but the cascade and the free values drawn. -/
abbrev keepFound (s t : State) : State := { t with cascade := s.cascade, free := s.free }

theorem frame_found : Frame keepFound where
  back _ _ _ _ _ _ _ := rfl
  again _ _ _ := rfl
  self _ := rfl

theorem tellAssigned_reporting (identity serial new : Nat) (oldIdentity oldPosition : Option Nat) (s : State) :
    Reporting s (tellAssigned identity serial new oldIdentity oldPosition s) := by
  unfold tellAssigned
  split
  · exact .refl s
  · exact raiseMod_reporting ..

/-- A ring that is whole or of one module draws nothing to tell (R339). -/
theorem setRing_intact (s : State) :
    (setRing .intact s).cascade = { s.cascade with ring := .intact } ∧ Reporting s (keepCascade s (setRing .intact s)) := by
  unfold setRing
  split
  · next h =>
    exact ⟨by rw [← h], .refl s⟩
  · dsimp only
    rw [if_pos (show (decide (RingState.intact = .intact) || decide (RingState.intact = .single)) = true from rfl)]
    have hr := raiseMod_reporting 0x0D80 [it 1 s.cascade.ring.value, it 1 RingState.intact.value] (s.modCascade fun c => { c with ring := .intact })
    exact ⟨hr.cascade, frame_cascade.reporting (b := s.modCascade fun c => { c with ring := .intact }) rfl hr⟩

/-- Judging the candidates sets whether this module is one (R345). -/
theorem judgeCandidates_keeps (found : List DiscModule) (s : State) :
    (∃ c, (judgeCandidates found s).cascade = { s.cascade with candidate := c }) ∧ Reporting s (keepCascade s (judgeCandidates found s)) := by
  unfold judgeCandidates
  extract_lets own l ok was u
  split
  · have hr := raiseMod_reporting 0x0D82 [it 1 1, it 8 Config.serial] u
    exact ⟨⟨_, hr.cascade⟩, frame_cascade.reporting (b := u) rfl hr⟩
  · exact ⟨⟨_, rfl⟩, rfl⟩

/-- The ring known, this module's own position stored and told (R339, R340). -/
def ownStored (identity own : Nat) (s : State) : State :=
  storePosition identity own
    (tellAssigned identity Config.serial own (setRing .intact s).cascade.storedIdentity (setRing .intact s).cascade.storedPosition
      (setRing .intact s))

theorem ownStored_cascade (identity own : Nat) (s : State) :
    (ownStored identity own s).cascade
      = { s.cascade with ring := .intact, position := own, posValid := true, storedIdentity := some identity, storedPosition := some own } := by
  unfold ownStored storePosition
  exact congrArg (fun c : CascadeSt => { c with
      position := own, posValid := true, storedIdentity := some identity, storedPosition := some own })
    ((tellAssigned_reporting ..).cascade.trans (setRing_intact s).1)

theorem ownStored_reporting (identity own : Nat) (s : State) : Reporting s (keepCascade s (ownStored identity own s)) :=
  frame_cascade.trans (frame_cascade.reporting (setRing_intact s).2 (tellAssigned_reporting ..))
    (b := tellAssigned identity Config.serial own (setRing .intact s).cascade.storedIdentity (setRing .intact s).cascade.storedPosition
      (setRing .intact s)) rfl

/-- One module found, at its position. -/
def oneFound (m : DiscModule) (p own : Nat) (u : State) : State :=
  u.modCascade fun c => { c with modules := [(p, foundInfo u m)], ringOrder := [m.serial], headstockPos := own, discovering := false }

/-- The Headstock finds one module in a ring that is whole (R339, R340). -/
theorem concludeDiscovery_one {m : DiscModule} {p id own : Nat} {s : State} (hid : id = s.cascade.storedIdentity.getD Config.serial)
    (hown : own = if s.cascade.storedIdentity.isSome then s.cascade.storedPosition.getD 0 else 0)
    (hassign : assignPositions id own [m] = [(m, some p)]) :
    concludeDiscovery true [m] s
      = judgeCandidates [m] (tellAssigned id m.serial p m.storedIdentity m.storedPosition (oneFound m p own (ownStored id own s))) := by
  unfold concludeDiscovery
  rw [← hid, ← hown]
  dsimp only
  rw [hassign]
  have hring : ringAfter s true [m] = .intact := by simp [ringAfter]
  rw [hring]
  rfl

/-! ## Links that are not admitted (R337) -/

/-- The link at a port is down, and its delays are forgotten (R337). -/
def linkRefused (east : Bool) (s : State) : State :=
  modDelay east (fun d => { d with up := false, halves := [], outstanding := none, refused := true }) s

theorem refuseLink_admitted {east : Bool} {s : State} (h : (linkAt s east).refused = false) :
    refuseLink east s = raiseMod 0x0D82 [it 1 0, it 8 Config.serial] (linkRefused east s) := by
  unfold refuseLink
  rw [if_neg (by simp [h])]
  rfl

/-- A ring that joins the module to itself: both its links are refused, which is told (R337). -/
theorem concludeDiscovery_none {s : State} (heast : s.cascade.east.refused = false) (hwest : s.cascade.west.refused = false) :
    concludeDiscovery true [] s
      = raiseMod 0x0D82 [it 1 0, it 8 Config.serial] (linkRefused false
          (raiseMod 0x0D82 [it 1 0, it 8 Config.serial] (linkRefused true s))) := by
  change refuseLink false (refuseLink true s) = _
  rw [refuseLink_admitted (east := true) heast, refuseLink_admitted (east := false)]
  unfold linkAt
  rw [(raiseMod_reporting ..).cascade]
  exact hwest

/-! ## What another module learns (R340) -/

/-- A module that the discovery tells its own position, and no other module. -/
theorem learnDiscovery_own {m : DiscModule} {i p : Nat} {s : State} (hserial : m.serial = Config.serial) (hi : m.storedIdentity = some i)
    (hp : m.storedPosition = some p) :
    learnDiscovery [m] s
      = judgeCandidates [] (storePosition i p (s.modCascade fun c => { c with ringOrder := [m.serial], modules := [] })) := by
  have hothers : [m].filter (fun x => x.serial != Config.serial) = [] := by simp [hserial]
  have hown : [m].find? (fun x => x.serial = Config.serial) = some m := by simp [hserial]
  unfold learnDiscovery
  rw [hothers, hown]
  dsimp only
  rw [hi, hp]
  rfl

/-! ## Presence (R341) -/

/-- The twin's presence noted. -/
def twinHeard (tw : Option TwinInfo) (r : Option Nat) (s : State) : State :=
  { s with cascade := { s.cascade with twin := tw, twinReadySince := r } }

/-- What the twin's presence adds changes of the cascade what is known of the twin (R359). -/
theorem hearTwin_eq (p : Presence) (s : State) :
    ∃ tw r, hearTwin p s = twinHeard tw r s := by
  have hc : ∃ tw r, (hearTwin p s).cascade = { s.cascade with twin := tw, twinReadySince := r } := by
    unfold hearTwin State.modCascade
    dsimp only
    split
    · exact ⟨_, _, rfl⟩
    · split <;> exact ⟨_, _, rfl⟩
  obtain ⟨tw, r, hc⟩ := hc
  exact ⟨tw, r, congrArg (fun c => { s with cascade := c }) hc⟩

/-- What a presence message tells of a module that was known to the Headstock (R341). -/
def heardInfo (p : Presence) (m : ModInfo) (s : State) : ModInfo :=
  { m with
    state := p.state, role := p.twinRole, sceneGen := p.sceneGen, bootCount := p.bootCount, caughtUp := p.caughtUp, inContact := true,
    lastNs := s.time.mono }

/-- A module heard, before it is told whether it joined. -/
def heardPut (p : Presence) (m : ModInfo) (s : State) : State :=
  s.modCascade fun c => { c with modules := mapPut c.modules p.position (heardInfo p m s) }

theorem execPresenceRx_headstock {p : Presence} {s : State} (hhead : s.cascade.headstock = true) (hh : s.update.hitless = none) :
    ∃ tw r, execPresenceRx p s = .next (hearModule p (twinHeard tw r s)) := by
  obtain ⟨tw, r, he⟩ := hearTwin_eq p s
  refine ⟨tw, r, ?_⟩
  unfold execPresenceRx
  rw [he]
  have hheard : ∀ u : State, u.update.hitless = none → hitlessHeard u = u := fun u hu => by
    unfold hitlessHeard
    rw [hu]
  rw [hheard (twinHeard tw r s) hh]
  dsimp only
  rw [if_pos (show (twinHeard tw r s).cascade.headstock = true from hhead)]

/-- A module in contact that has not been reset (R341). -/
theorem hearModule_known {p : Presence} {m : ModInfo} {s : State} (hm : mapGet s.cascade.modules p.position = some m) (hlast : m.lastNs ≠ 0)
    (hin : m.inContact = true) (hboot : m.bootCount = p.bootCount) : hearModule p s = heardPut p m s := by
  unfold hearModule
  rw [hm]
  dsimp only
  rw [if_neg (by simp [hlast, hin]), if_neg (by simp [hboot])]
  rfl

/-- A module that comes into contact again (R341). -/
theorem hearModule_joins {p : Presence} {m : ModInfo} {s : State} (hm : mapGet s.cascade.modules p.position = some m)
    (hin : m.inContact = false) (hboot : m.bootCount = p.bootCount) :
    hearModule p s = presenceEvent p.position 0 p.bootCount (heardPut p m s) := by
  unfold hearModule
  rw [hm]
  dsimp only
  rw [if_pos (by simp [hin]), if_neg (by simp [hboot])]
  rfl

/-! ## Modules out of contact (R341) -/

/-- The module marked out of contact. -/
def contactLost (pos : Nat) (m : ModInfo) (s : State) : State :=
  s.modCascade fun c => { c with modules := mapPut c.modules pos { m with inContact := false } }

theorem execPresenceTimeout_due {pos : Nat} {m : ModInfo} {s : State} (hhead : s.cascade.headstock = true)
    (hm : mapGet s.cascade.modules pos = some m) (hin : m.inContact = true) (hdue : m.lastNs + 50000000 ≤ s.time.mono) :
    execPresenceTimeout pos s = .next (presenceEvent pos 2 m.bootCount (moduleGone pos false (contactLost pos m s))) := by
  unfold execPresenceTimeout
  rw [if_pos hhead, hm]
  dsimp only
  rw [if_pos (by simp [hin, hdue])]
  rfl

/-- The module gone, but for the distribution that waited for it. -/
def goneCancelled (pos : Nat) (s : State) : State :=
  txnModuleLost pos false (endForwards (fun tk t => t = pos && !outlives tk) 0x0302 s)

theorem goneCancelled_cascade (pos : Nat) (s : State) : (goneCancelled pos s).cascade = s.cascade :=
  (RingKept.txnModuleLost ..).1.trans (endForwards_runs ..).frame.cascade

theorem goneCancelled_forwards (pos : Nat) (s : State) :
    (goneCancelled pos s).queue.forwards = s.queue.forwards.filter fun f => !(f.2.2 = pos && !outlives f.2.1) :=
  (RingKept.txnModuleLost ..).2.trans (endForwards_forwards ..)

theorem moduleGone_kept (pos : Nat) (s : State) : RingKept (goneCancelled pos s) (moduleGone pos false s) := by
  change RingKept (goneCancelled pos s) (if ((goneCancelled pos s).update.distribute.map
    fun j => j.mask.contains pos && !j.done.contains pos).getD false then reportJob true pos false (goneCancelled pos s) else goneCancelled pos s)
  split
  · exact .reportJob ..
  · exact .refl _

/-- With nothing forwarded, no transaction and no distribution, nothing waits for the module. -/
theorem moduleGone_none {pos : Nat} {s : State} (hf : s.queue.forwards = []) (ht : s.txn.txns = []) (hd : s.update.distribute = none) :
    moduleGone pos false s = s := by
  have he : endForwards (fun tk t => t = pos && !outlives tk) 0x0302 s = s := by
    unfold endForwards
    rw [hf]
    change { s with queue := { s.queue with forwards := s.queue.forwards.filter _ } } = s
    rw [hf, List.filter_nil, ← hf]
  have hl : txnModuleLost pos false s = s := by
    unfold txnModuleLost
    rw [ht]
    rfl
  unfold moduleGone
  rw [he, hl]
  dsimp only
  rw [hd]
  rfl

/-- Settles O38: discovery is sent both ways; what comes back gives ring and positions, or links that are not admitted; presence is sent
and heard; a module without it is out of contact, and what waits for it ends. -/
theorem modulesAreFoundAndHeard : Obligations.ModulesAreFoundAndHeard := by
  unfold Obligations.ModulesAreFoundAndHeard
  refine ⟨?sent, ?found, ?itself, ?learned, ?presence, ?heard, ?joined, ?lost, ?headLost⟩
  case sent =>
    intro s hhead
    refine ⟨_, congrArg Host.Outcome.next (if_pos hhead), rfl, List.mem_cons_of_mem _ (List.mem_cons_self ..), List.mem_cons_self .., ?_⟩
    exact frame_cascade.reporting (b := s.modCascade fun c => { c with discovering := true, discoveryNs := s.time.mono }) rfl
      (broadcast_reporting ..)
  case found =>
    intro m p id own s hhead hid hown hassign
    have hexec : execDiscoveryComplete true [m] s = .next (concludeDiscovery true [m] s) := congrArg Host.Outcome.next (if_pos hhead)
    rw [concludeDiscovery_one hid hown hassign] at hexec
    refine ⟨_, hexec, ?_⟩
    obtain ⟨⟨c, hcand⟩, hframe⟩ := judgeCandidates_keeps [m]
      (tellAssigned id m.serial p m.storedIdentity m.storedPosition (oneFound m p own (ownStored id own s)))
    have htold := tellAssigned_reporting id m.serial p m.storedIdentity m.storedPosition (oneFound m p own (ownStored id own s))
    have hone : (oneFound m p own (ownStored id own s)).cascade
        = { (ownStored id own s).cascade with
            modules := [(p, foundInfo (ownStored id own s) m)], ringOrder := [m.serial], headstockPos := own, discovering := false } := rfl
    rw [ownStored_cascade] at hone
    rw [hcand, htold.cascade, hone]
    refine ⟨rfl, rfl, rfl, rfl, rfl, rfl, rfl, by simp [mapGet, foundInfo], rfl, ?_⟩
    have h1 : Reporting s (keepCascade s (oneFound m p own (ownStored id own s))) :=
      frame_cascade.trans (ownStored_reporting ..) (c := oneFound m p own (ownStored id own s)) rfl
    exact frame_found.widen (frame_cascade.trans (frame_cascade.reporting h1 htold) hframe) rfl
  case itself =>
    intro s hhead heast hwest
    have hexec : execDiscoveryComplete true [] s = .next (concludeDiscovery true [] s) := congrArg Host.Outcome.next (if_pos hhead)
    rw [concludeDiscovery_none heast hwest] at hexec
    refine ⟨_, hexec, ?_⟩
    have hr := raiseMod_reporting 0x0D82 [it 1 0, it 8 Config.serial] (linkRefused true s)
    have hr' := raiseMod_reporting 0x0D82 [it 1 0, it 8 Config.serial]
      (linkRefused false (raiseMod 0x0D82 [it 1 0, it 8 Config.serial] (linkRefused true s)))
    have hc : (linkRefused false (raiseMod 0x0D82 [it 1 0, it 8 Config.serial] (linkRefused true s))).cascade
        = (linkRefused false (linkRefused true s)).cascade :=
      congrArg (fun c : CascadeSt => { c with west := { c.west with up := false, halves := [], outstanding := none, refused := true } })
        hr.cascade
    beta_reduce
    rw [hr'.cascade, hc]
    refine ⟨rfl, rfl, rfl, rfl, rfl, rfl, ?_, ?_⟩
    · exact (raiseMod_raises 0x0D82 [it 1 0, it 8 Config.serial] s (linkRefused true s) rfl rfl rfl rfl).tells
        (Tells.trans (b := linkRefused false (raiseMod 0x0D82 [it 1 0, it 8 Config.serial] (linkRefused true s)))
          ⟨rfl, .refl _, List.Subset.refl _⟩ (raiseMod_tells ..))
    · exact frame_cascade.reporting (frame_cascade.trans (frame_cascade.reporting (b := linkRefused true s) rfl hr)
        (c := linkRefused false (raiseMod 0x0D82 [it 1 0, it 8 Config.serial] (linkRefused true s))) rfl) hr'
  case learned =>
    intro m i p s hhead hserial hi hp
    have hexec : execDiscoveryComplete true [m] s = .next (learnDiscovery [m] s) :=
      congrArg Host.Outcome.next (if_neg (by simp [hhead]))
    rw [learnDiscovery_own hserial hi hp] at hexec
    refine ⟨_, hexec, ?_⟩
    obtain ⟨⟨c, hcand⟩, hframe⟩ := judgeCandidates_keeps []
      (storePosition i p (s.modCascade fun c => { c with ringOrder := [m.serial], modules := [] }))
    rw [hcand]
    exact ⟨rfl, rfl, rfl, rfl, frame_cascade.trans (b := storePosition i p (s.modCascade fun c => { c with ringOrder := [m.serial], modules := [] }))
      rfl hframe⟩
  case presence =>
    intro s hpos hmode hdue
    refine ⟨_, congrArg Host.Outcome.next (if_pos (by simp [hpos, hmode, hdue])), List.mem_cons_self .., rfl, ?_⟩
    exact frame_cascade.reporting (b := s.modCascade fun c => { c with presenceNs := some s.time.mono }) rfl (emit_reporting ..)
  case heard =>
    intro p m s hhead hh hm hlast hin hboot
    obtain ⟨tw, r, hexec⟩ := execPresenceRx_headstock (p := p) hhead hh
    rw [hearModule_known (s := twinHeard tw r s) hm hlast hin hboot] at hexec
    have hinfo : heardInfo p m (twinHeard tw r s)
        = { m with state := p.state, role := p.twinRole, sceneGen := p.sceneGen, caughtUp := p.caughtUp, lastNs := s.time.mono } := by
      unfold heardInfo
      rw [← hboot, ← hin]
      rfl
    refine ⟨_, hexec, (mapGet_mapPut_self ..).trans (congrArg some hinfo), fun q hq => mapGet_mapPut_ne _ _ hq, rfl⟩
  case joined =>
    intro p m s hhead hh hm hlast hin hboot
    obtain ⟨tw, r, hexec⟩ := execPresenceRx_headstock (p := p) hhead hh
    rw [hearModule_joins (s := twinHeard tw r s) hm hin hboot] at hexec
    refine ⟨_, hexec, ?_, raiseMod_raises _ _ s (heardPut p m (twinHeard tw r s)) rfl rfl rfl rfl, ?_⟩
    · rw [show (presenceEvent p.position 0 p.bootCount (heardPut p m (twinHeard tw r s))).cascade = (heardPut p m (twinHeard tw r s)).cascade from
        (raiseMod_reporting ..).cascade]
      exact congrArg (Option.map ModInfo.inContact) (mapGet_mapPut_self ..)
    · exact frame_cascade.reporting (b := heardPut p m (twinHeard tw r s)) rfl (raiseMod_reporting ..)
  case lost =>
    intro pos m s hhead hm hin hdue
    refine ⟨_, execPresenceTimeout_due hhead hm hin hdue, ?_, ?_, ?_⟩
    · rw [show (presenceEvent pos 2 m.bootCount (moduleGone pos false (contactLost pos m s))).cascade = (contactLost pos m s).cascade from
        (raiseMod_reporting ..).cascade.trans ((moduleGone_kept ..).1.trans (goneCancelled_cascade ..))]
      exact mapGet_mapPut_self ..
    · intro f hf hpos
      rw [show (presenceEvent pos 2 m.bootCount (moduleGone pos false (contactLost pos m s))).queue.forwards
          = s.queue.forwards.filter fun f => !(f.2.2 = pos && !outlives f.2.1) from
        (raiseMod_onlyEvents ..).forwards.trans ((moduleGone_kept ..).2.trans (goneCancelled_forwards ..))] at hf
      have hkept := (List.mem_filter.mp hf).2
      simpa [hpos] using hkept
    · intro hf ht hd
      rw [moduleGone_none (s := contactLost pos m s) hf ht hd]
      exact raiseMod_raises _ _ s (contactLost pos m s) rfl rfl rfl rfl
  case headLost =>
    intro p s hhead hp hlost hin hdue
    have hexec : execPresenceTimeout s.cascade.headstockPos s
        = .next (modPart (fun x => { x with lostNs := some (x.lostNs.getD s.time.mono) }) s) := by
      unfold execPresenceTimeout
      rw [if_neg (by simp [hhead]), hin, hdue]
      dsimp only
      rw [if_pos (by simp), if_pos (by simp)]
      unfold dropInbound
      rw [hin]
    refine ⟨_, hexec, ?_, rfl⟩
    change s.txn.part.map _ = _
    rw [hp, Option.map_some, hlost]
    rfl

end Sys2Proof.Machine
end

-- The Headstock's role and the twin's (R345 to R348, R354 to R361)
section
/-! SUPPORT. What a change of role leaves of what has been told and of the port, what it makes of the cascade, pairing, a catch-up and a swap. -/

namespace Sys2Proof.Machine

open Sys2Proof

/-! ## Completions on the way -/

/-- The port that completions are written to: whether a detach is in progress, the session, and the module's position (R283, R284). -/
def State.port (s : State) : Option Ticket × Bool × Option RingTable × List Nat × Nat :=
  (s.queue.detaching, s.host.attached, s.host.table, s.host.stoppedCpl, position s)

/-- What has been told stays told, and, with no detach in progress, the port stays as it is. -/
structure Carries (s t : State) : Prop where
  adds : Adds s t
  events : s.queue.events ⊆ t.queue.events
  port : s.queue.detaching = none → t.port = s.port

theorem Carries.refl (s : State) : Carries s s := ⟨.refl s, List.Subset.refl _, fun _ => rfl⟩

theorem detaching_of_port {s t : State} (h : t.port = s.port) : t.queue.detaching = s.queue.detaching := congrArg Prod.fst h

theorem Carries.trans {a b c : State} (h : Carries a b) (k : Carries b c) : Carries a c :=
  ⟨h.adds.trans k.adds, List.Subset.trans h.events k.events,
    fun hd => (k.port ((detaching_of_port (h.port hd)).trans hd)).trans (h.port hd)⟩

theorem Tells.carries {s t : State} (h : Tells s t) : Carries s t := by
  refine ⟨h.adds, h.events, fun _ => ?_⟩
  have hv := h.view
  unfold State.port
  rw [show t.queue.detaching = s.queue.detaching from congrArg HostView.detaching hv,
    show t.host.attached = s.host.attached from congrArg HostView.attached hv,
    show t.host.table = s.host.table from congrArg HostView.table hv,
    show t.host.stoppedCpl = s.host.stoppedCpl from congrArg HostView.stoppedCpl hv,
    show position t = position s from congrArg HostView.position hv]

theorem Raises.carried {c : Nat} {k : ScopeKind} {i : Nat} {l : Items} {s u t : State} (h : Raises c k i l s u) (ht : Carries u t) :
    Raises c k i l s t := h.mono ht.adds ht.events

theorem publish_port (c : Completion) (s : State) : (publish c s).port = s.port := by
  unfold publish putCompletion
  (repeat' split) <;> rfl

theorem completeAs_carries (tk : Ticket) (st pos : Nat) (f : Bool) (l : Items) (s : State) : Carries s (completeAs tk st pos f l s) := by
  refine ⟨completeAs_adds .., by rw [completeAs_events]; exact List.Subset.refl _, fun hd => ?_⟩
  unfold completeAs
  dsimp only
  split
  · rfl
  · have hport : (if (tk.quiet && decide (st = 0)) = true then leaveFlight tk s
        else publish { ticket := tk, status := st, position := pos, forwarded := f, result := resultOf tk st l } (leaveFlight tk s)).port
        = s.port := by
      split
      · rfl
      · exact publish_port ..
    rw [settleDetach_none ((detaching_of_port hport).trans hd)]
    exact hport

theorem endForwards_carries (p : Ticket → Nat → Bool) (st : Nat) (s : State) : Carries s (endForwards p st s) := by
  have hfold : ∀ (l : List (Nat × Ticket × Nat)) (u : State), Carries u (l.foldl (fun s f => completeAs f.2.1 st f.2.2 true [] s) u) := fun l => by
    induction l with
    | nil => exact .refl
    | cons f l ih => exact fun u => (completeAs_carries ..).trans (ih _)
  exact Carries.trans (b := s.modQueue fun q => { q with forwards := q.forwards.filter fun f => !p f.2.1 f.2.2 })
    ⟨.refl _, List.Subset.refl _, fun _ => rfl⟩ (hfold _ _)

theorem giveHeadstock_carries (cause : Nat) (s : State) : Carries s (giveHeadstock cause s) :=
  ((endForwards_carries ..).trans (b := endForwards (fun _ _ => true) 0x03D1 s) (c := headstockPut s)
    ⟨.refl _, List.Subset.refl _, fun _ => rfl⟩).trans (raiseMod_tells ..).carries

theorem checkHeadstock_carries (cause : Nat) (s : State) : Carries s (checkHeadstock cause s) := by
  unfold checkHeadstock
  split
  · exact giveHeadstock_carries ..
  · exact .refl s

theorem endSwap_carries (st : Nat) (s : State) : Carries s (endSwap st s) := by
  have h : Carries s (s.modCascade fun c => { c with swap := none }) := ⟨.refl _, List.Subset.refl _, fun _ => rfl⟩
  unfold endSwap
  split
  · exact .refl s
  · dsimp only
    split
    · exact h.trans (completeAs_carries ..)
    · exact h

/-- A ticket ends wherever the port is that of `s` (R283, R284). -/
theorem complete_finishesAt {s u : State} (h : u.port = s.port) (tk : Ticket) (st : Nat) (l : Items) :
    Finishes tk st l s (complete tk st l u) := by
  intro horg hq hatt r hr
  have hat : u.host.attached = s.host.attached := congrArg (fun p => p.2.1) h
  have htab : u.host.table = s.host.table := congrArg (fun p => p.2.2.1) h
  have hstop : u.host.stoppedCpl = s.host.stoppedCpl := congrArg (fun p => p.2.2.2.1) h
  have hpos : position u = position s := congrArg (fun p => p.2.2.2.2) h
  rw [← hpos]
  refine completeAs_published horg hq (hat.trans hatt) ?_ ..
  rw [← hr]
  simp [cplRingOf, cmdEntry, htab, hstop]

/-! ## A change of role -/

theorem checkHeadstock_cascade (cause : Nat) (s : State) :
    ∃ o, (checkHeadstock cause s).cascade = { s.cascade with headstock := s.cascade.headstock && mayHold s, handover := o } := by
  by_cases h : (s.cascade.headstock && !mayHold s) = true
  · have hfalse : (s.cascade.headstock && mayHold s) = false := by
      cases hm : mayHold s <;> simp_all
    rw [show checkHeadstock cause s = giveHeadstock cause s from if_pos h, giveHeadstock_cascade, hfalse]
    exact ⟨false, rfl⟩
  · have hsame : (s.cascade.headstock && mayHold s) = s.cascade.headstock := by
      cases hm : mayHold s <;> simp_all
    rw [show checkHeadstock cause s = s from if_neg h, hsame]
    exact ⟨_, rfl⟩

theorem endSwap_cascade (st : Nat) (s : State) : (endSwap st s).cascade = { s.cascade with swap := none } := by
  unfold endSwap
  split
  · next h => rw [← h]
  · dsimp only
    split
    · exact (complete_reporting ..).cascade
    · rfl

/-- The role set, before it is told (R358). -/
def rolePut (new : Role) (cause : Nat) (s : State) : State :=
  let catch_ := new = .standby && cause != 2 && twinServes s
  s.modCascade fun c =>
    { c with role := new, catchingUp := catch_, caughtUp := new = .standby && !catch_, swapped := if cause = 2 then c.swapped else none }

theorem rolePut_carries (new : Role) (cause : Nat) (s : State) : Carries s (rolePut new cause s) :=
  ⟨.refl _, List.Subset.refl _, fun _ => rfl⟩

/-- The role set and told, and the Headstock's given up where it may no longer be held (R346, R358). -/
def roleTaken (new : Role) (cause : Nat) (s : State) : State :=
  checkHeadstock (if cause = 2 then 1 else 2) (roleEvent s.cascade.role new cause (rolePut new cause s))

theorem setRole_eq {new : Role} {s : State} (h : s.cascade.role ≠ new) (cause : Nat) :
    setRole new cause s = if cause = 2 then roleTaken new cause s else endSwap 0x03D0 (roleTaken new cause s) := if_neg h

theorem roleEvent_carries (old new : Role) (cause : Nat) (s : State) : Carries s (roleEvent old new cause s) := (raiseMod_tells ..).carries

theorem roleTaken_carries (new : Role) (cause : Nat) (s : State) : Carries s (roleTaken new cause s) :=
  ((rolePut_carries ..).trans (roleEvent_carries ..)).trans (checkHeadstock_carries ..)

theorem setRole_carries (new : Role) (cause : Nat) (s : State) : Carries s (setRole new cause s) := by
  by_cases h : s.cascade.role = new
  · rw [show setRole new cause s = s from if_pos h]
    exact .refl s
  · rw [setRole_eq h]
    split
    · exact roleTaken_carries ..
    · exact (roleTaken_carries ..).trans (endSwap_carries ..)

/-- The change is told (R362). -/
theorem setRole_raises {new : Role} {s u : State} (h : u.cascade.role ≠ new) (cause : Nat) (hh : u.host = s.host) (hq : u.queue = s.queue)
    (hp : position u = position s) (hw : u.time.wall = s.time.wall) :
    Raises 0x0D86 .module (position s) [it 1 u.cascade.role.value, it 1 new.value, it 1 cause, it 1 (twinRoleValue u)] s
      (setRole new cause u) := by
  have hr : Raises 0x0D86 .module (position s) [it 1 u.cascade.role.value, it 1 new.value, it 1 cause, it 1 (twinRoleValue u)] s
      (roleEvent u.cascade.role new cause (rolePut new cause u)) := raiseMod_raises _ _ s (rolePut new cause u) hh hq hp hw
  have hcheck : Raises _ _ _ _ s (roleTaken new cause u) := hr.carried (checkHeadstock_carries (if cause = 2 then 1 else 2) _)
  rw [setRole_eq h]
  split
  · exact hcheck
  · exact hcheck.carried (endSwap_carries ..)

theorem roleTaken_cascade (new : Role) (cause : Nat) (s : State) :
    ∃ o, (roleTaken new cause s).cascade = { (rolePut new cause s).cascade with
      headstock := s.cascade.headstock && (inService s && (new = .active || new = .alone)), handover := o } := by
  obtain ⟨o, hc⟩ := checkHeadstock_cascade (if cause = 2 then 1 else 2) (roleEvent s.cascade.role new cause (rolePut new cause s))
  have hr : Reporting (rolePut new cause s) (roleEvent s.cascade.role new cause (rolePut new cause s)) := raiseMod_reporting ..
  have hm : mayHold (roleEvent s.cascade.role new cause (rolePut new cause s)) = (inService s && (new = .active || new = .alone)) := by
    unfold mayHold inService
    rw [hr.cascade, hr.module]
    rfl
  rw [hm, hr.cascade] at hc
  exact ⟨o, hc⟩

/-- What a change of role makes of the cascade (R346, R357, R358). -/
theorem setRole_cascade {new : Role} {s : State} (h : s.cascade.role ≠ new) (cause : Nat) :
    ∃ o, (setRole new cause s).cascade = { (rolePut new cause s).cascade with
      headstock := s.cascade.headstock && (inService s && (new = .active || new = .alone)), handover := o,
      swap := if cause = 2 then s.cascade.swap else none } := by
  obtain ⟨o, hc⟩ := roleTaken_cascade new cause s
  refine ⟨o, ?_⟩
  rw [setRole_eq h]
  split
  · exact hc
  · rw [endSwap_cascade, hc]

/-! ## The Headstock's role (R346, R347) -/

/-- The Headstock's role taken, before it is told (R347). -/
def headstockTaken (cause : Nat) (s : State) : State :=
  s.modCascade fun c =>
    { c with
      headstock := true, handover := cause != 0, epoch := (c.epoch + 1) % 4294967296, beatSeq := 0,
      headstockPos := if c.posValid then c.position else 0, beatOrigin := if c.posValid then c.position else 0, beatHops := 0 }

theorem takeHeadstock_eq (cause : Nat) (s : State) :
    takeHeadstock cause s
      = raiseMod 0x0D83 [it 1 1, it 1 cause, it 1 s.cascade.headstockPos, it 4 ((s.cascade.epoch + 1) % 4294967296)] (headstockTaken cause s) := rfl

theorem execHeadstockTake_free {s : State} (hhead : s.cascade.headstock = false) (hsel : s.module.masterSel = true)
    (hcand : s.cascade.candidate = true) (hmay : mayHold s = true) (hfree : roleFree s = true) :
    execHeadstockTake s = .next (takeHeadstock (if s.cascade.lastBeatNs.isSome then 2 else 0) s) := by
  unfold execHeadstockTake
  rw [if_neg (by simp [hhead]), if_pos (by simp [hsel, hcand, hmay, hfree])]

theorem execHeadstockTake_gives {s : State} (hhead : s.cascade.headstock = true) (hmay : mayHold s = false) :
    execHeadstockTake s = .next (giveHeadstock 2 s) := by
  unfold execHeadstockTake checkHeadstock
  rw [if_pos hhead, if_pos (by simp [hhead, hmay])]

/-! ## Pairing (R354, R358) -/

/-- What this module knows of a twin with which it was not paired. -/
def newTwin (x : TwinIdent) : TwinInfo :=
  { ident := x, role := .alone, caughtUp := false, mode := if x.inService then 3 else if x.starting then 1 else 0, sceneGen := x.sceneGen }

/-- The twin known and its link up, before it is told. -/
def twinPaired (x : TwinIdent) (s : State) : State :=
  s.modCascade fun c => { c with twinUp := true, twin := some (newTwin x), twinReadySince := none }

/-- The link told up. -/
def pairTold (x : TwinIdent) (s : State) : State :=
  raise 0x0D85 .port 26 [it 1 1, it 1 0, it 1 0, it 1 (lanesUp s .twin).length] (twinPaired x s)

theorem execTwinPairing_heard {x : TwinIdent} {s : State} (hlanes : lanesUp s .twin ≠ []) (hoff : s.module.mode ≠ .off)
    (hidle : s.module.mode ≠ .idleLink) (hh : s.update.hitless = none) (hup : s.cascade.twinUp = false) :
    execTwinPairing x s = .next (if pairingFault x s != 0 then
      raise 0x0D85 .port 26 [it 1 0, it 1 1, it 1 (pairingFault x s), it 1 (lanesUp s .twin).length] s
      else takePairing x (pairTold x s)) := by
  have hpaired : hitlessPaired x.version s = s := by
    unfold hitlessPaired
    rw [hh]
  have hlen : (lanesUp s .twin).length ≠ 0 := fun h => hlanes (List.length_eq_zero_iff.mp h)
  unfold execTwinPairing
  dsimp only
  rw [if_neg (by simp [hlen, hoff, hidle]), hpaired, hup]
  rfl

/-- The role of the twin noted, before this module takes its own (R358). -/
def otherNoted (r : Role) (s : State) : State :=
  s.modCascade fun c => { c with twin := c.twin.map fun x => { x with role := r } }

/-- The role of a twin beside the role that this module takes. -/
def otherRole : Role → Role
  | .active => .standby
  | .standby => .active
  | x => x

theorem takePairing_alone {x : TwinIdent} {s : State} (h : s.cascade.role = .alone) :
    takePairing x s = setRole (pairedRole x s) 0 (otherNoted (otherRole (pairedRole x s)) s) := by
  unfold takePairing
  rw [if_neg (by simp [h])]
  rfl

theorem pairedRole_congr {x : TwinIdent} {s t : State} (hm : t.module = s.module) (hs : t.scene = s.scene) : pairedRole x t = pairedRole x s := by
  unfold pairedRole inService
  rw [hm, hs]

theorem setRole_twin (new : Role) (cause : Nat) (s : State) :
    (setRole new cause s).cascade.twinUp = s.cascade.twinUp ∧ (setRole new cause s).cascade.twin = s.cascade.twin := by
  by_cases h : s.cascade.role = new
  · rw [show setRole new cause s = s from if_pos h]
    exact ⟨rfl, rfl⟩
  · obtain ⟨o, hc⟩ := setRole_cascade h cause
    rw [hc]
    exact ⟨rfl, rfl⟩

theorem pairTold_cascade (x : TwinIdent) (s : State) :
    (pairTold x s).cascade = { s.cascade with twinUp := true, twin := some (newTwin x), twinReadySince := none } := (raise_reporting ..).cascade

theorem pairTold_runs (x : TwinIdent) (s : State) : Runs keepCascade s (pairTold x s) :=
  Runs.trans frame_cascade (b := twinPaired x s) ⟨.refl _, rfl, rfl⟩ ((Tends.raise frame_cascade ..).runs)

/-- The first pairing of a module that is ALONE (R354, R358). -/
theorem takePairing_pairs {x : TwinIdent} {s : State} (hrole : s.cascade.role = .alone) :
    let t := takePairing x (pairTold x s)
    t.cascade.twinUp = true ∧ t.cascade.twin.map TwinInfo.ident = some x ∧ t.cascade.role = pairedRole x s
      ∧ Carries (pairTold x s) t ∧ Runs keepCascade s t := by
  dsimp only
  have hc := pairTold_cascade x s
  have hr : Reporting s (keepCascade s (pairTold x s)) := (pairTold_runs x s).frame
  have hpaired : pairedRole x (pairTold x s) = pairedRole x s := pairedRole_congr hr.module hr.scene
  rw [takePairing_alone (by rw [hc]; exact hrole), hpaired]
  obtain ⟨hup, htwin⟩ := setRole_twin (pairedRole x s) 0 (otherNoted (otherRole (pairedRole x s)) (pairTold x s))
  have hnoted : (otherNoted (otherRole (pairedRole x s)) (pairTold x s)).cascade
      = { (pairTold x s).cascade with twin := (pairTold x s).cascade.twin.map fun y => { y with role := otherRole (pairedRole x s) } } := rfl
  rw [hup, htwin, hnoted, hc, setRole_role]
  refine ⟨rfl, rfl, rfl, ?_, ?_⟩
  · exact Carries.trans (b := otherNoted (otherRole (pairedRole x s)) (pairTold x s)) ⟨.refl _, List.Subset.refl _, fun _ => rfl⟩
      (setRole_carries ..)
  · exact (pairTold_runs x s).trans frame_cascade (Runs.trans frame_cascade (b := otherNoted (otherRole (pairedRole x s)) (pairTold x s))
      ⟨.refl _, rfl, rfl⟩ (setRole_runs ..))

/-! ## The twin lost, or out of service (R358, R361) -/

/-- The twin forgotten. -/
def twinForgotten (s : State) : State := s.modCascade fun c => { c with twinUp := false, twin := none, twinReadySince := none }

theorem twinForgotten_carries (s : State) : Carries s (twinForgotten s) := ⟨.refl _, List.Subset.refl _, fun _ => rfl⟩

theorem twinForgotten_runs (s : State) : Runs keepCascade s (twinForgotten s) := ⟨.refl _, rfl, rfl⟩

theorem loseTwin_paired {s : State} (h : s.cascade.role = .active ∨ s.cascade.role = .standby) :
    loseTwin s = setRole .alone 6 (endSwap 0x05D0 (twinForgotten s)) := by
  have hrole : (endSwap 0x05D0 (twinForgotten s)).cascade.role = s.cascade.role := by rw [endSwap_cascade]; rfl
  unfold loseTwin
  change (match (endSwap 0x05D0 (twinForgotten s)).cascade.role with
    | .active | .standby => setRole .alone 6 (endSwap 0x05D0 (twinForgotten s))
    | .withdrawn => _
    | .alone => _) = _
  rw [hrole]
  rcases h with h | h <;> rw [h]

theorem execTwinLinkLoss_lost {s : State} (h : twinBondLost s = true) (hh : s.update.hitless = none) :
    execTwinLinkLoss s = .next (twinDown s) := by
  unfold execTwinLinkLoss
  rw [if_pos h, hh]
  rfl

/-- What the twin's report leaves known of it (R358). -/
def twinReported (role : Nat) (s : State) : State :=
  s.modCascade fun c =>
    { c with twinReadySince := none, twin := c.twin.map fun t =>
        { t with role := if role = 3 then Role.withdrawn else .alone, mode := 0, caughtUp := false,
                 ident := { t.ident with inService := false, headstock := false } } }

theorem twinReported_runs (role : Nat) (s : State) : Runs keepCascade s (twinReported role s) := ⟨.refl _, rfl, rfl⟩

theorem execTwinReportRx_standby {role : Nat} {s : State} (hup : s.cascade.twinUp = true) (hrole : s.cascade.role = .standby) :
    execTwinReportRx role s = .next (setRole .active 1 (twinReported role s)) := by
  unfold execTwinReportRx
  rw [if_neg (by simp [hup])]
  dsimp only
  exact congrArg Host.Outcome.next (if_pos hrole)

/-! ## A catch-up (R357) -/

/-- The twin's bank in the bank that is not in force. -/
def bankStaged (bank : SceneBank) (s : State) : State := s.modScene fun c => { c with other := bank, otherUse := .staged }

/-- The scene caught up with the twin's. -/
def sceneCaught (gen : Nat) (s : State) : State :=
  (s.modScene fun c => { c with gen := gen, twinGen := gen, behind := false }).modCascade fun c => { c with catchingUp := false, caughtUp := true }

theorem sceneCaught_reporting (gen : Nat) (s : State) :
    Reporting s { sceneCaught gen s with scene := s.scene, cascade := s.cascade, gates := s.gates, ts := s.ts } := rfl

theorem sceneCaught_parts (gen : Nat) (s : State) :
    (sceneCaught gen s).scene = { s.scene with gen := gen, twinGen := gen, behind := false }
      ∧ (sceneCaught gen s).cascade = { s.cascade with catchingUp := false, caughtUp := true } ∧ (sceneCaught gen s).gates = s.gates :=
  ⟨rfl, rfl, rfl⟩

/-- The frames at which a bank comes into force in its groups. -/
def caughtFrames (bank : SceneBank) (s : State) : Map Nat := bank.groups.map fun p => (p.1, applyFrame s p.1 p.2 s.time.wall)

/-- The bank in force, before it is noted that the module has caught up. -/
def bankCaught (bank : SceneBank) (s : State) : State :=
  swapScene (caughtFrames bank (writeStaged (bankStaged bank s))) false
    ((caughtFrames bank (writeStaged (bankStaged bank s))).foldl (fun u p => createGroup (writeStaged (bankStaged bank s)).time.wall u p.1)
      (writeStaged (bankStaged bank s)))

theorem createFrames_eq (T : Nat) (l : Map Nat) (s : State) : ∃ ts, l.foldl (fun u p => createGroup T u p.1) s = { s with ts := ts } := by
  obtain ⟨ts, h⟩ := createGroups_eq T (l.map Prod.fst) s
  rw [List.foldl_map] at h
  exact ⟨ts, h⟩

/-- All but scenes, gates and the Tailstock. -/
abbrev keepCaught (s t : State) : State := { t with scene := s.scene, cascade := s.cascade, gates := s.gates, ts := s.ts }

theorem frame_caught : Frame keepCaught where
  back _ _ _ _ _ _ _ := rfl
  again _ _ _ := rfl
  self _ := rfl

theorem bankCaught_keeps (bank : SceneBank) (s : State) :
    (∃ frames, (bankCaught bank s).scene = swappedScene frames false { s.scene with other := bank, otherUse := .staged })
      ∧ (bankCaught bank s).gates.rules = bank.rules ∧ (bankCaught bank s).cascade = s.cascade ∧ (bankCaught bank s).update = s.update
      ∧ Reporting s (keepCaught s (bankCaught bank s)) := by
  unfold bankCaught
  have hw : Reporting (bankStaged bank s) (writeStaged (bankStaged bank s)) := (writeStaged_moves (bankStaged bank s)).frame
  obtain ⟨ts, hg⟩ := createFrames_eq (writeStaged (bankStaged bank s)).time.wall (caughtFrames bank (writeStaged (bankStaged bank s)))
    (writeStaged (bankStaged bank s))
  rw [hg]
  have hs := (swapScene_moves (caughtFrames bank (writeStaged (bankStaged bank s))) false { writeStaged (bankStaged bank s) with ts := ts }).frame
  refine ⟨⟨caughtFrames bank (writeStaged (bankStaged bank s)), ?_⟩, ?_, ?_, ?_, ?_⟩
  · rw [swapScene_scene]
    exact congrArg (swappedScene _ false) hw.scene
  · rw [swapScene_rules]
    exact congrArg (fun c => c.other.rules) hw.scene
  · rw [swapScene_cascade]
    exact hw.cascade
  · exact (Reporting.update (t := keepSceneGates _ (swapScene _ false { writeStaged (bankStaged bank s) with ts := ts })) hs).trans hw.update
  · have h1 : Reporting s (keepCaught s (writeStaged (bankStaged bank s))) := frame_caught.reporting (b := bankStaged bank s) rfl hw
    have h2 : Reporting s (keepCaught s { writeStaged (bankStaged bank s) with ts := ts }) :=
      frame_caught.trans h1 (c := { writeStaged (bankStaged bank s) with ts := ts }) rfl
    exact frame_caught.trans h2 (frame_caught.widen hs rfl)

/-- The twin's bank checked, and put in force or not (R357). -/
def bankTried (gen : Nat) (bank : SceneBank) (s : State) : State :=
  if (validate s bank).isEmpty then hitlessCaughtUp (sceneCaught gen (bankCaught bank s)) else roleEvent s.cascade.role s.cascade.role 7 s

theorem execCatchUp_eq (gen : Nat) (items : List Item) (objects : List HostCmd) (registers : List (Nat × Word32)) (s : State) :
    execCatchUp gen items objects registers s = .next (
      if s.cascade.catchingUp && s.cascade.role = .standby && s.cascade.twinUp && bankFree s then
        bankTried gen (items.foldl (stageItem 0) SceneBank.init)
          (if s.update.hitless.isSome then objects.foldl (fun s c => recreate c s) (registers.foldl (fun s p => takeRegister p s) s) else s)
      else s) := rfl

/-- A catch-up outside a hitless update tries the bank (R357). -/
theorem execCatchUp_tries {gen : Nat} {items : List Item} {objects : List HostCmd} {registers : List (Nat × Word32)} {s : State}
    (hcatch : s.cascade.catchingUp = true) (hrole : s.cascade.role = .standby) (hup : s.cascade.twinUp = true) (hfree : bankFree s = true)
    (hh : s.update.hitless = none) :
    execCatchUp gen items objects registers s = .next (bankTried gen (items.foldl (stageItem 0) SceneBank.init) s) := by
  rw [execCatchUp_eq, if_pos (by simp [hcatch, hrole, hup, hfree]), if_neg (by simp [hh])]

theorem hitlessCaughtUp_none {s : State} (h : s.update.hitless = none) : hitlessCaughtUp s = s := by
  unfold hitlessCaughtUp
  rw [h]

theorem bankTried_passes {bank : SceneBank} {s : State} (hh : s.update.hitless = none) (hvalid : validate s bank = []) (gen : Nat) :
    bankTried gen bank s = sceneCaught gen (bankCaught bank s) := by
  obtain ⟨-, -, -, hupdate, -⟩ := bankCaught_keeps bank s
  unfold bankTried
  rw [if_pos (List.isEmpty_iff.mpr hvalid)]
  refine hitlessCaughtUp_none ?_
  change (bankCaught bank s).update.hitless = none
  rw [hupdate, hh]

theorem bankTried_fails {bank : SceneBank} {s : State} (hrole : s.cascade.role = .standby) (hvalid : validate s bank ≠ []) (gen : Nat) :
    bankTried gen bank s = roleEvent .standby .standby 7 s := by
  unfold bankTried
  rw [if_neg (fun h => hvalid (List.isEmpty_iff.mp h)), hrole]

/-! ## Swaps (R359) -/

theorem execAutoSwapDecision_due {a b : Nat} {s : State} (hrole : s.cascade.role = .active) (hup : s.cascade.twinUp = true)
    (hmode : s.module.mode = .lean) (hlean : s.cascade.leanSince = some a) (ha : a + 1000000000 ≤ s.time.mono)
    (hready : s.cascade.twinReadySince = some b) (hb : b + 1000000000 ≤ s.time.mono) (hswap : s.cascade.swap = none)
    (hlast : ∀ l, s.cascade.lastAutoSwap = some l → l + 60000000000 ≤ s.time.mono) :
    execAutoSwapDecision s = .next (decideSwap true false none s) := by
  have hsecond : second = 1000000000 := rfl
  unfold execAutoSwapDecision
  rw [hrole, hup, hmode, hlean, hready, hswap, hsecond]
  cases hl : s.cascade.lastAutoSwap with
  | none =>
    dsimp only
    rw [if_pos (by simp [ha, hb])]
  | some l =>
    have := hlast l hl
    dsimp only
    rw [if_pos (by simp [ha, hb]; omega)]

/-- What a swap notes before the role changes (R359). -/
def swapNoted (other : Role) (s : State) : State :=
  let at_ := (elapsedAt s ((s.cascade.swap.map Swap.atNs).getD s.time.wall)).toNat
  s.modCascade fun c =>
    { c with
      lastAutoSwap := if (s.cascade.swap.map Swap.auto).getD false then some s.time.mono else c.lastAutoSwap, swapped := some (at_, c.role),
      twin := c.twin.map fun t => { t with role := other, caughtUp := true, ident := { t.ident with headstock := c.headstock } } }

/-- In the master pair the Headstock's role passes with the role (R347). -/
def roleHeld (held : Bool) (s : State) : State :=
  if held && s.module.masterSel && s.cascade.candidate && mayHold s then takeHeadstock 1 s else s

theorem roleHeld_runs (held : Bool) (s : State) : Runs keepCascade s (roleHeld held s) := by
  unfold roleHeld
  split
  · exact Runs.trans frame_cascade (b := headstockTaken 1 s) ⟨.refl _, rfl, rfl⟩ ((Tends.raiseMod frame_cascade ..).runs)
  · exact .refl frame_cascade s

theorem roleHeld_carries (held : Bool) (s : State) : Carries s (roleHeld held s) := by
  unfold roleHeld
  split
  · exact Carries.trans (b := headstockTaken 1 s) ⟨.refl _, List.Subset.refl _, fun _ => rfl⟩ ((raiseMod_tells ..).carries)
  · exact .refl s

theorem takeHeadstock_cascade (cause : Nat) (s : State) : (takeHeadstock cause s).cascade = (headstockTaken cause s).cascade := by
  rw [takeHeadstock_eq]
  exact (raiseMod_reporting ..).cascade

theorem roleHeld_role (held : Bool) (s : State) : (roleHeld held s).cascade.role = s.cascade.role := by
  unfold roleHeld
  split
  · rw [takeHeadstock_cascade]
    rfl
  · rfl

theorem roleHeld_takes {held : Bool} {s : State} (hheld : held = true) (hsel : s.module.masterSel = true) (hcand : s.cascade.candidate = true)
    (hmay : mayHold s = true) : (roleHeld held s).cascade.headstock = true := by
  unfold roleHeld
  rw [if_pos (by simp [hheld, hsel, hcand, hmay]), takeHeadstock_cascade]
  rfl

theorem swapRoles_active {s : State} (h : s.cascade.role = .active) : swapRoles s = endSwap 0 (setRole .standby 2 (swapNoted .active s)) := by
  unfold swapRoles
  rw [h]
  rfl

theorem swapRoles_standby {s : State} (h : s.cascade.role = .standby) :
    swapRoles s = endSwap 0 (roleHeld ((s.cascade.twin.map fun t => t.ident.headstock).getD false)
      (setRole .active 2 (swapNoted .standby s))) := by
  unfold swapRoles
  rw [h]
  unfold roleHeld
  rfl

theorem execSwapInstant_due {s : State} (hup : s.cascade.twinUp = true) (hrole : s.cascade.role = .active ∨ s.cascade.role = .standby)
    (hdue : ∀ w, s.cascade.swap = some w → w.atNs ≤ s.time.wall) (hh : (swapRoles s).update.hitless = none) :
    execSwapInstant s = .next (swapRoles s) := by
  have hd : swapDue s = true := by
    unfold swapDue
    rw [hup]
    cases hw : s.cascade.swap with
    | none => simpa using hrole
    | some w => simpa [hdue w hw] using hrole
  unfold execSwapInstant
  rw [if_pos hd]
  dsimp only
  rw [hh]

/-! ## What ends with the roles changed -/

/-- A bond lost leaves the module alone, with no swap agreed (R361). -/
theorem twinLost_ends {s u : State} (hr : Reporting s u) {c : Nat} {k : ScopeKind} {i : Nat} {l : Items} (hraises : Raises c k i l s u)
    (hrole : s.cascade.role = .active ∨ s.cascade.role = .standby) :
    let t := setRole .alone 6 (endSwap 0x05D0 (twinForgotten u))
    t.cascade.twinUp = false ∧ t.cascade.twin = none ∧ t.cascade.role = .alone ∧ t.cascade.swap = none
      ∧ Raises c k i l s t ∧ Reporting s { t with cascade := s.cascade } := by
  dsimp only
  have hend : (endSwap 0x05D0 (twinForgotten u)).cascade = { (twinForgotten u).cascade with swap := none } := endSwap_cascade ..
  have hforgot : (twinForgotten u).cascade = { u.cascade with twinUp := false, twin := none, twinReadySince := none } := rfl
  rw [hforgot, hr.cascade] at hend
  have hne : (endSwap 0x05D0 (twinForgotten u)).cascade.role ≠ .alone := by
    rw [hend]
    change s.cascade.role ≠ .alone
    rcases hrole with h | h <;> rw [h] <;> decide
  have hcarries : Carries u (setRole .alone 6 (endSwap 0x05D0 (twinForgotten u))) :=
    ((twinForgotten_carries u).trans (endSwap_carries ..)).trans (setRole_carries ..)
  have hruns : Runs keepCascade u (setRole .alone 6 (endSwap 0x05D0 (twinForgotten u))) :=
    ((twinForgotten_runs u).trans frame_cascade (endSwap_runs ..)).trans frame_cascade (setRole_runs ..)
  obtain ⟨hup, htwin⟩ := setRole_twin .alone 6 (endSwap 0x05D0 (twinForgotten u))
  obtain ⟨o, hc⟩ := setRole_cascade hne 6
  refine ⟨by rw [hup, hend], by rw [htwin, hend], setRole_role .., by rw [hc]; rfl, hraises.carried hcarries, ?_⟩
  exact frame_cascade.trans (frame_cascade.of_reporting hr) hruns.frame

/-- A scene caught up: the twin's bank in force, its gates' rules with it (R357). -/
theorem sceneCaught_keeps (gen : Nat) (bank : SceneBank) (s : State) :
    let t := sceneCaught gen (bankCaught bank s)
    t.scene.inForce = bank ∧ t.scene.other = s.scene.inForce ∧ t.scene.gen = gen ∧ t.scene.behind = false
      ∧ t.cascade = { s.cascade with catchingUp := false, caughtUp := true } ∧ t.gates.rules = t.scene.inForce.rules
      ∧ Reporting s { t with scene := s.scene, cascade := s.cascade, gates := s.gates, ts := s.ts } := by
  obtain ⟨⟨frames, hscene⟩, hrules, hcascade, -, hframe⟩ := bankCaught_keeps bank s
  obtain ⟨hs, hc, hg⟩ := sceneCaught_parts gen (bankCaught bank s)
  have hall := frame_caught.trans hframe (sceneCaught_reporting gen (bankCaught bank s))
  dsimp only
  rw [hs, hc, hg, hscene, hrules, hcascade]
  exact ⟨rfl, rfl, rfl, rfl, rfl, rfl, hall⟩

theorem swapNoted_carries (other : Role) (s : State) : Carries s (swapNoted other s) := ⟨.refl _, List.Subset.refl _, fun _ => rfl⟩

theorem swapNoted_runs (other : Role) (s : State) : Runs keepCascade s (swapNoted other s) := ⟨.refl _, rfl, rfl⟩

theorem swapNoted_cascade (other : Role) (s : State) :
    ∃ a n, (swapNoted other s).cascade = { s.cascade with
      lastAutoSwap := a, swapped := n,
      twin := s.cascade.twin.map fun t =>
        { t with role := other, caughtUp := true, ident := { t.ident with headstock := s.cascade.headstock } } } := ⟨_, _, rfl⟩

/-- The swap agreed noted as over. -/
def swapOver (s : State) : State := s.modCascade fun c => { c with swap := none }

theorem swapOver_port (s : State) : (swapOver s).port = s.port := rfl

theorem endSwap_ticket {w : Swap} {tk : Ticket} {s : State} (hw : s.cascade.swap = some w) (htk : w.ticket = some tk) (st : Nat) :
    endSwap st s = complete tk st [] (swapOver s) := by
  unfold endSwap
  rw [hw]
  dsimp only
  rw [htk]
  rfl

/-- The swap of a module that was ACTIVE (R358, R359). -/
theorem swapActive_ends {w : Swap} {tk : Ticket} {s : State} (hup : s.cascade.twinUp = true) (hrole : s.cascade.role = .active)
    (hswap : s.cascade.swap = some w) (hdue : w.atNs ≤ s.time.wall) (htk : w.ticket = some tk) (hh : s.update.hitless = none)
    (hdet : s.queue.detaching = none) :
    Completes .swapInstant s fun t =>
      t.cascade.role = .standby ∧ t.cascade.caughtUp = true ∧ t.cascade.catchingUp = false ∧ t.cascade.headstock = false
        ∧ t.cascade.swap = none ∧ Finishes tk 0 [] s t ∧ Reporting s { t with cascade := s.cascade } := by
  obtain ⟨a, n, hnoted⟩ := swapNoted_cascade .active s
  have hne : (swapNoted .active s).cascade.role ≠ .standby := by
    rw [hnoted]
    change s.cascade.role ≠ .standby
    rw [hrole]
    decide
  obtain ⟨o, hc⟩ := setRole_cascade hne 2
  have hput : (rolePut .standby 2 (swapNoted .active s)).cascade
      = { (swapNoted .active s).cascade with role := .standby, catchingUp := false, caughtUp := true } := rfl
  have hruns := (swapNoted_runs .active s).trans frame_cascade (setRole_runs .standby 2 (swapNoted .active s))
  have hcarries := (swapNoted_carries .active s).trans (setRole_carries .standby 2 (swapNoted .active s))
  rw [hput, hnoted] at hc
  have hpending : (setRole .standby 2 (swapNoted .active s)).cascade.swap = some w := by
    rw [hc]
    exact hswap
  have hall := hruns.trans frame_cascade (endSwap_runs 0 (setRole .standby 2 (swapNoted .active s)))
  refine ⟨_, execSwapInstant_due hup (.inl hrole) (fun v hv => ?_) ?_, ?_⟩
  · rw [hswap] at hv
    injection hv with hv
    rw [← hv]
    exact hdue
  · rw [swapRoles_active hrole, show (endSwap 0 (setRole .standby 2 (swapNoted .active s))).update = s.update from hall.frame.update]
    exact hh
  · rw [swapRoles_active hrole]
    have hend := endSwap_cascade 0 (setRole .standby 2 (swapNoted .active s))
    rw [hc] at hend
    beta_reduce
    rw [hend]
    refine ⟨rfl, rfl, rfl, by simp, rfl, ?_, hall.frame⟩
    rw [endSwap_ticket hpending htk]
    exact complete_finishesAt ((swapOver_port _).trans (hcarries.port hdet)) tk 0 []

/-- The swap of a module that was STANDBY (R347, R358, R359). -/
theorem swapStandby_ends {x : TwinInfo} {s : State} (hup : s.cascade.twinUp = true) (hrole : s.cascade.role = .standby)
    (hswap : s.cascade.swap = none) (htwin : s.cascade.twin = some x) (hh : s.update.hitless = none) :
    Completes .swapInstant s fun t =>
      t.cascade.role = .active
        ∧ (x.ident.headstock = true → s.module.masterSel = true → s.cascade.candidate = true → inService s = true →
          t.cascade.headstock = true)
        ∧ Raises 0x0D86 .module (position s) [it 1 2, it 1 1, it 1 2, it 1 2] s t ∧ Reporting s { t with cascade := s.cascade } := by
  obtain ⟨a, n, hnoted⟩ := swapNoted_cascade .standby s
  have hne : (swapNoted .standby s).cascade.role ≠ .active := by
    rw [hnoted]
    change s.cascade.role ≠ .active
    rw [hrole]
    decide
  have hraises := setRole_raises (s := s) hne 2 rfl rfl rfl rfl
  have hvalue : twinRoleValue (swapNoted .standby s) = 2 := by
    unfold twinRoleValue
    rw [hnoted, htwin]
    rfl
  rw [hvalue, show (swapNoted .standby s).cascade.role = .standby from hrole] at hraises
  have hruns := (swapNoted_runs .standby s).trans frame_cascade (setRole_runs .active 2 (swapNoted .standby s))
  obtain ⟨o, hc⟩ := setRole_cascade hne 2
  have hheld : (s.cascade.twin.map fun t => t.ident.headstock).getD false = x.ident.headstock := by rw [htwin]; rfl
  have hswapped := swapRoles_standby hrole
  rw [hheld] at hswapped
  have hall := (hruns.trans frame_cascade (roleHeld_runs x.ident.headstock (setRole .active 2 (swapNoted .standby s)))).trans frame_cascade
    (endSwap_runs 0 (roleHeld x.ident.headstock (setRole .active 2 (swapNoted .standby s))))
  have hexec := execSwapInstant_due hup (.inr hrole) (fun v hv => by rw [hswap] at hv; cases hv) (by
    rw [hswapped, hall.frame.update]
    exact hh)
  rw [hswapped] at hexec
  refine ⟨_, hexec, ?_, ?_, ?_, hall.frame⟩
  · rw [endSwap_role, roleHeld_role, setRole_role]
  · intro hx hsel hcand hserve
    rw [endSwap_cascade]
    change (roleHeld x.ident.headstock (setRole .active 2 (swapNoted .standby s))).cascade.headstock = true
    refine roleHeld_takes hx ?_ ?_ ?_
    · rw [hruns.frame.module]
      exact hsel
    · rw [hc]
      exact hcand
    · unfold mayHold inService
      rw [setRole_role, hruns.frame.module]
      unfold inService at hserve
      rw [hserve]
      rfl
  · exact (hraises.carried (roleHeld_carries ..)).carried (endSwap_carries ..)

/-- Settles O40: the Headstock's role is taken, given up and served; pairing gives the roles or names what fails; a lost bond or twin
leaves this module alone or active; a catch-up puts the twin's bank in force; a swap is decided, and at its instant the roles change places. -/
theorem rolesAreTakenAndSwapped : Obligations.RolesAreTakenAndSwapped := by
  unfold Obligations.RolesAreTakenAndSwapped
  refine ⟨?takes, ?gives, ?serves, ?pairs, ?refused, ?lost, ?reported, ?caught, ?checked, ?decided, ?active, ?standby⟩
  case takes =>
    intro s hhead hsel hcand hmay hfree
    refine ⟨_, execHeadstockTake_free hhead hsel hcand hmay hfree, ?_⟩
    rw [takeHeadstock_eq]
    have hr := raiseMod_reporting 0x0D83 [it 1 1, it 1 (if s.cascade.lastBeatNs.isSome then 2 else 0), it 1 s.cascade.headstockPos,
      it 4 ((s.cascade.epoch + 1) % 4294967296)] (headstockTaken (if s.cascade.lastBeatNs.isSome then 2 else 0) s)
    beta_reduce
    rw [hr.cascade]
    refine ⟨rfl, rfl, rfl, ?_, raiseMod_raises _ _ s (headstockTaken _ s) rfl rfl rfl rfl,
      frame_cascade.reporting (b := headstockTaken _ s) rfl hr⟩
    change ((if s.cascade.lastBeatNs.isSome then 2 else 0) != 0) = _
    cases s.cascade.lastBeatNs <;> rfl
  case gives =>
    intro s hhead hmay
    refine ⟨_, execHeadstockTake_gives hhead hmay, ?_, giveHeadstock_forwards .., (giveHeadstock_runs ..).frame⟩
    rw [giveHeadstock_cascade]
  case serves =>
    exact fun s => ⟨_, rfl, rfl⟩
  case pairs =>
    intro x s hlanes hoff hidle hh hup hrole hfault
    have hexec := execTwinPairing_heard (x := x) hlanes hoff hidle hh hup
    rw [hfault, if_neg (by decide)] at hexec
    obtain ⟨hup', htwin, hrole', hcarries, hruns⟩ := takePairing_pairs (x := x) hrole
    have hraises : Raises 0x0D85 .port 26 [it 1 1, it 1 0, it 1 0, it 1 (lanesUp s .twin).length] s (pairTold x s) :=
      raise_raises _ _ _ _ s (twinPaired x s) false rfl rfl rfl rfl rfl rfl
    exact ⟨_, hexec, hup', htwin, hrole', hraises.carried hcarries, hruns.frame⟩
  case refused =>
    intro x s hlanes hoff hidle hh hup hfault
    have hexec := execTwinPairing_heard (x := x) hlanes hoff hidle hh hup
    rw [if_pos (bne_iff_ne.mpr hfault)] at hexec
    exact ⟨_, hexec, raise_self _ _ _ _ _ _, raise_reporting ..⟩
  case lost =>
    intro s hlost hh hrole
    refine ⟨_, execTwinLinkLoss_lost hlost hh, ?_⟩
    have hr := raise_reporting 0x0D85 .port 26 [it 1 0, it 1 0, it 1 0, it 1 0] s false
    have hraises : Raises 0x0D85 .port 26 [it 1 0, it 1 0, it 1 0, it 1 0] s (raise 0x0D85 .port 26 [it 1 0, it 1 0, it 1 0, it 1 0] s) :=
      raise_self _ _ _ _ _ _
    unfold twinDown
    rw [loseTwin_paired (by rw [hr.cascade]; exact hrole)]
    exact twinLost_ends hr hraises hrole
  case reported =>
    intro role s hup hrole
    refine ⟨_, execTwinReportRx_standby hup hrole, setRole_role .., ?_⟩
    exact ((twinReported_runs role s).trans frame_cascade (setRole_runs ..)).frame
  case caught =>
    intro gen items objects registers s hcatch hrole hup hfree hh hvalid
    have hexec := execCatchUp_tries (gen := gen) (items := items) (objects := objects) (registers := registers) hcatch hrole hup hfree hh
    rw [bankTried_passes hh hvalid] at hexec
    exact ⟨_, hexec, sceneCaught_keeps ..⟩
  case checked =>
    intro gen items objects registers s hcatch hrole hup hfree hh hvalid
    have hexec := execCatchUp_tries (gen := gen) (items := items) (objects := objects) (registers := registers) hcatch hrole hup hfree hh
    rw [bankTried_fails hrole hvalid] at hexec
    exact ⟨_, hexec, raiseMod_raises _ _ s s rfl rfl rfl rfl, raiseMod_reporting ..⟩
  case decided =>
    intro a b s hrole hup hmode hlean ha hready hb hswap hlast
    refine ⟨_, execAutoSwapDecision_due hrole hup hmode hlean ha hready hb hswap hlast, rfl, List.mem_cons_self .., ?_⟩
    exact (decideSwap_runs ..).frame
  case active =>
    intro w tk s hup hrole hswap hdue htk hh hdet
    exact swapActive_ends hup hrole hswap hdue htk hh hdet
  case standby =>
    intro x s hup hrole hswap htwin hh
    exact swapStandby_ends hup hrole hswap htwin hh

end Sys2Proof.Machine
end

-- The servo (R24 to R27, R56 to R59)
section
/-! SUPPORT. A change of the servo's state, the master that the algorithm selects, measurements, and steps of the counter. -/

namespace Sys2Proof.Machine

open Sys2Proof

/-! ## States of the servo (R57) -/

/-- The time of a servo that enters a state. -/
def servoTime (new : Servo) (t : TimeSt) : TimeSt :=
  { t with
    servo := new, fromHoldover := if new = .acquiring then t.servo == .holdover else t.fromHoldover,
    fit := [], inThreshold := 0, lastMeasuredNs := none, slewE12 := if new = .locked then t.slewE12 else 0 }

theorem setServo_eq {new : Servo} {s : State} (h : s.time.servo ≠ new) (port : Nat) :
    setServo new port s = raise 0x0281 .port port [it 1 s.time.servo.value, it 1 new.value, it 8 (uItem s)] (s.modTime (servoTime new)) :=
  if_neg h

theorem setServo_same {new : Servo} {s : State} (h : s.time.servo = new) (port : Nat) : setServo new port s = s := if_pos h

theorem setServo_time {new : Servo} {s : State} (h : s.time.servo ≠ new) (port : Nat) :
    (setServo new port s).time = servoTime new s.time := by
  rw [setServo_eq h]
  exact (raise_reporting ..).time

/-- The change is told with u (R57). -/
theorem setServo_raises {new : Servo} {s : State} (h : s.time.servo ≠ new) (port : Nat) :
    Raises 0x0281 .port port [it 1 s.time.servo.value, it 1 new.value, it 8 (uItem s)] s (setServo new port s) := by
  rw [setServo_eq h]
  exact raise_raises _ _ _ _ s (s.modTime (servoTime new)) false rfl rfl rfl rfl rfl rfl

/-! ## The master selected (R56, R57) -/

/-- The time of a module that selects a master. -/
def selectTime (g : Option Announce) (delay : Option Nat) (t : TimeSt) : TimeSt :=
  { t with gm := g, delayMs := delay, lastAnnounceNs := (g.map fun a => lastHeard a t).getD t.lastAnnounceNs }

/-- The first master selected is told (R77). -/
theorem selectMaster_first {s : State} (h : s.time.gm = none) (a : Announce) :
    selectMaster (some a) s = raise 0x0282 .port a.port [it 8 0, it 8 a.gmId] (s.modTime (selectTime (some a) none)) := by
  unfold selectMaster
  rw [h]
  rfl

/-- Another master, or none, leaves the servo where it has fallen back to (R57). -/
theorem selectMaster_time (g : Option Announce) {s : State} (h : servoFallback s = s.time.servo) :
    (selectMaster g s).time.servo = s.time.servo ∧ (selectMaster g s).time.heard = s.time.heard ∧ (selectMaster g s).time.gm = g
      ∧ (selectMaster g s).time.wall = s.time.wall ∧ (selectMaster g s).time.tRef = s.time.tRef
      ∧ Tells s (selectMaster g s) ∧ Reporting s (keepTime s (selectMaster g s)) := by
  unfold selectMaster
  extract_lets old id port u v
  split
  · exact ⟨rfl, rfl, rfl, rfl, rfl, .same rfl rfl rfl rfl, rfl⟩
  · have hv : v.time = u.time := (raise_reporting ..).time
    have hback : servoFallback v = v.time.servo := by
      unfold servoFallback at h ⊢
      rw [hv]
      exact h
    rw [hback, setServo_same rfl, ite_self, hv]
    exact ⟨rfl, rfl, rfl, rfl, rfl, Tells.trans (b := u) (.same rfl rfl rfl rfl) (raise_tells ..),
      frame_time.reporting (b := u) rfl (raise_reporting ..)⟩

/-- A servo without its grandmaster is in UNKNOWN or HOLDOVER (R57). -/
theorem servoFallback_cases (s : State) : servoFallback s = .unknown ∨ servoFallback s = .holdover := by
  unfold servoFallback
  cases s.time.servo with
  | acquiring => cases s.time.fromHoldover <;> simp
  | _ => simp

theorem servoFallback_fallen {s t : State} (h : t.time.servo = servoFallback s) : servoFallback t = t.time.servo := by
  have ht : t.time.servo = .unknown ∨ t.time.servo = .holdover := by rw [h]; exact servoFallback_cases s
  unfold servoFallback
  rcases ht with ht | ht <;> rw [ht]

theorem setServo_servo (new : Servo) (port : Nat) (s : State) : (setServo new port s).time.servo = new := by
  by_cases h : s.time.servo = new
  · rw [setServo_same h]
    exact h
  · rw [setServo_time h]
    rfl

/-- A change of the servo's state leaves the counter, the masters heard and the one selected (R57). -/
theorem setServo_keeps (new : Servo) (port : Nat) (s : State) :
    (setServo new port s).time.wall = s.time.wall ∧ (setServo new port s).time.tRef = s.time.tRef
      ∧ (setServo new port s).time.heard = s.time.heard ∧ (setServo new port s).time.gm = s.time.gm
      ∧ (setServo new port s).time.mono = s.time.mono ∧ (setServo new port s).time.ptpPorts = s.time.ptpPorts := by
  by_cases h : s.time.servo = new
  · rw [setServo_same h]
    exact ⟨rfl, rfl, rfl, rfl, rfl, rfl⟩
  · rw [setServo_time h]
    exact ⟨rfl, rfl, rfl, rfl, rfl, rfl⟩

/-- The master selected depends on those heard, on the one selected before, on elapsed time and on the ports (R56). -/
theorem selected_congr {s t : State} (hheard : t.time.heard = s.time.heard) (hgm : t.time.gm = s.time.gm) (hmono : t.time.mono = s.time.mono)
    (hports : t.time.ptpPorts = s.time.ptpPorts) (hingest : t.ingest = s.ingest) : selected t = selected s := by
  have hq : qualified t = qualified s := by
    funext f
    unfold qualified
    rw [hgm, hmono]
  have hp : ptpPort t = ptpPort s := by
    funext p
    unfold ptpPort ingestLane
    rw [hports, hingest]
  unfold selected
  rw [hq, hp, hheard]

/-! ## Announces (R56, R57) -/

/-- What an Announce of the master selected tells of the time scale. -/
def announced (a : Announce) (s : State) : State :=
  s.modTime fun t => { t with lastAnnounceNs := t.mono, utcOffset := a.utcOffset, utcValid := t.utcValid || a.utcValid }

/-- The first master selected, with what its Announce tells. -/
def firstAnnounced (a : Announce) (s : State) : State := announced a (selectMaster (some a) (hear a s))

theorem execAnnounceRx_first {a : Announce} {s : State} (hruns : servoRuns s = true) (hport : ptpPort s a.port = true)
    (hdomain : a.domain = s.time.ptpDomain) (hsteps : a.stepsRemoved < 255) (hsel : selected (hear a s) = some a)
    (hservo : s.time.servo = .unknown ∨ s.time.servo = .holdover) :
    execAnnounceRx a s = .next (setServo .acquiring a.port (firstAnnounced a s)) := by
  unfold execAnnounceRx
  rw [if_pos (by simp [hruns, hport, hdomain, hsteps])]
  dsimp only
  rw [hsel]
  dsimp only
  rw [if_pos (by simp [sameMaster]), if_pos (by simpa using hservo)]
  rfl

theorem execAnnounceRx_none {a : Announce} {s : State} (hruns : servoRuns s = true) (hport : ptpPort s a.port = true)
    (hdomain : a.domain = s.time.ptpDomain) (hsteps : a.stepsRemoved < 255) (hsel : selected (hear a s) = none) :
    execAnnounceRx a s = .next (hear a s) := by
  unfold execAnnounceRx
  rw [if_pos (by simp [hruns, hport, hdomain, hsteps])]
  dsimp only
  rw [hsel]

/-- A master no longer heard, its record gone (R57). -/
def masterGone (g : Announce) (s : State) : State :=
  (setServo (servoFallback s) g.port s).modTime fun t => { t with heard := t.heard.filter fun f => !sameMaster f.announce g }

theorem execAnnounceTimeout_due {g : Announce} {s : State} (hgm : s.time.gm = some g) (hlow : 2 ≤ s.time.announceTimeout)
    (hhigh : s.time.announceTimeout ≤ 10)
    (hdue : s.time.lastAnnounceNs + s.time.announceTimeout * g.intervalMs * 1000000 ≤ s.time.mono) :
    execAnnounceTimeout s = .next (selectMaster (selected (masterGone g s)) (masterGone g s)) := by
  unfold execAnnounceTimeout
  rw [hgm]
  have hn : (if (2 ≤ s.time.announceTimeout && s.time.announceTimeout ≤ 10) = true then s.time.announceTimeout else 3)
      = s.time.announceTimeout := if_pos (by simp [hlow, hhigh])
  dsimp only
  rw [hn, if_pos hdue]
  rfl

theorem masterGone_heard (g : Announce) (s : State) :
    (masterGone g s).time.heard = s.time.heard.filter fun f => !sameMaster f.announce g := by
  obtain ⟨-, -, hheard, -⟩ := setServo_keeps (servoFallback s) g.port s
  change (setServo (servoFallback s) g.port s).time.heard.filter _ = _
  rw [hheard]

theorem masterGone_moves (g : Announce) (s : State) : Moves keepTime s (masterGone g s) :=
  (setServo_tends (servoFallback s) g.port s).moves.trans frame_time
    (Moves.trans frame_time (b := masterGone g s) ⟨.same rfl rfl rfl rfl, rfl⟩ (.refl frame_time _))

theorem Moves.time_ingest {s t : State} (h : Moves keepTime s t) : t.ingest = s.ingest := Reporting.ingest (t := keepTime s t) h.frame

/-- The masters heard but for one. -/
def othersHeard (g : Announce) (s : State) : State :=
  { s with time := { s.time with heard := s.time.heard.filter fun f => !sameMaster f.announce g } }

theorem selected_masterGone (g : Announce) (s : State) : selected (masterGone g s) = selected (othersHeard g s) := by
  obtain ⟨-, -, -, kgm, kmono, kports⟩ := setServo_keeps (servoFallback s) g.port s
  exact selected_congr (masterGone_heard g s) kgm kmono kports (masterGone_moves g s).time_ingest

/-! ## Measurements (R58, R59) -/

/-- The offset that two paths measure (R58). -/
def measured (t1 t2 t3 t4 : Nat) : Int := (((t2 : Int) - t1) - ((t4 : Int) - t3)) / 2

/-- The measurement noted. -/
def offsetNoted (o : Int) (delay : Nat) (s : State) : State := s.modTime fun t => { t with delayMs := some delay, offset := o }

theorem execOffsetMeasurement_acquiring {port t1 t2 t3 t4 delay : Nat} {s : State} (hruns : servoRuns s = true) (hport : gmPort s = port)
    (hservo : s.time.servo = .acquiring) :
    execOffsetMeasurement port t1 t2 t3 ⟨t4, delay⟩ s
      = .next (acquireStep (measured t1 t2 t3 t4) (offsetNoted (measured t1 t2 t3 t4) delay s)) := by
  unfold execOffsetMeasurement
  rw [if_pos (by simp [hruns, hport])]
  refine congrArg Host.Outcome.next ?_
  extract_lets o u
  rw [show u.time.servo = .acquiring from hservo]
  rfl

theorem execOffsetMeasurement_locked {port t1 t2 t3 t4 delay : Nat} {s : State} (hruns : servoRuns s = true) (hport : gmPort s = port)
    (hservo : s.time.servo = .locked) :
    execOffsetMeasurement port t1 t2 t3 ⟨t4, delay⟩ s
      = .next (steerStep (measured t1 t2 t3 t4) (offsetNoted (measured t1 t2 t3 t4) delay s)) := by
  unfold execOffsetMeasurement
  rw [if_pos (by simp [hruns, hport])]
  refine congrArg Host.Outcome.next ?_
  extract_lets o u
  rw [show u.time.servo = .locked from hservo]
  rfl

/-- The estimate extended (R58). -/
def estimateTime (o : Int) (n : Nat) (t : TimeSt) : TimeSt :=
  { t with fit := ((t.mono, o) :: t.fit).take 64, inThreshold := n, lastMeasuredNs := some t.mono }

/-- Measurements in a row within the threshold, with this one (R59). -/
def inRow (o : Int) (s : State) : Nat := if residualOk s s.time.mono o && inTime s then s.time.inThreshold + 1 else 0

theorem four_le_lockCountOf (s : State) : 4 ≤ lockCountOf s := by
  unfold lockCountOf
  split <;> omega

theorem acquireStep_waits {o : Int} {s : State} (h : inRow o s < lockCountOf s) : acquireStep o s = s.modTime (estimateTime o (inRow o s)) := by
  unfold acquireStep
  extract_lets t n fit u
  exact if_neg (Nat.not_le.mpr h)

/-- The counter stepped by what the estimate has come to, and LOCKED entered from its frequency error (R58). -/
def lockStep (o : Int) (s : State) : State :=
  let l := ((s.time.mono, o) :: s.time.fit).take 64
  let u := stepCounter ((fitAt l s.time.mono).1 / (fitAt l s.time.mono).2) (s.modTime (estimateTime o (inRow o s)))
  setServo .locked (gmPort u)
    (u.modTime fun x => { x with freqE12 := fitSlopeE12 l, slewE12 := fitSlopeE12 l, slewPart := 0, lastGoodNs := x.mono })

theorem acquireStep_locks {o : Int} {s : State} (h : lockCountOf s ≤ inRow o s) : acquireStep o s = lockStep o s := by
  unfold acquireStep
  extract_lets t n fit u
  exact if_pos h

/-! ## Steps of the counter (R27) -/

/-- The time after a step by −Δ (R27). -/
def stepTime (delta : Int) (t : TimeSt) : TimeSt :=
  { t with
    wall := wall64 ((t.wall : Int) - delta), lastStep := some (t.mono, delta), steps := (t.steps + 1) % 4294967296,
    tRef := some t.mono, lastRef := some (t.mono, t.tRef) }

/-- The step is larger than u (R27). -/
def stepExceeds (delta : Int) (s : State) : Bool := (uE6 s).any fun u => u < delta.natAbs * 1000000

theorem stepCounter_eq (delta : Int) (s : State) :
    stepCounter delta s = if stepExceeds delta s then raise 0x0280 .port (gmPort s) [(8, delta), it 8 (uItem s)] (s.modTime (stepTime delta))
      else s.modTime (stepTime delta) := by
  unfold stepCounter stepExceeds
  extract_lets u told v w
  change (match uE6 s with | some u => _ | none => _) = _
  cases uE6 s with
  | none => rfl
  | some n =>
    dsimp only
    rw [Option.any_some]
    simp only [decide_eq_true_eq]
    rfl

theorem stepCounter_time (delta : Int) (s : State) : (stepCounter delta s).time = stepTime delta s.time := by
  rw [stepCounter_eq]
  split
  · exact (raise_reporting ..).time
  · rfl

theorem stepCounter_reporting (delta : Int) (s : State) : Reporting s (keepTime s (stepCounter delta s)) := by
  rw [stepCounter_eq]
  split
  · exact frame_time.reporting (b := s.modTime (stepTime delta)) rfl (raise_reporting ..)
  · rfl

/-! ## Confirmations (R24, R25) -/

theorem twinDisciplines_stopped {s : State} (h : twinDisciplines s = true) : servoRuns s = false := by
  unfold twinDisciplines at h
  unfold servoRuns
  cases hm : mainUp s <;> cases hv : s.mgmt.vcoreRemoved <;> simp_all

/-- The counter stepped by the twin's servo, and slewed no more (R24, R27). -/
def twinStepped (o : Int) (s : State) : State :=
  (stepCounter o s).modTime fun t => { t with freqE12 := 0, slewE12 := 0, slewPart := 0 }

theorem execLockConfirm_twin {s : State} (h : twinDisciplines s = true) (hlate : ∀ r, s.time.tRef = some r → r + 1000000 < s.time.mono) :
    execLockConfirm s = .next (twinStepped (Config.twinOffset s.free) (draw s).2) := by
  have hnot : (((draw s).2.time.tRef.map fun r => decide ((draw s).2.time.mono ≤ r + 1000000)).getD false) = false := by
    change ((s.time.tRef.map fun r => decide (s.time.mono ≤ r + 1000000)).getD false) = false
    cases hr : s.time.tRef with
    | none => rfl
    | some r => simpa using hlate r hr
  unfold execLockConfirm twinConfirm
  rw [if_neg (by simp [twinDisciplines_stopped h]), if_pos h, hnot]
  rfl

theorem uE6_confirmLock (s : State) : uE6 (confirmLock s) = some (Config.uRefNs * 1000000) := by
  have hr : tRefAt (confirmLock s) s.time.mono = some s.time.mono := by
    unfold tRefAt confirmLock State.modTime
    simp
  unfold uE6 uE6At
  rw [show (confirmLock s).time.mono = s.time.mono from rfl, hr]
  simp [Config.uRefNs, Config.uMaxNs]

/-! ## The rate of the slewing (R58) -/

theorem slewE12_slewRate (o : Int) (s : State) :
    ∃ n : Nat, (slewRate o s).time.slewE12 = s.time.freqE12 + o * 1000000000000 / ((n : Int) + 1) := ⟨(draw s).1, rfl⟩

theorem slew_turns {f x : Int} {o : Int} {n : Nat} (h : x = f + o * 1000000000000 / ((n : Int) + 1)) :
    (0 ≤ o → f ≤ x) ∧ (o ≤ 0 → x ≤ f) := by
  have hn : (0 : Int) < (n : Int) + 1 := by omega
  refine ⟨fun ho => ?_, fun ho => ?_⟩
  · have := Int.ediv_nonneg (a := o * 1000000000000) (b := (n : Int) + 1) (by omega) (by omega)
    omega
  · have := Int.ediv_le_ediv hn (show o * 1000000000000 ≤ 0 by omega)
    rw [Int.zero_ediv] at this
    omega

/-! ## Sequence numbers of the servo's port -/

theorem nextSeq_after (c : Nat) (k : ScopeKind) (i : Nat) (l : Items) (s : State) :
    nextSeq k i (raise c k i l s) = idx32 (mapGetD s.queue.seqs (scopeKey k i) 0 + 2) := by
  unfold nextSeq
  rw [raise_seqs]
  unfold mapGetD
  rw [mapGet_mapPut_self]
  unfold nextSeq idx32 mapGetD
  dsimp only [Option.getD_some]
  omega

/-- All but time and the free values drawn. -/
abbrev keepTimeFree (s t : State) : State := { t with time := s.time, free := s.free }

theorem frame_timeFree : Frame keepTimeFree where
  back _ _ _ _ _ _ _ := rfl
  again _ _ _ := rfl
  self _ := rfl

theorem execDelayReqSend_due {s : State} (hruns : servoRuns s = true) (hservo : s.time.servo = .acquiring ∨ s.time.servo = .locked)
    (hdue : ∀ d n, s.time.delayMs = some d → s.time.delayReqNs = some n → n + d * 1000000 ≤ s.time.mono) :
    execDelayReqSend s = .next (emit (.packet (gmPort s) 0 "DELAY_REQ" [(s.time.ptpDomain : Int), s.time.wall])
      (s.modTime fun t => { t with delayReqNs := some t.mono })) := by
  unfold execDelayReqSend
  rw [hruns]
  cases hd : s.time.delayMs with
  | none =>
    dsimp only
    exact congrArg Host.Outcome.next (if_pos (by simpa using hservo))
  | some d =>
    cases hn : s.time.delayReqNs with
    | none =>
      dsimp only
      exact congrArg Host.Outcome.next (if_pos (by simpa using hservo))
    | some n =>
      have := hdue d n hd hn
      dsimp only
      exact congrArg Host.Outcome.next (if_pos (by simpa [this] using hservo))

theorem gmPort_congr {s t : State} (h : t.time.gm = s.time.gm) : gmPort t = gmPort s := by
  unfold gmPort
  rw [h]

/-- The time of a servo about to lock: the counter stepped, the slewing from the estimate's frequency error (R58). -/
def lockTime (o : Int) (n : Nat) (t : TimeSt) : TimeSt :=
  let l := ((t.mono, o) :: t.fit).take 64
  { stepTime ((fitAt l t.mono).1 / (fitAt l t.mono).2) (estimateTime o n t) with
    freqE12 := fitSlopeE12 l, slewE12 := fitSlopeE12 l, slewPart := 0, lastGoodNs := t.mono }

/-- The counter stepped, before the servo locks. -/
def steppedFor (o : Int) (s : State) : State :=
  let l := ((s.time.mono, o) :: s.time.fit).take 64
  stepCounter ((fitAt l s.time.mono).1 / (fitAt l s.time.mono).2) (s.modTime (estimateTime o (inRow o s)))

/-- The rate of the estimate taken over. -/
def ratedFor (o : Int) (s : State) : State :=
  (steppedFor o s).modTime fun x =>
    { x with freqE12 := fitSlopeE12 (((s.time.mono, o) :: s.time.fit).take 64), slewE12 := fitSlopeE12 (((s.time.mono, o) :: s.time.fit).take 64),
             slewPart := 0, lastGoodNs := x.mono }

theorem lockStep_eq (o : Int) (s : State) : lockStep o s = setServo .locked (gmPort (steppedFor o s)) (ratedFor o s) := rfl

theorem steppedFor_time (o : Int) (s : State) :
    (steppedFor o s).time = stepTime ((fitAt (((s.time.mono, o) :: s.time.fit).take 64) s.time.mono).1
      / (fitAt (((s.time.mono, o) :: s.time.fit).take 64) s.time.mono).2) (estimateTime o (inRow o s) s.time) := stepCounter_time ..

theorem ratedFor_time (o : Int) (s : State) : (ratedFor o s).time = lockTime o (inRow o s) s.time :=
  congrArg (fun x : TimeSt => { x with
    freqE12 := fitSlopeE12 (((s.time.mono, o) :: s.time.fit).take 64), slewE12 := fitSlopeE12 (((s.time.mono, o) :: s.time.fit).take 64),
    slewPart := 0, lastGoodNs := x.mono }) (steppedFor_time o s)

/-- The next number of a port's events after a step: one more where the step was told (R27). -/
theorem nextSeq_stepped (delta : Int) (s : State) :
    nextSeq .port (gmPort s) (stepCounter delta s)
      = idx32 (mapGetD s.queue.seqs (scopeKey .port (gmPort s)) 0 + if stepExceeds delta s then 2 else 1) := by
  rw [stepCounter_eq]
  split
  · exact nextSeq_after 0x0280 .port (gmPort s) [(8, delta), it 8 (uItem s)] (s.modTime (stepTime delta))
  · rfl

/-- The servo locks: one step of the counter, and from then on the slewing (R58). -/
theorem lockStep_locks (o : Int) {s : State} (h : s.time.servo ≠ .locked) :
    let l := ((s.time.mono, o) :: s.time.fit).take 64
    let p := fitAt l s.time.mono
    (lockStep o s).time.servo = .locked ∧ (lockStep o s).time.wall = wall64 ((s.time.wall : Int) - p.1 / p.2)
      ∧ (lockStep o s).time.tRef = some s.time.mono ∧ (lockStep o s).time.steps = (s.time.steps + 1) % 4294967296
      ∧ (lockStep o s).time.freqE12 = fitSlopeE12 l ∧ (lockStep o s).time.slewE12 = fitSlopeE12 l
      ∧ mapGet (lockStep o s).queue.seqs (scopeKey .port (gmPort s))
        = some (idx32 (mapGetD s.queue.seqs (scopeKey .port (gmPort s)) 0
            + if (uE6 s).any fun u => u < (p.1 / p.2).natAbs * 1000000 then 2 else 1))
      ∧ Reporting s (keepTime s (lockStep o s)) := by
  have hport : gmPort (steppedFor o s) = gmPort s := gmPort_congr (by rw [steppedFor_time]; rfl)
  have hne : (ratedFor o s).time.servo ≠ .locked := by
    rw [ratedFor_time]
    exact h
  dsimp only
  rw [lockStep_eq, hport, setServo_time hne, ratedFor_time]
  refine ⟨rfl, rfl, rfl, rfl, rfl, rfl, ?_, ?_⟩
  · rw [setServo_eq hne, raise_seqs]
    refine (mapGet_mapPut_self ..).trans (congrArg some ?_)
    exact nextSeq_stepped _ (s.modTime (estimateTime o (inRow o s)))
  · have h1 : Reporting s (keepTime s (steppedFor o s)) :=
      frame_time.trans (b := s.modTime (estimateTime o (inRow o s))) rfl (stepCounter_reporting ..)
    exact frame_time.trans (frame_time.trans h1 (c := ratedFor o s) rfl) (setServo_tends ..).moves.frame

/-- The measurement that completes the count (R58, R59). -/
theorem measurementLocks {port t1 t2 t3 t4 delay : Nat} {s : State} (hruns : servoRuns s = true) (hport : gmPort s = port)
    (hservo : s.time.servo = .acquiring) (hcount : s.time.inThreshold + 1 = lockCountOf s) (hin : inTime s = true)
    (hres : residualOk s s.time.mono ((((t2 : Int) - t1) - ((t4 : Int) - t3)) / 2) = true) :
    Completes (.offsetMeasurement port t1 t2 t3 ⟨t4, delay⟩) s fun t =>
      let o : Int := (((t2 : Int) - t1) - ((t4 : Int) - t3)) / 2
      let l := ((s.time.mono, o) :: s.time.fit).take 64
      let p := fitAt l s.time.mono
      t.time.servo = .locked ∧ t.time.wall = wall64 ((s.time.wall : Int) - p.1 / p.2) ∧ t.time.tRef = some s.time.mono
        ∧ t.time.steps = (s.time.steps + 1) % 4294967296 ∧ t.time.freqE12 = fitSlopeE12 l ∧ t.time.slewE12 = fitSlopeE12 l
        ∧ mapGet t.queue.seqs (scopeKey .port (gmPort s))
          = some (idx32 (mapGetD s.queue.seqs (scopeKey .port (gmPort s)) 0
              + if (uE6 s).any fun u => u < (p.1 / p.2).natAbs * 1000000 then 2 else 1))
        ∧ Reporting s { t with time := s.time } := by
  obtain ⟨hservo', hwall, href, hsteps, hfreq, hslew, hseqs, hframe⟩ := lockStep_locks (measured t1 t2 t3 t4)
    (s := offsetNoted (measured t1 t2 t3 t4) delay s) (by change s.time.servo ≠ .locked; rw [hservo]; decide)
  have hrow : inRow (measured t1 t2 t3 t4) (offsetNoted (measured t1 t2 t3 t4) delay s) = s.time.inThreshold + 1 :=
    if_pos (by
      change (residualOk s s.time.mono (measured t1 t2 t3 t4) && inTime s) = true
      rw [hin, Bool.and_true]
      exact hres)
  have hlocks := acquireStep_locks (o := measured t1 t2 t3 t4) (s := offsetNoted (measured t1 t2 t3 t4) delay s) (by
    rw [hrow, hcount]
    exact Nat.le_refl _)
  refine ⟨_, (execOffsetMeasurement_acquiring hruns hport hservo).trans (congrArg _ hlocks), hservo', hwall, href, hsteps, hfreq, hslew, hseqs, ?_⟩
  exact frame_time.trans (b := offsetNoted (measured t1 t2 t3 t4) delay s) rfl hframe

/-- A step larger than u is told after it (R27). -/
theorem twinStepped_raises {s : State} {u : Nat} (hu : uE6 s = some u) (hlt : u < (Config.twinOffset s.free).natAbs * 1000000) :
    Raises 0x0280 .port (gmPort s) [(8, Config.twinOffset s.free), it 8 (uItem s)]
      { s with time := (twinStepped (Config.twinOffset s.free) (draw s).2).time } (twinStepped (Config.twinOffset s.free) (draw s).2) := by
  have he : stepExceeds (Config.twinOffset s.free) (draw s).2 = true := by
    unfold stepExceeds
    rw [show uE6 (draw s).2 = uE6 s from rfl, hu, Option.any_some, decide_eq_true_eq]
    exact hlt
  have hs := stepCounter_eq (Config.twinOffset s.free) (draw s).2
  rw [he, if_pos rfl] at hs
  have hwall : (twinStepped (Config.twinOffset s.free) (draw s).2).time.wall = (stepTime (Config.twinOffset s.free) s.time).wall := by
    have h := congrArg TimeSt.wall (stepCounter_time (Config.twinOffset s.free) (draw s).2)
    exact h
  have hraises : Raises 0x0280 .port (gmPort s) [(8, Config.twinOffset s.free), it 8 (uItem s)]
      { s with time := (twinStepped (Config.twinOffset s.free) (draw s).2).time } (stepCounter (Config.twinOffset s.free) (draw s).2) := by
    rw [hs]
    exact raise_raises _ _ _ _ _ ((draw s).2.modTime (stepTime (Config.twinOffset s.free))) false rfl rfl rfl rfl rfl hwall.symm
  exact hraises.tells (.same rfl rfl rfl rfl)

/-- Settles O20: an Announce of the master selected, or none; a master not heard; measurements missing, and u at its limit; requests of delay;
measurements while the servo acquires, the one that completes the count, and those in LOCKED; confirmations of lock, and the twin's. -/
theorem theServoDisciplinesTime : Obligations.TheServoDisciplinesTime := by
  unfold Obligations.TheServoDisciplinesTime
  refine ⟨?first, ?none, ?timeout, ?measurement, ?limit, ?request, ?acquires, ?locks, ?steers, ?confirms, ?twin⟩
  case first =>
    intro a s hruns hport hdomain hsteps hgm hsel hservo
    have hheard : (hear a s).time.gm = none := hgm
    have hfirst := selectMaster_first hheard a
    have hr : Reporting ((hear a s).modTime (selectTime (some a) none)) (selectMaster (some a) (hear a s)) := by
      rw [hfirst]
      exact raise_reporting ..
    have hraises : Raises 0x0282 .port a.port [it 8 0, it 8 a.gmId] s (selectMaster (some a) (hear a s)) := by
      rw [hfirst]
      exact raise_raises _ _ _ _ s ((hear a s).modTime (selectTime (some a) none)) false rfl rfl rfl rfl rfl rfl
    have htime : (firstAnnounced a s).time = (announced a ((hear a s).modTime (selectTime (some a) none))).time :=
      congrArg (fun t : TimeSt => { t with lastAnnounceNs := t.mono, utcOffset := a.utcOffset, utcValid := t.utcValid || a.utcValid }) hr.time
    have hne : (firstAnnounced a s).time.servo ≠ .acquiring := by
      rw [htime]
      change s.time.servo ≠ .acquiring
      rcases hservo with h | h <;> rw [h] <;> decide
    refine ⟨_, execAnnounceRx_first hruns hport hdomain hsteps hsel hservo, ?_⟩
    beta_reduce
    rw [setServo_time hne, htime]
    refine ⟨rfl, rfl, ?_, rfl, rfl, rfl, rfl, rfl, ?_, rfl, rfl, ?_⟩
    · change (s.time.servo == .holdover) = _
      rcases hservo with h | h <;> rw [h] <;> rfl
    · exact hraises.tells (Tells.trans (b := firstAnnounced a s) (.same rfl rfl rfl rfl) (setServo_tends ..).moves.tells)
    · have h1 : Reporting s (keepTime s (firstAnnounced a s)) :=
        frame_time.trans (frame_time.reporting (b := (hear a s).modTime (selectTime (some a) none)) rfl hr) (c := firstAnnounced a s) rfl
      exact frame_time.trans h1 (setServo_tends ..).moves.frame
  case none =>
    intro a s hruns hport hdomain hsteps hsel
    exact ⟨_, execAnnounceRx_none hruns hport hdomain hsteps hsel, rfl⟩
  case timeout =>
    intro g s hgm hlow hhigh hdue
    have hfallen : servoFallback (masterGone g s) = (masterGone g s).time.servo := servoFallback_fallen (s := s) (setServo_servo ..)
    obtain ⟨hservo, hheard, hg, hwall, href, htells, hframe⟩ := selectMaster_time (selected (masterGone g s)) hfallen
    obtain ⟨kwall, kref, -⟩ := setServo_keeps (servoFallback s) g.port s
    refine ⟨_, execAnnounceTimeout_due hgm hlow hhigh hdue, ?_, hheard.trans (masterGone_heard g s), hg.trans (selected_masterGone g s),
      fun hlocked => ?_, hwall.trans kwall, href.trans kref, frame_time.trans (masterGone_moves g s).frame hframe⟩
    · rw [hservo]
      refine (setServo_servo (servoFallback s) g.port s).trans ?_
      unfold servoFallback
      cases s.time.servo <;> rfl
    · have hback : servoFallback s = .holdover := by unfold servoFallback; rw [hlocked]
      have hraises : Raises 0x0281 .port g.port [it 1 2, it 1 3, it 8 (uItem s)] s (setServo (servoFallback s) g.port s) := by
        have h := setServo_raises (new := .holdover) (s := s) (by rw [hlocked]; decide) g.port
        rw [hlocked] at h
        rw [hback]
        exact h
      exact hraises.tells (Tells.trans (b := masterGone g s) (.same rfl rfl rfl rfl) htells)
  case measurement =>
    intro s hlocked hdue
    have hne : s.time.servo ≠ .holdover := by rw [hlocked]; decide
    have hraises := setServo_raises hne (gmPort s)
    rw [hlocked] at hraises
    refine ⟨_, congrArg Host.Outcome.next (if_pos (by simp [hlocked, hdue])), ?_, hraises, (setServo_tends ..).moves.frame⟩
    rw [setServo_time hne]
    rfl
  case limit =>
    intro s hold hu
    have hne : s.time.servo ≠ .unknown := by rw [hold]; decide
    have hraises := setServo_raises hne (gmPort s)
    rw [hold] at hraises
    refine ⟨_, congrArg Host.Outcome.next (if_pos (by simp [hold, hu])), ?_, hraises, (setServo_tends ..).moves.frame⟩
    rw [setServo_time hne]
    rfl
  case request =>
    intro s hruns hservo hdue
    refine ⟨_, execDelayReqSend_due hruns hservo hdue, rfl⟩
  case acquires =>
    intro port t1 t2 t3 t4 delay s hruns hport hservo hcount
    refine ⟨_, execOffsetMeasurement_acquiring hruns hport hservo, ?_⟩
    have hrow : inRow (measured t1 t2 t3 t4) (offsetNoted (measured t1 t2 t3 t4) delay s) < lockCountOf s := by
      unfold inRow
      split
      · exact hcount
      · exact Nat.lt_of_lt_of_le (by decide) (four_le_lockCountOf s)
    rw [acquireStep_waits hrow]
    rfl
  case locks =>
    intro port t1 t2 t3 t4 delay s hruns hport hservo hcount hin hres
    exact measurementLocks hruns hport hservo hcount hin hres
  case steers =>
    intro port t1 t2 t3 t4 delay s hruns hport hservo
    refine ⟨_, execOffsetMeasurement_locked hruns hport hservo, rfl, ?_⟩
    exact slew_turns (n := (draw (offsetNoted (measured t1 t2 t3 t4) delay s)).1) rfl
  case confirms =>
    intro s hruns hlocked
    refine ⟨_, congrArg Host.Outcome.next (if_pos (by simp [hruns, hlocked])), rfl, uE6_confirmLock s⟩
  case twin =>
    intro s htwin hlate
    refine ⟨_, execLockConfirm_twin htwin hlate, ?_⟩
    have htime : (twinStepped (Config.twinOffset s.free) (draw s).2).time
        = { stepTime (Config.twinOffset s.free) s.time with freqE12 := 0, slewE12 := 0, slewPart := 0 } :=
      congrArg (fun t : TimeSt => { t with freqE12 := 0, slewE12 := 0, slewPart := 0 }) (stepCounter_time ..)
    dsimp only
    refine ⟨by rw [htime]; rfl, by rw [htime]; rfl, by rw [htime]; rfl, fun u hu hlt => ?_, ?_⟩
    · exact twinStepped_raises hu hlt
    · exact frame_timeFree.trans (frame_timeFree.trans (b := (draw s).2) rfl
        (frame_timeFree.widen (stepCounter_reporting ..) rfl)) (c := twinStepped (Config.twinOffset s.free) (draw s).2) rfl

end Sys2Proof.Machine
end

-- Sinks, link training and frame references (R170 to R174, R189 to R192)
section
/-! SUPPORT. An event raised first still waits after what follows; what an attempt leaves of a head; an edge changes its own group alone. -/

namespace Sys2Proof.Machine

open Sys2Proof

/-! ## Events that wait in the Tailstock -/

/-- The events that wait in the Tailstock still wait there. -/
abbrev TsWaits (s t : State) : Prop := s.ts.events ⊆ t.ts.events

theorem TsWaits.foldl {α : Type} {g : State → α → State} (h : ∀ s x, TsWaits s (g s x)) (l : List α) (s : State) : TsWaits s (l.foldl g s) := by
  induction l generalizing s with
  | nil => exact List.Subset.refl _
  | cons x l ih => exact List.Subset.trans (h s x) (ih _)

theorem TsRaises.waits {c : Nat} {k : ScopeKind} {i : Nat} {l : Items} {s u t : State} (h : TsRaises c k i l s u) (hw : TsWaits u t) :
    TsRaises c k i l s t := by
  intro hmain hroom
  obtain ⟨a, ha⟩ := h hmain hroom
  exact ⟨a, hw ha⟩

theorem tsRaise_tsWaits (c : Nat) (k : ScopeKind) (i : Nat) (l : Items) (a : Bool) (s : State) : TsWaits s (tsRaise c k i l a s) := by
  unfold TsWaits tsRaise
  dsimp only
  split
  · rw [(deliverTs_reporting ..).ts]
    exact List.Subset.refl _
  · split
    · exact List.subset_append_left ..
    · exact List.Subset.refl _

theorem settleHead_tsWaits (key : Nat) (s : State) : TsWaits s (settleHead key s) := by
  unfold settleHead enterHead tsHeadEvent
  dsimp only
  split
  · exact List.Subset.refl _
  · exact tsRaise_tsWaits (s := putHead ..) ..

theorem settleHeads_tsWaits (s : State) : TsWaits s (settleHeads s) :=
  TsWaits.foldl (g := fun s (p : Nat × HeadRt) => settleHead p.1 s) (fun s p => settleHead_tsWaits p.1 s) s.ts.heads s

theorem startTraining_ts (key : Nat) (s : State) : ∃ h, (startTraining key s).ts = { s.ts with heads := h } := by
  unfold startTraining
  dsimp only
  split
  · exact ⟨_, rfl⟩
  · split <;> exact ⟨_, rfl⟩

theorem train_tsWaits (key : Nat) (s : State) : TsWaits s (train key s) := by
  refine List.Subset.trans ?_ (settleHead_tsWaits ..)
  obtain ⟨h, hts⟩ := startTraining_ts key s
  rw [hts]
  exact List.Subset.refl _

theorem checkRange_or (key : Nat) (s : State) : checkRange key s = s ∨ ∃ l, checkRange key s = tsHeadEvent 0x0684 key l s := by
  unfold checkRange
  dsimp only
  split
  · exact .inl rfl
  · split
    · exact .inr ⟨_, rfl⟩
    · exact .inl rfl

theorem checkRange_keeps (key : Nat) (s : State) :
    OnlyTs s (checkRange key s) ∧ TsWaits s (checkRange key s) ∧ ∀ k, headRt (checkRange key s) k = headRt s k := by
  obtain h | ⟨l, h⟩ := checkRange_or key s
  · rw [h]
    exact ⟨rfl, List.Subset.refl _, fun _ => rfl⟩
  · rw [h]
    exact ⟨tsRaise_onlyTs .., tsRaise_tsWaits .., fun k => headRt_tsRaise ..⟩

/-! ## Heads -/

theorem headRt_emit (o : Out) (s : State) (k : Nat) : headRt (emit o s) k = headRt s k := rfl

/-- An attempt, and the state that follows, leave what the sink told. -/
theorem headRt_train_sink (key : Nat) (s : State) :
    (headRt (train key s) key).hpd = (headRt s key).hpd ∧ (headRt (train key s) key).sink = (headRt s key).sink
      ∧ (headRt (train key s) key).edidCrc = (headRt s key).edidCrc := by
  obtain ⟨n, hn⟩ := headRt_settleHead key (startTraining key s) key
  have hstart : (headRt (startTraining key s) key).hpd = (headRt s key).hpd ∧ (headRt (startTraining key s) key).sink = (headRt s key).sink
      ∧ (headRt (startTraining key s) key).edidCrc = (headRt s key).edidCrc := by
    unfold startTraining
    dsimp only
    split
    · exact ⟨rfl, rfl, rfl⟩
    · split
      · rw [headRt_putHead]
        exact ⟨rfl, rfl, rfl⟩
      · rw [headRt_emit, headRt_putHead]
        exact ⟨rfl, rfl, rfl⟩
  unfold train
  rw [hn]
  exact hstart

/-- A head with a sink and a combination to try is in training (R173). -/
theorem headRt_train {key : Nat} {k : SinkInfo} {s : State} (hk : (headRt s key).sink = some k)
    (ho : trainingOrder s (headRt s key) k ≠ []) :
    ∃ n, headRt (train key s) key
      = { headRt s key with
            trained := none, combos := trainingOrder s (headRt s key) k, attempts := 1, training := true, linkFail := false,
            emitting := false, hstate := n } := by
  obtain ⟨o, hstart⟩ := startTraining_begins hk ho
  obtain ⟨n, hn⟩ := headRt_settleHead key (startTraining key s) key
  rw [hstart, headRt_emit, headRt_putHead] at hn
  refine ⟨n, ?_⟩
  unfold train
  rw [hstart, hn]

/-- The connected head, its sink read (R174). -/
def sinkConnected (key : Nat) (sink : SinkInfo) (s : State) : State := readSink key sink (putHead key { headRt s key with hpd := true } s)

theorem sinkConnected_eq (key : Nat) (sink : SinkInfo) (s : State) :
    sinkConnected key sink s = tsRaise 0x0681 .head key [it 1 1, it 4 (crc32c sink.edid).toNat] false (putHead key
      { headRt s key with
          hpd := true, sink := some sink, sinkUnread := none, edidCrc := (crc32c sink.edid).toNat, sinkD3 := false, linkFail := false }
      (putHead key { headRt s key with hpd := true } s)) := by
  unfold sinkConnected readSink tsHeadEvent
  rw [headRt_putHead]

theorem headRt_sinkConnected (key : Nat) (sink : SinkInfo) (s : State) :
    headRt (sinkConnected key sink s) key
      = { headRt s key with
            hpd := true, sink := some sink, sinkUnread := none, edidCrc := (crc32c sink.edid).toNat, sinkD3 := false, linkFail := false } := by
  rw [sinkConnected_eq, headRt_tsRaise, headRt_putHead]

theorem sinkConnected_onlyTs (key : Nat) (sink : SinkInfo) (s : State) : OnlyTs s (sinkConnected key sink s) := by
  rw [sinkConnected_eq]
  exact OnlyTs.trans (b := putHead _ _ (putHead _ _ s)) rfl (tsRaise_onlyTs ..)

theorem sinkConnected_raises (key : Nat) (sink : SinkInfo) (s : State) :
    TsRaises 0x0681 .head key [it 1 1, it 4 (crc32c sink.edid).toNat] s (sinkConnected key sink s) := by
  rw [sinkConnected_eq]
  exact tsRaise_waits (s := s) (u := putHead _ _ (putHead _ _ s)) rfl rfl rfl _ _ _ _ _

/-- What follows when the sink has been read: training where the head is served, else its state alone (R170, R174). -/
def sinkServed (key : Nat) (s : State) : State := if headServed s key then train key s else settleHead key s

theorem sinkServed_onlyTs (key : Nat) (s : State) : OnlyTs s (sinkServed key s) := by
  unfold sinkServed
  split
  · exact train_onlyTs ..
  · exact settleHead_onlyTs ..

theorem sinkServed_tsWaits (key : Nat) (s : State) : TsWaits s (sinkServed key s) := by
  unfold sinkServed
  split
  · exact train_tsWaits ..
  · exact settleHead_tsWaits ..

theorem headRt_sinkServed (key : Nat) (s : State) :
    (headRt (sinkServed key s) key).hpd = (headRt s key).hpd ∧ (headRt (sinkServed key s) key).sink = (headRt s key).sink
      ∧ (headRt (sinkServed key s) key).edidCrc = (headRt s key).edidCrc := by
  unfold sinkServed
  split
  · exact headRt_train_sink ..
  · obtain ⟨n, hn⟩ := headRt_settleHead key s key
    rw [hn]
    exact ⟨rfl, rfl, rfl⟩

theorem execHpdConnect_reads {key : Nat} {sink : SinkInfo} {s : State} (hk : key < 16) (hp : s.ts.powered = true)
    (hh : (headRt s key).hpd = false) (hm : s.module.mode ≠ .idleLink) :
    execHpdConnect key sink s = .next (sinkServed key (sinkConnected key sink s)) := by
  have hc : (decide (key < 16) && s.ts.powered && !(headRt s key).hpd) = true := by simp [hk, hp, hh]
  unfold execHpdConnect
  dsimp only
  rw [if_pos hc, if_neg hm]
  rfl

theorem execHpdConnect_idle {key : Nat} {sink : SinkInfo} {s : State} (hk : key < 16) (hp : s.ts.powered = true)
    (hh : (headRt s key).hpd = false) (hm : s.module.mode = .idleLink) :
    execHpdConnect key sink s = .next (putHead key { headRt s key with hpd := true, sinkUnread := some sink } s) := by
  have hc : (decide (key < 16) && s.ts.powered && !(headRt s key).hpd) = true := by simp [hk, hp, hh]
  unfold execHpdConnect
  dsimp only
  rw [if_pos hc, if_pos hm]

/-- The head without its sink (R170, R174). -/
def sinkGone (key : Nat) (s : State) : State :=
  putHead key
    { headRt s key with
      hpd := false, sink := none, sinkUnread := none, edidCrc := 0, trained := none, combos := [], training := false, linkFail := false,
      sinkD3 := false, emitting := false } s

/-- The loss of the sink told. -/
def sinkGoneTold (key : Nat) (s : State) : State := tsHeadEvent 0x0681 key [it 1 0, it 4 (headRt s key).edidCrc] (sinkGone key s)

theorem execHpdDisconnect_tells {key : Nat} {s : State} (hk : key < 16) (hp : s.ts.powered = true) (hh : (headRt s key).hpd = true)
    (h0 : (headRt s key).hstate ≠ 0) (h8 : (headRt s key).hstate ≠ 8) :
    execHpdDisconnect key s = .next (settleHead key (sinkGoneTold key s)) := by
  have hc : (decide (key < 16) && s.ts.powered && (headRt s key).hpd) = true := by simp [hk, hp, hh]
  have hn : ¬ (decide ((headRt s key).hstate = 0) || decide ((headRt s key).hstate = 8)) = true := by simp [h0, h8]
  unfold execHpdDisconnect
  dsimp only
  rw [if_pos hc, if_neg hn]
  rfl

/-- A lane lost lock: counted and told (R173). -/
def lossTold (key : Nat) (status : List Byte) (s : State) : State :=
  tsHeadEvent 0x0683 key (status.map fun b => it 1 b.toNat) (putHead key { headRt s key with losses := (headRt s key).losses + 1 } s)

theorem headRt_lossTold (key : Nat) (status : List Byte) (s : State) :
    headRt (lossTold key status s) key = { headRt s key with losses := (headRt s key).losses + 1 } :=
  (headRt_tsRaise ..).trans (headRt_putHead ..)

theorem trainingOrder_lossTold (key : Nat) (status : List Byte) (s : State) (k : SinkInfo) :
    trainingOrder (lossTold key status s) (headRt (lossTold key status s) key) k = trainingOrder s (headRt s key) k := by
  refine trainingOrder_congr ?_ ?_ k
  · unfold lossTold tsHeadEvent
    rw [tsRaise_ts]
    rfl
  · rw [headRt_lossTold]

theorem execIrqHpd_lost {key : Nat} {status : List Byte} {l : Nat × Nat} {s : State} (hk : key < 16) (hh : (headRt s key).hpd = true)
    (hs : headServed s key = true) (hf : (headRt s key).linkFail = false) (ht : (headRt s key).trained = some l)
    (hd : (headRt s key).sinkD3 = false) : execIrqHpd key true status s = .next (train key (lossTold key status s)) := by
  have hc : (decide (key < 16) && (headRt s key).hpd && headServed s key) = true := by simp [hk, hh, hs]
  have hl : (true && (headRt s key).trained.isSome && !(headRt s key).sinkD3) = true := by simp [ht, hd]
  unfold execIrqHpd
  dsimp only
  rw [if_pos hc, if_neg (by rw [hf]; exact Bool.false_ne_true), if_pos hl]
  rfl

/-! ## The end of an attempt -/

/-- A link trained, which waits for the next frame start (R173, R174). -/
def linkTrained (key : Nat) (c : Nat × Nat) (s : State) : State :=
  tsHeadEvent 0x0682 key [it 1 c.2, it 1 c.1, it 4 (headRt s key).attempts]
    (putHead key { headRt s key with trained := some c, combos := [], trainings := (headRt s key).trainings + 1 } s)

section
variable {key : Nat} {s : State} (hp : s.ts.powered = true) (ht : (headRt s key).training = true) (hn : (headRt s key).trained = none)
include hp ht hn

theorem attemptRuns : (s.ts.powered && (headRt s key).training && (headRt s key).trained.isNone) = true := by
  rw [hp, ht, hn]
  rfl

theorem execTrainingAttemptEnd_ok {c : Nat × Nat} {rest : List (Nat × Nat)} (hc : (headRt s key).combos = c :: rest) :
    execTrainingAttemptEnd key true s = .next (checkRange key (linkTrained key c s)) := by
  unfold execTrainingAttemptEnd
  dsimp only
  rw [if_pos (attemptRuns hp ht hn), hc]
  rfl

theorem execTrainingAttemptEnd_next {c n : Nat × Nat} {rest : List (Nat × Nat)} (hc : (headRt s key).combos = c :: n :: rest) :
    execTrainingAttemptEnd key false s
      = .next (emit (.dp key "TRAIN" [(n.1 : Int), n.2, flag (dpOut (headRt s key).once.output).adaptiveSync])
          (putHead key { headRt s key with combos := n :: rest, attempts := (headRt s key).attempts + 1 } s)) := by
  unfold execTrainingAttemptEnd
  dsimp only
  rw [if_pos (attemptRuns hp ht hn), hc]
  rfl

theorem execTrainingAttemptEnd_fails {c : Nat × Nat} (hc : (headRt s key).combos = [c]) :
    execTrainingAttemptEnd key false s
      = .next (settleHead key (putHead key
          { headRt s key with combos := [], training := false, linkFail := true, failNs := s.time.mono } s)) := by
  unfold execTrainingAttemptEnd
  dsimp only
  rw [if_pos (attemptRuns hp ht hn), hc]
  rfl

end

theorem execLinkRetry_due {key : Nat} {s : State} (hs : headServed s key = true) (hf : (headRt s key).linkFail = true)
    (hh : (headRt s key).hpd = true) (hd : (headRt s key).failNs + 2000000000 ≤ s.time.mono) : execLinkRetry key s = .next (train key s) := by
  have hc : (headServed s key && (headRt s key).linkFail && (headRt s key).hpd
      && decide ((headRt s key).failNs + 2 * second ≤ s.time.mono)) = true := by
    rw [hs, hf, hh, decide_eq_true (show (headRt s key).failNs + 2 * second ≤ s.time.mono from hd)]
    rfl
  exact congrArg Host.Outcome.next (if_pos hc)

/-- The link of an egress port noted. -/
def egressNoted (port : Nat) (up : Bool) (s : State) : State :=
  let p := mapGetD s.ts.egress port EgressPort.init
  s.modTs fun t => { t with egress := mapPut t.egress port { p with lane := { p.lane with linkUp := up } } }

theorem execEgressLink_noted {port : Nat} {s : State} (h : port ≤ 1) (hp : s.ts.powered = true) (up : Bool) :
    execEgressLink port up s
      = .next (settleHeads (tsRaise 0x0689 .port (8 + port) [it 1 port, it 1 (flag up)] false (egressNoted port up s))) := by
  have hc : (decide (port ≤ 1) && s.ts.powered) = true := by simp [h, hp]
  unfold execEgressLink
  rw [if_pos hc]
  rfl

/-! ## Frame references -/

theorem groupRt_setGroup (g : Nat) (x : GroupRt) (s : State) : groupRt (setGroup g x s) g = x := by
  show mapGetD (mapPut s.ts.groups g x) g GroupRt.init = x
  unfold mapGetD
  rw [mapGet_mapPut_self]
  rfl

theorem groupRt_setGroup_ne {g k : Nat} (h : k ≠ g) (x : GroupRt) (s : State) : groupRt (setGroup g x s) k = groupRt s k := by
  show mapGetD (mapPut s.ts.groups g x) k GroupRt.init = mapGetD s.ts.groups k GroupRt.init
  unfold mapGetD
  rw [mapGet_mapPut_ne _ _ h]

theorem groupRt_refState (g : Nat) (r : SyncGroup) (locked : Bool) (p : Nat) (s : State) (k : Nat) :
    groupRt (refState g r locked p s) k = groupRt s k := by
  unfold groupRt refState tsHeadEvent
  rw [tsRaise_ts]

theorem refState_heads (g : Nat) (r : SyncGroup) (locked : Bool) (p : Nat) (s : State) : (refState g r locked p s).ts.heads = s.ts.heads := by
  unfold refState tsHeadEvent
  rw [tsRaise_ts]

/-- What an edge at one group leaves: all but the Tailstock, the heads, the instant, and every other group. -/
structure EdgeAt (g : Nat) (s t : State) : Prop where
  only : OnlyTs s t
  heads : t.ts.heads = s.ts.heads
  others : ∀ k, k ≠ g → groupRt t k = groupRt s k

theorem EdgeAt.set (g : Nat) (x : GroupRt) (s : State) : EdgeAt g s (setGroup g x s) := ⟨rfl, rfl, fun _ h => groupRt_setGroup_ne h x s⟩

theorem EdgeAt.told (g : Nat) (x : GroupRt) (r : SyncGroup) (locked : Bool) (p : Nat) (s : State) :
    EdgeAt g s (refState g r locked p (setGroup g x s)) :=
  ⟨OnlyTs.trans (b := setGroup g x s) rfl (tsRaise_onlyTs ..), refState_heads ..,
    fun _ h => (groupRt_refState ..).trans (groupRt_setGroup_ne h x s)⟩

theorem EdgeAt.mono {g : Nat} {s t : State} (h : EdgeAt g s t) : t.time.mono = s.time.mono := by
  have hr : Reporting s { t with ts := s.ts } := h.only
  exact congrArg TimeSt.mono hr.time

theorem EdgeAt.shown {g : Nat} {s t : State} (h : EdgeAt g s t) (k : Nat) : groupShown t k = groupShown s k := by
  unfold groupShown
  rw [h.heads]

theorem groupEdge_at (g : Nat) (r : SyncGroup) (s : State) : EdgeAt g s (groupEdge g r s) := by
  unfold groupEdge
  dsimp only
  split
  · exact .set ..
  · cases (groupRt s g).lastEdge with
    | none => exact .set ..
    | some e =>
      dsimp only
      generalize (if periodOk r (s.time.mono / 10 * 10 - e) = true then (groupRt s g).edges + 1 else 0) = n
      (repeat' split)
      · exact .told ..
      · exact .told ..
      · exact .set ..

/-- An edge of an input at one group record (R191). -/
def edgeAtRecord (input : Nat) (rising : Bool) (s : State) (p : Nat × SyncGroup) : State :=
  if (p.2.mode = 2 || p.2.mode = 3) && p.2.frameRef % 4 = input && bit p.2.frameRef 2 = rising && groupShown s p.1 then groupEdge p.1 p.2 s
  else s

theorem edgeAtRecord_at (input : Nat) (rising : Bool) (s : State) (p : Nat × SyncGroup) : EdgeAt p.1 s (edgeAtRecord input rising s p) := by
  unfold edgeAtRecord
  split
  · exact groupEdge_at ..
  · exact ⟨rfl, rfl, fun _ _ => rfl⟩

/-- What edges at other groups leave. -/
structure EdgesBeside (g : Nat) (s t : State) : Prop where
  only : OnlyTs s t
  heads : t.ts.heads = s.ts.heads
  group : groupRt t g = groupRt s g

theorem edgesAtRecords_beside (input : Nat) (rising : Bool) (g : Nat) (l : List (Nat × SyncGroup)) (hl : ∀ p ∈ l, p.1 ≠ g) (s : State) :
    EdgesBeside g s (l.foldl (edgeAtRecord input rising) s) := by
  induction l generalizing s with
  | nil => exact ⟨rfl, rfl, rfl⟩
  | cons p l ih =>
    obtain ⟨ho, hh, hg⟩ := edgeAtRecord_at input rising s p
    obtain ⟨ho', hh', hg'⟩ := ih (fun q hq => hl q (List.mem_cons_of_mem _ hq)) (edgeAtRecord input rising s p)
    exact ⟨ho.trans ho', hh'.trans hh, hg'.trans (hg g (Ne.symm (hl p List.mem_cons_self)))⟩

theorem execFrameRefEdge_eq {ns : Nat} {s : State} (hp : s.ts.powered = true) (hn : 1000 ≤ ns) (input : Nat) (rising : Bool) :
    execFrameRefEdge input rising ns s = .next (s.ts.groupRecs.foldl (edgeAtRecord input rising) s) := by
  have hc : (s.ts.powered && decide (1000 ≤ ns)) = true := by simp [hp, hn]
  exact congrArg Host.Outcome.next (if_pos hc)

/-- In a map with its keys in order, an entry's key is that of no other. -/
theorem split_of_mapGet {α : Type} {m : Map α} {k : Nat} {v : α} (hs : mapSorted m = true) (h : mapGet m k = some v) :
    ∃ a b, m = a ++ (k, v) :: b ∧ (∀ p ∈ a, p.1 ≠ k) ∧ ∀ p ∈ b, p.1 ≠ k := by
  induction m with
  | nil => cases h
  | cons p m ih =>
    obtain ⟨ht, above⟩ := (mapSorted_cons p m).1 hs
    by_cases hk : p.1 = k
    · have hv : some p.2 = some v := by
        have hg : mapGet (p :: m) k = some p.2 := if_pos hk
        rw [← hg, h]
      refine ⟨[], m, ?_, fun q hq => absurd hq List.not_mem_nil, fun q hq => ?_⟩
      · rw [← hk, ← Option.some.inj hv]
        rfl
      · have := above q hq
        omega
    · obtain ⟨a, b, rfl, ha, hb⟩ := ih ht ((if_neg hk).symm.trans h)
      refine ⟨p :: a, b, rfl, fun q hq => ?_, hb⟩
      rcases List.mem_cons.mp hq with rfl | hq
      · exact hk
      · exact ha q hq

theorem edgeAtRecord_follows {input : Nat} {rising : Bool} {g : Nat} {r : SyncGroup} {s : State} (hm : r.mode = 2 ∨ r.mode = 3)
    (hi : r.frameRef % 4 = input) (hr : bit r.frameRef 2 = rising) (hs : groupShown s g = true) :
    edgeAtRecord input rising s (g, r) = groupEdge g r s := by
  refine if_pos ?_
  rw [hs, decide_eq_true hi, decide_eq_true hr]
  simpa using hm

theorem groupEdge_pace {g : Nat} {r : SyncGroup} {s : State} (hm : r.mode = 3) (hp : (groupRt s g).paceNs = none) :
    (groupRt (groupEdge g r s) g).paceNs = some (s.time.mono / 10 * 10) := by
  unfold groupEdge
  dsimp only
  rw [if_pos hm, groupRt_setGroup, hp]
  rfl

/-- A group after an edge with a good period (R191). -/
def edgeCounted (e : Nat) (now : Nat) (x : GroupRt) : GroupRt :=
  { x with
    lastEdge := some now, lastPeriod := now - e, edges := x.edges + 1, locked := decide (8 ≤ x.edges + 1),
    rephaseDue := decide (8 ≤ x.edges + 1) || x.rephaseDue }

theorem groupEdge_counts {g e : Nat} {r : SyncGroup} {s : State} (hm : r.mode = 2) (he : (groupRt s g).lastEdge = some e)
    (hl : (groupRt s g).locked = false) (hp : periodOk r (s.time.mono / 10 * 10 - e) = true) :
    groupRt (groupEdge g r s) g = edgeCounted e (s.time.mono / 10 * 10) (groupRt s g) := by
  have hne : ¬ r.mode = 3 := by omega
  unfold groupEdge edgeCounted
  dsimp only
  rw [if_neg hne, he]
  dsimp only
  rw [hl, hp, if_pos rfl, Bool.false_and, if_neg Bool.false_ne_true, Bool.not_false, Bool.true_and]
  by_cases h8 : 8 ≤ (groupRt s g).edges + 1
  · rw [decide_eq_true h8, if_pos rfl, groupRt_refState, groupRt_setGroup]
    rfl
  · rw [decide_eq_false h8, if_neg Bool.false_ne_true, groupRt_setGroup, Bool.false_or, ← hl]

theorem execRefUnlockTimeout_due {g e : Nat} {r : SyncGroup} {s : State} (hr : mapGet s.ts.groupRecs g = some r) (hm : r.mode = 2)
    (hl : (groupRt s g).locked = true) (he : (groupRt s g).lastEdge = some e)
    (hd : 3 * 1000000000 * r.rateDen ≤ (s.time.mono - e) * r.rateNum) :
    execRefUnlockTimeout g s
      = .next (refState g r false (groupRt s g).lastPeriod (setGroup g { groupRt s g with locked := false, edges := 0, lastEdge := none } s)) := by
  have hc : (decide (r.mode = 2) && (groupRt s g).locked
      && decide (3 * 1000000000 * r.rateDen ≤ (s.time.mono - e) * r.rateNum)) = true := by rw [decide_eq_true hm, hl, decide_eq_true hd]; rfl
  unfold execRefUnlockTimeout
  rw [hr]
  dsimp only
  rw [he]
  dsimp only
  rw [if_pos hc]

/-- Settles O22: an event comes before what follows it, which leaves it waiting; an edge goes to its own group alone. -/
theorem linksTrainAndReferencesLock : Obligations.LinksTrainAndReferencesLock := by
  unfold Obligations.LinksTrainAndReferencesLock
  refine ⟨?connect, ?idle, ?disconnect, ?lost, ?trained, ?next, ?fails, ?retry, ?egress, ?pace, ?locks, ?unlocks⟩
  case connect =>
    intro key sink s hk hp hh hm
    obtain ⟨h1, h2, h3⟩ := headRt_sinkServed key (sinkConnected key sink s)
    rw [headRt_sinkConnected] at h1 h2 h3
    exact ⟨_, execHpdConnect_reads hk hp hh hm, h1, h2, h3, (sinkConnected_raises key sink s).waits (sinkServed_tsWaits ..),
      (sinkConnected_onlyTs ..).trans (sinkServed_onlyTs ..)⟩
  case idle =>
    intro key sink s hk hp hh hm
    exact ⟨_, execHpdConnect_idle hk hp hh hm, headRt_putHead .., rfl⟩
  case disconnect =>
    intro key s hk hp hh h0 h8
    obtain ⟨n, hn⟩ := headRt_settleHead key (sinkGoneTold key s) key
    have hgone : headRt (sinkGoneTold key s) key = _ := (headRt_tsRaise ..).trans (headRt_putHead ..)
    refine ⟨_, execHpdDisconnect_tells hk hp hh h0 h8, ?_⟩
    beta_reduce
    rw [hn, hgone]
    refine ⟨rfl, rfl, rfl, rfl, ?_, ?_⟩
    · exact TsRaises.waits (u := sinkGoneTold key s) (tsRaise_waits (u := sinkGone key s) rfl rfl rfl _ _ _ _ _) (settleHead_tsWaits ..)
    · exact OnlyTs.trans (b := sinkGoneTold key s) (OnlyTs.trans (b := sinkGone key s) rfl (tsRaise_onlyTs ..)) (settleHead_onlyTs ..)
  case lost =>
    intro key status l k s hk hh hs hf ht hd hsink ho
    have hsink' : (headRt (lossTold key status s) key).sink = some k := by rw [headRt_lossTold]; exact hsink
    obtain ⟨n, hn⟩ := headRt_train hsink' (by rw [trainingOrder_lossTold]; exact ho)
    refine ⟨_, execIrqHpd_lost hk hh hs hf ht hd, ?_⟩
    beta_reduce
    rw [hn, headRt_lossTold]
    refine ⟨rfl, rfl, rfl, ?_, ?_⟩
    · exact TsRaises.waits (u := lossTold key status s) (tsRaise_waits (u := putHead key _ s) rfl rfl rfl _ _ _ _ _) (train_tsWaits ..)
    · exact OnlyTs.trans (b := lossTold key status s) (OnlyTs.trans (b := putHead key _ s) rfl (tsRaise_onlyTs ..)) (train_onlyTs ..)
  case trained =>
    intro key c rest s hp ht hn hc
    obtain ⟨h1, h2, h3⟩ := checkRange_keeps key (linkTrained key c s)
    have htrained : headRt (linkTrained key c s) key = _ := (headRt_tsRaise ..).trans (headRt_putHead ..)
    refine ⟨_, execTrainingAttemptEnd_ok hp ht hn hc, ?_⟩
    beta_reduce
    rw [h3, htrained]
    refine ⟨rfl, rfl, rfl, ?_, ?_⟩
    · exact TsRaises.waits (u := linkTrained key c s) (tsRaise_waits (u := putHead key _ s) rfl rfl rfl _ _ _ _ _) h2
    · exact OnlyTs.trans (b := linkTrained key c s) (OnlyTs.trans (b := putHead key _ s) rfl (tsRaise_onlyTs ..)) h1
  case next =>
    intro key c n rest s hp ht hn hc
    exact ⟨_, execTrainingAttemptEnd_next hp ht hn hc, headRt_putHead .., ⟨_, List.mem_cons_self⟩, rfl⟩
  case fails =>
    intro key c s hp ht hn hc
    obtain ⟨n, hhead⟩ := headRt_settleHead key (putHead key
      { headRt s key with combos := [], training := false, linkFail := true, failNs := s.time.mono } s) key
    refine ⟨_, execTrainingAttemptEnd_fails hp ht hn hc, ?_⟩
    beta_reduce
    rw [hhead, headRt_putHead]
    exact ⟨rfl, rfl, rfl, OnlyTs.trans (b := putHead key _ s) rfl (settleHead_onlyTs ..)⟩
  case retry =>
    intro key k s hs hf hh hd hsink ho
    obtain ⟨n, hn⟩ := headRt_train hsink ho
    refine ⟨_, execLinkRetry_due hs hf hh hd, ?_⟩
    beta_reduce
    rw [hn]
    exact ⟨rfl, rfl, rfl, train_onlyTs ..⟩
  case egress =>
    intro port up s hport hp
    refine ⟨_, execEgressLink_noted hport hp up, ?_, ?_, ?_⟩
    · rw [settleHeads_egress, tsRaise_ts]
      exact congrArg (Option.map fun p : EgressPort => p.lane.linkUp) (mapGet_mapPut_self ..)
    · exact (tsRaise_waits (u := egressNoted port up s) rfl rfl rfl _ _ _ _ _).waits (settleHeads_tsWaits _)
    · exact OnlyTs.trans (b := tsRaise _ _ _ _ _ _) (OnlyTs.trans (b := egressNoted port up s) rfl (tsRaise_onlyTs ..)) (settleHeads_onlyTs _)
  case pace =>
    intro input rising ns g r s hp hn hsorted hr hm hi hedge hshown hnone
    obtain ⟨a, b, hsplit, ha, hb⟩ := split_of_mapGet hsorted hr
    obtain ⟨ho, hh, hg⟩ := edgesAtRecords_beside input rising g a ha s
    have hmono : (a.foldl (edgeAtRecord input rising) s).time.mono = s.time.mono := congrArg TimeSt.mono (show Reporting s _ from ho).time
    have hshown' : groupShown (a.foldl (edgeAtRecord input rising) s) g = true := by
      unfold groupShown
      rw [hh]
      exact hshown
    have hown := groupEdge_at g r (a.foldl (edgeAtRecord input rising) s)
    obtain ⟨ho', -, hg'⟩ := edgesAtRecords_beside input rising g b hb (groupEdge g r (a.foldl (edgeAtRecord input rising) s))
    refine ⟨_, execFrameRefEdge_eq hp hn input rising, ?_⟩
    beta_reduce
    rw [hsplit, List.foldl_append, List.foldl_cons, edgeAtRecord_follows (.inr hm) hi hedge hshown', hg', ← hmono]
    exact ⟨groupEdge_pace hm (by rw [hg]; exact hnone), (ho.trans hown.only).trans ho'⟩
  case locks =>
    intro input rising ns g r e s hp hn hrecs hm hi hedge hshown he hl hok
    refine ⟨_, execFrameRefEdge_eq hp hn input rising, ?_⟩
    beta_reduce
    rw [hrecs, List.foldl_cons, List.foldl_nil, edgeAtRecord_follows (.inl hm) hi hedge hshown]
    exact ⟨groupEdge_counts hm he hl hok, (groupEdge_at g r s).only⟩
  case unlocks =>
    intro g r e s hr hm hl he hd
    refine ⟨_, execRefUnlockTimeout_due hr hm hl he hd, ?_, (EdgeAt.told g _ r false _ s).only⟩
    exact (groupRt_refState ..).trans (groupRt_setGroup ..)

end Sys2Proof.Machine
end

-- Verdict bitmaps, records and swap orders of the Tailstock (R129, R196, R197, R200, R206, R226, R227)
section
/-! SUPPORT. A bitmap replaced leaves the other; a stream of a head replaced leaves the other; the claim a write brings counts for it. -/

namespace Sys2Proof.Machine

open Sys2Proof

/-! ## Verdict bitmaps -/

/-- Only what the bitmap held before differs from what is put (R206). -/
theorem bitmapOf_setBitmap (side : Side) (b : BitmapRt) (s : State) : ∃ p, bitmapOf (setBitmap side b s) side = { b with past := p } := by
  cases side <;> exact ⟨_, rfl⟩

theorem bitmapOf_setBitmap_other (side : Side) (b : BitmapRt) (s : State) :
    bitmapOf (setBitmap side b s) (otherSide side) = bitmapOf s (otherSide side) := by
  cases side <;> rfl

theorem setBitmap_eq (side : Side) (b : BitmapRt) (s : State) :
    setBitmap side b s
      = { s with ts := { s.ts with own := (setBitmap side b s).ts.own, twin := (setBitmap side b s).ts.twin } } := by
  cases side <;> rfl

theorem setBitmap_onlyTs (side : Side) (b : BitmapRt) (s : State) : OnlyTs s (setBitmap side b s) := by
  rw [setBitmap_eq]
  rfl

theorem bitmapOf_tsRaise (c : Nat) (k : ScopeKind) (i : Nat) (l : Items) (a : Bool) (s : State) (side : Side) :
    bitmapOf (tsRaise c k i l a s) side = bitmapOf s side := by
  cases side <;> unfold bitmapOf <;> dsimp only <;> rw [tsRaise_ts]

theorem bitmapOf_bitmapGap (side : Side) (m n : Nat) (s : State) :
    ∃ p, bitmapOf (bitmapGap side m n s) side = { bitmapOf s side with gap := true, past := p } := by
  obtain ⟨p, hp⟩ := bitmapOf_setBitmap side { bitmapOf s side with gap := true } s
  exact ⟨p, (bitmapOf_tsRaise ..).trans hp⟩

theorem bitmapOf_bitmapGap_other (side : Side) (m n : Nat) (s : State) :
    bitmapOf (bitmapGap side m n s) (otherSide side) = bitmapOf s (otherSide side) :=
  (bitmapOf_tsRaise ..).trans (bitmapOf_setBitmap_other ..)

theorem bitmapGap_onlyTs (side : Side) (m n : Nat) (s : State) : OnlyTs s (bitmapGap side m n s) :=
  (setBitmap_onlyTs ..).trans (tsRaise_onlyTs ..)

/-- While a gap lasts, no bit counts as live (R129). -/
theorem effectiveBits_gap {b : BitmapRt} (h : b.gap = true) (k : Nat) : (effectiveBits b).getLsbD k = false := by
  unfold effectiveBits
  rw [if_pos h]
  exact BitVec.getLsbD_zero

theorem getLsbD_one_shiftLeft {k j : Nat} (hj : j < 8192) : (1#8192 <<< k).getLsbD j = decide (j = k) := by
  rw [BitVec.getLsbD_shiftLeft, BitVec.getLsbD_one]
  by_cases h : j = k
  · subst h
    simp [hj]
  · rw [decide_eq_false h]
    by_cases hlt : j < k
    · simp [hlt]
    · have : ¬ j - k = 0 := by omega
      simp [this]

/-- One verdict set leaves every other (R206). -/
theorem getLsbD_setBit (b : Bitmap) {k j : Nat} (hj : j < 8192) (live : Bool) :
    (setBit b k live).getLsbD j = if j = k then live else b.getLsbD j := by
  unfold setBit
  by_cases h : j = k
  · rw [if_pos h]
    cases live
    · exact (BitVec.getLsbD_and ..).trans (by rw [BitVec.getLsbD_not, getLsbD_one_shiftLeft hj, decide_eq_true h]; simp)
    · exact (BitVec.getLsbD_or ..).trans (by rw [getLsbD_one_shiftLeft hj, decide_eq_true h, Bool.or_true])
  · rw [if_neg h]
    cases live
    · exact (BitVec.getLsbD_and ..).trans (by rw [BitVec.getLsbD_not, getLsbD_one_shiftLeft hj, decide_eq_false h]; simp [hj])
    · exact (BitVec.getLsbD_or ..).trans (by rw [getLsbD_one_shiftLeft hj, decide_eq_false h, Bool.or_false])

theorem execVerdictUpdateRx_next {side : Side} {seq k : Nat} {s : State} (hp : s.ts.powered = true)
    (hs : seq = ((bitmapOf s side).seq + 1) % 65536) (live : Bool) :
    execVerdictUpdateRx side true seq [(k, live)] s
      = .next (setBitmap side { bitmapOf s side with bits := setBit (bitmapOf s side).bits k live, seq := seq } s) := by
  have hne : ¬ (seq != seq16 ((bitmapOf s side).seq + 1)) = true := by simp [seq16, hs]
  have hlt : seq16 seq = seq := Nat.mod_eq_of_lt (by omega)
  unfold execVerdictUpdateRx
  dsimp only
  rw [if_neg (by rw [hp]; exact Bool.false_ne_true), Bool.not_true, if_neg Bool.false_ne_true, if_neg hne]
  refine congrArg Host.Outcome.next (congrArg (setBitmap side · s) ?_)
  exact congrArg (fun n => { bitmapOf s side with bits := setBit (bitmapOf s side).bits k live, seq := n }) hlt

/-- A damaged or missing update is a gap (R129). -/
theorem execVerdictUpdateRx_gap {side : Side} {crcOk : Bool} {seq : Nat} {s : State} (hp : s.ts.powered = true)
    (h : crcOk = false ∨ seq ≠ ((bitmapOf s side).seq + 1) % 65536) (l : List (Nat × Bool)) :
    ∃ m n u, execVerdictUpdateRx side crcOk seq l s = .next (bitmapGap side m n u) ∧ OnlyTs s u
      ∧ bitmapOf u (otherSide side) = bitmapOf s (otherSide side) := by
  unfold execVerdictUpdateRx
  dsimp only
  rw [if_neg (by rw [hp]; exact Bool.false_ne_true)]
  cases crcOk with
  | false => exact ⟨_, _, s, rfl, rfl, rfl⟩
  | true =>
    have hne : (seq != seq16 ((bitmapOf s side).seq + 1)) = true := bne_iff_ne.mpr (h.resolve_left (by decide))
    rw [Bool.not_true, if_neg Bool.false_ne_true, if_pos hne]
    exact ⟨_, _, _, rfl, setBitmap_onlyTs .., bitmapOf_setBitmap_other ..⟩

/-- The gap that a whole bitmap ends, told where its number does not follow (R129). -/
def gapEnded (side : Side) (seq : Nat) (s : State) : State :=
  if seq != (bitmapOf s side).seq && !(bitmapOf s side).gap then bitmapGap side (bitmapOf s side).seq seq s else s

theorem gapEnded_keeps (side : Side) (seq : Nat) (s : State) :
    OnlyTs s (gapEnded side seq s) ∧ bitmapOf (gapEnded side seq s) (otherSide side) = bitmapOf s (otherSide side) := by
  unfold gapEnded
  split
  · exact ⟨bitmapGap_onlyTs .., bitmapOf_bitmapGap_other ..⟩
  · exact ⟨rfl, rfl⟩

theorem execWholeBitmapRx_both {s : State} (hp : s.ts.powered = true) (side : Side) (seq : Nat) (bits : Bitmap) :
    execWholeBitmapRx side true seq bits s
      = .next (setBitmap side { bitmapOf (gapEnded side seq s) side with bits := bits, seq := seq, gap := false } (gapEnded side seq s)) := by
  have hc : ¬ (!s.ts.powered || !true) = true := by rw [hp]; decide
  unfold execWholeBitmapRx
  rw [if_neg hc]
  rfl

/-! ## Streams and claims -/

theorem sideOf_setSide_other (h : HeadRt) (side : Side) (r : StreamRt) :
    sideOf (setSide h side r) (otherSide side) = sideOf h (otherSide side) := by cases side <;> rfl

theorem headRt_modSide (key : Nat) (side : Side) (f : StreamRt → StreamRt) (s : State) :
    headRt (modSide key side f s) key = setSide (headRt s key) side (f (sideOf (headRt s key) side)) := headRt_putHead ..

theorem claimWord_ne_zero {c : Claim} (h : c.priority ≠ 0) : claimWord c ≠ 0 := by
  unfold claimWord
  omega

/-- The claim of a write counts for its main section as soon as it is heard (R196). -/
theorem sectionClaim_hearClaim {c : Claim} (h : c.priority ≠ 0) (s : State) : sectionClaim (hearClaim .own c s) .own = claimWord c := by
  have hc : ¬ (decide (s.time.mono + Config.claimNs ≤ s.time.mono) || decide (c.priority = 0)
      || (decide (Side.own = Side.twin) && aloneBars (hearClaim .own c s))) = true := by
    simp [h, Config.claimNs]
  exact if_neg hc

theorem sectionClaim_hearClaim_le (c : Claim) (s : State) : sectionClaim (hearClaim .own c s) .own ≤ claimWord c := by
  by_cases h : c.priority = 0
  · have hz : sectionClaim (hearClaim .own c s) .own = 0 := if_pos (by simp [h])
    omega
  · exact Nat.le_of_eq (sectionClaim_hearClaim h s)

theorem sectionClaim_hearClaim_twin (c : Claim) (s : State) : sectionClaim (hearClaim .own c s) .twin = sectionClaim s .twin := rfl

/-! ## Records -/

theorem recordWrite_powered {s : State} (hp : s.ts.powered = true) : ¬ (!s.ts.powered) = true := by
  rw [hp]
  exact Bool.false_ne_true

theorem recordWrite_label {claim : Claim} {key i : Nat} {s : State} (hp : s.ts.powered = true) (hk : key ≤ 31) (hi : i < 128)
    (hc : claim.priority ≠ 0) (r : Label) :
    execTailstockRecordWrite .own claim (.label key i r) s
      = .next (modSide key .own (writeFirst (.label key i r)) (hearClaim .own claim s)) := by
  have hfirst : isFirstKind (.label key i r) = true := decide_eq_true hi
  have hne : ¬ sectionClaim (hearClaim .own claim s) .own = 0 := by
    rw [sectionClaim_hearClaim hc]
    exact claimWord_ne_zero hc
  unfold execTailstockRecordWrite
  rw [if_neg (recordWrite_powered hp)]
  dsimp only [recordHead]
  rw [if_neg (Nat.not_lt.mpr hk), if_pos hfirst, if_neg hne]

theorem recordWrite_timing_wins {claim : Claim} {key : Nat} {s : State} (hp : s.ts.powered = true) (hk : key ≤ 31)
    (hc : claim.priority ≠ 0) (hw : sectionClaim s .twin < claimWord claim) (r : HeadTiming) :
    execTailstockRecordWrite .own claim (.headTiming key r) s
      = .next (putHead key (writeOnce (.headTiming key r) (headRt s key)) (hearClaim .own claim s)) := by
  have hwins : sectionClaim (hearClaim .own claim s) (otherSide .own) < sectionClaim (hearClaim .own claim s) .own := by
    rw [show otherSide .own = .twin from rfl, sectionClaim_hearClaim_twin, sectionClaim_hearClaim hc]
    exact hw
  unfold execTailstockRecordWrite
  rw [if_neg (recordWrite_powered hp)]
  dsimp only [recordHead]
  rw [if_neg (Nat.not_lt.mpr hk), if_neg (show ¬ isFirstKind (.headTiming key r) = true from Bool.false_ne_true), if_pos hwins]
  rfl

theorem recordWrite_timing_loses {claim : Claim} {key : Nat} {s : State} (hp : s.ts.powered = true) (hk : key ≤ 31)
    (hw : claimWord claim ≤ sectionClaim s .twin) (r : HeadTiming) :
    execTailstockRecordWrite .own claim (.headTiming key r) s = .next (hearClaim .own claim s) := by
  have hloses : ¬ sectionClaim (hearClaim .own claim s) (otherSide .own) < sectionClaim (hearClaim .own claim s) .own := by
    refine Nat.not_lt.mpr ?_
    exact Nat.le_trans (sectionClaim_hearClaim_le claim s) hw
  unfold execTailstockRecordWrite
  rw [if_neg (recordWrite_powered hp)]
  dsimp only [recordHead]
  rw [if_neg (Nat.not_lt.mpr hk), if_neg (show ¬ isFirstKind (.headTiming key r) = true from Bool.false_ne_true), if_neg hloses]

theorem recordWrite_static {claim : Claim} {s : State} (hp : s.ts.powered = true) (hc : claim.priority ≠ 0) (source : Nat) (static : Bool) :
    ∃ t, execTailstockRecordWrite .own claim (.staticSrc source static) s = .next t
      ∧ t.ts.heads = s.ts.heads.map (fun p =>
          (p.1, { p.2 with own := { p.2.own with
                    force := restatic source static p.2.own.force, other := restatic source static p.2.own.other } }))
      ∧ t = { s with ts := { s.ts with heads := t.ts.heads, ownClaim := t.ts.ownClaim } } := by
  have hne : ¬ sectionClaim (hearClaim .own claim s) .own = 0 := by
    rw [sectionClaim_hearClaim hc]
    exact claimWord_ne_zero hc
  unfold execTailstockRecordWrite
  rw [if_neg (recordWrite_powered hp)]
  dsimp only [recordHead]
  rw [if_neg hne]
  exact ⟨_, rfl, rfl, rfl⟩

/-! ## Swap orders and waiting events -/

theorem execSwapOrderRx_waits {side : Side} {key frame : Nat} {s : State} (hk : key ≤ 31) (hp : s.ts.powered = true)
    (he : (headRt s key).once.timing.enable = 1)
    (hf : ∀ n, (headRt s key).frame = some n → modDiff 48 n frame < 0) (rb : Bool) :
    execSwapOrderRx side key frame rb s
      = .next (modSide key side (fun r => { r with orders := r.orders ++ [⟨frame, rb, s.time.mono, false⟩] }) s) := by
  have hc : ¬ (decide (31 < key) || !s.ts.powered) = true := by simp [hp, hk]
  have hstart : (!((headRt s key).onceOther.timing.syncGroup != (headRt s key).once.timing.syncGroup)
      && ((headRt s key).frame.map fun n => decide (0 ≤ modDiff 48 n frame)).getD false) = false := by
    cases hn : (headRt s key).frame with
    | none => exact Bool.and_false _
    | some n =>
      have hlt : decide (0 ≤ modDiff 48 n frame) = false := decide_eq_false (Int.not_le.mpr (hf n hn))
      rw [Option.map_some, Option.getD_some, hlt, Bool.and_false]
  have hon : ¬ ((headRt s key).once.timing.enable != 1 && (headRt s key).onceOther.timing.enable != 1) = true := by simp [he]
  unfold execSwapOrderRx
  rw [if_neg hc]
  dsimp only
  rw [hstart, if_neg hon, if_neg Bool.false_ne_true]

theorem execTailstockEventDelivery_one {e : TsEvent} {s : State} (ha : mainAccepts s = true) (he : s.ts.events = [e])
    (hl : s.ts.eventsLost = 0) :
    execTailstockEventDelivery s = .next (deliverTs e (s.modTs fun t => { t with events := [], eventsLost := 0 })) := by
  unfold execTailstockEventDelivery
  rw [if_pos ha, hl, he]
  rfl

/-- Without a host, an event waits in the queue while it has room (R286). -/
theorem deliver_queues {e : EventRec} {s : State} (hh : s.host.attached = false) (hq : s.queue.events.length < Config.maxQueued) :
    e ∈ (deliver e s).queue.events := by
  unfold deliver
  rw [hh, Bool.false_and, if_neg Bool.false_ne_true, if_pos hq]
  exact List.mem_append_right _ List.mem_cons_self

theorem logEvent_host (c : Nat) (k : ScopeKind) (i : Nat) (l : Items) (s : State) : (logEvent c k i l s).host = s.host := by
  unfold logEvent
  split
  · obtain ⟨f, hf⟩ := logAdd_eq _ _ _ _ _ _ s
    rw [hf]
    rfl
  · rfl

theorem deliverTs_queues {e : TsEvent} {s : State} (hh : s.host.attached = false) (hq : s.queue.events.length < Config.maxQueued) :
    ({ code := e.code, scope := e.scope, scopeId := e.scopeId, position := position s, seq := nextSeq e.scope e.scopeId s,
       wallNs := e.wallNs, items := e.items, attention := e.attention } : EventRec) ∈ (deliverTs e s).queue.events := by
  unfold deliverTs
  dsimp only
  refine deliver_queues ?_ ?_
  · rw [logEvent_host]
    exact hh
  · rw [logEvent_queue]
    exact hq

theorem execClaimState_changed {key : Nat} {side : Side} {s : State} (hk : key ≤ 31) (hp : s.ts.powered = true)
    (hc : (effClaim s (headRt s key) side != 0) ≠ (sideOf (headRt s key) side).toldClaim) :
    execClaimState key side s
      = .next (tsHeadEvent 0x0782 key [it 1 (sideNum side), it 1 (flag (effClaim s (headRt s key) side != 0)),
            it 2 (claimWord (sideOf (headRt s key) side).claim)]
          (modSide key side (fun r => { r with toldClaim := effClaim s (headRt s key) side != 0 }) s)) := by
  have hs : ¬ (decide (31 < key) || !s.ts.powered) = true := by simp [hp, hk]
  unfold execClaimState tellClaim
  rw [if_neg hs]
  dsimp only
  rw [if_neg hc]

/-- Settles O24: a bitmap, a record or an order goes to its own side, and a gap to every bit. -/
theorem tailstockHoldsVerdictsAndRecords : Obligations.TailstockHoldsVerdictsAndRecords := by
  unfold Obligations.TailstockHoldsVerdictsAndRecords
  refine ⟨?update, ?gap, ?whole, ?label, ?timing, ?lower, ?static, ?order, ?delivery, ?claim⟩
  case update =>
    intro side seq k live s hp hk hs
    obtain ⟨p, hb⟩ := bitmapOf_setBitmap side { bitmapOf s side with bits := setBit (bitmapOf s side).bits k live, seq := seq } s
    refine ⟨_, execVerdictUpdateRx_next hp hs live, ?_⟩
    beta_reduce
    rw [hb]
    refine ⟨?_, fun j hj hne => ?_, rfl, rfl, bitmapOf_setBitmap_other .., setBitmap_eq ..⟩
    · exact (getLsbD_setBit _ hk live).trans (if_pos rfl)
    · exact (getLsbD_setBit _ hj live).trans (if_neg hne)
  case gap =>
    intro side crcOk seq l s hp h
    obtain ⟨m, n, u, hexec, hu, hother⟩ := execVerdictUpdateRx_gap hp h l
    obtain ⟨p, hb⟩ := bitmapOf_bitmapGap side m n u
    refine ⟨_, hexec, fun k => ?_, (bitmapOf_bitmapGap_other ..).trans hother, hu.trans (bitmapGap_onlyTs ..)⟩
    rw [hb]
    exact effectiveBits_gap rfl k
  case whole =>
    intro side seq bits s hp
    obtain ⟨honly, hother⟩ := gapEnded_keeps side seq s
    obtain ⟨p, hb⟩ := bitmapOf_setBitmap side { bitmapOf (gapEnded side seq s) side with bits := bits, seq := seq, gap := false }
      (gapEnded side seq s)
    refine ⟨_, execWholeBitmapRx_both hp side seq bits, ?_⟩
    beta_reduce
    rw [hb]
    exact ⟨rfl, rfl, rfl, (bitmapOf_setBitmap_other ..).trans hother, honly.trans (setBitmap_onlyTs ..)⟩
  case label =>
    intro claim key i r s hp hk hi hc
    refine ⟨_, recordWrite_label hp hk hi hc r, ?_⟩
    beta_reduce
    rw [headRt_modSide]
    exact ⟨mapGet_mapPut_self .., rfl, rfl, rfl, rfl⟩
  case timing =>
    intro claim key r s hp hk hc hw
    exact ⟨_, recordWrite_timing_wins hp hk hc hw r, headRt_putHead .., rfl⟩
  case lower =>
    intro claim key r s hp hk hw
    exact ⟨_, recordWrite_timing_loses hp hk hw r, rfl⟩
  case static =>
    intro claim source static s hp hc
    exact recordWrite_static hp hc source static
  case order =>
    intro side key frame rb s hk hp he _ hf
    refine ⟨_, execSwapOrderRx_waits hk hp he hf rb, ?_⟩
    beta_reduce
    rw [headRt_modSide]
    exact ⟨sideOf_setSide .., sideOf_setSide_other .., rfl⟩
  case delivery =>
    intro e s ha he hl
    refine ⟨_, execTailstockEventDelivery_one ha he hl, ?_, fun hh hq => ?_, ?_⟩
    · rw [(deliverTs_reporting ..).ts]
      rfl
    · exact deliverTs_queues (s := s.modTs fun t => { t with events := [], eventsLost := 0 }) hh hq
    · exact OnlyTs.reporting (b := s.modTs fun t => { t with events := [], eventsLost := 0 }) rfl (deliverTs_reporting ..)
  case claim =>
    intro key side s hk hp hc
    refine ⟨_, execClaimState_changed hk hp hc, ?_, ?_, ?_⟩
    · unfold tsHeadEvent
      rw [headRt_tsRaise, headRt_modSide, sideOf_setSide]
    · exact tsRaise_waits (s := s) (u := modSide key side _ s) rfl rfl rfl _ _ _ _ _
    · exact OnlyTs.trans (b := modSide key side _ s) rfl (tsRaise_onlyTs ..)

end Sys2Proof.Machine
end

-- Tokens, frame starts, self-check and scrub (R200, R209 to R214, R221, R225)
section
/-! SUPPORT. A fault is counted at its head; a token gives its stream its claim; what comes before and after a frame's start at a head leaves
what the arbiter reads and what the frame has begun with. -/

namespace Sys2Proof.Machine

open Sys2Proof

/-! ## Faults -/

theorem tsLimited_raises (key n code head : Nat) (mk : Nat → Items) (a : Bool) (s : State) :
    ∃ l, tsLimited key n code head mk a s = s.modTs (fun t => { t with limiters := l })
      ∨ ∃ i, tsLimited key n code head mk a s = tsRaise code .head head i a (s.modTs fun t => { t with limiters := l }) := by
  unfold tsLimited
  dsimp only
  split
  · exact ⟨_, .inr ⟨_, rfl⟩⟩
  · split
    · exact ⟨_, .inl rfl⟩
    · exact ⟨_, .inr ⟨_, rfl⟩⟩

theorem tsLimited_onlyTs (key n code head : Nat) (mk : Nat → Items) (a : Bool) (s : State) : OnlyTs s (tsLimited key n code head mk a s) := by
  obtain ⟨l, h | ⟨i, h⟩⟩ := tsLimited_raises key n code head mk a s
  · rw [h]
    rfl
  · rw [h]
    exact OnlyTs.trans (b := s.modTs _) rfl (tsRaise_onlyTs ..)

theorem headRt_tsLimited (key n code head : Nat) (mk : Nat → Items) (a : Bool) (s : State) (k : Nat) :
    headRt (tsLimited key n code head mk a s) k = headRt s k := by
  obtain ⟨l, h | ⟨i, h⟩⟩ := tsLimited_raises key n code head mk a s
  · rw [h]
    rfl
  · rw [h, headRt_tsRaise]
    rfl

theorem tsLimited_tsWaits (key n code head : Nat) (mk : Nat → Items) (a : Bool) (s : State) : TsWaits s (tsLimited key n code head mk a s) := by
  obtain ⟨l, h | ⟨i, h⟩⟩ := tsLimited_raises key n code head mk a s
  · rw [h]
    exact List.Subset.refl _
  · rw [h]
    exact tsRaise_tsWaits (s := s.modTs fun t => { t with limiters := l }) ..

theorem tsFaults_eq {n : Nat} (hn : n ≠ 0) (key cause : Nat) (s : State) :
    tsFaults key cause n s
      = tsLimited (limKey 0x078C key cause) n 0x078C key (fun c => [it 1 cause, it 4 c, it 6 ((headRt s key).frame.getD 0)]) false
          (putHead key { headRt s key with faults := mapPut (headRt s key).faults cause (mapGetD (headRt s key).faults cause 0 + n) } s) :=
  if_neg hn

theorem headRt_tsFault (key cause : Nat) (s : State) :
    headRt (tsFault key cause s) key
      = { headRt s key with faults := mapPut (headRt s key).faults cause (mapGetD (headRt s key).faults cause 0 + 1) } := by
  unfold tsFault
  rw [tsFaults_eq Nat.one_ne_zero, headRt_tsLimited, headRt_putHead]

theorem tsFault_onlyTs (key cause : Nat) (s : State) : OnlyTs s (tsFault key cause s) := by
  unfold tsFault
  rw [tsFaults_eq Nat.one_ne_zero]
  exact OnlyTs.trans (b := putHead key _ s) rfl (tsLimited_onlyTs ..)

theorem tsFault_tsWaits (key cause : Nat) (s : State) : TsWaits s (tsFault key cause s) := by
  unfold tsFault
  rw [tsFaults_eq Nat.one_ne_zero]
  exact tsLimited_tsWaits (s := putHead key _ s) ..

/-! ## Tokens -/

/-- Whether an effective claim changes is told, and that alone differs of a head's streams (R227). -/
theorem headRt_tellClaim (key : Nat) (side : Side) (s : State) :
    ∃ b, headRt (tellClaim key side s) key
      = setSide (headRt s key) side { sideOf (headRt s key) side with toldClaim := b } := by
  unfold tellClaim tsHeadEvent
  dsimp only
  split
  · refine ⟨(sideOf (headRt s key) side).toldClaim, ?_⟩
    cases side <;> rfl
  · rw [headRt_tsRaise, headRt_modSide]
    exact ⟨_, rfl⟩

theorem tellClaim_onlyTs (key : Nat) (side : Side) (s : State) : OnlyTs s (tellClaim key side s) := by
  unfold tellClaim tsHeadEvent
  dsimp only
  split
  · rfl
  · exact OnlyTs.trans (b := modSide key side _ s) rfl (tsRaise_onlyTs ..)

/-- Of the Tailstock, a told claim changes heads and waiting events alone. -/
theorem tellClaim_ts (key : Nat) (side : Side) (s : State) :
    (tellClaim key side s).ts.groupRecs = s.ts.groupRecs ∧ (tellClaim key side s).ts.egress = s.ts.egress := by
  unfold tellClaim tsHeadEvent
  dsimp only
  split
  · exact ⟨rfl, rfl⟩
  · rw [tsRaise_ts]
    exact ⟨rfl, rfl⟩

/-- The claim of a valid token of the own side taken over (R209). -/
def claimTaken (tok : LineToken) (s : State) : State :=
  tellClaim tok.head .own
    (modSide tok.head .own (fun r => { r with claim := tok.claim, tokenNs := some s.time.mono }) (hearClaim .own tok.claim s))

theorem headRt_claimTaken (tok : LineToken) (s : State) :
    ∃ b, headRt (claimTaken tok s) tok.head
      = { headRt s tok.head with
            own := { (headRt s tok.head).own with claim := tok.claim, tokenNs := some s.time.mono, toldClaim := b } } := by
  obtain ⟨b, hb⟩ := headRt_tellClaim tok.head .own
    (modSide tok.head .own (fun r => { r with claim := tok.claim, tokenNs := some s.time.mono }) (hearClaim .own tok.claim s))
  rw [headRt_modSide] at hb
  exact ⟨b, hb⟩

theorem claimTaken_onlyTs (tok : LineToken) (s : State) : OnlyTs s (claimTaken tok s) :=
  OnlyTs.trans (b := modSide _ _ _ (hearClaim .own tok.claim s)) rfl (tellClaim_onlyTs ..)

theorem headRt_hearLine (key : Nat) (s : State) :
    headRt (hearLine .own key s) key
      = { headRt s key with lastRx := some s.time.mono, own := { (headRt s key).own with lineNs := some s.time.mono } } := by
  unfold hearLine
  rw [headRt_modSide, headRt_putHead]
  rfl

/-- A line token of the own side heard, and its claim taken over. -/
def lineHeard (tok : LineToken) (s : State) : State := claimTaken tok (hearLine .own tok.head s)

theorem headRt_lineHeard (tok : LineToken) (s : State) :
    ∃ b, headRt (lineHeard tok s) tok.head
      = { headRt s tok.head with
            lastRx := some s.time.mono,
            own := { (headRt s tok.head).own with
                       lineNs := some s.time.mono, claim := tok.claim, tokenNs := some s.time.mono, toldClaim := b } } := by
  obtain ⟨b, hb⟩ := headRt_claimTaken tok (hearLine .own tok.head s)
  rw [headRt_hearLine] at hb
  exact ⟨b, hb⟩

theorem lineHeard_onlyTs (tok : LineToken) (s : State) : OnlyTs s (lineHeard tok s) :=
  OnlyTs.trans (b := hearLine .own tok.head s) rfl (claimTaken_onlyTs ..)

theorem lineHeard_mono (tok : LineToken) (s : State) : (lineHeard tok s).time.mono = s.time.mono :=
  congrArg TimeSt.mono (show Reporting s _ from lineHeard_onlyTs tok s).time

/-- When a pixel leaves depends on the head's timing and frame start, its group, and the egress ports. -/
theorem pixelTime_congr {s t : State} {h k : HeadRt} (hg : t.ts.groupRecs = s.ts.groupRecs) (he : t.ts.egress = s.ts.egress)
    (ho : k.once = h.once) (hs : k.startMono = h.startMono) (key line x : Nat) : pixelTime t key k line x = pixelTime s key h line x := by
  unfold pixelTime tsGroup headerBytes
  rw [hg, he, ho, hs]

/-- A line token heard matches the lines due that it did before. -/
theorem linePast_lineHeard (tok : LineToken) (s : State) :
    linePast (lineHeard tok s) (headRt (lineHeard tok s) tok.head) tok = linePast s (headRt s tok.head) tok := by
  obtain ⟨b, hb⟩ := headRt_lineHeard tok s
  obtain ⟨hg, he⟩ := tellClaim_ts tok.head .own
    (modSide tok.head .own (fun r => { r with claim := tok.claim, tokenNs := some s.time.mono })
      (hearClaim .own tok.claim (hearLine .own tok.head s)))
  unfold linePast
  have hpixel := pixelTime_congr (s := s) (t := lineHeard tok s) (h := headRt s tok.head) (k := headRt (lineHeard tok s) tok.head) hg he
    (by rw [hb]) (by rw [hb]) tok.head tok.line 0
  rw [hpixel, hb, lineHeard_mono]
  rfl

section
variable {tok : LineToken} {s : State} (hp : s.ts.powered = true) (hk : tok.head ≤ 31)
include hp hk

theorem tokenServed : ¬ (!s.ts.powered || decide (31 < tok.head)) = true := by simp [hp, hk]

theorem execLineTokenRx_damaged (side : Side) : execLineTokenRx side false tok s = .next (tsFault tok.head 0 s) := by
  unfold execLineTokenRx
  rw [if_neg (tokenServed hp hk)]
  rfl

theorem execLineTokenRx_idle (hh : tok.claim.high = 0) (hi : tok.idle = true) :
    execLineTokenRx .own true tok s = .next (claimTaken tok s) := by
  have hne : ¬ (tok.claim.high != 0) = true := by rw [hh]; decide
  unfold execLineTokenRx
  rw [if_neg (tokenServed hp hk)]
  dsimp only
  rw [hi, if_pos rfl, if_pos rfl, if_neg hne]
  rfl

theorem execLineTokenRx_line (hh : tok.claim.high = 0) (hi : tok.idle = false) :
    execLineTokenRx .own true tok s = .next (acceptLine .own tok (lineHeard tok s)) := by
  have hne : ¬ (tok.claim.high != 0) = true := by rw [hh]; decide
  unfold execLineTokenRx
  rw [if_neg (tokenServed hp hk)]
  dsimp only
  rw [hi, if_neg Bool.false_ne_true, if_neg Bool.false_ne_true, if_neg hne]
  rfl

end

theorem acceptLine_holds {tok : LineToken} {s : State} (h : linePast s (headRt s tok.head) tok = false) :
    acceptLine .own tok s = modSide tok.head .own (fun r => { r with ahead := holdAhead s.time.mono tok r.ahead }) s :=
  if_neg (by rw [h]; exact Bool.false_ne_true)

theorem acceptLine_faults {tok : LineToken} {s : State} (h : linePast s (headRt s tok.head) tok = true) :
    acceptLine .own tok s = tsFault tok.head 1 s := if_pos h

theorem execIdleTokenSend_due {key : Nat} {s : State} (hs : inService s = true) (hk : key < 64) (ho : headOn s.scene.inForce key = true)
    (ht : key < 32 ∨ s.cascade.twinUp = true) (hr : tokenRecent s key = false) :
    execIdleTokenSend key s
      = .next (sendToken key
          { frameNo := ((mapGet s.compose.heads key).map fun c => c.now.frame).getD 0, line := 0xFFFF, head := key % 32, idle := true,
            claim := ((mapGet s.compose.heads key).map fun c => claimOf s c.now.start).getD (claimNow s), spans := [], pixels := [] } s) := by
  have ht' : (decide (key < 32) || s.cascade.twinUp) = true := by simpa using ht
  have hc : (inService s && decide (key < 64) && headOn s.scene.inForce key && (decide (key < 32) || s.cascade.twinUp)
      && !tokenRecent s key) = true := by rw [hs, decide_eq_true hk, ho, ht', hr]; rfl
  unfold execIdleTokenSend
  rw [if_pos hc]
  dsimp only
  rw [Option.map_map, Option.map_map]
  rfl

/-! ## What surrounds a frame's start at a head -/

/-- What the arbiter and the swap orders read of a head, and what a frame has begun with. -/
def frameView (h : HeadRt) : HeadRt :=
  { HeadRt.init with
    once := h.once, onceOther := h.onceOther, onceSwapped := h.onceSwapped, onceKept := h.onceKept, own := h.own, twin := h.twin,
    frame := h.frame, startMono := h.startMono, emitted := h.emitted, scorchedPx := h.scorchedPx, passed := h.passed }

theorem frameView_cal (h : HeadRt) (c : Map CalRt) : frameView { h with cal := c } = frameView h := rfl

theorem frameView_startState (h : HeadRt) (n : Nat) : frameView { h with startState := n } = frameView h := rfl

/-- What the view holds, field by field. -/
theorem frameView_fields {h k : HeadRt} (hv : frameView k = frameView h) :
    k.once = h.once ∧ k.onceOther = h.onceOther ∧ k.own = h.own ∧ k.twin = h.twin := by
  simp only [frameView, HeadRt.mk.injEq] at hv
  obtain ⟨h1, h2, -, -, h3, h4, -⟩ := hv
  exact ⟨h1, h2, h3, h4⟩

theorem frameView_begun {h k : HeadRt} (hv : frameView k = frameView h) :
    k.frame = h.frame ∧ k.startMono = h.startMono ∧ k.emitted = h.emitted ∧ k.scorchedPx = h.scorchedPx ∧ k.passed = h.passed := by
  simp only [frameView, HeadRt.mk.injEq] at hv
  obtain ⟨-, -, -, -, -, -, h1, -, h2, -, -, -, h3, -, -, -, -, -, -, -, -, -, -, h4, -, h5, -⟩ := hv
  exact ⟨h1, h2, h4, h5, h3⟩

/-- That view of a head is the same, and so is what the arbiter reads besides. -/
structure Steady (key : Nat) (s t : State) : Prop where
  view : frameView (headRt t key) = frameView (headRt s key)
  groups : t.ts.groups = s.ts.groups
  recs : t.ts.groupRecs = s.ts.groupRecs
  claim : t.ts.ownClaim = s.ts.ownClaim
  time : t.time = s.time
  cascade : t.cascade = s.cascade
  module : t.module = s.module

namespace Steady

variable {key : Nat} {s t : State}

theorem refl (key : Nat) (s : State) : Steady key s s := ⟨rfl, rfl, rfl, rfl, rfl, rfl, rfl⟩

theorem trans {u : State} (h : Steady key s t) (k : Steady key t u) : Steady key s u :=
  ⟨k.view.trans h.view, k.groups.trans h.groups, k.recs.trans h.recs, k.claim.trans h.claim, k.time.trans h.time,
    k.cascade.trans h.cascade, k.module.trans h.module⟩

theorem foldl {α : Type} {g : State → α → State} (h : ∀ s x, Steady key s (g s x)) (l : List α) (s : State) :
    Steady key s (l.foldl g s) := by
  induction l generalizing s with
  | nil => exact .refl key s
  | cons x l ih => exact (h s x).trans (ih _)

/-- The later part first, whose state before is the earlier part's state after. -/
theorem after {u : State} (k : Steady key t u) (h : Steady key s t) : Steady key s u := h.trans k

theorem of_reporting (h : Reporting s t) : Steady key s t :=
  ⟨congrArg frameView (h.headRt key), by rw [h.ts], by rw [h.ts], by rw [h.ts], h.time, h.cascade, h.module⟩

theorem raise (key c : Nat) (k : ScopeKind) (i : Nat) (l : Items) (a : Bool) (s : State) : Steady key s (tsRaise c k i l a s) := by
  have ho : Reporting s { tsRaise c k i l a s with ts := s.ts } := tsRaise_onlyTs c k i l a s
  refine ⟨congrArg frameView (headRt_tsRaise ..), ?_, ?_, ?_, ho.time, ho.cascade, ho.module⟩ <;> rw [tsRaise_ts]

theorem limiters (key : Nat) (l : TsSt → Map (Nat × Nat)) (s : State) : Steady key s (s.modTs fun t => { t with limiters := l t }) :=
  ⟨rfl, rfl, rfl, rfl, rfl, rfl, rfl⟩

theorem limited (key k n code head : Nat) (mk : Nat → Items) (a : Bool) (s : State) : Steady key s (tsLimited k n code head mk a s) := by
  obtain ⟨l, h | ⟨i, h⟩⟩ := tsLimited_raises k n code head mk a s
  · rw [h]
    exact ⟨rfl, rfl, rfl, rfl, rfl, rfl, rfl⟩
  · rw [h]
    exact (limiters key (fun _ => l) s).trans (raise ..)

theorem put {h : HeadRt} (hv : frameView h = frameView (headRt s key)) : Steady key s (putHead key h s) :=
  ⟨(congrArg frameView (headRt_putHead ..)).trans hv, rfl, rfl, rfl, rfl, rfl, rfl⟩

/-- What the view holds, field by field. -/
theorem fields (h : Steady key s t) :
    (headRt t key).once = (headRt s key).once ∧ (headRt t key).onceOther = (headRt s key).onceOther
      ∧ (headRt t key).own = (headRt s key).own ∧ (headRt t key).twin = (headRt s key).twin :=
  frameView_fields h.view

end Steady

theorem tsFaults_steady (key cause n : Nat) (s : State) : Steady key s (tsFaults key cause n s) := by
  by_cases hn : n = 0
  · rw [show tsFaults key cause n s = s from if_pos hn]
    exact .refl ..
  · rw [tsFaults_eq hn]
    exact .after (.limited ..) (.put rfl)

/-- Heads each changed alike leave what a head's view holds where that change does. -/
theorem Steady.mapHeads {g : Nat × HeadRt → HeadRt} (hg : ∀ p, frameView (g p) = frameView p.2) (key : Nat) (s : State) :
    Steady key s (s.modTs fun t => { t with heads := t.heads.map fun p => (p.1, g p) }) := by
  refine ⟨?_, rfl, rfl, rfl, rfl, rfl, rfl⟩
  show frameView (mapGetD (s.ts.heads.map fun p => (p.1, g p)) key HeadRt.init) = frameView (mapGetD s.ts.heads key HeadRt.init)
  unfold mapGetD
  induction s.ts.heads with
  | nil => rfl
  | cons p l ih =>
    unfold mapGet List.map
    by_cases hk : p.1 = key
    · simp only [hk, if_true]
      exact hg p
    · simp only [hk, if_false]
      exact ih

/-- A head of a group whose blanking was lengthened counts it (R185). -/
def rephased (g : Nat) (p : Nat × HeadRt) : HeadRt := if showsGroup g p.2 then { p.2 with rephases := p.2.rephases + 1 } else p.2

theorem rephased_view (g : Nat) (p : Nat × HeadRt) : frameView (rephased g p) = frameView p.2 := by
  unfold rephased
  split <;> rfl

theorem rephase_steady (key : Nat) (f : NextFrame) (s : State) : Steady key s (rephase f s) := by
  unfold rephase tsHeadEvent
  split
  · have hmap : (s.modTs fun t =>
          { t with heads := t.heads.map fun p => if showsGroup f.group p.2 then (p.1, { p.2 with rephases := p.2.rephases + 1 }) else p })
        = s.modTs fun t => { t with heads := t.heads.map fun p => (p.1, rephased f.group p) } := by
      refine congrArg s.modTs (funext fun t => congrArg (fun l => { t with heads := l }) (List.map_congr_left fun p _ => ?_))
      unfold rephased
      split <;> rfl
    dsimp only
    rw [hmap]
    exact (Steady.mapHeads (rephased_view f.group) key s).trans (.raise ..)
  · exact .refl ..

theorem calExpected_steady (key i : Nat) (r : CalRect) (rt : CalRt) (crc frame unrel : Nat) (s : State) :
    Steady key s (calExpected key i r rt crc frame unrel s).2 := by
  unfold calExpected calEvent
  dsimp only
  split
  · dsimp only
    split
    · exact .limited ..
    · exact .after (.limited ..) (.limiters ..)
  · dsimp only
    split
    · exact .raise ..
    · exact .refl ..

theorem calChange_steady (key i : Nat) (r : CalRect) (rt : CalRt) (c : Nat) (p : Option Nat) (frame unrel : Nat) (s : State) :
    Steady key s (calChange key i r rt c p frame unrel s) := by
  unfold calChange
  dsimp only
  split
  · exact .refl ..
  · split
    · exact .after (.limited ..) (.limiters ..)
    · exact .limited ..

/-- A step that is taken or not. -/
theorem Steady.ite {key : Nat} {p : Prop} [Decidable p] {s t : State} (h : Steady key s t) : Steady key s (if p then t else s) := by
  split
  · exact h
  · exact .refl ..

theorem calFrame_steady (key frame i : Nat) (r : CalRect) (s : State) : Steady key s (calFrame key frame i r s) := by
  unfold calFrame
  dsimp only
  split
  · exact .refl ..
  · refine Steady.trans ?_ (.put (frameView_cal ..))
    refine Steady.trans ?_ (Steady.ite (.raise ..))
    refine Steady.trans ?_ (Steady.ite (calChange_steady ..))
    split
    · exact calExpected_steady ..
    · exact .refl ..

theorem returnFrame_steady (key frame : Nat) (s : State) : Steady key s (returnFrame key frame s) := by
  unfold returnFrame
  dsimp only
  split
  · exact .refl ..
  · split
    · exact .after (.of_reporting (emit_reporting ..)) (.put rfl)
    · exact .limited ..

theorem finishFrame_steady (key : Nat) (s : State) : Steady key s (finishFrame key s) := by
  unfold finishFrame
  dsimp only
  split
  · exact .refl ..
  · split
    · exact .put rfl
    · refine .after (returnFrame_steady ..) (.after (.foldl (fun s p => ?_) _ _) (.put rfl))
      exact calFrame_steady ..

theorem endByHead_steady (key cause : Nat) (s : State) : Steady key s (endByHead key cause s) := by
  unfold endByHead
  split
  · exact .refl ..
  · next x hx =>
    have hend : Steady key s (raise 0x0884 .head key [it 1 cause, it 6 x.lastCoded] (setReturn key 0 (endSession key s))) := by
      refine Steady.trans (t := setReturn key 0 (endSession key s)) ?_ (.of_reporting (raise_reporting ..))
      refine Steady.trans (t := endSession key s) ?_ (.put rfl)
      rw [endSession_eq hx]
      exact ⟨rfl, rfl, rfl, rfl, rfl, rfl, rfl⟩
    dsimp only
    split
    · exact hend.trans (.of_reporting (complete_reporting ..))
    · exact hend

theorem recordFrameStart_steady (key : Nat) (t : HeadTiming) (s : State) : Steady key s (recordFrameStart key t s) := by
  unfold recordFrameStart
  split
  · exact .refl ..
  · split
    · exact endByHead_steady ..
    · exact Steady.ite (endByHead_steady ..)

theorem enterHead_steady (key new : Nat) (s : State) : Steady key s (enterHead key new s) := by
  unfold enterHead tsHeadEvent
  dsimp only
  split
  · exact .refl ..
  · exact .after (.raise ..) (.put rfl)

theorem switchover_steady (key n start : Nat) (s : State) : Steady key s (switchover key n start s) := by
  unfold switchover tsHeadEvent
  dsimp only
  split
  · split
    · exact .refl ..
    · exact .after (.raise ..) (.put rfl)
  · exact .put rfl
  · exact .refl ..

theorem setSupply_steady (key new : Nat) (s : State) : Steady key s (setSupply key new s) := by
  unfold setSupply tsHeadEvent
  dsimp only
  split
  · exact .refl ..
  · exact .after (.raise ..) (.put rfl)

theorem startTraining_steady (key : Nat) (s : State) : Steady key s (startTraining key s) := by
  unfold startTraining
  dsimp only
  split
  · exact .refl ..
  · split
    · exact .put rfl
    · exact .after (.of_reporting (emit_reporting ..)) (.put rfl)

theorem readSink_steady (key : Nat) (sink : SinkInfo) (s : State) : Steady key s (readSink key sink s) := by
  unfold readSink tsHeadEvent
  exact .after (.raise ..) (.put rfl)

/-- The sink that connected while AUX was idle, read as the head leaves STOPPED (R174). -/
def unreadRead (key : Nat) (s : State) : State :=
  match (headRt s key).sinkUnread with
  | some k => if leavesStop (headRt s key) then readSink key k s else s
  | none => s

theorem unreadRead_steady (key : Nat) (s : State) : Steady key s (unreadRead key s) := by
  unfold unreadRead
  split
  · exact Steady.ite (readSink_steady ..)
  · exact .refl ..

/-- A link not trained, or one that does not carry the stream, trains (R172, R187). -/
def trainDue (key : Nat) (s : State) : State :=
  let h := headRt s key
  if key < 16 && h.hpd && h.once.timing.enable = 1 && (h.hstate != 8 || leavesStop h) && !h.training && !h.linkFail && !h.sinkD3 then
    match h.trained with
    | none => startTraining key s
    | some (l, r) => if carries h.once.timing (tsGroup s h) l r then s else startTraining key s
  else s

theorem trainIfNeeded_eq (key : Nat) (s : State) : trainIfNeeded key s = trainDue key (unreadRead key s) := rfl

theorem trainDue_steady (key : Nat) (s : State) : Steady key s (trainDue key s) := by
  unfold trainDue
  dsimp only
  split
  · split
    · exact startTraining_steady ..
    · split
      · exact .refl ..
      · exact startTraining_steady ..
  · exact .refl ..

theorem trainIfNeeded_steady (key : Nat) (s : State) : Steady key s (trainIfNeeded key s) := by
  rw [trainIfNeeded_eq]
  exact (unreadRead_steady key s).trans (trainDue_steady ..)

theorem settleFrame_steady (key n start : Nat) (s : State) : Steady key s (settleFrame key n start s) := by
  unfold settleFrame
  dsimp only
  refine Steady.trans ?_ (.put (frameView_startState ..))
  refine Steady.trans ?_ (enterHead_steady ..)
  refine Steady.trans ?_ (trainIfNeeded_steady ..)
  exact (switchover_steady ..).trans (setSupply_steady ..)

/-! ## The frame start -/

/-- What the arbiter reads (R209, R210). -/
theorem effClaim_congr {s t : State} {h k : HeadRt} (hc : t.cascade = s.cascade) (hm : t.module = s.module) (ht : t.time = s.time)
    (ho : t.ts.ownClaim = s.ts.ownClaim) (hown : k.own = h.own) (htwin : k.twin = h.twin) (side : Side) :
    effClaim t k side = effClaim s h side := by
  have hs : sideOf k side = sideOf h side := by cases side <;> assumption
  unfold effClaim aloneBars ownPosition inService
  rw [hc, hm, ht, ho, hs]

theorem arbiter_congr {s t : State} {h k : HeadRt} (hc : t.cascade = s.cascade) (hm : t.module = s.module) (ht : t.time = s.time)
    (ho : t.ts.ownClaim = s.ts.ownClaim) (hown : k.own = h.own) (htwin : k.twin = h.twin) : arbiter t k = arbiter s h := by
  unfold arbiter
  rw [effClaim_congr hc hm ht ho hown htwin, effClaim_congr hc hm ht ho hown htwin]

theorem tellGeneration_reporting (g : Nat) (s : State) : Reporting s (tellGeneration g s) := by
  unfold tellGeneration
  split
  · exact emit_reporting ..
  · rfl

/-- A group begins its frame, and leaves all that the arbiter reads (R184). -/
theorem groupBegins_keeps (f : NextFrame) (s : State) :
    (groupBegins f s).cascade = s.cascade ∧ (groupBegins f s).module = s.module ∧ (groupBegins f s).time = s.time
      ∧ (groupBegins f s).ts.ownClaim = s.ts.ownClaim ∧ (∀ k, headRt (groupBegins f s) k = headRt s k)
      ∧ (f.fresh = true → (groupRt (groupBegins f s) f.group).frame = some f.frame) := by
  unfold groupBegins
  split
  · have hr := tellGeneration_reporting f.group (setGroup f.group
      { groupRt s f.group with frame := some f.frame, startNs := f.start, wallNs := wallOf s f.start, rephaseDue := false } s)
    refine ⟨hr.cascade, hr.module, hr.time, (congrArg TsSt.ownClaim hr.ts).trans rfl, fun k => (hr.headRt k).trans rfl, fun _ => ?_⟩
    exact (congrArg (fun t : TsSt => (mapGetD t.groups f.group GroupRt.init).frame) hr.ts).trans (congrArg GroupRt.frame (groupRt_setGroup ..))
  · next h => exact ⟨rfl, rfl, rfl, rfl, fun _ => rfl, fun hf => absurd hf h⟩

/-- The lines of a stream held ahead for a frame. -/
def aheadOf (n : Nat) (r : StreamRt) : StreamRt := { r with ahead := r.ahead.filter fun t => t.2.frameNo = n }

/-- What a head's frame has begun with (R210, R211, R222). -/
structure Begun (key : Nat) (f : NextFrame) (s t : State) : Prop where
  frame : (headRt t key).frame = some f.frame
  start : (headRt t key).startMono = f.start
  emitted : (headRt t key).emitted = []
  scorched : (headRt t key).scorchedPx = 0
  passed : (headRt t key).passed = arbiter s (headRt s key)
  own : (headRt t key).own = aheadOf f.frame (headRt s key).own
  groups : t.ts.groups = s.ts.groups

theorem beginFrame_begun (key : Nat) (f : NextFrame) (s : State) : Begun key f s (beginFrame key f s) := by
  unfold beginFrame
  dsimp only
  have hsteady := tsFaults_steady key 1 (staleLines (headRt s key).own f.frame + staleLines (headRt s key).twin f.frame) (putHead key
    { headRt s key with
      frame := some f.frame, startNs := wallOf s f.start, startMono := f.start, line := none, own := aheadOf f.frame (headRt s key).own,
      twin := aheadOf f.frame (headRt s key).twin, passed := arbiter s (headRt s key),
      passedClaim := ((arbiter s (headRt s key)).map fun d => effClaim s (headRt s key) d).getD 0, emitted := [], windows := [],
      scorchedPx := 0, ages := [], mismatchTold := false, noLabel := [], replayed := 0, glyphs := s.ts.glyphs,
      training := (headRt s key).training && !((headRt s key).training && (headRt s key).trained.isSome),
      emitting := (headRt s key).emitting || ((headRt s key).training && (headRt s key).trained.isSome), startU := uUsAt s f.start } s)
  have hview := hsteady.view
  rw [headRt_putHead] at hview
  obtain ⟨h1, h2, h3, h4, h5⟩ := frameView_begun hview
  obtain ⟨-, -, h6, -⟩ := frameView_fields hview
  exact ⟨h1, h2, h3, h4, h5, h6, hsteady.groups⟩

theorem Begun.steady {key : Nat} {f : NextFrame} {s t u : State} (h : Begun key f s t) (k : Steady key t u) : Begun key f s u := by
  obtain ⟨h1, h2, h3, h4, h5⟩ := frameView_begun k.view
  obtain ⟨-, -, h6, -⟩ := k.fields
  exact ⟨h1.trans h.frame, h2.trans h.start, h3.trans h.emitted, h4.trans h.scorched, h5.trans h.passed, h6.trans h.own,
    k.groups.trans h.groups⟩

/-- The frame before ended, and what was recorded of it (R184, R222). -/
def frameEnded (key : Nat) (f : NextFrame) (s : State) : State := finishFrame key (rephase f s)

theorem frameEnded_steady (key : Nat) (f : NextFrame) (s : State) : Steady key s (frameEnded key f s) :=
  (rephase_steady key f s).trans (finishFrame_steady ..)

/-- The frame begun once the banks have been exchanged (R184, R210). -/
def frameBegun (key : Nat) (f : NextFrame) (u : State) : State :=
  emit (.frameStart key f.frame)
    (settleFrame key f.frame f.start (beginFrame key f (groupBegins f (recordFrameStart key (headRt u key).once.timing u))))

/-- The banks of a head exchanged as its orders say (R200). -/
def ordersDone (key : Nat) (f : NextFrame) (s : State) : State :=
  swapSide key .twin f.frame f.start (orderLine s (headRt s key)) (swapSide key .own f.frame f.start (orderLine s (headRt s key)) s)

/-- A head whose timing stays begins its frame, and its group goes on (R182, R210). -/
theorem startFrame_stays {key : Nat} {f : NextFrame} {s : State} (hl : (headRt s key).line = none)
    (he : (headRt s key).once.timing.enable = 1)
    (ho : (headRt (ordersDone key f (frameEnded key f s)) key).once = (headRt s key).once) :
    startFrame key f s = frameBegun key f (ordersDone key f (frameEnded key f s)) := by
  have htiming : (headRt (ordersDone key f (frameEnded key f s)) key).once.timing = (headRt s key).once.timing := by rw [ho]
  have henable : (headRt (ordersDone key f (frameEnded key f s)) key).once.timing.enable = 1 := by rw [htiming]; exact he
  unfold startFrame
  rw [advanceLine_none hl]
  change (if decide ((headRt s key).once.timing.enable = 1)
      && ((headRt (ordersDone key f (frameEnded key f s)) key).once.timing.enable != 1
        || (headRt (ordersDone key f (frameEnded key f s)) key).once.timing.syncGroup != (headRt s key).once.timing.syncGroup)
    then _ else if (headRt (ordersDone key f (frameEnded key f s)) key).once.timing.enable = 1 then _ else _) = _
  rw [if_neg (by rw [htiming, he]; simp), if_pos henable]
  rfl

/-- What is begun after the banks have been exchanged. -/
theorem frameBegun_begun (key : Nat) (f : NextFrame) (u : State) :
    (headRt (frameBegun key f u) key).frame = some f.frame ∧ (headRt (frameBegun key f u) key).startMono = f.start
      ∧ (headRt (frameBegun key f u) key).emitted = [] ∧ (headRt (frameBegun key f u) key).scorchedPx = 0
      ∧ (headRt (frameBegun key f u) key).passed = arbiter u (headRt u key)
      ∧ (headRt (frameBegun key f u) key).own = aheadOf f.frame (headRt u key).own
      ∧ (f.fresh = true → (groupRt (frameBegun key f u) f.group).frame = some f.frame)
      ∧ Out.frameStart key f.frame ∈ (frameBegun key f u).outbox := by
  have hrec := recordFrameStart_steady key (headRt u key).once.timing u
  obtain ⟨hcas, hmod, htime, hclaim, hhead, hgroup⟩ := groupBegins_keeps f (recordFrameStart key (headRt u key).once.timing u)
  have hbegun := (beginFrame_begun key f (groupBegins f (recordFrameStart key (headRt u key).once.timing u))).steady
    (settleFrame_steady key f.frame f.start _)
  obtain ⟨-, -, hown, htwin⟩ := hrec.fields
  have harb : arbiter (groupBegins f (recordFrameStart key (headRt u key).once.timing u))
      (headRt (groupBegins f (recordFrameStart key (headRt u key).once.timing u)) key) = arbiter u (headRt u key) := by
    rw [hhead]
    exact arbiter_congr (hcas.trans hrec.cascade) (hmod.trans hrec.module) (htime.trans hrec.time) (hclaim.trans hrec.claim) hown htwin
  refine ⟨hbegun.frame, hbegun.start, hbegun.emitted, hbegun.scorched, hbegun.passed.trans harb, ?_, fun hf => ?_, List.mem_cons_self⟩
  · refine hbegun.own.trans ?_
    rw [hhead, hown]
  · have hg : (frameBegun key f u).ts.groups = (groupBegins f (recordFrameStart key (headRt u key).once.timing u)).ts.groups := hbegun.groups
    unfold groupRt
    rw [hg]
    exact hgroup hf

/-! ## Swap orders at a frame start -/

theorem swapSide_none {key : Nat} {side : Side} {s : State} (h : (sideOf (headRt s key) side).orders = []) (n start line : Nat) :
    swapSide key side n start line s = s := by
  unfold swapSide
  rw [h]
  rfl

theorem ordersDone_none {key : Nat} {s : State} (ho : (headRt s key).own.orders = []) (ht : (headRt s key).twin.orders = [])
    (f : NextFrame) : ordersDone key f s = s := by
  unfold ordersDone
  rw [swapSide_none (side := .own) ho, swapSide_none (side := .twin) ht]

/-- Records held once that are the same in both banks stay so; the streams are another matter (R200). -/
theorem orderOnce_keeps {h : HeadRt} (hs : h.onceOther = h.once) (side : Side) (o : SwapOrder) (start : Nat) :
    (orderOnce side o start h).once = h.once ∧ (orderOnce side o start h).own = h.own ∧ (orderOnce side o start h).twin = h.twin := by
  unfold orderOnce
  dsimp only
  split
  · exact ⟨rfl, rfl, rfl⟩
  · split
    · split
      · exact ⟨hs, rfl, rfl⟩
      · exact ⟨rfl, rfl, rfl⟩
    · exact ⟨hs, rfl, rfl⟩

theorem orderFirst_swaps {o : SwapOrder} {r : StreamRt} (h : o.rollback = false ∨ r.kept = true) :
    ∃ b, orderFirst o r = swapBanks b r := by
  unfold orderFirst
  split
  · next hr =>
    rw [if_pos (h.resolve_left (by rw [hr]; decide))]
    exact ⟨_, rfl⟩
  · exact ⟨_, rfl⟩

/-- The head once an order of the own side has been carried out (R200). -/
def orderedHead (o : SwapOrder) (start : Nat) (h : HeadRt) : HeadRt :=
  orderOnce .own o start (setSide h .own { orderFirst o h.own with orders := h.own.orders.erase o })

theorem swapSide_one {key n start line : Nat} {o : SwapOrder} {s : State} (ho : (headRt s key).own.orders = [o])
    (hn : 0 ≤ modDiff 48 n o.frame) (ha : o.arrivedNs + line ≤ start) :
    swapSide key .own n start line s = putHead key (orderedHead o start (headRt s key)) s := by
  unfold swapSide
  rw [show (sideOf (headRt s key) .own).orders = [o] from ho, List.foldl_cons, List.foldl_nil]
  unfold swapOrder
  dsimp only
  rw [if_neg (Int.not_lt.mpr hn), if_pos ha]
  rfl

section
variable {o : SwapOrder} {start : Nat} {h : HeadRt} (hs : h.onceOther = h.once) (hk : o.rollback = false ∨ h.own.kept = true)
  (ho : h.own.orders = [o])
include hs hk ho

theorem orderedHead_keeps :
    (orderedHead o start h).once = h.once ∧ (orderedHead o start h).own.force = h.own.other
      ∧ (orderedHead o start h).own.other = h.own.force ∧ (orderedHead o start h).own.orders = []
      ∧ (orderedHead o start h).twin = h.twin := by
  obtain ⟨b, hb⟩ := orderFirst_swaps hk
  obtain ⟨h1, h2, h3⟩ := orderOnce_keeps (h := setSide h .own { orderFirst o h.own with orders := h.own.orders.erase o }) hs .own o start
  unfold orderedHead
  rw [h1, h2, h3, hb, ho]
  exact ⟨rfl, rfl, rfl, List.erase_cons_head .., rfl⟩

end

theorem execFrameStart_due {key : Nat} {f : NextFrame} {s : State} (hk : key ≤ 31) (hp : s.ts.powered = true)
    (hm : s.module.mode ≠ .idleLink) (hf : nextFrame s (headRt s key) = some f) : execFrameStart key s = .next (startFrame key f s) := by
  have hc : ¬ (decide (31 < key) || !s.ts.powered || decide (s.module.mode = .idleLink)) = true := by simp [hk, hp, hm]
  unfold execFrameStart
  rw [if_neg hc, hf]

/-- A frame starts at a head with no order (R210). -/
theorem startFrame_plain {key : Nat} {f : NextFrame} {s : State} (hl : (headRt s key).line = none)
    (he : (headRt s key).once.timing.enable = 1) (ho : (headRt s key).own.orders = []) (ht : (headRt s key).twin.orders = []) :
    startFrame key f s = frameBegun key f (frameEnded key f s) := by
  obtain ⟨honce, -, hown, htwin⟩ := (frameEnded_steady key f s).fields
  have hnone : ordersDone key f (frameEnded key f s) = frameEnded key f s :=
    ordersDone_none (by rw [hown]; exact ho) (by rw [htwin]; exact ht) f
  have h := startFrame_stays (f := f) hl he (by rw [hnone]; exact honce)
  rw [hnone] at h
  exact h

/-- The state in which the one order of the own side has been carried out. -/
def orderDone (key : Nat) (f : NextFrame) (o : SwapOrder) (s : State) : State :=
  putHead key (orderedHead o f.start (headRt s key)) s

theorem ordersDone_one {key : Nat} {f : NextFrame} {o : SwapOrder} {s : State} (ho : (headRt s key).own.orders = [o])
    (ht : (headRt s key).twin.orders = []) (hn : 0 ≤ modDiff 48 f.frame o.frame) (ha : o.arrivedNs + orderLine s (headRt s key) ≤ f.start)
    (hs : (headRt s key).onceOther = (headRt s key).once) (hk : o.rollback = false ∨ (headRt s key).own.kept = true) :
    ordersDone key f s = orderDone key f o s := by
  obtain ⟨-, -, -, -, htwin⟩ := orderedHead_keeps (start := f.start) hs hk ho
  unfold ordersDone
  rw [swapSide_one ho hn ha]
  refine swapSide_none ?_ ..
  rw [headRt_putHead]
  exact (congrArg StreamRt.orders htwin).trans ht

theorem orderLine_congr {s t : State} {h k : HeadRt} (hr : t.ts.groupRecs = s.ts.groupRecs) (ho : k.once = h.once)
    (hn : k.onceOther = h.onceOther) : orderLine t k = orderLine s h := by
  unfold orderLine linePeriod
  rw [hr, ho, hn]

theorem execHoldLimit_due {key : Nat} {s : State} (hk : key < 32) (hs : headServed s key = true) (hf : (headRt s key).frame.isSome = true)
    (he : (headRt s key).emitted = []) (hl : (headRt s key).line = none) (hsup : (headRt s key).supply ≠ 5)
    (hd : lastRxOf (headRt s key) + holdLimitNs (headRt s key) ≤ (headRt s key).startMono) :
    execHoldLimit key s = .next (settleHead key (setSupply key 5 s)) := by
  have hc : (decide (key < 32) && headServed s key && (headRt s key).frame.isSome && (headRt s key).emitted.isEmpty
      && (headRt s key).line.isNone && (headRt s key).supply != 5
      && decide (lastRxOf (headRt s key) + holdLimitNs (headRt s key) ≤ (headRt s key).startMono)) = true := by
    simp [hk, hs, hf, he, hl, hsup, hd]
  exact congrArg Host.Outcome.next (if_pos hc)

/-- The plate comes into force (R213, R214). -/
def platePut (key : Nat) (s : State) : State := putHead key { headRt s key with supply := 5, plates := (headRt s key).plates + 1 } s

theorem setSupply_plate {key : Nat} {s : State} (h : (headRt s key).supply ≠ 5) :
    setSupply key 5 s
      = tsRaise 0x0780 .head key [it 1 (headRt s key).supply, it 1 5, it 6 ((headRt s key).frame.getD 0),
          it 8 (s.time.mono - lastRxOf (headRt s key))] false (platePut key s) := if_neg h

theorem headRt_setSupply_plate {key : Nat} {s : State} (h : (headRt s key).supply ≠ 5) :
    headRt (setSupply key 5 s) key = { headRt s key with supply := 5, plates := (headRt s key).plates + 1 } := by
  rw [setSupply_plate h, headRt_tsRaise]
  exact headRt_putHead ..

/-- The self-check of the Calipers noted. -/
def selfCheckNoted (key : Nat) (bad : Bool) (s : State) : State := putHead key { headRt s key with calUnreliable := bad } s

theorem execCalipersSelfcheck_good {key : Nat} {s : State} (hk : key ≤ 31) (hs : headServed s key = true) :
    execCalipersSelfcheck key Config.selfCheckValue s = .next (selfCheckNoted key false s) := by
  have hc : ¬ (decide (31 < key) || !headServed s key) = true := by simp [hk, hs]
  unfold execCalipersSelfcheck
  dsimp only
  rw [if_neg hc, if_pos rfl]
  rfl

theorem execCalipersSelfcheck_bad {key value : Nat} {s : State} (hk : key ≤ 31) (hs : headServed s key = true)
    (hv : value ≠ Config.selfCheckValue) :
    execCalipersSelfcheck key value s
      = .next (tsFault key 8 (tsRaise 0x078B .head key [it 4 value] false (selfCheckNoted key true s))) := by
  have hc : ¬ (decide (31 < key) || !headServed s key) = true := by simp [hk, hs]
  unfold execCalipersSelfcheck
  dsimp only
  rw [if_neg hc, if_neg hv]
  rfl

/-- A held line marked bad (R225). -/
def lineSpoilt (key line : Nat) (l : HeldLine) (s : State) : State :=
  putHead key { headRt s key with hold := mapPut (headRt s key).hold line { l with bad := true } } s

theorem execHoldScrub_bad {key line errors : Nat} {l : HeldLine} {s : State} (hl : mapGet (headRt s key).hold line = some l)
    (he : 2 ≤ errors) (hp : s.ts.powered = true) : execHoldScrub key line errors s = .next (tsFault key 6 (lineSpoilt key line l s)) := by
  have hc : ¬ (decide (errors < 2) || !s.ts.powered) = true := by
    rw [hp, decide_eq_false (Nat.not_lt.mpr he)]
    decide
  unfold execHoldScrub
  dsimp only
  rw [hl]
  dsimp only
  rw [if_neg hc]
  rfl

/-- Settles O25: a token's claim is taken over before its line is judged; what surrounds a frame's start leaves what the arbiter reads. -/
theorem tokensAndFrameStarts : Obligations.TokensAndFrameStarts := by
  unfold Obligations.TokensAndFrameStarts
  refine ⟨?idle, ?line, ?past, ?damaged, ?sends, ?start, ?swaps, ?limit, ?selfcheck, ?scrub⟩
  case idle =>
    intro tok s hp hk hh hi
    obtain ⟨b, hb⟩ := headRt_claimTaken tok s
    refine ⟨_, execLineTokenRx_idle hp hk hh hi, ?_⟩
    beta_reduce
    rw [hb]
    exact ⟨rfl, rfl, rfl, rfl, claimTaken_onlyTs ..⟩
  case line =>
    intro tok s hp hk hh hi hpast hnone
    obtain ⟨b, hb⟩ := headRt_lineHeard tok s
    refine ⟨_, execLineTokenRx_line hp hk hh hi, ?_⟩
    beta_reduce
    rw [acceptLine_holds (by rw [linePast_lineHeard]; exact hpast), headRt_modSide, hb, lineHeard_mono]
    refine ⟨rfl, ?_, rfl, rfl, OnlyTs.trans (c := modSide _ _ _ (lineHeard tok s)) (lineHeard_onlyTs ..) rfl⟩
    exact congrArg (holdAhead s.time.mono tok) hnone
  case past =>
    intro tok s hp hk hh hi hpast
    obtain ⟨b, hb⟩ := headRt_lineHeard tok s
    refine ⟨_, execLineTokenRx_line hp hk hh hi, ?_⟩
    beta_reduce
    rw [acceptLine_faults (by rw [linePast_lineHeard]; exact hpast), headRt_tsFault, hb]
    exact ⟨rfl, mapGet_mapPut_self .., rfl, (lineHeard_onlyTs ..).trans (tsFault_onlyTs ..)⟩
  case damaged =>
    intro side tok s hp hk
    refine ⟨_, execLineTokenRx_damaged hp hk side, ?_⟩
    beta_reduce
    rw [headRt_tsFault]
    exact ⟨mapGet_mapPut_self .., rfl, rfl, tsFault_onlyTs ..⟩
  case sends =>
    intro key s hs hk ho ht hr
    exact ⟨_, execIdleTokenSend_due hs hk ho ht hr, List.mem_cons_self, rfl⟩
  case start =>
    intro key f s hk hp hm hf he ho ht hl
    have hsteady := frameEnded_steady key f s
    obtain ⟨-, -, hown, htwin⟩ := hsteady.fields
    obtain ⟨h1, h2, h3, h4, h5, h6, h7, h8⟩ := frameBegun_begun key f (frameEnded key f s)
    refine ⟨_, execFrameStart_due hk hp hm hf, ?_⟩
    beta_reduce
    rw [startFrame_plain hl he ho ht]
    refine ⟨h1, h2, h3, h4, h5.trans ?_, ?_, h7, h8⟩
    · exact arbiter_congr hsteady.cascade hsteady.module hsteady.time hsteady.claim hown htwin
    · rw [h6, hown]
      rfl
  case swaps =>
    intro key f o s hk hp hm hf he ho ht hl hn ha hkept honce
    have hsteady := frameEnded_steady key f s
    obtain ⟨hon, hother, hown, htwin⟩ := hsteady.fields
    have hsame : (headRt (frameEnded key f s) key).onceOther = (headRt (frameEnded key f s) key).once := by rw [hother, hon, honce]
    have hkept' : o.rollback = false ∨ (headRt (frameEnded key f s) key).own.kept = true := by rw [hown]; exact hkept
    have hor : (headRt (frameEnded key f s) key).own.orders = [o] := by rw [hown]; exact ho
    have hdone : ordersDone key f (frameEnded key f s) = orderDone key f o (frameEnded key f s) := by
      refine ordersDone_one hor (by rw [htwin]; exact ht) hn ?_ hsame hkept'
      rw [orderLine_congr hsteady.recs hon hother]
      exact ha
    obtain ⟨hk1, hk2, hk3, hk4, -⟩ := orderedHead_keeps (start := f.start) hsame hkept' hor
    have hhead : headRt (orderDone key f o (frameEnded key f s)) key = orderedHead o f.start (headRt (frameEnded key f s) key) :=
      headRt_putHead ..
    have hstart := startFrame_stays (f := f) hl he (by rw [hdone, hhead, hk1]; exact hon)
    rw [hdone] at hstart
    obtain ⟨h1, -, -, -, -, h6, -, h8⟩ := frameBegun_begun key f (orderDone key f o (frameEnded key f s))
    rw [hhead] at h6
    refine ⟨_, execFrameStart_due hk hp hm hf, ?_⟩
    beta_reduce
    rw [hstart, h6]
    refine ⟨?_, ?_, hk4, h1, h8⟩
    · exact hk2.trans (by rw [hown])
    · exact hk3.trans (by rw [hown])
  case limit =>
    intro key s hk hs hf he hl hsup hd
    obtain ⟨n, hnum⟩ := headRt_settleHead key (setSupply key 5 s) key
    refine ⟨_, execHoldLimit_due hk hs hf he hl hsup hd, ?_⟩
    beta_reduce
    rw [hnum, headRt_setSupply_plate hsup]
    refine ⟨rfl, rfl, ?_, ?_⟩
    · refine TsRaises.waits (u := setSupply key 5 s) ?_ (settleHead_tsWaits ..)
      rw [setSupply_plate hsup]
      exact tsRaise_waits (s := s) (u := platePut key s) rfl rfl rfl _ _ _ _ _
    · refine OnlyTs.trans (b := setSupply key 5 s) ?_ (settleHead_onlyTs ..)
      rw [setSupply_plate hsup]
      exact OnlyTs.trans (b := platePut key s) rfl (tsRaise_onlyTs ..)
  case selfcheck =>
    intro key value s hk hs
    by_cases hv : value = Config.selfCheckValue
    · subst hv
      refine ⟨_, execCalipersSelfcheck_good hk hs, ?_, fun h => absurd rfl h, rfl⟩
      rw [show headRt (selfCheckNoted key false s) key = _ from headRt_putHead .., decide_eq_false (fun h => h rfl)]
    · refine ⟨_, execCalipersSelfcheck_bad hk hs hv, ?_, fun _ => ?_, ?_⟩
      · rw [headRt_tsFault, headRt_tsRaise, decide_eq_true hv]
        exact congrArg HeadRt.calUnreliable (headRt_putHead key { headRt s key with calUnreliable := true } s)
      · exact (tsRaise_waits (s := s) (u := selfCheckNoted key true s) rfl rfl rfl _ _ _ _ _).waits (tsFault_tsWaits ..)
      · exact (OnlyTs.trans (a := s) (b := selfCheckNoted key true s) rfl (tsRaise_onlyTs ..)).trans (tsFault_onlyTs ..)
  case scrub =>
    intro key line errors l s hl he hp
    refine ⟨_, execHoldScrub_bad hl he hp, ?_⟩
    beta_reduce
    rw [headRt_tsFault, show headRt (lineSpoilt key line l s) key = _ from headRt_putHead ..]
    exact ⟨mapGet_mapPut_self .., mapGet_mapPut_self .., OnlyTs.trans (b := lineSpoilt key line l s) rfl (tsFault_onlyTs ..)⟩

end Sys2Proof.Machine
end

-- Streams opened and closed (R60 to R63, R75, R76, R110, R113)
section
/-! SUPPORT. A change of the ledger leaves streams and gate contexts; joins are sent for every multicast leg. -/

namespace Sys2Proof.Machine

open Sys2Proof

theorem OnlyLedger.ingest {s t : State} (h : OnlyLedger s t) : t.ingest = s.ingest := by rw [h]

theorem OnlyLedger.gates {s t : State} (h : OnlyLedger s t) : t.gates = s.gates := by rw [h]

/-- Only ingest, the ledger and what reports differ. -/
abbrev OnlyStreams (s t : State) : Prop := OnlyLedger s { t with ingest := s.ingest }

theorem OnlyStreams.trans {a b c : State} (h : OnlyStreams a b) (k : OnlyStreams b c) : OnlyStreams a c := by
  unfold OnlyStreams OnlyLedger at *
  rw [State.mk.injEq] at *
  simp_all

theorem OnlyLedger.streams {s t : State} (h : OnlyLedger s t) : OnlyStreams s t := by
  unfold OnlyStreams OnlyLedger at *
  rw [h]

/-! ## Joins -/

theorem sendJoins_tells (name : String) (legs : List Leg) (s : State) : Tells s (sendJoins name legs s) := by
  refine Tells.foldl (fun s l => ?_) legs s
  split
  · exact Tells.emit (.refl s) _
  · exact .refl s

theorem sendJoins_reporting (name : String) (legs : List Leg) (s : State) : Reporting s (sendJoins name legs s) := by
  unfold sendJoins
  induction legs generalizing s with
  | nil => rfl
  | cons l legs ih =>
    refine Reporting.trans ?_ (ih _)
    beta_reduce
    split
    · exact emit_reporting ..
    · rfl

/-- Every multicast leg has its join or leave among what is sent (R63). -/
theorem sendJoins_sends {name : String} {legs : List Leg} {l : Leg} (hl : l ∈ legs) (hm : isMulticast l.ipv6 l.group = true) (s : State) :
    Out.packet l.port l.lane name [(l.group : Int), (l.source : Int)] ∈ (sendJoins name legs s).outbox := by
  induction legs generalizing s with
  | nil => cases hl
  | cons m legs ih =>
    rcases List.mem_cons.mp hl with rfl | hl
    · refine (sendJoins_tells name legs _).adds.mem ?_
      beta_reduce
      rw [if_pos hm]
      exact List.mem_cons_self
    · exact ih hl _

/-! ## Opening -/

theorem raiseProbe_reporting (k : Nat) (running : Bool) (cause : Nat) (s : State) : Reporting s (raiseProbe k running cause s) :=
  raise_reporting ..

/-- Only a probe that no longer fits is told besides the change of the entry (R124). -/
theorem enterUnknown_changes (k : Nat) (e : Entry) (s : State) :
    ∃ p l c, enterUnknown k e s
        = raiseProbe k false 4 (changeEntry k
            { e with unknownLatch := true, withdrawn := false, concealedNow := false, probeEn := p, shedLatch := l } c s)
      ∨ enterUnknown k e s
        = changeEntry k { e with unknownLatch := true, withdrawn := false, concealedNow := false, probeEn := p, shedLatch := l } c s := by
  unfold enterUnknown
  dsimp only
  split
  · exact ⟨_, _, _, .inl rfl⟩
  · exact ⟨_, _, _, .inr rfl⟩

theorem enterUnknown_onlyLedger (k : Nat) (e : Entry) (s : State) : OnlyLedger s (enterUnknown k e s) := by
  obtain ⟨p, l, c, h | h⟩ := enterUnknown_changes k e s
  · rw [h]
    exact (changeEntry_onlyLedger ..).trans (raiseProbe_reporting ..).onlyLedger
  · rw [h]
    exact changeEntry_onlyLedger ..

theorem hostView_enterUnknown (k : Nat) (e : Entry) (s : State) : hostView (enterUnknown k e s) = hostView s := by
  obtain ⟨p, l, c, h | h⟩ := enterUnknown_changes k e s
  · rw [h]
    exact (hostView_raise ..).trans (hostView_changeEntry ..)
  · rw [h]
    exact hostView_changeEntry ..

/-- A source that enters UNKNOWN keeps its kind, its interval and whether it has received anything. -/
theorem entryOf_enterUnknown (k : Nat) (e : Entry) (s : State) :
    (entryOf (enterUnknown k e s) k).kind = e.kind ∧ (entryOf (enterUnknown k e s) k).unknownLatch = true
      ∧ (entryOf (enterUnknown k e s) k).received = e.received ∧ (entryOf (enterUnknown k e s) k).expectUs = e.expectUs
      ∧ (entryOf (enterUnknown k e s) k).withdrawn = false := by
  obtain ⟨p, l, c, h⟩ := enterUnknown_changes k e s
  have hentry : entryOf (enterUnknown k e s) k = entryOf (changeEntry k
      { e with unknownLatch := true, withdrawn := false, concealedNow := false, probeEn := p, shedLatch := l } c s) k := by
    rcases h with h | h
    · rw [h, (raiseProbe_reporting ..).entryOf]
    · rw [h]
  have same := changeEntry_sameSource k
    { e with unknownLatch := true, withdrawn := false, concealedNow := false, probeEn := p, shedLatch := l } c s
  unfold SameSource at same
  rw [hentry, same]
  exact ⟨rfl, rfl, rfl, rfl, rfl⟩

theorem openedEntry_fields (b : IngestOpenBody) (now : Nat) (old : Entry) :
    (openedEntry b now old).kind = .network ∧ (openedEntry b now old).received = false
      ∧ (openedEntry b now old).expectUs = ceilDiv (1000000 * b.params.rateDen) b.params.rateNum := by
  refine ⟨?_, rfl, rfl⟩
  unfold openedEntry
  dsimp only
  split
  · next h => exact h
  · rfl

/-- The stream put and its context made (R62). -/
def streamPut (b : IngestOpenBody) (e : Nat) (s : State) : State :=
  addCtx (streamCtx b.source (newStream b e s.time.mono))
    (s.modIngest fun i => { i with streams := mapPut i.streams b.source (newStream b e s.time.mono) })

/-- The stream opened and its source in UNKNOWN (R110, R113). -/
def streamOpened (b : IngestOpenBody) (e : Nat) (s : State) : State :=
  sendJoins "JOIN" (legsOf b.params)
    (enterUnknown b.source (openedEntry b s.time.wall (entryOf s b.source)) (streamPut b e s))

theorem ingestOpenBody_ok {b : IngestOpenBody} {e : Nat} {tk : Ticket} {s : State} (hd : tk.dmaOk = true) (hc : ingestOpenCheck b s = 0)
    (he : placeEngine s b.params = some e) : ingestOpenBody b tk s = complete tk 0 [] (streamOpened b e s) := by
  unfold ingestOpenBody
  rw [hd, Bool.not_true, if_neg Bool.false_ne_true]
  dsimp only
  rw [hc, bne_self_eq_false, if_neg Bool.false_ne_true, he]
  rfl

theorem streamOpened_keeps (b : IngestOpenBody) (e : Nat) (s : State) :
    OnlyLedger (streamPut b e s) (streamOpened b e s) ∧ hostView (streamOpened b e s) = hostView s
      ∧ entryOf (streamOpened b e s) b.source
        = entryOf (enterUnknown b.source (openedEntry b s.time.wall (entryOf s b.source)) (streamPut b e s)) b.source :=
  ⟨(enterUnknown_onlyLedger ..).trans (sendJoins_reporting ..).onlyLedger,
    (sendJoins_tells ..).view.trans (hostView_enterUnknown ..), (sendJoins_reporting ..).entryOf _⟩

/-! ## Closing -/

/-- What INGEST_CLOSE makes of a stream (R75). -/
def closingStream (tk : Ticket) (abort : Bool) (x : Stream) : Stream :=
  { x with
    closing := some tk, discarded := x.discarded || !x.open_.isEmpty || (abort && !x.units.isEmpty), closeAbort := abort,
    open_ := [], units := if abort then [] else x.units }

theorem ingestCloseBody_open {k : Nat} {abort : Bool} {x : Stream} {s : State} (hx : mapGet s.ingest.streams k = some x)
    (hc : x.closing = none) (hd : mapGet s.decode.attached k = none) (tk : Ticket) :
    ingestCloseBody k abort tk s = modStream k (closingStream tk abort) s := by
  unfold ingestCloseBody
  rw [hx]
  dsimp only
  rw [hc, Option.isSome_none, if_neg Bool.false_ne_true]
  exact if_neg (by rw [show mapHas (modStream k _ s).decode.attached k = false from mapHas_of_none hd]; exact Bool.false_ne_true)

theorem mapGet_modStream {k : Nat} {x : Stream} {s : State} (hx : mapGet s.ingest.streams k = some x) (f : Stream → Stream) :
    mapGet (modStream k f s).ingest.streams k = some (f x) := by
  refine (mapGet_mapUpd ..).trans ?_
  rw [if_pos rfl, hx]
  rfl

/-- The drained stream taken away, its region guarded (R75). -/
def streamGone (k : Nat) (x : Stream) (s : State) : State :=
  (sendJoins "LEAVE" (legsOf x.params) s).modIngest fun i =>
    { i with
      streams := mapDel i.streams k, guards := mapPut i.guards x.regionBase (x.regionSize, k), closed := mapPut i.closed x.regionBase x }

/-- The source of a drained stream LOST or WITHDRAWN (R113). -/
def streamClosed (k : Nat) (x : Stream) (s : State) : State :=
  changeEntry k
    { entryOf (streamGone k x s) k with
      lostLatch := (entryOf (streamGone k x s) k).lostLatch || (x.discarded || x.closeAbort),
      withdrawn := (entryOf (streamGone k x s) k).withdrawn || !(x.discarded || x.closeAbort) } .close (streamGone k x s)

theorem execIngestCloseComplete_drained {k : Nat} {x : Stream} {tk : Ticket} {s : State} (hx : mapGet s.ingest.streams k = some x)
    (hc : x.closing = some tk) (hd : mapGet s.decode.attached k = none) :
    execIngestCloseComplete k s = .next (complete tk 0 [it 1 (flag x.discarded)] (streamClosed k x s)) := by
  unfold execIngestCloseComplete
  rw [hx]
  dsimp only
  rw [hc]
  dsimp only
  rw [mapHas_of_none hd, if_neg Bool.false_ne_true]
  rfl

theorem streamGone_streams (k : Nat) (x : Stream) (s : State) : OnlyStreams s (streamGone k x s) ∧ hostView (streamGone k x s) = hostView s := by
  have h := sendJoins_reporting "LEAVE" (legsOf x.params) s
  refine ⟨OnlyStreams.trans (b := sendJoins "LEAVE" (legsOf x.params) s) h.onlyLedger.streams rfl, ?_⟩
  exact Eq.trans (b := hostView (sendJoins "LEAVE" (legsOf x.params) s)) rfl (sendJoins_tells ..).view

theorem entryOf_streamClosed (k : Nat) (x : Stream) (s : State) :
    if x.discarded || x.closeAbort then (entryOf (streamClosed k x s) k).lostLatch = true
    else (entryOf (streamClosed k x s) k).withdrawn = true := by
  have same := changeEntry_sameSource k
    { entryOf (streamGone k x s) k with
      lostLatch := (entryOf (streamGone k x s) k).lostLatch || (x.discarded || x.closeAbort),
      withdrawn := (entryOf (streamGone k x s) k).withdrawn || !(x.discarded || x.closeAbort) } .close (streamGone k x s)
  split
  · next h =>
    refine (congrArg Entry.lostLatch same).trans ?_
    dsimp only
    rw [h, Bool.or_true]
  · next h =>
    refine (congrArg Entry.withdrawn same).trans ?_
    dsimp only
    rw [Bool.eq_false_of_not_eq_true h, Bool.not_false, Bool.or_true]

/-- The region no layer scans given free (R76). -/
def streamRegionFreed (base k : Nat) (s : State) : State :=
  dropCtx (.ingest k base) (s.modIngest fun i => { i with guards := mapDel i.guards base, closed := mapDel i.closed base })

theorem execIngestReleased_free {base size k : Nat} {s : State} (hg : mapGet s.ingest.guards base = some (size, k))
    (hs : scansBase s base = false) (hc : contextHeld s (.ingest k base) = false) :
    execIngestReleased base s = .next (raise 0x028D .source k [it 8 base] (streamRegionFreed base k s)) := by
  unfold execIngestReleased
  rw [hg]
  dsimp only
  rw [hs, hc, Bool.or_false, if_neg Bool.false_ne_true]
  rfl

theorem streamRegionFreed_contexts (base k : Nat) (s : State) : ∀ c ∈ (streamRegionFreed base k s).gates.contexts, c.ctx ≠ .ingest k base := fun _ hc =>
  bne_iff_ne.mp (List.mem_filter.mp hc).2

/-- Settles O12: the stream, its context and its entry are made and taken away together; nothing after them reaches them. -/
theorem streamsOpenAndClose : Obligations.StreamsOpenAndClose := by
  unfold Obligations.StreamsOpenAndClose
  refine ⟨?open_, ?counters, ?close, ?closed, ?released⟩
  case open_ =>
    intro d b e s h hd hc he
    refine h.completes rfl ?_
    rw [ingestOpenBody_ok (s := taken d (.ingestOpen b) s) (e := e) hd hc he]
    obtain ⟨honly, hview, hentry⟩ := streamOpened_keeps b e (taken d (.ingestOpen b) s)
    obtain ⟨h1, h2, h3, h4, -⟩ := entryOf_enterUnknown b.source
      (openedEntry b (taken d (.ingestOpen b) s).time.wall (entryOf (taken d (.ingestOpen b) s) b.source)) (streamPut b e (taken d (.ingestOpen b) s))
    obtain ⟨k1, k2, k3⟩ := openedEntry_fields b (taken d (.ingestOpen b) s).time.wall (entryOf (taken d (.ingestOpen b) s) b.source)
    rw [(complete_reporting ..).ingest, (complete_reporting ..).entryOf, (complete_reporting ..).gates, hentry, honly.ingest, honly.gates]
    refine ⟨mapGet_mapPut_self .., fun k hk => mapGet_mapPut_ne _ _ hk, h1.trans k1, h2, h3.trans k2, h4.trans k3, fun l hl hm => ?_, ?_,
      h.reports hview 0 []⟩
    · exact (complete_adds ..).mem (sendJoins_sends hl hm _)
    · exact List.mem_append_right _ List.mem_cons_self
  case counters =>
    intro d k x s h hd hx
    refine h.completes rfl ?_
    rw [show ingestCountersBody k (ticketOf d (cmdKind (.ingestCounters k)) s) (taken d (.ingestCounters k) s)
        = completeRecord (ticketOf d (cmdKind (.ingestCounters k)) s) 256 (counterItems x) [] (taken d (.ingestCounters k) s) by
      unfold ingestCountersBody
      rw [show (taken d (.ingestCounters k) s).ingest.streams = s.ingest.streams from rfl, hx]]
    exact h.writesRecord hd 256 _ []
  case close =>
    intro d k abort x s h hx hc hd
    refine h.completes rfl ?_
    rw [ingestCloseBody_open (s := taken d (.ingestClose k abort) s) hx hc hd]
    exact ⟨mapGet_modStream (s := taken d (.ingestClose k abort) s) hx _, ticket_in_flight .., rfl⟩
  case closed =>
    intro k x tk r s hx hc hd _ horg hq hatt hr
    obtain ⟨hgone, hview⟩ := streamGone_streams k x s
    refine ⟨_, execIngestCloseComplete_drained hx hc hd, ?_⟩
    beta_reduce
    rw [(complete_reporting ..).ingest, (complete_reporting ..).entryOf, show (streamClosed k x s).ingest = (streamGone k x s).ingest from
      (changeEntry_onlyLedger ..).ingest]
    refine ⟨mapGet_mapDel_self .., mapGet_mapPut_self .., entryOf_streamClosed k x s, ?_, ?_⟩
    · exact complete_finishes (u := streamClosed k x s) ((hostView_changeEntry ..).trans hview) tk 0 _ horg (.inl hq) hatt r hr
    · exact (hgone.trans (changeEntry_onlyLedger ..).streams).trans (complete_reporting ..).onlyLedger.streams
  case released =>
    intro base size k s hg hs hc
    refine ⟨_, execIngestReleased_free hg hs hc, ?_⟩
    beta_reduce
    have hrep := raise_reporting 0x028D .source k [it 8 base] (streamRegionFreed base k s) false
    rw [hrep.ingest, hrep.gates]
    refine ⟨mapGet_mapDel_self .., mapGet_mapDel_self .., rfl, streamRegionFreed_contexts base k s,
      raise_raises _ _ _ _ s (streamRegionFreed base k s) _ rfl rfl rfl rfl rfl rfl, ?_⟩
    unfold Reporting at *
    rw [hrep]
    rfl

end Sys2Proof.Machine
end

-- Ports and proxies (R51 to R54, R72 to R74, R77)
section
/-! SUPPORT. An interface's link, what queries and requests are answered with, and the packets of a proxy frame. -/

namespace Sys2Proof.Machine

open Sys2Proof

/-- Only ingest differs, and what reports. -/
abbrev OnlyIngest (s t : State) : Prop := Reporting s { t with ingest := s.ingest }

theorem OnlyIngest.reporting {a b c : State} (h : OnlyIngest a b) (k : Reporting b c) : OnlyIngest a c := by
  unfold OnlyIngest Reporting at *
  rw [State.mk.injEq] at *
  simp_all

/-- What does not wait for the lanes of a bond is sent, and that alone (R326). -/
theorem emit_unqueued {o : Out} {s : State} (h : queued o s = none) : emit o s = { s with outbox := o :: s.outbox } := by
  unfold emit
  simp only [h, Option.isSome_none, Bool.false_eq_true, if_false]

/-! ## Ports -/

/-- A port with the interface its descriptor names set (R51, R52). -/
def portSet (b : PortBody) (p : IngestPort) : IngestPort :=
  { p with
    mode := if b.lane = 0 then b.mode else p.mode,
    lanes := mapPut p.lanes b.lane (laneOf b (mapGetD p.lanes b.lane Lane.init)) }

/-- A port of the module put. -/
def portPut (port : Nat) (p : IngestPort) (s : State) : State := s.modIngest fun i => { i with ports := mapPut i.ports port p }

theorem portOf_portPut (port : Nat) (p : IngestPort) (s : State) : portOf (portPut port p s) port = p := by
  show mapGetD (mapPut s.ingest.ports port p) port IngestPort.init = p
  unfold mapGetD
  rw [mapGet_mapPut_self]
  rfl

theorem portConfigureBody_ok {b : PortBody} {s : State} (h : portConfigureCheck b s = 0) (tk : Ticket) :
    portConfigureBody b tk s = complete tk 0 [] (portPut b.port (portSet b (portOf s b.port)) s) := by
  unfold portConfigureBody
  dsimp only
  rw [h, bne_self_eq_false, if_neg Bool.false_ne_true]
  rfl

theorem Reporting.portOf {s t : State} (h : Reporting s t) (port : Nat) : Machine.portOf t port = Machine.portOf s port := by
  unfold Machine.portOf
  rw [h.ingest]

/-- A port after its optics changed (R51). -/
def opticsSet (what : Nat) (f : OpticsFacts) (p : IngestPort) : IngestPort :=
  { p with
    opticsIn := if what = 0 then true else if what = 1 then false else p.opticsIn,
    opticsId := if what = 0 then f.identity else if what = 1 then [] else p.opticsId,
    opticsAlarms := if what = 2 then f.alarms else if what = 1 then 0 else p.opticsAlarms }

theorem execOpticsChange_noted {port : Nat} {s : State} (hm : mainUp s = true) (hp : port ≤ 5) (what : Nat) (f : OpticsFacts) :
    execOpticsChange port what f s
      = .next (raise 0x0284 .port port [it 1 what, it 4 f.alarms] (portPut port (opticsSet what f (portOf s port)) s)) := by
  have hc : (mainUp s && decide (port ≤ 5)) = true := by rw [hm, decide_eq_true hp]; rfl
  unfold execOpticsChange
  rw [if_pos hc]
  rfl

/-- A port with the link of an interface noted (R77). -/
def linkSet (lane : Nat) (up : Bool) (p : IngestPort) : IngestPort :=
  { p with lanes := mapUpd p.lanes lane fun l => { l with linkUp := up } }

theorem execPortLink_noted {port lane : Nat} {l : Lane} {s : State} (hm : mainUp s = true) (hp : port ≤ 5)
    (hl : ingestLane s port lane = some l) (up : Bool) :
    execPortLink port lane up s
      = .next (raise 0x0283 .port port [it 1 lane, it 1 (flag up)] (portPut port (linkSet lane up (portOf s port)) s)) := by
  have hc : (mainUp s && decide (port ≤ 5) && (ingestLane s port lane).isSome) = true := by rw [hm, decide_eq_true hp, hl]; rfl
  unfold execPortLink
  rw [if_pos hc]
  rfl

/-- The interface that a port provides at a lane (R51). -/
def providedLane (p : IngestPort) (lane : Nat) : Option Lane :=
  if p.mode = 1 && lane = 0 then mapGet p.lanes 0
  else if p.mode = 2 && lane ≤ 3 then mapGet p.lanes lane
  else none

theorem ingestLane_of_port {s : State} {port : Nat} {p : IngestPort} (h : mapGet s.ingest.ports port = some p) (lane : Nat) :
    ingestLane s port lane = providedLane p lane := by
  unfold ingestLane
  rw [h]
  rfl

theorem port_of_ingestLane {s : State} {port lane : Nat} {l : Lane} (h : ingestLane s port lane = some l) :
    mapGet s.ingest.ports port = some (portOf s port) := by
  unfold portOf mapGetD
  cases hp : mapGet s.ingest.ports port with
  | none =>
    unfold ingestLane at h
    rw [hp] at h
    cases h
  | some p => rfl

theorem providedLane_linkSet {p : IngestPort} {lane : Nat} {l : Lane} (h : providedLane p lane = some l) (up : Bool) :
    providedLane (linkSet lane up p) lane = some { l with linkUp := up } := by
  have hupd {m : Map Lane} (hm : mapGet m lane = some l) :
      mapGet (mapUpd m lane fun l => { l with linkUp := up }) lane = some { l with linkUp := up } := by
    rw [mapGet_mapUpd, if_pos rfl, hm]
    rfl
  unfold providedLane at *
  split at h
  · next hc =>
    have hlane : lane = 0 := by simp at hc; exact hc.2
    subst hlane
    exact (if_pos hc).trans (hupd h)
  · next hn =>
    split at h
    · next hc => exact ((if_neg hn).trans (if_pos hc)).trans (hupd h)
    · cases h

/-! ## Queries and requests -/

/-- The joined legs of an interface, of one IP version (R54). -/
def joinedLegs (s : State) (port lane : Nat) (mld : Bool) : List Leg :=
  ((mapVals s.ingest.streams).flatMap fun x => x.legs.map LegRt.leg).filter fun l =>
    l.port = port && l.lane = lane && l.ipv6 = mld && isMulticast l.ipv6 l.group

theorem mem_joinedLegs {s : State} {port lane : Nat} {mld : Bool} {x : Stream} {l : LegRt} (hx : x ∈ mapVals s.ingest.streams)
    (hl : l ∈ x.legs) (hp : l.leg.port = port) (hn : l.leg.lane = lane) (hv : l.leg.ipv6 = mld)
    (hm : isMulticast mld l.leg.group = true) : l.leg ∈ joinedLegs s port lane mld := by
  refine List.mem_filter.mpr ⟨List.mem_flatMap.mpr ⟨x, hx, List.mem_map_of_mem hl⟩, ?_⟩
  rw [decide_eq_true hp, decide_eq_true hn, hv, hm]
  simp

theorem execQueryRx_answers {s : State} {port lane : Nat} {mld : Bool} (hm : mainUp s = true) (hl : (ingestLane s port lane).isSome = true)
    (hj : joinedLegs s port lane mld ≠ []) :
    execQueryRx port lane mld s
      = .next (emit (.packet port lane (if mld then "MLD_REPORT" else "IGMP_REPORT")
          ((joinedLegs s port lane mld).flatMap fun l => [(l.group : Int), (l.source : Int)])) s) := by
  have hne : (joinedLegs s port lane mld).isEmpty = false := List.isEmpty_eq_false_iff.mpr hj
  have hc : (mainUp s && (ingestLane s port lane).isSome && !(joinedLegs s port lane mld).isEmpty) = true := by rw [hm, hl, hne]; rfl
  exact congrArg Host.Outcome.next (if_pos hc)

theorem execNeighbourRequestRx_answers {s : State} {port lane kind address : Nat} {l : Lane} (hp : port < 6) (hm : mainUp s = true)
    (hk : kind ≤ 3) (hl : ingestLane s port lane = some l)
    (ha : if kind = 1 ∨ kind = 3 then l.ipv6En = true ∧ l.ipv6 = address else l.ipv4En = true ∧ l.ipv4 = address) :
    execNeighbourRequestRx port lane kind address s = .next (emit (.packet port lane (answerName kind) [(address : Int)]) s) := by
  have hlane : answeringLane s port lane = some l := by
    unfold answeringLane
    rw [if_pos hp, if_pos hm, hl]
  have h17 : ¬ port = 17 := by omega
  unfold execNeighbourRequestRx
  rw [hlane]
  dsimp only
  rw [if_neg h17]
  refine congrArg Host.Outcome.next (if_pos ?_)
  by_cases hv : kind = 1 ∨ kind = 3
  · rw [if_pos hv] at ha
    simp [hv, ha, hk]
  · rw [if_neg hv] at ha
    simp [hv, ha, hk]

/-! ## Proxies -/

/-- A proxy stream put. -/
def proxyPut (k : Nat) (p : Proxy) (s : State) : State := s.modIngest fun i => { i with proxies := mapPut i.proxies k p }

/-- A proxy stream as PROXY_OPEN makes it (R72, R74). -/
def newProxy (b : ProxyBody) (s : State) : Proxy := { body := b, sending := s.mgmt.step < 2, seq := 0, queue := [] }

/-- The proxy opened and told. -/
def proxyOpened (b : ProxyBody) (s : State) : State :=
  raiseProxy b.source (s.mgmt.step < 2) (if s.mgmt.step < 2 then 0 else 1) (proxyPut b.source (newProxy b s) s)

theorem proxyOpenBody_ok {b : ProxyBody} {s : State} (h : proxyOpenCheck b s = 0) (tk : Ticket) :
    proxyOpenBody b tk s = complete tk 0 [] (proxyOpened b s) := by
  unfold proxyOpenBody
  dsimp only
  rw [h, bne_self_eq_false, if_neg Bool.false_ne_true]
  rfl

/-- The proxy taken away and told. -/
def proxyClosed (k : Nat) (s : State) : State :=
  raiseProxy k false 0 (s.modIngest fun i => { i with proxies := mapDel i.proxies k })

theorem proxyCloseBody_open {k : Nat} {p : Proxy} {s : State} (h : mapGet s.ingest.proxies k = some p) (tk : Ticket) :
    proxyCloseBody k tk s = complete tk 0 [] (proxyClosed k s) := if_pos (mapHas_of_get h)

theorem raiseProxy_reporting (k : Nat) (sending : Bool) (cause : Nat) (s : State) : Reporting s (raiseProxy k sending cause s) :=
  raise_reporting ..

theorem hostView_raiseProxy (k : Nat) (sending : Bool) (cause : Nat) (s : State) : hostView (raiseProxy k sending cause s) = hostView s :=
  hostView_raise ..

/-- One packet of a proxy stream. -/
def proxyPacket (b : ProxyBody) (l : Lane) (d : List Byte) : Out :=
  .datagram b.port b.lane l.vlan l.pcp b.dscp b.ipv6 (laneAddress l b.ipv6) b.group b.udpPort d

/-- Packets sent one after another, the last of them first among the outputs. -/
theorem foldl_emit_unqueued {α : Type} (f : α → Out) (hf : ∀ x s, queued (f x) s = none) (l : List α) (s : State) :
    l.foldl (fun s x => emit (f x) s) s = { s with outbox := (l.map f).reverse ++ s.outbox } := by
  induction l generalizing s with
  | nil => rfl
  | cons x l ih =>
    rw [List.foldl_cons, ih, emit_unqueued (hf x s), List.map_cons, List.reverse_cons, List.append_assoc]
    rfl

theorem execProxyFrameSend_sends {k u : Nat} {p : Proxy} {f : ProxyFrame} {rest : List ProxyFrame} {l : Lane} {s : State}
    (hp : mapGet s.ingest.proxies k = some p) (hq : p.queue = f :: rest) (hu : uNs s = some u)
    (hl : ingestLane s p.body.port p.body.lane = some l) (hs : p.sending = true) (hstep : s.mgmt.step < 2) (hm : mainUp s = true)
    (hv : verdictOf (entryOf s k) = true) :
    execProxyFrameSend k s
      = .next (proxyPut k { p with seq := (p.seq + (proxyRuns f).length) % 4294967296, queue := rest }
          ((proxyFrame p.body p.seq u f).foldl (fun s d => emit (proxyPacket p.body l d) s) s)) := by
  have hc : (p.sending && decide (s.mgmt.step < 2) && mainUp s && verdictOf (entryOf s k)) = true := by
    rw [hs, decide_eq_true hstep, hm, hv]
    rfl
  unfold execProxyFrameSend
  rw [hp]
  dsimp only
  rw [hq]
  dsimp only
  rw [hu, hl]
  dsimp only
  rw [if_pos hc]
  rfl

theorem execProxyFrameSend_drops {k : Nat} {p : Proxy} {f : ProxyFrame} {rest : List ProxyFrame} {s : State}
    (hp : mapGet s.ingest.proxies k = some p) (hq : p.queue = f :: rest) (hv : verdictOf (entryOf s k) = false) :
    execProxyFrameSend k s = .next (proxyPut k { p with queue := rest } s) := by
  have hc : ¬ (p.sending && decide (s.mgmt.step < 2) && mainUp s && verdictOf (entryOf s k)) = true := by
    rw [hv, Bool.and_false]
    exact Bool.false_ne_true
  unfold execProxyFrameSend
  rw [hp]
  dsimp only
  rw [hq]
  dsimp only
  split
  · rw [if_neg hc]
    rfl
  · rfl

/-- Settles O11: a port and a proxy are put whole; what is answered or sent is sent and changes nothing else. -/
theorem portsAndProxiesAreServed : Obligations.PortsAndProxiesAreServed := by
  unfold Obligations.PortsAndProxiesAreServed
  refine ⟨?configure, ?optics, ?link, ?query, ?request, ?opens, ?closes, ?sends, ?drops⟩
  case configure =>
    intro d b s h hc
    refine h.completes rfl ?_
    rw [portConfigureBody_ok (s := taken d (.portConfigure b) s) hc, (complete_reporting ..).portOf, (complete_reporting ..).ingest, portOf_portPut]
    exact ⟨rfl, mapGet_mapPut_self .., fun p hp => mapGet_mapPut_ne _ _ hp, rfl,
      h.reports (u := portPut b.port (portSet b (portOf (taken d (.portConfigure b) s) b.port)) (taken d (.portConfigure b) s)) rfl 0 [],
      OnlyIngest.reporting (b := portPut b.port (portSet b (portOf s b.port)) (taken d (.portConfigure b) s)) rfl (complete_reporting ..)⟩
  case optics =>
    intro port what alarms id s hm hp _
    refine ⟨_, execOpticsChange_noted hm hp what ⟨alarms, id⟩, ?_⟩
    beta_reduce
    rw [(raise_reporting ..).portOf, portOf_portPut]
    exact ⟨rfl, fun h => if_pos h, fun h => if_pos h,
      raise_raises _ _ _ _ s (portPut port (opticsSet what ⟨alarms, id⟩ (portOf s port)) s) _ rfl rfl rfl rfl rfl rfl,
      OnlyIngest.reporting (b := portPut port _ s) rfl (raise_reporting ..)⟩
  case link =>
    intro port lane up l s hm hp hl
    have hport := port_of_ingestLane hl
    refine ⟨_, execPortLink_noted hm hp hl up, ?_, ?_, ?_⟩
    · have hput : mapGet (raise 0x0283 .port port [it 1 lane, it 1 (flag up)] (portPut port (linkSet lane up (portOf s port)) s)).ingest.ports port
          = some (linkSet lane up (portOf s port)) := by
        rw [(raise_reporting ..).ingest]
        exact mapGet_mapPut_self ..
      rw [ingestLane_of_port hput]
      rw [ingestLane_of_port hport] at hl
      exact providedLane_linkSet hl up
    · exact raise_raises _ _ _ _ s (portPut port (linkSet lane up (portOf s port)) s) _ rfl rfl rfl rfl rfl rfl
    · exact OnlyIngest.reporting (b := portPut port _ s) rfl (raise_reporting ..)
  case query =>
    intro port lane mld s hm hl hex
    obtain ⟨x, hx, l, hmem, h1, h2, h3, h4⟩ := hex
    have hne : joinedLegs s port lane mld ≠ [] := List.ne_nil_of_mem (mem_joinedLegs hx hmem h1 h2 h3 h4)
    refine ⟨_, execQueryRx_answers hm hl hne, ?_⟩
    beta_reduce
    rw [emit_unqueued rfl]
    refine ⟨⟨_, rfl, fun x hx l hl hp hn hv hg => ?_⟩, rfl⟩
    exact List.mem_flatMap.mpr ⟨l.leg, mem_joinedLegs hx hl hp hn hv hg, List.mem_cons_self⟩
  case request =>
    intro port lane kind address l s hp hm hk hl ha
    exact ⟨_, execNeighbourRequestRx_answers hp hm hk hl ha, emit_unqueued rfl⟩
  case opens =>
    intro d b s h hc
    refine h.completes rfl ?_
    rw [proxyOpenBody_ok (s := taken d (.proxyOpen b) s) hc, (complete_reporting ..).ingest,
      show (proxyOpened b (taken d (.proxyOpen b) s)).ingest = _ from (raiseProxy_reporting ..).ingest]
    exact ⟨mapGet_mapPut_self .., fun k hk => mapGet_mapPut_ne _ _ hk, rfl,
      h.reports (u := proxyOpened b (taken d (.proxyOpen b) s)) (hostView_raiseProxy ..) 0 [],
      OnlyIngest.reporting (b := proxyOpened b (taken d (.proxyOpen b) s))
        (OnlyIngest.reporting (b := proxyPut b.source _ (taken d (.proxyOpen b) s)) rfl (raiseProxy_reporting ..)) (complete_reporting ..)⟩
  case closes =>
    intro d k p s h hp
    refine h.completes rfl ?_
    rw [proxyCloseBody_open (s := taken d (.proxyClose k) s) hp, (complete_reporting ..).ingest,
      show (proxyClosed k (taken d (.proxyClose k) s)).ingest = _ from (raiseProxy_reporting ..).ingest]
    exact ⟨mapGet_mapDel_self .., rfl,
      h.reports (u := proxyClosed k (taken d (.proxyClose k) s)) (hostView_raiseProxy ..) 0 [],
      OnlyIngest.reporting (b := proxyClosed k (taken d (.proxyClose k) s))
        (OnlyIngest.reporting (b := (taken d (.proxyClose k) s).modIngest _) rfl (raiseProxy_reporting ..)) (complete_reporting ..)⟩
  case sends =>
    intro k p f rest l u s hp hq hu hl hs hstep hm hv
    refine ⟨_, execProxyFrameSend_sends hp hq hu hl hs hstep hm hv, ?_⟩
    beta_reduce
    rw [foldl_emit_unqueued (proxyPacket p.body l) (fun _ _ => rfl)]
    exact ⟨rfl, mapGet_mapPut_self .., rfl⟩
  case drops =>
    intro k p f rest s hp hq hv
    exact ⟨_, execProxyFrameSend_drops hp hq hv, mapGet_mapPut_self .., rfl⟩

end Sys2Proof.Machine
end

-- Packets and frames (R55, R64, R65, R67 to R71, R77)
section
/-! SUPPORT. A stream after a change of one leg, after a frame delivered, and after its losses are told; what receipts leave of ingest. -/

namespace Sys2Proof.Machine

open Sys2Proof

/-! ## Streams and their legs -/

/-- A stream with one leg changed. -/
def legSet (i : Nat) (f : LegRt → LegRt) (x : Stream) : Stream := { x with legs := x.legs.mapIdx fun j l => if j = i then f l else l }

theorem legs_legSet {i : Nat} {l : LegRt} {x : Stream} (h : x.legs[i]? = some l) (f : LegRt → LegRt) : (legSet i f x).legs[i]? = some (f l) := by
  unfold legSet
  rw [List.getElem?_mapIdx, h]
  exact congrArg some (if_pos rfl)

theorem mapGet_modLeg {k : Nat} {x : Stream} {s : State} (h : mapGet s.ingest.streams k = some x) (i : Nat) (f : LegRt → LegRt) :
    mapGet (modLeg k i f s).ingest.streams k = some (legSet i f x) := mapGet_modStream h _

/-- A stream whose losses have been told (R77). -/
def lossesTold (x : Stream) (late missing incomplete now : Nat) : Stream :=
  { x with lossLate := late, lossMissing := missing, lossIncomplete := incomplete, lossNs := now }

theorem lossReport_or (k : Nat) (s : State) :
    lossReport k s = s
      ∨ ∃ a b n i, lossReport k s = raise 0x0287 .source k i (modStream k (fun x => lossesTold x a b x.incomplete n) s) := by
  unfold lossReport
  cases mapGet s.ingest.streams k with
  | none => exact .inl rfl
  | some x =>
    dsimp only
    split
    · exact .inr ⟨sumN (x.legs.map LegRt.late), sumN (x.legs.map LegRt.missing), s.time.mono, _, rfl⟩
    · exact .inl rfl

theorem mapGet_lossReport {k : Nat} {x : Stream} {s : State} (h : mapGet s.ingest.streams k = some x) :
    ∃ a b c n, mapGet (lossReport k s).ingest.streams k = some (lossesTold x a b c n) := by
  obtain he | ⟨a, b, n, i, he⟩ := lossReport_or k s
  · rw [he]
    exact ⟨x.lossLate, x.lossMissing, x.lossIncomplete, x.lossNs, h⟩
  · rw [he, (raise_reporting ..).ingest]
    exact ⟨a, b, x.incomplete, n, mapGet_modStream h _⟩

theorem lossReport_onlyIngest (k : Nat) (s : State) : OnlyIngest s (lossReport k s) := by
  obtain he | ⟨a, b, n, i, he⟩ := lossReport_or k s
  · rw [he]
    rfl
  · rw [he]
    exact OnlyIngest.reporting (b := modStream k _ s) rfl (raise_reporting ..)

theorem lossReport_tells (k : Nat) (s : State) : Tells s (lossReport k s) := by
  obtain he | ⟨a, b, n, i, he⟩ := lossReport_or k s
  · rw [he]
    exact .refl s
  · rw [he]
    exact Tells.trans (b := modStream k _ s) (.same rfl rfl rfl rfl) (raise_tells ..)

theorem OnlyIngest.trans {a b c : State} (h : OnlyIngest a b) (k : OnlyIngest b c) : OnlyIngest a c := by
  unfold OnlyIngest Reporting at *
  rw [State.mk.injEq] at *
  simp_all

theorem OnlyIngest.entryOf {s t : State} (h : OnlyIngest s t) (k : Nat) : Machine.entryOf t k = Machine.entryOf s k :=
  Reporting.entryOf (t := { t with ingest := s.ingest }) h k

/-! ## A packet received -/

section
variable {p : RtpPacket} {ln : Lane} {k i : Nat} {x : Stream} {l : LegRt} {s : State} (hrun : ingestRuns s = true)
  (hlane : ingestLane s p.port p.lane = some ln) (htake : laneTakes ln p = true) (hof : streamOf s p = some (k, x, i))
  (hclose : x.closing = none) (hstop : x.stopped = false) (hleg : x.legs[i]? = some l)
include hrun hlane htake hof hclose hstop hleg

/-- A packet of an open stream is judged by its SSRC, then by its format (R55, R67). -/
theorem execRtpPacketRx_open :
    execRtpPacketRx p s
      = .next
          (if l.leg.checkSsrc && p.ssrc != l.leg.ssrc then modLeg k i (fun l => { l with ssrcMismatch := l.ssrcMismatch + 1 }) s
           else ((mismatch x.params p).map fun c => tellMismatch k c s).getD (takePacket k i l x p s)) := by
  have hc : (ingestRuns s && ((ingestLane s p.port p.lane).map fun l => laneTakes l p).getD false) = true := by
    rw [hrun, hlane, Option.map_some, Option.getD_some, htake]
    rfl
  unfold execRtpPacketRx
  rw [if_pos hc, hof]
  dsimp only
  rw [hclose, hstop, hleg, Option.isSome_none, Bool.false_or, if_neg Bool.false_ne_true]
  dsimp only
  cases mismatch x.params p <;> rfl

theorem execRtpPacketRx_foreign (hcheck : l.leg.checkSsrc = true) (hssrc : p.ssrc ≠ l.leg.ssrc) :
    execRtpPacketRx p s = .next (modLeg k i (fun l => { l with ssrcMismatch := l.ssrcMismatch + 1 }) s) := by
  rw [execRtpPacketRx_open hrun hlane htake hof hclose hstop hleg, if_pos (by rw [hcheck]; exact bne_iff_ne.mpr hssrc)]

theorem execRtpPacketRx_judged (hssrc : l.leg.checkSsrc = true → p.ssrc = l.leg.ssrc) :
    execRtpPacketRx p s = .next (((mismatch x.params p).map fun c => tellMismatch k c s).getD (takePacket k i l x p s)) := by
  rw [execRtpPacketRx_open hrun hlane htake hof hclose hstop hleg, if_neg ?_]
  rw [Bool.and_eq_true, bne_iff_ne]
  exact fun h => h.2 (hssrc h.1)

end

/-- A limited event that none of its key precedes is told at once (R287). -/
theorem raiseLimited_first {key : Nat} {s : State} (h : mapGet s.queue.limiters key = none) (period n c : Nat) (k : ScopeKind) (i : Nat)
    (mk : Nat → Items) : Raises c k i (mk n) s (raiseLimited period key n c k i mk s) := by
  unfold raiseLimited
  rw [h]
  exact raise_raises _ _ _ _ s (s.modQueue fun q => { q with limiters := mapPut q.limiters key (s.time.mono, 0) }) _ rfl rfl rfl rfl rfl rfl

/-! ## A packet taken on its leg -/

/-- A leg that has just heard a packet (R77). -/
def legHeard (now : Nat) (l : LegRt) : LegRt := { l with lastNs := now, heard := true, silent := false, packets := l.packets + 1 }

/-- The packet counted on its leg, and the source's last packet noted. -/
def packetHeard (k i : Nat) (l : LegRt) (s : State) : State :=
  let u := modLeg k i (legHeard s.time.mono) (if l.silent then raise 0x0286 .source k [it 1 i, it 1 1] s else s)
  setEntry k { entryOf u k with pktNs := u.time.wall } u

/-- A leg whose sequence goes on without a gap (R64, R67). -/
def legFollows (ext ssrc : Nat) (l : LegRt) : LegRt :=
  { l with
    ssrc := some ssrc, missing := l.missing + 0,
    lastExt := match l.lastExt with
      | some r => if modDiff 32 ext r < 0 then some r else some ext
      | none => some ext }

theorem modDiff_self (n : Nat) : modDiff 32 n n = 0 := by
  unfold modDiff
  simp

/-- A packet of the SSRC heard, of a sequence that does not jump (R64, R67). -/
theorem takePacket_follows {k i : Nat} {l : LegRt} {x : Stream} {p : RtpPacket} {s : State}
    (hs : l.ssrc = none ∨ l.ssrc = some p.ssrc) (he : l.lastExt = none ∨ l.lastExt = some (extendSeq x l p)) :
    takePacket k i l x p s
      = lossReport k (placePacket k i (extendSeq x l p) p
          (modLeg k i (legFollows (extendSeq x l p) p.ssrc) (packetHeard k i l s))) := by
  have hchanged : (l.ssrc.map fun v => v != p.ssrc).getD false = false := by
    rcases hs with h | h <;> simp [h]
  have hjumped : (l.lastExt.map fun r => decide (32768 < (modDiff 32 (extendSeq x l p) r).natAbs)).getD false = false := by
    rcases he with h | h
    · rw [h]
      rfl
    · rw [h, Option.map_some, Option.getD_some, modDiff_self]
      rfl
  unfold takePacket
  dsimp only
  rw [hchanged, hjumped, if_neg Bool.false_ne_true, if_neg Bool.false_ne_true, Bool.or_false, if_neg Bool.false_ne_true]
  rcases he with h | h
  · rw [h]
    rfl
  · rw [h]
    dsimp only
    rw [modDiff_self]
    rfl

theorem silentTold_reporting (k i : Nat) (l : LegRt) (s : State) :
    Reporting s (if l.silent then raise 0x0286 .source k [it 1 i, it 1 1] s else s) := by
  split
  · exact raise_reporting ..
  · rfl

theorem mapGet_packetHeard {k : Nat} {x : Stream} {s : State} (h : mapGet s.ingest.streams k = some x) (i : Nat) (l : LegRt) :
    mapGet (packetHeard k i l s).ingest.streams k = some (legSet i (legHeard s.time.mono) x) := by
  refine mapGet_modLeg (s := if l.silent then raise 0x0286 .source k [it 1 i, it 1 1] s else s) ?_ ..
  rw [(silentTold_reporting ..).ingest]
  exact h

theorem packetHeard_time (k i : Nat) (l : LegRt) (s : State) : (packetHeard k i l s).time = s.time := (silentTold_reporting k i l s).time

theorem entryOf_packetHeard (k i : Nat) (l : LegRt) (s : State) : (entryOf (packetHeard k i l s) k).pktNs = s.time.wall := by
  unfold packetHeard
  dsimp only
  rw [entryOf_setEntry_self]
  exact congrArg TimeSt.wall (silentTold_reporting k i l s).time

/-- A packet that the stream holds already is a duplicate (R64). -/
theorem placePacket_duplicate {k i ext : Nat} {p : RtpPacket} {x : Stream} {s : State} (h : mapGet s.ingest.streams k = some x)
    (hheld : x.heldSeqs.contains ext = true) : placePacket k i ext p s = modLeg k i (fun l => { l with duplicates := l.duplicates + 1 }) s := by
  unfold placePacket
  rw [h]
  exact if_pos hheld

/-- The frame that a stream's first packet opens (R64, R65, R70). -/
def firstOpen (x : Stream) (ext : Nat) (p : RtpPacket) (t : TimeSt) : OpenFrame :=
  { ts := p.ts, firstNs := t.wall, firstMono := t.mono, report := x.report, utc := if t.utcValid then some t.utcOffset else none,
    markerSeq := none, packets := [ext], elements := [] ++ p.element.toList.map fun e => (ext, e),
    segments := [] ++ p.segments.map fun g => (ext, g), nals := [] ++ p.nals.map fun g => (ext, g) }

theorem addPacket_first {x : Stream} {p : RtpPacket} (ho : x.open_ = []) (hm : p.marker = false) (ext : Nat) (t : TimeSt) :
    addPacket x ext p t = { x with open_ := [firstOpen x ext p t], heldSeqs := (ext :: x.heldSeqs).take 32768 } := by
  unfold addPacket firstOpen
  dsimp only
  rw [ho, hm]
  simp

/-- The first packet of a stream opens a frame, which it does not complete (R65). -/
theorem placePacket_first {k ext : Nat} {p : RtpPacket} {x : Stream} {s : State} (h : mapGet s.ingest.streams k = some x)
    (hheld : x.heldSeqs = []) (hclosed : x.closedTs = []) (ho : x.open_ = []) (hm : p.marker = false) (i : Nat) :
    placePacket k i ext p s = modStream k (fun x => addPacket x ext p s.time) s := by
  have hget := mapGet_modStream h fun x => addPacket x ext p s.time
  have hwait : frameComplete (addPacket x ext p s.time) (firstOpen x ext p s.time) = false := rfl
  unfold placePacket
  rw [h]
  dsimp only
  rw [hheld, hclosed, ho, List.contains_nil, List.contains_nil, if_neg Bool.false_ne_true, if_neg Bool.false_ne_true]
  unfold closeComplete
  rw [hget, Option.bind_some, show (addPacket x ext p s.time).open_ = [firstOpen x ext p s.time] by rw [addPacket_first ho hm],
    List.find?_cons_of_neg (by rw [hwait]; exact Bool.false_ne_true), List.find?_nil]

/-! ## Frames close -/

/-- A stream without the frame that closes (R65). -/
def frameClosed (f : OpenFrame) (complete_ : Bool) (x : Stream) : Stream :=
  { x with
    open_ := x.open_.filter fun g => g.ts != f.ts, closedTs := (f.ts :: x.closedTs).take 64,
    incomplete := if complete_ then x.incomplete else x.incomplete + 1 }

theorem open_frameClosed {f : OpenFrame} {x : Stream} (h : x.open_ = [f]) (c : Bool) : (frameClosed f c x).open_ = [] := by
  unfold frameClosed
  dsimp only
  rw [h, List.filter_cons_of_neg (by simp), List.filter_nil]

theorem closeFrame_incomplete {k : Nat} {f : OpenFrame} {x : Stream} {s : State} (h : mapGet s.ingest.streams k = some x)
    (hm : x.params.media = 0) : closeFrame k f false s = modStream k (frameClosed f false) s := by
  have hget := mapGet_modStream h (frameClosed f false)
  have hm' : (frameClosed f false x).params.media = 0 := hm
  unfold closeFrame
  change (match mapGet (modStream k (frameClosed f false) s).ingest.streams k with
    | none => _
    | some x => _) = _
  rw [hget]
  dsimp only
  rw [if_pos hm', if_neg Bool.false_ne_true]
  rfl

theorem closeFrame_complete {k : Nat} {f : OpenFrame} {x : Stream} {s : State} (h : mapGet s.ingest.streams k = some x)
    (hm : x.params.media = 0) : closeFrame k f true s = deliverFrame k (frameClosed f true x) f (modStream k (frameClosed f true) s) := by
  have hget := mapGet_modStream h (frameClosed f true)
  have hm' : (frameClosed f true x).params.media = 0 := hm
  unfold closeFrame
  change (match mapGet (modStream k (frameClosed f true) s).ingest.streams k with
    | none => _
    | some x => _) = _
  rw [hget]
  dsimp only
  rw [if_pos hm', if_pos rfl]
  rfl

theorem execFrameCloseDeadline_due {k : Nat} {f : OpenFrame} {x : Stream} {s : State} (hrun : ingestRuns s = true)
    (h : mapGet s.ingest.streams k = some x) (ho : x.open_ = [f])
    (hd : f.firstMono + (jitterUs x.params * 1000 + (if x.params.legCount = 2 then 50000000 else 0)) ≤ s.time.mono) :
    execFrameCloseDeadline k s = .next (lossReport k (closeFrame k f (frameComplete x f) s)) := by
  unfold execFrameCloseDeadline
  rw [if_pos hrun, h]
  dsimp only
  rw [ho, List.find?_cons_of_pos (p := fun f : OpenFrame =>
    decide (f.firstMono + (jitterUs x.params * 1000 + (if x.params.legCount = 2 then 50000000 else 0)) ≤ s.time.mono)) (decide_eq_true hd)]

/-! ## A frame delivered -/

theorem tellElement_reporting (k : Nat) (x : Stream) (f : OpenFrame) (s : State) : Reporting s (tellElement k x f s) := by
  unfold tellElement
  split
  · rfl
  · split
    · rfl
    · exact raiseLimited_reporting ..

theorem tellAhead_reporting (k : Nat) (x : Stream) (f : OpenFrame) (o : Option Origin) (s : State) : Reporting s (tellAhead k x f o s) := by
  unfold tellAhead
  split
  · split
    · exact raiseLimited_reporting ..
    · rfl
  · rfl

theorem tellRegressed_reporting (k : Nat) (x : Stream) (o : Option Origin) (s : State) : Reporting s (tellRegressed k x o s) := by
  unfold tellRegressed
  split
  · split
    · exact raiseLimited_reporting ..
    · rfl
  · rfl

theorem followParent_onlyLedger (k : Nat) (raw : Origin) (fields : List FieldRec) (s : State) (c : Nat) :
    OnlyLedger s (followParent k raw fields s c) := by
  unfold followParent
  dsimp only
  split <;> exact writeEntry_onlyLedger ..

theorem probeByElement_ingest (k : Nat) (before : Bool) (s : State) : (probeByElement k before s).ingest = s.ingest := by
  unfold probeByElement
  split
  · rfl
  · exact (raiseProbe_reporting ..).ingest

theorem networkReceipt_ingest (k : Nat) (o raw : Origin) (e : Option Element) (c : Bool) (s : State) :
    (networkReceipt k o raw e c s).ingest = s.ingest := by
  unfold networkReceipt
  dsimp only
  rw [probeByElement_ingest]
  refine OnlyLedger.ingest ((writeEntry_onlyLedger ..).trans (OnlyLedger.foldl (fun _ _ => ?_) _ _))
  exact followParent_onlyLedger ..

theorem probeFrame_ingest (k w h : Nat) (c : Bool) (px : Nat → Nat → Nat) (s : State) : (probeFrame k w h c px s).ingest = s.ingest := by
  unfold probeFrame
  dsimp only
  (repeat' split) <;> rfl

/-- The first frame told, and that alone of the stream (R77). -/
theorem mapGet_firstFrame {k : Nat} {y : Stream} {s : State} (h : mapGet s.ingest.streams k = some y) (x : Stream) (o : Option Origin) :
    ∃ b, mapGet (firstFrame k x o s).ingest.streams k = some { y with firstPending := b } := by
  unfold firstFrame
  split
  · rw [(raise_reporting ..).ingest]
    exact ⟨_, mapGet_modStream h _⟩
  · exact ⟨y.firstPending, h⟩

theorem writeSegments_accesses (k : Nat) (x : Stream) (slot : Nat) (l : List Segment) (s : State) :
    Accesses s (writeSegments k x slot l s).2 := by
  unfold writeSegments
  have hfold : ∀ (l : List Segment) (r : Bool × State), Accesses r.2 (l.foldl (fun r g =>
      let w := gatedWrite (engineOf x) (.ingest k x.regionBase) none (groupAddr x slot g.offset g.line) g.bytes r.2
      (r.1 || w.2.1, w.2.2)) r).2 := fun l => by
    induction l with
    | nil => exact fun _ => .refl _
    | cons g l ih =>
      intro r
      rw [List.foldl_cons]
      refine Accesses.trans ?_ (ih _)
      exact gatedWrite_accesses ..
  exact hfold l (false, s)

/-- A frame in its slot (R68). -/
def slotFrame (x : Stream) (f : OpenFrame) (slot now : Nat) : SlotFrame :=
  { slot := slot, number := x.nextNumber, doneNs := now, origin := (frameOrigin x f).1, originUs := ((frameOrigin x f).1.map originUs).getD 0,
    fields := mergeFields x.lastFields (frameOrigin x f).2.1 (frameOrigin x f).2.2 }

/-- A stream with a frame delivered, the newest of its slots (R65, R68). -/
def frameDelivered (g : SlotFrame) (origin : Option Int) (x : Stream) : Stream :=
  { x with
    slots := g :: x.slots.filter fun h => h.slot != g.slot, nextNumber := x.nextNumber + 1, delivered := x.delivered + 1,
    lastFields := g.fields, lastOrigin := origin.orElse fun _ => x.lastOrigin }

/-- The receipt of a frame with an origin (R116). -/
def frameReceived (k : Nat) (x : Stream) (f : OpenFrame) (s : State) : State :=
  match (frameOrigin x f).1 with
  | some og => networkReceipt k og ((frameOrigin x f).2.1.getD og) (frameOrigin x f).2.2 false s
  | none => s

/-- What is told of a delivered frame (R71, R118). -/
def frameTold (k : Nat) (x : Stream) (f : OpenFrame) (s : State) : State :=
  tellRegressed k x (frameOrigin x f).1 (tellAhead k x f (frameOrigin x f).1 (tellElement k x f s))

theorem frameTold_reporting (k : Nat) (x : Stream) (f : OpenFrame) (s : State) : Reporting s (frameTold k x f s) :=
  ((tellElement_reporting ..).trans (tellAhead_reporting ..)).trans (tellRegressed_reporting ..)

theorem frameReceived_keeps (k : Nat) (x : Stream) (f : OpenFrame) (s : State) :
    (frameReceived k x f s).ingest = s.ingest ∧ (frameReceived k x f s).mem = s.mem := by
  unfold frameReceived
  split
  · exact ⟨networkReceipt_ingest .., networkReceipt_mem ..⟩
  · exact ⟨rfl, rfl⟩

/-- The stream once a frame has been put into its slot, told and received. -/
def frameStored (k : Nat) (x : Stream) (f : OpenFrame) (slot : Nat) (w : State) : State :=
  frameReceived k x f (firstFrame k x (frameOrigin x f).1 (frameTold k x f
    (modStream k (frameDelivered (slotFrame x f slot w.time.mono) ((frameOrigin x f).1.map Origin.ns)) w)))

theorem deliverFrame_ok {k slot : Nat} {rest : List Nat} {x : Stream} {f : OpenFrame} {s : State} (hf : freeSlots s x = slot :: rest)
    (hw : (writeSegments k x slot (f.segments.map Prod.snd) s).1 = false) :
    deliverFrame k x f s
      = onContent k (probeFrame k x.params.width x.params.height false
          (slotLuma8 (frameStored k x f slot (writeSegments k x slot (f.segments.map Prod.snd) s).2) x slot)
          (frameStored k x f slot (writeSegments k x slot (f.segments.map Prod.snd) s).2)) := by
  unfold deliverFrame
  rw [hf]
  dsimp only
  rw [if_neg (by rw [hw]; exact Bool.false_ne_true)]
  rfl

theorem frameStored_keeps {k : Nat} {x y : Stream} {w : State} (h : mapGet w.ingest.streams k = some y) (f : OpenFrame) (slot : Nat) :
    (∃ b, mapGet (frameStored k x f slot w).ingest.streams k
      = some { frameDelivered (slotFrame x f slot w.time.mono) ((frameOrigin x f).1.map Origin.ns) y with firstPending := b })
      ∧ (frameStored k x f slot w).mem = w.mem := by
  have hput := mapGet_modStream h (frameDelivered (slotFrame x f slot w.time.mono) ((frameOrigin x f).1.map Origin.ns))
  rw [← (frameTold_reporting k x f _).ingest] at hput
  obtain ⟨b, hb⟩ := mapGet_firstFrame hput x (frameOrigin x f).1
  obtain ⟨hi, hm⟩ := frameReceived_keeps k x f (firstFrame k x (frameOrigin x f).1 (frameTold k x f
    (modStream k (frameDelivered (slotFrame x f slot w.time.mono) ((frameOrigin x f).1.map Origin.ns)) w)))
  refine ⟨⟨b, ?_⟩, ?_⟩
  · unfold frameStored
    rw [hi]
    exact hb
  · unfold frameStored
    rw [hm, firstFrame_mem, (frameTold_reporting ..).mem]
    rfl

/-- A delivered frame is the newest of its stream's slots, and memory holds what the write left (R65, R68). -/
theorem deliverFrame_stores {k slot : Nat} {rest : List Nat} {x : Stream} {f : OpenFrame} {s : State}
    (hx : mapGet s.ingest.streams k = some x) (hf : freeSlots s x = slot :: rest)
    (hw : (writeSegments k x slot (f.segments.map Prod.snd) s).1 = false) :
    (∃ b n, mapGet (deliverFrame k x f s).ingest.streams k
      = some { frameDelivered (slotFrame x f slot n) ((frameOrigin x f).1.map Origin.ns) x with firstPending := b })
      ∧ (deliverFrame k x f s).mem = (writeSegments k x slot (f.segments.map Prod.snd) s).2.mem := by
  have hwrite : mapGet (writeSegments k x slot (f.segments.map Prod.snd) s).2.ingest.streams k = some x := by
    rw [(writeSegments_accesses ..).ingest]
    exact hx
  obtain ⟨⟨b, hb⟩, hm⟩ := frameStored_keeps (x := x) hwrite f slot
  rw [deliverFrame_ok hf hw, onContent_mem, probeFrame_mem, hm]
  refine ⟨⟨b, (writeSegments k x slot (f.segments.map Prod.snd) s).2.time.mono, ?_⟩, rfl⟩
  refine Eq.trans ?_ hb
  exact congrArg (fun i : IngestSt => mapGet i.streams k) (probeFrame_ingest ..)

/-! ## Reports and silence -/

theorem mapGet_map_value {α : Type} {m : Map α} {k : Nat} {v : α} (h : mapGet m k = some v) (c : α → Bool) (f : α → α) :
    mapGet (m.map fun p => if c p.2 then (p.1, f p.2) else p) k = some (if c v then f v else v) := by
  induction m with
  | nil => cases h
  | cons p m ih =>
    have hkey : (if c p.2 then (p.1, f p.2) else p) = (p.1, if c p.2 then f p.2 else p.2) := by split <;> rfl
    rw [List.map_cons, hkey]
    by_cases hk : p.1 = k
    · have hv : p.2 = v := Option.some.inj ((if_pos hk).symm.trans h)
      rw [← hv]
      exact if_pos hk
    · exact (if_neg hk).trans (ih ((if_neg hk).symm.trans h))

theorem execLegState_silent {k leg : Nat} {x : Stream} {l : LegRt} {s : State} (hx : mapGet s.ingest.streams k = some x)
    (hl : x.legs[leg]? = some l) (hs : l.silent = false) (hd : l.lastNs + 100000000 ≤ s.time.mono) :
    execLegState k leg s
      = .next (lossReport k (raise 0x0286 .source k [it 1 leg, it 1 0] (modLeg k leg (fun l => { l with silent := true }) s))) := by
  have hc : (!l.silent && decide (l.lastNs + 100000000 ≤ s.time.mono)) = true := by rw [hs, decide_eq_true hd]; rfl
  unfold execLegState
  rw [hx, Option.bind_some, hl]
  exact congrArg Host.Outcome.next (if_pos hc)

/-- Settles O13: a packet and a frame change their own stream; what is told and received after them leaves it. -/
theorem packetsMakeFrames : Obligations.PacketsMakeFrames := by
  unfold Obligations.PacketsMakeFrames
  refine ⟨?foreign, ?format, ?duplicate, ?first_, ?incomplete, ?delivered, ?report, ?silent⟩
  case foreign =>
    intro p ln k x i l s hrun hlane htake hof hx hclose hstop hleg hcheck hssrc
    exact ⟨_, execRtpPacketRx_foreign hrun hlane htake hof hclose hstop hleg hcheck hssrc,
      ⟨_, mapGet_modLeg hx i _, legs_legSet hleg _, rfl⟩, rfl⟩
  case format =>
    intro p ln k x i l c s hrun hlane htake hof hx hclose hstop hleg hssrc hmis
    refine ⟨_, execRtpPacketRx_judged hrun hlane htake hof hclose hstop hleg hssrc, ?_⟩
    beta_reduce
    rw [hmis, Option.map_some, Option.getD_some]
    exact ⟨fun hlim => raiseLimited_first hlim second 1 _ _ _ _, raiseLimited_reporting ..⟩
  case duplicate =>
    intro p ln k x i l s hrun hlane htake hof hx hclose hstop hleg hssrc hmis hext hheard hheld
    have hnoted := mapGet_modLeg (mapGet_packetHeard hx i l) i (legFollows (extendSeq x l p) p.ssrc)
    have hplaced := mapGet_modLeg hnoted i fun l => { l with duplicates := l.duplicates + 1 }
    obtain ⟨a, b, c, n, hlast⟩ := mapGet_lossReport hplaced
    refine ⟨_, execRtpPacketRx_judged hrun hlane htake hof hclose hstop hleg hssrc, ?_⟩
    beta_reduce
    rw [hmis, Option.map_none, Option.getD_none, takePacket_follows (.inr hheard) (.inr hext), placePacket_duplicate hnoted hheld]
    refine ⟨⟨_, _, hlast, legs_legSet (legs_legSet (legs_legSet hleg _) _) _, rfl, rfl, rfl, rfl, rfl, rfl, rfl⟩, ?_⟩
    rw [(lossReport_onlyIngest ..).entryOf]
    exact entryOf_packetHeard k i l s
  case first_ =>
    intro p ln k x i l s hrun hlane htake hof hx hclose hstop hleg hssrc hmis hext hheard hheld hopen hclosed hmark
    have hnoted := mapGet_modLeg (mapGet_packetHeard hx i l) i (legFollows (extendSeq x l p) p.ssrc)
    have hplaced := mapGet_modStream hnoted fun y => addPacket y (extendSeq x l p) p s.time
    rw [addPacket_first (x := legSet i _ (legSet i _ x)) hopen hmark] at hplaced
    obtain ⟨a, b, c, n, hlast⟩ := mapGet_lossReport hplaced
    refine ⟨_, execRtpPacketRx_judged hrun hlane htake hof hclose hstop hleg hssrc, ?_⟩
    beta_reduce
    rw [hmis, Option.map_none, Option.getD_none, takePacket_follows (.inl hheard) (.inl hext),
      placePacket_first hnoted hheld hclosed hopen hmark]
    have htime : (modLeg k i (legFollows (extendSeq x l p) p.ssrc) (packetHeard k i l s)).time = s.time := packetHeard_time k i l s
    rw [htime]
    refine ⟨⟨_, _, firstOpen (legSet i (legFollows (extendSeq x l p) p.ssrc) (legSet i (legHeard s.time.mono) x)) (extendSeq x l p) p s.time,
      hlast, legs_legSet (legs_legSet hleg _) _, rfl, rfl, ?_, rfl, rfl, rfl, rfl, ?_, ?_⟩, ?_⟩
    · exact congrArg (fun r : Option Nat => match r with
        | some r => if modDiff 32 (extendSeq x l p) r < 0 then some r else some (extendSeq x l p)
        | none => some (extendSeq x l p)) hext
    · exact (List.map_map ..).trans (List.map_id _)
    · exact (List.map_map ..).trans (List.map_id _)
    · rw [(lossReport_onlyIngest ..).entryOf]
      exact entryOf_packetHeard k i l s
  case incomplete =>
    intro k x f s hrun hx hopen hmedia hcomplete hd
    obtain ⟨a, b, c, n, hlast⟩ := mapGet_lossReport (mapGet_modStream hx (frameClosed f false))
    refine ⟨_, execFrameCloseDeadline_due hrun hx hopen hd, ?_⟩
    beta_reduce
    rw [hcomplete, closeFrame_incomplete hx hmedia]
    refine ⟨⟨_, hlast, open_frameClosed hopen false, rfl, rfl, rfl, ?_⟩,
      OnlyIngest.trans (b := modStream k (frameClosed f false) s) rfl (lossReport_onlyIngest ..)⟩
    exact List.contains_iff_mem.mpr List.mem_cons_self
  case delivered =>
    intro k x f slot rest s hrun hx hopen hmedia hcomplete hd y u hfree hwrite
    have hy : frameClosed f true x = y := by
      unfold frameClosed
      rw [hopen, List.filter_cons_of_neg (by simp), List.filter_nil]
      rfl
    have hu : modStream k (frameClosed f true) s = u := by
      refine congrArg (fun m => s.modIngest fun i => { i with streams := m }) ?_
      show mapUpd s.ingest.streams k (frameClosed f true) = mapUpd s.ingest.streams k fun _ => y
      unfold mapUpd
      rw [hx]
      exact congrArg (mapPut s.ingest.streams k) hy
    have huy : mapGet u.ingest.streams k = some y := mapGet_modStream hx fun _ => y
    obtain ⟨⟨b, n, hb⟩, hm⟩ := deliverFrame_stores huy hfree hwrite
    obtain ⟨a, c, e, m, hlast⟩ := mapGet_lossReport hb
    refine ⟨_, execFrameCloseDeadline_due hrun hx hopen hd, ?_⟩
    beta_reduce
    rw [hcomplete, closeFrame_complete hx hmedia, hy, hu, lossReport_mem]
    exact ⟨⟨_, _, hlast, rfl, rfl, rfl, rfl, rfl, rfl, rfl⟩, hm⟩
  case report =>
    intro port lane ssrc rtp ntp k x s hrun hx
    exact ⟨_, congrArg Host.Outcome.next (if_pos hrun),
      mapGet_map_value hx (fun x => x.legs.any fun l =>
        l.leg.port = port && l.leg.lane = lane && (l.ssrc = some ssrc || (l.leg.checkSsrc && l.leg.ssrc = ssrc)))
        (fun x => { x with report := some (rtp, ntp) }), rfl⟩
  case silent =>
    intro k leg x l s hx hl hs hd
    have hput := mapGet_modLeg hx leg fun l => { l with silent := true }
    have hraised : mapGet (raise 0x0286 .source k [it 1 leg, it 1 0] (modLeg k leg (fun l => { l with silent := true }) s)).ingest.streams k
        = some (legSet leg (fun l => { l with silent := true }) x) := by
      rw [(raise_reporting ..).ingest]
      exact hput
    obtain ⟨a, b, c, n, hlast⟩ := mapGet_lossReport hraised
    refine ⟨_, execLegState_silent hx hl hs hd, ⟨_, hlast, legs_legSet hl _⟩, ?_, ?_⟩
    · exact (raise_raises _ _ _ _ s (modLeg k leg (fun l => { l with silent := true }) s) _ rfl rfl rfl rfl rfl rfl).tells (lossReport_tells ..)
    · exact OnlyIngest.trans (OnlyIngest.reporting (b := modLeg k leg (fun l => { l with silent := true }) s) rfl (raise_reporting ..))
        (lossReport_onlyIngest ..)

end Sys2Proof.Machine
end

-- Decode attachments (R82 to R86, R98, R101, R103, R104, R113)
section
/-! SUPPORT. A pipeline for which nothing waits takes nothing: at most it forgets what it held for a source that is shed. -/

namespace Sys2Proof.Machine

open Sys2Proof

/-! ## A pipeline for which nothing waits -/

theorem mem_mapPut {α : Type} {m : Map α} {k : Nat} {v : α} {q : Nat × α} (h : q ∈ mapPut m k v) : q = (k, v) ∨ q ∈ m := by
  induction m with
  | nil => exact .inl (List.mem_singleton.mp h)
  | cons p m ih =>
    unfold mapPut at h
    split at h
    · exact (List.mem_cons.mp h)
    · split at h
      · exact (List.mem_cons.mp h).imp id (List.mem_cons_of_mem _)
      · rcases List.mem_cons.mp h with h | h
        · exact .inr (List.mem_cons.mpr (.inl h))
        · exact (ih h).imp id (List.mem_cons_of_mem _)

/-- Every attachment stands on the pipeline that it stood on. -/
def Placed (s t : State) : Prop := ∀ q ∈ t.decode.attached, ∃ o ∈ s.decode.attached, o.1 = q.1 ∧ o.2.pipeline = q.2.pipeline

theorem Placed.refl (s : State) : Placed s s := fun q hq => ⟨q, hq, rfl, rfl⟩

theorem Placed.trans {a b c : State} (h : Placed a b) (k : Placed b c) : Placed a c := by
  intro q hq
  obtain ⟨o, ho, h1, h2⟩ := k q hq
  obtain ⟨n, hn, h3, h4⟩ := h o ho
  exact ⟨n, hn, h3.trans h1, h4.trans h2⟩

theorem Placed.of_attached {s t : State} (h : t.decode.attached = s.decode.attached) : Placed s t := fun q hq => ⟨q, h ▸ hq, rfl, rfl⟩

theorem modAttach_placed (k : Nat) {f : Attach → Attach} (s : State) (hf : ∀ a, mapGet s.decode.attached k = some a → (f a).pipeline = a.pipeline) :
    Placed s (modAttach k f s) := by
  intro q hq
  change q ∈ mapUpd s.decode.attached k f at hq
  unfold mapUpd at hq
  split at hq
  · next a ha =>
    rcases mem_mapPut hq with rfl | hq
    · exact ⟨_, mem_of_mapGet ha, rfl, (hf a ha).symm⟩
    · exact ⟨q, hq, rfl, rfl⟩
  · exact ⟨q, hq, rfl, rfl⟩

/-- No access unit waits for a pipeline. -/
def Unwaited (p : Nat) (s : State) : Prop := ∀ q ∈ onPipe s p, waitingUnits s q.1 = []

theorem Unwaited.of_placed {p : Nat} {s t : State} (h : Unwaited p s) (hp : Placed s t)
    (hw : ∀ k, waitingUnits s k = [] → waitingUnits t k = []) : Unwaited p t := by
  intro q hq
  obtain ⟨hmem, hpipe⟩ := List.mem_filter.mp hq
  obtain ⟨o, ho, hkey, hsame⟩ := hp q hmem
  refine hw _ (hkey ▸ h o (List.mem_filter.mpr ⟨ho, ?_⟩))
  rw [hsame]
  exact hpipe

/-- What a pipeline does for which nothing waits: nothing, or it forgets what it held for a source. -/
structure Idles (s t : State) : Prop where
  frame : t = { s with decode := { s.decode with attached := t.decode.attached }, ingest := t.ingest }
  units : ∀ k, waitingUnits s k = [] → waitingUnits t k = []
  placed : Placed s t
  kept : ∀ k, mapGet t.decode.attached k = mapGet s.decode.attached k
    ∨ mapGet t.decode.attached k = (mapGet s.decode.attached k).map forgetDecode

namespace Idles

theorem refl (s : State) : Idles s s := ⟨rfl, fun _ h => h, .refl s, fun _ => .inl rfl⟩

theorem trans {a b c : State} (h : Idles a b) (k : Idles b c) : Idles a c := by
  refine ⟨?_, fun n hn => k.units n (h.units n hn), h.placed.trans k.placed, fun n => ?_⟩
  · rw [k.frame, h.frame]
  · rcases k.kept n with e | e <;> rcases h.kept n with d | d
    · exact .inl (e.trans d)
    · exact .inr (e.trans d)
    · exact .inr (e.trans (congrArg _ d))
    · refine .inr (e.trans ?_)
      rw [d, Option.map_map]
      rfl

theorem foldl {α : Type} {f : State → α → State} {key : α → Nat} (h : ∀ s x, waitingUnits s (key x) = [] → Idles s (f s x)) (l : List α)
    {s : State} (hl : ∀ x ∈ l, waitingUnits s (key x) = []) : Idles s (l.foldl f s) := by
  induction l generalizing s with
  | nil => exact .refl s
  | cons x l ih =>
    have hx := h s x (hl x List.mem_cons_self)
    exact hx.trans (ih fun y hy => hx.units _ (hl y (List.mem_cons_of_mem _ hy)))

theorem unwaited {p : Nat} {s t : State} (h : Idles s t) (hw : Unwaited p s) : Unwaited p t := hw.of_placed h.placed h.units

variable {s t : State} (h : Idles s t)
include h

theorem view : hostView t = hostView s := (congrArg hostView h.frame).trans rfl
theorem entryOf (k : Nat) : entryOf t k = Sys2Proof.Machine.entryOf s k := (congrArg (Sys2Proof.Machine.entryOf · k) h.frame).trans rfl
theorem queue : t.queue = s.queue := (congrArg State.queue h.frame).trans rfl
theorem outbox : t.outbox = s.outbox := (congrArg State.outbox h.frame).trans rfl
theorem pipelines : t.decode.pipelines = s.decode.pipelines := (congrArg (fun u : State => u.decode.pipelines) h.frame).trans rfl

theorem pipeOf (p : Nat) : pipeOf t p = Sys2Proof.Machine.pipeOf s p := congrArg (mapGetD · p _) h.pipelines

theorem attached {k : Nat} {a : Attach} (ha : mapGet s.decode.attached k = some a) :
    mapGet t.decode.attached k = some a ∨ mapGet t.decode.attached k = some (forgetDecode a) := by
  rcases h.kept k with e | e
  · exact .inl (e.trans ha)
  · exact .inr (e.trans (congrArg _ ha))

theorem unattached {k : Nat} (ha : mapGet s.decode.attached k = none) : mapGet t.decode.attached k = none := by
  rcases h.kept k with e | e
  · exact e.trans ha
  · exact e.trans (congrArg _ ha)

theorem raises {c : Nat} {k : ScopeKind} {i : Nat} {l : Items} {u : State} (hr : Raises c k i l u s) : Raises c k i l u t := by
  intro h1 h2
  obtain ⟨x, hx⟩ := hr h1 h2
  exact ⟨x, by rw [h.queue, h.outbox]; exact hx⟩

end Idles

theorem waitingUnits_modStream (k : Nat) (f : Stream → Stream) (n : Nat) (s : State) :
    waitingUnits (modStream k f s) n = if n = k then ((mapGet s.ingest.streams k).map fun x => (f x).units).getD [] else waitingUnits s n := by
  unfold waitingUnits
  rw [show (modStream k f s).ingest.streams = mapUpd s.ingest.streams k f from rfl, mapGet_mapUpd]
  split
  · rw [Option.map_map]
    rfl
  · rfl

/-- Emptying a source for which nothing waits, and what that leaves of its attachment. -/
theorem emptied_idles (k : Nat) {f : Attach → Attach} {g : Stream → Stream} {s : State} (hg : ∀ x, (g x).units = [])
    (hf : ∀ a, mapGet s.decode.attached k = some a → f a = a ∨ f a = forgetDecode a) : Idles s (modAttach k f (modStream k g s)) := by
  refine ⟨rfl, fun n hn => ?_, ?_, fun n => ?_⟩
  · change waitingUnits (modStream k g s) n = []
    rw [waitingUnits_modStream]
    split
    · cases mapGet s.ingest.streams k with
      | none => rfl
      | some x => exact hg x
    · exact hn
  · refine modAttach_placed (s := modStream k g s) k fun a ha => ?_
    rcases hf a ha with e | e <;> rw [e]
    rfl
  · change mapGet (mapUpd s.decode.attached k f) n = _ ∨ mapGet (mapUpd s.decode.attached k f) n = _
    rw [mapGet_mapUpd]
    split
    · next e =>
      rw [e]
      cases ha : mapGet s.decode.attached k with
      | none => exact .inl rfl
      | some a => exact (hf a ha).imp (congrArg some) (congrArg some)
    · exact .inl rfl

theorem purgeUnits_idles {k : Nat} {s : State} (h : waitingUnits s k = []) : Idles s (purgeUnits k s) := by
  unfold purgeUnits
  rw [h]
  split
  · exact .refl s
  · next a ha =>
    dsimp only
    split
    · exact emptied_idles k (fun _ => rfl) fun b _ => .inr rfl
    · split
      · rw [show (if a.noSlotWait = true then ([] : List AccessUnit).length - (([] : List AccessUnit).dropWhile _).length else 0) = 0 from ite_self ..]
        exact emptied_idles k (fun _ => rfl) fun b _ => .inl rfl
      · exact .refl s

theorem nextUnit_unwaited {p : Nat} {s : State} (h : Unwaited p s) : nextUnit s p = none := by
  have hheads : ((onPipe s p).filterMap fun a => ((waitingUnits s a.1).head?).map fun u => (a.1, (entryOf s a.1).cls, u)) = [] := by
    rw [List.filterMap_eq_nil_iff]
    intro q hq
    rw [h q hq]
    rfl
  unfold nextUnit
  rw [hheads]

theorem startDecodeN_unwaited (n : Nat) {p : Nat} {s : State} (h : Unwaited p s) : startDecodeN n p s = s := by
  cases n with
  | zero => rfl
  | succ n =>
    unfold startDecodeN
    rw [nextUnit_unwaited h]

/-- A pipeline for which nothing waits takes nothing (R85, R101). -/
theorem startDecode_idles {p : Nat} {s : State} (h : Unwaited p s) : Idles s (startDecode p s) := by
  have hpurge : Idles s ((onPipe s p).foldl (fun s a => purgeUnits a.1 s) s) :=
    Idles.foldl (key := Prod.fst) (fun _ _ hx => purgeUnits_idles hx) _ h
  unfold startDecode
  dsimp only
  split
  · exact .refl s
  · split
    · refine hpurge.trans (Idles.foldl (key := Prod.fst) (fun u x _ => ?_) _ (hpurge.unwaited h))
      exact ⟨rfl, (emptied_idles (f := id) x.1 (fun _ => rfl) fun _ _ => .inl rfl).units, .refl _, fun _ => .inl rfl⟩
    · rw [startDecodeN_unwaited _ (hpurge.unwaited h)]
      exact hpurge

/-! ## Attaching (R82 to R86) -/

/-- Only decode attachments and pipelines, the ledger and what reports differ. -/
abbrev OnlyDecoding (s t : State) : Prop := OnlyLedger s { t with decode := s.decode }

theorem OnlyLedger.decoding {s t : State} (h : OnlyLedger s t) : OnlyDecoding s t := by
  unfold OnlyDecoding OnlyLedger at *
  rw [h]

theorem OnlyDecoding.trans {a b c : State} (h : OnlyDecoding a b) (k : OnlyDecoding b c) : OnlyDecoding a c := by
  unfold OnlyDecoding OnlyLedger at *
  rw [State.mk.injEq] at *
  simp_all

theorem OnlyDecoding.after {s u t : State} (h : OnlyDecoding s u) (k : OnlyLedger u t) : OnlyDecoding s t := by
  unfold OnlyDecoding OnlyLedger at *
  rw [State.mk.injEq] at *
  simp_all

theorem OnlyLedger.decode {s t : State} (h : OnlyLedger s t) : t.decode = s.decode := by rw [h]

/-- Children that follow their parent leave its own mark of how concealment is shown (R114). -/
theorem refreshChildren_concealScorch (k : Nat) (s : State) :
    (entryOf (refreshChildren k s) k).concealScorch = (entryOf s k).concealScorch := by
  have hfold (l : List Nat) (x : Bool) (u : State) (h : (entryOf u k).concealScorch = x) :
      (entryOf (l.foldl (fun s c => writeEntry c { entryOf s c with concealScorch := x } .parent s) u) k).concealScorch = x := by
    induction l generalizing u with
    | nil => exact h
    | cons c l ih =>
      refine ih _ ?_
      by_cases e : k = c
      · rw [e, entryOf_writeEntry_self]
        unfold evaluated
        dsimp only
        split <;> rfl
      · rw [entryOf_writeEntry_ne e]
        exact h
  exact hfold _ _ s rfl

theorem changeEntry_concealScorch (k : Nat) (e : Entry) (cause : Cause) (s : State) :
    (entryOf (changeEntry k e cause s) k).concealScorch = e.concealScorch := by
  refine (refreshChildren_concealScorch k _).trans ?_
  rw [entryOf_writeEntry_self]
  unfold evaluated
  dsimp only
  split <;> rfl

theorem enterUnknown_concealScorch (k : Nat) (e : Entry) (s : State) :
    (entryOf (enterUnknown k e s) k).concealScorch = e.concealScorch := by
  obtain ⟨p, l, c, h | h⟩ := enterUnknown_changes k e s
  · rw [h, (raiseProbe_reporting ..).entryOf, changeEntry_concealScorch]
  · rw [h, changeEntry_concealScorch]

/-- The attachment made, and its context with the stream's region (R82, R86). -/
def attachPut (b : AttachBody) (p : Nat) (s : State) : State :=
  match mapGet s.ingest.streams b.source with
  | some x => addCtx (decodeCtx b p x) (s.modDecode fun d => { d with attached := mapPut d.attached b.source (newAttach b p) })
  | none => s.modDecode fun d => { d with attached := mapPut d.attached b.source (newAttach b p) }

/-- The source of the attachment in UNKNOWN (R113). -/
def attachEntered (b : AttachBody) (p : Nat) (s : State) : State :=
  enterUnknown b.source { entryOf (attachPut b p s) b.source with concealScorch := b.policy = 1 } (attachPut b p s)

theorem decodeAttachBody_ok {b : AttachBody} {p : Nat} {s : State} (hc : attachCheck b s = 0) (hp : placeAttach b s = (0, p)) (tk : Ticket) :
    decodeAttachBody b tk s = complete tk 0 [] (startDecode p (attachEntered b p s)) := by
  unfold decodeAttachBody attachEntered attachPut
  rw [hc, hp]
  rfl

theorem attachPut_keeps (b : AttachBody) (p : Nat) (s : State) :
    (attachPut b p s).decode.attached = mapPut s.decode.attached b.source (newAttach b p) ∧ (attachPut b p s).ingest = s.ingest
      ∧ hostView (attachPut b p s) = hostView s := by
  unfold attachPut
  split <;> exact ⟨rfl, rfl, rfl⟩

theorem attachEntered_keeps (b : AttachBody) (p : Nat) (s : State) :
    (attachEntered b p s).decode.attached = mapPut s.decode.attached b.source (newAttach b p) ∧ (attachEntered b p s).ingest = s.ingest
      ∧ hostView (attachEntered b p s) = hostView s := by
  obtain ⟨h1, h2, h3⟩ := attachPut_keeps b p s
  have h := enterUnknown_onlyLedger b.source { entryOf (attachPut b p s) b.source with concealScorch := b.policy = 1 } (attachPut b p s)
  exact ⟨(congrArg DecodeSt.attached h.decode).trans h1, h.ingest.trans h2, (hostView_enterUnknown ..).trans h3⟩

theorem attachEntered_unwaited {b : AttachBody} {p : Nat} {s : State} (hb : waitingUnits s b.source = [])
    (h : ∀ a ∈ onPipe s p, waitingUnits s a.1 = []) : Unwaited p (attachEntered b p s) := by
  obtain ⟨h1, h2, -⟩ := attachEntered_keeps b p s
  intro q hq
  have hsame (k : Nat) : waitingUnits (attachEntered b p s) k = waitingUnits s k := by
    unfold waitingUnits
    rw [h2]
  obtain ⟨hmem, hpipe⟩ := List.mem_filter.mp hq
  rw [h1] at hmem
  rw [hsame]
  rcases mem_mapPut hmem with rfl | hmem
  · exact hb
  · exact h q (List.mem_filter.mpr ⟨hmem, hpipe⟩)

/-! ## Policy, drain and release (R98, R103, R104) -/

/-- The attachment with the policy given. -/
def policySet (policy pct : Nat) (a : Attach) : Attach := { a with body := { a.body with policy := policy, maxConcealPct := pct } }

theorem mapGet_modAttach {k : Nat} {a : Attach} {s : State} (ha : mapGet s.decode.attached k = some a) (f : Attach → Attach) :
    mapGet (modAttach k f s).decode.attached k = some (f a) := by
  refine (mapGet_mapUpd ..).trans ?_
  rw [if_pos rfl, ha]
  rfl

/-- The policy set, and what it says of the source's verdict (R98). -/
def policyMade (k policy pct : Nat) (s : State) : State :=
  changeEntry k { entryOf (modAttach k (policySet policy pct) s) k with concealScorch := policy = 1 } .command
    (modAttach k (policySet policy pct) s)

theorem policyMade_keeps (k policy pct : Nat) (s : State) :
    (policyMade k policy pct s).decode = (modAttach k (policySet policy pct) s).decode ∧ hostView (policyMade k policy pct s) = hostView s
      ∧ OnlyDecoding s (policyMade k policy pct s) ∧ (entryOf (policyMade k policy pct s) k).concealScorch = decide (policy = 1) := by
  have honly : OnlyLedger (modAttach k (policySet policy pct) s) (policyMade k policy pct s) := changeEntry_onlyLedger ..
  exact ⟨honly.decode, (hostView_changeEntry ..).trans rfl,
    OnlyDecoding.after (u := modAttach k (policySet policy pct) s) rfl honly, changeEntry_concealScorch ..⟩

theorem decodePolicyBody_ok {k policy pct : Nat} {a : Attach} {s : State} (hp : policy ≤ 1) (hpct : pct ≤ 100) (hk : k < 8192)
    (ha : mapGet s.decode.attached k = some a) (tk : Ticket) :
    decodePolicyBody k policy pct tk s
      = complete tk 0 [] (policyMade k policy pct s) := by
  have hin : (decide (1 < policy) || decide (100 < pct) || decide (Config.sources ≤ k)) = false := by
    rw [decide_eq_false (by omega), decide_eq_false (by omega), decide_eq_false (p := Config.sources ≤ k) (Nat.not_le.mpr hk)]
    rfl
  unfold decodePolicyBody
  rw [hin, if_neg Bool.false_ne_true, mapHas_of_get ha, Bool.not_true, if_neg Bool.false_ne_true]
  rfl

/-- The attachment with a detach that its command waits for (R103). -/
def detaching (tk : Ticket) (a : Attach) : Attach := { a with draining := true, detachTickets := a.detachTickets ++ [tk] }

theorem decodeDetachBody_drain {k : Nat} {a : Attach} {s : State} (ha : mapGet s.decode.attached k = some a) (tk : Ticket) :
    (decodeDetachBody k false tk s).queue = s.queue ∧ Reporting s { decodeDetachBody k false tk s with decode := s.decode }
      ∧ mapGet (decodeDetachBody k false tk s).decode.attached k = some (detaching tk a) := by
  have hbody : decodeDetachBody k false tk s = startDetach k [tk] false false s := by
    unfold decodeDetachBody
    rw [ha]
    rfl
  rw [hbody]
  refine ⟨rfl, rfl, (mapGet_modAttach ha _).trans ?_⟩
  rw [Bool.or_false]
  rfl

/-- The drained attachment taken away, its buffer set guarded (R103). -/
def detached (k : Nat) (a : Attach) (s : State) : State :=
  s.modDecode fun d =>
    { d with
      attached := mapDel d.attached k, guards := mapPut d.guards a.body.bufBase (a.body.bufSize, k),
      closed := mapPut d.closed a.body.bufBase a }

/-- Its source WITHDRAWN (R113). -/
def detachedEntry (k : Nat) (a : Attach) (s : State) : State :=
  changeEntry k { entryOf (detached k a s) k with withdrawn := true } .detach (detached k a s)

theorem finishDetach_empty {k : Nat} {a : Attach} {tk : Ticket} {s : State} (ha : mapGet s.decode.attached k = some a) (hh : a.held = [])
    (hb : a.byClose = false) (ht : a.detachTickets = [tk]) : finishDetach k a s = complete tk 0 [] (detachedEntry k a s) := by
  have hout : (if a.abort = true then s else outputAll k (awaitingOrder a.held) s) = s := by
    rw [hh]
    exact ite_self s
  unfold finishDetach
  dsimp only
  rw [hout, ha]
  dsimp only [Option.getD_some]
  rw [ht]
  exact congrArg (complete tk 0 []) (if_neg (by rw [hb]; exact Bool.false_ne_true))

theorem execDecodeDetachComplete_drained {k : Nat} {a : Attach} {tk : Ticket} {s : State} (ha : mapGet s.decode.attached k = some a)
    (hd : a.draining = true) (hdr : drained s k a = true) (hh : a.held = []) (hb : a.byClose = false) (ht : a.detachTickets = [tk]) :
    execDecodeDetachComplete k s = .next (complete tk 0 [] (detachedEntry k a s)) := by
  unfold execDecodeDetachComplete
  rw [ha]
  dsimp only
  rw [hd, hdr, Bool.or_true, Bool.and_true, if_pos rfl, finishDetach_empty ha hh hb ht]

/-- The buffer set no layer scans given free (R104). -/
def bufferFreed (base k : Nat) (s : State) : State :=
  dropCtx (.decode k base) (s.modDecode fun d => { d with guards := mapDel d.guards base, closed := mapDel d.closed base })

theorem execDecodeReleased_free {base size k : Nat} {s : State} (hg : mapGet s.decode.guards base = some (size, k))
    (hs : scansBase s base = false) (hc : contextHeld s (.decode k base) = false) :
    execDecodeReleased base s = .next (raise 0x0388 .source k [it 8 base] (bufferFreed base k s)) := by
  unfold execDecodeReleased
  rw [hg]
  dsimp only
  rw [hs, hc, Bool.or_false, if_neg Bool.false_ne_true]
  rfl

theorem bufferFreed_contexts (base k : Nat) (s : State) : ∀ c ∈ (bufferFreed base k s).gates.contexts, c.ctx ≠ .decode k base := fun _ hc =>
  bne_iff_ne.mp (List.mem_filter.mp hc).2

/-- Settles O14: a fresh attachment has nothing to forget, so the pipeline that looks for work leaves it as it was made. -/
theorem attachmentsStartAndEnd : Obligations.AttachmentsStartAndEnd := by
  unfold Obligations.AttachmentsStartAndEnd
  refine ⟨?attach, ?policy, ?status, ?detach, ?complete, ?released⟩
  case attach =>
    intro d b p s h hc hp hb hw
    refine h.completes rfl ?_
    rw [decodeAttachBody_ok (s := taken d (.decodeAttach b) s) hc hp]
    have hidle := startDecode_idles (attachEntered_unwaited (s := taken d (.decodeAttach b) s) hb hw)
    obtain ⟨hatt, -, hview⟩ := attachEntered_keeps b p (taken d (.decodeAttach b) s)
    have hself : mapGet (attachEntered b p (taken d (.decodeAttach b) s)).decode.attached b.source = some (newAttach b p) := by
      rw [hatt]
      exact mapGet_mapPut_self ..
    rw [(complete_reporting ..).decode, (complete_reporting ..).entryOf, hidle.entryOf]
    refine ⟨(hidle.attached hself).elim id id, fun k hk hn => hidle.unattached ?_, (entryOf_enterUnknown ..).2.1,
      enterUnknown_concealScorch .., h.reports (hidle.view.trans hview) 0 []⟩
    rw [hatt]
    exact (mapGet_mapPut_ne _ _ hk).trans hn
  case policy =>
    intro d k policy pct a s h hp hpct hk ha
    refine h.completes rfl ?_
    rw [decodePolicyBody_ok (s := taken d (.decodePolicy k policy pct) s) hp hpct hk ha]
    obtain ⟨hdec, hview, honly, hscorch⟩ := policyMade_keeps k policy pct (taken d (.decodePolicy k policy pct) s)
    rw [(complete_reporting ..).decode, (complete_reporting ..).entryOf, hdec]
    have htaken : OnlyDecoding s (taken d (.decodePolicy k policy pct) s) := rfl
    refine ⟨mapGet_modAttach (s := taken d (.decodePolicy k policy pct) s) ha _, hscorch, h.reports hview 0 [],
      (htaken.trans honly).after (complete_reporting ..).onlyLedger⟩
  case status =>
    intro d k a s h hd ha
    refine h.completes rfl ?_
    rw [show decodeStatusBody k (ticketOf d (cmdKind (.decodeStatus k)) s) (taken d (.decodeStatus k) s)
        = completeRecord (ticketOf d (cmdKind (.decodeStatus k)) s) 256 (decodeStatusItems a) [] (taken d (.decodeStatus k) s) by
      unfold decodeStatusBody
      rw [show (taken d (.decodeStatus k) s).decode.attached = s.decode.attached from rfl, ha]]
    exact h.writesRecord hd 256 _ []
  case detach =>
    intro d k a s h ha
    refine h.completes rfl ?_
    obtain ⟨hq, hrep, hget⟩ := decodeDetachBody_drain (s := taken d (.decodeDetach k false) s) ha
      (ticketOf d (cmdKind (.decodeDetach k false)) s)
    refine ⟨hget, ?_, (take_reporting ..).trans hrep⟩
    rw [hq]
    exact ticket_in_flight ..
  case complete =>
    intro k a tk r s ha hd hdr hh hb ht horg hq hatt hr
    refine ⟨_, execDecodeDetachComplete_drained ha hd hdr hh hb ht, ?_⟩
    beta_reduce
    have honly : OnlyLedger (detached k a s) (detachedEntry k a s) := changeEntry_onlyLedger ..
    rw [(complete_reporting ..).decode, (complete_reporting ..).entryOf, honly.decode]
    refine ⟨mapGet_mapDel_self .., mapGet_mapPut_self .., ?_, ?_, ?_⟩
    · exact congrArg Entry.withdrawn (changeEntry_sameSource k { entryOf (detached k a s) k with withdrawn := true } .detach (detached k a s))
    · exact complete_finishes (u := detachedEntry k a s) (hostView_changeEntry ..) tk 0 _ horg (.inl hq) hatt r hr
    · exact OnlyDecoding.after (u := detached k a s) rfl (honly.trans (complete_reporting ..).onlyLedger)
  case released =>
    intro base size k s hg hs hc
    refine ⟨_, execDecodeReleased_free hg hs hc, ?_⟩
    beta_reduce
    have hrep := raise_reporting 0x0388 .source k [it 8 base] (bufferFreed base k s) false
    rw [hrep.decode, hrep.gates]
    refine ⟨mapGet_mapDel_self .., mapGet_mapDel_self .., rfl, bufferFreed_contexts base k s,
      raise_raises _ _ _ _ s (bufferFreed base k s) _ rfl rfl rfl rfl rfl rfl, ?_⟩
    unfold Reporting at *
    rw [hrep]
    rfl

end Sys2Proof.Machine
end

-- Pictures decoded (R78, R85, R89 to R97, R99, R102, R105)
section
/-! SUPPORT. What follows a picture's output reaches no attachment and no stream; a picture that alone awaits output goes out at once. -/

namespace Sys2Proof.Machine

open Sys2Proof

/-! ## What follows a picture's output -/

/-- No attachment, no pipeline and no stream differs, and what has been told stays. -/
structure Spares (s t : State) : Prop where
  tells : Tells s t
  decode : t.decode = s.decode
  streams : t.ingest.streams = s.ingest.streams

namespace Spares

theorem refl (s : State) : Spares s s := ⟨.refl s, rfl, rfl⟩

theorem trans {a b c : State} (h : Spares a b) (k : Spares b c) : Spares a c :=
  ⟨h.tells.trans k.tells, k.decode.trans h.decode, k.streams.trans h.streams⟩

theorem foldl {α : Type} {g : State → α → State} (h : ∀ s x, Spares s (g s x)) (l : List α) (s : State) : Spares s (l.foldl g s) := by
  induction l generalizing s with
  | nil => exact .refl s
  | cons x l ih => exact (h s x).trans (ih _)

theorem of_reporting {s t : State} (h : Reporting s t) (ht : Tells s t) : Spares s t := ⟨ht, h.decode, congrArg IngestSt.streams h.ingest⟩

theorem of_accesses {s t : State} (h : Accesses s t) : Spares s t := ⟨h.tells, h.decode, congrArg IngestSt.streams h.ingest⟩

end Spares

theorem raise_spares (c : Nat) (k : ScopeKind) (i : Nat) (l : Items) (s : State) (a : Bool) : Spares s (raise c k i l s a) :=
  .of_reporting (raise_reporting ..) (raise_tells ..)

theorem raiseLimited_spares (p key n c : Nat) (k : ScopeKind) (i : Nat) (mk : Nat → Items) (s : State) :
    Spares s (raiseLimited p key n c k i mk s) := .of_reporting (raiseLimited_reporting ..) (raiseLimited_tells ..)

theorem writeEntry_spares (k : Nat) (e : Entry) (cause : Cause) (s : State) : Spares s (writeEntry k e cause s) :=
  ⟨(writeEntry_works ..).moves.tells, (writeEntry_onlyLedger ..).decode, congrArg IngestSt.streams (writeEntry_onlyLedger ..).ingest⟩

theorem followParent_spares (parent : Nat) (raw : Origin) (fields : List FieldRec) (s : State) (c : Nat) :
    Spares s (followParent parent raw fields s c) := by
  unfold followParent
  dsimp only
  split <;> exact writeEntry_spares ..

theorem probeByElement_spares (k : Nat) (before : Bool) (s : State) : Spares s (probeByElement k before s) := by
  unfold probeByElement
  split
  · exact .refl s
  · exact (Spares.of_accesses (draw_accesses s)).trans (raise_spares ..)

theorem networkReceipt_spares (k : Nat) (o raw : Origin) (x : Option Element) (concealed : Bool) (s : State) :
    Spares s (networkReceipt k o raw x concealed s) := by
  unfold networkReceipt
  exact ((writeEntry_spares ..).trans (.foldl (fun _ _ => followParent_spares ..) _ _)).trans (probeByElement_spares ..)

theorem probeFrame_spares (k w h : Nat) (c : Bool) (px : Nat → Nat → Nat) (s : State) : Spares s (probeFrame k w h c px s) := by
  have put (e : Entry) : Spares s (setEntry k e s) := ⟨.same rfl rfl rfl rfl, rfl, rfl⟩
  unfold probeFrame
  dsimp only
  split
  · exact put _
  · split
    · exact put _
    · exact .refl s

theorem onContent_spares (k : Nat) (s : State) : Spares s (onContent k s) := ⟨.same rfl rfl rfl rfl, rfl, rfl⟩

theorem pictureRegressed_spares (k : Nat) (last : Option Int) (q : Picture) (s : State) : Spares s (pictureRegressed k last q s) := by
  unfold pictureRegressed
  split
  · split
    · exact raiseLimited_spares ..
    · exact .refl s
  · exact .refl s

theorem proxyTake_spares (k : Nat) (b : AttachBody) (q : Picture) (s : State) : Spares s (proxyTake k b q s) := by
  unfold proxyTake
  split
  · exact .refl s
  · split
    · exact .refl s
    · split
      · exact ⟨.same rfl rfl rfl rfl, rfl, rfl⟩
      · exact (raise_spares ..).trans ⟨.same rfl rfl rfl rfl, rfl, rfl⟩

theorem tellConcealed_spares (k : Nat) (entering : Bool) (v : Verdict) (poc : Nat) (s : State) : Spares s (tellConcealed k entering v poc s) := by
  have set (f : Map (Nat × Nat)) : Spares s (s.modQueue fun q => { q with limiters := f }) := ⟨⟨rfl, .refl _, List.Subset.refl _⟩, rfl, rfl⟩
  unfold tellConcealed
  dsimp only
  split
  · exact (set _).trans (raiseLimited_spares ..)
  · exact raiseLimited_spares ..

theorem tellIf_spares (c : Bool) (k : Nat) (entering : Bool) (v : Verdict) (poc : Nat) (s : State) :
    Spares s (if c = true then tellConcealed k entering v poc s else s) := by
  split
  · exact tellConcealed_spares ..
  · exact .refl s

theorem writeLines_accesses (who : Initiator) (c : Context) (l : List (Nat × List Byte)) (s : State) : Accesses s (writeLines who c l s).2 := by
  have hfold : ∀ (l : List (Nat × List Byte)) (r : Bool × State), Accesses r.2 (l.foldl (fun r x =>
      let w := gatedWrite who c none x.1 x.2 r.2
      (r.1 || w.2.1, w.2.2)) r).2 := by
    intro l
    induction l with
    | nil => exact fun r => .refl _
    | cons x l ih =>
      intro r
      exact (gatedWrite_accesses who c none x.1 x.2 r.2).trans
        (ih (r.1 || (gatedWrite who c none x.1 x.2 r.2).2.1, (gatedWrite who c none x.1 x.2 r.2).2.2))
  exact hfold l (false, s)

/-! ## An attachment's way through the end of an access unit -/

/-- The attachment is `b` at the end; no stream and no pipeline differs, every attachment keeps its pipeline, and what has been told stays. -/
structure Leaves (k : Nat) (b : Attach) (s t : State) : Prop where
  tells : Tells s t
  streams : t.ingest.streams = s.ingest.streams
  pipelines : t.decode.pipelines = s.decode.pipelines
  placed : Placed s t
  here : mapGet t.decode.attached k = some b

namespace Leaves

theorem refl {k : Nat} {b : Attach} {s : State} (h : mapGet s.decode.attached k = some b) : Leaves k b s s := ⟨.refl s, rfl, rfl, .refl s, h⟩

theorem trans {k : Nat} {a b : Attach} {s t u : State} (h : Leaves k a s t) (g : Leaves k b t u) : Leaves k b s u :=
  ⟨h.tells.trans g.tells, g.streams.trans h.streams, g.pipelines.trans h.pipelines, h.placed.trans g.placed, g.here⟩

theorem spares {k : Nat} {b : Attach} {s t u : State} (h : Leaves k b s t) (g : Spares t u) : Leaves k b s u :=
  ⟨h.tells.trans g.tells, g.streams.trans h.streams, (congrArg DecodeSt.pipelines g.decode).trans h.pipelines,
    h.placed.trans (.of_attached (congrArg DecodeSt.attached g.decode)), (congrArg (fun d : DecodeSt => mapGet d.attached k) g.decode).trans h.here⟩

theorem modAttach {k : Nat} {a : Attach} {s t : State} (h : Leaves k a s t) (f : Attach → Attach) (hf : (f a).pipeline = a.pipeline) :
    Leaves k (f a) s (modAttach k f t) := by
  refine h.trans ⟨.same rfl rfl rfl rfl, rfl, rfl, modAttach_placed k t fun x hx => ?_, mapGet_modAttach h.here f⟩
  rw [h.here] at hx
  rw [← Option.some.inj hx]
  exact hf

theorem modAttach_to {k : Nat} {a b : Attach} {s t : State} (h : Leaves k a s t) {f : Attach → Attach} (hf : f a = b) (hb : b.pipeline = a.pipeline) :
    Leaves k b s (Machine.modAttach k f t) := hf ▸ h.modAttach f (hf ▸ hb)

theorem unwaited {k p : Nat} {b : Attach} {s t : State} (h : Leaves k b s t) (hw : Unwaited p s) : Unwaited p t := by
  refine hw.of_placed h.placed fun n hn => ?_
  unfold waitingUnits
  rw [h.streams]
  exact hn

end Leaves

/-- The attachment with the picture output (R96, R97). -/
def pictureShown (q : Picture) (a : Attach) : Attach :=
  { a with
    shown := q :: a.shown, output := a.output + 1, concealedOut := if q.concealed then a.concealedOut + 1 else a.concealedOut,
    lastOutputOrigin := match q.origin with
      | some o => some o.ns
      | none => a.lastOutputOrigin }

/-- The picture as it is shown now. -/
def shownNow (s : State) (q : Picture) : Picture := { q with awaiting := false, doneNs := s.time.mono }

/-- A picture not of too great a concealed area is output (R96, R97). -/
theorem outputPicture_leaves {k : Nat} {a : Attach} {q : Picture} {s : State} (ha : mapGet s.decode.attached k = some a)
    (hq : q.concealed = true → q.concealedUnits * 100 ≤ a.body.maxConcealPct * q.totalUnits) :
    Leaves k (pictureShown (shownNow s q) a) s (outputPicture k q s) := by
  have hkeep : ¬ (q.concealed && a.body.maxConcealPct * q.totalUnits < q.concealedUnits * 100) = true := by
    rw [Bool.and_eq_true, decide_eq_true_iff]
    exact fun h => absurd (hq h.1) (Nat.not_le.mpr h.2)
  unfold outputPicture
  rw [ha]
  dsimp only
  rw [if_neg hkeep]
  refine (Leaves.modAttach (.refl ha) (pictureShown (shownNow s q)) rfl).spares ?_
  refine Spares.trans ?_ (onContent_spares ..)
  refine Spares.trans ?_ (probeFrame_spares ..)
  refine Spares.trans ?_ (proxyTake_spares ..)
  refine Spares.trans (pictureRegressed_spares k a.lastOutputOrigin (shownNow s q) _) ?_
  split
  · exact networkReceipt_spares ..
  · exact .refl _

theorem awaitingOrder_single {q : Picture} (h : q.awaiting = true) : awaitingOrder [q] = [q] := by
  unfold awaitingOrder
  rw [List.filter_cons_of_pos h]
  rfl

/-- A picture that alone awaits output goes out at once, where nothing is reordered (R99). -/
theorem bump_single {x : SpsInfo} {q : Picture} (hx : x.reorder = 0) (hq : q.awaiting = true) : bump x 2 [q] = [q] := by
  have hdue : outputDue x [q] = true := by
    unfold outputDue
    rw [List.filter_cons_of_pos hq, hx]
    rfl
  have hnone : outputDue x [] = false := by
    unfold outputDue
    rw [hx]
    exact Bool.and_false _
  have hrest : [q].filter (fun o => o.au != q.au) = [] := by simp
  unfold bump
  rw [if_pos hdue, awaitingOrder_single hq]
  dsimp only
  rw [hrest]
  unfold bump
  rw [if_neg (by rw [hnone]; exact Bool.false_ne_true)]

/-! ## A picture put in its place alone (R92, R94 to R96) -/

/-- Nothing is held of the stream, the picture is output, and nothing is reordered. -/
structure Alone (a : Attach) (r : PicFacts) (d : Decoded) (c : InDecode) : Prop where
  held : a.held = []
  output : r.output = true
  reorder : d.sps.reorder = 0
  irap : isIrap a.body.codec c.unit = false
  rasl : isRasl a.body.codec c.unit = false

/-- The attachment with the picture in its place (R92, R94). -/
def picturePlaced (c : InDecode) (r : PicFacts) (d : Decoded) (con : Bool) (held : List Picture) (a : Attach) : Attach :=
  { a with
    held := held, greys := d.greys.filter fun g => r.keeps.contains g.poc, coded := d.coded, concealing := a.concealing || con,
    lastIntact := if con then a.lastIntact else c.unit.origin, slicesAbandoned := a.slicesAbandoned + d.run.abandoned }

/-- A picture neither IRAP nor RASL that alone awaits output is placed and output at once (R96, R99). -/
theorem placePicture_leaves {k : Nat} {a : Attach} {c : InDecode} {r : PicFacts} {d : Decoded} {v : Verdict} {s : State}
    (ha : mapGet s.decode.attached k = some a) (h : Alone a r d c)
    (hv : isConcealed a c.unit v = true → v.area * 100 ≤ a.body.maxConcealPct * ctuTotal d.sps) :
    ∃ held now, Leaves k
      (pictureShown { pictureOf a c r d v (isConcealed a c.unit v) with awaiting := false, doneNs := now }
        (picturePlaced c r d (isConcealed a c.unit v) held a)) s (placePicture k c r d v s) := by
  obtain ⟨hheld, hout, hre, hirap, hrasl⟩ := h
  have honly : onlyRasl a c.unit v = false := by
    unfold onlyRasl
    rw [hrasl]
    rfl
  have hend (held : List Picture) (w : State) (hw : Leaves k (picturePlaced c r d (isConcealed a c.unit v) held a) s w) :
      ∃ held now, Leaves k
        (pictureShown { pictureOf a c r d v (isConcealed a c.unit v) with awaiting := false, doneNs := now }
          (picturePlaced c r d (isConcealed a c.unit v) held a)) s
        (outputAll k (bump d.sps 2 [pictureOf a c r d v (isConcealed a c.unit v)]) w) := by
    rw [bump_single hre hout]
    exact ⟨held, w.time.mono, hw.trans (outputPicture_leaves hw.here hv)⟩
  unfold placePicture
  rw [ha]
  dsimp only
  rw [hheld, hirap, Bool.and_false, Bool.false_and, if_neg Bool.false_ne_true]
  refine hend ?held _ (Leaves.spares (Leaves.modAttach_to (.refl ha) ?eq rfl) (tellIf_spares ..))
  case eq =>
    rw [honly, Bool.not_false, Bool.and_true]
    rfl

/-! ## An access unit decoded (R79, R87) -/

theorem modAttach_here {k : Nat} {a : Attach} {s : State} (ha : mapGet s.decode.attached k = some a) (f : Attach → Attach) :
    modAttach k f s = modAttach k (fun _ => f a) s := by
  have hmap : mapUpd s.decode.attached k f = mapUpd s.decode.attached k (fun _ => f a) := by
    unfold mapUpd
    rw [ha]
  unfold modAttach State.modDecode
  beta_reduce
  rw [hmap]

/-- An access unit that needs no reference, holds no IRAP picture and meets no fault. -/
structure Plain (b : Attach) (c : InDecode) (r : PicFacts) : Prop where
  refused : c.refused = false
  poisoned : c.poisoned = false
  refs : r.refs = []
  hash : r.hash = none
  limits : unitLimits b.body.codec c.unit r = []
  irap : isIrap b.body.codec c.unit = false

/-- What decoding such an access unit comes to. -/
def plainDecoded (b : Attach) (c : InDecode) (x : SpsInfo) (run : SliceRun) : Decoded :=
  { sps := x, run := run, greys := b.greys, coded := b.coded ++ [c.unit.units.filter fun n => !nalSilent b.body.codec n] }

/-- Its lines written to the slot (R79, R80). -/
def plainWrite (k p : Nat) (b : Attach) (c : InDecode) (r : PicFacts) (x : SpsInfo) (run : SliceRun) (s : State) : Bool × State :=
  writeLines ⟨4, p⟩ (decodeContext b.body)
    (pictureLines b.body c.slot x (finalSample (tellLimits k run.limits.reverse r.poc s) b (plainDecoded b c x run) (previousPicture b r.poc)))
    (tellLimits k run.limits.reverse r.poc s)

theorem decodePicture_plain {k p : Nat} {b : Attach} {c : InDecode} {r : PicFacts} {x : SpsInfo} {done : Option Nat} {s : State}
    (hb : mapGet s.decode.attached k = some b) (h : Plain b c r) (harea : (runSlices b.body.codec x c.unit r done).area ≠ [])
    (hw : (plainWrite k p b c r x (runSlices b.body.codec x c.unit r done) s).1 = false) :
    decodePicture k p c r x done s
      = placePicture k c r (plainDecoded b c x (runSlices b.body.codec x c.unit r done))
          (judgeDamage b c.unit r (plainDecoded b c x (runSlices b.body.codec x c.unit r done)) false false false)
          (plainWrite k p b c r x (runSlices b.body.codec x c.unit r done) s).2 := by
  obtain ⟨hr, hp, hrefs, hhash, hlim, hirap⟩ := h
  have hsub : substitutes b x r = [] := by
    unfold substitutes
    rw [hrefs]
    rfl
  have hne : (runSlices b.body.codec x c.unit r done).area.isEmpty = false := by
    rw [List.isEmpty_eq_false_iff]
    exact harea
  have hdiff (l : List (Nat × List Byte)) : hashDiffers b.body.codec c.unit r l = false := by
    unfold hashDiffers
    rw [hhash]
  unfold plainWrite plainDecoded at *
  unfold decodePicture
  rw [hb]
  dsimp only
  rw [hr, hp, hlim, hsub, hirap, List.append_nil, List.nil_append, Bool.or_false, if_neg Bool.false_ne_true, if_neg Bool.false_ne_true, hne,
    if_neg Bool.false_ne_true, if_neg Bool.false_ne_true, hw, hdiff, Bool.or_false, if_neg Bool.false_ne_true]

theorem judgeDamage_plain {b : Attach} {u : AccessUnit} {r : PicFacts} {d : Decoded} (h : r.refs = []) :
    (judgeDamage b u r d false false false).area = ctuTotal d.sps - d.run.area.length
      ∧ (judgeDamage b u r d false false false).predicted = false := by
  unfold judgeDamage
  rw [h]
  exact ⟨rfl, rfl⟩

/-- A picture neither IRAP nor RASL is CONCEALED for its own damage, for that of a reference, or while concealment lasts (R94). -/
theorem isConcealed_plain {a : Attach} {u : AccessUnit} {v : Verdict} (hirap : isIrap a.body.codec u = false)
    (hrasl : isRasl a.body.codec u = false) : isConcealed a u v = (v.area != 0 || v.predicted || a.concealing) := by
  unfold isConcealed
  rw [hirap, hrasl, if_neg Bool.false_ne_true, Bool.false_and, Bool.or_false]

/-! ## The end of an access unit (R78, R85, R89) -/

/-- The attachment with the parameter sets of an access unit (R90). -/
def setsKept (r : PicFacts) (a : Attach) : Attach := { a with sets := keepSets a.body.codec r.sets a.sets }

/-- The pipeline with nothing in it. -/
abbrev pipeFreed (p : Nat) (s : State) : State := setPipe p { current := none, selftest := none } s

theorem pipelineEnd_current {p : Nat} {c : InDecode} {s : State}
    (hp : mapGet s.decode.pipelines p = some { current := some c, selftest := none }) (r : PicFacts) (done : Option Nat) :
    pipelineEnd p r done s = startDecode p (endUnit p c r done (pipeFreed p s)) := by
  have hof : pipeOf s p = { current := some c, selftest := none } := by
    unfold pipeOf mapGetD
    rw [hp]
    rfl
  unfold pipelineEnd
  rw [hof]

theorem pipeOf_pipeFreed (p : Nat) (s : State) : (pipeOf (pipeFreed p s) p).current = none := by
  unfold pipeOf mapGetD
  rw [show mapGet (pipeFreed p s).decode.pipelines p = some { current := none, selftest := none } from mapGet_mapPut_self ..]
  rfl

theorem Leaves.pipe {k p : Nat} {b : Attach} {s t : State} (h : Leaves k b (pipeFreed p s) t) : (pipeOf t p).current = none :=
  (congrArg (fun m => (mapGetD m p { current := none, selftest := none }).current) h.pipelines).trans (pipeOf_pipeFreed p s)

/-- The attachment with the parameter sets held once those of an access unit are kept. -/
def setsPut (r : PicFacts) (a b : Attach) : Attach := { b with sets := keepSets a.body.codec r.sets a.sets }

section
variable {p i : Nat} {c : InDecode} {a : Attach} {r : PicFacts} {fmo : Bool} {x : SpsInfo} {s : State}
  (ha : mapGet s.decode.attached c.source = some a) (hpps : ppsOf (keepSets a.body.codec r.sets a.sets) r.pps = some (i, fmo))
include ha hpps

/-- An access unit of an excluded feature is left undecoded and told (R78). -/
theorem endUnit_excluded (done : Option Nat) {f : Nat}
    (hx : (if isIrap a.body.codec c.unit then spsOf (keepSets a.body.codec r.sets a.sets) i else a.active) = some x)
    (hf : excludedFeature a.body.codec x fmo r = some f) :
    endUnit p c r done s = raise 0x0382 .source c.source [it 1 x.profile, it 1 f]
      (modAttach c.source (fun b => { b with unsupported := b.unsupported + 1, active := some x }) (modAttach c.source (setsPut r a) s)) := by
  unfold endUnit
  dsimp only
  rw [ha]
  dsimp only
  rw [hpps]
  dsimp only [Option.bind_some]
  rw [hx]
  dsimp only
  rw [hf]
  rfl

/-- An IRAP picture whose SPS is beyond the limits is left undecoded and told (R89). -/
theorem endUnit_beyond (done : Option Nat) (hirap : isIrap a.body.codec c.unit = true) (hx : spsOf (keepSets a.body.codec r.sets a.sets) i = some x)
    (hf : excludedFeature a.body.codec x fmo r = none) (hl : spsLimit a.body x ≠ 0) :
    endUnit p c r done s = raise 0x0383 .source c.source [it 1 (spsLimit a.body x)]
      (modAttach c.source (fun b => { b with needIrap := true }) (modAttach c.source (setsPut r a) s)) := by
  unfold endUnit
  dsimp only
  rw [ha]
  dsimp only
  rw [hpps, hirap]
  dsimp only [Option.bind_some]
  rw [if_pos rfl, hx]
  dsimp only
  rw [hf]
  dsimp only
  rw [if_pos (by rw [Bool.true_and]; exact bne_iff_ne.mpr hl)]
  rfl

/-- Any other picture of the sequence is decoded (R79). -/
theorem endUnit_decodes (done : Option Nat) (hirap : isIrap a.body.codec c.unit = false) (hrasl : isRasl a.body.codec c.unit = false)
    (hx : a.active = some x) (hf : excludedFeature a.body.codec x fmo r = none) :
    endUnit p c r done s = decodePicture c.source p c r x done (modAttach c.source (fun _ => setsPut r a a) s) := by
  rw [← modAttach_here ha (setsPut r a)]
  unfold endUnit
  dsimp only
  rw [ha]
  dsimp only
  rw [hpps, hirap, if_neg Bool.false_ne_true, hx]
  dsimp only
  rw [hf]
  dsimp only
  rw [Bool.false_and, if_neg Bool.false_ne_true, hrasl, Bool.false_and, if_neg Bool.false_ne_true, if_neg Bool.false_ne_true]
  rfl

end

/-- An access unit ended with nothing told after its event: the pipeline is idle, the attachment as it is left or forgotten. -/
theorem pipelineEnd_leaves {p : Nat} {c : InDecode} {s : State} {b : Attach}
    (hp : mapGet s.decode.pipelines p = some { current := some c, selftest := none }) (hw : Unwaited p s) {r : PicFacts} {done : Option Nat}
    (h : Leaves c.source b (pipeFreed p s) (endUnit p c r done (pipeFreed p s))) :
    Idles (endUnit p c r done (pipeFreed p s)) (pipelineEnd p r done s) ∧ (pipeOf (pipelineEnd p r done s) p).current = none := by
  have hidle : Idles (endUnit p c r done (pipeFreed p s)) (pipelineEnd p r done s) := by
    rw [pipelineEnd_current hp]
    exact startDecode_idles (h.unwaited hw)
  exact ⟨hidle, (congrArg Pipeline.current (hidle.pipeOf p)).trans h.pipe⟩

theorem execPictureDecodeEnd_inTime {p : Nat} {s : State} (h : pipelineTime s p ≤ maxPipelineNs) (r : PicFacts) :
    execPictureDecodeEnd p r s = .next (pipelineEnd p r none s) := congrArg _ (if_pos h)

theorem execDecodePipelineTimeout_due {p : Nat} {s : State} (h : maxPipelineNs ≤ pipelineTime s p) (r : PartFacts) :
    execDecodePipelineTimeout p r s = .next (pipelineEnd p r.facts (some r.done) s) := congrArg _ (if_pos h)

/-- What decoding a picture plainly comes to, and the damage found. -/
abbrev plainDamage (b : Attach) (c : InDecode) (r : PicFacts) (x : SpsInfo) (done : Option Nat) : Verdict :=
  judgeDamage b c.unit r (plainDecoded b c x (runSlices b.body.codec x c.unit r done)) false false false

/-- The attachment once the picture of a plain access unit has been output. -/
def plainShown (b e : Attach) (c : InDecode) (r : PicFacts) (x : SpsInfo) (done : Option Nat) (con : Bool) (held : List Picture) (now : Nat) :
    Attach :=
  pictureShown
    { pictureOf e c r (plainDecoded b c x (runSlices b.body.codec x c.unit r done)) (plainDamage b c r x done) con with
      awaiting := false, doneNs := now }
    (picturePlaced c r (plainDecoded b c x (runSlices b.body.codec x c.unit r done)) con held e)

/-- The picture of a plain access unit is output, with nothing else of its stream held (R79, R96). -/
theorem decodePicture_outputs {k p : Nat} {b e : Attach} {c : InDecode} {r : PicFacts} {x : SpsInfo} {done : Option Nat} {s : State}
    (hb : mapGet s.decode.attached k = some b) (h : Plain b c r) (harea : (runSlices b.body.codec x c.unit r done).area ≠ [])
    (hw : (plainWrite k p b c r x (runSlices b.body.codec x c.unit r done) s).1 = false)
    (he : mapGet (tellLimits k (runSlices b.body.codec x c.unit r done).limits.reverse r.poc s).decode.attached k = some e)
    (hbody : e.body = b.body) (halone : Alone e r (plainDecoded b c x (runSlices b.body.codec x c.unit r done)) c) {con : Bool}
    (hcon : isConcealed e c.unit (plainDamage b c r x done) = con)
    (harea' : con = true → (plainDamage b c r x done).area * 100 ≤ b.body.maxConcealPct * ctuTotal x) :
    ∃ held now, Leaves k (plainShown b e c r x done con held now)
      (tellLimits k (runSlices b.body.codec x c.unit r done).limits.reverse r.poc s) (decodePicture k p c r x done s) := by
  have hlines := Spares.of_accesses (writeLines_accesses ⟨4, p⟩ (decodeContext b.body)
    (pictureLines b.body c.slot x (finalSample (tellLimits k (runSlices b.body.codec x c.unit r done).limits.reverse r.poc s) b
      (plainDecoded b c x (runSlices b.body.codec x c.unit r done)) (previousPicture b r.poc)))
    (tellLimits k (runSlices b.body.codec x c.unit r done).limits.reverse r.poc s))
  have hwritten := (Leaves.refl he).spares hlines
  obtain ⟨held, now, hplaced⟩ := placePicture_leaves (v := plainDamage b c r x done) hwritten.here halone
    (by rw [hcon, hbody]; exact harea')
  rw [hcon] at hplaced
  rw [decodePicture_plain hb h harea hw]
  exact ⟨held, now, hwritten.trans hplaced⟩

/-! ## Lag (R102) -/

theorem raiseBehind_reporting (k cause n : Nat) (s : State) : Reporting s (raiseBehind k cause n s) := by
  unfold raiseBehind
  split
  · exact .refl s
  · split
    · exact raiseLimited_reporting ..
    · exact raise_reporting ..

theorem startDecode_busy {p : Nat} {s : State} (h : (pipeOf s p).current.isSome = true) : startDecode p s = s := if_pos h

/-- The waiting access units without those before the next IRAP picture, where lag is above 500 ms. -/
def lagAhead (a : Attach) (k : Nat) (s : State) : List AccessUnit :=
  if 500000000 < lagOf s k then (waitingUnits s k).dropWhile fun u => !isIrap a.body.codec u else waitingUnits s k

/-- Of these the reference pictures alone, where lag is above 250 ms. -/
def lagRest (a : Attach) (k : Nat) (s : State) : List AccessUnit :=
  if 250000000 < lagOf s k then (lagAhead a k s).filter (isReference a.body.codec) else lagAhead a k s

/-- The access units discarded for lag. -/
def lagDropped (a : Attach) (k : Nat) (s : State) : State :=
  modAttach k (fun b => { b with needIrap := b.needIrap || decide ((lagAhead a k s).length < (waitingUnits s k).length) })
    (dropForLag k (lagRest a k s) s)

theorem dropForLag_keeps (k : Nat) (rest : List AccessUnit) (s : State) :
    ∃ f : Attach → Attach, (∀ a, f a = { a with lagDrops := a.lagDrops + ((waitingUnits s k).length - rest.length) })
      ∧ Reporting (modAttach k f (modStream k (fun x => { x with units := rest }) s)) (dropForLag k rest s) :=
  ⟨_, fun _ => rfl, raiseBehind_reporting ..⟩

/-- With its pipeline busy the stream only loses what is discarded. -/
theorem execDecodeLag_busy {k : Nat} {a : Attach} {s : State} (ha : mapGet s.decode.attached k = some a)
    (hb : (pipeOf s a.pipeline).current.isSome = true) : execDecodeLag k s = .next (lagDropped a k s) := by
  have hpipe : pipeOf (lagDropped a k s) a.pipeline = pipeOf s a.pipeline := by
    obtain ⟨f, -, hrep⟩ := dropForLag_keeps k (lagRest a k s) s
    have hsame : (dropForLag k (lagRest a k s) s).decode.pipelines = s.decode.pipelines :=
      (congrArg (fun u : State => u.decode.pipelines) hrep).trans rfl
    exact congrArg (mapGetD · a.pipeline { current := none, selftest := none }) hsame
  unfold execDecodeLag
  rw [ha]
  exact congrArg Host.Outcome.next (startDecode_busy (s := lagDropped a k s) (by rw [hpipe]; exact hb))

theorem lagDropped_facts {k : Nat} {a : Attach} {s : State} (ha : mapGet s.decode.attached k = some a) (hw : waitingUnits s k ≠ []) :
    waitingUnits (lagDropped a k s) k = lagRest a k s
      ∧ (∃ b, mapGet (lagDropped a k s).decode.attached k = some b
          ∧ b.lagDrops = a.lagDrops + ((waitingUnits s k).length - (lagRest a k s).length)
          ∧ b.needIrap = (a.needIrap || decide ((lagAhead a k s).length < (waitingUnits s k).length)))
      ∧ Reporting s { lagDropped a k s with decode := s.decode, ingest := s.ingest } := by
  obtain ⟨f, hf, hrep⟩ := dropForLag_keeps k (lagRest a k s) s
  have hget : mapGet (dropForLag k (lagRest a k s) s).decode.attached k = some (f a) := by
    rw [hrep.decode]
    exact mapGet_modAttach (s := modStream k _ s) ha f
  refine ⟨?_, ⟨_, mapGet_modAttach hget _, ?_, ?_⟩, ?_⟩
  · obtain ⟨x, hx⟩ : ∃ x, mapGet s.ingest.streams k = some x := by
      cases hx : mapGet s.ingest.streams k with
      | none => exact absurd (by unfold waitingUnits; rw [hx]; rfl) hw
      | some x => exact ⟨x, rfl⟩
    unfold waitingUnits
    rw [show (lagDropped a k s).ingest = (modStream k (fun x => { x with units := lagRest a k s }) s).ingest from hrep.ingest,
      mapGet_modStream hx]
    rfl
  · rw [hf]
  · rw [hf]
  · unfold Reporting at *
    unfold lagDropped
    generalize dropForLag k (lagRest a k s) s = t at *
    rw [hrep]
    rfl

/-! ## Self-test (R105) -/

/-- A pipeline with no stream takes nothing. -/
theorem startDecode_vacant {p : Nat} {s : State} (h : onPipe s p = []) : startDecode p s = s := by
  unfold startDecode
  dsimp only
  simp only [h, List.foldl_nil]
  split
  · rfl
  · split
    · rfl
    · exact startDecodeN_unwaited _ fun q hq => absurd hq (h ▸ List.not_mem_nil)

theorem decodeSelftestBody_vacant {p : Nat} {s : State} (hp : p ≤ 7) (ht : (pipeOf s p).selftest = none) (h : onPipe s p = []) (tk : Ticket) :
    decodeSelftestBody p tk s = setPipe p { current := none, selftest := some tk } s := by
  unfold decodeSelftestBody
  rw [if_neg (Nat.not_lt.mpr hp), ht, h]
  exact startDecode_vacant (s := setPipe p { current := none, selftest := some tk } s) h

theorem pipeOf_setPipe (p : Nat) (x : Pipeline) (s : State) : pipeOf (setPipe p x s) p = x := by
  unfold pipeOf mapGetD
  rw [show mapGet (setPipe p x s).decode.pipelines p = some x from mapGet_mapPut_self ..]
  rfl

theorem execDecodeSelftestDone_vacant {p : Nat} {tk : Ticket} {s : State} (ht : (pipeOf s p).selftest = some tk) (h : onPipe s p = [])
    (first : Option Nat) :
    execDecodeSelftestDone p first s = .next (complete tk 0 (first.elim [it 1 0] fun n => [it 1 1, it 4 n]) (pipeFreed p s)) := by
  have hon : onPipe (pipeFreed p s) p = [] := h
  unfold execDecodeSelftestDone
  rw [ht]
  dsimp only
  rw [hon, List.foldl_nil, startDecode_vacant hon]
  cases first <;> rfl

/-! ## The obligation -/

/-- Settles O15: what a pipeline does after the end of an access unit, with nothing waiting, takes back nothing of what that end has given. -/
theorem picturesAreDecoded : Obligations.PicturesAreDecoded := by
  unfold Obligations.PicturesAreDecoded
  refine ⟨?excluded, ?beyond, ?whole, ?timeout, ?far, ?late, ?selftest, ?tested⟩
  case excluded =>
    intro p k c a r i fmo x f s ha hk hp ht hpps hx hf hw
    subst hk
    have hend := endUnit_excluded (p := p) (s := pipeFreed p s) ha hpps none hx hf
    have hleaves : Leaves c.source { setsPut r a a with unsupported := a.unsupported + 1, active := some x } (pipeFreed p s)
        (endUnit p c r none (pipeFreed p s)) := by
      rw [hend]
      refine Leaves.spares (Leaves.modAttach_to (.modAttach (.refl (s := pipeFreed p s) ha) (setsPut r a) rfl) ?_ ?_) (raise_spares ..) <;> rfl
    obtain ⟨hidle, hpipe⟩ := pipelineEnd_leaves hp hw hleaves
    refine ⟨_, execPictureDecodeEnd_inTime ht r, hpipe, ?_, ?_⟩
    · rcases hidle.attached hleaves.here with e | e <;> exact ⟨_, e, rfl, rfl, rfl⟩
    · refine hidle.raises ?_
      rw [hend]
      exact raise_raises _ _ _ _ s _ _ rfl rfl rfl rfl rfl rfl
  case beyond =>
    intro p k c a r i fmo x s ha hk hp ht hpps hirap hx hf hl hw
    subst hk
    have hend := endUnit_beyond (p := p) (s := pipeFreed p s) ha hpps none hirap hx hf hl
    have hleaves : Leaves c.source { setsPut r a a with needIrap := true } (pipeFreed p s) (endUnit p c r none (pipeFreed p s)) := by
      rw [hend]
      refine Leaves.spares (Leaves.modAttach_to (.modAttach (.refl (s := pipeFreed p s) ha) (setsPut r a) rfl) ?_ ?_) (raise_spares ..) <;> rfl
    obtain ⟨hidle, hpipe⟩ := pipelineEnd_leaves hp hw hleaves
    refine ⟨_, execPictureDecodeEnd_inTime ht r, hpipe, ?_, ?_⟩
    · rcases hidle.attached hleaves.here with e | e <;> exact ⟨_, e, rfl, rfl, rfl⟩
    · refine hidle.raises ?_
      rw [hend]
      exact raise_raises _ _ _ _ s _ _ rfl rfl rfl rfl rfl rfl
  case whole =>
    intro p k c a r i x s ha hk hp ht hpps hirap hrasl hx hf hr hpo hheld hconc hrefs hhash hout hre hlim hpos run b u d hrun _ harea hwr hw
    subst hk
    have hend : endUnit p c r none (pipeFreed p s) = decodePicture c.source p c r x none u := 
      endUnit_decodes (p := p) (s := pipeFreed p s) ha hpps none hirap hrasl hx hf
    have hhere : mapGet u.decode.attached c.source = some b := mapGet_modAttach (s := pipeFreed p s) ha _
    have hsilent : tellLimits c.source run.limits.reverse r.poc u = u := by
      rw [hrun]
      rfl
    have hne : run.area ≠ [] := List.ne_nil_of_length_pos (harea ▸ hpos)
    have hcon : isConcealed b c.unit (plainDamage b c r x none) = false := by
      have h0 : (plainDamage b c r x none).area = 0 := (judgeDamage_plain hrefs).1.trans (Nat.sub_eq_zero_of_le harea.ge)
      rw [isConcealed_plain (a := b) hirap hrasl, h0, (judgeDamage_plain hrefs).2, show b.concealing = false from hconc]
      rfl
    obtain ⟨held, now, hl⟩ := decodePicture_outputs hhere ⟨hr, hpo, hrefs, hhash, hlim, hirap⟩ hne
      (by unfold plainWrite; rw [hsilent]; exact hwr) (by rw [hsilent]; exact hhere) rfl ⟨hheld, hout, hre, hirap, hrasl⟩ hcon Bool.noConfusion
    have hleaves := (Leaves.modAttach (.refl (s := pipeFreed p s) ha) (fun _ => b) rfl).trans (hsilent ▸ hl)
    rw [← hend] at hleaves
    obtain ⟨hidle, hpipe⟩ := pipelineEnd_leaves hp hw hleaves
    refine ⟨_, execPictureDecodeEnd_inTime ht r, hpipe, ?_⟩
    have hconcealing : (a.concealing || false) = false := (Bool.or_false _).trans hconc
    rcases hidle.attached hleaves.here with e | e <;> exact ⟨_, _, e, rfl, hconcealing, rfl, rfl, rfl, rfl, rfl, rfl⟩
  case timeout =>
    intro p k c a r i x done s ha hk hp ht hpps hirap hrasl hx hf hr hpo hheld hrefs hhash hout hre hlim hpct run b u d hrun hne harea hwr hw
    subst hk
    have hend : endUnit p c r (some done) (pipeFreed p s)
        = decodePicture c.source p c r x (some done) (modAttach c.source (fun _ => b) (pipeFreed p s)) :=
      endUnit_decodes (p := p) (s := pipeFreed p s) ha hpps (some done) hirap hrasl hx hf
    have hput := Leaves.modAttach (.refl (s := pipeFreed p s) ha) (fun _ => b) rfl
    have htold : tellLimits c.source run.limits.reverse r.poc (modAttach c.source (fun _ => b) (pipeFreed p s)) = u := by
      rw [hrun]
      rfl
    have hu : Leaves c.source { b with abandoned := a.abandoned + 1 } (pipeFreed p s) u := by
      refine Leaves.spares (Leaves.modAttach_to hput ?_ ?_) (raise_spares ..) <;> rfl
    have hdamage : (plainDamage b c r x (some done)).area = ctuTotal x - run.area.length := (judgeDamage_plain hrefs).1
    have hcon : isConcealed { b with abandoned := a.abandoned + 1 } c.unit (plainDamage b c r x (some done)) = true := by
      rw [isConcealed_plain (a := { b with abandoned := a.abandoned + 1 }) hirap hrasl, hdamage, bne_iff_ne.mpr (Nat.sub_ne_zero_of_lt harea)]
      rfl
    obtain ⟨held, now, hl⟩ := decodePicture_outputs (e := { b with abandoned := a.abandoned + 1 }) hput.here ⟨hr, hpo, hrefs, hhash, hlim, hirap⟩ hne
      (by unfold plainWrite; rw [htold]; exact hwr) (by rw [htold]; exact hu.here) rfl ⟨hheld, hout, hre, hirap, hrasl⟩ hcon
      (fun _ => by rw [hdamage, show b.body.maxConcealPct = 100 from hpct]; omega)
    have hafter := htold ▸ hl
    have hleaves := hu.trans hafter
    rw [← hend] at hleaves hafter
    obtain ⟨hidle, hpipe⟩ := pipelineEnd_leaves hp hw hleaves
    refine ⟨_, execDecodePipelineTimeout_due ht ⟨done, r⟩, hpipe, ?_, ?_⟩
    · have hconcealing : (a.concealing || true) = true := Bool.or_true _
      rcases hidle.attached hleaves.here with e | e <;> exact ⟨_, _, e, rfl, hconcealing, rfl, rfl, rfl, rfl, rfl, rfl⟩
    · have hraised : Raises 0x0385 .source c.source [it 1 5, it 4 r.poc] s u := raise_raises _ _ _ _ s _ _ rfl rfl rfl rfl rfl rfl
      exact hidle.raises (hraised.tells hafter.tells)
  case far =>
    intro k a u rest s ha hu hlag hb
    obtain ⟨hwait, ⟨b, hget, hdrops, hneed⟩, hrep⟩ := lagDropped_facts ha (by rw [hu]; exact List.cons_ne_nil _ _)
    have hahead : lagAhead a k s = (u :: rest).dropWhile fun x => !isIrap a.body.codec x := by
      rw [lagAhead, if_pos hlag, hu]
    have hrest : lagRest a k s = ((u :: rest).dropWhile fun x => !isIrap a.body.codec x).filter (isReference a.body.codec) := by
      rw [lagRest, if_pos (Nat.lt_trans (by decide) hlag), hahead]
    refine ⟨_, execDecodeLag_busy ha hb, hwait.trans hrest, ⟨b, hget, ?_, fun hi => ?_⟩, hrep⟩
    · rw [hdrops, hwait, hu]
    · rw [hneed, hahead, hu, List.dropWhile_cons_of_pos (by rw [hi]; rfl)]
      rw [Bool.or_eq_true, decide_eq_true_iff]
      exact .inr (Nat.lt_succ_of_le (List.length_dropWhile_le ..))
  case late =>
    intro k a u rest s ha hu hlag hlag' hb
    obtain ⟨hwait, -, hrep⟩ := lagDropped_facts ha (by rw [hu]; exact List.cons_ne_nil _ _)
    refine ⟨_, execDecodeLag_busy ha hb, hwait.trans ?_, hrep⟩
    rw [lagRest, if_pos hlag, lagAhead, if_neg (Nat.not_lt.mpr hlag'), hu]
  case selftest =>
    intro d p s h hp ht hon
    refine h.completes rfl ?_
    rw [decodeSelftestBody_vacant (s := taken d (.decodeSelftest p) s) hp ht hon, pipeOf_setPipe]
    exact ⟨rfl, rfl, ticket_in_flight .., rfl⟩
  case tested =>
    intro p tk first r s ht hon horg hq hatt hr
    refine ⟨_, execDecodeSelftestDone_vacant ht hon first, ?_⟩
    beta_reduce
    have hrep := complete_reporting tk 0 (first.elim [it 1 0] fun n => [it 1 1, it 4 n]) (pipeFreed p s)
    refine ⟨?_, complete_finishes (u := pipeFreed p s) rfl tk 0 _ horg (.inl hq) hatt r hr, ?_⟩
    · unfold pipeOf
      rw [hrep.decode]
      exact congrArg Pipeline.selftest (pipeOf_setPipe p _ s)
    · unfold Reporting at *
      rw [hrep]
      rfl

end Sys2Proof.Machine
end

-- Frames latched and lines composed (R141, R157 to R159, R186, R188 to R190)
section
/-! SUPPORT. After its heads a latch changes only its group, the groups still to come and the runs of overlays; a line composed reaches no
head but its own. -/

namespace Sys2Proof.Machine

open Sys2Proof

/-! ## The heads of a group begin the frame -/

theorem Selecting.ts {a b : State} (h : Selecting a b) : b.ts = a.ts := by rw [h]

theorem Selecting.time {a b : State} (h : Selecting a b) : b.time = a.time := by rw [h]

theorem Selecting.scene {a b : State} (h : Selecting a b) : b.scene = a.scene := by rw [h]

theorem latchAll_selecting (g : Nat) (l : Latch) (s : State) : Selecting s (latchAll g l s) :=
  .foldl (g := fun t h => beginWriteback l.frame h (latchHead l.frame l.start (bankFor s g l.frame) h t))
    (fun _ _ => (latchHead_selecting ..).trans (beginWriteback_selecting ..)) _ s

theorem latchLayer_heads (h n : Nat) (hs : HeadScene) (on o : Bool) (s : State) (i : Nat) :
    (latchLayer h n hs on o s i).compose.heads = s.compose.heads := by
  unfold latchLayer
  split
  · unfold selectLayer
    refine (congrArg ComposeSt.heads (tellVoid_compose ..)).trans ?_
    split
    · exact congrArg ComposeSt.heads (raiseLimited_reporting ..).compose
    · rfl
  · unfold restLayer
    split <;> rfl

theorem latchLayers_heads (h n : Nat) (hs : HeadScene) (on o : Bool) (s : State) :
    (latchLayers h n hs on o s).compose.heads = s.compose.heads := by
  unfold latchLayers
  generalize List.range 20 = l
  induction l generalizing s with
  | nil => rfl
  | cons i l ih => exact (ih _).trans (latchLayer_heads ..)

/-- The frame that a head begins (R141, R158). -/
def begunFrame (n start : Nat) (b : SceneBank) (h : Nat) : CompFrame :=
  { frame := n, start := start, next := if headOn b h then 0 else (headScene b h).timing.vActive, scene := headScene b h }

/-- The head is in that frame. -/
def InFrame (h : Nat) (f : CompFrame) (s : State) : Prop := ∃ c, mapGet s.compose.heads h = some c ∧ c.now = f

theorem InFrame.congr {h : Nat} {f : CompFrame} {s t : State} (k : InFrame h f s) (e : t.compose.heads = s.compose.heads) : InFrame h f t := by
  unfold InFrame
  rw [e]
  exact k

theorem latchHead_begins (n start : Nat) (b : SceneBank) (h : Nat) (s : State) : InFrame h (begunFrame n start b h) (latchHead n start b h s) :=
  ⟨_, mapGet_mapPut_self .., rfl⟩

theorem latchHead_others {h k : Nat} (hk : k ≠ h) (n start : Nat) (b : SceneBank) {f : CompFrame} {s : State} (hf : InFrame h f s) :
    InFrame h f (latchHead n start b k s) := by
  obtain ⟨c, hc⟩ := latchHead_eq n start b k s
  obtain ⟨x, hx, hnow⟩ := hf
  refine ⟨x, ?_, hnow⟩
  rw [hc]
  refine (mapGet_mapPut_ne _ _ hk.symm).trans ?_
  rw [latchLayers_heads]
  exact hx

theorem beginWriteback_heads (n h : Nat) (s : State) : (beginWriteback n h s).compose.heads = s.compose.heads := by
  obtain e | ⟨w, hw⟩ := beginWriteback_cases n h s
  · rw [e]
  · exact (congrArg ComposeSt.heads hw.compose).trans rfl

/-- Every head of the group begins the frame under its bank's records (R141, R188). -/
theorem latchAll_begins {g h : Nat} {l : Latch} {s : State} (hm : h ∈ latchHeads s g l.frame) :
    InFrame h (begunFrame l.frame l.start (bankFor s g l.frame) h) (latchAll g l s) := by
  unfold latchAll
  refine foldl_brings (R := fun _ => True) (a := h) (fun _ _ h => h) (fun u k _ hk _ hq => ?_) (fun u _ => ?_) hm trivial
  · exact (latchHead_others hk _ _ _ hq).congr (beginWriteback_heads ..)
  · exact (latchHead_begins ..).congr (beginWriteback_heads ..)

theorem latch_begins {g h : Nat} {l : Latch} {s : State} (hm : h ∈ latchHeads s g l.frame) :
    InFrame h (begunFrame l.frame l.start (bankFor s g l.frame) h) (latch g l s) :=
  (latchAll_begins hm).congr (congrArg ComposeSt.heads (latch_compose ..))

/-! ## What follows the heads -/

/-- Only overlays and what reports differ. -/
abbrev OnlyRuns (s t : State) : Prop := Reporting s { t with overlay := s.overlay }

theorem OnlyRuns.trans {a b c : State} (h : OnlyRuns a b) (k : OnlyRuns b c) : OnlyRuns a c := by
  unfold OnlyRuns Reporting at *
  rw [State.mk.injEq] at *
  simp_all

theorem Reporting.onlyRuns {s t : State} (h : Reporting s t) : OnlyRuns s t := by
  unfold OnlyRuns Reporting at *
  rw [h]

theorem OnlyRuns.foldl {α : Type} {g : State → α → State} (h : ∀ s x, OnlyRuns s (g s x)) (l : List α) (s : State) : OnlyRuns s (l.foldl g s) := by
  induction l generalizing s with
  | nil => rfl
  | cons x l ih => exact (h s x).trans (ih _)

theorem latchRuns_onlyRuns (g n start : Nat) (s : State) : OnlyRuns s (latchRuns g n start s) := by
  unfold latchRuns
  refine OnlyRuns.foldl (fun s p => ?_) _ s
  dsimp only
  split
  · split
    · exact OnlyRuns.trans (b := s.modOverlay _) rfl (raiseLimited_reporting ..).onlyRuns
    · rfl
  · rfl

theorem orderMoves_reporting (g : Nat) (s : State) : Reporting s (orderMoves g s) := by
  unfold orderMoves
  generalize List.filter _ _ = l
  induction l generalizing s with
  | nil => rfl
  | cons h l ih => exact (emit_reporting ..).trans (ih _)

/-- The group with the frame latched (R186, R188). -/
def groupLatched (l : Latch) (s : State) (x : GroupRt) : GroupRt :=
  { x with latched := some l.frame, latchNs := wallOf s l.at_, nextStart := l.start, paceNs := none }

/-- After the heads and the group, only groups still to come and runs differ (R188, R262, R263). -/
theorem latch_follows (g : Nat) (l : Latch) (s : State) :
    ∃ p, OnlyRuns ((setGroup g (groupLatched l (latchAll g l s) (groupRt (latchAll g l s) g)) (latchAll g l s)).modScene
      fun c => { c with pendingGroups := p }) (latch g l s) := by
  have hruns (u : State) : OnlyRuns u (latchRuns g l.frame l.start (lateRuns g l.frame (wallOf u l.at_) u)) :=
    OnlyRuns.trans (b := lateRuns g l.frame (wallOf u l.at_) u) rfl (latchRuns_onlyRuns ..)
  have hmoves (u : State) (f : Map Nat → Map Nat) : OnlyRuns (u.modScene fun c => { c with pendingGroups := f u.scene.pendingGroups })
      ((orderMoves g u).modScene fun c => { c with pendingGroups := f c.pendingGroups }) := by
    have h := orderMoves_reporting g u
    unfold OnlyRuns Reporting at *
    rw [h]
    rfl
  unfold latch
  dsimp only
  split
  · split
    · exact ⟨_, (hmoves _ fun m => mapDel m g).trans (hruns _)⟩
    · exact ⟨_, hruns _⟩
  · exact ⟨_, hruns _⟩

theorem latch_ts (g : Nat) (l : Latch) (s : State) : groupRt (latch g l s) g = groupLatched l s (groupRt s g) := by
  obtain ⟨p, hp⟩ := latch_follows g l s
  have hsel := latchAll_selecting g l s
  have hgroup : groupRt (latch g l s) g = groupLatched l (latchAll g l s) (groupRt (latchAll g l s) g) :=
    (congrArg (fun t : TsSt => mapGetD t.groups g GroupRt.init) (Reporting.ts hp)).trans (groupRt_setGroup g _ (latchAll g l s))
  rw [hgroup]
  unfold groupLatched groupRt wallOf wallAt
  rw [hsel.ts, hsel.time]

theorem latch_scene (g : Nat) (l : Latch) (s : State) :
    (latch g l s).scene = { s.scene with pendingGroups := (latch g l s).scene.pendingGroups } := by
  obtain ⟨p, hp⟩ := latch_follows g l s
  have hscene : (latch g l s).scene = { s.scene with pendingGroups := p } := by
    rw [Reporting.scene hp]
    exact congrArg (fun c : SceneSt => { c with pendingGroups := p }) (latchAll_selecting g l s).scene
  rw [hscene]

theorem tellLatch_reporting (g : Nat) (r : SyncGroup) (l : Latch) (s : State) : Reporting s (tellLatch g r l s) := by
  unfold tellLatch
  split
  · exact emit_reporting ..
  · exact .refl s

theorem groupRt_congr {s t : State} (h : t.ts = s.ts) (g : Nat) : groupRt t g = groupRt s g := congrArg (fun x : TsSt => mapGetD x.groups g GroupRt.init) h

/-! ## Latch points (R186, R189, R190) -/

theorem execLatchPoint_due {g : Nat} {r : SyncGroup} {l : Latch} {s : State} (hr : groupRec s g = some r) (hl : nextLatch s g r = some l)
    (hin : inService s = true) (hp : paced r = false ∨ decides s = true) :
    execLatchPoint g s = .next (tellLatch g r l (latch g l (applyAt g s))) := by
  have hok : (inService s && (!paced r || decides s)) = true := by
    rcases hp with h | h <;> simp [hin, h]
  unfold execLatchPoint
  rw [hr]
  dsimp only
  rw [hl]
  exact congrArg _ (if_pos hok)

/-- The latch point that the twin has decided (R190). -/
def decidedLatch (g at_ n : Nat) (r : SyncGroup) (s : State) : Latch :=
  ⟨n, monoAt s at_, monoAt s at_ + linesNs r (groupLines (leadTimings s g n)) (leadLines r (leadTimings s g n))⟩

theorem execLatchDecisionRx_taken {g at_ n : Nat} {r : SyncGroup} {s : State} (hr : groupRec s g = some r) (hin : inService s = true)
    (hp : paced r = true) (hd : decides s = false) (hn : (groupRt s g).latched ≠ some n) :
    execLatchDecisionRx g at_ n s = .next (latch g (decidedLatch g at_ n r s) (applyFor g (decidedLatch g at_ n r s) s)) := by
  have hok : (inService s && paced r && !decides s && (groupRt s g).latched != some n) = true := by
    rw [hin, hp, hd, bne_iff_ne.mpr hn]
    rfl
  unfold execLatchDecisionRx
  rw [hr]
  exact congrArg _ (if_pos hok)

/-- The timeout counted and told (R189, R192). -/
def timeoutTold (g : Nat) (l : Latch) (s : State) : State :=
  raiseLimited second (limKey 0x0685 g 0) 1 0x0685 .head (groupScope (setGroup g { groupRt s g with timeouts := (groupRt s g).timeouts + 1 } s) g)
    (fun c => [it 2 g, it 6 l.frame, it 4 c]) (setGroup g { groupRt s g with timeouts := (groupRt s g).timeouts + 1 } s)

theorem timeoutTold_reporting (g : Nat) (l : Latch) (s : State) :
    Reporting (setGroup g { groupRt s g with timeouts := (groupRt s g).timeouts + 1 } s) (timeoutTold g l s) := raiseLimited_reporting ..

theorem applyAt_none {g : Nat} {s : State} (h : s.txn.part = none) : applyAt g s = s := by
  unfold applyAt readyPart
  rw [h]
  rfl

theorem execSyncPaceTimeout_due {g : Nat} {r : SyncGroup} {l : Latch} {s : State} (hr : groupRec s g = some r)
    (hl : timeoutLatch s g r = some l) (hin : inService s = true) (hd : decides s = true) (ht : s.txn.part = none) :
    execSyncPaceTimeout g s = .next (tellLatch g r l (latch g l (timeoutTold g l s))) := by
  have hok : (inService s && decides s) = true := by rw [hin, hd]; rfl
  have happly : applyAt g (timeoutTold g l s) = timeoutTold g l s :=
    applyAt_none ((congrArg TxnSt.part (timeoutTold_reporting g l s).txn).trans ht)
  unfold execSyncPaceTimeout
  rw [hr]
  dsimp only
  rw [hl]
  refine congrArg _ ((if_pos hok).trans ?_)
  exact congrArg (fun u => tellLatch g r l (latch g l u)) happly

theorem latchHeads_congr {s t : State} (hs : t.scene = s.scene) (hc : t.compose = s.compose) (g n : Nat) : latchHeads t g n = latchHeads s g n := by
  unfold latchHeads bankFor movesFrom
  rw [hs, hc]

/-! ## Lines (R157 to R160) -/

/-- No head in composition and nothing of the Tailstock, the scene and the ledger differs, and what was sent stays. -/
structure Composes (s t : State) : Prop where
  adds : Adds s t
  ts : t.ts = s.ts
  scene : t.scene = s.scene
  ledger : t.ledger = s.ledger

namespace Composes

theorem refl (s : State) : Composes s s := ⟨.refl s, rfl, rfl, rfl⟩

theorem trans {a b c : State} (h : Composes a b) (k : Composes b c) : Composes a c :=
  ⟨h.adds.trans k.adds, k.ts.trans h.ts, k.scene.trans h.scene, k.ledger.trans h.ledger⟩

theorem foldl {α : Type} {g : State → α → State} (h : ∀ s x, Composes s (g s x)) (l : List α) (s : State) : Composes s (l.foldl g s) := by
  induction l generalizing s with
  | nil => exact .refl s
  | cons x l ih => exact (h s x).trans (ih _)

theorem of_accesses {s t : State} (h : Accesses s t) : Composes s t := ⟨h.tells.adds, h.ts, h.scene, h.ledger⟩

theorem modCompose (f : ComposeSt → ComposeSt) (s : State) : Composes s (s.modCompose f) := ⟨.refl s, rfl, rfl, rfl⟩

end Composes

theorem fetchLine_accesses (h i line : Nat) (l : Layer) (c : Content) (s : State) : Accesses s (fetchLine h i line l c s).2 := by
  unfold fetchLine
  dsimp only
  generalize List.flatMap _ _ = reads
  have hfold : ∀ a : Bool × State, Accesses a.2 (reads.foldl (fun a x =>
      let g := gatedRead (fetchUnit s h i) (.composition h) none x.1 x.2 a.2
      (a.1 || g.2.2.1 || g.2.2.2.1, g.2.2.2.2)) a).2 := by
    induction reads with
    | nil => exact fun a => .refl _
    | cons x reads ih =>
      intro a
      have hread := gatedRead_accesses (fetchUnit s h i) (.composition h) none x.1 x.2 a.2
      exact hread.trans (ih (a.1 || (gatedRead (fetchUnit s h i) (.composition h) none x.1 x.2 a.2).2.2.1
        || (gatedRead (fetchUnit s h i) (.composition h) none x.1 x.2 a.2).2.2.2.1, _))
  exact hfold (false, s)

theorem underrunLayer_composes (h i line frame : Nat) (poison useOld : Bool) (s : State) : Composes s (underrunLayer h i line frame poison useOld s) :=
  (Composes.modCompose _ s).trans (.of_accesses (raise_accesses ..))

theorem fetchLayers_composes (h line frame : Nat) (hs : HeadScene) (useOld : Bool) (s : State) :
    Composes s (fetchLayers h line frame hs useOld s) := by
  unfold fetchLayers
  refine .foldl (fun s p => ?_) _ s
  split
  · split
    · dsimp only
      split
      · exact (Composes.of_accesses (fetchLine_accesses ..)).trans (underrunLayer_composes ..)
      · exact .of_accesses (fetchLine_accesses ..)
    · exact .refl s
  · exact .refl s

theorem writebackLine_accesses (h : Nat) (hs : HeadScene) (t : LineToken) (s : State) : Accesses s (writebackLine h hs t s) := by
  unfold writebackLine
  split
  · exact .refl s
  · split
    · split
      · dsimp only
        split
        · exact (gatedWrite_accesses ..).trans (gatedWrite_accesses ..)
        · exact gatedWrite_accesses ..
      · exact .refl s
    · exact .refl s

theorem noteSurfaces_composes (h frame : Nat) (useOld : Bool) (s : State) : Composes s (noteSurfaces h frame useOld s) :=
  .foldl (fun s _ => .modCompose _ s) _ s

theorem releaseAfter_composes (h line : Nat) (hs : HeadScene) (useOld : Bool) (s : State) : Composes s (releaseAfter h line hs useOld s) := by
  unfold releaseAfter
  refine .foldl (fun s p => ?_) _ s
  dsimp only
  split
  · split
    · split
      · exact .modCompose _ s
      · exact .refl s
    · split
      · exact .modCompose _ s
      · exact .refl s
  · exact .refl s

/-- The token of the line composed. -/
abbrev lineToken (h : Nat) (c : CompFrame) (useOld : Bool) (s : State) : LineToken :=
  composeLine (fetchLayers h c.next c.frame c.scene useOld s) h c.frame c.next c.scene useOld

/-- A line composed is sent to the Tailstock that emits the head (R157, R209). -/
theorem composeNext_sends (h : Nat) (c : CompFrame) (useOld : Bool) (s : State) :
    Composes s (composeNext h c useOld s)
      ∧ Out.token (if h < 32 then .own else .twin) (lineToken h c useOld s) ∈ (composeNext h c useOld s).outbox := by
  have hfetch := fetchLayers_composes h c.next c.frame c.scene useOld s
  have hwrite := hfetch.trans (.of_accesses (writebackLine_accesses h c.scene (lineToken h c useOld s) _))
  have hsend (t : LineToken) (u : State) : Composes u (sendToken h t u) := ⟨emit_adds .., rfl, rfl, rfl⟩
  have hafter (u : State) : Composes u (releaseAfter h c.next c.scene useOld (noteSurfaces h c.frame useOld u)) :=
    (noteSurfaces_composes ..).trans (releaseAfter_composes ..)
  exact ⟨(hwrite.trans (hsend _ _)).trans (hafter _), (hafter _).adds.mem List.mem_cons_self⟩

/-- The head in composition written. -/
def putComposed (h : Nat) (x : CompHead) (s : State) : State := s.modCompose fun y => { y with heads := mapPut y.heads h x }

/-- The layer switched off from the line on (R159). -/
def layerOff (h i line : Nat) (s : State) : State :=
  setLayer h i { layerRt s h i with underrun := some line, underruns := (layerRt s h i).underruns + 1 } s

section
variable {h line : Nat} {c : CompHead} {s : State} (hc : mapGet s.compose.heads h = some c) (hin : inService s = true)
include hc hin

theorem execLineComposed_now (hm : s.mem.channels.any (fun p => p.2.retraining) = false) (ho : c.old = none) (hn : c.now.next = line)
    (hl : linesLeft c.now = true) (ha : linesAhead s c.now line 64 = true) :
    execLineComposed h line s = .next (putComposed h { c with now := { c.now with next := line + 1 } } (composeNext h c.now false s)) := by
  unfold execLineComposed
  rw [hc]
  dsimp only
  rw [hin, hm, Bool.not_true, Bool.or_false, if_neg Bool.false_ne_true, ho]
  dsimp only
  rw [hn, hl, ha, decide_eq_true rfl, Bool.and_true, Bool.and_true, if_pos rfl]
  rfl

theorem execLineComposed_old {o : CompFrame} (hm : s.mem.channels.any (fun p => p.2.retraining) = false) (ho : c.old = some o)
    (hn : o.next = line) (ha : linesAhead s o line 64 = true) :
    execLineComposed h line s
      = .next (putComposed h { c with old := if line + 1 < o.scene.timing.vActive then some { o with next := line + 1 } else none }
          (composeNext h o true s)) := by
  unfold execLineComposed
  rw [hc]
  dsimp only
  rw [hin, hm, Bool.not_true, Bool.or_false, if_neg Bool.false_ne_true, ho]
  dsimp only
  rw [hn, ha, decide_eq_true rfl, Bool.and_true, if_pos rfl]
  unfold linesLeft
  simp only [decide_eq_true_eq]
  rfl

theorem execFetchDeadline_late {i : Nat} (poison : Bool) (ho : c.old = none) (hcur : (layerRt s h i).cur.isSome = true)
    (hu : (layerRt s h i).underrun = none) (hn : c.now.next ≤ line) (hv : line < c.now.scene.timing.vActive) (hi : i < 20)
    (ha : linesAhead s c.now line 4 = true) :
    execFetchDeadline h i line poison s = .next (underrunLayer h i line c.now.frame poison false s) := by
  have hok : (inService s && (if c.old.isSome = true then (layerRt s h i).old.isSome && (layerRt s h i).oldUnderrun.isNone
      else (layerRt s h i).cur.isSome && (layerRt s h i).underrun.isNone) && decide ((c.old.getD c.now).next ≤ line)
      && decide (line < (c.old.getD c.now).scene.timing.vActive) && decide (i < 20) && linesAhead s (c.old.getD c.now) line 4) = true := by
    rw [ho, hin, hcur, hu]
    simp [hn, hv, hi, ha]
  unfold execFetchDeadline
  rw [hc]
  refine congrArg _ ((if_pos hok).trans ?_)
  rw [ho]
  rfl

end

/-- Settles O18: what follows the heads at a latch point changes no head, and what follows a token takes back nothing that was sent. -/
theorem framesLatchAndLinesCompose : Obligations.FramesLatchAndLinesCompose := by
  unfold Obligations.FramesLatchAndLinesCompose
  refine ⟨?due, ?decided, ?timeout, ?line_, ?old, ?deadline⟩
  case due =>
    intro g r l s hr hl hin hp
    dsimp only
    refine ⟨_, execLatchPoint_due hr hl hin hp, ?_⟩
    beta_reduce
    have htell := tellLatch_reporting g r l (latch g l (applyAt g s))
    rw [groupRt_congr htell.ts, latch_ts, htell.compose, htell.scene]
    exact ⟨rfl, rfl, rfl, rfl, fun h hm => latch_begins hm, latch_scene ..⟩
  case decided =>
    intro g at_ n r s hr hin hp hd hn
    dsimp only
    refine ⟨_, execLatchDecisionRx_taken hr hin hp hd hn, ?_⟩
    beta_reduce
    rw [latch_ts]
    refine ⟨rfl, rfl, rfl, fun h hm => ?_⟩
    obtain ⟨c, hc, hnow⟩ := latch_begins (l := decidedLatch g at_ n r s) hm
    exact ⟨c, hc, by rw [hnow]; rfl, by rw [hnow]; rfl⟩
  case timeout =>
    intro g r l s hr hl hin hd ht
    refine ⟨_, execSyncPaceTimeout_due hr hl hin hd ht, ?_⟩
    beta_reduce
    have htell := tellLatch_reporting g r l (latch g l (timeoutTold g l s))
    have htold := timeoutTold_reporting g l s
    rw [groupRt_congr htell.ts, latch_ts, htell.compose, groupRt_congr htold.ts, groupRt_setGroup]
    refine ⟨rfl, rfl, rfl, fun h hm => ?_⟩
    rw [← latchHeads_congr (s := s) (htold.scene.trans rfl) (htold.compose.trans rfl)] at hm
    obtain ⟨c, hc, hnow⟩ := latch_begins (l := l) hm
    exact ⟨c, hc, by rw [hnow]; rfl⟩
  case line_ =>
    intro h line c s hc hin hm ho hn hl ha
    dsimp only
    refine ⟨_, execLineComposed_now hc hin hm ho hn hl ha, ?_⟩
    obtain ⟨hcomp, hsent⟩ := composeNext_sends h c.now false s
    subst hn
    exact ⟨hsent, mapGet_mapPut_self .., hcomp.ts, hcomp.scene, hcomp.ledger⟩
  case old =>
    intro h line c o s hc hin hm ho hn ha
    dsimp only
    refine ⟨_, execLineComposed_old hc hin hm ho hn ha, ?_⟩
    obtain ⟨hcomp, hsent⟩ := composeNext_sends h o true s
    subst hn
    exact ⟨hsent, mapGet_mapPut_self .., hcomp.ts, hcomp.scene⟩
  case deadline =>
    intro h i line poison c s hc hin ho hcur hu hn hv hi ha
    refine ⟨_, execFetchDeadline_late hc hin poison ho hcur hu hn hv hi ha, ?_⟩
    beta_reduce
    have hrep : Reporting (layerOff h i line s) (underrunLayer h i line c.now.frame poison false s) := raise_reporting ..
    have hoff : layerRt (underrunLayer h i line c.now.frame poison false s) h i
        = { layerRt s h i with underrun := some line, underruns := (layerRt s h i).underruns + 1 } :=
      (layerRt_congr (congrArg ComposeSt.layers hrep.compose) h i).trans (layerRt_setLayer ..)
    refine ⟨hoff, fun y hy => ?_, raise_raises _ _ _ _ s (layerOff h i line s) _ rfl rfl rfl rfl rfl rfl, ?_⟩
    · unfold layerShows
      rw [hoff]
      exact if_pos (decide_eq_true hy)
    · unfold Reporting at *
      rw [hrep]
      rfl

end Sys2Proof.Machine
end
